-- ==== Sys2Proof/Word.lean ====
section
/-! DEFINITION. Word: the words the spec numbers as bits (R9: little-endian on chip), byte strings, and the
one shape of sparse data the state uses: a list of (key, value) pairs in rising key order. -/
namespace Sys2Proof

/-- One byte. -/
abbrev Byte := BitVec 8
/-- A 32-bit lane or register of the scoring and shortlist units (R67). -/
abbrev W32 := BitVec 32
/-- A 64-bit word: the data half of a C72 word (R407). -/
abbrev W64 := BitVec 64
/-- One vector register, VLEN 512 (R33); also one 64-byte line (R37). -/
abbrev V512 := BitVec 512
/-- One bank row or latch: 8,192 columns (Table 5-2). -/
abbrev Row := BitVec 8192
/-- A byte string, lowest address first (R9). -/
abbrev Bytes := List Byte
/-- Sparse data: keys strictly rising. An unlisted key reads as the reader's default. -/
abbrev SMap (α : Type) := List (Nat × α)

end Sys2Proof
end

