-- ==== Sys2Proof/Syntax.lean ====
section
/-! DEFINITION. Syntax: the commands of the block, one constructor of `Instr` per row of the spec's command table,
and the operand types they carry. A command carries what arrives from outside (a packet, a flit, a value written, a
reading, the outcome of a physical event); everything else it needs is in the state. -/
namespace Sys2Proof

/-- Access level of a directory operation, ranked as Table 17-6 lists them. -/
inductive Level where
  | pub | tenant | operator | security
deriving DecidableEq, Repr

/-- Who performs a directory operation (R394, R398): its level, the tenant of a TENANT session, and the session
that carries it (`chain` tells a chain session from an in-band one; `session` 0 is none). -/
structure Actor where
  level : Level
  tenant : Nat
  session : Nat
  chain : Bool
deriving DecidableEq, Repr

/-- A directory value (R397): every fixed-width type as its unsigned bit pattern, STR and BLOB as bytes. -/
inductive DVal where
  | num (n : Nat)
  | blob (b : Bytes)
deriving DecidableEq, Repr

/-- Form of a LOAD or STORE (R33, R34): integer, floating, or one of the vector forms of the V extension. `vm` set
means unmasked; `nf` is the number of fields of a segment access, 1 for none. -/
inductive MemForm where
  /-- Integer register `r`, `size` bytes (1, 2, 4 or 8), zero-extended when `uns` is set. -/
  | int (size : Nat) (uns : Bool) (r : Nat)
  /-- Floating register `r`, 4 or 8 bytes. -/
  | fp (size : Nat) (r : Nat)
  /-- Unit-stride vector form, elements of `eew` bytes. -/
  | vunit (eew nf : Nat) (vm : Bool) (v : Nat)
  /-- Strided vector form, stride in integer register `rs2`. -/
  | vstride (eew nf rs2 : Nat) (vm : Bool) (v : Nat)
  /-- Indexed vector form, offsets of `eew` bytes in vector register group `vs2`, data of SEW bits. -/
  | vindex (eew nf vs2 : Nat) (vm : Bool) (v : Nat)
  /-- Whole-register form, `nregs` registers. -/
  | vwhole (nregs : Nat) (v : Nat)
  /-- Mask form (vlm, vsm). -/
  | vmask (v : Nat)
deriving DecidableEq, Repr

/-- The nine AMO operations of the A extension (R33, R49). -/
inductive AmoOp where
  | swap | add | xor | and | or | min | max | minu | maxu
deriving DecidableEq, Repr

/-- Target of a plain REGISTER_WRITE: a per-thread CSR, an engine register by address, or a directory entry. -/
inductive RegTarget where
  | csr (th addr : Nat) (v : W64)
  | engine (addr v : Nat)
  | entry (a : Actor) (obj : Nat) (v : DVal)
deriving DecidableEq, Repr

/-- A host packet as it leaves the Ethernet checks of R298 (Table 13-2): the sub-port, the IP version, the source
address and port, the DSCP, the UDP length field, the four header words, the payload, the tag bytes (empty when there
is none) and the CRC field. -/
structure Packet where
  port : Nat
  v6 : Bool
  src : Nat
  sport : Nat
  dscp : Nat
  udpLen : Nat
  w0 : W64
  w1 : W64
  w2 : W64
  w3 : W64
  payload : Bytes
  tag : Bytes
  crc : W32
deriving DecidableEq, Repr

/-- A frame for the node's ARP, neighbour discovery or echo responder (R298): what is asked, and for which address. -/
structure NetAsk where
  v6 : Bool
  echo : Bool
  target : Nat
  src : Nat
  vlan : Option Nat
  macsec : Bool
deriving DecidableEq, Repr

/-- A fabric message on a link (Table 11-4): header words 0 to 3, the 32 inline bytes of words 4 to 7, and the body
flits' bytes in order. `slot` is the slot of the frame that carried its header, `detour` says that a detour slot
carried it, `replayed` that a replay did. -/
structure FabMsg where
  link : Nat
  slot : Nat
  w0 : W64
  w1 : W64
  w2 : W64
  w3 : W64
  inl : Bytes
  data : Bytes
  detour : Bool
  replayed : Bool
deriving DecidableEq, Repr

/-- A chain message (Table 17-3) with the transfer that carried it: source address, tag field of the identifier, the
transfer's length in bytes, the header fields and the body. -/
structure ChainMsg where
  src : Nat
  xtag : Nat
  xlen : Nat
  blen : Nat
  version : Nat
  flags : Nat
  req : Nat
  obj : Nat
  type : Nat
  status : Nat
  rsv : Nat
  body : Bytes
  tag : Bytes
deriving DecidableEq, Repr

/-- Outcome of a NAND page read (R243): good at a retry level (0 the learned offset), good after soft decision,
uncorrectable, or good with metadata that names another parcel (R231). `margin` is set when more than 70 % of the
code's capability was used (R244). -/
inductive ReadOutcome where
  | good (level : Nat) (margin : Bool)
  | soft
  | bad
  | misdirected
deriving DecidableEq, Repr

/-- What a training attempt found on a link (R258, R259, Table 11-2): whether it finished, the lower of the two ends'
highest generations, the mask of lanes that passed, the neighbour's postcode and image identifier, the flight delay in
1/32 cycle and the smallest eye margin. -/
structure TrainResult where
  ok : Bool
  generation : Nat
  lanes : Nat
  neighbour : Nat
  imageId : Nat
  delay : Nat
  eye : Nat
deriving DecidableEq, Repr

/-- What a cold boot finds (Table 20-5): whether every rail is in tolerance, the outcome of the PUF attempts (R433) and of
the factory record's copies (R434; `recordB` when copy B is taken), the grade and the record's bytes, the checks and
security versions of images A and B (R441), the digests of the boot ROM, the factory record and the three parts of the image
that starts, the firmware version strings, and the stacks and banks (1,024 × stack + bank) that fail training (R457). -/
structure BootInputs where
  railsOk : Bool
  pufOk : Bool
  recordOk : Bool
  recordB : Bool
  grade : Nat
  record : Bytes
  imageAOk : Bool
  imageBOk : Bool
  versionA : Nat
  versionB : Nat
  digests : List Bytes
  runtime : Bytes
  controller : Bytes
  stacksBad : List Nat
  banksBad : List Nat
deriving DecidableEq, Repr

/-- Operations on the test access port (R447). -/
inductive JtagOp where
  | bypass (bits : List Bool)
  | idcode
  | scan
  | memRead (addr : Nat)
  | memWrite (addr : Nat) (v : Byte)
deriving DecidableEq, Repr

/-- One flash channel as discovery found it (R226). -/
structure ChanFound where
  interface : Nat
  rate : Nat
  luns : Nat
  unused : Nat
  /-- Good blocks, and parcels per block in QLC mode. -/
  blocks : Nat
  perBlock : Nat
  endurance : Nat
  /-- Discovery and training passed. -/
  ok : Bool
deriving DecidableEq, Repr

/-- Inputs of one margin re-plan (Table 18-10): weakest retention margin per stack in thousandths of the requirement
(as stored and at 1.95 µs), banks failing at 1.95 µs, the retry share per channel in per cent, and per-link lane
margins at the last two trainings. -/
structure PlanInputs where
  retention : List Nat
  banksOut : List Nat
  retryShare : List Nat
  lanesWeak : List Nat
deriving DecidableEq, Repr

/-- One row of a fatal cause (R421): the class, the unit, its location and the syndrome. -/
structure HaltCause where
  cls : Nat
  source : Nat
  location : Nat
  syndrome : Nat
  errorPath : Bool
deriving DecidableEq, Repr

/-- The commands: one constructor per row of the command table. -/
inductive Instr where
  -- thread sea
  | load (th : Nat) (form : MemForm) (rs1 : Nat) (imm : Int)
  | store (th : Nat) (form : MemForm) (rs1 : Nat) (imm : Int)
  | amo (th : Nat) (op : AmoOp) (bytes rd rs1 rs2 : Nat)
  | lrSc (th : Nat) (sc : Bool) (bytes rd rs1 rs2 : Nat)
  | fence (th pred succ : Nat)
  | fenceI (th : Nat)
  | ecallExit (th : Nat)
  | prefetchFill (cluster slot line : Nat)
  | remoteAccessTimeout (th tag : Nat)
  | estream (th rd rs1 : Nat)
  | estwait (th rd rs1 : Nat)
  | estrel (th rd rs1 : Nat)
  | estop (th rd rs1 : Nat)
  | escstatWrite (th rd rs1 : Nat)
  | eslstatWrite (th rd rs1 : Nat)
  | registerWrite (t : RegTarget)
  | wb (th : Nat) (w : W32)
  | flush (th : Nat) (w : W32)
  | inv (th : Nat) (w : W32)
  -- scoring and shortlists
  | edot (th : Nat) (w : W32)
  | edotf (th : Nat) (w : W32)
  | erescale (th : Nat) (w : W32)
  | insert (th : Nat) (w : W32)
  | insertv (th : Nat) (w : W32)
  | eslReset (th : Nat) (w : W32)
  | drain (th : Nat) (w : W32)
  | floor (th : Nat) (w : W32)
  | eslmrg (th : Nat) (w : W32)
  | ecompact (th : Nat) (w : W32)
  | epost (th : Nat) (w : W32)
  | erecv (th rd rs1 : Nat)
  | ewait (th rd rs1 : Nat)
  | ewaitLimit (th : Nat)
  | itemSteal (cluster : Nat)
  | budgetSpent (core tenant : Nat)
  | kernelRoundLimit (rid : Nat)
  -- circulars
  | cload (th stack addr : Nat)
  | circularLoadDone (stack : Nat)
  | cstart (th val : Nat)
  | cabort (th stack val : Nat)
  | circularLaunch (stack : Nat)
  | micEnd (stack : Nat)
  | micStep (stack : Nat)
  | micRepeat (stack : Nat)
  | micLd (stack : Nat)
  | micAnd (stack : Nat)
  | micOr (stack : Nat)
  | micXor (stack : Nat)
  | micXnor (stack : Nat)
  | micAndn (stack : Nat)
  | micNot (stack : Nat)
  | micMaj (stack : Nat)
  | micFillq (stack : Nat)
  | micFillt (stack : Nat)
  | micWr (stack : Nat)
  | micRchk (stack : Nat)
  | micSeal (stack : Nat)
  | micSealc (stack : Nat)
  | completionRecord (stack : Nat)
  | refresh (stack : Nat)
  | refreshWatchdog (stack : Nat)
  -- time
  | roundBoundary
  | frameBoundary
  | sample
  | managementTick (draw : Nat) (temps : List Int)
  | fastLimiter (w : Nat)
  | strictPoint (rid : Nat)
  -- parcels and flash
  | psubmit (th cluster addr : Nat)
  | parcelDelivered (pid : Nat)
  | tierTimeout (pid : Nat)
  | flashWriteCompletion (pid : Nat)
  | checkpointDone
  | flashProgramDone (job : Nat) (ok : Bool)
  | flashEraseDone (sb channel : Nat) (ok : Bool)
  | flashReadDone (pid : Nat) (r : ReadOutcome)
  | scrub
  | heatHalving
  | shredDone (rid : Nat)
  | flashDiscoveryDone (chans : List ChanFound)
  | recoveryDone
  | corpusRebuildDone (c : Nat) (ok : Bool)
  | slotReloadDone (c : Nat)
  -- power, reset and boot
  | pwrfailN (ns : Nat)
  | flushDone
  | porstN (at_ low : Nat)
  | coldBoot (inp : BootInputs)
  | wrstN (at_ low : Nat)
  | warmRequest (a : Actor) (v : DVal)
  | holdPoint
  | wrstNRelease
  | nodeReady
  | rejoin (frame : Nat)
  | mgtEnumIn (at_ : Nat) (level : Bool)
  | railFault (rail : Nat) (ns : Nat)
  | thermalHalt (die : Nat) (temp : Int)
  | thermtrip (die : Nat) (temp : Int)
  | referenceLoss (which : Nat)
  -- fabric
  | linkTrained (link : Nat) (r : TrainResult)
  | trainingAttemptTimeout (link : Nat)
  | linkDown (link : Nat)
  | retrain (link : Nat)
  | standbyParentSwitch
  | holdover
  | idle (link : Nat)
  | fanout (m : FabMsg)
  | tree (m : FabMsg)
  | finalist (m : FabMsg)
  | forward (m : FabMsg)
  | pool (m : FabMsg)
  | read (m : FabMsg)
  | write (m : FabMsg)
  | resp (m : FabMsg)
  | ctrl (m : FabMsg)
  | replay (link slot : Nat) (ok : Bool)
  | originEntry (n : Nat)
  | start (m : FabMsg)
  | readyDeadline
  | startPost
  | letter (m : FabMsg)
  | pigeonholeDelivery
  -- power domains
  | clockGateEntry (n : Nat)
  | powerGateEntry (n : Nat)
  | powerGatedDone (n : Nat)
  | clusterWake (n : Nat)
  | dieStop (d : Nat)
  | stackPowerDown (s : Nat)
  | selfRefreshEntry (s : Nat)
  | channelGroupStandby (g : Nat)
  | controllerIdle
  -- built-in paths
  | rowMove (t row : Nat)
  | moveDone (t row : Nat)
  | rowReturn (t row : Nat)
  | returnDone (t row : Nat)
  | lineAdd (t : Nat)
  | scatterBatchDone (t : Nat)
  | gatherBatchDone (t : Nat)
  | itemAccepted (rid n : Nat)
  | tokenFoldDone (h : Nat)
  | patchEpoch
  -- HXT
  | envelope (p : Packet)
  | reassemblyExpiry (sid pm : Nat)
  | hello (p : Packet)
  | response (p : Packet)
  | challengeExpiry (sid : Nat)
  | bye (p : Packet)
  | sessionIdleClose (sid : Nat)
  | noteAck (p : Packet)
  | noteResend (tenant : Nat)
  | ping (rid : Nat)
  | cancel (rid : Nat)
  | corpusCreate (rid : Nat)
  | corpusDrop (rid : Nat)
  | search (rid : Nat)
  | upsert (rid : Nat)
  | delete (rid : Nat)
  | ctxProfile (rid : Nat)
  | ctxOpen (rid : Nat)
  | ctxClose (rid : Nat)
  | ctxAppend (rid : Nat)
  | ctxAttend (rid : Nat)
  | embTableCreate (rid : Nat)
  | embTableDrop (rid : Nat)
  | embWrite (rid : Nat)
  | embGather (rid : Nat)
  | embScatterAdd (rid : Nat)
  | kernelRun (rid : Nat)
  | flashDiscard (rid : Nat)
  | dirRead (rid : Nat)
  | dirWrite (rid : Nat)
  | transmitSelect (p : Nat)
  | arpNdIcmp (p : Nat) (ask : NetAsk)
  | subportUp (p : Nat)
  | subportDown (p : Nat)
  | holdDownEnd (p : Nat)
  -- directory writes with behaviour of their own
  | txAn (a : Actor) (p : Nat) (v : DVal)
  | sak (a : Actor) (p : Nat) (v : DVal)
  | enabled (a : Actor) (t : Nat) (v : DVal)
  | tenantReset (a : Actor) (t : Nat) (v : DVal)
  | resetDone (t : Nat)
  | policerEntryWrite (a : Actor) (t sub : Nat) (v : DVal)
  | shaperEntryWrite (a : Actor) (t q sub : Nat) (v : DVal)
  | commitFrame (a : Actor) (p : Nat) (v : DVal)
  | histClear (a : Actor) (t q : Nat) (v : DVal)
  | rwcWrite (a : Actor) (obj : Nat) (v : DVal)
  | bootFlashCommit
  -- the management chain
  | enumReset
  | enumOffer (addr version : Nat)
  | enumConfirm (addr version : Nat) (ident : Bytes)
  | enumConfirmTimeout
  | session (m : ChainMsg)
  | close (m : ChainMsg)
  | chainSessionIdle (sid : Nat)
  | chainRead (m : ChainMsg)
  | chainWrite (m : ChainMsg)
  | chainTransferExpiry (id : Nat)
  | alertAck (n : Nat)
  | alertResend
  | restoreDefaults (a : Actor) (v : DVal)
  | target (a : Actor) (n : Nat) (v : DVal)
  | direction (a : Actor) (n : Nat) (v : DVal)
  | chunkWrite (a : Actor) (n : Nat) (v : DVal)
  | chunkRead (a : Actor) (n : Nat)
  | commit (a : Actor) (n : Nat) (v : DVal)
  | slotIdleClose (n : Nat)
  -- errors, logbook, ageing
  | remove (a : Actor) (v : DVal)
  | recordHandled (seq : Nat)
  | recordClose (seq : Nat)
  | patrol (addr : Nat)
  | halt (c : HaltCause)
  | watchdogExpiry
  | controllerRestartDone
  | logbookAppend (die : Nat)
  | logbookSummary (die : Nat)
  | ageingReading (die : Nat) (deltas : List Nat)
  | replan (a : Actor) (v : DVal)
  | marginReplan (inp : PlanInputs)
  -- security
  | operatorRoot (a : Actor) (v : DVal)
  | nonce (a : Actor) (v : DVal)
  | report (a : Actor)
  | psk (a : Actor) (t : Nat) (v : DVal)
  | debugMode (a : Actor) (v : DVal)
  | confirm (a : Actor) (v : DVal)
  -- everything else
  | rv64gcInstruction (th : Nat)
  | jtagAccess (op : JtagOp)
  | consoleInput (b : Bytes)
  | busOff
  | busOffRecovery
  | framesIgnored (reason : Nat)
  | rxDropped (p reason : Nat)
  | reservedKindFlit (m : FabMsg)
  | scheduledForwarding (entry : Nat) (m : FabMsg)
  | readyMessage (child : Nat)
  | droop (rail mv ns : Nat)
  | vaonCollapse
  | railsInTolerance
  | referenceReturn (which : Nat)
  | pcsLockLoss (p ns : Nat) (regained : Bool)
  | refreshIntervalChange (s : Nat) (temp : Int)
deriving DecidableEq, Repr

end Sys2Proof
end

