-- ==== Sys2Proof/Decode.lean ====
section
/-! DEFINITION. Decode: the command a table word spells. The command table's rows carry no bit fields, so no word spells
a command. -/
namespace Sys2Proof

/-- The command that a word of `nbits` bits spells by the command table's fields: none, as no row gives bits. -/
def decodeTableWord (_nbits _w : Nat) : Option Instr := none

end Sys2Proof
end

