-- ==== Sys2Proof/Config.lean ====
section
/-! DEFINITION. Config: values the spec leaves open. Each is a constant with no body, so nothing can be proved of it
but that it is some value: a statement holds whatever it is. Arguments are what the value may depend on; `n` is the
model's own counter of draws (State.free). -/
namespace Sys2Proof

/-- The security engine's random number `n`, 48 bytes are taken (R305, R444). -/
opaque Config.random (n : Nat) : Bytes
/-- SHA-384 of a byte string (R371, R434); 48 bytes are taken. -/
opaque Config.sha384 (m : Bytes) : Bytes
/-- HMAC-SHA-384 (R305, R307, R396); 48 bytes are taken. -/
opaque Config.hmac384 (key m : Bytes) : Bytes
/-- HKDF-SHA-384 with salt, input keying material and info (R305); 48 bytes are taken. -/
opaque Config.hkdf384 (salt ikm info : Bytes) : Bytes
/-- Public key of an ephemeral P-384 key drawn as number `n` (Table 13-5); 97 bytes are taken. -/
opaque Config.ephemeral (n : Nat) : Bytes
/-- The ECDH shared x-coordinate of ephemeral key `n` with a public key (R305); 48 bytes are taken. -/
opaque Config.ecdhX (n : Nat) (pub : Bytes) : Bytes
/-- The identity key's signature over a digest (Table 13-5, R444); 96 bytes are taken. -/
opaque Config.sign (digest : Bytes) : Bytes
/-- Whether `sig` is a signature by the leaf of a certificate chain over a digest (R305). -/
opaque Config.leafSigned (certs digest sig : Bytes) : Bool
/-- Whether a certificate chain is well formed and leads to the given root (R305, R438). -/
opaque Config.chainOk (root certs roleOid : Bytes) : Bool
/-- Role of the leaf: 0 TENANT, 1 OPERATOR, 2 SECURITY, other values refused; and its tenant (R438). -/
opaque Config.leafRole (certs roleOid : Bytes) : Nat × Nat
/-- Whether a composition map or timetable image carries a trailer whose signature and chain lead to the operator root with
the role SIGNER (R437, R438). -/
opaque Config.objectSigned (root roleOid object : Bytes) : Bool
/-- Whether a byte string is a boot image that passes the signature and digest checks of R441. -/
opaque Config.imagePasses (image : Bytes) : Bool
/-- Security version in a boot image's header (R441 gives its width, not its place). -/
opaque Config.imageVersion (image : Bytes) : Nat
/-- Whether a byte string is a self-signed P-384 certificate (R439). -/
opaque Config.selfSigned (cert : Bytes) : Bool
/-- The identity public key of this node (R434); 97 bytes are taken. -/
opaque Config.identityKey (n : Nat) : Bytes
/-- Result of a scalar or vector floating or V arithmetic instruction whose value this model leaves free: draw `n`. -/
opaque Config.freeWord (n : Nat) : W64
/-- An fp32 bit pattern the spec leaves open: draw `n`. -/
opaque Config.freeF32 (n : Nat) : Nat
/-- A number the spec leaves open: draw `n`. -/
opaque Config.freeNat (n : Nat) : Nat
/-- The fp32 exponential of the attend step, within its stated error (R180), of an fp32 bit pattern. -/
opaque Config.exp32 (x : Nat) : Nat
/-- An fp32 dot product whose order of additions the spec does not state, of two lists of fp32 bit patterns. -/
opaque Config.dot32 (a b : List Nat) : Nat
/-- An fp32 square root or reciprocal whose rounding the spec does not state. -/
opaque Config.rsqrt32 (x : Nat) : Nat
/-- Code element of a projected value that is not a number (R143 states none). -/
opaque Config.nanCode (y : Nat) : Nat
/-- Choice among equals that the spec leaves free, below `n`, for draw `d`. -/
opaque Config.choose (d n : Nat) : Nat

/-- A die's logbook or summary as bytes: the spec states what it holds and not its layout (R424, Table 18-13); draw `n`. -/
opaque Config.logBytes (n : Nat) : Bytes

/-- Γ, the region groups of a node's context sketch area (R168 leaves its size open); 0 counts as 1. -/
opaque Config.sketchGroups : Nat

end Sys2Proof
end

