-- ==== Sys2Proof/Machine/State.lean ====
section
/-! DEFINITION. State: every piece of state the spec gives the block, as plain data, and the state right after reset.
Each field's comment names it, its width, the rule and file of spec/ that gives it, and its reset value. -/
namespace Sys2Proof.Machine

/-! ### Outcomes -/

/-- Reasons a step may stop the machine with a fault. No meaning of this model raises one: the spec ends requests by
status, stops threads and records errors, and the machine goes on (R55, R414). -/
inductive Fault where
  /-- Raised by no meaning; kept so that the type has a name for an impossible stop. Safe. -/
  | none
deriving DecidableEq, Repr

/-- Reasons a command has no meaning here. -/
inductive Refusal where
  /-- The command's arm has no meaning yet; raised by the dispatch only. Safe. -/
  | notModelled (mnemonic : String)
deriving DecidableEq, Repr

/-! ### Time -/

/-- The node's clocks (R6, R7, R363). -/
structure Clock where
  /-- Timetable cycles since power was applied [R6, 00; unbounded count; reset 0] -/
  now : Nat
  /-- The node counts frames since a start post [R7, 00; 1 bit; reset false] -/
  counting : Bool
  /-- The value of `now` at cycle 0 of frame 0 [R7, R275, 00; count; reset 0] -/
  post : Int
  /-- Management ticks since the always-on domain's power-up [R363, 15; count; reset 0] -/
  tick : Nat
  /-- The value of `now` at the last tick boundary [R363, 15; count; reset 0] -/
  tickAt : Nat
  /-- First cycle at which a frame boundary, and a round boundary, can still pass [R7, R332, 00; counts; reset 0] -/
  frameNext : Nat
  /-- First cycle at which a round boundary can still pass [R332, 14; count; reset 0] -/
  roundNext : Nat
  /-- AON cycles since power-up, as the latest pin event read them [R363, 15; count; reset 0] -/
  aon : Nat
deriving DecidableEq, Repr

/-! ### Threads, caches and memory -/

/-- What a thread context is doing (R30, R44, R58, R353). -/
inductive Run where
  /-- Not started: a lent thread running no kernel. -/
  | off
  | running
  /-- Held in estwait on parcel `idx` of handle `h`, result to `rd`. -/
  | waitStream (h idx rd : Nat)
  /-- Held in ewait since cycle `since` with limit `lim` (0 none), result to `rd`. -/
  | waitLetter (since lim rd : Nat)
  /-- Paused: the tenant's budget on the core is spent. -/
  | paused
  /-- Stopped by a fault or with its request. -/
  | stopped
deriving DecidableEq, Repr

/-- A shortlist entry (Table 4-1). -/
structure Ent where
  /-- Candidate identifier [R84, 04; 64 bits; reset 0] -/
  id : Nat
  /-- Version stamp [R84, 04; 32 bits; reset 0] -/
  stamp : Nat
  /-- Score bits, int32 or fp32 by the list's type [R84, 04; 32 bits; reset 0] -/
  score : Nat
deriving DecidableEq, Repr

/-- One list of a core's shortlist unit (R89, R90). -/
structure UList where
  /-- Capacity c [R90, 04; 1 to 64; reset 64] -/
  cap : Nat
  /-- Type: fp32 when set, int32 otherwise [R85, 04; 1 bit; reset false] -/
  fp : Bool
  /-- Include-ties [R90, 04; 1 bit; reset false] -/
  ties : Bool
  /-- Entries held, in the order of R86 [R90, 04; up to 64 entries; reset empty] -/
  ents : List Ent
deriving DecidableEq, Repr

/-- A letter (Table 15-1). -/
structure Letter where
  /-- Postcode of the sending node [R347, 15; 12 bits; reset none] -/
  srcPost : Nat
  /-- Source ID: class in [15:13], number in [12:0] [R347, 15; 16 bits; reset none] -/
  source : Nat
  /-- Sent by the node itself [R347, 15; 1 bit; reset none] -/
  sys : Bool
  /-- Tenant of a user-mode sender, 0 with sys [R347, 15; 6 bits; reset none] -/
  tenant : Nat
  /-- Body bytes [R347, 15; 0 to 48; reset none] -/
  len : Nat
  /-- Sender's value [R347, 15; 32 bits; reset none] -/
  mark : Nat
  /-- Pigeonhole address [R348, 15; 32 bits; reset none] -/
  dest : Nat
  /-- Body, 48 bytes [R347, 15; 384 bits; reset none] -/
  body : Bytes
deriving DecidableEq, Repr

/-- What a remote access will do when its answer arrives (R52). -/
inductive RemKind where
  | loadInt (rd size : Nat) (uns : Bool)
  | loadFp (rd size : Nat)
  | loadVec (v off size : Nat)
  | amo (rd size : Nat)
  | ack
deriving DecidableEq, Repr

/-- An outstanding remote access of a thread (R52). -/
structure RemAcc where
  /-- Tag of the best-effort message [R279, 11; 16 bits; reset none] -/
  tag : Nat
  /-- What the access does when its response comes: a load into an integer, floating or vector register, a store's acknowledgement, an AMO or LR or SC [R33, R52, 02; enumerated; reset none] -/
  kind : RemKind
  /-- Address the thread gave, for the fault's report [R55, 02; 64 bits; reset none] -/
  va : Nat
  /-- Cycle of issue, for the 16-frame limit [R52, 02; count; reset none] -/
  at_ : Nat
deriving DecidableEq, Repr

/-- One hardware thread context (R29). Unlisted registers and CSRs read as zero. -/
structure Thread where
  /-- What the context is doing [R30, 02; enumerated; reset off (DESIGN CHOICE, log 8)] -/
  run : Run
  /-- User mode [R32, 02; 1 bit; reset false, machine mode (DESIGN CHOICE, log 8)] -/
  user : Bool
  /-- A lent thread running a tenant's kernel [R32, 02; 1 bit; reset false] -/
  kern : Bool
  /-- Tenant of the kernel [R32, 02; 6 bits; reset 0] -/
  tenant : Nat
  /-- Request that owns the thread, 0 none [R55, 02; count; reset 0] -/
  req : Nat
  /-- Program counter [R29, 02; 64 bits; reset 0 (DESIGN CHOICE, log 8)] -/
  pc : Nat
  /-- Integer registers x1 to x31 [R29, 02; 31 × 64 bits; reset 0 (DESIGN CHOICE, log 8)] -/
  x : SMap W64
  /-- Floating registers [R29, 02; 32 × 64 bits; reset 0 (DESIGN CHOICE, log 8)] -/
  f : SMap W64
  /-- Vector registers [R29, 02; 32 × 512 bits; reset 0 (DESIGN CHOICE, log 8)] -/
  v : SMap V512
  /-- CSRs by address: standard (R33) and Eorus (Tables 2-2, 3-7, 4-4, 15-5) [R29, R36, R76, R93, R353, 02; 64 bits each; reset 0 (DESIGN CHOICE, log 8)] -/
  csr : SMap W64
  /-- The thread's four shortlists, by number [R89, 04; 4 lists; reset empty, capacity 64, int32, ties off] -/
  lists : SMap UList
  /-- Letters held in the thread's pigeonhole, oldest first [R348, 15; 8 slots; reset empty] -/
  box : List Letter
  /-- LR reservation: the reserved global address [R49, 02; 64 bits or none; reset none] -/
  resv : Option Nat
  /-- Remote accesses outstanding [R52, 02; list; reset empty] -/
  remote : List RemAcc
  /-- Address of a remote store that failed, and its status, awaiting report at FENCE or exit [R52, 02; 64 and 8 bits or none; reset none] -/
  failedAck : Option (Nat × Nat)
  /-- The thread made a remote load, store or AMO [R294, 12; 1 bit; reset false] -/
  remoteUsed : Bool
  /-- Issue cycles charged in the present round [R58, 02; 32 bits; reset 0] -/
  spent : Nat
deriving DecidableEq, Repr

/-- A line of one cluster's caches: its L2 and the L1D kept coherent with it (R37, R38). -/
structure Line where
  /-- The eight data words [R37, 02; 512 bits; reset none] -/
  data : V512
  /-- Dirty [R37, 02; 1 bit; reset none] -/
  dirty : Bool
  /-- Allocated by a STREAM access, evicted first [R49, 02; 1 bit; reset none] -/
  stream : Bool
  /-- Prefetched and not yet demanded: slot of the automatic stream plus one, else 0 [R41, 02; 7 bits; reset none] -/
  pf : Nat
deriving DecidableEq, Repr

/-- A segment entry (Table 2-7): the two words and the complements stored with them. -/
structure SegEntry where
  /-- Word 0 [R48, 02; 64 bits; reset 0] -/
  w0 : Nat
  /-- Stored complement of word 0 [R48, 02; 64 bits; reset 0] -/
  c0 : Nat
  /-- Word 1 [R48, 02; 64 bits; reset 0] -/
  w1 : Nat
  /-- Stored complement of word 1 [R48, 02; 64 bits; reset 0] -/
  c1 : Nat
deriving DecidableEq, Repr

/-- A stream slot of a cluster (R41, R43). -/
structure Stream where
  /-- Declared by a thread; an automatic stream otherwise [R41, 02; 1 bit; reset none] -/
  declared : Bool
  /-- Declaring or training thread [R43, 02; 13 bits; reset none] -/
  th : Nat
  /-- Request that owns it [R44, 02; count; reset none] -/
  req : Nat
  /-- Ring mode 0b01, else fill L2 [Table 2-5, 02; 1 bit; reset none] -/
  ringMode : Bool
  /-- Word 0 points to a list of handles [Table 2-5, 02; 1 bit; reset none] -/
  listKind : Bool
  /-- Source address [Table 2-5, 02; 64 bits; reset none] -/
  source : Nat
  /-- Ring base [Table 2-5, 02; 64 bits; reset none] -/
  dest : Nat
  /-- Parcels [Table 2-5, 02; 24 bits; reset none] -/
  count : Nat
  /-- Byte distance between parcel starts [Table 2-5, 02; signed 32 bits; reset none] -/
  stride : Int
  /-- Parcels in flight ahead [Table 2-5, 02; 1 to 64; reset none] -/
  ahead : Nat
  /-- Ring slots [Table 2-5, 02; 1 to 64; reset none] -/
  ring : Nat
  /-- Parcels issued [R217, 09; 24 bits; reset none] -/
  issued : Nat
  /-- Parcels delivered, in index order [R44, 02; 24 bits; reset none] -/
  delivered : Nat
  /-- Parcels released, one past the highest index released [R44, 02; 24 bits; reset none] -/
  released : Nat
  /-- Parcels arrived and held on the I/O die until delivery, with their bytes [R217, 09; list; reset none] -/
  held : SMap Bytes
  /-- Failure status, 0 none [R44, 02; 8 bits; reset none] -/
  failed : Nat
  /-- Automatic: next line, lines ahead, unused prefetched lines, last use [R41, 02; counts; reset none] -/
  nextLine : Nat
  /-- Automatic: lines it keeps ahead [R41, 02; 0 to 64; reset none] -/
  aheadLines : Nat
  /-- Automatic: prefetched lines that nothing has demanded yet [R41, 02; count; reset none] -/
  unused : Nat
  /-- Automatic: cycle of its last use, for replacement [R41, 02; count; reset none] -/
  lastUse : Nat
  /-- Automatic: last byte of the training access's segment, and the line demanded last [R41, 02; addresses; reset none] -/
  endLine : Nat
  /-- Automatic: first byte of the line demanded last [R41, 02; 40 bits; reset none] -/
  cur : Nat
deriving DecidableEq, Repr

/-- Miss history with which an automatic stream trains (R41). -/
structure Train where
  /-- First byte of the cluster's last missed line [R41, 02; 40 bits; reset none] -/
  last : Nat
  /-- Distance between its last two misses, in bytes [R41, 02; signed, at most 2,048; reset none] -/
  stride : Int
  /-- Misses in a row at that stride [R41, 02; count; reset none] -/
  misses : Nat
deriving DecidableEq, Repr

/-- Memory of the node: every byte of Table 2-6 that holds data, its check state, the caches above it. -/
structure Mem where
  /-- Bytes of the stacks, local stores and L2 scratch by local physical address; an unlisted byte is 0 [R45, 02; 52-bit addresses; reset empty (every byte 0: DESIGN CHOICE, log 2)] -/
  bytes : List Host.Cell
  /-- Stored check bits XOR the check bits of the stored data, by word address (address / 8); unlisted 0 [R407, 18; 8 bits per word; reset empty] -/
  synd : SMap (BitVec 8)
  /-- Whether a row not listed in `rowFlip` is unsealed [R126, 05; 1 bit per row; reset true (every row unsealed)] -/
  unsealedDef : Bool
  /-- Rows (local address / 1,024) whose unsealed bit differs from `unsealedDef`, rising [R126, 05; 2^30 rows; reset empty] -/
  rowFlip : List Nat
  /-- Rows whose unsealed bit and complement disagree, rising [Table 5-10, 05; 2^30 rows; reset empty] -/
  rowBad : List Nat
  /-- Cached lines by cluster × 2^34 + line address [R37, 02; 16 MiB per cluster; reset empty] -/
  lines : SMap Line
  /-- L1 instruction lines by core × 2^34 + line address [R37, R39, 02; 32 KiB per core; reset empty] -/
  iline : SMap V512
  /-- Segment entries in force, by tenant × 128 + segment [R48, R50, 02; 64 × 128 × 32 bytes; reset empty (zeros)] -/
  segs : SMap SegEntry
  /-- L2 ways locked as scratch, by cluster [R37, Table 2-6, 02; 0 to 16; reset 0 (DESIGN CHOICE, log 3)] -/
  ways : SMap Nat
  /-- Corrected words waiting for write-back: address, syndrome, data read [R411, 18; 64 per stack; reset empty] -/
  wbq : List (Nat × Nat × Nat)
deriving DecidableEq, Repr

/-- A built-in work item in a cluster's queue (R59): its home core, index and owner. -/
structure Item where
  /-- Home core of the item [R59, 02; 9 bits; reset none] -/
  home : Nat
  /-- Index of the item in its request [R59, 02; count; reset none] -/
  idx : Nat
  /-- Request the item belongs to [R59, 02; count; reset none] -/
  req : Nat
  /-- The request runs STRICT: the item is not stolen [R59, 02; 1 bit; reset none] -/
  strict : Bool
deriving DecidableEq, Repr

/-- The thread sea (chapter 2). -/
structure Sea where
  /-- Thread contexts by number 16m + t; unlisted: the context after reset [R29, 02; 8,192 contexts; reset empty] -/
  threads : SMap Thread
  /-- Stream slots by cluster × 64 + slot [R41, 02; 64 per cluster; reset empty] -/
  streams : SMap Stream
  /-- Training state by cluster [R41, 02; one per cluster; reset empty] -/
  train : SMap Train
  /-- Work items queued, by cluster [R59, 02; lists; reset empty] -/
  items : SMap (List Item)
  /-- Threads per core lent to kernels, K in force [R32, 02; 0, 4 or 8; reset 4] -/
  kernelK : Nat
  /-- Balancing in force since the last round boundary [R60, 02; 1 bit; reset true] -/
  balance : Bool
  /-- (core, tenant) pairs paused until the next round boundary [R58, 02; list; reset empty] -/
  pausedOn : List (Nat × Nat)
  /-- Issue cycles spent in the round, by core × 64 + tenant [R58, 02; 32 bits; reset empty] -/
  spent : SMap Nat
  /-- Outbound letters by core, oldest first [R351, 15; 16 per core; reset empty] -/
  outq : SMap (List Letter)
  /-- Next best-effort tag, per node [Table 11-4, 11; 31 bits; reset 1] -/
  nextTag : Nat
  /-- Cores taken out of service [R415, 18; list; reset empty] -/
  coresOut : List Nat
deriving DecidableEq, Repr

/-! ### Circulars -/

/-- A bank's latch record (R119). -/
structure LatchRec where
  /-- Query latch [Table 5-2, 05; 256 bits; reset 0] -/
  query : BitVec 256
  /-- Threshold [Table 5-2, 05; 16 bits; reset 0] -/
  threshold : Nat
  /-- Tag [Table 5-2, 05; 16 bits; reset 0] -/
  tag : Nat
  /-- Valid [Table 5-2, 05; 1 bit; reset false] -/
  valid : Bool
deriving DecidableEq, Repr

/-- A loaded circular (Table 5-7) in one stack's sequencer. -/
structure Circ where
  /-- Sequence number [R118, 05; 32 bits; reset none] -/
  seq : Nat
  /-- Stack mask [R118, 05; 16 bits; reset none] -/
  mask : Nat
  /-- Program words with their stored complements [R114, 05; up to 1,024 pairs of 64 bits; reset none] -/
  prog : List (W64 × W64)
  /-- Latch records by bank, 64 × die + bank; unlisted invalid [R119, 05; 1,024 records; reset none] -/
  latch : SMap LatchRec
  /-- Destination ring address, bytes, and next byte written by this stack [R118, R132, 05; 64 bits; reset none] -/
  ring : Nat
  /-- Bytes of the destination ring [R118, 05; 64 bits; reset none] -/
  ringBytes : Nat
  /-- Bytes this stack has written into its share of the ring [R132, 05; 64 bits; reset none] -/
  ringPos : Nat
  /-- Compact hit rows [R118, 05; 1 bit; reset none] -/
  hit : Bool
  /-- Row compacted after END [R118, 05; 16 bits; reset none] -/
  hitRow : Nat
  /-- L, columns listed per bank [R118, 05; 14 bits; reset none] -/
  limit : Nat
  /-- End seal: 0 none, 1 plain, 2 checked [R118, 05; 2 bits; reset none] -/
  endSeal : Nat
  /-- Pigeonhole knocked on completion [R118, 05; 32 bits; reset none] -/
  knock : Nat
  /-- A descriptor field and its complement disagree [R118, R134, 05; 1 bit; reset none] -/
  descBad : Bool
  /-- A CSTART for it has arrived [R122, 05; 1 bit; reset false] -/
  started : Bool
  /-- Request that owns it, 0 none [R120, 05; count; reset none] -/
  req : Nat
deriving DecidableEq, Repr

/-- A REPEAT in progress (R116). -/
structure Loop where
  /-- First body word, words in the body [R116, 05; 10 bits; reset none] -/
  first : Nat
  /-- Words in the body [R116, 05; 10 bits; reset none] -/
  len : Nat
  /-- Iterations, and the present one from 0 [R116, 05; 13 bits; reset none] -/
  times : Nat
  /-- Iterations done [R116, 05; 13 bits; reset none] -/
  iter : Nat
  /-- Strides of ra and rb, signed, and the query step [R116, 05; 16 bits; reset none] -/
  sa : Int
  /-- Stride of rb [R116, 05; signed 16 bits; reset none] -/
  sb : Int
  /-- Query step [R116, 05; 8 bits; reset none] -/
  qstep : Nat
deriving DecidableEq, Repr

/-- The phase of a stack's sequencer. -/
inductive SeqPhase where
  | idle
  /-- Executing program words. -/
  | run
  /-- After END: end seal and compaction, then the completion record. -/
  | compact
deriving DecidableEq, Repr

/-- One stack's circular sequencer and banks (R110, R117). -/
structure Seqr where
  /-- Circulars loaded and not completed, in load order; the head runs [R120, 05; 4; reset empty] -/
  queue : List Circ
  /-- Loads in progress: descriptor addresses with the owning request [R120, 05; list; reset empty] -/
  loads : List (Nat × Nat)
  /-- CSTAT seq: running circular or last completed [Table 5-6, 05; 32 bits; reset 0] -/
  seq : Nat
  /-- CSTAT refusal [Table 5-6, 05; 8 bits; reset 0] -/
  refusal : Nat
  /-- CSTAT smiss [Table 5-6, 05; 1 bit; reset false] -/
  smiss : Bool
  /-- Phase; CSTAT run is set when it is not idle [Table 5-6, 05; enumerated; reset idle] -/
  phase : SeqPhase
  /-- Index of the next program word [R114, 05; 10 bits; reset 0] -/
  pcw : Nat
  /-- REPEAT in progress [R116, 05; reset none] -/
  loop : Option Loop
  /-- Latch A by bank; unlisted zero [Table 5-2, 05; 1,024 × 8,192 bits; reset empty (zero: DESIGN CHOICE, log 8)] -/
  latchA : SMap Row
  /-- Latch B by bank; unlisted zero [Table 5-2, 05; 1,024 × 8,192 bits; reset empty (zero: DESIGN CHOICE, log 8)] -/
  latchB : SMap Row
  /-- Steps executed in this circular [Table 5-11, 05; 32 bits; reset 0] -/
  steps : Nat
  /-- Row cycles spent in the present step [R121, 05; up to 60; reset 0] -/
  cyc : Nat
  /-- Refreshes performed since launch [Table 5-11, 05; 16 bits; reset 0] -/
  refreshes : Nat
  /-- A refresh has fallen due and waits for the boundary [R123, R124, 05; 1 bit; reset false] -/
  refreshDue : Bool
  /-- Refreshes postponed outside circulars [R124, 05; 0 to 8; reset 0] -/
  postponed : Nat
  /-- Banks with a rail fault in this circular, rising [R133, 05; 1,024 bits; reset empty] -/
  faulted : List Nat
  /-- Pairs left unsealed by checked seals in this circular [Table 5-11, 05; 13 bits; reset 0] -/
  sealFail : Nat
  /-- Lowest and highest row written by the unrolled program [R128, 05; 16 bits each; reset none] -/
  foot : Option (Nat × Nat)
  /-- Status for the completion record [Table 5-11, 05; 8 bits; reset 0] -/
  status : Nat
  /-- An abort waits for the next step boundary [R135, 05; 1 bit; reset false] -/
  aborting : Bool
  /-- A knock kept because its pigeonhole was full, oldest first [Table 15-6, 15; list; reset empty] -/
  knocks : List Letter
  /-- Rail faults per bank since cold boot [Table 5-12, 05; count; reset empty] -/
  railFaults : SMap Nat
  /-- Banks out of service, rising [R134, 05; 1,024 bits; reset empty] -/
  banksOut : List Nat
  /-- The stack is out of service [R134, 05; 1 bit; reset false] -/
  out : Bool
  /-- The stack is above 85 °C [R124, 05; 1 bit; reset false] -/
  hot : Bool
deriving DecidableEq, Repr

/-! ### Parcels -/

/-- One queued parcel descriptor (Table 9-5). -/
structure PDesc where
  /-- Local address of the descriptor, where done and status are written [R214, 09; 52 bits; reset none] -/
  addr : Nat
  /-- Source word [Table 9-5, 09; 64 bits; reset none] -/
  source : Nat
  /-- Destination word [Table 9-5, 09; 64 bits; reset none] -/
  dest : Nat
  /-- Source word points to a list of handles [Table 9-5, 09; 1 bit; reset none] -/
  skind : Bool
  /-- Destination word points to a list of handles [Table 9-5, 09; 1 bit; reset none] -/
  dkind : Bool
  /-- Parcels [Table 9-5, 09; 24 bits; reset none] -/
  count : Nat
  /-- Limit in frames; 0 the default of the tier [R220, 09; 16 bits; reset none] -/
  limit : Nat
  /-- Pigeonhole knocked on completion, 0 none [Table 9-5, 09; 32 bits; reset none] -/
  knock : Nat
  /-- Request tag, returned in error records [Table 9-5, 09; 32 bits; reset none] -/
  tag : Nat
  /-- Request of the submitting thread, and its tenant when the request has one [R222, 09; reset none] -/
  req : Nat
  /-- Tenant of the request it is for, 0x40 none [R211, 09; 7 bits; reset none] -/
  tenant : Nat
  /-- Parcels issued and parcels finished [R216, 09; 24 bits; reset none] -/
  issued : Nat
  /-- Parcels finished [R216, 09; 24 bits; reset none] -/
  finished : Nat
  /-- First failing status, 0 none [R221, 09; 8 bits; reset none] -/
  status : Nat
deriving DecidableEq, Repr

/-- Where one side of a parcel transfer lies. -/
inductive Place where
  /-- Local T0 or T1 address. -/
  | local (addr : Nat)
  /-- T2: lender postcode and address there. -/
  | lent (post addr : Nat)
  /-- T3: area, logical parcel and format. -/
  | flash (area parcel format : Nat)
  /-- A stream's delivery: cluster × 64 + slot, and the parcel index. -/
  | stream (slot idx : Nat)
  /-- A built-in path's engine, which takes the bytes where they lie. -/
  | engine
deriving DecidableEq, Repr

/-- Who asked for a parcel. -/
inductive POwner where
  | desc (cluster addr : Nat)
  | stream (slot idx : Nat)
  /-- A built-in path's read or write for request `rid`. -/
  | path (rid : Nat)
  /-- The media manager's own work: folds, collection, refresh, scrub. -/
  | media
deriving DecidableEq, Repr

/-- A parcel in flight (R216). -/
structure Parcel where
  /-- Number given at issue [R216, 09; count; reset none] -/
  pid : Nat
  /-- What the parcel is for: a descriptor or a stream [R216, 09; enumerated; reset none] -/
  owner : POwner
  /-- Source: a local address, a lent window of another node, or an area's parcel [R211, 09; enumerated; reset none] -/
  src : Place
  /-- Destination, in the same form [R211, 09; enumerated; reset none] -/
  dst : Place
  /-- Cycle of issue [R220, 09; count; reset none] -/
  at_ : Nat
  /-- Limit in frames [R220, 09; 16 bits; reset none] -/
  limit : Nat
  /-- The owner has ended; an arrival is discarded [R221, 09; 1 bit; reset none] -/
  dead : Bool
  /-- Bytes read so far, once they have left the source [R216, 09; 4,096 bytes; reset none] -/
  data : Option Bytes
  /-- Its write has gone to the lender; the lender has acknowledged it [R216, 09; 1 bit each; reset none] -/
  sent : Bool
  /-- The lender has acknowledged the write [R216, 09; 1 bit; reset none] -/
  acked : Bool
  /-- Tenant the parcel is for, 0x40 none [R211, 09; 7 bits; reset none] -/
  tenant : Nat
deriving DecidableEq, Repr

/-- The parcel engine (chapter 9). -/
structure Par where
  /-- Submission queues by cluster, in submission order [R214, 09; 256 descriptors each; reset empty] -/
  queues : SMap (List PDesc)
  /-- PSTAT result of the last PSUBMIT, by cluster [Table 9-4, 09; 8 bits; reset 0] -/
  result : SMap Nat
  /-- Parcels in flight, in issue order [R216, 09; up to 65,536; reset empty] -/
  flight : List Parcel
  /-- Next parcel number [model; count; reset 1] -/
  next : Nat
  /-- Parcels of the built-in paths that have finished: owner, parcel, status, bytes [R216, 09; list; reset empty] -/
  done : List (Nat × Nat × Nat × Bytes)
  /-- Descriptor-completion knocks kept by the cluster queues, by cluster [Table 15-6, 15; list; reset empty] -/
  knocks : SMap (List Letter)
deriving DecidableEq, Repr

/-! ### Letters and power domains -/

/-- State of a cluster's power domain (Table 15-7). -/
inductive ClState where
  | run
  /-- Clock-gated since the given cycle. -/
  | clockGated (since : Nat)
  /-- Entering POWER_GATED. -/
  | gating
  | powerGated
  /-- Waking from POWER_GATED. -/
  | waking
deriving DecidableEq, Repr

/-- State of a stack's power domain (Table 15-7). -/
inductive StState where
  | active | powerDown | selfRefresh
deriving DecidableEq, Repr

/-- Pigeonholes outside threads, holding slots and power domains (chapter 15). -/
structure Pwr where
  /-- Management controller's pigeonhole [Table 15-3, 15; 256 letters; reset empty] -/
  mcBox : List Letter
  /-- Security engine's pigeonhole [Table 15-3, 15; 64 letters; reset empty] -/
  seBox : List Letter
  /-- Letters on their way to a local pigeonhole, oldest first [R354, 15; list; reset empty] -/
  transit : List Letter
  /-- Holding slots by cluster [R359, 15; 8 letters each; reset empty] -/
  holding : SMap (List Letter)
  /-- Overflow to add to eovf when the cluster runs: thread numbers [R359, 15; list; reset empty] -/
  heldOvf : SMap (List Nat)
  /-- Wake wanted on completion of entry, by cluster [R358, 15; list; reset empty] -/
  wakeWanted : List Nat
  /-- Cluster states; unlisted RUN [Table 15-7, 15; 32; reset empty (RUN: DESIGN CHOICE, log 4)] -/
  clusters : SMap ClState
  /-- Cycle of the last activity, by cluster [Table 15-7, 15; count; reset empty] -/
  clLast : SMap Nat
  /-- Compute die clocks stopped [Table 15-7, 15; 2 bits; reset empty] -/
  dieStopped : List Nat
  /-- Stack states; unlisted ACTIVE [Table 15-7, 15; 16; reset empty (ACTIVE: DESIGN CHOICE, log 4)] -/
  stPower : SMap StState
  /-- Cycle of the last access or circular, by stack [Table 15-7, 15; count; reset empty] -/
  stLast : SMap Nat
  /-- Cycle since which every cluster of the die is power-gated and every stack in self-refresh [Table 15-7, 15; count; reset empty] -/
  dieIdle : SMap Nat
  /-- Flash channel groups in STANDBY [Table 15-7, 15; 4 bits; reset empty] -/
  groupsStandby : List Nat
  /-- Cycle of the last command, by channel group [Table 15-7, 15; count; reset empty] -/
  grLast : SMap Nat
  /-- The management controller is boosted [R364, 15; 1 bit; reset false] -/
  boosted : Bool
  /-- Cycle since which the controller has no work [R364, 15; count; reset 0] -/
  mcIdle : Nat
  /-- Warm floor in force [R360, 15; 8 bits; reset 4] -/
  floor : Nat
  /-- Cap governing the present tick, in watts [R366, 15; 16 bits; reset 1100] -/
  cap : Nat
  /-- Consecutive ticks below the cap by more than the margin [R366, 15; count; reset 0] -/
  below : Nat
  /-- Consecutive ticks above the cap with all ten steps applied [R367, 15; count; reset 0] -/
  overT : Nat
  /-- A die has been too hot and has not fallen 5 °C below since [R366, 15; 1 bit; reset false] -/
  thermal : Bool
  /-- The fast limiter holds until the end of the tick [R367, 15; 1 bit; reset false] -/
  fast : Bool
deriving DecidableEq, Repr

/-! ### HXT and traffic control -/

/-- Where packets of a session or envelope come from and go to (R312). -/
structure Addr where
  /-- Sub-port [R297, 13; 3 bits; reset none] -/
  port : Nat
  /-- IP version 6 [R298, 13; 1 bit; reset none] -/
  v6 : Bool
  /-- IP address of the host [R298, 13; 32 or 128 bits; reset none] -/
  ip : Nat
  /-- UDP port of the host [R298, 13; 16 bits; reset none] -/
  udp : Nat
deriving DecidableEq, Repr

/-- A mutating envelope held in the postmark window (R316, R317). -/
structure Held where
  /-- Type code of the envelope [Table 13-7, 13; 16 bits; reset none] -/
  type : Nat
  /-- Final receipt once complete: header and body bytes [R316, 13; bytes; reset none] -/
  receipt : Option Bytes
deriving DecidableEq, Repr

/-- An HXT session (R304 to R307, R316). -/
structure Sess where
  /-- Session identifier [R304, 13; 32 bits; reset none] -/
  sid : Nat
  /-- Level: TENANT without management role too; OPERATOR and SECURITY use the management path [R394, R479, 14; reset none] -/
  level : Level
  /-- Tenant of the session, 0xFF with no tenant [R305, 13; 8 bits; reset none] -/
  tenant : Nat
  /-- Management role granted [R305, 13; 1 bit; reset none] -/
  mgmt : Bool
  /-- HXT version agreed [R303, 13; 1 to 3; reset none] -/
  version : Nat
  /-- Tags granted [R307, 13; 1 bit; reset none] -/
  tags : Bool
  /-- Order in which the NOTE flag was granted, 0 never [R315, 13; count; reset none] -/
  noteOrd : Nat
  /-- max_payload [R311, 13; 512 to 8,192; reset none] -/
  maxPayload : Nat
  /-- Session key K [R305, 13; 48 bytes; reset none] -/
  key : Bytes
  /-- H, highest postmark received [R316, 13; 48 bits; reset 0] -/
  high : Nat
  /-- Held mutating envelopes by postmark [R316, 13; window of 1,024; reset none] -/
  held : SMap Held
  /-- Latest packet's address [R315, 13; reset none] -/
  addr : Addr
  /-- Tick of the latest packet [R306, 13; count; reset none] -/
  lastTick : Nat
  /-- Nonce of 0x9010:08 for this session [R444, 19; 48 bytes or none; reset none] -/
  nonce : Option Bytes
deriving DecidableEq, Repr

/-- An open challenge, in-band or on the chain (R305, R395). -/
structure Chal where
  /-- Session identifier offered [R305, 13; 32 bits; reset none] -/
  sid : Nat
  /-- The HELLO came over the chain [R395, 17; 1 bit; reset none] -/
  chain : Bool
  /-- Chain source address, 0 in-band [R395, 17; 7 bits; reset none] -/
  src : Nat
  /-- Number of the ephemeral key drawn for it [R305, 13; count; reset none] -/
  eph : Nat
  /-- The HELLO as received [R305, 13; 16 bytes; reset none] -/
  hello : Bytes
  /-- The CHALLENGE as sent [R305, 13; bytes; reset none] -/
  challenge : Bytes
  /-- The node's nonce in it [R305, 13; 48 bytes; reset none] -/
  nonce : Bytes
  /-- Cycle at which it was sent [R305, 13; count; reset none] -/
  at_ : Nat
  /-- Version agreed [R303, 13; 1 to 3; reset none] -/
  version : Nat
  /-- Method SIG, else PSK [R305, 13; 1 bit; reset none] -/
  sig : Bool
  /-- Tenant asked for [R305, 13; 8 bits; reset none] -/
  tenant : Nat
  /-- Flags asked for [R305, 13; 8 bits; reset none] -/
  flags : Nat
  /-- max_payload asked for [R311, 13; 16 bits; reset none] -/
  maxPayload : Nat
deriving DecidableEq, Repr

/-- A segment held for reassembly (R302). -/
structure Seg where
  /-- Header word 0 [Table 13-2, 13; 64 bits; reset none] -/
  w0 : W64
  /-- Header word 1 [Table 13-2, 13; 64 bits; reset none] -/
  w1 : W64
  /-- Header word 2 [Table 13-2, 13; 64 bits; reset none] -/
  w2 : W64
  /-- Header word 3 [Table 13-2, 13; 64 bits; reset none] -/
  w3 : W64
  /-- Payload bytes [R302, 13; up to 8,192 bytes; reset none] -/
  payload : Bytes
  /-- Tag bytes, empty for none [R307, 13; 0 or 16 bytes; reset none] -/
  tag : Bytes
deriving DecidableEq, Repr

/-- An envelope being reassembled, or discarding its later segments (R302, R311, R331). -/
structure Asm where
  /-- Session of the envelope [R302, 13; 32 bits; reset none] -/
  sid : Nat
  /-- Postmark of the envelope [R302, 13; 48 bits; reset none] -/
  pm : Nat
  /-- Management inbox [R479, 14; 1 bit; reset none] -/
  mgmt : Bool
  /-- Tenant it counts against [R327, 14; 6 bits; reset none] -/
  tenant : Nat
  /-- Queue counted against: the named queue once segment 0 is in, queue 0 before [R327, 14; 4 bits; reset none] -/
  queue : Nat
  /-- Segment count its headers name [R302, 13; 16 bits; reset none] -/
  count : Nat
  /-- Segments held, by index [R302, 13; list; reset none] -/
  segs : SMap Seg
  /-- Colour segment 0 was marked, 3 before it [R329, 14; 2 bits; reset none] -/
  colour : Nat
  /-- Cycle of the first segment [R302, 13; count; reset none] -/
  at_ : Nat
  /-- The envelope has ended: later segments are discarded until the limit [R311, R331, 13; 1 bit; reset none] -/
  ended : Bool
  /-- Address of its first packet [R312, 13; reset none] -/
  addr : Addr
deriving DecidableEq, Repr

/-- State of a request. -/
inductive ReqSt where
  /-- Complete in its inbox, waiting for admission (R332). -/
  | waiting
  /-- Admitted; the command named after its type has not run yet. -/
  | admitted
  /-- Its work is under way. -/
  | executing
  /-- Finished and held for its release point (R290): the formed receipt waits. -/
  | held
deriving DecidableEq, Repr

/-- A request: a complete envelope until its receipt is formed (R309, R332, R287). -/
structure Req where
  /-- Number given on completion of reassembly [model; count; reset none] -/
  rid : Nat
  /-- Session it came on [R304, 13; 32 bits; reset none] -/
  sid : Nat
  /-- Postmark [R316, 13; 48 bits; reset none] -/
  pm : Nat
  /-- Envelope type [Table 13-7, 13; 16 bits; reset none] -/
  type : Nat
  /-- Tenant [R324, 14; 6 bits; reset none] -/
  tenant : Nat
  /-- Level of its session, for DIR_READ and DIR_WRITE [R402, 17; reset none] -/
  level : Level
  /-- On the management path [R479, 14; 1 bit; reset none] -/
  mgmt : Bool
  /-- Queue named [R327, 14; 4 bits; reset none] -/
  queue : Nat
  /-- Requested class, 2 for not given [R287, 12; 2 bits; reset none] -/
  cls : Nat
  /-- Object word of the envelope header [R309, 13; 64 bits; reset none] -/
  obj : Nat
  /-- Body bytes [R309, 13; bytes; reset none] -/
  body : Bytes
  /-- Segments it counts as in its inbox [R302, 13; count; reset none] -/
  nseg : Nat
  /-- Cycle of its oldest packet [R339, 14; count; reset none] -/
  at_ : Nat
  /-- Address its receipt goes to [R312, 13; reset none] -/
  addr : Addr
  /-- Complete and queued, admitted, executing, or ended [R332, 14; enumerated; reset none] -/
  st : ReqSt
  /-- Admission timestamp and the cycle of admission [Table 13-8, 13; 64 bits; reset none] -/
  admitted : Nat
  /-- Cycle of admission [R290, 12; count; reset none] -/
  admitAt : Nat
  /-- Cause byte gathered so far [Table 12-3, 12; 8 bits; reset none] -/
  cause : Nat
  /-- Strict points governing it, in cycles from admission [R290, 12; 4 × 32 bits; reset none] -/
  points : List Nat
  /-- A strict point was missed: later points hold nothing [R291, 12; 1 bit; reset none] -/
  late : Bool
  /-- A CANCEL waits for its boundary: the CANCEL's request number, 0 none [R320, 13; count; reset none] -/
  cancelBy : Nat
  /-- Stage of a multi-stage request, from 0 [R145, 06; count; reset none] -/
  stage : Nat
  /-- Per-item states: 0 pending, 1 accepted, else the status it was refused with, plus 0x100 [R155, 06; list; reset none] -/
  items : List Nat
  /-- Replica acknowledgements still awaited per item [R155, 06; list; reset none] -/
  awaits : List Nat
  /-- Threads still to exit, rounds used [R56, R58, 02; counts; reset none] -/
  threads : Nat
  /-- Rounds used against its round limit [R58, 02; count; reset none] -/
  rounds : Nat
  /-- Shards, members or parcels still awaited, as the path numbers them [R145, R179, 06; list; reset none] -/
  waits : List Nat
  /-- Result flags and counts gathered by the path [Table 13-9, 13; list; reset none] -/
  acc : List Nat
  /-- Entries or record bytes gathered by the path [Table 13-9, 13; list; reset none] -/
  ents : List Ent
  /-- Body bytes of its receipt gathered by the path [Table 13-9, 13; bytes; reset none] -/
  out : Bytes
  /-- Formed receipt held for the release point: status, count, body [R290, 12; reset none] -/
  ready : Option (Nat × Nat × Bytes)
deriving DecidableEq, Repr

/-- A packet in an outbox or on the control path (R333). -/
structure OutPkt where
  /-- Sub-port it leaves by [R312, 13; 3 bits; reset none] -/
  port : Nat
  /-- Node control path, ahead of every outbox [R333, 14; 1 bit; reset none] -/
  ctl : Bool
  /-- Tenant of its outbox [R333, 14; 6 bits; reset none] -/
  tenant : Nat
  /-- Queue of its outbox [R333, 14; 4 bits; reset none] -/
  queue : Nat
  /-- Where it goes [R312, 13; reset none] -/
  addr : Addr
  /-- Packet kind of Table 13-3; 0 for ARP, neighbour discovery and echo answers [R300, 13; 8 bits; reset none] -/
  kind : Nat
  /-- The UDP payload, header to CRC [R300, 13; bytes; reset none] -/
  bytes : Bytes
  /-- Cycle at which it entered [R339, 14; count; reset none] -/
  at_ : Nat
  /-- NOTE sequence carried, 0 none [R315, 13; 48 bits; reset none] -/
  note : Nat
  /-- Counted as having waited for a gate [R338, 14; 1 bit; reset none] -/
  waited : Bool
deriving DecidableEq, Repr

/-- A pending NOTE (R314, R315). -/
structure Note where
  /-- Sequence [R314, 13; 48 bits; reset none] -/
  seq : Nat
  /-- Type [Table 13-10, 13; 8 bits; reset none] -/
  type : Nat
  /-- Body [Table 13-10, 13; bytes; reset none] -/
  body : Bytes
  /-- Timestamp at which it was formed [R314, 13; 64 bits; reset none] -/
  stamp : Nat
  /-- NOTEs lost before it, set at its first send [R314, 13; 16 bits; reset none] -/
  lost : Nat
  /-- Times sent, and the tick of the last send [R315, 13; counts; reset none] -/
  sends : Nat
  /-- Tick of its last send [R315, 13; count; reset none] -/
  lastTick : Nat
deriving DecidableEq, Repr

/-- NOTE state of one tenant. -/
structure Notes where
  /-- Pending NOTEs, oldest first [R314, 13; up to 256; reset empty] -/
  pending : List Note
  /-- Sequence of the next NOTE [R314, 13; 48 bits; reset 1] -/
  next : Nat
  /-- NOTEs lost since the previous NOTE delivered [R314, 13; 16 bits; reset 0] -/
  lost : Nat
deriving DecidableEq, Repr

/-- HXT (chapter 13). -/
structure Hxt where
  /-- Open sessions [R306, 13; up to 4,096; reset empty] -/
  sessions : List Sess
  /-- Open challenges, in-band and chain [R305, 13; up to 256 in-band; reset empty] -/
  chals : List Chal
  /-- Envelopes being reassembled or discarding [R302, 13; list; reset empty] -/
  asm : List Asm
  /-- Requests, in order of completion of reassembly [R332, 14; list; reset empty] -/
  reqs : List Req
  /-- Next request number [model; count; reset 1] -/
  nextRid : Nat
  /-- Next session identifier [R304, 13; 32 bits; reset 1 (DESIGN CHOICE, log 5)] -/
  nextSid : Nat
  /-- Next NOTE-flag order number [R315, 13; count; reset 1] -/
  nextOrd : Nat
  /-- Unknown-session answers remembered: session, postmark, cycle [R306, 13; list; reset empty] -/
  unknown : List (Nat × Nat × Nat)
  /-- Packets waiting in outboxes and on the control path, in order of entry [R333, 14; 65,536 in outboxes; reset empty] -/
  out : List OutPkt
  /-- Packets handed to the ports, latest last [R338, 14; the model's own output record; reset empty] -/
  sent : List OutPkt
  /-- NOTE state by tenant [R315, 13; 64; reset empty] -/
  notes : SMap Notes
deriving DecidableEq, Repr

/-- Policer buckets of one tenant, in 2^−24 packet (R328). -/
structure Bucket where
  /-- Committed bucket [R328, 14; 2^−24 packet; reset none (full when first used)] -/
  c : Nat
  /-- Peak bucket [R328, 14; 2^−24 packet; reset none (full when first used)] -/
  p : Nat
  /-- Cycle at which the levels held [R328, 14; count; reset none] -/
  at_ : Nat
deriving DecidableEq, Repr

/-- Shaper credit of one outbox, in 2^−16 packet (R334). -/
structure Credit where
  /-- Credit [R334, 14; signed, 2^−16 packet; reset none (the reset fill)] -/
  level : Int
  /-- Cycle at which the level held [R334, 14; count; reset none] -/
  at_ : Nat
  /-- Cycle until which a packet of the outbox is being sent [R334, 14; count; reset none] -/
  busy : Nat
deriving DecidableEq, Repr

/-- State of a tenant as 0x3100+t:03 reports it, with what a reset in progress holds (R326, R341 to R343). -/
structure TenantSt where
  /-- In force: serves traffic [R326, 14; 1 bit; reset false] -/
  active : Bool
  /-- A reset waits for the first boundary at or after this frame [R341, 14; 48 bits or none; reset none] -/
  reqAt : Option Nat
  /-- A reset is running since its boundary B [R342, 14; 1 bit; reset false] -/
  resetting : Bool
  /-- Envelopes ended and NOTEs discarded at B [R343, 14; counts; reset 0] -/
  ended : Nat
  /-- NOTEs discarded at B [R343, 14; count; reset 0] -/
  discarded : Nat
  /-- NOTE sequence reserved for RESET_DONE so that it precedes later NOTEs [R343, 14; 48 bits; reset 0] -/
  noteSeq : Nat
  /-- Request made after B, for the first boundary after RESET_DONE [R341, 14; 1 bit; reset false] -/
  again : Bool
  /-- The tenant is to be disabled at the boundary [R326, 14; 1 bit; reset false] -/
  disable : Bool
  /-- The tenant is to serve again at the next boundary free of resets [R326, 14; 1 bit; reset false] -/
  enable : Bool
  /-- Sessions to close when the reset completes [R326, 14; list; reset empty] -/
  closing : List Nat
deriving DecidableEq, Repr

/-- Traffic control (chapter 14). -/
structure Trf where
  /-- Policer buckets by tenant; unlisted: by the reset fill [R328, 14; 64; reset empty] -/
  buckets : SMap Bucket
  /-- Shaper credits by (16t + q) × 8 + p; unlisted: by the reset fill [R334, 14; 8,192; reset empty] -/
  credits : SMap Credit
  /-- Queue visited last, by priority, as 16t + q + 1 [R332, 14; 8; reset empty] -/
  lastQ : SMap Nat
  /-- Outbox served last, by port × 8 + class, as 16t + q + 1 [R338, 14; 64; reset empty] -/
  lastOut : SMap Nat
  /-- Cycle until which a sub-port is sending [R338, 14; 8; reset empty] -/
  busy : SMap Nat
  /-- Tenant states [R326, 14; 64; reset empty] -/
  tenants : SMap TenantSt
  /-- Gate commits pending: frame by sub-port [R337, 14; 8; reset empty] -/
  commit : SMap Nat
  /-- NOTE limiting by tenant × 4096 + type × 64 + subject: tick of the last one [R340, 14; reset empty] -/
  noteTick : SMap Nat
  /-- Threshold subjects that have fired and not fallen below half, same keys [R340, 14; list; reset empty] -/
  fired : List Nat
  /-- Counts gathered since the last NOTE of a subject, same keys [R340, 14; reset empty] -/
  gathered : SMap (List Nat)
  /-- Most issue cycles that a tenant spent on one core in a round of the present tick, by tenant [Table 14-3, 14; 32 bits; reset empty] -/
  kernMax : SMap Nat
deriving DecidableEq, Repr

/-! ### Errors and the logbook -/

/-- An error record (Table 18-5); the check word is computed from the rest. -/
structure ErrRec where
  /-- Postcode of the node [Table 18-5, 18; 12 bits; reset none] -/
  postcode : Nat
  /-- Unit: kind and number [Table 18-6, 18; 16 bits; reset none] -/
  source : Nat
  /-- CORRECTED, CONTAINED, DEGRADED or FATAL [R415, 18; 2 bits; reset none] -/
  severity : Nat
  /-- Class [Table 18-7, 18; 8 bits; reset none] -/
  cls : Nat
  /-- Status given to the request ended [Table 18-5, 18; 8 bits; reset none] -/
  status : Nat
  /-- The tenant field is valid [Table 18-5, 18; 1 bit; reset none] -/
  tv : Bool
  /-- Tenant of the first request ended [Table 18-5, 18; 6 bits; reset none] -/
  tenant : Nat
  /-- Entered while another record was being handled [R418, 18; 1 bit; reset none] -/
  nested : Bool
  /-- Repeat window still open [R417, 18; 1 bit; reset none] -/
  opened : Bool
  /-- Location [Table 18-6, 18; 64 bits; reset none] -/
  location : Nat
  /-- Global address [Table 18-5, 18; 64 bits; reset none] -/
  address : Nat
  /-- Tag [Table 18-5, 18; 32 bits; reset none] -/
  tag : Nat
  /-- Syndrome or detail [Table 18-5, 18; 32 bits; reset none] -/
  detail : Nat
  /-- Timestamp of the first occurrence [Table 18-5, 18; 64 bits; reset none] -/
  first : Nat
  /-- Timestamp of the latest occurrence [Table 18-5, 18; 64 bits; reset none] -/
  last : Nat
  /-- Sequence [R416, 18; 32 bits; reset none] -/
  seq : Nat
  /-- Occurrences counted [R417, 18; 32 bits; reset none] -/
  repeats : Nat
  /-- Tick of the first occurrence, against which the repeat window runs [R417, 18; count; reset none] -/
  firstTick : Nat
  /-- Handling complete and logged [R418, 18; 1 bit; reset none] -/
  handled : Bool
  /-- Cycle at which its handling started [R477, 18; count; reset none] -/
  startAt : Nat
  /-- Acknowledged as an alert, or needing no acknowledgement [R420, 18; 1 bit; reset none] -/
  acked : Bool
deriving DecidableEq, Repr

/-- A pending alert (R403): its number, the sequence of its record (0 for a HALT record) and the record's bytes. -/
structure Alert where
  /-- Number [R403, 17; 32 bits; reset none] -/
  num : Nat
  /-- Sequence of its record, 0 for a HALT record [R403, 17; 32 bits; reset none] -/
  seq : Nat
  /-- The record's bytes [R403, 17; 64 bytes; reset none] -/
  record : Bytes
  /-- Tick of its last send [R403, 17; count; reset none] -/
  lastTick : Nat
deriving DecidableEq, Repr

/-- The error path (chapter 18). -/
structure Err where
  /-- Error record queue, head first [R416, 18; 64 records; reset empty] -/
  queue : List ErrRec
  /-- HALT records of the sticky store [R421, 18; up to 4; reset empty] -/
  halts : List ErrRec
  /-- Watchdog: tick at which the controller last started [R422, 18; count; reset 0] -/
  wdTick : Nat
  /-- Ticks of the latest watchdog resets, for the third within 1,024 ticks [R421, 18; list; reset empty] -/
  wdResets : List Nat
  /-- The management controller is restarting [R422, 18; 1 bit; reset false] -/
  mcDown : Bool
deriving DecidableEq, Repr

/-- An entry of the trace ring (R427). -/
structure Trace where
  /-- Postmark [R427, 18; 48 bits; reset none] -/
  pm : Nat
  /-- Type [R427, 18; 16 bits; reset none] -/
  type : Nat
  /-- Session [R427, 18; 32 bits; reset none] -/
  sid : Nat
  /-- Status [R427, 18; 8 bits; reset none] -/
  status : Nat
  /-- Class delivered [R427, 18; 2 bits; reset none] -/
  cls : Nat
  /-- Cause byte [R427, 18; 8 bits; reset none] -/
  cause : Nat
  /-- Admission timestamp [R427, 18; 64 bits; reset none] -/
  admitted : Nat
  /-- Timestamp at which the receipt was handed to the port [R427, 18; 64 bits; reset none] -/
  handed : Nat
deriving DecidableEq, Repr

/-- A die's logbook (Table 18-9). -/
structure DieLog where
  /-- Error totals by (source × 256 + class) × 4 + severity [Table 18-9, 18; 64 bits each; reset empty (factory: DESIGN CHOICE, log 6)] -/
  counts : SMap Nat
  /-- DEGRADED and FATAL records in full [Table 18-9, 18; up to 4,096; reset empty] -/
  full : List ErrRec
  /-- Temperature bins, in ticks [Table 18-9, 18; 28 × 64 bits; reset empty] -/
  temp : SMap Nat
  /-- Rail voltage bins by rail × 16 + bin [Table 18-9, 18; 16 per rail; reset empty] -/
  volt : SMap Nat
  /-- Droop count and the 64 latest: timestamp and depth [Table 18-9, 18; reset empty] -/
  droops : Nat
  /-- The 64 latest droops: timestamp and depth [Table 18-9, 18; up to 64; reset empty] -/
  droopLog : List (Nat × Nat)
  /-- Eye margins by link at every training, latest first [Table 18-9, 18; reset empty] -/
  eyes : List (Nat × Nat)
  /-- Weakest retention margin per bank group at every patrol period [Table 18-9, 18; reset empty] -/
  retention : List Nat
  /-- Flash retries by level, soft decisions at level 9 [Table 18-9, 18; reset empty] -/
  retries : SMap Nat
  /-- Margin plans logged: timestamp [R429, 18; reset empty] -/
  plans : List Nat
  /-- THERMTRIP_N events that VAON outlived [R470, 21; count; reset 0] -/
  trips : Nat
deriving DecidableEq, Repr

/-- The logbooks and the trace ring. -/
structure Log where
  /-- Logbooks by die, 0 to 18 [R424, 18; 19; reset empty] -/
  dies : SMap DieLog
  /-- Newest record of each die's ring in area 254: its tick, its order of writing and the totals it carries [R425, R426, 18; 192 MiB ring per die; reset empty] -/
  saved : SMap (Nat × Nat × DieLog)
  /-- Boot-flash summary of each die: its tick, its order of writing and the totals it carries [R425, R426, 18; 4 KiB per die; reset empty] -/
  summ : SMap (Nat × Nat × DieLog)
  /-- Ring records and summaries written so far, which orders them [R426, 18; count; reset 0] -/
  order : Nat
  /-- Trace ring, oldest first [R427, 18; 65,536 entries of 32 bytes; reset empty] -/
  trace : List Trace
  /-- A re-plan is wanted at the next tick [R429, 18; 1 bit; reset false] -/
  replan : Bool
  /-- Tick of the last plan [R429, 18; count; reset 0] -/
  planTick : Nat
  /-- Tick of the last monitor reading, by die [R428, 18; count; reset empty] -/
  readTick : SMap Nat
  /-- Guardband still to be raised per logic die, in 5 mV steps [Table 18-10, 18; 3; reset empty] -/
  raising : SMap Nat
deriving DecidableEq, Repr

/-! ### The directory and the chain -/

/-- A transfer slot (R401). -/
structure XSlot where
  /-- Owner session and whether it is a chain session [R401, 17; reset none] -/
  owner : Nat
  /-- The owner is a chain session [R401, 17; 1 bit; reset none] -/
  chain : Bool
  /-- Target object [Table 17-11, 17; 32 bits; reset 0] -/
  target : Nat
  /-- Read direction [Table 17-11, 17; 1 bit; reset false] -/
  read : Bool
  /-- Length, offset [Table 17-11, 17; 32 bits each; reset 0] -/
  length : Nat
  /-- Offset of the chunk window [Table 17-11, 17; 32 bits; reset 0] -/
  offset : Nat
  /-- Bytes received, or the snapshot [R401, 17; up to 2^26 bytes; reset empty] -/
  data : Bytes
  /-- State and result [Table 17-11, 17; 8 bits each; reset 0] -/
  state : Nat
  /-- Result of the last operation [Table 17-11, 17; 8 bits; reset 0] -/
  result : Nat
  /-- Tick of the latest request [R401, 17; count; reset none] -/
  lastTick : Nat
deriving DecidableEq, Repr

/-- An answer waiting for the boot-flash commit of an S write (R399). -/
inductive Answer where
  | none
  /-- In-band DIR_WRITE request. -/
  | req (rid : Nat)
  /-- Chain WRITE: the request as it arrived. -/
  | chain (m : ChainMsg)
deriving DecidableEq, Repr

/-- A directory operation that has arrived: to whom it answers, who performs it, its object, and the value of a write
(R398). -/
structure DirOp where
  /-- To whom it answers: a request, a chain request, or nobody [R398, 17; enumerated; reset none] -/
  ans : Answer
  /-- Who performs it [R394, 17; reset none] -/
  who : Actor
  /-- Entry, index × 256 + subindex [R12, 17; 24 bits; reset none] -/
  obj : Nat
  /-- Value written, none for a read [R398, 17; reset none] -/
  wr : Option DVal
deriving DecidableEq, Repr

/-- A chain session (R395, R396). -/
structure CSess where
  /-- Session identifier [R395, 17; 32 bits; reset none] -/
  sid : Nat
  /-- Chain address of the manager's end [R395, 17; 7 bits; reset none] -/
  src : Nat
  /-- Level [R394, 17; enumerated; reset none] -/
  level : Level
  /-- Tenant of a TENANT session, 0xFF otherwise [R394, 17; 8 bits; reset none] -/
  tenant : Nat
  /-- Session key [R395, 17; 48 bytes; reset none] -/
  key : Bytes
  /-- Last request number accepted, and its stored response: status, type, value [R393, 17; reset none] -/
  last : Nat
  /-- Response stored for the last request number: status, type, value [R393, 17; reset none] -/
  stored : Nat × Nat × Bytes
  /-- Tick of the latest message [R395, 17; count; reset none] -/
  lastTick : Nat
  /-- Nonce of 0x9010:08 for this session [R444, 19; 48 bytes or none; reset none] -/
  nonce : Option Bytes
deriving DecidableEq, Repr

/-- What the node sent on the chain (R385). -/
inductive ChainOut where
  | claim (ident : Bytes) (grade : Nat) (stepping : Bytes)
  | resp (dest xtag version flags req obj type status : Nat) (body tag : Bytes)
  | session (dest xtag : Nat) (body : Bytes)
  | alert (num : Nat) (record : Bytes)
deriving DecidableEq, Repr

/-- The directory, the boot-flash record and the chain (chapter 17). -/
structure Dir where
  /-- Entry values by index × 256 + sub; an unlisted entry holds its default [R12, R405, 17; per entry; reset empty (defaults)] -/
  vals : SMap DVal
  /-- Values of delayed entries in force since the last boot [R398, 17; per entry; reset empty (defaults)] -/
  inForce : SMap DVal
  /-- The boot-flash record's two copies, with their sequence numbers [R399, 17; two copies; reset empty, 1 and 0 (DESIGN CHOICE, log 9)] -/
  copyA : SMap DVal
  /-- Boot-flash record, copy B [R399, 17; list; reset empty] -/
  copyB : SMap DVal
  /-- Sequence number of copy A [R399, 17; count; reset 1] -/
  seqA : Nat
  /-- Sequence number of copy B [R399, 17; count; reset 0] -/
  seqB : Nat
  /-- S writes accepted and not yet committed: entry, and the answer due [R399, 17; list; reset empty] -/
  commits : List (Nat × Answer)
  /-- Operations that wait for the one under way, in order of arrival [R398, 17; list; reset empty] -/
  waiting : List DirOp
  /-- Defaults are restored at the next cold boot [R399, 17; 1 bit; reset false] -/
  restore : Bool
  /-- Transfer slots by number [R401, 17; 8; reset empty] -/
  slots : SMap XSlot
  /-- Status of the latest directory operation [R392, 17; 8 bits; reset 0] -/
  status : Nat
  /-- Value returned by the latest directory read [R392, 17; reset none] -/
  value : Option DVal
deriving DecidableEq, Repr

/-- The management chain (chapter 17). -/
structure Chain where
  /-- MGT_ENUM_IN past its deglitch, and the AON cycle since which it has held [R387, 17; 1 bit; reset false, 0] -/
  enumIn : Bool
  /-- AON cycle since which MGT_ENUM_IN has held its level [R387, 17; count; reset 0] -/
  enumSince : Nat
  /-- A claim awaits its confirm: address, version, AON cycle of the claim [R388, R389, 17; reset none] -/
  claim : Option (Nat × Nat × Nat)
  /-- MGT_ENUM_OUT [R387, 17; 1 bit; reset false] -/
  enumOut : Bool
  /-- Chain sessions, oldest first [R395, 17; up to 4; reset empty] -/
  sessions : List CSess
  /-- Pending alerts, oldest first, and the next number [R403, 17; up to 16; reset empty, 1] -/
  alerts : List Alert
  /-- Number of the next alert [R403, 17; 32 bits; reset 1] -/
  nextAlert : Nat
  /-- The controller is in bus-off [R383, 17; 1 bit; reset false] -/
  busOff : Bool
  /-- Transfers sent, latest last [R385, 17; the model's own output record; reset empty] -/
  out : List ChainOut
deriving DecidableEq, Repr

/-! ### Flash -/

/-- A codeword as stored: the parcel and its metadata (Tables 10-3 and 10-4). Check bits follow from them. -/
structure FSlot where
  /-- Parcel data [Table 10-3, 10; 4,096 bytes; reset none] -/
  data : Bytes
  /-- Metadata: handle, tenant, stamp [Table 10-4, 10; 64, 6 and 32 bits; reset none] -/
  handle : Nat
  /-- Metadata: tenant [Table 10-4, 10; 6 bits; reset none] -/
  tenant : Nat
  /-- Metadata: stamp [Table 10-4, 10; 32 bits; reset none] -/
  stamp : Nat
  /-- Written as zeros for a parcel that stays unmapped [R236, 10; 1 bit; reset none] -/
  blank : Bool
deriving DecidableEq, Repr

/-- A parcel in the write buffer: its node logical parcel and what will be stored (R235). -/
structure WBuf where
  /-- Node logical parcel [R235, 10; 36 bits; reset none] -/
  nlp : Nat
  /-- What will be stored [R235, 10; reset none] -/
  slot : FSlot
  /-- Cycle at which it entered [R236, 10; count; reset none] -/
  at_ : Nat
deriving DecidableEq, Repr

/-- A superblock (R228). -/
structure SBlk where
  /-- Runs in SLC mode [R228, 10; 1 bit; reset none] -/
  slc : Bool
  /-- 0 free, 1 open, 2 closed, 3 retired [R240, R245, 10; 2 bits; reset 0] -/
  st : Nat
  /-- Media sequence at opening [R237, 10; 32 bits; reset 0] -/
  seq : Nat
  /-- Next free slot of the block, by channel [R236, 10; count; reset empty (0)] -/
  next : SMap Nat
  /-- Channels erased since it lost its last valid parcel [R240, 10; list; reset empty] -/
  erased : List Nat
deriving DecidableEq, Repr

/-- Why a program job runs. -/
inductive JobKind where
  /-- Write buffer to SLC. -/
  | host
  | fold
  | gc
  /-- Refresh, wear levelling and shred relocation. -/
  | other
  /-- Journal ring to area 255. -/
  | journal
deriving DecidableEq, Repr

/-- One parcel of a program job: destination and content; for a copy the entry value it must still have (R239). -/
structure Move where
  /-- Node logical parcel [R239, 10; 36 bits; reset none] -/
  nlp : Nat
  /-- Destination channel [R239, 10; 5 bits; reset none] -/
  chan : Nat
  /-- Destination slot on the channel [R239, 10; 31 bits; reset none] -/
  slot : Nat
  /-- What is programmed [R239, 10; reset none] -/
  cont : FSlot
  /-- Part of a whole row of its unit [R236, 10; 1 bit; reset none] -/
  row : Bool
  /-- Channel and slot copied from, none for host data [R239, 10; reset none] -/
  src : Option (Nat × Nat)
deriving DecidableEq, Repr

/-- A program job (R236, R239). -/
structure Job where
  /-- Number of the job [R236, 10; count; reset none] -/
  id : Nat
  /-- Host writes, fold, collection, or refresh, wear levelling and shred relocation [R236, R239, R240, 10; enumerated; reset none] -/
  kind : JobKind
  /-- Superblock written [R236, 10; count; reset none] -/
  sb : Nat
  /-- Parcels it stores [R236, 10; list; reset none] -/
  moves : List Move
  /-- Programmed and verified; its entries switch at the next round boundary [R239, 10; 1 bit; reset none] -/
  verified : Bool
  /-- Deltas of a journal job [R248, 10; count; reset none] -/
  deltas : Nat
deriving DecidableEq, Repr

/-- A map delta (R248). -/
inductive Delta where
  /-- A completed write whose data is still in the write buffer. -/
  | write (nlp : Nat)
  /-- New coarse entry of a unit, with the fine entries of its group when it is split. -/
  | unit (u entry : Nat) (fine : Option (List Nat))
  /-- A remap or media-sequence change. -/
  | other
deriving DecidableEq, Repr

/-- A map: coarse entries with complements, and fine groups (Tables 10-5 and 10-6). -/
structure FMap where
  /-- Coarse records by unit: entry and complement; unlisted unmapped [R233, 10; 2 × 32 bits; reset empty] -/
  coarse : SMap (Nat × Nat)
  /-- Overlay groups in use: sixteen entries with complements [R233, 10; 16 × 2 × 32 bits; reset empty] -/
  groups : SMap (List (Nat × Nat))
deriving DecidableEq, Repr

/-- A flash area's descriptor in force (R232). -/
structure Area where
  /-- Tenant of the area, 0xFF none [R232, 10; 8 bits; reset none (default 0xFF)] -/
  tenant : Nat
  /-- base_unit [R232, 10; 32 bits; reset none (default 0)] -/
  base : Nat
  /-- units [R232, 10; 32 bits; reset none (default 0)] -/
  units : Nat
deriving DecidableEq, Repr

/-- The media manager (chapter 10). -/
structure Flash where
  /-- Discovery has finished; recovery has finished [R226, R250, 10; 1 bit each; reset false] -/
  found : Bool
  /-- Recovery has finished [R250, 10; 1 bit; reset false] -/
  serving : Bool
  /-- P, parcels per block in QLC mode [Table 10-2, 10; count; reset 0 (package property)] -/
  perBlock : Nat
  /-- Map in force [R233, 10; reset empty (all unmapped)] -/
  map : FMap
  /-- Units whose record failed its check, reloaded at the next boundary [R234, 10; list; reset empty] -/
  reload : List Nat
  /-- Map under the deltas programmed into flash, and the writes among them whose data is not [R248, R250, 10; reset empty] -/
  durable : FMap
  /-- Writes of the durable map whose data is not in flash [R250, 10; list; reset empty] -/
  durWrites : List Nat
  /-- Write buffer, oldest first [R235, 10; 8,192 parcels; reset empty] -/
  buffer : List WBuf
  /-- Codewords stored, by channel × 2^31 + slot [R229, R230, 10; reset empty (DESIGN CHOICE, log 9)] -/
  store : SMap FSlot
  /-- Superblocks by v; unlisted: free [R228, 10; V; reset empty] -/
  blocks : SMap SBlk
  /-- Superblocks set aside for SLC at the last cold boot: those below this number [R238, 10; count; reset 0] -/
  slcBlocks : Nat
  /-- Open superblocks: host writes, fold destination, collection destination [R236, R238, R240, 10; reset none] -/
  openHost : Option Nat
  /-- Open superblock of folds [R238, 10; count or none; reset none] -/
  openFold : Option Nat
  /-- Open superblock of collection [R240, 10; count or none; reset none] -/
  openGc : Option Nat
  /-- Program jobs under way, and the next job number [R236, R239, 10; list; reset empty, 1] -/
  jobs : List Job
  /-- Number of the next program job [R236, 10; count; reset 1] -/
  nextJob : Nat
  /-- Split table: partial writes by unit [R237, 10; 65,536 units; reset empty] -/
  heat : SMap Nat
  /-- Journal ring: deltas not yet programmed, oldest first [R248, 10; 256 MiB; reset empty] -/
  ring : List Delta
  /-- Deltas since the last checkpoint; the count at the start of the one under way [R248, 10; counts; reset 0, none] -/
  since : Nat
  /-- Delta count at the start of the checkpoint under way [R248, 10; count or none; reset none] -/
  ckpt : Option Nat
  /-- Erase counts by channel × 2^32 + physical block [R246, 10; count; reset empty] -/
  wear : SMap Nat
  /-- Endurance of a channel's blocks, from its parameter page, 0 unknown [R246, 10; count; reset empty] -/
  endurance : SMap Nat
  /-- Physical blocks that discovery found [R226, R482, 10; count; reset 0] -/
  physBlocks : Nat
  /-- The flush record of the last flush is complete [R250, 10; 1 bit; reset true (no flush was due: DESIGN CHOICE, log 17)] -/
  flushRec : Bool
  /-- Reads since programmed, and learned retry level, by channel × 2^32 + virtual block [R243, R244, 10; reset empty] -/
  reads : SMap Nat
  /-- Learned retry level by channel × 2^32 + virtual block [R243, 10; 3 bits; reset empty] -/
  level : SMap Nat
  /-- Physical block behind a virtual one, where it is not the block of its own number [R228, 10; reset empty] -/
  remap : SMap Nat
  /-- Retired blocks by channel × 2^32 + physical block [R245, 10; list; reset empty] -/
  retired : List Nat
  /-- Ticks of the latest block failures, by channel [R247, 10; lists; reset empty] -/
  fails : SMap (List Nat)
  /-- Superblocks to be refreshed [R244, 10; list; reset empty] -/
  refresh : List Nat
  /-- Ticks of the last heat halving and scrub [R237, R244, 10; counts; reset 0] -/
  heatTick : Nat
  /-- Tick of the last scrub [R244, 10; count; reset 0] -/
  scrubTick : Nat
  /-- Areas in force since the last boundary; unlisted: unassigned [R232, 10; 256; reset empty] -/
  areas : SMap Area
  /-- Units set lost whole for want of a group: the slot their other parcels are still at [R242, 10; reset empty] -/
  salvage : SMap Nat
  /-- Parcels of salvaged units that are lost, by node logical parcel [R242, 10; list; reset empty] -/
  lostIn : List Nat
  /-- Discards of requests that have passed their boundary: request and deltas still to enter the ring [R251, 10; reset empty] -/
  discards : SMap Nat
deriving DecidableEq, Repr
/-! ### Composition (chapter 16) -/

/-- A placement in T1: the same range of every stack (R212, R381). -/
structure Placed where
  /-- Offset within every stack, and bytes per stack [R212, R381, 09; 36 bits each; reset none] -/
  base : Nat
  /-- Bytes per stack [R212, 09; 36 bits; reset none] -/
  len : Nat
  /-- Tenant that holds it [Table 14-1, 14; 6 bits; reset none] -/
  tenant : Nat
  /-- 0 corpus, 1 context session, 2 table; and the object's own number here [R381, 16; counts; reset none] -/
  kind : Nat
  /-- The object's own number here [R381, 16; count; reset none] -/
  num : Nat
deriving DecidableEq, Repr

/-- The composition map in force and what follows from it (chapter 16). -/
structure Comp where
  /-- Map in force, signature excluded [R370, 16; bytes; reset empty (no map)] -/
  map : Bytes
  /-- Epoch in force and its stored complement [R370, 16; 32 bits each; reset 0 and all ones] -/
  epochC : Nat
  /-- Staged map in the boot flash, signature included [R374, 16; bytes; reset empty] -/
  staged : Bytes
  /-- Map as kept in the boot flash, signature included [R375, 16; bytes; reset empty (DESIGN CHOICE, log 9)] -/
  stored : Bytes
  /-- Timetable image as staged in the boot flash, signature included [R268, 11; bytes; reset empty] -/
  image : Bytes
  /-- The node takes no part in the partition [R375, 16; 1 bit; reset false] -/
  outside : Bool
  /-- Disputed corpora (tenant × 65,536 + number), context sessions (handles) and windows (indices) [R380, 16; lists; reset empty] -/
  dCorpora : List Nat
  /-- Disputed context sessions, by handle [R380, 16; list; reset empty] -/
  dCtx : List Nat
  /-- Disputed windows, by index [R380, 16; list; reset empty] -/
  dWindows : List Nat
  /-- Nodes this node holds out of service, in its own view [R378, 16; list; reset empty] -/
  nodesOut : List Nat
  /-- Placements made in T1 [R381, 16; list; reset empty] -/
  placed : List Placed
deriving DecidableEq, Repr

/-! ### Corpora (chapter 6) -/

/-- A slot in use of a shard held here (R141, R142). -/
structure CSlot where
  /-- Identifier and stamp of the index entry [R142, 06; 64 and 32 bits; reset none] -/
  id : Nat
  /-- Stamp of the index entry [R142, 06; 32 bits; reset none] -/
  stamp : Nat
  /-- Code [R141, 06; 32 bytes; reset none] -/
  code : Bytes
  /-- Sketch [R143, 06; 0, 128 or 256 bits; reset none] -/
  sketch : Nat
  /-- Live bit: the sketch is in the planes [R148, 06; 1 bit; reset none] -/
  live : Bool
  /-- An entry of the pending list holds the sketch [R148, 06; 1 bit; reset none] -/
  pend : Bool
  /-- Number of the full vector in the corpus's T3 object [R151, 06; count; reset none] -/
  vidx : Nat
  /-- The slot awaits its reload from the journal [R158, 06; 1 bit; reset none] -/
  reload : Bool
deriving DecidableEq, Repr

/-- An item staged in a corpus's update strip, to apply at the next boundary (R155, R156). -/
structure CItem where
  /-- Key of the slot, shard × 2^31 + tile × 2^24 + u [R141, 06; count; reset none] -/
  key : Nat
  /-- Delete, with its shred flag [R154, 06; 1 bit each; reset none] -/
  del : Bool
  /-- Shred flag of a delete [R154, 06; 1 bit; reset none] -/
  shred : Bool
  /-- Content the slot takes [R155, 06; reset none] -/
  slot : CSlot
  /-- The item has been accepted on every replica in service [R155, 06; 1 bit; reset none] -/
  ready : Bool
  /-- Part or request that staged it, and the item's number there [R155, 06; counts; reset none] -/
  owner : Nat
  /-- Number of the item in its part or request [R155, 06; count; reset none] -/
  idx : Nat
deriving DecidableEq, Repr

/-- A corpus of a tenant on this node (R139). -/
structure Corp where
  /-- Owning tenant [R139, 06; 6 bits; reset none] -/
  tenant : Nat
  /-- Corpus number [R139, 06; 16 bits; reset none] -/
  num : Nat
  /-- Slot c of the objects 0xC080+c, when the node holds a shard [R139, 06; 6 bits; reset none] -/
  slot : Option Nat
  /-- Body of the CORPUS_CREATE: parameters, proj, chscale, rot, centroids, cell_slots, cell_tile [R139, 06; bytes; reset none] -/
  body : Bytes
  /-- Shards held here, rising; their areas follow one another in that order [R372, 16; list; reset none] -/
  shards : List Nat
  /-- Base of its T1 range in every stack [R141, 06; 36 bits; reset none] -/
  base : Nat
  /-- The code area is in T3 by fallback [R159, 06; 1 bit; reset none] -/
  codeT3 : Bool
  /-- Slots in use, by key [R141, R142, 06; 2^24 per tile; reset none] -/
  slots : SMap CSlot
  /-- Items staged and not applied, oldest first [R155, 06; list; reset none] -/
  items : List CItem
  /-- Consignments of the T3 object of full vectors: area and first parcel [R213, R232, 10; list; reset none] -/
  cons : List (Nat × Nat)
  /-- Full vectors by number, as written [R155, 06; bytes; reset none] -/
  vecs : SMap Bytes
  /-- Regions that held pending entries at the previous patch, shard × 64 + region [R157, 06; list; reset none] -/
  patched : List Nat
  /-- Serves: its rebuild is done [R159, 06; 1 bit; reset none] -/
  serving : Bool
deriving DecidableEq, Repr

/-- A query's part on this node: a shard of a SEARCH, the finalists of one, or a member's part of an attend
(R145, R151, R182), or an update item forwarded here (R154). -/
structure Part where
  /-- Number, from the same count as requests [model; count; reset none] -/
  id : Nat
  /-- 0 shard of a SEARCH, 1 finalists, 2 member part of an attend, 3 update item at its primary, 4 append at a member,
  5 copy of an update at a replica; 8 more while its formed answer is held for its point [R379, R290, 16; 4 bits; reset none] -/
  kind : Nat
  /-- Gateway or home: its postcode, and its tag for the request [R145, 06; 12 and 32 bits; reset none] -/
  gate : Nat
  /-- Tag of the gateway for the request [R145, 06; 32 bits; reset none] -/
  tag : Nat
  /-- Tenant [R145, 06; 6 bits; reset none] -/
  tenant : Nat
  /-- Corpus number or session handle, and shard or item [R145, 06; counts; reset none] -/
  obj : Nat
  /-- Shard, or item [R145, 06; count; reset none] -/
  shard : Nat
  /-- Parameters and query as they came [R145, 06; bytes; reset none] -/
  par : Bytes
  /-- Query bytes as they came [R145, 06; bytes; reset none] -/
  query : Bytes
  /-- Tiles still to be swept, keys found so far [R147, 06; lists; reset none] -/
  tiles : List Nat
  /-- Keys found so far [R147, 06; list; reset none] -/
  found : List Nat
  /-- Finalists, with the vectors' parcels still awaited and the bytes that have come [R151, 06; lists; reset none] -/
  ents : List Ent
  /-- Vectors' parcels still awaited [R151, 06; list; reset none] -/
  waits : List Nat
  /-- Vectors' bytes that have come [R151, 06; bytes; reset none] -/
  got : SMap Bytes
  /-- Replicas whose acknowledgement is awaited [R155, 06; list; reset none] -/
  awaits : List Nat
  /-- Status gathered and cause byte gathered [R153, R293, 06; 8 bits each; reset none] -/
  status : Nat
  /-- Cause byte gathered [R293, 12; 8 bits; reset none] -/
  cause : Nat
  /-- Cycles of its strict points, empty when not STRICT [R290, 12; list; reset none] -/
  points : List Nat
deriving DecidableEq, Repr

/-- A pass running in the stacks for the built-in paths (R147, R157, R179). -/
structure Pass where
  /-- 0 corpus sweep, 1 patch, 2 attend sweep [R147, R157, R179, 06; 2 bits; reset none] -/
  kind : Nat
  /-- Corpus (tenant × 65,536 + number) and shard × 64 + region; or sketch region group [R147, R179, 06; counts; reset none] -/
  obj : Nat
  /-- Region, or sketch region group [R147, R179, 06; count; reset none] -/
  region : Nat
  /-- Lane of each query: lane (or query head), part or request, tile [R147, 06; list; reset none] -/
  lanes : List (Nat × Nat × Nat)
  /-- Keys patched, and the pending keys of fallen tiles noted at the start [R148, R157, 06; list; reset none] -/
  keys : List Nat
  /-- Runs still to follow over the same region [R157, 06; count; reset none] -/
  runs : Nat
  /-- Stacks whose completion record is awaited [R132, 05; list; reset none] -/
  left : List Nat
deriving DecidableEq, Repr

/-! ### Context memory (chapter 7) -/

/-- A model profile (R163). -/
structure Prof where
  /-- Owning tenant [R163, 07; 6 bits; reset none] -/
  tenant : Nat
  /-- Profile number [R163, 07; 16 bits; reset none] -/
  num : Nat
  /-- Part 0: the parameters of Table 7-1 [R163, 07; 16 bytes; reset none] -/
  par : Bytes
  /-- Rotations by head [R163, 07; 128 × D bytes each; reset none] -/
  rots : SMap Bytes
deriving DecidableEq, Repr

/-- A context session with spans on this node (R164). -/
structure CtxS where
  /-- Handle [R164, 07; 32 bits; reset none] -/
  handle : Nat
  /-- Owning tenant [R164, 07; 6 bits; reset none] -/
  tenant : Nat
  /-- Profile it was opened with [R164, 07; reset none] -/
  prof : Prof
  /-- Capacity C in tokens, window W, tolerate [Table 7-2, 07; reset none] -/
  cap : Nat
  /-- Window W [Table 7-2, 07; 1 to 16; reset none] -/
  window : Nat
  /-- Tolerate [Table 7-2, 07; 1 bit; reset none] -/
  tolerate : Bool
  /-- Members, the home first [R182, 07; 1 to 16 postcodes; reset none] -/
  members : List Nat
  /-- Base of its T1 range in every stack; spans in T3 and their object [R165, 07; reset none] -/
  base : Nat
  /-- Spans in T3 [R165, 07; count; reset none] -/
  spilled : Nat
  /-- Its T3 object: area and first parcel [R165, 07; reset none] -/
  obj : Nat × Nat
  /-- Region group base row of its sketches [R168, 07; 16 bits; reset none] -/
  group : Nat
  /-- Positions accepted, applied, folded [R170, R173, 07; counts; reset none] -/
  accepted : Nat
  /-- Positions applied [R172, 07; count; reset none] -/
  applied : Nat
  /-- Positions folded [R173, 07; count; reset none] -/
  folded : Nat
  /-- Tokens accepted and not applied, or in the open block, by position: the body of the append [R170, R172, 07; reset none] -/
  toks : SMap Bytes
  /-- Sketches by (ℓ × H + h) × 2^22 + position, in the recent list or in the regions [R171, R173, 07; 128 bits; reset none] -/
  sketches : SMap Nat
  /-- Block maxima of the last W blocks by (ℓ × H + h) × 2 + (0 keys, 1 values), latest first [R80, R172, 03; fp32; reset none] -/
  maxima : SMap (List Nat)
  /-- Spans exact-screened, by (ℓ × H + h) × 512 + span [R183, 07; list; reset none] -/
  exact : List Nat
  /-- A fold is under way [R173, 07; 1 bit; reset none] -/
  folding : Bool
  /-- Broken: serves nothing further [R183, 07; 1 bit; reset none] -/
  broken : Bool
  /-- CTX_CLOSE has been accepted: freed at the next boundary [R164, 07; 1 bit; reset none] -/
  closing : Bool
deriving DecidableEq, Repr

/-! ### Embedding tables (chapter 8) -/

/-- One core's add of a row, waiting in a scatter batch (R198). -/
structure LAdd where
  /-- Row [R198, 08; 35 bits; reset none] -/
  row : Nat
  /-- Values of the row in order [R198, 08; fp32 or int32 patterns; reset none] -/
  vals : List Nat
  /-- Lines of the row already applied [R199, 08; list; reset none] -/
  done : List Nat
deriving DecidableEq, Repr

/-- A round batch (R191). -/
structure Batch where
  /-- 0 gather, 1 write, 2 scatter-add [R191, 08; 2 bits; reset none] -/
  kind : Nat
  /-- Round of admission, as its boundary's cycle [R192, 08; count; reset none] -/
  round : Nat
  /-- Requests, in admission order [R191, 08; list; reset none] -/
  rids : List Nat
  /-- Every envelope of it has run its command: rows and adds are known [R191, 08; 1 bit; reset none] -/
  started : Bool
  /-- Rows it reads, or has yet to write, rising [R191, 08; list; reset none] -/
  rows : List Nat
  /-- Adds not yet applied whole [R198, 08; list; reset none] -/
  adds : List LAdd
deriving DecidableEq, Repr

/-- Forwarding state of a row (Table 8-5). -/
inductive HotSt where
  | moving | forwarded | returning
deriving DecidableEq, Repr

/-- A row in the hot store or on its way (R202, R203). -/
structure Hot where
  /-- Row [R202, 08; 34 bits; reset none] -/
  row : Nat
  /-- MOVING, FORWARDED or RETURNING; an unlisted row is NORMAL [R203, 08; enumerated; reset none] -/
  st : HotSt
  /-- Cluster whose locked L2 ways hold it, and its address in that scratch [R202, 08; reset none] -/
  cluster : Nat
  /-- Address of its copy in that scratch [R203, 08; 52 bits; reset none] -/
  addr : Nat
deriving DecidableEq, Repr

/-- An embedding table (R186). -/
structure Tab where
  /-- Slot t [R186, 08; 6 bits; reset none] -/
  slot : Nat
  /-- Descriptor words 0 to 7 [Table 8-2, 08; 8 × 64 bits; reset none] -/
  desc : List Nat
  /-- Broken: serves nothing further [R205, 08; 1 bit; reset none] -/
  broken : Bool
  /-- References by round batch, latest first: row and count [R202, 08; up to 1,024 batches; reset none] -/
  refs : List (SMap Nat)
  /-- Batches under way, oldest first [R191, R192, 08; list; reset none] -/
  batches : List Batch
  /-- Rows in the hot store or moving [R203, 08; list; reset none] -/
  hot : List Hot
  /-- Rows whose hot copy was lost [R205, 08; list; reset none] -/
  lost : List Nat
deriving DecidableEq, Repr

/-- The built-in paths (chapters 6 to 8). -/
structure Paths where
  /-- Corpora, in order of creation [R139, 06; up to 64 with shards here; reset empty] -/
  corpora : List Corp
  /-- Parts under way [R145, R151, R154, R182, 06; list; reset empty] -/
  parts : List Part
  /-- The pass running in the stacks [R147, R179, 06; reset none] -/
  pass : Option Pass
  /-- Patches wanted: corpus and shard × 64 + region, in order [R157, 06; list; reset empty] -/
  patches : List (Nat × Nat)
  /-- Rounds since the last patch [R157, 06; count; reset 0] -/
  patchRounds : Nat
  /-- Profiles [R163, 07; 16 per tenant; reset empty] -/
  profs : List Prof
  /-- Context sessions with spans here [R164, 07; up to 1,024; reset empty] -/
  ctx : List CtxS
  /-- Attends admitted and not begun, and the one streaming [R178, 07; lists; reset empty] -/
  attends : List Nat
  /-- Embedding tables [R186, 08; up to 64; reset empty] -/
  tabs : List Tab
  /-- Pending-list capacity in force [R162, 06; 32 bits; reset 1048576] -/
  pendCap : Nat
  /-- Hot store bytes in force [R206, 08; count; reset 0] -/
  hotBytes : Nat
deriving DecidableEq, Repr

/-! ### The fabric (chapter 11) -/

/-- A scheduled message waiting for an origin entry of its stream (R270). -/
structure FOut where
  /-- Stream [R270, 11; 12 bits; reset none] -/
  stream : Nat
  /-- Destination postcode [Table 11-4, 11; 12 bits; reset none] -/
  dest : Nat
  /-- Tenant [Table 11-4, 11; 6 bits; reset none] -/
  tenant : Nat
  /-- Tag, address word, inline bytes and body [Table 11-4, 11; reset none] -/
  tag : Nat
  /-- Address word [Table 11-4, 11; 64 bits; reset none] -/
  address : Nat
  /-- Inline bytes [Table 11-4, 11; 32 bytes; reset none] -/
  inl : Bytes
  /-- Body [Table 11-4, 11; up to 4,096 bytes; reset none] -/
  data : Bytes
  /-- Flits of the body already sent, when it takes more than one slot of its stream [R270, 11; count; reset none] -/
  off : Nat
  /-- Cycle before which it is held [R290, 12; count; reset none] -/
  after : Nat
  /-- Local request it serves, 0 none [R267, 11; count; reset none] -/
  rid : Nat
deriving DecidableEq, Repr

/-- One link (R255 to R267, R282). -/
structure LinkSt where
  /-- This end is ready for scheduled traffic; the other end said so [R265, R282, 11; 1 bit each; reset false] -/
  ready : Bool
  /-- The other end is ready for scheduled traffic [R265, R282, 11; 1 bit; reset false] -/
  peer : Bool
  /-- Attempts failed in a row [R258, 11; 0 to 3; reset 0] -/
  attempts : Nat
  /-- Ticks of the latest down events [R282, 11; list; reset empty] -/
  downs : List Nat
  /-- A change of state waits for the next round boundary [R274, R282, 11; 1 bit; reset false] -/
  pending : Bool
  /-- Detours around it are engaged [R274, 11; 1 bit; reset false] -/
  detoured : Bool
  /-- Slot names the other end asked for, oldest first, and the one announced [R265, 11; lists; reset empty] -/
  asked : List Nat
  /-- Slot name announced for replay [R265, 11; 11 bits or none; reset none] -/
  announced : Option Nat
  /-- Replays made, by slot name [R265, 11; 0 to 3; reset empty] -/
  tries : SMap Nat
  /-- Slot names this end will request, and those it names lost [R265, R267, 11; lists; reset empty] -/
  toAsk : List Nat
  /-- Slot names this end names lost [R267, 11; list; reset empty] -/
  toLose : List Nat
  /-- Best-effort credits held, class 0 and class 1 [R279, 11; 256 each; reset 256] -/
  credit0 : Nat
  /-- Best-effort credits held, class 1 [R279, 11; 0 to 256; reset 256] -/
  credit1 : Nat
deriving DecidableEq, Repr

/-- Chunks of a long scheduled message received so far. -/
structure FAsm where
  /-- Source postcode [Table 11-4, 11; 12 bits; reset none] -/
  src : Nat
  /-- Tag [Table 11-4, 11; 32 bits; reset none] -/
  tag : Nat
  /-- What the message is, from its address word [Table 11-4, 11; count; reset none] -/
  what : Nat
  /-- Chunks received, by number [R272, 11; bytes; reset none] -/
  chunks : SMap Bytes
  /-- ERROR once a replay or a detour has carried a piece [Table 12-2, 12; 8 bits; reset none] -/
  cause : Nat
deriving DecidableEq, Repr

/-- A list merge at a node of a tree (R101, R273). -/
structure TreeNode where
  /-- Stream of the tree [R273, 11; 12 bits; reset none] -/
  stream : Nat
  /-- Tag of the request at the root [R273, 11; 32 bits; reset none] -/
  tag : Nat
  /-- Postcode of the root [R273, 11; 12 bits; reset none] -/
  root : Nat
  /-- Stage of the request [R145, 06; count; reset none] -/
  stage : Nat
  /-- Inputs by record order, 0 the node's own [R273, 11; bytes; reset none] -/
  inputs : SMap Bytes
deriving DecidableEq, Repr

/-- The fabric (chapter 11). -/
structure Fab where
  /-- Messages handed to the links, latest last [R261, 11; the model's own output record; reset empty] -/
  out : List FabMsg
  /-- Best-effort messages waiting for a link or for credits, oldest first [R279, 11; list; reset empty] -/
  held : List FabMsg
  /-- Best-effort sequence by source × 4,096 + destination [Table 11-4, 11; 32 bits; reset empty] -/
  seqs : SMap Nat
  /-- Timetable image in force, signature excluded [R268, 11; bytes; reset empty (none)] -/
  image : Bytes
  /-- The node's entries with their stored complements, and its merge records [R269, 11; 32,768 × 2 × 64 bits, 4,096 × 256 bits; reset empty] -/
  entries : List (Nat × Nat)
  /-- The node's merge records [R269, 11; up to 4,096 of 256 bits; reset empty] -/
  merges : List Bytes
  /-- Links; unlisted: nothing trained [R255, 11; 36; reset empty] -/
  links : SMap LinkSt
  /-- Scheduled messages waiting, in order [R270, 11; list; reset empty] -/
  outs : List FOut
  /-- Long messages being received [R272, 11; list; reset empty] -/
  asm : List FAsm
  /-- List merges under way [R273, 11; list; reset empty] -/
  trees : List TreeNode
  /-- Children heard in the ready wave, own ready message sent, cycle at which the own links were ready [R275, 11; reset empty, false, none] -/
  readyKids : List Nat
  /-- Own ready message sent [R275, 11; 1 bit; reset false] -/
  readySent : Bool
  /-- Cycle at which the own links were ready [R275, 11; count or none; reset none] -/
  readyAt : Option Nat
  /-- Start time chosen or received, as a cycle of this clock [R275, 11; count; reset none] -/
  startAt : Option Nat
  /-- The parent link carries control flits of the node's epoch with frames counted [R454, 20; 1 bit; reset false] -/
  running : Bool
  /-- Parent in use: 0 parent, 1 standby; cycle since which the node holds over [R257, 11; reset 0, none] -/
  parent : Nat
  /-- Cycle since which the node holds over [R257, 11; count or none; reset none] -/
  holdSince : Option Nat
deriving DecidableEq, Repr
/-! ### Security (chapter 19) -/

/-- The security engine and what the boot flash holds for it (chapter 19). -/
structure Sec where
  /-- The identity key is present in the engine [R432, R447, 19; 1 bit; reset false (not reconstructed)] -/
  idKey : Bool
  /-- Measurement registers M0 to M7 [R443, 19; 8 × 48 bytes; reset zeros] -/
  meas : List Bytes
  /-- Tenant keys by tenant; unlisted: the slot is empty [R445, R446, 19; 48 bytes; reset empty (DESIGN CHOICE, log 9)] -/
  psk : SMap Bytes
  /-- Complements of key handles that disagree with their handles, by tenant [R445, 19; list; reset empty] -/
  pskBad : List Nat
  /-- Image slots A and B [Table 19-1, 19; 12 MiB each; reset empty (DESIGN CHOICE, log 9)] -/
  imageA : Bytes
  /-- Image slot B [Table 19-1, 19; 12 MiB; reset empty (DESIGN CHOICE, log 9)] -/
  imageB : Bytes
  /-- Slot running: image B [R441, 19; 1 bit; reset false] -/
  runB : Bool
  /-- Slots whose image has been started and never confirmed, or is new and never started [R442, 19; 1 bit each; reset false] -/
  trialA : Bool
  /-- Slot B's image is on trial [R442, 19; 1 bit; reset false] -/
  trialB : Bool
  /-- A slot's image has never been started [R442, 19; 1 bit each; reset false] -/
  newA : Bool
  /-- Slot B's image has never been started [R442, 19; 1 bit; reset false] -/
  newB : Bool
  /-- Digests of the running image's security firmware, controller firmware and runtime [R441, 19; 3 × 48 bytes; reset empty] -/
  parts : List Bytes
  /-- Debug was opened above LOCKED since cold boot: report flag 0 [R444, R447, 19; 1 bit; reset false] -/
  opened : Bool
  /-- Factory record copy B is in use: report flag 3 [R444, 19; 1 bit; reset false] -/
  copyB : Bool
  /-- Answers of the test access port, latest last: BYPASS bits, IDCODE, scanned bytes [R447, 19; the model's own output record; reset empty] -/
  tap : List Nat
  /-- Characters taken by the console [R447, 19; bytes; reset empty] -/
  console : Bytes
deriving DecidableEq, Repr

/-! ### Reset inputs, ports and supplies (chapters 20 and 21) -/

/-- Link state of a sub-port (R459). -/
structure PortSt where
  /-- Ticks of the latest downs [R459, 20; list; reset empty] -/
  downs : List Nat
  /-- Held down since this tick [R459, 20; count; reset none] -/
  held : Option Nat
deriving DecidableEq, Repr

/-- Reset inputs, sub-ports, references and supplies. -/
structure Pins where
  /-- Arrangement in force per port, 0 and 1 [R297, 13; 8 bits each; reset 0] -/
  arr0 : Nat
  /-- Arrangement in force on port 1 [R297, 13; 8 bits; reset 0] -/
  arr1 : Nat
  /-- Sub-ports [R459, 20; 8; reset empty] -/
  ports : SMap PortSt
  /-- MACsec keys by (sub-port × 2 + direction) × 2 + association number [R299, 13; 52 bytes; reset empty] -/
  saks : SMap Bytes
  /-- AON cycle at which the latest accepted warm reset qualified [R452, 20; count; reset none] -/
  warmAt : Option Nat
  /-- The node has reached a start post since cold boot [R452, 20; 1 bit; reset false] -/
  posted : Bool
  /-- WRST_N is held low [R450, 20; 1 bit; reset false] -/
  wrstLow : Bool
  /-- PORST_N waits for the end of the flush [R451, 20; 1 bit; reset false] -/
  porstDue : Bool
  /-- Phase began at this AON cycle, for bringup_ms [Table 20-8, 20; count; reset 0] -/
  resetAt : Nat
  /-- Runtime, stacks, map and image ready, so that node ready waits for links only [R458, 20; 1 bit; reset false] -/
  trained : Bool
  /-- The bring-up under way is a partition boot whose map and image are loaded [R375, R454, 20; 1 bit; reset false] -/
  mapsIn : Bool
  /-- Every step of halt-and-report is complete [R421, R452, 18; 1 bit; reset false] -/
  haltDone : Bool
  /-- THERMTRIP_N asserted [R470, 21; 1 bit; reset false] -/
  thermtrip : Bool
  /-- Die of a trip that awaits the next cold boot's count [R470, 21; 5 bits or none; reset none] -/
  tripSeen : Option Nat
  /-- References missing: 0 REF25, 1 ETH_REFCLK, 2 FAB_REFCLK [R468, 21; list; reset empty] -/
  refsLost : List Nat
  /-- Always-on clock from the internal oscillator until PORST_N [R468, 21; 1 bit; reset false] -/
  aonInt : Bool
  /-- What the cold boot held at step 1 for a rail had found [R465, 21; reset none] -/
  bootIn : Option BootInputs
deriving DecidableEq, Repr
/-- What the node as a whole is doing (R441, R451 to R458, Table 13-14, Table 18-8, Table 10-8). -/
inductive Phase where
  /-- Held in cold reset, or just powered: nothing has booted. -/
  | coldReset
  /-- Cold boot held at step 1 of Table 20-5 for a rail out of tolerance. -/
  | railWait
  /-- Cold boot under way, up to node ready. -/
  | booting
  | bootFailed
  /-- Ready after a cold boot, until the start post. -/
  | ready
  | serving
  /-- Warm reset, before its hold point. -/
  | warmReset
  /-- At the hold point. -/
  | warmHold
  /-- Warm bring-up, up to node ready. -/
  | warmBoot
  /-- Ready after a warm reset, until the rejoin or a start post. -/
  | warmReady
  /-- Halt-and-report under way. -/
  | halting
  | halted
  /-- Power-loss flush under way. -/
  | flushing
  | flushDone
  /-- Every clock stopped by a rail fault, or the always-on domain collapsed. -/
  | stopped
deriving DecidableEq, Repr

/-- The block. -/
structure State where
  /-- Commands waiting, first in, first out [model; list; reset empty] -/
  pending : List Instr
  clk : Clock
  /-- Phase of the node [R441, R451, Table 13-14, 20; enumerated; reset coldReset] -/
  phase : Phase
  mem : Mem
  sea : Sea
  /-- Circular sequencers by stack [R109, 05; 16; reset empty] -/
  stk : SMap Seqr
  par : Par
  pwr : Pwr
  hxt : Hxt
  trf : Trf
  err : Err
  log : Log
  dir : Dir
  chain : Chain
  fab : Fab
  cmp : Comp
  path : Paths
  flash : Flash
  sec : Sec
  pins : Pins
  /-- Free values drawn so far: the model's own counter, no state of the spec's [model; count; reset 0 (DESIGN CHOICE, log 1)] -/
  free : Nat
deriving DecidableEq, Repr


/-- The machine right after reset (Table 20-2, "Lost"; R2, R12, R356): held in cold reset, every directory entry at its
default, every queue empty. Values the spec does not give are named in the assumption log. -/
def State.reset : State :=
  { pending := []
    clk := { now := 0, counting := false, post := 0, tick := 0, tickAt := 0, frameNext := 0, roundNext := 0, aon := 0 }
    phase := .coldReset
    mem := { bytes := [], synd := [], unsealedDef := true, rowFlip := [], rowBad := [], lines := [], iline := [],
             segs := [], ways := [], wbq := [] }
    sea := { threads := [], streams := [], train := [], items := [], kernelK := 4, balance := true, pausedOn := [],
             spent := [], outq := [], nextTag := 1, coresOut := [] }
    stk := []
    par := { queues := [], result := [], flight := [], next := 1, done := [], knocks := [] }
    pwr := { mcBox := [], seBox := [], transit := [], holding := [], heldOvf := [], wakeWanted := [], clusters := [],
             clLast := [], dieStopped := [], stPower := [], stLast := [], dieIdle := [], groupsStandby := [],
             grLast := [], boosted := false, mcIdle := 0, floor := 4, cap := 1100, below := 0, overT := 0,
             thermal := false, fast := false }
    hxt := { sessions := [], chals := [], asm := [], reqs := [], nextRid := 1, nextSid := 1, nextOrd := 1,
             unknown := [], out := [], sent := [], notes := [] }
    trf := { buckets := [], credits := [], lastQ := [], lastOut := [], busy := [], tenants := [], commit := [],
             noteTick := [], fired := [], gathered := [], kernMax := [] }
    err := { queue := [], halts := [], wdTick := 0, wdResets := [], mcDown := false }
    log := { dies := [], saved := [], summ := [], order := 0, trace := [], replan := false, planTick := 0, readTick := [],
             raising := [] }
    dir := { vals := [], inForce := [], copyA := [], copyB := [], seqA := 1, seqB := 0, commits := [], waiting := [],
             restore := false, slots := [], status := 0, value := none }
    chain := { enumIn := false, enumSince := 0, claim := none, enumOut := false, sessions := [],
               alerts := [], nextAlert := 1, busOff := false, out := [] }
    fab := { out := [], held := [], seqs := [], image := [], entries := [], merges := [], links := [], outs := [], asm := [],
             trees := [], readyKids := [], readySent := false, readyAt := none, startAt := none, running := false, parent := 0,
             holdSince := none }
    cmp := { map := [], epochC := 0xFFFFFFFF, staged := [], stored := [], image := [], outside := false,
             dCorpora := [], dCtx := [], dWindows := [], nodesOut := [], placed := [] }
    path := { corpora := [], parts := [], pass := none, patches := [], patchRounds := 0, profs := [], ctx := [],
              attends := [], tabs := [], pendCap := 1048576, hotBytes := 0 }
    flash := { found := false, serving := false, perBlock := 0, map := ⟨[], []⟩, reload := [], durable := ⟨[], []⟩,
               durWrites := [], buffer := [], store := [], blocks := [], slcBlocks := 0, openHost := none,
               openFold := none, openGc := none, jobs := [], nextJob := 1, heat := [], ring := [], since := 0,
               ckpt := none, wear := [], endurance := [], physBlocks := 0, flushRec := true, reads := [], level := [], remap := [],
               retired := [], fails := [], refresh := [], heatTick := 0, scrubTick := 0, areas := [], salvage := [],
               lostIn := [], discards := [] }
    sec := { idKey := false, meas := List.replicate 8 (List.replicate 48 0), psk := [], pskBad := [], imageA := [],
             imageB := [], runB := false, trialA := false, trialB := false, newA := false, newB := false, parts := [],
             opened := false, copyB := false, tap := [], console := [] }
    pins := { arr0 := 0, arr1 := 0, ports := [], saks := [], warmAt := none, posted := false, wrstLow := false,
              porstDue := false, resetAt := 0, trained := false, mapsIn := false, haltDone := false, thermtrip := false,
              tripSeen := none, refsLost := [], aonInt := false,
              bootIn := none }
    free := 0 }

end Sys2Proof.Machine
end

