-- ==== Sys2Proof/Machine/Maps.lean ====
section
/-! DEFINITION. Maps: reading and writing sparse data. Keys strictly rise, so equal contents are equal lists. -/
namespace Sys2Proof.Machine

/-- Value at key `k`, if listed. -/
def smGet? {α : Type} (m : SMap α) (k : Nat) : Option α :=
  match m with
  | [] => none
  | (j, a) :: t => if j = k then some a else smGet? t k

/-- Value at key `k`, or the default of an unlisted key. -/
def smGetD {α : Type} (m : SMap α) (k : Nat) (d : α) : α := (smGet? m k).getD d

/-- `m` with `k` listed as `a`. -/
def smPut {α : Type} (m : SMap α) (k : Nat) (a : α) : SMap α :=
  match m with
  | [] => [(k, a)]
  | (j, b) :: t => if j = k then (k, a) :: t else if k < j then (k, a) :: (j, b) :: t else (j, b) :: smPut t k a

/-- `m` with `k` unlisted. -/
def smDel {α : Type} (m : SMap α) (k : Nat) : SMap α := m.filter (fun p => p.1 != k)

/-- `m` with `k` holding `a`, in the form that lists no key holding the default `d`. -/
def smSet {α : Type} [DecidableEq α] (d : α) (m : SMap α) (k : Nat) (a : α) : SMap α :=
  if a = d then smDel m k else smPut m k a

/-- `k` inserted in a rising list of numbers. -/
def insNat (l : List Nat) (k : Nat) : List Nat :=
  match l with
  | [] => [k]
  | j :: t => if j = k then j :: t else if k < j then k :: j :: t else j :: insNat t k

/-- `k` removed from a list of numbers. -/
def delNat (l : List Nat) (k : Nat) : List Nat := l.filter (fun j => j != k)

/-- `f` applied to the state when `c` holds. -/
def whenS (c : Bool) (f : State → State) (s : State) : State := if c then f s else s

/-- `f` applied for the value of an option, if there is one. -/
def optS {α : Type} (o : Option α) (f : α → State → State) (s : State) : State :=
  match o with
  | some a => f a s
  | none => s

/-- `f` applied for each element of a list, first to last. -/
def foldS {α : Type} (l : List α) (f : α → State → State) (s : State) : State :=
  match l with
  | [] => s
  | a :: t => foldS t f (f a s)

end Sys2Proof.Machine
end

