-- ==== Sys2Proof/Machine/Operands.lean ====
section
/-! DEFINITION. Operands: bit fields, byte order, sign extension, and the operand layouts of the Eorus instructions
(R8, R9, R35, R63, R67). -/
namespace Sys2Proof.Machine

/-- Bits [hi:lo] of a number (R8). -/
def bits (n hi lo : Nat) : Nat := (n >>> lo) % 2 ^ (hi + 1 - lo)

/-- Bit `i` of a number. -/
def bit (n i : Nat) : Bool := n.testBit i

/-- A number with a field placed at `lo`; nothing is masked. -/
def fld (v lo : Nat) : Nat := v <<< lo

/-- 1 for true. -/
def b01 (b : Bool) : Nat := if b then 1 else 0

/-- The complement of an `n`-bit value (R11). -/
def compl (n v : Nat) : Nat := (2 ^ n - 1) - v % 2 ^ n

/-- Two's complement reading of an `n`-bit pattern. -/
def sgn (n v : Nat) : Int :=
  let u := v % 2 ^ n
  if u < 2 ^ (n - 1) then (u : Int) else (u : Int) - (2 ^ n : Nat)

/-- The `n`-bit pattern of an integer, wrapping. -/
def wrap (n : Nat) (i : Int) : Nat := (i % ((2 ^ n : Nat) : Int)).toNat

/-- `v` of `n` bits sign-extended to 64. -/
def sext64 (n v : Nat) : W64 := BitVec.ofNat 64 (wrap 64 (sgn n v))

/-- Integer saturated to the signed range of `n` bits. -/
def satInt (n : Nat) (i : Int) : Int :=
  let hi : Int := ((2 ^ (n - 1) : Nat) : Int) - 1
  let lo : Int := -((2 ^ (n - 1) : Nat) : Int)
  if i > hi then hi else if i < lo then lo else i

/-- Little-endian value of a byte string (R9). -/
def leNat : Bytes → Nat
  | [] => 0
  | b :: t => b.toNat + 256 * leNat t

/-- `n` bytes of a value, little-endian (R9). -/
def leBytes : Nat → Nat → Bytes
  | 0, _ => []
  | n + 1, v => BitVec.ofNat 8 v :: leBytes n (v / 256)

/-- `n` zero bytes. -/
def zeros (n : Nat) : Bytes := List.replicate n 0

/-- `n` bytes from offset `off`, zeros beyond the end. -/
def slice (b : Bytes) (off n : Nat) : Bytes :=
  let t := (b.drop off).take n
  t ++ zeros (n - t.length)

/-- Little-endian field of a byte string. -/
def fieldLE (b : Bytes) (off n : Nat) : Nat := leNat ((b.drop off).take n)

/-- A byte string with `v` written over it from offset `off` (within its length). -/
def patch (b : Bytes) (off : Nat) (v : Bytes) : Bytes :=
  b.take off ++ v.take (b.length - off) ++ b.drop (off + v.length)

/-- Whether every byte is zero. -/
def allZero (b : Bytes) : Bool := b.all (fun x => x == 0)

/-- Consecutive chunks of `n` items; the last may be shorter. Fuel is the length. -/
def chunksAux {α : Type} : Nat → Nat → List α → List (List α)
  | 0, _, _ => []
  | fuel + 1, n, l =>
    match l with
    | [] => []
    | _ => l.take n :: chunksAux fuel n (l.drop n)

/-- Consecutive chunks of `n` items. -/
def chunks {α : Type} (n : Nat) (l : List α) : List (List α) := chunksAux l.length n l

/-- Numbers `a`, `a + 1`, … , `n` of them. -/
def upFrom : Nat → Nat → List Nat
  | _, 0 => []
  | a, n + 1 => a :: upFrom (a + 1) n

/-- Positions of a list beside its elements. -/
def numbered {α : Type} (l : List α) : List (Nat × α) := (upFrom 0 l.length).zip l

/-- Quotient rounded up. -/
def ceilDiv (a b : Nat) : Nat := (a + b - 1) / b

/-- Number of set bits among the low `n` of a number. -/
def popcount (n v : Nat) : Nat := ((upFrom 0 n).filter (fun i => v.testBit i)).length

/-- Positions of set bits below `n`, rising. -/
def setBits (n v : Nat) : List Nat := (upFrom 0 n).filter (fun i => v.testBit i)

/-! ### Fields of an instruction word in the R-type layout (R35) -/

/-- Field [6:0]. -/
def wOpcode (w : W32) : Nat := bits w.toNat 6 0
/-- Field [11:7]. -/
def wRd (w : W32) : Nat := bits w.toNat 11 7
/-- Field [14:12]. -/
def wF3 (w : W32) : Nat := bits w.toNat 14 12
/-- Field [19:15]. -/
def wRs1 (w : W32) : Nat := bits w.toNat 19 15
/-- Field [24:20]. -/
def wRs2 (w : W32) : Nat := bits w.toNat 24 20
/-- Field [31:25]. -/
def wF7 (w : W32) : Nat := bits w.toNat 31 25

/-! ### Lanes of vector registers -/

/-- Lane `i` of `n`-bit lanes. -/
def lane (n : Nat) (v : V512) (i : Nat) : Nat := bits v.toNat (n * i + n - 1) (n * i)

/-- A register built from lanes of `n` bits, lane 0 first. -/
def ofLanes (n : Nat) (l : List Nat) : V512 :=
  BitVec.ofNat 512 (l.foldr (fun x acc => x % 2 ^ n + acc * 2 ^ n) 0)

/-- All lanes of `n` bits. -/
def lanesOf (n : Nat) (v : V512) : List Nat := (upFrom 0 (512 / n)).map (lane n v)

/-- Byte `i` of a register. -/
def vbyte (v : V512) (i : Nat) : Nat := lane 8 v i

/-- A register with `n` bits from bit `lo` replaced by `x`. -/
def vSetBits (v : V512) (lo n x : Nat) : V512 :=
  let old := v.toNat
  let clearMask := old - bits old (lo + n - 1) lo <<< lo
  BitVec.ofNat 512 (clearMask + (x % 2 ^ n) <<< lo)

/-- Row `i` of the group of four registers from `vs1`: 16 bytes as a number (R67). -/
def rowOf (reg : Nat → V512) (vs1 i : Nat) : Nat := lane 128 (reg (vs1 + i / 4)) (i % 4)

end Sys2Proof.Machine
end

