-- ==== Sys2Proof/Machine/Catalogue.lean ====
section
/-! DEFINITION. Catalogue: the entries of the object dictionary, one row per entry as the object tables of the
chapters list them (R12, R61, R83, R108, R138, R346, R405, R406 and the other object rules). -/
namespace Sys2Proof.Machine

/-- Values an entry accepts (R392 RANGE); rules that join several entries stand beside the write. -/
inductive Rng where
  | any
  | range (lo hi : Nat)
  | step (lo hi s : Nat)
  | oneOf (l : List Nat)
deriving DecidableEq, Repr

/-- One entry, or one entry of each of `n` like objects from `base`; type, access and persistence codes of R397 and
R406; `exact` is the only length a string value may have, when there is one. -/
structure CatRow where
  base : Nat
  n : Nat
  lo : Nat
  hi : Nat
  ty : Nat
  acc : Nat
  per : Nat
  dflt : DVal
  exact : Option Nat
  maxLen : Nat
  large : Bool
  rng : Rng
deriving DecidableEq, Repr

/-- Default DSCP map (R329): bytes 3, 5, 7 and 9 are 0x21. -/
def dscpDefault : Bytes := [0, 0, 0, 0x21, 0, 0x21, 0, 0x21, 0, 0x21, 0, 0, 0, 0, 0, 0]

/-- Default role object identifier (R438). -/
def roleOidDefault : Bytes := "2.25.187728128205175390556766126879570905061".toList.map (fun c => BitVec.ofNat 8 c.toNat)

/-- Entries of area 0x1000 (Table 0-3), part 1. -/
def catArea1a : List CatRow := [
  ⟨0x1001, 1, 0, 0, 1, 4, 0, .num 2, none, 1, false, .any⟩, -- count
  ⟨0x1001, 1, 1, 1, 1, 4, 2, .num 65, none, 1, false, .any⟩, -- grade
  ⟨0x1001, 1, 2, 2, 8, 4, 0, .blob [0x42, 0x30], none, 2, false, .any⟩, -- stepping
  ⟨0x1002, 1, 0, 0, 1, 4, 0, .num 9, none, 1, false, .any⟩, -- count
  ⟨0x1002, 1, 1, 1, 1, 4, 2, .num 32, none, 1, false, .any⟩, -- clusters
  ⟨0x1002, 1, 2, 2, 2, 4, 2, .num 512, none, 2, false, .any⟩, -- cores
  ⟨0x1002, 1, 3, 3, 2, 4, 2, .num 8192, none, 2, false, .any⟩, -- threads
  ⟨0x1002, 1, 4, 4, 2, 0, 1, .num 1024, none, 2, false, .any⟩, -- stack_gib
  ⟨0x1002, 1, 5, 5, 2, 0, 1, .num 16384, none, 2, false, .any⟩, -- banks
  ⟨0x1002, 1, 6, 6, 2, 0, 1, .num 0, none, 2, false, .any⟩, -- flash_luns
  ⟨0x1002, 1, 7, 7, 3, 0, 1, .num 0, none, 4, false, .any⟩, -- flash_raw_gib
  ⟨0x1002, 1, 8, 8, 1, 0, 1, .num 0, none, 1, false, .any⟩, -- fabric_links
  ⟨0x1002, 1, 9, 9, 3, 0, 1, .num 0, none, 4, false, .any⟩, -- t1_node_mib
  ⟨0x1003, 1, 0, 0, 1, 4, 0, .num 1, none, 1, false, .any⟩, -- count
  ⟨0x1003, 1, 1, 1, 9, 0, 0, .blob [], none, 67108864, true, .any⟩, -- catalogue
  ⟨0x1004, 1, 0, 0, 1, 4, 0, .num 7, none, 1, false, .any⟩, -- count
  ⟨0x1004, 1, 1, 1, 1, 4, 0, .num 3, none, 1, false, .any⟩, -- mgmt_versions
  ⟨0x1004, 1, 2, 2, 1, 4, 0, .num 7, none, 1, false, .any⟩, -- hxt_versions
  ⟨0x1004, 1, 3, 3, 1, 4, 0, .num 7, none, 1, false, .any⟩, -- fabric_generations
  ⟨0x1004, 1, 4, 4, 2, 4, 0, .num 1, none, 2, false, .any⟩, -- map_format
  ⟨0x1004, 1, 5, 5, 2, 4, 0, .num 1, none, 2, false, .any⟩, -- image_format
  ⟨0x1004, 1, 6, 6, 8, 0, 1, .blob [], none, 32, false, .any⟩, -- runtime_version
  ⟨0x1004, 1, 7, 7, 8, 0, 1, .blob [], none, 32, false, .any⟩, -- controller_version
  ⟨0x1010, 1, 0, 0, 1, 4, 0, .num 13, none, 1, false, .any⟩, -- count
  ⟨0x1010, 1, 1, 1, 1, 0, 1, .num 0, none, 1, false, .any⟩, -- chain_address
  ⟨0x1010, 1, 2, 2, 1, 0, 1, .num 0, none, 1, false, .any⟩, -- protocol_version
  ⟨0x1010, 1, 3, 3, 1, 1, 2, .num 2, none, 1, false, .oneOf [2, 4, 5, 8]⟩, -- data_rate_mbps
  ⟨0x1010, 1, 4, 4, 3, 1, 2, .num 16000, none, 4, false, .range 1600 16777216⟩, -- session_idle_ticks
  ⟨0x1010, 1, 5, 5, 0, 1, 2, .num 1, none, 1, false, .any⟩, -- alerts_enable
  ⟨0x1010, 1, 6, 6, 4, 0, 1, .num 0, none, 8, false, .any⟩, -- frames_rx
  ⟨0x1010, 1, 7, 7, 4, 0, 1, .num 0, none, 8, false, .any⟩, -- frames_tx
  ⟨0x1010, 1, 8, 8, 4, 0, 1, .num 0, none, 8, false, .any⟩, -- frames_ignored
  ⟨0x1010, 1, 9, 9, 3, 0, 3, .num 0, none, 4, false, .any⟩, -- bus_offs
  ⟨0x1010, 1, 10, 10, 3, 0, 1, .num 0, none, 4, false, .any⟩, -- enum_aborts
  ⟨0x1010, 1, 11, 11, 4, 0, 1, .num 0, none, 8, false, .any⟩, -- refused
  ⟨0x1010, 1, 12, 12, 3, 0, 1, .num 0, none, 4, false, .any⟩, -- alerts_lost
  ⟨0x1010, 1, 13, 13, 0, 2, 1, .num 0, none, 1, false, .any⟩, -- restore_defaults
  ⟨0x1020, 8, 0, 0, 1, 4, 0, .num 8, none, 1, false, .any⟩, -- count
  ⟨0x1020, 8, 1, 1, 3, 1, 1, .num 0, none, 4, false, .any⟩, -- target
  ⟨0x1020, 8, 2, 2, 1, 1, 1, .num 0, none, 1, false, .range 0 1⟩] -- direction

/-- Entries of area 0x1000 (Table 0-3), part 2. -/
def catArea1b : List CatRow := [
  ⟨0x1020, 8, 3, 3, 3, 1, 1, .num 0, none, 4, false, .range 1 67108864⟩, -- length
  ⟨0x1020, 8, 4, 4, 3, 1, 1, .num 0, none, 4, false, .any⟩, -- offset
  ⟨0x1020, 8, 5, 5, 9, 1, 1, .blob [], none, 4096, false, .any⟩, -- chunk
  ⟨0x1020, 8, 6, 6, 0, 2, 1, .num 0, none, 1, false, .any⟩, -- commit
  ⟨0x1020, 8, 7, 7, 1, 0, 1, .num 0, none, 1, false, .any⟩, -- state
  ⟨0x1020, 8, 8, 8, 1, 0, 1, .num 0, none, 1, false, .any⟩] -- result

/-- Entries of area 0x2000 (Table 0-3), part 1. -/
def catArea2a : List CatRow := [
  ⟨0x2010, 1, 0, 0, 1, 4, 0, .num 15, none, 1, false, .any⟩, -- count
  ⟨0x2010, 1, 1, 1, 3, 0, 2, .num 0, none, 4, false, .any⟩, -- epoch
  ⟨0x2010, 1, 2, 2, 1, 0, 1, .num 255, none, 1, false, .any⟩, -- role
  ⟨0x2010, 1, 3, 3, 2, 0, 1, .num 65535, none, 2, false, .any⟩, -- postcode
  ⟨0x2010, 1, 4, 4, 9, 0, 1, .blob (zeros 48), some 48, 48, false, .any⟩, -- map_digest
  ⟨0x2010, 1, 5, 5, 0, 0, 1, .num 0, none, 1, false, .any⟩, -- fallback
  ⟨0x2010, 1, 6, 6, 3, 0, 2, .num 0, none, 4, false, .any⟩, -- staged_epoch
  ⟨0x2010, 1, 7, 7, 9, 2, 2, .blob [], none, 67108864, true, .any⟩, -- staged_map
  ⟨0x2010, 1, 8, 8, 1, 0, 1, .num 0, none, 1, false, .any⟩, -- staging_result
  ⟨0x2010, 1, 9, 9, 0, 3, 1, .num 0, none, 1, false, .any⟩, -- map_refused
  ⟨0x2010, 1, 10, 10, 0, 3, 3, .num 0, none, 1, false, .any⟩, -- disagreement
  ⟨0x2010, 1, 11, 11, 4, 0, 1, .num 0, none, 8, false, .any⟩, -- stale_envelopes
  ⟨0x2010, 1, 12, 12, 4, 0, 1, .num 0, none, 8, false, .any⟩, -- not_owner
  ⟨0x2010, 1, 13, 13, 4, 0, 1, .num 0, none, 8, false, .any⟩, -- forwards
  ⟨0x2010, 1, 14, 14, 4, 0, 1, .num 0, none, 8, false, .any⟩, -- fallback_placements
  ⟨0x2010, 1, 15, 15, 4, 0, 1, .num 0, none, 8, false, .any⟩] -- capacity_refusals

/-- Entries of area 0x3000 (Table 0-3), part 1. -/
def catArea3a : List CatRow := [
  ⟨0x3010, 1, 0, 0, 1, 4, 0, .num 5, none, 1, false, .any⟩, -- count
  ⟨0x3010, 1, 1, 1, 1, 0, 1, .num 0, none, 1, false, .any⟩, -- tenants_enabled
  ⟨0x3010, 1, 2, 2, 3, 1, 2, .num 4096, none, 4, false, .range 64 65536⟩, -- admit_per_round
  ⟨0x3010, 1, 3, 3, 3, 0, 1, .num 0, none, 4, false, .any⟩, -- inbox_packets
  ⟨0x3010, 1, 4, 4, 2, 1, 2, .num 1, none, 2, false, .range 1 4096⟩, -- sample_frames
  ⟨0x3010, 1, 5, 5, 4, 0, 1, .num 0, none, 8, false, .any⟩, -- admitted
  ⟨0x3100, 64, 0, 0, 1, 4, 0, .num 15, none, 1, false, .any⟩, -- count
  ⟨0x3100, 64, 1, 1, 0, 1, 2, .num 0, none, 1, false, .any⟩, -- enabled
  ⟨0x3100, 64, 2, 2, 4, 2, 1, .num 0, none, 8, false, .any⟩, -- reset
  ⟨0x3100, 64, 3, 3, 1, 0, 1, .num 0, none, 1, false, .any⟩, -- state
  ⟨0x3100, 64, 4, 4, 2, 1, 2, .num 64, none, 2, false, .range 1 4096⟩, -- sessions_max
  ⟨0x3100, 64, 5, 5, 3, 1, 2, .num 0, none, 4, false, .any⟩, -- t1_quota_gib
  ⟨0x3100, 64, 6, 6, 4, 0, 1, .num 0, none, 8, false, .any⟩, -- t1_used_mib
  ⟨0x3100, 64, 7, 7, 3, 1, 2, .num 0, none, 4, false, .any⟩, -- flash_quota_units
  ⟨0x3100, 64, 8, 8, 4, 0, 1, .num 0, none, 8, false, .any⟩, -- flash_used
  ⟨0x3100, 64, 9, 9, 1, 1, 2, .num 0, none, 1, false, .range 0 64⟩, -- corpora_max
  ⟨0x3100, 64, 10, 10, 1, 1, 2, .num 0, none, 1, false, .range 0 64⟩, -- tables_max
  ⟨0x3100, 64, 11, 11, 2, 1, 2, .num 0, none, 2, false, .range 0 1024⟩, -- ctx_sessions_max
  ⟨0x3100, 64, 12, 12, 2, 1, 2, .num 0, none, 2, false, .any⟩, -- notify_mask
  ⟨0x3100, 64, 13, 13, 1, 1, 2, .num 0, none, 1, false, .range 0 15⟩, -- note_queue
  ⟨0x3100, 64, 14, 14, 4, 0, 1, .num 0, none, 8, false, .any⟩, -- resets
  ⟨0x3100, 64, 15, 15, 4, 0, 1, .num 0, none, 8, false, .any⟩, -- envelopes_reset
  ⟨0x3200, 64, 0, 0, 1, 4, 0, .num 11, none, 1, false, .any⟩, -- count
  ⟨0x3200, 64, 1, 1, 1, 1, 2, .num 0, none, 1, false, .range 0 3⟩, -- mode
  ⟨0x3200, 64, 2, 2, 3, 1, 2, .num 1000000, none, 4, false, .range 100 1000000000⟩, -- cir_pps
  ⟨0x3200, 64, 3, 3, 3, 1, 2, .num 1024, none, 4, false, .range 1 1048576⟩, -- cbs
  ⟨0x3200, 64, 4, 4, 3, 1, 2, .num 2000000, none, 4, false, .range 100 1000000000⟩, -- pir_pps
  ⟨0x3200, 64, 5, 5, 3, 1, 2, .num 2048, none, 4, false, .range 1 1048576⟩, -- pbs
  ⟨0x3200, 64, 6, 6, 1, 1, 2, .num 1, none, 1, false, .range 0 1⟩, -- reset_fill
  ⟨0x3200, 64, 7, 7, 9, 1, 2, .blob dscpDefault, some 16, 16, false, .any⟩, -- dscp_map
  ⟨0x3200, 64, 8, 8, 4, 0, 1, .num 0, none, 8, false, .any⟩, -- green
  ⟨0x3200, 64, 9, 9, 4, 0, 1, .num 0, none, 8, false, .any⟩, -- yellow
  ⟨0x3200, 64, 10, 10, 4, 0, 1, .num 0, none, 8, false, .any⟩, -- red_drops
  ⟨0x3200, 64, 11, 11, 4, 0, 1, .num 0, none, 8, false, .any⟩, -- yellow_drops
  ⟨0x3300, 8, 0, 0, 1, 4, 0, .num 5, none, 1, false, .any⟩, -- count
  ⟨0x3300, 8, 1, 1, 9, 1, 2, .blob [], none, 520, false, .any⟩, -- pending_list
  ⟨0x3300, 8, 2, 2, 4, 1, 1, .num 0, none, 8, false, .any⟩, -- commit_frame
  ⟨0x3300, 8, 3, 3, 9, 0, 1, .blob [], none, 520, false, .any⟩, -- operational_list
  ⟨0x3300, 8, 4, 4, 4, 0, 1, .num 0, none, 8, false, .any⟩, -- operational_frame
  ⟨0x3300, 8, 5, 5, 4, 0, 1, .num 0, none, 8, false, .any⟩] -- fit_waits

/-- Entries of area 0x3000 (Table 0-3), part 2. -/
def catArea3b : List CatRow := [
  ⟨0x3400, 64, 0, 0, 1, 4, 0, .num 128, none, 1, false, .any⟩, -- count
  ⟨0x3400, 64, 1, 128, 9, 1, 2, .blob (zeros 32), some 32, 32, false, .any⟩, -- segment
  ⟨0x3500, 64, 0, 0, 1, 4, 0, .num 2, none, 1, false, .any⟩, -- count
  ⟨0x3500, 64, 1, 1, 3, 1, 2, .num 0, none, 4, false, .any⟩, -- kernel_budget_cap
  ⟨0x3500, 64, 2, 2, 3, 1, 2, .num 0, none, 4, false, .any⟩, -- kernel_rounds_cap
  ⟨0x3800, 1024, 0, 0, 1, 4, 0, .num 19, none, 1, false, .any⟩, -- count
  ⟨0x3800, 1024, 1, 1, 3, 1, 2, .num 1024, none, 4, false, .range 1 65536⟩, -- limit
  ⟨0x3800, 1024, 2, 2, 3, 1, 2, .num 768, none, 4, false, .any⟩, -- yellow_limit
  ⟨0x3800, 1024, 3, 3, 1, 1, 2, .num 0, none, 1, false, .range 0 7⟩, -- priority
  ⟨0x3800, 1024, 4, 4, 1, 1, 2, .num 0, none, 1, false, .range 0 7⟩, -- class
  ⟨0x3800, 1024, 5, 5, 0, 1, 2, .num 0, none, 1, false, .any⟩, -- shaper
  ⟨0x3800, 1024, 6, 6, 3, 1, 2, .num 65536, none, 4, false, .range 1 1048576⟩, -- idle_rate
  ⟨0x3800, 1024, 7, 7, 5, 1, 2, .num 131072, none, 4, false, .range 65536 2147483647⟩, -- credit_hi
  ⟨0x3800, 1024, 8, 8, 3, 0, 0, .num 0, none, 4, false, .any⟩, -- —
  ⟨0x3800, 1024, 9, 9, 1, 1, 2, .num 0, none, 1, false, .range 0 1⟩, -- reset_fill
  ⟨0x3800, 1024, 10, 10, 9, 0, 1, .blob (zeros 32), some 32, 32, false, .any⟩, -- credits
  ⟨0x3800, 1024, 11, 11, 3, 0, 1, .num 0, none, 4, false, .any⟩, -- depth
  ⟨0x3800, 1024, 12, 12, 9, 0, 1, .blob (zeros 64), some 64, 64, false, .any⟩, -- inbox_depth_hist
  ⟨0x3800, 1024, 13, 13, 9, 0, 1, .blob (zeros 64), some 64, 64, false, .any⟩, -- inbox_delay_hist
  ⟨0x3800, 1024, 14, 14, 9, 0, 1, .blob (zeros 64), some 64, 64, false, .any⟩, -- outbox_depth_hist
  ⟨0x3800, 1024, 15, 15, 9, 0, 1, .blob (zeros 64), some 64, 64, false, .any⟩, -- outbox_delay_hist
  ⟨0x3800, 1024, 16, 16, 0, 2, 1, .num 0, none, 1, false, .any⟩, -- hist_clear
  ⟨0x3800, 1024, 17, 17, 4, 0, 1, .num 0, none, 8, false, .any⟩, -- queue_full
  ⟨0x3800, 1024, 18, 18, 3, 1, 2, .num 0, none, 4, false, .any⟩, -- notify_depth
  ⟨0x3800, 1024, 19, 19, 3, 1, 2, .num 0, none, 4, false, .any⟩] -- notify_delay

/-- Entries of area 0x4000 (Table 0-3), part 1. -/
def catArea4a : List CatRow := [
  ⟨0x4010, 1, 0, 0, 1, 4, 0, .num 9, none, 1, false, .any⟩, -- count
  ⟨0x4010, 1, 1, 1, 1, 1, 2, .num 4, none, 1, false, .any⟩, -- warm_floor
  ⟨0x4010, 1, 2, 2, 2, 1, 2, .num 4, none, 2, false, .range 1 4096⟩, -- gate_frames
  ⟨0x4010, 1, 3, 3, 2, 1, 2, .num 64, none, 2, false, .range 16 65535⟩, -- die_stop_frames
  ⟨0x4010, 1, 4, 4, 3, 1, 2, .num 100, none, 4, false, .range 10 1000000⟩, -- self_refresh_us
  ⟨0x4010, 1, 5, 5, 0, 1, 2, .num 1, none, 1, false, .any⟩, -- early_wake
  ⟨0x4010, 1, 6, 6, 2, 1, 2, .num 160, none, 2, false, .range 16 65535⟩, -- mc_idle_aon
  ⟨0x4010, 1, 7, 7, 9, 0, 1, .blob (zeros 32), some 32, 32, false, .any⟩, -- cluster_states
  ⟨0x4010, 1, 8, 8, 4, 0, 1, .num 0, none, 8, false, .any⟩, -- wakes
  ⟨0x4010, 1, 9, 9, 4, 0, 1, .num 0, none, 8, false, .any⟩, -- die_stops
  ⟨0x4020, 1, 0, 0, 1, 4, 0, .num 9, none, 1, false, .any⟩, -- count
  ⟨0x4020, 1, 1, 1, 2, 1, 2, .num 1100, none, 2, false, .step 600 1100 10⟩, -- cap_w
  ⟨0x4020, 1, 2, 2, 2, 0, 1, .num 0, none, 2, false, .any⟩, -- draw_w
  ⟨0x4020, 1, 3, 3, 2, 1, 2, .num 20, none, 2, false, .range 10 200⟩, -- release_margin_w
  ⟨0x4020, 1, 4, 4, 1, 0, 1, .num 0, none, 1, false, .any⟩, -- step
  ⟨0x4020, 1, 5, 5, 1, 1, 2, .num 100, none, 1, false, .range 80 104⟩, -- die_throttle_c
  ⟨0x4020, 1, 6, 6, 1, 1, 2, .num 90, none, 1, false, .range 70 94⟩, -- stack_throttle_c
  ⟨0x4020, 1, 7, 7, 4, 0, 3, .num 0, none, 8, false, .any⟩, -- throttle_ticks
  ⟨0x4020, 1, 8, 8, 0, 3, 1, .num 0, none, 1, false, .any⟩, -- cap_unmet
  ⟨0x4020, 1, 9, 9, 4, 0, 3, .num 0, none, 8, false, .any⟩, -- fast_limits
  ⟨0x4030, 1, 0, 0, 1, 4, 0, .num 6, none, 1, false, .any⟩, -- count
  ⟨0x4030, 1, 1, 1, 9, 0, 1, .blob (zeros 38), some 38, 38, false, .any⟩, -- die_temps
  ⟨0x4030, 1, 2, 2, 9, 0, 1, .blob (zeros 26), some 26, 26, false, .any⟩, -- rail_voltages
  ⟨0x4030, 1, 3, 3, 3, 0, 3, .num 0, none, 4, false, .any⟩, -- rail_faults
  ⟨0x4030, 1, 4, 4, 3, 0, 3, .num 0, none, 4, false, .any⟩, -- thermal_halts
  ⟨0x4030, 1, 5, 5, 3, 0, 3, .num 0, none, 4, false, .any⟩, -- thermtrips
  ⟨0x4030, 1, 6, 6, 3, 0, 1, .num 0, none, 4, false, .any⟩, -- boot_rail_waits
  ⟨0x4040, 1, 0, 0, 1, 4, 0, .num 5, none, 1, false, .any⟩, -- count
  ⟨0x4040, 1, 1, 1, 1, 0, 1, .num 0, none, 1, false, .any⟩, -- ref_state
  ⟨0x4040, 1, 2, 2, 2, 0, 1, .num 0, none, 2, false, .any⟩, -- core_mhz
  ⟨0x4040, 1, 3, 3, 0, 0, 1, .num 0, none, 1, false, .any⟩, -- syntonised
  ⟨0x4040, 1, 4, 4, 1, 0, 1, .num 0, none, 1, false, .any⟩, -- aon_source
  ⟨0x4040, 1, 5, 5, 3, 0, 3, .num 0, none, 4, false, .any⟩, -- ref_losses
  ⟨0x4050, 1, 0, 0, 1, 4, 0, .num 9, none, 1, false, .any⟩, -- count
  ⟨0x4050, 1, 1, 1, 1, 0, 1, .num 0, none, 1, false, .any⟩, -- reset_cause
  ⟨0x4050, 1, 2, 2, 0, 2, 1, .num 0, none, 1, false, .any⟩, -- warm_request
  ⟨0x4050, 1, 3, 3, 4, 0, 3, .num 0, none, 8, false, .any⟩, -- warm_resets
  ⟨0x4050, 1, 4, 4, 3, 3, 1, .num 0, none, 4, false, .any⟩, -- warm_ignored
  ⟨0x4050, 1, 5, 5, 3, 3, 1, .num 0, none, 4, false, .any⟩, -- reset_glitches
  ⟨0x4050, 1, 6, 6, 3, 3, 3, .num 0, none, 4, false, .any⟩] -- pwrfail_glitches

/-- Entries of area 0x4000 (Table 0-3), part 2. -/
def catArea4b : List CatRow := [
  ⟨0x4050, 1, 7, 7, 3, 0, 1, .num 0, none, 4, false, .any⟩, -- port_holds
  ⟨0x4050, 1, 8, 8, 4, 0, 3, .num 0, none, 8, false, .any⟩, -- cold_boots
  ⟨0x4050, 1, 9, 9, 3, 0, 1, .num 0, none, 4, false, .any⟩] -- bringup_ms

/-- Entries of area 0x5000 (Table 0-3), part 1. -/
def catArea5a : List CatRow := [
  ⟨0x5010, 1, 0, 0, 1, 4, 0, .num 8, none, 1, false, .any⟩, -- count
  ⟨0x5010, 1, 1, 1, 1, 0, 1, .num 0, none, 1, false, .any⟩, -- depth
  ⟨0x5010, 1, 2, 2, 9, 0, 1, .blob (zeros 64), some 64, 64, false, .any⟩, -- head
  ⟨0x5010, 1, 3, 3, 3, 2, 1, .num 0, none, 4, false, .any⟩, -- remove
  ⟨0x5010, 1, 4, 4, 9, 0, 1, .blob (zeros 4096), some 4096, 4096, false, .any⟩, -- snapshot
  ⟨0x5010, 1, 5, 5, 2, 1, 2, .num 16, none, 2, false, .range 1 1600⟩, -- repeat_window_ticks
  ⟨0x5010, 1, 6, 6, 4, 0, 3, .num 0, none, 8, false, .any⟩, -- records_total
  ⟨0x5010, 1, 7, 7, 3, 0, 1, .num 1, none, 4, false, .any⟩, -- next_sequence
  ⟨0x5010, 1, 8, 8, 0, 1, 2, .num 1, none, 1, false, .any⟩, -- auto_remove
  ⟨0x5020, 1, 0, 0, 1, 4, 0, .num 10, none, 1, false, .any⟩, -- count
  ⟨0x5020, 1, 1, 1, 0, 3, 1, .num 0, none, 1, false, .any⟩, -- overflow
  ⟨0x5020, 1, 2, 2, 3, 3, 1, .num 0, none, 4, false, .any⟩, -- overflow_lost
  ⟨0x5020, 1, 3, 3, 0, 3, 1, .num 0, none, 1, false, .any⟩, -- uncorrectable
  ⟨0x5020, 1, 4, 4, 0, 3, 1, .num 0, none, 1, false, .any⟩, -- complement
  ⟨0x5020, 1, 5, 5, 0, 3, 1, .num 0, none, 1, false, .any⟩, -- degraded
  ⟨0x5020, 1, 6, 6, 0, 3, 3, .num 0, none, 1, false, .any⟩, -- fatal
  ⟨0x5020, 1, 7, 7, 0, 3, 3, .num 0, none, 1, false, .any⟩, -- escalated
  ⟨0x5020, 1, 8, 8, 0, 3, 1, .num 0, none, 1, false, .any⟩, -- mc_watchdog
  ⟨0x5020, 1, 9, 9, 3, 0, 3, .num 0, none, 4, false, .any⟩, -- mc_watchdog_resets
  ⟨0x5020, 1, 10, 10, 3, 0, 1, .num 0, none, 4, false, .any⟩, -- summary
  ⟨0x5030, 1, 0, 0, 1, 4, 0, .num 7, none, 1, false, .any⟩, -- count
  ⟨0x5030, 1, 1, 1, 2, 1, 2, .num 24, none, 2, false, .range 1 168⟩, -- scrub_hours
  ⟨0x5030, 1, 2, 2, 4, 0, 3, .num 0, none, 8, false, .any⟩, -- corrected_words
  ⟨0x5030, 1, 3, 3, 4, 0, 3, .num 0, none, 8, false, .any⟩, -- uncorrectable_words
  ⟨0x5030, 1, 4, 4, 4, 0, 1, .num 0, none, 8, false, .any⟩, -- scrub_rewrites
  ⟨0x5030, 1, 5, 5, 4, 0, 1, .num 0, none, 8, false, .any⟩, -- writeback_dropped
  ⟨0x5030, 1, 6, 6, 4, 0, 3, .num 0, none, 8, false, .any⟩, -- complement_mismatches
  ⟨0x5030, 1, 7, 7, 2, 0, 1, .num 0, none, 2, false, .any⟩] -- cores_out

/-- Entries of area 0x6000 (Table 0-3), part 1. -/
def catArea6a : List CatRow := [
  ⟨0x6010, 1, 0, 0, 1, 4, 0, .num 22, none, 1, false, .any⟩, -- count
  ⟨0x6010, 1, 1, 1, 1, 1, 2, .num 4, none, 1, false, .range 1 10⟩, -- slc_percent
  ⟨0x6010, 1, 2, 2, 1, 1, 2, .num 50, none, 1, false, .range 10 90⟩, -- fold_start_percent
  ⟨0x6010, 1, 3, 3, 1, 1, 2, .num 5, none, 1, false, .range 2 20⟩, -- gc_start_percent
  ⟨0x6010, 1, 4, 4, 1, 1, 2, .num 2, none, 1, false, .range 1 20⟩, -- gc_urgent_percent
  ⟨0x6010, 1, 5, 5, 1, 1, 2, .num 4, none, 1, false, .range 2 64⟩, -- split_writes
  ⟨0x6010, 1, 6, 6, 3, 1, 2, .num 1024, none, 4, false, .range 16 1048576⟩, -- merge_age
  ⟨0x6010, 1, 7, 7, 3, 1, 2, .num 1600, none, 4, false, .range 16 1048576⟩, -- heat_window_ticks
  ⟨0x6010, 1, 8, 8, 2, 1, 2, .num 200, none, 2, false, .range 50 5000⟩, -- wear_gap
  ⟨0x6010, 1, 9, 9, 3, 1, 2, .num 200000, none, 4, false, .range 10000 10000000⟩, -- read_disturb_limit
  ⟨0x6010, 1, 10, 10, 2, 1, 2, .num 4, none, 2, false, .range 1 64⟩, -- checkpoint_gib
  ⟨0x6010, 1, 11, 11, 2, 0, 1, .num 0, none, 2, false, .any⟩, -- journal_pending_mib
  ⟨0x6010, 1, 12, 12, 0, 3, 3, .num 0, none, 1, false, .any⟩, -- flush_incomplete
  ⟨0x6010, 1, 13, 13, 3, 0, 1, .num 0, none, 4, false, .any⟩, -- media_sequence
  ⟨0x6010, 1, 14, 14, 3, 0, 1, .num 0, none, 4, false, .any⟩, -- superblocks
  ⟨0x6010, 1, 15, 15, 3, 1, 2, .num 16, none, 4, false, .range 1 1024⟩, -- scrub_ticks
  ⟨0x6010, 1, 16, 16, 3, 1, 2, .num 33554432, none, 4, false, .range 65536 33554432⟩, -- overlay_groups
  ⟨0x6010, 1, 17, 17, 4, 0, 1, .num 0, none, 8, false, .any⟩, -- gc_copies
  ⟨0x6010, 1, 18, 18, 4, 0, 1, .num 0, none, 8, false, .any⟩, -- fold_copies
  ⟨0x6010, 1, 19, 19, 4, 0, 1, .num 0, none, 8, false, .any⟩, -- splits_merges
  ⟨0x6010, 1, 20, 20, 4, 0, 3, .num 0, none, 8, false, .any⟩, -- read_retries
  ⟨0x6010, 1, 21, 21, 4, 0, 3, .num 0, none, 8, false, .any⟩, -- lost_parcels
  ⟨0x6010, 1, 22, 22, 3, 0, 3, .num 0, none, 4, false, .any⟩, -- shred_uncleansed
  ⟨0x6020, 32, 0, 0, 1, 4, 0, .num 9, none, 1, false, .any⟩, -- count
  ⟨0x6020, 32, 1, 1, 1, 0, 1, .num 0, none, 1, false, .any⟩, -- state
  ⟨0x6020, 32, 2, 2, 1, 0, 1, .num 0, none, 1, false, .any⟩, -- interface
  ⟨0x6020, 32, 3, 3, 2, 0, 1, .num 0, none, 2, false, .any⟩, -- rate_mts
  ⟨0x6020, 32, 4, 4, 2, 1, 2, .num 3600, none, 2, false, .any⟩, -- rate_cap_mts
  ⟨0x6020, 32, 5, 5, 2, 0, 1, .num 0, none, 2, false, .any⟩, -- luns
  ⟨0x6020, 32, 6, 6, 1, 1, 2, .num 255, none, 1, false, .any⟩, -- substitute
  ⟨0x6020, 32, 7, 7, 3, 0, 1, .num 0, none, 4, false, .any⟩, -- spare_blocks
  ⟨0x6020, 32, 8, 8, 3, 0, 3, .num 0, none, 4, false, .any⟩, -- retired_blocks
  ⟨0x6020, 32, 9, 9, 3, 0, 3, .num 0, none, 4, false, .any⟩, -- erase_max
  ⟨0x6100, 256, 0, 0, 1, 4, 0, .num 5, none, 1, false, .any⟩, -- count
  ⟨0x6100, 256, 1, 1, 1, 1, 2, .num 255, none, 1, false, .any⟩, -- tenant
  ⟨0x6100, 256, 2, 2, 3, 1, 2, .num 0, none, 4, false, .step 0 4294967294 2⟩, -- base_unit
  ⟨0x6100, 256, 3, 3, 3, 1, 2, .num 0, none, 4, false, .any⟩, -- units
  ⟨0x6100, 256, 4, 4, 4, 0, 1, .num 0, none, 8, false, .any⟩, -- parcels_mapped
  ⟨0x6100, 256, 5, 5, 0, 0, 1, .num 0, none, 1, false, .any⟩] -- shred_active

/-- Entries of area 0x7000 (Table 0-3), part 1. -/
def catArea7a : List CatRow := [
  ⟨0x7010, 1, 0, 0, 1, 4, 0, .num 11, none, 1, false, .any⟩, -- count
  ⟨0x7010, 1, 1, 1, 4, 0, 1, .num 0, none, 8, false, .any⟩, -- circulars
  ⟨0x7010, 1, 2, 2, 4, 0, 1, .num 0, none, 8, false, .any⟩, -- steps
  ⟨0x7010, 1, 3, 3, 4, 0, 1, .num 0, none, 8, false, .any⟩, -- refreshes
  ⟨0x7010, 1, 4, 4, 4, 0, 1, .num 0, none, 8, false, .any⟩, -- refused_step
  ⟨0x7010, 1, 5, 5, 4, 0, 1, .num 0, none, 8, false, .any⟩, -- refused_other
  ⟨0x7010, 1, 6, 6, 4, 0, 1, .num 0, none, 8, false, .any⟩, -- footprint_hits
  ⟨0x7010, 1, 7, 7, 4, 0, 1, .num 0, none, 8, false, .any⟩, -- unsealed_reads
  ⟨0x7010, 1, 8, 8, 4, 0, 1, .num 0, none, 8, false, .any⟩, -- rail_faults
  ⟨0x7010, 1, 9, 9, 4, 0, 1, .num 0, none, 8, false, .any⟩, -- seal_failures
  ⟨0x7010, 1, 10, 10, 2, 1, 2, .num 4, none, 2, false, .range 1 1000⟩, -- rail_fault_limit
  ⟨0x7010, 1, 11, 11, 4, 0, 1, .num 0, none, 8, false, .any⟩, -- aborted
  ⟨0x7020, 16, 0, 0, 1, 4, 0, .num 5, none, 1, false, .any⟩, -- count
  ⟨0x7020, 16, 1, 1, 3, 0, 1, .num 3900, none, 4, false, .any⟩, -- refresh_interval_ns
  ⟨0x7020, 16, 2, 2, 1, 0, 1, .num 0, none, 1, false, .any⟩, -- queued
  ⟨0x7020, 16, 3, 3, 0, 0, 1, .num 0, none, 1, false, .any⟩, -- running
  ⟨0x7020, 16, 4, 4, 3, 0, 1, .num 0, none, 4, false, .any⟩, -- last_sequence
  ⟨0x7020, 16, 5, 5, 2, 0, 1, .num 0, none, 2, false, .any⟩] -- banks_out

/-- Entries of area 0x8000 (Table 0-3), part 1. -/
def catArea8a : List CatRow := [
  ⟨0x8010, 1, 0, 0, 1, 4, 0, .num 8, none, 1, false, .any⟩, -- count
  ⟨0x8010, 1, 1, 1, 1, 1, 2, .num 3, none, 1, false, .range 1 3⟩, -- generation_cap
  ⟨0x8010, 1, 2, 2, 4, 0, 1, .num 0, none, 8, false, .any⟩, -- epoch_drops
  ⟨0x8010, 1, 3, 3, 4, 0, 1, .num 0, none, 8, false, .any⟩, -- header_drops
  ⟨0x8010, 1, 4, 4, 4, 0, 1, .num 0, none, 8, false, .any⟩, -- kind_drops
  ⟨0x8010, 1, 5, 5, 4, 0, 3, .num 0, none, 8, false, .any⟩, -- replays
  ⟨0x8010, 1, 6, 6, 4, 0, 3, .num 0, none, 8, false, .any⟩, -- beyond_replay
  ⟨0x8010, 1, 7, 7, 0, 3, 1, .num 0, none, 1, false, .any⟩, -- skew_exceeded
  ⟨0x8010, 1, 8, 8, 4, 0, 1, .num 0, none, 8, false, .any⟩, -- be_messages
  ⟨0x8020, 1, 0, 0, 1, 4, 0, .num 8, none, 1, false, .any⟩, -- count
  ⟨0x8020, 1, 1, 1, 9, 0, 1, .blob (zeros 48), some 48, 48, false, .any⟩, -- image_digest
  ⟨0x8020, 1, 2, 2, 4, 0, 1, .num 0, none, 8, false, .any⟩, -- image_id
  ⟨0x8020, 1, 3, 3, 1, 0, 1, .num 0, none, 1, false, .any⟩, -- round_frames
  ⟨0x8020, 1, 4, 4, 2, 0, 1, .num 0, none, 2, false, .any⟩, -- entries
  ⟨0x8020, 1, 5, 5, 2, 0, 1, .num 0, none, 2, false, .any⟩, -- root
  ⟨0x8020, 1, 6, 6, 1, 0, 1, .num 255, none, 1, false, .any⟩, -- parent_link
  ⟨0x8020, 1, 7, 7, 2, 0, 1, .num 0, none, 2, false, .any⟩, -- detours_engaged
  ⟨0x8020, 1, 8, 8, 0, 3, 1, .num 0, none, 1, false, .any⟩, -- image_refused
  ⟨0x8100, 36, 0, 0, 1, 4, 0, .num 10, none, 1, false, .any⟩, -- count
  ⟨0x8100, 36, 1, 1, 1, 0, 1, .num 0, none, 1, false, .any⟩, -- state
  ⟨0x8100, 36, 2, 2, 1, 0, 1, .num 0, none, 1, false, .any⟩, -- generation
  ⟨0x8100, 36, 3, 3, 1, 0, 1, .num 0, none, 1, false, .any⟩, -- lanes
  ⟨0x8100, 36, 4, 4, 2, 0, 1, .num 0, none, 2, false, .any⟩, -- neighbour
  ⟨0x8100, 36, 5, 5, 2, 0, 1, .num 0, none, 2, false, .any⟩, -- flight_delay
  ⟨0x8100, 36, 6, 6, 2, 0, 3, .num 0, none, 2, false, .any⟩, -- eye_margin
  ⟨0x8100, 36, 7, 7, 4, 0, 3, .num 0, none, 8, false, .any⟩, -- corrected_words
  ⟨0x8100, 36, 8, 8, 4, 0, 3, .num 0, none, 8, false, .any⟩, -- replays
  ⟨0x8100, 36, 9, 9, 3, 0, 3, .num 0, none, 4, false, .any⟩, -- downs
  ⟨0x8100, 36, 10, 10, 1, 0, 2, .num 255, none, 1, false, .any⟩] -- lanes_plan

/-- Entries of area 0x9000 (Table 0-3), part 1. -/
def catArea9a : List CatRow := [
  ⟨0x9010, 1, 0, 0, 1, 4, 0, .num 10, none, 1, false, .any⟩, -- count
  ⟨0x9010, 1, 1, 1, 9, 0, 1, .blob (zeros 97), some 97, 97, false, .any⟩, -- identity_key
  ⟨0x9010, 1, 2, 2, 9, 0, 2, .blob [], none, 67108864, true, .any⟩, -- factory_record
  ⟨0x9010, 1, 3, 3, 9, 1, 2, .blob [], none, 2048, false, .any⟩, -- operator_root
  ⟨0x9010, 1, 4, 4, 8, 1, 2, .blob roleOidDefault, none, 64, false, .any⟩, -- role_oid
  ⟨0x9010, 1, 5, 5, 9, 0, 1, .blob (zeros 16), some 16, 16, false, .any⟩, -- ident
  ⟨0x9010, 1, 6, 6, 9, 0, 1, .blob (zeros 384), some 384, 384, false, .any⟩, -- measurements
  ⟨0x9010, 1, 7, 7, 4, 0, 1, .num 0, none, 8, false, .any⟩, -- cdi_uses
  ⟨0x9010, 1, 8, 8, 9, 2, 1, .blob (zeros 48), some 48, 48, false, .any⟩, -- nonce
  ⟨0x9010, 1, 9, 9, 9, 0, 1, .blob [], none, 4096, false, .any⟩, -- report
  ⟨0x9010, 1, 10, 10, 0, 3, 3, .num 0, none, 1, false, .any⟩, -- puf_failed
  ⟨0x9020, 1, 0, 0, 1, 4, 0, .num 10, none, 1, false, .any⟩, -- count
  ⟨0x9020, 1, 1, 1, 1, 1, 2, .num 0, none, 1, false, .range 0 1⟩, -- preferred
  ⟨0x9020, 1, 2, 2, 1, 0, 1, .num 0, none, 1, false, .any⟩, -- running
  ⟨0x9020, 1, 3, 3, 9, 2, 2, .blob [], none, 67108864, true, .any⟩, -- inactive_image
  ⟨0x9020, 1, 4, 4, 3, 1, 2, .num 0, none, 4, false, .any⟩, -- min_version
  ⟨0x9020, 1, 5, 5, 9, 0, 1, .blob (zeros 8), some 8, 8, false, .any⟩, -- versions
  ⟨0x9020, 1, 6, 6, 0, 2, 1, .num 0, none, 1, false, .any⟩, -- confirm
  ⟨0x9020, 1, 7, 7, 0, 0, 2, .num 0, none, 1, false, .any⟩, -- trial
  ⟨0x9020, 1, 8, 8, 0, 3, 3, .num 0, none, 1, false, .any⟩, -- fallback_boot
  ⟨0x9020, 1, 9, 9, 9, 2, 2, .blob [], none, 16777216, true, .any⟩, -- staged_timetable
  ⟨0x9020, 1, 10, 10, 1, 0, 1, .num 0, none, 1, false, .any⟩, -- staged_timetable_result
  ⟨0x9030, 1, 0, 0, 1, 4, 0, .num 3, none, 1, false, .any⟩, -- count
  ⟨0x9030, 1, 1, 1, 1, 1, 1, .num 0, none, 1, false, .any⟩, -- mode
  ⟨0x9030, 1, 2, 2, 3, 4, 0, .num 104947713, none, 4, false, .any⟩, -- idcode
  ⟨0x9030, 1, 3, 3, 3, 0, 3, .num 0, none, 4, false, .any⟩, -- opened
  ⟨0x9100, 64, 0, 0, 1, 4, 0, .num 3, none, 1, false, .any⟩, -- count
  ⟨0x9100, 64, 1, 1, 9, 2, 2, .blob (zeros 48), some 48, 48, false, .any⟩, -- psk
  ⟨0x9100, 64, 2, 2, 1, 0, 1, .num 0, none, 1, false, .any⟩, -- state
  ⟨0x9100, 64, 3, 3, 3, 0, 2, .num 0, none, 4, false, .any⟩] -- generation

/-- Entries of area 0xA000 (Table 0-3), part 1. -/
def catAreaAa : List CatRow := [
  ⟨0xA010, 1, 0, 0, 1, 4, 0, .num 8, none, 1, false, .any⟩, -- count
  ⟨0xA010, 1, 1, 1, 1, 4, 0, .num 19, none, 1, false, .any⟩, -- dies
  ⟨0xA010, 1, 2, 2, 1, 1, 1, .num 0, none, 1, false, .range 0 18⟩, -- extract_die
  ⟨0xA010, 1, 3, 3, 9, 0, 3, .blob [], none, 67108864, true, .any⟩, -- extract
  ⟨0xA010, 1, 4, 4, 9, 0, 3, .blob (zeros 4096), some 4096, 4096, false, .any⟩, -- summary
  ⟨0xA010, 1, 5, 5, 9, 0, 1, .blob [], some 2097152, 2097152, true, .any⟩, -- trace
  ⟨0xA010, 1, 6, 6, 4, 0, 1, .num 0, none, 8, false, .any⟩, -- last_append
  ⟨0xA010, 1, 7, 7, 3, 1, 2, .num 96000, none, 4, false, .range 1600 16777216⟩, -- append_ticks
  ⟨0xA010, 1, 8, 8, 3, 0, 3, .num 0, none, 4, false, .any⟩, -- mirror_writes
  ⟨0xA020, 1, 0, 0, 1, 4, 0, .num 10, none, 1, false, .any⟩, -- count
  ⟨0xA020, 1, 1, 1, 0, 2, 1, .num 0, none, 1, false, .any⟩, -- replan
  ⟨0xA020, 1, 2, 2, 4, 0, 1, .num 0, none, 8, false, .any⟩, -- last_replan
  ⟨0xA020, 1, 3, 3, 9, 0, 3, .blob (zeros 2432), some 2432, 2432, false, .any⟩, -- ageing
  ⟨0xA020, 1, 4, 4, 9, 0, 1, .blob (zeros 3), some 3, 3, false, .any⟩, -- guardband_mv
  ⟨0xA020, 1, 5, 5, 9, 0, 1, .blob (zeros 4), some 4, 4, false, .any⟩, -- frequency_bin
  ⟨0xA020, 1, 6, 6, 9, 0, 2, .blob (zeros 4), some 4, 4, false, .any⟩, -- bin_plan
  ⟨0xA020, 1, 7, 7, 9, 0, 1, .blob (zeros 16), some 16, 16, false, .any⟩, -- refresh_plan
  ⟨0xA020, 1, 8, 8, 9, 0, 3, .blob (zeros 32), some 32, 32, false, .any⟩, -- flash_offsets
  ⟨0xA020, 1, 9, 9, 1, 1, 2, .num 50, none, 1, false, .range 20 80⟩, -- guardband_max_mv
  ⟨0xA020, 1, 10, 10, 3, 1, 2, .num 138240000, none, 4, false, .range 1600000 4294967295⟩] -- replan_ticks

/-- Entries of area 0xB000 (Table 0-3), part 1. -/
def catAreaBa : List CatRow := [
  ⟨0xB010, 1, 0, 0, 1, 4, 0, .num 14, none, 1, false, .any⟩, -- count
  ⟨0xB010, 1, 1, 1, 2, 1, 2, .num 18400, none, 2, false, .range 1024 65535⟩, -- udp_port
  ⟨0xB010, 1, 2, 2, 1, 1, 2, .num 7, none, 1, false, .range 1 7⟩, -- versions_enabled
  ⟨0xB010, 1, 3, 3, 3, 1, 2, .num 96000, none, 4, false, .range 16 16777216⟩, -- idle_ticks
  ⟨0xB010, 1, 4, 4, 2, 1, 2, .num 400, none, 2, false, .range 50 10000⟩, -- reassembly_us
  ⟨0xB010, 1, 5, 5, 2, 1, 2, .num 16, none, 2, false, .range 1 1024⟩, -- note_resend_ticks
  ⟨0xB010, 1, 6, 6, 2, 0, 1, .num 0, none, 2, false, .any⟩, -- sessions_open
  ⟨0xB010, 1, 7, 7, 4, 0, 1, .num 0, none, 8, false, .any⟩, -- packets_dropped
  ⟨0xB010, 1, 8, 8, 4, 0, 1, .num 0, none, 8, false, .any⟩, -- reassembly_expired
  ⟨0xB010, 1, 9, 9, 4, 0, 1, .num 0, none, 8, false, .any⟩, -- auth_failures
  ⟨0xB010, 1, 10, 10, 4, 0, 1, .num 0, none, 8, false, .any⟩, -- duplicates_answered
  ⟨0xB010, 1, 11, 11, 4, 0, 1, .num 0, none, 8, false, .any⟩, -- stale_postmarks
  ⟨0xB010, 1, 12, 12, 4, 0, 1, .num 0, none, 8, false, .any⟩, -- notes_lost
  ⟨0xB010, 1, 13, 13, 4, 0, 1, .num 0, none, 8, false, .any⟩, -- handshake_drops
  ⟨0xB010, 1, 14, 14, 4, 0, 1, .num 0, none, 8, false, .any⟩, -- receipts_dropped
  ⟨0xB100, 8, 0, 0, 1, 4, 0, .num 12, none, 1, false, .any⟩, -- count
  ⟨0xB100, 8, 1, 1, 1, 1, 2, .num 0, none, 1, false, .range 0 5⟩, -- arrangement
  ⟨0xB100, 8, 2, 2, 1, 0, 1, .num 0, none, 1, false, .any⟩, -- state
  ⟨0xB100, 8, 3, 3, 3, 1, 2, .num 0, none, 4, false, .any⟩, -- ipv4
  ⟨0xB100, 8, 4, 4, 9, 1, 2, .blob (zeros 16), some 16, 16, false, .any⟩, -- ipv6
  ⟨0xB100, 8, 5, 5, 2, 1, 2, .num 9000, none, 2, false, .range 1280 9216⟩, -- mtu
  ⟨0xB100, 8, 6, 6, 2, 1, 2, .num 65535, none, 2, false, .any⟩, -- vlan
  ⟨0xB100, 8, 7, 7, 1, 1, 2, .num 0, none, 1, false, .range 0 2⟩, -- macsec
  ⟨0xB100, 8, 8, 8, 3, 1, 2, .num 0, none, 4, false, .any⟩, -- replay_window
  ⟨0xB100, 8, 9, 9, 1, 1, 1, .num 0, none, 1, false, .range 0 1⟩, -- tx_an
  ⟨0xB100, 8, 10, 10, 9, 2, 1, .blob (zeros 52), some 52, 52, false, .any⟩, -- sak
  ⟨0xB100, 8, 11, 11, 4, 0, 1, .num 0, none, 8, false, .any⟩, -- rx_frames
  ⟨0xB100, 8, 12, 12, 4, 0, 1, .num 0, none, 8, false, .any⟩] -- rx_dropped

/-- Entries of area 0xC000 (Table 0-3), part 1. -/
def catAreaCa : List CatRow := [
  ⟨0xC010, 1, 0, 0, 1, 4, 0, .num 6, none, 1, false, .any⟩, -- count
  ⟨0xC010, 1, 1, 1, 0, 1, 2, .num 1, none, 1, false, .any⟩, -- balance_enable
  ⟨0xC010, 1, 2, 2, 1, 1, 2, .num 4, none, 1, false, .oneOf [0, 4, 8]⟩, -- kernel_threads
  ⟨0xC010, 1, 3, 3, 0, 1, 2, .num 1, none, 1, false, .any⟩, -- prefetch_auto
  ⟨0xC010, 1, 4, 4, 1, 1, 2, .num 3, none, 1, false, .range 2 8⟩, -- prefetch_train
  ⟨0xC010, 1, 5, 5, 4, 0, 1, .num 0, none, 8, false, .any⟩, -- steals
  ⟨0xC010, 1, 6, 6, 4, 0, 1, .num 0, none, 8, false, .any⟩, -- budget_pauses
  ⟨0xC020, 1, 0, 0, 1, 4, 0, .num 5, none, 1, false, .any⟩, -- count
  ⟨0xC020, 1, 1, 1, 1, 1, 2, .num 4, none, 1, false, .range 1 16⟩, -- window_default
  ⟨0xC020, 1, 2, 2, 4, 0, 1, .num 0, none, 8, false, .any⟩, -- quant_clips
  ⟨0xC020, 1, 3, 3, 4, 0, 1, .num 0, none, 8, false, .any⟩, -- quant_nans
  ⟨0xC020, 1, 4, 4, 4, 0, 1, .num 0, none, 8, false, .any⟩, -- rescale_saturations
  ⟨0xC020, 1, 5, 5, 4, 0, 1, .num 0, none, 8, false, .any⟩, -- edot_saturated_threads
  ⟨0xC030, 1, 0, 0, 1, 4, 0, .num 5, none, 1, false, .any⟩, -- count
  ⟨0xC030, 1, 1, 1, 4, 0, 1, .num 0, none, 8, false, .any⟩, -- nan_refused
  ⟨0xC030, 1, 2, 2, 4, 0, 1, .num 0, none, 8, false, .any⟩, -- ties_truncated
  ⟨0xC030, 1, 3, 3, 4, 0, 1, .num 0, none, 8, false, .any⟩, -- sentinel_refused
  ⟨0xC030, 1, 4, 4, 4, 0, 1, .num 0, none, 8, false, .any⟩, -- merge_order_faults
  ⟨0xC030, 1, 5, 5, 4, 0, 1, .num 0, none, 8, false, .any⟩, -- compaction_overflows
  ⟨0xC040, 1, 0, 0, 1, 4, 0, .num 10, none, 1, false, .any⟩, -- count
  ⟨0xC040, 1, 1, 1, 3, 1, 2, .num 256, none, 4, false, .range 16 65536⟩, -- patch_epoch_rounds
  ⟨0xC040, 1, 2, 2, 3, 1, 2, .num 1048576, none, 4, false, .range 65536 4194304⟩, -- pending_capacity
  ⟨0xC040, 1, 3, 3, 1, 1, 2, .num 75, none, 1, false, .range 50 95⟩, -- early_patch_percent
  ⟨0xC040, 1, 4, 4, 4, 0, 1, .num 0, none, 8, false, .any⟩, -- searches
  ⟨0xC040, 1, 5, 5, 4, 0, 1, .num 0, none, 8, false, .any⟩, -- upsert_items
  ⟨0xC040, 1, 6, 6, 4, 0, 1, .num 0, none, 8, false, .any⟩, -- delete_items
  ⟨0xC040, 1, 7, 7, 4, 0, 1, .num 0, none, 8, false, .any⟩, -- region_patches
  ⟨0xC040, 1, 8, 8, 3, 0, 1, .num 0, none, 4, false, .any⟩, -- pending_peak
  ⟨0xC040, 1, 9, 9, 4, 0, 1, .num 0, none, 8, false, .any⟩, -- replica_retries
  ⟨0xC040, 1, 10, 10, 4, 0, 1, .num 0, none, 8, false, .any⟩, -- capacity_refusals
  ⟨0xC050, 1, 0, 0, 1, 4, 0, .num 10, none, 1, false, .any⟩, -- count
  ⟨0xC050, 1, 1, 1, 2, 1, 2, .num 1, none, 2, false, .range 1 16384⟩, -- sweep_min_banks
  ⟨0xC050, 1, 2, 2, 1, 1, 2, .num 1, none, 1, false, .range 0 64⟩, -- sweep_max_wait
  ⟨0xC050, 1, 3, 3, 2, 0, 1, .num 0, none, 2, false, .any⟩, -- sessions_open
  ⟨0xC050, 1, 4, 4, 4, 0, 1, .num 0, none, 8, false, .any⟩, -- appends
  ⟨0xC050, 1, 5, 5, 4, 0, 1, .num 0, none, 8, false, .any⟩, -- attends_solo
  ⟨0xC050, 1, 6, 6, 4, 0, 1, .num 0, none, 8, false, .any⟩, -- attends_sweep
  ⟨0xC050, 1, 7, 7, 4, 0, 1, .num 0, none, 8, false, .any⟩, -- attends_dense
  ⟨0xC050, 1, 8, 8, 4, 0, 1, .num 0, none, 8, false, .any⟩, -- folds
  ⟨0xC050, 1, 9, 9, 3, 0, 1, .num 0, none, 4, false, .any⟩] -- exact_spans

/-- Entries of area 0xC000 (Table 0-3), part 2. -/
def catAreaCb : List CatRow := [
  ⟨0xC050, 1, 10, 10, 4, 0, 1, .num 0, none, 8, false, .any⟩, -- broken_sessions
  ⟨0xC060, 1, 0, 0, 1, 4, 0, .num 9, none, 1, false, .any⟩, -- count
  ⟨0xC060, 1, 1, 1, 2, 1, 2, .num 32, none, 2, false, .range 0 128⟩, -- hot_store_mib
  ⟨0xC060, 1, 2, 2, 3, 1, 2, .num 4096, none, 4, false, .range 16 16777216⟩, -- hot_threshold
  ⟨0xC060, 1, 3, 3, 2, 1, 2, .num 16, none, 2, false, .range 1 1024⟩, -- hot_window_rounds
  ⟨0xC060, 1, 4, 4, 4, 0, 1, .num 0, none, 8, false, .any⟩, -- gather_batches
  ⟨0xC060, 1, 5, 5, 4, 0, 1, .num 0, none, 8, false, .any⟩, -- scatter_batches
  ⟨0xC060, 1, 6, 6, 4, 0, 1, .num 0, none, 8, false, .any⟩, -- line_adds
  ⟨0xC060, 1, 7, 7, 4, 0, 1, .num 0, none, 8, false, .any⟩, -- moves
  ⟨0xC060, 1, 8, 8, 4, 0, 1, .num 0, none, 8, false, .any⟩, -- returns
  ⟨0xC060, 1, 9, 9, 3, 0, 1, .num 0, none, 4, false, .any⟩, -- rows_forwarded
  ⟨0xC070, 1, 0, 0, 1, 4, 0, .num 9, none, 1, false, .any⟩, -- count
  ⟨0xC070, 1, 1, 1, 2, 1, 2, .num 16, none, 2, false, .range 2 256⟩, -- t2_limit_frames
  ⟨0xC070, 1, 2, 2, 2, 1, 2, .num 800, none, 2, false, .range 40 4096⟩, -- t3_limit_frames
  ⟨0xC070, 1, 3, 3, 4, 0, 1, .num 0, none, 8, false, .any⟩, -- parcels_t1
  ⟨0xC070, 1, 4, 4, 4, 0, 1, .num 0, none, 8, false, .any⟩, -- parcels_t2
  ⟨0xC070, 1, 5, 5, 4, 0, 1, .num 0, none, 8, false, .any⟩, -- parcels_t3
  ⟨0xC070, 1, 6, 6, 4, 0, 1, .num 0, none, 8, false, .any⟩, -- tier_timeouts
  ⟨0xC070, 1, 7, 7, 4, 0, 1, .num 0, none, 8, false, .any⟩, -- media_errors
  ⟨0xC070, 1, 8, 8, 4, 0, 1, .num 0, none, 8, false, .any⟩, -- late_discards
  ⟨0xC070, 1, 9, 9, 4, 0, 1, .num 0, none, 8, false, .any⟩, -- lender_refusals
  ⟨0xC080, 16, 0, 0, 1, 4, 0, .num 6, none, 1, false, .any⟩, -- count
  ⟨0xC080, 16, 1, 1, 4, 0, 1, .num 0, none, 8, false, .any⟩, -- vectors
  ⟨0xC080, 16, 2, 2, 3, 0, 1, .num 0, none, 4, false, .any⟩, -- pending
  ⟨0xC080, 16, 3, 3, 4, 0, 1, .num 0, none, 8, false, .any⟩, -- clips
  ⟨0xC080, 16, 4, 4, 4, 0, 1, .num 0, none, 8, false, .any⟩, -- last_patch_frame
  ⟨0xC080, 16, 5, 5, 0, 0, 1, .num 0, none, 1, false, .any⟩, -- reloading
  ⟨0xC080, 16, 6, 6, 3, 0, 1, .num 4294967295, none, 4, false, .any⟩, -- corpus_id
  ⟨0xC090, 1, 0, 0, 1, 4, 0, .num 10, none, 1, false, .any⟩, -- count
  ⟨0xC090, 1, 1, 1, 4, 0, 1, .num 0, none, 8, false, .any⟩, -- sent
  ⟨0xC090, 1, 2, 2, 4, 0, 1, .num 0, none, 8, false, .any⟩, -- delivered
  ⟨0xC090, 1, 3, 3, 4, 0, 1, .num 0, none, 8, false, .any⟩, -- overflow_drops
  ⟨0xC090, 1, 4, 4, 4, 0, 1, .num 0, none, 8, false, .any⟩, -- refused
  ⟨0xC090, 1, 5, 5, 4, 0, 1, .num 0, none, 8, false, .any⟩, -- undeliverable
  ⟨0xC090, 1, 6, 6, 4, 0, 1, .num 0, none, 8, false, .any⟩, -- fabric_lost
  ⟨0xC090, 1, 7, 7, 4, 0, 1, .num 0, none, 8, false, .any⟩, -- reset_discards
  ⟨0xC090, 1, 8, 8, 3, 3, 1, .num 0, none, 4, false, .any⟩, -- mc_overflow
  ⟨0xC090, 1, 9, 9, 3, 3, 1, .num 0, none, 4, false, .any⟩, -- se_overflow
  ⟨0xC090, 1, 10, 10, 4, 0, 1, .num 0, none, 8, false, .any⟩, -- holding_drops
  ⟨0xC091, 47, 0, 0, 1, 4, 0, .num 6, none, 1, false, .any⟩, -- count
  ⟨0xC091, 47, 1, 1, 4, 0, 1, .num 0, none, 8, false, .any⟩, -- vectors
  ⟨0xC091, 47, 2, 2, 3, 0, 1, .num 0, none, 4, false, .any⟩, -- pending
  ⟨0xC091, 47, 3, 3, 4, 0, 1, .num 0, none, 8, false, .any⟩, -- clips
  ⟨0xC091, 47, 4, 4, 4, 0, 1, .num 0, none, 8, false, .any⟩, -- last_patch_frame
  ⟨0xC091, 47, 5, 5, 0, 0, 1, .num 0, none, 1, false, .any⟩, -- reloading
  ⟨0xC091, 47, 6, 6, 3, 0, 1, .num 4294967295, none, 4, false, .any⟩, -- corpus_id
  ⟨0xC0C0, 64, 0, 0, 1, 4, 0, .num 8, none, 1, false, .any⟩] -- count

/-- Entries of area 0xC000 (Table 0-3), part 3. -/
def catAreaCc : List CatRow := [
  ⟨0xC0C0, 64, 1, 1, 9, 0, 1, .blob (zeros 64), some 64, 64, false, .any⟩, -- descriptor
  ⟨0xC0C0, 64, 2, 2, 4, 0, 1, .num 0, none, 8, false, .any⟩, -- dead_sentinel
  ⟨0xC0C0, 64, 3, 3, 4, 0, 1, .num 0, none, 8, false, .any⟩, -- dead_negative
  ⟨0xC0C0, 64, 4, 4, 4, 0, 1, .num 0, none, 8, false, .any⟩, -- dead_range
  ⟨0xC0C0, 64, 5, 5, 4, 0, 1, .num 0, none, 8, false, .any⟩, -- dead_adds_discarded
  ⟨0xC0C0, 64, 6, 6, 4, 0, 1, .num 0, none, 8, false, .any⟩, -- nan_elements
  ⟨0xC0C0, 64, 7, 7, 4, 0, 1, .num 0, none, 8, false, .any⟩, -- fix_saturations
  ⟨0xC0C0, 64, 8, 8, 4, 0, 1, .num 0, none, 8, false, .any⟩, -- empty_bags
  ⟨0xC100, 1, 0, 0, 1, 4, 0, .num 12, none, 1, false, .any⟩, -- count
  ⟨0xC100, 1, 1, 1, 3, 1, 2, .num 16384, none, 4, false, .any⟩, -- search_candidate
  ⟨0xC100, 1, 2, 2, 3, 1, 2, .num 32768, none, 4, false, .any⟩, -- search_finalist
  ⟨0xC100, 1, 3, 3, 3, 1, 2, .num 262144, none, 4, false, .any⟩, -- search_rerank
  ⟨0xC100, 1, 4, 4, 3, 1, 2, .num 327680, none, 4, false, .any⟩, -- search_release
  ⟨0xC100, 1, 5, 5, 3, 1, 2, .num 10400, none, 4, false, .any⟩, -- attend_member
  ⟨0xC100, 1, 6, 6, 3, 1, 2, .num 16800, none, 4, false, .any⟩, -- attend_release
  ⟨0xC100, 1, 7, 7, 3, 1, 2, .num 80000, none, 4, false, .any⟩, -- gather_release
  ⟨0xC100, 1, 8, 8, 3, 1, 2, .num 160000, none, 4, false, .any⟩, -- scatter_release
  ⟨0xC100, 1, 9, 9, 4, 0, 1, .num 0, none, 8, false, .any⟩, -- strict_requested
  ⟨0xC100, 1, 10, 10, 4, 0, 1, .num 0, none, 8, false, .any⟩, -- strict_obtained
  ⟨0xC100, 1, 11, 11, 4, 0, 1, .num 0, none, 8, false, .any⟩, -- bitwise_lost
  ⟨0xC100, 1, 12, 12, 1, 3, 1, .num 0, none, 1, false, .any⟩] -- causes_seen

/-- Every entry, by area, index and subindex. -/
def catalogue : List CatRow :=
  catArea1a ++ catArea1b ++ catArea2a ++ catArea3a ++ catArea3b ++ catArea4a ++ catArea4b ++ catArea5a ++ catArea6a ++ catArea7a ++ catArea8a ++ catArea9a ++ catAreaAa ++ catAreaBa ++ catAreaCa ++ catAreaCb ++ catAreaCc

/-- Entries of one area (bits [15:12] of the index). -/
def catArea (a : Nat) : List CatRow :=
  match a with
  | 0x1 => catArea1a ++ catArea1b
  | 0x2 => catArea2a
  | 0x3 => catArea3a ++ catArea3b
  | 0x4 => catArea4a ++ catArea4b
  | 0x5 => catArea5a
  | 0x6 => catArea6a
  | 0x7 => catArea7a
  | 0x8 => catArea8a
  | 0x9 => catArea9a
  | 0xA => catAreaAa
  | 0xB => catAreaBa
  | 0xC => catAreaCa ++ catAreaCb ++ catAreaCc
  | _ => []

/-- Whether a row describes the entry index × 256 + sub. -/
def catCovers (obj : Nat) (r : CatRow) : Bool :=
  let i := obj / 256
  let u := obj % 256
  decide (r.base ≤ i) && decide (i < r.base + r.n) && decide (r.lo ≤ u) && decide (u ≤ r.hi)

/-- The row of an entry, none where the directory has no such entry (R405). -/
def catRow (obj : Nat) : Option CatRow := (catArea (obj / 256 / 0x1000)).find? (catCovers obj)

/-- Default of an entry; 0 where there is none. -/
def catDefault (obj : Nat) : DVal :=
  match catRow obj with
  | some r => r.dflt
  | none => .num 0

/-- Largest value of a fixed-width type (R12: counters stop at all ones of their width). -/
def typeMax (ty : Nat) : Nat :=
  match ty with
  | 0 => 1
  | 1 => 2 ^ 8 - 1
  | 2 => 2 ^ 16 - 1
  | 3 => 2 ^ 32 - 1
  | 5 => 2 ^ 32 - 1
  | 7 => 2 ^ 32 - 1
  | _ => 2 ^ 64 - 1

/-- Bytes of a value of a fixed-width type (R397). -/
def typeSize (ty : Nat) : Nat :=
  match ty with
  | 0 => 1
  | 1 => 1
  | 2 => 2
  | 3 => 4
  | 5 => 4
  | 7 => 4
  | _ => 8

end Sys2Proof.Machine
end

