-- ==== Sys2Proof/Machine/Ecc.lean ====
section
/-! DEFINITION. Ecc: the C72 code (R407 to R409) and the CRC-32C of HXT packets (R301). -/
namespace Sys2Proof.Machine

/-- Columns h(0) to h(63) (R408): the 56 bytes of weight three, then the first eight of weight five. -/
def c72Cols : List Nat :=
  (upFrom 0 256).filter (fun v => popcount 8 v == 3) ++ ((upFrom 0 256).filter (fun v => popcount 8 v == 5)).take 8

/-- Check byte of a data word (R407). -/
def c72Check (d : Nat) : Nat :=
  (numbered c72Cols).foldl (fun acc p => if d.testBit p.1 then acc ^^^ p.2 else acc) 0

/-- What a syndrome means (Table 18-1). -/
inductive C72 where
  | clean
  | check (j : Nat)
  | data (i : Nat)
  | bad
deriving DecidableEq, Repr

/-- Syndrome decoding (Table 18-1). -/
def c72Decode (s : Nat) : C72 :=
  if s = 0 then .clean
  else match (upFrom 0 8).find? (fun j => s == 1 <<< j) with
    | some j => .check j
    | none => match c72Cols.findIdx? (fun c => c == s) with
      | some i => .data i
      | none => .bad

/-- One step of the reflected CRC-32C register over one bit already combined in. -/
def crcBit (c : Nat) : Nat := if c.testBit 0 then (c >>> 1) ^^^ 0x82F63B78 else c >>> 1

/-- CRC-32C register after one more byte. -/
def crcByte (c : Nat) (b : Byte) : Nat :=
  crcBit (crcBit (crcBit (crcBit (crcBit (crcBit (crcBit (crcBit (c ^^^ b.toNat))))))))

/-- CRC-32C of a byte string: reflected polynomial 0x1EDC_6F41, all-ones start, final complement (R301). -/
def crc32c (b : Bytes) : Nat := (b.foldl crcByte 0xFFFFFFFF) ^^^ 0xFFFFFFFF

end Sys2Proof.Machine
end

