-- ==== Sys2Proof/Machine/Ops.lean ====
section
/-! DEFINITION. Ops: the shared operations over time, the directory's values, the error path and memory. -/
namespace Sys2Proof.Machine

/-- Outcome of every meaning. -/
abbrev Out := Host.Outcome State Fault Refusal

/-! ### Time (R6, R7) -/

/-- Cycles of a frame (Table 0-2). -/
def frameCycles : Nat := 4096
/-- Cycles of a management tick (Table 0-2). -/
def tickCycles : Nat := 1000000

/-- The timestamp while no frames are counted (R7). -/
def stampNone : Nat := 0x0FFFFFFFFFFFF000

/-- Cycles since the start post. -/
def sincePost (s : State) : Nat := ((s.clk.now : Int) - s.clk.post).toNat

/-- The timestamp of the present cycle (R7). -/
def timestamp (s : State) : Nat := if s.clk.counting then sincePost s % 2 ^ 60 else stampNone

/-- Frame count since the start post. -/
def frameNo (s : State) : Nat := sincePost s / frameCycles

/-- Cycles that `us` microseconds take at 1.6 GHz (Table 0-2). -/
def usCycles (us : Nat) : Nat := us * 1600

/-- Draw of a free value: its number, and the state with the counter advanced. -/
def draw (s : State) : Nat × State := (s.free, { s with free := s.free + 1 })

/-! ### Directory values (R12) -/

/-- Object number of an entry (Table 17-3). -/
def ent (index sub : Nat) : Nat := index * 256 + sub

/-- Value an entry holds: the listed one, else its default. -/
def dirVal (s : State) (obj : Nat) : DVal := smGetD s.dir.vals obj (catDefault obj)

/-- An entry's value as a number. -/
def dirNum (s : State) (obj : Nat) : Nat :=
  match dirVal s obj with
  | .num n => n
  | .blob b => leNat b

/-- An entry's value as bytes. -/
def dirBytes (s : State) (obj : Nat) : Bytes :=
  match dirVal s obj with
  | .num _ => []
  | .blob b => b

/-- A flag entry. -/
def dirFlag (s : State) (obj : Nat) : Bool := dirNum s obj != 0

/-- The map of values with one entry set; an entry at its default is not listed. -/
def valsPut (m : SMap DVal) (obj : Nat) (v : DVal) : SMap DVal := smSet (catDefault obj) m obj v

/-- The node's own update of an entry (R398). -/
def dirPut (obj : Nat) (v : DVal) (s : State) : State :=
  { s with dir := { s.dir with vals := valsPut s.dir.vals obj v } }

/-- As `dirPut`, for a number. -/
def dirSet (obj n : Nat) (s : State) : State := dirPut obj (.num n) s

/-- Largest value of an entry's type. -/
def entMax (obj : Nat) : Nat :=
  match catRow obj with
  | some r => typeMax r.ty
  | none => 2 ^ 64 - 1

/-- A counter raised by `n`, stopping at all ones of its width (R12). -/
def bumpBy (obj n : Nat) (s : State) : State := dirSet obj (min (entMax obj) (dirNum s obj + n)) s

/-- A counter raised by one. -/
def bump (obj : Nat) (s : State) : State := bumpBy obj 1 s

/-- Value of a delayed entry in force since the last boot (R398). -/
def inForce (s : State) (obj : Nat) : Nat :=
  match smGetD s.dir.inForce obj (catDefault obj) with
  | .num n => n
  | .blob b => leNat b

/-! ### Node facts -/

/-- Enabled clusters of the grade (Table 0-1). -/
def nClusters (s : State) : Nat := dirNum s (ent 0x1002 1)
/-- Enabled cores of the grade (Table 0-1). -/
def nCores (s : State) : Nat := dirNum s (ent 0x1002 2)
/-- Own postcode; 0xFFFF none (Table 16-5). -/
def ownPost (s : State) : Nat := dirNum s (ent 0x2010 3)
/-- Composition epoch in force. -/
def epoch (s : State) : Nat := dirNum s (ent 0x2010 1)
/-- Frames of a round; 1 while no timetable is in force. -/
def roundFrames (s : State) : Nat := max 1 (dirNum s (ent 0x8020 3))
/-- Compute die of a cluster (R21). -/
def dieOfCluster (s : State) (n : Nat) : Nat := if n < nClusters s / 2 then 0 else 1
/-- Core of a thread and cluster of a core (R21). -/
def coreOf (th : Nat) : Nat := th / 16
/-- Cluster of a thread (R21). -/
def clusterOf (th : Nat) : Nat := th / 256

/-! ### Error records (R416 to R419) -/

/-- What an error hands to the collectors. -/
structure ErrIn where
  cls : Nat
  severity : Nat
  source : Nat
  location : Nat
  address : Nat
  detail : Nat
  tag : Nat
  status : Nat
  /-- Tenant of the first request ended, if one was. -/
  tenant : Option Nat
deriving DecidableEq, Repr

/-- The postcode a record carries: 0xFFF before the first postcode. -/
def recPost (s : State) : Nat := if ownPost s = 0xFFFF then 0xFFF else ownPost s

/-- Words 0 to 6 of a record (Table 18-5). -/
def recWords (r : ErrRec) : List Nat :=
  [ fld r.postcode 52 + fld r.source 36 + fld r.severity 34 + fld r.cls 24 + fld r.status 16 + fld (b01 r.tv) 15
      + fld r.tenant 9 + fld (b01 r.nested) 1 + b01 r.opened,
    r.location, r.address, fld r.tag 32 + r.detail, r.first, r.last, fld r.seq 32 + r.repeats ]

/-- The 64 bytes of a record, check word last (Table 18-5). -/
def recBytes (r : ErrRec) : Bytes :=
  let ws := recWords r
  let chk := compl 64 (ws.foldl (fun a b => a ^^^ b) 0)
  (ws ++ [chk]).flatMap (leBytes 8)

/-- Die whose logbook holds a unit's errors (R424): compute dies 0 and 1, I/O die 2, stacks 3 to 18. -/
def dieOfSource (s : State) (source : Nat) : Nat :=
  let n := source % 4096
  match source / 4096 with
  | 0 => dieOfCluster s (n / 16)
  | 1 => dieOfCluster s n
  | 2 => 3 + n % 16
  | _ => 2

/-- A die's logbook; unlisted: nothing recorded. -/
def DieLog.empty : DieLog := ⟨[], [], [], [], 0, [], [], [], [], [], 0⟩

/-- A die's logbook. -/
def dieLog (s : State) (d : Nat) : DieLog := smGetD s.log.dies d DieLog.empty

/-- A die's logbook changed. -/
def onDieLog (d : Nat) (f : DieLog → DieLog) (s : State) : State :=
  { s with log := { s.log with dies := smPut s.log.dies d (f (dieLog s d)) } }

/-- Counts an error in its die's logbook (Table 18-9). -/
def logError (e : ErrIn) (s : State) : State :=
  let k := (e.source * 256 + e.cls) * 4 + e.severity
  onDieLog (dieOfSource s e.source) (fun l => { l with counts := smPut l.counts k (smGetD l.counts k 0 + 1) }) s

/-- The chain is addressed at version 2 and alerts are enabled (R403, R404, R420). -/
def alertsOn (s : State) : Bool := dirFlag s (ent 0x1010 5) && dirNum s (ent 0x1010 1) != 0 && dirNum s (ent 0x1010 2) != 1

/-- Something sent on the chain, its frames counted (R386, Table 17-9); nothing leaves in bus-off or while the controller
restarts (R383, R422). -/
def chainSend (o : ChainOut) (len : Nat) (s : State) : State :=
  if s.chain.busOff || s.err.mcDown then s
  else bumpBy (ent 0x1010 7) (max 1 (ceilDiv len 62)) { s with chain := { s.chain with out := s.chain.out ++ [o] } }

/-- An ALERT for a record entered, or a HALT record (R403): sent while fewer than 16 are pending, else counted. -/
def sendAlert (seq : Nat) (b : Bytes) (s : State) : State :=
  if alertsOn s then
    if s.chain.alerts.length < 16 then
      let a : Alert := ⟨s.chain.nextAlert, seq, b, s.clk.tick⟩
      chainSend (.alert a.num b) 72
        { s with chain := { s.chain with alerts := s.chain.alerts ++ [a], nextAlert := s.chain.nextAlert + 1 } }
    else bump (ent 0x1010 0xC) s
  else s

/-- Whether a record is still open for repeats (R417). -/
def recOpen (s : State) (r : ErrRec) : Bool :=
  r.opened && decide (s.clk.tick < r.firstTick + dirNum s (ent 0x5010 5))

/-- Whether an error repeats a record (R417): postcode, source, class and location equal, and the record open. -/
def isRepeat (s : State) (e : ErrIn) (r : ErrRec) : Bool :=
  recOpen s r && r.postcode == recPost s && r.source == e.source && r.cls == e.cls && r.location == e.location

/-- A repeat changes only its record: repeats and last (R417). -/
def mergeRepeat (s : State) (r : ErrRec) : ErrRec :=
  { r with repeats := min (2 ^ 32 - 1) (r.repeats + 1), last := timestamp s }

/-- The first element that satisfies `p`, changed by `f`. -/
def updFirst {α : Type} (p : α → Bool) (f : α → α) : List α → List α
  | [] => []
  | a :: t => if p a then f a :: t else a :: updFirst p f t

/-- The new record of an error (R416, R418): nested while any record is being handled. -/
def newRec (s : State) (e : ErrIn) : ErrRec :=
  { postcode := recPost s, source := e.source, severity := e.severity, cls := e.cls, status := e.status,
    tv := e.tenant.isSome, tenant := e.tenant.getD 0, nested := s.err.queue.any (fun r => !r.handled), opened := true,
    location := e.location, address := e.address, tag := e.tag, detail := e.detail, first := timestamp s,
    last := timestamp s, seq := dirNum s (ent 0x5010 7), repeats := 1, firstTick := s.clk.tick, handled := false,
    startAt := s.clk.now, acked := false }

/-- The sticky flags and unit counters an error sets, whether or not its record is lost (R419, R423). -/
def errFlags (e : ErrIn) (s : State) : State :=
  let s := whenS (e.cls == 1) (bump (ent 0x5030 2)) s
  let s := whenS (e.cls == 2) (fun s => dirSet (ent 0x5020 3) 1 (bump (ent 0x5030 3) s)) s
  let s := whenS (e.cls == 3) (fun s => dirSet (ent 0x5020 4) 1 (bump (ent 0x5030 6) s)) s
  whenS (e.severity == 2) (dirSet (ent 0x5020 5) 1) s

/-- An error enters the queue: merged into an open record, entered as a new one, or lost (R417 to R419). -/
def raise (e : ErrIn) (s : State) : State :=
  let s := errFlags e (logError e s)
  if s.err.queue.any (isRepeat s e) then
    { s with err := { s.err with queue := updFirst (isRepeat s e) (mergeRepeat s) s.err.queue } }
  else if 64 ≤ s.err.queue.length then
    bump (ent 0x5020 2) (dirSet (ent 0x5020 1) 1 s)
  else
    let r := newRec s e
    let s := { s with err := { s.err with queue := s.err.queue ++ [r] } }
    sendAlert r.seq (recBytes r) (bump (ent 0x5010 6) (dirSet (ent 0x5010 7) (r.seq + 1) s))

/-- A plain error of a unit: class, severity, unit class and instance, location, status and tenant. -/
def errOf (cls severity unit inst location status : Nat) (tenant : Option Nat) : ErrIn :=
  ⟨cls, severity, unit * 4096 + inst, location, 0, 0, 0, status, tenant⟩

/-! ### Memory map (Table 2-6) -/

/-- Where a local physical address lies. -/
inductive Region where
  | stack (s off : Nat)
  | store (core off : Nat)
  | scratch (cluster off : Nat)
  | engine (off : Nat)
  | none
deriving DecidableEq, Repr

/-- Decode of a local physical address (Table 2-6); windows of disabled cores and clusters, and scratch addresses
beyond the locked ways, do not exist. -/
def region (s : State) (a : Nat) : Region :=
  if a < 0x10000000000 then .stack (a / 0x1000000000) (a % 0x1000000000)
  else if 0x20000000000 ≤ a ∧ a < 0x20010000000 then
    let m := (a - 0x20000000000) / 0x80000
    if m < nCores s then .store m ((a - 0x20000000000) % 0x80000) else .none
  else if 0x30000000000 ≤ a ∧ a < 0x30020000000 then
    let n := (a - 0x30000000000) / 0x1000000
    let o := (a - 0x30000000000) % 0x1000000
    if n < nClusters s ∧ o < smGetD s.mem.ways n 0 * 0x100000 then .scratch n o else .none
  else if 0x40000000000 ≤ a ∧ a < 0x40100000000 then .engine (a - 0x40000000000)
  else .none

/-- Base address of a core's local store (Table 2-6). -/
def storeBase (core : Nat) : Nat := 0x20000000000 + core * 0x80000

/-- One byte of memory; an unlisted byte reads as zero (log 2). -/
def memByte (s : State) (a : Nat) : Byte := smGetD s.mem.bytes a 0

/-- `n` bytes of memory from `a`, as stored. -/
def memRead (s : State) (a : Nat) : Nat → Bytes
  | 0 => []
  | n + 1 => memByte s a :: memRead s (a + 1) n

/-- The byte list with bytes written from `a` up. -/
def cellsWrite (m : List Host.Cell) (a : Nat) : Bytes → List Host.Cell
  | [] => m
  | b :: t => cellsWrite (smSet 0 m a b) (a + 1) t

/-- Bytes written from `a` up, nothing else touched. -/
def memWrite (a : Nat) (b : Bytes) (s : State) : State :=
  { s with mem := { s.mem with bytes := cellsWrite s.mem.bytes a b } }

/-- Fresh check bits for every word that touches `n` bytes from `a` (R410). -/
def freshCheck (a n : Nat) (s : State) : State :=
  { s with mem := { s.mem with
      synd := (upFrom (a / 8) ((a + n + 7) / 8 - a / 8)).foldl (fun m w => smDel m w) s.mem.synd } }

/-- Canonical form of the byte list: addresses strictly rising, no entry equal to the value of an unlisted byte. -/
def cellsWf : List Host.Cell → Bool
  | [] => true
  | [(_, b)] => b != 0
  | (a, b) :: (a', b') :: t => b != 0 && decide (a < a') && cellsWf ((a', b') :: t)

/-- Canonical form of memory. -/
def Memory.wf (m : Mem) : Bool := cellsWf m.bytes

/-! ### Seal state (R126, Table 5-10) -/

/-- Row number of a stack byte: 2^30 rows of 1 KiB (Table 5-1). -/
def rowId (a : Nat) : Nat := a / 1024

/-- The row's unsealed bit. -/
def rowUnsealed (s : State) (row : Nat) : Bool := s.mem.unsealedDef != s.mem.rowFlip.contains row

/-- The row's unsealed bit and complement disagree. -/
def rowBroken (s : State) (row : Nat) : Bool := s.mem.rowBad.contains row

/-- The unsealed bit of a row set, with a good complement. -/
def setUnsealed (row : Nat) (u : Bool) (s : State) : State :=
  { s with mem := { s.mem with
      rowFlip := if u = s.mem.unsealedDef then delNat s.mem.rowFlip row else insNat s.mem.rowFlip row
      rowBad := delNat s.mem.rowBad row } }

/-! ### Banks, stacks and power -/

/-- State of a stack's sequencer after reset. -/
def Seqr.init : Seqr :=
  { queue := [], loads := [], seq := 0, refusal := 0, smiss := false, phase := .idle, pcw := 0, loop := none,
    latchA := [], latchB := [], steps := 0, cyc := 0, refreshes := 0, refreshDue := false, postponed := 0,
    faulted := [], sealFail := 0, foot := none, status := 0, aborting := false, knocks := [], railFaults := [],
    banksOut := [], out := false, hot := false }

/-- A stack's sequencer. -/
def seqr (s : State) (k : Nat) : Seqr := smGetD s.stk k Seqr.init

/-- A stack's sequencer changed. -/
def onSeqr (k : Nat) (f : Seqr → Seqr) (s : State) : State := { s with stk := smPut s.stk k (f (seqr s k)) }

/-- Row and bank of a stack offset (Table 5-1): row [35:20], die and bank [19:10] as 64 × die + bank. -/
def rowOfOff (off : Nat) : Nat := off / 0x100000
/-- Bank of a stack offset, 64 × die + bank. -/
def bankOfOff (off : Nat) : Nat := off % 0x100000 / 1024
/-- Local address of a row of a bank. -/
def rowAddr (stack bank row : Nat) : Nat := stack * 0x1000000000 + row * 0x100000 + bank * 1024

/-- Location word of a stack byte in an error record (Table 18-6). -/
def stackLoc (stack off : Nat) : Nat := fld (stack * 1024 + bankOfOff off) 50 + fld (rowOfOff off) 32

/-- An access or CLOAD makes a stack ACTIVE and restarts its idle time (Table 15-7); a stopped die's clock starts. -/
def touchStack (k : Nat) (s : State) : State :=
  { s with pwr := { s.pwr with stPower := smDel s.pwr.stPower k, stLast := smPut s.pwr.stLast k s.clk.now,
                               dieStopped := delNat s.pwr.dieStopped (k / 8), dieIdle := smDel s.pwr.dieIdle (k / 8) } }

/-- A normal access to a row of a running circular's write footprint is performed and counted (R131). -/
def countFoot (k off : Nat) (s : State) : State :=
  let q := seqr s k
  match q.phase, q.foot with
  | .run, some (lo, hi) => whenS (decide (lo ≤ rowOfOff off) && decide (rowOfOff off ≤ hi)) (bump (ent 0x7010 6)) s
  | _, _ => s

/-! ### Checked reads and writes (R409 to R411, Table 5-10) -/

/-- Whom an access is for: request tag and tenant, for the error record. -/
structure Who where
  tag : Nat
  tenant : Option Nat
deriving DecidableEq, Repr

/-- Unit class, instance and location of an error at a local address (Table 18-6). -/
def unitAt (s : State) (a : Nat) : Nat × Nat :=
  match region s a with
  | .stack k off => (0x2000 + k, stackLoc k off)
  | .store m _ => (m, 0)
  | .scratch n _ => (0x1000 + n, a)
  | _ => (0x6005, a)

/-- Global address of a local one. -/
def globalOf (s : State) (a : Nat) : Nat := fld (recPost s) 52 + a

/-- An error record for a C72 word: class 1 corrected, class 2 uncorrectable. -/
def c72Error (s : State) (cls sev a synd status : Nat) (w : Who) : ErrIn :=
  ⟨cls, sev, (unitAt s a).1, (unitAt s a).2, globalOf s a, synd, w.tag, status, w.tenant⟩

/-- Syndrome a reader of the word at `8 × wa` computes. -/
def syndOf (s : State) (wa : Nat) : Nat := (smGetD s.mem.synd wa 0).toNat

/-- A stored word after correction in the reader's copy (R409, R411). -/
def fixWord (s : State) (wa : Nat) : Bytes :=
  let d := leNat (memRead s (8 * wa) 8)
  match c72Decode (syndOf s wa) with
  | .data i => leBytes 8 (d ^^^ 1 <<< i)
  | _ => leBytes 8 d

/-- Words that touch `n` bytes from `a`. -/
def wordsOf (a n : Nat) : List Nat := upFrom (a / 8) ((a + n + 7) / 8 - a / 8)

/-- `n` bytes from `a`, each word corrected. -/
def fixedRead (s : State) (a n : Nat) : Bytes :=
  (((wordsOf a n).flatMap (fixWord s)).drop (a % 8)).take n

/-- Write-backs waiting for one stack (R411: at most 64). -/
def wbWaiting (s : State) (k : Nat) : Nat :=
  (s.mem.wbq.filter (fun p => p.1 / 0x1000000000 == k)).length

/-- A corrected word: recorded, and in a stack queued for write-back while fewer than 64 wait; in an SRAM rewritten
within the access (R411). -/
def noteCorrected (w : Who) (wa : Nat) (s : State) : State :=
  let sy := syndOf s wa
  let s1 := raise (c72Error s 1 0 (8 * wa) sy 0 w) s
  match region s (8 * wa) with
  | .stack k _ =>
    if wbWaiting s1 k < 64 then
      { s1 with mem := { s1.mem with wbq := s1.mem.wbq ++ [(wa, sy, leNat (memRead s (8 * wa) 8))] } }
    else s1
  | _ => freshCheck (8 * wa) 8 (memWrite (8 * wa) (fixWord s wa) s1)

/-- Whether a word's syndrome is correctable and not clean. -/
def isFixable (s : State) (wa : Nat) : Bool :=
  match c72Decode (syndOf s wa) with
  | .check _ => true
  | .data _ => true
  | _ => false

/-- Whether a word is uncorrectable. -/
def isBad (s : State) (wa : Nat) : Bool := c72Decode (syndOf s wa) == .bad

/-- Rows of a stack range. -/
def rowsOf (a n : Nat) : List Nat := upFrom (a / 1024) ((a + n + 1023) / 1024 - a / 1024)

/-- Whether an address lies in a stack. -/
def inStack (a : Nat) : Bool := decide (a < 0x10000000000)

/-- Accounting common to every normal access of a stack: power state and footprint. -/
def accessStack (a : Nat) (s : State) : State :=
  if inStack a then countFoot (a / 0x1000000000) (a % 0x1000000000) (touchStack (a / 0x1000000000) s) else s

/-- A SEAL_STATE error for a row whose unsealed bit and complement disagree (Table 5-10). -/
def sealError (s : State) (row : Nat) (w : Who) : ErrIn :=
  c72Error s 4 1 (row * 1024) 0 0x41 w

/-- A normal read of `n` bytes at local address `a`: the status that ends the request (0 none) and the state after.
The bytes it returns are `fixedRead`. -/
def demandRead (w : Who) (a n : Nat) (s : State) : Nat × State :=
  let s := accessStack a s
  let rows := if inStack a then rowsOf a n else []
  match rows.find? (rowBroken s) with
  | some r => (0x41, raise (sealError s r w) s)
  | none =>
    if rows.any (rowUnsealed s) then (0x43, bump (ent 0x7010 7) s)
    else match (wordsOf a n).find? (isBad s) with
      | some wa => (0x41, raise (c72Error s 2 1 (8 * wa) (syndOf s wa) 0x41 w) s)
      | none => (0, foldS ((wordsOf a n).filter (isFixable s)) (noteCorrected w) s)

/-- Words that a write of `n` bytes at `a` covers only in part. -/
def partWords (a n : Nat) : List Nat :=
  (wordsOf a n).filter (fun w => decide (8 * w < a) || decide (a + n < 8 * w + 8))

/-- Rows that a write covers whole. -/
def wholeRows (a n : Nat) : List Nat :=
  (rowsOf a n).filter (fun r => decide (a ≤ r * 1024) && decide (r * 1024 + 1024 ≤ a + n))

/-- A normal write of bytes at local address `a` (R410, Table 5-10): the status (0 done) and the state after. A part
of a word is merged into the checked old word; an atomic operation passes `atomic` and never runs on an unsealed row. -/
def demandWrite (w : Who) (atomic : Bool) (a : Nat) (b : Bytes) (s : State) : Nat × State :=
  let n := b.length
  let s := accessStack a s
  let rows := if inStack a then rowsOf a n else []
  let whole := if inStack a then wholeRows a n else []
  match (rows.filter (fun r => !whole.contains r)).find? (rowBroken s) with
  | some r => (0x41, raise (sealError s r w) s)
  | none =>
    if rows.any (fun r => rowUnsealed s r && !whole.contains r) && (atomic || !(partWords a n).isEmpty) then
      (0x43, bump (ent 0x7010 7) s)
    else match (partWords a n).find? (isBad s) with
      | some wa => (0x41, raise (c72Error s 2 1 (8 * wa) (syndOf s wa) 0x41 w) s)
      | none =>
        let s := foldS ((partWords a n).filter (isFixable s))
          (fun wa s => raise (c72Error s 1 0 (8 * wa) (syndOf s wa) 0 w) (memWrite (8 * wa) (fixWord s wa) s)) s
        let s := freshCheck a n (memWrite a b s)
        (0, foldS whole (fun r => setUnsealed r false) s)

/-- The base die performs a waiting write-back: only if the stored word still equals what was read and the row is
sealed (R411). -/
def writeBack (p : Nat × Nat × Nat) (s : State) : State :=
  let a := 8 * p.1
  if rowUnsealed s (rowId a) then s
  else if leNat (memRead s a 8) = p.2.2 ∧ syndOf s p.1 = p.2.1 then
    bump (ent 0x5030 4) (freshCheck a 8 (memWrite a (fixWord s p.1) s))
  else bump (ent 0x5030 5) s

/-- Stack of a write-back that must wait: its row lies in a running circular's footprint. -/
def wbHeld (s : State) (p : Nat × Nat × Nat) : Bool :=
  let a := 8 * p.1
  let q := seqr s (a / 0x1000000000)
  match q.phase, q.foot with
  | .run, some (lo, hi) =>
    decide (lo ≤ rowOfOff (a % 0x1000000000)) && decide (rowOfOff (a % 0x1000000000) ≤ hi)
  | _, _ => false

/-- Every waiting write-back that may go now is performed. -/
def flushWriteBacks (s : State) : State :=
  let held := s.mem.wbq.filter (wbHeld s)
  let go := s.mem.wbq.filter (fun p => !wbHeld s p)
  foldS go writeBack { s with mem := { s.mem with wbq := held } }

/-- A bank or unit is taken out of service, or a cause of severity CONTAINED or CORRECTED is recorded, by class. -/
def record (cls severity unit inst location detail status : Nat) (tenant : Option Nat) (s : State) : State :=
  raise { errOf cls severity unit inst location status tenant with detail := detail } s

end Sys2Proof.Machine
end

