-- ==== Sys2Proof/Machine/Flags.lean ====
section
/-! DEFINITION. Flags: every flag computation of the spec: the scoring and shortlist CSR flags (R69, R72, R74, R93), the
cause byte and class (R287, R293), the write-one-to-clear rules (R12, R423) and the summary word. -/
namespace Sys2Proof.Machine

/-! ### Sticky CSR flags -/

/-- ISAT, bit 0 of escstat (Table 3-7). -/
def ISAT : Nat := 1
/-- RSAT, bit 1 of escstat (Table 3-7). -/
def RSAT : Nat := 2
/-- NAN, TRUNC, RSV, DUP and ORD of eslstat (Table 4-4). -/
def fNAN : Nat := 1
/-- TRUNC. -/
def fTRUNC : Nat := 2
/-- RSV. -/
def fRSV : Nat := 4
/-- DUP. -/
def fDUP : Nat := 8
/-- ORD. -/
def fORD : Nat := 16
/-- fflags.NV, OF, UF, NX (R72). -/
def ffNX : Nat := 1
/-- UF. -/
def ffUF : Nat := 2
/-- OF. -/
def ffOF : Nat := 4
/-- DZ. -/
def ffDZ : Nat := 8
/-- NV. -/
def ffNV : Nat := 16

/-- A write of ones clears those bits of a sticky word (R76, R93, R12). -/
def clearOnes (old wr : Nat) : Nat := old - (old &&& wr)

/-- A count that stops at all ones of `n` bits (R12, R76). -/
def satCount (n c d : Nat) : Nat := min (2 ^ n - 1) (c + d)

/-! ### The cause byte and the class obtained (Tables 12-2 and 12-3) -/

/-- LATE. -/
def cLATE : Nat := 0x01
/-- THROTTLE. -/
def cTHROTTLE : Nat := 0x02
/-- ERROR. -/
def cERROR : Nat := 0x04
/-- FALLBACK. -/
def cFALLBACK : Nat := 0x08
/-- GRADE. -/
def cGRADE : Nat := 0x10
/-- ORDER. -/
def cORDER : Nat := 0x20
/-- CONCURRENT. -/
def cCONCURRENT : Nat := 0x40
/-- COVERAGE. -/
def cCOVERAGE : Nat := 0x80

/-- Cap that a cause byte puts on the class: 0 STRICT, 1 BITWISE, 2 RELAXED (Table 12-2). -/
def causeCap (cause : Nat) : Nat := if cause &&& 0xF0 ≠ 0 then 2 else if cause ≠ 0 then 1 else 0

/-- Types with a requested class (R287). -/
def hasClass (type : Nat) : Bool := type ∈ [0x0103, 0x0205, 0x0304, 0x0305, 0x0401]

/-- Class obtained: the lowest of the requested class and every cap; KERNEL_RUN obtains BITWISE at best (R287, R294). -/
def classObtained (type cls cause : Nat) : Nat :=
  max (max (min cls 2) (causeCap cause)) (if type = 0x0401 then 1 else 0)

/-- Mutating types (Table 13-7). -/
def mutating (type : Nat) : Bool :=
  type ∈ [0x0101, 0x0102, 0x0104, 0x0105, 0x0201, 0x0202, 0x0203, 0x0204, 0x0301, 0x0302, 0x0303, 0x0305, 0x0401,
    0x0402, 0x0502]

/-! ### Write-one-to-clear entries (R12, R423) -/

/-- New value of an RWC entry on a write (R12): a BOOL flag clears on 1; an entry of separate flag bits clears the bits
written as one; a counter clears on any nonzero write. -/
def rwcNew (obj ty old wr : Nat) : Nat :=
  if ty = 0 then (if wr = 1 then 0 else old)
  else if obj = ent 0xC100 0xC then clearOnes old wr
  else if wr = 0 then old else 0

/-- The summary word 0x5020:0A (Table 18-12). -/
def summaryWord (s : State) : Nat :=
  let flags := [ent 0x5020 1, ent 0x5020 3, ent 0x5020 4, ent 0x5020 5, ent 0x5020 6, ent 0x5020 7, ent 0x5020 8,
    ent 0x6010 0xC, ent 0x8010 7, ent 0x8020 8, ent 0x2010 9, ent 0x2010 0xA, ent 0x4020 8, ent 0xC090 8, ent 0xC090 9]
  (numbered flags).foldl (fun acc p => acc + fld (b01 (dirFlag s p.2)) p.1) 0

end Sys2Proof.Machine
end

