-- ==== Sys2Proof/Machine/Knocks.lean ====
section
/-! DEFINITION. Knocks: the knocks of engines on their way (R347, R348, Table 15-6) and the completion of parcel
descriptors, which sends one (R214, R221). -/
namespace Sys2Proof.Machine

/-- An engine's knock (R347): stamped sys, mark the circular's sequence or the descriptor's tag, empty body. -/
def knockOf (s : State) (engine mark dest : Nat) : Letter :=
  { srcPost := recPost s, source := 5 * 8192 + engine, sys := true, tenant := 0, len := 0, mark := mark, dest := dest,
    body := zeros 48 }

/-- Knocks an engine keeps: stack s by its base die, cluster n by its parcel queue (R347). -/
def keptKnocks (s : State) (engine : Nat) : List Letter :=
  if engine < 0x100 then (seqr s engine).knocks else smGetD s.par.knocks (engine - 0x100) []

/-- Knocks an engine keeps, changed. -/
def onKnocks (engine : Nat) (f : List Letter → List Letter) (s : State) : State :=
  if engine < 0x100 then onSeqr engine (fun q => { q with knocks := f q.knocks }) s
  else { s with par := { s.par with
          knocks := smPut s.par.knocks (engine - 0x100) (f (smGetD s.par.knocks (engine - 0x100) [])) } }

/-- A letter leaves for its pigeonhole: it waits in transit until a delivery takes it. -/
def sendLetter (l : Letter) (s : State) : State :=
  bump (ent 0xC090 1) { s with pwr := { s.pwr with transit := s.pwr.transit ++ [l] } }

/-- An engine sends a knock if its descriptor names a pigeonhole (R348); a knock to a pigeonhole whose earlier knock
is still kept waits behind it (Table 15-6). -/
def sendKnock (engine mark dest : Nat) (s : State) : State :=
  if dest = 0 then s
  else
    let l := knockOf s engine mark dest
    if (keptKnocks s engine).any (fun k => k.dest == dest) then
      bump (ent 0xC090 1) (onKnocks engine (fun ks => ks ++ [l]) s)
    else sendLetter l s

/-! ### Parcel descriptors -/

/-- Descriptor queue of a cluster. -/
def pQueue (s : State) (n : Nat) : List PDesc := smGetD s.par.queues n []

/-- Descriptor queue of a cluster, changed. -/
def onQueue (n : Nat) (f : List PDesc → List PDesc) (s : State) : State :=
  { s with par := { s.par with queues := smPut s.par.queues n (f (pQueue s n)) } }

/-- Parcels in flight of one owner marked: their arrivals are discarded (R221). -/
def killParcels (p : POwner → Bool) (s : State) : State :=
  { s with par := { s.par with flight := s.par.flight.map (fun x => if p x.owner then { x with dead := true } else x) } }

/-- A descriptor completes: done and status are written into it, its knock is sent, it leaves the queue, and parcels of
it still in flight are marked (R214, R221). -/
def completeDesc (n : Nat) (d : PDesc) (status : Nat) (s : State) : State :=
  let s := memWrite (d.addr + 28) (leBytes 1 status) s
  let hi := (memByte s (d.addr + 29)).toNat
  let s := memWrite (d.addr + 29) (leBytes 1 (hi ||| 0x80)) s
  let s := freshCheck (d.addr + 24) 8 s
  let s := onQueue n (fun l => l.erase d) s
  let s := killParcels (fun o => o == .desc n d.addr) s
  sendKnock (0x100 + n) d.tag d.knock s

/-- Every descriptor of a request completes with a status (R55, R222). -/
def endDescs (p : PDesc → Bool) (status : Nat) (s : State) : State :=
  foldS s.par.queues (fun q s => foldS (q.2.filter p) (fun d s => completeDesc q.1 d status s) s) s

end Sys2Proof.Machine
end

