-- ==== Sys2Proof/Machine/Receipts.lean ====
section
/-! DEFINITION. Receipts: HXT packets, NOTEs, and the ending of requests (R300, R302, R307, R311 to R319, R14 to R16,
R286 to R291, R427). -/
namespace Sys2Proof.Machine

/-! ### Packets -/

/-- The 32 header bytes (Table 13-2). -/
def pktHeader (kind version sid ep pm idx count len : Nat) (tagged : Bool) : Bytes :=
  leBytes 8 (fld count 48 + fld idx 32 + fld (b01 tagged) 24 + fld kind 16 + version)
    ++ leBytes 8 (fld pm 16 + len) ++ leBytes 8 (fld sid 32 + ep) ++ leBytes 8 (fld (compl 32 ep) 32)

/-- Segments of a message: header and payload bytes of each (R302); the last is marked when a tag follows. -/
def segmentsOf (kind version sid ep pm l : Nat) (tagged : Bool) (msg : Bytes) : List (Bytes × Bytes) :=
  let ps := if msg.isEmpty then [[]] else chunks l msg
  (numbered ps).map (fun p =>
    (pktHeader kind version sid ep pm p.1 ps.length p.2.length (tagged && p.1 + 1 == ps.length), p.2))

/-- The tag of a message: the first 16 bytes of HMAC-SHA-384 over every header and payload (R307). -/
def tagOf (key : Bytes) (segs : List (Bytes × Bytes)) : Bytes :=
  slice (Config.hmac384 key (segs.flatMap (fun p => p.1 ++ p.2))) 0 16

/-- The UDP payloads of a message: header, payload, tag in the last, CRC (R300). -/
def packetsOf (kind version sid ep pm l : Nat) (key : Option Bytes) (msg : Bytes) : List Bytes :=
  let segs := segmentsOf kind version sid ep pm l key.isSome msg
  (numbered segs).map (fun p =>
    let t := match key with
      | some k => if p.1 + 1 = segs.length then tagOf k segs else []
      | none => []
    let b := p.2.1 ++ p.2.2 ++ t
    b ++ leBytes 4 (crc32c b))

/-! ### Sessions -/

/-- An open session. -/
def sess? (s : State) (sid : Nat) : Option Sess := s.hxt.sessions.find? (fun x => x.sid == sid)

/-- A session changed. -/
def onSess (sid : Nat) (f : Sess → Sess) (s : State) : State :=
  { s with hxt := { s.hxt with sessions := updFirst (fun x => x.sid == sid) f s.hxt.sessions } }

/-- The key that tags a session's messages, none on a session without tags (R307). -/
def tagKey (x : Sess) : Option Bytes := if x.tags then some x.key else none

/-- The sub-port's link is up (R480). -/
def portUp (s : State) (p : Nat) : Bool := dirNum s (ent (0xB100 + p) 2) == 1

/-- A session belongs to no tenant and uses the management path (R479). -/
def isMgmtPath (x : Sess) : Bool := x.level == .operator || x.level == .security

/-! ### Outboxes -/

/-- Packets placed in an outbox, or on the control path (R333). -/
def putOut (port : Nat) (ctl : Bool) (tenant queue : Nat) (a : Addr) (kind note : Nat) (ps : List Bytes) (s : State) :
    State :=
  { s with hxt := { s.hxt with
      out := s.hxt.out ++ ps.map (fun b => ⟨port, ctl, tenant, queue, a, kind, b, s.clk.now, note, false⟩) } }

/-! ### NOTEs (R314, R315) -/

/-- NOTE state of a tenant; unlisted: nothing pending, sequence 1. -/
def notesOf (s : State) (t : Nat) : Notes := smGetD s.hxt.notes t ⟨[], 1, 0⟩

/-- NOTE state of a tenant changed. -/
def onNotes (t : Nat) (f : Notes → Notes) (s : State) : State :=
  { s with hxt := { s.hxt with notes := smPut s.hxt.notes t (f (notesOf s t)) } }

/-- The session of two that was granted the NOTE flag later. -/
def laterNote (a : Option Sess) (b : Sess) : Option Sess :=
  match a with
  | none => some b
  | some x => if x.noteOrd < b.noteOrd then some b else some x

/-- The tenant's NOTE session: the open one most recently granted the NOTE flag (R315). -/
def noteSess (s : State) (t : Nat) : Option Sess :=
  (s.hxt.sessions.filter (fun x => decide (0 < x.noteOrd) && x.tenant == t && !isMgmtPath x)).foldl laterNote none

/-- The NOTE's payload: 16-byte header and body (R314). -/
def notePayload (t : Nat) (n : Note) : Bytes :=
  leBytes 2 n.type ++ leBytes 1 t ++ zeros 1 ++ leBytes 2 n.lost ++ zeros 2 ++ leBytes 8 n.stamp ++ n.body

/-- One pending NOTE sent on the NOTE session, if there is one whose sub-port is up (R315). Its first send carries the NOTEs
lost since the last one (R314). A NOTE of a version 1 or 2
session leaves the pending set at the send. While a reset of the tenant runs none is sent, so that RESET_DONE comes first
(R343). -/
def sendNote (t seq : Nat) (s : State) : State :=
  match noteSess s t with
  | none => s
  | some x =>
    if portUp s x.addr.port && !(smGet? s.trf.tenants t).any (fun y => y.resetting) then
      match (notesOf s t).pending.find? (fun n => n.seq == seq) with
      | none => s
      | some n =>
        let n := if n.sends = 0 then { n with lost := (notesOf s t).lost } else n
        let ps := packetsOf 3 x.version x.sid (epoch s) n.seq 8192 (tagKey x) (notePayload t n)
        let s := putOut x.addr.port false t (dirNum s (ent (0x3100 + t) 0xD)) x.addr 3 n.seq ps s
        let sent := { n with sends := n.sends + 1, lastTick := s.clk.tick }
        let left := fun (l : List Note) =>
          if x.version < 3 then l.filter (fun m => m.seq != seq) else updFirst (fun m => m.seq == seq) (fun _ => sent) l
        onNotes t (fun k => { k with pending := left k.pending, lost := if n.sends = 0 then 0 else k.lost }) s
    else s

/-- Every pending NOTE of a tenant that has never been sent is sent, oldest first (R315). -/
def sendFreshNotes (t : Nat) (s : State) : State :=
  foldS (((notesOf s t).pending.filter (fun n => n.sends == 0)).map (fun n => n.seq)) (sendNote t) s

/-- A NOTE formed for a tenant: with 256 pending the oldest is dropped and counted (R315). -/
def addNote (t type : Nat) (body : Bytes) (s : State) : State :=
  let k := notesOf s t
  let full := 256 ≤ k.pending.length
  let s := whenS (decide full) (bump (ent 0xB010 0xC)) s
  let n : Note := ⟨k.next, type, body, timestamp s, 0, 0, s.clk.tick⟩
  sendNote t n.seq (onNotes t (fun k =>
    { k with pending := (if full then k.pending.drop 1 else k.pending) ++ [n], next := k.next + 1
             lost := if full then min 0xFFFF (k.lost + 1) else k.lost }) s)

/-- Key of a NOTE's subject for the per-tick limit (R340). -/
def noteKey (t type subj : Nat) : Nat := t * 0x100000 + type * 0x100 + subj

/-- A traffic NOTE (R340): while its type is enabled, at most one per type, tenant, subject and tick; counts of events
that arrive meanwhile are added to the next one. `body` makes the body from the gathered counts. -/
def trafficNote (t type subj : Nat) (counts : List Nat) (body : List Nat → Bytes) (s : State) : State :=
  let k := noteKey t type subj
  let old := smGetD s.trf.gathered k []
  let sum := (upFrom 0 counts.length).map (fun i => old.getD i 0 + counts.getD i 0)
  if (dirNum s (ent (0x3100 + t) 0xC)).testBit (type - 0x10) ∧ smGet? s.trf.noteTick k ≠ some s.clk.tick then
    addNote t type (body sum)
      { s with trf := { s.trf with noteTick := smPut s.trf.noteTick k s.clk.tick, gathered := smDel s.trf.gathered k } }
  else { s with trf := { s.trf with gathered := smPut s.trf.gathered k sum } }

/-- A threshold NOTE (R340): sent when the value reaches the threshold, and again only after it has fallen below
half of it. -/
def thresholdNote (t type subj value threshold : Nat) (body : Bytes) (s : State) : State :=
  let k := noteKey t type subj
  if threshold = 0 then s
  else if s.trf.fired.contains k then
    (if 2 * value < threshold then { s with trf := { s.trf with fired := delNat s.trf.fired k } } else s)
  else if threshold ≤ value ∧ (dirNum s (ent (0x3100 + t) 0xC)).testBit (type - 0x10)
      ∧ smGet? s.trf.noteTick k ≠ some s.clk.tick then
    addNote t type body
      { s with trf := { s.trf with fired := insNat s.trf.fired k, noteTick := smPut s.trf.noteTick k s.clk.tick } }
  else s

/-- A threshold NOTE may be sent again for a subject whose value is below half the threshold (R340). -/
def rearmNote (t type subj value threshold : Nat) (s : State) : State :=
  if 2 * value < threshold then { s with trf := { s.trf with fired := delNat s.trf.fired (noteKey t type subj) } } else s

/-! ### Receipts (R311 to R313) -/

/-- Receipt bytes: the 32-byte header of Table 13-8 and the body. -/
def receiptBytes (type status cls cause admitted count detail : Nat) (body : Bytes) : Bytes :=
  leBytes 8 (fld cause 32 + fld cls 24 + fld status 16 + type) ++ leBytes 8 admitted
    ++ leBytes 8 (fld (crc32c body) 32 + body.length) ++ leBytes 8 (fld count 32 + detail) ++ body

/-- Receipt bytes handed to the port on a session (R312, R333): dropped and counted when the sub-port is down; a
management-path session's receipts use the control path (R479). -/
def postReceipt (x : Sess) (a : Addr) (queue pm : Nat) (r : Bytes) (s : State) : State :=
  if portUp s a.port then
    putOut a.port (isMgmtPath x) x.tenant queue a 2 0 (packetsOf 2 x.version x.sid (epoch s) pm x.maxPayload (tagKey x) r) s
  else bump (ent 0xB010 0xE) s

/-- A receipt for an envelope that ended before it became a request (R311): admitted 0, no class, empty body. -/
def earlyReceipt (sid pm type status detail queue : Nat) (a : Addr) (s : State) : State :=
  let s := whenS (status == 0x12) (bump (ent 0xB010 9)) s
  let s := whenS (status == 0x30) (bump (ent 0x2010 0xB)) s
  optS (sess? s sid) (fun x => postReceipt x a queue pm (receiptBytes type status 0xFF 0 0 0 detail [])) s

/-! ### Requests -/

/-- A request in the node. -/
def req? (s : State) (rid : Nat) : Option Req := s.hxt.reqs.find? (fun r => r.rid == rid)

/-- A request changed. -/
def onReq (rid : Nat) (f : Req → Req) (s : State) : State :=
  { s with hxt := { s.hxt with reqs := updFirst (fun r => r.rid == rid) f s.hxt.reqs } }

/-- A request removed from the node's list. -/
def dropReq (rid : Nat) (s : State) : State :=
  { s with hxt := { s.hxt with reqs := s.hxt.reqs.filter (fun r => r.rid != rid) } }

/-- A cause touches a request, or the part of another node's request that this node serves under the same count
(R293). -/
def addCause (rid c : Nat) (s : State) : State :=
  let s := onReq rid (fun r => { r with cause := r.cause ||| c }) s
  { s with path := { s.path with
      parts := updFirst (fun p => p.id == rid) (fun p => { p with cause := p.cause ||| c }) s.path.parts } }

/-- Thread context after reset. Machine-mode contexts start in the runtime when the node is booted; mstatus.XS, VS and
FS are set by the runtime for the threads it starts (R35). -/
def Thread.init : Thread :=
  { run := .off, user := false, kern := false, tenant := 0, req := 0, pc := 0, x := [], f := [], v := [], csr := [], lists := [],
    box := [], resv := none, remote := [], failedAck := none, remoteUsed := false, spent := 0 }

/-- A thread context. -/
def thread (s : State) (th : Nat) : Thread := smGetD s.sea.threads th Thread.init

/-- A thread context changed. -/
def onThread (th : Nat) (f : Thread → Thread) (s : State) : State :=
  { s with sea := { s.sea with threads := smPut s.sea.threads th (f (thread s th)) } }

/-- A thread stopped (R55): a lent thread's context is freed, a runtime thread stays stopped. -/
def stopThread (t : Thread) : Thread := if t.kern then Thread.init else { t with run := .stopped, req := 0 }

/-- Whether a parcel in flight belongs to a request: by its path, or by a declared stream of the request. -/
def ownedBy (s : State) (rid : Nat) : POwner → Bool
  | .path r => r == rid
  | .stream k _ => (smGet? s.sea.streams k).any (fun z => z.declared && z.req == rid)
  | _ => false

/-- Threads of a request stop, its declared streams are cancelled, its descriptors complete with `status` and its
parcels in flight are marked (R55, R222, R221). -/
def stopWork (rid status : Nat) (s : State) : State :=
  if rid = 0 then s else
  let s := killParcels (ownedBy s rid) s
  let s := endDescs (fun d => d.req == rid) status s
  { s with sea := { s.sea with
      threads := s.sea.threads.map (fun p => if p.2.req = rid then (p.1, stopThread p.2) else p)
      streams := s.sea.streams.filter (fun p => !(p.2.declared && p.2.req == rid)) } }

/-- An entry of the trace ring, which keeps the latest 65,536 (R427). -/
def addTrace (e : Trace) (s : State) : State :=
  { s with log := { s.log with trace := (if s.log.trace.length < 65536 then s.log.trace else s.log.trace.drop 1) ++ [e] } }

/-- Counters of Table 12-4 and the trace ring, for a receipt that carries a class (R295, R296, R427). -/
def countClass (r : Req) (status cls : Nat) (s : State) : State :=
  let s := whenS (r.cls == 0) (fun s => whenS (cls == 0) (bump (ent 0xC100 0xA)) (bump (ent 0xC100 9) s)) s
  let s := whenS (decide (r.cls ≤ 1) && cls == 2) (bump (ent 0xC100 0xB)) s
  let s := dirSet (ent 0xC100 0xC) (dirNum s (ent 0xC100 0xC) ||| r.cause) s
  addTrace ⟨r.pm, r.type, r.sid, status, cls, r.cause, r.admitted, timestamp s⟩ s

/-- The held entry of a mutating envelope completed with its receipt (R316 to R318). -/
def holdReceipt (r : Req) (b : Bytes) (s : State) : State :=
  onSess r.sid (fun x => { x with held := smPut x.held r.pm ⟨r.type, some b⟩ }) s

/-- Whether an ended envelope is held in the postmark window (R316, R318): mutating, and admitted, or ended before
admission by CANCEL or by a tenant reset. -/
def isHeldAfter (r : Req) (status : Nat) : Bool :=
  mutating r.type && (r.st != .waiting || status == 0x60 || status == 0x32)

/-- Unit counters that a receipt status moves: AUTH_FAILED, STALE_EPOCH, TENANT_RESET. -/
def countStatus (r : Req) (status : Nat) (s : State) : State :=
  let s := whenS (status == 0x12) (bump (ent 0xB010 9)) s
  let s := whenS (status == 0x30) (bump (ent 0x2010 0xB)) s
  whenS (status == 0x32) (bump (ent (0x3100 + r.tenant) 0xF)) s

/-- A request's receipt is formed and handed to the port, and its work stops (R14, R311, R312). A code of 0x10 or
above carries no class and no results, but for the per-item statuses of an UPSERT or DELETE. -/
def endReq (rid status count detail : Nat) (body : Bytes) (s : State) : State :=
  match req? s rid with
  | none => s
  | some r =>
    let classed := hasClass r.type && decide (status < 0x10)
    let cls := if classed then classObtained r.type r.cls r.cause else 0xFF
    let cause := if classed then r.cause else 0
    let keep := decide (status < 0x10) || ((r.type == 0x0104 || r.type == 0x0105) && r.st != .waiting && status != 0x32
      && status != 0x60 && !body.isEmpty)
    let b := receiptBytes r.type status cls cause (if r.st = .waiting then 0 else r.admitted)
      (if keep then count else 0) detail (if keep then body else [])
    let s := stopWork rid status s
    let s := whenS classed (countClass r status cls) s
    let s := whenS (isHeldAfter r status) (holdReceipt r b) s
    let s := countStatus r status s
    let s := optS (sess? s r.sid) (fun x => postReceipt x r.addr r.queue r.pm b) s
    dropReq rid s

/-- A request ended by a status with nothing to report. -/
def failReq (rid status : Nat) (s : State) : State := endReq rid status 0 0 [] s

/-- BAD_ENVELOPE with the offset of the fault (R309). -/
def badReq (rid detail : Nat) (s : State) : State := endReq rid 0x10 0 detail [] s

/-- A request completes with results (R290, R291): a STRICT request that has not missed a point is held for its release
point; past the point it is LATE and leaves at once. -/
def finishReq (rid status count : Nat) (body : Bytes) (s : State) : State :=
  match req? s rid with
  | none => s
  | some r =>
    let strict := hasClass r.type && r.type != 0x0401 && r.cls == 0 && decide (status < 0x10) && !r.points.isEmpty
    if strict && !r.late then
      if s.clk.now ≤ r.admitAt + r.points.getLastD 0 then
        onReq rid (fun r => { r with st := .held, ready := some (status, count, body) }) s
      else endReq rid status count 0 body (addCause rid cLATE s)
    else endReq rid status count 0 body s

/-- Tenant of a request, none for 0 and for management-path requests. -/
def reqTenant (s : State) (rid : Nat) : Option Nat :=
  match req? s rid with
  | some r => if r.mgmt then none else some r.tenant
  | none => none

/-- Requests of a tenant. -/
def reqsOf (s : State) (t : Nat) : List Req := s.hxt.reqs.filter (fun r => r.tenant == t && !r.mgmt)

end Sys2Proof.Machine
end

