-- ==== Sys2Proof/Machine/Letters.lean ====
section
/-! DEFINITION. Letters: forming, routing and delivering letters and knocks (R347 to R356, R359, Table 15-6). -/
namespace Sys2Proof.Machine

/-! ### Layout (Tables 15-1 and 15-2) -/

/-- The 64 bytes of a letter. -/
def letterBytes (l : Letter) : Bytes :=
  leBytes 8 (fld l.srcPost 52 + fld l.source 36 + fld (b01 l.sys) 35 + fld l.tenant 29 + fld l.len 23)
    ++ leBytes 8 (fld l.mark 32 + l.dest) ++ slice l.body 0 48

/-- A letter read from 64 bytes. -/
def letterOf (b : Bytes) : Letter :=
  let w0 := fieldLE b 0 8
  let w1 := fieldLE b 8 8
  { srcPost := bits w0 63 52, source := bits w0 51 36, sys := bit w0 35, tenant := bits w0 34 29, len := bits w0 28 23,
    mark := bits w1 63 32, dest := bits w1 31 0, body := slice b 16 48 }

/-- Postcode, class and number of a pigeonhole address (Table 15-2). -/
def phPost (d : Nat) : Nat := bits d 31 20
/-- Class. -/
def phClass (d : Nat) : Nat := bits d 19 16
/-- Number. -/
def phNum (d : Nat) : Nat := bits d 15 0

/-- The letter comes from an engine: source class 5 (Table 15-1). -/
def fromEngine (l : Letter) : Bool := l.source / 8192 == 5

/-! ### Threads as receivers -/

/-- Lent threads are the last K of each core (R32). -/
def isLent (s : State) (th : Nat) : Bool := decide (16 - s.sea.kernelK ≤ th % 16)

/-- A register written; x0 discards. -/
def setX (rd : Nat) (v : W64) (t : Thread) : Thread := if rd = 0 then t else { t with x := smSet 0 t.x rd v }

/-- A thread held in ewait resumes once a letter is held, with the count held in its result register (R353). -/
def wakeEwait (t : Thread) : Thread :=
  match t.run with
  | .waitLetter _ _ rd => { setX rd (BitVec.ofNat 64 t.box.length) t with run := .running, pc := (t.pc + 4) % 2 ^ 64 }
  | _ => t

/-- What delivery did with a letter. -/
inductive Delivery where
  | done
  /-- An engine's knock found every slot full and stays in its engine. -/
  | kept
deriving DecidableEq, Repr

/-- Delivery to a thread of a running cluster (Tables 15-3 and 15-6). -/
def deliverThread (l : Letter) (n : Nat) (s : State) : Delivery × State :=
  let t := thread s n
  if isLent s n ∧ (t.run = .off ∨ t.run = .stopped) then (.done, bump (ent 0xC090 5) s)
  else if l.sys || (t.kern && t.tenant == l.tenant) then
    if t.box.length < 8 then
      (.done, bump (ent 0xC090 2) (onThread n (fun t => wakeEwait { t with box := t.box ++ [l] }) s))
    else if fromEngine l then (.kept, s)
    else
      let ovf := (smGetD t.csr 0x8CA 0).toNat
      (.done, bump (ent 0xC090 3) (onThread n (fun t =>
        { t with csr := smSet 0 t.csr 0x8CA (BitVec.ofNat 64 (satCount 32 ovf 1)) }) s))
  else (.done, bump (ent 0xC090 4) s)

/-- State of a cluster's power domain. -/
def clState (s : State) (c : Nat) : ClState := smGetD s.pwr.clusters c .run

/-- The cluster cannot take letters directly (R359): gated, being gated, or with held letters still to pass. -/
def clHolds (s : State) (c : Nat) : Bool :=
  match clState s c with
  | .run => !(smGetD s.pwr.holding c []).isEmpty
  | .clockGated _ => false
  | _ => true

/-- A gated cluster starts its wake; one being gated wakes when its entry completes (R358, R359). Its die's clock
starts. -/
def startWake (c : Nat) (s : State) : State :=
  let d := dieOfCluster s c
  { s with pwr := { s.pwr with
      clusters := if clState s c = .powerGated then smPut s.pwr.clusters c .waking else s.pwr.clusters
      wakeWanted := if clState s c = .gating then insNat s.pwr.wakeWanted c else s.pwr.wakeWanted
      dieStopped := delNat s.pwr.dieStopped d, dieIdle := smDel s.pwr.dieIdle d } }

/-- A cluster whose clock is gated runs again (Table 15-7); its idle time restarts. -/
def ungate (c : Nat) (s : State) : State :=
  { s with pwr := { s.pwr with
      clusters := match clState s c with
        | .clockGated _ => smDel s.pwr.clusters c
        | _ => s.pwr.clusters
      clLast := smPut s.pwr.clLast c s.clk.now } }

/-- A letter for a thread of a gated cluster goes to a holding slot and starts the wake (R359). -/
def holdLetter (l : Letter) (c n : Nat) (s : State) : Delivery × State :=
  let h := smGetD s.pwr.holding c []
  if h.length < 8 then
    (.done, startWake c { s with pwr := { s.pwr with holding := smPut s.pwr.holding c (h ++ [l]) } })
  else if fromEngine l then (.kept, s)
  else (.done, bump (ent 0xC090 0xA) { s with pwr := { s.pwr with
          heldOvf := smPut s.pwr.heldOvf c (smGetD s.pwr.heldOvf c [] ++ [n]) } })

/-- The management controller boosts (R364). -/
def boost (s : State) : State := { s with pwr := { s.pwr with boosted := true, mcIdle := s.clk.now } }

/-- A letter put into the management controller's pigeonhole while a slot is free (Table 15-3). -/
def intoController (l : Letter) (s : State) : State :=
  if s.pwr.mcBox.length < 256 then { s with pwr := { s.pwr with mcBox := s.pwr.mcBox ++ [l] } } else s

/-- A letter put into the security engine's pigeonhole while a slot is free (Table 15-3). -/
def intoSecurity (l : Letter) (s : State) : State :=
  if s.pwr.seBox.length < 64 then { s with pwr := { s.pwr with seBox := s.pwr.seBox ++ [l] } } else s

/-- A letter that has reached a pigeonhole of this node (R355). -/
def deliver (l : Letter) (s : State) : Delivery × State :=
  let n := phNum l.dest
  match phClass l.dest with
  | 1 =>
    if n / 16 < nCores s then
      if clHolds s (clusterOf n) then holdLetter l (clusterOf n) n s
      else deliverThread l n (ungate (clusterOf n) s)
    else (.done, bump (ent 0xC090 5) s)
  | 2 =>
    if l.sys then
      if s.pwr.mcBox.length < 256 then
        (.done, boost (bump (ent 0xC090 2) (intoController l s)))
      else if fromEngine l then (.kept, s)
      else (.done, bump (ent 0xC090 8) s)
    else (.done, bump (ent 0xC090 4) s)
  | 3 =>
    if l.sys then
      if s.pwr.seBox.length < 64 then
        (.done, bump (ent 0xC090 2) (intoSecurity l s))
      else if fromEngine l then (.kept, s)
      else (.done, bump (ent 0xC090 9) s)
    else (.done, bump (ent 0xC090 4) s)
  | 4 =>
    if n < 64 ∧ (l.sys ∨ l.tenant = n) then (.done, addNote n 5 (letterBytes l) (bump (ent 0xC090 2) s))
    else (.done, bump (ent 0xC090 4) s)
  | _ => (.done, bump (ent 0xC090 4) s)

/-- One kept knock tried again; it leaves its engine when it is delivered. -/
def retryKnock (engine : Nat) (l : Letter) (s : State) : State :=
  if ((keptKnocks s engine).find? (fun k => k.dest == l.dest)) = some l then
    match deliver l s with
    | (.done, s') => onKnocks engine (fun ks => ks.erase l) s'
    | (.kept, s') => s'
  else s

/-- Every engine that keeps knocks tries them again, oldest first (Table 15-6). -/
def retryKnocks (s : State) : State :=
  let engines := s.stk.map (fun p => p.1) ++ s.par.knocks.map (fun p => 0x100 + p.1)
  foldS engines (fun e s => foldS (keptKnocks s e) (retryKnock e) s) s

/-- A letter that must go on: delivered here, or kept in its engine. -/
def deliverOrKeep (l : Letter) (s : State) : State :=
  match deliver l s with
  | (.done, s') => s'
  | (.kept, s') => onKnocks (l.source % 8192) (fun ks => ks ++ [l]) s'

end Sys2Proof.Machine
end

