-- ==== Sys2Proof/Machine/Fabops.lean ====
section
/-! DEFINITION. Fabops: the header flit (Table 11-4) and the sending of best-effort messages (R279). -/
namespace Sys2Proof.Machine

/-- The fields of a header flit's words 0 to 3 (Table 11-4). -/
structure Hdr where
  address : Nat
  tag : Nat
  seq : Nat
  kind : Nat
  body : Nat
  dest : Nat
  source : Nat
  tenant : Nat
  tenantC : Nat
  vc : Nat
  stream : Nat
  epochC : Nat
  epoch : Nat
deriving DecidableEq, Repr

/-- Every field within its width. -/
def Hdr.wf (h : Hdr) : Bool :=
  decide (h.address < 2 ^ 64) && decide (h.tag < 2 ^ 32) && decide (h.seq < 2 ^ 32) && decide (h.kind < 16)
    && decide (h.body < 128) && decide (h.dest < 4096) && decide (h.source < 4096) && decide (h.tenant < 64)
    && decide (h.tenantC < 64) && decide (h.vc < 4) && decide (h.stream < 4096) && decide (h.epochC < 2 ^ 32)
    && decide (h.epoch < 2 ^ 32)

/-- Words 0 to 3 of a header. -/
def hdrWords (h : Hdr) : W64 × W64 × W64 × W64 :=
  (BitVec.ofNat 64 (fld h.epochC 32 + h.epoch),
   BitVec.ofNat 64 (fld h.kind 60 + fld h.body 53 + fld h.dest 40 + fld h.source 28 + fld h.tenant 22
     + fld h.tenantC 16 + fld h.vc 14 + h.stream),
   BitVec.ofNat 64 (fld h.tag 32 + h.seq),
   BitVec.ofNat 64 h.address)

/-- The header read from its words. -/
def hdrOf (w0 w1 w2 w3 : W64) : Hdr :=
  let a := w0.toNat
  let b := w1.toNat
  let c := w2.toNat
  { epochC := bits a 63 32, epoch := bits a 31 0, kind := bits b 63 60, body := bits b 59 53, dest := bits b 51 40,
    source := bits b 39 28, tenant := bits b 27 22, tenantC := bits b 21 16, vc := bits b 15 14, stream := bits b 11 0,
    tag := bits c 63 32, seq := bits c 31 0, address := w3.toNat }

/-- The header of a message. -/
def msgHdr (m : FabMsg) : Hdr := hdrOf m.w0 m.w1 m.w2 m.w3

/-- A header the node builds: its own epoch, postcode and the tenant, each with its complement (R281, R323). -/
def ownHdr (s : State) (kind body dest tenant stream tag seq address : Nat) : Hdr :=
  { address := address, tag := tag, seq := seq, kind := kind, body := body, dest := dest, source := recPost s,
    tenant := tenant, tenantC := compl 6 tenant, vc := 0, stream := stream % 4096, epochC := compl 32 (epoch s),
    epoch := epoch s }

/-- A message leaves on its link. -/
def fabOut (m : FabMsg) (s : State) : State := { s with fab := { s.fab with out := s.fab.out ++ [m] } }

/-- A message given to the fabric on a link, in the slot of a scheduled entry (0 for the best-effort class). -/
def fabSend (link slot : Nat) (detour : Bool) (h : Hdr) (inl data : Bytes) (s : State) : State :=
  let w := hdrWords h
  fabOut ⟨link, slot, w.1, w.2.1, w.2.2.1, w.2.2.2, slice inl 0 32, data, detour, false⟩ s

/-! ### The image's header and link plans (Table 11-6, R269, log 44) -/

/-- Word `i` of an image's header. -/
def imgWord (m : Bytes) (i : Nat) : Nat := fieldLE m (8 * i) 8

/-- Nodes in the partition. -/
def imgNodes (m : Bytes) : Nat := bits (imgWord m 2) 15 0
/-- Root postcode. -/
def imgRoot (m : Bytes) : Nat := bits (imgWord m 3) 43 32
/-- Slots per hop, h. -/
def imgHop (m : Bytes) : Nat := bits (imgWord m 3) 31 24
/-- Topology code. -/
def imgTopology (m : Bytes) : Nat := bits (imgWord m 3) 3 0
/-- Torus size in a dimension, 0 x, 1 y, 2 z. -/
def imgDim (m : Bytes) (k : Nat) : Nat := bits (imgWord m 3) (4 * k + 7) (4 * k + 4) + 1

/-- Offset and length of a node's section, from the node directory. -/
def imgSection (m : Bytes) (post : Nat) : Option (Nat × Nat) :=
  let recs := (upFrom 0 (imgNodes m)).map (fun i => imgWord m 7 + 16 * i)
  (recs.find? (fun o => fieldLE m o 2 % 4096 == post)).map (fun o => (fieldLE m (o + 8) 8, fieldLE m (o + 4) 4))

/-- A link's record in a node's plan; none without a section. -/
def linkPlan (m : Bytes) (post link : Nat) : Option Nat := (imgSection m post).map (fun p => fieldLE m (p.1 + 8 * link) 8)

/-- Links of a node whose plan satisfies a test. -/
def planLinks (m : Bytes) (post : Nat) (p : Nat → Bool) : List Nat :=
  (upFrom 0 36).filter (fun k => (linkPlan m post k).any p)

/-- Parent link of a node, none at the root. -/
def parentLink (m : Bytes) (post : Nat) : Option Nat := (planLinks m post (fun r => bit r 22)).head?
/-- Standby parent link. -/
def standbyLink (m : Bytes) (post : Nat) : Option Nat := (planLinks m post (fun r => bit r 23)).head?
/-- Parent of a node. -/
def parentOf (m : Bytes) (post : Nat) : Option Nat :=
  (parentLink m post).bind (fun k => (linkPlan m post k).map (fun r => bits r 11 0))
/-- Nodes whose parent is `post`. -/
def kidsOf (m : Bytes) (post : Nat) : List Nat :=
  let posts := (upFrom 0 (imgNodes m)).map (fun i => fieldLE m (imgWord m 7 + 16 * i) 2 % 4096)
  posts.filter (fun p => p != post && parentOf m p == some post)

/-! ### Links (Table 11-3) -/

/-- A link of which nothing has trained. -/
def LinkSt.init : LinkSt :=
  { ready := false, peer := false, attempts := 0, downs := [], pending := false, detoured := false, asked := [],
    announced := none, tries := [], toAsk := [], toLose := [], credit0 := 256, credit1 := 256 }

/-- A link. -/
def linkSt (s : State) (k : Nat) : LinkSt := smGetD s.fab.links k LinkSt.init

/-- A link changed. -/
def onLink (k : Nat) (f : LinkSt → LinkSt) (s : State) : State :=
  { s with fab := { s.fab with links := smPut s.fab.links k (f (linkSt s k)) } }

/-- Subentry of a link's object. -/
def linkObj (k sub : Nat) : Nat := ent (0x8100 + k) sub

/-- State of a link (Table 11-15). -/
def linkState (s : State) (k : Nat) : Nat := dirNum s (linkObj k 1)

/-- The link carries best-effort traffic: IN_SERVICE, SHORT or LATE. -/
def carriesBe (s : State) (k : Nat) : Bool := decide (2 ≤ linkState s k) && decide (linkState s k ≤ 4)

/-! ### Routing of the best-effort class (R278, R279) -/

/-- Number `k` of a torus postcode (Table 0-5). -/
def coord (post k : Nat) : Nat := bits post (11 - 4 * k) (8 - 4 * k)

/-- Steps along a ring of `n`: true for +, by the shorter way, ties +. -/
def stepPlus (n a b : Nat) : Bool := decide (2 * ((b + n - a % n) % n) ≤ n)

/-- Whether a step of a ring crosses its wrap. -/
def crossesWrap (n a : Nat) (plus : Bool) : Bool := if plus then a + 1 == n else a == 0

/-- In a tree, the child of `own` above `dest`, none when `dest` lies elsewhere. -/
def childToward (m : Bytes) (own : Nat) : Nat → Nat → Option Nat
  | 0, _ => none
  | fuel + 1, dest => match parentOf m dest with
    | some p => if p = own then some dest else childToward m own fuel p
    | none => none

/-- Links of the next hop towards a node, and whether it crosses a wrap link. -/
def nextHop (m : Bytes) (own dest : Nat) : List Nat × Bool :=
  if own = dest then ([], false)
  else match imgTopology m with
  | 0 =>
    match [0, 1, 2].find? (fun k => coord own k != coord dest k) with
    | some k =>
      let n := imgDim m k
      let plus := stepPlus n (coord own k) (coord dest k)
      (upFrom (6 * (2 * k + (if plus then 0 else 1))) 6, crossesWrap n (coord own k) plus)
    | none => ([], false)
  | 1 =>
    let n := max 1 (imgNodes m)
    let plus := stepPlus n own dest
    (upFrom (if plus then 0 else 18) 18, crossesWrap n own plus)
  | 2 => (upFrom (if own < dest then 0 else 18) 18, false)
  | _ => match childToward m own (imgNodes m) dest with
    | some c => ((upFrom 6 30).filter (fun k => (linkPlan m own k).any (fun r => bits r 11 0 == c)), false)
    | none => (upFrom 0 6, false)

/-- Link a best-effort message takes, and whether it crosses a wrap link; none while no link of the group serves. -/
def beRoute (s : State) (stream dest : Nat) : Option (Nat × Bool) :=
  let g := nextHop s.fab.image (recPost s) dest
  let l := g.1.filter (carriesBe s)
  if l.isEmpty then none else some (l.getD ((stream ^^^ dest) % l.length) 0, g.2)

/-- A waiting best-effort message leaves when its link has credits for it; a link that lacks them keeps its later
messages back too. -/
def tryHeld (p : List Nat × State) (m : FabMsg) : List Nat × State :=
  let s := p.2
  let keep := fun (b : List Nat) => (b, { s with fab := { s.fab with held := s.fab.held ++ [m] } })
  let h := msgHdr m
  match beRoute s h.stream h.dest with
  | none => keep p.1
  | some (k, wrap) =>
    let n := 1 + h.body
    let vc := if wrap || h.vc = 1 then 1 else 0
    let c := if vc = 1 then (linkSt s k).credit1 else (linkSt s k).credit0
    if p.1.contains k || decide (c < n) then keep (k :: p.1)
    else
      let w := hdrWords { h with vc := vc }
      let s := onLink k (fun x => if vc = 1 then { x with credit1 := x.credit1 - n } else { x with credit0 := x.credit0 - n }) s
      (p.1, fabOut { m with link := k, slot := 0, w1 := w.2.1 } s)

/-- Waiting best-effort messages tried again, oldest first. -/
def flushHeld (s : State) : State :=
  (s.fab.held.foldl tryHeld ([], { s with fab := { s.fab with held := [] } })).2

/-- A message handed to the best-effort class. -/
def bePut (m : FabMsg) (s : State) : State := flushHeld { s with fab := { s.fab with held := s.fab.held ++ [m] } }

/-- A best-effort message from a source number to a node, with the next sequence of that pair (R279). -/
def beSend (kind src dest tenant tag address : Nat) (inl data : Bytes) (s : State) : State :=
  let k := src * 4096 + dest
  let q := smGetD s.fab.seqs k 0
  let h := ownHdr s kind (ceilDiv data.length 64) dest tenant src tag q address
  let w := hdrWords h
  bePut ⟨0, 0, w.1, w.2.1, w.2.2.1, w.2.2.2, slice inl 0 32, data, false, false⟩
    (bump (ent 0x8010 8) { s with fab := { s.fab with seqs := smSet 0 s.fab.seqs k ((q + 1) % 2 ^ 32) } })

/-- A letter to another node: one LETTER header with words 0 to 3 inline and one body flit (R352). -/
def sendRemoteLetter (l : Letter) (s : State) : State :=
  let b := letterBytes l
  beSend 7 (l.source % 8192) (phPost l.dest) l.tenant 0 0 (b.take 32) b s

end Sys2Proof.Machine
end

