-- ==== Sys2Proof/Machine/SeaOps.lean ====
section
/-! DEFINITION. SeaOps: thread contexts, faults, address translation, caches and the accesses built on them (R29 to R55). -/
namespace Sys2Proof.Machine

/-! ### Registers -/

/-- Integer register; x0 reads zero. -/
def rx (t : Thread) (r : Nat) : W64 := if r = 0 then 0 else smGetD t.x r 0
/-- Floating register. -/
def rf (t : Thread) (r : Nat) : W64 := smGetD t.f r 0
/-- Vector register. -/
def rv (t : Thread) (r : Nat) : V512 := smGetD t.v (r % 32) 0
/-- CSR as a number. -/
def rcsr (t : Thread) (a : Nat) : Nat := (smGetD t.csr a 0).toNat
/-- Floating register written. -/
def setF (r : Nat) (v : W64) (t : Thread) : Thread := { t with f := smSet 0 t.f r v }
/-- Vector register written. -/
def setV (r : Nat) (v : V512) (t : Thread) : Thread := { t with v := smSet 0 t.v (r % 32) v }
/-- CSR written. -/
def setCsr (a : Nat) (v : Nat) (t : Thread) : Thread := { t with csr := smSet 0 t.csr a (BitVec.ofNat 64 v) }

/-- mstatus.XS, FS and VS fields (R35, R77). -/
def mXS (t : Thread) : Nat := bits (rcsr t 0x300) 16 15
/-- FS. -/
def mFS (t : Thread) : Nat := bits (rcsr t 0x300) 14 13
/-- VS. -/
def mVS (t : Thread) : Nat := bits (rcsr t 0x300) 10 9
/-- mstatus with VS Dirty. -/
def dirtyVS (t : Thread) : Thread := setCsr 0x300 (rcsr t 0x300 ||| 0x600) t
/-- mstatus with FS Dirty. -/
def dirtyFS (t : Thread) : Thread := setCsr 0x300 (rcsr t 0x300 ||| 0x6000) t
/-- Program counter moved past an instruction of `n` bytes. -/
def advance (n : Nat) (t : Thread) : Thread := { t with pc := (t.pc + n) % 2 ^ 64 }

/-- The thread may issue: running, its cluster neither gated nor waking, its core in service. -/
def canIssue (s : State) (th : Nat) : Bool :=
  let t := thread s th
  t.run == .running && clState s (clusterOf th) == .run && !s.sea.coresOut.contains (coreOf th)
    && !(t.kern && s.sea.pausedOn.contains (coreOf th, t.tenant))

/-- Issue cycles of the round charged to a kernel thread's tenant on its core (R58). -/
def charge (th : Nat) (s : State) : State :=
  let t := thread s th
  if t.kern then
    let k := coreOf th * 64 + t.tenant
    { s with sea := { s.sea with spent := smPut s.sea.spent k (smGetD s.sea.spent k 0 + 1) } }
  else s

/-- A register is the target of an outstanding remote load or AMO: an instruction that uses it waits (R30). -/
def regBusy (t : Thread) (xs fs vs : List Nat) : Bool :=
  t.remote.any (fun r => match r.kind with
    | .loadInt rd _ _ => rd != 0 && xs.contains rd
    | .amo rd _ => rd != 0 && xs.contains rd
    | .loadFp rd _ => fs.contains rd
    | .loadVec v _ _ => vs.contains v
    | .ack => false)

/-- The state in which an instruction of a thread acts: the issue is charged and the cluster's idle time starts anew. -/
def issued (th : Nat) (s : State) : State :=
  charge th { s with pwr := { s.pwr with clLast := smPut s.pwr.clLast (clusterOf th) s.clk.now } }

/-- A meaning that runs on a thread: no effect unless the thread can issue. -/
def onIssue (th : Nat) (f : State → State) (s : State) : State := if canIssue s th then f (issued th s) else s

/-- As `onIssue`, for an instruction that uses the listed integer, floating and vector registers. -/
def onRegs (th : Nat) (xs fs vs : List Nat) (f : State → State) (s : State) : State :=
  if regBusy (thread s th) xs fs vs then s else onIssue th f s

/-- Whom a thread's accesses are for. -/
def whoTh (s : State) (th : Nat) : Who :=
  let t := thread s th
  ⟨t.req % 2 ^ 32, if t.kern then some t.tenant else none⟩

/-! ### Exceptions (R55, Table 2-8) -/

/-- Causes of the exceptions of Table 2-8. -/
def causeFetch : Nat := 1
/-- Illegal instruction. -/
def causeIllegal : Nat := 2
/-- Load misaligned. -/
def causeLoadMis : Nat := 4
/-- Load access. -/
def causeLoad : Nat := 5
/-- Store misaligned. -/
def causeStoreMis : Nat := 6
/-- Store access. -/
def causeStore : Nat := 7

/-- Body of the KERNEL_FAULT NOTE (Table 13-10). -/
def faultNote (pm cause pc mtval th status : Nat) : Bytes :=
  leBytes 8 pm ++ leBytes 8 cause ++ leBytes 8 pc ++ leBytes 8 mtval ++ leBytes 2 th ++ leBytes 1 status ++ zeros 5

/-- An exception of Table 2-8: the cause, pc and value are saved in the thread's mcause, mepc and mtval, a KERNEL_RUN's
tenant gets its NOTE, the thread stops, and the request that owns it ends with the status (R55). -/
def takeFault (th cause status mtval : Nat) (s : State) : State :=
  let t := thread s th
  let s := onThread th (fun t => setCsr 0x343 mtval (setCsr 0x341 t.pc (setCsr 0x342 cause t))) s
  let s := match req? s t.req with
    | some r => whenS (r.type == 0x0401) (addNote r.tenant 1 (faultNote r.pm cause t.pc mtval th status)) s
    | none => s
  let s := onThread th stopThread s
  failReq t.req status s

/-- Illegal instruction with the word in mtval (R35, R77). -/
def illegal (th : Nat) (w : W32) (s : State) : State := takeFault th causeIllegal 0x10 w.toNat s

/-! ### Translation (R45 to R49) -/

/-- Where an access goes. -/
inductive Tr where
  /-- Local physical address with its attribute: 0 CACHED, 1 STREAM, 2 UNCACHED. -/
  | loc (a attr : Nat)
  | rem (post a : Nat)
  /-- Access fault with BAD_ENVELOPE. -/
  | bad
  /-- Segment entry complement mismatch: access fault with MEMORY_ERROR. -/
  | mismatch
deriving DecidableEq, Repr

/-- Access kinds. -/
inductive AccKind where
  | ld | st | fetch
deriving DecidableEq, Repr

/-- Segment entry in force; unlisted: zeros with the complements of zeros. -/
def segEntry (s : State) (t g : Nat) : SegEntry :=
  smGetD s.mem.segs (t * 128 + g) ⟨0, 2 ^ 64 - 1, 0, 2 ^ 64 - 1⟩

/-- The entry's words agree with their complements (R48). -/
def segGood (e : SegEntry) : Bool := e.c0 == compl 64 e.w0 && e.c1 == compl 64 e.w1

/-- Permission bit of an entry for an access: r [58], w [57], x [56] (Table 2-7). -/
def segPerm (e : SegEntry) : AccKind → Bool
  | .ld => bit e.w0 58
  | .st => bit e.w0 57
  | .fetch => bit e.w0 56

/-- Length of a segment in bytes (Table 2-7). -/
def segLen (e : SegEntry) : Nat := (bits e.w1 27 0 + 1) * 4096

/-- A local address that user mode may reach through a segment (Table 2-6). -/
def userReach (s : State) (a : Nat) : Bool :=
  match region s a with
  | .stack _ _ => true
  | .scratch _ _ => true
  | _ => false

/-- User-mode translation of an access of `n` bytes (R46 to R49). -/
def translateUser (s : State) (th va n : Nat) (k : AccKind) : Tr :=
  let t := thread s th
  if 2 ^ 47 ≤ va then .bad
  else
    let g := bits va 46 40
    let off := bits va 39 0
    if g = 127 then
      if off + n ≤ 0x20000 ∧ k ≠ .fetch then .loc (storeBase (coreOf th) + 0x60000 + off) 2 else .bad
    else
      let e := segEntry s t.tenant g
      if !segGood e then .mismatch
      else
        let attr := bits e.w0 53 52
        let post := bits e.w0 51 40
        let a := bits e.w0 39 0 * 4096 + off
        if !bit e.w0 63 || !segPerm e k || decide (segLen e < off + n) || attr == 3 then .bad
        else if post = recPost s then
          if !userReach s a || (k == .fetch && attr != 0) then .bad else .loc a attr
        else if k = .fetch then .bad else .rem post a

/-- Machine-mode use of a global address (R46): the own node's stacks are CACHED, everything else UNCACHED (R53). -/
def translateMachine (s : State) (va : Nat) (k : AccKind) : Tr :=
  let post := bits va 63 52
  let a := bits va 51 0
  if post = recPost s then
    match region s a with
    | .stack _ _ => .loc a 0
    | .none => .bad
    | _ => if k = .fetch then .bad else .loc a 2
  else if k = .fetch then .bad else .rem post a

/-- Translation of a thread's access (R46). -/
def translate (s : State) (th va n : Nat) (k : AccKind) : Tr :=
  if (thread s th).user then translateUser s th va n k else translateMachine s va k

/-- Exception cause of a failed access of a kind. -/
def accCause : AccKind → Nat
  | .ld => causeLoad
  | .st => causeStore
  | .fetch => causeFetch

/-! ### Caches (R37, R38, R49) -/

/-- Key of a line in a cluster's caches. -/
def lineKey (cl a : Nat) : Nat := cl * 2 ^ 34 + a / 64

/-- Lines a cluster holds. -/
def clusterLines (s : State) (cl : Nat) : SMap Line := s.mem.lines.filter (fun p => p.1 / 2 ^ 34 == cl)

/-- A line written back to its home with its bytes; it stays in the cache, clean. -/
def writeBackLine (w : Who) (key : Nat) (s : State) : State :=
  match smGet? s.mem.lines key with
  | some l =>
    if l.dirty then
      let a := key % 2 ^ 34 * 64
      let r := demandWrite w false a (leBytes 64 l.data.toNat) s
      { r.2 with mem := { r.2.mem with lines := smPut r.2.mem.lines key { l with dirty := false } } }
    else s
  | none => s

/-- A line dropped from its cache. -/
def dropLine (key : Nat) (s : State) : State := { s with mem := { s.mem with lines := smDel s.mem.lines key } }

/-- Room for one more line: a full cluster (16 MiB) evicts a STREAM line first, else one the spec leaves open. -/
def makeRoom (w : Who) (cl : Nat) (s : State) : State :=
  let ls := clusterLines s cl
  if ls.length < 262144 then s
  else
    let st := ls.filter (fun p => p.2.stream)
    let pool := if st.isEmpty then ls else st
    let d := draw s
    match pool[Config.choose d.1 pool.length % pool.length]? with
    | some p => dropLine p.1 (writeBackLine w p.1 d.2)
    | none => d.2

/-- A stream slot changed. -/
def onStream (k : Nat) (f : Stream → Stream) (s : State) : State :=
  match smGet? s.sea.streams k with
  | some z => { s with sea := { s.sea with streams := smPut s.sea.streams k (f z) } }
  | none => s

/-- A demand hit on a prefetched line: its stream runs 8 lines further ahead, up to 64 (R41). -/
def demandHit (cl key : Nat) (s : State) : State :=
  match smGet? s.mem.lines key with
  | some l =>
    if l.pf = 0 then s
    else
      onStream (cl * 64 + l.pf - 1) (fun z =>
        if z.declared then z
        else { z with aheadLines := min 64 (z.aheadLines + 8), unused := z.unused - 1, lastUse := s.clk.now,
                      cur := key % 2 ^ 34 * 64 })
        { s with mem := { s.mem with lines := smPut s.mem.lines key { l with pf := 0 } } }
  | none => s

/-- Lowest free stream slot of a cluster. -/
def freeSlot (s : State) (cl : Nat) : Option Nat :=
  (upFrom 0 64).find? (fun i => (smGet? s.sea.streams (cl * 64 + i)).isNone)

/-- An automatic stream as it starts (R41). -/
def autoStream (a : Nat) (stride : Int) (endLine now : Nat) : Stream :=
  { declared := false, th := 0, req := 0, ringMode := false, listKind := false, source := a, dest := 0, count := 0,
    stride := stride, ahead := 0, ring := 0, issued := 0, delivered := 0, released := 0, held := [], failed := 0,
    nextLine := ((a : Int) + stride).toNat, aheadLines := 8, unused := 0, lastUse := now, endLine := endLine, cur := a }

/-- Whether a segment in force covers a local byte. -/
def segCovers (s : State) (t a g : Nat) : Bool :=
  let e := segEntry s t g
  let b := bits e.w0 39 0 * 4096
  segGood e && bit e.w0 63 && bits e.w0 51 40 == recPost s && decide (b ≤ a) && decide (a < b + segLen e)

/-- Last byte an automatic stream of a thread may reach: the end of the segment of the training access, and for machine
mode the end of the stack (R41). -/
def trainEnd (s : State) (th a : Nat) : Nat :=
  let t := thread s th
  let whole := a / 0x1000000000 * 0x1000000000 + 0xFFFFFFFFF
  if t.user then
    match (upFrom 0 127).find? (segCovers s t.tenant a) with
    | some g => bits (segEntry s t.tenant g).w0 39 0 * 4096 + segLen (segEntry s t.tenant g) - 1
    | none => whole
  else whole

/-- L2 demand misses train an automatic stream: after `prefetch_train` misses at one stride of at most 2 KiB it starts
in a free slot (R41). -/
def trainMiss (lim cl a : Nat) (s : State) : State :=
  if !dirFlag s (ent 0xC010 3) then s
  else
    let line := a / 64 * 64
    let t := smGetD s.sea.train cl ⟨0, 0, 0⟩
    let d : Int := (line : Int) - t.last
    let near := decide (d ≠ 0) && decide (d.natAbs ≤ 2048)
    let n := if near && d == t.stride then t.misses + 1 else if near then 2 else 1
    let s1 := { s with sea := { s.sea with train := smPut s.sea.train cl ⟨line, if near then d else 0, n⟩ } }
    if near && decide (dirNum s (ent 0xC010 4) ≤ n) then
      match freeSlot s1 cl with
      | some i => { s1 with sea := { s1.sea with
          streams := smPut s1.sea.streams (cl * 64 + i) (autoStream line d lim s.clk.now) } }
      | none => s1
    else s1

/-- A line brought into the cluster's L2 (status 0), or the status that ends the request. -/
def cacheFill (w : Who) (lim cl a : Nat) (stream : Bool) (s : State) : Nat × State :=
  let key := lineKey cl a
  if (smGet? s.mem.lines key).isSome then (0, demandHit cl key s)
  else
    let s := trainMiss lim cl a s
    let base := a / 64 * 64
    let bytes := fixedRead s base 64
    let r := demandRead w base 64 s
    if r.1 = 0 then
      let s := makeRoom w cl r.2
      (0, { s with mem := { s.mem with lines := smPut s.mem.lines key ⟨BitVec.ofNat 512 (leNat bytes), false, stream, 0⟩ } })
    else r

/-- Bytes of a cached line. -/
def lineBytes (s : State) (cl a n : Nat) : Bytes :=
  match smGet? s.mem.lines (lineKey cl a) with
  | some l => slice (leBytes 64 l.data.toNat) (a % 64) n
  | none => zeros n

/-- Bytes written into a cached line, which becomes dirty. -/
def lineWrite (cl a : Nat) (b : Bytes) (stream : Bool) (s : State) : State :=
  let key := lineKey cl a
  let old := match smGet? s.mem.lines key with
    | some l => leBytes 64 l.data.toNat
    | none => zeros 64
  { s with mem := { s.mem with
      lines := smPut s.mem.lines key ⟨BitVec.ofNat 512 (leNat (patch old (a % 64) b)), true, stream, 0⟩ } }

/-- Reservations of other threads on the written line are lost (R49, log 12). -/
def breakResv (th a : Nat) (s : State) : State :=
  { s with sea := { s.sea with threads := s.sea.threads.map (fun p =>
      match p.2.resv with
      | some r => if p.1 ≠ th ∧ r / 64 = a / 64 then (p.1, { p.2 with resv := none }) else p
      | none => p) } }

/-- Bytes read at a local address within one line, with the status that ends the request (0 none). -/
def readLocal (th a n attr : Nat) (s : State) : Nat × Bytes × State :=
  let w := whoTh s th
  if attr < 2 ∧ inStack a then
    let r := cacheFill w (trainEnd s th a) (clusterOf th) a (attr == 1) s
    (r.1, lineBytes r.2 (clusterOf th) a n, r.2)
  else
    let r := demandRead w a n s
    (r.1, fixedRead s a n, r.2)

/-- Bytes written at a local address within one line. A CACHED or STREAM store to a row that is not sealed goes to the
stack under Table 5-10; otherwise the line is allocated and becomes dirty. -/
def writeLocal (th a attr : Nat) (b : Bytes) (s : State) : Nat × State :=
  let w := whoTh s th
  let s := breakResv th a s
  if attr < 2 ∧ inStack a then
    if (smGet? s.mem.lines (lineKey (clusterOf th) a)).isNone ∧ (rowUnsealed s (rowId a) ∨ rowBroken s (rowId a)) then
      demandWrite w false a b s
    else if b.length = 64 then (0, lineWrite (clusterOf th) a b (attr == 1) (makeRoom w (clusterOf th) s))
    else
      let r := cacheFill w (trainEnd s th a) (clusterOf th) a (attr == 1) s
      if r.1 = 0 then (0, lineWrite (clusterOf th) a b (attr == 1) r.2) else r
  else demandWrite w false a b s

/-! ### Remote accesses (R52) -/

/-- A tag for a best-effort message of a thread. -/
def newTag (s : State) : Nat := s.sea.nextTag

/-- The next tag. -/
def stepTag (s : State) : State := { s with sea := { s.sea with nextTag := s.sea.nextTag % 0x7FFFFFFF + 1 } }

/-- Inline bytes of a READ or WRITE (log 13): bytes 0 and 1 the length, byte 2 the AMO operation plus one (0 none), bytes 8 to
31 up to 24 bytes of data. -/
def accInline (n op : Nat) (data : Bytes) : Bytes := leBytes 2 n ++ leBytes 1 op ++ zeros 5 ++ slice data 0 24

/-- A remote access leaves in the best-effort class and is outstanding until its answer (R52). -/
def sendRemote (th va kind post a n op : Nat) (data : Bytes) (what : RemKind) (s : State) : State :=
  let t := thread s th
  let tag := newTag s
  let s := stepTag s
  let s := beSend kind th post t.tenant tag (fld post 52 + a) (accInline n op data) (if data.length ≤ 24 then [] else data) s
  onThread th (fun t => { t with remote := t.remote ++ [⟨tag, what, va, s.clk.now⟩], remoteUsed := true }) s

/-- Store data of a thread are all acknowledged: no acknowledgement is awaited (R51). -/
def storesAcked (t : Thread) : Bool := t.remote.all (fun r => r.kind != .ack)

end Sys2Proof.Machine
end

