-- ==== Sys2Proof/Machine/CircOps.lean ====
section
/-! DEFINITION. CircOps: circular programs, their checks at load, their execution in the banks of a stack, sealing and
output (R109 to R136). -/
namespace Sys2Proof.Machine

/-! ### Micro-operation words (Table 5-3) -/

/-- Fields of a micro-operation word. -/
structure Mic where
  op : Nat
  d : Nat
  src : Nat
  rail : Nat
  qbit : Nat
  ra : Nat
  rb : Nat
  imm : Nat
deriving DecidableEq, Repr

/-- Every field within its width. -/
def Mic.wf (m : Mic) : Bool :=
  decide (m.op < 64) && decide (m.d < 2) && decide (m.src < 4) && decide (m.rail < 4) && decide (m.qbit < 256)
    && decide (m.ra < 65536) && decide (m.rb < 65536) && decide (m.imm < 8192)

/-- The 64-bit word of a micro-operation. -/
def micWord (m : Mic) : W64 :=
  BitVec.ofNat 64 (fld m.op 58 + fld m.d 57 + fld m.src 55 + fld m.rail 53 + fld m.qbit 45 + fld m.ra 29 + fld m.rb 13
    + m.imm)

/-- The fields of a 64-bit word. -/
def micOf (w : W64) : Mic :=
  let n := w.toNat
  { op := bits n 63 58, d := bits n 57 57, src := bits n 56 55, rail := bits n 54 53, qbit := bits n 52 45,
    ra := bits n 44 29, rb := bits n 28 13, imm := bits n 12 0 }

/-- Row cycles of an operation (Table 5-4). -/
def micCycles (m : Mic) : Nat :=
  if m.op ≤ 2 then 0 else if m.op = 0x1D ∨ m.op = 0x1E then m.imm else 1

/-- Format of one word on its own (Tables 5-3 and 5-4): known op, and the fields it may hold. -/
def micFormat (m : Mic) : Bool :=
  match m.op with
  | 0x00 => true
  | 0x01 => true
  | 0x02 => m.rail != 3 && m.qbit != 0
  | 0x0E => m.src == 0 && m.rail == 0
  | 0x0F => m.src == 0 && m.rail != 3
  | 0x10 => m.src != 3 && m.rail != 3
  | 0x11 => m.src != 3 && m.rail != 3 && decide (m.qbit < 16)
  | 0x18 => decide (m.src < 2) && decide (m.rail < 2)
  | 0x1C => decide (m.src < 2) && m.rail == 0
  | 0x1D => decide (m.src < 2) && decide (1 ≤ m.imm) && decide (m.imm ≤ 60)
  | 0x1E => decide (m.src < 2) && decide (1 ≤ m.imm) && decide (m.imm ≤ 60) && m.imm % 2 == 0
  | op => decide (0x08 ≤ op) && decide (op ≤ 0x0D) && m.src != 3 && m.rail != 3

/-- Row field that src chooses. -/
def micRow (m : Mic) : Nat := if m.src = 1 then m.rb else m.ra

/-- Partner row (Table 5-3: row XOR 1). -/
def partner (r : Nat) : Nat := r ^^^ 1

/-- A word as it runs in iteration `i` of a REPEAT with the given strides and query step (R116); the query bit wraps
in its eight bits (log 14). -/
def micAt (m : Mic) (sa sb : Int) (q i : Nat) : Mic :=
  { m with ra := ((m.ra : Int) + i * sa).toNat, rb := ((m.rb : Int) + i * sb).toNat, qbit := (m.qbit + i * q) % 256 }

/-- Rows of a word stay from 0 to 65,535 in iteration `i` (Table 5-9 FORMAT). -/
def micRowsIn (m : Mic) (sa sb : Int) (i : Nat) : Bool :=
  let a := (m.ra : Int) + i * sa
  let b := (m.rb : Int) + i * sb
  let n : Int := if m.op = 0x1D ∨ m.op = 0x1E then m.imm - 1 else 0
  decide (0 ≤ a) && decide (a + n ≤ 65535) && decide (0 ≤ b) && decide (b + n ≤ 65535)

/-- RCHK and SEALC stand at even rows in iteration `i`. -/
def micEven (m : Mic) (sa sb : Int) (i : Nat) : Bool :=
  if m.op = 0x1C ∨ m.op = 0x1E then micRow (micAt m sa sb 0 i) % 2 == 0 else true

/-- Iterations at which a linear row sequence takes its extreme and parity values. -/
def keyIters (n : Nat) : List Nat := [0, 1 % n, (n - 2) % n, (n - 1) % n]

/-- Row that a WR names. -/
def wrRow (m : Mic) : Nat := if m.rail = 1 then partner (micRow m) else micRow m

/-- Widening of a row range. -/
def footAdd (f : Option (Nat × Nat)) (r : Nat) : Option (Nat × Nat) :=
  match f with
  | none => some (r, r)
  | some (lo, hi) => some (min lo r, max hi r)

/-- What the check of a program gathers. -/
structure PCheck where
  /-- Row cycles of the present step, and the largest step so far. -/
  cur : Nat
  big : Nat
  /-- An END was met. -/
  ended : Bool
  /-- A FORMAT fault was met. -/
  bad : Bool
  /-- A REPEAT with imm zero was met. -/
  zero : Bool
  foot : Option (Nat × Nat)
deriving DecidableEq, Repr

/-- One pass over words that run once, with given strides, as iteration `i`. -/
def passBody (sa sb : Int) (i : Nat) : List Mic → PCheck → PCheck
  | [], c => c
  | m :: t, c =>
    let e := micAt m sa sb 0 i
    let c := { c with bad := c.bad || !micFormat m || !micRowsIn m sa sb i || !micEven m sa sb i || m.op == 0 || m.op == 2,
                      foot := if m.op = 0x18 then footAdd c.foot (wrRow e) else c.foot }
    let c := if m.op = 1 then { c with cur := 0 }
             else { c with cur := c.cur + micCycles m, big := max c.big (c.cur + micCycles m) }
    passBody sa sb i t c

/-- A body run `n` times: with no STEP in it, its cycles add up; with one, each iteration is passed like the first two
and the last, which meet every step length that occurs. -/
def passRepeat (n : Nat) (sa sb : Int) (body : List Mic) (c : PCheck) : PCheck :=
  let c1 := (keyIters n).foldl (fun c i => passBody sa sb i body c) c
  if body.any (fun m => m.op == 1) then c1
  else
    let cyc := (body.map micCycles).foldl (· + ·) 0
    let total := c.cur + n * cyc
    { c1 with cur := total, big := max c.big total }

/-- The check of a program (R121, Table 5-9), word by word; fuel is its length. -/
def passProg : Nat → List Mic → PCheck → PCheck
  | 0, _, c => c
  | fuel + 1, ws, c =>
    match ws with
    | [] => c
    | m :: t =>
      if m.op = 0 then { c with ended := true }
      else if m.op = 2 then
        let body := t.take m.qbit
        let c := { c with bad := c.bad || !micFormat m || decide (body.length < m.qbit), zero := c.zero || m.imm == 0 }
        let c := if m.imm = 0 then c
                 else passRepeat m.imm (sgn 16 m.ra) (sgn 16 m.rb) body c
        passProg fuel (t.drop m.qbit) c
      else passProg fuel t (passBody 0 0 0 [m] c)

/-- The check of a whole program. -/
def checkProg (ws : List Mic) : PCheck := passProg ws.length ws ⟨0, 0, false, false, false, none⟩

/-! ### Loading (R118 to R121, Table 5-9) -/

/-- Number of stacks in a mask. -/
def maskCount (m : Nat) : Nat := popcount 16 m

/-- Bytes of a candidate block that lists `n` columns (R105). -/
def blockBytes (n : Nat) : Nat := 64 * ceilDiv (16 + 2 * n) 64

/-- Ring size that a descriptor needs (Table 5-9, code 0x04). -/
def ringNeed (mask limit : Nat) : Nat := maskCount mask * (64 + 1024 * blockBytes limit)

/-- Local part of a global address. -/
def localOf (a : Nat) : Nat := a % 2 ^ 52

/-- The ring lies in a local store or an L2 scratch (Table 5-7). -/
def ringPlaced (s : State) (a : Nat) : Bool :=
  match region s a with
  | .store _ _ => true
  | .scratch _ _ => true
  | _ => false

/-- Program pairs read from memory: word, then complement. -/
def pairsOf (b : Bytes) : List (W64 × W64) :=
  (chunks 16 b).map (fun c => (BitVec.ofNat 64 (fieldLE c 0 8), BitVec.ofNat 64 (fieldLE c 8 8)))

/-- A latch record read from its 64 bytes (R119). -/
def latchOf (b : Bytes) : LatchRec :=
  ⟨BitVec.ofNat 256 (fieldLE b 0 32), fieldLE b 32 2, fieldLE b 34 2, bit (fieldLE b 36 1) 0⟩

/-- The reserved bytes of a latch record are zero (R119). -/
def latchClean (b : Bytes) : Bool := decide (fieldLE b 36 1 < 2) && allZero (slice b 37 27)

/-- Descriptor words (Table 5-7). -/
def dword (b : Bytes) (i : Nat) : Nat := fieldLE b (8 * i) 8

/-- Format of a descriptor on its own (Table 5-9, code 0x02). -/
def descFormat (b : Bytes) : Bool :=
  let w4 := dword b 4
  let w5 := dword b 5
  dword b 7 == 0 && bits (dword b 6) 63 32 == 0 && bits w5 63 13 == 0 && bits w4 31 15 == 0
    && bits w5 12 11 != 3 && decide (1 ≤ bits w5 10 0) && decide (bits w5 10 0 ≤ 1024) && bits w4 63 48 != 0
    && (if bit w4 14 then decide (1 ≤ bits w4 13 0) && decide (bits w4 13 0 ≤ 8192) else bits w4 13 0 == 0)
    && dword b 0 % 16 == 0 && dword b 2 % 64 == 0

/-- A checked end seal needs a footprint made of whole pairs (Table 5-9). -/
def footPairs (endSeal : Nat) (f : Option (Nat × Nat)) : Bool :=
  match f with
  | some (lo, hi) => endSeal != 2 || (lo % 2 == 0 && hi % 2 == 1)
  | none => true

/-- The circular that a descriptor, a program and latch records describe, with its footprint. -/
def circOf (b : Bytes) (prog : List (W64 × W64)) (latch : SMap LatchRec) (req : Nat) : Circ :=
  let w4 := dword b 4
  let w5 := dword b 5
  { seq := bits (dword b 3) 31 0, mask := bits w4 63 48, prog := prog, latch := latch, ring := localOf (dword b 2),
    ringBytes := bits (dword b 3) 63 32, ringPos := 0, hit := bit w4 14, hitRow := bits w4 47 32, limit := bits w4 13 0,
    endSeal := bits w5 12 11, knock := bits (dword b 6) 31 0, descBad := false, started := false, req := req }

/-- The latch table's records of one stack, from its bytes. -/
def latchesOf (b : Bytes) : SMap LatchRec := numbered ((chunks 64 b).map latchOf)

/-- Who loads: the owning request's tag. -/
def whoReq (s : State) (rid : Nat) : Who := ⟨rid % 2 ^ 32, reqTenant s rid⟩

/-- Refusal code of a load, with the circular when it is accepted, and the state after its reads. -/
def checkLoad (k addr rid : Nat) (s : State) : Nat × Option Circ × State :=
  let w := whoReq s rid
  let a := localOf addr
  if addr % 64 ≠ 0 then (2, none, s)
  else
    let r1 := demandRead w a 64 s
    let desc := fixedRead s a 64
    if r1.1 ≠ 0 then (3, none, r1.2)
    else if !descFormat desc then (2, none, r1.2)
    else
      let n := bits (dword desc 5) 10 0
      let pa := localOf (dword desc 0)
      let r2 := demandRead w pa (16 * n) r1.2
      let prog := pairsOf (fixedRead r1.2 pa (16 * n))
      let la := localOf (dword desc 1) + k * 0x10000
      let hasL := dword desc 1 != 0
      let r3 := if hasL then demandRead w la 0x10000 r2.2 else (0, r2.2)
      let lb := if hasL then fixedRead r2.2 la 0x10000 else []
      if r2.1 ≠ 0 ∨ r3.1 ≠ 0 ∨ prog.any (fun p => p.2 != ~~~p.1) then (3, none, r3.2)
      else
        let c := checkProg (prog.map (fun p => micOf p.1))
        let circ := circOf desc prog (latchesOf lb) rid
        if c.zero || !c.ended || decide (60 < c.big) then (1, none, r3.2)
        else if c.bad || !footPairs circ.endSeal c.foot || (chunks 64 lb).any (fun b => !latchClean b)
            || !ringPlaced s circ.ring then (2, none, r3.2)
        else if circ.ringBytes < ringNeed circ.mask circ.limit then (4, none, r3.2)
        else if 4 ≤ (seqr r3.2 k).queue.length then (5, none, r3.2)
        else (0, some circ, r3.2)

/-- Status with which the owning request of a refused load ends (Table 5-9); 0 not ended. -/
def refusalStatus (code : Nat) : Nat :=
  match code with
  | 1 => 0x45
  | 2 => 0x10
  | 3 => 0x41
  | 4 => 0x10
  | _ => 0

/-! ### Banks -/

/-- Banks of a stack in service. -/
def banksIn (s : State) (k : Nat) : List Nat := (upFrom 0 1024).filter (fun b => !(seqr s k).banksOut.contains b)

/-- A row of a bank as stored: column c is bit c. -/
def rowBits (s : State) (k b r : Nat) : Row := BitVec.ofNat 8192 (leNat (memRead s (rowAddr k b r) 1024))

/-- A row of a bank overwritten by a circular: the data changes, the row is unsealed (R126). -/
def rowStore (k b r : Nat) (v : Row) (s : State) : State :=
  setUnsealed (rowId (rowAddr k b r)) true (memWrite (rowAddr k b r) (leBytes 1024 v.toNat) s)

/-- A row sealed: fresh check bits from its data, unsealed bit cleared (R128). -/
def rowSeal (k b r : Nat) (s : State) : State :=
  setUnsealed (rowId (rowAddr k b r)) false (freshCheck (rowAddr k b r) 1024 s)

/-- Whether the pair at even row `r` holds complements in every column (R133). -/
def pairGood (s : State) (k b r : Nat) : Bool := rowBits s k b r ^^^ rowBits s k b (r + 1) == BitVec.allOnes 8192

/-- Latch A or B of a bank. -/
def latchVal (q : Seqr) (d b : Nat) : Row := if d = 0 then smGetD q.latchA b 0 else smGetD q.latchB b 0

/-- Latch A or B of a bank written. -/
def setLatch (d b : Nat) (v : Row) (q : Seqr) : Seqr :=
  if d = 0 then { q with latchA := smSet 0 q.latchA b v } else { q with latchB := smSet 0 q.latchB b v }

/-- Latch record of a bank; unlisted invalid. -/
def latchRec (c : Circ) (b : Nat) : LatchRec := smGetD c.latch b ⟨0, 0, 0, false⟩

/-- Row that an operand names in a bank, under its rail (Table 5-3). -/
def railRow (m : Mic) (row : Nat) (query : BitVec 256) : Nat :=
  match m.rail with
  | 1 => partner row
  | 2 => if query.toNat.testBit m.qbit then row else partner row
  | _ => row

/-- The operand of a word in a bank: a row, or the other latch (R115). -/
def operandOf (s : State) (k b : Nat) (c : Circ) (m : Mic) : Row :=
  if m.src = 2 then latchVal (seqr s k) (1 - m.d) b
  else rowBits s k b (railRow m (micRow m) (latchRec c b).query)

/-- Bitwise majority of three rows. -/
def majRow (x y z : Row) : Row := (x &&& y) ||| (x &&& z) ||| (y &&& z)

/-- Every column set to one bit. -/
def fillRow (v : Bool) : Row := if v then BitVec.allOnes 8192 else 0

/-- New value of the destination latch (Table 5-4). -/
def latchNew (s : State) (k b : Nat) (c : Circ) (m : Mic) : Row :=
  let l := latchVal (seqr s k) m.d b
  let o := operandOf s k b c m
  match m.op with
  | 0x08 => o
  | 0x09 => l &&& o
  | 0x0A => l ||| o
  | 0x0B => l ^^^ o
  | 0x0C => ~~~(l ^^^ o)
  | 0x0D => l &&& ~~~o
  | 0x0E => ~~~l
  | 0x0F => majRow l (rowBits s k b (railRow m m.ra (latchRec c b).query)) (rowBits s k b m.rb)
  | 0x10 => fillRow ((latchRec c b).query.toNat.testBit m.qbit)
  | 0x11 => fillRow ((latchRec c b).threshold.testBit (m.qbit % 16))
  | _ => l

/-- A latch operation in every bank in service. -/
def latchOp (k : Nat) (c : Circ) (m : Mic) (s : State) : State :=
  foldS (banksIn s k) (fun b s => onSeqr k (setLatch m.d b (latchNew s k b c m)) s) s

/-- WR in every bank in service (Table 5-4). -/
def wrOp (k : Nat) (m : Mic) (s : State) : State :=
  foldS (banksIn s k) (fun b s =>
    let l := latchVal (seqr s k) m.d b
    if m.rail = 1 then rowStore k b (partner (micRow m)) (~~~l) s else rowStore k b (micRow m) l s) s

/-- A bank's rail fault at a row (R133): named in the completion record, recorded once per circular. -/
def railFault (k b r : Nat) (s : State) : State :=
  if (seqr s k).faulted.contains b then s
  else
    let s := onSeqr k (fun q => { q with faulted := insNat q.faulted b,
                                         railFaults := smPut q.railFaults b (smGetD q.railFaults b 0 + 1) }) s
    bump (ent 0x7010 8) (raise (errOf 5 1 2 k (fld (k * 1024 + b) 50 + fld r 32) 0 none) s)

/-- RCHK in every bank in service (R133). -/
def rchkOp (k r : Nat) (s : State) : State :=
  foldS (banksIn s k) (fun b s => if pairGood s k b r then s else railFault k b r s) s

/-- SEAL of rows in every bank in service (R128). -/
def sealOp (k : Nat) (rows : List Nat) (s : State) : State :=
  foldS (banksIn s k) (fun b s => foldS rows (rowSeal k b) s) s

/-- Checked seal of one pair of one bank: a pair that fails stays unsealed and is reported (R128, Table 5-12). -/
def sealPair (k b r : Nat) (s : State) : State :=
  if pairGood s k b r then rowSeal k b (r + 1) (rowSeal k b r s)
  else
    let s := onSeqr k (fun q => { q with sealFail := q.sealFail + 1 }) s
    bump (ent 0x7010 9) (raise (errOf 6 1 2 k (fld (k * 1024 + b) 50 + fld r 32) 0 none) s)

/-- SEALC of pairs from an even row (R128). -/
def sealcOp (k r n : Nat) (s : State) : State :=
  foldS (banksIn s k) (fun b s => foldS (upFrom 0 (n / 2)) (fun i s => sealPair k b (r + 2 * i) s) s) s

/-- The checked end seal (R128): as SEALC, over the pairs of a footprint of which a bank holds a row unsealed. -/
def sealUnsealed (k r n : Nat) (s : State) : State :=
  foldS (banksIn s k) (fun b s => foldS (upFrom 0 (n / 2)) (fun i s =>
    let e := r + 2 * i
    if rowUnsealed s (rowId (rowAddr k b e)) || rowUnsealed s (rowId (rowAddr k b (e + 1))) then sealPair k b e s else s) s) s

/-! ### The sequencer -/

/-- The running circular of a stack. -/
def running? (s : State) (k : Nat) : Option Circ :=
  if (seqr s k).phase = .idle then none else (seqr s k).queue.head?

/-- The present word with its complement as stored. -/
def pairNow (s : State) (k : Nat) (c : Circ) : Option (W64 × W64) := c.prog[(seqr s k).pcw]?

/-- The present word as it runs: inside a REPEAT, with its strides (R116). -/
def micNow (q : Seqr) (w : W64) : Mic :=
  match q.loop with
  | some l => micAt (micOf w) l.sa l.sb l.qstep l.iter
  | none => micOf w

/-- The program position after the present word (R116). -/
def micNext (q : Seqr) : Seqr :=
  match q.loop with
  | some l =>
    if q.pcw + 1 = l.first + l.len then
      if l.iter + 1 < l.times then { q with pcw := l.first, loop := some { l with iter := l.iter + 1 } }
      else { q with pcw := q.pcw + 1, loop := none }
    else { q with pcw := q.pcw + 1 }
  | none => { q with pcw := q.pcw + 1 }

/-- A stack stops its circular with a status; its completion record follows (R134, R135). -/
def stopCirc (k status : Nat) (s : State) : State :=
  onSeqr k (fun q => { q with phase := .compact, status := status, loop := none, aborting := false }) s

/-- A program word or descriptor field disagrees with its complement (Table 5-12, Table 18-3). -/
def compStop (k : Nat) (s : State) : State :=
  stopCirc k 1 (raise (errOf 7 1 2 k 0 0x41 none) (raise (errOf 3 1 2 k 0 0x41 none) s))

/-- A micro-operation command: the present word of the stack's running circular is issued if its operation is `op`;
its complement is checked first (R114); `f` is its effect. -/
def issueMic (k op : Nat) (f : Circ → Mic → State → State) (s : State) : State :=
  match running? s k with
  | some c =>
    match (seqr s k).phase, pairNow s k c with
    | .run, some (w, cw) =>
      if (micOf w).op ≠ op then s
      else if cw ≠ ~~~w ∨ c.descBad then compStop k s
      else
        let m := micNow (seqr s k) w
        f c m (onSeqr k (fun q => { q with cyc := q.cyc + micCycles m }) s)
    | _, _ => s
  | none => s

/-- A word that computes in the banks, then moves on. -/
def bankMic (k op : Nat) (f : Circ → Mic → State → State) (s : State) : State :=
  issueMic k op (fun c m s => onSeqr k micNext (f c m s)) s

/-- Refreshes fallen due run at a step boundary (R123). -/
def stepRefresh (k : Nat) (s : State) : State :=
  if (seqr s k).refreshDue then
    bump (ent 0x7010 3) (onSeqr k (fun q => { q with refreshDue := false, refreshes := q.refreshes + 1 }) s)
  else s

/-- A step boundary (R123): due refreshes first, then what waits for the stack's banks, then the next step, unless an
abort waits (R135). -/
def stepBoundary (k : Nat) (s : State) : State :=
  let s := bump (ent 0x7010 2) (onSeqr k (fun q => { q with steps := q.steps + 1, cyc := 0 }) (stepRefresh k s))
  let s := flushWriteBacks s
  if (seqr s k).aborting then stopCirc k 3 s else onSeqr k micNext s

/-- Rows of a footprint that some bank in service holds unsealed. -/
def footRows (f : Nat × Nat) : List Nat := upFrom f.1 (f.2 + 1 - f.1)

/-- The end seal (R128): every unsealed row of the footprint, plainly or in pairs, in steps of at most 60 rows. -/
def endSealOp (k : Nat) (c : Circ) (s : State) : State :=
  match (seqr s k).foot with
  | none => s
  | some f =>
    if c.endSeal = 0 then s
    else
      let rows := footRows f
      let s := if c.endSeal = 1 then
          foldS (banksIn s k) (fun b s => foldS (rows.filter (fun r => rowUnsealed s (rowId (rowAddr k b r)))) (rowSeal k b) s) s
        else sealUnsealed k f.1 rows.length s
      let n := ceilDiv rows.length 60
      bumpBy (ent 0x7010 2) n (onSeqr k (fun q => { q with steps := q.steps + n }) s)

/-! ### Output (R105, R132) -/

/-- Columns set in a hit row, rising. -/
def hitCols (v : Row) : List Nat := setBits 8192 v.toNat

/-- A candidate block (Table 4-11). -/
def candBlock (k b tag hits limit seq : Nat) (cols : List Nat) : Bytes :=
  let listed := cols.take limit
  let n := listed.length
  let w0 := fld (k * 1024 + b) 50 + fld tag 34 + fld (b01 (decide (limit < hits))) 33 + fld hits 14 + n
  let body := leBytes 8 w0 ++ leBytes 8 (fld seq 32) ++ listed.flatMap (leBytes 2)
  body ++ List.replicate (blockBytes n - body.length) 0xFF

/-- First byte of a stack's own share of the ring (log 15): the ring is shared out in stack order. -/
def ringBase (c : Circ) (k : Nat) : Nat :=
  c.ring + popcount 16 (c.mask % 2 ^ k) * (64 + 1024 * blockBytes c.limit)

/-- The running circular's ring position moved on. -/
def ringStep (n : Nat) : List Circ → List Circ
  | h :: t => { h with ringPos := h.ringPos + n } :: t
  | [] => []

/-- Bytes written into the ring by a base die, with fresh check bits. -/
def ringWrite (k : Nat) (c : Circ) (b : Bytes) (s : State) : State :=
  let pos := match (seqr s k).queue.head? with
    | some h => h.ringPos
    | none => 0
  let s := freshCheck (ringBase c k + pos) b.length (memWrite (ringBase c k + pos) b s)
  onSeqr k (fun q => { q with queue := ringStep b.length q.queue }) s

/-- Compaction of one bank's hit row (R105, R106): a bank that is invalid or rail-faulted, or has no bit set, writes
nothing. Returns the number of blocks written. -/
def compactBank (k : Nat) (c : Circ) (b : Nat) (p : Nat × State) : Nat × State :=
  let s := p.2
  let l := latchRec c b
  let cols := hitCols (rowBits s k b c.hitRow)
  if !l.valid || (seqr s k).faulted.contains b || cols.isEmpty then p
  else
    let s := ringWrite k c (candBlock k b l.tag cols.length c.limit c.seq cols) s
    (p.1 + 1, whenS (decide (c.limit < cols.length)) (bump (ent 0xC030 5)) s)

/-- Fault entries of a completion record: eight 32-bit words (Table 5-11). -/
def faultWords (k : Nat) (c : Circ) (fs : List Nat) : Bytes :=
  let es := (fs.take 8).map (fun b => fld 1 31 + fld (k * 1024 + b) 16 + (latchRec c b).tag)
  (es ++ List.replicate (8 - es.length) 0).flatMap (leBytes 4)

/-- The completion record (Table 5-11). -/
def completionBytes (s : State) (k : Nat) (c : Circ) (blocks : Nat) : Bytes :=
  let q := seqr s k
  leBytes 8 (fld k 60)
    ++ leBytes 8 (fld c.seq 32 + fld q.status 24 + fld (min 8191 q.sealFail) 11 + blocks)
    ++ leBytes 8 (fld q.steps 32 + fld (q.refreshes % 65536) 16 + min 1024 q.faulted.length)
    ++ leBytes 8 (timestamp s) ++ faultWords k c q.faulted

/-- Resource entries after banks are taken out (Table 1-4): every bank holds 64 MiB. -/
def refreshResources (s : State) : State :=
  let out := (upFrom 0 16).foldl (fun n k => n + if (seqr s k).out then 1024 else (seqr s k).banksOut.length) 0
  dirSet (ent 0x1002 5) (16384 - out) (dirSet (ent 0x1002 4) ((1048576 - out * 64) / 1024) s)

/-- A bank taken out of service until the next cold boot (Table 5-12, R414). -/
def bankOut (k b : Nat) (s : State) : State :=
  if (seqr s k).banksOut.contains b then s
  else
    let s := onSeqr k (fun q => { q with
      banksOut := insNat q.banksOut b
      faulted := if q.phase = .idle then q.faulted else insNat q.faulted b }) s
    let s := raise (errOf 0x13 2 2 k (fld (k * 1024 + b) 50) 0 none) s
    refreshResources (dirSet (ent (0x7020 + k) 5) (seqr s k).banksOut.length s)

/-- A stack taken out of service (Table 5-12). -/
def stackOut (k : Nat) (s : State) : State :=
  refreshResources (raise (errOf 0x13 2 2 k 0 0 none) (onSeqr k (fun q => { q with out := true }) s))

/-- The entries that mirror CSTAT (Table 5-16). -/
def mirrorCstat (k : Nat) (s : State) : State :=
  let q := seqr s k
  dirSet (ent (0x7020 + k) 3) (b01 (q.phase != .idle)) (dirSet (ent (0x7020 + k) 2) q.queue.length s)

/-- The completed circular leaves its queue (R122, R132). -/
def closeCirc (k : Nat) (s : State) : State :=
  onSeqr k (fun q => { q with
    queue := q.queue.drop 1, phase := .idle, pcw := 0, loop := none, steps := 0, cyc := 0,
    refreshes := 0, faulted := [], sealFail := 0, foot := none, status := 0, aborting := false }) s

/-- CSTAT (Table 5-6). -/
def cstatWord (s : State) (k : Nat) : Nat :=
  let q := seqr s k
  fld q.seq 32 + fld q.refusal 16 + fld (b01 q.smiss) 5 + fld (b01 (q.phase != .idle)) 4 + q.queue.length

/-! ### Register writes -/

/-- A write of a descriptor address to CLOAD (R117, R120): the load starts; the stack wakes (Table 15-7). -/
def cloadReg (rid k addr : Nat) (s : State) : State :=
  if k < 16 then touchStack k (onSeqr k (fun q => { q with loads := q.loads ++ [(addr, rid)] }) s) else s

/-- The first circular of a sequence not yet started, started. -/
def startFirst (seq : Nat) (l : List Circ) : List Circ :=
  updFirst (fun c => c.seq == seq && !c.started) (fun c => { c with started := true }) l

/-- CSTART in one stack (R122). -/
def cstartStack (seq k : Nat) (s : State) : State :=
  if (seqr s k).queue.any (fun c => c.seq == seq && !c.started) then
    onSeqr k (fun q => { q with queue := startFirst seq q.queue }) s
  else onSeqr k (fun q => { q with smiss := true }) s

/-- A write to CSTART (Table 5-5): [63:32] sequence, [15:0] stack mask. -/
def cstartReg (v : Nat) (s : State) : State :=
  foldS (setBits 16 (v % 65536)) (cstartStack (bits v 63 32)) s

/-- A write to CABORT (R135): the running circular stops at its next step boundary; queued ones are discarded. -/
def cabortReg (k v : Nat) (s : State) : State :=
  if k < 16 ∧ (seqr s k).queue.any (fun c => c.seq == v % 2 ^ 32) then
    mirrorCstat k (onSeqr k (fun q =>
      if q.phase = .idle then { q with queue := [] }
      else { q with queue := q.queue.take 1,
                    aborting := q.aborting || (q.queue.head?.any (fun c => c.seq == v % 2 ^ 32) && q.phase == .run) }) s)
  else s

/-- A write to CSTAT clears smiss where bit 5 is one (Table 5-6). -/
def cstatReg (k v : Nat) (s : State) : State :=
  if bit v 5 then onSeqr k (fun q => { q with smiss := false }) s else s

end Sys2Proof.Machine
end

