-- ==== Sys2Proof/Machine/FlashOps.lean ====
section
/-! DEFINITION. FlashOps: the media manager: the map, the write buffer, programming, copies, journal, bad blocks, discard
and shred (R225 to R254). -/
namespace Sys2Proof.Machine

/-- The media manager changed. -/
def onFlash (f : Flash → Flash) (s : State) : State := { s with flash := f s.flash }

/-- A command on a channel: its group is ACTIVE and its idle time restarts (Table 15-7). -/
def touchGroup (c : Nat) (s : State) : State :=
  { s with pwr := { s.pwr with groupsStandby := delNat s.pwr.groupsStandby (c / 8),
                               grLast := smPut s.pwr.grLast (c / 8) s.clk.now } }

/-! ### Handles (Table 9-3) -/

/-- Tier of a handle. -/
def hTier (h : Nat) : Nat := bits h 63 62
/-- Format code. -/
def hFormat (h : Nat) : Nat := bits h 61 56
/-- Area of a tier 0b10 handle. -/
def hArea (h : Nat) : Nat := bits h 43 36
/-- Logical parcel of a tier 0b10 handle. -/
def hParcel (h : Nat) : Nat := bits h 35 0
/-- Postcode of a tier 0b01 handle. -/
def hPost (h : Nat) : Nat := bits h 51 40
/-- Local physical address of a tier 0b00 or 0b01 handle. -/
def hAddr (h : Nat) : Nat := bits h 39 0 * 4096
/-- The tier 0b10 handle of an area's logical parcel. -/
def t3Handle (format area parcel : Nat) : Nat :=
  fld 2 62 + fld format 56 + fld (area / 16) 40 + fld (area % 16) 36 + parcel
/-- No reserved field of a handle is set (R211). -/
def hClean (h : Nat) : Bool :=
  hTier h != 3 && decide (hFormat h < 8) && bits h 55 52 == 0
    && (hTier h != 0 || hPost h == 0) && (hTier h != 2 || bits h 51 44 == 0)

/-! ### Areas and channels (R232, R247) -/

/-- An area's descriptor in force. -/
def areaOf (s : State) (a : Nat) : Area := smGetD s.flash.areas a ⟨0xFF, 0, 0⟩

/-- Node logical parcel of an area's parcel, if the area reaches so far (R232). -/
def nlpOf (s : State) (a parcel : Nat) : Option Nat :=
  let d := areaOf s a
  if parcel < 16 * d.units then some (16 * d.base + parcel) else none

/-- Area and logical parcel of a node logical parcel. -/
def areaAt (s : State) (nlp : Nat) : Nat × Nat :=
  match s.flash.areas.find? (fun p => decide (16 * p.2.base ≤ nlp) && decide (nlp < 16 * (p.2.base + p.2.units))) with
  | some p => (p.1, nlp - 16 * p.2.base)
  | none => (0, nlp)

/-- Channel of a node logical parcel. -/
def chanOf (nlp : Nat) : Nat := nlp % 32
/-- Channels of a unit (R233). -/
def unitChan (u j : Nat) : Nat := 16 * (u % 2) + j

/-- A channel is in service. -/
def chanUp (s : State) (c : Nat) : Bool := dirNum s (ent (0x6020 + c) 1) == 1

/-- Substitute of a channel (R247). -/
def substitute (s : State) (c : Nat) : Nat :=
  let v := dirNum s (ent (0x6020 + c) 6)
  if v < 32 then v
  else
    let x := if c < 16 then c + 16 else c - 16
    if chanUp s x then x
    else ((upFrom 1 31).map (fun i => (c + i) % 32)).find? (chanUp s) |>.getD x

/-- Key of data per channel and slot. -/
def slotKey (c slot : Nat) : Nat := c * 2 ^ 31 + slot
/-- Key of data per channel and block. -/
def blkKey (c v : Nat) : Nat := c * 2 ^ 32 + v

/-! ### The map (R233, R234) -/

/-- Slot value that means unmapped in a coarse entry. -/
def cUnmapped : Nat := 0x7FFFFFFF
/-- Lost. -/
def cLost : Nat := 0x7FFFFFFE
/-- Unmapped marker of a fine entry. -/
def fUnmapped : Nat := 0xFFFFFFFF
/-- Lost marker of a fine entry. -/
def fLost : Nat := 0xFFFFFFFE

/-- An entry with its complement. -/
def withCompl (e : Nat) : Nat × Nat := (e, compl 32 e)

/-- Coarse record of a unit; unlisted: unmapped. -/
def coarseRec (m : FMap) (u : Nat) : Nat × Nat := smGetD m.coarse u (withCompl cUnmapped)

/-- What an entry says. -/
inductive Res where
  | unmapped
  | lost
  /-- Failed check or reserved value. -/
  | bad
  | at (chan slot : Nat)
deriving DecidableEq, Repr

/-- A coarse record passes its check and holds no reserved value. -/
def coarseGood (r : Nat × Nat) : Bool := r.2 == compl 32 r.1 && (!bit r.1 31 || decide (bits r.1 30 0 < 2 ^ 25))

/-- Reading of a fine entry for a parcel on `chan`. -/
def fineRes (s : State) (chan : Nat) (f : Nat × Nat) : Res :=
  if f.2 ≠ compl 32 f.1 then .bad
  else if f.1 = fUnmapped then .unmapped
  else if f.1 = fLost then .lost
  else if f.1 = cUnmapped ∨ f.1 = cLost then .bad
  else .at (if bit f.1 31 then substitute s chan else chan) (bits f.1 30 0)

/-- Resolution of a node logical parcel (R234). -/
def resolve (s : State) (nlp : Nat) : Res :=
  let u := nlp / 16
  let r := coarseRec s.flash.map u
  if s.flash.reload.contains u || !coarseGood r then .bad
  else if bit r.1 31 then
    match smGet? s.flash.map.groups (bits r.1 30 0) with
    | some g => match g[nlp % 16]? with
      | some f => fineRes s (chanOf nlp) f
      | none => .bad
    | none => .bad
  else if r.1 = cUnmapped then .unmapped
  else if r.1 = cLost then .lost
  else .at (chanOf nlp) r.1

/-- Group of a split unit. -/
def groupOf (s : State) (u : Nat) : Option Nat :=
  let r := coarseRec s.flash.map u
  if bit r.1 31 then some (bits r.1 30 0) else none

/-- Lowest free overlay group (R233, R236). -/
def freeGroup (s : State) : Option Nat :=
  (upFrom 0 (s.flash.map.groups.length + 1)).find? (fun g =>
    (smGet? s.flash.map.groups g).isNone && decide (g < inForce s (ent 0x6010 0x10)))

/-! ### Journal (R248) -/

/-- Deltas that the ring holds: 256 MiB of 16 bytes. -/
def ringMax : Nat := 2 ^ 24

/-- A delta appended to the journal ring. -/
def delta (d : Delta) (s : State) : State :=
  onFlash (fun f => { f with ring := f.ring ++ [d], since := f.since + 1 }) s

/-- Fine entries of a unit's group, if it is split. -/
def fineOf (s : State) (u : Nat) : Option (List Nat) :=
  match groupOf s u with
  | some g => some ((smGetD s.flash.map.groups g []).map (fun p => p.1))
  | none => none

/-- Delta of a unit's present record. -/
def unitDelta (u : Nat) (s : State) : State := delta (.unit u (coarseRec s.flash.map u).1 (fineOf s u)) s

/-! ### Changing the map -/

/-- A unit's coarse entry set; a group it held is freed. -/
def setCoarse (u e : Nat) (s : State) : State :=
  let g := groupOf s u
  onFlash (fun f => { f with map := {
    coarse := smSet (withCompl cUnmapped) f.map.coarse u (withCompl e)
    groups := match g with
      | some k => if e = 2 ^ 31 + k then f.map.groups else smDel f.map.groups k
      | none => f.map.groups } }) s

/-- A parcel's fine entry set in a split unit. -/
def setFine (nlp e : Nat) (s : State) : State :=
  match groupOf s (nlp / 16) with
  | some g => onFlash (fun f => { f with map := { f.map with
      groups := smPut f.map.groups g ((smGetD f.map.groups g []).set (nlp % 16) (withCompl e)) } }) s
  | none => s

/-- Fine entry that says what a coarse entry said. -/
def fineFrom (e : Nat) : Nat := if e = cUnmapped then fUnmapped else if e = cLost then fLost else e

/-- A coarse unit is split (R236): every fine entry takes the old slot; no data is copied. False when no group is
free. -/
def splitUnit (u : Nat) (s : State) : Bool × State :=
  if (groupOf s u).isSome then (true, s)
  else match freeGroup s with
    | none => (false, s)
    | some g =>
      let e := (coarseRec s.flash.map u).1
      let n := dirNum s (ent 0x6010 0x13)
      let s := dirSet (ent 0x6010 0x13) (n / 2 ^ 32 * 2 ^ 32 + min (2 ^ 32 - 1) (n % 2 ^ 32 + 1)) s
      (true, onFlash (fun f => { f with map := {
        coarse := smPut f.map.coarse u (withCompl (2 ^ 31 + g))
        groups := smPut f.map.groups g (List.replicate 16 (withCompl (fineFrom e))) } }) s)

/-- A merge: the unit's group freed, its entry a row, counted (R237). -/
def mergeUnit (u slot : Nat) (s : State) : State :=
  let n := dirNum s (ent 0x6010 0x13)
  dirSet (ent 0x6010 0x13) (min (2 ^ 32 - 1) (n / 2 ^ 32 + 1) * 2 ^ 32 + n % 2 ^ 32) (setCoarse u slot s)

/-! ### Errors -/

/-- Location word of a flash slot (Table 18-6); the chip enable and LUN lie in the physical block's number. -/
def flashLoc (s : State) (c slot : Nat) : Nat :=
  let v := slot / max 1 s.flash.perBlock
  fld (smGetD s.flash.remap (blkKey c v) v % 2 ^ 32) 16 + slot % max 1 s.flash.perBlock / 4

/-- Handle of a node logical parcel for an error record, format RAW. -/
def lossHandle (s : State) (nlp : Nat) : Nat := t3Handle 0 (areaAt s nlp).1 (areaAt s nlp).2

/-- An error of a flash channel. -/
def flashErr (s : State) (cls sev c slot detail nlp status : Nat) (w : Who) : ErrIn :=
  ⟨cls, sev, 0x3000 + c, flashLoc s c slot, lossHandle s nlp, detail, w.tag, status, w.tenant⟩

/-- The media manager's own work. -/
def whoMedia : Who := ⟨0, none⟩

/-- A parcel is lost (R242): recorded, counted, and its entry, or for want of a group its whole unit, set lost. -/
def setLost (nlp : Nat) (s : State) : State :=
  let u := nlp / 16
  let s := raise ⟨0x0B, 1, 0x6003, 0, lossHandle s nlp, 0, 0, 0, none⟩ (bump (ent 0x6010 0x15) s)
  match splitUnit u s with
  | (true, s) => unitDelta u (setFine nlp fLost s)
  | (false, s) =>
    let e := (coarseRec s.flash.map u).1
    let s := onFlash (fun f => { f with
      salvage := if e < cLost then smPut f.salvage u e else f.salvage
      lostIn := insNat f.lostIn nlp }) s
    unitDelta u (setCoarse u cLost s)

/-- Units set lost whole whose other parcels can be restored now that a group is free (R242). -/
def salvageUnit (p : Nat × Nat) (s : State) : State :=
  if (coarseRec s.flash.map p.1).1 ≠ cLost then onFlash (fun f => { f with salvage := smDel f.salvage p.1 }) s
  else match splitUnit p.1 s with
    | (false, s) => s
    | (true, s) =>
      let s := foldS (upFrom 0 16) (fun j =>
        setFine (16 * p.1 + j) (if s.flash.lostIn.contains (16 * p.1 + j) then fLost else p.2)) s
      unitDelta p.1 (onFlash (fun f => { f with
        salvage := smDel f.salvage p.1, lostIn := f.lostIn.filter (fun n => n / 16 != p.1) }) s)

/-! ### Superblocks and slots (R228, R229, R236, R238) -/

/-- A superblock; unlisted: free. -/
def sblk (s : State) (v : Nat) : SBlk := smGetD s.flash.blocks v ⟨decide (v < s.flash.slcBlocks), 0, 0, [], []⟩

/-- A superblock changed. -/
def onSblk (v : Nat) (g : SBlk → SBlk) (s : State) : State :=
  onFlash (fun f => { f with blocks := smPut f.blocks v (g (sblk s v)) }) s

/-- V in service. -/
def nSuper (s : State) : Nat := dirNum s (ent 0x6010 0xE)

/-- Slots a block offers: a quarter in SLC mode (R229). -/
def blockSlots (s : State) (v : Nat) : Nat := if (sblk s v).slc then s.flash.perBlock / 4 else s.flash.perBlock

/-- Free superblocks of a mode. -/
def freeBlocks (s : State) (slc : Bool) : List Nat :=
  (upFrom 0 (nSuper s)).filter (fun v => (sblk s v).st == 0 && (sblk s v).slc == slc)

/-- A free superblock opened for programming: the media sequence rises by one (R237). -/
def openBlock (slc : Bool) (s : State) : Option (Nat × State) :=
  match (freeBlocks s slc).head? with
  | none => none
  | some v =>
    let q := (dirNum s (ent 0x6010 0xD) + 1) % 2 ^ 32
    some (v, delta .other (dirSet (ent 0x6010 0xD) q
      (onSblk v (fun b => { b with st := 1, seq := q, next := [], erased := [] }) s)))

/-- Which open superblock a kind of job fills. -/
def openOf (s : State) : JobKind → Option Nat
  | .host => s.flash.openHost
  | .journal => s.flash.openHost
  | .fold => s.flash.openFold
  | .gc => s.flash.openGc
  | .other => s.flash.openGc

/-- The open superblock of a kind set. -/
def setOpen (k : JobKind) (v : Option Nat) (s : State) : State :=
  match k with
  | .host => onFlash (fun f => { f with openHost := v }) s
  | .journal => onFlash (fun f => { f with openHost := v }) s
  | .fold => onFlash (fun f => { f with openFold := v }) s
  | .gc => onFlash (fun f => { f with openGc := v }) s
  | .other => onFlash (fun f => { f with openGc := v }) s

/-- Host data and the journal go to SLC superblocks, copies to QLC ones (R238, R240). -/
def kindSlc : JobKind → Bool
  | .host => true
  | .journal => true
  | _ => false

/-- Slots taken at one position on each of some channels of the open superblock of a kind: the superblock and the slot
common to them, with the state after. A superblock without room is closed and another opened. -/
def takeRow (fuel : Nat) (k : JobKind) (cs : List Nat) (s : State) : Option (Nat × Nat × State) :=
  match fuel with
  | 0 => none
  | fuel + 1 =>
    match openOf s k with
    | none => match openBlock (kindSlc k) s with
      | none => none
      | some (v, s) => takeRow fuel k cs (setOpen k (some v) s)
    | some v =>
      let b := sblk s v
      let pos := cs.foldl (fun m c => max m (smGetD b.next c 0)) 0
      if pos < blockSlots s v then
        let nx := cs.foldl (fun m c => smPut m c (pos + 1)) b.next
        some (v, v * s.flash.perBlock + pos, onSblk v (fun b => { b with next := nx }) s)
      else takeRow fuel k cs (setOpen k none (onSblk v (fun b => { b with st := 2 }) s))

/-- Where a parcel of its channel is programmed: the channel, or its substitute with the partner bit (R247). -/
def writeChan (s : State) (c : Nat) : Nat × Nat := if chanUp s c then (c, 0) else (substitute s c, 2 ^ 31)

/-! ### Reading (R209, R231, R234, R243) -/

/-- Latest version of a parcel in the write buffer. -/
def buffered (s : State) (nlp : Nat) : Option FSlot :=
  ((s.flash.buffer.filter (fun w => w.nlp == nlp)).getLast?).map (fun w => w.slot)

/-- 4,096 zero bytes. -/
def zeroParcel : Bytes := zeros 4096

/-- What a read of a parcel needs: nothing from NAND (its bytes, or the status that ends its request), or a page read
at a channel and slot. -/
inductive FRead where
  | now (status : Nat) (data : Bytes)
  | nand (chan slot : Nat)
deriving DecidableEq, Repr

/-- Metadata check of content against the handle asked for (R209, R231): 0, BAD_ENVELOPE for another format, MEDIA_ERROR
for any other difference. -/
def metaCheck (c : FSlot) (handle : Nat) : Nat :=
  if c.handle = handle then 0
  else if c.handle % 2 ^ 56 + fld (hTier c.handle) 62 = handle % 2 ^ 56 + fld (hTier handle) 62 then 0x10 else 0x40

/-- Resolution of a read (R234). -/
def flashRead (s : State) (nlp handle : Nat) : FRead :=
  match buffered s nlp with
  | some c => if metaCheck c handle = 0 then .now 0 c.data else .now (metaCheck c handle) []
  | none => match resolve s nlp with
    | .unmapped => .now 0 zeroParcel
    | .lost => .now 0x40 []
    | .bad => .now 0x41 []
    | .at c k => .nand c k

/-- A map record that failed its check is recorded and will be reloaded (R234). -/
def mapError (nlp : Nat) (w : Who) (s : State) : State :=
  let u := nlp / 16
  raise ⟨3, 1, 0x6003, u, lossHandle s nlp, 0, w.tag, 0x41, w.tenant⟩
    (onFlash (fun f => { f with reload := insNat f.reload u }) s)

/-- A NAND read of a stored codeword that decoded (R231, R209). -/
def readStored (c k nlp handle : Nat) (w : Who) (s : State) : Nat × Bytes × State :=
  match smGet? s.flash.store (slotKey c k) with
  | none => (0x40, [], s)
  | some x =>
    if x.blank then (0, zeroParcel, s)
    else if metaCheck x handle = 0 then (0, x.data, s)
    else if metaCheck x handle = 0x10 then (0x10, [], s)
    else (0x40, [], raise (flashErr s 0x0A 1 c k 0 nlp 0x40 w) s)

/-- Reads of a block counted, its learned level kept, and its refresh wanted where the read asks for it (R243, R244). -/
def noteRead (c k level : Nat) (soft margin : Bool) (s : State) : State :=
  let v := k / max 1 s.flash.perBlock
  let key := blkKey c v
  let n := smGetD s.flash.reads key 0 + 1
  let wear := margin || soft || decide (dirNum s (ent 0x6010 9) < n)
  onFlash (fun f => { f with
    reads := smPut f.reads key n
    level := if level = 0 then f.level else smPut f.level key level
    refresh := if wear then insNat f.refresh v else f.refresh }) (touchGroup c s)

/-- A read that needed a retry level or soft decision: counted, logged and recorded (R243, Table 18-9). -/
def noteRetry (c k level nlp : Nat) (s : State) : State :=
  let s := bump (ent 0x6010 0x14) s
  let s := onDieLog 2 (fun l => { l with retries := smPut l.retries level (smGetD l.retries level 0 + 1) }) s
  raise (flashErr s 8 0 c k level nlp 0 whoMedia) s

/-! ### Bad blocks and failed channels (R241, R245, R247) -/

/-- A block's slots lose their content. -/
def eraseChan (v c : Nat) (s : State) : State :=
  let p := s.flash.perBlock
  onFlash (fun f => { f with store := f.store.filter (fun q =>
    !(q.1 / 2 ^ 31 == c && decide (v * p ≤ q.1 % 2 ^ 31) && decide (q.1 % 2 ^ 31 < (v + 1) * p))) }) (touchGroup c s)

/-- A channel goes out of service (R247). -/
def chanOut (c : Nat) (s : State) : State :=
  if chanUp s c then
    raise ⟨0x13, 2, 0x3000 + c, 0, 0, 0, 0, 0x40, none⟩ (dirSet (ent (0x6020 + c) 1) 2 s)
  else s

/-- A block failure counted against its channel: more than 8 within 2^10 ticks put the channel out (R247). -/
def countFail (c : Nat) (s : State) : State :=
  let l := s.clk.tick :: (smGetD s.flash.fails c []).filter (fun t => decide (s.clk.tick < t + 1024))
  let s := onFlash (fun f => { f with fails := smPut f.fails c l }) s
  whenS (decide (8 < l.length)) (chanOut c) s

/-- A virtual block's physical block is retired (R245): remapped to a spare of its channel, or for want of one the
superblock is retired and V falls by one. True when a spare took over. -/
def retireBlock (c v : Nat) (s : State) : Bool × State :=
  let key := blkKey c v
  let phys := smGetD s.flash.remap key v
  let spare := dirNum s (ent (0x6020 + c) 7)
  let s := bump (ent (0x6020 + c) 8) (raise (flashErr s 0x0C 0 c (v * s.flash.perBlock) 0 0 0 whoMedia) s)
  let s := onFlash (fun f => { f with retired := insNat f.retired (blkKey c phys) }) s
  let s := countFail c (delta .other s)
  if 0 < spare then
    (true, dirSet (ent (0x6020 + c) 7) (spare - 1)
      (onFlash (fun f => { f with remap := smPut f.remap key (nSuper s + spare - 1) }) s))
  else
    (false, dirSet (ent 0x6010 0xE) (nSuper s - 1) (onSblk v (fun b => { b with st := 3 }) s))

/-! ### Programming (R236, R239) -/

/-- A program job started. -/
def addJob (k : JobKind) (sb : Nat) (ms : List Move) (deltas : Nat) (s : State) : State :=
  onFlash (fun f => { f with jobs := f.jobs ++ [⟨f.nextJob, k, sb, ms, false, deltas⟩], nextJob := f.nextJob + 1 })
    (foldS ms (fun m s => touchGroup m.chan s) s)

/-- Parcels of a job already being programmed from the buffer. -/
def inJob (s : State) (nlp : Nat) : Bool :=
  s.flash.jobs.any (fun j => j.kind == .host && j.moves.any (fun m => m.nlp == nlp))

/-- Parcels of a unit in the write buffer, latest version of each, with their positions. -/
def unitBuffered (s : State) (u : Nat) : List (Nat × FSlot) :=
  (upFrom 0 16).filterMap (fun j => (buffered s (16 * u + j)).map (fun c => (j, c)))

/-- The stored content of a parcel, as a row or copy takes it: blank where it is unmapped or cannot be had. -/
def contentOf (s : State) (nlp : Nat) : FSlot :=
  match buffered s nlp with
  | some c => c
  | none => match resolve s nlp with
    | .at c k => smGetD s.flash.store (slotKey c k) ⟨zeroParcel, 0, 0, 0, true⟩
    | _ => ⟨zeroParcel, 0, 0, 0, true⟩

/-- Stamp given to a codeword at programming: the present media sequence (R237). -/
def stamped (s : State) (sb : Nat) (c : FSlot) : FSlot := { c with stamp := (sblk s sb).seq }

/-- One parcel programmed in the next free slot of its channel. -/
def moveOne (k : JobKind) (nlp : Nat) (c : FSlot) (src : Option (Nat × Nat)) (s : State) : State :=
  let ch := (writeChan s (chanOf nlp)).1
  match takeRow 4 k [ch] s with
  | none => s
  | some (sb, slot, s) => addJob k sb [⟨nlp, ch, slot, stamped s sb c, false, src⟩] 0 s

/-- A whole unit programmed as a row (R236); `srcs` gives the sources of a copy. -/
def moveRow (k : JobKind) (u : Nat) (cs : List FSlot) (srcs : List (Option (Nat × Nat))) (s : State) : State :=
  match takeRow 4 k ((upFrom 0 16).map (unitChan u)) s with
  | none => s
  | some (sb, slot, s) =>
    let ms := (numbered (cs.zip srcs)).map (fun p =>
      (⟨16 * u + p.1, unitChan u p.1, slot, stamped s sb p.2.1, true, p.2.2⟩ : Move))
    addJob k sb ms 0 s

/-- A partial write raises its unit's heat; a unit not in the full table replaces the coolest (R237). -/
def addHeat (u : Nat) (s : State) : State :=
  let h := s.flash.heat
  match smGet? h u with
  | some n => onFlash (fun f => { f with heat := smPut f.heat u (n + 1) }) s
  | none =>
    let h := if h.length < 65536 then h
      else match h.find? (fun p => h.all (fun q => decide (p.2 ≤ q.2))) with
        | some p => smDel h p.1
        | none => h
    onFlash (fun f => { f with heat := smPut h u 1 }) s

/-- One unit of the write buffer is programmed (R236). -/
def gatherUnit (u : Nat) (s : State) : State :=
  let ps := unitBuffered s u
  let down := (upFrom 0 16).any (fun j => !chanUp s (unitChan u j))
  let one := fun (p : Nat × FSlot) (s : State) => moveOne .host (16 * u + p.1) p.2 none s
  if ps.any (fun p => inJob s (16 * u + p.1)) then s
  else if ps.length = 16 ∧ !down then moveRow .host u (ps.map (fun p => p.2)) (List.replicate 16 none) s
  else if (groupOf s u).isSome then foldS ps one s
  else
    let s := addHeat u s
    let hot := decide (dirNum s (ent 0x6010 5) ≤ smGetD s.flash.heat u 0) || down
    match (if hot then splitUnit u s else (false, s)) with
    | (true, s) => foldS ps one (unitDelta u s)
    | (false, s) =>
      if down then s
      else moveRow .host u ((upFrom 0 16).map (fun j => contentOf s (16 * u + j))) (List.replicate 16 none) s

/-- Units with parcels in the write buffer. -/
def bufferUnits (s : State) : List Nat := s.flash.buffer.foldl (fun l w => insNat l (w.nlp / 16)) []

/-- The journal ring's deltas start on their way into area 255 (R248). -/
def drainJournal (s : State) : State :=
  if s.flash.ring.isEmpty || s.flash.jobs.any (fun j => j.kind == .journal) then s
  else match takeRow 4 .journal ((upFrom 0 32).filter (chanUp s)) s with
    | none => s
    | some (sb, _, s) => addJob .journal sb [] s.flash.ring.length s

/-- The boundary's programming of the write buffer and the journal. -/
def gatherWrites (s : State) : State := drainJournal (foldS (bufferUnits s) gatherUnit s)

/-- Content stored when a job has programmed. -/
def storeMoves (ms : List Move) (s : State) : State :=
  onFlash (fun f => { f with store := ms.foldl (fun m v => smPut m (slotKey v.chan v.slot) v.cont) f.store }) s

/-- A job wrote this buffered version. -/
def wroteBuf (ms : List Move) (w : WBuf) : Bool :=
  ms.any (fun m => m.nlp == w.nlp && m.cont == { w.slot with stamp := m.cont.stamp })

/-- Buffered versions that a job wrote leave, and with each every older version of its parcel. -/
def unbufList (ms : List Move) : List WBuf → List WBuf
  | [] => []
  | w :: t =>
    if wroteBuf ms w || t.any (fun v => v.nlp == w.nlp && wroteBuf ms v) then unbufList ms t else w :: unbufList ms t

/-- Buffered versions that a job wrote leave the buffer. -/
def unbuffer (ms : List Move) (s : State) : State := onFlash (fun f => { f with buffer := unbufList ms f.buffer }) s

/-- Entry of a parcel programmed at a slot: the partner bit where its own channel does not hold it. -/
def fineEntry (m : Move) : Nat := m.slot + (if m.chan = chanOf m.nlp then 0 else 2 ^ 31)

/-- Entries set for host data that has been programmed (R236): a row sets its coarse entry, others fine entries. -/
def mapHost (ms : List Move) (s : State) : State :=
  match ms with
  | [] => s
  | m :: _ =>
    let u := m.nlp / 16
    if m.row then unitDelta u (setCoarse u m.slot s)
    else unitDelta u (foldS ms (fun m => setFine m.nlp (fineEntry m)) s)

/-- A map with one delta applied. -/
def applyDelta (m : FMap) (ws : List Nat) : Delta → FMap × List Nat
  | .write n => (m, insNat ws n)
  | .other => (m, ws)
  | .unit u e fine =>
    let old := coarseRec m u
    let gs := if bit old.1 31 then smDel m.groups (bits old.1 30 0) else m.groups
    let gs := match fine with
      | some l => if bit e 31 then smPut gs (bits e 30 0) (l.map withCompl) else gs
      | none => gs
    (⟨smSet (withCompl cUnmapped) m.coarse u (withCompl e), gs⟩, ws.filter (fun n => n / 16 != u))

/-- The first `n` deltas of the ring are in flash: the durable map follows them (R248, R250). -/
def journalDone (n : Nat) (s : State) : State :=
  onFlash (fun f =>
    let r := (f.ring.take n).foldl (fun p d => applyDelta p.1 p.2 d) (f.durable, f.durWrites)
    { f with durable := r.1, durWrites := r.2, ring := f.ring.drop n }) s

/-- A checkpoint starts when the journal since the last one has reached its size (R248). -/
def startCheckpoint (s : State) : State :=
  if s.flash.ckpt.isNone ∧ dirNum s (ent 0x6010 0xA) * 2 ^ 26 ≤ s.flash.since then
    onFlash (fun f => { f with ckpt := some f.since }) s
  else s

/-! ### Copies (R238 to R240) -/

/-- Mapped parcels whose entry names a superblock, with their slots. -/
def validIn (s : State) (v : Nat) : List (Nat × Nat × Nat) :=
  let p := max 1 s.flash.perBlock
  s.flash.map.coarse.flatMap (fun q => (upFrom (16 * q.1) 16).filterMap (fun nlp =>
    match resolve s nlp with
    | .at c k => if k / p = v then some (nlp, c, k) else none
    | _ => none))

/-- Every parcel of a split unit is older than the merge age (R237), or fewer than 1/16 of the groups are free. -/
def mergeAged (s : State) (u : Nat) : Bool :=
  let age := dirNum s (ent 0x6010 6)
  let q := dirNum s (ent 0x6010 0xD)
  let few := decide (s.flash.map.groups.length * 16 > inForce s (ent 0x6010 0x10) * 15)
  few || (upFrom (16 * u) 16).all (fun nlp =>
    match resolve s nlp with
    | .at c k => match smGet? s.flash.store (slotKey c k) with
      | some x => decide (age < (q + 2 ^ 32 - x.stamp) % 2 ^ 32)
      | none => true
    | _ => true)

/-- One unit's valid parcels of a superblock are copied: rows as rows, merged when aged, else parcel by parcel. -/
def copyUnit (k : JobKind) (ps : List (Nat × Nat × Nat)) (u : Nat) (s : State) : State :=
  let mine := ps.filter (fun p => p.1 / 16 == u)
  let up := (upFrom 0 16).all (fun j => chanUp s (unitChan u j))
  if up && ((groupOf s u).isNone || mergeAged s u) then
    let srcs := (upFrom (16 * u) 16).map (fun nlp =>
      match resolve s nlp with
      | .at c k => some (c, k)
      | _ => none)
    moveRow k u ((upFrom (16 * u) 16).map (fun nlp =>
      match resolve s nlp with
      | .at c k => smGetD s.flash.store (slotKey c k) ⟨zeroParcel, 0, 0, 0, true⟩
      | _ => ⟨zeroParcel, 0, 0, 0, true⟩)) srcs s
  else
    foldS mine (fun p s =>
      match smGet? s.flash.store (slotKey p.2.1 p.2.2) with
      | some x => moveOne k p.1 x (some (p.2.1, p.2.2)) s
      | none => s) s

/-- Valid parcels of a superblock copied into the open superblock of a kind (R239). -/
def copyBlock (k : JobKind) (v : Nat) (s : State) : State :=
  let ps := validIn s v
  let us := ps.foldl (fun l p => insNat l (p.1 / 16)) []
  let n := ps.length
  let s := match k with
    | .fold => bumpBy (ent 0x6010 0x12) n s
    | _ => bumpBy (ent 0x6010 0x11) n s
  foldS us (copyUnit k ps) s

/-- A kind of copy is under way. -/
def copying (s : State) (k : JobKind) : Bool := s.flash.jobs.any (fun j => j.kind == k)

/-- Closed superblocks of a mode, by rising number. -/
def closedBlocks (s : State) (slc : Bool) : List Nat :=
  (upFrom 0 (nSuper s)).filter (fun v => (sblk s v).st == 2 && (sblk s v).slc == slc)

/-- Element with the least key; a tie goes to the first. -/
def argMin (key : Nat → Nat) : List Nat → Option Nat
  | [] => none
  | a :: t => match argMin key t with
    | none => some a
    | some b => if key a ≤ key b then some a else some b

/-- Folding starts while free SLC superblocks are below their share (R238). -/
def startFold (s : State) : State :=
  let total := s.flash.slcBlocks
  if !copying s .fold ∧ (freeBlocks s true).length * 100 < dirNum s (ent 0x6010 2) * total then
    let q := dirNum s (ent 0x6010 0xD)
    match argMin (fun v => 2 ^ 32 - (q + 2 ^ 32 - (sblk s v).seq) % 2 ^ 32)
        ((closedBlocks s true).filter (fun v => !(validIn s v).isEmpty)) with
    | some v => copyBlock .fold v s
    | none => s
  else s

/-- Garbage collection starts while free QLC superblocks are below their share of V (R240). -/
def startGc (s : State) : State :=
  if !copying s .gc ∧ (freeBlocks s false).length * 100 < dirNum s (ent 0x6010 3) * nSuper s then
    match argMin (fun v => (validIn s v).length) (closedBlocks s false) with
    | some v => copyBlock .gc v s
    | none => s
  else s

/-- Refresh of the first superblock that wants it (R244): by its reads, or by the age of its QLC data. -/
def startRefresh (s : State) : State :=
  if copying s .other then s
  else
    let q := dirNum s (ent 0x6010 0xD)
    let old := (closedBlocks s false).find? (fun v => decide (2 ^ 20 < (q + 2 ^ 32 - (sblk s v).seq) % 2 ^ 32))
    match s.flash.refresh.head?.or old with
    | some v => copyBlock .other v (onFlash (fun f => { f with refresh := delNat f.refresh v }) s)
    | none => s

/-- Erase counts of a channel's listed blocks. -/
def wearOf (s : State) (c : Nat) : List Nat :=
  (s.flash.wear.filter (fun p => p.1 / 2 ^ 32 == c)).map (fun p => p.2)

/-- Wear levelling (R246): when a channel's erase counts spread too far, the coldest closed superblock is copied. -/
def startWear (s : State) : State :=
  let gap := dirNum s (ent 0x6010 8)
  let wide := (upFrom 0 32).any (fun c =>
    let l := wearOf s c
    let hi := l.foldl max 0
    let lo := if l.length < nSuper s then 0 else l.foldl min hi
    decide (gap < hi - lo))
  if wide && !copying s .other then
    let q := dirNum s (ent 0x6010 0xD)
    match argMin (fun v => 2 ^ 32 - (q + 2 ^ 32 - (sblk s v).seq) % 2 ^ 32) (closedBlocks s false) with
    | some v => copyBlock .other v s
    | none => s
  else s

/-- One entry of a verified copy switches if it still names its source (R239). -/
def switchOne (m : Move) (s : State) : State :=
  match m.src with
  | none => s
  | some (c, k) =>
    if resolve s m.nlp = .at c k then
      match splitUnit (m.nlp / 16) s with
      | (true, s) => setFine m.nlp (fineEntry m) s
      | (false, s) => s
    else s

/-- A verified job's entries switch (R239): an unchanged row as a row, else entry by entry. -/
def switchJob (j : Job) (s : State) : State :=
  match j.moves with
  | [] => s
  | m :: _ =>
    let u := m.nlp / 16
    let same := j.moves.all (fun m => match m.src with
      | some (c, k) => decide (resolve s m.nlp = .at c k)
      | none => decide (resolve s m.nlp = .unmapped) || decide (resolve s m.nlp = .lost))
    let s :=
      if m.row && same then
        (if (groupOf s u).isSome then mergeUnit u m.slot s else setCoarse u m.slot s)
      else foldS j.moves switchOne s
    unitDelta u s

/-- Every verified copy switches at the round boundary (R239). -/
def switchCopies (s : State) : State :=
  let done := s.flash.jobs.filter (fun j => j.verified)
  foldS done switchJob (onFlash (fun f => { f with jobs := f.jobs.filter (fun j => !j.verified) }) s)

/-- Failed records are reloaded from the checkpoint and journal: the durable map, with the deltas since (R234). -/
def reloadRecords (s : State) : State :=
  let r := s.flash.ring.foldl (fun p d => applyDelta p.1 p.2 d) (s.flash.durable, s.flash.durWrites)
  let one := fun (m : FMap) (u : Nat) =>
    let e := coarseRec r.1 u
    let g := bits e.1 30 0
    (⟨smSet (withCompl cUnmapped) m.coarse u e,
      if bit e.1 31 then smPut m.groups g (smGetD r.1.groups g []) else m.groups⟩ : FMap)
  onFlash (fun f => { f with map := f.reload.foldl one f.map, reload := [] }) s

/-- Area descriptors written since the last boundary take effect (R232). -/
def loadAreas (s : State) : State :=
  let one := fun (m : SMap Area) (a : Nat) =>
    smSet ⟨0xFF, 0, 0⟩ m a ⟨dirNum s (ent (0x6100 + a) 1), dirNum s (ent (0x6100 + a) 2), dirNum s (ent (0x6100 + a) 3)⟩
  onFlash (fun f => { f with areas := (upFrom 0 256).foldl one f.areas }) s

/-- Units up to the highest of any area (R233). -/
def mapUnits (s : State) : Nat :=
  (upFrom 0 256).foldl (fun m a =>
    let n := dirNum s (ent (0x6100 + a) 3)
    if n = 0 then m else max m (dirNum s (ent (0x6100 + a) 2) + n)) 0

/-- T1 that the node reserves for itself, in MiB, with a coarse map of `units` units (R482). -/
def nodeReserve (s : State) (units : Nat) : Nat :=
  let stackN := ((upFrom 0 16).filter (fun k => !(seqr s k).out)).length
  ceilDiv (64 * 2 ^ 20 * stackN + 8 * units + 128 * inForce s (ent 0x6010 0x10) + 2 ^ 28 + 256 * s.flash.physBlocks
    + 64 * s.path.pendCap) (2 ^ 20)

/-- The reserve reported. -/
def showReserve (s : State) : State := dirSet (ent 0x1002 9) (nodeReserve s (mapUnits s)) s

/-! ### Discard (R251) -/

/-- Parcels of one unit within a range of node logical parcels. -/
def unitRange (u lo n : Nat) : List Nat := (upFrom (16 * u) 16).filter (fun p => decide (lo ≤ p) && decide (p < lo + n))

/-- One unit's parcels unmapped (R251): a unit covered whole loses its entry; one covered in part is split, or rewritten
without them. -/
def discardUnit (lo n u : Nat) (s : State) : State :=
  let ps := unitRange u lo n
  let s := onFlash (fun f => { f with buffer := f.buffer.filter (fun w => !ps.contains w.nlp) }) s
  if ps.length = 16 then setCoarse u cUnmapped s
  else if (coarseRec s.flash.map u).1 = cUnmapped then s
  else match splitUnit u s with
    | (true, s) => foldS ps (fun p => setFine p fUnmapped) s
    | (false, s) => moveRow .host u ((upFrom (16 * u) 16).map (fun p =>
        if ps.contains p then ⟨zeroParcel, 0, 0, 0, true⟩ else contentOf s p)) (List.replicate 16 none) s

/-- Units that a range touches and that hold anything. -/
def touchedUnits (s : State) (lo n : Nat) : List Nat :=
  let a := lo / 16
  let b := (lo + n + 15) / 16
  let held := (s.flash.map.coarse.map (fun p => p.1)) ++ s.flash.buffer.map (fun w => w.nlp / 16)
  (held.foldl insNat []).filter (fun u => decide (a ≤ u) && decide (u < b))

/-- Deltas a discard makes: one per unit covered whole, one per parcel of a unit covered in part (R251). -/
def discardDeltas (lo n : Nat) : Nat :=
  let a := (lo + 15) / 16
  let b := (lo + n) / 16
  if a ≤ b then (b - a) + (16 * a - lo) + (lo + n - 16 * b) else n

/-- A discard takes effect. -/
def discard (lo n : Nat) (s : State) : State :=
  foldS (touchedUnits s lo n) (fun u s => unitDelta u (discardUnit lo n u s)) s

/-- Mapped parcels of an area (Table 10-12). -/
def mappedIn (s : State) (a : Nat) : Nat :=
  let d := areaOf s a
  let us := (s.flash.map.coarse.map (fun p => p.1)).filter (fun u => decide (d.base ≤ u) && decide (u < d.base + d.units))
  let inMap := us.flatMap (fun u => (upFrom (16 * u) 16).filter (fun p =>
    match resolve s p with
    | .at c k => (smGet? s.flash.store (slotKey c k)).all (fun x => !x.blank)
    | _ => false))
  let inBuf := (s.flash.buffer.map (fun w => w.nlp)).filter (fun p =>
    decide (16 * d.base ≤ p) && decide (p < 16 * (d.base + d.units)))
  ((inMap ++ inBuf).foldl insNat []).length

/-! ### Writing (R235) -/

/-- A unit on a channel that is out cannot be written for want of a group (R247). -/
def noGroupFor (s : State) (nlp : Nat) : Bool :=
  let u := nlp / 16
  (upFrom 0 16).any (fun j => !chanUp s (unitChan u j)) && (groupOf s u).isNone && (freeGroup s).isNone

/-- Room for a write: buffer, journal ring, and below the urgent level a free superblock (R235, R240, R248). -/
def writeRoom (s : State) : Bool :=
  decide (s.flash.buffer.length < 8192) && decide (s.flash.ring.length < ringMax)
    && (decide (dirNum s (ent 0x6010 4) * nSuper s ≤ (freeBlocks s false).length * 100)
      || s.flash.buffer.isEmpty)

/-- A parcel enters the write buffer and its delta the journal ring: the write is complete and durable (R235). -/
def bufferWrite (nlp handle tenant : Nat) (data : Bytes) (s : State) : State :=
  let w : WBuf := ⟨nlp, ⟨data, handle, tenant % 64, 0, false⟩, s.clk.now⟩
  let kept := s.flash.buffer.filter (fun w => w.nlp != nlp || inJob s nlp)
  delta (.write nlp) (onFlash (fun f => { f with buffer := kept ++ [w] }) s)

end Sys2Proof.Machine
end

