-- ==== Sys2Proof/Machine/ParOps.lean ====
section
/-! DEFINITION. ParOps: handles and places, parcel issue and delivery, descriptors and declared streams (R207 to R222,
R41 to R44). -/
namespace Sys2Proof.Machine

/-! ### Places (R207, R211, R215) -/

/-- A tenant's segment that covers a parcel at a node's local address with a permission (R211). -/
def segAllows (s : State) (t post a : Nat) (k : AccKind) : Bool :=
  (upFrom 0 127).any (fun g =>
    let e := segEntry s t g
    let b := bits e.w0 39 0 * 4096
    segGood e && bit e.w0 63 && segPerm e k && bits e.w0 51 40 == post && decide (b ≤ a)
      && decide (a + 4096 ≤ b + segLen e))

/-- A local address is T0 or T1 of the node. -/
def isT01 (s : State) (a : Nat) : Bool :=
  match region s a with
  | .stack _ _ => true
  | .store _ _ => true
  | .scratch _ _ => true
  | _ => false

/-- Place of a global address: T0 or T1 when the postcode is the node's own, T2 otherwise (R215). -/
def addrPlace (s : State) (a : Nat) : Option Place :=
  if bits a 63 52 = recPost s then (if isT01 s (bits a 51 0) then some (.local (bits a 51 0)) else none)
  else some (.lent (bits a 63 52) (bits a 51 0))

/-- Place of a handle given by machine mode, or by a user-mode thread of `tenant` (R211); none is an access fault. -/
def handlePlace (s : State) (user : Bool) (tenant h : Nat) (k : AccKind) : Option Place :=
  if !hClean h then none
  else match hTier h with
  | 0 =>
    let a := hAddr h
    if isT01 s a && (!user || segAllows s tenant (recPost s) a k) then some (.local a) else none
  | 1 =>
    if !user || segAllows s tenant (hPost h) (hAddr h) k then some (.lent (hPost h) (hAddr h)) else none
  | _ =>
    let d := areaOf s (hArea h)
    if decide (hParcel h < 16 * d.units) && (!user || d.tenant == tenant) then
      some (.flash (hArea h) (hParcel h) (hFormat h))
    else none

/-- Entry `i` of a handle list in local store. -/
def listHandle (s : State) (a i : Nat) : Nat := leNat (fixedRead s (bits a 51 0 + 8 * i) 8)

/-- Place of parcel `i` of one side of a descriptor. -/
def sidePlace (s : State) (kind : Bool) (a i : Nat) (k : AccKind) : Option Place :=
  if kind then handlePlace s false 0 (listHandle s a i) k else addrPlace s (a + 4096 * i)

/-- Whether two places are the same parcel of T3 or the same 4 KiB of T1 or T2 (R216). -/
def samePlace : Place → Place → Bool
  | .local a, .local b => a / 4096 == b / 4096
  | .lent p a, .lent q b => p == q && a / 4096 == b / 4096
  | .flash a p _, .flash b q _ => a == b && p == q
  | _, _ => false

/-- Whether two parcels must be performed in order (R216); parcels of one queue to one lender are too. -/
def ordered (x y : Parcel) : Bool :=
  samePlace x.src y.src || samePlace x.src y.dst || samePlace x.dst y.src || samePlace x.dst y.dst

/-- A parcel waits for an earlier one of the same place. -/
def mustWait (l : List Parcel) (p : Parcel) : Bool := (l.takeWhile (fun q => q.pid != p.pid)).any (fun q => ordered q p)

/-- A parcel in flight. -/
def parcel? (s : State) (pid : Nat) : Option Parcel := s.par.flight.find? (fun p => p.pid == pid)

/-- A parcel in flight changed. -/
def onParcel (pid : Nat) (f : Parcel → Parcel) (s : State) : State :=
  { s with par := { s.par with flight := updFirst (fun p => p.pid == pid) f s.par.flight } }

/-- A parcel leaves the flight list. -/
def dropParcel (pid : Nat) (s : State) : State :=
  { s with par := { s.par with flight := s.par.flight.filter (fun p => p.pid != pid) } }

/-- A place is in T2. -/
def isLentPlace : Place → Bool
  | .lent _ _ => true
  | _ => false

/-- A place is in T3. -/
def isFlashPlace : Place → Bool
  | .flash _ _ _ => true
  | _ => false

/-- Parcels in flight in T2. -/
def t2Flight (s : State) : Nat := (s.par.flight.filter (fun p => isLentPlace p.src || isLentPlace p.dst)).length

/-- Room for one more parcel (R216). -/
def flightRoom (s : State) (src dst : Place) : Bool :=
  decide (s.par.flight.length < 65536) && (!(isLentPlace src || isLentPlace dst) || decide (t2Flight s < 4096))

/-- Time limit of a parcel in frames (Table 9-5, R224); a parcel of T0 or T1 alone has none by default. -/
def parcelLimit (s : State) (limit : Nat) (src dst : Place) : Nat :=
  if limit ≠ 0 then limit
  else if isFlashPlace src || isFlashPlace dst then dirNum s (ent 0xC070 2)
  else if isLentPlace src || isLentPlace dst then dirNum s (ent 0xC070 1)
  else 0

/-- Whom a parcel is for. -/
def whoParcel (s : State) (p : Parcel) : Who :=
  let tag := match p.owner with
    | .desc n a => ((pQueue s n).find? (fun d => d.addr == a)).elim 0 (fun d => d.tag)
    | .path r => r
    | .stream k _ => (smGet? s.sea.streams k).elim 0 (fun z => z.req)
    | .media => 0
  ⟨tag % 2 ^ 32, if p.tenant < 64 then some p.tenant else none⟩

/-- Request that a parcel's owner belongs to, 0 none. -/
def ownerReq (s : State) (o : POwner) : Nat :=
  match o with
  | .desc n a => ((pQueue s n).find? (fun d => d.addr == a)).elim 0 (fun d => d.req)
  | .path r => r
  | .stream k _ => (smGet? s.sea.streams k).elim 0 (fun z => z.req)
  | .media => 0

/-- A built-in path's write: the engine holds the bytes (R216). -/
def giveBytes (pid : Nat) (b : Bytes) (s : State) : State := onParcel pid (fun p => { p with data := some b }) s

/-- A parcel issued (R216). A T2 source is asked of its lender at once; the tag of that message is the parcel's. -/
def issueParcel (owner : POwner) (src dst : Place) (limit tenant : Nat) (s : State) : State :=
  let pid := s.par.next
  let p : Parcel := ⟨pid, owner, src, dst, s.clk.now, parcelLimit s limit src dst, false, none, false, false, tenant⟩
  let s := { s with par := { s.par with flight := s.par.flight ++ [p], next := pid + 1 } }
  match src with
  | .lent post a => beSend 2 0xFFF post (tenant % 64) (pid % 2 ^ 31 + 2 ^ 31) (fld post 52 + a) (accInline 4096 0 []) [] s
  | _ => s

/-! ### Failure (R220, R221) -/

/-- A declared stream fails (R44): its waiting estwaits return all ones and the request that owns it ends. -/
def failStream (k status : Nat) (s : State) : State :=
  match smGet? s.sea.streams k with
  | none => s
  | some z =>
    let s := onStream k (fun z => { z with failed := status }) s
    let s := killParcels (fun o => match o with | .stream j _ => j == k | _ => false) s
    let wake := fun (p : Nat × Thread) =>
      match p.2.run with
      | .waitStream h _ rd =>
        if p.1 / 256 * 64 + h = k then (p.1, { setX rd (BitVec.allOnes 64) p.2 with run := .running, pc := (p.2.pc + 4) % 2 ^ 64 })
        else p
      | _ => p
    let s := { s with sea := { s.sea with threads := s.sea.threads.map wake } }
    failReq z.req status s

/-- A parcel of a built-in path has finished: what its path does with it follows (settlePaths). -/
def pathDone (owner pid status : Nat) (b : Bytes) (s : State) : State :=
  { s with par := { s.par with done := s.par.done ++ [(owner, pid, status, b)] } }

/-- What a failing parcel ends: its descriptor completes with the status, its stream fails, its request ends, each on
its own (R221). A descriptor's own request ends only for the conditions that end requests. -/
def failParcel (pid status : Nat) (s : State) : State :=
  match parcel? s pid with
  | none => s
  | some p =>
    let s := dropParcel pid s
    if p.dead then s
    else match p.owner with
    | .desc n a =>
      (match (pQueue s n).find? (fun d => d.addr == a) with
      | some d => failReq d.req status (completeDesc n d status s)
      | none => s)
    | .stream k _ => failStream k status s
    | .path r => pathDone r pid status [] s
    | .media => s

/-! ### Issue of descriptors and streams (R216, R217) -/

/-- A handle or address that fails its checks (R211): the descriptor completes, and its request ends, with
BAD_ENVELOPE. -/
def badDesc (n : Nat) (d : PDesc) (s : State) : State := failReq d.req 0x10 (completeDesc n d 0x10 s)

/-- Issues up to `fuel` parcels of the descriptor at address `a` of cluster `n`. -/
def issueDesc : Nat → Nat → Nat → State → State
  | 0, _, _, s => s
  | fuel + 1, n, a, s =>
    match (pQueue s n).find? (fun d => d.addr == a) with
    | none => s
    | some d =>
      if d.issued < d.count then
        match sidePlace s d.skind d.source d.issued .ld, sidePlace s d.dkind d.dest d.issued .st with
        | some src, some dst =>
          if flightRoom s src dst then
            let s := onQueue n (updFirst (fun x => x.addr == a) (fun x => { x with issued := x.issued + 1 })) s
            issueDesc fuel n a (issueParcel (.desc n a) src dst d.limit d.tenant s)
          else s
        | _, _ => badDesc n d s
      else s

/-- Whether the thread that declared a stream runs in user mode, and its tenant. -/
def streamUser (s : State) (z : Stream) : Bool × Nat := ((thread s z.th).user, (thread s z.th).tenant)

/-- Source of parcel `i` of a declared stream: its place, or the status with which the access fails. -/
def streamPlace (s : State) (z : Stream) (i : Nat) : Nat × Option Place :=
  if z.listKind then
    match handlePlace s (streamUser s z).1 (streamUser s z).2 (listHandle s z.source i) .ld with
    | some p => (0, some p)
    | none => (0x10, none)
  else
    let a := ((z.source : Int) + i * z.stride).toNat
    match translate s z.th a 4096 .ld with
    | .loc l _ => if inStack l then (0, some (.local l)) else (0x10, none)
    | .rem p l => (0, some (.lent p l))
    | .bad => (0x10, none)
    | .mismatch => (0x41, none)

/-- Index below which parcels may be issued (R217): released or, in mode 0b00, delivered, plus ahead. -/
def issueBound (z : Stream) : Nat := min z.count ((if z.ringMode then z.released else z.delivered) + z.ahead)

/-- Issues the parcels of a declared stream that may go (at most `fuel`). -/
def issueStream : Nat → Nat → State → State
  | 0, _, s => s
  | fuel + 1, k, s =>
    match smGet? s.sea.streams k with
    | none => s
    | some z =>
      if z.declared && z.failed == 0 && decide (z.issued < issueBound z) then
        match streamPlace s z z.issued with
        | (_, some src) =>
          if flightRoom s src (.stream k z.issued) then
            let u := streamUser s z
            let s := onStream k (fun z => { z with issued := z.issued + 1 }) s
            issueStream fuel k (issueParcel (.stream k z.issued) src (.stream k z.issued) 0 (if u.1 then u.2 else 64) s)
          else s
        | (st, none) => failStream k st s
      else s

/-- Everything that may be issued is: descriptors in queue order, then streams (R216). -/
def issueAll (s : State) : State :=
  let s := foldS s.par.queues (fun q s => foldS q.2 (fun d s => issueDesc 65536 q.1 d.addr s) s) s
  foldS (s.sea.streams.filter (fun p => p.2.declared)) (fun p s => issueStream 64 p.1 s) s

/-! ### Delivery into a stream (R44, R217) -/

/-- Local base of a ring: user mode gives an address of its kernel slice (R47). -/
def ringLocal (s : State) (z : Stream) : Nat :=
  if (thread s z.th).user then storeBase (coreOf z.th) + 0x60000 + bits z.dest 39 0 else bits z.dest 51 0

/-- Lines of a parcel filled into a cluster's L2 at a local address (mode 0b00). -/
def fillLines (cl a : Nat) (data : Bytes) (s : State) : State :=
  foldS (numbered (chunks 64 data)) (fun p s =>
    let key := lineKey cl (a + 64 * p.1)
    if (smGet? s.mem.lines key).isSome then s
    else
      let s := makeRoom whoMedia cl s
      { s with mem := { s.mem with lines := smPut s.mem.lines key ⟨BitVec.ofNat 512 (leNat p.2), false, true, 0⟩ } }) s

/-- A waiting estwait whose parcel has been delivered returns the count delivered (R44). -/
def wakeStream (k : Nat) (s : State) : State :=
  match smGet? s.sea.streams k with
  | none => s
  | some z =>
    let wake := fun (p : Nat × Thread) =>
      match p.2.run with
      | .waitStream h idx rd =>
        if p.1 / 256 * 64 + h = k ∧ idx < z.delivered then
          (p.1, { setX rd (BitVec.ofNat 64 z.delivered) p.2 with run := .running, pc := (p.2.pc + 4) % 2 ^ 64 })
        else p
      | _ => p
    ungate (k / 64) { s with sea := { s.sea with threads := s.sea.threads.map wake } }

/-- Parcels of a stream that have arrived are delivered in index order while a slot is free (R44, R217). -/
def drainStream : Nat → Nat → State → State
  | 0, _, s => s
  | fuel + 1, k, s =>
    match smGet? s.sea.streams k with
    | none => s
    | some z =>
      match smGet? z.held z.delivered with
      | none => s
      | some data =>
        if z.ringMode && decide (z.released + z.ring ≤ z.delivered) then s
        else
          let i := z.delivered
          let s := if z.ringMode then (demandWrite whoMedia false (ringLocal s z + i % max 1 z.ring * 4096) data s).2
            else match streamPlace s z i with
              | (_, some (.local a)) => fillLines (k / 64) a data s
              | _ => s
          drainStream fuel k (onStream k (fun z => { z with delivered := i + 1, held := smDel z.held i }) s)

/-! ### Completion of parcels -/

/-- Counters of Table 9-9 for a parcel moved. -/
def countParcel (p : Parcel) (s : State) : State :=
  let s := whenS (isFlashPlace p.src || isFlashPlace p.dst) (bump (ent 0xC070 5)) s
  let s := whenS (isLentPlace p.src || isLentPlace p.dst) (bump (ent 0xC070 4)) s
  let loc := fun (x : Place) => match x with | .local _ => true | _ => false
  whenS (loc p.src || loc p.dst) (bump (ent 0xC070 3)) s

/-- One more parcel of a descriptor is finished; the last completes it (R214). -/
def finishDesc (n a : Nat) (s : State) : State :=
  match (pQueue s n).find? (fun d => d.addr == a) with
  | none => s
  | some d =>
    if d.finished + 1 = d.count then completeDesc n d 0 s
    else onQueue n (updFirst (fun x => x.addr == a) (fun x => { x with finished := x.finished + 1 })) s

/-- A parcel has been performed: counted, it leaves the flight list and its owner moves on. -/
def parcelDone (p : Parcel) (b : Bytes) (s : State) : State :=
  let s := countParcel p (dropParcel p.pid s)
  match p.owner with
  | .desc n a => finishDesc n a s
  | .stream _ _ => s
  | .path r => pathDone r p.pid 0 b s
  | .media => s

/-- Bytes of a parcel's source, read when it is performed: the status (0 none), the bytes, and the state. None while the
source has not answered. -/
def sourceBytes (p : Parcel) (s : State) : Option (Nat × Bytes × State) :=
  match p.data with
  | some b => some (0, b, s)
  | none => match p.src with
    | .local a =>
      let b := fixedRead s a 4096
      let r := demandRead (whoParcel s p) a 4096 s
      some (r.1, b, r.2)
    | .flash area parcel format =>
      match nlpOf s area parcel with
      | none => some (0x10, [], s)
      | some nlp => match flashRead s nlp (t3Handle format area parcel) with
        | .now st b => some (st, b, if st = 0x41 then mapError nlp (whoParcel s p) s else s)
        | .nand _ _ => none
    | _ => none

/-- A parcel's bytes placed at its destination (R216): 0 done, a status that fails it, or none while it must wait for
another party (a lender's acknowledgement, the write buffer). -/
def placeBytes (p : Parcel) (b : Bytes) (s : State) : Option (Nat × State) :=
  match p.dst with
  | .local a =>
    let r := demandWrite (whoParcel s p) false a b s
    some r
  | .stream k i =>
    some (0, drainStream 64 k (onStream k (fun z => { z with held := smPut z.held i b }) s))
  | .lent post a =>
    if p.acked then some (0, s)
    else if p.sent then none
    else
      let s := onParcel p.pid (fun p => { p with data := some b, sent := true }) s
      some (0x100, beSend 3 0xFFF post (p.tenant % 64) (p.pid % 2 ^ 31 + 2 ^ 31) (fld post 52 + a) (accInline 4096 0 []) b s)
  | .flash _ _ _ => some (0x100, onParcel p.pid (fun p => { p with data := some b }) s)
  | .engine => some (0, s)

/-- A parcel transfer completes (R216, R221): its bytes are read and placed, and its owner moves on. A parcel that must
wait for an earlier one, or whose source has not answered, is left in flight. -/
def deliverParcel (pid : Nat) (s : State) : State :=
  match parcel? s pid with
  | none => s
  | some p =>
    if mustWait s.par.flight p then s
    else if p.dead && !isFlashPlace p.dst then bump (ent 0xC070 8) (dropParcel pid s)
    else match sourceBytes p s with
    | none => s
    | some (st, b, s) =>
      if st ≠ 0 then issueAll (failParcel pid st s)
      else match placeBytes p b s with
      | none => s
      | some (0x100, s) => s
      | some (0, s) =>
        let s := parcelDone p b s
        let s := match p.owner with
          | .stream k _ => wakeStream k s
          | _ => s
        issueAll s
      | some (st, s) => issueAll (failParcel pid st s)

/-! ### PSUBMIT (R214, R215) -/

/-- A descriptor read from its 32 bytes. -/
def descOf (s : State) (addr rid : Nat) (b : Bytes) : PDesc :=
  let w3 := dword b 3
  let w2 := dword b 2
  { addr := addr, source := dword b 0, dest := dword b 1, skind := bit w3 40, dkind := bit w3 41, count := bits w2 23 0,
    limit := bits w3 63 48, knock := bits w3 31 0, tag := bits w2 63 32, req := rid,
    tenant := (reqTenant s rid).getD 64, issued := 0, finished := 0, status := 0 }

/-- Whether one side of a descriptor is T0 or T1 of the own node throughout (R215). -/
def ownSide (s : State) (kind : Bool) (a count : Nat) : Bool :=
  if kind then (upFrom 0 count).all (fun i => hTier (listHandle s a i) == 0)
  else match addrPlace s a with
    | some (.local _) => true
    | _ => false

/-- A side's address is usable: 4 KiB aligned, or a handle list in local store. -/
def sideGood (s : State) (kind : Bool) (a : Nat) : Bool :=
  if kind then bits a 63 52 == recPost s && (match region s (bits a 51 0) with | .store _ _ => true | _ => false)
  else a % 4096 == 0

/-- A descriptor's format (R215, Table 9-5). -/
def descGood (s : State) (n addr : Nat) (b : Bytes) : Bool :=
  let w3 := dword b 3
  let w2 := dword b 2
  let place := match region s addr with
    | .store m _ => m / 16 == n
    | _ => false
  place && addr % 32 == 0 && bits w3 46 42 == 0 && bits w2 31 24 == 0 && bits w2 23 0 != 0
    && sideGood s (bit w3 40) (dword b 0) && sideGood s (bit w3 41) (dword b 1)
    && (ownSide s (bit w3 40) (dword b 0) (bits w2 23 0) || ownSide s (bit w3 41) (dword b 1) (bits w2 23 0))

/-- A write to PSUBMIT of cluster `n` (Table 9-4). -/
def psubmitReg (rid n v : Nat) (s : State) : State :=
  let addr := bits v 51 0
  let b := fixedRead s addr 32
  let setRes := fun (r : Nat) (s : State) => { s with par := { s.par with result := smPut s.par.result n r } }
  if bits v 63 52 ≠ recPost s ∨ descGood s n addr b = false then setRes 1 s
  else if 256 ≤ (pQueue s n).length then setRes 2 s
  else issueAll (onQueue n (fun l => l ++ [descOf s addr rid b]) (setRes 0 s))

/-- PSTAT of cluster `n` (Table 9-4). -/
def pstatWord (s : State) (n : Nat) : Nat := fld (smGetD s.par.result n 0) 8 + min 255 (pQueue s n).length

end Sys2Proof.Machine
end

