-- ==== Sys2Proof/Machine/CompOps.lean ====
section
/-! DEFINITION. CompOps: the composition map as the node reads it, ownership, disagreement and T1 placement (R369 to
R373, R378 to R381, R482, R218, R219). -/
namespace Sys2Proof.Machine

/-! ### The map (Tables 16-2 and 16-3, R372, R373) -/

/-- A node record. -/
structure NodeRec where
  ident : Bytes
  postcode : Nat
  role : Nat
  grade : Nat
deriving DecidableEq, Repr

/-- A shard group. -/
structure Group where
  n : Nat
  reps : Nat
  tenant : Nat
  any : Bool
  posts : List Nat
deriving DecidableEq, Repr

/-- A lent window. -/
structure Window where
  off : Nat
  len : Nat
  lender : Nat
  borrowers : List Nat
deriving DecidableEq, Repr

/-- Word `i` of a map. -/
def mapWord (m : Bytes) (i : Nat) : Nat := fieldLE m (8 * i) 8

/-- Node records in the map. -/
def mapNodeCount (m : Bytes) : Nat := bits (mapWord m 1) 31 16
/-- Shard groups in the map. -/
def mapGroupCount (m : Bytes) : Nat := bits (mapWord m 1) 47 32
/-- Window records in the map. -/
def mapWindowCount (m : Bytes) : Nat := bits (mapWord m 1) 63 48
/-- Epoch of the map. -/
def mapEpoch (m : Bytes) : Nat := bits (mapWord m 2) 31 0
/-- Fallback bit of the map. -/
def mapFallback (m : Bytes) : Bool := bit (mapWord m 3) 0

/-- Node record from its 32 bytes. -/
def nodeRec (b : Bytes) : NodeRec :=
  ⟨slice b 0 16, bits (fieldLE b 16 8) 11 0, bits (fieldLE b 16 8) 15 12, bits (fieldLE b 16 8) 23 16⟩

/-- The node section. -/
def mapNodes (m : Bytes) : List NodeRec :=
  (upFrom 0 (mapNodeCount m)).map (fun i => nodeRec (slice m (mapWord m 4 + 32 * i) 32))

/-- Bytes of a group: its word, its postcodes and their padding. -/
def groupBytes (n reps : Nat) : Nat := 8 + 8 * ceilDiv (2 * n * reps) 8

/-- `k` groups from offset `o`. -/
def groupsFrom (m : Bytes) : Nat → Nat → List Group
  | 0, _ => []
  | k + 1, o =>
    let w := fieldLE m o 8
    let n := bits w 15 0
    let r := bits w 17 16
    ⟨n, r, bits w 23 18, bit w 24, (upFrom 0 (n * r)).map (fun j => bits (fieldLE m (o + 8 + 2 * j) 2) 11 0)⟩
      :: groupsFrom m k (o + groupBytes n r)

/-- The shard section. -/
def mapGroups (m : Bytes) : List Group := groupsFrom m (mapGroupCount m) (mapWord m 5)

/-- Window record from its 32 bytes. -/
def windowRec (b : Bytes) : Window :=
  let w2 := fieldLE b 16 8
  ⟨bits (fieldLE b 0 8) 35 0, bits (fieldLE b 8 8) 35 0, bits w2 11 0,
    (upFrom 0 (bits w2 14 12)).map (fun i => fieldLE b (24 + 2 * i) 2)⟩

/-- The window section. -/
def mapWindows (m : Bytes) : List Window :=
  (upFrom 0 (mapWindowCount m)).map (fun i => windowRec (slice m (mapWord m 6 + 32 * i) 32))

/-- Role of a postcode, if the map has it. -/
def roleOf (s : State) (post : Nat) : Option Nat :=
  ((mapNodes s.cmp.map).find? (fun r => r.postcode == post)).map (fun r => r.role)

/-- Roles that hold corpus shards (Table 16-1). -/
def roleShards (r : Nat) : Bool := r == 0 || r == 3
/-- Roles that hold context spans (Table 16-1). -/
def roleSpans (r : Nat) : Bool := r == 1 || r == 3
/-- Roles that hold embedding tables (Table 16-1). -/
def roleTables (r : Nat) : Bool := r == 0 || r == 1 || r == 3

/-- The node's own role allows a kind of state. -/
def ownRole (s : State) (p : Nat → Bool) : Bool := p (dirNum s (ent 0x2010 2))

/-- Group of a tenant: its own, else the one with `any` set (R372). -/
def groupFor (s : State) (t : Nat) : Option Group :=
  let gs := mapGroups s.cmp.map
  match gs.find? (fun g => !g.any && g.tenant == t) with
  | some g => some g
  | none => gs.find? (fun g => g.any)

/-- Replica j of shard i of a group. -/
def replica (g : Group) (i j : Nat) : Nat := g.posts.getD (i * g.reps + j) 0xFFF

/-- Replicas 0 to r − 1 of a shard. -/
def replicas (g : Group) (r i : Nat) : List Nat := (upFrom 0 r).map (replica g i)

/-- Shards of a group that this node holds with `r` replicas in use. -/
def shardsHere (s : State) (g : Group) (r : Nat) : List Nat :=
  (upFrom 0 g.n).filter (fun i => (replicas g r i).contains (ownPost s))

/-- The node holds another to be in service (R378). -/
def nodeUp (s : State) (post : Nat) : Bool := post == ownPost s || !s.cmp.nodesOut.contains post

/-- The composition epoch in force agrees with its stored complement (Table 18-3). -/
def epochGood (s : State) : Bool := s.cmp.epochC == compl 32 (epoch s)

/-! ### Disagreement (R380) -/

/-- One NOT_OWNER answer sent or received: the flag, the count, the CONTAINED error. -/
def disagree (obj : Nat) (tenant : Option Nat) (s : State) : State :=
  record 0x15 1 10 0 (bits obj 15 0) 0 0x31 tenant (bump (ent 0x2010 0xC) (dirSet (ent 0x2010 0xA) 1 s))

/-- A corpus marked disputed. -/
def disputeCorpus (t c : Nat) (s : State) : State :=
  let s := disagree c (some t) s
  { s with cmp := { s.cmp with dCorpora := insNat s.cmp.dCorpora (t * 65536 + c) } }

/-- A context session marked disputed. -/
def disputeCtx (h t : Nat) (s : State) : State :=
  let s := disagree h (some t) s
  { s with cmp := { s.cmp with dCtx := insNat s.cmp.dCtx h } }

/-- A window marked disputed. -/
def disputeWindow (i : Nat) (s : State) : State :=
  let s := disagree i none s
  { s with cmp := { s.cmp with dWindows := insNat s.cmp.dWindows i } }

/-! ### Windows (R218, R219) -/

/-- Index of the window of this node that an address range lies in, and whether a borrower may use it. -/
def windowAt (s : State) (a n : Nat) : Option (Nat × Window) :=
  (numbered (mapWindows s.cmp.map)).find? (fun p => p.2.lender == ownPost s && inStack a
    && decide (p.2.off ≤ a % 0x1000000000) && decide (a % 0x1000000000 + n ≤ p.2.off + p.2.len))

/-! ### T1 placement (R381, R482) -/

/-- Stacks in service. -/
def stacksIn (s : State) : List Nat := (upFrom 0 16).filter (fun k => !(seqr s k).out)

/-- Ranges of every stack that no placement may take: placements made, windows lent, the scratch rows (R111). -/
def takenRanges (s : State) : List (Nat × Nat) :=
  s.cmp.placed.map (fun p => (p.base, p.len))
    ++ ((mapWindows s.cmp.map).filter (fun w => w.lender == ownPost s)).map (fun w => (w.off, w.len))
    ++ [(0xFFC000000, 0x4000000)]

/-- A range inserted by its base. -/
def insRange (r : Nat × Nat) : List (Nat × Nat) → List (Nat × Nat)
  | [] => [r]
  | x :: t => if r.1 ≤ x.1 then r :: x :: t else x :: insRange r t

/-- Gaps between ranges sorted by base, from `cur` up to the end of a stack. -/
def gaps (cur : Nat) : List (Nat × Nat) → List (Nat × Nat)
  | [] => [(cur, 0x1000000000)]
  | (b, n) :: t => (cur, b) :: gaps (max cur (b + n)) t

/-- First aligned base of a gap, and the number of bases at which `len` bytes fit. -/
def gapRoom (len al : Nat) (g : Nat × Nat) : Nat × Nat :=
  let f := ceilDiv g.1 al * al
  (f, if f + len ≤ g.2 then (g.2 - len - f) / al + 1 else 0)

/-- The `k`-th base among the gaps' bases. -/
def pickBase (al : Nat) : List (Nat × Nat) → Nat → Option Nat
  | [], _ => none
  | (f, n) :: t, k => if k < n then some (f + k * al) else pickBase al t (k - n)

/-- Free T1 in bytes (R381). -/
def freeT1 (s : State) : Nat :=
  let k := (stacksIn s).length
  dirNum s (ent 0x1002 4) * 2 ^ 30 - dirNum s (ent 0x1002 9) * 2 ^ 20
    - (s.cmp.placed.map (fun p => p.len * k)).foldl (fun a b => a + b) 0

/-- `len` bytes of every stack placed at a base the spec leaves free, aligned to `al`; none when T1 is short. -/
def placeT1 (len al tenant kind num : Nat) (s : State) : Option (Nat × State) :=
  let rooms := (gaps 0 ((takenRanges s).foldr insRange [])).map (gapRoom len al)
  let total := (rooms.map (fun p => p.2)).foldl (fun a b => a + b) 0
  if freeT1 s < len * (stacksIn s).length ∨ total = 0 then none
  else
    let d := draw s
    match pickBase al rooms (Config.choose d.1 total % total) with
    | some b => some (b, { d.2 with cmp := { d.2.cmp with placed := d.2.cmp.placed ++ [⟨b, len, tenant, kind, num⟩] } })
    | none => none

/-- Placements of an object given up. -/
def unplace (kind num : Nat) (s : State) : State :=
  { s with cmp := { s.cmp with placed := s.cmp.placed.filter (fun p => !(p.kind == kind && p.num == num)) } }

/-- T1 bytes that a tenant's placements hold (Table 14-1). -/
def t1Used (s : State) (t : Nat) : Nat :=
  ((s.cmp.placed.filter (fun p => p.tenant == t)).map (fun p => p.len * (stacksIn s).length)).foldl (fun a b => a + b) 0

/-- A placement of `len` bytes per stack would exceed the tenant's T1 quota (R325). -/
def overT1 (s : State) (t len : Nat) : Bool :=
  decide (dirNum s (ent (0x3100 + t) 5) * 2 ^ 30 < t1Used s t + len * (stacksIn s).length)

end Sys2Proof.Machine
end

