-- ==== Sys2Proof/Machine/Bodies.lean ====
section
/-! DEFINITION. Bodies: the layouts of the objects the bodies describe, and the checks on envelope bodies with the offset
each fault reports (R308, R309, Table 13-7, Tables 6-1, 6-2, 7-1, 7-2, 7-4, 8-1, 8-2, R154, R170, R193, R197, R57). -/
namespace Sys2Proof.Machine

/-- Next multiple of 64. -/
def up64 (n : Nat) : Nat := 64 * ceilDiv n 64

/-! ### Corpora (Table 6-1) -/

/-- Elements per vector d. -/
def cbDim (b : Bytes) : Nat := fieldLE b 0 2
/-- Vector format: 0 fp32, 1 bf16, 2 int8. -/
def cbFormat (b : Bytes) : Nat := fieldLE b 2 1
/-- COSINE metric. -/
def cbCosine (b : Bytes) : Bool := fieldLE b 3 1 == 1
/-- Code elements c: 64 for INT4x64, 32 for INT8x32. -/
def cbCode (b : Bytes) : Nat := if fieldLE b 4 1 = 0 then 64 else 32
/-- Replicas. -/
def cbReplicas (b : Bytes) : Nat := fieldLE b 5 1
/-- Regions per shard. -/
def cbRegions (b : Bytes) : Nat := fieldLE b 6 1
/-- Slots keep stamps. -/
def cbVersions (b : Bytes) : Bool := fieldLE b 7 1 == 1
/-- Sketch width s. -/
def cbSketch (b : Bytes) : Nat := fieldLE b 8 2
/-- Default sweep threshold. -/
def cbThreshold (b : Bytes) : Nat := fieldLE b 10 2
/-- Cells per shard. -/
def cbCells (b : Bytes) : Nat := fieldLE b 12 4

/-- Offset of section proj. -/
def cbProj (_b : Bytes) : Nat := 64
/-- Offset of section chscale. -/
def cbScale (b : Bytes) : Nat := up64 (cbProj b + cbCode b * cbDim b * 2)
/-- Offset of section rot. -/
def cbRot (b : Bytes) : Nat := up64 (cbScale b + cbCode b * 4)
/-- Offset of section centroids; an empty rot has no bytes. -/
def cbCent (b : Bytes) : Nat := up64 (cbRot b + cbSketch b * cbDim b)
/-- Offset of section cell_slots. -/
def cbSlots (b : Bytes) : Nat := up64 (cbCent b + cbCells b * cbCode b)
/-- Offset of section cell_tile. -/
def cbTile (b : Bytes) : Nat := up64 (cbSlots b + cbCells b * 4)
/-- Length of the body. -/
def cbLen (b : Bytes) : Nat := cbTile b + cbCells b

/-- Slots of a cell. -/
def cellSlots (b : Bytes) (i : Nat) : Nat := fieldLE b (cbSlots b + 4 * i) 4
/-- Tile of a cell. -/
def cellTile (b : Bytes) (i : Nat) : Nat := fieldLE b (cbTile b + i) 1
/-- Bytes of one element of a vector format. -/
def fmtSize (f : Nat) : Nat := if f = 0 then 4 else if f = 1 then 2 else 1
/-- Bytes of a full vector. -/
def vecBytes (b : Bytes) : Nat := cbDim b * fmtSize (cbFormat b)

/-! ### Profiles (Table 7-1) -/

/-- Layers. -/
def pfLayers (b : Bytes) : Nat := fieldLE b 1 1
/-- KV heads H. -/
def pfHeads (b : Bytes) : Nat := fieldLE b 2 1
/-- Elements per head vector D. -/
def pfDim (b : Bytes) : Nat := fieldLE b 3 1
/-- Query heads per KV head G. -/
def pfGroup (b : Bytes) : Nat := fieldLE b 4 1
/-- Default threshold. -/
def pfThreshold (b : Bytes) : Nat := fieldLE b 5 1
/-- Default k. -/
def pfK (b : Bytes) : Nat := fieldLE b 6 2
/-- Logit factor tau, fp32. -/
def pfTau (b : Bytes) : Nat := fieldLE b 8 4
/-- Default mode. -/
def pfMode (b : Bytes) : Nat := fieldLE b 12 1

/-! ### Tables (Table 8-2) -/

/-- Word `i` of a table's descriptor. -/
def tbWord (t : Tab) (i : Nat) : Nat := t.desc.getD i 0
/-- Rows R̂. -/
def tbRows (t : Tab) : Nat := bits (tbWord t 1) 33 0
/-- Elements per row. -/
def tbDim (t : Tab) : Nat := bits (tbWord t 2) 31 16
/-- Row stride in bytes. -/
def tbStride (t : Tab) : Nat := bits (tbWord t 2) 47 32
/-- Format: 0 FP32, 1 BF16, 2 FIX32. -/
def tbFormat (t : Tab) : Nat := bits (tbWord t 2) 1 0
/-- Fractional bits of FIX32. -/
def tbFrac (t : Tab) : Nat := bits (tbWord t 2) 11 7
/-- Forwarding allowed. -/
def tbHot (t : Tab) : Bool := bit (tbWord t 2) 6
/-- Adds for invalid indices are applied to the dead-letter row. -/
def tbApply (t : Tab) : Bool := bit (tbWord t 2) 5
/-- Area offset within every stack. -/
def tbArea (t : Tab) : Nat := bits (tbWord t 0) 35 0
/-- Owning tenant. -/
def tbTenant (t : Tab) : Nat := bits (tbWord t 5) 21 16
/-- The tenant's table number. -/
def tbNum (t : Tab) : Nat := bits (tbWord t 5) 15 0
/-- Bytes of one element. -/
def tbSize (t : Tab) : Nat := if tbFormat t = 1 then 2 else 4
/-- Row stride for a dim and element size (R187). -/
def strideOf (dim size : Nat) : Nat := 64 * ceilDiv (dim * size) 64

/-! ### Objects by tenant -/

/-- A tenant's corpus. -/
def corpus? (s : State) (t c : Nat) : Option Corp := s.path.corpora.find? (fun x => x.tenant == t && x.num == c)
/-- A tenant's profile. -/
def prof? (s : State) (t n : Nat) : Option Prof := s.path.profs.find? (fun x => x.tenant == t && x.num == n)
/-- A tenant's context session. -/
def ctx? (s : State) (t h : Nat) : Option CtxS := s.path.ctx.find? (fun x => x.tenant == t && x.handle == h)
/-- A tenant's table. -/
def tab? (s : State) (t n : Nat) : Option Tab := s.path.tabs.find? (fun x => tbTenant x == t && tbNum x == n)

/-! ### Faults of a body (R309) -/

/-- One field or section: its offset and length, and the offset of a fault within it when it lies in the body. -/
structure FieldC where
  off : Nat
  size : Nat
  bad : Option Nat
deriving DecidableEq, Repr

/-- A field that must satisfy a condition. -/
def fOk (off size : Nat) (ok : Bool) : FieldC := ⟨off, size, if ok then none else some off⟩

/-- First nonzero byte of a range. -/
def firstNonzero (b : Bytes) (off n : Nat) : Option Nat := (upFrom off n).find? (fun i => fieldLE b i 1 != 0)

/-- Reserved bytes. -/
def fRsv (b : Bytes) (off n : Nat) : FieldC := ⟨off, n, firstNonzero b off n⟩

/-- First element of a section that fails a test: `n` elements of `size` bytes from `off`. -/
def firstBad (b : Bytes) (off n size : Nat) (ok : Nat → Bool) : Option Nat :=
  ((upFrom 0 n).find? (fun i => !ok (fieldLE b (off + i * size) size))).map (fun i => off + i * size)

/-- A section of `n` elements, each of which must pass a test. -/
def fSec (b : Bytes) (off n size : Nat) (ok : Nat → Bool) : FieldC := ⟨off, n * size, firstBad b off n size ok⟩

/-- Lower of two offsets. -/
def minOff (a b : Option Nat) : Option Nat :=
  match a, b with
  | none, y => y
  | x, none => x
  | some x, some y => some (min x y)

/-- Lowest fault among fields, and of a body longer than `total`. -/
def fieldFaults (len total : Nat) (fs : List FieldC) : Option Nat :=
  fs.foldl (fun a f => minOff a (if f.size = 0 then none else if len < f.off + f.size then some f.off else f.bad))
    (if total < len then some total else none)

/-- Zero bytes between one section's end and the next section's start; they fault only where they are in the body. -/
def padBad (b : Bytes) (e nxt : Nat) : Option Nat := firstNonzero b e (min nxt b.length - min e b.length)

/-- A finite positive fp32. -/
def posF32 (x : Nat) : Bool := decide (0 < x) && decide (x < 0x7F800000)
/-- A finite bf16. -/
def finBf (x : Nat) : Bool := x % 0x8000 < 0x7F80
/-- A finite fp32. -/
def finF32 (x : Nat) : Bool := x % 0x80000000 < 0x7F800000
/-- `x` in a closed range. -/
def inR (x lo hi : Nat) : Bool := decide (lo ≤ x) && decide (x ≤ hi)

/-- First cell whose slots take its tile past 2^24, running over the cells with the sums so far. -/
def tileOver (b : Bytes) : SMap Nat → List Nat → Option Nat
  | _, [] => none
  | sums, i :: t =>
    let tl := cellTile b i
    let v := smGetD sums tl 0 + cellSlots b i
    if v ≤ 2 ^ 24 then tileOver b (smPut sums tl v) t else some (cbSlots b + 4 * i)

/-- CORPUS_CREATE (Table 6-1). -/
def corpusFault (b : Bytes) : Option Nat :=
  let s := cbSketch b
  let fs := [
    fOk 0 2 (inR (cbDim b) 8 4096 && cbDim b % 8 == 0), fOk 2 1 (decide (cbFormat b < 3)),
    fOk 3 1 (decide (fieldLE b 3 1 < 2)), fOk 4 1 (decide (fieldLE b 4 1 < 2)), fOk 5 1 (inR (cbReplicas b) 1 3),
    fOk 6 1 (inR (cbRegions b) 1 64), fOk 7 1 (decide (fieldLE b 7 1 < 2)),
    fOk 8 2 (s == 0 || s == 128 || s == 256), fOk 10 2 (s == 0 || inR (cbThreshold b) 1 (s - 1)),
    fOk 12 4 (inR (cbCells b) 1024 262144), fRsv b 16 16]
  let heads := fieldFaults b.length b.length fs
  if heads.isSome then heads
  else
    let secs := [
      fSec b (cbProj b) (cbCode b * cbDim b) 2 (fun _ => true), fSec b (cbScale b) (cbCode b) 4 posF32,
      fSec b (cbRot b) (s * cbDim b) 1 (fun _ => true), fSec b (cbCent b) (cbCells b * cbCode b) 1 (fun _ => true),
      fSec b (cbSlots b) (cbCells b) 4 (fun x => inR x 1 (2 ^ 24)),
      fSec b (cbTile b) (cbCells b) 1 (fun x => decide (x < 8 * cbRegions b))]
    let pads := [padBad b 32 64, padBad b (cbProj b + cbCode b * cbDim b * 2) (cbScale b),
      padBad b (cbScale b + cbCode b * 4) (cbRot b), padBad b (cbRot b + s * cbDim b) (cbCent b),
      padBad b (cbCent b + cbCells b * cbCode b) (cbSlots b), padBad b (cbSlots b + 4 * cbCells b) (cbTile b)]
    pads.foldl minOff (minOff (fieldFaults b.length (cbLen b) secs) (tileOver b [] (upFrom 0 (cbCells b))))

/-- SEARCH (Table 6-2); the corpus's parameters when the corpus is found. -/
def searchFault (b : Bytes) (c : Option Bytes) : Option Nat :=
  let k := fieldLE b 0 2
  let m := fieldLE b 2 1
  let d := fieldLE b 10 2
  let sk := (c.map cbSketch).getD 256
  let th := fieldLE b 7 1
  fieldFaults b.length ((c.map (fun x => 16 + vecBytes x)).getD b.length)
    ([fOk 0 2 (inR k 1 1024), fOk 2 1 (decide (m < 3) && !(m == 1 && sk == 0)), fOk 3 1 (decide (fieldLE b 3 1 < 4)),
      fOk 4 2 (decide (fieldLE b 4 2 ≤ 4096)), fOk 6 1 (decide (fieldLE b 6 1 ≤ 8)),
      fOk 7 1 (th == 0 || decide (th < sk)), fOk 8 2 (decide (fieldLE b 8 2 ≤ 8192)),
      fOk 10 2 (d == 0 || d == 0xFFFF || inR d k 1024), fRsv b 12 4]
      ++ (c.map (fun x => [fOk 16 (vecBytes x) true])).getD [])

/-- UPSERT: 1 to 64 items of an id that can be stored and a vector (R154, R140). -/
def upsertFault (b : Bytes) (c : Option Bytes) : Option Nat :=
  let n := fieldLE b 0 2
  let w := (c.map (fun x => 8 + vecBytes x)).getD 8
  fieldFaults b.length (if c.isSome then 16 + n * w else b.length)
    ([fOk 0 2 (inR n 1 64), fRsv b 2 14]
      ++ (if c.isSome then (upFrom 0 n).map (fun i => fOk (16 + i * w) w (fieldLE b (16 + i * w) 8 != 2 ^ 64 - 1)) else []))

/-- DELETE: 1 to 512 ids (R154). -/
def deleteFault (b : Bytes) : Option Nat :=
  let n := fieldLE b 0 2
  fieldFaults b.length (16 + 8 * n)
    [fOk 0 2 (inR n 1 512), fOk 2 1 (decide (fieldLE b 2 1 < 2)), fRsv b 3 13, fSec b 16 n 8 (fun _ => true)]

/-- CTX_PROFILE (Table 7-1): part 0, or the rotation of a head; part 0 is refused while a session uses the profile. -/
def profileFault (b : Bytes) (p : Option Prof) (inUse : Bool) : Option Nat :=
  let part := fieldLE b 0 1
  if part = 0 then
    fieldFaults b.length 16
      [fOk 0 1 (!inUse), fOk 1 1 (inR (pfLayers b) 1 128), fOk 2 1 (inR (pfHeads b) 1 16),
        fOk 3 1 (pfDim b == 64 || pfDim b == 128), fOk 4 1 (inR (pfGroup b) 1 8), fOk 5 1 (inR (pfThreshold b) 1 127),
        fOk 6 2 (inR (pfK b) 1 1024), fOk 8 4 (posF32 (pfTau b)), fOk 12 1 (decide (pfMode b < 3)), fRsv b 13 3]
  else
    let hs := (p.map (fun x => pfHeads x.par)).getD 16
    let d := (p.map (fun x => pfDim x.par)).getD ((b.length - 16) / 128)
    fieldFaults b.length (16 + 128 * d)
      [fOk 0 1 (decide (part ≤ hs)), fRsv b 1 15, fSec b 16 (128 * d) 1 (fun _ => true)]

/-- CTX_OPEN (Table 7-2). -/
def openFault (s : State) (b : Bytes) : Option Nat :=
  let n := fieldLE b 6 1
  fieldFaults b.length (8 + 2 * n)
    [fOk 0 4 (inR (fieldLE b 0 4) 8192 (2 ^ 22)), fOk 4 1 (decide (fieldLE b 4 1 ≤ 16)),
      fOk 5 1 (decide (fieldLE b 5 1 < 2)), fOk 6 1 (decide (n ≤ 16)), fRsv b 7 1,
      fSec b 8 n 2 (fun x => decide (x < 4096)), fOk 8 (2 * min n 1) (n == 0 || fieldLE b 8 2 == ownPost s)]

/-- CTX_APPEND: Λ × H records of a key and a value, every element finite (R170). -/
def appendFault (b : Bytes) (x : Option CtxS) : Option Nat :=
  match x with
  | none => none
  | some x =>
    let n := pfLayers x.prof.par * pfHeads x.prof.par * 2 * pfDim x.prof.par
    fieldFaults b.length (2 * n) [fSec b 0 n 2 finBf]

/-- CTX_ATTEND (Table 7-4, R174). -/
def attendFault (b : Bytes) (x : Option CtxS) : Option Nat :=
  let m := fieldLE b 2 1
  let p := (x.map (fun x => x.prof.par)).getD []
  let mode := if m = 0xFF then pfMode p else m
  let nq := pfGroup p * pfHeads p * pfDim p
  fieldFaults b.length (if x.isSome then 16 + 2 * nq else b.length)
    ([fOk 0 2 (x.isNone || decide (fieldLE b 0 2 < pfLayers p)),
      fOk 2 1 ((decide (m < 3) || m == 0xFF) && !(mode == 1 && (x.map (fun x => decide (0 < x.spilled))).getD false)),
      fOk 3 1 (decide (fieldLE b 3 1 < 128)), fOk 4 2 (decide (fieldLE b 4 2 ≤ 1024)),
      fOk 6 2 (decide (fieldLE b 6 2 ≤ 8192)),
      fOk 8 4 ((x.map (fun x => decide (fieldLE b 8 4 ≤ x.accepted))).getD true), fRsv b 12 4]
      ++ (if x.isSome then [fSec b 16 nq 2 finBf] else []))

/-- EMB_TABLE_CREATE (Table 8-1). -/
def tableFault (b : Bytes) : Option Nat :=
  let f := fieldLE b 10 1
  let d := fieldLE b 8 2
  fieldFaults b.length 16
    [fOk 0 8 (inR (fieldLE b 0 8) 1 (2 ^ 34 - 16)), fOk 8 2 (inR d 16 1024 && d % 16 == 0), fOk 10 1 (decide (f < 3)),
      fOk 11 1 (if f = 2 then decide (fieldLE b 11 1 < 32) else fieldLE b 11 1 == 0), fOk 12 1 (decide (fieldLE b 12 1 < 2)),
      fOk 13 1 (decide (fieldLE b 13 1 < 2)), fRsv b 14 2]

/-- EMB_WRITE. -/
def embWriteFault (b : Bytes) (t : Option Tab) : Option Nat :=
  let n := fieldLE b 0 4
  let dl := fieldLE b 4 1
  match t with
  | none => fieldFaults b.length b.length
      [fOk 0 4 (inR n 1 65536 && (dl != 1 || n == 1)), fOk 4 1 (decide (dl < 2)), fRsv b 5 11]
  | some t =>
    let w := 8 + tbDim t * tbSize t
    fieldFaults b.length (16 + n * w)
      ([fOk 0 4 (inR n 1 65536 && (dl != 1 || n == 1)), fOk 4 1 (decide (dl < 2)), fRsv b 5 11]
        ++ (upFrom 0 n).map (fun i => fOk (16 + i * w) w (dl == 1 || decide (fieldLE b (16 + i * w) 8 < tbRows t))))

/-- First bag whose length takes the sum past 65,536. -/
def bagsOver (b : Bytes) (sum : Nat) : List Nat → Option Nat
  | [] => none
  | i :: t =>
    let v := sum + fieldLE b (8 + 4 * i) 4
    if v ≤ 65536 then bagsOver b v t else some (8 + 4 * i)

/-- Indices of a gather in all. -/
def gatherTotal (b : Bytes) : Nat :=
  ((upFrom 0 (fieldLE b 0 2)).map (fun i => fieldLE b (8 + 4 * i) 4)).foldl (fun a x => a + x) 0

/-- Offset of the indices section of a gather. -/
def gatherIdx (b : Bytes) : Nat := up64 (8 + 4 * fieldLE b 0 2)

/-- EMB_GATHER (R193). -/
def gatherFault (b : Bytes) : Option Nat :=
  let n := fieldLE b 0 2
  let tot := gatherTotal b
  let e := 8 + 4 * n
  minOff (fieldFaults b.length (if tot = 0 then e else gatherIdx b + 8 * tot)
    [fOk 0 2 (inR n 1 16384), fOk 2 1 (decide (fieldLE b 2 1 < 2)), fRsv b 3 5, ⟨8, 4 * n, bagsOver b 0 (upFrom 0 n)⟩,
      fSec b (gatherIdx b) tot 8 (fun _ => true)]) (if tot = 0 then none else padBad b e (gatherIdx b))

/-- EMB_SCATTER_ADD (R197): values finite. -/
def scatterFault (b : Bytes) (t : Option Tab) : Option Nat :=
  let n := fieldLE b 0 4
  match t with
  | none => fieldFaults b.length b.length [fOk 0 4 (inR n 1 65536), fRsv b 4 4]
  | some t =>
    let w := 8 + tbDim t * 4
    fieldFaults b.length (8 + n * w)
      ([fOk 0 4 (inR n 1 65536 && decide (n * tbDim t * 4 ≤ 0x1000000)), fRsv b 4 4]
        ++ (upFrom 0 n).map (fun i => ⟨8 + i * w, w, firstBad b (8 + i * w + 8) (tbDim t) 4 finF32⟩))

/-- Cores that a KERNEL_RUN names, rising. -/
def kernelCores (b : Bytes) : List Nat := setBits 512 (fieldLE b 32 64)

/-- KERNEL_RUN: format, and the checks of R57 while K is not zero. -/
def kernelFault (s : State) (b : Bytes) : Option Nat :=
  let th := fieldLE b 16 2
  let cs := kernelCores b
  let k := s.sea.kernelK
  fieldFaults b.length 96
    [fOk 0 8 true, fOk 8 8 true, fOk 16 2 (k == 0 || (decide (0 < th) && decide (th ≤ k * cs.length))), fRsv b 18 2,
      fOk 20 4 true, fRsv b 24 8, fOk 32 64 (k == 0 || (!cs.isEmpty && cs.all (fun m => decide (m < nCores s))))]

/-- FLASH_DISCARD (R251): count 1 to 2^32, the range within the area when the area is the tenant's. -/
def discardFault (s : State) (t a : Nat) (b : Bytes) : Option Nat :=
  let d := areaOf s a
  let first := fieldLE b 0 8
  let n := fieldLE b 8 8
  let known := d.tenant == t && decide (a < 254)
  fieldFaults b.length 24
    [fOk 0 8 (!known || decide (first < 16 * d.units)),
      fOk 8 8 (inR n 1 (2 ^ 32) && (!known || decide (16 * d.units ≤ first) || decide (first + n ≤ 16 * d.units))),
      fOk 16 1 (decide (fieldLE b 16 1 < 2)), fRsv b 17 7]

/-- Types of Table 13-7. -/
def knownType (ty : Nat) : Bool :=
  ty ∈ [0x0001, 0x0002, 0x0101, 0x0102, 0x0103, 0x0104, 0x0105, 0x0201, 0x0202, 0x0203, 0x0204, 0x0205, 0x0301, 0x0302,
    0x0303, 0x0304, 0x0305, 0x0401, 0x0402, 0x0501, 0x0502]

/-- Largest object number a type's object field may hold. -/
def objectMax (ty : Nat) : Nat :=
  if ty = 0x0001 then 0
  else if ty / 0x100 = 1 ∨ ty / 0x100 = 3 then 0xFFFF
  else if ty = 0x0201 ∨ ty = 0x0202 then 15
  else if ty = 0x0203 ∨ ty = 0x0204 ∨ ty = 0x0205 then 2 ^ 32 - 1
  else if ty = 0x0402 then 255
  else if ty / 0x100 = 5 then 0xFFFFFF
  else if ty = 0x0002 then 2 ^ 48 - 1
  else 2 ^ 64 - 1

/-- Lowest fault of an envelope's body, with the object it names where the tenant holds it (R309). -/
def bodyFault (s : State) (t ty obj : Nat) (b : Bytes) : Option Nat :=
  if ty = 0x0101 then corpusFault b
  else if ty = 0x0103 then searchFault b ((corpus? s t obj).map (fun c => c.body))
  else if ty = 0x0104 then upsertFault b ((corpus? s t obj).map (fun c => c.body))
  else if ty = 0x0105 then deleteFault b
  else if ty = 0x0201 then profileFault b (prof? s t obj)
    (s.path.ctx.any (fun x => x.tenant == t && x.prof.num == obj))
  else if ty = 0x0202 then openFault s b
  else if ty = 0x0204 then appendFault b (ctx? s t obj)
  else if ty = 0x0205 then attendFault b (ctx? s t obj)
  else if ty = 0x0301 then tableFault b
  else if ty = 0x0303 then embWriteFault b (tab? s t obj)
  else if ty = 0x0304 then gatherFault b
  else if ty = 0x0305 then scatterFault b (tab? s t obj)
  else if ty = 0x0401 then kernelFault s b
  else if ty = 0x0402 then discardFault s t obj b
  else if ty = 0x0502 then none
  else if b.isEmpty then none else some 0

/-! ### The envelope header (Table 13-6) -/

/-- Type of an envelope. -/
def evType (h : Bytes) : Nat := fieldLE h 0 2
/-- Queue of an envelope. -/
def evQueue (h : Bytes) : Nat := bits (fieldLE h 0 8) 19 16
/-- Requested class, 3 not given. -/
def evClass (h : Bytes) : Nat := bits (fieldLE h 0 8) 25 24
/-- Pre-colour. -/
def evColour (h : Bytes) : Nat := bits (fieldLE h 0 8) 33 32
/-- Object. -/
def evObject (h : Bytes) : Nat := fieldLE h 8 8

/-- A fault of the header, the type, body_length or body_crc: detail 0xFFFF (R308, R309). -/
def headerBad (m : Bytes) : Bool :=
  let w0 := fieldLE m 0 8
  let ty := evType m
  decide (m.length < 32) || bits w0 23 20 != 0 || bits w0 31 26 != 0 || bits w0 63 34 != 0 || fieldLE m 24 8 != 0
    || !knownType ty || decide (objectMax ty < evObject m) || (!hasClass ty && evClass m != 3)
    || fieldLE m 16 4 != m.length - 32 || fieldLE m 20 4 != crc32c (m.drop 32)

/-- Detail of a BAD_ENVELOPE for a reassembled message, none when it is well formed. -/
def envelopeFault (s : State) (t : Nat) (m : Bytes) : Option Nat :=
  if headerBad m then some 0xFFFF else bodyFault s t (evType m) (evObject m) (m.drop 32)

end Sys2Proof.Machine
end

