-- ==== Sys2Proof/Machine/HxtOps.lean ====
section
/-! DEFINITION. HxtOps: packets checked and policed, inboxes, reassembly, the postmark window, requests made
(R300 to R303, R307, R311, R316 to R319, R326 to R331, R377, R479). -/
namespace Sys2Proof.Machine

/-! ### Packet fields (Table 13-2) -/

/-- Version. -/
def pkVersion (p : Packet) : Nat := bits p.w0.toNat 7 0
/-- Kind. -/
def pkKind (p : Packet) : Nat := bits p.w0.toNat 23 16
/-- A tag precedes the CRC. -/
def pkTagged (p : Packet) : Bool := bit p.w0.toNat 24
/-- Segment index. -/
def pkIndex (p : Packet) : Nat := bits p.w0.toNat 47 32
/-- Segment count. -/
def pkCount (p : Packet) : Nat := bits p.w0.toNat 63 48
/-- Payload length. -/
def pkLen (p : Packet) : Nat := bits p.w1.toNat 15 0
/-- Postmark. -/
def pkMark (p : Packet) : Nat := bits p.w1.toNat 63 16
/-- Epoch. -/
def pkEpoch (p : Packet) : Nat := bits p.w2.toNat 31 0
/-- Session. -/
def pkSession (p : Packet) : Nat := bits p.w2.toNat 63 32
/-- Complement of the epoch. -/
def pkEpochC (p : Packet) : Nat := bits p.w3.toNat 63 32

/-- Source address of a packet. -/
def pkAddr (p : Packet) : Addr := ⟨p.port, p.v6, p.src, p.sport⟩

/-- The header's 32 bytes. -/
def pkHeader (p : Packet) : Bytes := [p.w0, p.w1, p.w2, p.w3].flatMap (fun w => leBytes 8 w.toNat)

/-- Kinds that only the node sends. -/
def nodeKind (k : Nat) : Bool := k == 2 || k == 3 || k == 0x11 || k == 0x13 || k == 0x14
/-- Kinds a host sends. -/
def hostKind (k : Nat) : Bool := k == 1 || k == 4 || k == 0x10 || k == 0x12 || k == 0x15

/-- Checks of R300 and R301; a packet that fails one is dropped and counted. -/
def pkGood (p : Packet) : Bool :=
  let tl := if pkTagged p then 16 else 0
  p.udpLen == 44 + pkLen p + tl && decide (pkLen p ≤ 8192) && p.payload.length == pkLen p && p.tag.length == tl
    && p.crc.toNat == crc32c (pkHeader p ++ p.payload ++ p.tag) && inR (pkVersion p) 1 3 && hostKind (pkKind p)
    && bits p.w0.toNat 15 8 == 0 && bits p.w0.toNat 31 25 == 0 && bits p.w3.toNat 31 0 == 0

/-- A packet dropped without answer, counted in 0xB010:07. -/
def pkDrop (s : State) : State := bump (ent 0xB010 7) s

/-- The node serves HXT (Table 13-14). -/
def hxtServed (s : State) : Bool := s.phase == .serving

/-- A packet's first checks: it reached a sub-port that is up, it passes R301, HXT is served. Other packets are dropped
and counted; nothing arrives through a sub-port that is down. -/
def onPacket (p : Packet) (kind : Nat) (f : State → State) (s : State) : State :=
  if !portUp s p.port || pkKind p != kind then s
  else
    let s := bump (ent (0xB100 + p.port) 0xB) s
    if pkGood p && hxtServed s then f s else pkDrop s

/-! ### The policer (R328, R329) -/

/-- Cycles of a second (Table 0-2). -/
def hz : Nat := 1600000000

/-- Fill per cycle in 2^−24 packet of a rate in packets per second. -/
def fillRate (pps : Nat) : Nat := pps * 2 ^ 24 / hz

/-- Buckets of a tenant as the reset fill sets them (R335). -/
def freshBucket (s : State) (t : Nat) : Bucket :=
  if dirNum s (ent (0x3200 + t) 6) = 0 then ⟨0, 0, s.clk.now⟩
  else ⟨dirNum s (ent (0x3200 + t) 3) * 2 ^ 24, dirNum s (ent (0x3200 + t) 5) * 2 ^ 24, s.clk.now⟩

/-- Buckets of a tenant at the present cycle. -/
def bucketNow (s : State) (t : Nat) : Bucket :=
  let b := smGetD s.trf.buckets t ⟨(freshBucket s t).c, (freshBucket s t).p, 0⟩
  let n := s.clk.now - b.at_
  ⟨min (dirNum s (ent (0x3200 + t) 3) * 2 ^ 24) (b.c + n * fillRate (dirNum s (ent (0x3200 + t) 2))),
   min (dirNum s (ent (0x3200 + t) 5) * 2 ^ 24) (b.p + n * fillRate (dirNum s (ent (0x3200 + t) 4))), s.clk.now⟩

/-- Colour of a packet, 0 green, 1 yellow, 2 red, for a pre-colour (3 none), and the buckets after (Table 14-2). -/
def markColour (pre : Nat) (b : Bucket) : Nat × Bucket :=
  let one := 2 ^ 24
  if pre = 2 ∨ b.p < one then (2, b)
  else if pre = 1 ∨ b.c < one then (1, { b with p := b.p - one })
  else (0, { b with p := b.p - one, c := b.c - one })

/-- Pre-colour that the DSCP map gives a code point (R329); the reserved code 3 is no pre-colour. -/
def dscpColour (s : State) (t d : Nat) : Nat :=
  bits (fieldLE (dirBytes s (ent (0x3200 + t) 7)) (d / 4) 1) (2 * (d % 4) + 1) (2 * (d % 4))

/-- Pre-colour of a packet in its tenant's mode: `seg0` is the colour its envelope's segment 0 was marked, 3 before it. -/
def preColour (s : State) (t : Nat) (p : Packet) (seg0 : Nat) : Nat :=
  let mode := dirNum s (ent (0x3200 + t) 1)
  if mode = 2 then
    (if pkKind p ≠ 1 then 3 else if pkIndex p = 0 then (if p.payload.length < 32 then 3 else evColour p.payload) else seg0)
  else if mode = 3 then dscpColour s t p.dscp
  else 3

/-- A packet policed: its colour, counted, and the state with the tokens taken. -/
def police (t : Nat) (p : Packet) (seg0 : Nat) (s : State) : Nat × State :=
  let r := if dirNum s (ent (0x3200 + t) 1) = 0 then (0, bucketNow s t) else markColour (preColour s t p seg0) (bucketNow s t)
  let s := { s with trf := { s.trf with buckets := smPut s.trf.buckets t r.2 } }
  (r.1, whenS (r.1 == 0) (bump (ent (0x3200 + t) 8)) (whenS (r.1 == 1) (bump (ent (0x3200 + t) 9)) s))

/-- POLICED NOTE counts (R340). -/
def policedNote (t red yellow : Nat) (s : State) : State :=
  trafficNote t 0x12 0 [red, yellow] (fun c => leBytes 4 (c.getD 0 0) ++ leBytes 4 (c.getD 1 0)) s

/-- A red packet dropped (R330). -/
def redDrop (t : Nat) (s : State) : State := policedNote t 1 0 (bump (ent (0x3200 + t) 0xA) s)
/-- A yellow packet dropped (R330). -/
def yellowDrop (t : Nat) (s : State) : State := policedNote t 0 1 (bump (ent (0x3200 + t) 0xB) s)

/-! ### Inboxes (R327, R331) -/

/-- Object of a queue (Table 14-10). -/
def qObj (t q sub : Nat) : Nat := ent (0x3800 + 16 * t + q) sub

/-- An envelope's entry in the reassembly list. -/
def asm? (s : State) (sid pm : Nat) : Option Asm := s.hxt.asm.find? (fun a => a.sid == sid && a.pm == pm)

/-- An entry of the reassembly list changed. -/
def onAsm (sid pm : Nat) (f : Asm → Asm) (s : State) : State :=
  { s with hxt := { s.hxt with asm := updFirst (fun a => a.sid == sid && a.pm == pm) f s.hxt.asm } }

/-- An entry of the reassembly list removed. -/
def dropAsm (sid pm : Nat) (s : State) : State :=
  { s with hxt := { s.hxt with asm := s.hxt.asm.filter (fun a => !(a.sid == sid && a.pm == pm)) } }

/-- Packets an entry holds in its inbox. -/
def asmPkts (a : Asm) : Nat := if a.ended then 0 else a.segs.length

/-- Packets in one inbox. -/
def inboxPkts (s : State) (t q : Nat) : Nat :=
  ((s.hxt.asm.filter (fun a => !a.mgmt && a.tenant == t && a.queue == q)).map asmPkts).foldl (fun a b => a + b) 0

/-- Packets in all tenants' inboxes. -/
def allInbox (s : State) : Nat := ((s.hxt.asm.filter (fun a => !a.mgmt)).map asmPkts).foldl (fun a b => a + b) 0

/-- Packets in the management inbox. -/
def mgmtInbox (s : State) : Nat := ((s.hxt.asm.filter (fun a => a.mgmt)).map asmPkts).foldl (fun a b => a + b) 0

/-- An envelope that ended before it became a request: its receipt is sent, its segments are freed, later ones are
discarded until the reassembly limit (R311, R331). -/
def endAsm (a : Asm) (type status detail : Nat) (addr : Addr) (s : State) : State :=
  let s := onAsm a.sid a.pm (fun a => { a with segs := [], ended := true }) s
  earlyReceipt a.sid a.pm type status detail a.queue addr s

/-- A complete envelope ended before it became a request: its receipt is sent and nothing of it is kept (R318). -/
def endWhole (a : Asm) (type status detail : Nat) (s : State) : State :=
  dropAsm a.sid a.pm (endAsm a type status detail a.addr s)

/-- QUEUE_FULL for an envelope of a queue: counted, notified (R331, R340). -/
def queueFull (a : Asm) (q type : Nat) (addr : Addr) (s : State) : State :=
  let s := endAsm a type 0x21 0 addr s
  if a.mgmt then s
  else trafficNote a.tenant 0x13 q [1] (fun c => leBytes 1 q ++ zeros 3 ++ leBytes 4 (c.getD 0 0)) (bump (qObj a.tenant q 0x11) s)

/-! ### Reassembly (R302) -/

/-- Segment of a packet. -/
def segOf (p : Packet) : Seg := ⟨p.w0, p.w1, p.w2, p.w3, p.payload, p.tag⟩

/-- Type of an envelope from the segments held, 0 before segment 0. -/
def asmType (a : Asm) : Nat :=
  match smGet? a.segs 0 with
  | some g => fieldLE g.payload 0 2
  | none => 0

/-- Length common to the segments before the last, none while none is held. -/
def asmLen (a : Asm) : Option Nat := (a.segs.find? (fun p => decide (p.1 + 1 < a.count))).map (fun p => p.2.payload.length)

/-- Length of the last segment, if it is held. -/
def asmLast (a : Asm) : Option Nat := (smGet? a.segs (a.count - 1)).map (fun g => g.payload.length)

/-- A segment's count, kind, index, lengths and tagged flag agree with Table 13-2, R302 and what is held. -/
def segAgrees (a : Asm) (p : Packet) : Bool :=
  let i := pkIndex p
  let n := p.payload.length
  pkCount p == a.count && decide (i < a.count) && inR a.count 1 4096 && (!pkTagged p || i + 1 == a.count)
    && (if a.count = 1 then true
        else if i + 1 < a.count then
          n % 64 == 0 && inR n 512 8192 && (asmLen a).all (fun l => l == n) && (asmLast a).all (fun m => decide (m ≤ n))
        else decide (0 < n) && (asmLen a).all (fun l => decide (n ≤ l)))

/-- The whole message of an entry, when every segment is held. -/
def asmMessage (a : Asm) : Option Bytes :=
  if a.segs.length = a.count then some (a.segs.flatMap (fun p => p.2.payload)) else none

/-- Headers and payloads of the segments, in order, for the tag (R307). -/
def asmTagged (a : Asm) : Bytes :=
  a.segs.flatMap (fun p => [p.2.w0, p.2.w1, p.2.w2, p.2.w3].flatMap (fun w => leBytes 8 w.toNat) ++ p.2.payload)

/-- The tag of the last segment is what the session requires (R307). -/
def tagGood (x : Sess) (a : Asm) : Bool :=
  let tag := ((a.segs.getLast?).map (fun p => p.2.tag)).getD []
  if x.tags then tag == slice (Config.hmac384 x.key (asmTagged a)) 0 16 else tag.isEmpty

/-- Some segment's epoch disagrees with its complement (R377). -/
def epochTorn (a : Asm) : Bool :=
  a.segs.any (fun p => bits p.2.w3.toNat 63 32 != compl 32 (bits p.2.w2.toNat 31 0))

/-- Every segment carries the node's epoch (R377). -/
def epochOwn (s : State) (a : Asm) : Bool := a.segs.all (fun p => bits p.2.w2.toNat 31 0 == epoch s)

/-! ### Requests (R308 to R310, R316 to R319, R479) -/

/-- Envelopes of a session without a receipt (R319). -/
def openEnvelopes (s : State) (sid : Nat) : Nat :=
  (s.hxt.reqs.filter (fun r => r.sid == sid)).length
    + (s.hxt.asm.filter (fun a => a.sid == sid && !a.ended && !s.hxt.reqs.any (fun r => r.sid == sid && r.pm == a.pm && r.st == .waiting))).length

/-- Types that a management-path session may send (R479). -/
def mgmtType (ty : Nat) : Bool := ty == 1 || ty == 2 || ty == 0x0501 || ty == 0x0502

/-- KERNEL_RUN refused by its tenant's caps, or while no thread is lent (R32, R58, Table 14-1). -/
def kernelQuota (s : State) (t : Nat) (m : Bytes) : Bool :=
  evType m == 0x0401 && (s.sea.kernelK == 0 || dirNum s (ent (0x3500 + t) 1) == 0
    || decide (dirNum s (ent (0x3500 + t) 2) < fieldLE m (32 + 20) 4))

/-- FLASH_DISCARD of an area that is not the tenant's, or is reserved (R251). -/
def discardStray (s : State) (t : Nat) (m : Bytes) : Bool :=
  evType m == 0x0402 && ((areaOf s (evObject m)).tenant != t || decide (254 ≤ evObject m))

/-- Lowest code among the admission checks of a complete envelope, with its detail; none when it may wait for
admission (R15, R308 to R310, R316, R377, R479). -/
def admissionFault (s : State) (x : Sess) (a : Asm) (m : Bytes) : Option (Nat × Nat) :=
  let ty := evType m
  if epochTorn a || a.pm == 0 then some (0x10, 0xFFFF)
  else match envelopeFault s x.tenant m with
  | some d => some (0x10, d)
  | none =>
    if !tagGood x a then some (0x12, 0)
    else if (ty == 0x0501 || ty == 0x0502) && !x.mgmt then some (0x12, 0)
    else if (isMgmtPath x && !mgmtType ty) || discardStray s x.tenant m then some (0x13, 0)
    else if !epochOwn s a then some (0x30, 0)
    else if kernelQuota s x.tenant m then some (0x50, 0)
    else none

/-- Where the postmark window leads a complete envelope (Table 13-11). -/
inductive WinOut where
  | run
  | duplicate
  | repeated (r : Bytes)
  | stale
  | bad
deriving DecidableEq, Repr

/-- Treatment of postmark `p` with type `ty` (Table 13-11, R316 to R318). -/
def windowOut (x : Sess) (p ty : Nat) : WinOut :=
  match smGet? x.held p with
  | some h =>
    if h.type ≠ ty then .bad
    else match h.receipt with
      | some r => .repeated r
      | none => .duplicate
  | none => if mutating ty && decide (p + 1024 ≤ x.high) then .stale else .run

/-- H raised, and held entries that are complete and below the window let go (R316). -/
def raiseHigh (p : Nat) (x : Sess) : Sess :=
  let h := max x.high p
  { x with high := h, held := x.held.filter (fun q => q.2.receipt.isNone || decide (h < q.1 + 1024)) }

/-- Address and queue for the receipt: segment 0's (R312). -/
def reqOf (s : State) (x : Sess) (a : Asm) (m : Bytes) : Req :=
  let c := evClass m
  { rid := s.hxt.nextRid, sid := a.sid, pm := a.pm, type := evType m, tenant := x.tenant, level := x.level, mgmt := isMgmtPath x,
    queue := evQueue m, cls := if c = 3 then 2 else c, obj := evObject m, body := m.drop 32, nseg := a.count, at_ := a.at_,
    addr := a.addr, st := if evType m = 2 then .admitted else .waiting, admitted := 0, admitAt := s.clk.now, cause := 0,
    points := [], late := false, cancelBy := 0, stage := 0, items := [], awaits := [], threads := 0, rounds := 0, waits := [],
    acc := [], ents := [], out := [], ready := none }

/-- A request made of a complete envelope; a CANCEL leaves its inbox at once (R320). -/
def makeReq (x : Sess) (a : Asm) (m : Bytes) (s : State) : State :=
  let r := reqOf s x a m
  let s := { s with hxt := { s.hxt with reqs := s.hxt.reqs ++ [r], nextRid := s.hxt.nextRid + 1 } }
  if r.type = 2 then dropAsm a.sid a.pm s else s

/-- A complete envelope (R307 to R319): refused with the lowest code, answered from the window, or made a request. -/
def completeAsm (x : Sess) (a : Asm) (m : Bytes) (s : State) : State :=
  let pass := tagGood x a && !epochTorn a && epochOwn s a
  let s := whenS (pass && a.pm != 0) (onSess a.sid (raiseHigh a.pm)) s
  match (if pass && a.pm != 0 && 32 ≤ m.length then windowOut { x with high := max x.high a.pm } a.pm (evType m) else .run) with
  | .duplicate => dropAsm a.sid a.pm (earlyReceipt a.sid a.pm (evType m) 2 0 a.queue a.addr (bump (ent 0xB010 0xA) s))
  | .repeated r =>
    dropAsm a.sid a.pm (postReceipt x a.addr a.queue a.pm r (bump (ent 0xB010 0xA) s))
  | .stale => endWhole a (evType m) 0x10 0xFFFF (bump (ent 0xB010 0xB) s)
  | .bad => endWhole a (evType m) 0x10 0xFFFF s
  | .run =>
    match admissionFault s x a m with
    | some (st, d) => endWhole a (evType m) st d s
    | none =>
      if 1024 < openEnvelopes s a.sid then dropAsm a.sid a.pm (queueFull a a.queue (evType m) a.addr s)
      else makeReq x a m s

end Sys2Proof.Machine
end

