-- ==== Sys2Proof/Machine/Hxt.lean ====
section
/-! DEFINITION. Hxt: the commands of Huchefen Transport: envelopes, expiries, sessions, NOTEs, PING and CANCEL
(chapter 13). -/
namespace Sys2Proof.Machine

/-! ### ENVELOPE (R300 to R319, R326 to R331, R377, R479) -/

/-- Entry of the reassembly list that a packet opens. -/
def newAsm (s : State) (x : Sess) (p : Packet) : Asm :=
  { sid := x.sid, pm := pkMark p, mgmt := isMgmtPath x, tenant := x.tenant, queue := 0, count := pkCount p, segs := [],
    colour := 3, at_ := s.clk.now, ended := false, addr := pkAddr p }

/-- Queue that a packet's entry counts against once the packet is in (R327). -/
def asmQueue (a : Asm) (p : Packet) : Nat :=
  if pkIndex p = 0 ∧ !a.mgmt ∧ 32 ≤ p.payload.length then evQueue p.payload else a.queue

/-- Address to which the entry's receipt goes: segment 0's, else the latest segment's (R312). -/
def asmAddr (a : Asm) (p : Packet) : Addr :=
  if pkIndex p = 0 ∨ (smGet? a.segs 0).isNone then pkAddr p else a.addr

/-- A segment enters its inbox, and a message now whole goes on (R327). -/
def takeSegment (x : Sess) (a : Asm) (p : Packet) (colour : Nat) (s : State) : State :=
  let q := asmQueue a p
  let a' : Asm := { a with
    segs := smPut a.segs (pkIndex p) (segOf p)
    queue := q
    colour := if pkIndex p = 0 then colour else a.colour
    addr := asmAddr a p }
  let s := if a.mgmt then s else rearmNote a.tenant 0x10 q (inboxPkts s a.tenant q) (dirNum s (qObj a.tenant q 0x12)) s
  let s := onAsm a.sid a.pm (fun _ => a') s
  let s := if a.mgmt then s
    else
      let d := inboxPkts s a.tenant q
      thresholdNote a.tenant 0x10 q d (dirNum s (qObj a.tenant q 0x12)) (leBytes 1 q ++ zeros 3 ++ leBytes 4 d) s
  match asmMessage a' with
  | some m => if s.hxt.reqs.any (fun r => r.sid == a.sid && r.pm == a.pm && r.st == .waiting) then s else completeAsm x a' m s
  | none => s

/-- Packets that would stand in the inbox a segment is bound for, before it enters (R327, R331). -/
def inboxBefore (s : State) (a : Asm) (p : Packet) : Nat :=
  if a.mgmt then mgmtInbox s
  else
    let q := asmQueue a p
    inboxPkts s a.tenant q + (if q = a.queue then 0 else asmPkts a)

/-- Room for one green packet (R331, R479). -/
def greenRoom (s : State) (a : Asm) (p : Packet) : Bool :=
  if a.mgmt then decide (mgmtInbox s < 256)
  else decide (inboxBefore s a p < dirNum s (qObj a.tenant (asmQueue a p) 1)) && decide (allInbox s < 262144)

/-- Room for one yellow packet (R330). -/
def yellowRoom (s : State) (a : Asm) (p : Packet) : Bool :=
  let q := asmQueue a p
  decide (inboxPkts s a.tenant q < dirNum s (qObj a.tenant q 2)) && decide (allInbox s < 262144)

/-- Segments waiting in queue 0 fit with segment 0 in the inbox it names (R327). -/
def movedFit (s : State) (a : Asm) (p : Packet) : Bool :=
  a.mgmt || asmQueue a p == a.queue || decide (inboxBefore s a p < dirNum s (qObj a.tenant (asmQueue a p) 1))

/-- The entry ends with BAD_ENVELOPE or another code while segments may still come (R302, R303, R311). -/
def cutAsm (a : Asm) (p : Packet) (status detail : Nat) (s : State) : State :=
  let ty := if pkIndex p = 0 ∧ 32 ≤ p.payload.length then evType p.payload else asmType a
  endAsm a ty status detail (asmAddr a p) s

/-- A segment disposed of by its colour (R330, R331). -/
def disposeSegment (x : Sess) (a : Asm) (p : Packet) (colour : Nat) (s : State) : State :=
  if colour = 1 ∧ !yellowRoom s a p then yellowDrop a.tenant s
  else if !movedFit s a p ∨ (colour = 0 ∧ !greenRoom s a p) then
    queueFull a (asmQueue a p) (if pkIndex p = 0 then evType p.payload else asmType a) (asmAddr a p) s
  else takeSegment x a p colour s

/-- A segment of an open session, past the policer: repeats ignored, contradictions end the envelope (R302, R303). -/
def placeSegment (x : Sess) (p : Packet) (colour : Nat) (s : State) : State :=
  let isNew := (asm? s x.sid (pkMark p)).isNone
  let a := (asm? s x.sid (pkMark p)).getD (newAsm s x p)
  let s := if isNew then { s with hxt := { s.hxt with asm := s.hxt.asm ++ [a] } } else s
  if a.ended then s
  else match smGet? a.segs (pkIndex p) with
  | some g =>
    if g.w0 == p.w0 && g.w1 == p.w1 && g.w2 == p.w2 && g.w3 == p.w3 && g.payload == p.payload then s
    else
      let s := { s with hxt := { s.hxt with
        reqs := s.hxt.reqs.filter (fun r => !(r.sid == x.sid && r.pm == a.pm && r.st == .waiting)) } }
      cutAsm a p 0x10 0xFFFF s
  | none =>
    if pkVersion p ≠ x.version then cutAsm a p 0x11 0 s
    else if x.version = 1 ∧ 16 < pkCount p then cutAsm a p 0x10 0xFFFF s
    else if !segAgrees a p then cutAsm a p 0x10 0xFFFF s
    else disposeSegment x a p colour s

/-- The session's latest packet: its time and address (R306, R315), and NOTEs that waited for it. -/
def heardFrom (x : Sess) (p : Packet) (s : State) : State :=
  let s := onSess x.sid (fun y => { y with lastTick := s.clk.tick, addr := pkAddr p }) s
  if isMgmtPath x then s else sendFreshNotes x.tenant s

/-- An ENVELOPE packet for a session that is not open (R306): one NO_SESSION receipt per session and postmark for
segment 0, by the control path; everything else is dropped. -/
def unknownSession (p : Packet) (s : State) : State :=
  let sid := pkSession p
  let pm := pkMark p
  if pkIndex p ≠ 0 ∨ s.hxt.unknown.any (fun u => u.1 == sid && u.2.1 == pm) then pkDrop s
  else
    let s := { s with hxt := { s.hxt with unknown := s.hxt.unknown ++ [(sid, pm, s.clk.now)] } }
    let ty := fieldLE p.payload 0 2
    putOut p.port true 0 0 (pkAddr p) 2 0
      (packetsOf 2 (pkVersion p) sid (epoch s) pm 8192 none (receiptBytes ty 0x13 0xFF 0 0 0 0 [])) s

/-- The session's tenant colours and counts the packet; a management-path session's passes no policer (R327, R479). -/
def policeFor (x : Sess) (p : Packet) (s : State) : Nat × State :=
  if isMgmtPath x then (0, s)
  else police x.tenant p (((asm? s x.sid (pkMark p)).map (fun a => a.colour)).getD 3) s

/-- ENVELOPE (R327): one packet through the checks, the policer, its inbox and reassembly. -/
def execEnvelope (p : Packet) (s : State) : Out :=
  .next (onPacket p 1 (fun s =>
    match sess? s (pkSession p) with
    | none => unknownSession p s
    | some x =>
      let s := heardFrom x p s
      let r := policeFor x p s
      if r.1 = 2 then redDrop x.tenant r.2 else placeSegment x p r.1 r.2) s)

/-- REASSEMBLY_EXPIRY (R302, R306, R311): at the reassembly limit an incomplete envelope is discarded and counted, the
discarding of later segments ends, and a remembered unknown postmark is forgotten. -/
def execReassemblyExpiry (sid pm : Nat) (s : State) : Out :=
  let lim := usCycles (dirNum s (ent 0xB010 4))
  let s := { s with hxt := { s.hxt with
    unknown := s.hxt.unknown.filter (fun u => !(u.1 == sid && u.2.1 == pm && decide (u.2.2 + lim ≤ s.clk.now))) } }
  .next (match asm? s sid pm with
    | some a =>
      if s.clk.now < a.at_ + lim then s
      else if a.ended then dropAsm sid pm s
      else if (asmMessage a).isSome then s
      else dropAsm sid pm (bump (ent 0xB010 8) s)
    | none => s)

/-! ### Handshake (R303 to R306) -/

/-- A REFUSAL (Table 13-5), by the control path. -/
def refuse (p : Packet) (helloId status : Nat) (s : State) : State :=
  let s := whenS (status == 0x12) (bump (ent 0xB010 9)) s
  putOut p.port true 0 0 (pkAddr p) 0x14 0
    (packetsOf 0x14 (pkVersion p) (pkSession p) (epoch s) 0 8192 none (leBytes 8 helloId ++ leBytes 1 status)) s

/-- HELLO's payload breaks Table 13-5 (R305). -/
def helloFields (b : Bytes) : Bool :=
  let v := fieldLE b 8 1
  let m := fieldLE b 9 1
  let t := fieldLE b 10 1
  let l := fieldLE b 12 2
  b.length != 16 || v % 8 == 0 || v != v % 8 || decide (1 < m) || (m == 0 && decide (63 < t)) || (m == 1 && t != 0xFF)
    || decide (7 < fieldLE b 11 1) || !inR l 512 8192 || l % 64 != 0 || fieldLE b 14 2 != 0

/-- A HELLO packet is malformed (R305). -/
def helloBad (p : Packet) : Bool := pkCount p != 1 || pkIndex p != 0 || pkTagged p || helloFields p.payload

/-- Highest version both offered and enabled, 0 none (R304). -/
def agreeVersion (offered enabled : Nat) : Nat :=
  let b := offered &&& enabled
  if bit b 2 then 3 else if bit b 1 then 2 else if bit b 0 then 1 else 0

/-- A tenant's handshakes are accepted: its state in force is serving (R326). -/
def tenantServes (s : State) (t : Nat) : Bool := (smGet? s.trf.tenants t).any (fun x => x.active && !x.enable)

/-- The tenant is at its session quota (Table 14-1). -/
def overSessions (s : State) (t : Nat) : Bool :=
  decide (dirNum s (ent (0x3100 + t) 4) ≤ (s.hxt.sessions.filter (fun x => x.tenant == t && !isMgmtPath x)).length)

/-- In-band challenges open. -/
def openChals (s : State) : Nat := (s.hxt.chals.filter (fun c => !c.chain)).length

/-- Challenge bytes 0 to 191 (Table 13-5). -/
def chalHead (s : State) (helloId v d : Nat) (sig : Bool) : Bytes :=
  leBytes 8 helloId ++ leBytes 1 v ++ zeros 3 ++ leBytes 4 (epoch s) ++ slice (Config.random d) 0 48
    ++ (if sig then slice (Config.ephemeral d) 0 97 else zeros 97) ++ zeros 31

/-- Next session identifier not in use. -/
def stepSid (n : Nat) : Nat := n % 0xFFFFFFFF + 1

/-- A CHALLENGE sent and remembered. -/
def challenge (p : Packet) (v : Nat) (s : State) : State :=
  let b := p.payload
  let d := draw s
  let s := d.2
  let sid := s.hxt.nextSid
  let sig := fieldLE b 9 1 == 1
  let head := chalHead s (fieldLE b 0 8) v d.1 sig
  let c := head ++ slice (Config.sign (slice (Config.sha384 (b ++ head)) 0 48)) 0 96
  let ch : Chal := { sid := sid, chain := false, src := 0, eph := d.1, hello := b, challenge := c, nonce := slice (Config.random d.1) 0 48,
                     at_ := s.clk.now, version := v, sig := sig, tenant := fieldLE b 10 1, flags := fieldLE b 11 1,
                     maxPayload := fieldLE b 12 2 }
  let s := { s with hxt := { s.hxt with chals := s.hxt.chals ++ [ch], nextSid := stepSid sid } }
  putOut p.port true 0 0 (pkAddr p) 0x11 0 (packetsOf 0x11 v sid (epoch s) 0 8192 none c) s

/-- HELLO (R304 to R306). -/
def execHello (p : Packet) (s : State) : Out :=
  .next (onPacket p 0x10 (fun s =>
    let b := p.payload
    let id := fieldLE b 0 8
    let t := fieldLE b 10 1
    let v := agreeVersion (fieldLE b 8 1) (dirNum s (ent 0xB010 2))
    let psk := fieldLE b 9 1 == 0
    if helloBad p then refuse p id 0x10 s
    else if v = 0 then refuse p id 0x11 s
    else if psk && !tenantServes s t then refuse p id 0x12 s
    else if !psk && !s.sec.idKey then refuse p id 0x12 s
    else if psk && overSessions s t then refuse p id 0x50 s
    else if 4096 ≤ s.hxt.sessions.length then refuse p id 0x51 s
    else if 256 ≤ openChals s then bump (ent 0xB010 0xD) s
    else challenge p v s) s)

/-- RESPONSE's payload breaks Table 13-5 (R305). -/
def responseFields (b : Bytes) (sig : Bool) : Bool :=
  let c := fieldLE b 304 2
  b.length != 320 + c || decide (7872 < c) || (!sig && c != 0)
    || !allZero (slice b 153 7) || !allZero (slice b 306 14)
    || (if sig then !allZero (slice b 160 48) else !(allZero (slice b 56 97) && allZero (slice b 208 96)))

/-- A RESPONSE packet is malformed (R305). -/
def responseBad (p : Packet) (sig : Bool) : Bool :=
  pkCount p != 1 || pkIndex p != 0 || pkTagged p || responseFields p.payload sig

/-- Operator root certificate (R439). -/
def operatorRoot (s : State) : Bytes := dirBytes s (ent 0x9010 3)

/-- The leaf's role and tenant admit a session (R438): 0 TENANT with a tenant, 1 OPERATOR, 2 SECURITY. -/
def leafAdmits (r : Nat × Nat) : Bool := (r.1 == 0 && decide (r.2 < 64)) || r.1 == 1 || r.1 == 2

/-- Who a RESPONSE proves the host to be: level, tenant; none when the proof, chain or role fails (R305, R438, R445). -/
def proveHost (s : State) (c : Chal) (b : Bytes) : Option (Level × Nat) :=
  let nonce := slice b 8 48
  if c.sig then
    let certs := slice b 320 (fieldLE b 304 2)
    let oid := dirBytes s (ent 0x9010 4)
    let role := Config.leafRole certs oid
    let digest := slice (Config.sha384 (c.hello ++ c.challenge ++ slice b 0 160)) 0 48
    if !(operatorRoot s).isEmpty && s.sec.idKey && Config.chainOk (operatorRoot s) certs oid
        && Config.leafSigned certs digest (slice b 208 96) && leafAdmits role then
      some (if role.1 = 0 then .tenant else if role.1 = 1 then .operator else .security, if role.1 = 0 then role.2 else 0xFF)
    else none
  else match smGet? s.sec.psk c.tenant with
  | some k =>
    if !s.sec.pskBad.contains c.tenant && slice b 160 48 == slice (Config.hmac384 k (c.nonce ++ nonce ++ c.hello)) 0 48 then
      some (.tenant, c.tenant)
    else none
  | none => none

/-- Session key (R305). -/
def sessionKey (s : State) (c : Chal) (b : Bytes) (info : List Char) : Bytes :=
  let ikm := if c.sig then slice (Config.ecdhX c.eph (slice b 56 97)) 0 48 else smGetD s.sec.psk c.tenant []
  slice (Config.hkdf384 (c.nonce ++ slice b 8 48) ikm (info.map (fun x => BitVec.ofNat 8 x.toNat) ++ leBytes 4 c.sid)) 0 48

/-- The session a proved RESPONSE opens. -/
def newSess (s : State) (c : Chal) (b : Bytes) (a : Addr) (lv : Level) (t : Nat) : Sess :=
  { sid := c.sid, level := lv, tenant := t, mgmt := c.sig && (bit c.flags 0 || lv != .tenant), version := c.version,
    tags := bit c.flags 1, noteOrd := if bit c.flags 2 then s.hxt.nextOrd else 0, maxPayload := c.maxPayload,
    key := sessionKey s c b ['h', 'x', 't', '-', 's', 'e', 's', 's', 'i', 'o', 'n'], high := 0, held := [], addr := a,
    lastTick := s.clk.tick, nonce := none }

/-- Count of open sessions kept in its entry. -/
def sessCount (s : State) : State := dirSet (ent 0xB010 6) s.hxt.sessions.length s

/-- WELCOME's payload (Table 13-5). -/
def welcomeBytes (c : Chal) (key : Bytes) (tenant version flags : Nat) : Bytes :=
  slice c.hello 0 8 ++ leBytes 1 tenant ++ leBytes 1 version ++ leBytes 1 flags ++ zeros 5
    ++ slice (Config.hmac384 key (("welcome".toList.map (fun ch => BitVec.ofNat 8 ch.toNat)) ++ c.nonce)) 0 48

/-- WELCOME sent (Table 13-5). -/
def welcome (p : Packet) (c : Chal) (x : Sess) (s : State) : State :=
  let b := welcomeBytes c x.key x.tenant x.version (b01 x.mgmt + 2 * b01 x.tags + 4 * b01 (decide (0 < x.noteOrd)))
  putOut p.port true 0 0 (pkAddr p) 0x13 0 (packetsOf 0x13 x.version x.sid (epoch s) 0 8192 none b) s

/-- A challenge used up. -/
def dropChal (sid : Nat) (chain : Bool) (s : State) : State :=
  { s with hxt := { s.hxt with chals := s.hxt.chals.filter (fun c => !(c.sid == sid && c.chain == chain)) } }

/-- A session entered among at most 4,096 (R306). -/
def addSess (x : Sess) (s : State) : State :=
  if s.hxt.sessions.length < 4096 then
    { s with hxt := { s.hxt with sessions := s.hxt.sessions ++ [x], nextOrd := s.hxt.nextOrd + b01 (decide (0 < x.noteOrd)) } }
  else s

/-- RESPONSE for an open challenge: its checks in order, then the session. -/
def answerChal (p : Packet) (c : Chal) (s : State) : State :=
  let b := p.payload
  let id := fieldLE b 0 8
  let s := dropChal c.sid false s
  if responseBad p c.sig then refuse p id 0x10 s
  else
    let s := whenS (!c.sig && s.sec.pskBad.contains c.tenant)
      (record 3 1 8 0 0 0 0x12 (some c.tenant)) s
    match proveHost s c b with
  | none => refuse p id 0x12 s
  | some (lv, t) =>
    if lv == .tenant && c.sig && !tenantServes s t then refuse p id 0x12 s
    else if lv == .tenant && c.sig && overSessions s t then refuse p id 0x50 s
    else if 4096 ≤ s.hxt.sessions.length then refuse p id 0x51 s
    else
      let x := newSess s c b (pkAddr p) lv t
      let s := sessCount (addSess x s)
      let s := welcome p c x s
      if isMgmtPath x then s else sendFreshNotes t s

/-- RESPONSE (R304 to R306, R315, R445): late, second or unmatched ones are refused with NO_SESSION. -/
def execResponse (p : Packet) (s : State) : Out :=
  .next (onPacket p 0x12 (fun s =>
    match s.hxt.chals.find? (fun c => c.sid == pkSession p && !c.chain && slice c.hello 0 8 == slice p.payload 0 8) with
    | some c => if s.clk.now ≤ c.at_ + usCycles 10000 then answerChal p c s
      else refuse p (fieldLE p.payload 0 8) 0x13 (dropChal c.sid false s)
    | none => refuse p (fieldLE p.payload 0 8) 0x13 s) s)

/-- CHALLENGE_EXPIRY (R305): a challenge is valid for 10 ms. -/
def execChallengeExpiry (sid : Nat) (s : State) : Out :=
  .next { s with hxt := { s.hxt with
    chals := s.hxt.chals.filter (fun c => !(c.sid == sid && decide (c.at_ + usCycles 10000 < s.clk.now))) } }

/-! ### Closing (R306) -/

/-- A session closes: envelopes not yet admitted are discarded, admitted ones run on; its transfer slots close (R401). -/
def closeSess (sid : Nat) (s : State) : State :=
  let s := { s with dir := { s.dir with slots := s.dir.slots.filter (fun p => !(p.2.owner == sid && !p.2.chain)) } }
  sessCount { s with hxt := { s.hxt with
    sessions := s.hxt.sessions.filter (fun x => x.sid != sid)
    asm := s.hxt.asm.filter (fun a => a.sid != sid)
    reqs := s.hxt.reqs.filter (fun r => !(r.sid == sid && r.st == .waiting)) } }

/-- BYE (R306, R327): policed, it closes the session; for an unknown session it is dropped and counted. -/
def execBye (p : Packet) (s : State) : Out :=
  .next (onPacket p 0x15 (fun s =>
    match sess? s (pkSession p) with
    | none => pkDrop s
    | some x =>
      let r := policeFor x p s
      if r.1 = 2 then redDrop x.tenant r.2 else closeSess x.sid r.2) s)

/-- SESSION_IDLE_CLOSE (R306). -/
def execSessionIdleClose (sid : Nat) (s : State) : Out :=
  .next (match sess? s sid with
    | some x =>
      if x.lastTick + dirNum s (ent 0xB010 3) ≤ s.clk.tick && !s.hxt.reqs.any (fun r => r.sid == sid && r.st != .waiting) then
        closeSess sid s
      else s
    | none => s)

/-! ### NOTEs (R315) -/

/-- NOTE_ACK (R315, R327): every pending NOTE up to the sequence leaves the pending set. -/
def execNoteAck (p : Packet) (s : State) : Out :=
  .next (onPacket p 4 (fun s =>
    match sess? s (pkSession p) with
    | none => pkDrop s
    | some x =>
      let s := heardFrom x p s
      let r := policeFor x p s
      if r.1 = 2 then redDrop x.tenant r.2
      else if x.version < 3 ∨ isMgmtPath x then r.2
      else onNotes x.tenant (fun n => { n with pending := n.pending.filter (fun m => decide (m.sends = 0) || decide (pkMark p < m.seq)) }) r.2) s)

/-- Due resend of one NOTE: sent again, or counted as lost after its eighth resend. -/
def resendNote (t : Nat) (n : Note) (s : State) : State :=
  if n.sends = 0 ∨ s.clk.tick < n.lastTick + dirNum s (ent 0xB010 5) then s
  else if 8 < n.sends then
    bump (ent 0xB010 0xC) (onNotes t (fun k => { k with
      pending := k.pending.filter (fun m => m.seq != n.seq)
      lost := min 0xFFFF (k.lost + 1) }) s)
  else sendNote t n.seq s

/-- NOTE_RESEND (R315): the unacknowledged NOTEs of a tenant whose interval has passed. -/
def execNoteResend (t : Nat) (s : State) : Out :=
  .next (if s.phase = .serving then foldS (notesOf s t).pending (resendNote t) s else s)

/-! ### PING and CANCEL (R313, R320) -/

/-- PING (R313, R377): the node's timestamp and epoch. -/
def execPing (rid : Nat) (s : State) : Out :=
  .next (match req? s rid with
    | some r =>
      if r.type = 1 ∧ r.st = .admitted then
        endReq rid 0 0 0 (leBytes 8 (timestamp s) ++ leBytes 4 (epoch s) ++ zeros 4) s
      else s
    | none => s)

/-- Receipt of a CANCEL with its result. -/
def endCancel (rid result : Nat) (s : State) : State := endReq rid 0 0 0 (leBytes 1 result ++ zeros 7) s

/-- A target not yet admitted ends with ABORTED. -/
def cancelWaiting (sid pm : Nat) (s : State) : State :=
  match s.hxt.reqs.find? (fun r => r.sid == sid && r.pm == pm && r.st == .waiting) with
  | some r => dropAsm sid pm (failReq r.rid 0x60 s)
  | none => match asm? s sid pm with
    | some a =>
      let ty := asmType a
      let hold := fun (x : Sess) =>
        { x with held := smPut x.held pm ⟨ty, some (receiptBytes ty 0x60 0xFF 0 0 0 0 [])⟩ }
      whenS (mutating ty) (onSess sid hold) (endAsm a ty 0x60 0 a.addr s)
    | none => s

/-- CANCEL (R320): the target is cancelled, refused, marked to end at the boundary, or unknown. -/
def execCancel (rid : Nat) (s : State) : Out :=
  .next (match req? s rid with
    | some c =>
      if c.type = 2 ∧ c.st = .admitted then
        let sid := c.sid
        let pm := c.obj
        if s.hxt.reqs.any (fun r => r.sid == sid && r.pm == pm && r.st == .waiting)
            || (asm? s sid pm).any (fun a => !a.ended && (smGet? a.segs 0).isSome) then
          endCancel rid 0 (cancelWaiting sid pm s)
        else match s.hxt.reqs.find? (fun r => r.sid == sid && r.pm == pm && r.rid != rid && r.type != 2) with
        | none => endCancel rid 2 s
        | some r =>
          if mutating r.type then endCancel rid 1 s
          else onReq rid (fun c => { c with st := .executing }) (onReq r.rid (fun r => { r with cancelBy := rid }) s)
      else s
    | none => s)

end Sys2Proof.Machine
end

