-- ==== Sys2Proof/Machine/Floats.lean ====
section
/-! DEFINITION. Floats: exact binary floating-point arithmetic: values as sign, magnitude and exponent, one rounding into
a format, and the conversions built on it (R62 to R66, R71, R72; IEEE 754 for the F and D extensions of R33). -/
namespace Sys2Proof.Machine

/-- A binary format: exponent bits and fraction bits. -/
structure Fmt where
  eb : Nat
  mb : Nat
deriving DecidableEq, Repr

/-- binary32. -/
def fmt32 : Fmt := ⟨8, 23⟩
/-- binary64. -/
def fmt64 : Fmt := ⟨11, 52⟩
/-- bf16. -/
def fmtBf : Fmt := ⟨8, 7⟩
/-- fp8 E5M2. -/
def fmtE5 : Fmt := ⟨5, 2⟩
/-- fp8 E4M3: no infinity, one NaN per sign (Table 3-2). -/
def fmtE4 : Fmt := ⟨4, 3⟩

/-- A value read from a bit pattern: finite values are `m × 2^e` with a sign. -/
inductive Fp where
  | nan (signalling : Bool)
  | inf (neg : Bool)
  | fin (neg : Bool) (m : Nat) (e : Int)
deriving DecidableEq, Repr

/-- Exponent bias. -/
def Fmt.bias (f : Fmt) : Int := (2 ^ (f.eb - 1) : Nat) - 1

/-- Sign, exponent field and fraction field of a pattern. -/
def fpFields (f : Fmt) (b : Nat) : Bool × Nat × Nat :=
  (bit b (f.eb + f.mb), bits b (f.eb + f.mb - 1) f.mb, bits b (f.mb - 1) 0)

/-- The finite value of an exponent and fraction field. -/
def fpFin (f : Fmt) (neg : Bool) (x m : Nat) : Fp :=
  if x = 0 then .fin neg m (1 - f.bias - f.mb) else .fin neg (2 ^ f.mb + m) (x - f.bias - f.mb)

/-- Value of a pattern in a format with the IEEE 754 special encodings. -/
def fpOf (f : Fmt) (b : Nat) : Fp :=
  let (neg, x, m) := fpFields f b
  if x = 2 ^ f.eb - 1 then (if m = 0 then .inf neg else .nan (!bit m (f.mb - 1))) else fpFin f neg x m

/-- Value of an E4M3 pattern (Table 3-2). -/
def fpE4 (b : Nat) : Fp :=
  let (neg, x, m) := fpFields fmtE4 b
  if x = 15 ∧ m = 7 then .nan false else fpFin fmtE4 neg x m

/-- Canonical NaN of a format. -/
def canonNan (f : Fmt) : Nat := fld (2 ^ (f.eb + 1) - 1) (f.mb - 1)

/-- Infinity of a sign. -/
def fpInf (f : Fmt) (neg : Bool) : Nat := fld (b01 neg) (f.eb + f.mb) + fld (2 ^ f.eb - 1) f.mb

/-- Largest finite value of a sign. -/
def fpMax (f : Fmt) (neg : Bool) : Nat := fpInf f neg - 1

/-- Zero of a sign. -/
def fpZero (f : Fmt) (neg : Bool) : Nat := fld (b01 neg) (f.eb + f.mb)

/-- Rounding modes of frm: nearest even, towards zero, down, up, nearest with ties away. -/
inductive Rm where
  | rne | rtz | rdn | rup | rmm
deriving DecidableEq, Repr

/-- Whether a magnitude with remainder `r` of `d` above kept value `q` rounds up. -/
def roundUp (rm : Rm) (neg : Bool) (q r d : Nat) : Bool :=
  match rm with
  | .rne => decide (d < 2 * r) || (decide (2 * r = d) && q % 2 == 1)
  | .rtz => false
  | .rdn => neg && r != 0
  | .rup => !neg && r != 0
  | .rmm => decide (d ≤ 2 * r) && r != 0

/-- `m` divided by `2^k` and rounded; a negative `k` shifts left. -/
def shiftRound (rm : Rm) (neg : Bool) (m : Nat) (k : Int) : Nat × Bool :=
  if k ≤ 0 then (m <<< (-k).toNat, true)
  else
    let d := 2 ^ k.toNat
    let q := m / d
    let r := m % d
    (if roundUp rm neg q r d then q + 1 else q, r == 0)

/-- Overflow result of a rounding mode: infinity, or the largest finite value. -/
def overflowTo (f : Fmt) (rm : Rm) (neg : Bool) : Nat :=
  match rm with
  | .rne => fpInf f neg
  | .rmm => fpInf f neg
  | .rtz => fpMax f neg
  | .rdn => if neg then fpInf f neg else fpMax f neg
  | .rup => if neg then fpMax f neg else fpInf f neg

/-- The exact value `m × 2^e` rounded once into a format: pattern and flags (OF, UF, NX). `m` may carry a sticky low
bit when it has at least three bits more than the format. Tininess is judged after rounding. -/
def fpRound (f : Fmt) (rm : Rm) (neg : Bool) (m : Nat) (e : Int) : Nat × Nat :=
  if m = 0 then (fpZero f neg, 0)
  else
    let top : Int := (Nat.log2 m : Int) + e
    let emin : Int := 1 - f.bias
    let q : Int := (if top < emin then emin else top) - f.mb
    let (v, exact) := shiftRound rm neg m (q - e)
    let b := if top < emin then v else fld ((top + f.bias).toNat) f.mb + (v - 2 ^ f.mb)
    let full := shiftRound rm neg m (top - f.mb - e)
    let tiny := decide (top < emin) && !(decide (top = emin - 1) && decide (full.1 = 2 ^ (f.mb + 1)))
    if fpInf f false ≤ b then (overflowTo f rm neg, ffOF ||| ffNX)
    else (fld (b01 neg) (f.eb + f.mb) + b, if exact then 0 else if tiny then ffUF ||| ffNX else ffNX)

/-- A finite value as an integer count of `2^(-k)`; exact when its exponent is at least `-k`. -/
def fpScaled (k : Nat) (neg : Bool) (m : Nat) (e : Int) : Int :=
  let n : Int := (m <<< (e + k).toNat : Nat)
  if neg then -n else n

/-- An integer count of `2^(-k)` rounded into a format; an exact zero takes the sign given. -/
def roundScaled (f : Fmt) (rm : Rm) (k : Nat) (zeroNeg : Bool) (n : Int) : Nat × Nat :=
  if n = 0 then (fpZero f zeroNeg, 0) else fpRound f rm (decide (n < 0)) n.natAbs (-(k : Int))

/-! ### Conversions (R65, R66) -/

/-- fp32 to bf16 (R65). -/
def toBf16 (b : Nat) : Nat :=
  match fpOf fmt32 b with
  | .nan _ => 0x7FC0
  | .inf n => fpInf fmtBf n
  | .fin n m e => (fpRound fmtBf .rne n m e).1

/-- fp32 to E5M2 (R65). -/
def toE5M2 (b : Nat) : Nat :=
  match fpOf fmt32 b with
  | .nan _ => 0x7E
  | .inf n => fpInf fmtE5 n
  | .fin n m e => (fpRound fmtE5 .rne n m e).1

/-- fp32 to E4M3 (R65): beyond the largest finite value, ±448. -/
def toE4M3 (b : Nat) : Nat :=
  match fpOf fmt32 b with
  | .nan _ => 0x7F
  | .inf n => fld (b01 n) 7 + 0x7E
  | .fin n m e =>
    let mag := shiftRound .rne n m (-9 - e)
    let top : Int := (Nat.log2 m : Int) + e
    if m = 0 then fld (b01 n) 7
    else if top < -6 then fld (b01 n) 7 + mag.1
    else
      let v := shiftRound .rne n m (top - 3 - e)
      let code := fld (top + 7).toNat 3 + (v.1 - 8)
      fld (b01 n) 7 + (if 0x7E < code then 0x7E else code)

/-- fp32 to int32 fixed-point with `frac` fractional bits (R66): the pattern, and whether it was saturated or NaN. -/
def toFix32 (frac b : Nat) : Nat × Bool :=
  match fpOf fmt32 b with
  | .nan _ => (0, true)
  | .inf n => (if n then 0x80000000 else 0x7FFFFFFF, true)
  | .fin n m e =>
    let v := (shiftRound .rmm n m (-e - frac)).1
    let i : Int := if n then -(v : Int) else v
    let c := satInt 32 i
    (wrap 32 c, decide (c ≠ i))

/-- An integer converted to fp32, nearest even. -/
def intToF32 (i : Int) : Nat := (roundScaled fmt32 .rne 0 false i).1

/-- Quiet comparison key of an fp32 pattern: none for NaN; both zeros are 0 (R85). -/
def f32Key (b : Nat) : Option Int :=
  match fpOf fmt32 b with
  | .nan _ => none
  | .inf n => some (if n then -(2 ^ 300 : Nat) else (2 ^ 300 : Nat))
  | .fin n m e => some (fpScaled 149 n m e)

/-- Product of two fp32 values rounded once, nearest even. -/
def f32Mul (a b : Nat) : Nat :=
  match fpOf fmt32 a, fpOf fmt32 b with
  | .nan _, _ => canonNan fmt32
  | _, .nan _ => canonNan fmt32
  | .inf n, .inf k => fpInf fmt32 (n != k)
  | .inf n, .fin k m _ => if m = 0 then canonNan fmt32 else fpInf fmt32 (n != k)
  | .fin k m _, .inf n => if m = 0 then canonNan fmt32 else fpInf fmt32 (n != k)
  | .fin n m e, .fin k p x => (fpRound fmt32 .rne (n != k) (m * p) (e + x)).1

/-- Sum of two fp32 values rounded once, nearest even. -/
def f32Add (a b : Nat) : Nat :=
  match fpOf fmt32 a, fpOf fmt32 b with
  | .nan _, _ => canonNan fmt32
  | _, .nan _ => canonNan fmt32
  | .inf n, .inf k => if n = k then fpInf fmt32 n else canonNan fmt32
  | .inf n, .fin _ _ _ => fpInf fmt32 n
  | .fin _ _ _, .inf k => fpInf fmt32 k
  | .fin n m e, .fin k p x =>
    (roundScaled fmt32 .rne 149 (n && k && m == 0 && p == 0) (fpScaled 149 n m e + fpScaled 149 k p x)).1

/-- Negation of an fp32 value. -/
def f32Neg (a : Nat) : Nat := a ^^^ 0x80000000

/-- Quotient of two finite magnitudes with a sticky low bit, at least `n` bits long, and its exponent. -/
def divSticky (n : Nat) (m : Nat) (e : Int) (p : Nat) (x : Int) : Nat × Int :=
  let sh := n + Nat.log2 p + 1
  let num := m <<< sh
  let q := num / p
  (q * 2 + b01 (num % p != 0), e - x - sh - 1)

/-- Quotient of two fp32 values rounded once, nearest even. -/
def f32Div (a b : Nat) : Nat :=
  match fpOf fmt32 a, fpOf fmt32 b with
  | .nan _, _ => canonNan fmt32
  | _, .nan _ => canonNan fmt32
  | .inf n, .inf _ => if n then canonNan fmt32 else canonNan fmt32
  | .inf n, .fin k _ _ => fpInf fmt32 (n != k)
  | .fin n _ _, .inf k => fpZero fmt32 (n != k)
  | .fin n m e, .fin k p x =>
    if p = 0 then (if m = 0 then canonNan fmt32 else fpInf fmt32 (n != k))
    else
      let q := divSticky 28 m e p x
      (fpRound fmt32 .rne (n != k) q.1 q.2).1

/-- An fp32 value converted to an integer, rounding half away from zero; none for NaN or infinity. -/
def f32Round? (b : Nat) : Option Int :=
  match fpOf fmt32 b with
  | .fin n m e =>
    let v := (shiftRound .rmm n m (-e)).1
    some (if n then -(v : Int) else v)
  | _ => none

/-- bf16 pattern widened to fp32. -/
def bfToF32 (b : Nat) : Nat := fld b 16

/-! ### The quantiser (R80, R81) -/

/-- Largest absolute value among the finite values of a block, as fp32. -/
def blockMax (l : List Nat) : Nat :=
  l.foldl (fun a b =>
    match f32Key (b % 2 ^ 31), f32Key a with
    | some k, some j => if b % 2 ^ 31 < 0x7F800000 ∧ j < k then b % 2 ^ 31 else a
    | _, _ => a) 0

/-- Greater of two non-negative fp32 values. -/
def f32Max (a b : Nat) : Nat := max a b

/-- Scale and reciprocal of a block with maximum `a` for the bound `q` (R80). -/
def quantScale (q a : Nat) : Nat × Nat :=
  if a = 0 then (0, 0) else (f32Div a (intToF32 q), f32Div (intToF32 q) a)

/-- One value quantised (R80, R81): the integer, whether it clipped, whether it was NaN. -/
def quantOne (q recip x : Nat) : Int × Bool × Bool :=
  match fpOf fmt32 x with
  | .nan _ => (0, false, true)
  | .inf n => (if n then -(q : Int) else q, true, false)
  | .fin n _ _ =>
    match f32Round? (f32Mul x recip) with
    | some i => if i > (q : Int) then ((q : Int), true, false) else if i < -(q : Int) then (-(q : Int), true, false) else (i, false, false)
    | none => (if n then -(q : Int) else q, true, false)

end Sys2Proof.Machine
end

