-- ==== Sys2Proof/Machine/Eorus.lean ====
section
/-! DEFINITION. Eorus: EDOT, EDOTF and ERESCALE (chapter 3). -/
namespace Sys2Proof.Machine

/-- Conditions common to the three instructions (R77): bit [25] clear, vstart zero, VS and XS not Off. -/
def scoreReady (t : Thread) (w : W32) : Bool :=
  !bit w.toNat 25 && rcsr t 0x008 == 0 && mVS t != 0 && mXS t != 0

/-- Four registers from `r`. -/
def regs4 (r : Nat) : List Nat := [r, r + 1, r + 2, r + 3]

/-! ### EDOT (R68, R69) -/

/-- The encoding is one R68 gives. -/
def edotLegal (w : W32) : Bool :=
  let fmt := bits w.toNat 31 29
  wOpcode w == 0x0B && wF3 w == 0 && wRs1 w % 4 == 0
    && (fmt == 0 || (fmt == 1 && decide (bits w.toNat 28 27 < 2)))

/-- Sum of products of one row with the query slice (R69). -/
def edotSum (fmt row q : Nat) : Int :=
  let n := if fmt = 0 then 16 else 32
  (upFrom 0 n).foldl (fun acc j =>
    let a := if fmt = 0 then sgn 8 (bits row (8 * j + 7) (8 * j)) else sgn 4 (bits row (4 * j + 3) (4 * j))
    acc + a * sgn 8 (bits q (8 * j + 7) (8 * j))) 0

/-- Query slice: 16 bytes, or 32 in the int4 form (R67). -/
def edotQuery (fmt k : Nat) (v : V512) : Nat := if fmt = 0 then lane 128 v k else lane 256 v k

/-- New value of one lane before saturation. -/
def edotLane (t : Thread) (w : W32) (i : Nat) : Int :=
  let fmt := bits w.toNat 31 29
  let sum := edotSum fmt (rowOf (rv t) (wRs1 w) i) (edotQuery fmt (bits w.toNat 28 27) (rv t (wRs2 w)))
  if bit w.toNat 26 then sgn 32 (lane 32 (rv t (wRd w)) i) + sum else sum

/-- EDOT on a thread: vd, ISAT, VS Dirty, pc. -/
def edotThread (w : W32) (t : Thread) : Thread :=
  let ls := (upFrom 0 16).map (edotLane t w)
  let out := ofLanes 32 (ls.map (fun i => wrap 32 (satInt 32 i)))
  let sat := ls.any (fun i => satInt 32 i != i)
  let t' := if sat then setCsr 0x8C4 (rcsr t 0x8C4 ||| ISAT) t else t
  advance 4 (dirtyVS (setV (wRd w) out t'))

/-- EDOT (R68, R69, R77). -/
def execEdot (th : Nat) (w : W32) (s : State) : Out :=
  .next (onRegs th [] [] (regs4 (wRs1 w) ++ [wRs2 w, wRd w]) (fun s =>
    if edotLegal w && scoreReady (thread s th) w then onThread th (edotThread w) s else illegal th w s) s)

/-! ### EDOTF (R70 to R72) -/

/-- The encoding is one R70 gives, and FS is not Off. -/
def edotfLegal (t : Thread) (w : W32) : Bool :=
  wOpcode w == 0x0B && wF3 w == 1 && wRs1 w % 4 == 0 && decide (bits w.toNat 31 29 < 5) && mFS t != 0

/-- Row element `j` under a format code (Table 3-4). -/
def edotfRow (fmt row j : Nat) : Fp :=
  if fmt = 4 then fpOf fmtBf (bits row (16 * j + 15) (16 * j))
  else if fmt = 0 ∨ fmt = 2 then fpE4 (bits row (8 * j + 7) (8 * j)) else fpOf fmtE5 (bits row (8 * j + 7) (8 * j))

/-- Query element `j` under a format code (Table 3-4). -/
def edotfQuery (fmt q j : Nat) : Fp :=
  if fmt = 4 then fpOf fmtBf (bits q (16 * j + 15) (16 * j))
  else if fmt = 0 ∨ fmt = 3 then fpE4 (bits q (8 * j + 7) (8 * j)) else fpOf fmtE5 (bits q (8 * j + 7) (8 * j))

/-- What the terms of a lane amount to so far. -/
structure FSum where
  /-- Exact sum of the finite terms in units of 2^−300. -/
  sum : Int
  nan : Bool
  /-- Infinity times zero, or a signalling NaN accumulator. -/
  invalid : Bool
  posInf : Bool
  negInf : Bool
  /-- Every term so far is −0. -/
  allNeg0 : Bool
deriving DecidableEq, Repr

/-- A finite or infinite term added. -/
def FSum.add (a : FSum) : Fp → FSum
  | .nan sg => { a with nan := true, invalid := a.invalid || sg, allNeg0 := false }
  | .inf n => { a with posInf := a.posInf || !n, negInf := a.negInf || n, allNeg0 := false }
  | .fin n m e => { a with sum := a.sum + fpScaled 300 n m e, allNeg0 := a.allNeg0 && n && m == 0 }

/-- A product added; a NaN operand of fp8 or bf16 makes the lane NaN without NV (R72). -/
def FSum.mul (a : FSum) (x y : Fp) : FSum :=
  match x, y with
  | .nan _, _ => { a with nan := true, allNeg0 := false }
  | _, .nan _ => { a with nan := true, allNeg0 := false }
  | .inf n, .inf k => a.add (.inf (n != k))
  | .inf n, .fin k m _ => if m = 0 then { a with nan := true, invalid := true, allNeg0 := false } else a.add (.inf (n != k))
  | .fin k m _, .inf n => if m = 0 then { a with nan := true, invalid := true, allNeg0 := false } else a.add (.inf (n != k))
  | .fin n m e, .fin k p x => a.add (.fin (n != k) (m * p) (e + x))

/-- The lane and the flags of a finished sum (R71, R72). -/
def FSum.result (a : FSum) : Nat × Nat :=
  let bad := a.posInf && a.negInf
  let nv := if a.invalid || bad then ffNV else 0
  if a.nan || bad then (0x7FC00000, nv)
  else if a.posInf then (fpInf fmt32 false, nv)
  else if a.negInf then (fpInf fmt32 true, nv)
  else
    let r := roundScaled fmt32 .rne 300 a.allNeg0 a.sum
    (r.1, r.2 ||| nv)

/-- One lane: its new value and flags. -/
def edotfLane (t : Thread) (w : W32) (i : Nat) : Nat × Nat :=
  let fmt := bits w.toNat 31 29
  let row := rowOf (rv t) (wRs1 w) i
  let q := lane 128 (rv t (wRs2 w)) (bits w.toNat 28 27)
  let z : FSum := ⟨0, false, false, false, false, true⟩
  let a := (upFrom 0 (if fmt = 4 then 8 else 16)).foldl (fun a j => a.mul (edotfRow fmt row j) (edotfQuery fmt q j)) z
  let a := if bit w.toNat 26 then a.add (fpOf fmt32 (lane 32 (rv t (wRd w)) i)) else a
  a.result

/-- EDOTF on a thread: vd, fflags, VS and FS Dirty, pc. -/
def edotfThread (w : W32) (t : Thread) : Thread :=
  let ls := (upFrom 0 16).map (edotfLane t w)
  let fl := ls.foldl (fun a p => a ||| p.2) 0
  let t' := setCsr 0x003 (rcsr t 0x003 ||| fl) (setV (wRd w) (ofLanes 32 (ls.map (fun p => p.1))) t)
  advance 4 (dirtyFS (dirtyVS t'))

/-- EDOTF (R70 to R72, R77). -/
def execEdotf (th : Nat) (w : W32) (s : State) : Out :=
  .next (onRegs th [] [] (regs4 (wRs1 w) ++ [wRs2 w, wRd w]) (fun s =>
    if edotfLegal (thread s th) w && scoreReady (thread s th) w then onThread th (edotfThread w) s
    else illegal th w s) s)

/-! ### ERESCALE (R73, R74) -/

/-- The encoding is one R73 gives. -/
def erescaleLegal (w : W32) : Bool :=
  let o := bits w.toNat 31 30
  let k := bits w.toNat 29 27
  wOpcode w == 0x0B && wF3 w == 2 && wRs2 w % 2 == 0
    && ((o == 0 && decide (k < 4)) || o == 1 || (o == 2 && decide (k < 2)))

/-- Product shifted right with rounding half away from zero (R74). -/
def rescale (x m : Int) (sh : Nat) : Int :=
  let p := x * m
  if sh = 0 then p
  else
    let v : Int := ((p.natAbs + 2 ^ (sh - 1)) >>> sh : Nat)
    if p < 0 then -v else if p = 0 then 0 else v

/-- Output width of an `out` code. -/
def outBits (o : Nat) : Nat := if o = 0 then 8 else if o = 1 then 4 else 16

/-- Unsaturated result of lane `i`. -/
def erescaleLane (t : Thread) (w : W32) (i : Nat) : Int :=
  let j := if bit w.toNat 26 then 0 else i
  rescale (sgn 32 (lane 32 (rv t (wRs1 w)) i)) (sgn 32 (lane 32 (rv t (wRs2 w)) j))
    (lane 32 (rv t (wRs2 w + 1)) j % 64)

/-- ERESCALE on a thread: the slice of vd, RSAT, esatcnt, VS Dirty, pc. -/
def erescaleThread (w : W32) (t : Thread) : Thread :=
  let n := outBits (bits w.toNat 31 30)
  let ls := (upFrom 0 16).map (erescaleLane t w)
  let packed := (ls.foldr (fun x acc => wrap n (satInt n x) + acc * 2 ^ n) 0)
  let out := vSetBits (rv t (wRd w)) (bits w.toNat 29 27 * 16 * n) (16 * n) packed
  let sat := (ls.filter (fun x => satInt n x != x)).length
  let t' := if sat = 0 then t
    else setCsr 0x8C5 (satCount 64 (rcsr t 0x8C5) sat) (setCsr 0x8C4 (rcsr t 0x8C4 ||| RSAT) t)
  advance 4 (dirtyVS (setV (wRd w) out t'))

/-- ERESCALE (R73, R74, R77). -/
def execErescale (th : Nat) (w : W32) (s : State) : Out :=
  .next (onRegs th [] [] [wRs1 w, wRs2 w, wRs2 w + 1, wRd w] (fun s =>
    if erescaleLegal w && scoreReady (thread s th) w then onThread th (erescaleThread w) s else illegal th w s) s)

end Sys2Proof.Machine
end

