-- ==== Sys2Proof/Machine/Shortlist.lean ====
section
/-! DEFINITION. Shortlist: unit lists, ESLINS, ESLMRG and ECOMPACT (chapter 4). -/
namespace Sys2Proof.Machine

/-! ### Entries and their order (R84 to R88) -/

/-- The sentinel identifier. -/
def sentinelId : Nat := 2 ^ 64 - 1
/-- Most negative score of a type. -/
def minScore (fp : Bool) : Nat := if fp then 0xFF800000 else 0x80000000

/-- Comparison key of a score; none for NaN (R85). -/
def scoreKey (fp : Bool) (sc : Nat) : Option Int := if fp then f32Key sc else some (sgn 32 sc)

/-- Key with NaN below everything, for entries already admitted. -/
def keyOf (fp : Bool) (e : Ent) : Int := (scoreKey fp e.score).getD (-(2 ^ 400 : Nat))

/-- A score as the node writes it: every zero is +0.0 (R85). -/
def cleanScore (fp : Bool) (sc : Nat) : Nat := if fp ∧ sc = 0x80000000 then 0 else sc

/-- Entry `a` precedes entry `b` (R86). -/
def precedes (fp : Bool) (a b : Ent) : Bool :=
  decide (keyOf fp b < keyOf fp a) || (decide (keyOf fp a = keyOf fp b) && decide (a.id < b.id))

/-- Stamp `a` is newer than stamp `b` (R87). -/
def newer (a b : Nat) : Bool :=
  let d := (a + 2 ^ 32 - b) % 2 ^ 32
  (decide (1 ≤ d) && decide (d < 2 ^ 31)) || (d == 2 ^ 31 && decide (b < a))

/-- Of two entries with one id, whether the first is kept (R87). -/
def keepFirst (fp : Bool) (a b : Ent) : Bool :=
  if a.stamp = b.stamp then precedes fp a b else newer a.stamp b.stamp

/-- Insertion in the order of R86. -/
def insertEnt (fp : Bool) (e : Ent) : List Ent → List Ent
  | [] => [e]
  | b :: t => if precedes fp e b then e :: b :: t else b :: insertEnt fp e t

/-- The first `c` entries, and with ties the further ones that equal the `c`-th score, up to `2c`; whether tied entries
were dropped (R90, R96). -/
def reduceTies (fp ties : Bool) (c : Nat) (l : List Ent) : List Ent × Bool :=
  if !ties then (l.take c, false)
  else match l[c - 1]? with
    | none => (l, false)
    | some z =>
      let tied := (l.drop c).takeWhile (fun e => keyOf fp e == keyOf fp z)
      (l.take c ++ tied.take c, decide (c < tied.length))

/-- The 16 bytes of an entry (Table 4-1). -/
def entBytes (e : Ent) : Bytes := leBytes 4 e.score ++ leBytes 4 e.stamp ++ leBytes 8 e.id

/-- An entry read from 16 bytes. -/
def entOf (b : Bytes) : Ent := { score := fieldLE b 0 4, stamp := fieldLE b 4 4, id := fieldLE b 8 8 }

/-- The sentinel entry of a type (R96). -/
def sentinelEnt (fp : Bool) : Ent := { id := sentinelId, stamp := 0, score := minScore fp }

/-! ### Unit lists (R89, R90) -/

/-- List of a thread as it starts. -/
def UList.init : UList := ⟨64, false, false, []⟩

/-- A thread's list. -/
def ulist (t : Thread) (i : Nat) : UList := smGetD t.lists i UList.init

/-- A thread's list set. -/
def setList (i : Nat) (l : UList) (t : Thread) : Thread := { t with lists := smSet UList.init t.lists i l }

/-- Outcome of an offer: the list, whether the candidate entered, the eslstat flags it sets. -/
structure Offer where
  list : UList
  entered : Bool
  flags : Nat
deriving DecidableEq, Repr

/-- One candidate offered to a list (R85, R87, R88, R90). -/
def offer (l : UList) (e : Ent) : Offer :=
  if (scoreKey l.fp e.score).isNone then ⟨l, false, fNAN⟩
  else if e.id = sentinelId then ⟨l, false, fRSV⟩
  else
    let e := { e with score := cleanScore l.fp e.score }
    let dup := l.ents.find? (fun x => x.id == e.id)
    if dup.any (fun x => !keepFirst l.fp e x) then ⟨l, false, fDUP⟩
    else
      let all := insertEnt l.fp e (l.ents.filter (fun x => x.id != e.id))
      let r := reduceTies l.fp l.ties l.cap all
      ⟨{ l with ents := r.1 }, r.1.contains e, (if dup.isSome then fDUP else 0) ||| (if r.2 then fTRUNC else 0)⟩

/-- Counters of Table 4-13 for the flags of one offer. -/
def countFlags (fl : Nat) (s : State) : State :=
  let s := whenS (bit fl 0) (bump (ent 0xC030 1)) s
  let s := whenS (bit fl 1) (bump (ent 0xC030 2)) s
  whenS (bit fl 2) (bump (ent 0xC030 3)) s

/-- Floor of a list (R90). -/
def listFloor (l : UList) : Nat :=
  match l.ents[l.cap - 1]? with
  | some e => e.score
  | none => minScore l.fp

/-- Result word (R92). -/
def resultWord (l : UList) (entered : Bool) : Nat :=
  fld (b01 entered) 63 + fld (b01 (decide (l.cap ≤ l.ents.length))) 62 + fld l.ents.length 32 + listFloor l

/-! ### ESLINS (R91 to R94) -/

/-- List named by an ESLINS word. -/
def wList (w : W32) : Nat := bits w.toNat 28 27

/-- Conditions common to ESLINS operations (R94): opcode, op, bit [25], m, XS. -/
def eslReady (t : Thread) (w : W32) (op : Nat) (maskable : Bool) : Bool :=
  wOpcode w == 0x2B && wF3 w == 0 && bits w.toNat 31 29 == op && !bit w.toNat 25 && (maskable || !bit w.toNat 26)
    && mXS t != 0

/-- Offers in order to one list: the list, whether any entered, the flags of each. -/
def offerAll (l : UList) (es : List Ent) : UList × Bool × List Nat :=
  es.foldl (fun p e =>
    let o := offer p.1 e
    (o.list, p.2.1 || o.entered, p.2.2 ++ [o.flags])) (l, false, [])

/-- Candidates of INSERT. -/
def insertCands (t : Thread) (w : W32) : List Ent :=
  [⟨(rx t (wRs2 w)).toNat, rcsr t 0x8C7 % 2 ^ 32, (rx t (wRs1 w)).toNat % 2 ^ 32⟩]

/-- Candidates of INSERTV: lane `i` with id base + i, masked lanes left out. -/
def insertvCands (t : Thread) (w : W32) : List Ent :=
  ((upFrom 0 16).filter (fun i => !bit w.toNat 26 || bit (rv t 0).toNat i)).map (fun i =>
    ⟨((rx t (wRs2 w)).toNat + i) % 2 ^ 64, rcsr t 0x8C7 % 2 ^ 32, lane 32 (rv t (wRs1 w)) i⟩)

/-- Candidates offered to the named list of a thread: list, eslstat, rd, pc; the node's counters. -/
def runOffers (th : Nat) (w : W32) (es : List Ent) (s : State) : State :=
  let t := thread s th
  let r := offerAll (ulist t (wList w)) es
  let fl := r.2.2.foldl (fun a b => a ||| b) 0
  let s := onThread th (fun t => advance 4 (setX (wRd w) (BitVec.ofNat 64 (resultWord r.1 r.2.1))
    (setCsr 0x8C6 (rcsr t 0x8C6 ||| fl) (setList (wList w) r.1 t)))) s
  foldS r.2.2 countFlags s

/-- ESLINS INSERT. -/
def execInsert (th : Nat) (w : W32) (s : State) : Out :=
  .next (onRegs th [wRs1 w, wRs2 w, wRd w] [] [] (fun s =>
    let t := thread s th
    if eslReady t w 0 false then runOffers th w (insertCands t w) s else illegal th w s) s)

/-- ESLINS INSERTV. -/
def execInsertv (th : Nat) (w : W32) (s : State) : Out :=
  .next (onRegs th [wRs2 w, wRd w] [] [wRs1 w, 0] (fun s =>
    let t := thread s th
    if eslReady t w 1 true && rcsr t 0x008 == 0 && mVS t != 0 then runOffers th w (insertvCands t w) s
    else illegal th w s) s)

/-- Configuration of RESET (Table 4-3). -/
def resetList (c : Nat) : UList := ⟨c % 128, bit c 8, bit c 9, []⟩

/-- A configuration R94 allows. -/
def resetLegal (c : Nat) : Bool :=
  decide (1 ≤ c % 128) && decide (c % 128 ≤ 64) && (!bit c 9 || decide (c % 128 ≤ 32))

/-- ESLINS RESET. -/
def execEslReset (th : Nat) (w : W32) (s : State) : Out :=
  .next (onRegs th [wRs1 w, wRd w] [] [] (fun s =>
    let t := thread s th
    let c := (rx t (wRs1 w)).toNat
    if eslReady t w 2 false && resetLegal c then
      onThread th (fun t => advance 4 (setX (wRd w) 0 (setList (wList w) (resetList c) t))) s
    else illegal th w s) s)

/-- Local address of `n` bytes of the issuing core's local store, as reached through the thread's addressing (R47,
Table 2-6); none when any byte lies outside. -/
def ownStore (s : State) (th va n : Nat) : Option Nat :=
  if (thread s th).user then
    if bits va 63 40 = 127 ∧ bits va 39 0 + n ≤ 0x20000 then some (storeBase (coreOf th) + 0x60000 + bits va 39 0) else none
  else
    let b := storeBase (coreOf th)
    let a := bits va 51 0
    if bits va 63 52 = recPost s ∧ b ≤ a ∧ a + n ≤ b + 0x80000 then some a else none

/-- Bytes written to the local store; an error in it ends the request. -/
def storeOwn (th a : Nat) (b : Bytes) (s : State) : Nat × State := demandWrite (whoTh s th) false a b s

/-- ESLINS DRAIN. -/
def execDrain (th : Nat) (w : W32) (s : State) : Out :=
  .next (onRegs th [wRs1 w, wRd w] [] [] (fun s =>
    let t := thread s th
    let l := ulist t (wList w)
    let va := (rx t (wRs1 w)).toNat
    let b := l.ents.flatMap entBytes
    if !eslReady t w 3 false then illegal th w s
    else if va % 16 ≠ 0 then takeFault th causeStoreMis 0x10 va s
    else
      let done := fun (s : State) =>
        onThread th (fun t => advance 4 (setX (wRd w) (BitVec.ofNat 64 l.ents.length) t)) s
      if b.isEmpty then done s
      else match ownStore s th va b.length with
        | none => takeFault th causeStore 0x10 va s
        | some a =>
          let r := storeOwn th a b s
          if r.1 = 0 then done r.2 else takeFault th causeStore r.1 va r.2) s)

/-- ESLINS FLOOR. -/
def execFloor (th : Nat) (w : W32) (s : State) : Out :=
  .next (onRegs th [wRd w] [] [] (fun s =>
    let t := thread s th
    if eslReady t w 4 false then
      onThread th (fun t => advance 4 (setX (wRd w) (BitVec.ofNat 64 (resultWord (ulist t (wList w)) false)) t)) s
    else illegal th w s) s)

/-! ### Merging (R95 to R98) -/

/-- A pair of consecutive entries is out of order (R97); a NaN score has no order. -/
def outOfOrder (fp : Bool) (a b : Ent) : Bool :=
  a.id != b.id && (scoreKey fp a.score).isSome && (scoreKey fp b.score).isSome && !precedes fp a b

/-- Entries of a source before its first pair out of order, and whether there is one. -/
def orderedPrefix (fp : Bool) : List Ent → List Ent × Bool
  | [] => ([], false)
  | [a] => ([a], false)
  | a :: b :: t =>
    if outOfOrder fp a b then ([a], true)
    else
      let r := orderedPrefix fp (b :: t)
      (a :: r.1, r.2)

/-- What a merge leaves before the cut at k, with the flags it met (NAN, DUP). -/
structure Merged where
  ents : List Ent
  nan : Bool
  dup : Bool
deriving DecidableEq, Repr

/-- One entry taken into a merge (R96 steps 1 to 3). -/
def mergeOne (fp : Bool) (m : Merged) (e : Ent) : Merged :=
  if (scoreKey fp e.score).isNone then { m with nan := true }
  else if e.id = sentinelId then m
  else
    let e := { e with score := cleanScore fp e.score }
    match m.ents.find? (fun x => x.id == e.id) with
    | some x =>
      if keepFirst fp e x then { m with ents := insertEnt fp e (m.ents.filter (fun y => y.id != e.id)), dup := true }
      else { m with dup := true }
    | none => { m with ents := insertEnt fp e m.ents }

/-- Entries of two sources reduced and ordered (R96 steps 1 to 3). -/
def mergeEnts (fp : Bool) (a b : List Ent) : Merged := (a ++ b).foldl (mergeOne fp) ⟨[], false, false⟩

/-- A merge of two lists under k, ties and type, without padding (R96): entries, whether tied entries were dropped,
whether a NaN was. This is also one node of the tree of R100. -/
def mergeLists (fp ties : Bool) (k : Nat) (a b : List Ent) : List Ent × Bool × Bool :=
  let m := mergeEnts fp a b
  let r := reduceTies fp ties k m.ents
  (r.1, r.2, m.nan)

/-- Fields of a merge descriptor (Table 4-5). -/
structure MDesc where
  srcA : Nat
  srcB : Nat
  dest : Nat
  countA : Nat
  countB : Nat
  k : Nat
  fp : Bool
  ties : Bool
  pad : Bool
deriving DecidableEq, Repr

/-- A merge descriptor read from its 64 bytes; none when a field breaks R98. -/
def mdescOf (b : Bytes) : Option MDesc :=
  let w := fun i => fieldLE b (8 * i) 8
  let w3 := w 3
  let w4 := w 4
  let d : MDesc := ⟨w 0, w 1, w 2, bits w3 11 0, bits w3 43 32, bits w4 10 0, bit w4 11, bit w4 12, bit w4 13⟩
  if d.k = 0 ∨ 1024 < d.k ∨ 2048 < d.countA ∨ 2048 < d.countB ∨ bits w3 63 44 ≠ 0 ∨ bits w3 31 12 ≠ 0
      ∨ bits w4 63 14 ≠ 0 ∨ w 5 ≠ 0 ∨ w 6 ≠ 0 ∨ w 7 ≠ 0 ∨ d.srcA % 16 ≠ 0 ∨ d.srcB % 16 ≠ 0 ∨ d.dest % 16 ≠ 0 then none
  else some d

/-- Two byte ranges overlap. -/
def overlaps (a n b m : Nat) : Bool := decide (0 < n) && decide (0 < m) && decide (a < b + m) && decide (b < a + n)

/-- As `ownStore`; an empty list lies nowhere. -/
def listPlace (s : State) (th va n : Nat) : Option Nat := if n = 0 then some 0 else ownStore s th va n

/-- Local addresses of A, B and the destination of a valid descriptor (R95, R98). -/
def mergePlaces (s : State) (th : Nat) (d : MDesc) : Option (Nat × Nat × Nat) :=
  let n := 16 * (if d.ties then 2 * d.k else d.k)
  match listPlace s th d.srcA (16 * d.countA), listPlace s th d.srcB (16 * d.countB), listPlace s th d.dest n with
  | some a, some b, some c =>
    if overlaps c n a (16 * d.countA) || overlaps c n b (16 * d.countB) then none else some (a, b, c)
  | _, _, _ => none

/-- Entries of a source. -/
def readEnts (s : State) (a n : Nat) : List Ent := (chunks 16 (fixedRead s a (16 * n))).map entOf

/-- Outcome of a merge: entries written before padding, rd, eslstat flags, the state with counters and draws. -/
structure MOut where
  ents : List Ent
  rd : Nat
  flags : Nat
  st : State
deriving DecidableEq, Repr

/-- A merge whose sources are in order. -/
def mergeGood (d : MDesc) (xa xb : List Ent) (s : State) : MOut :=
  let m := mergeEnts d.fp xa xb
  let r := reduceTies d.fp d.ties d.k m.ents
  let short := decide (r.1.length < d.k)
  let padN := if d.pad then d.k - r.1.length else 0
  { ents := r.1 ++ List.replicate padN (sentinelEnt d.fp)
    rd := fld (b01 short) 63 + fld (b01 r.2) 62 + fld (b01 m.nan) 60 + r.1.length
    flags := (if r.2 then fTRUNC else 0) ||| (if m.nan then fNAN else 0) ||| (if m.dup then fDUP else 0)
    st := whenS m.nan (bump (ent 0xC030 1)) (whenS r.2 (bump (ent 0xC030 2)) s) }

/-- A merge that met a pair out of order (R97): it stops; how many entries it had written by then the spec leaves open. -/
def mergeStopped (d : MDesc) (xa xb : List Ent) (s : State) : MOut :=
  let m := mergeEnts d.fp (orderedPrefix d.fp xa).1 (orderedPrefix d.fp xb).1
  let all := (reduceTies d.fp d.ties d.k m.ents).1
  let p := draw s
  let n := Config.freeNat p.1 % (all.length + 1)
  { ents := all.take n
    rd := fld 1 61 + fld (b01 m.nan) 60 + n
    flags := fORD ||| (if m.nan then fNAN else 0) ||| (if m.dup then fDUP else 0)
    st := bump (ent 0xC030 4) (whenS m.nan (bump (ent 0xC030 1)) p.2) }

/-- A merge under a descriptor. -/
def mergeRun (d : MDesc) (xa xb : List Ent) (s : State) : MOut :=
  if (orderedPrefix d.fp xa).2 || (orderedPrefix d.fp xb).2 then mergeStopped d xa xb s else mergeGood d xa xb s

/-- Status of reading several ranges of local store, first failure. -/
def readAll (w : Who) (rs : List (Nat × Nat)) (s : State) : Nat × State :=
  rs.foldl (fun p r => if p.1 ≠ 0 ∨ r.2 = 0 then p else demandRead w r.1 r.2 p.2) (0, s)

/-- ESLMRG on a thread whose descriptor is valid. -/
def runMerge (th : Nat) (w : W32) (d : MDesc) (a b c va : Nat) (s : State) : State :=
  let xa := readEnts s a d.countA
  let xb := readEnts s b d.countB
  let rd := readAll (whoTh s th) [(a, 16 * d.countA), (b, 16 * d.countB)] s
  if rd.1 ≠ 0 then takeFault th causeLoad rd.1 va rd.2
  else
    let o := mergeRun d xa xb rd.2
    let bs := o.ents.flatMap entBytes
    let r := if bs.isEmpty then (0, o.st) else storeOwn th c bs o.st
    if r.1 ≠ 0 then takeFault th causeStore r.1 va r.2
    else onThread th (fun t => advance 4 (setX (wRd w) (BitVec.ofNat 64 o.rd)
      (setCsr 0x8C6 (rcsr t 0x8C6 ||| o.flags) t))) r.2

/-- ESLMRG (R95 to R98). -/
def execEslmrg (th : Nat) (w : W32) (s : State) : Out :=
  .next (onRegs th [wRs1 w, wRd w] [] [] (fun s =>
    let t := thread s th
    let va := (rx t (wRs1 w)).toNat
    if wOpcode w ≠ 0x2B ∨ wF3 w ≠ 1 ∨ wF7 w ≠ 0 ∨ wRs2 w ≠ 0 ∨ mXS t = 0 then illegal th w s
    else if va % 64 ≠ 0 then takeFault th causeLoad 0x10 va s
    else match ownStore s th va 64 with
    | none => takeFault th causeLoad 0x10 va s
    | some da =>
      let b := fixedRead s da 64
      let r := demandRead (whoTh s th) da 64 s
      if r.1 ≠ 0 then takeFault th causeLoad r.1 va r.2
      else match mdescOf b with
      | none => takeFault th causeLoad 0x10 va r.2
      | some d => match mergePlaces r.2 th d with
        | none => takeFault th causeLoad 0x10 va r.2
        | some (a, b, c) => runMerge th w d a b c va r.2) s)

/-! ### ECOMPACT (R103, R104) -/

/-- The encoding and state conditions of ECOMPACT. -/
def ecompactReady (t : Thread) (w : W32) : Bool :=
  wOpcode w == 0x2B && wF3 w == 2 && decide (bits w.toNat 31 29 < 3) && bits w.toNat 27 25 == 0 && rcsr t 0x008 == 0
    && mVS t != 0 && mXS t != 0

/-- Keys of the lanes and of the threshold; none for NaN. -/
def ecLane (fmt : Nat) (v : V512) (i : Nat) : Option Int :=
  if fmt = 2 then some (sgn 16 (lane 16 v i)) else scoreKey (fmt == 1) (lane 32 v i)

/-- Key of the threshold. -/
def ecThreshold (fmt x : Nat) : Option Int :=
  if fmt = 2 then some (sgn 16 (x % 2 ^ 16)) else scoreKey (fmt == 1) (x % 2 ^ 32)

/-- Lanes that take part. -/
def ecLanes (t : Thread) (w : W32) : List Nat :=
  (upFrom 0 (if bits w.toNat 31 29 = 2 then 32 else 16)).filter (fun i => !bit w.toNat 28 || bit (rv t 0).toNat i)

/-- A key is strictly above another; NaN never is. -/
def keyAbove : Option Int → Option Int → Bool
  | some a, some b => decide (b < a)
  | _, _ => false

/-- Lanes selected, and NaN values met. -/
def ecSelect (t : Thread) (w : W32) : List Nat × Nat :=
  let fmt := bits w.toNat 31 29
  let thr := ecThreshold fmt (rx t (wRs2 w)).toNat
  let ls := ecLanes t w
  (ls.filter (fun i => keyAbove (ecLane fmt (rv t (wRs1 w)) i) thr),
   (ls.filter (fun i => (ecLane fmt (rv t (wRs1 w)) i).isNone)).length + b01 thr.isNone)

/-- ECOMPACT on a thread. -/
def ecompactThread (w : W32) (sel : List Nat) (nans : Nat) (t : Thread) : Thread :=
  let t' := setV (wRd w) (ofLanes 16 sel) t
  let t' := if nans = 0 then t' else setCsr 0x8C6 (rcsr t 0x8C6 ||| fNAN) t'
  advance 4 (dirtyVS (setCsr 0xCC3 sel.length t'))

/-- ECOMPACT (R103, R104). -/
def execEcompact (th : Nat) (w : W32) (s : State) : Out :=
  .next (onRegs th [wRs2 w] [] [wRs1 w, wRd w, 0] (fun s =>
    let t := thread s th
    if ecompactReady t w then
      let r := ecSelect t w
      whenS (r.2 != 0) (bumpBy (ent 0xC030 1) r.2) (onThread th (ecompactThread w r.1 r.2) s)
    else illegal th w s) s)

end Sys2Proof.Machine
end

