-- ==== Sys2Proof/Machine/MemOps.lean ====
section
/-! DEFINITION. MemOps: the accesses of threads: engine registers, scalar and vector loads and stores, atomics, traps
(R33, R34, R45 to R55, Tables 5-5, 9-4). -/
namespace Sys2Proof.Machine

/-! ### Engine registers (Table 2-6) -/

/-- An engine register by its offset in the engine window. -/
inductive EReg where
  | cload (k : Nat)
  | cstat (k : Nat)
  | cabort (k : Nat)
  | cstart
  | psubmit (n : Nat)
  | pstat (n : Nat)
deriving DecidableEq, Repr

/-- Decode of an offset (Tables 5-5 and 9-4). -/
def eregOf (s : State) (off : Nat) : Option EReg :=
  if 0x100000 ≤ off ∧ off < 0x110000 then
    let k := (off - 0x100000) / 0x1000
    match off % 0x1000 with
    | 0x00 => some (.cload k)
    | 0x08 => some (.cstat k)
    | 0x10 => some (.cabort k)
    | _ => none
  else if off = 0x110000 then some .cstart
  else if 0x200000 ≤ off ∧ off < 0x220000 then
    let n := (off - 0x200000) / 0x1000
    if n < nClusters s then
      match off % 0x1000 with
      | 0x00 => some (.psubmit n)
      | 0x08 => some (.pstat n)
      | _ => none
    else none
  else none

/-- Value an engine register reads as; write-only registers read zero (R12). -/
def eregRead (s : State) : EReg → Nat
  | .cstat k => cstatWord s k
  | .pstat n => pstatWord s n
  | _ => 0

/-- A write of an engine register by a thread of request `rid`; read-only ones keep their value. -/
def eregWrite (rid v : Nat) (r : EReg) (s : State) : State :=
  match r with
  | .cload k => cloadReg rid k v s
  | .cstat k => cstatReg k v s
  | .cabort k => cabortReg k v s
  | .cstart => cstartReg v s
  | .psubmit n => psubmitReg rid n v s
  | .pstat _ => s

/-! ### One access -/

/-- An access crosses a 64-byte line (R34). -/
def crosses (va n : Nat) : Bool := decide (64 < va % 64 + n)

/-- A segment entry whose words and complements disagree: recorded CONTAINED (R11, R48). -/
def segMismatch (th : Nat) (s : State) : State :=
  raise (errOf 3 1 0 (coreOf th) th 0x41 (whoTh s th).tenant) s

/-- A load of `n` bytes (R34, R46, R52): the thread goes on (true) with its bytes given to `put`, or with a remote
access outstanding; or an exception was taken (false). -/
def loadAcc (th va n : Nat) (what : RemKind) (put : Bytes → Thread → Thread) (s : State) : Bool × State :=
  if crosses va n then (false, takeFault th causeLoadMis 0x10 va s)
  else match translate s th va n .ld with
  | .bad => (false, takeFault th causeLoad 0x10 va s)
  | .mismatch => (false, takeFault th causeLoad 0x41 va (segMismatch th s))
  | .rem p a => (true, sendRemote th va 2 p a n 0 [] what s)
  | .loc a attr => match region s a with
    | .engine off => match eregOf s off with
      | some r => if n = 8 then (true, onThread th (put (leBytes 8 (eregRead s r))) s)
        else (false, takeFault th causeLoad 0x10 va s)
      | none => (false, takeFault th causeLoad 0x10 va s)
    | _ => match readLocal th a n attr s with
      | (0, b, s) => (true, onThread th (put b) s)
      | (st, _, s) => (false, takeFault th causeLoad st va s)

/-- A store of bytes (R34, R46, R52): true when the thread goes on. -/
def storeAcc (th va : Nat) (b : Bytes) (s : State) : Bool × State :=
  let n := b.length
  if crosses va n then (false, takeFault th causeStoreMis 0x10 va s)
  else match translate s th va n .st with
  | .bad => (false, takeFault th causeStore 0x10 va s)
  | .mismatch => (false, takeFault th causeStore 0x41 va (segMismatch th s))
  | .rem p a => (true, sendRemote th va 3 p a n 0 b .ack s)
  | .loc a attr => match region s a with
    | .engine off => match eregOf s off with
      | some r => if n = 8 then (true, eregWrite (thread s th).req (leNat b) r s)
        else (false, takeFault th causeStore 0x10 va s)
      | none => (false, takeFault th causeStore 0x10 va s)
    | _ => match writeLocal th a attr b s with
      | (0, s) => (true, s)
      | (st, s) => (false, takeFault th causeStore st va s)

/-- An access's thread moves past its instruction of `len` bytes when it went on. -/
def goOn (th len : Nat) (r : Bool × State) : State := if r.1 then onThread th (advance len) r.2 else r.2

/-! ### Scalar forms -/

/-- Value of an integer load of `n` bytes. -/
def extend (n : Nat) (uns : Bool) (b : Bytes) : W64 :=
  if uns then BitVec.ofNat 64 (leNat b) else sext64 (8 * n) (leNat b)

/-- A floating load's register value: a word is boxed in ones. -/
def boxed (n : Nat) (v : Nat) : W64 :=
  if n = 4 then BitVec.ofNat 64 (0xFFFFFFFF00000000 + v % 2 ^ 32) else BitVec.ofNat 64 v

/-! ### Vector configuration -/

/-- vill of vtype (0xC21): no vector configuration has been set, or an unsupported one. -/
def vIll (t : Thread) : Bool := bit (rcsr t 0xC21) 63
/-- SEW in bytes. -/
def vSew (t : Thread) : Nat := 2 ^ bits (rcsr t 0xC21) 5 3
/-- LMUL in eighths. -/
def vLmul8 (t : Thread) : Nat :=
  let m := bits (rcsr t 0xC21) 2 0
  if m < 4 then 8 * 2 ^ m else if m = 4 then 0 else 2 ^ (m - 5)
/-- vl. -/
def vLen (t : Thread) : Nat := rcsr t 0xC20
/-- Element `i` takes part under the mask v0. -/
def vActive (t : Thread) (vm : Bool) (i : Nat) : Bool := vm || bit (rv t 0).toNat i

/-- Element of `n` bytes at index `i` of the register group from `v`. -/
def vElem (t : Thread) (v n i : Nat) : Nat := lane (8 * n) (rv t (v + i * n / 64)) (i * n % 64 / n)

/-- Bytes written at element `i` of the group from `v`. -/
def putElem (v n i : Nat) (b : Bytes) (t : Thread) : Thread :=
  let r := v + i * n / 64
  dirtyVS (setV r (vSetBits (rv t r) (i * n % 64 * 8) (8 * n) (leNat b)) t)

/-- Registers of a group of `emul8` eighths. -/
def groupRegs (emul8 : Nat) : Nat := max 1 (emul8 / 8)

/-- The element accesses of a vector form: (address, register, element size, element index), and whether the form is a
legal one now. -/
structure VPlan where
  ok : Bool
  elems : List (Nat × Nat × Nat × Nat)
deriving DecidableEq, Repr

/-- Effective address of register rs1 plus an immediate. -/
def effAddr (t : Thread) (rs1 : Nat) (imm : Int) : Nat := wrap 64 ((rx t rs1).toNat + imm)

/-- Elements of an access with `nf` fields of `n` bytes, `addr i` the address of element `i`'s first field. -/
def segPlan (t : Thread) (vm : Bool) (v n nf regs evl : Nat) (addr : Nat → Nat) : List (Nat × Nat × Nat × Nat) :=
  ((upFrom 0 evl).filter (fun i => decide (rcsr t 0x008 ≤ i) && vActive t vm i)).flatMap (fun i =>
    (upFrom 0 nf).map (fun f => ((addr i + f * n) % 2 ^ 64, v + f * regs, n, i)))

/-- Checks of the V extension on a group: EMUL from 1/8 to 8, aligned registers, all within 32. -/
def vGroupOk (t : Thread) (emul8 nf v : Nat) : Bool :=
  let g := groupRegs emul8
  !vIll t && decide (1 ≤ emul8) && decide (emul8 ≤ 64) && decide (1 ≤ nf) && decide (nf * g ≤ 8) && v % g == 0
    && decide (v + nf * g ≤ 32)

/-- Plan of a vector form. -/
def vPlan (t : Thread) (base : Nat) : MemForm → VPlan
  | .vunit eew nf vm v =>
    let emul8 := eew * vLmul8 t / vSew t
    ⟨vGroupOk t emul8 nf v, segPlan t vm v eew nf (groupRegs emul8) (vLen t) (fun i => base + i * nf * eew)⟩
  | .vstride eew nf rs2 vm v =>
    let emul8 := eew * vLmul8 t / vSew t
    ⟨vGroupOk t emul8 nf v, segPlan t vm v eew nf (groupRegs emul8) (vLen t) (fun i => base + i * (rx t rs2).toNat)⟩
  | .vindex eew nf vs2 vm v =>
    let n := vSew t
    let emul8 := eew * vLmul8 t / n
    ⟨vGroupOk t (vLmul8 t) nf v && vGroupOk t emul8 1 vs2,
      segPlan t vm v n nf (groupRegs (vLmul8 t)) (vLen t) (fun i => base + vElem t vs2 eew i)⟩
  | .vwhole nregs v =>
    ⟨[1, 2, 4, 8].contains nregs && v % max 1 nregs == 0 && decide (v + nregs ≤ 32),
      segPlan t true v 1 1 1 (64 * nregs) (fun i => base + i)⟩
  | .vmask v => ⟨!vIll t, segPlan t true v 1 1 1 (ceilDiv (vLen t) 8) (fun i => base + i)⟩
  | _ => ⟨false, []⟩

/-- Vector element loads in order; the first exception stops them with vstart at its element. -/
def vLoads (th : Nat) : List (Nat × Nat × Nat × Nat) → State → Bool × State
  | [], s => (true, s)
  | (a, v, n, i) :: rest, s =>
    match loadAcc th a n (.loadVec (v + i * n / 64) (i * n % 64) n) (putElem v n i) s with
    | (true, s) => vLoads th rest s
    | (false, _) => (false, (loadAcc th a n (.loadVec v i n) (putElem v n i) (onThread th (setCsr 0x008 i) s)).2)

/-- Vector element stores in order. -/
def vStores (th : Nat) : List (Nat × Nat × Nat × Nat) → State → Bool × State
  | [], s => (true, s)
  | (a, v, n, i) :: rest, s =>
    let b := leBytes n (vElem (thread s th) v n i)
    match storeAcc th a b s with
    | (true, s) => vStores th rest s
    | (false, _) => (false, (storeAcc th a b (onThread th (setCsr 0x008 i) s)).2)

/-- Registers a memory form uses besides its base. -/
def formRegs : MemForm → List Nat × List Nat × List Nat
  | .int _ _ r => ([r], [], [])
  | .fp _ r => ([], [r], [])
  | .vunit _ _ _ v => ([], [], upFrom v 8 ++ [0])
  | .vstride _ _ rs2 _ v => ([rs2], [], upFrom v 8 ++ [0])
  | .vindex _ _ vs2 _ v => ([], [], upFrom v 8 ++ upFrom vs2 8 ++ [0])
  | .vwhole _ v => ([], [], upFrom v 8)
  | .vmask v => ([], [], [v])

/-- Illegal instruction of a command that carries no word: mtval is zero. -/
def illegalForm (th : Nat) (s : State) : State := takeFault th causeIllegal 0x10 0 s

/-- A load of any form at an effective address (R33, R34). -/
def doLoad (th len : Nat) (form : MemForm) (va : Nat) (s : State) : State :=
  let t := thread s th
  match form with
  | .int n uns r => goOn th len (loadAcc th va n (.loadInt r n uns) (fun b => setX r (extend n uns b)) s)
  | .fp n r =>
    if mFS t = 0 then illegalForm th s
    else goOn th len (loadAcc th va n (.loadFp r n) (fun b t => dirtyFS (setF r (boxed n (leNat b)) t)) s)
  | f =>
    let p := vPlan t va f
    if mVS t = 0 ∨ p.ok = false then illegalForm th s
    else match vLoads th p.elems s with
      | (true, s) => onThread th (fun t => advance len (dirtyVS (setCsr 0x008 0 t))) s
      | (false, s) => s

/-- A store of any form at an effective address (R33, R34). -/
def doStore (th len : Nat) (form : MemForm) (va : Nat) (s : State) : State :=
  let t := thread s th
  match form with
  | .int n _ r => goOn th len (storeAcc th va (leBytes n (rx t r).toNat) s)
  | .fp n r => if mFS t = 0 then illegalForm th s else goOn th len (storeAcc th va (leBytes n (rf t r).toNat) s)
  | f =>
    let p := vPlan t va f
    if mVS t = 0 ∨ p.ok = false then illegalForm th s
    else match vStores th p.elems s with
      | (true, s) => onThread th (fun t => advance len (setCsr 0x008 0 t)) s
      | (false, s) => s

/-! ### Atomics (R34, R49) -/

/-- Result an AMO stores. -/
def amoVal (op : AmoOp) (n old src : Nat) : Nat :=
  let o := sgn (8 * n) old
  let v := sgn (8 * n) src
  let uo := old % 2 ^ (8 * n)
  let uv := src % 2 ^ (8 * n)
  match op with
  | .swap => uv
  | .add => wrap (8 * n) (o + v)
  | .xor => uo ^^^ uv
  | .and => uo &&& uv
  | .or => uo ||| uv
  | .min => if o ≤ v then uo else uv
  | .max => if v ≤ o then uo else uv
  | .minu => min uo uv
  | .maxu => max uo uv

/-- Code of an AMO in a message (log 13). -/
def amoCode : AmoOp → Nat
  | .swap => 1
  | .add => 2
  | .xor => 3
  | .and => 4
  | .or => 5
  | .min => 6
  | .max => 7
  | .minu => 8
  | .maxu => 9

/-- AMO of a message code. -/
def amoOfCode : Nat → Option AmoOp
  | 1 => some .swap
  | 2 => some .add
  | 3 => some .xor
  | 4 => some .and
  | 5 => some .or
  | 6 => some .min
  | 7 => some .max
  | 8 => some .minu
  | 9 => some .maxu
  | _ => none

/-- An atomic performed at its home (R49): status, old bytes, state. -/
def amoHome (w : Who) (op : AmoOp) (a n src : Nat) (s : State) : Nat × Bytes × State :=
  let old := fixedRead s a n
  match demandRead w a n s with
  | (0, s) =>
    let r := demandWrite w true a (leBytes n (amoVal op n (leNat old) src)) s
    (r.1, old, r.2)
  | (st, s) => (st, old, s)

/-- An AMO at an effective address: in the cluster's L2 for CACHED and STREAM data, at the home otherwise. -/
def doAmo (th len : Nat) (op : AmoOp) (n rd va src : Nat) (s : State) : State :=
  let fin := fun (old : Bytes) (s : State) => onThread th (fun t => advance len (setX rd (sext64 (8 * n) (leNat old)) t)) s
  if va % n ≠ 0 then takeFault th causeStoreMis 0x10 va s
  else match translate s th va n .st with
  | .bad => takeFault th causeStore 0x10 va s
  | .mismatch => takeFault th causeStore 0x41 va (segMismatch th s)
  | .rem p a => goOn th len (true, sendRemote th va 3 p a n (amoCode op) (leBytes n src) (.amo rd n) s)
  | .loc a attr => match region s a with
    | .engine _ => takeFault th causeStore 0x10 va s
    | _ =>
      if attr < 2 ∧ inStack a then
        match readLocal th a n attr s with
        | (0, old, s) => match writeLocal th a attr (leBytes n (amoVal op n (leNat old) src)) s with
          | (0, s) => fin old s
          | (st, s) => takeFault th causeStore st va s
        | (st, _, s) => takeFault th causeStore st va s
      else match amoHome (whoTh s th) op a n src (breakResv th a s) with
        | (0, old, s) => fin old s
        | (st, _, s) => takeFault th causeStore st va s

/-- LR at an effective address (R49): only on CACHED addresses of the own node. -/
def doLr (th len n rd va : Nat) (s : State) : State :=
  if va % n ≠ 0 then takeFault th causeLoadMis 0x10 va s
  else match translate s th va n .ld with
  | .bad => takeFault th causeLoad 0x10 va s
  | .mismatch => takeFault th causeLoad 0x41 va (segMismatch th s)
  | .loc a 0 => match readLocal th a n 0 s with
    | (0, b, s) => onThread th (fun t => advance len (setX rd (sext64 (8 * n) (leNat b)) { t with resv := some a })) s
    | (st, _, s) => takeFault th causeLoad st va s
  | _ => takeFault th causeStore 0x10 va s

/-- SC at an effective address: it stores only while the thread's reservation holds (log 12). -/
def doSc (th len n rd va src : Nat) (s : State) : State :=
  if va % n ≠ 0 then takeFault th causeStoreMis 0x10 va s
  else match translate s th va n .st with
  | .bad => takeFault th causeStore 0x10 va s
  | .mismatch => takeFault th causeStore 0x41 va (segMismatch th s)
  | .loc a 0 =>
    let held := (thread s th).resv.any (fun r => r / 64 == a / 64)
    let s := onThread th (fun t => { t with resv := none }) s
    if held then
      match writeLocal th a 0 (leBytes n src) s with
      | (0, s) => onThread th (fun t => advance len (setX rd 0 t)) s
      | (st, s) => takeFault th causeStore st va s
    else onThread th (fun t => advance len (setX rd 1 t)) s
  | _ => takeFault th causeStore 0x10 va s

/-! ### Fences and traps -/

/-- FENCE (R51, R52): with predecessor w it completes only when every earlier store is acknowledged, and reports a
failed acknowledgement. -/
def doFence (th len pred : Nat) (s : State) : State :=
  let t := thread s th
  if bit pred 0 then
    match t.failedAck with
    | some a => takeFault th causeStore a.2 a.1 s
    | none => if storesAcked t then onThread th (advance len) s else s
  else onThread th (advance len) s

/-- FENCE.I (R39): the core's L1 instruction lines are dropped. -/
def doFenceI (th len : Nat) (s : State) : State :=
  let s := { s with mem := { s.mem with iline := s.mem.iline.filter (fun p => p.1 / 2 ^ 34 != coreOf th) } }
  onThread th (advance len) s

/-- A trap into machine mode that Table 2-8 does not list (log 18): mcause, mepc, mtval, mstatus and pc as the RISC-V
privileged architecture gives them. -/
def machineTrap (th cause tval : Nat) (s : State) : State :=
  onThread th (fun t =>
    let ms := rcsr t 0x300
    let mie := bits ms 3 3
    let keep := clearOnes ms 0x1888
    let ms' := keep + fld mie 7 + fld (if t.user then 0 else 3) 11
    let t := setCsr 0x300 ms' (setCsr 0x343 tval (setCsr 0x341 t.pc (setCsr 0x342 cause t)))
    { t with user := false, pc := rcsr t 0x305 / 4 * 4 }) s

/-- Declared streams of a thread are cancelled: their parcels in flight are discarded on arrival. -/
def dropStreams (th : Nat) (s : State) : State :=
  let mine := s.sea.streams.filter (fun p => p.2.declared && p.2.th == th)
  let s := killParcels (fun o => match o with | .stream k _ => mine.any (fun p => p.1 == k) | _ => false) s
  { s with sea := { s.sea with streams := s.sea.streams.filter (fun p => !(p.2.declared && p.2.th == th)) } }

/-- A kernel's last thread has exited (R56): the receipt. -/
def kernelThreadDone (rid : Nat) (s : State) : State :=
  match req? s rid with
  | none => s
  | some r =>
    if r.threads ≤ 1 then finishReq rid 0 0 (leBytes 4 r.rounds ++ zeros 4) s
    else onReq rid (fun r => { r with threads := r.threads - 1 }) s

/-- A kernel thread exits (R56, R76, R89, R355): its counts are added, its lists and pigeonhole emptied, its context
freed; a thread that made remote accesses marks its request ORDER (R294). -/
def exitThread (th : Nat) (s : State) : State :=
  let t := thread s th
  let s := bumpBy (ent 0xC020 4) (rcsr t 0x8C5) s
  let s := whenS (bit (rcsr t 0x8C4) 0) (bump (ent 0xC020 5)) s
  let s := whenS t.remoteUsed (addCause t.req cORDER) s
  let s := onThread th (fun _ => Thread.init) (dropStreams th s)
  kernelThreadDone t.req s

/-- ECALL (R56): with a7 zero a kernel thread exits once its acknowledgements are in; otherwise the trap of the RISC-V
architecture is taken. -/
def doEcall (th : Nat) (s : State) : State :=
  let t := thread s th
  if t.kern && t.user && rx t 17 == 0 then
    match t.failedAck with
    | some a => takeFault th causeStore a.2 a.1 s
    | none => if t.remote.isEmpty then exitThread th s else s
  else machineTrap th (if t.user then 8 else 11) 0 s

end Sys2Proof.Machine
end

