-- ==== Sys2Proof/Machine/CorpOps.lean ====
section
/-! DEFINITION. CorpOps: corpora: shards and slots, codes and sketches, the corpus's memory, its T3 object, its pending
list, and what faults do to them (R139 to R143, R148, R156 to R159, R213). -/
namespace Sys2Proof.Machine

/-! ### Ids and slots (R140 to R142) -/

/-- Shard of an id among `n` (R140). -/
def shardOf (id n : Nat) : Nat := id * 0x9E3779B97F4A7C15 % 2 ^ 64 / 2 ^ 32 * n / 2 ^ 32

/-- Key of slot `u` of tile `t` of a shard. -/
def cKey (shard t u : Nat) : Nat := shard * 2 ^ 31 + t * 2 ^ 24 + u
/-- Shard of a key. -/
def kShard (k : Nat) : Nat := k / 2 ^ 31
/-- Tile of a key. -/
def kTile (k : Nat) : Nat := k % 2 ^ 31 / 2 ^ 24
/-- Slot within the tile of a key. -/
def kU (k : Nat) : Nat := k % 2 ^ 24
/-- Stack of a slot (R141). -/
def kStack (k : Nat) : Nat := kU k % 16
/-- Sketch bank within the stack (R141). -/
def kBank (k : Nat) : Nat := 128 * (kTile k % 8) + kU k / 16 % 128
/-- Sketch column (R141). -/
def kColumn (k : Nat) : Nat := kU k / 2048
/-- Shard and region of a key, as the pass numbers them. -/
def kRegion (k : Nat) : Nat := kShard k * 64 + kTile k / 8

/-- First slot of a cell: the cells of a tile follow one another in ascending number. -/
def cellBase (b : Bytes) (i : Nat) : Nat :=
  (((upFrom 0 i).filter (fun j => cellTile b j == cellTile b i)).map (cellSlots b)).foldl (fun a x => a + x) 0

/-- Keys of the slots of a cell in a shard. -/
def cellKeys (b : Bytes) (shard i : Nat) : List Nat := upFrom (cKey shard (cellTile b i) (cellBase b i)) (cellSlots b i)

/-! ### Codes and sketches (R143) -/

/-- Element `i` of a full vector, as fp32. -/
def vecElem (f : Nat) (v : Bytes) (i : Nat) : Nat :=
  if f = 0 then fieldLE v (4 * i) 4 else if f = 1 then bfToF32 (fieldLE v (2 * i) 2) else intToF32 (sgn 8 (fieldLE v i 1))

/-- A full vector as fp32, normalised for COSINE. -/
def vecF32 (b v : Bytes) : List Nat :=
  let x := (upFrom 0 (cbDim b)).map (vecElem (cbFormat b) v)
  if cbCosine b then x.map (fun e => f32Mul e (Config.rsqrt32 (Config.dot32 x x))) else x

/-- Projection y = P·x in fp32; the order of its additions is not stated. -/
def project (b : Bytes) (x : List Nat) : List Nat :=
  (upFrom 0 (cbCode b)).map (fun j =>
    Config.dot32 ((upFrom 0 (cbDim b)).map (fun i => bfToF32 (fieldLE b (cbProj b + 2 * (j * cbDim b + i)) 2))) x)

/-- Code scale of channel `j`. -/
def chScale (b : Bytes) (j : Nat) : Nat := fieldLE b (cbScale b + 4 * j) 4

/-- A value clamped to ±q. -/
def clampTo (q i : Int) : Int := if i > q then q else if i < -q then -q else i

/-- `m × 2^e` over `p × 2^x`, rounded half away from zero. -/
def quotAway (neg : Bool) (m : Nat) (e : Int) (p : Nat) (x : Int) : Int :=
  let k := e - x
  let num := if 0 ≤ k then m <<< k.toNat else m
  let den := if 0 ≤ k then p else p <<< (-k).toNat
  let v : Int := ((2 * num + den) / (2 * den) : Nat)
  if neg then -v else v

/-- Largest code element: 7 for INT4x64, 127 for INT8x32. -/
def codeMax (b : Bytes) : Int := if cbCode b = 64 then 7 else 127

/-- Code element of y over its scale, and whether it saturated. -/
def codeElem (q : Int) (y sc : Nat) : Int × Bool :=
  match fpOf fmt32 y, fpOf fmt32 sc with
  | .inf n, _ => (if n then -q else q, true)
  | .fin n m e, .fin _ p x =>
    let v := quotAway n m e p x
    (clampTo q v, decide (clampTo q v ≠ v))
  | _, _ => (((Config.nanCode y : Int) % (2 * q + 1)) - q, false)

/-- Code of a vector, with the saturations. -/
def codeInts (b : Bytes) (x : List Nat) : List (Int × Bool) :=
  (numbered (project b x)).map (fun p => codeElem (codeMax b) p.2 (chScale b p.1))

/-- The 32 bytes of a code. -/
def packCode (b : Bytes) (l : List Int) : Bytes :=
  if cbCode b = 64 then (chunks 2 l).map (fun p => BitVec.ofNat 8 (wrap 4 (p.getD 0 0) + 16 * wrap 4 (p.getD 1 0)))
  else l.map (fun i => BitVec.ofNat 8 (wrap 8 i))

/-- Elements of a stored code. -/
def unpackCode (b c : Bytes) : List Int :=
  if cbCode b = 64 then (upFrom 0 64).map (fun j => sgn 4 (bits (fieldLE c (j / 2) 1) (4 * (j % 2) + 3) (4 * (j % 2))))
  else (upFrom 0 32).map (fun j => sgn 8 (fieldLE c j 1))

/-- Integer dot product, as EDOT forms it. -/
def dotInt (a b : List Int) : Int := (a.zip b).foldl (fun s p => s + p.1 * p.2) 0

/-- An fp32 value is greater than zero. -/
def f32Pos (x : Nat) : Bool := (f32Key x).any (fun k => decide (0 < k))

/-- Sketch of a vector: bit b is set when row b of the rotation has a positive product with it. -/
def sketchOf (b : Bytes) (x : List Nat) : Nat :=
  (upFrom 0 (cbSketch b)).foldl (fun a i =>
    let row := (upFrom 0 (cbDim b)).map (fun j => intToF32 (sgn 8 (fieldLE b (cbRot b + i * cbDim b + j) 1)))
    if f32Pos (Config.dot32 row x) then a + 2 ^ i else a) 0

/-- Equal bits of two sketches of `s` bits. -/
def equalBits (s a q : Nat) : Nat := s - popcount s (a ^^^ q)

/-- y × chscale exactly, none when it is not finite. -/
def scaled (y sc : Nat) : Option (Bool × Nat × Int) :=
  match fpOf fmt32 y, fpOf fmt32 sc with
  | .fin n m e, .fin _ p x => some (n, m * p, e + x)
  | _, _ => none

/-- The greater magnitude. -/
def maxMag (a : Nat × Int) (b : Nat × Int) : Nat × Int :=
  if a.1 <<< (a.2 + 400).toNat < b.1 <<< (b.2 + 400).toNat then b else a

/-- Query code (R143): λ is 127 over the largest magnitude, rounded once to fp32; each product is exact before its
rounding. A projection that is not finite leaves the elements open. -/
def queryCode (b : Bytes) (x : List Nat) : List Int :=
  let ys := project b x
  let ps := (numbered ys).map (fun p => scaled p.2 (chScale b p.1))
  if ps.any (fun p => p.isNone) then ys.map (fun y => ((Config.nanCode y : Int) % 255) - 127)
  else
    let qs := ps.filterMap (fun p => p)
    let mx := qs.foldl (fun a p => maxMag a p.2) (0, 0)
    if mx.1 = 0 then ys.map (fun _ => 0)
    else
      let d := divSticky 28 127 0 mx.1 mx.2
      match fpOf fmt32 (fpRound fmt32 .rne false d.1 d.2).1 with
      | .fin _ lm le => qs.map (fun p =>
          let v : Int := ((shiftRound .rmm p.1 (p.2.1 * lm) (-(p.2.2 + le))).1 : Nat)
          clampTo 127 (if p.1 then -v else v))
      | _ => ys.map (fun y => ((Config.nanCode y : Int) % 255) - 127)

/-- Centroid of a cell. -/
def centroid (b : Bytes) (i : Nat) : List Int := (upFrom 0 (cbCode b)).map (fun j => sgn 8 (fieldLE b (cbCent b + i * cbCode b + j) 1))

/-- The `n` cells whose centroids score best against a code, in the order of R86 with the cell as id (Table 6-3, R155). -/
def rankCells (b : Bytes) (q : List Int) (n : Nat) : List Nat :=
  ((upFrom 0 (cbCells b)).foldl (fun l i =>
    (insertEnt false ⟨i, 0, wrap 32 (dotInt (centroid b i) q)⟩ l).take n) []).map (fun e => e.id)

/-! ### A corpus on this node -/

/-- A corpus changed. -/
def onCorpus (t c : Nat) (f : Corp → Corp) (s : State) : State :=
  { s with path := { s.path with corpora := updFirst (fun x => x.tenant == t && x.num == c) f s.path.corpora } }

/-- Object of a corpus's slot. Index 0xC090 is the object of letters (Table 17-7), so slot 16 has no index of its own and
keeps its counts outside the directory (log 61). -/
def corpObj (slot sub : Nat) : Nat := ent (if slot = 16 then 0xF090 else 0xC080 + slot) sub

/-- A counter of the corpus's slot. -/
def corpBump (c : Corp) (sub n : Nat) (s : State) : State := optS c.slot (fun k => bumpBy (corpObj k sub) n) s

/-! ### Memory of a corpus (R141) -/

/-- Bytes of an index entry. -/
def idxW (b : Bytes) : Nat := if cbVersions b then 12 else 8
/-- Bytes per stack of a shard's code area. -/
def codeArea (b : Bytes) : Nat := 8 * cbRegions b * 2 ^ 20 * 32
/-- Bytes per stack of a shard's index area. -/
def idxArea (b : Bytes) : Nat := 8 * cbRegions b * 2 ^ 20 * idxW b
/-- Rows of a shard's sketch regions and staging area. -/
def sketchRows (b : Bytes) : Nat := if cbSketch b = 0 then 0 else cbRegions b * (2 * cbSketch b + 2) + cbSketch b + 1

/-- Bytes per stack of one shard. -/
def shardLen (b : Bytes) (codeT3 : Bool) : Nat := (if codeT3 then 0 else codeArea b) + idxArea b + sketchRows b * 0x100000

/-- Offset within every stack at which a shard held here starts. -/
def shardBase (c : Corp) (shard : Nat) : Nat :=
  c.base + (c.shards.takeWhile (fun x => x != shard)).length * shardLen c.body c.codeT3

/-- Local address of a slot's code. -/
def codeAddr (c : Corp) (k : Nat) : Nat :=
  kStack k * 0x1000000000 + shardBase c (kShard k) + (kTile k * 2 ^ 20 + kU k / 16) * 32

/-- Local address of a slot's index entry. -/
def idxAddr (c : Corp) (k : Nat) : Nat :=
  kStack k * 0x1000000000 + shardBase c (kShard k) + (if c.codeT3 then 0 else codeArea c.body)
    + (kTile k * 2 ^ 20 + kU k / 16) * idxW c.body

/-- First row of a region's planes and its live row (R141): the rows from p_g to p_g + 2s + 1. -/
def regionRows (c : Corp) (reg : Nat) : Nat × Nat :=
  let s := cbSketch c.body
  let base := (shardBase c (reg / 64) + (if c.codeT3 then 0 else codeArea c.body) + idxArea c.body) / 0x100000
  (base + reg % 64 * (2 * s + 2), base + reg % 64 * (2 * s + 2) + 2 * s + 2)

/-- Bytes stored with fresh check bits. -/
def putBytes (a : Nat) (b : Bytes) (s : State) : State := freshCheck a b.length (memWrite a b s)

/-- A slot's code and index entry written (R156). -/
def storeSlot (c : Corp) (k : Nat) (z : CSlot) (s : State) : State :=
  let s := if c.codeT3 then s else putBytes (codeAddr c k) (slice z.code 0 32) s
  putBytes (idxAddr c k) (leBytes 8 z.id ++ (if idxW c.body = 12 then leBytes 4 z.stamp else [])) s

/-- A slot's index entry set to the sentinel (R142, R156). -/
def clearSlot (c : Corp) (k : Nat) (s : State) : State :=
  putBytes (idxAddr c k) (leBytes 8 sentinelId ++ (if idxW c.body = 12 then zeros 4 else [])) s

/-- A slot's code, id and stamp read in one access (R149): the status (0 none) and what was read. -/
def readSlot (w : Who) (c : Corp) (k : Nat) (z : CSlot) (s : State) : Nat × Ent × Bytes × State :=
  let n := idxW c.body
  let code := if c.codeT3 then z.code else fixedRead s (codeAddr c k) 32
  let idx := fixedRead s (idxAddr c k) n
  let r1 := if c.codeT3 then (0, s) else demandRead w (codeAddr c k) 32 s
  let r2 := demandRead w (idxAddr c k) n r1.2
  (if r1.1 ≠ 0 then r1.1 else r2.1, ⟨fieldLE idx 0 8, if n = 12 then fieldLE idx 8 4 else 0, 0⟩, code, r2.2)

/-! ### The T3 object of full vectors (R151, R213, Table 9-2) -/

/-- Consignments that objects of the built-in paths hold: area, first consignment, count. -/
def consTaken (s : State) : List (Nat × Nat × Nat) :=
  s.path.corpora.flatMap (fun c => c.cons.map (fun p => (p.1, p.2 / 32, 1)))
    ++ (s.path.ctx.filter (fun x => decide (0 < x.spilled))).map (fun x =>
      (x.obj.1, x.obj.2 / 32, x.spilled * pfLayers x.prof.par * pfHeads x.prof.par * 18))

/-- Consignments of a tenant's areas at which `n` free ones follow one another. -/
def runStarts (s : State) (t n : Nat) : List (Nat × Nat) :=
  let taken := consTaken s
  (s.flash.areas.filter (fun p => p.2.tenant == t && decide (p.1 < 254))).flatMap (fun p =>
    ((upFrom 0 (p.2.units / 2)).filter (fun q => decide (q + n ≤ p.2.units / 2)
      && taken.all (fun x => x.1 != p.1 || decide (q + n ≤ x.2.1) || decide (x.2.1 + x.2.2 ≤ q)))).map (fun q => (p.1, q)))

/-- A run of consignments for a tenant, at a place the spec leaves free: area and first parcel. -/
def allocRun (t n : Nat) (s : State) : Option ((Nat × Nat) × State) :=
  let l := runStarts s t n
  let d := draw s
  (l[Config.choose d.1 l.length % max 1 l.length]?).map (fun p => ((p.1, p.2 * 32), d.2))

/-- Vectors per parcel, and parcels per vector. -/
def vecsPer (b : Bytes) : Nat := max 1 (4096 / vecBytes b)
/-- Parcels per vector. -/
def parsPer (b : Bytes) : Nat := ceilDiv (vecBytes b) 4096

/-- Parcels of vector `n` within the corpus's T3 object. -/
def vecParcels (b : Bytes) (n : Nat) : List Nat := if parsPer b = 1 then [n / vecsPer b] else upFrom (n * parsPer b) (parsPer b)

/-- Vectors that share parcel `p` of the object. -/
def parcelVecs (b : Bytes) (p : Nat) : List Nat := if parsPer b = 1 then upFrom (p * vecsPer b) (vecsPer b) else [p / parsPer b]

/-- Area and logical parcel of parcel `p` of the object. -/
def objParcel (c : Corp) (p : Nat) : Option (Nat × Nat) := (c.cons[p / 32]?).map (fun q => (q.1, q.2 + p % 32))

/-- The 4,096 bytes of parcel `p` of the object. -/
def vecParcel (c : Corp) (p : Nat) : Bytes :=
  let b := c.body
  if parsPer b = 1 then
    slice ((parcelVecs b p).flatMap (fun n => slice (smGetD c.vecs n []) 0 (vecBytes b))) 0 4096
  else slice (smGetD c.vecs (p / parsPer b) []) (p % parsPer b * 4096) 4096

/-- Vector numbers in use: by slots, and by items not applied. -/
def vecUsed (c : Corp) : List Nat := c.slots.map (fun p => p.2.vidx) ++ (c.items.filter (fun i => !i.del)).map (fun i => i.slot.vidx)

/-- Lowest vector number free. -/
def freeVec (c : Corp) : Nat := ((upFrom 0 ((vecUsed c).length + 1)).find? (fun n => !(vecUsed c).contains n)).getD 0

/-- Bytes of vector `n` out of the parcels that hold it. -/
def vecFrom (b : Bytes) (n : Nat) (ps : List Bytes) : Bytes :=
  if parsPer b = 1 then slice (ps.getD 0 []) (n % vecsPer b * vecBytes b) (vecBytes b) else slice (ps.flatMap (fun x => x)) 0 (vecBytes b)

/-! ### The pending list (R148, R162) -/

/-- Pending entries of a corpus. -/
def pendCount (c : Corp) : Nat := (c.slots.filter (fun p => p.2.pend)).length

/-- Pending entries of the node. -/
def pendAll (s : State) : Nat := (s.path.corpora.map pendCount).foldl (fun a b => a + b) 0

/-- Counts kept in entries after the slots of a corpus change (Tables 6-7 and 6-8). -/
def showCorpus (t c : Nat) (s : State) : State :=
  match corpus? s t c with
  | none => s
  | some x =>
    let s := optS x.slot (fun k s =>
      let s := dirSet (corpObj k 1) x.slots.length (dirSet (corpObj k 2) (pendCount x) s)
      dirSet (corpObj k 5) (b01 (x.slots.any (fun p => p.2.reload))) s) s
    dirSet (ent 0xC040 8) (max (dirNum s (ent 0xC040 8)) (pendAll s)) s

/-! ### Faults (R158) -/

/-- Slots of a corpus changed. -/
def mapSlots (p : Corp → Nat → Bool) (f : CSlot → CSlot) (s : State) : State :=
  { s with path := { s.path with corpora := s.path.corpora.map (fun c =>
      { c with slots := c.slots.map (fun q => if p c q.1 then (q.1, f q.2) else q) }) } }

/-- A row lies in the sketch rows of a slot's region. -/
def rowInRegion (c : Corp) (k r : Nat) : Bool :=
  cbSketch c.body != 0 && decide ((regionRows c (kRegion k)).1 ≤ r) && decide (r < (regionRows c (kRegion k)).2)

/-- A rail fault or an unsealed pair of a bank at a row: columns of a corpus region there are no longer live, and their
sketches are reloaded at the next round boundary (R158). -/
def corpusFaultAt (k bank r : Nat) (s : State) : State :=
  mapSlots (fun c key => kStack key == k && kBank key == bank && rowInRegion c key r)
    (fun z => { z with live := false }) s

/-- Sketches neither live nor pending enter the pending list (R158, ROUND_BOUNDARY). -/
def reloadSketches (s : State) : State :=
  let s := mapSlots (fun c _ => cbSketch c.body != 0) (fun z => if z.live || z.pend || z.reload then z else { z with pend := true }) s
  foldS s.path.corpora (fun c => showCorpus c.tenant c.num) s

/-- A bank of a stack holds part of a slot: its sketch, its code or its index entry. -/
def slotInBank (c : Corp) (key k bank : Nat) : Bool :=
  kStack key == k && ((cbSketch c.body != 0 && kBank key == bank) || bankOfOff (codeAddr c key % 0x1000000000) == bank
    || bankOfOff (idxAddr c key % 0x1000000000) == bank)

/-- A bank taken out of service loses what it held: the slots await their reload (R158). -/
def corpusBankOut (k bank : Nat) (s : State) : State :=
  let s := mapSlots (fun c key => slotInBank c key k bank) (fun z => { z with live := false, pend := false, reload := true }) s
  foldS s.path.corpora (fun c => showCorpus c.tenant c.num) s

/-- Banks of a stack out of service now and not before. -/
def newBanksOut (k : Nat) (before after : State) : List Nat :=
  (seqr after k).banksOut.filter (fun b => !(seqr before k).banksOut.contains b)

/-- What a stack's circular did to corpora: banks newly faulted at a row, banks newly out (R158). -/
def corpusAfter (k r : Nat) (before after : State) : State :=
  let f := (seqr after k).faulted.filter (fun b => !(seqr before k).faulted.contains b)
  let s := foldS f (fun b => corpusFaultAt k b r) after
  foldS (newBanksOut k before s) (corpusBankOut k) s

end Sys2Proof.Machine
end

