-- ==== Sys2Proof/Machine/Circular.lean ====
section
/-! DEFINITION. Circular: loading, starting, aborting and running circulars, and refresh (chapter 5). -/
namespace Sys2Proof.Machine

/-- An engine register is reached by machine mode only (R117, Table 2-6): a user-mode store there is an access fault. -/
def onEngine (th : Nat) (f : Nat → State → State) (s : State) : State :=
  onIssue th (fun s =>
    if (thread s th).user then takeFault th causeStore 0x10 0 s
    else f (thread s th).req (onThread th (advance 4) s)) s

/-- CLOAD (R120): the load of the circular at `addr` starts in stack `k`. -/
def execCload (th k addr : Nat) (s : State) : Out := .next (onEngine th (fun rid => cloadReg rid k addr) s)

/-- The load at the head is finished: queued, or refused with its code and its owner's status (Table 5-9). -/
def loadDone (k : Nat) (s : State) : State :=
  match (seqr s k).loads with
  | [] => s
  | (addr, rid) :: rest =>
    let s := onSeqr k (fun q => { q with loads := rest }) s
    match checkLoad k addr rid s with
    | (code, some c, s) =>
      mirrorCstat k (onSeqr k (fun q => { q with queue := q.queue ++ [c], refusal := code }) s)
    | (code, none, s) =>
      let s := onSeqr k (fun q => { q with refusal := code }) s
      let s := bump (if code = 1 then ent 0x7010 4 else ent 0x7010 5) s
      if refusalStatus code = 0 then s else failReq rid (refusalStatus code) s

/-- A circular load finishes its checks (R120, R121, Table 5-9). -/
def execCircularLoadDone (k : Nat) (s : State) : Out := .next (if k < 16 then loadDone k s else s)

/-- CSTART (R122). -/
def execCstart (th v : Nat) (s : State) : Out := .next (onEngine th (fun _ => cstartReg v) s)

/-- CABORT (R135). -/
def execCabort (th k v : Nat) (s : State) : Out := .next (onEngine th (fun _ => cabortReg k v) s)

/-- Stacks with a circular running. -/
def runningStacks (s : State) : Nat := ((upFrom 0 16).filter (fun k => (seqr s k).phase != .idle)).length

/-- Step 7 of Table 15-10 lets at most 8 stacks run circulars at once. -/
def launchPaced (s : State) : Bool := decide (7 ≤ dirNum s (ent 0x4020 4)) && decide (8 ≤ runningStacks s)

/-- Launch (R122, R124, R125): postponed refreshes complete, the latches are zero, the program starts; a descriptor
whose field and complement disagree stops before its first word. -/
def launch (k : Nat) (c : Circ) (s : State) : State :=
  let n := (seqr s k).postponed
  let foot := (checkProg (c.prog.map (fun p => micOf p.1))).foot
  let s := bumpBy (ent 0x7010 3) n (onSeqr k (fun q => { q with
    phase := .run, seq := c.seq, pcw := 0, loop := none, latchA := [], latchB := [], steps := 0, cyc := 0,
    refreshes := n, refreshDue := false, postponed := 0, faulted := [], sealFail := 0, foot := foot, status := 0,
    aborting := false }) s)
  mirrorCstat k (if c.descBad then compStop k s else s)

/-- A circular starts in a stack once its CSTART has arrived and every earlier one has completed (R122, R125); while a
pass of a built-in path runs in the stacks none starts. -/
def execCircularLaunch (k : Nat) (s : State) : Out :=
  .next (match (seqr s k).phase, (seqr s k).queue.head? with
    | .idle, some c => if c.started && !(seqr s k).out && !launchPaced s && s.path.pass.isNone then launch k c (touchStack k s) else s
    | _, _ => s)

/-- A checked seal left the pair at even row `r` of a bank unsealed. -/
def pairLeft (s : State) (k b r : Nat) : Bool :=
  !pairGood s k b r && (rowUnsealed s (rowId (rowAddr k b r)) || rowUnsealed s (rowId (rowAddr k b (r + 1))))

/-- Pairs that a checked seal left unsealed touch corpora (R158). -/
def sealedPairs (k : Nat) (rows : List Nat) (s : State) : State :=
  foldS (banksIn s k) (fun b s => foldS rows (fun r s => if pairLeft s k b r then corpusFaultAt k b r s else s) s) s

/-- Even rows that a checked end seal pairs. -/
def endRows (s : State) (k : Nat) (c : Circ) : List Nat :=
  match (seqr s k).foot with
  | some f => if c.endSeal = 2 then (footRows f).filter (fun r => r % 2 == 0) else []
  | none => []

/-- END (R115, R128): the last step ends; the end seal follows unless an abort waits at this boundary (R135). -/
def endProg (k : Nat) (c : Circ) (s : State) : State :=
  let s := bump (ent 0x7010 2) (onSeqr k (fun q => { q with steps := q.steps + 1, cyc := 0 }) s)
  if (seqr s k).aborting then stopCirc k 3 s
  else onSeqr k (fun q => { q with phase := .compact, loop := none }) (sealedPairs k (endRows s k c) (endSealOp k c s))

/-- END. -/
def execMicEnd (k : Nat) (s : State) : Out := .next (issueMic k 0x00 (fun c _ => endProg k c) s)

/-- STEP (R123). -/
def execMicStep (k : Nat) (s : State) : Out := .next (issueMic k 0x01 (fun _ _ => stepBoundary k) s)

/-- REPEAT (R116): the next `qbit` words run `imm` times with the strides and the query step of its fields. -/
def startLoop (k : Nat) (m : Mic) (s : State) : State :=
  onSeqr k (fun q => { q with
    pcw := q.pcw + 1,
    loop := some ⟨q.pcw + 1, m.qbit, m.imm, 0, sgn 16 m.ra, sgn 16 m.rb, m.rail⟩ }) s

/-- REPEAT. -/
def execMicRepeat (k : Nat) (s : State) : Out := .next (issueMic k 0x02 (fun _ => startLoop k) s)

/-- LD (Table 5-4): Ld ← operand, in every bank in service. -/
def execMicLd (k : Nat) (s : State) : Out := .next (bankMic k 0x08 (latchOp k) s)

/-- AND (Table 5-4): Ld ← Ld AND operand, in every bank in service. -/
def execMicAnd (k : Nat) (s : State) : Out := .next (bankMic k 0x09 (latchOp k) s)

/-- OR (Table 5-4): Ld ← Ld OR operand, in every bank in service. -/
def execMicOr (k : Nat) (s : State) : Out := .next (bankMic k 0x0A (latchOp k) s)

/-- XOR (Table 5-4): Ld ← Ld XOR operand, in every bank in service. -/
def execMicXor (k : Nat) (s : State) : Out := .next (bankMic k 0x0B (latchOp k) s)

/-- XNOR (Table 5-4): Ld ← NOT (Ld XOR operand), in every bank in service. -/
def execMicXnor (k : Nat) (s : State) : Out := .next (bankMic k 0x0C (latchOp k) s)

/-- ANDN (Table 5-4): Ld ← Ld AND NOT operand, in every bank in service. -/
def execMicAndn (k : Nat) (s : State) : Out := .next (bankMic k 0x0D (latchOp k) s)

/-- NOT (Table 5-4): Ld ← NOT Ld, in every bank in service. -/
def execMicNot (k : Nat) (s : State) : Out := .next (bankMic k 0x0E (latchOp k) s)

/-- MAJ (Table 5-4): Ld ← majority of Ld, row ra under rail, and row rb, in every bank in service. -/
def execMicMaj (k : Nat) (s : State) : Out := .next (bankMic k 0x0F (latchOp k) s)

/-- FILLQ (Table 5-4): every column ← a query bit, in every bank in service. -/
def execMicFillq (k : Nat) (s : State) : Out := .next (bankMic k 0x10 (latchOp k) s)

/-- FILLT (Table 5-4): every column ← a threshold bit, in every bank in service. -/
def execMicFillt (k : Nat) (s : State) : Out := .next (bankMic k 0x11 (latchOp k) s)

/-- WR (Table 5-4): the row, or its partner with the complement, in every bank; the written row is unsealed (R126). -/
def execMicWr (k : Nat) (s : State) : Out := .next (bankMic k 0x18 (fun _ => wrOp k) s)

/-- RCHK (R133). -/
def execMicRchk (k : Nat) (s : State) : Out :=
  .next (bankMic k 0x1C (fun _ m s => corpusAfter k (micRow m) s (rchkOp k (micRow m) s)) s)

/-- SEAL (R128). -/
def execMicSeal (k : Nat) (s : State) : Out :=
  .next (bankMic k 0x1D (fun _ m => sealOp k (upFrom (micRow m) m.imm)) s)

/-- SEALC (R128). -/
def execMicSealc (k : Nat) (s : State) : Out :=
  .next (bankMic k 0x1E (fun _ m s =>
    sealedPairs k ((upFrom 0 (m.imm / 2)).map (fun i => micRow m + 2 * i)) (sealcOp k (micRow m) m.imm s)) s)

/-- Banks that have reached the rail-fault limit go out after the circular (Table 5-12). -/
def limitBanks (k : Nat) (s : State) : State :=
  let lim := dirNum s (ent 0x7010 0xA)
  foldS ((seqr s k).railFaults.filter (fun p => decide (lim ≤ p.2))) (fun p s => bankOut k p.1 s) s

/-- What a stopped or faulted circular does to the request that owns it (R133, Table 5-12). -/
def circRequest (k : Nat) (c : Circ) (s : State) : State :=
  let q := seqr s k
  if c.req ≠ 0 ∧ (q.status = 1 ∨ q.status = 2 ∨ !q.faulted.isEmpty) then failReq c.req 0x41 s else s

/-- Compaction of a circular that ran to END with hit output (R105). -/
def compactAll (k : Nat) (c : Circ) (s : State) : Nat × State :=
  if (seqr s k).status = 0 ∧ c.hit then (banksIn s k).foldl (fun p b => compactBank k c b p) (0, s) else (0, s)

/-- The completion record is written, the knock sent, the counters kept and the circular leaves the queue (R132). -/
def complete (k : Nat) (c : Circ) (s : State) : State :=
  let p := compactAll k c s
  let s := p.2
  let q := seqr s k
  let s := ringWrite k c (completionBytes s k c p.1) s
  let s := sendKnock k c.seq c.knock s
  let s := whenS (q.status == 0) (bump (ent 0x7010 1)) s
  let s := whenS (q.status == 3) (bump (ent 0x7010 0xB)) s
  let s := circRequest k c s
  let s := corpusAfter k 0x10000 s (limitBanks k s)
  mirrorCstat k (dirSet (ent (0x7020 + k) 4) c.seq (closeCirc k (touchStack k s)))

/-- A stack finishes compaction and writes its completion record (R132). -/
def completionRecord (k : Nat) (s : State) : State :=
  match (seqr s k).phase, running? s k with
  | .compact, some c => complete k c s
  | _, _ => s

/-- What a stack out of service held of corpora is lost (R158). -/
def corpusStackOut (k : Nat) (s : State) : State :=
  let s := mapSlots (fun _ key => kStack key == k) (fun z => { z with live := false, pend := false, reload := true }) s
  foldS s.path.corpora (fun c => showCorpus c.tenant c.num) s

/-- A refresh falls due (R124): inside a circular it waits for the next step boundary; outside it is performed, with
any that were postponed (log 16). -/
def execRefresh (k : Nat) (s : State) : Out :=
  .next (if k < 16 then
      onSeqr k (fun q => if q.phase = .run then { q with refreshDue := true } else { q with postponed := 0 }) s
    else s)

/-- A refresh not performed within one step stops the stack and takes it out (Table 5-12). -/
def refreshWatchdog (k : Nat) (s : State) : State :=
  if (seqr s k).phase = .run ∧ (seqr s k).refreshDue then
    corpusStackOut k (stackOut k (stopCirc k 2 (raise (errOf 7 2 2 k 0 0x41 none) s)))
  else s

/-- Refresh interval of a stack in ns (Table 5-8): 1,950 above 85 °C or where the ageing plan forces it. -/
def refreshNs (s : State) (k : Nat) : Nat :=
  if (seqr s k).hot ∨ fieldLE (dirBytes s (ent 0xA020 7)) k 1 = 1 then 1950 else 3900

/-- A stack crosses 85 °C (R124); `temp` in tenths of a degree. -/
def execRefreshIntervalChange (k : Nat) (temp : Int) (s : State) : Out :=
  .next (if k < 16 then
      let s := onSeqr k (fun q => { q with hot := decide (850 < temp) }) s
      dirSet (ent (0x7020 + k) 1) (refreshNs s k) s
    else s)

end Sys2Proof.Machine
end

