-- ==== Sys2Proof/Machine/Parcel.lean ====
section
/-! DEFINITION. Parcel: the commands of the parcel engine (chapter 9). -/
namespace Sys2Proof.Machine

/-- PSUBMIT (R214, R215): a machine-mode thread writes a descriptor's address to its cluster's queue. -/
def execPsubmit (th n addr : Nat) (s : State) : Out := .next (onEngine th (fun rid => psubmitReg rid n addr) s)

/-- The limit of a parcel has passed since its issue (R220). -/
def isLate (s : State) (p : Parcel) : Bool := p.limit != 0 && decide (p.at_ + p.limit * frameCycles ≤ s.clk.now)

/-- A parcel not delivered within its limit fails with TIER_TIMEOUT (R220, R221). -/
def tierTimeout (pid : Nat) (s : State) : State :=
  match parcel? s pid with
  | some p => if isLate s p && !p.dead then issueAll (failParcel pid 0x44 (bump (ent 0xC070 6) s)) else s
  | none => s

end Sys2Proof.Machine
end

