-- ==== Sys2Proof/Machine/Sea.lean ====
section
/-! DEFINITION. Sea: the commands of the thread sea (chapter 2) other than the Eorus arithmetic. -/
namespace Sys2Proof.Machine

/-! ### Loads, stores, atomics, fences -/

/-- Registers of a memory form with its base. -/
def onForm (th rs1 : Nat) (form : MemForm) (f : State → State) (s : State) : State :=
  let r := formRegs form
  onRegs th (rs1 :: r.1) r.2.1 r.2.2 f s

/-- LOAD (R33, R34, R46). -/
def execLoad (th : Nat) (form : MemForm) (rs1 : Nat) (imm : Int) (s : State) : Out :=
  .next (onForm th rs1 form (fun s => doLoad th 4 form (effAddr (thread s th) rs1 imm) s) s)

/-- STORE (R33, R34, R46). -/
def execStore (th : Nat) (form : MemForm) (rs1 : Nat) (imm : Int) (s : State) : Out :=
  .next (onForm th rs1 form (fun s => doStore th 4 form (effAddr (thread s th) rs1 imm) s) s)

/-- AMO (R34, R49). -/
def execAmo (th : Nat) (op : AmoOp) (n rd rs1 rs2 : Nat) (s : State) : Out :=
  .next (onRegs th [rd, rs1, rs2] [] [] (fun s =>
    doAmo th 4 op n rd (rx (thread s th) rs1).toNat (rx (thread s th) rs2).toNat s) s)

/-- LR / SC (R34, R49). -/
def execLrSc (th : Nat) (sc : Bool) (n rd rs1 rs2 : Nat) (s : State) : Out :=
  .next (onRegs th [rd, rs1, rs2] [] [] (fun s =>
    let va := (rx (thread s th) rs1).toNat
    if sc then doSc th 4 n rd va (rx (thread s th) rs2).toNat s else doLr th 4 n rd va s) s)

/-- FENCE (R51, R52). -/
def execFence (th pred _succ : Nat) (s : State) : Out := .next (onIssue th (doFence th 4 pred) s)

/-- FENCE.I (R39). -/
def execFenceI (th : Nat) (s : State) : Out := .next (onIssue th (doFenceI th 4) s)

/-- ECALL (R56). -/
def execEcallExit (th : Nat) (s : State) : Out := .next (onIssue th (doEcall th) s)

/-! ### Prefetch (R41, R42) -/

/-- Marks of a slot's prefetched lines removed. -/
def unmark (cl slot : Nat) (s : State) : State :=
  { s with mem := { s.mem with lines := s.mem.lines.map (fun p =>
      if p.1 / 2 ^ 34 = cl ∧ p.2.pf = slot + 1 then (p.1, { p.2 with pf := 0 }) else p) } }

/-- A stream slot freed. -/
def freeStream (k : Nat) (s : State) : State :=
  unmark (k / 64) (k % 64) { s with sea := { s.sea with streams := smDel s.sea.streams k } }

/-- A prefetch of the line at local address `a` may be performed: a sealed row of a stack, no uncorrectable word. -/
def prefetchable (s : State) (a : Nat) : Bool :=
  inStack a && !rowBroken s (rowId a) && !rowUnsealed s (rowId a) && !((wordsOf a 64).any (isBad s))

/-- The line `a` comes in for automatic stream `k`, with no fault and no error record (R42). -/
def prefetchLine (k a : Nat) (s : State) : State :=
  let cl := k / 64
  if (smGet? s.mem.lines (lineKey cl a)).isSome then s
  else if prefetchable s a then
    let s := makeRoom whoMedia cl (accessStack a s)
    let data := BitVec.ofNat 512 (leNat (fixedRead s a 64))
    onStream k (fun z => { z with unused := z.unused + 1 })
      { s with mem := { s.mem with lines := smPut s.mem.lines (lineKey cl a) ⟨data, false, false, k % 64 + 1⟩ } }
  else s

/-- PREFETCH_FILL: an automatic stream brings in its next line when the demand has come near enough (R41, R42); the
stream ends past its segment's end or with 256 lines unused. -/
def execPrefetchFill (cl slot line : Nat) (s : State) : Out :=
  let k := cl * 64 + slot
  .next (match smGet? s.sea.streams k with
    | some z =>
      if z.declared || line != z.nextLine
          || decide ((z.aheadLines : Int) * z.stride.natAbs < (((z.nextLine : Int) - z.cur).natAbs : Int)) then s
      else if decide (z.endLine < line) || decide (256 ≤ z.unused) then freeStream k s
      else
        let s := prefetchLine k line s
        onStream k (fun z => { z with nextLine := ((z.nextLine : Int) + z.stride).toNat }) s
    | none => s)

/-! ### Remote accesses (R52) -/

/-- REMOTE_ACCESS_TIMEOUT: 16 frames without an answer. A store's failure waits for the next FENCE with predecessor w or
the exit; a load's or AMO's ends the request at once. -/
def execRemoteAccessTimeout (th tag : Nat) (s : State) : Out :=
  .next (match (thread s th).remote.find? (fun r => r.tag == tag) with
    | some r =>
      if s.clk.now < r.at_ + 16 * frameCycles then s
      else
        let s := onThread th (fun t => { t with remote := t.remote.filter (fun x => x.tag != tag) }) s
        match r.kind with
        | .ack => onThread th (fun t => { t with failedAck := some (t.failedAck.getD (r.va, 0x42)) }) s
        | .amo _ _ => takeFault th causeStore 0x42 r.va s
        | _ => takeFault th causeLoad 0x42 r.va s
    | none => s)

/-! ### Declared streams (R43, R44) -/

/-- A declared stream's descriptor (Table 2-5), none when it is invalid. -/
def streamOf (s : State) (th : Nat) (b : Bytes) : Option Stream :=
  let w0 := fieldLE b 0 8
  let w1 := fieldLE b 8 8
  let w2 := fieldLE b 16 8
  let w3 := fieldLE b 24 8
  let ahead := bits w3 23 16
  let ring := bits w3 15 8
  let mode := bits w3 1 0
  let stride := sgn 32 (bits w1 63 32)
  let ringOk := if mode = 1 then decide (1 ≤ ring) && decide (ring ≤ 64) && w2 % 4096 == 0
      && (ownStore s th w2 (ring * 4096)).isSome
    else mode == 0 && ring == 0 && w2 == 0
  let listOk := !bit w3 2 || (ownStore s th w0 (8 * bits w1 23 0)).isSome
  if bits w3 63 24 = 0 ∧ bits w3 7 3 = 0 ∧ bits w1 31 24 = 0 ∧ 1 ≤ ahead ∧ ahead ≤ 64 ∧ 1 ≤ bits w1 23 0
      ∧ stride % 64 = 0 ∧ ringOk ∧ listOk then
    some { declared := true, th := th, req := (thread s th).req, ringMode := mode == 1, listKind := bit w3 2, source := w0,
           dest := w2, count := bits w1 23 0, stride := if stride = 0 then 4096 else stride, ahead := ahead, ring := ring,
           issued := 0, delivered := 0, released := 0, held := [], failed := 0, nextLine := 0, aheadLines := 0, unused := 0,
           lastUse := s.clk.now, endLine := 0, cur := 0 }
  else none

/-- The automatic stream of a cluster used least recently. -/
def oldestAuto (s : State) (cl : Nat) : Option Nat :=
  let autos := s.sea.streams.filter (fun p => p.1 / 64 == cl && !p.2.declared)
  let first := fun (o : Option (Nat × Stream)) (p : Nat × Stream) =>
    match o with
    | none => some p
    | some q => if p.2.lastUse < q.2.lastUse then some p else some q
  (autos.foldl first none).map (fun p => p.1 % 64)

/-- Slot for a declaration: a free one, else the least recently used automatic one (R41, R43). -/
def slotFor (s : State) (cl : Nat) : Option Nat :=
  match freeSlot s cl with
  | some i => some i
  | none => oldestAuto s cl

/-- A stream is declared; estream then reads its handle, or all ones when every slot holds a declared stream. -/
def declareStream (th : Nat) (z : Stream) (s : State) : State :=
  let cl := clusterOf th
  match slotFor s cl with
  | some i =>
    let k := cl * 64 + i
    let s := freeStream k s
    let s := { s with sea := { s.sea with streams := smPut s.sea.streams k z } }
    issueStream 64 k (onThread th (setCsr 0x8C0 i) s)
  | none => onThread th (setCsr 0x8C0 (2 ^ 64 - 1)) s

/-- ESTREAM (R43): rd receives the handle of the thread's latest declaration, and a write declares a stream. -/
def doEstream (th rd arg : Nat) (s : State) : State :=
  let t := thread s th
  let va := arg
  let fin := onThread th (fun u => advance 4 (setX rd (BitVec.ofNat 64 (rcsr t 0x8C0)) u))
  match ownStore s th va 32 with
  | none => takeFault th causeStore 0x10 va s
  | some a =>
    let b := fixedRead s a 32
    match demandRead (whoTh s th) a 32 s with
    | (0, s) => match streamOf s th b with
      | some z => declareStream th z (fin s)
      | none => takeFault th causeStore 0x10 va s
    | (st, s) => takeFault th causeStore st va s

/-- ESTREAM with its operand in rs1. -/
def execEstream (th rd rs1 : Nat) (s : State) : Out :=
  .next (onRegs th [rd, rs1] [] [] (fun s => doEstream th rd (rx (thread s th) rs1).toNat s) s)

/-- The declared stream a handle names, in the thread's cluster. -/
def streamAt (s : State) (th h : Nat) : Option Stream :=
  if h < 64 then (smGet? s.sea.streams (clusterOf th * 64 + h)).filter (fun z => z.declared) else none

/-- ESTWAIT (R44): holds the thread until the parcel has been delivered and returns the count delivered; all ones on a
failed stream. A handle that names no declared stream returns a free value. -/
def doEstwait (th rd arg : Nat) (s : State) : State :=
  let v := arg
  let h := v / 2 ^ 32
  let i := v % 2 ^ 32
  let ret := fun (x : W64) (s : State) => onThread th (fun t => advance 4 (setX rd x t)) s
  match streamAt s th h with
  | none => ret (Config.freeWord (draw s).1) (draw s).2
  | some z =>
    if z.failed ≠ 0 then ret (BitVec.allOnes 64) s
    else if i < z.delivered then ret (BitVec.ofNat 64 z.delivered) s
    else onThread th (fun t => { t with run := .waitStream h i rd }) s

/-- ESTWAIT with its operand in rs1. -/
def execEstwait (th rd rs1 : Nat) (s : State) : Out :=
  .next (onRegs th [rd, rs1] [] [] (fun s => doEstwait th rd (rx (thread s th) rs1).toNat s) s)

/-- ESTREL (R44): ring slots up to a parcel index are released; the CSR is write-only and reads zero (R12). -/
def doEstrel (th rd arg : Nat) (s : State) : State :=
  let v := arg
  let k := clusterOf th * 64 + v / 2 ^ 32
  let s1 := onThread th (fun t => advance 4 (setX rd 0 t)) s
  match streamAt s th (v / 2 ^ 32) with
  | none => s1
  | some z =>
    let r := max z.released (min z.count (v % 2 ^ 32 + 1))
    issueStream 64 k (wakeStream k (drainStream 64 k (onStream k (fun z => { z with released := r }) s1)))

/-- ESTREL with its operand in rs1. -/
def execEstrel (th rd rs1 : Nat) (s : State) : Out :=
  .next (onRegs th [rd, rs1] [] [] (fun s => doEstrel th rd (rx (thread s th) rs1).toNat s) s)

/-- ESTOP (R44): the stream is cancelled; parcels already delivered stay where they are. -/
def doEstop (th rd arg : Nat) (s : State) : State :=
  let h := arg
  let k := clusterOf th * 64 + h
  let s1 := onThread th (fun t => advance 4 (setX rd 0 t)) s
  match streamAt s th h with
  | none => s1
  | some _ => freeStream k (killParcels (fun o => match o with | .stream j _ => j == k | _ => false) s1)

/-- ESTOP with its operand in rs1. -/
def execEstop (th rd rs1 : Nat) (s : State) : Out :=
  .next (onRegs th [rd, rs1] [] [] (fun s => doEstop th rd (rx (thread s th) rs1).toNat s) s)

/-! ### Sticky CSRs (Tables 3-7 and 4-4) -/

/-- A write of ones clears those bits of a thread's sticky CSR; rd receives the old value. -/
def clearSticky (th rd rs1 csr : Nat) (s : State) : State :=
  onRegs th [rd, rs1] [] [] (fun s =>
    let t := thread s th
    let old := rcsr t csr
    onThread th (fun u => advance 4 (setX rd (BitVec.ofNat 64 old) (setCsr csr (clearOnes old (rx t rs1).toNat) u))) s) s

/-- ESCSTAT_WRITE (R76): a write of ones clears. -/
def execEscstatWrite (th rd rs1 : Nat) (s : State) : Out := .next (clearSticky th rd rs1 0x8C4 s)

/-- ESLSTAT_WRITE (R93): a write of ones clears. -/
def execEslstatWrite (th rd rs1 : Nat) (s : State) : Out := .next (clearSticky th rd rs1 0x8C6 s)

/-! ### ERANGE (R53) -/

/-- Longest range of one execution. -/
def rangeMax : Nat := 0x40000

/-- Keys of the lines a cluster holds of the covered bytes, start rounded down and end up. -/
def coveredLines (s : State) (cl a n : Nat) : List Nat :=
  (s.mem.lines.filter (fun p => p.1 / 2 ^ 34 == cl && decide (a / 64 ≤ p.1 % 2 ^ 34)
    && decide (p.1 % 2 ^ 34 * 64 < a + n))).map (fun p => p.1)

/-- What ERANGE does with one line: 0 WB, 1 FLUSH, 2 INV. -/
def rangeLine (op : Nat) (w : Who) (key : Nat) (s : State) : State :=
  match op with
  | 0 => writeBackLine w key s
  | 1 => dropLine key (writeBackLine w key s)
  | _ => dropLine key s

/-- Where the covered bytes of a range lie. -/
inductive Cover where
  | here (a : Nat)
  /-- Remote: nothing is cached. -/
  | nothing
  | bad
  | mismatch
deriving DecidableEq, Repr

/-- Checks of a range of `n` bytes from `va`. -/
def coverOf (s : State) (th op va n : Nat) : Cover :=
  if (thread s th).user then
    match translateUser s th va n (if op = 2 then .st else .ld) with
    | .loc a _ => .here a
    | .rem _ _ => .nothing
    | .bad => .bad
    | .mismatch => .mismatch
  else if bits va 63 52 ≠ recPost s then .nothing
  else if bits va 51 0 + n ≤ 0x10000000000 then .here (bits va 51 0)
  else .bad

/-- Encoding of an ERANGE operation with XS nonzero (R35, R53). -/
def rangeLegal (t : Thread) (op : Nat) (w : W32) : Bool :=
  mXS t != 0 && wOpcode w == 0x2B && wF3 w == 4 && wF7 w == op

/-- ERANGE on a thread. -/
def doRange (th op : Nat) (w : W32) (s : State) : State :=
  let t := thread s th
  let va := (rx t (wRs1 w)).toNat
  let len := (rx t (wRs2 w)).toNat
  let n := min len rangeMax
  let kind : AccKind := if op = 2 then .st else .ld
  let fin := fun (left : Nat) (s : State) => onThread th (fun t => advance 4 (setX (wRd w) (BitVec.ofNat 64 left) t)) s
  if !rangeLegal t op w then illegal th w s
  else if op = 2 ∧ (va % 64 ≠ 0 ∨ len % 64 ≠ 0) then takeFault th causeStoreMis 0x10 va s
  else if n = 0 then fin 0 s
  else match coverOf s th op va n with
  | .bad => takeFault th (accCause kind) 0x10 va s
  | .mismatch => takeFault th (accCause kind) 0x41 va (segMismatch th s)
  | .nothing => fin 0 s
  | .here a => fin (len - n) (foldS (coveredLines s (clusterOf th) a n) (rangeLine op (whoTh s th)) s)

/-- WB (R53): dirty lines of the covered bytes are written back and stay valid. -/
def execWb (th : Nat) (w : W32) (s : State) : Out :=
  .next (onRegs th [wRd w, wRs1 w, wRs2 w] [] [] (doRange th 0 w) s)

/-- FLUSH (R53): dirty lines are written back, then every covered line is invalidated. -/
def execFlush (th : Nat) (w : W32) (s : State) : Out :=
  .next (onRegs th [wRd w, wRs1 w, wRs2 w] [] [] (doRange th 1 w) s)

/-- INV (R53): covered lines are invalidated, dirty data is discarded. -/
def execInv (th : Nat) (w : W32) (s : State) : Out :=
  .next (onRegs th [wRd w, wRs1 w, wRs2 w] [] [] (doRange th 2 w) s)

/-! ### Balancing and budgets (R58 to R60) -/

/-- Queue of a cluster. -/
def itemsOf (s : State) (c : Nat) : List Item := smGetD s.sea.items c []

/-- Clusters in ring order from the neighbour, the own die first. -/
def ringOrder (s : State) (c : Nat) : List Nat :=
  let h := nClusters s / 2
  let d := dieOfCluster s c
  let own := (upFrom 1 (h - 1)).map (fun i => d * h + (c - d * h + i) % max 1 h)
  let other := (upFrom 1 h).map (fun i => (1 - d) * h + (c - d * h + i) % max 1 h)
  own ++ other

/-- The longest queue of stealable items among the clusters inspected. -/
def longestQueue (s : State) : List Nat → Option (Nat × Nat)
  | [] => none
  | c :: t =>
    let n := ((itemsOf s c).filter (fun i => !i.strict)).length
    match longestQueue s t with
    | some (c', m) => if n < m ∨ n = 0 then some (c', m) else some (c, n)
    | none => if n = 0 then none else some (c, n)

/-- ITEM_STEAL (R59, R60): a cluster with an empty queue takes the last item that may move from the longest of up to four
queues. -/
def execItemSteal (c : Nat) (s : State) : Out :=
  .next (if s.sea.balance && (itemsOf s c).isEmpty && decide (c < nClusters s) then
      match longestQueue s ((ringOrder s c).take 4) with
      | some (v, _) =>
        match ((itemsOf s v).filter (fun i => !i.strict)).getLast? with
        | some i =>
          bump (ent 0xC010 5) { s with sea := { s.sea with
            items := smPut (smPut s.sea.items v ((itemsOf s v).erase i)) c [i] } }
        | none => s
      | none => s
    else s)

/-- BUDGET_SPENT (R58): a tenant's threads on a core pause until the next round boundary. -/
def execBudgetSpent (core t : Nat) (s : State) : Out :=
  .next (if dirNum s (ent (0x3500 + t) 1) ≤ smGetD s.sea.spent (core * 64 + t) 0 ∧ !s.sea.pausedOn.contains (core, t) then
      let hit := fun (p : Nat × Thread) => p.1 / 16 == core && p.2.kern && p.2.tenant == t && p.2.run == .running
      bump (ent 0xC010 6) { s with sea := { s.sea with
        pausedOn := s.sea.pausedOn ++ [(core, t)]
        threads := s.sea.threads.map (fun p => if hit p then (p.1, { p.2 with run := .paused }) else p) } }
    else s)

end Sys2Proof.Machine
end

