-- ==== Sys2Proof/Machine/Pigeon.lean ====
section
/-! DEFINITION. Pigeon: sending, delivering and reading letters (chapter 15, first half). -/
namespace Sys2Proof.Machine

/-! ### EPOST (R350 to R352) -/

/-- Letters waiting in a core's outbound queue. -/
def outq (s : State) (core : Nat) : List Letter := smGetD s.sea.outq core []

/-- A core's outbound queue replaced. -/
def setOutq (core : Nat) (l : List Letter) (s : State) : State :=
  { s with sea := { s.sea with outq := smSet [] s.sea.outq core l } }

/-- len8 of an EPOST word. -/
def epostLen (w : W32) : Nat := bits w.toNat 31 29

/-- The word is an EPOST that Table 15-4 allows, with XS nonzero. -/
def epostLegal (t : Thread) (w : W32) : Bool :=
  mXS t != 0 && wOpcode w == 0x2B && wF3 w == 5 && epostLen w != 7 && bits w.toNat 28 25 == 0 && wRd w == 0

/-- The pigeonhole address may be named by the thread (R350). -/
def epostDest (t : Thread) (d : Nat) : Bool :=
  decide (1 ≤ phClass d) && decide (phClass d ≤ 4)
    && !(t.user && (phClass d == 2 || phClass d == 3 || (phClass d == 4 && phNum d != t.tenant)))

/-- Local address of the body; none when it is misaligned or outside the local store. -/
def epostBody (s : State) (th va n : Nat) : Option Nat :=
  if n = 0 then some 0 else if va % 8 = 0 then ownStore s th va n else none

/-- The letter a thread sends, stamped by the node (R347). -/
def threadLetter (s : State) (th mark dest len : Nat) (body : Bytes) : Letter :=
  let t := thread s th
  { srcPost := recPost s, source := 8192 + th, sys := !t.user, tenant := if t.user then t.tenant else 0, len := len,
    mark := mark, dest := dest, body := slice body 0 48 }

/-- Every earlier store and AMO of a thread has been acknowledged (R351). -/
def writesAcked (t : Thread) : Bool :=
  t.remote.all (fun r => match r.kind with
    | .ack => false
    | .amo _ _ => false
    | _ => true)

/-- EPOST: the letter enters the core's outbound queue; the thread is held while that is full or a store or AMO awaits
its acknowledgement (R350, R351). -/
def execEpost (th : Nat) (w : W32) (s : State) : Out :=
  .next (onRegs th [wRs1 w, wRs2 w] [] [] (fun s =>
    let t := thread s th
    let d := bits (rx t (wRs1 w)).toNat 31 0
    let m := bits (rx t (wRs1 w)).toNat 63 32
    let n := 8 * epostLen w
    let va := (rx t (wRs2 w)).toNat
    if !epostLegal t w then illegal th w s
    else if !epostDest t d then takeFault th causeLoad 0x10 d s
    else match epostBody s th va n with
    | none => takeFault th causeLoad 0x10 va s
    | some a =>
      if !writesAcked t || decide (16 ≤ (outq s (coreOf th)).length) then s
      else
        let b := fixedRead s a n
        match (if n = 0 then (0, s) else demandRead (whoTh s th) a n s) with
        | (0, s) =>
          let l := threadLetter s th m d n b
          onThread th (advance 4) (bump (ent 0xC090 1) (setOutq (coreOf th) (outq s (coreOf th) ++ [l]) s))
        | (st, s) => takeFault th causeLoad st va s) s)

/-! ### Receiving (R353) -/

/-- ERECV: the oldest held letter is copied to the local store and removed, the count held before goes to rd. -/
def doErecv (th rd arg : Nat) (s : State) : State :=
  let t := thread s th
  let va := arg
  let fin := onThread th (fun u => advance 4 (setX rd (BitVec.ofNat 64 t.box.length) u))
  if va % 64 ≠ 0 then takeFault th causeStoreMis 0x10 va s
  else match ownStore s th va 64 with
  | none => takeFault th causeStore 0x10 va s
  | some a => match t.box with
    | [] => fin s
    | l :: rest => match storeOwn th a (letterBytes l) s with
      | (0, s) => retryKnocks (fin (onThread th (fun u => { u with box := rest }) s))
      | (st, s) => takeFault th causeStore st va s

/-- ERECV with its operand in rs1. -/
def execErecv (th rd rs1 : Nat) (s : State) : Out :=
  .next (onRegs th [rd, rs1] [] [] (fun s => doErecv th rd (rx (thread s th) rs1).toNat s) s)

/-- EWAIT: returns the count held, or holds the thread until a letter is held or the limit passes. -/
def doEwait (th rd arg : Nat) (s : State) : State :=
  let t := thread s th
  let lim := arg
  if t.box.isEmpty then onThread th (fun u => { u with run := .waitLetter s.clk.now lim rd }) s
  else onThread th (fun u => advance 4 (setX rd (BitVec.ofNat 64 t.box.length) u)) s

/-- EWAIT with its operand in rs1. -/
def execEwait (th rd rs1 : Nat) (s : State) : Out :=
  .next (onRegs th [rd, rs1] [] [] (fun s => doEwait th rd (rx (thread s th) rs1).toNat s) s)

/-- The limit of a waiting ewait has passed. -/
def ewaitDue (s : State) : Run → Option Nat
  | .waitLetter since lim rd => if lim ≠ 0 ∧ since + lim ≤ s.clk.now then some rd else none
  | _ => none

/-- EWAIT_LIMIT: the thread resumes with the count held; a gated cluster wakes for it first (Table 15-7). -/
def execEwaitLimit (th : Nat) (s : State) : Out :=
  .next (match ewaitDue s (thread s th).run with
    | none => s
    | some rd =>
      let c := clusterOf th
      match clState s c with
      | .powerGated => startWake c s
      | .gating => startWake c s
      | .waking => s
      | _ => onThread th (fun u => advance 4 { setX rd (BitVec.ofNat 64 u.box.length) u with run := .running }) (ungate c s))

/-! ### Delivery (R352, R354, R355) -/

/-- A letter on its way: to another node it leaves in the best-effort class, at home it reaches its pigeonhole. -/
def routeLetter (l : Letter) (s : State) : State :=
  if phPost l.dest = recPost s then deliverOrKeep l s else sendRemoteLetter l s

/-- PIGEONHOLE_DELIVERY: the oldest letter in transit moves on; with none, the oldest of the first core whose outbound
queue holds one. -/
def execPigeonholeDelivery (s : State) : Out :=
  .next (match s.pwr.transit with
    | l :: rest => routeLetter l { s with pwr := { s.pwr with transit := rest } }
    | [] => match s.sea.outq with
      | (c, l :: rest) :: _ => routeLetter l (setOutq c rest s)
      | _ => s)

/-- Letters in a cluster's holding slots pass to their pigeonholes in arrival order (R359); an engine's knock that finds
its pigeonhole full goes back to its engine. -/
def passHeld (c : Nat) (s : State) : State :=
  let h := smGetD s.pwr.holding c []
  let s := { s with pwr := { s.pwr with holding := smDel s.pwr.holding c } }
  foldS h deliverOrKeep s

/-- Letters dropped at full holding slots are added to their receivers' eovf (R359). -/
def addHeldOvf (c : Nat) (s : State) : State :=
  let l := smGetD s.pwr.heldOvf c []
  foldS l (fun th s => onThread th (fun t => setCsr 0x8CA (satCount 32 (rcsr t 0x8CA) 1) t) s)
    { s with pwr := { s.pwr with heldOvf := smDel s.pwr.heldOvf c } }

/-- CLUSTER_WAKE: the cluster runs; its L1 and L2 are empty, its held letters pass (R358, R359, Table 15-8). -/
def execClusterWake (c : Nat) (s : State) : Out :=
  .next (if clState s c = .waking then
      let s := bump (ent 0x4010 8) { s with pwr := { s.pwr with
        clusters := smDel s.pwr.clusters c, clLast := smPut s.pwr.clLast c s.clk.now } }
      retryKnocks (passHeld c (addHeldOvf c s))
    else s)

end Sys2Proof.Machine
end

