-- ==== Sys2Proof/Machine/Media.lean ====
section
/-! DEFINITION. Media: the commands of the media manager (chapter 10). -/
namespace Sys2Proof.Machine

/-! ### Writes -/

/-- Parcels mapped in the areas of a tenant (Table 14-7). -/
def flashUsed (s : State) (t : Nat) : Nat :=
  ((s.flash.areas.filter (fun p => p.2.tenant == t)).map (fun p => mappedIn s p.1)).foldl (fun a b => a + b) 0

/-- A new parcel of a tenant's area would exceed its flash quota (Table 14-1). -/
def overFlashQuota (s : State) (area nlp : Nat) : Bool :=
  let t := (areaOf s area).tenant
  decide (t < 64) && (buffered s nlp).isNone && decide (resolve s nlp = .unmapped)
    && decide (dirNum s (ent (0x3100 + t) 7) * 16 ≤ flashUsed s t)

/-- A parcel write that may complete now is put into the write buffer; its descriptor or path moves on. -/
def completeWrite (p : Parcel) (area parcel format : Nat) (b : Bytes) (s : State) : State :=
  match nlpOf s area parcel with
  | none => issueAll (failParcel p.pid 0x10 s)
  | some nlp =>
    if noGroupFor s nlp then issueAll (failParcel p.pid 0x51 s)
    else if overFlashQuota s area nlp then issueAll (failParcel p.pid 0x50 s)
    else
      let s := bufferWrite nlp (t3Handle format area parcel) (areaOf s area).tenant b s
      issueAll (parcelDone p b s)

/-- A parcel write completes (R235): its data is in the write buffer and its delta in the journal ring. -/
def flashWriteDone (pid : Nat) (s : State) : State :=
  match parcel? s pid with
  | some p => match p.dst with
    | .flash area parcel format =>
      if !s.flash.serving || mustWait s.par.flight p || !writeRoom s then s
      else match sourceBytes p s with
      | some (0, b, s) => completeWrite p area parcel format b s
      | some (st, _, s) => issueAll (failParcel pid st s)
      | none => s
    | _ => s
  | none => s

/-! ### Discards waiting for the journal ring (R251) -/

/-- Deltas of the oldest discard enter the ring as room allows; when all are in, the receipt follows, or the shred. -/
def feedDiscard (p : Nat × Nat) (s : State) : State :=
  let room := ringMax - min ringMax s.flash.ring.length
  if p.2 ≤ room then
    let s := onFlash (fun f => { f with discards := smDel f.discards p.1 }) s
    match req? s p.1 with
    | none => s
    | some r =>
      if r.type ≠ 0x0402 ∨ bit (fieldLE r.body 16 1) 0 then onReq p.1 (fun r => { r with stage := 3 }) s
      else finishReq p.1 0 (fieldLE r.body 8 8) (leBytes 4 0 ++ zeros 4) s
  else onFlash (fun f => { f with discards := smPut f.discards p.1 (p.2 - room) }) s

/-- Every waiting discard tried again. -/
def feedDiscards (s : State) : State := foldS s.flash.discards feedDiscard s

/-- Node logical parcel and count that a FLASH_DISCARD names. -/
def discardRange (s : State) (r : Req) : Nat × Nat :=
  (16 * (areaOf s r.obj).base + fieldLE r.body 0 8, fieldLE r.body 8 8)

/-- Superblocks that hold a copy of a range, live or stale, by channel (R252). -/
def shredBlocks (s : State) (lo n : Nat) : List (Nat × Nat) :=
  (s.flash.store.filter (fun p =>
    match nlpOf s (hArea p.2.handle) (hParcel p.2.handle) with
    | some x => !p.2.blank && decide (lo ≤ x) && decide (x < lo + n)
    | none => false)).foldl (fun l p =>
      let k := (p.1 / 2 ^ 31, p.1 % 2 ^ 31 / max 1 s.flash.perBlock)
      if l.contains k then l else l ++ [k]) []

/-- A discard of a range takes effect for a request; its deltas start on their way into the ring, and a shred starts to
relocate live neighbours (R251, R252). -/
def startDiscard (rid lo n : Nat) (shred : Bool) (s : State) : State :=
  let blocks := shredBlocks s lo n
  let s := discard lo n s
  let s := if shred then
      foldS ((blocks.map (fun p => p.2)).foldl insNat []) (copyBlock .other) s
    else s
  feedDiscard (rid, discardDeltas lo n) (onReq rid (fun r => { r with st := .executing, stage := 2 }) s)

/-- The first round boundary after admission: a FLASH_DISCARD takes effect (R251). -/
def boundaryDiscards (s : State) : State :=
  foldS (s.hxt.reqs.filter (fun r => r.type == 0x0402 && r.st == .executing && r.stage == 1)) (fun r s =>
    let q := discardRange s r
    startDiscard r.rid q.1 q.2 (bit (fieldLE r.body 16 1) 0) s) s

/-- FLASH_DISCARD (R251): admitted, it waits for the next round boundary. -/
def execFlashDiscard (rid : Nat) (s : State) : Out :=
  .next (match req? s rid with
    | some r => if r.type = 0x0402 ∧ r.st = .admitted then onReq rid (fun r => { r with st := .executing, stage := 1 }) s
      else s
    | none => s)

/-- Blocks of a shred are erased, or programmed with zeros (R252): their content is gone. -/
def cleanse (blocks : List (Nat × Nat)) (s : State) : State :=
  foldS blocks (fun p s =>
    let key := blkKey p.1 (smGetD s.flash.remap (blkKey p.1 p.2) p.2)
    onFlash (fun f => { f with wear := smPut f.wear key (smGetD f.wear key 0 + 1) }) (eraseChan p.2 p.1 s)) s

/-- Blocks of a shred still hold live parcels of other ranges. -/
def shredBusy (s : State) (blocks : List (Nat × Nat)) : Bool :=
  blocks.any (fun p => (validIn s p.2).any (fun q => q.2.1 == p.1))

/-- A shred has erased or zeroed every block it found (R252). How many blocks could not be cleansed is not for the
model to say: a free value, no more than the retired blocks. -/
def shredEnd (rid lo n count : Nat) (s : State) : State :=
  let blocks := shredBlocks s lo n
  if shredBusy s blocks then s
  else
    let d := draw s
    let u := Config.freeNat d.1 % (s.flash.retired.length + 1)
    let s := bumpBy (ent 0x6010 0x16) u (cleanse blocks d.2)
    finishReq rid (if u = 0 then 0 else 1) count (leBytes 4 (u % 2 ^ 32) ++ zeros 4) s

/-- The shred of a FLASH_DISCARD has finished (R252). -/
def shredReq (r : Req) (s : State) : State :=
  if r.type = 0x0402 ∧ r.st = .executing ∧ r.stage = 3 then
    shredEnd r.rid (discardRange s r).1 (discardRange s r).2 (fieldLE r.body 8 8) s
  else s

/-! ### NAND -/

/-- A program job has programmed (R236, R239): its content is stored; host data's entries switch at once, copies wait
for the round boundary. -/
def jobProgrammed (j : Job) (s : State) : State :=
  let s := storeMoves j.moves s
  match j.kind with
  | .host => onFlash (fun f => { f with jobs := f.jobs.filter (fun x => x.id != j.id) }) (unbuffer j.moves (mapHost j.moves s))
  | .journal =>
    feedDiscards (onFlash (fun f => { f with jobs := f.jobs.filter (fun x => x.id != j.id) }) (journalDone j.deltas s))
  | _ => onFlash (fun f => { f with jobs := updFirst (fun x => x.id == j.id) (fun x => { x with verified := true }) f.jobs }) s

/-- A move aimed at a new slot of the job's kind. -/
def retarget (k : JobKind) (ms : List Move) (s : State) : Option (Nat × List Move × State) :=
  match takeRow 4 k (ms.map (fun m => m.chan)) s with
  | none => none
  | some (sb, slot, s) => some (sb, ms.map (fun m => { m with slot := slot }), s)

/-- A program failed (R241): the block is retired; with a spare the job programs again where it was, without one it is
retargeted to another superblock. Which of its blocks failed is free. -/
def jobFailed (j : Job) (s : State) : State :=
  let d := draw s
  let cs := if j.moves.isEmpty then (upFrom 0 32).filter (chanUp s) else j.moves.map (fun m => m.chan)
  let c := cs.getD (Config.choose d.1 cs.length % max 1 cs.length) 0
  match retireBlock c j.sb d.2 with
  | (true, s) => s
  | (false, s) =>
    let s := setOpen j.kind (if openOf s j.kind = some j.sb then none else openOf s j.kind) s
    match retarget j.kind j.moves s with
    | some (sb, ms, s) =>
      onFlash (fun f => { f with jobs := updFirst (fun x => x.id == j.id) (fun x => { x with sb := sb, moves := ms }) f.jobs }) s
    | none => onFlash (fun f => { f with jobs := f.jobs.filter (fun x => x.id != j.id) }) s

/-- FLASH_PROGRAM_DONE (R236, R239, R241). -/
def execFlashProgramDone (id : Nat) (ok : Bool) (s : State) : Out :=
  .next (match s.flash.jobs.find? (fun j => j.id == id && !j.verified) with
    | some j => if ok then jobProgrammed j s else jobFailed j s
    | none => s)

/-- A superblock may be erased: closed, no valid parcel in it, no job reading from it (R240). -/
def erasable (s : State) (v : Nat) : Bool :=
  (sblk s v).st == 2 && (validIn s v).isEmpty
    && s.flash.jobs.all (fun j => j.moves.all (fun m => m.src.all (fun p => p.2 / max 1 s.flash.perBlock != v)))

/-- One channel's block of a superblock has been erased: counted, and the superblock is free once every channel in
service is done (R240, R246). -/
def eraseOk (v c : Nat) (s : State) : State :=
  let key := blkKey c (smGetD s.flash.remap (blkKey c v) v)
  let n := smGetD s.flash.wear key 0 + 1
  let s := onFlash (fun f => { f with
    wear := smPut f.wear key n
    reads := smDel f.reads (blkKey c v) }) (eraseChan v c s)
  let s := dirSet (ent (0x6020 + c) 9) (max n (dirNum s (ent (0x6020 + c) 9))) s
  let limit := smGetD s.flash.endurance c 0
  let s := if limit ≠ 0 ∧ limit ≤ n then (retireBlock c v s).2 else s
  let s := onSblk v (fun b => { b with erased := insNat b.erased c }) s
  if ((upFrom 0 32).filter (chanUp s)).all (fun c => (sblk s v).erased.contains c) ∧ (sblk s v).st = 2 then
    onSblk v (fun b => { b with st := 0, next := [], erased := [] }) s
  else s

/-- FLASH_ERASE_DONE (R240, R245). -/
def execFlashEraseDone (v c : Nat) (ok : Bool) (s : State) : Out :=
  .next (if erasable s v && decide (c < 32) && chanUp s c then
      (if ok then eraseOk v c s else (retireBlock c v s).2)
    else s)

/-- A page read decoded: counted, its request marked when it needed a retry, its bytes given to the parcel, or the
status of a metadata difference to its owner (R231, R243). -/
def readGood (p : Parcel) (area parcel format c k level : Nat) (soft margin : Bool) (s : State) : State :=
  let nlp := (nlpOf s area parcel).getD 0
  let h := t3Handle format area parcel
  let s := noteRead c k (if soft then 0 else level) soft margin s
  let s := if level ≠ 0 ∨ soft then
      addCause (ownerReq s p.owner) cERROR (noteRetry c k (if soft then 16 else level) nlp s)
    else s
  match readStored c k nlp h (whoParcel s p) s with
  | (0, b, s) => onParcel p.pid (fun p => { p with data := some b }) s
  | (st, _, s) => issueAll (failParcel p.pid st (whenS (st == 0x40) (bump (ent 0xC070 7)) s))

/-- A page read that stays uncorrectable (R220, R243). -/
def readBad (p : Parcel) (c k nlp : Nat) (s : State) : State :=
  let s := raise (flashErr s 9 1 c k 0 nlp 0x40 (whoParcel s p)) s
  issueAll (failParcel p.pid 0x40 (bump (ent 0xC070 7) s))

/-- A read whose metadata names another parcel (R231): MEDIA_ERROR, CONTAINED; the entry stays. -/
def readMisdirected (p : Parcel) (c k nlp : Nat) (s : State) : State :=
  let s := raise (flashErr s 0x0A 1 c k 0 nlp 0x40 (whoParcel s p)) s
  issueAll (failParcel p.pid 0x40 (bump (ent 0xC070 7) s))

/-- A parcel on a channel that is out (R247): its entry is set lost and the read ends with MEDIA_ERROR. -/
def readOut (p : Parcel) (nlp : Nat) (s : State) : State :=
  issueAll (failParcel p.pid 0x40 (bump (ent 0xC070 7) (setLost nlp s)))

/-- A NAND page read completes (R243). -/
def flashReadDone (pid : Nat) (r : ReadOutcome) (s : State) : State :=
  match parcel? s pid with
  | some p => match p.src with
    | .flash area parcel format =>
      if !s.flash.serving || mustWait s.par.flight p || p.data.isSome then s
      else match nlpOf s area parcel with
      | none => s
      | some nlp => match flashRead s nlp (t3Handle format area parcel) with
        | .now _ _ => s
        | .nand c k =>
          if !chanUp s c then readOut p nlp s
          else match r with
          | .good level margin => if level < 16 then readGood p area parcel format c k level false margin s else s
          | .soft => readGood p area parcel format c k 0 true true s
          | .bad => readBad p c k nlp s
          | .misdirected => readMisdirected p c k nlp s
    | _ => s
  | none => s

/-! ### Schedules of the media manager -/

/-- A checkpoint's record is programmed (R248). -/
def execCheckpointDone (s : State) : Out :=
  .next (match s.flash.ckpt with
    | some n => onFlash (fun f => { f with since := f.since - n, ckpt := none }) s
    | none => s)

/-- SCRUB (R244): every `scrub_ticks` one page of each closed superblock is read. -/
def execScrub (s : State) : Out :=
  .next (if s.flash.scrubTick + dirNum s (ent 0x6010 0xF) ≤ s.clk.tick then
      foldS (closedBlocks s true ++ closedBlocks s false)
        (fun v s => noteRead 0 (v * s.flash.perBlock) 0 false false s)
        (onFlash (fun f => { f with scrubTick := s.clk.tick }) s)
    else s)

/-- HEAT_HALVING (R237). -/
def execHeatHalving (s : State) : Out :=
  .next (if s.flash.heatTick + dirNum s (ent 0x6010 7) ≤ s.clk.tick then
      onFlash (fun f => { f with
        heat := (f.heat.map (fun p => (p.1, p.2 / 2))).filter (fun p => p.2 != 0)
        heatTick := s.clk.tick }) s
    else s)

/-! ### Discovery and recovery (R226, R250) -/

/-- What discovery found of one channel is reported; a channel that failed, or whose geometry differs from channel 0's,
is out of service, which is DEGRADED (R226, R247). -/
def reportChan (good : Bool) (p : Nat × ChanFound) (s : State) : State :=
  let o := 0x6020 + p.1
  let s := dirSet (ent o 2) p.2.interface s
  let s := dirSet (ent o 3) (min p.2.rate (inForce s (ent o 4))) s
  let s := dirSet (ent o 5) (fld (p.2.unused % 256) 8 + p.2.luns % 256) s
  let s := onFlash (fun f => { f with endurance := smSet 0 f.endurance p.1 p.2.endurance }) s
  if good then dirSet (ent o 1) 1 s
  else raise ⟨0x13, 2, 0x3000 + p.1, 0, 0, 0, 0, 0, none⟩ (dirSet (ent o 1) 2 s)

/-- Channels that discovery puts into service: trained, with channel 0's geometry. -/
def goodChan (l : List ChanFound) (c : ChanFound) : Bool :=
  c.ok && (match l.head? with
    | some z => c.perBlock == z.perBlock
    | none => false)

/-- V (R228): the fewest good blocks of a channel in service, less 2 % of it rounded down. -/
def superCount (l : List ChanFound) : Nat :=
  match (l.filter (goodChan l)).map (fun c => c.blocks) with
  | [] => 0
  | a :: t => t.foldl min a - t.foldl min a * 2 / 100

/-- FLASH_DISCOVERY_DONE (R226, R228, R238). -/
def execFlashDiscoveryDone (chans : List ChanFound) (s : State) : Out :=
  .next (if s.flash.found || decide (s.phase = .coldReset) then s
    else
      let l := chans.take 32
      let v := superCount l
      let s := foldS (numbered l) (fun p s =>
        reportChan (goodChan l p.2) p (dirSet (ent (0x6020 + p.1) 7) (p.2.blocks - v) s)) s
      let good := l.filter (goodChan l)
      let sum := fun (f : ChanFound → Nat) (m : List ChanFound) => (m.map f).foldl (fun a b => a + b) 0
      let s := dirSet (ent 0x1002 6) (sum (fun c => c.luns) good) s
      let s := dirSet (ent 0x1002 7) (sum (fun c => c.blocks * c.perBlock) good * 4096 / 2 ^ 30) s
      showReserve (onFlash (fun f => { f with
        found := true
        perBlock := (l.head?.map (fun c => c.perBlock)).getD 0
        physBlocks := sum (fun c => c.blocks) l
        slcBlocks := v * inForce s (ent 0x6010 1) / 100 }) (dirSet (ent 0x6010 0xE) v s)))

/-- The map as recovery rebuilds it (R250): after a complete flush every entry, else the durable one with the writes
whose data was not programmed set lost. -/
def recoverMap (s : State) : State :=
  let s1 := onFlash (fun f => { f with map := f.durable, buffer := [], jobs := [], ring := [], reload := [] }) s
  if s.flash.flushRec then s1
  else
    let s1 := foldS s.flash.durWrites setLost s1
    raise ⟨0x14, 1, 0x6003, 0, 0, 0, 0, 0, none⟩ (dirSet (ent 0x6010 0xC) 1 s1)

/-- RECOVERY_DONE (R250): flash-backed objects serve. The flush record is spent. -/
def execRecoveryDone (s : State) : Out :=
  .next (if s.flash.found && !s.flash.serving then
      let s := recoverMap s
      onFlash (fun f => { f with serving := true, flushRec := false, durable := f.map, durWrites := [] }) (loadAreas s)
    else s)

end Sys2Proof.Machine
end

