-- ==== Sys2Proof/Machine/SchedOps.lean ====
section
/-! DEFINITION. SchedOps: the timetable as the node uses it, scheduled messages and the merge trees (R268 to R273, R100,
R101, R261 to R263, R290). What a scheduled message carries beyond the header fields the spec lays down is the model's
own layout (log 40). -/
namespace Sys2Proof.Machine

/-! ### The image in force (Tables 11-6, 11-8, 11-9, R273) -/

/-- Record of a stream in the stream table. -/
def streamRec (s : State) (k : Nat) : Nat := fieldLE s.fab.image (imgWord s.fab.image 6 + 4 * k) 4
/-- Function of a stream. -/
def streamFn (s : State) (k : Nat) : Nat := bits (streamRec s k) 3 0
/-- Tree root of a stream. -/
def streamRoot (s : State) (k : Nat) : Nat := bits (streamRec s k) 15 4

/-- An entry agrees with its stored complement (R11, R269). -/
def ttGood (e : Nat × Nat) : Bool := e.2 == compl 64 e.1
/-- Incoming link of an entry; 0x3E the own engines. -/
def ttIn (e : Nat) : Nat := bits e 63 58
/-- Outgoing link of an entry; 0x3E the own engines. -/
def ttOut (e : Nat) : Nat := bits e 57 52
/-- Copy bit of an entry. -/
def ttCopy (e : Nat) : Bool := bit e 51
/-- Kind of an entry: 0 DATA, 1 POOL, 2 DETOUR. -/
def ttKind (e : Nat) : Nat := bits e 50 48
/-- Stream of an entry. -/
def ttStream (e : Nat) : Nat := bits e 47 36
/-- Frame of an entry within the round. -/
def ttFrame (e : Nat) : Nat := bits e 35 32
/-- Flits of an entry. -/
def ttFlits (e : Nat) : Nat := bits e 30 24
/-- First slot of an entry. -/
def ttSlot (e : Nat) : Nat := bits e 23 13
/-- Link that a DETOUR entry replaces. -/
def ttDetour (e : Nat) : Nat := bits e 12 7

/-- Streams of a function that this node originates, in entry order. -/
def ownStreams (s : State) (fn : Nat) : List Nat :=
  (s.fab.entries.filter (fun e => ttIn e.1 == 0x3E && ttKind e.1 == 0 && streamFn s (ttStream e.1) == fn)).foldl
    (fun l e => if l.contains (ttStream e.1) then l else l ++ [ttStream e.1]) []

/-- A merge record. -/
structure MergeRec where
  tree : Nat
  out : Nat
  kids : List Nat
  parent : Nat
deriving DecidableEq, Repr

/-- A merge record read from its 32 bytes (R273). -/
def mergeRec (b : Bytes) : MergeRec :=
  let w0 := fieldLE b 0 8
  ⟨bits w0 11 0, bits w0 23 12,
    (upFrom 0 (bits w0 27 24)).map (fun i => if i < 5 then bits (fieldLE b 8 8) (12 * i + 11) (12 * i) else bits (fieldLE b 16 8) 11 0),
    bits w0 39 28⟩

/-- The merge record that serves trees to a root (log 41). -/
def recFor (s : State) (root : Nat) : Option MergeRec :=
  (s.fab.merges.map mergeRec).find? (fun r => streamRoot s r.tree == root)

/-- Stream on which this node sends towards a root: its record's out stream, else one it originates in that tree. -/
def outFor (s : State) (root : Nat) : Option Nat :=
  match recFor s root with
  | some r => some r.out
  | none => (ownStreams s 2).find? (fun k => streamRoot s k == root)

/-! ### Sending -/

/-- A scheduled message put where an origin entry of its stream will take it. -/
def schedPut (stream dest tenant tag address : Nat) (inl data : Bytes) (after rid : Nat) (s : State) : State :=
  { s with fab := { s.fab with outs := s.fab.outs ++ [⟨stream, dest, tenant, tag, address, inl, data, 0, after, rid⟩] } }

/-- As `schedPut`, on a stream of a function that this node originates; which of several is left free (log 41). None when
the timetable gives it none. -/
def schedSend (fn dest tenant tag address : Nat) (inl data : Bytes) (rid : Nat) (s : State) : Option State :=
  match ownStreams s fn with
  | [] => none
  | l =>
    let d := draw s
    some (schedPut (l.getD (Config.choose d.1 l.length % l.length) 0) dest tenant tag address inl data 0 rid d.2)

/-- Flits of a body. -/
def flitsOf (b : Bytes) : Nat := ceilDiv b.length 64

/-- Inline bytes of one piece of a message: 24 of the function, the piece's first flit and the message's body flits, the
strict point. -/
def pieceInl (o : FOut) : Bytes := slice o.inl 0 24 ++ leBytes 2 o.off ++ leBytes 2 (flitsOf o.data) ++ slice o.inl 24 4

/-- The next piece of a message in a slot of `f` flits, and what is left of it; none when the slot cannot carry any. -/
def nextPiece (f : Nat) (o : FOut) : Option (Bytes × Option FOut) :=
  let n := flitsOf o.data
  let k := min (f - 1) (n - o.off)
  if f = 0 ∨ (k = 0 ∧ 0 < n) then none
  else some (slice o.data (64 * o.off) (64 * k), if o.off + k < n then some { o with off := o.off + k } else none)

/-- A scheduled message's header: the sequence is the frame count of origin (Table 11-4). -/
def schedHdr (s : State) (o : FOut) (flits : Nat) : Hdr :=
  ownHdr s 1 flits o.dest o.tenant o.stream o.tag (frameNo s % 2 ^ 32) o.address

/-- An IDLE header sent at an origin entry whose stream has nothing to send (R270). -/
def sendIdle (link slot : Nat) (detour : Bool) (stream : Nat) (s : State) : State := fabSend link slot detour (ownHdr s 0 0 0 0 stream 0 0 0) [] [] s

/-! ### Messages of a merge tree -/

/-- What a TREE message carries: candidates of a search (stage 0), re-ranked finalists (1), attend partials (2). -/
structure TMsg where
  stage : Nat
  flags : Nat
  cause : Nat
  fp : Bool
  ties : Bool
  k : Nat
  /-- Grades of the nodes that worked, one bit each (R4). -/
  grades : Nat
  dropped : Nat
  ents : List Ent
  /-- Shards, owners or members that answered. -/
  covered : List Nat
  /-- Shards, owners or members that failed, with their status. -/
  failed : List (Nat × Nat)
  /-- Attend partials. -/
  blob : Bytes
deriving DecidableEq, Repr

/-- Inline bytes of a tree message. -/
def TMsg.inl (m : TMsg) : Bytes :=
  leBytes 1 m.stage ++ leBytes 1 m.flags ++ leBytes 2 m.ents.length ++ leBytes 2 m.covered.length
    ++ leBytes 2 m.failed.length ++ leBytes 2 m.dropped ++ leBytes 1 m.cause ++ leBytes 1 (b01 m.fp + 2 * b01 m.ties)
    ++ leBytes 2 m.k ++ leBytes 1 m.grades ++ zeros 1 ++ leBytes 4 m.blob.length ++ zeros 4

/-- Body of a tree message: entries of Table 4-1 first, four to a flit (R101). -/
def TMsg.data (m : TMsg) : Bytes :=
  m.ents.flatMap entBytes ++ m.covered.flatMap (leBytes 2) ++ m.failed.flatMap (fun p => leBytes 2 p.1 ++ leBytes 2 p.2)
    ++ m.blob

/-- A tree message read back. -/
def tmsgOf (i d : Bytes) : TMsg :=
  let ne := fieldLE i 2 2
  let nc := fieldLE i 4 2
  let nf := fieldLE i 6 2
  let o := 16 * ne
  let q := o + 2 * nc
  { stage := fieldLE i 0 1, flags := fieldLE i 1 1, cause := fieldLE i 10 1, fp := bit (fieldLE i 11 1) 0,
    ties := bit (fieldLE i 11 1) 1, k := fieldLE i 12 2, grades := fieldLE i 14 1, dropped := fieldLE i 8 2,
    ents := (upFrom 0 ne).map (fun j => entOf (slice d (16 * j) 16)),
    covered := (upFrom 0 nc).map (fun j => fieldLE d (o + 2 * j) 2),
    failed := (upFrom 0 nf).map (fun j => (fieldLE d (q + 4 * j) 2, fieldLE d (q + 4 * j + 2) 2)),
    blob := slice d (q + 4 * nf) (fieldLE i 16 4) }

/-- TIES_TRUNCATED and NAN of Table 13-9. -/
def fTies : Nat := 1
/-- NAN. -/
def fNan : Nat := 2

/-- Two inputs merged (R100): the lists under the tree's k, type and ties, everything else gathered. -/
def tmerge (a b : TMsg) : TMsg :=
  let r := mergeLists a.fp a.ties a.k a.ents b.ents
  { a with
    flags := a.flags ||| b.flags ||| (if r.2.1 then fTies else 0) ||| (if r.2.2 then fNan else 0)
    cause := a.cause ||| b.cause
    grades := a.grades ||| b.grades
    dropped := a.dropped + b.dropped
    ents := r.1
    covered := a.covered ++ b.covered
    failed := a.failed ++ b.failed
    blob := a.blob ++ b.blob }

/-- One pass of pairwise merges; an odd last input passes on. -/
def tpass : List TMsg → List TMsg
  | a :: b :: t => tmerge a b :: tpass t
  | l => l

/-- Passes repeated until one input remains (R100). -/
def tmergeAll : Nat → List TMsg → Option TMsg
  | _, [] => none
  | _, [m] => some m
  | 0, m :: _ => some m
  | fuel + 1, l => tmergeAll fuel (tpass l)

/-! ### Inputs of a merge here -/

/-- The node's input for a tree, kept until an origin entry of its out stream comes (input 0 the own list, others by
record order). Own messages of one tag and stage are merged as they come. -/
def treeInput (root tag stage i : Nat) (m : TMsg) (s : State) : State :=
  match outFor s root with
  | none => s
  | some k =>
    let same := fun (t : TreeNode) => t.stream == k && t.tag == tag && t.root == root && t.stage == stage
    let put := fun (t : TreeNode) =>
      let b := match smGet? t.inputs i with
        | some old => tmerge (tmsgOf (slice old 0 24) (old.drop 24)) m
        | none => m
      { t with inputs := smPut t.inputs i (b.inl ++ b.data) }
    let l := if s.fab.trees.any same then updFirst same put s.fab.trees
      else s.fab.trees ++ [put ⟨k, tag, root, stage, []⟩]
    { s with fab := { s.fab with trees := l } }

/-- What a merge sends on: its inputs in record order, merged by pairwise passes. -/
def treeMerge (t : TreeNode) : Option TMsg :=
  tmergeAll 8 (t.inputs.map (fun p => tmsgOf (slice p.2 0 24) (p.2.drop 24)))

/-- Postcode that receives what this node sends towards a root. -/
def treeParent (s : State) (root : Nat) : Nat := (recFor s root).elim root (fun r => if r.parent = 0xFFF then root else r.parent)

/-- The oldest merge of a stream turned into a message. -/
def treeToOut (k : Nat) (s : State) : State :=
  match s.fab.trees.find? (fun t => t.stream == k) with
  | none => s
  | some t =>
    let s := { s with fab := { s.fab with trees := s.fab.trees.erase t } }
    match treeMerge t with
    | none => s
    | some m => schedPut k (treeParent s t.root) 0 t.tag (fld t.root 32) m.inl m.data 0 0 s

/-- A message waiting for a stream may go: its hold is over and the request it serves has not ended. -/
def outReady (s : State) (k : Nat) (o : FOut) : Bool :=
  o.stream == k && decide (o.after ≤ s.clk.now) && (o.rid == 0 || (req? s o.rid).isSome)

/-- Messages of ended requests are dropped. -/
def pruneOuts (s : State) : State :=
  { s with fab := { s.fab with outs := s.fab.outs.filter (fun o => o.rid == 0 || (req? s o.rid).isSome) } }

/-- The message that an origin entry would have sent is lost: the request that owns it ends with LINK_ERROR (R267, R274). -/
def originLost (k : Nat) (s : State) : State :=
  let s := pruneOuts s
  let s := if s.fab.outs.any (outReady s k) then s else treeToOut k s
  match s.fab.outs.find? (outReady s k) with
  | none => s
  | some o => failReq o.rid 0x42 { s with fab := { s.fab with outs := s.fab.outs.erase o } }

/-- One message of a stream sent on a link, in a slot of `f` flits (R270). -/
def originSend (link slot : Nat) (detour : Bool) (k f : Nat) (s : State) : State :=
  let s := pruneOuts s
  let s := if s.fab.outs.any (outReady s k) then s else treeToOut k s
  match s.fab.outs.find? (outReady s k) with
  | none => sendIdle link slot detour k s
  | some o => match nextPiece f o with
    | none => sendIdle link slot detour k s
    | some (b, rest) =>
      let s := fabSend link slot detour (schedHdr s o (flitsOf b)) (pieceInl o) b s
      let l := match rest with
        | some o' => updFirst (fun x => x == o) (fun _ => o') s.fab.outs
        | none => s.fab.outs.erase o
      { s with fab := { s.fab with outs := l } }

/-! ### Receiving -/

/-- ERROR when a replay or a detour carried a message (Table 12-2). -/
def carryCause (m : FabMsg) : Nat := if m.replayed || m.detour then cERROR else 0

/-- A piece of a scheduled message taken in: the whole message's inline bytes, body and cause, once every flit is here. -/
def takePiece (m : FabMsg) (s : State) : Option (Bytes × Bytes × Nat) × State :=
  let h := msgHdr m
  let off := fieldLE m.inl 24 2
  let total := fieldLE m.inl 26 2
  let inl := slice m.inl 0 24 ++ slice m.inl 28 4
  if total ≤ flitsOf m.data && off == 0 then (some (inl, m.data, carryCause m), s)
  else
    let same := fun (a : FAsm) => a.src == h.source && a.tag == h.tag && a.what == h.address
    let put := fun (a : FAsm) => { a with chunks := smPut a.chunks off m.data, cause := a.cause ||| carryCause m }
    let a := put ((s.fab.asm.find? same).getD ⟨h.source, h.tag, h.address, [], 0⟩)
    let rest := s.fab.asm.filter (fun x => !same x)
    let got := (a.chunks.map (fun p => flitsOf p.2)).foldl (fun x y => x + y) 0
    if total ≤ got then
      (some (inl, a.chunks.flatMap (fun p => p.2), a.cause), { s with fab := { s.fab with asm := rest } })
    else (none, { s with fab := { s.fab with asm := rest ++ [a] } })

/-- The latest frame whose low 16 bits are `f`. -/
def frameAbs (s : State) (f : Nat) : Nat := frameNo s - (frameNo s + 65536 - f % 65536) % 65536

/-- Cycle of a strict point carried by a message: frame of admission and cycles from it. -/
def pointAt (s : State) (f p : Nat) : Nat := (s.clk.post + ((frameAbs s f * frameCycles + p : Nat) : Int)).toNat

/-- Low bits of the frame in which a request was admitted. -/
def frame16 (s : State) (at_ : Nat) : Nat := ((at_ : Int) - s.clk.post).toNat / frameCycles % 65536

/-- This node's grade as one bit. -/
def gradeBit (s : State) : Nat := 2 ^ (dirNum s (ent 0x1001 1) % 8)

end Sys2Proof.Machine
end

