-- ==== Sys2Proof/Machine/TrafOps.lean ====
section
/-! DEFINITION. TrafOps: shapers, gates, transmission times, sampling, sub-port links and the effects of traffic entries
(R297, R326, R333 to R341, R459). -/
namespace Sys2Proof.Machine

/-! ### Arrangements and transmission times (Table 13-1, R338) -/

/-- Arrangement in force on the port of a sub-port. -/
def arrOf (s : State) (p : Nat) : Nat := if p < 4 then s.pins.arr0 else s.pins.arr1

/-- Sub-ports of an arrangement, by first lane (Table 13-1). -/
def arrLanes (a : Nat) : List Nat := if a = 2 ∨ a = 4 then [0, 2] else if a = 5 then [0, 1, 2, 3] else [0]

/-- MAC rate of an arrangement in Gb/s (Table 13-1). -/
def arrRate (a : Nat) : Nat := if a = 0 then 400 else if a = 1 ∨ a = 2 then 200 else 100

/-- The sub-port exists in the arrangement of its port. -/
def portPresent (s : State) (p : Nat) : Bool := (arrLanes (arrOf s p)).contains (p % 4)

/-- Bytes MACsec adds: a SecTAG with its SCI, 16 bytes, and an ICV of 16 bytes (log 30). -/
def macsecBytes : Nat := 32

/-- Ethernet frame bytes of an IP packet of `n` bytes on a sub-port, VLAN tag and MACsec included. -/
def frameBytes (s : State) (p n : Nat) : Nat :=
  n + 18 + (if dirNum s (ent (0xB100 + p) 6) = 0xFFFF then 0 else 4) + (if dirNum s (ent (0xB100 + p) 7) = 0 then 0 else macsecBytes)

/-- Cycles that a frame of `n` bytes takes at `g` Gb/s with 20 bytes of preamble and gap: n × 8 bits at g / 1.6 bits a
cycle, rounded up (R338). -/
def wireCycles (n g : Nat) : Nat := ceilDiv ((n + 20) * 8 * 16) (g * 10)

/-- IP bytes of a packet: UDP payload, UDP header and IP header; a control answer carries its own. -/
def ipBytes (k : OutPkt) : Nat := if k.kind = 0 then k.bytes.length else k.bytes.length + 8 + (if k.addr.v6 then 40 else 20)

/-- Transmission time of a packet on its sub-port. -/
def txCycles (s : State) (k : OutPkt) : Nat := wireCycles (frameBytes s k.port (ipBytes k)) (arrRate (arrOf s k.port))

/-! ### Shapers (R334, R335) -/

/-- Key of an outbox's credit. -/
def creditKey (t q p : Nat) : Nat := (16 * t + q) * 8 + p

/-- Credit ceiling of a queue. -/
def creditHi (s : State) (t q : Nat) : Nat := dirNum s (qObj t q 7)

/-- A credit as the reset fill sets it (R335). -/
def freshCredit (s : State) (t q : Nat) (at_ : Nat) : Credit :=
  ⟨if dirNum s (qObj t q 9) = 0 then 0 else (creditHi s t q : Int), at_, 0⟩

/-- Oldest packet waiting in an outbox. -/
def outHead (s : State) (p t q : Nat) : Option OutPkt :=
  s.hxt.out.find? (fun k => !k.ctl && k.port == p && k.tenant == t && k.queue == q)

/-- Credit at the present cycle (R334): it rises while nothing of the outbox is being sent and a packet waits or the
credit is negative; an outbox that emptied with a positive credit lost it. -/
def creditNow (s : State) (t q p : Nat) : Credit :=
  let c := smGetD s.trf.credits (creditKey t q p) (freshCredit s t q 0)
  let rate : Int := (dirNum s (qObj t q 6) : Int)
  let now := s.clk.now
  if now < c.busy then c
  else
    let start := max c.at_ c.busy
    let head := (outHead s p t q).map (fun k => k.at_)
    let emptied := c.at_ < c.busy && head.all (fun h => decide (c.busy < h))
    let lvl := if emptied && decide (0 < c.level) then 0 else c.level
    let n := now - start
    let neg := if lvl < 0 then min n (((-lvl) + rate - 1) / rate).toNat else 0
    let l1 := lvl + rate * neg
    let rest := match head with
      | some h => now - max (start + neg) h
      | none => 0
    ⟨min (creditHi s t q : Int) (l1 + rate * rest), now, 0⟩

/-- Every credit of a queue set by its reset fill (R335). -/
def refillShaper (t q : Nat) (s : State) : State :=
  let put := fun (m : SMap Credit) (p : Nat) => smPut m (creditKey t q p) (freshCredit s t q s.clk.now)
  { s with trf := { s.trf with credits := (upFrom 0 8).foldl put s.trf.credits } }

/-- Both buckets of a tenant set by their reset fill (R335). -/
def refillPolicer (t : Nat) (s : State) : State :=
  { s with trf := { s.trf with buckets := smPut s.trf.buckets t (freshBucket s t) } }

/-- Every shaper and the policer of a tenant refilled (R335, R342). -/
def refillTenant (t : Nat) (s : State) : State := foldS (upFrom 0 16) (refillShaper t) (refillPolicer t s)

/-! ### Gates (R336 to R338) -/

/-- Entries of a gate list: gates and duration. -/
def gateEntries (b : Bytes) : List (Nat × Nat) :=
  (upFrom 0 (fieldLE b 0 2)).map (fun i => (fieldLE b (8 + 8 * i) 1, fieldLE b (12 + 8 * i) 4))

/-- Cycle of a gate list in timetable cycles. -/
def gateCycle (b : Bytes) : Nat := fieldLE b 2 2 * frameCycles

/-- Cycles for which class `c` stays open from position `x` of a list of entries: none when it is closed there. -/
def openFrom (c : Nat) : List (Nat × Nat) → Nat → Nat
  | [], _ => 0
  | (g, d) :: t, x => if d ≤ x then openFrom c t (x - d) else if g.testBit c then d - x + openFrom c t 0 else 0

/-- Cycles until class `c` closes on a sub-port, none while it never closes; some 0 when it is closed now. -/
def gateLeft (s : State) (p c : Nat) : Option Nat :=
  let l := dirBytes s (ent (0x3300 + p) 3)
  if !s.clk.counting ∨ l.length < 16 ∨ gateCycle l = 0 then none
  else
    let es := gateEntries l
    let cyc := gateCycle l
    let x := (sincePost s - dirNum s (ent (0x3300 + p) 4) * frameCycles) % cyc
    let n := openFrom c (es ++ es ++ es) x
    if 2 * cyc ≤ n then none else some n

/-- A packet of class `c` with a transmission time fits now (R338). -/
def gateFits (s : State) (p c tx : Nat) : Bool :=
  (gateLeft s p c).all (fun n => decide (0 < n) && decide (tx ≤ n))
    && (smGet? s.trf.commit p).all (fun f => decide (sincePost s + tx ≤ f * frameCycles))

/-- Longest window of a class in a list, over its wrap (R336). -/
def longestWindow (es : List (Nat × Nat)) (c : Nat) : Nat :=
  ((upFrom 0 es.length).map (fun i => openFrom c (es.drop i ++ es) 0)).foldl max 0

/-- A gate list passes R336 with a sub-port's largest packet time. -/
def gateListGood (b : Bytes) (tx : Nat) : Bool :=
  let n := fieldLE b 0 2
  let es := gateEntries b
  inR n 1 64 && inR (fieldLE b 2 2) 1 256 && fieldLE b 4 4 == 0 && b.length == 8 + 8 * n
    && (upFrom 0 n).all (fun i => fieldLE b (9 + 8 * i) 3 == 0)
    && (es.map (fun e => e.2)).foldl (fun a x => a + x) 0 == gateCycle b
    && (upFrom 0 8).all (fun c => decide (tx ≤ longestWindow es c) && decide (0 < longestWindow es c))

/-- Transmission time of a packet of the sub-port's MTU with given settings (R336). -/
def mtuCycles (s : State) (p mtu vlan macsec : Nat) : Nat :=
  wireCycles (mtu + 18 + (if vlan = 0xFFFF then 0 else 4) + (if macsec = 0 then 0 else macsecBytes)) (arrRate (arrOf s p))

/-- The pending gate list becomes operational at its frame (R337), and tenants are told (R340). -/
def switchGates (p : Nat) (s : State) : State :=
  match smGet? s.trf.commit p with
  | some f =>
    if f ≤ frameNo s then
      let s := { s with trf := { s.trf with commit := smDel s.trf.commit p } }
      let s := dirSet (ent (0x3300 + p) 4) f (dirPut (ent (0x3300 + p) 3) (dirVal s (ent (0x3300 + p) 1)) s)
      foldS (upFrom 0 64) (fun t => trafficNote t 0x15 p [] (fun _ => leBytes 1 p ++ zeros 7 ++ leBytes 8 f)) s
    else s
  | none => s

/-! ### Selection (R338) -/

/-- Class of a queue. -/
def classOf (s : State) (t q : Nat) : Nat := dirNum s (qObj t q 4)

/-- Outboxes of a sub-port that hold a packet, as 16t + q, rising. -/
def busyOutboxes (s : State) (p : Nat) : List Nat :=
  (s.hxt.out.filter (fun k => !k.ctl && k.port == p)).foldl (fun l k => insNat l (16 * k.tenant + k.queue)) []

/-- Head packet of an outbox may start: its shaper's credit is zero or positive (R334). -/
def shaperOpen (s : State) (p tq : Nat) : Bool :=
  let t := tq / 16
  let q := tq % 16
  !dirFlag s (qObj t q 5) || (decide (0 ≤ (creditNow s t q p).level) && decide ((creditNow s t q p).busy ≤ s.clk.now))

/-- Outboxes of class `c` on a sub-port, in rotation after the one served last. -/
def rotateBoxes (s : State) (p c : Nat) : List Nat :=
  let l := (busyOutboxes s p).filter (fun x => classOf s (x / 16) (x % 16) == c)
  let last := smGetD s.trf.lastOut (p * 8 + c) 0
  l.filter (fun x => decide (last ≤ x)) ++ l.filter (fun x => decide (x < last))

/-- Head packet of an outbox given as 16t + q. -/
def headOf (s : State) (p tq : Nat) : Option OutPkt := outHead s p (tq / 16) (tq % 16)

/-- The head of an outbox fits its gate. -/
def headFits (s : State) (p c tq : Nat) : Bool := (headOf s p tq).any (fun k => gateFits s p c (txCycles s k))

/-- The outbox that sends next in the highest class that can, with its class. -/
def selectBox (s : State) (p : Nat) : Option (Nat × Nat) :=
  (upFrom 0 8).findSome? (fun i =>
    let c := 7 - i
    ((rotateBoxes s p c).find? (fun x => shaperOpen s p x && headFits s p c x)).map (fun x => (c, x)))

/-- A packet handed to the MAC. -/
def sendPkt (p : Nat) (k : OutPkt) (s : State) : State :=
  { s with
    hxt := { s.hxt with out := s.hxt.out.erase k, sent := s.hxt.sent ++ [k] }
    trf := { s.trf with busy := smPut s.trf.busy p (s.clk.now + txCycles s k) } }

/-- Head packets that are eligible and do not fit are counted once as having waited (R338). -/
def markWaits (p : Nat) (s : State) : State :=
  let late := (busyOutboxes s p).filter (fun x => shaperOpen s p x && !headFits s p (classOf s (x / 16) (x % 16)) x)
  foldS late (fun x s =>
    match headOf s p x with
    | some k =>
      if k.waited then s
      else bump (ent (0x3300 + p) 5) { s with hxt := { s.hxt with
        out := updFirst (fun j => j == k) (fun j => { j with waited := true }) s.hxt.out } }
    | none => s) s

/-- The sub-port, free, starts its next packet (R338). -/
def selectNext (p : Nat) (s : State) : State :=
  match s.hxt.out.find? (fun k => k.ctl && k.port == p) with
  | some k => sendPkt p k s
  | none =>
    let s := markWaits p s
    match selectBox s p with
    | none => s
    | some (c, x) =>
      match headOf s p x with
      | none => s
      | some k =>
        let t := x / 16
        let q := x % 16
        let cr := creditNow s t q p
        let s1 := { s with trf := { s.trf with lastOut := smPut s.trf.lastOut (p * 8 + c) (x + 1) } }
        let s2 := if dirFlag s (qObj t q 5) then
            { s1 with trf := { s1.trf with
              credits := smPut s1.trf.credits (creditKey t q p) ⟨cr.level - 65536, s.clk.now, s.clk.now + txCycles s k⟩ } }
          else s1
        sendPkt p k s2

/-! ### Sampling (R339) -/

/-- Bin of a depth. -/
def depthBin (d : Nat) : Nat := if d = 0 then 0 else min 15 (Nat.log2 d + 1)
/-- Bin of a delay in cycles, none for an empty queue. -/
def delayBin (d : Option Nat) : Nat :=
  match d with
  | none => 0
  | some n => if n < 64 then 1 else min 15 (Nat.log2 n - 4)

/-- One count added to a bin of a histogram entry; a bin stops at all ones. -/
def histAdd (obj bin : Nat) (s : State) : State :=
  let b := slice (dirBytes s obj) 0 64
  let v := min 0xFFFFFFFF (fieldLE b (4 * bin) 4 + 1)
  dirPut obj (.blob (patch b (4 * bin) (leBytes 4 v))) s

/-- Smallest of a list. -/
def minOf : List Nat → Option Nat
  | [] => none
  | a :: t => match minOf t with
    | none => some a
    | some b => some (min a b)

/-- Age of an inbox's oldest packet. -/
def inboxAge (s : State) (t q : Nat) : Option Nat :=
  (minOf ((s.hxt.asm.filter (fun a => !a.mgmt && a.tenant == t && a.queue == q && decide (0 < asmPkts a))).map (fun a => a.at_))).map
    (fun a => s.clk.now - a)

/-- Packets of a queue's outboxes. -/
def outPkts (s : State) (t q : Nat) : List OutPkt := s.hxt.out.filter (fun k => !k.ctl && k.tenant == t && k.queue == q)

/-- The four values of one queue sampled. -/
def sampleQueue (t q : Nat) (s : State) : State :=
  let o := outPkts s t q
  let age := (minOf (o.map (fun k => k.at_))).map (fun a => s.clk.now - a)
  let s1 := histAdd (qObj t q 0xC) (depthBin (inboxPkts s t q)) s
  let s2 := histAdd (qObj t q 0xD) (delayBin (inboxAge s t q)) s1
  histAdd (qObj t q 0xF) (delayBin age) (histAdd (qObj t q 0xE) (depthBin o.length) s2)

/-- All four histograms of a queue cleared (R339). -/
def clearHist (t q : Nat) (s : State) : State := foldS [0xC, 0xD, 0xE, 0xF] (fun i => dirPut (qObj t q i) (catDefault (qObj t q i))) s

/-! ### Threshold NOTEs of the inboxes (R340) -/

/-- Queues, as 16t + q, that hold a segment or whose depth or delay has been notified. -/
def noticeQueues (s : State) : List Nat :=
  let held := (s.hxt.asm.filter (fun a => !a.mgmt)).map (fun a => 16 * a.tenant + a.queue)
  let told := s.trf.fired.filter (fun k => k / 0x100 % 0x1000 == 0x10 || k / 0x100 % 0x1000 == 0x11)
  (held ++ told.map (fun k => 16 * (k / 0x100000) + k % 0x100)).foldl insNat []

/-- QUEUE_DEPTH and QUEUE_DELAY of one queue: its inbox's depth and the age of its oldest packet against their thresholds. -/
def noticeQueue (tq : Nat) (s : State) : State :=
  let t := tq / 16
  let q := tq % 16
  let d := inboxPkts s t q
  let a := min 0xFFFFFFFF ((inboxAge s t q).getD 0)
  let body := fun (v : Nat) => leBytes 1 q ++ zeros 3 ++ leBytes 4 v
  thresholdNote t 0x11 q a (dirNum s (qObj t q 0x13)) (body a) (thresholdNote t 0x10 q d (dirNum s (qObj t q 0x12)) (body d) s)

/-- The inboxes looked at as time passes, while HXT is served. -/
def queueNotes (s : State) : State := if s.phase = .serving then foldS (noticeQueues s) noticeQueue s else s

/-- One cycle passes (R6): what the block does when no command waits (log 7). -/
def passCycle (s : State) : State := queueNotes { s with clk := { s.clk with now := s.clk.now + 1 } }

/-! ### Sub-port links (R459, R480) -/

/-- Link state of a sub-port. -/
def portSt (s : State) (p : Nat) : PortSt := smGetD s.pins.ports p ⟨[], none⟩

/-- Link state of a sub-port changed. -/
def onPort (p : Nat) (f : PortSt → PortSt) (s : State) : State :=
  { s with pins := { s.pins with ports := smPut s.pins.ports p (f (portSt s p)) } }

/-- Node states in which sub-ports are brought up (Table 13-14). -/
def portsDriven (s : State) : Bool :=
  match s.phase with
  | .booting => true
  | .ready => true
  | .serving => true
  | .warmReset => true
  | .warmBoot => true
  | .warmReady => true
  | .halting => true
  | .halted => true
  | _ => false

/-- Packets that wait on a sub-port are lost when it goes down: receipts are counted (R312). -/
def losePort (p : Nat) (s : State) : State :=
  let gone := s.hxt.out.filter (fun k => k.port == p)
  let n := (gone.filter (fun k => k.kind == 2 && fieldLE k.bytes 4 2 == 0)).length
  bumpBy (ent 0xB010 0xE) n { s with hxt := { s.hxt with out := s.hxt.out.filter (fun k => k.port != p) } }

/-- The link of a sub-port counts as down: after the fourth time in 16,000 ticks it is held down (R459). -/
def portDown (p : Nat) (s : State) : State :=
  if !portUp s p then s
  else
    let s := losePort p (dirSet (ent (0xB100 + p) 2) 0 s)
    let ds := ((portSt s p).downs.filter (fun d => decide (s.clk.tick < d + 16000))) ++ [s.clk.tick]
    let s := onPort p (fun x => { x with downs := ds }) s
    if 4 ≤ ds.length then
      record 0x0F 0 5 p 0 0 0 none (bump (ent 0x4050 7) (onPort p (fun x => { x with held := some s.clk.tick, downs := [] }) s))
    else s

/-- Every sub-port goes down without counting as a link failure (warm reset, flush, reference lost). -/
def portsOff (s : State) : State :=
  foldS (upFrom 0 8) (fun p s => if portUp s p then losePort p (dirSet (ent (0xB100 + p) 2) 0 s) else s) s

/-- Sub-port states read 2 where the arrangement has no such sub-port. -/
def showPorts (port : Nat) (s : State) : State :=
  foldS (upFrom 0 4) (fun i s =>
    let p := 4 * port + i
    if portPresent s p then (if dirNum s (ent (0xB100 + p) 2) = 2 then dirSet (ent (0xB100 + p) 2) 0 s else s)
    else dirSet (ent (0xB100 + p) 2) 2 s) s

/-- A port whose sub-ports are all down takes up the arrangement written (R297). -/
def takeArrangement (port : Nat) (s : State) : State :=
  if (upFrom 0 4).any (fun i => portUp s (4 * port + i)) then s
  else
    let a := dirNum s (ent (0xB100 + 4 * port) 1)
    showPorts port { s with pins := if port = 0 then { s.pins with arr0 := a } else { s.pins with arr1 := a } }

/-- The link of a sub-port counts as up. -/
def portRise (p : Nat) (s : State) : State :=
  let s := takeArrangement (p / 4) s
  if !portPresent s p || !portsDriven s || (portSt s p).held.isSome || s.pins.refsLost.contains 1 || portUp s p then s
  else
    let s := dirSet (ent (0xB100 + p) 2) 1 s
    if s.phase = .serving then foldS (upFrom 0 64) (fun t s => if (noteSess s t).any (fun x => x.addr.port == p) then sendFreshNotes t s else s) s
    else s

/-! ### Tenants (R326, R341) -/

/-- State of a tenant; unlisted: disabled. -/
def tenantSt (s : State) (t : Nat) : TenantSt := smGetD s.trf.tenants t ⟨false, none, false, 0, 0, 0, false, false, false, []⟩

/-- State of a tenant changed. -/
def onTenant (t : Nat) (f : TenantSt → TenantSt) (s : State) : State :=
  { s with trf := { s.trf with tenants := smPut s.trf.tenants t (f (tenantSt s t)) } }

/-- A tenant reset requested for frame `f` (R341): it joins one pending; while one runs it waits for RESET_DONE. -/
def askReset (t f : Nat) (s : State) : State :=
  onTenant t (fun x =>
    if x.resetting then { x with again := true }
    else if x.reqAt.isSome then x
    else { x with reqAt := some f }) s

/-- A write of 0x3100+t:01 (R326). -/
def writeEnabled (t v : Nat) (s : State) : State :=
  if v = 0 then
    if (tenantSt s t).active || (tenantSt s t).enable || (tenantSt s t).resetting then
      onTenant t (fun x => { x with disable := true, enable := false }) (askReset t 0 s)
    else s
  else onTenant t (fun x => if x.active && !x.disable then x else { x with enable := true }) s

/-- 0x3100+t:03 (Table 14-7). -/
def tenantState (s : State) (t : Nat) : Nat :=
  let x := tenantSt s t
  if x.resetting then 3 else if x.reqAt.isSome then 2 else b01 x.active

end Sys2Proof.Machine
end

