-- ==== Sys2Proof/Machine/SearchOps.lean ====
section
/-! DEFINITION. SearchOps: searching: parameters, parts, passes, shard lists, finalists and the gateway (R144 to R153,
R147, R148, R157, R102, R290, R291). -/
namespace Sys2Proof.Machine

/-! ### Parameters (Table 6-2) -/

/-- A search's parameters, defaults taken. -/
structure SParam where
  k : Nat
  ties : Bool
  tolerate : Bool
  method : Nat
  nprobe : Nat
  tiles : Nat
  threshold : Nat
  limit : Nat
  depth : Nat
deriving DecidableEq, Repr

/-- A field with a default for zero (R309). -/
def dflt (x d : Nat) : Nat := if x = 0 then d else x

/-- Parameters of a SEARCH body for a corpus. -/
def sparam (b c : Bytes) : SParam :=
  let k := fieldLE b 0 2
  let d := fieldLE b 10 2
  { k := k, ties := bit (fieldLE b 3 1) 0, tolerate := bit (fieldLE b 3 1) 1, method := fieldLE b 2 1,
    nprobe := dflt (fieldLE b 4 2) 64, tiles := dflt (fieldLE b 6 1) 1, threshold := dflt (fieldLE b 7 1) (cbThreshold c),
    limit := dflt (fieldLE b 8 2) 64, depth := if d = 0xFFFF then min (4 * k) 1024 else d }

/-- The parameters as one word of a FANOUT message; the method travels beside it. -/
def spWord (p : SParam) : Nat :=
  p.k + fld (b01 p.ties + 2 * b01 p.tolerate) 11 + fld p.nprobe 13 + fld p.tiles 26 + fld p.threshold 30 + fld p.limit 38
    + fld p.depth 52

/-- The parameters read from a FANOUT message. -/
def spOf (w method : Nat) : SParam :=
  { k := bits w 10 0, ties := bit w 11, tolerate := bit w 12, method := method, nprobe := bits w 25 13, tiles := bits w 29 26,
    threshold := bits w 37 30, limit := bits w 51 38, depth := bits w 62 52 }

/-- Entries of the lists that the candidate tree merges: the depth, or k without one (R150). -/
def candCap (p : SParam) : Nat := if p.depth = 0 then p.k else p.depth
/-- Ties in the candidate tree: the host's when it is the final tree (R150). -/
def candTies (p : SParam) : Bool := p.depth == 0 && p.ties

/-- COVERAGE_SHORT of Table 13-9. -/
def fCover : Nat := 8

/-- Cause of work on this node while its cores are throttled (Table 12-2). -/
def nowCause (s : State) : Nat := if dirNum s (ent 0x4020 4) ≠ 0 ∨ s.pwr.fast then cTHROTTLE else 0

/-! ### Parts -/

/-- A part of a kind for a gateway's or home's request, nothing done yet. -/
def mkPart (kind gate tag tenant obj shard : Nat) : Part :=
  { id := 0, kind := kind, gate := gate, tag := tag, tenant := tenant, obj := obj, shard := shard, par := [], query := [],
    tiles := [], found := [], ents := [], waits := [], got := [], awaits := [], status := 0, cause := 0, points := [] }

/-- A part entered under the next number. -/
def newPart (p : Part) (s : State) : State :=
  { s with
    path := { s.path with parts := s.path.parts ++ [{ p with id := s.hxt.nextRid }] }
    hxt := { s.hxt with nextRid := s.hxt.nextRid + 1 } }

/-- A part by its number. -/
def part? (s : State) (id : Nat) : Option Part := s.path.parts.find? (fun p => p.id == id)

/-- A part changed. -/
def onPart (id : Nat) (f : Part → Part) (s : State) : State :=
  { s with path := { s.path with parts := updFirst (fun p => p.id == id) f s.path.parts } }

/-- A part ended: its parcels in flight are of no more use (R221). -/
def dropPart (id : Nat) (s : State) : State :=
  killParcels (fun o => o == .path id)
    { s with path := { s.path with parts := s.path.parts.filter (fun p => p.id != id) } }

/-- A part serves a search or an attend. -/
def isRead (p : Part) : Bool := p.kind % 8 < 3

/-- Parts that serve requests of this node that have ended go. -/
def pruneParts (s : State) : State :=
  foldS (s.path.parts.filter (fun p => isRead p && p.gate == recPost s && (req? s p.tag).isNone)) (fun p => dropPart p.id) s

/-! ### Passes in the stacks (R147, R148, R157) -/

/-- No circular runs and no pass does. -/
def stacksFree (s : State) : Bool := s.path.pass.isNone && runningStacks s == 0

/-- Sketch of a search part's query. -/
def partSketch (p : Part) : Nat := leNat (slice p.query 64 32)

/-- Parameters of a search part. -/
def partParam (p : Part) : SParam := spOf (fieldLE p.par 0 8) (fieldLE p.par 8 1)

/-- Waiting tiles of a region, in admission order, one per lane: lane, part, tile. -/
def takeLanes (reg : Nat) : List Part → List (Nat × Nat × Nat) → List (Nat × Nat × Nat)
  | [], acc => acc
  | p :: t, acc =>
    takeLanes reg t ((p.tiles.filter (fun x => x / 8 == reg)).foldl (fun a x =>
      if a.any (fun l => l.1 == x % 8) then a else a ++ [(x % 8, p.id, x)]) acc)

/-- Keys that a lane's screen lists: hits of the bank screen, at most `limit` columns of each bank, and the pending
sketches of the tile (R105, R148). -/
def laneKeys (s : State) (c : Corp) (p : Part) (tile : Nat) : List Nat :=
  let sp := partParam p
  let w := cbSketch c.body
  let above := fun (z : CSlot) => decide (sp.threshold < equalBits w z.sketch (partSketch p))
  let own := c.slots.filter (fun q => kShard q.1 == p.shard && kTile q.1 == tile && above q.2)
  let hits := own.filter (fun q => q.2.live && !(seqr s (kStack q.1)).out && !(seqr s (kStack q.1)).banksOut.contains (kBank q.1))
  let bankOf := fun (k : Nat) => kStack k * 1024 + kBank k
  let banks := (hits.map (fun q => bankOf q.1)).foldl insNat []
  let listed := banks.flatMap (fun b => ((hits.filter (fun q => bankOf q.1 == b)).map (fun q => q.1)).take sp.limit)
  listed ++ ((own.filter (fun q => q.2.pend)).map (fun q => q.1)).filter (fun k => !listed.contains k)

/-- Search parts of a corpus and shard that wait for tiles. -/
def sweepers (s : State) (t c shard : Nat) : List Part :=
  s.path.parts.filter (fun p => p.kind == 0 && p.tenant == t && p.obj == c && p.shard == shard && !p.tiles.isEmpty)

/-- A pass entered in every stack in service. -/
def setPass (p : Pass) (s : State) : State :=
  let s := foldS (stacksIn s) touchStack s
  { s with path := { s.path with pass := some { p with left := stacksIn s } } }

/-- A sweep pass for the region of the oldest waiting tile (R147). -/
def sweepPass (p : Part) (c : Corp) (tile : Nat) (s : State) : State :=
  let reg := tile / 8
  let lanes := takeLanes reg (sweepers s p.tenant p.obj p.shard) []
  let keys := lanes.flatMap (fun l => (part? s l.2.1).elim [] (fun q => laneKeys s c q l.2.2))
  setPass ⟨0, p.tenant * 65536 + p.obj, p.shard * 64 + reg, lanes, keys, 0, []⟩ s

/-- A patch pass over a region (R157); a 256-bit region takes two runs. -/
def patchPass (c : Corp) (reg : Nat) (s : State) : State :=
  let keys := (c.slots.filter (fun q => q.2.pend && kRegion q.1 == reg)).map (fun q => q.1)
  let s := onCorpus c.tenant c.num (fun c => { c with patched := if keys.isEmpty then delNat c.patched reg else insNat c.patched reg }) s
  setPass ⟨1, c.tenant * 65536 + c.num, reg, [], keys, cbSketch c.body / 128 - 1, []⟩ s

/-- The next pass of corpora starts when the stacks are free: patches first, then the oldest sweep. -/
def startPass (s : State) : State :=
  if !stacksFree s || (stacksIn s).isEmpty then s
  else match s.path.patches with
  | (o, reg) :: rest =>
    let s := { s with path := { s.path with patches := rest } }
    optS (corpus? s (o / 65536) (o % 65536)) (fun c => patchPass c reg) s
  | [] =>
    match s.path.parts.find? (fun p => p.kind == 0 && !p.tiles.isEmpty
        && (corpus? s p.tenant p.obj).any (fun c => c.serving)) with
    | none => s
    | some p => match corpus? s p.tenant p.obj, p.tiles with
      | some c, tile :: _ => sweepPass p c tile s
      | _, _ => s

/-- A sweep pass has completed: its candidates go to their parts. -/
def sweepDone (p : Pass) (s : State) : State :=
  foldS p.lanes (fun l => onPart l.2.1 (fun q => { q with
    tiles := delNat q.tiles l.2.2
    found := q.found ++ p.keys.filter (fun k => kTile k == l.2.2 && !q.found.contains k) })) s

/-- PATCH_DONE (R157): live bits of the patched columns are set, their pending entries go. -/
def patchDone (p : Pass) (s : State) : State :=
  let t := p.obj / 65536
  let c := p.obj % 65536
  let s := onCorpus t c (fun x => { x with slots := x.slots.map (fun q =>
    if p.keys.contains q.1 && q.2.pend then (q.1, { q.2 with live := true, pend := false }) else q) }) s
  let s := optS (corpus? s t c) (fun x s => optS x.slot (fun k => dirSet (corpObj k 4) (timestamp s)) s) s
  showCorpus t c s

/-- Patches of every region of a corpus that has pending entries, or had them at the previous patch (R157). -/
def wantPatches (s : State) : State :=
  let l := s.path.corpora.flatMap (fun c =>
    if cbSketch c.body = 0 then [] else
      (((c.slots.filter (fun q => q.2.pend)).map (fun q => kRegion q.1)).foldl insNat c.patched).map
        (fun r => (c.tenant * 65536 + c.num, r)))
  { s with path := { s.path with
      patches := s.path.patches ++ l.filter (fun x => !s.path.patches.contains x), patchRounds := 0 } }

/-! ### Scoring a shard (R146, R149) -/

/-- What scoring has met so far. -/
structure Scoring where
  ents : List Ent
  fail : Nat
  short : Bool
  st : State

/-- One slot read and scored; a slot that awaits its reload fails the shard or is left out (R158). -/
def scoreSlot (w : Who) (c : Corp) (q : List Int) (tol : Bool) (a : Scoring) (p : Nat × CSlot) : Scoring :=
  if a.fail ≠ 0 then a
  else if p.2.reload then (if tol then { a with short := true } else { a with fail := 0x41 })
  else
    match readSlot w c p.1 p.2 a.st with
    | (0, e, code, s) =>
      if e.id = sentinelId then { a with st := s }
      else { a with ents := insertEnt false { e with score := wrap 32 (dotInt (unpackCode c.body code) q) } a.ents, st := s }
    | (f, _, _, s) => { a with fail := f, st := s }

/-- Query code of a search part. -/
def partCode (p : Part) (c : Corp) : List Int := (upFrom 0 (cbCode c.body)).map (fun j => sgn 8 (fieldLE p.query j 1))

/-- Slots a part scores: the cells probed, everything, or the candidates of its sweep (Table 6-3). -/
def partSlots (p : Part) (c : Corp) : List (Nat × CSlot) :=
  let sp := partParam p
  let own := c.slots.filter (fun q => kShard q.1 == p.shard)
  if sp.method = 0 then
    let cells := rankCells c.body (partCode p c) sp.nprobe
    own.filter (fun q => cells.any (fun i => kTile q.1 == cellTile c.body i && decide (cellBase c.body i ≤ kU q.1)
      && decide (kU q.1 < cellBase c.body i + cellSlots c.body i)))
  else if sp.method = 1 then own.filter (fun q => p.found.contains q.1)
  else own

/-- A message of a search's tree with nothing in it. -/
def emptyT (stage cause grades k : Nat) (fp ties : Bool) : TMsg :=
  { stage := stage, flags := 0, cause := cause, fp := fp, ties := ties, k := k, grades := grades, dropped := 0, ents := [],
    covered := [], failed := [], blob := [] }

/-- Answer of a shard part. -/
def shardAnswer (p : Part) (s : State) : TMsg × State :=
  let sp := partParam p
  let base := emptyT 0 (p.cause ||| nowCause s) (gradeBit s) (candCap sp) false (candTies sp)
  match corpus? s p.tenant p.obj with
  | none => ({ base with failed := [(p.shard, 0x13)] }, s)
  | some c =>
    let base := { base with cause := base.cause ||| (if c.codeT3 then cFALLBACK else 0) }
    let w : Who := ⟨p.tag % 2 ^ 32, some p.tenant⟩
    let a := (partSlots p c).foldl (scoreSlot w c (partCode p c) sp.tolerate) ⟨[], 0, false, s⟩
    if a.fail ≠ 0 then ({ base with failed := [(p.shard, a.fail)] }, a.st)
    else
      let r := reduceTies false (candTies sp) (candCap sp) a.ents
      ({ base with ents := r.1, covered := [p.shard],
                   flags := (if r.2 && candTies sp then fTies else 0) ||| (if a.short then fCover else 0) }, a.st)

/-- Tiles of a SWEEP (R147): cells in rank order until `tiles` distinct tiles are held. -/
def sweepTiles (c : Corp) (q : List Int) (n : Nat) : List Nat :=
  ((rankCells c.body q (cbCells c.body)).foldl (fun l i =>
    if l.length < n && !l.contains (cellTile c.body i) then l ++ [cellTile c.body i] else l) []).take n

/-- A shard part of a search entered here. -/
def addSearchPart (p : Part) (s : State) : State :=
  let tiles := match corpus? s p.tenant p.obj with
    | some c => if (partParam p).method = 1 then sweepTiles c (partCode p c) (partParam p).tiles else []
    | none => []
  newPart { p with tiles := tiles } s

/-! ### Finalists (R151) -/

/-- Fused multiply-add in fp32. -/
def f32Fma (a x y : Nat) : Nat :=
  let z : FSum := ⟨0, false, false, false, false, true⟩
  ((z.mul (fpOf fmt32 x) (fpOf fmt32 y)).add (fpOf fmt32 a)).result.1

/-- Pairwise sum of fp32 values, repeated until one remains. -/
def pairSum : Nat → List Nat → Nat
  | _, [] => 0
  | _, [a] => a
  | 0, a :: _ => a
  | fuel + 1, l => pairSum fuel ((chunks 2 l).map (fun p => match p with
      | [a, b] => f32Add a b
      | _ => p.getD 0 0))

/-- The exact score: 16 lanes of fused multiply-adds, then pairwise additions. -/
def exactScore (x y : List Nat) : Nat :=
  let z := x.zip y
  pairSum 8 ((upFrom 0 16).map (fun i =>
    ((numbered z).filter (fun p => p.1 % 16 == i)).foldl (fun a p => f32Fma a p.2.1 p.2.2) 0))

/-- Key and slot that hold an id. -/
def slotOfId (c : Corp) (id : Nat) : Option (Nat × CSlot) := c.slots.find? (fun q => q.2.id == id)

/-- One finalist's parcels issued for a part. -/
def issueFinalist (pid : Nat) (c : Corp) (i n : Nat) (s : State) : State :=
  foldS (numbered (vecParcels c.body n)) (fun q s =>
    match objParcel c q.2 with
    | none => onPart pid (fun p => { p with status := if p.status = 0 then 0x40 else p.status }) s
    | some (a, x) =>
      let k := s.par.next
      let s := onPart pid (fun p => { p with waits := p.waits ++ [k], tiles := p.tiles ++ [k * 2 ^ 24 + i * 16 + q.1] }) s
      issueParcel (.path pid) (.flash a x 3) .engine 0 c.tenant s) s

/-- An owner's finalists entered here: a finalist deleted since is dropped, every other one takes the version current now
and its vector is read (R151). -/
def addFinalists (p : Part) (s : State) : State :=
  match corpus? s p.tenant p.obj with
  | none => newPart { p with status := 0x13 } s
  | some c =>
    let live := p.ents.filterMap (fun e => (slotOfId c e.id).map (fun q => q.2))
    let bad := live.any (fun z => z.reload)
    let keep := live.filter (fun z => !z.reload)
    let id := s.hxt.nextRid
    let s := newPart { p with
      ents := keep.map (fun z => ⟨z.id, z.stamp, 0⟩), found := keep.map (fun z => z.vidx)
      awaits := [p.ents.length - live.length], status := if bad then 0x41 else 0 } s
    foldS (numbered keep) (fun q => issueFinalist id c q.1 q.2.vidx) s

/-- A finalist's score, none when part of its vector did not come. -/
def scoreFinalist (b x : Bytes) (p : Part) (i n : Nat) : Option Nat :=
  let got := (upFrom 0 (parsPer b)).map (fun j => smGet? p.got (i * 16 + j))
  if got.any (fun g => g.isNone) then none
  else some (cleanScore true (exactScore (vecF32 b (vecFrom b n (got.filterMap (fun g => g)))) (vecF32 b x)))

/-- Answer of an owner's finalists: its list under the host's k and ties. -/
def ownerAnswer (p : Part) (s : State) : TMsg × State :=
  let k := fieldLE p.par 0 2
  let ties := bit (fieldLE p.par 2 1) 0
  let tol := bit (fieldLE p.par 2 1) 1
  let base := emptyT 1 (p.cause ||| nowCause s) (gradeBit s) k true ties
  match corpus? s p.tenant p.obj with
  | none => ({ base with failed := [(ownPost s, 0x13)] }, s)
  | some c =>
    if p.status ≠ 0 && !tol then ({ base with failed := [(ownPost s, p.status)] }, s)
    else
      let sc := (numbered (p.ents.zip p.found)).map (fun q => (q.2.1, scoreFinalist c.body p.query p q.1 q.2.2))
      let es := sc.filterMap (fun q => q.2.map (fun x => { q.1 with score := x }))
      let nans := es.filter (fun e => (f32Key e.score).isNone)
      let good := es.filter (fun e => (f32Key e.score).isSome)
      let r := reduceTies true ties k (good.foldl (fun l e => insertEnt true e l) [])
      ({ base with ents := r.1, covered := [ownPost s], dropped := p.awaits.getD 0 0,
                   flags := (if r.2 && ties then fTies else 0) ||| (if nans.isEmpty then 0 else fNan)
                     ||| (if p.status ≠ 0 then fCover else 0) }, bumpBy (ent 0xC030 1) nans.length s)

/-! ### The gateway (R145, R150 to R153) -/

/-- Replica state of a shard in a search's items: replica now serving, those tried, first failing status. -/
def shardItem (cur tried first : Nat) : Nat := cur + 4 * tried + 32 * first
/-- Replica serving. -/
def siCur (x : Nat) : Nat := x % 4
/-- Replicas tried, one bit each. -/
def siTried (x : Nat) : Nat := x / 4 % 8
/-- First failing status. -/
def siFirst (x : Nat) : Nat := x / 32

/-- Corpus body of a search. -/
def reqCorpus (s : State) (r : Req) : Bytes := (corpus? s r.tenant r.obj).elim [] (fun c => c.body)

/-- Element `i` of a list set. -/
def setAt (l : List Nat) (i v : Nat) : List Nat := l.set i v

/-- Query of a FANOUT message: the 64-byte code and the sketch. -/
def queryBytes (b x : Bytes) : Bytes :=
  slice ((queryCode b (vecF32 b x)).map (fun i => BitVec.ofNat 8 (wrap 8 i))) 0 64
    ++ leBytes 32 (sketchOf b (vecF32 b x))

/-- Address word of the scheduled messages of the built-in paths: function code, method, class, frame of admission,
shard or item, object (log 40). -/
def pathAddr (op method cls frame shard obj : Nat) : Nat :=
  fld op 56 + fld method 54 + fld cls 52 + fld frame 36 + fld shard 20 + obj

/-- Strict point `i` of a request as a message carries it, 0 for none. -/
def reqPoint (r : Req) (i : Nat) : Nat := if r.late then 0 else r.points.getD i 0

/-- A strict point's cycle for a part served here, empty when nothing holds it. -/
def ownPoint (r : Req) (i : Nat) : List Nat := if r.cls = 0 ∧ !r.late then (r.points[i]?).elim [] (fun p => [r.admitAt + p]) else []

/-- One shard of a search sent to a replica: served here, or in a FANOUT stream. False when no stream can carry it. -/
def sendShard (r : Req) (i post : Nat) (s : State) : Bool × State :=
  let b := reqCorpus s r
  let sp := sparam r.body b
  let q := r.out
  if post = ownPost s then
    (true, addSearchPart { mkPart 0 (recPost s) r.rid r.tenant r.obj i with
      par := leBytes 8 (spWord sp) ++ leBytes 1 sp.method, query := q, points := ownPoint r 0 } s)
  else
    let inl := slice q 64 16 ++ leBytes 8 (spWord sp) ++ leBytes 4 (reqPoint r 0)
    let data := slice q 0 64 ++ (if cbSketch b = 256 then slice q 80 16 else [])
    match schedSend 1 post r.tenant (r.rid % 2 ^ 32) (pathAddr 0x10 sp.method r.cls (frame16 s r.admitAt) i r.obj) inl data r.rid s with
    | some s => (true, s)
    | none => (false, s)

/-- A shard that no replica serves (R153): left out under tolerate, else the search ends with the first failing
status. -/
def shardLost (rid i st : Nat) (s : State) : State :=
  match req? s rid with
  | none => s
  | some r =>
    if (sparam r.body (reqCorpus s r)).tolerate then
      addCause rid cCOVERAGE (onReq rid (fun r => { r with waits := delNat r.waits i, acc := setAt r.acc 0 (r.acc.getD 0 0 ||| fCover) }) s)
    else failReq rid st s

/-- A shard given to the next replica in service not yet tried (R145, R153). -/
def tryShard : Nat → Nat → Nat → State → State
  | 0, _, _, s => s
  | fuel + 1, rid, i, s =>
    match req? s rid with
    | none => s
    | some r =>
      let b := reqCorpus s r
      let n := cbReplicas b
      let reps := (groupFor s r.tenant).elim [] (fun g => replicas g n i)
      let x := r.items.getD i 0
      let order := (upFrom (r.pm + i) n).map (fun j => j % n)
      match order.find? (fun j => !bit (siTried x) j && nodeUp s (reps.getD j 0xFFF)) with
      | none => shardLost rid i (if siFirst x = 0 then 0x42 else siFirst x) s
      | some j =>
        let s := whenS (siTried x != 0) (bump (ent 0xC040 9)) s
        let s := onReq rid (fun r => { r with items := setAt r.items i (shardItem j (siTried x + 2 ^ j) (siFirst x)) }) s
        match sendShard r i (reps.getD j 0xFFF) s with
        | (true, s) => s
        | (false, s) =>
          let f := if siFirst x = 0 then 0x42 else siFirst x
          tryShard fuel rid i (onReq rid (fun r => { r with items := setAt r.items i (shardItem j (siTried x + 2 ^ j) f) }) s)

/-- A replica has failed its part (R153): served again by another for the statuses 0x40 to 0x45. -/
def shardFailed (rid : Nat) (f : Nat × Nat) (s : State) : State :=
  match req? s rid with
  | none => s
  | some r =>
    if f.2 = 0x32 then failReq rid 0x32 s
    else if !r.waits.contains f.1 then s
    else
      let x := r.items.getD f.1 0
      let y := if siFirst x = 0 then shardItem (siCur x) (siTried x) f.2 else x
      let s := whenS (f.2 == 0x31) (disputeCorpus r.tenant r.obj) s
      let s := onReq rid (fun r => { r with items := setAt r.items f.1 y }) s
      if 0x40 ≤ f.2 ∧ f.2 ≤ 0x45 then tryShard 4 rid f.1 s else shardLost rid f.1 f.2 s

/-- What every message of a search's trees adds to it. -/
def takeMsg (rid : Nat) (m : TMsg) (s : State) : State :=
  let s := addCause rid (m.cause ||| (if m.flags &&& fCover ≠ 0 then cCOVERAGE else 0)) s
  let s := whenS (m.cause &&& cLATE != 0) (onReq rid (fun r => { r with late := true })) s
  onReq rid (fun r =>
    let l := mergeLists m.fp m.ties m.k r.ents m.ents
    { r with
      ents := l.1
      acc := [r.acc.getD 0 0 ||| m.flags ||| (if l.2.1 && m.ties then fTies else 0) ||| (if l.2.2 then fNan else 0),
        r.acc.getD 1 0 + m.dropped, r.acc.getD 2 0 + (if m.stage = 0 then m.covered.length else 0), r.acc.getD 3 0 ||| m.grades] }) s

/-- Rounds from admission to now. -/
def roundsSince (s : State) (r : Req) : Nat := (s.clk.now - r.admitAt) / (roundFrames s * frameCycles)

/-- The receipt of a search (R152, R102). -/
def finishSearch (rid : Nat) (s : State) : State :=
  match req? s rid with
  | none => s
  | some r =>
    let sp := sparam r.body (reqCorpus s r)
    let fp := sp.depth != 0
    let flags := r.acc.getD 0 0 ||| (if fp then 0 else 4)
    let s := whenS (bit flags 0) (bump (ent 0xC030 2)) s
    let s := whenS (popcount 8 (r.acc.getD 3 0 ||| gradeBit s) != 1) (addCause rid cGRADE) s
    let n := r.ents.length
    let pad := List.replicate (sp.k - n) (sentinelEnt fp)
    let body := leBytes 1 flags ++ zeros 1 ++ leBytes 2 (r.acc.getD 2 0) ++ leBytes 2 (r.acc.getD 1 0)
      ++ leBytes 2 (min 0xFFFF (roundsSince s r)) ++ zeros 8 ++ (r.ents ++ pad).flatMap entBytes
    finishReq rid (if n < sp.k then 1 else 0) n body s

/-- Finalists of one owner sent (R151): read here, or in a FINALIST stream. -/
def sendOwner (rid post : Nat) (es : List Ent) (s : State) : State :=
  match req? s rid with
  | none => s
  | some r =>
    let sp := sparam r.body (reqCorpus s r)
    let x := r.body.drop 16
    let par := leBytes 2 sp.k ++ leBytes 1 (b01 sp.ties + 2 * b01 sp.tolerate)
    if post = ownPost s then
      addFinalists { mkPart 1 (recPost s) rid r.tenant r.obj 0 with par := par, query := x, ents := es, points := ownPoint r 2 } s
    else
      match schedSend 3 post r.tenant (rid % 2 ^ 32) (pathAddr 0x11 0 r.cls (frame16 s r.admitAt) 0 r.obj)
          (slice (leBytes 2 es.length ++ par) 0 24 ++ leBytes 4 (reqPoint r 2)) (es.flatMap entBytes ++ x) rid s with
      | some s => s
      | none =>
        if sp.tolerate then
          addCause rid cCOVERAGE (onReq rid (fun r => { r with waits := delNat r.waits post, acc := setAt r.acc 0 (r.acc.getD 0 0 ||| fCover) }) s)
        else failReq rid 0x42 s

/-- Postcode of the replica that served an id's shard. -/
def servedBy (s : State) (r : Req) (id : Nat) : Nat :=
  match groupFor s r.tenant with
  | none => ownPost s
  | some g =>
    let i := shardOf id g.n
    replica g i (siCur (r.items.getD i 0))

/-- The finalists leave the gateway (R151). -/
def sendFinalists (rid : Nat) (s : State) : State :=
  match req? s rid with
  | none => s
  | some r =>
    let by_ := r.ents.map (fun e => (servedBy s r e.id, e))
    let owners := (by_.map (fun p => p.1)).foldl insNat []
    let s := onReq rid (fun r => { r with stage := 2, ents := [], waits := owners }) s
    foldS owners (fun o => sendOwner rid o ((by_.filter (fun p => p.1 == o)).map (fun p => p.2))) s

/-- A point that the gateway itself holds work for: held until it, or LATE past it (R290, R291). -/
def holdsAt (s : State) (r : Req) (i : Nat) : Bool :=
  r.cls == 0 && !r.late && decide (i < r.points.length) && decide (s.clk.now < r.admitAt + r.points.getD i 0)

/-- A point has passed before its stage completed (R291). -/
def missed (s : State) (r : Req) (i : Nat) : Bool :=
  r.cls == 0 && !r.late && decide (i < r.points.length) && decide (r.admitAt + r.points.getD i 0 < s.clk.now)

/-- A request that missed a point: later points hold nothing back. -/
def markLate (rid : Nat) (s : State) : State := addCause rid cLATE (onReq rid (fun r => { r with late := true }) s)

/-- A search moves on once nothing is awaited in its stage. -/
def searchStep (rid : Nat) (s : State) : State :=
  match req? s rid with
  | none => s
  | some r =>
    if !r.waits.isEmpty || r.st != .executing then s
    else if r.stage = 0 then
      if (sparam r.body (reqCorpus s r)).depth = 0 then finishSearch rid s
      else
        let r0 := { r with acc := setAt r.acc 0 (r.acc.getD 0 0 &&& (255 - fTies)) }
        let s := onReq rid (fun _ => { r0 with stage := 1 }) s
        if holdsAt s r 1 then s else sendFinalists rid (whenS (missed s r 1) (markLate rid) s)
    else if r.stage = 2 then finishSearch rid s
    else s

/-- A message of a search's tree reaches its gateway. -/
def gatewaySearch (r : Req) (m : TMsg) (s : State) : State :=
  let rid := r.rid
  if m.failed.any (fun f => f.2 == 0x32) then failReq rid 0x32 s
  else if r.stage = 0 && m.stage = 0 then
    let s := onReq rid (fun r => { r with waits := r.waits.filter (fun i => !m.covered.contains i) }) (takeMsg rid m s)
    searchStep rid (foldS m.failed (shardFailed rid) s)
  else if r.stage = 2 && m.stage = 1 then
    let s := onReq rid (fun r => { r with waits := r.waits.filter (fun i => !m.covered.contains i) }) (takeMsg rid m s)
    match minOf (m.failed.map (fun f => f.2)) with
    | some f => failReq rid f s
    | none => searchStep rid s
  else s

end Sys2Proof.Machine
end

