-- ==== Sys2Proof/Machine/UpdOps.lean ====
section
/-! DEFINITION. UpdOps: running the parts of searches, and the updates of corpora: routing, staging, acceptance, applying,
shredding (R149, R154 to R157, R379, R380). -/
namespace Sys2Proof.Machine

/-! ### Running search parts -/

/-- A part of a search that can answer now: nothing awaited, its corpus serving (R159). -/
def partReady (s : State) (p : Part) : Bool :=
  (p.kind == 0 && p.tiles.isEmpty && (corpus? s p.tenant p.obj).all (fun c => c.serving))
    || (p.kind == 1 && p.waits.isEmpty)

/-- A part's answer on its way: to the gateway here, or into the merge tree towards it. -/
def sendAnswer (gate tag : Nat) (m : TMsg) (s : State) : State :=
  if gate = recPost s then optS (req? s tag) (fun r => gatewaySearch r m) s
  else treeInput gate tag m.stage 0 m s

/-- A part that has answered: held until its strict point, else sent, LATE past the point (R290, R291). -/
def partAnswered (p : Part) (m : TMsg) (s : State) : State :=
  match p.points with
  | c :: _ =>
    if s.clk.now < c then onPart p.id (fun q => { q with kind := q.kind + 8, par := m.inl, query := m.data, tiles := [] }) s
    else sendAnswer p.gate p.tag { m with cause := m.cause ||| (if c < s.clk.now then cLATE else 0) } (dropPart p.id s)
  | [] => sendAnswer p.gate p.tag m (dropPart p.id s)

/-- A search part run. -/
def runPart (p : Part) (s : State) : State :=
  let r := if p.kind = 0 then shardAnswer p s else ownerAnswer p s
  partAnswered p r.1 r.2

/-- Search parts run, one after another, until none can. -/
def driveParts : Nat → State → State
  | 0, s => s
  | fuel + 1, s =>
    match s.path.parts.find? (partReady s) with
    | some p => driveParts fuel (runPart p s)
    | none => s

/-- Everything of the search path that can move does: ended requests' parts go, parts run, a pass starts. -/
def moveSearch (s : State) : State := startPass (driveParts (8 * s.path.parts.length + 8) (pruneParts s))

/-- One stack has completed the pass; the last one completes it (R147, R157). -/
def passStackDone (k : Nat) (s : State) : State :=
  match s.path.pass with
  | none => s
  | some p =>
    if !p.left.contains k then s
    else
      let p := { p with left := delNat p.left k }
      let s := bump (ent 0x7010 1) s
      if !p.left.isEmpty then { s with path := { s.path with pass := some p } }
      else
        let s := whenS (p.kind == 1) (bump (ent 0xC040 7)) s
        if p.runs ≠ 0 then { s with path := { s.path with pass := some { p with runs := p.runs - 1, left := stacksIn s } } }
        else
          let s := { s with path := { s.path with pass := none } }
          moveSearch (if p.kind = 0 then sweepDone p s else if p.kind = 1 then patchDone p s else s)

/-! ### Items (R154) -/

/-- Bytes of an UPSERT item. -/
def itemW (b : Bytes) : Nat := 8 + vecBytes b
/-- Items of an UPSERT or DELETE. -/
def itemCount (r : Req) : Nat := fieldLE r.body 0 2
/-- Id of item `i`. -/
def itemId (r : Req) (b : Bytes) (i : Nat) : Nat :=
  if r.type = 0x0104 then fieldLE r.body (16 + i * itemW b) 8 else fieldLE r.body (16 + 8 * i) 8
/-- Vector of item `i`. -/
def itemVec (r : Req) (b : Bytes) (i : Nat) : Bytes := if r.type = 0x0104 then slice r.body (24 + i * itemW b) (vecBytes b) else []
/-- Flags of an item: bit 0 delete, bit 1 shred. -/
def itemFlags (r : Req) : Nat := if r.type = 0x0105 then 1 + 2 * b01 (bit (fieldLE r.body 2 1) 0) else 0

/-- Status byte of an item from its state: 1 accepted, else 0x100 and the status. -/
def itemStatus (x : Nat) : Nat := if x = 1 then 0 else x % 256

/-- The receipt of an UPSERT or DELETE once every item has its status (R155). -/
def finishUpdate (rid : Nat) (s : State) : State :=
  match req? s rid with
  | none => s
  | some r =>
    if r.items.any (fun x => x == 0) then s
    else
      let n := (r.items.filter (fun x => x == 1)).length
      let st := if n = r.items.length then 0 else if n ≠ 0 then 1
        else (minOf (r.items.map itemStatus)).getD 0
      endReq rid st n 0 (r.items.map (fun x => BitVec.ofNat 8 (itemStatus x))) s

/-- An item's status reaches the gateway: TENANT_RESET ends the request, NOT_OWNER marks the corpus (R344, R380). -/
def itemDone (rid i st : Nat) (s : State) : State :=
  match req? s rid with
  | none => s
  | some r =>
    if st = 0x32 then failReq rid 0x32 s
    else
      let s := whenS (st == 0x31) (disputeCorpus r.tenant r.obj) s
      finishUpdate rid (onReq rid (fun r => { r with items := setAt r.items i (if st = 0 then 1 else 0x100 + st) }) s)

/-- An update part's answer to its gateway. -/
def answerItem (p : Part) (st : Nat) (s : State) : State :=
  let s := dropPart p.id s
  if p.gate = recPost s then itemDone p.tag p.shard st s
  else (schedSend 4 p.gate p.tenant p.tag (pathAddr 3 0 0 0 p.shard p.obj) (leBytes 1 st) [] 0 s).getD s

/-! ### Staging (R155) -/

/-- Id, flags and stamp of an update part. -/
def upId (p : Part) : Nat := fieldLE p.par 0 8
/-- Flags. -/
def upFlags (p : Part) : Nat := fieldLE p.par 8 1
/-- Stamp. -/
def upStamp (p : Part) : Nat := fieldLE p.par 9 4

/-- Key that holds an id, or that a staged upsert gives it. -/
def keyOfId (c : Corp) (id : Nat) : Option Nat :=
  match slotOfId c id with
  | some q => some q.1
  | none => (c.items.find? (fun i => !i.del && i.slot.id == id)).map (fun i => i.key)

/-- A key is free: no slot, no staged item. -/
def keyFree (c : Corp) (k : Nat) : Bool := (smGet? c.slots k).isNone && !c.items.any (fun i => !i.del && i.key == k)

/-- Lowest free slot of the best of eight cells that has one (R155). -/
def findKey (c : Corp) (shard : Nat) (code : List Int) : Option Nat :=
  (rankCells c.body code 8).findSome? (fun i => (cellKeys c.body shard i).find? (keyFree c))

/-- Consignments of the corpus's T3 object up to parcel `p`. -/
def growCons (t c p : Nat) : Nat → State → Bool × State
  | 0, s => (false, s)
  | fuel + 1, s =>
    match corpus? s t c with
    | none => (false, s)
    | some x =>
      if p / 32 < x.cons.length then (true, s)
      else match allocRun t 1 s with
        | none => (false, s)
        | some (q, s) => growCons t c p fuel (onCorpus t c (fun x => { x with cons := x.cons ++ [q] }) s)

/-- The parcels of a vector written to flash for a part. -/
def writeVector (id : Nat) (c : Corp) (n : Nat) (s : State) : State :=
  foldS (vecParcels c.body n) (fun p s =>
    match objParcel c p with
    | none => s
    | some (a, x) =>
      let k := s.par.next
      let s := onPart id (fun q => { q with waits := q.waits ++ [k] }) s
      giveBytes k (vecParcel c p) (issueParcel (.path id) .engine (.flash a x 3) 0 c.tenant s)) s

/-- An item staged: its slot claimed, its vector on its way to flash. -/
def claimItem (p : Part) (c : Corp) (key : Nat) (z : CSlot) (s : State) : State :=
  let s := onCorpus c.tenant c.num (fun c => { c with
    items := c.items ++ [⟨key, false, false, z, false, p.id, p.shard⟩], vecs := smPut c.vecs z.vidx p.query }) s
  optS (corpus? s c.tenant c.num) (fun c => writeVector p.id c z.vidx) s

/-- The three steps of an upsert on one replica: 0 under way, else the status that refuses it. -/
def stageUpsert (p : Part) (c : Corp) (s : State) : Nat × State :=
  let x := vecF32 c.body p.query
  let ci := codeInts c.body x
  let code := ci.map (fun q => q.1)
  let s := corpBump c 3 (ci.filter (fun q => q.2)).length s
  let shard := (groupFor s c.tenant).elim 0 (fun g => shardOf (upId p) g.n)
  let full := cbSketch c.body != 0 && decide (s.path.pendCap ≤ pendAll s)
  match (if full then none else match keyOfId c (upId p) with
    | some k => some k
    | none => findKey c shard code) with
  | none => (0x51, bump (ent 0xC040 0xA) s)
  | some key =>
    let n := freeVec c
    match growCons c.tenant c.num ((vecParcels c.body n).getLastD 0) ((vecParcels c.body n).getLastD 0 / 32 + 2) s with
    | (false, s) => (0x51, bump (ent 0xC040 0xA) s)
    | (true, s) =>
      (0, claimItem p c key ⟨upId p, upStamp p, packCode c.body code, sketchOf c.body x, false, cbSketch c.body != 0, n, false⟩ s)

/-- A delete on one replica: an id that is not held changes nothing. -/
def stageDelete (p : Part) (c : Corp) (s : State) : State :=
  match keyOfId c (upId p) with
  | none => s
  | some k =>
    let z := (smGet? c.slots k).getD ⟨upId p, 0, [], 0, false, false, 0, false⟩
    onCorpus c.tenant c.num (fun c => { c with items := c.items ++ [⟨k, true, bit (upFlags p) 1, { z with id := upId p }, false, p.id, p.shard⟩] }) s

/-- The steps of an item on this replica. -/
def stageItem (id : Nat) (s : State) : Nat × State :=
  match part? s id with
  | none => (0, s)
  | some p => match corpus? s p.tenant p.obj with
    | none => (0x13, s)
    | some c => if bit (upFlags p) 0 then (0, stageDelete p c s) else stageUpsert p c s

/-- Parcels of a vector that no other vector in use shares. -/
def loneParcels (c : Corp) (n : Nat) : List Nat :=
  (vecParcels c.body n).filter (fun p => !(parcelVecs c.body p).any (fun m => m != n && (vecUsed c).contains m))

/-- A vector no longer in use: its parcels that nothing else shares are discarded. -/
def discardVec (t c n : Nat) (s : State) : State :=
  match corpus? s t c with
  | none => s
  | some x =>
    if (vecUsed x).contains n then s
    else
      let s := foldS (loneParcels x n) (fun p s => optS ((objParcel x p).bind (fun q => nlpOf s q.1 q.2)) (fun l => discard l 1) s) s
      onCorpus t c (fun x => { x with vecs := smDel x.vecs n }) s

/-- A part's staged items dropped. -/
def unstage (p : Part) (s : State) : State :=
  match corpus? s p.tenant p.obj with
  | none => s
  | some c =>
    let mine := c.items.filter (fun i => i.owner == p.id)
    let s := onCorpus p.tenant p.obj (fun c => { c with items := c.items.filter (fun i => i.owner != p.id) }) s
    foldS (mine.filter (fun i => !i.del)) (fun i => discardVec p.tenant p.obj i.slot.vidx) s

/-- A part's staged items accepted: they apply at the next round boundary (R156). -/
def acceptItems (p : Part) (s : State) : State :=
  onCorpus p.tenant p.obj (fun c => { c with items := c.items.map (fun i => if i.owner = p.id then { i with ready := true } else i) }) s

/-! ### The primary (R154, R155) -/

/-- Replicas a primary waits for; the stage: 0 acceptance, 1 shredding. -/
def upStage (p : Part) : Nat := p.found.getD 0 0
/-- Targets. -/
def upTargets (p : Part) : List Nat := p.found.drop 1

/-- A message of a primary to another replica. -/
def toReplica (p : Part) (op post : Nat) (inl data : Bytes) (s : State) : Option State :=
  schedSend 4 post p.tenant (p.id % 2 ^ 32) (pathAddr op 0 0 0 p.shard p.obj) inl data 0 s

/-- The item is refused on some replica: every staging of it is dropped and the gateway hears the status. -/
def refuseItem (p : Part) (st : Nat) (s : State) : State :=
  let s := foldS ((upTargets p).filter (fun q => q != ownPost s)) (fun q s => (toReplica p 7 q (leBytes 1 0) [] s).getD s) s
  answerItem p st (unstage p s)

/-- A replica's answer reaches the primary. When every replica in service has answered, a refused item ends; an accepted
one waits for ITEM_ACCEPTED; a shredded one's answer goes out. -/
def ackItem (id post st : Nat) (s : State) : State :=
  let s := onPart id (fun p => { p with awaits := delNat p.awaits post,
                                        status := if st = 0 then p.status else if p.status = 0 then st else min st p.status }) s
  match part? s id with
  | none => s
  | some p =>
    if !p.awaits.isEmpty then s
    else if upStage p = 1 then answerItem p 0 s
    else if p.status ≠ 0 then refuseItem p p.status s
    else s

/-- This replica's own steps are done. -/
def ownStaged (p : Part) (st : Nat) (s : State) : State :=
  if p.kind = 3 then ackItem p.id (ownPost s) st s
  else
    let s := (schedSend 4 p.gate p.tenant p.tag (pathAddr 4 0 0 0 p.shard p.obj) (leBytes 1 st) [] 0 s).getD s
    if st = 0 then s else dropPart p.id s

/-- A part's item staged here; without flash writes under way its steps are done at once. -/
def stageHere (id : Nat) (s : State) : State :=
  let r := stageItem id s
  match part? r.2 id with
  | none => r.2
  | some p => if r.1 ≠ 0 ∨ p.waits.isEmpty then ownStaged p r.1 r.2 else r.2

/-- A tenant's reset is running (R342, R344). -/
def isResetting (s : State) (t : Nat) : Bool := (tenantSt s t).resetting

/-- Stamp a primary gives an upsert (R154). -/
def nextStamp (c : Corp) (id : Nat) : Nat :=
  if !cbVersions c.body then 0
  else match ((c.items.filter (fun i => !i.del && i.slot.id == id)).getLast?).map (fun i => i.slot.stamp) with
    | some x => (x + 1) % 2 ^ 32
    | none => (slotOfId c id).elim 1 (fun q => (q.2.stamp + 1) % 2 ^ 32)

/-- Replicas in service of an id's shard, in this node's view. -/
def targetsOf (s : State) (t : Nat) (c : Corp) (id : Nat) : List Nat :=
  match groupFor s t with
  | none => []
  | some g => (replicas g (cbReplicas c.body) (shardOf id g.n)).filter (nodeUp s)

/-- An item ordered by its primary (R154, R379): a node that does not hold itself to be the primary answers NOT_OWNER. -/
def orderItem (p : Part) (s : State) : State :=
  if isResetting s p.tenant then answerItem p 0x32 s
  else match corpus? s p.tenant p.obj with
  | none => answerItem p 0x13 s
  | some c =>
    let ts := targetsOf s p.tenant c (upId p)
    if ts.head? ≠ some (ownPost s) then answerItem p 0x31 (disputeCorpus p.tenant p.obj s)
    else
      let stamp := if bit (upFlags p) 0 then 0 else nextStamp c (upId p)
      let p := { p with par := leBytes 8 (upId p) ++ leBytes 1 (upFlags p) ++ leBytes 4 stamp, found := 0 :: ts, awaits := ts }
      let id := s.hxt.nextRid
      let s := newPart p s
      let s := foldS (ts.filter (fun q => q != ownPost s)) (fun q s =>
        match toReplica { p with id := id } 2 q p.par p.query s with
        | some s => s
        | none => ackItem id q 0x42 s) s
      stageHere id s

/-- An item routed by its gateway (R154, R379). -/
def routeItem (rid i : Nat) (s : State) : State :=
  match req? s rid with
  | none => s
  | some r => match corpus? s r.tenant r.obj with
    | none => itemDone rid i 0x13 s
    | some c =>
      let id := itemId r c.body i
      let par := leBytes 8 id ++ leBytes 1 (itemFlags r)
      match targetsOf s r.tenant c id with
      | [] => itemDone rid i 0x42 s
      | q :: _ =>
        if q = ownPost s then
          orderItem { mkPart 3 (recPost s) rid r.tenant r.obj i with par := par, query := itemVec r c.body i } s
        else
          let s := bump (ent 0x2010 0xD) s
          match schedSend 4 q r.tenant (rid % 2 ^ 32) (pathAddr 1 0 0 0 i r.obj) par (itemVec r c.body i) rid s with
          | some s => s
          | none => itemDone rid i 0x42 s

/-- ITEM_ACCEPTED (R155): every replica has done the three steps; the item will apply everywhere, and its gateway hears of
it, after the shred where one was asked for (R156). -/
def acceptItem (p : Part) (s : State) : State :=
  let s := foldS ((upTargets p).filter (fun q => q != ownPost s)) (fun q s => (toReplica p 7 q (leBytes 1 1) [] s).getD s) s
  let s := acceptItems p s
  if upFlags p = 3 then
    let s := onPart p.id (fun q => { q with found := 1 :: upTargets p, awaits := upTargets p }) s
    if (corpus? s p.tenant p.obj).any (fun c => c.items.any (fun i => i.owner == p.id)) then s
    else ackItem p.id (ownPost s) 0 s
  else answerItem p 0 s

/-! ### Applying (R156) -/

/-- Searches of a corpus that run here are touched by an update (Table 12-2). -/
def touchSearches (t c : Nat) (s : State) : State :=
  let hit := fun (p : Part) => p.kind % 8 < 2 && p.tenant == t && p.obj == c
  let s := foldS (s.hxt.reqs.filter (fun r => r.type == 0x0103 && r.tenant == t && r.obj == c && r.st == .executing))
    (fun r => addCause r.rid cCONCURRENT) s
  { s with path := { s.path with parts := s.path.parts.map (fun p => if hit p then { p with cause := p.cause ||| cCONCURRENT } else p) } }

/-- A key of a running patch whose column an update supersedes stays out of the live row (R157). -/
def supersede (t c key : Nat) (s : State) : State :=
  match s.path.pass with
  | some p => if p.kind = 1 ∧ p.obj = t * 65536 + c then { s with path := { s.path with pass := some { p with keys := delNat p.keys key } } } else s
  | none => s

/-- Blocks of the flash that a shred must cleanse, packed (channel, superblock). -/
def packBlocks (l : List (Nat × Nat)) : List Nat := l.map (fun p => p.1 * 2 ^ 32 + p.2)

/-- The shred of a deleted vector starts (R156, R252): parcels of its own are discarded, a parcel it shared is written
again without it, and the live parcels beside the old copies move away. -/
def shredVec (id t c n : Nat) (s : State) : State :=
  match corpus? s t c with
  | none => s
  | some x =>
    let lone := loneParcels x n
    let s := onCorpus t c (fun x => { x with vecs := smDel x.vecs n }) s
    let x' := { x with vecs := smDel x.vecs n }
    let nlps := (vecParcels x.body n).filterMap (fun p => (objParcel x p).bind (fun q => (nlpOf s q.1 q.2).map (fun l => (p, q, l))))
    let blocks := (nlps.flatMap (fun q => packBlocks (shredBlocks s q.2.2 1))).foldl insNat []
    let s := foldS nlps (fun q s =>
      if lone.contains q.1 then discard q.2.2 1 s
      else bufferWrite q.2.2 (t3Handle 3 q.2.1.1 q.2.1.2) t (vecParcel x' q.1) s) s
    let s := foldS ((blocks.map (fun b => b % 2 ^ 32)).foldl insNat []) (copyBlock .other) s
    onPart id (fun p => { p with tiles := blocks, waits := [] }) s

/-- One accepted item applied. -/
def applyItem (t c : Nat) (it : CItem) (s : State) : State :=
  match corpus? s t c with
  | none => s
  | some x =>
    let old := smGet? x.slots it.key
    let s := supersede t c it.key (touchSearches t c s)
    if it.del then
      let s := bump (ent 0xC040 6) s
      match old with
      | some z =>
        if z.id ≠ it.slot.id then s
        else
          let s := onCorpus t c (fun x => { x with slots := smDel x.slots it.key }) (clearSlot x it.key s)
          if it.shred then shredVec it.owner t c z.vidx s else discardVec t c z.vidx s
      | none => s
    else
      let s := onCorpus t c (fun x => { x with slots := smPut x.slots it.key it.slot }) (storeSlot x it.key it.slot (bump (ent 0xC040 5) s))
      optS old (fun z => discardVec t c z.vidx) s

/-- Accepted items of a corpus applied, oldest first. -/
def applyCorpus (c : Corp) (s : State) : State :=
  let ready := c.items.filter (fun i => i.ready)
  let s := onCorpus c.tenant c.num (fun c => { c with items := c.items.filter (fun i => !i.ready) }) s
  showCorpus c.tenant c.num (foldS ready (applyItem c.tenant c.num) s)

/-- UPDATE_APPLY (R156). -/
def applyUpdates (s : State) : State := foldS (s.path.corpora.filter (fun c => c.items.any (fun i => i.ready))) applyCorpus s

/-- A shred of a deleted vector has finished on this replica. -/
def partShredded (p : Part) (s : State) : State :=
  if p.kind = 3 then ackItem p.id (ownPost s) 0 s
  else dropPart p.id ((schedSend 4 p.gate p.tenant p.tag (pathAddr 4 0 0 0 p.shard p.obj) (leBytes 1 0) [] 0 s).getD s)

/-- Pairs of packed blocks. -/
def unpackBlocks (l : List Nat) : List (Nat × Nat) := l.map (fun b => (b / 2 ^ 32, b % 2 ^ 32))

/-- SHRED_DONE for a deleted vector. -/
def shredPart (p : Part) (s : State) : State :=
  let blocks := unpackBlocks p.tiles
  let applied := (corpus? s p.tenant p.obj).all (fun c => !c.items.any (fun i => i.owner == p.id))
  if !applied || shredBusy s blocks then s
  else
    let d := draw s
    let u := Config.freeNat d.1 % (s.flash.retired.length + 1)
    partShredded p (bumpBy (ent 0x6010 0x16) u (cleanse blocks d.2))

end Sys2Proof.Machine
end

