-- ==== Sys2Proof/Machine/CtxOps.lean ====
section
/-! DEFINITION. CtxOps: context sessions: places of keys, values and scales, appending, quantising, folding, screening,
scoring and the attend's records (R163 to R183). -/
namespace Sys2Proof.Machine

/-! ### Shape of a session -/

/-- Layers of a session's profile. -/
def cxLayers (x : CtxS) : Nat := pfLayers x.prof.par
/-- KV heads. -/
def cxHeads (x : CtxS) : Nat := pfHeads x.prof.par
/-- Elements per head vector. -/
def cxDim (x : CtxS) : Nat := pfDim x.prof.par
/-- Query heads per KV head. -/
def cxGroup (x : CtxS) : Nat := pfGroup x.prof.par
/-- Channel of a layer and head. -/
def cxChan (x : CtxS) (l h : Nat) : Nat := l * cxHeads x + h

/-- This node's number among a session's members. -/
def memberNo (s : State) (x : CtxS) : Nat := (x.members.findIdx? (fun m => m == ownPost s)).getD 0
/-- This node is the session's home. -/
def isHome (s : State) (x : CtxS) : Bool := x.members.head? == some (ownPost s)
/-- Member that holds a position (R182). -/
def holderOf (x : CtxS) (pos : Nat) : Nat := x.members.getD (pos / 8192 % max 1 x.members.length) 0xFFF
/-- This node holds a position. -/
def holds (s : State) (x : CtxS) (pos : Nat) : Bool := holderOf x pos == ownPost s
/-- Positions from `a` to below `b` that this node holds. -/
def ownBetween (s : State) (x : CtxS) (a b : Nat) : List Nat := (upFrom a (b - a)).filter (holds s x)

/-- Block of this node's own run of blocks in which a position lies; one member holds every span (log 51). -/
def ownBlock (x : CtxS) (pos : Nat) : Nat := pos / 8192 / max 1 x.members.length * 128 + pos % 8192 / 64
/-- Own span of a position. -/
def ownSpan (x : CtxS) (pos : Nat) : Nat := ownBlock x pos / 128
/-- A position lies in a spilled span. -/
def isSpilled (x : CtxS) (pos : Nat) : Bool := decide (ownSpan x pos < x.spilled)

/-- Spans of T1 of a capacity with `z` spilled. -/
def t1Spans (cap z : Nat) : Nat := cap / 8192 - z

/-- Bytes per stack of the block records, the scale table, and the sketch regions, of `n` spans (R166 to R169). -/
def blocksLen (p : Bytes) (n : Nat) : Nat := pfLayers p * pfHeads p * n * 8 * 16384
/-- Scale table. -/
def scalesLen (p : Bytes) (n : Nat) : Nat := ceilDiv (pfLayers p * pfHeads p * n * 64) 16384 * 16384
/-- Sketch regions: 258 rows of one bank each. -/
def regionsLen (p : Bytes) (n : Nat) : Nat := ceilDiv (pfLayers p * pfHeads p * n * 258 * 1024) (16 * 16384) * 16384
/-- A session's reservation per stack. -/
def ctxLen (p : Bytes) (n : Nat) : Nat := blocksLen p n + scalesLen p n + regionsLen p n

/-- Record number of a layer, head and own block in T1 (R166). -/
def recNo (x : CtxS) (l h b : Nat) : Nat := cxChan x l h * (t1Spans x.cap x.spilled * 128) + (b - x.spilled * 128)

/-- Local address of a block record. -/
def recAddr (x : CtxS) (l h b : Nat) : Nat := b % 16 * 0x1000000000 + x.base + recNo x l h b / 16 * 16384
/-- Local address of a block's scale entry (R167). -/
def scaleAddr (x : CtxS) (l h b : Nat) : Nat :=
  b % 16 * 0x1000000000 + x.base + blocksLen x.prof.par (t1Spans x.cap x.spilled) + recNo x l h b / 16 * 8

/-- First parcel of a spilled span's layer and head in the session's object: 32 of sketches, 512 of keys and values, 1 of
scales, 576 in whole consignments (log 52). -/
def spillBase (x : CtxS) (l h span : Nat) : Nat := (span * cxLayers x * cxHeads x + cxChan x l h) * 576

/-- Area and logical parcel of parcel `p` of the object. -/
def spillParcel (x : CtxS) (p : Nat) : Nat × Nat := (x.obj.1, x.obj.2 + p)

/-! ### Sessions and profiles changed -/

/-- A session changed. -/
def onCtx (h : Nat) (f : CtxS → CtxS) (s : State) : State :=
  { s with path := { s.path with ctx := updFirst (fun x => x.handle == h) f s.path.ctx } }

/-- A session by handle alone. -/
def ctxAt (s : State) (h : Nat) : Option CtxS := s.path.ctx.find? (fun x => x.handle == h)

/-- Sessions open with spans here (Table 7-9). -/
def countCtx (s : State) : State := dirSet (ent 0xC050 3) ((s.path.ctx.filter (fun x => !x.closing)).length) s

/-- A session broken (R183): counted, and its tenant told once. -/
def breakCtx (h status : Nat) (s : State) : State :=
  match ctxAt s h with
  | none => s
  | some x =>
    if x.broken then s
    else addNote x.tenant 2 (leBytes 4 h ++ leBytes 1 status) (bump (ent 0xC050 0xA) (onCtx h (fun x => { x with broken := true }) s))

/-- A profile holds the rotations of all its heads (R163). -/
def profReady (p : Prof) : Bool := (upFrom 0 (pfHeads p.par)).all (fun h => (smGet? p.rots h).isSome)

/-! ### Sketches (R171) -/

/-- EDOTF bf16 over a list of pairs: groups of 8, each group and the accumulator rounded once (R67). -/
def bfDot (a b : List Nat) : Nat :=
  (chunks 8 (a.zip b)).foldl (fun acc g =>
    let z : FSum := ⟨0, false, false, false, false, true⟩
    let t := g.foldl (fun z p => z.mul (fpOf fmt32 p.1) (fpOf fmt32 p.2)) z
    (t.add (fpOf fmt32 acc)).result.1) 0

/-- The bf16 elements of a vector as fp32 patterns. -/
def bfVec (b : Bytes) (off n : Nat) : List Nat := (upFrom 0 n).map (fun i => bfToF32 (fieldLE b (off + 2 * i) 2))

/-- Sketch of a vector under a head's rotation. -/
def ctxSketch (x : CtxS) (h : Nat) (v : List Nat) : Nat :=
  let rot := smGetD x.prof.rots h []
  let d := cxDim x
  (upFrom 0 128).foldl (fun a i =>
    let row := (upFrom 0 d).map (fun j => intToF32 (sgn 8 (fieldLE rot (i * d + j) 1)))
    if f32Pos (bfDot row v) then a + 2 ^ i else a) 0

/-- Equal bits of two 128-bit sketches. -/
def sameBits (a b : Nat) : Nat := 128 - popcount 128 (a ^^^ b)

/-! ### Appending (R170 to R172) -/

/-- Key (0) or value (1) of a layer and head in an append's body, as fp32 patterns. -/
def tokVec (x : CtxS) (b : Bytes) (l h kv : Nat) : List Nat := bfVec b ((cxChan x l h * 2 + kv) * cxDim x * 2) (cxDim x)

/-- All layers and heads. -/
def chansOf (x : CtxS) : List (Nat × Nat) :=
  (upFrom 0 (cxLayers x)).flatMap (fun l => (upFrom 0 (cxHeads x)).map (fun h => (l, h)))

/-- One channel of a block quantised under running-maximum scales (R80): the scale, the integers by token, clips, NaNs,
and the maxima kept. -/
def quantChan (x : CtxS) (kept : List Nat) (vs : List (List Nat)) : Nat × List (List Int) × Nat × Nat × List Nat :=
  let own := blockMax (vs.flatMap (fun v => v))
  let win := kept.foldl f32Max 0
  let sc := quantScale 127 (if win = 0 then own else win)
  let q := vs.map (fun v => v.map (quantOne 127 sc.2))
  let flat := q.flatMap (fun v => v)
  (sc.1, q.map (fun v => v.map (fun r => r.1)), (flat.filter (fun r => r.2.1)).length, (flat.filter (fun r => r.2.2)).length,
    (own :: kept).take x.window)

/-- 64 vectors of int8 elements, 128 bytes each. -/
def blockBytes8 (vs : List (List Int)) : Bytes := vs.flatMap (fun v => slice (v.map (fun i => BitVec.ofNat 8 (wrap 8 i))) 0 128)

/-- Bytes written into a parcel of a session's object in T3. -/
def spillWrite (x : CtxS) (p off : Nat) (b : Bytes) (s : State) : State :=
  let q := spillParcel x p
  match nlpOf s q.1 q.2 with
  | none => s
  | some n => bufferWrite n (t3Handle 4 q.1 q.2) x.tenant (patch (slice (contentOf s n).data 0 4096) off b) s

/-- A block record and its scales written: in T1, or in the session's object. -/
def putBlock (x : CtxS) (l h b : Nat) (record scale : Bytes) (s : State) : State :=
  if b / 128 < x.spilled then
    let base := spillBase x l h (b / 128)
    let s := foldS (numbered (chunks 4096 record)) (fun p => spillWrite x (base + 32 + b % 128 * 4 + p.1) 0 p.2) s
    spillWrite x (base + 544) (b % 128 * 8) scale s
  else putBytes (scaleAddr x l h b) scale (putBytes (recAddr x l h b) record s)

/-- One layer and head of a complete block quantised and written (R172). -/
def quantHead (hd : Nat) (first : Nat) (lh : Nat × Nat) (s : State) : State :=
  match ctxAt s hd with
  | none => s
  | some x =>
    let c := cxChan x lh.1 lh.2
    let vec := fun (kv : Nat) => (upFrom first 64).map (fun n => tokVec x (smGetD x.toks n []) lh.1 lh.2 kv)
    let k := quantChan x (smGetD x.maxima (2 * c) []) (vec 0)
    let v := quantChan x (smGetD x.maxima (2 * c + 1) []) (vec 1)
    let s := onCtx hd (fun x => { x with maxima := smPut (smPut x.maxima (2 * c) k.2.2.2.2) (2 * c + 1) v.2.2.2.2 }) s
    let s := bumpBy (ent 0xC020 3) (k.2.2.2.1 + v.2.2.2.1) (bumpBy (ent 0xC020 2) (k.2.2.1 + v.2.2.1) s)
    putBlock x lh.1 lh.2 (ownBlock x first) (blockBytes8 k.2.1 ++ blockBytes8 v.2.1) (leBytes 4 k.1 ++ leBytes 4 v.1) s

/-- QUANTISE_BLOCK (R172): the block whose 64th token has just applied. -/
def quantBlock (hd first : Nat) (s : State) : State :=
  match ctxAt s hd with
  | none => s
  | some x =>
    let s := foldS (chansOf x) (quantHead hd first) s
    onCtx hd (fun x => { x with toks := x.toks.filter (fun p => decide (p.1 < first) || decide (first + 64 ≤ p.1)) }) s

/-- Own tokens in the recent list (R173). -/
def recentCount (s : State) (x : CtxS) : Nat := (ownBetween s x x.folded x.applied).length

/-- One token applied (R170): its sketches enter the recent list; the 64th of its block has the block quantised. -/
def applyToken (hd pos : Nat) (s : State) : State :=
  match ctxAt s hd with
  | none => s
  | some x =>
    if holds s x pos then
      let b := smGetD x.toks pos []
      let sk := (chansOf x).foldl (fun m lh => smPut m (cxChan x lh.1 lh.2 * 2 ^ 22 + pos) (ctxSketch x lh.2 (tokVec x b lh.1 lh.2 0))) x.sketches
      let s := bump (ent 0xC050 4) (onCtx hd (fun x => { x with applied := pos + 1, sketches := sk }) s)
      if pos % 64 = 63 then quantBlock hd (pos - 63) s else s
    else onCtx hd (fun x => { x with applied := pos + 1 }) s

/-- Next position that may apply here: accepted, and not past a full recent list (R173). -/
def nextToken (s : State) (x : CtxS) : Option Nat :=
  if isHome s x then
    (if x.applied < x.accepted ∧ (!holds s x x.applied || (decide (recentCount s x < 1024) && (smGet? x.toks x.applied).isSome)) then
      some x.applied else none)
  else if recentCount s x < 1024 then (x.toks.find? (fun p => decide (x.applied ≤ p.1))).map (fun p => p.1) else none

/-- Accepted tokens of a session applied in position order. -/
def applyTokens : Nat → Nat → State → State
  | 0, _, s => s
  | fuel + 1, hd, s =>
    match ctxAt s hd with
    | none => s
    | some x =>
      if x.folding || x.broken || x.closing then s
      else match nextToken s x with
      | some p => applyTokens fuel hd (applyToken hd p s)
      | none => s

/-- TOKEN_APPLY over every session (R170). -/
def applyAllTokens (s : State) : State :=
  foldS s.path.ctx (fun x => applyTokens (x.accepted - x.applied + x.toks.length) x.handle) s

/-! ### Folding (R173) -/

/-- An attend of a session runs here. -/
def attending (s : State) (hd : Nat) : Bool := s.path.parts.any (fun p => p.kind % 8 == 2 && p.obj == hd)

/-- TOKEN_FOLD: folds start for the sessions whose recent list is full and that no attend uses. -/
def startFolds (s : State) : State :=
  { s with path := { s.path with ctx := s.path.ctx.map (fun x =>
      if recentCount s x = 1024 ∧ !x.folding ∧ !attending s x.handle then { x with folding := true } else x) } }

/-- Sketches of one span's folded tokens written into the session's object. -/
def spillSketches (x : CtxS) (ps : List Nat) (s : State) : State :=
  foldS (chansOf x) (fun lh s => foldS (ps.filter (isSpilled x)) (fun n s =>
    spillWrite x (spillBase x lh.1 lh.2 (ownSpan x n) + n % 8192 / 256) (n % 256 * 16)
      (leBytes 16 (smGetD x.sketches (cxChan x lh.1 lh.2 * 2 ^ 22 + n) 0)) s) s) s

/-- A fold completes: the tokens of the recent list are in their regions. -/
def foldDone (x : CtxS) (s : State) : State :=
  let s := spillSketches x (ownBetween s x x.folded x.applied) s
  bump (ent 0xC050 8) (onCtx x.handle (fun x => { x with folded := x.applied, folding := false }) s)

/-! ### Attends (R174 to R181) -/

/-- Parameters of an attend as a part carries them. -/
structure AParam where
  n : Nat
  k : Nat
  threshold : Nat
  limit : Nat
  mode : Nat

/-- Bytes of an attend's parameters. -/
def AParam.bytes (a : AParam) : Bytes :=
  leBytes 4 a.n ++ leBytes 2 a.k ++ leBytes 1 a.threshold ++ leBytes 2 a.limit ++ leBytes 1 a.mode

/-- Parameters read back. -/
def aparamOf (b : Bytes) : AParam := ⟨fieldLE b 0 4, fieldLE b 4 2, fieldLE b 6 1, fieldLE b 7 2, fieldLE b 9 1⟩

/-- Parameters of a CTX_ATTEND body for a session, defaults taken; `tokens` 0 means every position applied. -/
def attendParam (b : Bytes) (x : CtxS) : AParam :=
  let p := x.prof.par
  { n := if fieldLE b 8 4 = 0 then x.applied else fieldLE b 8 4, k := dflt (fieldLE b 4 2) (pfK p),
    threshold := dflt (fieldLE b 3 1) (pfThreshold p), limit := dflt (fieldLE b 6 2) 16,
    mode := if fieldLE b 2 1 = 0xFF then pfMode p else fieldLE b 2 1 }

/-- Query head `hq` of an attend, as fp32 patterns. -/
def headQuery (x : CtxS) (q : Bytes) (hq : Nat) : List Nat := bfVec q (hq * cxDim x * 2) (cxDim x)

/-- A query quantised (R176): s_q and the code. -/
def quantQuery (v : List Nat) : Nat × List Int :=
  let m := blockMax v
  if m = 0 then (0, v.map (fun _ => 0))
  else (f32Div m (intToF32 127), v.map (fun e =>
    match fpOf fmt32 e, fpOf fmt32 m with
    | .fin n a ex, .fin _ p px => clampTo 127 (quotAway n (a * 127) ex p px)
    | _, _ => 0))

/-- Key of an attend part's copy of a tail token. -/
def tailKey (pos : Nat) : Nat := 2 ^ 40 + pos

/-- Tail: positions below N in the open block when the attend was admitted (R175). -/
def tailOf (p : Part) : List Nat := (p.got.filter (fun q => decide (2 ^ 40 ≤ q.1))).map (fun q => q.1 - 2 ^ 40)

/-- Screened part of an attend on this node. -/
def screenedOf (s : State) (x : CtxS) (p : Part) : List Nat :=
  (ownBetween s x 0 (aparamOf p.par).n).filter (fun n => !(tailOf p).contains n)

/-- Element bytes and scale of a key (0) or value (1): read from T1, or out of the parcels that came; the status 0 or the
failure. -/
def readKV (x : CtxS) (p : Part) (l h pos kv : Nat) (s : State) : Nat × Bytes × Nat × State :=
  let d := cxDim x
  let b := ownBlock x pos
  let off := kv * 8192 + 128 * (pos % 64)
  if isSpilled x pos then
    let base := spillBase x l h (ownSpan x pos)
    let rec_ := smGetD p.got (base + 32 + b % 128 * 4 + off / 4096) []
    let sc := smGetD p.got (base + 544) []
    (0, slice rec_ (off % 4096) d, fieldLE sc (b % 128 * 8 + 4 * kv) 4, s)
  else
    let w : Who := ⟨p.tag % 2 ^ 32, some x.tenant⟩
    let a := recAddr x l h b + off
    let c := scaleAddr x l h b
    let bytes := fixedRead s a d
    let scale := leNat (fixedRead s (c + 4 * kv) 4)
    let r1 := demandRead w a d s
    let r2 := demandRead w c 8 r1.2
    (if r1.1 ≠ 0 then r1.1 else r2.1, bytes, scale, r2.2)

/-- Exact logit of a quantised key (R176). -/
def keyLogit (x : CtxS) (sq : Nat) (code : List Int) (bytes : Bytes) (sk : Nat) : Nat :=
  let si := dotInt ((upFrom 0 (cxDim x)).map (fun j => sgn 8 (fieldLE bytes j 1))) code
  f32Mul (f32Mul (f32Mul (intToF32 (sgn 32 (wrap 32 si))) sq) sk) (pfTau x.prof.par)

/-- What scoring a head has met: entries scored (id the position), the failure, the state. -/
structure HeadRun where
  ents : List Ent
  fail : Nat
  st : State

/-- One position scored exactly. -/
def scorePos (x : CtxS) (p : Part) (l h sq : Nat) (code : List Int) (a : HeadRun) (pos : Nat) : HeadRun :=
  if a.fail ≠ 0 then a
  else match readKV x p l h pos 0 a.st with
  | (0, b, sk, s) => { a with ents := a.ents ++ [⟨pos, 0, keyLogit x sq code b sk⟩], st := s }
  | (f, _, _, s) => { a with fail := f, st := s }

/-- Positions exact-screened for a layer and head (R183). -/
def exactPos (x : CtxS) (l h pos : Nat) : Bool := x.exact.contains (cxChan x l h * 512 + ownSpan x pos)

/-- Sketch of a position as this node screens with it: from the regions or the recent list, or out of a spilled span's
parcels. -/
def posSketch (x : CtxS) (p : Part) (l h pos : Nat) : Nat :=
  if isSpilled x pos && decide (pos < x.folded) then
    leNat (slice (smGetD p.got (spillBase x l h (ownSpan x pos) + pos % 8192 / 256) []) (pos % 256 * 16) 16)
  else smGetD x.sketches (cxChan x l h * 2 ^ 22 + pos) 0

/-- The first k of a list in the order of R86. -/
def firstK (fp : Bool) (k : Nat) (l : List Ent) : List Ent := (l.foldl (fun a e => insertEnt fp e a) []).take k

/-- Candidates of a head's screen (Table 7-5), before the exact scores: all but exact-screened positions in SOLO are cut
to k by count. -/
def candidatesOf (s : State) (x : CtxS) (p : Part) (l h hq : Nat) : List Nat :=
  let a := aparamOf p.par
  let all := screenedOf s x p
  let qs := ctxSketch x h (headQuery x p.query hq)
  let exact := all.filter (exactPos x l h)
  let rest := all.filter (fun n => !exactPos x l h n)
  if a.mode = 2 then all
  else if a.mode = 0 then
    exact ++ (firstK false a.k (rest.map (fun n => ⟨n, 0, sameBits qs (posSketch x p l h n)⟩))).map (fun e => e.id)
  else
    exact ++ rest.filter (fun n =>
      if n < x.folded then p.found.contains (hq * 2 ^ 32 + n) else decide (a.threshold < sameBits qs (posSketch x p l h n)))

/-- Logit of a tail key: EDOTF bf16, times tau with one rounding. -/
def tailLogit (x : CtxS) (p : Part) (l h hq pos : Nat) : Nat :=
  f32Mul (bfDot (tokVec x (smGetD p.got (tailKey pos) []) l h 0) (headQuery x p.query hq)) (pfTau x.prof.par)

/-- The weighted values of attended keys, by position: elements as fp32. -/
def valueOf (x : CtxS) (p : Part) (l h pos : Nat) (s : State) : Nat × List Nat × State :=
  if (tailOf p).contains pos then (0, tokVec x (smGetD p.got (tailKey pos) []) l h 1, s)
  else match readKV x p l h pos 1 s with
  | (f, b, sv, s) => (f, (upFrom 0 (cxDim x)).map (fun j => f32Mul sv (intToF32 (sgn 8 (fieldLE b j 1)))), s)

/-- Greatest of fp32 values; −∞ for none. -/
def f32MaxOf (l : List Nat) : Nat :=
  l.foldl (fun a b => match f32Key a, f32Key b with
    | some x, some y => if x < y then b else a
    | none, _ => a
    | _, none => b) 0xFF800000

/-- Values of attended positions gathered. -/
def gatherValues (x : CtxS) (p : Part) (l h : Nat) (ps : List Nat) (s : State) : Nat × List (List Nat) × State :=
  ps.foldl (fun a pos =>
    if a.1 ≠ 0 then a
    else match valueOf x p l h pos a.2.2 with
    | (f, v, s) => (f, a.2.1 ++ [v], s)) (0, [], s)

/-- A result record (Table 7-6). -/
def recordBytes (flags hq keys m l : Nat) (o : List Nat) : Bytes :=
  leBytes 8 (fld flags 60 + fld hq 32 + keys) ++ leBytes 8 (fld l 32 + m) ++ o.flatMap (leBytes 4)

/-- m, l and o of attended keys (R180): the order of the sums follows the items of the home cores, which the spec does not
lay down, so the sums are left open. -/
def attendSums (d : Nat) (zs : List Nat) (vs : List (List Nat)) : Nat × Nat × List Nat :=
  if zs.isEmpty then (0xFF800000, 0, List.replicate d 0)
  else
    let m := f32MaxOf zs
    let ws := zs.map (fun z => Config.exp32 (f32Add z (f32Neg m)))
    let l := Config.dot32 ws (ws.map (fun _ => 0x3F800000))
    (m, l, (upFrom 0 d).map (fun j => f32Div (Config.dot32 ws (vs.map (fun v => v.getD j 0))) l))

/-- One query head of an attend on this node: the failing status or the record. -/
def headRecord (x : CtxS) (p : Part) (h hq : Nat) (s : State) : Nat × Bytes × State :=
  let l := p.shard
  let a := aparamOf p.par
  let q := quantQuery (headQuery x p.query hq)
  let run := (candidatesOf s x p l h hq).foldl (scorePos x p l h q.1 q.2) ⟨[], 0, s⟩
  if run.fail ≠ 0 then (run.fail, [], run.st)
  else
    let surv := firstK true a.k run.ents
    let es := surv ++ (tailOf p).map (fun n => ⟨n, 0, tailLogit x p l h hq n⟩)
    let es := (es.map (fun e => (e.id, e.score))).foldl (fun m e => smPut m e.1 e.2) ([] : SMap Nat)
    match gatherValues x p l h (es.map (fun e => e.1)) run.st with
    | (0, vs, s) =>
      let r := attendSums (cxDim x) (es.map (fun e => e.2)) vs
      let own := screenedOf s x p
      let flags := b01 (bit (p.awaits.getD 1 0) hq) + 2 * b01 (own.any (isSpilled x)) + 4 * b01 (own.any (exactPos x l h))
      (0, recordBytes flags hq es.length r.1 r.2.1 r.2.2, s)
    | (f, _, s) => (f, [], s)

/-- All records of an attend on this node. -/
def headRecords (x : CtxS) (p : Part) (s : State) : Nat × Bytes × State :=
  (upFrom 0 (cxGroup x * cxHeads x)).foldl (fun a hq =>
    if a.1 ≠ 0 then a
    else match headRecord x p (hq / max 1 (cxGroup x)) hq a.2.2 with
    | (f, b, s) => (f, a.2.1 ++ b, s)) (0, [], s)

/-- Answer of a member's part (R182): its records, or the status that ends it; a failing record or scale breaks the
session (R183). -/
def memberAnswer (p : Part) (s : State) : TMsg × State :=
  let base := emptyT 2 (p.cause ||| nowCause s) (gradeBit s) 0 false false
  match ctxAt s p.obj with
  | none => ({ base with failed := [(ownPost s, 0x13)] }, s)
  | some x =>
    let base := { base with cause := base.cause ||| (if (screenedOf s x p).any (isSpilled x) then cFALLBACK else 0) }
    if p.status ≠ 0 then ({ base with failed := [(ownPost s, p.status)] }, s)
    else match headRecords x p s with
    | (0, b, s) => ({ base with covered := [ownPost s], blob := leBytes 2 (ownPost s) ++ b }, s)
    | (f, _, s) => ({ base with failed := [(ownPost s, f)] }, breakCtx p.obj f s)

/-! ### Parts of attends -/

/-- Parcels of the session's object that an attend needs: sketches for SOLO, keys, values and scales. -/
def spillNeeds (s : State) (x : CtxS) (p : Part) : List Nat :=
  let spans := (((screenedOf s x p).filter (isSpilled x)).map (ownSpan x)).foldl insNat []
  spans.flatMap (fun sp => (upFrom 0 (cxHeads x)).flatMap (fun h =>
    let b := spillBase x p.shard h sp
    (if (aparamOf p.par).mode = 0 then upFrom b 32 else []) ++ upFrom (b + 32) 513))

/-- An attend's part entered here, with its tail; the parcels of spilled spans are asked for. -/
def addMember (p : Part) (s : State) : State :=
  match ctxAt s p.obj with
  | none => newPart { p with status := 0x13 } s
  | some x =>
    let a := aparamOf p.par
    let open_ := (x.toks.filter (fun q => decide (q.1 < x.applied) && decide (q.1 < a.n))).foldl
      (fun m q => smPut m (tailKey q.1) q.2) ([] : SMap Bytes)
    let id := s.hxt.nextRid
    let st := if x.broken then 0x41 else 0
    let s := newPart { p with got := open_, awaits := [s.clk.now, 0], status := st
                              tiles := if a.mode = 1 && st == 0 then upFrom 0 (cxGroup x) else [] } s
    let s := { s with path := { s.path with attends := s.path.attends ++ [id] } }
    match part? s id with
    | none => s
    | some p =>
      let need := if st = 0 then spillNeeds s x p else []
      let first := s.par.next
      let s := onPart id (fun q => { q with found := if need.isEmpty then q.found else [first]
                                            tiles := if need.isEmpty then q.tiles else need, waits := upFrom first need.length }) s
      foldS need (fun n => issueParcel (.path id) (.flash (spillParcel x n).1 (spillParcel x n).2 4) .engine 0 x.tenant) s

/-- A SOLO or DENSE part. -/
def isSerial (p : Part) : Bool := (aparamOf p.par).mode != 1

/-- A member part that can answer now (R175, R178): its positions have applied; SOLO and DENSE one at a time, and never
beside a pass; a SWEEP when its passes are done. -/
def memberReady (s : State) (p : Part) : Bool :=
  let mine := s.path.attends.filterMap (part? s)
  let done := (ctxAt s p.obj).all (fun x => x.toks.all (fun q => decide ((aparamOf p.par).n ≤ q.1) || decide (q.1 < x.applied)))
  p.kind == 2 && p.waits.isEmpty && done
    && (if isSerial p then s.path.pass.isNone && (mine.find? isSerial).any (fun q => q.id == p.id) else p.tiles.isEmpty || p.status != 0)

/-- A part that left the attends' order. -/
def endAttend (id : Nat) (s : State) : State := { s with path := { s.path with attends := delNat s.path.attends id } }

/-! ### Sweep passes (R179) -/

/-- Region group of a layer (R168). -/
def groupOfLayer (l : Nat) : Nat := l % max 1 Config.sketchGroups

/-- Sweep parts that wait for a pass, oldest first. -/
def sweepWaiting (s : State) : List Part :=
  (s.path.attends.filterMap (part? s)).filter (fun p => p.kind == 2 && !isSerial p && !p.tiles.isEmpty && p.status == 0)

/-- Attends of a group that one pass serves: one for each session and layer. -/
def passParts (g : Nat) (l : List Part) : List Part :=
  (l.filter (fun p => groupOfLayer p.shard == g)).foldl (fun a p =>
    if a.any (fun q => q.obj == p.obj && q.shard == p.shard) then a else a ++ [p]) []

/-- Regions a part's pass reads: spans in use of every KV head, exact-screened ones left out. -/
def regionsOf (s : State) (x : CtxS) (p : Part) : List (Nat × Nat) :=
  let spans := ((ownBetween s x 0 (min x.folded (aparamOf p.par).n)).map (ownSpan x)).foldl insNat []
  (upFrom 0 (cxHeads x)).flatMap (fun h => (spans.filter (fun sp => decide (x.spilled ≤ sp) && !x.exact.contains (cxChan x p.shard h * 512 + sp))).map (fun sp => (h, sp)))

/-- One region screened for a query head: the first `limit` columns above the threshold, and whether there were more. -/
def screenRegion (s : State) (x : CtxS) (p : Part) (j : Nat) (r : Nat × Nat) : List Nat × Nat :=
  let a := aparamOf p.par
  let hq := r.1 * cxGroup x + j
  let qs := ctxSketch x r.1 (headQuery x p.query hq)
  let hits := (ownBetween s x 0 (min x.folded a.n)).filter (fun n => ownSpan x n == r.2
    && decide (a.threshold < sameBits qs (smGetD x.sketches (cxChan x p.shard r.1 * 2 ^ 22 + n) 0)))
  ((hits.take a.limit).map (fun n => hq * 2 ^ 32 + n), if a.limit < hits.length then 2 ^ hq else 0)

/-- A part's first waiting query head of each KV group screened. -/
def screenPart (p : Part) (s : State) : State :=
  match ctxAt s p.obj, p.tiles with
  | some x, j :: _ =>
    let rs := (regionsOf s x p).map (screenRegion s x p j)
    onPart p.id (fun q => { q with
      found := q.found ++ rs.flatMap (fun r => r.1)
      awaits := [q.awaits.getD 0 0, rs.foldl (fun a r => a ||| r.2) (q.awaits.getD 1 0)] }) s
  | _, _ => s

/-- SWEEP_PASS_START (R178, R179). -/
def startAttendPass (s : State) : State :=
  match sweepWaiting s with
  | [] => s
  | o :: rest =>
    let ps := passParts (groupOfLayer o.shard) (o :: rest)
    let banks := (ps.map (fun p => (ctxAt s p.obj).elim 0 (fun x => (regionsOf s x p).length))).foldl (fun a b => a + b) 0
    let waited := (s.clk.now - o.awaits.getD 0 0) / (roundFrames s * frameCycles)
    let serial := (s.path.attends.filterMap (part? s)).any isSerial
    let fold := s.path.ctx.any (fun x => x.folding)
    if !stacksFree s || serial || fold || (stacksIn s).isEmpty
        || !(decide (dirNum s (ent 0xC050 1) ≤ banks) || decide (dirNum s (ent 0xC050 2) ≤ waited)) then s
    else setPass ⟨2, groupOfLayer o.shard, 0, ps.map (fun p => (p.tiles.headD 0, p.id, p.shard)), [], 0, []⟩ (foldS ps screenPart s)

/-- An attend's pass has completed: its parts have one query head fewer to sweep. -/
def attendPassDone (p : Pass) (s : State) : State :=
  foldS p.lanes (fun l => onPart l.2.1 (fun q => { q with tiles := delNat q.tiles l.1 })) s

/-! ### The home (R182) -/

/-- Merge of two partial records of one query head, every operation rounded once, none fused. -/
def mergeRecord (d : Nat) (a b : Bytes) : Bytes :=
  let ma := fieldLE a 8 4
  let mb := fieldLE b 8 4
  let m := f32MaxOf [ma, mb]
  let flags := bits (fieldLE a 0 8 ||| fieldLE b 0 8) 63 60
  let keys := (fieldLE a 0 4 + fieldLE b 0 4) % 2 ^ 32
  let hq := fieldLE a 4 2
  if m = 0xFF800000 then recordBytes flags hq keys m 0 (List.replicate d 0)
  else
    let la := f32Mul (fieldLE a 12 4) (Config.exp32 (f32Add ma (f32Neg m)))
    let lb := f32Mul (fieldLE b 12 4) (Config.exp32 (f32Add mb (f32Neg m)))
    let l := f32Add la lb
    recordBytes flags hq keys m l ((upFrom 0 d).map (fun j =>
      f32Div (f32Add (f32Mul (fieldLE a (16 + 4 * j) 4) la) (f32Mul (fieldLE b (16 + 4 * j) 4) lb)) l))

/-- Merge of two members' records. -/
def mergeMembers (d : Nat) (a b : Bytes) : Bytes :=
  ((chunks (16 + 4 * d) a).zip (chunks (16 + 4 * d) b)).flatMap (fun p => mergeRecord d p.1 p.2)

/-- Members' records in member order, each into the running result. -/
def mergeAllMembers (x : CtxS) (blob : Bytes) : Bytes :=
  let n := 2 + cxGroup x * cxHeads x * (16 + 4 * cxDim x)
  let parts := (chunks n blob).map (fun b => (fieldLE b 0 2, b.drop 2))
  let ordered := x.members.filterMap (fun m => (parts.find? (fun p => p.1 == m)).map (fun p => p.2))
  match ordered with
  | [] => []
  | a :: t => t.foldl (mergeMembers (cxDim x)) a

/-- The short bit set in every record. -/
def markShort (d : Nat) (b : Bytes) : Bytes :=
  (chunks (16 + 4 * d) b).flatMap (fun r => leBytes 8 (fieldLE r 0 8 ||| 2 ^ 63) ++ r.drop 8)

/-- The receipt of an attend (R181); one with no member left has nothing to merge and ends with the members' status. -/
def finishAttend (rid : Nat) (s : State) : State :=
  match req? s rid with
  | none => s
  | some r => match ctxAt s r.obj with
    | none => failReq rid 0x13 s
    | some x =>
      let b := mergeAllMembers x r.out
      let b := if r.acc.getD 0 0 ≠ 0 then markShort (cxDim x) b else b
      if b.isEmpty then failReq rid (r.acc.getD 0 0) s
      else
        let s := bump (ent 0xC050 (5 + (attendParam r.body x).mode)) s
        let s := whenS (popcount 8 (r.acc.getD 3 0) != 1) (addCause rid cGRADE) s
        let s := whenS (missed s r (r.points.length - 1)) (markLate rid) s
        finishReq rid 0 (cxGroup x * cxHeads x) b s

/-- A member's part has failed (R183, Table 7-7). -/
def memberFailed (rid : Nat) (f : Nat × Nat) (s : State) : State :=
  match req? s rid with
  | none => s
  | some r =>
    if (ctxAt s r.obj).any (fun x => x.tolerate && decide (1 < x.members.length)) && f.2 != 0x32 then
      addCause rid cCOVERAGE (onReq rid (fun r => { r with waits := delNat r.waits f.1, acc := setAt r.acc 0 f.2 }) s)
    else failReq rid f.2 s

/-- An attend is complete once every member has answered. -/
def attendStep (rid : Nat) (s : State) : State :=
  match req? s rid with
  | some r => if r.waits.isEmpty && r.st == .executing then finishAttend rid s else s
  | none => s

/-- A message of an attend's tree reaches the home. -/
def homeAttend (r : Req) (m : TMsg) (s : State) : State :=
  let rid := r.rid
  let s := addCause rid m.cause s
  let s := whenS (m.cause &&& cLATE != 0) (onReq rid (fun r => { r with late := true })) s
  let s := onReq rid (fun r => { r with
    waits := r.waits.filter (fun i => !m.covered.contains i), out := r.out ++ m.blob
    acc := setAt r.acc 3 (r.acc.getD 3 0 ||| m.grades) }) s
  attendStep rid (foldS m.failed (memberFailed rid) s)

/-- A tree message reaches the node at its root. -/
def takeAnswer (tag : Nat) (m : TMsg) (s : State) : State :=
  match req? s tag with
  | none => s
  | some r => if r.st ≠ .executing then s
    else if r.type = 0x0103 then gatewaySearch r m s
    else if r.type = 0x0205 ∧ m.stage = 2 then homeAttend r m s
    else s

/-- A member part run and answered. -/
def runMember (p : Part) (s : State) : State :=
  let a := memberAnswer p s
  let s := endAttend p.id a.2
  match p.points with
  | c :: _ =>
    if s.clk.now < c then onPart p.id (fun q => { q with kind := q.kind + 8, par := a.1.inl, query := a.1.data, tiles := [] }) s
    else
      let m := { a.1 with cause := a.1.cause ||| (if c < s.clk.now then cLATE else 0) }
      if p.gate = recPost s then takeAnswer p.tag m (dropPart p.id s) else treeInput p.gate p.tag 2 0 m (dropPart p.id s)
  | [] => if p.gate = recPost s then takeAnswer p.tag a.1 (dropPart p.id s) else treeInput p.gate p.tag 2 0 a.1 (dropPart p.id s)

/-- Member parts run, one after another, until none can. -/
def driveMembers : Nat → State → State
  | 0, s => s
  | fuel + 1, s =>
    match (s.path.attends.filterMap (part? s)).find? (memberReady s) with
    | some p => driveMembers fuel (runMember p s)
    | none => s

/-- Everything of the built-in read paths that can move does. -/
def movePaths (s : State) : State :=
  let s := pruneParts s
  let s := { s with path := { s.path with attends := s.path.attends.filter (fun i => (part? s i).isSome) } }
  moveSearch (driveMembers (s.path.attends.length + 1) s)

end Sys2Proof.Machine
end

