-- ==== Sys2Proof/Machine/Search.lean ====
section
/-! DEFINITION. Search: the commands of corpora: creation, removal, searches, updates, patches, rebuild and reload
(chapter 6). -/
namespace Sys2Proof.Machine

/-! ### Admitted envelopes -/

/-- A fault of an admitted envelope's body against the objects as they stand now (R309). -/
def lateFault (s : State) (r : Req) : Option Nat := bodyFault s r.tenant r.type r.obj r.body

/-- An admitted request of a type run; a body that its object's present parameters refuse ends it. -/
def onAdmitted (rid type : Nat) (f : Req → State → State) (s : State) : State :=
  match req? s rid with
  | none => s
  | some r =>
    if r.type = type ∧ r.st = .admitted then
      (match lateFault s r with
      | some d => badReq rid d s
      | none => f r s)
    else s

/-- As `onAdmitted`, for a corpus the tenant holds and nobody disputes (R144, R380). -/
def onCorpusReq (rid type : Nat) (f : Req → Corp → State → State) (s : State) : State :=
  onAdmitted rid type (fun r s =>
    match corpus? s r.tenant r.obj with
    | none => failReq rid 0x13 s
    | some c => if s.cmp.dCorpora.contains (r.tenant * 65536 + r.obj) then failReq rid 0x31 s else f r c s) s

/-! ### Creation and removal (R139) -/

/-- Lowest slot that no corpus here holds. -/
def freeCorpSlot (s : State) : Option Nat := (upFrom 0 64).find? (fun k => !s.path.corpora.any (fun c => c.slot == some k))

/-- Entries of a corpus's slot at their start. -/
def openSlot (k t c : Nat) (s : State) : State :=
  dirSet (corpObj k 6) (t * 65536 + c) (foldS [1, 2, 3, 4, 5] (fun i => dirSet (corpObj k i) 0) s)

/-- A corpus placed in T1 (R381): its code area in T3 when T1 is short and the map allows it (R159). -/
def placeCorpus (t c : Nat) (b : Bytes) (n : Nat) (s : State) : Option (Nat × Bool × State) :=
  if n = 0 then some (0, false, s)
  else match placeT1 (n * shardLen b false) 0x100000 t 0 (t * 65536 + c) s with
  | some (a, s) => some (a, false, s)
  | none =>
    if mapFallback s.cmp.map then
      (placeT1 (n * shardLen b true) 0x100000 t 0 (t * 65536 + c) s).map (fun p => (p.1, true, bump (ent 0x2010 0xE) p.2))
    else none

/-- The corpus entered. -/
def addCorpus (r : Req) (slot : Option Nat) (shards : List Nat) (base : Nat) (t3 : Bool) (s : State) : State :=
  let s := optS slot (fun k => openSlot k r.tenant r.obj) s
  { s with path := { s.path with corpora := s.path.corpora ++
      [⟨r.tenant, r.obj, slot, r.body, shards, base, t3, [], [], [], [], [], true⟩] } }

/-- Corpora of a tenant held here. -/
def corporaOf (s : State) (t : Nat) : Nat := (s.path.corpora.filter (fun c => c.tenant == t)).length

/-- CORPUS_CREATE on this node (log 42): refused with the lowest code of what stands against it. -/
def createCorpus (r : Req) (s : State) : State :=
  match groupFor s r.tenant with
  | none => failReq r.rid 0x51 s
  | some g =>
    let shards := if ownRole s roleShards then shardsHere s g (cbReplicas r.body) else []
    if (corpus? s r.tenant r.obj).isSome then badReq r.rid 0xFFFF s
    else if dirNum s (ent (0x3100 + r.tenant) 9) ≤ corporaOf s r.tenant
        || overT1 s r.tenant (shards.length * shardLen r.body false) then failReq r.rid 0x50 s
    else if g.reps < cbReplicas r.body || (!shards.isEmpty && (freeCorpSlot s).isNone) then failReq r.rid 0x51 s
    else match placeCorpus r.tenant r.obj r.body shards.length s with
    | none => failReq r.rid 0x51 (bump (ent 0x2010 0xF) s)
    | some (a, t3, s) => endReq r.rid 0 0 0 [] (addCorpus r (if shards.isEmpty then none else freeCorpSlot s) shards a t3 s)

/-- CORPUS_CREATE. -/
def execCorpusCreate (rid : Nat) (s : State) : Out := .next (onAdmitted rid 0x0101 createCorpus s)

/-- A corpus removed: its slot, its memory, its vectors on flash. -/
def dropCorpus (c : Corp) (s : State) : State :=
  let ns := (vecUsed c).foldl insNat []
  let c0 := { c with slots := [], items := [] }
  let s := onCorpus c.tenant c.num (fun _ => c0) s
  let s := foldS ns (discardVec c.tenant c.num) s
  let s := optS c.slot (fun k s => dirSet (corpObj k 6) 0xFFFFFFFF (foldS [1, 2, 3, 4, 5] (fun i => dirSet (corpObj k i) 0) s)) s
  let s := unplace 0 (c.tenant * 65536 + c.num) s
  { s with path := { s.path with corpora := s.path.corpora.filter (fun x => !(x.tenant == c.tenant && x.num == c.num)) } }

/-- CORPUS_DROP. -/
def execCorpusDrop (rid : Nat) (s : State) : Out :=
  .next (onCorpusReq rid 0x0102 (fun r c s => moveSearch (endReq r.rid 0 0 0 [] (dropCorpus c s))) s)

/-! ### Searches -/

/-- A SEARCH begun at its gateway (R145). -/
def beginSearch (r : Req) (c : Corp) (s : State) : State :=
  match groupFor s r.tenant with
  | none => failReq r.rid 0x51 s
  | some g =>
    let s := onReq r.rid (fun r => { r with
      st := .executing, stage := 0, items := List.replicate g.n 0, waits := upFrom 0 g.n, acc := [0, 0, 0, gradeBit s],
      out := queryBytes c.body (r.body.drop 16) }) (bump (ent 0xC040 4) s)
    moveSearch (foldS (upFrom 0 g.n) (tryShard 4 r.rid) s)

/-- SEARCH; while the corpus is being rebuilt it waits (R159). -/
def execSearch (rid : Nat) (s : State) : Out :=
  .next (onCorpusReq rid 0x0103 (fun r c s => if c.serving then beginSearch r c s else s) s)

/-! ### Updates -/

/-- The items of an UPSERT or DELETE routed to their primaries (R154). -/
def beginUpdate (r : Req) (s : State) : State :=
  let n := itemCount r
  foldS (upFrom 0 n) (routeItem r.rid)
    (onReq r.rid (fun r => { r with st := .executing, items := List.replicate n 0 }) s)

/-- UPSERT. -/
def execUpsert (rid : Nat) (s : State) : Out :=
  .next (onCorpusReq rid 0x0104 (fun r c s => if c.serving then beginUpdate r s else s) s)

/-- DELETE. -/
def execDelete (rid : Nat) (s : State) : Out :=
  .next (onCorpusReq rid 0x0105 (fun r c s => if c.serving then beginUpdate r s else s) s)

/-- The item that a number of a request, or of the part that orders it, names. -/
def itemPart (s : State) (rid i : Nat) : Option Part :=
  s.path.parts.find? (fun p => p.kind == 3 && p.shard == i && (p.id == rid || (p.gate == recPost s && p.tag == rid))
    && p.awaits.isEmpty && p.status == 0 && upStage p == 0)

/-- ITEM_ACCEPTED. -/
def execItemAccepted (rid i : Nat) (s : State) : Out := .next (optS (itemPart s rid i) acceptItem s)

/-- SHRED_DONE (R252, R156): of a FLASH_DISCARD, or of a deleted vector. -/
def execShredDone (rid : Nat) (s : State) : Out :=
  .next (match req? s rid with
    | some r => shredReq r s
    | none => match part? s rid with
      | some p => if (p.kind = 3 ∧ upStage p = 1) ∨ (p.kind = 5 ∧ p.status = 0x100) then shredPart p s else s
      | none => s)

/-! ### Patches, rebuild, reload (R157 to R159) -/

/-- PATCH_EPOCH: a patch is due at the next boundary. -/
def execPatchEpoch (s : State) : Out :=
  .next (if dirNum s (ent 0xC040 1) ≤ s.path.patchRounds then wantPatches s else s)

/-- A rebuilt corpus's memory: codes and index written, sketch regions written whole, every sketch live. -/
def rebuildCorpus (c : Corp) (a : Nat) (t3 : Bool) (s : State) : State :=
  let c := { c with base := a, codeT3 := t3, serving := true, patched := [],
                    slots := c.slots.map (fun q => (q.1, { q.2 with live := cbSketch c.body != 0, pend := false, reload := false })) }
  let s := onCorpus c.tenant c.num (fun _ => c) s
  let s := foldS c.slots (fun q => storeSlot c q.1 q.2) s
  let s := optS c.slot (fun k s => openSlot k c.tenant c.num s) s
  showCorpus c.tenant c.num s

/-- CORPUS_REBUILD_DONE: the corpus serves, unless its code area finds no place (R159). -/
def execCorpusRebuildDone (c : Nat) (ok : Bool) (s : State) : Out :=
  .next (match s.path.corpora.find? (fun x => x.slot == some c && !x.serving) with
    | some x =>
      if !ok || !s.flash.serving then s
      else match placeCorpus x.tenant x.num x.body x.shards.length s with
      | some (a, t3, s) => moveSearch (rebuildCorpus x a t3 s)
      | none => bump (ent 0x2010 0xF) s
    | none => s)

/-- Cell whose range holds a key. -/
def cellOfKey (b : Bytes) (k : Nat) : Option Nat :=
  (upFrom 0 (cbCells b)).find? (fun i => cellTile b i == kTile k && decide (cellBase b i ≤ kU k)
    && decide (kU k < cellBase b i + cellSlots b i))

/-- A key lies in banks that are in service. -/
def keyUp (s : State) (c : Corp) (k : Nat) : Bool :=
  let q := seqr s (kStack k)
  !q.out && !q.banksOut.any (fun b => slotInBank c k (kStack k) b)

/-- One slot reloaded from the journal into a free slot of the same cell. -/
def reloadSlot (t c k : Nat) (s : State) : State :=
  match corpus? s t c with
  | none => s
  | some x => match smGet? x.slots k, cellOfKey x.body k with
    | some z, some i =>
      (match (cellKeys x.body (kShard k) i).find? (fun j => keyFree x j && keyUp s x j) with
      | some j =>
        let z := { z with reload := false, live := false, pend := cbSketch x.body != 0 }
        storeSlot x j z (onCorpus t c (fun x => { x with slots := smPut (smDel x.slots k) j z }) s)
      | none => s)
    | _, _ => s

/-- SLOT_RELOAD_DONE. -/
def execSlotReloadDone (c : Nat) (s : State) : Out :=
  .next (match s.path.corpora.find? (fun x => x.slot == some c) with
    | some x =>
      let ks := (x.slots.filter (fun q => q.2.reload)).map (fun q => q.1)
      moveSearch (showCorpus x.tenant x.num (foldS ks (reloadSlot x.tenant x.num) s))
    | none => s)

end Sys2Proof.Machine
end

