-- ==== Sys2Proof/Machine/Context.lean ====
section
/-! DEFINITION. Context: the commands of context memory and what its forwards do (chapter 7). -/
namespace Sys2Proof.Machine

/-! ### Profiles (R163) -/

/-- A CTX_PROFILE part taken in: part 0 makes the profile anew, another gives the rotation of one head. -/
def setProfile (r : Req) (s : State) : State :=
  let part := fieldLE r.body 0 1
  let others := s.path.profs.filter (fun p => !(p.tenant == r.tenant && p.num == r.obj))
  if part = 0 then
    endReq r.rid 0 0 0 [] { s with path := { s.path with profs := others ++ [⟨r.tenant, r.obj, slice r.body 0 16, []⟩] } }
  else match prof? s r.tenant r.obj with
  | none => failReq r.rid 0x13 s
  | some p =>
    let p := { p with rots := smPut p.rots (part - 1) (r.body.drop 16) }
    endReq r.rid 0 0 0 [] { s with path := { s.path with profs := others ++ [p] } }

/-- CTX_PROFILE. -/
def execCtxProfile (rid : Nat) (s : State) : Out := .next (onAdmitted rid 0x0201 setProfile s)

/-! ### Opening (R164, R165, R325, R381) -/

/-- Parcels of a session's object with `z` spans spilled. -/
def spillSize (p : Bytes) (z : Nat) : Nat := z * pfLayers p * pfHeads p * 576

/-- T1 of a session with `z` spans spilled; no bytes are placed when every span is. -/
def placeSpans (h t : Nat) (p : Bytes) (spans : Nat) (s : State) (z : Nat) : Option (Nat × Nat × State) :=
  if z = spans then some (z, 0, s)
  else (placeT1 (ctxLen p (spans - z)) 16384 t 1 h s).map (fun q => (z, q.1, q.2))

/-- The smallest number of spans spilled that lets the rest fit (R165). -/
def fitSession (h t : Nat) (p : Bytes) (spans : Nat) (s : State) : Option (Nat × Nat × State) :=
  (upFrom 0 (if mapFallback s.cmp.map then spans + 1 else 1)).findSome? (placeSpans h t p spans s)

/-- A session entered on this node. -/
def enterCtx (x : CtxS) (s : State) : State := countCtx { s with path := { s.path with ctx := s.path.ctx ++ [x] } }

/-- A session of no tokens yet. -/
def newCtx (h t : Nat) (p : Prof) (cap w : Nat) (tol : Bool) (ms : List Nat) : CtxS :=
  { handle := h, tenant := t, prof := p, cap := cap, window := w, tolerate := tol, members := ms, base := 0, spilled := 0,
    obj := (0, 0), group := 0, accepted := 0, applied := 0, folded := 0, toks := [], sketches := [], maxima := [],
    exact := [], folding := false, broken := false, closing := false }

/-- The node's part of a session opened: 0 and the spans spilled, or the status that refuses it. -/
def openLocal (x : CtxS) (s : State) : Nat × Nat × State :=
  let p := x.prof.par
  let spans := x.cap / 8192
  let t := x.tenant
  if dirNum s (ent (0x3100 + t) 0xB) ≤ (s.path.ctx.filter (fun y => y.tenant == t && !y.closing)).length
      || overT1 s t (ctxLen p spans) then (0x50, 0, s)
  else if !ownRole s roleSpans || decide (1024 ≤ s.path.ctx.length) || (ctxAt s x.handle).isSome then (0x51, 0, s)
  else match fitSession x.handle t p spans s with
  | none => (0x51, 0, bump (ent 0x2010 0xF) s)
  | some (0, base, s) => (0, 0, enterCtx { x with base := base } s)
  | some (z, base, s') =>
    if dirNum s (ent (0x3100 + t) 7) * 16 < flashUsed s t + spillSize p z then (0x50, 0, s)
    else match allocRun t (z * pfLayers p * pfHeads p * 18) s' with
    | none => (0x51, 0, bump (ent 0x2010 0xF) s)
    | some (o, s') => (0, z, bump (ent 0x2010 0xE) (enterCtx { x with base := base, spilled := z, obj := o } s'))

/-- A handle that no session here has: the value is left free by the spec. -/
def freshHandle (s : State) : Nat × State :=
  let d := draw s
  let h := Config.freeNat d.1
  (((upFrom h 2048).map (fun k => k % 2 ^ 32)).find? (fun k => (ctxAt s k).isNone)).elim (0, d.2) (fun k => (k, d.2))

/-- The receipt of CTX_OPEN once every member has opened its part. -/
def openStep (rid : Nat) (s : State) : State :=
  match req? s rid with
  | none => s
  | some r =>
    if r.waits.isEmpty then
      let z := r.acc.getD 1 0
      endReq rid 0 1 0 (leBytes 4 (r.acc.getD 0 0) ++ leBytes 1 (b01 (z != 0)) ++ zeros 3 ++ leBytes 4 z) s
    else s

/-- Memory and flash of a session given up. -/
def freeCtx (h : Nat) (s : State) : State :=
  match ctxAt s h with
  | none => s
  | some x =>
    let s := if x.spilled = 0 then s
      else optS (nlpOf s x.obj.1 x.obj.2) (fun l => discard l (spillSize x.prof.par x.spilled)) s
    countCtx { (unplace 1 h s) with path := { (unplace 1 h s).path with ctx := s.path.ctx.filter (fun y => y.handle != h) } }

/-- A message of the home to a member's part of a session. -/
def toMember (op post t tag : Nat) (inl data : Bytes) (rid : Nat) (s : State) : Option State :=
  schedSend 4 post t tag (pathAddr op 0 0 0 0 0) inl data rid s

/-- Members told to close their parts. -/
def closeMembers (x : CtxS) (s : State) : State :=
  foldS (x.members.filter (fun m => m != ownPost s)) (fun m s => (toMember 10 m x.tenant 0 (leBytes 4 x.handle) [] 0 s).getD s) s

/-- A member could not open its part: nothing stays reserved. -/
def openFails (rid st : Nat) (s : State) : State :=
  match req? s rid with
  | none => s
  | some r =>
    let h := r.acc.getD 0 0
    failReq rid st (freeCtx h (optS (ctxAt s h) closeMembers s))

/-- A member's answer to an open reaches the home. -/
def openAck (rid post st z : Nat) (s : State) : State :=
  if st = 0 then
    openStep rid (onReq rid (fun r => { r with waits := delNat r.waits post, acc := setAt r.acc 1 (r.acc.getD 1 0 + z) }) s)
  else openFails rid st s

/-- The open of a session's part asked of another member. -/
def askMember (rid : Nat) (x : CtxS) (m : Nat) (s : State) : State :=
  if (req? s rid).isNone then s
  else match toMember 8 m x.tenant (rid % 2 ^ 32) (leBytes 4 x.handle ++ leBytes 1 x.prof.num ++ leBytes 1 x.window
      ++ leBytes 1 (b01 x.tolerate) ++ leBytes 4 x.cap ++ leBytes 1 x.members.length) (x.members.flatMap (leBytes 2)) rid s with
  | some s => s
  | none => openFails rid 0x42 s

/-- CTX_OPEN at the home. -/
def openSession (r : Req) (s : State) : State :=
  match (prof? s r.tenant r.obj).filter profReady with
  | none => failReq r.rid 0x13 s
  | some p =>
    let b := r.body
    let n := fieldLE b 6 1
    let ms := if n = 0 then [ownPost s] else (upFrom 0 n).map (fun i => fieldLE b (8 + 2 * i) 2)
    let hs := freshHandle s
    let x := newCtx hs.1 r.tenant p (ceilDiv (fieldLE b 0 4) 8192 * 8192) (dflt (fieldLE b 4 1) (dirNum s (ent 0xC020 1)))
      (fieldLE b 5 1 == 1) ms
    match openLocal x hs.2 with
    | (0, z, s) =>
      let others := ms.filter (fun m => m != ownPost s)
      let s := onReq r.rid (fun r => { r with st := .executing, acc := [x.handle, z], waits := others }) s
      openStep r.rid (foldS others (askMember r.rid x) s)
    | (st, _, s) => failReq r.rid st s

/-- CTX_OPEN. -/
def execCtxOpen (rid : Nat) (s : State) : Out := .next (onAdmitted rid 0x0202 openSession s)

/-- A member asked to open its part answers with its status and the spans it spilled. -/
def memberOpen (home t tag : Nat) (inl data : Bytes) (s : State) : State :=
  let r := match (prof? s t (fieldLE inl 4 1)).filter profReady with
    | none => (0x13, 0, s)
    | some p =>
      openLocal (newCtx (fieldLE inl 0 4) t p (fieldLE inl 7 4) (fieldLE inl 5 1) (fieldLE inl 6 1 == 1)
        ((upFrom 0 (fieldLE inl 11 1)).map (fun i => fieldLE data (2 * i) 2))) s
  (toMember 9 home t tag (leBytes 1 r.1 ++ leBytes 2 (ownPost s) ++ leBytes 4 r.2.1) [] 0 r.2.2).getD r.2.2

/-! ### Closing (R164) -/

/-- A request for a session that the tenant holds here as its home, not closing, undisputed, and whole unless it closes
(R164, R183, R380). -/
def onCtxReq (rid type : Nat) (f : Req → CtxS → State → State) (s : State) : State :=
  onAdmitted rid type (fun r s =>
    match ctx? s r.tenant r.obj with
    | none => failReq rid 0x13 s
    | some x =>
      if x.closing || !isHome s x then failReq rid 0x13 s
      else if s.cmp.dCtx.contains x.handle then failReq rid 0x31 s
      else if x.broken && type != 0x0203 then failReq rid 0x41 s
      else f r x s) s

/-- The session's other envelopes end with ABORTED. -/
def abortOthers (rid t h : Nat) (s : State) : State :=
  foldS (s.hxt.reqs.filter (fun q => q.rid != rid && q.tenant == t && q.obj == h && (q.type == 0x0204 || q.type == 0x0205)))
    (fun q => failReq q.rid 0x60) s

/-- A session closed here: freed at the next round boundary. -/
def closeLocal (h : Nat) (s : State) : State := countCtx (onCtx h (fun x => { x with closing := true }) s)

/-- CTX_CLOSE. -/
def execCtxClose (rid : Nat) (s : State) : Out :=
  .next (onCtxReq rid 0x0203 (fun r x s =>
    movePaths (endReq rid 0 0 0 [] (closeMembers x (closeLocal x.handle (abortOthers rid r.tenant x.handle s))))) s)

/-- Sessions closed since the last boundary freed (R164). -/
def freeClosed (s : State) : State := foldS (s.path.ctx.filter (fun x => x.closing)) (fun x => freeCtx x.handle) s

/-! ### Appending (R170, R182) -/

/-- An append of the session is on its way to its holder. -/
def appendBusy (s : State) (x : CtxS) : Bool :=
  s.hxt.reqs.any (fun q => q.type == 0x0204 && q.tenant == x.tenant && q.obj == x.handle && q.st == .executing)

/-- Position `n` accepted at the home. -/
def acceptToken (rid h n : Nat) (s : State) : State :=
  endReq rid 0 1 0 (leBytes 8 n) (onCtx h (fun x => { x with accepted := n + 1 }) s)

/-- CTX_APPEND at the home: the token takes the next position, here or at the member that holds it. -/
def appendToken (r : Req) (x : CtxS) (s : State) : State :=
  let n := x.accepted
  if x.cap * x.members.length ≤ n then failReq r.rid 0x51 s
  else if appendBusy s x then s
  else if holds s x n then
    acceptToken r.rid x.handle n (onCtx x.handle (fun x => { x with toks := smPut x.toks n r.body }) s)
  else
    let s := bump (ent 0x2010 0xD) (onReq r.rid (fun r => { r with st := .executing, acc := [n] }) s)
    match toMember 5 (holderOf x n) x.tenant (r.rid % 2 ^ 32) (leBytes 4 x.handle ++ leBytes 4 n) r.body r.rid s with
    | some s => s
    | none => failReq r.rid 0x42 s

/-- CTX_APPEND. -/
def execCtxAppend (rid : Nat) (s : State) : Out := .next (onCtxReq rid 0x0204 appendToken s)

/-- Appends of a session that waited for one on its way go on. -/
def nextAppends (t h : Nat) (s : State) : State :=
  foldS (s.hxt.reqs.filter (fun q => q.type == 0x0204 && q.tenant == t && q.obj == h && q.st == .admitted))
    (fun q => onCtxReq q.rid 0x0204 appendToken) s

/-- The holder's answer to a forwarded append reaches the home (R379, R380). -/
def appendAck (rid st : Nat) (s : State) : State :=
  match req? s rid with
  | none => s
  | some r =>
    let s := if st = 0 then acceptToken rid r.obj (r.acc.getD 0 0) s
      else failReq rid st (whenS (st == 0x31) (disputeCtx r.obj r.tenant) s)
    nextAppends r.tenant r.obj s

/-- A forwarded append at a member: kept until the next boundary, or NOT_OWNER for a position it does not hold. -/
def memberAppend (home t tag : Nat) (inl body : Bytes) (s : State) : State :=
  let h := fieldLE inl 0 4
  let n := fieldLE inl 4 4
  let r := if isResetting s t then (0x32, s)
    else match ctx? s t h with
    | none => (0x13, s)
    | some x =>
      if !holds s x n then (0x31, disputeCtx h t s)
      else if x.broken then (0x41, s)
      else (0, onCtx h (fun x => { x with toks := smPut x.toks n body, accepted := n + 1 }) s)
  (toMember 6 home t tag (leBytes 1 r.1) [] 0 r.2).getD r.2

/-! ### Attending (R173 to R175, R182) -/

/-- An attend must wait to be admitted: a position it covers has not applied, or its session's recent list is full. -/
def attendHeld (s : State) (r : Req) : Bool :=
  r.type == 0x0205 && (match ctx? s r.tenant r.obj with
    | some x => x.folding || decide (1024 ≤ recentCount s x) || decide (x.applied < (attendParam r.body x).n)
    | none => false)

/-- The query sent to another member in a fan-out stream. -/
def sendMember (r : Req) (a : AParam) (m : Nat) (s : State) : State :=
  let inl := slice (leBytes 4 r.obj ++ leBytes 4 a.n ++ leBytes 2 a.k ++ leBytes 1 a.threshold ++ leBytes 2 a.limit) 0 24
    ++ leBytes 4 (reqPoint r 0)
  match schedSend 1 m r.tenant (r.rid % 2 ^ 32)
      (pathAddr 0x20 a.mode r.cls (frame16 s r.admitAt) (fieldLE r.body 0 2) 0) inl (r.body.drop 16) r.rid s with
  | some s => s
  | none => memberFailed r.rid (m, 0x42) s

/-- An attend begun at its home. -/
def beginAttend (r : Req) (x : CtxS) (s : State) : State :=
  let a := attendParam r.body x
  let s := onReq r.rid (fun r => { r with st := .executing, waits := x.members, acc := [0, 0, 0, 0], out := [] }) s
  let s := addMember { mkPart 2 (recPost s) r.rid r.tenant x.handle (fieldLE r.body 0 2) with
    par := a.bytes, query := r.body.drop 16, points := if x.members.length ≤ 1 then [] else ownPoint r 0 } s
  let s := foldS (x.members.filter (fun m => m != ownPost s)) (sendMember r a) s
  movePaths (attendStep r.rid s)

/-- CTX_ATTEND. -/
def execCtxAttend (rid : Nat) (s : State) : Out :=
  .next (onCtxReq rid 0x0205 (fun r x s => if attendHeld s r then s else beginAttend r x s) s)

/-- A member's part of an attend arrives in a fan-out stream (R182). -/
def memberAttend (home t tag cause : Nat) (mode layer point : Nat) (inl q : Bytes) (s : State) : State :=
  let h := fieldLE inl 0 4
  let a : AParam := ⟨fieldLE inl 4 4, fieldLE inl 8 2, fieldLE inl 10 1, fieldLE inl 11 2, mode⟩
  let pts := if point = 0 then [] else [point]
  let p := { mkPart 2 home tag t h layer with par := a.bytes, query := q, cause := cause, points := pts }
  let bad := if isResetting s t then 0x32 else if (ctx? s t h).isNone then 0x13 else 0
  if bad ≠ 0 then
    treeInput home tag 2 0 { emptyT 2 cause (gradeBit s) 0 false false with failed := [(ownPost s, bad)] } s
  else movePaths (addMember p s)

/-! ### Folding (R173) -/

/-- TOKEN_FOLD_DONE: a fold writes only while no circular runs. -/
def execTokenFoldDone (h : Nat) (s : State) : Out :=
  .next (match ctxAt s h with
    | some x => if x.folding && stacksFree s then movePaths (foldDone x s) else s
    | none => s)

end Sys2Proof.Machine
end

