-- ==== Sys2Proof/Machine/EmbOps.lean ====
section
/-! DEFINITION. EmbOps: embedding tables: placement, index classes, round batches and their order by row, pooling,
pre-reduction, line-adds and the hot store (R186 to R205). -/
namespace Sys2Proof.Machine

/-! ### Tables -/

/-- A table by slot. -/
def tabAt (s : State) (slot : Nat) : Option Tab := s.path.tabs.find? (fun t => t.slot == slot)

/-- A table changed. -/
def onTab (slot : Nat) (f : Tab → Tab) (s : State) : State :=
  { s with path := { s.path with tabs := updFirst (fun t => t.slot == slot) f s.path.tabs } }

/-- Counter of a table's slot. -/
def tabBump (slot sub n : Nat) (s : State) : State := bumpBy (ent (0xC0C0 + slot) sub) n s

/-- Bytes of a row's elements. -/
def rowBytes (t : Tab) : Nat := tbDim t * tbSize t

/-- Local address of a row in its stack (R187). -/
def tabRow (t : Tab) (row : Nat) : Nat := row % 16 * 0x1000000000 + tbArea t + row / 16 * tbStride t

/-- Bytes per stack of a table, in whole consignments of 4 KiB (R187). -/
def tabLen (rows stride : Nat) : Nat := ceilDiv (ceilDiv (rows + 1) 16 * stride) 4096 * 4096

/-- Descriptor words of a new table (Table 8-2). -/
def tabDesc (s : State) (t num area rows dim fmt frac dl hot : Nat) : List Nat :=
  let stride := strideOf dim (if fmt = 1 then 2 else 4)
  let dead := fld (recPost s) 52 + rows % 16 * 0x1000000000 + area + rows / 16 * stride
  [area, rows, fld stride 32 + fld dim 16 + fld frac 7 + fld hot 6 + fld dl 5 + fmt, dead, compl 64 dead, fld t 16 + num, 0, 0]

/-- The dead-letter pointer and its complement disagree (R188). -/
def deadBad (t : Tab) : Bool := tbWord t 4 != compl 64 (tbWord t 3)

/-- A table broken (R205): its tenant is told once. -/
def breakTab (slot : Nat) (s : State) : State :=
  match tabAt s slot with
  | none => s
  | some t =>
    if t.broken then s
    else addNote (tbTenant t) 3 (leBytes 2 (tbNum t) ++ leBytes 1 0x41) (onTab slot (fun t => { t with broken := true }) s)

/-- Bytes of a range set to zero with good check bits, every row of it sealed (R186, R127). -/
def zeroRange (a n : Nat) (s : State) : State :=
  let lo := a / 1024
  let hi := (a + n) / 1024
  let out := fun (r : Nat) => decide (r < lo) || decide (hi ≤ r)
  let flips := if s.mem.unsealedDef then (upFrom lo (hi - lo)).foldl insNat s.mem.rowFlip else s.mem.rowFlip.filter out
  { s with mem := { s.mem with
      bytes := s.mem.bytes.filter (fun c => decide (c.1 < a) || decide (a + n ≤ c.1))
      synd := s.mem.synd.filter (fun c => decide (8 * c.1 < a) || decide (a + n ≤ 8 * c.1))
      rowFlip := flips
      rowBad := s.mem.rowBad.filter out } }

/-! ### Indices (Table 8-3) -/

/-- Row used for an index, and its class: 0 valid, 1 sentinel, 2 negative, 3 out of range. -/
def idxRow (t : Tab) (i : Nat) : Nat × Nat :=
  if i < tbRows t then (i, 0)
  else (tbRows t, if i = 2 ^ 64 - 1 then 1 else if 2 ^ 63 ≤ i then 2 else 3)

/-- Occurrences of a class. -/
def ofClass (l : List (Nat × Nat)) (c : Nat) : Nat := (l.filter (fun p => p.2 == c)).length

/-- Bags of a gather: rows and classes in order (R193). -/
def gatherBags (t : Tab) (b : Bytes) : List (List (Nat × Nat)) :=
  let at_ := gatherIdx b
  ((upFrom 0 (fieldLE b 0 2)).foldl (fun (a : Nat × List (List (Nat × Nat))) i =>
    let n := fieldLE b (8 + 4 * i) 4
    (a.1 + n, a.2 ++ [(upFrom a.1 n).map (fun j => idxRow t (fieldLE b (at_ + 8 * j) 8))])) (0, [])).2

/-- Items of a scatter-add: row, class, fp32 values (R197). -/
def scatterItems (t : Tab) (b : Bytes) : List ((Nat × Nat) × List Nat) :=
  let w := 8 + tbDim t * 4
  (upFrom 0 (fieldLE b 0 4)).map (fun i =>
    (idxRow t (fieldLE b (8 + i * w) 8), (upFrom 0 (tbDim t)).map (fun j => fieldLE b (16 + i * w + 4 * j) 4)))

/-- Items of an EMB_WRITE: row and its bytes. -/
def writeItems (t : Tab) (b : Bytes) : List (Nat × Bytes) :=
  let w := 8 + rowBytes t
  (upFrom 0 (fieldLE b 0 4)).map (fun i =>
    (if bit (fieldLE b 4 1) 0 then tbRows t else fieldLE b (16 + i * w) 8, slice b (24 + i * w) (rowBytes t)))

/-- An item is dropped under DISCARD (R190). -/
def dropped (t : Tab) (cls : Nat) : Bool := cls != 0 && !tbApply t

/-! ### Sites of rows (R187, R202, R203) -/

/-- Entry of a row in the hot store or on its way. -/
def hotOf (t : Tab) (row : Nat) : Option Hot := t.hot.find? (fun h => h.row == row)

/-- A row is between its sites. -/
def onTheWay (t : Tab) (row : Nat) : Bool := (hotOf t row).any (fun h => h.st != .forwarded)

/-- Address at which a row is served. -/
def rowSite (t : Tab) (row : Nat) : Nat := (hotOf t row).elim (tabRow t row) (fun h => h.addr)

/-- The bank of a stack address is in service. -/
def bankUp (s : State) (a : Nat) : Bool :=
  let q := seqr s (a / 0x1000000000)
  !q.out && !q.banksOut.contains (bankOfOff (a % 0x1000000000))

/-- Rows FORWARDED as 0xC060:09 reports them. -/
def showHot (s : State) : State :=
  dirSet (ent 0xC060 9) (s.path.tabs.flatMap (fun t => t.hot.filter (fun h => h.st == .forwarded))).length s

/-- An uncorrectable hot copy: the row returns empty and is lost until it is rewritten (R205). -/
def hotLost (slot row : Nat) (s : State) : State :=
  showHot (bump (ent 0xC060 8)
    (onTab slot (fun t => { t with hot := t.hot.filter (fun h => h.row != row), lost := insNat t.lost row }) s))

/-- `n` bytes of a row from byte `off`, read where the row is served: the status (0 none) and the bytes. -/
def readRow (w : Who) (slot row off n : Nat) (s : State) : Nat × Bytes × State :=
  match tabAt s slot with
  | none => (0x13, [], s)
  | some t =>
    let a := rowSite t row + off
    if t.lost.contains row then (0x41, [], s)
    else if inStack a && !bankUp s a then (0x41, [], s)
    else
      let b := fixedRead s a n
      match demandRead w a n s with
      | (0, s) => (0, b, s)
      | (st, s) => if inStack a then (st, [], s) else (0x41, [], hotLost slot row s)

/-- Bytes written to a row where it is served: the status. -/
def writeRow (w : Who) (atomic : Bool) (slot row off : Nat) (b : Bytes) (s : State) : Nat × State :=
  match tabAt s slot with
  | none => (0x13, s)
  | some t =>
    let a := rowSite t row + off
    if inStack a && !bankUp s a then (0x41, s) else demandWrite w atomic a b s

/-! ### Round batches (R191, R192) -/

/-- A batch still has work on a row; one whose envelopes have not all run may touch any. -/
def batchHolds (b : Batch) (row : Nat) : Bool :=
  !b.started || (if b.kind = 2 then b.adds.any (fun a => a.row == row) else b.rows.contains row)

/-- Batches of a table before a given one. -/
def earlier (t : Tab) (b : Batch) : List Batch := t.batches.takeWhile (fun x => !(x.kind == b.kind && x.round == b.round))

/-- A batch may work on a row: every earlier batch is done with it, and it is not between its sites. -/
def rowFree (t : Tab) (b : Batch) (row : Nat) : Bool := (earlier t b).all (fun x => !batchHolds x row) && !onTheWay t row

/-- A batch of a table changed. -/
def onBatch (slot : Nat) (b : Batch) (f : Batch → Batch) (s : State) : State :=
  onTab slot (fun t => { t with batches := updFirst (fun x => x.kind == b.kind && x.round == b.round) f t.batches }) s

/-- A batch taken off its table. -/
def dropBatch (slot : Nat) (b : Batch) (s : State) : State :=
  onTab slot (fun t => { t with batches := t.batches.filter (fun x => !(x.kind == b.kind && x.round == b.round)) }) s

/-- Requests of a batch that have not ended, in admission order. -/
def batchReqs (s : State) (b : Batch) : List Req := b.rids.filterMap (req? s)

/-- Batches whose envelopes have all ended go, with the adds they had left (R200, R342). -/
def pruneBatches (slot : Nat) (s : State) : State :=
  onTab slot (fun t => { t with batches := t.batches.filter (fun b => !(batchReqs s b).isEmpty) }) s

/-- Every envelope of a batch ends with a status. -/
def failBatch (slot status : Nat) (b : Batch) (s : State) : State :=
  dropBatch slot b (foldS (batchReqs s b) (fun r => failReq r.rid status) s)

/-- The dead-letter pointer failed its check: the batch ends, the table is broken (R205). -/
def deadFail (slot : Nat) (t : Tab) (b : Batch) (s : State) : State :=
  failBatch slot 0x41 b (breakTab slot (raise (errOf 3 1 6 5 slot 0x41 (some (tbTenant t))) s))

/-- Counts of references by row. -/
def tally (rows : List Nat) : SMap Nat := rows.foldl (fun m r => smPut m r (smGetD m r 0 + 1)) []

/-- References of a batch join the window of its table (R202). -/
def addRefs (slot : Nat) (rows : List Nat) (s : State) : State :=
  onTab slot (fun t => { t with refs := (tally rows :: t.refs).take (dirNum s (ent 0xC060 3)) }) s

/-- Substitutions counted in a table's counters. -/
def countSubst (slot : Nat) (l : List (Nat × Nat)) (s : State) : State :=
  foldS [1, 2, 3] (fun c => tabBump slot (c + 1) (ofClass l c)) s

/-- A value as its core holds it: fp32, or fixed-point with its saturation flag (R198). -/
def coreVal (t : Tab) (x : Nat) : Nat × Bool := if tbFormat t = 2 then toFix32 (tbFrac t) x else (x, false)

/-- Two partial sums of a core. -/
def coreSum (t : Tab) (a b : Nat) : Nat := if tbFormat t = 2 then (a + b) % 2 ^ 32 else f32Add a b

/-- Saturations of a scatter-add's items (R66). -/
def satItems (t : Tab) (l : List ((Nat × Nat) × List Nat)) : Nat :=
  ((l.filter (fun i => !dropped t i.1.2)).map (fun i => (i.2.filter (fun x => (coreVal t x).2)).length)).foldl (fun a b => a + b) 0

/-- The adds of a batch of `n` items on `p` cores: one for each core and distinct row (R198). -/
def preReduce (t : Tab) (p : Nat) (items : List ((Nat × Nat) × List Nat)) : List LAdd :=
  let n := items.length
  let sums := (numbered items).foldl (fun (m : SMap (List Nat)) q =>
    if dropped t q.2.1.2 then m
    else
      let k := q.1 * p / n * 2 ^ 35 + q.2.1.1
      let v := q.2.2.map (fun x => (coreVal t x).1)
      smPut m k (match smGet? m k with
        | some old => (old.zip v).map (fun x => coreSum t x.1 x.2)
        | none => v)) []
  sums.map (fun q => ⟨q.1 % 2 ^ 35, q.2, []⟩)

/-- Rows named by a batch's envelopes. -/
def batchRows (t : Tab) (k : Nat) (rs : List Req) : List Nat :=
  rs.flatMap (fun r =>
    if k = 0 then ((gatherBags t r.body).flatMap (fun x => x)).map (fun p => p.1)
    else if k = 1 then (writeItems t r.body).map (fun p => p.1)
    else ((scatterItems t r.body).filter (fun i => !dropped t i.1.2)).map (fun i => i.1.1))

/-- A batch begins: its rows, references and adds. -/
def startBatch (slot : Nat) (b : Batch) (s : State) : State :=
  match tabAt s slot with
  | none => s
  | some t =>
    let rs := batchReqs s b
    let rows := batchRows t b.kind rs
    if rows.contains (tbRows t) && deadBad t then deadFail slot t b s
    else
      let s := if b.kind = 1 then s else addRefs slot rows s
      if b.kind ≠ 2 then onBatch slot b (fun b => { b with started := true, rows := rows.foldl insNat [] }) s
      else
        let items := rs.flatMap (fun r => scatterItems t r.body)
        let s := countSubst slot (items.map (fun i => i.1)) s
        let s := tabBump slot 5 (items.filter (fun i => dropped t i.1.2)).length s
        let s := tabBump slot 7 (satItems t items) s
        onBatch slot b (fun b => { b with started := true, adds := preReduce t (nCores s) items }) s

/-- Every envelope of a batch has run its command. -/
def canStart (s : State) (b : Batch) : Bool := !b.started && (batchReqs s b).all (fun r => r.st != .admitted)

/-- Rows of a write batch that are free, written whole; its envelopes end with the last (R186, R192). -/
def applyWrites (slot : Nat) (b : Batch) (s : State) : State :=
  match tabAt s slot with
  | none => s
  | some t =>
    let rs := batchReqs s b
    let items := rs.flatMap (fun r => (writeItems t r.body).map (fun p => (r.rid, p.1, p.2)))
    let go := b.rows.filter (rowFree t b)
    let s := foldS (items.filter (fun i => go.contains i.2.1)) (fun i s =>
      match writeRow ⟨i.1 % 2 ^ 32, some (tbTenant t)⟩ false slot i.2.1 0 (slice i.2.2 0 (tbStride t)) s with
      | (0, s) => onTab slot (fun t => { t with lost := delNat t.lost i.2.1 }) s
      | (st, s) => failReq i.1 st s) s
    let left := b.rows.filter (fun r => !go.contains r)
    if left.isEmpty then dropBatch slot b (foldS rs (fun r => endReq r.rid 0 0 0 []) s)
    else onBatch slot b (fun b => { b with rows := left }) s

/-- Everything of a table that can move does: batches begin, writes are applied. -/
def moveTab (slot : Nat) (s : State) : State :=
  let s := pruneBatches slot s
  let bs := (tabAt s slot).elim [] (fun t => t.batches)
  let s := foldS (bs.filter (canStart s)) (startBatch slot) s
  let ws := (tabAt s slot).elim [] (fun t => t.batches.filter (fun b => b.kind == 1 && b.started))
  foldS ws (applyWrites slot) s

/-- Every table moved. -/
def moveTabs (s : State) : State := foldS s.path.tabs (fun t => moveTab t.slot) s

/-- A round batch formed at a boundary (R191): the envelopes of one kind and table, in admission order. -/
def formBatch (slot kind round : Nat) (rids : List Nat) (s : State) : State :=
  if rids.isEmpty then s
  else onTab slot (fun t => { t with batches := t.batches ++ [⟨kind, round, rids, false, [], []⟩] }) s

/-! ### Gathers (R194 to R196) -/

/-- Order of an element's pattern of `n` bits for MAX: +0 above −0; none for NaN. -/
def maxKey (t : Tab) (x : Nat) : Option Int :=
  let n := 8 * tbSize t
  if tbFormat t = 2 then some (sgn 32 x)
  else if (if n = 16 then 0x7F80 else 0x7F800000) < x % 2 ^ (n - 1) then none
  else some (if x.testBit (n - 1) then -((x % 2 ^ (n - 1) : Nat) : Int) - 1 else x)

/-- The canonical NaN of a table's format. -/
def tabNan (t : Tab) : Nat := if tbFormat t = 1 then 0x7FC0 else 0x7FC00000

/-- Element `j` of a row's bytes. -/
def rowElem (t : Tab) (b : Bytes) (j : Nat) : Nat := fieldLE b (j * tbSize t) (tbSize t)

/-- Greatest of elements, NaN passed over; the canonical NaN when all are. -/
def maxElem (t : Tab) (l : List Nat) : Nat :=
  (l.foldl (fun (a : Option Nat) x =>
    match maxKey t x with
    | none => a
    | some k => match a with
      | none => some x
      | some y => if (maxKey t y).any (fun z => decide (z < k)) then some x else a) none).getD (tabNan t)

/-- A bag pooled under MAX: the row's bytes and the NaN elements passed over. -/
def poolBag (t : Tab) (rows : List Bytes) : Bytes × Nat :=
  if rows.isEmpty then (zeros (rowBytes t), 0)
  else
    let cols := (upFrom 0 (tbDim t)).map (fun j => rows.map (fun b => rowElem t b j))
    (cols.flatMap (fun c => leBytes (tbSize t) (maxElem t c)),
      (cols.map (fun c => (c.filter (fun x => (maxKey t x).isNone)).length)).foldl (fun a b => a + b) 0)

/-- Distinct rows of a bag. -/
def distinct (bag : List (Nat × Nat)) : List Nat := (bag.map (fun p => p.1)).foldl insNat []

/-- The counts and rows of one gather's receipt: NaN elements, empty bags, rows, bytes. -/
def poolAll (t : Tab) (none_ : Bool) (got : SMap Bytes) (bags : List (List (Nat × Nat))) : Nat × Nat × Nat × Bytes :=
  if none_ then
    let rows := (bags.flatMap (fun x => x)).map (fun p => smGetD got p.1 [])
    (0, 0, rows.length, rows.flatMap (fun x => x))
  else
    let ps := bags.map (fun bag => poolBag t ((distinct bag).map (fun r => smGetD got r [])))
    ((ps.map (fun p => p.2)).foldl (fun a b => a + b) 0, (bags.filter (fun b => b.isEmpty)).length, bags.length, ps.flatMap (fun p => p.1))

/-- Receipt of one envelope of a gather batch (R196); a row that could not be read ends it (R205). -/
def finishGather (slot : Nat) (t : Tab) (got : SMap Bytes) (bad : SMap Nat) (r : Req) (s : State) : State :=
  let bags := gatherBags t r.body
  let l := bags.flatMap (fun x => x)
  let s := countSubst slot l s
  match l.findSome? (fun p => smGet? bad p.1) with
  | some st => failReq r.rid st s
  | none =>
    let p := poolAll t (fieldLE r.body 2 1 == 1) got bags
    let s := tabBump slot 8 p.2.1 (tabBump slot 6 p.1 s)
    let body := leBytes 4 (ofClass l 1) ++ leBytes 4 (ofClass l 2) ++ leBytes 4 (ofClass l 3) ++ leBytes 4 p.1
      ++ leBytes 4 p.2.1 ++ zeros 12 ++ p.2.2.2
    finishReq r.rid 0 p.2.2.1 body (addCause r.rid (nowCause s) s)

/-- A gather batch done: each distinct row read once, every envelope answered. -/
def gatherDone (slot : Nat) (t : Tab) (b : Batch) (s : State) : State :=
  let w : Who := ⟨b.rids.headD 0 % 2 ^ 32, some (tbTenant t)⟩
  let r := b.rows.foldl (fun (a : SMap Bytes × SMap Nat × State) row =>
    match readRow w slot row 0 (rowBytes t) a.2.2 with
    | (0, x, s) => (smPut a.1 row x, a.2.1, s)
    | (st, _, s) => (a.1, smPut a.2.1 row st, s)) (([], [], s) : SMap Bytes × SMap Nat × State)
  let s := dropBatch slot b (bump (ent 0xC060 4) r.2.2)
  moveTab slot (foldS (batchReqs s b) (finishGather slot t r.1 r.2.1) s)

/-! ### Scatter-adds (R198 to R200) -/

/-- Exact sum of a bf16 element and an fp32 add, rounded once to bf16 (R199, R65). -/
def bfSum (old x : Nat) : Nat :=
  let z : FSum := ⟨0, false, false, false, false, true⟩
  let a := (z.add (fpOf fmtBf old)).add (fpOf fmt32 x)
  if a.nan || (a.posInf && a.negInf) then 0x7FC0
  else if a.posInf then fpInf fmtBf false
  else if a.negInf then fpInf fmtBf true
  else (roundScaled fmtBf .rne 300 a.allNeg0 a.sum).1

/-- One element after an add at its site. -/
def siteSum (t : Tab) (old x : Nat) : Nat :=
  if tbFormat t = 0 then f32Add old x else if tbFormat t = 1 then bfSum old x else (old + x) % 2 ^ 32

/-- Line `k` of a row after an add. -/
def lineAfter (t : Tab) (old : Bytes) (vals : List Nat) (k : Nat) : Bytes :=
  let n := 64 / tbSize t
  (upFrom 0 n).flatMap (fun i =>
    let o := fieldLE old (i * tbSize t) (tbSize t)
    leBytes (tbSize t) (match vals[k * n + i]? with
      | some x => siteSum t o x
      | none => o))

/-- Adds that could reach their site next: batch and add number. -/
def addsReady (t : Tab) : List (Batch × Nat) :=
  (t.batches.filter (fun b => b.kind == 2 && b.started)).flatMap (fun b =>
    ((numbered b.adds).filter (fun p => rowFree t b p.2.row)).map (fun p => (b, p.1)))

/-- One line of an add applied whole (R199), or not at all: then the batch ends (R205). -/
def applyLine (slot : Nat) (t : Tab) (b : Batch) (i : Nat) (s : State) : State :=
  match b.adds[i]? with
  | none => s
  | some a =>
    let k := a.done.length
    let w : Who := ⟨b.rids.headD 0 % 2 ^ 32, some (tbTenant t)⟩
    match readRow w slot a.row (64 * k) 64 s with
    | (0, old, s) =>
      (match writeRow w true slot a.row (64 * k) (lineAfter t old a.vals k) s with
      | (0, s) =>
        let a := { a with done := a.done ++ [k] }
        let l := if tbStride t / 64 ≤ k + 1 then b.adds.eraseIdx i else b.adds.set i a
        bump (ent 0xC060 6) (onBatch slot b (fun b => { b with adds := l }) s)
      | (st, s) => failBatch slot st b s)
    | (st, _, s) => failBatch slot st b s

/-- Receipt of one envelope of a scatter-add batch. -/
def finishScatter (t : Tab) (r : Req) (s : State) : State :=
  let l := scatterItems t r.body
  let cs := l.map (fun i => i.1)
  let body := leBytes 4 (ofClass cs 1) ++ leBytes 4 (ofClass cs 2) ++ leBytes 4 (ofClass cs 3)
    ++ leBytes 4 (l.filter (fun i => dropped t i.1.2)).length ++ leBytes 4 (satItems t l) ++ zeros 12
  let cause := nowCause s ||| (if tbFormat t = 2 then 0 else cORDER)
  finishReq r.rid 0 l.length body (addCause r.rid cause s)

/-! ### The hot store (R202 to R204) -/

/-- References to a row in the window of its table. -/
def refCount (t : Tab) (row : Nat) : Nat := (t.refs.map (fun m => smGetD m row 0)).foldl (fun a b => a + b) 0

/-- An admitted envelope of the table requests STRICT (R204). -/
def strictOn (s : State) (t : Tab) : Bool :=
  s.hxt.reqs.any (fun r => r.tenant == tbTenant t && r.obj == tbNum t && (r.type == 0x0304 || r.type == 0x0305)
    && r.cls == 0 && r.st != .waiting)

/-- The present cycle is a round boundary. -/
def atRound (s : State) : Bool := s.clk.counting && sincePost s % (roundFrames s * frameCycles) == 0

/-- Moves and returns of a table may start now. -/
def mayMove (s : State) (t : Tab) : Bool := !strictOn s t || atRound s

/-- Rows whose count makes them candidates: count, slot, row. -/
def candidates (s : State) : List (Nat × Nat × Nat) :=
  let thr := dirNum s (ent 0xC060 2)
  (s.path.tabs.filter (fun t => tbHot t && !t.broken)).flatMap (fun t =>
    ((((t.refs.flatMap (fun m => m.map (fun p => p.1))).foldl insNat []).filter (fun r =>
      (hotOf t r).isNone && !t.lost.contains r && decide (thr ≤ refCount t r))).map (fun r => (refCount t r, t.slot, r))))

/-- `a` moves before `b`: greater count, then lower slot, then lower row. -/
def movesBefore (a b : Nat × Nat × Nat) : Bool :=
  decide (b.1 < a.1) || (a.1 == b.1 && (decide (a.2.1 < b.2.1) || (a.2.1 == b.2.1 && decide (a.2.2 < b.2.2))))

/-- Ranges of the hot store taken in a cluster. -/
def hotTaken (s : State) (c : Nat) : List (Nat × Nat) :=
  s.path.tabs.flatMap (fun t => (t.hot.filter (fun h => h.cluster == c)).map (fun h => (h.addr % 0x1000000, tbStride t)))

/-- Lowest free offset for `n` bytes in a cluster's part of the hot store. -/
def hotOff (s : State) (c n : Nat) : Option Nat :=
  let taken := hotTaken s c
  let cap := s.path.hotBytes / max 1 (nClusters s)
  ((0 :: taken.map (fun p => p.1 + p.2)).foldl insNat []).find? (fun o =>
    decide (o + n ≤ cap) && taken.all (fun p => decide (o + n ≤ p.1) || decide (p.1 + p.2 ≤ o)))

/-- Places for a row of `n` bytes: cluster and offset. -/
def hotPlaces (s : State) (n : Nat) : List (Nat × Nat) :=
  (upFrom 0 (nClusters s)).filterMap (fun c => (hotOff s c n).map (fun o => (c, o)))

/-- The forwarded row with the lowest count: count, slot, row. -/
def coldest (s : State) : Option (Nat × Nat × Nat) :=
  (s.path.tabs.flatMap (fun t => (t.hot.filter (fun h => h.st == .forwarded)).map (fun h => (refCount t h.row, t.slot, h.row)))).foldl
    (fun a x => match a with
      | none => some x
      | some y => if movesBefore y x then some x else some y) none

/-- A hot entry's state changed. -/
def setHot (slot row : Nat) (st : HotSt) (s : State) : State :=
  showHot (onTab slot (fun t => { t with hot := updFirst (fun h => h.row == row) (fun h => { h with st := st }) t.hot }) s)

/-- A candidate moves, or displaces the coldest row of a full store (R202). -/
def hotMove (slot row : Nat) (t : Tab) (s : State) : State :=
  match hotPlaces s (tbStride t) with
  | [] => match coldest s with
    | some c => if c.1 < refCount t row ∧ (tabAt s c.2.1).all (mayMove s) then setHot c.2.1 c.2.2 .returning s else s
    | none => s
  | l =>
    let d := draw s
    let p := l.getD (Config.choose d.1 l.length % l.length) (0, 0)
    onTab slot (fun t => { t with hot := t.hot ++ [⟨row, .moving, p.1, 0x30000000000 + p.1 * 0x1000000 + p.2⟩] }) d.2

/-- An add of a row has been applied in part: it completes before the row leaves its site (Table 8-5). -/
def partAdd (t : Tab) (row : Nat) : Bool := t.batches.any (fun b => b.adds.any (fun a => a.row == row && !a.done.isEmpty))

/-- Losses of banks under tables and sessions between two states (R183, R205). -/
def banksUnder (k : Nat) (before after : State) (base len : Nat) : Bool :=
  let out := (seqr after k).out && !(seqr before k).out
  out || (newBanksOut k before after).any (fun b =>
    decide (0x100000 ≤ len) || (upFrom (base / 1024) (ceilDiv len 1024 + 1)).any (fun r => decide (r * 1024 < base + len) && r % 1024 == b))

/-- Sessions and tables whose records lay in banks of stack `k` that have just gone out are broken. -/
def pathLosses (k : Nat) (before after : State) : State :=
  let s := foldS (after.path.ctx.filter (fun x =>
    banksUnder k before after x.base (blocksLen x.prof.par (t1Spans x.cap x.spilled) + scalesLen x.prof.par (t1Spans x.cap x.spilled))))
    (fun x => breakCtx x.handle 0x41) after
  foldS (after.path.tabs.filter (fun t => banksUnder k before after (tbArea t) (tabLen (tbRows t) (tbStride t)))) (fun t => breakTab t.slot) s

end Sys2Proof.Machine
end

