-- ==== Sys2Proof/Machine/Embedding.lean ====
section
/-! DEFINITION. Embedding: the commands of embedding tables (chapter 8). -/
namespace Sys2Proof.Machine

/-- Lowest free slot of a table (R186). -/
def freeTabSlot (s : State) : Option Nat := (upFrom 0 64).find? (fun k => (tabAt s k).isNone)

/-- A table entered: its rows zero and sealed, its slot's counters at their start. -/
def enterTab (r : Req) (slot area len : Nat) (s : State) : State :=
  let b := r.body
  let d := tabDesc s r.tenant r.obj area (fieldLE b 0 8) (fieldLE b 8 2) (fieldLE b 10 1) (fieldLE b 11 1) (fieldLE b 12 1) (fieldLE b 13 1)
  let s := foldS (stacksIn s) (fun k => zeroRange (k * 0x1000000000 + area) len) s
  let s := foldS [2, 3, 4, 5, 6, 7, 8] (fun i => dirSet (ent (0xC0C0 + slot) i) 0) s
  let s := dirPut (ent (0xC0C0 + slot) 1) (.blob (d.flatMap (leBytes 8))) s
  { s with path := { s.path with tabs := s.path.tabs ++ [⟨slot, d, false, [], [], [], []⟩] } }

/-- EMB_TABLE_CREATE (R186, R325, R369). -/
def createTable (r : Req) (s : State) : State :=
  let b := r.body
  let t := r.tenant
  let len := tabLen (fieldLE b 0 8) (strideOf (fieldLE b 8 2) (if fieldLE b 10 1 = 1 then 2 else 4))
  if (tab? s t r.obj).isSome then badReq r.rid 0xFFFF s
  else if dirNum s (ent (0x3100 + t) 0xA) ≤ (s.path.tabs.filter (fun x => tbTenant x == t)).length || overT1 s t len then
    failReq r.rid 0x50 s
  else match freeTabSlot s with
  | none => failReq r.rid 0x51 s
  | some k =>
    if !ownRole s roleTables then failReq r.rid 0x51 s
    else match placeT1 len 4096 t 2 k s with
    | none => failReq r.rid 0x51 (bump (ent 0x2010 0xF) s)
    | some (a, s) => endReq r.rid 0 1 0 (leBytes 1 k ++ zeros 7) (enterTab r k a len s)

/-- EMB_TABLE_CREATE. -/
def execEmbTableCreate (rid : Nat) (s : State) : Out := .next (onAdmitted rid 0x0301 createTable s)

/-- A request for a table the tenant holds, whole unless it is dropped (R186, R205). -/
def onTabReq (rid type : Nat) (f : Req → Tab → State → State) (s : State) : State :=
  onAdmitted rid type (fun r s =>
    match tab? s r.tenant r.obj with
    | none => failReq rid 0x13 s
    | some t => if t.broken && type != 0x0302 then moveTab t.slot (failReq rid 0x41 s) else f r t s) s

/-- A table dropped: what still runs on it ends with NO_SESSION. -/
def dropTable (r : Req) (t : Tab) (s : State) : State :=
  let s := foldS t.batches (failBatch t.slot 0x13) s
  let s := dirPut (ent (0xC0C0 + t.slot) 1) (catDefault (ent (0xC0C0 + t.slot) 1)) (unplace 2 t.slot s)
  let s := { s with path := { s.path with tabs := s.path.tabs.filter (fun x => x.slot != t.slot) } }
  endReq r.rid 0 0 0 [] (showHot s)

/-- EMB_TABLE_DROP. -/
def execEmbTableDrop (rid : Nat) (s : State) : Out := .next (onTabReq rid 0x0302 dropTable s)

/-- An envelope of a round batch has run; its batch begins with the last one (R191). -/
def joinBatch (r : Req) (t : Tab) (s : State) : State :=
  moveTab t.slot (onReq r.rid (fun r => { r with st := .executing }) s)

/-- EMB_WRITE. -/
def execEmbWrite (rid : Nat) (s : State) : Out := .next (onTabReq rid 0x0303 joinBatch s)

/-- EMB_GATHER. -/
def execEmbGather (rid : Nat) (s : State) : Out := .next (onTabReq rid 0x0304 joinBatch s)

/-- EMB_SCATTER_ADD. -/
def execEmbScatterAdd (rid : Nat) (s : State) : Out := .next (onTabReq rid 0x0305 joinBatch s)

/-- GATHER_BATCH_DONE: the oldest gather batch whose rows are all free to be read (R192, R196). -/
def execGatherBatchDone (slot : Nat) (s : State) : Out :=
  .next (match tabAt s slot with
    | none => s
    | some t => match t.batches.find? (fun b => b.kind == 0 && b.started && b.rows.all (rowFree t b)) with
      | some b => gatherDone slot t b s
      | none => s)

/-- LINE_ADD (R199): one line of an add; the order of arrival is left free. -/
def execLineAdd (slot : Nat) (s : State) : Out :=
  .next (match tabAt s slot with
    | none => s
    | some t =>
      let l := addsReady t
      let d := draw s
      match l[Config.choose d.1 l.length % max 1 l.length]? with
      | some p => moveTab slot (applyLine slot t p.1 p.2 d.2)
      | none => s)

/-- SCATTER_BATCH_DONE (R200). -/
def execScatterBatchDone (slot : Nat) (s : State) : Out :=
  .next (match tabAt s slot with
    | none => s
    | some t => match t.batches.find? (fun b => b.kind == 2 && b.started && b.adds.isEmpty) with
      | some b => moveTab slot (foldS (batchReqs s b) (finishScatter t) (dropBatch slot b (bump (ent 0xC060 5) s)))
      | none => s)

/-- ROW_MOVE (R202, R204): the foremost candidate starts to move while fewer than 64 do. -/
def execRowMove (slot row : Nat) (s : State) : Out :=
  .next (match tabAt s slot with
    | none => s
    | some t =>
      let cs := candidates s
      let me := (refCount t row, slot, row)
      let moving := (s.path.tabs.flatMap (fun t => t.hot.filter (fun h => h.st == .moving))).length
      if s.path.hotBytes ≠ 0 && cs.contains me && cs.all (fun c => !movesBefore c me) && decide (moving < 64) && mayMove s t then
        hotMove slot row t s
      else s)

/-- MOVE_DONE (R203): the copy is made once the adds issued to the stack are complete. -/
def execMoveDone (slot row : Nat) (s : State) : Out :=
  .next (match tabAt s slot with
    | none => s
    | some t => match hotOf t row with
      | none => s
      | some h =>
        if h.st != .moving || partAdd t row then s
        else
          let a := tabRow t row
          let w : Who := ⟨0, some (tbTenant t)⟩
          let b := fixedRead s a (tbStride t)
          match (if bankUp s a then demandRead w a (tbStride t) s else (0x41, s)) with
          | (0, s) => moveTab slot (setHot slot row .forwarded (bump (ent 0xC060 7) (demandWrite w false h.addr b s).2))
          | (_, s) => moveTab slot (onTab slot (fun t => { t with hot := t.hot.filter (fun x => x.row != row) }) s))

/-- ROW_RETURN (R202, R204). -/
def execRowReturn (slot row : Nat) (s : State) : Out :=
  .next (match tabAt s slot with
    | none => s
    | some t => match hotOf t row with
      | none => s
      | some h =>
        if h.st == .forwarded && decide (4 * refCount t row < dirNum s (ent 0xC060 2)) && mayMove s t then
          setHot slot row .returning s
        else s)

/-- RETURN_DONE (R203, R205): the copy is written back once the adds issued to the hot store are complete. -/
def execReturnDone (slot row : Nat) (s : State) : Out :=
  .next (match tabAt s slot with
    | none => s
    | some t => match hotOf t row with
      | none => s
      | some h =>
        if h.st != .returning || partAdd t row then s
        else
          let w : Who := ⟨0, some (tbTenant t)⟩
          let b := fixedRead s h.addr (tbStride t)
          match demandRead w h.addr (tbStride t) s with
          | (0, s) =>
            let s := onTab slot (fun t => { t with hot := t.hot.filter (fun x => x.row != row) }) s
            moveTab slot (showHot (bump (ent 0xC060 8) (writeRow w false slot row 0 b s).2))
          | (_, s) => moveTab slot (hotLost slot row s))

end Sys2Proof.Machine
end

