-- ==== Sys2Proof/Machine/Settle.lean ====
section
/-! DEFINITION. Settle: what the built-in paths do with parcels and circulars that have finished, and the commands that
finish them (R132, R134, R151, R155, R183, R205, R216, R220, R235, R243). -/
namespace Sys2Proof.Machine

/-! ### Parcels of the built-in paths -/

/-- A parcel of a finalist's vector has finished (R151). -/
def settleFinalist (p : Part) (pid st : Nat) (b : Bytes) (s : State) : State :=
  let k := ((p.tiles.find? (fun x => x / 2 ^ 24 == pid)).getD 0) % 2 ^ 24
  onPart p.id (fun q => { q with
    waits := delNat q.waits pid
    got := if st = 0 then smPut q.got k b else q.got
    status := if q.status = 0 then st else q.status }) s

/-- A spilled parcel that an attend reads has finished (R175, R183). -/
def settleSpilled (p : Part) (pid st : Nat) (b : Bytes) (s : State) : State :=
  let n := p.tiles.getD (pid - p.found.headD 0) 0
  onPart p.id (fun q => { q with
    waits := delNat q.waits pid
    got := if st = 0 then smPut q.got n b else q.got
    status := if q.status = 0 then st else q.status }) s

/-- A parcel of a vector that an update writes has finished: the replica's steps are done with the last (R155). -/
def settleVector (p : Part) (pid st : Nat) (s : State) : State :=
  if st ≠ 0 then ownStaged { p with waits := [] } st (onPart p.id (fun q => { q with waits := [] }) (unstage p s))
  else
    let p := { p with waits := delNat p.waits pid }
    let s := onPart p.id (fun q => { q with waits := p.waits }) s
    if p.waits.isEmpty then ownStaged p 0 s else s

/-- One finished parcel given to the part that waits for it. -/
def settleOne (d : Nat × Nat × Nat × Bytes) (s : State) : State :=
  match part? s d.1 with
  | none => s
  | some p =>
    if !p.waits.contains d.2.1 then s
    else if p.kind = 1 then settleFinalist p d.2.1 d.2.2.1 d.2.2.2 s
    else if p.kind = 2 then settleSpilled p d.2.1 d.2.2.1 d.2.2.2 s
    else settleVector p d.2.1 d.2.2.1 s

/-- Every finished parcel settled, and the read paths moved. -/
def settlePaths (s : State) : State :=
  let l := s.par.done
  if l.isEmpty then s else movePaths (foldS l settleOne { s with par := { s.par with done := [] } })

/-- PARCEL_DELIVERED (R216, R217, R221). -/
def execParcelDelivered (pid : Nat) (s : State) : Out := .next (settlePaths (deliverParcel pid s))

/-- TIER_TIMEOUT (R220, R221). -/
def execTierTimeout (pid : Nat) (s : State) : Out := .next (settlePaths (tierTimeout pid s))

/-- FLASH_WRITE_COMPLETION (R235). -/
def execFlashWriteCompletion (pid : Nat) (s : State) : Out := .next (settlePaths (flashWriteDone pid s))

/-- FLASH_READ_DONE (R243). -/
def execFlashReadDone (pid : Nat) (r : ReadOutcome) (s : State) : Out := .next (settlePaths (flashReadDone pid r s))

/-! ### Circulars and passes -/

/-- A stack has completed the pass of a built-in path; with the last one an attend's pass lets its heads go on. -/
def passCompleted (k : Nat) (p : Pass) (s : State) : State :=
  let s := passStackDone k s
  movePaths (if p.kind = 2 ∧ s.path.pass.isNone then attendPassDone p s else s)

/-- COMPLETION_RECORD (R132): of the pass that runs in the stacks, or of the stack's circular. -/
def execCompletionRecord (k : Nat) (s : State) : Out :=
  .next (match s.path.pass with
    | some p => if p.left.contains k then passCompleted k p s else s
    | none => let t := completionRecord k s; movePaths (moveTabs (pathLosses k s t)))

/-- REFRESH_WATCHDOG (Table 5-12): the stack goes out, with what it held (R183, R205). -/
def execRefreshWatchdog (k : Nat) (s : State) : Out := .next (movePaths (pathLosses k s (refreshWatchdog k s)))

end Sys2Proof.Machine
end

