-- ==== Sys2Proof/Machine/Kernel.lean ====
section
/-! DEFINITION. Kernel: KERNEL_RUN on the lent threads (R56 to R58, R415). -/
namespace Sys2Proof.Machine

/-! ### Placement of threads (R57, R415) -/

/-- Enabled cores of a core's die. -/
def dieCores (s : State) (m : Nat) : Nat × Nat :=
  let h := nCores s / 2
  if m < h then (0, h) else (h, nCores s - h)

/-- The core that runs a named core's work: itself, or the next core in service of its die (R415). -/
def coreFor (s : State) (m : Nat) : Nat :=
  let d := dieCores s m
  let ring := (upFrom 0 d.2).map (fun i => d.1 + (m - d.1 + i) % max 1 d.2)
  (ring.find? (fun c => !s.sea.coresOut.contains c)).getD m

/-- Core of each thread index of a kernel. -/
def kernelPlaces (s : State) (b : Bytes) : List Nat :=
  let cs := kernelCores b
  (upFrom 0 (fieldLE b 16 2)).map (fun i => coreFor s (cs.getD (i % max 1 cs.length) 0))

/-- Lent threads of a core that run nothing. -/
def lentFree (s : State) (m : Nat) : List Nat :=
  (upFrom (16 * m + (16 - s.sea.kernelK)) s.sea.kernelK).filter (fun th =>
    let t := thread s th
    t.run == .off && !t.kern)

/-- Every core of a kernel has the threads it needs. -/
def kernelFits (s : State) (places : List Nat) : Bool :=
  places.all (fun m => decide ((places.filter (fun c => c == m)).length ≤ (lentFree s m).length))

/-- Context of a kernel thread as it starts (R56): XS, FS and VS initial, a0 to a2 set, lists and pigeonhole empty. -/
def kernelThread (r : Req) (i n : Nat) : Thread :=
  let t : Thread := { Thread.init with
    run := .running, user := true, kern := true, tenant := r.tenant, req := r.rid, pc := fieldLE r.body 0 8 }
  setCsr 0x300 0xA200 (setX 10 (BitVec.ofNat 64 (fieldLE r.body 8 8))
    (setX 11 (BitVec.ofNat 64 i) (setX 12 (BitVec.ofNat 64 n) t)))

/-- One thread of a kernel starts on a free lent thread of its core; a gated cluster wakes for it. -/
def startThread (r : Req) (n : Nat) (p : Nat × Nat) (s : State) : State :=
  match lentFree s p.2 with
  | [] => s
  | th :: _ =>
    let c := clusterOf th
    startWake c (ungate c (onThread th (fun _ => kernelThread r p.1 n) s))

/-- A kernel that waits for its threads starts if its cores have them (R56). -/
def startKernel (rid : Nat) (s : State) : State :=
  match req? s rid with
  | none => s
  | some r =>
    let places := kernelPlaces s r.body
    if r.type = 0x0401 ∧ r.st = .executing ∧ r.stage = 1 ∧ kernelFits s places then
      let n := places.length
      foldS (numbered places) (startThread r n)
        (onReq rid (fun r => { r with stage := 2, threads := n, rounds := 0 }) s)
    else s

/-- Every kernel that waits is tried, oldest first. -/
def startKernels (s : State) : State := foldS (s.hxt.reqs.map (fun r => r.rid)) startKernel s

/-- One more round counted for every kernel that runs (R58). -/
def countRounds (s : State) : State :=
  { s with hxt := { s.hxt with reqs := s.hxt.reqs.map (fun r =>
      if r.type = 0x0401 ∧ r.stage = 2 then { r with rounds := r.rounds + 1 } else r) } }

/-- KERNEL_RUN (R56): the kernel waits for the next round boundary. -/
def execKernelRun (rid : Nat) (s : State) : Out :=
  .next (onAdmitted rid 0x0401 (fun _ s => onReq rid (fun r => { r with st := .executing, stage := 1 }) s) s)

/-- KERNEL_ROUND_LIMIT (R58): a kernel with threads left after its round limit ends with QUOTA. -/
def execKernelRoundLimit (rid : Nat) (s : State) : Out :=
  .next (match req? s rid with
    | none => s
    | some r =>
      let lim := min (fieldLE r.body 20 4) (dirNum s (ent (0x3500 + r.tenant) 2))
      if r.type = 0x0401 ∧ r.stage = 2 ∧ 0 < r.threads ∧ lim ≤ r.rounds then failReq rid 0x50 s else s)

end Sys2Proof.Machine
end

