-- ==== Sys2Proof/Machine/Power.lean ====
section
/-! DEFINITION. Power: power domains (R357 to R361, Table 15-7), the power cap and throttling (R366, R367). -/
namespace Sys2Proof.Machine

/-! ### Clusters -/

/-- A thread keeps its cluster's clock running: it can execute, or an access of it is outstanding. -/
def threadBusy (t : Thread) : Bool := t.run == .running || !t.remote.isEmpty

/-- Threads of a cluster that hold a context. -/
def clusterThreads (s : State) (c : Nat) : List Thread := (s.sea.threads.filter (fun p => p.1 / 256 == c)).map (fun p => p.2)

/-- CLOCK_GATE_ENTRY (Table 15-7): for 64 cycles every thread of the cluster has waited or has not started. -/
def execClockGateEntry (c : Nat) (s : State) : Out :=
  .next (if c < nClusters s ∧ clState s c = .run ∧ smGetD s.pwr.clLast c 0 + 64 ≤ s.clk.now
      ∧ !(clusterThreads s c).any threadBusy ∧ (itemsOf s c).isEmpty ∧ !clHolds s c then
    { s with pwr := { s.pwr with clusters := smPut s.pwr.clusters c (.clockGated s.clk.now) } }
  else s)

/-- The warm floor keeps a cluster out of POWER_GATED (R360). -/
def isWarm (s : State) (c : Nat) : Bool :=
  let f := s.pwr.floor
  let h := nClusters s / 2
  decide (c < ceilDiv f 2) || (decide (h ≤ c) && decide (c < h + f / 2))

/-- What keeps a cluster from power gating (Table 15-7): a hot row, a locked L2 way, a running kernel thread, a declared
stream. -/
def holdsPower (s : State) (c : Nat) : Bool :=
  s.path.tabs.any (fun t => t.hot.any (fun h => h.cluster == c)) || smGetD s.mem.ways c 0 != 0
    || (clusterThreads s c).any (fun t => t.kern) || s.sea.streams.any (fun p => p.1 / 64 == c && p.2.declared)

/-- POWER_GATE_ENTRY (R358, Table 15-7): a cluster clock-gated for `gate_frames` frames starts its entry. -/
def execPowerGateEntry (c : Nat) (s : State) : Out :=
  .next (match clState s c with
    | .clockGated since =>
      if since + dirNum s (ent 0x4010 2) * frameCycles ≤ s.clk.now ∧ !isWarm s c ∧ !holdsPower s c then
        { s with pwr := { s.pwr with clusters := smPut s.pwr.clusters c .gating } }
      else s
    | _ => s)

/-- Lines of a cluster written back and lost, with its instruction lines and automatic streams (R358). -/
def emptyCaches (c : Nat) (s : State) : State :=
  let s := foldS ((clusterLines s c).map (fun p => p.1)) (fun k s => dropLine k (writeBackLine ⟨0, none⟩ k s)) s
  { s with
    mem := { s.mem with iline := s.mem.iline.filter (fun p => p.1 / 2 ^ 34 / 16 != c) }
    sea := { s.sea with streams := s.sea.streams.filter (fun p => !(p.1 / 64 == c && !p.2.declared)) } }

/-- POWER_GATED_DONE (R358): the entry is complete; a wake that arrived during it starts at once. -/
def execPowerGatedDone (c : Nat) (s : State) : Out :=
  .next (if clState s c = .gating then
      let s := emptyCaches c s
      let wake := s.pwr.wakeWanted.contains c
      { s with pwr := { s.pwr with
          clusters := smPut s.pwr.clusters c (if wake then .waking else .powerGated)
          wakeWanted := delNat s.pwr.wakeWanted c } }
    else s)

/-! ### Dies and stacks -/

/-- Clusters of a compute die (R21). -/
def dieClusters (s : State) (d : Nat) : List Nat := (upFrom 0 (nClusters s)).filter (fun c => dieOfCluster s c == d)

/-- State of a stack's power domain. -/
def stState (s : State) (k : Nat) : StState := smGetD s.pwr.stPower k .active

/-- A die may stop: every cluster power-gated and every stack in self-refresh (Table 15-7). -/
def dieQuiet (s : State) (d : Nat) : Bool :=
  (dieClusters s d).all (fun c => clState s c == .powerGated) && (upFrom (8 * d) 8).all (fun k => stState s k == .selfRefresh)

/-- The idle time of a die starts when its last domain sleeps (Table 15-7). -/
def markDies (s : State) : State :=
  foldS [0, 1] (fun d s =>
    if dieQuiet s d then
      (if (smGet? s.pwr.dieIdle d).isSome then s
       else { s with pwr := { s.pwr with dieIdle := smPut s.pwr.dieIdle d s.clk.now } })
    else { s with pwr := { s.pwr with dieIdle := smDel s.pwr.dieIdle d } }) s

/-- DIE_STOP (R357, R360, Table 15-7): a die quiet for `die_stop_frames` frames, with no warm cluster, stops its clock. -/
def execDieStop (d : Nat) (s : State) : Out :=
  let s := markDies s
  .next (match smGet? s.pwr.dieIdle d with
    | some t =>
      if t + dirNum s (ent 0x4010 3) * frameCycles ≤ s.clk.now ∧ d < 2 ∧ !s.pwr.dieStopped.contains d
          ∧ !(dieClusters s d).any (isWarm s) then
        bump (ent 0x4010 9) { s with pwr := { s.pwr with dieStopped := insNat s.pwr.dieStopped d } }
      else s
    | none => s)

/-- Cycle of a stack's last access. -/
def stackLast (s : State) (k : Nat) : Nat := smGetD s.pwr.stLast k 0

/-- A stack runs no circular and no pass. -/
def stackIdle (s : State) (k : Nat) : Bool :=
  (seqr s k).phase == .idle && (seqr s k).loads.isEmpty && !s.path.pass.any (fun p => p.left.contains k)

/-- STACK_POWER_DOWN (Table 15-7): no access and no circular for 64 cycles. -/
def execStackPowerDown (k : Nat) (s : State) : Out :=
  .next (if k < 16 ∧ stState s k = .active ∧ stackLast s k + 64 ≤ s.clk.now ∧ stackIdle s k then
      { s with pwr := { s.pwr with stPower := smPut s.pwr.stPower k .powerDown } }
    else s)

/-- SELF_REFRESH_ENTRY (Table 15-7): no access for `self_refresh_us`. -/
def execSelfRefreshEntry (k : Nat) (s : State) : Out :=
  .next (if k < 16 ∧ stState s k = .powerDown ∧ stackLast s k + usCycles (dirNum s (ent 0x4010 4)) ≤ s.clk.now
      ∧ stackIdle s k then
      markDies { s with pwr := { s.pwr with stPower := smPut s.pwr.stPower k .selfRefresh } }
    else s)

/-- CHANNEL_GROUP_STANDBY (Table 15-7): no command on the group's channels for 1 ms. -/
def execChannelGroupStandby (g : Nat) (s : State) : Out :=
  .next (if g < 4 ∧ smGetD s.pwr.grLast g 0 + usCycles 1000 ≤ s.clk.now ∧ !s.pwr.groupsStandby.contains g then
      { s with pwr := { s.pwr with groupsStandby := insNat s.pwr.groupsStandby g } }
    else s)

/-- The controller leaves its boost, its letters read (R364). -/
def unboost (s : State) : State := retryKnocks { s with pwr := { s.pwr with boosted := false, mcBox := [] } }

/-- CONTROLLER_IDLE (R364): after `mc_idle_aon` AON cycles without work the controller leaves its boost; its letters have
been read. -/
def execControllerIdle (s : State) : Out :=
  .next (if s.pwr.boosted ∧ s.pwr.mcIdle + dirNum s (ent 0x4010 6) * 1000 ≤ s.clk.now then
      unboost s
    else s)

/-- Early wake of every sleeping domain (R361). -/
def wakeAll (s : State) : State :=
  let s := foldS (upFrom 0 (nClusters s)) startWake s
  let s := { s with pwr := { s.pwr with dieStopped := [], dieIdle := [] } }
  foldS ((upFrom 0 16).filter (fun k => stState s k == .selfRefresh)) touchStack s

/-! ### The power cap (R366, R367) -/

/-- Requests and parts under way are touched by throttled cores (R293). -/
def throttleWork (s : State) : State :=
  let ids := (s.hxt.reqs.filter (fun r => r.st == .executing || r.st == .admitted)).map (fun r => r.rid)
  foldS (ids ++ s.path.parts.map (fun p => p.id)) (fun i s => addCause i cTHROTTLE s) s

/-- Steps applied. -/
def steps (s : State) : Nat := dirNum s (ent 0x4020 4)

/-- The number of steps set; cores that run slower touch the work under way. -/
def setSteps (n : Nat) (s : State) : State :=
  let s := dirSet (ent 0x4020 4) n s
  whenS (n != 0) throttleWork s

/-- Temperatures are in tenths of a degree; entries 0 and 1 are the compute dies, 2 the I/O die, 3 to 18 the stacks
(R424): whether any is at its limit less `d` degrees (R366). -/
def tooHot (s : State) (d : Int) (temps : List Int) : Bool :=
  (numbered temps).any (fun p =>
    let lim : Int := (dirNum s (ent 0x4020 (if p.1 < 3 then 5 else 6)) : Nat)
    decide (10 * (lim - d) ≤ p.2))

/-- The controller's decision at the end of a tick: one step more, one less, or none (R366). -/
def capStep (draw : Nat) (temps : List Int) (s : State) : State :=
  let cap := s.pwr.cap
  let margin := dirNum s (ent 0x4020 3)
  let hot := tooHot s 0 temps
  let cool := !tooHot s 5 temps
  let low := decide (draw + margin < cap)
  let below := if low then s.pwr.below + 1 else 0
  let thermal := hot || (s.pwr.thermal && !cool)
  let s := { s with pwr := { s.pwr with below := below, thermal := thermal } }
  if cap < draw ∨ hot then setSteps (min 10 (steps s + 1)) s
  else if 4 ≤ below ∧ !thermal ∧ 0 < steps s then
    setSteps (steps s - 1) { s with pwr := { s.pwr with below := 0 } }
  else setSteps (steps s) s

/-- Sixteen ticks above the cap with all ten steps applied: cap_unmet and a CORRECTED record (R367). -/
def capUnmet (draw applied : Nat) (s : State) : State :=
  let overT := if s.pwr.cap < draw ∧ applied = 10 then s.pwr.overT + 1 else 0
  let s := { s with pwr := { s.pwr with overT := if overT = 16 then 0 else overT } }
  if overT = 16 then record 0x16 0 9 0 0 draw 0 none (dirSet (ent 0x4020 8) 1 s) else s

/-- The part of a management tick that holds the draw under the cap; a written cap governs from the next tick. -/
def powerTick (draw : Nat) (temps : List Int) (s : State) : State :=
  let applied := steps s
  let s := dirSet (ent 0x4020 2) (min 0xFFFF draw) s
  let s := whenS (decide (0 < applied)) (bump (ent 0x4020 7)) s
  let s := capUnmet draw applied (capStep draw temps s)
  { s with pwr := { s.pwr with cap := dirNum s (ent 0x4020 1), fast := false } }

/-- FAST_LIMITER (R367): above 1,300 W both compute dies slow to 1.2 GHz until the end of the tick. -/
def execFastLimiter (w : Nat) (s : State) : Out :=
  .next (if 1300 < w then bump (ent 0x4020 9) (throttleWork { s with pwr := { s.pwr with fast := true } }) else s)

end Sys2Proof.Machine
end

