-- ==== Sys2Proof/Machine/LinkOps.lean ====
section
/-! DEFINITION. LinkOps: link states, training outcomes, detours, the clock parent and replay (R255 to R260, R264 to R267,
R274, R282). -/
namespace Sys2Proof.Machine

/-! ### The node's view of its links -/

/-- A link error: unit class 4, the link as instance. -/
def linkErr (cls sev k detail : Nat) (s : State) : State := record cls sev 4 k 0 detail 0 none s

/-- The link's plan in the image in force. -/
def ownPlan (s : State) (k : Nat) : Option Nat := linkPlan s.fab.image (recPost s) k

/-- Neighbour that the plan gives a link. -/
def planPost (r : Nat) : Nat := bits r 11 0
/-- Generation that the plan gives a link. -/
def planGen (r : Nat) : Nat := bits r 13 12
/-- Lane mask that the plan gives a link. -/
def planLanes (r : Nat) : Nat := bits r 21 14

/-- A neighbour is held in service while some link planned to it carries traffic (R378, log 45). -/
def viewNode (post : Nat) (s : State) : State :=
  let l := (upFrom 0 36).filter (fun k => (ownPlan s k).any (fun r => planPost r == post))
  let up := l.any (carriesBe s)
  { s with cmp := { s.cmp with nodesOut := if up then delNat s.cmp.nodesOut post else insNat s.cmp.nodesOut post } }

/-- The view of the neighbour behind a link. -/
def viewLink (k : Nat) (s : State) : State := optS ((ownPlan s k).map planPost) viewNode s

/-- The link whose recovered clock the node follows. -/
def clockLink (s : State) : Option Nat :=
  if s.fab.parent = 0 then parentLink s.fab.image (recPost s) else standbyLink s.fab.image (recPost s)

/-- The node is syntonised: the link it follows has trained (R257, Table 21-12). -/
def isSyntonised (s : State) : Bool := (clockLink s).any (carriesBe s)

/-- The entries that report the clock parent follow it. -/
def showClock (s : State) : State :=
  let s := dirSet (ent 0x8020 6) ((clockLink s).getD 0xFF) s
  dirSet (ent 0x4040 3) (b01 (isSyntonised s)) s

/-- State of a link set in its object. -/
def setLinkState (k v : Nat) (s : State) : State := dirSet (linkObj k 1) v s

/-- Some fabric link serves as parent or standby again, or the last one is gone (R257). -/
def trackParent (s : State) : State :=
  let s := showClock s
  match clockLink s with
  | none => s
  | some _ =>
    if isSyntonised s then { s with fab := { s.fab with holdSince := none } }
    else if s.fab.holdSince.isNone ∧ s.clk.counting then { s with fab := { s.fab with holdSince := some s.clk.now } }
    else s

/-! ### Detours (R274) -/

/-- The link carries scheduled traffic. -/
def schedUp (s : State) (k : Nat) : Bool := linkState s k == 2 && !(linkSt s k).detoured

/-- Both ends of an in-service link are ready. -/
def bothReady (s : State) (k : Nat) : Bool := linkState s k == 2 && (linkSt s k).ready && (linkSt s k).peer

/-- Detour entries in use. -/
def detoursOn (s : State) : Nat :=
  (s.fab.entries.filter (fun e => ttKind e.1 == 2 && (linkSt s (ttDetour e.1)).detoured)).length

/-- At a round boundary the detours around links that left IN_SERVICE engage, and those of links whose two ends are
ready disengage. -/
def engageDetours (s : State) : State :=
  let step := fun (p : Nat × LinkSt) (s : State) =>
    if p.2.pending || p.2.detoured then
      (if bothReady s p.1 then onLink p.1 (fun x => { x with pending := false, detoured := false }) s
       else if linkState s p.1 = 2 ∧ !p.2.detoured then s
       else onLink p.1 (fun x => { x with pending := false, detoured := true }) s)
    else s
  let s := foldS s.fab.links step s
  dirSet (ent 0x8020 7) (min 0xFFFF (detoursOn s)) s

/-! ### Training (R258, R259) -/

/-- Links that the node has: all 36 begin to train. -/
def startTraining (s : State) : State :=
  foldS (upFrom 0 36) (fun k s => setLinkState k 1 (onLink k (fun x =>
    { LinkSt.init with downs := x.downs, detoured := x.detoured, pending := x.pending }) s)) s

/-- A link leaves service, or cannot enter it: DEGRADED. -/
def degradeLink (k st : Nat) (s : State) : State :=
  let s := onLink k (fun x => { x with ready := false, pending := true }) (setLinkState k st s)
  trackParent (viewLink k (linkErr 0x0F 2 k st s))

/-- An attempt has failed; after three in a row the link is out of service. -/
def failAttempt (k : Nat) (s : State) : State :=
  let n := (linkSt s k).attempts + 1
  let s := onLink k (fun x => { x with attempts := n }) s
  if 3 ≤ n then degradeLink k 6 s else s

/-- The lanes that carry a link on which the lanes of `mask` passed; none when it cannot run. -/
def lanesUsed (mask : Nat) : Option Nat :=
  let l := setBits 8 mask
  if l.length = 8 then some 0xFF
  else if mask % 16 = 15 ∨ mask / 16 % 16 = 15 then some ((l.take 4).foldl (fun a i => a + 2 ^ i) 0)
  else none

/-- Generation a link runs at: the lowest of both offers, the cap and the plan. -/
def agreedGen (s : State) (k offered : Nat) : Nat :=
  min (min offered (dirNum s (ent 0x8010 1))) ((ownPlan s k).elim 3 planGen)

/-- State of Table 11-3 that a trained link enters. -/
def trainedState (s : State) (k : Nat) (r : TrainResult) (lanes : Nat) : Nat :=
  match ownPlan s k with
  | none => 5
  | some p =>
    if r.neighbour ≠ planPost p ∨ r.imageId ≠ imgWord s.fab.image 4 then 5
    else if agreedGen s k r.generation < planGen p ∨ popcount 8 lanes < popcount 8 (planLanes p) then 3
    else if 64 * imgHop s.fab.image < r.delay + 11 * 32 then 4
    else 2

/-- A training attempt that finished. -/
def finishTraining (k : Nat) (r : TrainResult) (lanes : Nat) (s : State) : State :=
  let st := trainedState s k r lanes
  let s := dirSet (linkObj k 2) (agreedGen s k r.generation) s
  let s := dirSet (linkObj k 3) lanes s
  let s := dirSet (linkObj k 4) (r.neighbour % 65536) s
  let s := dirSet (linkObj k 5) (min 0xFFFF r.delay) s
  let s := dirSet (linkObj k 6) (min 0xFFFF r.eye) s
  let s := onDieLog 2 (fun l => { l with eyes := (k, r.eye) :: l.eyes }) s
  let s := onLink k (fun x => { x with attempts := 0, credit0 := 256, credit1 := 256 }) s
  if st = 2 then
    let s := onLink k (fun x => { x with ready := true, pending := true }) (setLinkState k 2 s)
    flushHeld (trackParent (viewLink k s))
  else flushHeld (degradeLink k st s)

/-! ### Faults of links (R282) -/

/-- A link goes down. -/
def linkFalls (k : Nat) (s : State) : State :=
  let downs := s.clk.tick :: (linkSt s k).downs
  let s := bump (linkObj k 9) (onLink k (fun _ => { LinkSt.init with downs := downs, detoured := (linkSt s k).detoured }) s)
  degradeLink k 6 s

/-- The latest three downs lie within 1,024 ticks: the link stays OUT until the next partition boot. -/
def staysOut (s : State) (k : Nat) : Bool :=
  match (linkSt s k).downs with
  | a :: _ :: c :: _ => decide (a < c + 1024)
  | _ => false

/-! ### Slot names and replay (R264 to R267) -/

/-- Slot of a slot name. -/
def nameSlot (n : Nat) : Nat := bits n 10 0
/-- Frames since the flit of a slot name was sent. -/
def nameAge (s : State) (n : Nat) : Nat := (frameNo s + 16 - bits n 14 11) % 16

/-- Slot names of a word of the control flit, the valid ones. -/
def slotNames (l : List Nat) : List Nat := l.filter (fun n => bit n 15)

/-- A slot name `h` slots later. -/
def laterName (h n : Nat) : Nat :=
  let p := bits n 14 11 * 2048 + nameSlot n + h
  2 ^ 15 + fld (p / 2048 % 16) 11 + p % 2048

/-- Requests for replays entered; one for a flit past the retention time is named lost (R265, R267). -/
def askReplay (k n : Nat) (s : State) : State :=
  if 2 < nameAge s n then onLink k (fun x => { x with toLose := x.toLose ++ [n] }) (bump (ent 0x8010 6) s)
  else onLink k (fun x => { x with asked := x.asked ++ [n] }) s

/-- The next flit to be replayed is announced. -/
def announceNext (k : Nat) (s : State) : State :=
  let x := linkSt s k
  match x.announced, x.asked with
  | none, n :: rest => onLink k (fun x => { x with announced := some n, asked := rest }) s
  | _, _ => s

/-- A flit named lost: passed on as lost where the node forwards it; where the node consumes it, the request that owns its
message ends with LINK_ERROR. Which request that is the flit's name does not say: the choice is free (R267, log 46). -/
def flitLost (k n : Nat) (s : State) : State :=
  let s := bump (ent 0x8010 6) s
  let hit := fun (e : Nat × Nat) => ttIn e.1 == k && ttSlot e.1 == nameSlot n
  match s.fab.entries.find? hit with
  | some e =>
    if ttOut e.1 < 36 then
      let name := laterName (imgHop s.fab.image) n
      onLink (ttOut e.1) (fun x => { x with toLose := x.toLose ++ [name] }) s
    else
      let rs := (s.hxt.reqs.filter (fun r => r.st == .executing)).map (fun r => r.rid)
      let d := draw s
      let s := record 0x0E 1 4 k (n % 65536) 0 0x42 none d.2
      let i := Config.choose d.1 (rs.length + 1) % (rs.length + 1)
      optS (rs[i]?) (fun rid => failReq rid 0x42) s
  | none => s

end Sys2Proof.Machine
end

