-- ==== Sys2Proof/Machine/Fabric.lean ====
section
/-! DEFINITION. Fabric: the commands of the fabric (chapter 11): messages of the timetable and of the best-effort class,
control flits and replays, link training and faults. -/
namespace Sys2Proof.Machine

/-! ### Reading headers (R281) -/

/-- The node takes part in the fabric: ready or serving. -/
def fabricOn (s : State) : Bool := s.phase == .serving || s.phase == .ready || s.phase == .warmReady

/-- What a header read leads to: 0 taken, 1 dropped for a complement, 2 dropped for a stale epoch. -/
def headerVerdict (s : State) (h : Hdr) : Nat :=
  if h.epochC ≠ compl 32 h.epoch ∨ h.tenantC ≠ compl 6 h.tenant then 1 else if h.epoch ≠ epoch s then 2 else 0

/-- A header dropped and counted; a complement that disagrees is recorded CONTAINED (R281, R413). -/
def dropHeader (m : FabMsg) (v : Nat) (s : State) : State :=
  if v = 2 then bump (ent 0x8010 2) s
  else linkErr 0x11 1 m.link 0 (record 3 1 4 m.link 0 0 0 none (bump (ent 0x8010 3) s))

/-- A scheduled message delivered here: its header is checked, and it must be for this node. -/
def onSched (m : FabMsg) (f : Hdr → State → State) (s : State) : State :=
  if !fabricOn s then s
  else
    let h := msgHdr m
    let v := headerVerdict s h
    if v ≠ 0 then dropHeader m v s
    else if h.dest ≠ recPost s then bump (ent 0x8010 3) s
    else f h s

/-- A best-effort message of a kind: checked, passed on when it is for another node (R279). -/
def onBest (kind : Nat) (m : FabMsg) (f : Hdr → State → State) (s : State) : State :=
  let h := msgHdr m
  if !fabricOn s || h.kind != kind then s
  else
    let v := headerVerdict s h
    if v ≠ 0 then dropHeader m v (whenS (kind == 7) (bump (ent 0xC090 6)) s)
    else if h.dest ≠ recPost s then bePut m s
    else f h s

/-- As `onSched`, once every piece of the message is here: inline bytes, body, cause. -/
def onWhole (m : FabMsg) (f : Hdr → Bytes → Bytes → Nat → State → State) (s : State) : State :=
  onSched m (fun h s => match takePiece m s with
    | (some (i, b, c), s) => f h i b c s
    | (none, s) => s) s

/-! ### Fields of the address word (log 40) -/

/-- Function code. -/
def adOp (a : Nat) : Nat := bits a 63 56
/-- Method or mode. -/
def adMethod (a : Nat) : Nat := bits a 55 54
/-- Frame of admission. -/
def adFrame (a : Nat) : Nat := bits a 51 36
/-- Shard, item or layer. -/
def adShard (a : Nat) : Nat := bits a 35 20
/-- Corpus. -/
def adObj (a : Nat) : Nat := bits a 19 0

/-- Strict points of a part from a message's point field. -/
def partPoints (s : State) (a p : Nat) : List Nat := if p = 0 then [] else [pointAt s (adFrame a) p]

/-! ### FANOUT (R146, R182, R380) -/

/-- A failed part's answer on its way to its gateway. -/
def answerFailed (stage gate tag who st cause : Nat) (s : State) : State :=
  treeInput gate tag stage 0 { emptyT stage cause (gradeBit s) 0 false false with failed := [(who, st)] } s

/-- A shard of a search reaches a node that should serve it. -/
def fanShard (h : Hdr) (inl data : Bytes) (cause : Nat) (s : State) : State :=
  let a := h.address
  let c := adObj a
  let i := adShard a
  let refuse := fun st s => answerFailed 0 h.source h.tag i st cause s
  if isResetting s h.tenant then refuse 0x32 s
  else match corpus? s h.tenant c with
  | none => refuse 0x13 s
  | some x =>
    if !x.shards.contains i then refuse 0x31 (disputeCorpus h.tenant c s)
    else
      let pts := partPoints s a (fieldLE inl 24 4)
      let q := slice data 0 64 ++ slice inl 0 16 ++ slice data 64 16
      let p := { mkPart 0 h.source h.tag h.tenant c i with par := slice inl 16 8 ++ leBytes 1 (adMethod a), query := q, points := pts, cause := cause ||| nowCause s }
      movePaths (addSearchPart p s)

/-- FANOUT (R272): a shard of a search, or a member's part of an attend. -/
def takeFanout (m : FabMsg) (s : State) : State :=
  onWhole m (fun h inl data cause s =>
    let a := h.address
    match adOp a with
    | 0x10 => fanShard h inl data cause s
    | 0x20 =>
      let p := fieldLE inl 24 4
      memberAttend h.source h.tenant h.tag (cause ||| nowCause s) (adMethod a) (adShard a)
        (if p = 0 then 0 else pointAt s (adFrame a) p) inl data s
    | _ => s) s

/-- FANOUT. -/
def execFanout (m : FabMsg) (s : State) : Out := .next (takeFanout m s)

/-! ### TREE (R273, R152, R153) -/

/-- TREE: a list or partials reach their root, or the merge of this node. -/
def takeTree (m : FabMsg) (s : State) : State :=
  onWhole m (fun h inl data cause s =>
    let t := tmsgOf inl data
    let t := { t with cause := t.cause ||| cause }
    let root := bits h.address 63 32
    if root = recPost s then movePaths (takeAnswer h.tag t s)
    else
      let kids := (recFor s root).elim [] (fun r => r.kids)
      let i := ((kids.findIdx? (fun k => k == h.source)).getD kids.length) + 1
      treeInput root h.tag t.stage i t s) s

/-- TREE. -/
def execTree (m : FabMsg) (s : State) : Out := .next (takeTree m s)

/-! ### FINALIST (R151) -/

/-- FINALIST: finalists reach their owner, which reads their vectors. -/
def takeFinalist (m : FabMsg) (s : State) : State :=
  onWhole m (fun h inl data cause s =>
    let a := h.address
    let c := adObj a
    let n := fieldLE inl 0 2
    let es := (upFrom 0 n).map (fun j => entOf (slice data (16 * j) 16))
    let refuse := fun st s => answerFailed 1 h.source h.tag (recPost s) st cause s
    if adOp a ≠ 0x11 then s
    else if isResetting s h.tenant then refuse 0x32 s
    else match corpus? s h.tenant c, groupFor s h.tenant with
    | some x, some g =>
      if es.any (fun e => !x.shards.contains (shardOf e.id g.n)) then refuse 0x31 (disputeCorpus h.tenant c s)
      else
        let pts := partPoints s a (fieldLE inl 24 4)
        movePaths (addFinalists { mkPart 1 h.source h.tag h.tenant c 0 with par := slice inl 2 3, query := data.drop (16 * n), ents := es, points := pts, cause := cause ||| nowCause s } s)
    | _, _ => refuse 0x13 s) s

/-- FINALIST. -/
def execFinalist (m : FabMsg) (s : State) : Out := .next (takeFinalist m s)

/-! ### FORWARD (R154, R155, R164, R170, R379, R380) -/

/-- Status with which a copy of an update is refused by a replica, 0 when it takes it. -/
def copyRefused (h : Hdr) (inl : Bytes) (s : State) : Nat :=
  if isResetting s h.tenant then 0x32
  else match corpus? s h.tenant (adObj h.address), groupFor s h.tenant with
  | some c, some g =>
    if (replicas g (cbReplicas c.body) (shardOf (fieldLE inl 0 8) g.n)).contains (ownPost s) then 0 else 0x31
  | _, _ => 0x13

/-- A copy of an update reaches a replica, which stages it. -/
def takeCopy (h : Hdr) (inl data : Bytes) (s : State) : State :=
  let c := adObj h.address
  let p := { mkPart 5 h.source h.tag h.tenant c (adShard h.address) with par := slice inl 0 13, query := data }
  let st := copyRefused h inl s
  if st ≠ 0 then
    let s := whenS (st == 0x31) (disputeCorpus h.tenant c) s
    (schedSend 4 h.source h.tenant h.tag (pathAddr 4 0 0 0 (adShard h.address) c) (leBytes 1 st) [] 0 s).getD s
  else stageHere s.hxt.nextRid (newPart p s)

/-- The primary's verdict on a copy: it applies at the next boundary, or is dropped; a shred is answered when it is
done. -/
def takeVerdict (h : Hdr) (commit : Bool) (s : State) : State :=
  match s.path.parts.find? (fun p => p.kind == 5 && p.gate == h.source && p.tag == h.tag) with
  | none => s
  | some p =>
    if !commit then dropPart p.id (unstage p s)
    else
      let s := acceptItems p s
      if upFlags p ≠ 3 then dropPart p.id s
      else if (corpus? s p.tenant p.obj).any (fun c => c.items.any (fun i => i.owner == p.id)) then
        onPart p.id (fun q => { q with status := 0x100 }) s
      else partShredded p s

/-- FORWARD: an item for its primary, a copy, a verdict, an answer, or a step of a spread session. -/
def takeForward (m : FabMsg) (s : State) : State :=
  onWhole m (fun h inl data _ s =>
    let a := h.address
    let st := fieldLE inl 0 1
    let s := match adOp a with
      | 1 => orderItem { mkPart 3 h.source h.tag h.tenant (adObj a) (adShard a) with par := slice inl 0 9, query := data } s
      | 2 => takeCopy h inl data s
      | 3 => itemDone h.tag (adShard a) st s
      | 4 => if (part? s h.tag).any (fun p => p.kind == 3 && p.awaits.contains h.source) then ackItem h.tag h.source st s else s
      | 5 => memberAppend h.source h.tenant h.tag inl data s
      | 6 => appendAck h.tag st s
      | 7 => takeVerdict h (st == 1) s
      | 8 => memberOpen h.source h.tenant h.tag inl data s
      | 9 => openAck h.tag (fieldLE inl 1 2) st (fieldLE inl 3 4) s
      | 10 => if (ctx? s h.tenant (fieldLE inl 0 4)).isSome then closeLocal (fieldLE inl 0 4) s else s
      | _ => s
    movePaths s) s

/-- FORWARD. -/
def execForward (m : FabMsg) (s : State) : Out := .next (takeForward m s)

/-! ### Remote accesses at their home (R49, R52, R219, R411) -/

/-- An answer to an access: status, and the bytes it returns (log 13). -/
def answer (h : Hdr) (st : Nat) (b : Bytes) (s : State) : State :=
  let inl := leBytes 2 st ++ zeros 6 ++ (if b.length ≤ 24 then b else [])
  beSend 4 h.stream h.source h.tenant h.tag h.address inl (if b.length ≤ 24 then [] else b) s

/-- Whom a remote access is for. -/
def whoRemote (h : Hdr) : Who := ⟨h.tag, some h.tenant⟩

/-- Memory of the home that a remote access may reach: stacks, local stores and L2 scratch, whole. -/
def reachable (s : State) (a n : Nat) : Bool :=
  match region s a, region s (a + n - 1) with
  | .stack _ _, .stack _ _ => true
  | .store m _, .store k _ => m == k
  | .scratch m _, .scratch k _ => m == k
  | _, _ => false

/-- A lent window is reached by a node that the map does not list for it: NOT_OWNER, and the flag (R219). -/
def windowRefuses (s : State) (post a n : Nat) : Option Nat :=
  match windowAt s a n with
  | some (i, w) => if w.borrowers.contains post then none else some i
  | none => none

/-- Status of an access that its home turns away, 0 when it is performed. -/
def homeRefuses (h : Hdr) (n : Nat) (s : State) : Nat × State :=
  let a := bits h.address 51 0
  if bits h.address 63 52 ≠ recPost s ∨ n = 0 ∨ 4096 < n ∨ !reachable s a n then (0x10, s)
  else match windowRefuses s h.source a n with
  | some i => (0x31, bump (ent 0xC070 9) (disputeWindow i s))
  | none => (0, s)

/-- A remote load or parcel read performed at its home. -/
def serveRead (m : FabMsg) (h : Hdr) (s : State) : State :=
  let a := bits h.address 51 0
  let n := fieldLE m.inl 0 2
  match homeRefuses h n s with
  | (0, s) =>
    let b := fixedRead s a n
    let r := demandRead (whoRemote h) a n s
    answer h r.1 (if r.1 = 0 then b else []) r.2
  | (st, s) => answer h st [] s

/-- A remote store, AMO or parcel write performed at its home. -/
def serveWrite (m : FabMsg) (h : Hdr) (s : State) : State :=
  let a := bits h.address 51 0
  let n := fieldLE m.inl 0 2
  let b := if n ≤ 24 then slice m.inl 8 n else slice m.data 0 n
  match homeRefuses h n s with
  | (0, s) =>
    let s := foldS (upFrom (a / 64) ((a + n + 63) / 64 - a / 64)) (fun k => breakResv 8192 (64 * k)) s
    (match amoOfCode (fieldLE m.inl 2 1) with
    | some op =>
      if n = 4 ∨ n = 8 then
        let r := amoHome (whoRemote h) op a n (leNat b) s
        answer h r.1 (if r.1 = 0 then r.2.1 else []) r.2.2
      else answer h 0x10 [] s
    | none =>
      let r := demandWrite (whoRemote h) false a b s
      answer h r.1 [] r.2)
  | (st, s) => answer h st [] s

/-- READ. -/
def execRead (m : FabMsg) (s : State) : Out := .next (onBest 2 m (serveRead m) s)

/-- WRITE. -/
def execWrite (m : FabMsg) (s : State) : Out := .next (onBest 3 m (serveWrite m) s)

/-! ### Answers (R52, R216, R219) -/

/-- Window of a lender that an address lies in. -/
def lenderWindow (s : State) (post a : Nat) : Option Nat :=
  ((numbered (mapWindows s.cmp.map)).find? (fun p => p.2.lender == post && inStack a
    && decide (p.2.off ≤ a % 0x1000000000) && decide (a % 0x1000000000 < p.2.off + p.2.len))).map (fun p => p.1)

/-- A lender's NOT_OWNER marks its window here too. -/
def noteRefusal (h : Hdr) (st : Nat) (s : State) : State :=
  if st = 0x31 then bump (ent 0xC070 9) (optS (lenderWindow s h.source (bits h.address 51 0)) disputeWindow s) else s

/-- Whether a place is memory of a node. -/
def lentBy (post : Nat) : Place → Bool
  | .lent p _ => p == post
  | _ => false

/-- A lender's answer to a parcel: its bytes, its acknowledgement, or the status that fails it. One for a parcel that is no
longer in flight is discarded and counted (R221). -/
def parcelAnswer (h : Hdr) (st : Nat) (b : Bytes) (s : State) : State :=
  let hit := fun (p : Parcel) => p.pid % 2 ^ 31 + 2 ^ 31 == h.tag && (lentBy h.source p.src || lentBy h.source p.dst)
  match s.par.flight.find? hit with
  | none => bump (ent 0xC070 8) s
  | some p =>
    if st ≠ 0 then issueAll (failParcel p.pid st (noteRefusal h st s))
    else if p.sent then onParcel p.pid (fun p => { p with acked := true }) s
    else onParcel p.pid (fun p => { p with data := some (slice b 0 4096) }) s

/-- The bytes of a remote access reach their register. -/
def putRemote (k : RemKind) (b : Bytes) (t : Thread) : Thread :=
  match k with
  | .loadInt rd n uns => setX rd (extend n uns b) t
  | .loadFp rd n => dirtyFS (setF rd (boxed n (leNat b)) t)
  | .loadVec v off n => dirtyVS (setV v (vSetBits (rv t v) (off * 8) (8 * n) (leNat b)) t)
  | .amo rd n => setX rd (sext64 (8 * n) (leNat b)) t
  | .ack => t

/-- An answer to a thread's access: its register is written, or its failure is taken or kept for the next FENCE (R52). -/
def threadAnswer (h : Hdr) (st : Nat) (b : Bytes) (cause : Nat) (s : State) : State :=
  match s.sea.threads.find? (fun p => p.2.remote.any (fun r => r.tag == h.tag)) with
  | none => s
  | some (th, t) => match t.remote.find? (fun r => r.tag == h.tag) with
    | none => s
    | some r =>
      let s := addCause t.req cause (noteRefusal h st s)
      let s := onThread th (fun t => { t with remote := t.remote.filter (fun x => x.tag != h.tag) }) s
      if st = 0 then onThread th (putRemote r.kind b) s
      else match r.kind with
        | .ack => onThread th (fun t => { t with failedAck := some (t.failedAck.getD (r.va, st)) }) s
        | .amo _ _ => takeFault th causeStore st r.va s
        | _ => takeFault th causeLoad st r.va s

/-- A response reaches what waits for it. -/
def takeResp (m : FabMsg) (h : Hdr) (s : State) : State :=
  let st := fieldLE m.inl 0 2
  let b := if m.data.isEmpty then m.inl.drop 8 else m.data
  if 2 ^ 31 ≤ h.tag then settlePaths (parcelAnswer h st b s) else threadAnswer h st b (carryCause m) s

/-- RESP. -/
def execResp (m : FabMsg) (s : State) : Out := .next (onBest 4 m (takeResp m) s)

/-- POOL (R217, R270): a T2 parcel for the borrower that reads it, or for the lender that stores it. -/
def takePool (m : FabMsg) (s : State) : State :=
  onSched m (fun h s =>
    if bits h.address 63 52 = recPost s then
      let w := { m with inl := accInline 4096 0 [] }
      serveWrite w h s
    else settlePaths (parcelAnswer h 0 m.data s)) s

/-- POOL. -/
def execPool (m : FabMsg) (s : State) : Out := .next (takePool m s)

/-! ### LETTER (R352) and other header kinds -/

/-- A letter that has reached its node; an engine's knock that finds its pigeonhole full waits on the way. -/
def takeLetter (l : Letter) (s : State) : State :=
  match deliver l s with
  | (.done, s) => s
  | (.kept, s) => { s with pwr := { s.pwr with transit := s.pwr.transit ++ [l] } }

/-- LETTER: one header and one body flit that holds the whole letter. -/
def execLetter (m : FabMsg) (s : State) : Out := .next (onBest 7 m (fun _ s => takeLetter (letterOf (slice m.data 0 64)) s) s)

/-- IDLE (R261): a placeholder with no message. -/
def execIdle (_link : Nat) (s : State) : Out := .next s

/-- RESERVED_KIND_FLIT (R261): dropped and counted. -/
def execReservedKindFlit (m : FabMsg) (s : State) : Out :=
  .next (if 8 ≤ (msgHdr m).kind then bump (ent 0x8010 4) s else s)

/-! ### The timetable (R269, R270, R274) -/

/-- Scheduled traffic runs: frames are counted and the node serves. -/
def schedOn (s : State) : Bool := s.clk.counting && s.phase == .serving

/-- An entry that fails its complement (R269, R413). -/
def entryBad (i : Nat) (s : State) : State := record 3 1 6 2 i 0 0x42 none s

/-- Link and slot that an entry's message takes now: its own, or those of a detour around its link; none when it stays
undelivered. -/
def wayOut (s : State) (e : Nat) : Option (Nat × Nat × Bool) :=
  let k := ttOut e
  if schedUp s k || ttKind e = 2 then some (k, ttSlot e, ttKind e == 2)
  else if (linkSt s k).detoured then
    (s.fab.entries.find? (fun x => ttGood x && ttKind x.1 == 2 && ttDetour x.1 == k && ttStream x.1 == ttStream e
      && ttOut x.1 < 36)).map (fun x => (ttOut x.1, ttSlot x.1, true))
  else none

/-- ORIGIN_ENTRY (R269, R270, R274): the entry's stream sends a message, or an IDLE header. -/
def takeOrigin (i : Nat) (s : State) : State :=
  match s.fab.entries[i]? with
  | none => s
  | some e =>
    if !schedOn s || ttIn e.1 != 0x3E then s
    else if !ttGood e then originLost (ttStream e.1) (entryBad i s)
    else match wayOut s e.1 with
    | some (k, slot, d) =>
      if ttKind e.1 = 1 then sendIdle k slot d (ttStream e.1) s else originSend k slot d (ttStream e.1) (ttFlits e.1) s
    | none => originLost (ttStream e.1) s

/-- ORIGIN_ENTRY. -/
def execOriginEntry (i : Nat) (s : State) : Out := .next (takeOrigin i s)

/-- A message handed to the engine that its stream's function names. -/
def deliverSched (m : FabMsg) (s : State) : State :=
  match streamFn s (msgHdr m).stream with
  | 1 => takeFanout m s
  | 2 => takeTree m s
  | 3 => takeFinalist m s
  | 4 => takeForward m s
  | 5 => takePool m s
  | _ => s

/-- SCHEDULED_FORWARDING (R266, R270, R274): what arrives in the entry's slots is passed on unread, with a copy to the own
engines if copy is set. -/
def execScheduledForwarding (i : Nat) (m : FabMsg) (s : State) : Out :=
  .next (match s.fab.entries[i]? with
    | none => s
    | some e =>
      if !schedOn s || decide (36 ≤ ttIn e.1) || decide (36 ≤ ttOut e.1) then s
      else if !ttGood e then entryBad i s
      else
        let s := match wayOut s e.1 with
          | some (k, slot, d) =>
            fabOut { m with link := k, slot := slot, detour := m.detour || d } s
          | none => s
        if ttCopy e.1 then deliverSched m s else s)

/-! ### Control flits (R265 to R267, R276, R279, R282) -/

/-- The parent's time against the own clock less the flight delay (R276). -/
def checkSkew (k t : Nat) (s : State) : State :=
  let d := dirNum s (linkObj k 5) / 32
  let own := timestamp s - d
  let diff := if own ≤ t then t - own else own - t
  if diff ≤ 4 then s
  else
    let s := linkErr 0x10 0 k 0 (dirSet (ent 0x8010 7) 1 s)
    if 2 * imgHop s.fab.image < diff + d + 11 then degradeLink k 4 s else s

/-- Whether the partition runs, as the parent link shows (R454). -/
def noteRunning (k t : Nat) (s : State) : State :=
  if clockLink s = some k then { s with fab := { s.fab with running := t != stampNone } } else s

/-- A control flit's contents. -/
def takeCtrl (m : FabMsg) (s : State) : State :=
  let k := m.link
  let w3 := m.w3.toNat
  let t := m.w2.toNat
  let names := fun (o n : Nat) => slotNames ((upFrom 0 n).map (fun i => fieldLE m.inl (o + 2 * i) 2))
  let ready := bit (fieldLE m.inl 24 8) 0
  let s := onLink k (fun x => { x with
    credit0 := min 256 (x.credit0 + bits w3 15 0), credit1 := min 256 (x.credit1 + bits w3 31 16),
    pending := x.pending || x.peer != ready, peer := ready }) s
  let s := flushHeld (noteRunning k t s)
  let s := whenS (schedOn s && clockLink s == some k && t != stampNone) (checkSkew k t) s
  let asked := names 0 8
  let s := bumpBy (linkObj k 8) asked.length s
  let s := announceNext k (foldS asked (askReplay k) s)
  foldS (names 18 3) (flitLost k) s

/-- CTRL. -/
def execCtrl (m : FabMsg) (s : State) : Out :=
  .next (let h := msgHdr m
    if h.kind ≠ 5 ∨ 36 ≤ m.link then s
    else match headerVerdict s h with
      | 0 => takeCtrl m s
      | v => dropHeader m v s)

/-- REPLAY (R265, R267): the announced flit is replayed; after a third failure it is named lost. -/
def execReplay (k slot : Nat) (ok : Bool) (s : State) : Out :=
  .next (match (linkSt s k).announced with
    | none => s
    | some n =>
      if nameSlot n ≠ slot then s
      else
        let c := smGetD (linkSt s k).tries n 0 + 1
        let lost := !ok && decide (3 ≤ c)
        let s := onLink k (fun x => { x with
          announced := none, tries := if ok || lost then smDel x.tries n else smPut x.tries n c,
          toLose := if lost then x.toLose ++ [n] else x.toLose }) s
        let s := record 0x0D 0 4 k (n % 65536) 0 0 none (bump (ent 0x8010 5) s)
        announceNext k (whenS lost (bump (ent 0x8010 6)) s))

/-! ### Training and faults (R257 to R259, R282) -/

/-- LINK_TRAINED (R259): an attempt finished; training waits while FAB_REFCLK is missing (R468). -/
def execLinkTrained (k : Nat) (r : TrainResult) (s : State) : Out :=
  .next (if 36 ≤ k ∨ linkState s k ≠ 1 ∨ s.pins.refsLost.contains 2 then s
    else match r.ok, lanesUsed r.lanes with
      | true, some l => finishTraining k r l s
      | _, _ => failAttempt k s)

/-- TRAINING_ATTEMPT_TIMEOUT (R258). -/
def execTrainingAttemptTimeout (k : Nat) (s : State) : Out :=
  .next (if 36 ≤ k ∨ linkState s k ≠ 1 ∨ s.pins.refsLost.contains 2 then s else failAttempt k s)

/-- LINK_DOWN (R282). -/
def execLinkDown (k : Nat) (s : State) : Out :=
  .next (if k < 36 ∧ 2 ≤ linkState s k ∧ linkState s k ≤ 5 then linkFalls k s else s)

/-- RETRAIN (R282): no sooner than 16 ticks after the link went down; not after three downs within 1,024 ticks. -/
def execRetrain (k : Nat) (s : State) : Out :=
  .next (match (linkSt s k).downs with
    | t :: _ =>
      if k < 36 ∧ linkState s k = 6 ∧ t + 16 ≤ s.clk.tick ∧ !staysOut s k ∧ (linkSt s k).attempts < 3 then
        setLinkState k 1 (onLink k (fun x => { x with attempts := 0 }) s)
      else s
    | [] => s)

/-- STANDBY_PARENT_SWITCH (R257): the parent in use is down and the other one serves. -/
def execStandbyParentSwitch (s : State) : Out :=
  .next (if s.fab.holdSince.isSome then
      let t := { s with fab := { s.fab with parent := 1 - s.fab.parent } }
      if isSyntonised t then trackParent t else s
    else s)

end Sys2Proof.Machine
end

