-- ==== Sys2Proof/Machine/MapOps.lean ====
section
/-! DEFINITION. MapOps: checks and load of the composition map and of the timetable image (R268 to R273, R370 to R376,
R437), and the stored-entry record (R399). -/
namespace Sys2Proof.Machine

/-! ### The stored-entry record (R399) -/

/-- Persistence of an entry: 0 none, 1 V, 2 S, 3 L. -/
def perOf (obj : Nat) : Nat := (catRow obj).elim 0 (fun r => r.per)

/-- Values of one persistence. -/
def valsOf (p : Nat) (m : SMap DVal) : SMap DVal := m.filter (fun q => perOf q.1 == p)

/-- The older copy of the boot-flash record is rewritten with every S value, and becomes the newer. -/
def saveRecord (s : State) : State :=
  let v := valsOf 2 s.dir.vals
  if s.dir.seqA < s.dir.seqB then { s with dir := { s.dir with copyA := v, seqA := s.dir.seqB + 1 } }
  else { s with dir := { s.dir with copyB := v, seqB := s.dir.seqA + 1 } }

/-- The newer copy. -/
def newerCopy (s : State) : SMap DVal := if s.dir.seqA < s.dir.seqB then s.dir.copyB else s.dir.copyA

/-! ### Measurements (R443) -/

/-- Measurement register `k` extended with a digest. -/
def extendM (k : Nat) (d : Bytes) (s : State) : State :=
  let m := (numbered s.sec.meas).map (fun p => if p.1 = k then slice (Config.sha384 (p.2 ++ d)) 0 48 else p.2)
  { s with sec := { s.sec with meas := m } }

/-! ### The map (R370 to R374) -/

/-- Ident of the node (R371). -/
def ownIdent (s : State) : Bytes := slice (dirBytes s (ent 0x9010 5)) 0 16

/-- Bytes of a map's shard groups. -/
def groupsLen (m : Bytes) : Nat := ((mapGroups m).map (fun g => groupBytes g.n g.reps)).foldl (fun a b => a + b) 0

/-- Group words, postcodes and padding keep their reserved bits zero, and their ranges hold. -/
def groupsGood (m : Bytes) : Nat → Nat → Bool
  | 0, _ => true
  | k + 1, o =>
    let w := fieldLE m o 8
    let n := bits w 15 0
    let r := bits w 17 16
    let posts := (upFrom 0 (n * r)).map (fun i => fieldLE m (o + 8 + 2 * i) 2)
    inR n 1 4096 && inR r 1 3 && decide (w < 2 ^ 25) && posts.all (fun p => decide (p < 4096))
      && allZero (slice m (o + 8 + 2 * n * r) (groupBytes n r - 8 - 2 * n * r)) && groupsGood m k (o + groupBytes n r)

/-- Node records keep their reserved bits zero and name a role of Table 16-1. -/
def nodesGood (m : Bytes) : Bool :=
  (upFrom 0 (mapNodeCount m)).all (fun i =>
    let b := slice m (mapWord m 4 + 32 * i) 32
    fieldLE b 24 8 == 0 && decide (fieldLE b 16 8 < 2 ^ 24) && decide (bits (fieldLE b 16 8) 15 12 ≤ 3))

/-- Window records keep R373. -/
def windowsGood (m : Bytes) : Bool :=
  (upFrom 0 (mapWindowCount m)).all (fun i =>
    let b := slice m (mapWord m 6 + 32 * i) 32
    let n := bits (fieldLE b 16 8) 14 12
    decide (fieldLE b 0 8 < 2 ^ 36) && fieldLE b 0 8 % 4096 == 0 && decide (fieldLE b 8 8 < 2 ^ 36)
      && fieldLE b 8 8 % 4096 == 0 && decide (fieldLE b 16 8 < 2 ^ 15) && inR n 1 4
      && (upFrom 0 4).all (fun j => if j < n then decide (fieldLE b (24 + 2 * j) 2 < 4096) else fieldLE b (24 + 2 * j) 2 == 0))

/-- Check 3 of Table 16-4. -/
def mapFormatGood (b : Bytes) : Bool :=
  let len := mapWord b 0
  let m := b.take len
  let nodesEnd := mapWord m 4 + 32 * mapNodeCount m
  decide (64 ≤ len) && decide (len ≤ b.length) && bits (mapWord m 1) 15 0 == 1 && inR (mapNodeCount m) 1 4096
    && decide (mapGroupCount m ≤ 65) && decide (mapWindowCount m ≤ 1024) && decide (1 ≤ mapEpoch m)
    && bits (mapWord m 2) 63 32 == compl 32 (mapEpoch m) && decide (mapWord m 3 < 2) && mapWord m 7 == 0
    && mapWord m 4 % 64 == 0 && mapWord m 5 % 64 == 0 && mapWord m 6 % 64 == 0
    && decide (64 ≤ mapWord m 4) && decide (nodesEnd ≤ mapWord m 5) && decide (mapWord m 5 + groupsLen m ≤ mapWord m 6)
    && decide (mapWord m 6 + 32 * mapWindowCount m ≤ len)
    && nodesGood m && groupsGood m (mapGroupCount m) (mapWord m 5) && windowsGood m

/-- No element of a list occurs twice. -/
def noRepeats {α : Type} [DecidableEq α] : List α → Bool
  | [] => true
  | a :: t => !t.contains a && noRepeats t

/-- Role of a postcode in a map. -/
def mapRole (m : Bytes) (post : Nat) : Option Nat := ((mapNodes m).find? (fun r => r.postcode == post)).map (fun r => r.role)

/-- Windows of one lender are disjoint and within its stacks. -/
def windowsApart : List Window → Bool
  | [] => true
  | w :: t => decide (w.off + w.len ≤ 0x1000000000)
      && t.all (fun v => v.lender != w.lender || decide (w.off + w.len ≤ v.off) || decide (v.off + v.len ≤ w.off))
      && windowsApart t

/-- Check 6 of Table 16-4. -/
def mapConsistent (m : Bytes) : Bool :=
  let ns := mapNodes m
  let gs := mapGroups m
  noRepeats (ns.map (fun r => r.postcode)) && noRepeats (ns.map (fun r => r.ident))
    && gs.all (fun g => g.posts.all (fun p => (mapRole m p).any roleShards)
        && (upFrom 0 g.n).all (fun i => noRepeats (replicas g g.reps i)))
    && (mapWindows m).all (fun w => (mapRole m w.lender).any (fun r => r == 2 || r == 3)) && windowsApart (mapWindows m)
    && noRepeats ((gs.filter (fun g => !g.any)).map (fun g => g.tenant)) && decide ((gs.filter (fun g => g.any)).length ≤ 1)

/-- Operator root certificate and role identifier pass the object's trailer (R437 to R439). -/
def objectPasses (s : State) (b : Bytes) : Bool :=
  !(dirBytes s (ent 0x9010 3)).isEmpty && Config.objectSigned (dirBytes s (ent 0x9010 3)) (dirBytes s (ent 0x9010 4)) b

/-- Result of the checks of Table 16-4, the epoch check as the caller states it (R374, R375). -/
def mapResult (s : State) (b : Bytes) (epochOk : Bool) : Nat :=
  let m := b.take (mapWord b 0)
  if !objectPasses s b then 2
  else if !mapFormatGood b then 3
  else if !epochOk then 4
  else match (mapNodes m).find? (fun r => r.ident == ownIdent s) with
  | none => 5
  | some r =>
    if !mapConsistent m then 6
    else if r.grade != 0 && r.grade != dirNum s (ent 0x1001 1) then 7
    else 1

/-- A map staged (R374): its result, and when it passes it waits in the boot flash for the next partition boot. -/
def stageMap (b : Bytes) (s : State) : Nat × State :=
  let r := mapResult s b (decide (epoch s < mapEpoch b))
  let s := dirSet (ent 0x2010 8) r s
  if r = 1 then (0, saveRecord (dirSet (ent 0x2010 6) (mapEpoch b) { s with cmp := { s.cmp with staged := b } })) else (5, s)

/-! ### The timetable image (R268 to R273) -/

/-- Format of the image header (Table 11-6). -/
def imageFormatGood (b : Bytes) : Bool :=
  let len := imgWord b 0
  decide (256 ≤ len) && decide (len ≤ b.length) && imgWord b 1 == 1 && inR (imgWord b 2) 1 4096
    && decide (imgWord b 3 < 2 ^ 44) && decide (imgTopology b ≤ 3) && inR (bits (imgWord b 3) 23 16) 1 16
    && inR (imgHop b) 4 32 && bits (imgWord b 5) 63 32 == compl 32 (bits (imgWord b 5) 31 0)
    && allZero (slice b 64 192) && decide (imgWord b 6 + 16384 ≤ len) && decide (imgWord b 7 + 16 * imgNodes b ≤ len)

/-- A timetable image staged (R437): 0x9020:0A, and when it passes it waits in the boot flash. -/
def stageImage (b : Bytes) (s : State) : Nat × State :=
  let r := if !objectPasses s b then 2 else if !imageFormatGood b then 3 else 1
  let s := dirSet (ent 0x9020 0xA) r s
  if r = 1 then (0, { s with cmp := { s.cmp with image := b } }) else (5, s)

/-- Entry and complement pairs at the front of a section's words, after the link plan (log 44). -/
def sectionPairs : List Nat → List (Nat × Nat)
  | w :: c :: t => if c = compl 64 w then (w, c) :: sectionPairs t else []
  | _ => []

/-- Slots per flit on a link of the plan: 4, 2 or 1 by generation on 8 lanes, twice that on 4 (R262). -/
def slotsPerFlit (plan : Nat) : Nat :=
  let g := bits plan 13 12
  (if g = 1 then 4 else if g = 2 then 2 else 1) * (if popcount 8 (bits plan 21 14) = 8 then 1 else 2)

/-- Absolute slots of the round that the flits of an entry occupy, replay slots skipped (R270). -/
def flitSlots (m fuel flits slot : Nat) : List Nat :=
  match fuel with
  | 0 => []
  | k + 1 =>
    if flits = 0 then []
    else if slot % 64 = 64 - m then flitSlots m k flits (slot + m)
    else slot :: flitSlots m k (flits - 1) (slot + m)

/-- Slots of an entry. -/
def entrySlots (m e : Nat) : List Nat := flitSlots m (2 * ttFlits e + 2) (ttFlits e) (2048 * ttFrame e + ttSlot e)

/-- A link field of an entry. -/
def linkField (k : Nat) : Bool := decide (k < 36) || k == 0x3E

/-- One entry passes R271; `plan` is the link plan and `rounds` round_frames. -/
def entryGood (b : Bytes) (plan : Nat → Nat) (rounds e : Nat) : Bool :=
  let m := slotsPerFlit (plan (if ttOut e = 0x3E then ttIn e else ttOut e))
  let fn := bits (fieldLE b (imgWord b 6 + 4 * ttStream e) 4) 3 0
  linkField (ttIn e) && linkField (ttOut e) && (!ttCopy e || (decide (ttIn e < 36) && decide (ttOut e < 36)))
    && decide (ttKind e ≤ 2) && inR fn 1 5 && decide (ttFrame e < rounds) && !bit e 31 && inR (ttFlits e) 1 65
    && ttSlot e % m == 0 && ttSlot e % 64 != 64 - m && bits e 6 0 == 0
    && (if ttKind e = 2 then decide (ttDetour e < 36) else ttDetour e == 0)
    && (entrySlots m e).all (fun x => decide (x + m ≤ 2048 * rounds))

/-- Outgoing slots of a list of entries, keyed by link, do not meet. -/
def outSlots (plan : Nat → Nat) (es : List Nat) : List Nat :=
  (es.filter (fun e => decide (ttOut e < 36))).flatMap (fun e =>
    (entrySlots (slotsPerFlit (plan (ttOut e))) e).map (fun x => ttOut e * 65536 + x))

/-- The node's section passes R271. -/
def sectionGood (b : Bytes) (off len : Nat) : Bool :=
  let plan := fun k => fieldLE b (off + 8 * k) 8
  let ws := (upFrom 0 ((len - 288) / 8)).map (fun i => fieldLE b (off + 288 + 8 * i) 8)
  let es := (sectionPairs ws).map (fun p => p.1)
  decide (288 ≤ len) && decide (off + len ≤ imgWord b 0) && decide (es.length ≤ 32768)
    && decide (len - 288 - 16 * es.length ≤ 32 * 4096)
    && es.all (entryGood b plan (bits (imgWord b 3) 23 16)) && noRepeats (outSlots plan es)

/-- The image may be loaded by a node of postcode `post` under epoch `ep` (R268). -/
def imageLoads (s : State) (b : Bytes) (post ep : Nat) : Bool :=
  let m := b.take (imgWord b 0)
  objectPasses s b && imageFormatGood b && bits (imgWord b 5) 31 0 == ep
    && (imgSection m post).any (fun p => sectionGood m p.1 p.2)

/-- The image in force from its bytes: the node's section is copied (R268, R269) and M5 extended. -/
def takeImage (b : Bytes) (s : State) : State :=
  let m := b.take (imgWord b 0)
  let sec := (imgSection m (ownPost s)).getD (0, 288)
  let ws := (upFrom 0 ((sec.2 - 288) / 8)).map (fun i => fieldLE m (sec.1 + 288 + 8 * i) 8)
  let es := sectionPairs ws
  let rest := slice m (sec.1 + 288 + 16 * es.length) (sec.2 - 288 - 16 * es.length)
  let d := slice (Config.sha384 m) 0 48
  let s := { s with fab := { s.fab with
    image := m
    entries := es
    merges := chunks 32 rest } }
  extendM 5 d (dirPut (ent 0x8020 1) (.blob d) (dirSet (ent 0x8020 2) (imgWord m 4) (dirSet (ent 0x8020 3) (bits (imgWord m 3) 23 16)
    (dirSet (ent 0x8020 4) es.length (dirSet (ent 0x8020 5) (imgRoot m) s)))))

/-! ### Loading at a partition boot (R375) -/

/-- The node takes no part in the partition. -/
def stayOutside (s : State) : State := { s with cmp := { s.cmp with outside := true } }

/-- The map in force from its bytes: epoch, role, postcode, digest, fallback, and M4 extended (R371, R375, R443). Views and
disputes of the former composition end (R378, R380). -/
def takeMap (b : Bytes) (s : State) : State :=
  let m := b.take (mapWord b 0)
  let d := slice (Config.sha384 m) 0 48
  let r := (mapNodes m).find? (fun r => r.ident == ownIdent s)
  let s := { s with cmp := { s.cmp with
    map := m
    epochC := compl 32 (mapEpoch m)
    staged := []
    stored := b
    outside := false
    dCorpora := []
    dCtx := []
    dWindows := []
    nodesOut := [] } }
  let s := dirSet (ent 0x2010 1) (mapEpoch m) (dirSet (ent 0x2010 6) 0 (dirPut (ent 0x2010 4) (.blob d) s))
  let s := dirSet (ent 0x2010 2) (r.elim 0xFF (fun r => r.role)) (dirSet (ent 0x2010 3) (r.elim 0xFFFF (fun r => r.postcode)) s)
  saveRecord (extendM 4 d (dirSet (ent 0x2010 5) (b01 (mapFallback m)) s))

/-- Map and image loaded and checked (R375, R268): the staged map if one is stored, else the present one. A node without a
map, or whose map or image is refused, stays outside the partition. -/
def loadMaps (s : State) : State :=
  let b := if s.cmp.staged.isEmpty then s.cmp.stored else s.cmp.staged
  if b.isEmpty then stayOutside s
  else if mapResult s b true != 1 || decide (mapEpoch b < epoch s) then stayOutside (dirSet (ent 0x2010 9) 1 s)
  else
    let m := b.take (mapWord b 0)
    let post := ((mapNodes m).find? (fun r => r.ident == ownIdent s)).elim 0xFFFF (fun r => r.postcode)
    let s := takeMap b s
    if imageLoads s s.cmp.image post (mapEpoch m) then
      { takeImage s.cmp.image s with cmp := { s.cmp with outside := false } }
    else
      let s := whenS (bits (imgWord s.cmp.image 5) 31 0 != mapEpoch m) (dirSet (ent 0x2010 9) 1) s
      stayOutside (dirSet (ent 0x8020 8) 1 s)

/-- The node is the root of the partition, or has no parent (R257, R275). -/
def isRoot (s : State) : Bool := imgRoot s.fab.image == ownPost s || (parentOf s.fab.image (recPost s)).isNone

end Sys2Proof.Machine
end

