-- ==== Sys2Proof/Machine/LogOps.lean ====
section
/-! DEFINITION. LogOps: logbooks (R424 to R426), handling and removal of error records (R415 to R420), the end of every
admitted request, halt-and-report and the flush of the media (R249, R421). -/
namespace Sys2Proof.Machine

/-! ### Logbooks (R424 to R426) -/

/-- A die's totals appended to its ring in area 254, which only a serving media manager can write (R425). -/
def appendDie (d : Nat) (s : State) : State :=
  if s.flash.serving then
    let n := s.log.order + 1
    dirSet (ent 0xA010 6) (timestamp s) { s with log := { s.log with
      saved := smPut s.log.saved d (s.clk.tick, n, dieLog s d), order := n } }
  else s

/-- A die's summary written to the boot flash (R425). -/
def mirrorDie (d : Nat) (s : State) : State :=
  let n := s.log.order + 1
  bump (ent 0xA010 8) { s with log := { s.log with
    summ := smPut s.log.summ d (s.clk.tick, n, dieLog s d), order := n } }

/-- Ticks since a ring record or summary of a die; none when there is none. -/
def sinceLog (s : State) (m : SMap (Nat × Nat × DieLog)) (d : Nat) : Option Nat :=
  (smGet? m d).map (fun p => s.clk.tick - p.1)

/-- A die holds a DEGRADED or FATAL record that its last summary does not. -/
def newSevere (s : State) (d : Nat) : Bool :=
  match smGet? s.log.summ d with
  | some p => decide (p.2.2.full.length < (dieLog s d).full.length)
  | none => true

/-- A summary is due: daily, or after a DEGRADED or FATAL record at most once an hour (R425). -/
def summaryDue (s : State) (d : Nat) : Bool :=
  match sinceLog s s.log.summ d with
  | none => true
  | some n => decide (138240000 ≤ n) || (newSevere s d && decide (5760000 ≤ n))

/-- The first 4,096 DEGRADED and FATAL records are kept in full (Table 18-9). -/
def keepFull (d : Nat) (r : ErrRec) (s : State) : State :=
  onDieLog d (fun l => if l.full.length < 4096 then { l with full := l.full ++ [r] } else l) s

/-- The logbook's part of a DEGRADED or FATAL record (R425). -/
def logSevere (r : ErrRec) (s : State) : State :=
  let d := dieOfSource s r.source
  let s := appendDie d (keepFull d r s)
  whenS (summaryDue s d) (mirrorDie d) s

/-- A die's totals at cold boot: the later of its newest ring record, where area 254 can be read, and its summary (R426). -/
def resumeDie (d : Nat) (s : State) : State :=
  let pick : Option (Nat × Nat × DieLog) := match smGet? s.log.saved d, smGet? s.log.summ d with
    | some a, some b => some (if a.2.1 < b.2.1 then b else a)
    | some a, none => some a
    | none, b => b
  onDieLog d (fun _ => match pick with
    | some p => p.2.2
    | none => DieLog.empty) s

/-! ### Records -/

/-- The record being handled (R418): the first that is not. -/
def handling (s : State) : Option ErrRec := s.err.queue.find? (fun r => !r.handled)

/-- The head record may go by itself (R420). -/
def headDone (s : State) (r : ErrRec) : Bool := !recOpen s r && r.handled && (r.acked || !alertsOn s)

/-- Head records removed while 0x5010:08 is set (R420). -/
def dropHeads (s : State) : List ErrRec → List ErrRec
  | [] => []
  | r :: t => if headDone s r then dropHeads s t else r :: t

/-- Automatic removal (R420). -/
def autoRemove (s : State) : State :=
  if dirFlag s (ent 0x5010 8) then { s with err := { s.err with queue := dropHeads s s.err.queue } } else s

/-- Cores that a DEGRADED record of a core or cluster takes out (R415). -/
def coresOf (r : ErrRec) : List Nat :=
  if r.cls = 0x13 then
    (if r.source / 4096 = 0 then [r.source] else if r.source / 4096 = 1 then upFrom (r.source % 4096 * 16) 16 else [])
  else []

/-- Cores taken out of service and reported in 0x5030:07 (R415). -/
def takeCores (l : List Nat) (s : State) : State :=
  let out := l.foldl insNat s.sea.coresOut
  dirSet (ent 0x5030 7) out.length { s with sea := { s.sea with coresOut := out } }

/-- The last actions of a record's handling: write-backs, units out, the logbook entry (R418). -/
def finishRecord (r : ErrRec) (s : State) : State :=
  let s := takeCores (coresOf r) (flushWriteBacks s)
  let s := whenS (decide (2 ≤ r.severity)) (logSevere r) s
  let done := fun (x : ErrRec) => { x with handled := true, acked := x.acked || !alertsOn s }
  { s with err := { s.err with queue := updFirst (fun x => x.seq == r.seq) done s.err.queue } }

/-- The next record's handling starts (R477). -/
def startNext (s : State) : State :=
  let q := updFirst (fun x => !x.handled) (fun x => { x with startAt := max x.startAt s.clk.now }) s.err.queue
  { s with err := { s.err with queue := q } }

/-- Alerts pending when the node loses its address need no acknowledgement (R420). -/
def dropAlerts (s : State) : State :=
  let seqs := s.chain.alerts.map (fun a => a.seq)
  autoRemove { s with
    chain := { s.chain with alerts := [] }
    err := { s.err with queue := s.err.queue.map (fun r => if seqs.contains r.seq then { r with acked := true } else r) } }

/-! ### The end of service -/

/-- Every admitted request ends with a status, its receipt formed (Tables 18-8 and 20-4). -/
def endAdmitted (status : Nat) (s : State) : State :=
  foldS ((s.hxt.reqs.filter (fun r => r.st != .waiting)).map (fun r => r.rid)) (fun rid s => failReq rid status s) s

/-- The fabric transmitters stop: every link is down and nothing waits for one. -/
def fabricOff (s : State) : State :=
  let s := foldS (upFrom 0 36) (fun k s =>
    setLinkState k 6 (onLink k (fun x => { LinkSt.init with downs := x.downs, detoured := x.detoured }) s)) s
  trackParent { s with fab := { s.fab with held := [], outs := [], asm := [], trees := [] } }

/-- The parts of other nodes' requests and the passes end with the service. -/
def dropParts (s : State) : State :=
  { s with path := { s.path with parts := [], attends := [], pass := none } }

/-! ### Halt-and-report (R421) -/

/-- Phases in which the node can stop under Table 18-8. -/
def canHalt (p : Phase) : Bool :=
  p == .booting || p == .ready || p == .serving || p == .warmReset || p == .warmHold || p == .warmBoot || p == .warmReady

/-- A record for the sticky store: class, unit, word 1 and detail; severity FATAL. -/
def stickyRec (s : State) (cls source location detail : Nat) : ErrRec :=
  { newRec s ⟨cls, 3, source, location, 0, detail, 0, 0, none⟩ with
    nested := false, opened := false, handled := true, acked := true, seq := 0 }

/-- The sticky store keeps up to four records (R421), the earliest (log 60). -/
def keepSticky (r : ErrRec) (s : State) : State :=
  if s.err.halts.length < 4 then { s with err := { s.err with halts := s.err.halts ++ [r] } } else s

/-- A FATAL record written to the sticky store, counted in its die's logbook and sent as an ALERT (R421, R466). -/
def writeSticky (r : ErrRec) (s : State) : State :=
  let d := dieOfSource s r.source
  let k := (r.source * 256 + r.cls) * 4 + 3
  let s := onDieLog d (fun l => { l with counts := smPut l.counts k (smGetD l.counts k 0 + 1) }) s
  sendAlert 0 (recBytes r) (keepSticky r (keepFull d r s))

/-- Halt-and-report starts (Table 18-8, steps 1 to 4): the record, the flags, and while the node can stop, the end of its
admitted envelopes and of its transmitters. -/
def haltNode (c : HaltCause) (s : State) : State :=
  let r := stickyRec s 0x18 c.source c.location (fld c.cls 8 + c.syndrome)
  let s := dirSet (ent 0x5020 6) 1 (writeSticky r s)
  let s := whenS c.errorPath (dirSet (ent 0x5020 7) 1) s
  if canHalt s.phase then
    let s := fabricOff (dropParts (endAdmitted 0x60 s))
    { s with phase := .halting, pins := { s.pins with haltDone := false } }
  else s

/-! ### The flush of the media (R249, Table 10-8) -/

/-- Program jobs of host data finish. -/
def finishHost (s : State) : State := foldS (s.flash.jobs.filter (fun j => j.kind == .host)) jobProgrammed s

/-- The write buffer is programmed into SLC (step 4 of Table 10-8). -/
def programBuffer (s : State) : State :=
  let s := finishHost s
  finishHost (foldS (bufferUnits s) gatherUnit s)

/-- Steps 4 to 6 of Table 10-8: the write buffer, the journal ring, every die's logbook and the flush record. Copies in
progress are dropped; their sources are still mapped (R239). Before recovery has ended there is nothing to flush. -/
def flushMedia (s : State) : State :=
  if s.flash.serving then
    let s := programBuffer (onFlash (fun f => { f with jobs := f.jobs.filter (fun j => j.kind == .host) }) s)
    let s := journalDone s.flash.ring.length s
    onFlash (fun f => { f with flushRec := true }) (foldS (upFrom 0 19) appendDie s)
  else s

/-- Every stack in self-refresh. -/
def sleepStacks (s : State) : State :=
  { s with pwr := { s.pwr with stPower := (upFrom 0 16).map (fun k => (k, StState.selfRefresh)) } }

end Sys2Proof.Machine
end

