-- ==== Sys2Proof/Machine/Errors.lean ====
section
/-! DEFINITION. Errors: the commands of the error path, the logbooks and the ageing procedure (chapter 18). -/
namespace Sys2Proof.Machine

/-- The node is up: its management controller and always-on domain do their work (R441, R466). -/
def nodeAwake (s : State) : Bool :=
  s.phase != .coldReset && s.phase != .railWait && s.phase != .bootFailed && s.phase != .stopped

/-! ### Records (R417, R418, R420, R477) -/

/-- RECORD_HANDLED (R477): handling of the record that is being handled ends; the next one's starts. -/
def execRecordHandled (seq : Nat) (s : State) : Out :=
  .next (match handling s with
    | some r => if r.seq = seq ∧ nodeAwake s then autoRemove (startNext (finishRecord r s)) else s
    | none => s)

/-- A record's window has passed (R417). -/
def windowOver (s : State) (seq : Nat) (r : ErrRec) : Bool :=
  r.seq == seq && r.opened && decide (r.firstTick + dirNum s (ent 0x5010 5) ≤ s.clk.tick)

/-- RECORD_CLOSE (R417, R420). -/
def execRecordClose (seq : Nat) (s : State) : Out :=
  .next (if s.err.queue.any (windowOver s seq) then
      let q := updFirst (windowOver s seq) (fun r => { r with opened := false }) s.err.queue
      autoRemove { s with err := { s.err with queue := q } }
    else s)

/-! ### The patrol (R412) -/

/-- Words that the patrol reads at an address: a sealed row of a stack, or one word of an SRAM. -/
def patrolWords (s : State) (a : Nat) : List Nat :=
  match region s a with
  | .stack _ _ => if rowUnsealed s (rowId a) || rowBroken s (rowId a) then [] else wordsOf (rowId a * 1024) 1024
  | .store _ _ => [a / 8]
  | .scratch _ _ => [a / 8]
  | _ => []

/-- One word read by the patrol: rewritten when it is correctable, recorded and left in place when it is not. -/
def patrolWord (wa : Nat) (s : State) : State :=
  if isBad s wa then raise (c72Error s 2 1 (8 * wa) (syndOf s wa) 0 ⟨0, none⟩) s
  else if isFixable s wa then noteCorrected ⟨0, none⟩ wa s
  else s

/-- PATROL (R412). -/
def execPatrol (a : Nat) (s : State) : Out :=
  .next (if nodeAwake s then flushWriteBacks (foldS (patrolWords s a) patrolWord s) else s)

/-! ### Halt and the watchdog (R421, R422) -/

/-- HALT (R421): a cause of Table 18-8. -/
def execHalt (c : HaltCause) (s : State) : Out := .next (if nodeAwake s then haltNode c s else s)

/-- In-band directory operations in progress end with ABORTED, chain requests get no response (R422). -/
def abortDirectory (s : State) : State :=
  let rs := s.hxt.reqs.filter (fun r => (r.type == 0x0501 || r.type == 0x0502) && r.st != .waiting)
  let s := foldS (rs.map (fun r => r.rid)) (fun rid s => failReq rid 0x60 s) s
  { s with
    dir := { s.dir with waiting := [], commits := s.dir.commits.map (fun p => (p.1, Answer.none)) } }

/-- The controller alone is reset, and its firmware measured again (R422, R443). -/
def resetController (s : State) : State :=
  let s := bump (ent 0x5020 9) (dirSet (ent 0x5020 8) 1 s)
  let s := record 0x17 1 7 0 0 0 0 none s
  let s := extendM 2 (slice (s.sec.parts.getD 1 []) 0 48) (abortDirectory s)
  { s with err := { s.err with mcDown := true, wdResets := (s.clk.tick :: s.err.wdResets).take 3 } }

/-- Three watchdog resets lie within 1,024 ticks (R421). -/
def thirdReset (s : State) : Bool :=
  match s.err.wdResets with
  | a :: _ :: c :: _ => decide (a < c + 1024)
  | _ => false

/-- WATCHDOG_EXPIRY (R422): the controller has run for four ticks and not written the watchdog in the last four. -/
def execWatchdogExpiry (s : State) : Out :=
  .next (if nodeAwake s ∧ !s.err.mcDown ∧ s.err.wdTick + 4 ≤ s.clk.tick then
      let s := resetController s
      whenS (thirdReset s) (haltNode ⟨0x17, 0x7000, 0, 0, false⟩) s
    else s)

/-- CONTROLLER_RESTART_DONE (R422). -/
def execControllerRestartDone (s : State) : Out :=
  .next (if s.err.mcDown then { s with err := { s.err with mcDown := false, wdTick := s.clk.tick } } else s)

/-! ### Logbooks (R425) -/

/-- LOGBOOK_APPEND (R425): the periodic record of a die. -/
def execLogbookAppend (die : Nat) (s : State) : Out :=
  .next (if die < 19 ∧ nodeAwake s ∧ (sinceLog s s.log.saved die).all (fun n => decide (dirNum s (ent 0xA010 7) ≤ n)) then
      appendDie die s
    else s)

/-- LOGBOOK_SUMMARY (R425). -/
def execLogbookSummary (die : Nat) (s : State) : Out :=
  .next (if die < 19 ∧ nodeAwake s ∧ summaryDue s die then mirrorDie die s else s)

/-! ### Ageing (R428, R429) -/

/-- δ of a die: the largest of its 64 monitors, in 0.01 % (R428). -/
def dieAge (s : State) (d : Nat) : Nat :=
  let b := dirBytes s (ent 0xA020 3)
  ((upFrom 0 64).map (fun i => fieldLE b (128 * d + 2 * i) 2)).foldl max 0

/-- AGEING_READING (R428): a die's 64 readings, once per 1,600 ticks. -/
def execAgeingReading (die : Nat) (deltas : List Nat) (s : State) : Out :=
  .next (if die < 19 ∧ nodeAwake s ∧ (smGet? s.log.readTick die).all (fun t => decide (t + 1600 ≤ s.clk.tick)) then
      let b := (upFrom 0 64).flatMap (fun i => leBytes 2 (min 0xFFFF (deltas.getD i 0)))
      dirPut (ent 0xA020 3) (.blob (patch (slice (dirBytes s (ent 0xA020 3)) 0 2432) (128 * die) b))
        { s with log := { s.log with readTick := smPut s.log.readTick die s.clk.tick } }
    else s)

/-- Guardband that a die's ageing asks for, in 5 mV steps, before the limit (Table 18-10). -/
def wantSteps (s : State) (d : Nat) : Nat := (dieAge s d - 100) / 50

/-- Guardband of a logic die in mV. -/
def guardband (s : State) (d : Nat) : Nat := fieldLE (dirBytes s (ent 0xA020 4)) d 1

/-- The steps of 5 mV by which a logic die's guardband is to rise (Table 18-10). -/
def planGuard (d : Nat) (s : State) : State :=
  let lim := dirNum s (ent 0xA020 9) / 5
  let up := min (wantSteps s d) lim - guardband s d / 5
  { s with log := { s.log with raising := smSet 0 s.log.raising d up } }

/-- Frequency bin of a compute die in force, in MHz. -/
def binNow (s : State) (d : Nat) : Nat := fieldLE (dirBytes s (ent 0xA020 5)) (2 * d) 2

/-- The bin below one of Table 18-10. -/
def lowerBin (f : Nat) : Nat := if f = 1600 then 1500 else 1400

/-- A compute die whose guardband would pass its limit takes the next lower bin at the next cold boot. -/
def planBin (d : Nat) (s : State) : State :=
  if dirNum s (ent 0xA020 9) < 5 * wantSteps s d then
    saveRecord (dirPut (ent 0xA020 6)
      (.blob (patch (slice (dirBytes s (ent 0xA020 6)) 0 4) (2 * d) (leBytes 2 (lowerBin (binNow s d))))) s)
  else s

/-- Refresh of a stack: shortened when its weakest retention margin is below 2.0; lengthened by a cold boot only. -/
def planRefresh (k margin : Nat) (s : State) : State :=
  if margin < 2000 then
    dirPut (ent 0xA020 7) (.blob (patch (slice (dirBytes s (ent 0xA020 7)) 0 16) k [1])) s
  else s

/-- A channel's default offset: shifted when more than 5 % of its reads needed a retry. -/
def planOffset (c share : Nat) (s : State) : State :=
  if 5 < share then
    let b := slice (dirBytes s (ent 0xA020 8)) 0 32
    dirPut (ent 0xA020 8) (.blob (patch b c (leBytes 1 (min 15 (fieldLE b c 1 + 1))))) s
  else s

/-- Four lanes without a weak one: the lower half of the link's lanes, else the upper. -/
def laneHalf (weak : Nat) : Nat := if weak % 16 = 0 then 0x0F else 0xF0

/-- A link with a weak lane at its last two trainings gets a plan of four lanes (R283); an element is 256 × λ plus the mask
of its weak lanes. -/
def planLanes4 (w : Nat) (s : State) : State :=
  if w / 256 < 36 ∧ w % 256 ≠ 0 then saveRecord (dirSet (linkObj (w / 256) 0xA) (laneHalf (w % 256)) s) else s

/-- The plan of Table 18-10, and its entry in every die's logbook (R429). -/
def planMargins (i : PlanInputs) (s : State) : State :=
  let s := foldS [0, 1, 2] planGuard (foldS [0, 1] planBin s)
  let s := foldS (numbered (i.retention.take 16)) (fun p s => planRefresh p.1 p.2 s) s
  let s := foldS i.banksOut (fun b s => if b < 16384 then bankOut (b / 1024) (b % 1024) s else s) s
  let s := foldS (numbered (i.retryShare.take 32)) (fun p s => planOffset p.1 p.2 s) s
  let s := foldS i.lanesWeak planLanes4 s
  let now := timestamp s
  let s := foldS (upFrom 0 19) (fun d s => onDieLog d (fun l => { l with plans := l.plans ++ [now] }) s) s
  let s := foldS (numbered (i.retention.take 16)) (fun p s =>
    onDieLog (3 + p.1) (fun l => { l with retention := p.2 :: l.retention }) s) s
  dirSet (ent 0xA020 2) now { s with log := { s.log with replan := false, planTick := s.clk.tick } }

/-- MARGIN_REPLAN (R429): at a cold boot, on request, and every 0xA020:0A ticks. -/
def execMarginReplan (i : PlanInputs) (s : State) : Out :=
  .next (if nodeAwake s ∧ (s.log.replan ∨ s.log.planTick + dirNum s (ent 0xA020 0xA) ≤ s.clk.tick) then planMargins i s else s)

/-- One tick's step of 5 mV on every logic die whose guardband is rising (Table 18-10). -/
def raiseGuard (s : State) : State :=
  foldS [0, 1, 2] (fun d s =>
    let n := smGetD s.log.raising d 0
    if n = 0 then s
    else
      let b := patch (slice (dirBytes s (ent 0xA020 4)) 0 3) d (leBytes 1 (guardband s d + 5))
      dirPut (ent 0xA020 4) (.blob b) { s with log := { s.log with raising := smSet 0 s.log.raising d (n - 1) } }) s

end Sys2Proof.Machine
end

