-- ==== Sys2Proof/Machine/Traffic.lean ====
section
/-! DEFINITION. Traffic: the commands of the ports and of traffic control (chapters 13, 14 and 20). -/
namespace Sys2Proof.Machine

/-- States in which a sub-port that is up sends what waits (Table 13-14). -/
def mayTransmit (s : State) : Bool := portsDriven s

/-- TRANSMIT_SELECT (R338): a free sub-port starts the next packet. -/
def execTransmitSelect (p : Nat) (s : State) : Out :=
  .next (if portUp s p && mayTransmit s && decide (smGetD s.trf.busy p 0 ≤ s.clk.now) then selectNext p s else s)

/-- The frame passed the VLAN and MACsec rules of its sub-port (R298, R299). -/
def frameOk (s : State) (p : Nat) (a : NetAsk) : Bool :=
  let v := dirNum s (ent (0xB100 + p) 6)
  a.vlan.all (fun x => x == v && v != 0xFFFF) && a.macsec == (dirNum s (ent (0xB100 + p) 7) != 0)

/-- The address asked for is the sub-port's own. -/
def ownAddress (s : State) (p : Nat) (a : NetAsk) : Bool :=
  a.target != 0 && a.target == (if a.v6 then leNat (dirBytes s (ent (0xB100 + p) 4)) else dirNum s (ent (0xB100 + p) 3))

/-- ARP_ND_ICMP (R298, R480): an answer for the sub-port's own address, by the control path; its bytes are the kind, the
address asked for and the asker. -/
def execArpNdIcmp (p : Nat) (a : NetAsk) (s : State) : Out :=
  .next (if !portUp s p then s
    else
      let s := bump (ent (0xB100 + p) 0xB) s
      if !frameOk s p a then bump (ent (0xB100 + p) 0xC) s
      else if ownAddress s p a then
        putOut p true 0 0 ⟨p, a.v6, a.src, 0⟩ 0 0 [leBytes 1 (b01 a.echo) ++ leBytes 16 a.target ++ leBytes 16 a.src] s
      else s)

/-- SUBPORT_UP (R459): lock has held for 10 ms. -/
def execSubportUp (p : Nat) (s : State) : Out := .next (if p < 8 then portRise p s else s)

/-- SUBPORT_DOWN (R459): lock has been lost for 1 ms. -/
def execSubportDown (p : Nat) (s : State) : Out := .next (if p < 8 then portDown p s else s)

/-- HOLD_DOWN_END (R459): after 16,000 ticks a held sub-port tries again. -/
def execHoldDownEnd (p : Nat) (s : State) : Out :=
  .next (match (portSt s p).held with
    | some t => if t + 16000 ≤ s.clk.tick then onPort p (fun x => { x with held := none }) s else s
    | none => s)

/-- PCS_LOCK_LOSS (R459): a loss shorter than 1 ms is corrected and counted; a longer one takes the link down. -/
def execPcsLockLoss (p ns : Nat) (regained : Bool) (s : State) : Out :=
  .next (if 8 ≤ p ∨ !portUp s p then s
    else if 1000000 ≤ ns then portDown p s
    else if regained then bump (ent (0xB100 + p) 0xC) s
    else s)

/-- RX_DROPPED (R298, R299, R301): a frame dropped before HXT. Reasons 0 to 5: MAC, missing SecTAG, ICV, replay window,
SecTAG while MACsec is off, VLAN. Reasons 6 to 9: IP fragment, IPv4 options, IPv6 extension headers, a checksum. Reason 10:
a datagram not addressed to the HXT port. -/
def execRxDropped (p reason : Nat) (s : State) : Out :=
  .next (if !portUp s p then s
    else
      let s := bump (ent (0xB100 + p) 0xB) s
      let s := whenS (decide (reason < 10)) (bump (ent (0xB100 + p) 0xC)) s
      whenS (inR reason 6 10) pkDrop s)

/-- SAMPLE (R339): at a frame boundary that is a multiple of 0x3010:04, every queue is sampled. -/
def execSample (s : State) : Out :=
  .next (if s.clk.counting && sincePost s % frameCycles == 0 && frameNo s % max 1 (dirNum s (ent 0x3010 4)) == 0 then
      foldS (upFrom 0 64) (fun t => foldS (upFrom 0 16) (sampleQueue t)) s
    else s)

end Sys2Proof.Machine
end

