-- ==== Sys2Proof/Machine/BootOps.lean ====
section
/-! DEFINITION. BootOps: what the resets keep and lose, the cold boot, the warm reset, the flush, the ready wave and the
start post (R249, R275, R277, R441, R449 to R458). -/
namespace Sys2Proof.Machine

/-! ### Time on the always-on clock (R363) -/

/-- AON cycles now: 1.6 MHz beside 1.6 GHz, and never before the latest pin event. -/
def aonNow (s : State) : Nat := max s.clk.aon (s.clk.now / 1000)

/-- AON cycles of 100 ms (R452). -/
def warmGap : Nat := 160000

/-- The AON cycle of a pin event noted. -/
def atPin (c : Nat) (s : State) : State := { s with clk := { s.clk with aon := max (aonNow s) c } }

/-! ### Cold reset (Table 20-2) -/

/-- Two value maps joined; the second wins. -/
def joinVals (a b : SMap DVal) : SMap DVal := b.foldl (fun m p => smPut m p.1 p.2) a

/-- The media as they are found after a cold reset: what NAND holds. Superblocks that were open are closed. -/
def coldFlash (f : Flash) : Flash :=
  let close := fun (b : SBlk) => if b.st = 1 then { b with st := 2 } else b
  { State.reset.flash with
    store := f.store, blocks := f.blocks.map (fun p => (p.1, close p.2)), durable := f.durable, durWrites := f.durWrites,
    wear := f.wear, endurance := f.endurance, remap := f.remap, retired := f.retired, flushRec := f.flushRec,
    nextJob := f.nextJob }

/-- A corpus as its flash journal holds it: it serves nothing until it is rebuilt (R159). -/
def coldCorpus (c : Corp) : Corp := { c with items := [], patched := [], serving := false }

/-- The state that a cold reset leaves (Table 20-2): the boot flash, NAND, entries of persistence L and S, and what lies
outside the reset. -/
def coldClear (cause : Nat) (s : State) : State :=
  let s := applyUpdates s
  let vals := joinVals (newerCopy s) (valsOf 3 s.dir.vals)
  let r := State.reset
  let s1 : State := { r with
    pending := s.pending, free := s.free
    clk := { s.clk with counting := false }
    hxt := { r.hxt with sent := s.hxt.sent }
    fab := { r.fab with out := s.fab.out }
    log := { r.log with saved := s.log.saved, summ := s.log.summ, order := s.log.order }
    dir := { r.dir with
      vals := vals, copyA := s.dir.copyA, copyB := s.dir.copyB, seqA := s.dir.seqA, seqB := s.dir.seqB
      restore := s.dir.restore }
    chain := { r.chain with enumIn := s.chain.enumIn, enumSince := s.chain.enumSince, out := s.chain.out }
    cmp := { r.cmp with staged := s.cmp.staged, stored := s.cmp.stored, image := s.cmp.image }
    path := { r.path with corpora := s.path.corpora.map coldCorpus }
    flash := coldFlash s.flash
    sec := { r.sec with
      imageA := s.sec.imageA, imageB := s.sec.imageB, trialA := s.sec.trialA, trialB := s.sec.trialB
      newA := s.sec.newA, newB := s.sec.newB, tap := s.sec.tap, console := s.sec.console }
    pins := { r.pins with
      wrstLow := s.pins.wrstLow, thermtrip := s.pins.thermtrip, tripSeen := s.pins.tripSeen, refsLost := s.pins.refsLost } }
  dirSet (ent 0x4050 1) cause { s1 with cmp := { s1.cmp with epochC := compl 32 (epoch s1) } }

/-- Logged ticks when the tick count starts again at zero. -/
def oldTicks (m : SMap (Nat × Nat × DieLog)) : SMap (Nat × Nat × DieLog) := m.map (fun p => (p.1, (0, p.2.2)))

/-- The state that the loss of every rail leaves: the always-on domain's counters start anew as well, and THERMTRIP_N is
released (R466, R470). -/
def powerLost (s : State) : State :=
  let s := coldClear 0 s
  { s with
    clk := State.reset.clk
    log := { s.log with saved := oldTicks s.log.saved, summ := oldTicks s.log.summ }
    chain := { s.chain with enumSince := 0 }
    pins := { s.pins with thermtrip := false, tripSeen := none } }

/-! ### The flush (R249) -/

/-- Compute dies without clocks: no thread, stream or work item is left, and no circular runs. -/
def stopDies (s : State) : State :=
  let r := State.reset
  let idle := fun (q : Seqr) => { q with
    queue := [], loads := [], phase := SeqPhase.idle, loop := none, latchA := [], latchB := [], foot := none, aborting := false
    knocks := [] }
  { s with
    sea := { r.sea with kernelK := s.sea.kernelK, nextTag := s.sea.nextTag, coresOut := s.sea.coresOut }
    stk := s.stk.map (fun p => (p.1, idle p.2))
    par := { r.par with next := s.par.next } }

/-- Steps 1 to 3 of Table 10-8: every request ends with no receipt, links and ports are off, clusters power-gated. -/
def startFlush (s : State) : State :=
  let s := { s with hxt := { s.hxt with reqs := [], asm := [], out := [] } }
  let s := stopDies (dropParts (portsOff (fabricOff s)))
  { s with phase := .flushing, pwr := { s.pwr with clusters := (upFrom 0 (nClusters s)).map (fun c => (c, ClState.powerGated)) } }

/-- A cold reset that waited for the flush takes place (R451). -/
def afterFlush (s : State) : State := if s.pins.porstDue then coldClear 1 s else s

/-- Steps 4 to 7 of Table 10-8. -/
def endFlush (s : State) : State := afterFlush { sleepStacks (flushMedia s) with phase := .flushDone }

/-- PWRFAIL_N has qualified (Table 20-7): before the first start post the bring-up stops and the node is at flush-done; a
node that holds writes runs the flush. -/
def powerFail (s : State) : State :=
  match s.phase with
  | .railWait => endFlush (startFlush s)
  | .booting => endFlush (startFlush s)
  | .ready => endFlush (startFlush s)
  | .serving => startFlush s
  | .warmReset => startFlush s
  | .warmHold => startFlush s
  | .warmBoot => startFlush s
  | .warmReady => startFlush s
  | .halting => startFlush s
  | .halted => startFlush s
  | _ => s

/-! ### Warm reset (R452, R453) -/

/-- Both conditions of R452, outside the events of Table 20-7 during which a request is ignored. -/
def warmAccepted (s : State) (c : Nat) : Bool :=
  (s.phase == .serving || s.phase == .warmBoot || s.phase == .warmReady || (s.phase == .halted && s.pins.haltDone))
    && (s.pins.posted || s.phase == .halted) && s.pins.warmAt.all (fun t => decide (t + warmGap ≤ c))

/-- Chain sessions, their transfer slots and waiting requests end with a reset (R395, R401). -/
def dropChainSessions (s : State) : State :=
  { s with
    chain := { s.chain with sessions := [] }
    hxt := { s.hxt with chals := s.hxt.chals.filter (fun c => !c.chain) }
    dir := { s.dir with slots := [], waiting := [], commits := s.dir.commits.map (fun p => (p.1, Answer.none)) } }

/-- Steps 1 to 3 of Table 20-4: frames are no longer counted; admitted envelopes end with ABORTED, queued ones are
discarded; running circulars stop at their next step. -/
def enterWarm (cause c : Nat) (s : State) : State :=
  let s := bump (ent 0x4050 3) (dirSet (ent 0x4050 1) cause s)
  let s := { s with clk := { s.clk with counting := false }, pins := { s.pins with warmAt := some c, resetAt := c } }
  let s := endAdmitted 0x60 s
  let s := dropChainSessions { s with hxt := { s.hxt with reqs := [], asm := [] } }
  let stop := fun (q : Seqr) => if q.phase = .run then { q with aborting := true } else q
  { dropParts s with phase := .warmReset, stk := s.stk.map (fun p => (p.1, stop p.2)) }

/-- A warm reset request at AON cycle `c` (R452). -/
def askWarm (cause c : Nat) (s : State) : State :=
  if s.phase = .bootFailed ∨ s.phase = .coldReset then s
  else if warmAccepted s c then enterWarm cause c s
  else bump (ent 0x4050 4) s

/-- Memory over a warm reset: the stacks and their seal state are kept; caches, local stores and L2 scratch are not. -/
def warmMem (m : Mem) : Mem :=
  { m with
    bytes := m.bytes.filter (fun p => inStack p.1), synd := m.synd.filter (fun p => inStack (8 * p.1))
    lines := [], iline := [], wbq := [] }

/-- Table 20-2, warm reset: what the compute dies and the engines of the I/O die held is lost. -/
def warmLose (s : State) : State :=
  let r := State.reset
  let s := stopDies s
  let s : State := { s with
    mem := warmMem s.mem
    hxt := { r.hxt with nextRid := s.hxt.nextRid, nextSid := s.hxt.nextSid, nextOrd := s.hxt.nextOrd, sent := s.hxt.sent }
    trf := r.trf
    pwr := { r.pwr with
      cap := s.pwr.cap, floor := s.pwr.floor, below := s.pwr.below, overT := s.pwr.overT, thermal := s.pwr.thermal
      boosted := s.pwr.boosted, mcIdle := s.pwr.mcIdle, groupsStandby := s.pwr.groupsStandby, grLast := s.pwr.grLast }
    path := { s.path with parts := [], pass := none, ctx := [], attends := [], tabs := [] }
    cmp := { s.cmp with placed := s.cmp.placed.filter (fun p => p.kind == 0), nodesOut := [] }
    fab := { s.fab with
      held := [], outs := [], asm := [], trees := [], readyKids := [], readySent := false, readyAt := none, startAt := none
      parent := 0, holdSince := none }
    pins := { s.pins with trained := false, mapsIn := false } }
  sessCount s

/-- Tenants that are enabled serve; every bucket is set by its reset fill (R326, R335). -/
def startTenants (s : State) : State :=
  foldS (upFrom 0 64) (fun t s =>
    refillPolicer t (if dirFlag s (ent (0x3100 + t) 1) then onTenant t (fun x => { x with active := true }) s else s)) s

/-- The map and the image of a partition boot (R375, R376): corpora are rebuilt, and every link may train again. -/
def partitionLoad (s : State) : State :=
  let s := loadMaps s
  { s with
    path := { s.path with corpora := s.path.corpora.map coldCorpus }
    cmp := { s.cmp with placed := [] }
    fab := { s.fab with links := s.fab.links.map (fun p => (p.1, { p.2 with downs := [] })) }
    pins := { s.pins with mapsIn := true } }

/-- The warm bring-up (R454): where no partition ran, the map and the image are loaded again; the runtime starts with the K
now written (R32), and links train. -/
def warmUp (s : State) : State :=
  let s := { s with phase := .warmBoot }
  let s := whenS (!s.fab.running) partitionLoad s
  let s := startTraining (startTenants { s with
    fab := { s.fab with running := false }
    sea := { s.sea with kernelK := dirNum s (ent 0xC010 2) }
    pins := { s.pins with trained := true } })
  showClock (onFlash (fun f => { f with flushRec := f.flushRec && !f.serving }) s)

/-- Steps 4 to 6 of Table 20-4, and the bring-up when WRST_N is high. -/
def holdPoint (s : State) : State :=
  let s := fabricOff (portsOff s)
  let s := whenS s.flash.serving programBuffer s
  let s := { sleepStacks (warmLose s) with phase := .warmHold }
  whenS (!s.pins.wrstLow) warmUp s

/-! ### Cold boot (R432 to R443, R455, R457) -/

/-- Entries that a write of 1 to 0x1010:0D restores: S, outside area 0x9000, RW, WO or RWC (R399). -/
def isRestored (obj : Nat) : Bool :=
  (catRow obj).any (fun r => r.per == 2 && obj / 2 ^ 20 != 9 && (r.acc == 1 || r.acc == 2 || r.acc == 3))

/-- Defaults restored; the staged map is discarded with its epoch (R399). -/
def restoreDefs (s : State) : State :=
  let s := dirSet (ent 0x2010 6) 0 { s with
    dir := { s.dir with vals := s.dir.vals.filter (fun p => !isRestored p.1), restore := false }
    cmp := { s.cmp with staged := [] } }
  saveRecord s

/-- Clusters, cores and threads of a grade (Table 0-1). -/
def gradeParts (g : Nat) : Option (Nat × Nat × Nat) :=
  if g = 65 then some (32, 512, 8192) else if g = 66 then some (30, 480, 7680) else if g = 67 then some (28, 448, 7168) else none

/-- Identity and factory record (R432, R434, R371). -/
def takeIdentity (inp : BootInputs) (p : Nat × Nat × Nat) (s : State) : State :=
  let key := slice (Config.identityKey 0) 0 97
  let s := dirPut (ent 0x9010 1) (.blob key) (dirPut (ent 0x9010 5) (.blob (slice (Config.sha384 key) 0 16)) s)
  let s := dirPut (ent 0x9010 2) (.blob inp.record) (dirSet (ent 0x1001 1) inp.grade s)
  let s := dirSet (ent 0x1002 1) p.1 (dirSet (ent 0x1002 2) p.2.1 (dirSet (ent 0x1002 3) p.2.2 s))
  { s with sec := { s.sec with idKey := true, copyB := inp.recordB } }

/-- Slot that a cold boot tries first: the preferred one, unless its image was started and never confirmed (R442). -/
def firstSlot (s : State) : Bool :=
  let b := dirNum s (ent 0x9020 1) == 1
  if (if b then s.sec.trialB else s.sec.trialA) then !b else b

/-- A slot's image passes the checks of R441. -/
def slotGood (inp : BootInputs) (s : State) (b : Bool) : Bool :=
  if b then inp.imageBOk && decide (dirNum s (ent 0x9020 4) ≤ inp.versionB)
  else inp.imageAOk && decide (dirNum s (ent 0x9020 4) ≤ inp.versionA)

/-- The slot that starts, and whether it was the second tried. -/
def bootSlot (inp : BootInputs) (s : State) : Option (Bool × Bool) :=
  let b := firstSlot s
  if slotGood inp s b then some (b, false) else if slotGood inp s (!b) then some (!b, true) else none

/-- A digest among the boot's. -/
def bootDigest (inp : BootInputs) (i : Nat) : Bytes := slice (inp.digests.getD i []) 0 48

/-- The image of a slot starts: measured, and a trial when it never ran before (R441 to R443). -/
def startImage (inp : BootInputs) (b fell : Bool) (s : State) : State :=
  let fresh := if b then s.sec.newB else s.sec.newA
  let s := { s with sec := { s.sec with
    runB := b, parts := [bootDigest inp 2, bootDigest inp 3, bootDigest inp 4]
    trialA := s.sec.trialA || (!b && fresh), newA := s.sec.newA && b
    trialB := s.sec.trialB || (b && fresh), newB := s.sec.newB && !b } }
  let s := whenS fell (dirSet (ent 0x9020 8) 1) s
  let s := dirSet (ent 0x9020 2) (b01 b) (dirSet (ent 0x9020 7) (b01 (if b then s.sec.trialB else s.sec.trialA)) s)
  let ver := fun (ok : Bool) (v : Nat) => leBytes 4 (if ok then v else 0)
  let s := dirPut (ent 0x9020 5) (.blob (ver inp.imageAOk inp.versionA ++ ver inp.imageBOk inp.versionB)) s
  let s := extendM 0 (bootDigest inp 1) (extendM 0 (bootDigest inp 0) s)
  let s := extendM 3 (bootDigest inp 4) (extendM 2 (bootDigest inp 3) (extendM 1 (bootDigest inp 2) s))
  let s := extendM 7 (slice (Config.sha384 (dirBytes s (ent 0x9010 3))) 0 48) s
  dirPut (ent 0x1004 6) (.blob (inp.runtime.take 32)) (dirPut (ent 0x1004 7) (.blob (inp.controller.take 32)) s)

/-- Tenant keys from the stored-entry record (R446). -/
def loadKeys (s : State) : State :=
  foldS (upFrom 0 64) (fun t s =>
    let k := dirBytes s (ent (0x9100 + t) 1)
    if allZero k then s
    else dirSet (ent (0x9100 + t) 2) 1 { s with sec := { s.sec with psk := smPut s.sec.psk t k } }) s

/-- Segment entries as written, all zeros where none is (R48, R50). -/
def segEntryOf (b : Bytes) : SegEntry := ⟨fieldLE b 0 8, fieldLE b 8 8, fieldLE b 16 8, fieldLE b 24 8⟩

/-- Written segment entries take effect (R50). -/
def loadSegs (s : State) : State :=
  let put := fun (m : SMap SegEntry) (p : Nat × DVal) =>
    match p.2 with
    | .blob b => smPut m ((p.1 / 256 - 0x3400) * 128 + (p.1 % 256 - 1)) (segEntryOf b)
    | .num _ => m
  let ws := s.dir.vals.filter (fun p => decide (0x3400 ≤ p.1 / 256) && decide (p.1 / 256 < 0x3440) && inR (p.1 % 256) 1 128)
  { s with mem := { s.mem with segs := ws.foldl put [] } }

/-- L2 ways locked for the hot store, an equal share of each cluster in whole MiB (R206). -/
def lockWays (s : State) : SMap Nat :=
  let w := min 16 (ceilDiv (dirNum s (ent 0xC060 1)) (max 1 (nClusters s)))
  if w = 0 then [] else (upFrom 0 (nClusters s)).map (fun c => (c, w))

/-- Settings that a cold boot puts into force. -/
def takeSettings (s : State) : State :=
  let s := { s with
    dir := { s.dir with inForce := s.dir.vals }
    sea := { s.sea with kernelK := dirNum s (ent 0xC010 2), balance := dirFlag s (ent 0xC010 1) }
    pwr := { s.pwr with floor := dirNum s (ent 0x4010 1), cap := dirNum s (ent 0x4020 1) }
    mem := { s.mem with ways := lockWays s }
    path := { s.path with pendCap := dirNum s (ent 0xC040 2), hotBytes := dirNum s (ent 0xC060 1) * 2 ^ 20 } }
  takeArrangement 1 (takeArrangement 0 (startTenants (loadSegs s)))

/-- Frequency bins in force: the plan's, 1.6 GHz where there is none (Table 18-10). -/
def takeBins (s : State) : State :=
  let p := dirBytes s (ent 0xA020 6)
  let f := fun (d : Nat) => if fieldLE p (2 * d) 2 = 0 then 1600 else fieldLE p (2 * d) 2
  dirPut (ent 0xA020 5) (.blob (leBytes 2 (f 0) ++ leBytes 2 (f 1))) s

/-- Every row of every stack written with zeros and sealed (R129). -/
def zeroStacks (s : State) : State :=
  { s with mem := { s.mem with bytes := [], synd := [], unsealedDef := false, rowFlip := [], rowBad := [] } }

/-- Logbooks resume, a trip that VAON outlived is counted, every die's summary is written (R425, R426, R470). -/
def startLogs (s : State) : State :=
  let s := foldS (upFrom 0 19) resumeDie s
  let s := match s.pins.tripSeen with
    | some d =>
      let s := onDieLog d (fun l => { l with trips := l.trips + 1 }) (bump (ent 0x4030 5) s)
      { s with pins := { s.pins with tripSeen := none } }
    | none => s
  foldS (upFrom 0 19) mirrorDie s

/-- References missing, as 0x4040:01 shows them (R468). -/
def showRefs (s : State) : State :=
  dirSet (ent 0x4040 1) ((s.pins.refsLost.map (fun i => 2 ^ i)).foldl (fun a b => a + b) 0) s

/-- From a good image to the start of link training (Table 20-5, steps 3 to 8). -/
def bootOn (inp : BootInputs) (b fell : Bool) (s : State) : State :=
  let s := takeSettings (loadKeys (startImage inp b fell s))
  let s := zeroStacks (takeBins (showRefs (startLogs s)))
  let s := foldS inp.stacksBad (fun k s => if k < 16 then stackOut k s else s) (refreshResources s)
  let s := foldS inp.banksBad (fun k s => if k < 16384 then bankOut (k / 1024) (k % 1024) s else s) s
  let s := startTraining (partitionLoad (showReserve s))
  showClock { s with
    phase := .booting
    err := { s.err with wdTick := s.clk.tick }
    log := { s.log with replan := true }
    pins := { s.pins with trained := true } }

/-- A cold boot whose rails are in tolerance (Table 20-5). -/
def bootNow (inp : BootInputs) (s : State) : State :=
  let s := bump (ent 0x4050 8) { s with pins := { s.pins with resetAt := aonNow s, bootIn := none } }
  let failed := fun (s : State) => { s with phase := Phase.bootFailed }
  if !inp.pufOk then failed (dirSet (ent 0x9010 0xA) 1 s)
  else match gradeParts inp.grade with
  | none => failed s
  | some p =>
    if !inp.recordOk then failed s
    else
      let s := takeIdentity inp p (whenS s.dir.restore restoreDefs s)
      match bootSlot inp s with
      | none => failed (dirSet (ent 0x9020 8) 1 s)
      | some (b, fell) => bootOn inp b fell s

/-- The cold boot at step 1: it waits while a rail is out of tolerance (R465). -/
def coldStart (inp : BootInputs) (s : State) : State :=
  if inp.railsOk then bootNow inp s
  else bump (ent 0x4030 6) { s with phase := .railWait, pins := { s.pins with bootIn := some inp } }

/-! ### The ready wave and the start post (R275, R458) -/

/-- A link planned by the image is still in training. -/
def linksBusy (s : State) : Bool := (upFrom 0 36).any (fun k => (ownPlan s k).isSome && linkState s k == 1)

/-- Children that the ready wave awaits: those the map and the image give the node and that are not held out. -/
def waveKids (s : State) : List Nat := (kidsOf s.fab.image (recPost s)).filter (nodeUp s)

/-- Delay of the link to a child, in 1/32 cycle. -/
def linkDelay (s : State) (k : Nat) : Nat := dirNum s (linkObj k 5)

/-- START passed to the children (R275): inline bytes 0 to 7 are T, 8 to 15 the delays so far in 1/32 cycle (log 43). -/
def sendStart (t path : Nat) (s : State) : State :=
  foldS (waveKids s) (fun c s => beSend 6 0 c 0 0 0 (leBytes 8 t ++ leBytes 8 path) [] s) s

/-- The ready message: kind START with inline byte 16 set (log 43). -/
def sendReady (s : State) : State :=
  optS (parentOf s.fab.image (recPost s)) (fun p s => beSend 6 0 p 0 0 0 (zeros 16 ++ [1]) [] s) s

/-- The node is ready and so is every child: the root chooses T = ready + 0.1 ms + 2^16 cycles; another node tells its
parent. -/
def tryReady (s : State) : State :=
  if s.fab.readyAt.isNone || s.fab.readySent || s.cmp.outside || !(waveKids s).all (fun c => s.fab.readyKids.contains c) then s
  else
    let s := { s with fab := { s.fab with readySent := true } }
    if isRoot s then
      let t := s.clk.now + 160000 + 65536
      sendStart t 0 { s with fab := { s.fab with startAt := some t } }
    else sendReady s

/-- Node ready (R458): after a cold boot or in a partition boot it joins the wave; in a running partition it waits to
rejoin. -/
def becomeReady (s : State) : State :=
  let ms := (aonNow s - s.pins.resetAt) / 1600
  let s := dirSet (ent 0x4050 9) ms s
  tryReady { s with
    phase := if s.phase = .booting then .ready else .warmReady
    fab := { s.fab with readyAt := some s.clk.now } }

/-- Cycle 0 of frame 0 (R275, R363): the tick in progress ends; gates are open; detours around links out of service
engage. -/
def startPost (at_ : Nat) (s : State) : State :=
  let s := { s with
    phase := .serving
    clk := { s.clk with now := max s.clk.now at_, counting := true, post := (at_ : Int), tick := s.clk.tick + 1, tickAt := at_ }
    fab := { s.fab with startAt := none, readyKids := [], readyAt := none }
    pins := { s.pins with posted := true, mapsIn := false } }
  let open_ := fun (p : Nat) (s : State) => dirPut (ent (0x3300 + p) 3) (.blob []) (dirSet (ent (0x3300 + p) 4) 0 s)
  engageDetours (trackParent (foldS (upFrom 0 8) open_ s))

/-- A node takes up the frame count of its parent (R277, R363): its tick ends at the next multiple of 10^6 cycles of that
count. -/
def rejoinAt (frame : Nat) (s : State) : State :=
  let s := { s with
    phase := .serving
    clk := { s.clk with counting := true, post := (s.clk.now : Int) - ((frame * frameCycles : Nat) : Int) }
    pins := { s.pins with posted := true } }
  let ready := fun (x : LinkSt) => { x with ready := true, pending := true }
  trackParent (foldS ((upFrom 0 36).filter (fun k => linkState s k == 2)) (fun k s => onLink k ready s) s)

/-- Nodes absent from the wave at the deadline are treated as down: the links planned to them are out of service. -/
def dropAbsent (s : State) : State :=
  let gone := (waveKids s).filter (fun c => !s.fab.readyKids.contains c)
  let toGone := fun (k : Nat) => (ownPlan s k).any (fun r => gone.contains (planPost r))
  let s := foldS ((upFrom 0 36).filter toGone) (fun k s =>
    setLinkState k 6 (onLink k (fun x => { x with ready := false, pending := true }) s)) s
  { s with cmp := { s.cmp with nodesOut := gone.foldl insNat s.cmp.nodesOut } }

end Sys2Proof.Machine
end

