-- ==== Sys2Proof/Machine/Boot.lean ====
section
/-! DEFINITION. Boot: the commands of power, reset and bring-up, and of supplies, temperatures and reference clocks
(chapters 10, 11, 20 and 21). -/
namespace Sys2Proof.Machine

/-! ### Power failure and flush (R249, R450, R460) -/

/-- PWRFAIL_N (R450): low for 1.25 µs it qualifies, for less than 1.0 µs it does not, between either is free. Once it has
qualified it is ignored until the next cold boot. -/
def execPwrfailN (ns : Nat) (s : State) : Out :=
  .next (if s.phase = .flushing ∨ s.phase = .flushDone ∨ s.phase = .coldReset ∨ s.phase = .stopped then s
    else if 1250 ≤ ns then powerFail s
    else if ns < 1000 then bump (ent 0x4050 6) s
    else
      let d := draw s
      if Config.choose d.1 2 % 2 = 1 then powerFail d.2 else bump (ent 0x4050 6) d.2)

/-- FLUSH_DONE: the flush of Table 10-8 is complete, or steps 5 and 6 of Table 18-8 are; a cold reset that waited for it
follows. -/
def execFlushDone (s : State) : Out :=
  .next (match s.phase with
    | .flushing => endFlush s
    | .halting => afterFlush (let t := flushMedia s; { t with phase := .halted, pins := { t.pins with haltDone := true } })
    | _ => s)

/-! ### Resets (R449 to R455) -/

/-- A qualified PORST_N (R451, Table 20-7): what still holds writes flushes first. -/
def coldRequest (s : State) : State :=
  let due := fun (s : State) => { s with pins := { s.pins with porstDue := true } }
  match s.phase with
  | .serving => startFlush (due s)
  | .warmReset => startFlush (due s)
  | .warmHold => startFlush (due s)
  | .warmBoot => startFlush (due s)
  | .warmReady => startFlush (due s)
  | .flushing => due s
  | .halting => due s
  | _ => coldClear 1 s

/-- PORST_N (R450): it qualifies when low for 16 AON cycles. In cold reset nothing but THERMTRIP_N works. -/
def execPorstN (at_ low : Nat) (s : State) : Out :=
  .next (if s.phase = .coldReset then s
    else
      let s := atPin (at_ + low) s
      if low < 16 then bump (ent 0x4050 5) s else coldRequest s)

/-- COLD_BOOT (R455): power has been applied or PORST_N is released. -/
def execColdBoot (inp : BootInputs) (s : State) : Out := .next (if s.phase = .coldReset then coldStart inp s else s)

/-- RAILS_IN_TOLERANCE (R465): the cold boot held at step 1 proceeds. -/
def execRailsInTolerance (s : State) : Out :=
  .next (match s.phase, s.pins.bootIn with
    | .railWait, some inp => bootNow inp s
    | _, _ => s)

/-- WRST_N (R450, R452): it qualifies when low for 16 AON cycles, at cycle `at_ + 16`. -/
def execWrstN (at_ low : Nat) (s : State) : Out :=
  .next (if s.phase = .coldReset then s
    else
      let s := atPin (at_ + min low 16) s
      if low < 16 then bump (ent 0x4050 5) s
      else askWarm 2 (at_ + 16) { s with pins := { s.pins with wrstLow := true } })

/-- HOLD_POINT (R453). -/
def execHoldPoint (s : State) : Out := .next (if s.phase = .warmReset then holdPoint s else s)

/-- WRST_N_RELEASE (R453): a node at its hold point comes up. -/
def execWrstNRelease (s : State) : Out :=
  .next (let s := { s with pins := { s.pins with wrstLow := false } }
    if s.phase = .warmHold then warmUp s else s)

/-- VAON_COLLAPSE (R466): nothing that the always-on domain held is left. -/
def execVaonCollapse (s : State) : Out := .next (powerLost s)

/-! ### Ready wave, start post, rejoin (R275, R277, R458) -/

/-- NODE_READY (R454, R458): runtime, stacks, map and links are ready. Where no partition runs, a warm bring-up that has not
loaded the maps of a partition boot does so first, and its links train against the new plan. -/
def execNodeReady (s : State) : Out :=
  .next (if !s.pins.trained || linksBusy s then s
    else match s.phase with
    | .booting => becomeReady s
    | .warmBoot => if s.fab.running || s.pins.mapsIn then becomeReady s else startTraining (partitionLoad s)
    | _ => s)

/-- READY_MESSAGE (R275): a child is ready. -/
def execReadyMessage (child : Nat) (s : State) : Out :=
  .next (if s.clk.counting || !(kidsOf s.fab.image (recPost s)).contains child then s
    else tryReady { s with fab := { s.fab with readyKids := insNat s.fab.readyKids child } })

/-- START reaches the node: its start is T plus the delays and 7 cycles per hop of its path, and it is passed on. -/
def takeStart (m : FabMsg) (s : State) : State :=
  if s.clk.counting || s.cmp.outside || s.fab.startAt.isSome then s
  else
    let t := fieldLE m.inl 0 8
    let p := fieldLE m.inl 8 8 + linkDelay s m.link + 7 * 32
    sendStart t p { s with fab := { s.fab with startAt := some (t + (p + 16) / 32) } }

/-- START (R275): a START message, or on its way up a ready message (log 43). -/
def execStart (m : FabMsg) (s : State) : Out :=
  .next (onBest 6 m (fun h s =>
    if fieldLE m.inl 16 1 = 0 then takeStart m s
    else if s.clk.counting || !(kidsOf s.fab.image (recPost s)).contains h.source then s
    else tryReady { s with fab := { s.fab with readyKids := insNat s.fab.readyKids h.source } }) s)

/-- READY_DEADLINE (R275): two seconds after its own links were ready the root waits for no one else. -/
def execReadyDeadline (s : State) : Out :=
  .next (if isRoot s && !s.fab.readySent && s.fab.readyAt.any (fun t => decide (t + usCycles 2000000 ≤ s.clk.now)) then
      tryReady (dropAbsent s)
    else s)

/-- START_POST (R275): the cycle that START names has come. -/
def execStartPost (s : State) : Out :=
  .next (match s.fab.startAt with
    | some t => if s.phase = .ready ∨ s.phase = .warmReady then startPost t s else s
    | none => s)

/-- REJOIN (R277): a ready node whose parent counts frames takes up that count. -/
def execRejoin (frame : Nat) (s : State) : Out :=
  .next (if (s.phase = .warmReady ∨ s.phase = .ready) ∧ s.fab.running ∧ !s.cmp.outside then rejoinAt frame s else s)

/-- HOLDOVER (R257): 2^20 frames without a parent: a FATAL error of the timetable engine. -/
def execHoldover (s : State) : Out :=
  .next (if s.phase = .serving ∧ s.fab.holdSince.any (fun t => decide (t + 2 ^ 20 * frameCycles ≤ s.clk.now)) then
      haltNode ⟨0x19, 0x6002, 0, 0, false⟩ s
    else s)

/-! ### Supplies (R466) -/

/-- Die whose logbook takes a rail's droops: the compute die of its regulators, else the I/O die (Table 18-9). -/
def railDie (rail : Nat) : Nat := if rail = 3 then 0 else if rail = 4 then 1 else 2

/-- A droop logged: the count, and the 64 latest with timestamp and depth (Table 18-9). -/
def logDroop (rail mv : Nat) (s : State) : State :=
  let e := (timestamp s, mv)
  onDieLog (railDie rail) (fun l => { l with droops := l.droops + 1, droopLog := (e :: l.droopLog).take 64 }) s

/-- Rails whose fault starts a flush: VIN_C0, VIN_C1, VDDA_F, VDDA_E, in the order of Table 21-3. -/
def flushRail (rail : Nat) : Bool := rail == 3 || rail == 4 || rail == 6 || rail == 7

/-- Every clock but the always-on domain's stops, without a flush (R466). -/
def stopClocks (s : State) : State :=
  let s := stopDies (dropParts (portsOff (fabricOff { s with hxt := { s.hxt with reqs := [], asm := [], out := [] } })))
  { s with phase := .stopped }

/-- RAIL_FAULT (R466): a rail below its minimum for 2 µs or more; a shorter fall is a DROOP. VAON has a command of its own. -/
def execRailFault (rail ns : Nat) (s : State) : Out :=
  .next (if s.phase = .coldReset ∨ s.phase = .stopped ∨ rail = 0 ∨ 12 < rail ∨ ns < 2000 then s
    else
      let s := bump (ent 0x4030 3) (writeSticky (stickyRec s 0x16 0x9000 0 rail) s)
      if flushRail rail then powerFail s else stopClocks s)

/-- DROOP (R424, R466): more than 50 mV below the set point for 20 ns or more. -/
def execDroop (rail mv ns : Nat) (s : State) : Out :=
  .next (if nodeAwake s ∧ 50 < mv ∧ 20 ≤ ns ∧ ns < 2000 then logDroop rail mv s else s)

/-! ### Temperatures (R470) -/

/-- Unit and location of a die: a stack, or the always-on domain with the die in word 1 (Table 18-6). -/
def dieUnit (die : Nat) : Nat × Nat := if 3 ≤ die then (0x2000 + (die - 3), 0) else (0x9000, fld die 4)

/-- THERMAL_HALT (R470): a die at 110 °C, a stack at 100 °C. -/
def execThermalHalt (die : Nat) (temp : Int) (s : State) : Out :=
  .next (if nodeAwake s ∧ (if 3 ≤ die then 100 ≤ temp else 110 ≤ temp) then
      let u := dieUnit die
      bump (ent 0x4030 4) (haltNode ⟨0x18, u.1, u.2, 0, false⟩ s)
    else s)

/-- THERMTRIP (R470): a die at 120 °C, a stack at 103 °C, whatever the state of resets. -/
def execThermtrip (die : Nat) (temp : Int) (s : State) : Out :=
  .next (if if 3 ≤ die then 103 ≤ temp else 120 ≤ temp then
      { s with pins := { s.pins with thermtrip := true, tripSeen := some die } }
    else s)

/-! ### Reference clocks (R468) -/

/-- Loss of REF25: on the root, or on a node that is not syntonised, halt-and-report and the internal oscillator; else a
CORRECTED record. -/
def lostRef25 (s : State) : State :=
  if isRoot s || !isSyntonised s then
    let s := dirSet (ent 0x4040 4) 2 { s with pins := { s.pins with aonInt := true } }
    haltNode ⟨0x18, 0x9000, 0, 0, false⟩ s
  else record 0x16 0 9 0 0 0 0 none s

/-- Links at generation 1 go down (R282). -/
def lostFabRef (s : State) : State :=
  foldS ((upFrom 0 36).filter (fun k => carriesBe s k && dirNum s (linkObj k 2) == 1)) (fun k s => linkFalls k s) s

/-- REFERENCE_LOSS (R468): 0 REF25, 1 ETH_REFCLK, 2 FAB_REFCLK has had no edge for 4 µs. -/
def execReferenceLoss (which : Nat) (s : State) : Out :=
  .next (if 2 < which ∨ s.pins.refsLost.contains which ∨ !nodeAwake s then s
    else
      let s := showRefs (bump (ent 0x4040 5) { s with pins := { s.pins with refsLost := insNat s.pins.refsLost which } })
      if which = 0 then lostRef25 s else if which = 1 then portsOff s else lostFabRef s)

/-- REFERENCE_RETURN (R468): the loss bit clears; links and sub-ports that waited come up by their own commands. -/
def execReferenceReturn (which : Nat) (s : State) : Out :=
  .next (if s.pins.refsLost.contains which then
      showRefs { s with pins := { s.pins with refsLost := delNat s.pins.refsLost which } }
    else s)

end Sys2Proof.Machine
end

