-- ==== Sys2Proof/Machine/DirOps.lean ====
section
/-! DEFINITION. DirOps: what directory entries read as, access levels, and the checks of reads and writes (R10, R12, R392 to
R401, R404, Tables 17-5 and 17-6, and the entry rules of the owning chapters). -/
namespace Sys2Proof.Machine

/-! ### Objects -/

/-- Index of an object number. -/
def objIdx (obj : Nat) : Nat := obj / 256
/-- Subindex of an object number. -/
def objSub (obj : Nat) : Nat := obj % 256
/-- Member number of an object within a family of `n` indices from `base`; none outside it. -/
def member (obj base n : Nat) : Option Nat := if inR (objIdx obj) base (base + n - 1) then some (objIdx obj - base) else none
/-- The entry lies in area 0x9000. -/
def inSecurity (obj : Nat) : Bool := obj / 2 ^ 20 == 9

/-! ### Transfer slots (R401) -/

/-- A closed slot. -/
def XSlot.init : XSlot := ⟨0, false, 0, false, 0, 0, [], 0, 0, 0⟩

/-- A transfer slot. -/
def xslot (s : State) (n : Nat) : XSlot := smGetD s.dir.slots n XSlot.init

/-- A transfer slot changed. -/
def onXslot (n : Nat) (f : XSlot → XSlot) (s : State) : State :=
  { s with dir := { s.dir with slots := smSet XSlot.init s.dir.slots n (f (xslot s n)) } }

/-- The slot is open and belongs to another session. -/
def slotForeign (s : State) (a : Actor) (n : Nat) : Bool :=
  let x := xslot s n
  x.state != 0 && !(x.owner == a.session && x.chain == a.chain)

/-- The slot is open and belongs to the actor. -/
def slotOwn (s : State) (a : Actor) (n : Nat) : Bool := (xslot s n).state != 0 && !slotForeign s a n

/-! ### Levels (R394, Table 17-6) -/

/-- The chain runs management version 1 (R404). -/
def chainV1 (s : State) : Bool := dirNum s (ent 0x1010 2) == 1

/-- The tenant that holds the area, corpus or table slot of an object, or whose own object it is; none when nobody does. -/
def entHolder (s : State) (obj : Nat) : Option Nat :=
  let i := objIdx obj
  if inR i 0x3100 0x313F then some (i - 0x3100)
  else if inR i 0x3200 0x323F then some (i - 0x3200)
  else if inR i 0x3400 0x343F then some (i - 0x3400)
  else if inR i 0x3500 0x353F then some (i - 0x3500)
  else if inR i 0x3800 0x3BFF then some ((i - 0x3800) / 16)
  else if inR i 0x6100 0x61FF then (let t := dirNum s (ent i 1); if t = 0xFF then none else some t)
  else if inR i 0xC080 0xC0BF && i != 0xC090 then
    (s.path.corpora.find? (fun c => c.slot == some (i - 0xC080))).map (fun c => c.tenant)
  else if inR i 0xC0C0 0xC0FF then (s.path.tabs.find? (fun t => t.slot == i - 0xC0C0)).map tbTenant
  else none

/-- The level may read the entry (Table 17-6). -/
def mayRead (s : State) (a : Actor) (obj : Nat) : Bool :=
  match a.level with
  | .pub => !inSecurity obj
  | .tenant => obj == ent 0x9010 9
      || (!inSecurity obj && obj != ent 0xA010 5 && (entHolder s obj).all (fun t => t == a.tenant))
  | .operator => true
  | .security => true

/-- Entries that a TENANT session may write beside the nonce and the transfer slots. -/
def tenantWrites (t obj : Nat) : Bool :=
  let i := objIdx obj
  let u := objSub obj
  (i == 0x3100 + t && (u == 2 || u == 0xC || u == 0xD))
    || (inR i (0x3800 + 16 * t) (0x3800 + 16 * t + 15) && (u == 0x10 || u == 0x12 || u == 0x13))

/-- The entry belongs to a transfer slot. -/
def isSlotObj (obj : Nat) : Bool := inR (objIdx obj) 0x1020 0x1027

/-- The level may write the entry (Table 17-6, R404, R439). A version-1 chain opens slots in the read direction at PUBLIC. -/
def mayWrite (s : State) (a : Actor) (obj : Nat) : Bool :=
  match a.level with
  | .pub => a.chain && ((obj == ent 0x9010 3 && (dirBytes s obj).isEmpty)
      || (chainV1 s && isSlotObj obj && (objSub obj == 1 || objSub obj == 2 || objSub obj == 4)))
  | .tenant => obj == ent 0x9010 8 || isSlotObj obj || tenantWrites a.tenant obj
  | .operator => !inSecurity obj || obj == ent 0x9010 8
  | .security => true

/-! ### Values as read -/

/-- Code of a cluster's state in 0x4010:07. -/
def clusterCode (s : State) (n : Nat) : Nat :=
  match smGet? s.pwr.clusters n with
  | some (.clockGated _) => 1
  | some .powerGated => 2
  | _ => 0

/-- Core clock of a bin after throttling, in MHz (Table 15-10): steps 1 to 4 take 100 each, to 1,200, and steps 8 and 9 100
each, to 1,000; the fast limiter allows 1,200 (R367). -/
def throttled (b st : Nat) (fast : Bool) : Nat :=
  let f := max (min b 1200) (b - 100 * min st 4)
  let g := max (min f 1000) (f - 100 * (min st 9 - 7))
  if fast then min g 1200 else g

/-- The lower core clock of the two compute dies (log 62). -/
def coreMhz (s : State) : Nat := throttled (min (binNow s 0) (binNow s 1)) (dirNum s (ent 0x4020 4)) s.pwr.fast

/-- Entry of the trace ring (R427). -/
def traceBytes (e : Trace) : Bytes :=
  leBytes 6 e.pm ++ leBytes 2 e.type ++ leBytes 4 e.sid ++ leBytes 1 e.status ++ leBytes 1 e.cls ++ leBytes 1 e.cause ++ [0]
    ++ leBytes 8 e.admitted ++ leBytes 8 e.handed

/-- The trace ring, zeros beyond the entries kept. -/
def traceRing (s : State) : Bytes := slice (s.log.trace.flatMap traceBytes) 0 2097152

/-- Catalogue record of an entry (R406). -/
def catRecord (r : CatRow) (i u : Nat) : Bytes :=
  leBytes 2 i ++ leBytes 1 u ++ leBytes 1 r.ty ++ leBytes 1 r.acc ++ leBytes 1 r.per ++ leBytes 2 (min 0xFFFF r.maxLen)

/-- Records of the entries of one index, by subindex. -/
def catIndex (rows : List CatRow) (i : Nat) : Bytes :=
  rows.flatMap (fun r => (upFrom r.lo (r.hi + 1 - r.lo)).flatMap (catRecord r i))

/-- The catalogue: every entry, by index and then subindex. -/
def catBytes : List CatRow → Bytes
  | [] => []
  | r :: t =>
    -- the rows of one family stand together; the first of them makes the family's records
    if r.lo = 0 then
      (upFrom r.base r.n).flatMap (fun i => catIndex (r :: t.takeWhile (fun x => x.base == r.base)) i) ++ catBytes t
    else catBytes t

/-- A flag as a value. -/
def boolVal (b : Bool) : DVal := .num (b01 b)

/-- Credits of a queue, one I32 per sub-port. -/
def creditBytes (s : State) (t q : Nat) : Bytes :=
  (upFrom 0 8).flatMap (fun p =>
    let c := (creditNow s t q p).level
    leBytes 4 ((if c < 0 then c + (2 ^ 32 : Int) else c).toNat))

/-- Bytes of the report before its signature (Table 19-5). -/
def reportHead (s : State) (nonce : Bytes) : Bytes :=
  let flags := b01 s.sec.opened + 2 * b01 s.sec.runB + 4 * b01 (dirFlag s (ent 0x9020 7)) + 8 * b01 s.sec.copyB
  let ver := fieldLE (dirBytes s (ent 0x9020 5)) (if s.sec.runB then 4 else 0) 4
  leBytes 2 1 ++ leBytes 1 (dirNum s (ent 0x1001 1)) ++ leBytes 1 flags ++ slice (dirBytes s (ent 0x1001 2)) 0 2
    ++ leBytes 2 (ownPost s) ++ leBytes 4 (epoch s) ++ leBytes 4 ver ++ leBytes 8 (timestamp s)
    ++ leBytes 8 (dirNum s (ent 0x4050 8)) ++ ownIdent s ++ slice nonce 0 48 ++ slice (s.sec.meas.flatMap (fun m => m)) 0 384
    ++ slice (dirBytes s (ent 0x9010 1)) 0 97 ++ zeros 31

/-- An attestation report over a nonce. -/
def reportBytes (s : State) (nonce : Bytes) : Bytes :=
  let h := reportHead s nonce
  h ++ slice (Config.sign (slice (Config.sha384 h) 0 48)) 0 96

/-- Nonce of a session (R444). -/
def nonceOf (s : State) (a : Actor) : Option Bytes :=
  if a.chain then ((s.chain.sessions.find? (fun x => x.sid == a.session)).bind (fun x => x.nonce))
  else ((sess? s a.session).bind (fun x => x.nonce))

/-- Objects of a tenant whose value follows from the state. -/
def shownTenant (s : State) (t u : Nat) : Option DVal :=
  if u = 3 then some (.num (tenantState s t))
  else if u = 6 then some (.num (t1Used s t / 2 ^ 20))
  else if u = 8 then some (.num (flashUsed s t))
  else none

/-- Objects of a queue whose value follows from the state. -/
def shownQueue (s : State) (t q u : Nat) : Option DVal :=
  if u = 0xA then some (.blob (creditBytes s t q)) else if u = 0xB then some (.num (inboxPkts s t q)) else none

/-- Objects of a transfer slot (Table 17-11); the chunk is what a read of it would return. -/
def shownSlot (s : State) (n u : Nat) : Option DVal :=
  let x := xslot s n
  if u = 1 then some (.num x.target)
  else if u = 2 then some (boolVal x.read)
  else if u = 3 then some (.num x.length)
  else if u = 4 then some (.num x.offset)
  else if u = 5 then some (.blob ((x.data.drop x.offset).take 4096))
  else if u = 7 then some (.num x.state)
  else if u = 8 then some (.num x.result)
  else none

/-- A discard of the area runs. -/
def shredding (s : State) (a : Nat) : Bool := s.hxt.reqs.any (fun r => r.type == 0x0402 && r.obj == a && r.st == .executing)

/-- Error-queue objects whose value follows from the queue (Table 18-11). -/
def shownErrors (s : State) (u : Nat) : Option DVal :=
  if u = 1 then some (.num s.err.queue.length)
  else if u = 2 then some (.blob (match s.err.queue with
    | r :: _ => recBytes r
    | [] => zeros 64))
  else if u = 4 then some (.blob (slice (s.err.queue.flatMap recBytes) 0 4096))
  else none

/-- Single objects whose value follows from the state. -/
def shownSingle (s : State) (obj : Nat) : Option DVal :=
  if obj = ent 0x1002 8 then some (.num ((upFrom 0 36).filter (carriesBe s)).length)
  else if obj = ent 0x1003 1 then some (.blob (catBytes catalogue))
  else if obj = ent 0x3010 1 then some (.num ((upFrom 0 64).filter (fun t => dirFlag s (ent (0x3100 + t) 1))).length)
  else if obj = ent 0x3010 3 then some (.num (allInbox s))
  else if obj = ent 0x4010 7 then some (.blob ((upFrom 0 32).flatMap (fun n => leBytes 1 (clusterCode s n))))
  else if obj = ent 0x4040 2 then some (.num (coreMhz s))
  else if obj = ent 0x5020 0xA then some (.num (summaryWord s))
  else if obj = ent 0x9010 6 then some (.blob (slice (s.sec.meas.flatMap (fun m => m)) 0 384))
  else if obj = ent 0xA010 3 then some (.blob (Config.logBytes s.free))
  else if obj = ent 0xA010 4 then some (.blob (slice (Config.logBytes s.free) 0 4096))
  else if obj = ent 0xA010 5 then some (.blob (traceRing s))
  else none

/-- Value of an entry that follows from the state rather than being stored; none for a stored one. -/
def shown (s : State) (obj : Nat) : Option DVal :=
  let i := objIdx obj
  let u := objSub obj
  if inR i 0x3100 0x313F then shownTenant s (i - 0x3100) u
  else if inR i 0x3800 0x3BFF then shownQueue s ((i - 0x3800) / 16) ((i - 0x3800) % 16) u
  else if inR i 0x1020 0x1027 then shownSlot s (i - 0x1020) u
  else if inR i 0x6100 0x61FF then
    (if u = 4 then some (.num (mappedIn s (i - 0x6100))) else if u = 5 then some (boolVal (shredding s (i - 0x6100))) else none)
  else if i = 0x5010 then shownErrors s u
  else shownSingle s obj

/-- Zeros of an entry's type and length (R397). -/
def zeroOf (r : CatRow) : DVal :=
  match r.dflt with
  | .num _ => .num 0
  | .blob b => .blob (zeros b.length)

/-- Value that a read returns, levels apart (R12, R397, R398). -/
def entValue (s : State) (r : CatRow) (obj : Nat) : DVal :=
  if r.acc = 2 then zeroOf r else (shown s obj).getD (dirVal s obj)

/-- Bytes of a value in its entry's type (R397). -/
def valBytes (r : CatRow) (v : DVal) : Bytes :=
  match v with
  | .num n => leBytes (typeSize r.ty) n
  | .blob b => b

/-! ### Reads (R392, R400, R401, R444) -/

/-- Status of a read (Table 17-5) and the value it returns. -/
def readEntry (s : State) (a : Actor) (obj : Nat) : Nat × DVal :=
  match catRow obj with
  | none => (1, .blob [])
  | some r =>
    if !mayRead s a obj then (3, .blob [])
    else if obj = ent 0x9010 9 then
      match nonceOf s a with
      | some n => if s.sec.idKey then (0, .blob (reportBytes s n)) else (2, .blob [])
      | none => (2, .blob [])
    else if isSlotObj obj && objSub obj == 5 then
      let n := objIdx obj - 0x1020
      if slotForeign s a n then (6, .blob [])
      else if slotOwn s a n && (xslot s n).read then (0, entValue s r obj)
      else (2, .blob [])
    else
      let v := entValue s r obj
      if 4096 < (valBytes r v).length then (0xA, .blob []) else (0, v)

/-- What a read leaves: a chunk read advances its slot, any request to a slot keeps it open, a logbook read draws its bytes. -/
def afterRead (a : Actor) (obj : Nat) (s : State) : State :=
  if isSlotObj obj then
    let n := objIdx obj - 0x1020
    if slotOwn s a n then
      let step := fun (x : XSlot) => if objSub obj = 5 then min x.length (x.offset + 4096) else x.offset
      onXslot n (fun x => { x with offset := step x, lastTick := s.clk.tick }) s
    else s
  else if obj = ent 0xA010 3 ∨ obj = ent 0xA010 4 then (draw s).2
  else s

/-! ### Checks of a written value -/

/-- Continuation bytes that a UTF-8 lead byte asks for; none when it is no lead byte. -/
def utf8More (b : Nat) : Option Nat :=
  if b < 0x80 then some 0 else if inR b 0xC2 0xDF then some 1 else if inR b 0xE0 0xEF then some 2 else if inR b 0xF0 0xF4 then some 3
  else none

/-- The first continuation byte's range after a lead byte (overlong forms, surrogates and values past 0x10FFFF excluded). -/
def utf8Next (b : Nat) : Nat × Nat :=
  if b = 0xE0 then (0xA0, 0xBF) else if b = 0xED then (0x80, 0x9F) else if b = 0xF0 then (0x90, 0xBF)
  else if b = 0xF4 then (0x80, 0x8F) else (0x80, 0xBF)

/-- UTF-8 with no terminator (R397): `n` continuation bytes are due, the next within `r`. -/
def utf8Good : Bytes → Nat → Nat × Nat → Bool
  | [], n, _ => n == 0
  | b :: t, 0, _ => match utf8More b.toNat with
    | some n => b != 0 && utf8Good t n (utf8Next b.toNat)
    | none => false
  | b :: t, n + 1, r => inR b.toNat r.1 r.2 && utf8Good t n (0x80, 0xBF)

/-- TYPE: the value's form or length is wrong for the entry. -/
def typeBad (r : CatRow) (v : DVal) : Bool :=
  match v with
  | .num n => decide (8 ≤ r.ty) || decide (256 ^ typeSize r.ty ≤ n)
  | .blob b => decide (r.ty < 8) || r.exact.any (fun n => b.length != n) || decide (r.maxLen < b.length)

/-- RANGE of the entry itself (R10, R397). -/
def rangeBad (r : CatRow) (v : DVal) : Bool :=
  match v with
  | .num n => (r.ty == 0 && decide (1 < n)) || (match r.rng with
      | .any => false
      | .range lo hi => !inR n lo hi
      | .step lo hi k => !(inR n lo hi && (n - lo) % k == 0)
      | .oneOf l => !l.contains n)
  | .blob b => r.ty == 8 && !utf8Good b 0 (0, 0)

/-- A value's number. -/
def valNum (v : DVal) : Nat :=
  match v with
  | .num n => n
  | .blob b => leNat b

/-- A value's bytes. -/
def valBlob (v : DVal) : Bytes :=
  match v with
  | .num _ => []
  | .blob b => b

/-- Rules of a policer's entries (Table 14-8, R329). -/
def policerBad (s : State) (t u : Nat) (v : DVal) : Bool :=
  let e := fun (k : Nat) => dirNum s (ent (0x3200 + t) k)
  let n := valNum v
  if u = 2 then decide (e 4 < n)
  else if u = 3 then decide (e 5 < n)
  else if u = 4 then decide (n < e 2)
  else if u = 5 then decide (n < e 3)
  else if u = 7 then (valBlob v).any (fun b => (upFrom 0 4).any (fun i => bits b.toNat (2 * i + 1) (2 * i) == 3))
  else false

/-- Rules of a queue's entries (R331). -/
def queueBad (s : State) (i u : Nat) (v : DVal) : Bool :=
  if u = 1 then decide (valNum v < dirNum s (ent i 2)) else if u = 2 then decide (dirNum s (ent i 1) < valNum v) else false

/-- Rules of a sub-port's gates (R336, R337). -/
def gateBad (s : State) (p u : Nat) (v : DVal) : Bool :=
  let e := fun (k : Nat) => dirNum s (ent (0xB100 + p) k)
  if u = 1 then !inR (valBlob v).length 8 520 || !gateListGood (valBlob v) (mtuCycles s p (e 5) (e 6) (e 7))
  else if u = 2 then decide (valNum v < frameNo s + 2)
  else false

/-- Rules of a segment entry (Table 2-7): reserved bits and the reserved attribute, and what fetch permission asks for. Its
complements are checked at use (R48). -/
def segBad (s : State) (b : Bytes) : Bool :=
  let w0 := fieldLE b 0 8
  bits w0 62 59 != 0 || bits w0 55 54 != 0 || bits w0 53 52 == 3 || bits (fieldLE b 16 8) 63 28 != 0
    || (bit w0 56 && (bits w0 53 52 != 0 || bits w0 51 40 != ownPost s))

/-- A list that is empty holds to every setting. -/
def listKeeps (b : Bytes) (tx : Nat) : Bool := b.isEmpty || allZero b || gateListGood b tx

/-- Rules of a sub-port's settings (R299, R336, Table 13-1). -/
def portBad (s : State) (p u : Nat) (v : DVal) : Bool :=
  let e := fun (k : Nat) => if k = u then valNum v else dirNum s (ent (0xB100 + p) k)
  if u = 5 ∨ u = 6 ∨ u = 7 then
    let tx := mtuCycles s p (e 5) (e 6) (e 7)
    !(listKeeps (dirBytes s (ent (0x3300 + p) 1)) tx && listKeeps (dirBytes s (ent (0x3300 + p) 3)) tx)
  else if u = 0xA then
    let b := valBlob v
    decide (1 < fieldLE b 0 1) || decide (1 < fieldLE b 1 1) || fieldLE b 2 2 != 0
  else false

/-- The areas with one descriptor replaced: tenant, base and units of area `a`. -/
def areaSet (s : State) (a : Nat) (d : Area) : List Area :=
  (upFrom 0 254).map (fun i => if i = a then d
    else ⟨dirNum s (ent (0x6100 + i) 1), dirNum s (ent (0x6100 + i) 2), dirNum s (ent (0x6100 + i) 3)⟩)

/-- Two areas share a unit. -/
def areasMeet (x y : Area) : Bool :=
  decide (0 < x.units) && decide (0 < y.units) && decide (x.base < y.base + y.units) && decide (y.base < x.base + x.units)

/-- Rules of an area's descriptor (R232, R482): no change while parcels are mapped, no overlap, and room in T1 for the node's
reserve when the map must grow. -/
def areaBad (s : State) (a u : Nat) (v : DVal) : Bool :=
  let i := 0x6100 + a
  let n := valNum v
  let e := fun (k : Nat) => if k = u then n else dirNum s (ent i k)
  let d : Area := ⟨e 1, e 2, e 3⟩
  let top := if d.units = 0 then 0 else d.base + d.units
  if u = 1 ∨ u = 2 ∨ u = 3 then
    (u == 1 && n != 0xFF && decide (63 < n))
      || (n != dirNum s (ent i u) && mappedIn s a != 0)
      || (u != 1 && ((numbered (areaSet s a d)).any (fun p => p.1 != a && areasMeet d p.2)))
      || (u != 1 && decide (freeT1 s + dirNum s (ent 0x1002 9) * 2 ^ 20 < nodeReserve s (max (mapUnits s) top) * 2 ^ 20))
  else false

/-- Rules of the media manager's entries (Table 10-11). -/
def mediaBad (s : State) (u : Nat) (v : DVal) : Bool :=
  if u = 3 then decide (valNum v < dirNum s (ent 0x6010 4)) else if u = 4 then decide (dirNum s (ent 0x6010 3) < valNum v) else false

/-- Result code of the checks of a value written to one of the large objects: whether it may be applied (R374, R437, R442). -/
def largeBad (s : State) (obj : Nat) (b : Bytes) : Bool :=
  if obj = ent 0x2010 7 then mapResult s b (decide (epoch s < mapEpoch b)) != 1
  else if obj = ent 0x9020 9 then !(objectPasses s b && imageFormatGood b)
  else if obj = ent 0x9020 3 then !(Config.imagePasses b && decide (dirNum s (ent 0x9020 4) ≤ Config.imageVersion b))
  else false

/-- Rules that join entries or stand in an owner's chapter (R10). -/
def ruleBad (s : State) (obj : Nat) (v : DVal) : Bool :=
  let i := objIdx obj
  let u := objSub obj
  let n := valNum v
  if inR i 0x3200 0x323F then policerBad s (i - 0x3200) u v
  else if inR i 0x3300 0x3307 then gateBad s (i - 0x3300) u v
  else if inR i 0x3400 0x343F then segBad s (valBlob v)
  else if inR i 0x3800 0x3BFF then queueBad s i u v
  else if inR i 0x6100 0x61FF then areaBad s (i - 0x6100) u v
  else if inR i 0x6020 0x603F then u == 6 && decide (31 < n) && n != 0xFF
  else if inR i 0xB100 0xB107 then portBad s (i - 0xB100) u v
  else if i = 0x6010 then mediaBad s u v
  else if obj = ent 0x4010 1 then decide (nClusters s < n)
  else if obj = ent 0x5010 3 then !(s.err.queue.head?.any (fun r => r.seq == n && r.handled))
  else if obj = ent 0x9020 4 then decide (n < dirNum s obj)
  else if obj = ent 0x9030 1 then decide (3 < n)
  else if obj = ent 0x9010 3 then !((valBlob v).isEmpty || Config.selfSigned (valBlob v))
  else largeBad s obj (valBlob v)

/-- The descriptors of the node's own areas are CONST (R232), and an arrangement is written for sub-ports 0 and 4 only. -/
def constHere (obj : Nat) : Bool :=
  (inR (objIdx obj) 0x61FE 0x61FF)
    || (inR (objIdx obj) 0xB100 0xB107 && objSub obj == 1 && (objIdx obj - 0xB100) % 4 != 0)

/-! ### Checks of a write (R392) -/

/-- Status of a write outside the transfer slots, in the order of R392; `len` says whether a value of more than 4,096 bytes is
refused, which a commit is not. -/
def checkValue (s : State) (a : Actor) (obj : Nat) (v : DVal) (len : Bool) : Nat :=
  match catRow obj with
  | none => 1
  | some r =>
    if !mayWrite s a obj then 3
    else if r.acc = 0 || r.acc = 4 || constHere obj then 2
    else if len && decide (4096 < (valBlob v).length) then 0xA
    else if typeBad r v then 4
    else if rangeBad r v || ruleBad s obj v || (a.level == .pub && (valBlob v).isEmpty) then 5
    else 0

/-- Status of opening or closing a slot. A target is an entry of the directory other than a slot's own (log 63). -/
def targetCheck (t : Nat) : Nat := if t = 0 then 0 else if (catRow t).isNone || isSlotObj t then 5 else 0

/-- Status of selecting a direction: a read takes a snapshot, under the checks of a read of the target. -/
def directionCheck (s : State) (a : Actor) (x : XSlot) (v : Nat) : Nat :=
  if x.state = 0 then 5
  else if v = 0 then (if a.level = .pub then 3 else 0)
  else
    let r := readEntry s a x.target
    if r.1 = 0xA then 0 else r.1

/-- Status of a chunk: 1 to 4,096 bytes that stay within the length, in an open write. -/
def chunkCheck (x : XSlot) (b : Bytes) : Nat :=
  if x.state = 0 || x.read || !inR b.length 1 4096 || decide (x.length < x.offset + b.length) then 5 else 0

/-- Status of a commit: the whole value must be present, and the target's own checks pass. -/
def commitCheck (s : State) (a : Actor) (x : XSlot) (v : Nat) : Nat :=
  if v = 0 then 0
  else if x.state = 0 || x.state = 3 || x.read || x.offset != x.length || x.data.length != x.length || x.length = 0 then 5
  else
    match catRow x.target with
    | none => 1
    | some r => checkValue s a x.target (if r.ty < 8 then (if x.data.length = typeSize r.ty then .num (leNat x.data) else .blob x.data)
        else .blob x.data) false

/-- Status of a write to entry `u` of slot `n` after its type and range have been checked. -/
def slotCheck (s : State) (a : Actor) (n u : Nat) (v : DVal) : Nat :=
  let x := xslot s n
  let k := valNum v
  if u = 1 then targetCheck k
  else if u = 2 then directionCheck s a x k
  else if u = 3 then (if x.state = 0 then 5 else if x.read then 2 else 0)
  else if u = 4 then (if x.state = 0 || decide (x.length < k) || (!x.read && decide (x.data.length < k)) then 5 else 0)
  else if u = 5 then chunkCheck x (valBlob v)
  else commitCheck s a x k

/-- Status of a write (R392). -/
def checkWrite (s : State) (a : Actor) (obj : Nat) (v : DVal) : Nat :=
  if isSlotObj obj then
    match catRow obj with
    | none => 1
    | some r =>
      let n := objIdx obj - 0x1020
      if !mayWrite s a obj then 3
      else if r.acc = 0 || r.acc = 4 || (objSub obj == 3 && slotOwn s a n && (xslot s n).read) then 2
      else if slotForeign s a n then 6
      else if decide (4096 < (valBlob v).length) then 0xA
      else if typeBad r v then 4
      else if rangeBad r v then 5
      else slotCheck s a n (objSub obj) v
  else checkValue s a obj v true

end Sys2Proof.Machine
end

