-- ==== Sys2Proof/Machine/RvCsr.lean ====
section
/-! DEFINITION. RvCsr: the CSRs of a thread: those the spec adds (Tables 2-2, 3-7, 4-4, 15-5) and the standard ones of
R33 (PRESUMED from the RISC-V documents, log 18). -/
namespace Sys2Proof.Machine

/-- mstatus as read: UXL 2, and SD when FS, VS or XS is Dirty. -/
def mstatusRead (t : Thread) : Nat :=
  let sd := mFS t == 3 || mVS t == 3 || mXS t == 3
  fld (b01 sd) 63 + fld 2 32 + rcsr t 0x300

/-- mstatus as written: MIE, MPIE, VS, MPP (0 or 3), FS, XS and MPRV are kept. -/
def mstatusWrite (old v : Nat) : Nat :=
  let w := v &&& 0x3FE88
  if bits v 12 11 = 1 ∨ bits v 12 11 = 2 then clearOnes w 0x1800 + (old &&& 0x1800) else w

/-- misa: RV64 with I, M, A, F, D, C, V and X (R33). -/
def misaValue : Nat := fld 2 62 + 0xA0112D

/-- ebudget: issue cycles left in the round for a kernel's tenant on the core; all ones for machine mode (Table 2-2). -/
def ebudget (s : State) (th : Nat) : Nat :=
  let t := thread s th
  if t.kern then dirNum s (ent (0x3500 + t.tenant) 1) - smGetD s.sea.spent (coreOf th * 64 + t.tenant) 0 else 2 ^ 64 - 1

/-- Own postcode in eid: as error records carry it. -/
def eidValue (s : State) (th : Nat) : Nat := fld (recPost s) 52 + th

/-- CSRs the thread has. -/
def csrKnown (a : Nat) : Bool :=
  decide (0x8C0 ≤ a ∧ a ≤ 0x8CA) || decide (0xCC1 ≤ a ∧ a ≤ 0xCC3)
    || a ∈ [0x001, 0x002, 0x003, 0x008, 0x009, 0x00A, 0x00F, 0xC00, 0xC01, 0xC02, 0xC20, 0xC21, 0xC22, 0x300, 0x301, 0x304,
      0x305, 0x306, 0x340, 0x341, 0x342, 0x343, 0x344, 0xF11, 0xF12, 0xF13, 0xF14, 0xF15, 0xB00, 0xB02]

/-- Whether a thread may use a CSR: it exists, the mode is high enough, a read-only one is not written, and the unit it
belongs to is on. -/
def csrAllowed (t : Thread) (a : Nat) (write : Bool) : Bool :=
  csrKnown a && !(t.user && bits a 9 8 == 3) && !(write && bits a 11 10 == 3)
    && !(decide (1 ≤ a ∧ a ≤ 3) && mFS t == 0)
    && !((decide (8 ≤ a ∧ a ≤ 0xF) || decide (0xC20 ≤ a ∧ a ≤ 0xC22)) && mVS t == 0)

/-- Value a CSR reads as. -/
def csrValue (s : State) (th a : Nat) : Nat :=
  let t := thread s th
  match a with
  | 0x001 => rcsr t 3 % 32
  | 0x002 => bits (rcsr t 3) 7 5
  | 0x009 => rcsr t 0xF % 2
  | 0x00A => bits (rcsr t 0xF) 2 1
  | 0xC00 => s.clk.now % 2 ^ 64
  | 0xB00 => s.clk.now % 2 ^ 64
  | 0xC01 => timestamp s
  | 0xC22 => 64
  | 0x300 => mstatusRead t
  | 0x301 => misaValue
  | 0xF14 => th
  | 0x8C2 => 0
  | 0x8C3 => 0
  | 0xCC1 => eidValue s th
  | 0xCC2 => ebudget s th
  | _ => rcsr t a

/-- CSRs whose value the model leaves free on a plain read: the instruction counters, and the blocking CSRs, whose reads
the spec gives only for CSRRW. -/
def csrFree (a : Nat) : Bool := a ∈ [0xC02, 0xB02, 0x8C1, 0x8C8, 0x8C9]

/-- A plain CSR written: sticky words clear their ones, the rest take the value within their fields. -/
def csrPut (a v : Nat) (t : Thread) : Thread :=
  match a with
  | 0x001 => dirtyFS (setCsr 3 (rcsr t 3 / 32 * 32 + v % 32) t)
  | 0x002 => dirtyFS (setCsr 3 (rcsr t 3 % 32 + fld (v % 8) 5) t)
  | 0x003 => dirtyFS (setCsr 3 (v % 256) t)
  | 0x008 => dirtyVS (setCsr 8 (v % 512) t)
  | 0x009 => dirtyVS (setCsr 0xF (rcsr t 0xF / 2 * 2 + v % 2) t)
  | 0x00A => dirtyVS (setCsr 0xF (rcsr t 0xF % 2 + fld (v % 4) 1) t)
  | 0x00F => dirtyVS (setCsr 0xF (v % 8) t)
  | 0x300 => setCsr 0x300 (mstatusWrite (rcsr t 0x300) v) t
  | 0x301 => t
  | 0x341 => setCsr 0x341 (v / 2 * 2) t
  | 0x305 => setCsr 0x305 (v / 4 * 4) t
  | 0x8C4 => setCsr a (clearOnes (rcsr t a) v) t
  | 0x8C6 => setCsr a (clearOnes (rcsr t a) v) t
  | 0x8C7 => setCsr a (v % 2 ^ 32) t
  | 0x8CA => setCsr a (v % 2 ^ 32) t
  | _ => setCsr a v t

/-- The CSR's write is an operation of its own (R43, R44, R353). -/
def csrAct (a : Nat) : Bool := a ∈ [0x8C0, 0x8C1, 0x8C2, 0x8C3, 0x8C8, 0x8C9]

/-- That operation, with the value written. -/
def doCsrAct (th rd a v : Nat) (s : State) : State :=
  match a with
  | 0x8C0 => doEstream th rd v s
  | 0x8C1 => doEstwait th rd v s
  | 0x8C2 => doEstrel th rd v s
  | 0x8C3 => doEstop th rd v s
  | 0x8C8 => doErecv th rd v s
  | _ => doEwait th rd v s

/-- Value a CSR instruction writes: 1 write, 2 set, 3 clear. -/
def csrNew (op old v : Nat) : Nat := if op = 1 then v else if op = 2 then old ||| v else clearOnes old v

/-- A CSR instruction with its source value; `write` is false for a set or clear of x0 or zero. -/
def doCsr (th op rd a v : Nat) (write : Bool) (w : W32) (s : State) : State :=
  let t := thread s th
  if !csrAllowed t a write then illegal th w s
  else
    let old := if csrFree a then (Config.freeWord (draw s).1).toNat else csrValue s th a
    let s := if csrFree a then (draw s).2 else s
    if write && csrAct a then doCsrAct th rd a (csrNew op (if op = 1 then 0 else old) v) s
    else
      onThread th (fun t =>
        let t := if write then csrPut a (csrNew op old v) t else t
        advance 4 (setX rd (BitVec.ofNat 64 old) t)) s

end Sys2Proof.Machine
end

