-- ==== Sys2Proof/Machine/Dir.lean ====
section
/-! DEFINITION. Dir: what directory writes do, the operations as the controller takes them, and the in-band and dedicated
directory commands (R392 to R402, R420, R429, R439, R442, R444, R445, R447, R449). -/
namespace Sys2Proof.Machine

/-! ### What a write does -/

/-- The head record removed (R420); those behind it may then go by themselves. -/
def removeHead (s : State) : State := autoRemove { s with err := { s.err with queue := s.err.queue.drop 1 } }

/-- Nonce of a session written (R444). -/
def putNonce (a : Actor) (b : Bytes) (s : State) : State :=
  if a.chain then
    { s with chain := { s.chain with
      sessions := updFirst (fun x => x.sid == a.session) (fun x => { x with nonce := some b }) s.chain.sessions } }
  else onSess a.session (fun x => { x with nonce := some b }) s

/-- A tenant key set, or cleared by zeros (R445). -/
def putKey (t : Nat) (b : Bytes) (s : State) : State :=
  let s := bump (ent (0x9100 + t) 3) (dirPut (ent (0x9100 + t) 1) (.blob b) s)
  let s := { s with sec := { s.sec with
    psk := if allZero b then smDel s.sec.psk t else smPut s.sec.psk t b
    pskBad := delNat s.sec.pskBad t } }
  dirSet (ent (0x9100 + t) 2) (if allZero b then 0 else 1) s

/-- A tenant key erased by debug mode OPEN. -/
def eraseKey (t : Nat) (s : State) : State :=
  match smGet? s.sec.psk t with
  | some _ =>
    let s := dirPut (ent (0x9100 + t) 1) (catDefault (ent (0x9100 + t) 1)) s
    dirSet (ent (0x9100 + t) 2) 2 { s with sec := { s.sec with psk := smDel s.sec.psk t, pskBad := delNat s.sec.pskBad t } }
  | none => s

/-- Mode OPEN (Table 19-6): HXT sessions close, every key slot and the identity key are erased. -/
def enterOpen (s : State) : State :=
  let s := foldS (s.hxt.sessions.map (fun x => x.sid)) closeSess s
  let s := saveRecord (foldS (upFrom 0 64) eraseKey s)
  bump (ent 0x9030 3) { s with sec := { s.sec with idKey := false } }

/-- Debug mode written (R447): upwards it extends M6 and sets the report's flag. -/
def setDebug (old m : Nat) (s : State) : State :=
  if old < m then
    let s := extendM 6 [BitVec.ofNat 8 m] { s with sec := { s.sec with opened := true } }
    whenS (m == 3) enterOpen s
  else s

/-- The running image confirmed (R442). -/
def confirmImage (s : State) : State :=
  let s := { s with sec := { s.sec with trialA := s.sec.trialA && s.sec.runB, trialB := s.sec.trialB && !s.sec.runB } }
  saveRecord (dirSet (ent 0x9020 7) 0 s)

/-- The slot not running programmed with an image that passed its checks (R442). -/
def putImage (b : Bytes) (s : State) : State :=
  { s with sec :=
    if s.sec.runB then { s.sec with imageA := b, newA := true, trialA := false }
    else { s.sec with imageB := b, newB := true, trialB := false } }

/-- A MACsec key: association number, direction, key, SSCI and salt (R299). -/
def putSak (p : Nat) (b : Bytes) (s : State) : State :=
  { s with pins := { s.pins with saks := smPut s.pins.saks ((p * 2 + fieldLE b 1 1) * 2 + fieldLE b 0 1) b } }

/-- What writes of traffic objects do beside the value (R326, R335, R337, R339, R341). -/
def actTraffic (obj : Nat) (v : DVal) (s : State) : State :=
  let i := objIdx obj
  let u := objSub obj
  if inR i 0x3100 0x313F && u == 2 then askReset (i - 0x3100) (valNum v) s
  else if inR i 0x3200 0x323F then refillPolicer (i - 0x3200) s
  else if inR i 0x3300 0x3307 && u == 2 then
    { s with trf := { s.trf with commit := smPut s.trf.commit (i - 0x3300) (valNum v) } }
  else if inR i 0x3800 0x3BFF then
    let t := (i - 0x3800) / 16
    let q := (i - 0x3800) % 16
    if u = 0x10 then clearHist t q s else if u = 5 ∨ u = 6 ∨ u = 7 ∨ u = 9 then refillShaper t q s else s
  else s

/-- What writes of single objects do beside the value. -/
def actSingle (a : Actor) (obj : Nat) (old : Nat) (v : DVal) (s : State) : State :=
  let n := valNum v
  let b := valBlob v
  if obj = ent 0x1010 5 ∨ obj = ent 0x5010 8 then autoRemove s
  else if obj = ent 0x1010 0xD then (if n = 1 then { s with dir := { s.dir with restore := true } } else s)
  else if obj = ent 0x2010 7 then (stageMap b s).2
  else if obj = ent 0x4050 2 then (if n = 1 then askWarm 3 (aonNow s) s else s)
  else if obj = ent 0x5010 3 then removeHead s
  else if obj = ent 0x9010 3 then extendM 7 (slice (Config.sha384 b) 0 48) s
  else if obj = ent 0x9010 8 then putNonce a b s
  else if obj = ent 0x9020 3 then putImage b s
  else if obj = ent 0x9020 6 then (if n = 1 then confirmImage s else s)
  else if obj = ent 0x9020 9 then (stageImage b s).2
  else if obj = ent 0x9030 1 then setDebug old n s
  else if obj = ent 0xA020 1 then (if n = 1 then { s with log := { s.log with replan := true } } else s)
  else s

/-- What a write does beside the value it leaves in the entry. -/
def actWrite (a : Actor) (obj old : Nat) (v : DVal) (s : State) : State :=
  let i := objIdx obj
  let u := objSub obj
  if inR i 0x3000 0x3FFF then actTraffic obj v s
  else if inR i 0x6100 0x61FF then showReserve s
  else if inR i 0x9100 0x913F then putKey (i - 0x9100) (valBlob v) s
  else if inR i 0xB100 0xB107 then
    (if u = 1 then takeArrangement ((i - 0xB100) / 4) s else if u = 0xA then putSak (i - 0xB100) (valBlob v) s else s)
  else actSingle a obj old v s

/-- An accepted write to an entry that is no transfer slot's (R12, R398). -/
def effectPlain (a : Actor) (obj : Nat) (v : DVal) (s : State) : State :=
  match catRow obj with
  | none => s
  | some r =>
    let old := dirNum s obj
    if r.acc = 3 then dirSet obj (rwcNew obj r.ty old (valNum v)) s
    else actWrite a obj old v (whenS (r.acc == 1) (dirPut obj v) s)

/-- A write that its target's own checks refused: the staging results say so (R374, R437). -/
def effectRefused (obj : Nat) (v : DVal) (s : State) : State :=
  if obj = ent 0x2010 7 then (stageMap (valBlob v) s).2
  else if obj = ent 0x9020 9 then (stageImage (valBlob v) s).2
  else s

/-! ### Transfer slots (R401) -/

/-- The value a slot's bytes make for its target. -/
def slotValue (x : XSlot) : DVal :=
  match catRow x.target with
  | some r => if r.ty < 8 ∧ x.data.length = typeSize r.ty then .num (leNat x.data) else .blob x.data
  | none => .blob x.data

/-- 1 open, 2 with all bytes present. -/
def fillState (x : XSlot) : XSlot :=
  { x with state := if x.length != 0 && x.data.length == x.length then 2 else 1 }

/-- TARGET: a slot opened for its writer, or closed. -/
def slotTarget (a : Actor) (n t : Nat) (s : State) : State :=
  onXslot n (fun _ => if t = 0 then XSlot.init
    else { XSlot.init with owner := a.session, chain := a.chain, target := t, state := 1, lastTick := s.clk.tick }) s

/-- Bytes of a target as a snapshot takes them. -/
def snapshotOf (s : State) (a : Actor) (t : Nat) : Bytes :=
  match catRow t with
  | some r => valBytes r (let q := readEntry s a t; if q.1 = 0xA then entValue s r t else q.2)
  | none => []

/-- DIRECTION: a read takes a snapshot; a write starts with nothing. -/
def slotDirection (a : Actor) (n d : Nat) (s : State) : State :=
  let b := if d = 0 then [] else snapshotOf s a (xslot s n).target
  let s := whenS (d != 0) (afterRead a (xslot s n).target) s
  onXslot n (fun x => { x with read := d != 0, length := b.length, offset := 0, data := b, state := 1 }) s

/-- LENGTH: the total; bytes beyond it go. -/
def slotLength (n k : Nat) (s : State) : State :=
  onXslot n (fun x => fillState { x with length := k, offset := min x.offset k, data := x.data.take k }) s

/-- CHUNK: bytes placed at the offset, which advances. -/
def slotChunk (n : Nat) (b : Bytes) (s : State) : State :=
  let put := fun (x : XSlot) => x.data.take x.offset ++ b ++ x.data.drop (x.offset + b.length)
  onXslot n (fun x => fillState { x with data := put x, offset := x.offset + b.length }) s

/-- COMMIT: the whole value applied to the target as one write. -/
def slotCommit (a : Actor) (n : Nat) (s : State) : State :=
  let x := xslot s n
  let s := effectPlain a x.target (slotValue x) s
  onXslot n (fun x => { x with state := 3, result := 0 }) s

/-- A commit refused: the slot says with which status. -/
def slotRefused (n st : Nat) (s : State) : State :=
  let x := xslot s n
  if x.state = 0 || x.state = 3 || x.read || x.offset != x.length || x.data.length != x.length || x.length = 0 then s
  else onXslot n (fun x => { x with state := 4, result := st }) (whenS (st == 5) (effectRefused x.target (slotValue x)) s)

/-- An accepted write to entry `u` of slot `n`. -/
def effectSlot (a : Actor) (n u : Nat) (v : DVal) (s : State) : State :=
  let k := valNum v
  if u = 1 then slotTarget a n k s
  else if u = 2 then slotDirection a n k s
  else if u = 3 then slotLength n k s
  else if u = 4 then onXslot n (fun x => { x with offset := k }) s
  else if u = 5 then slotChunk n (valBlob v) s
  else if k = 1 then slotCommit a n s else s

/-- A request of the owner keeps the slot open. -/
def touchSlot (a : Actor) (obj : Nat) (s : State) : State :=
  if isSlotObj obj && slotOwn s a (objIdx obj - 0x1020) then
    onXslot (objIdx obj - 0x1020) (fun x => { x with lastTick := s.clk.tick }) s
  else s

/-- An accepted write. -/
def effectWrite (a : Actor) (obj : Nat) (v : DVal) (s : State) : State :=
  if isSlotObj obj then effectSlot a (objIdx obj - 0x1020) (objSub obj) v s else effectPlain a obj v s

/-- A refused write: a commit by the slot's owner leaves its result in the slot. -/
def effectNone (a : Actor) (obj st : Nat) (v : DVal) (s : State) : State :=
  if isSlotObj obj then
    (if objSub obj = 6 ∧ valNum v = 1 ∧ slotOwn s a (objIdx obj - 0x1020) ∧ mayWrite s a obj then
      slotRefused (objIdx obj - 0x1020) st s
    else s)
  else if st = 5 then effectRefused obj v s else s

/-- The entry of persistence S that a write changes: its own, or the target of a commit (R399). -/
def storedEntry (s : State) (obj : Nat) (v : DVal) : Option Nat :=
  let t := if isSlotObj obj && objSub obj == 6 && valNum v == 1 then (xslot s (objIdx obj - 0x1020)).target else obj
  if (catRow t).any (fun r => r.per == 2) then some t else none

/-! ### Operations (R392, R398, R402) -/

/-- Receipt status and detail of a directory status (Table 17-5). -/
def receiptOf (st : Nat) : Nat × Nat :=
  if st = 0 then (0, 0)
  else if st = 3 ∨ st = 7 then (0x12, 0)
  else if st = 4 ∨ st = 5 then (0x10, 0)
  else if st = 6 then (0x52, 0)
  else if st = 9 then (0x11, 0)
  else (0x10, 0xFFFF)

/-- Latest chain session of a source address (R396). -/
def chainSess (s : State) (src : Nat) : Option CSess := (s.chain.sessions.reverse).find? (fun x => x.src == src)

/-- Chain message header of a RESPONSE (Table 17-3). -/
def respHeader (m : ChainMsg) (flags st ty len : Nat) : Bytes :=
  leBytes 2 len ++ leBytes 1 m.version ++ leBytes 1 flags ++ leBytes 4 m.req ++ leBytes 4 m.obj ++ leBytes 1 ty ++ leBytes 1 st
    ++ leBytes 2 0

/-- RESPONSE (R392, R396): on a session it is tagged; without one it is not. -/
def respond (m : ChainMsg) (st ty : Nat) (body : Bytes) (s : State) : State :=
  let s := whenS (st != 0) (bump (ent 0x1010 0xB)) s
  match (if bit m.flags 0 then chainSess s m.src else none) with
  | some x =>
    let tag := slice (Config.hmac384 x.key (respHeader m 1 st ty body.length ++ body)) 0 16
    chainSend (.resp m.src m.xtag m.version 1 m.req m.obj ty st body tag) (32 + body.length) s
  | none => chainSend (.resp m.src m.xtag m.version 0 m.req m.obj ty st body []) (16 + body.length) s

/-- Type code of an entry, 0 where there is none. -/
def typeOf (obj : Nat) : Nat := (catRow obj).elim 0 (fun r => r.ty)

/-- The response of a chain request on a session is kept for a repeat of it (R393). -/
def keepResponse (m : ChainMsg) (st ty : Nat) (body : Bytes) (s : State) : State :=
  if bit m.flags 0 then
    match chainSess s m.src with
    | some x => if x.last = m.req then
        { s with chain := { s.chain with
          sessions := updFirst (fun y => y.sid == x.sid) (fun y => { y with stored := (st, ty, body) }) s.chain.sessions } }
      else s
    | none => s
  else s

/-- Answer to whoever asked: a receipt, a chain RESPONSE, or nobody. -/
def answerOp (ans : Answer) (obj st : Nat) (read : Bool) (body : Bytes) (s : State) : State :=
  match ans with
  | .none => s
  | .req rid =>
    let r := receiptOf st
    if st = 0 ∧ read then endReq rid 0 1 0 (leBytes 8 (typeOf obj) ++ body) s else endReq rid r.1 0 r.2 [] s
  | .chain m =>
    -- a session that has closed meanwhile has no key left to tag a response with
    if bit m.flags 0 && (chainSess s m.src).isNone then s
    else respond m st (typeOf m.obj) body (keepResponse m st (typeOf m.obj) body s)

/-- Whoever asked is still there. -/
def opLive (s : State) (ans : Answer) : Bool :=
  match ans with
  | .none => true
  | .req rid => (req? s rid).isSome
  | .chain _ => dirNum s (ent 0x1010 1) != 0

/-- Status and value of the latest operation. -/
def noteOp (st : Nat) (v : Option DVal) (s : State) : State := { s with dir := { s.dir with status := st, value := v } }

/-- A read as the controller performs it. -/
def runRead (o : DirOp) (s : State) : State :=
  let r := readEntry s o.who o.obj
  let body := if r.1 = 0 then (match catRow o.obj with
    | some c => valBytes c r.2
    | none => []) else []
  let s := touchSlot o.who o.obj (whenS (r.1 == 0) (afterRead o.who o.obj) s)
  answerOp o.ans o.obj r.1 true body (noteOp r.1 (if r.1 = 0 then some r.2 else none) s)

/-- The effect on the node's own service, which waits for the answer of its write (R402). -/
def lateAct (obj : Nat) (s : State) : State :=
  if inR (objIdx obj) 0x3100 0x313F && objSub obj == 1 then writeEnabled (objIdx obj - 0x3100) (dirNum s obj) s else s

/-- A write as the controller performs it (R392, R398, R399): an S write is answered after its boot-flash commit, another one
before its effect. -/
def runWrite (o : DirOp) (v : DVal) (s : State) : State :=
  let st := checkWrite s o.who o.obj v
  if st ≠ 0 then answerOp o.ans o.obj st false [] (noteOp st none (touchSlot o.who o.obj (effectNone o.who o.obj st v s)))
  else
    match storedEntry s o.obj v with
    | some t =>
      let s := noteOp 0 none (touchSlot o.who o.obj (effectWrite o.who o.obj v s))
      { s with dir := { s.dir with commits := s.dir.commits ++ [(t, o.ans)] } }
    | none => effectWrite o.who o.obj v (touchSlot o.who o.obj (answerOp o.ans o.obj 0 false [] (noteOp 0 none s)))

/-- An operation performed, if whoever asked is still there. -/
def runOp (o : DirOp) (s : State) : State :=
  if opLive s o.ans then
    match o.wr with
    | none => runRead o s
    | some v => runWrite o v s
  else s

/-- An operation arrives at the controller, which performs one at a time (R398). -/
def takeOp (o : DirOp) (s : State) : State :=
  if s.dir.commits.isEmpty then runOp o s else { s with dir := { s.dir with waiting := s.dir.waiting ++ [o] } }

/-- Waiting operations performed until one must wait for its boot-flash commit. -/
def drainOps : List DirOp → State → State
  | [], s => s
  | o :: t, s => if s.dir.commits.isEmpty then drainOps t (runOp o s) else { s with dir := { s.dir with waiting := o :: t } }

/-- The boot-flash record is rewritten: the write is answered, and the operations behind it follow (R399). -/
def commitRecord (s : State) : State :=
  let cs := s.dir.commits
  let ops := s.dir.waiting
  let s := saveRecord { s with dir := { s.dir with commits := [], waiting := [] } }
  drainOps ops (foldS cs (fun c s => lateAct c.1 (answerOp c.2 c.1 0 false [] s)) s)

/-- The management controller performs directory operations. -/
def dirServed (s : State) : Bool := nodeAwake s && !s.err.mcDown

/-- A directory operation of a row with its own actor: entry `obj`, which exists only where `ok` holds. -/
def rowOp (ok : Bool) (a : Actor) (obj : Nat) (wr : Option DVal) (s : State) : Out :=
  .next (if !dirServed s then s else if ok then takeOp ⟨.none, a, obj, wr⟩ s else noteOp 1 none s)

/-! ### In-band (R402) -/

/-- The actor of an in-band request. -/
def reqActor (r : Req) : Actor := ⟨r.level, r.tenant, r.sid, false⟩

/-- A value's bytes read as a value of an entry; bytes of another length stay bytes. -/
def valueFrom (obj : Nat) (b : Bytes) : DVal :=
  match catRow obj with
  | some r => if r.ty < 8 ∧ b.length = typeSize r.ty then .num (leNat b) else .blob b
  | none => .blob b

/-- An admitted in-band directory request taken; while the controller restarts it ends with ABORTED (R422). -/
def takeReq (rid type : Nat) (wr : Req → Option DVal) (s : State) : State :=
  match req? s rid with
  | some r =>
    if r.st = .admitted ∧ r.type = type then
      if dirServed s then takeOp ⟨.req rid, reqActor r, r.obj, wr r⟩ (onReq rid (fun x => { x with st := .executing }) s)
      else failReq rid 0x60 s
    else s
  | none => s

/-- DIR_READ (R402). -/
def execDirRead (rid : Nat) (s : State) : Out := .next (takeReq rid 0x0501 (fun _ => none) s)

/-- DIR_WRITE (R402). -/
def execDirWrite (rid : Nat) (s : State) : Out := .next (takeReq rid 0x0502 (fun r => some (valueFrom r.obj r.body)) s)

/-- BOOT_FLASH_COMMIT (R399). -/
def execBootFlashCommit (s : State) : Out :=
  .next (if dirServed s ∧ s.dir.commits ≠ [] then commitRecord s else s)

/-! ### Directory writes with rows of their own -/

/-- REGISTER_WRITE (R398, R12): a CSR, an engine register or an entry without behaviour of its own. -/
def execRegisterWrite (t : RegTarget) (s : State) : Out :=
  match t with
  | .csr th addr v => .next (onIssue th (fun s =>
      if !csrAllowed (thread s th) addr true then illegal th 0 s
      else if csrAct addr then s
      else onThread th (fun t => advance 4 (csrPut addr v.toNat t)) s) s)
  | .engine addr v => .next (match region s addr with
    | .engine off => (match eregOf s off with
      | some r => if s.phase = .serving then eregWrite 0 v r s else s
      | none => s)
    | _ => s)
  | .entry a obj v => rowOp true a obj (some v) s

/-- TX_AN (R299). -/
def execTxAn (a : Actor) (p : Nat) (v : DVal) (s : State) : Out := rowOp (decide (p < 8)) a (ent (0xB100 + p) 9) (some v) s

/-- SAK (R299). -/
def execSak (a : Actor) (p : Nat) (v : DVal) (s : State) : Out := rowOp (decide (p < 8)) a (ent (0xB100 + p) 0xA) (some v) s

/-- ENABLED (R326). -/
def execEnabled (a : Actor) (t : Nat) (v : DVal) (s : State) : Out := rowOp (decide (t < 64)) a (ent (0x3100 + t) 1) (some v) s

/-- TENANT_RESET (R341). -/
def execTenantReset (a : Actor) (t : Nat) (v : DVal) (s : State) : Out :=
  rowOp (decide (t < 64)) a (ent (0x3100 + t) 2) (some v) s

/-- POLICER_ENTRY_WRITE (R335). -/
def execPolicerEntryWrite (a : Actor) (t sub : Nat) (v : DVal) (s : State) : Out :=
  rowOp (decide (t < 64) && decide (sub < 256)) a (ent (0x3200 + t) sub) (some v) s

/-- SHAPER_ENTRY_WRITE (R335). -/
def execShaperEntryWrite (a : Actor) (t q sub : Nat) (v : DVal) (s : State) : Out :=
  rowOp (decide (t < 64) && decide (q < 16) && decide (sub < 256)) a (qObj t q sub) (some v) s

/-- COMMIT_FRAME (R337). -/
def execCommitFrame (a : Actor) (p : Nat) (v : DVal) (s : State) : Out :=
  rowOp (decide (p < 8)) a (ent (0x3300 + p) 2) (some v) s

/-- HIST_CLEAR (R339). -/
def execHistClear (a : Actor) (t q : Nat) (v : DVal) (s : State) : Out :=
  rowOp (decide (t < 64) && decide (q < 16)) a (qObj t q 0x10) (some v) s

/-- RWC_WRITE (R12). -/
def execRwcWrite (a : Actor) (obj : Nat) (v : DVal) (s : State) : Out := rowOp true a obj (some v) s

/-- WARM_REQUEST (R449). -/
def execWarmRequest (a : Actor) (v : DVal) (s : State) : Out := rowOp true a (ent 0x4050 2) (some v) s

/-- RESTORE_DEFAULTS (R399). -/
def execRestoreDefaults (a : Actor) (v : DVal) (s : State) : Out := rowOp true a (ent 0x1010 0xD) (some v) s

/-- TARGET (R401). -/
def execTarget (a : Actor) (n : Nat) (v : DVal) (s : State) : Out := rowOp (decide (n < 8)) a (ent (0x1020 + n) 1) (some v) s

/-- DIRECTION (R401). -/
def execDirection (a : Actor) (n : Nat) (v : DVal) (s : State) : Out :=
  rowOp (decide (n < 8)) a (ent (0x1020 + n) 2) (some v) s

/-- CHUNK_WRITE (R401). -/
def execChunkWrite (a : Actor) (n : Nat) (v : DVal) (s : State) : Out :=
  rowOp (decide (n < 8)) a (ent (0x1020 + n) 5) (some v) s

/-- CHUNK_READ (R401). -/
def execChunkRead (a : Actor) (n : Nat) (s : State) : Out := rowOp (decide (n < 8)) a (ent (0x1020 + n) 5) none s

/-- COMMIT (R401). -/
def execCommit (a : Actor) (n : Nat) (v : DVal) (s : State) : Out := rowOp (decide (n < 8)) a (ent (0x1020 + n) 6) (some v) s

/-- SLOT_IDLE_CLOSE (R401): 1,600 ticks without a request to the slot. -/
def execSlotIdleClose (n : Nat) (s : State) : Out :=
  .next (if n < 8 ∧ (xslot s n).state ≠ 0 ∧ (xslot s n).lastTick + 1600 ≤ s.clk.tick then onXslot n (fun _ => XSlot.init) s else s)

/-- REMOVE (R420). -/
def execRemove (a : Actor) (v : DVal) (s : State) : Out := rowOp true a (ent 0x5010 3) (some v) s

/-- REPLAN (R429). -/
def execReplan (a : Actor) (v : DVal) (s : State) : Out := rowOp true a (ent 0xA020 1) (some v) s

/-- OPERATOR_ROOT (R439). -/
def execOperatorRoot (a : Actor) (v : DVal) (s : State) : Out := rowOp true a (ent 0x9010 3) (some v) s

/-- NONCE (R444). -/
def execNonce (a : Actor) (v : DVal) (s : State) : Out := rowOp true a (ent 0x9010 8) (some v) s

/-- REPORT (R444). -/
def execReport (a : Actor) (s : State) : Out := rowOp true a (ent 0x9010 9) none s

/-- PSK (R445). -/
def execPsk (a : Actor) (t : Nat) (v : DVal) (s : State) : Out := rowOp (decide (t < 64)) a (ent (0x9100 + t) 1) (some v) s

/-- DEBUG_MODE (R447). -/
def execDebugMode (a : Actor) (v : DVal) (s : State) : Out := rowOp true a (ent 0x9030 1) (some v) s

/-- CONFIRM (R442). -/
def execConfirm (a : Actor) (v : DVal) (s : State) : Out := rowOp true a (ent 0x9020 6) (some v) s

/-! ### Test access port and console (R447) -/

/-- A compute or I/O die's memory through the test access port. -/
def scanWrite (addr : Nat) (v : Byte) (s : State) : State :=
  match region s addr with
  | .stack _ _ => freshCheck addr 1 (memWrite addr [v] s)
  | .store _ _ => freshCheck addr 1 (memWrite addr [v] s)
  | .scratch _ _ => freshCheck addr 1 (memWrite addr [v] s)
  | _ => s

/-- Answers of the test access port appended. -/
def tapOut (l : List Nat) (s : State) : State := { s with sec := { s.sec with tap := s.sec.tap ++ l } }

/-- JTAG_ACCESS (R447): BYPASS delays by one bit and IDCODE reads 0x9030:02 in every mode; scan and memory access need mode
OPEN. What a scan shifts out is free. In cold reset nothing answers (Table 20-3), and LOCKED is the mode. -/
def execJtagAccess (op : JtagOp) (s : State) : Out :=
  let isOpen := dirNum s (ent 0x9030 1) == 3 && s.phase != .coldReset
  match op with
  | .bypass l => .next (whenS (s.phase != .coldReset) (tapOut ((0 :: l.map b01).take l.length)) s)
  | .idcode => .next (whenS (s.phase != .coldReset) (tapOut [dirNum s (ent 0x9030 2)]) s)
  | .scan => .next (whenS isOpen (fun s => let d := draw s; tapOut [Config.freeNat d.1] d.2) s)
  | .memRead addr => .next (whenS isOpen (tapOut [(memByte s addr).toNat]) s)
  | .memWrite addr v => .next (whenS isOpen (scanWrite addr v) s)

/-- CONSOLE_INPUT (R447): taken in modes CONSOLE and OPEN, ignored otherwise. -/
def execConsoleInput (b : Bytes) (s : State) : Out :=
  .next (if dirServed s ∧ 2 ≤ dirNum s (ent 0x9030 1) then { s with sec := { s.sec with console := s.sec.console ++ b } } else s)

end Sys2Proof.Machine
end

