-- ==== Sys2Proof/Machine/Chain.lean ====
section
/-! DEFINITION. Chain: the commands of the management chain: enumeration, sessions, requests, alerts and the state of the
bus (R383 to R396, R403, R404). -/
namespace Sys2Proof.Machine

/-! ### The bus (R383, R386) -/

/-- The chain is served: the controller runs and takes part on the bus. -/
def chainServed (s : State) : Bool := dirServed s && !s.chain.busOff

/-- The node holds a chain address. -/
def addressed (s : State) : Bool := dirNum s (ent 0x1010 1) != 0

/-- Protocol version agreed. -/
def chainVersion (s : State) : Nat := dirNum s (ent 0x1010 2)

/-- Frames of a transfer of `n` payload bytes. -/
def framesOf (n : Nat) : Nat := max 1 (ceilDiv n 62)

/-- The FD data length that holds `n` bytes (ISO 11898-1). -/
def fdLength (n : Nat) : Nat := ([0, 1, 2, 3, 4, 5, 6, 7, 8, 12, 16, 20, 24, 32, 48, 64].find? (fun l => decide (n ≤ l))).getD 64

/-- Payload bytes on the bus of a transfer that carries `n`: the last frame is padded to an FD data length (R386). -/
def paddedLen (n : Nat) : Nat := let k := framesOf n; 62 * (k - 1) + (fdLength (n - 62 * (k - 1) + 2) - 2)

/-- A broadcast or a message has arrived in `k` frames: the controller boosts (R364) and counts them. -/
def hearFrames (k : Nat) (s : State) : State := bumpBy (ent 0x1010 6) k (boost s)

/-- An ignored frame, transfer or message (R383, R386, R391). -/
def ignoreChain (s : State) : State := bump (ent 0x1010 8) s

/-- FRAMES_IGNORED (R383). -/
def execFramesIgnored (_reason : Nat) (s : State) : Out := .next (if chainServed s then ignoreChain (boost s) else s)

/-- CHAIN_TRANSFER_EXPIRY (R386): its frames have been counted as received; how many there were is free. -/
def execChainTransferExpiry (_id : Nat) (s : State) : Out :=
  .next (if chainServed s then
      let d := draw s
      ignoreChain (hearFrames (1 + Config.freeNat d.1 % 255) d.2)
    else s)

/-- BUS_OFF (R383). -/
def execBusOff (s : State) : Out :=
  .next (if dirServed s ∧ !s.chain.busOff then bump (ent 0x1010 9) { s with chain := { s.chain with busOff := true } } else s)

/-- BUS_OFF_RECOVERY (R383). -/
def execBusOffRecovery (s : State) : Out := .next { s with chain := { s.chain with busOff := false } }

/-! ### Enumeration (R387 to R390) -/

/-- A take-up abandoned (R389). -/
def abandon (s : State) : State := bump (ent 0x1010 0xA) { s with chain := { s.chain with claim := none } }

/-- A chain session closes with its transfer slots (R395, R401). -/
def closeChain (sid : Nat) (s : State) : State :=
  { s with
    chain := { s.chain with sessions := s.chain.sessions.filter (fun x => x.sid != sid) }
    dir := { s.dir with slots := s.dir.slots.filter (fun p => !(p.2.owner == sid && p.2.chain)) } }

/-- Chain requests that wait are dropped with the address their responses would name. -/
def dropChainOps (s : State) : State :=
  let keep := fun (o : DirOp) => match o.ans with
    | .chain _ => false
    | _ => true
  let quiet := fun (p : Nat × Answer) => match p.2 with
    | .chain _ => (p.1, Answer.none)
    | _ => p
  { s with dir := { s.dir with waiting := s.dir.waiting.filter keep, commits := s.dir.commits.map quiet } }

/-- ENUM_RESET (R388, R420). -/
def execEnumReset (s : State) : Out :=
  .next (if chainServed s then
      let s := dropChainOps (foldS (s.chain.sessions.map (fun x => x.sid)) closeChain (hearFrames 1 s))
      let s := dirSet (ent 0x1010 1) 0 (dirSet (ent 0x1010 2) 0 s)
      dropAlerts { s with
        chain := { s.chain with claim := none, enumOut := false }
        hxt := { s.hxt with chals := s.hxt.chals.filter (fun c => !c.chain) } }
    else s)

/-- Conditions of R387 on an offer: 100 µs are 160 AON cycles. -/
def offerGood (s : State) (addr version : Nat) : Bool :=
  !addressed s && s.chain.enumIn && decide (s.chain.enumSince + 160 ≤ aonNow s) && inR addr 1 126 && decide (1 ≤ version)

/-- ENUM_OFFER (R387, R388, R404). -/
def execEnumOffer (addr version : Nat) (s : State) : Out :=
  .next (if chainServed s then
      let s := hearFrames 1 s
      if offerGood s addr version then
        chainSend (.claim (ownIdent s) (dirNum s (ent 0x1001 1)) (slice (dirBytes s (ent 0x1001 2)) 0 2)) 20
          { s with chain := { s.chain with claim := some (addr, min version 2, aonNow s) } }
      else s
    else s)

/-- An address taken (Table 17-4, step 6). -/
def takeAddress (addr version : Nat) (s : State) : State :=
  dirSet (ent 0x1010 1) addr (dirSet (ent 0x1010 2) version { s with chain := { s.chain with claim := none, enumOut := true } })

/-- The confirm did not come within 10 ms, 16,000 AON cycles (R389). -/
def claimLate (s : State) : Bool := s.chain.claim.any (fun c => decide (c.2.2 + 16000 < aonNow s))

/-- ENUM_CONFIRM (R388, R389). -/
def execEnumConfirm (addr version : Nat) (ident : Bytes) (s : State) : Out :=
  .next (if chainServed s then
      let s := hearFrames 1 s
      match s.chain.claim with
      | some c =>
        if claimLate s then abandon s
        else if addr ≠ c.1 then s
        else if ident ≠ ownIdent s then abandon s
        else if version = c.2.1 then takeAddress addr version s
        else s
      | none => s
    else s)

/-- ENUM_CONFIRM_TIMEOUT (R389). -/
def execEnumConfirmTimeout (s : State) : Out := .next (if claimLate s then abandon s else s)

/-- MGT_ENUM_IN (R387, R389): a level past its deglitch at AON cycle `at_`. -/
def execMgtEnumIn (at_ : Nat) (level : Bool) (s : State) : Out :=
  .next (if s.chain.enumIn = level then s
    else
      let s := atPin at_ s
      let s := whenS s.chain.claim.isSome abandon s
      { s with chain := { s.chain with enumIn := level, enumSince := at_ } })

/-! ### Messages (R391 to R396) -/

/-- Bytes of a message: header, body and tag. -/
def msgLen (m : ChainMsg) : Nat := 16 + m.blen + (if bit m.flags 0 then 16 else 0)

/-- A message that is ignored (R391, Table 17-3); `most` is the longest body its function may carry. -/
def msgBad (m : ChainMsg) (most : Nat) : Bool :=
  decide (most < m.blen) || m.body.length != m.blen || m.tag.length != (if bit m.flags 0 then 16 else 0)
    || m.xlen != paddedLen (msgLen m) || decide (1 < m.flags) || decide (2 ^ 24 ≤ m.obj) || m.status != 0 || m.rsv != 0

/-- A message of the manager to this unit: heard, and taken when it is well formed. -/
def onMessage (m : ChainMsg) (most : Nat) (f : State → State) (s : State) : State :=
  if chainServed s && addressed s then
    let s := hearFrames (framesOf (msgLen m)) s
    if msgBad m most then ignoreChain s else f s
  else s

/-- Header of a request, as its tag covers it (R396). -/
def reqHeader (m : ChainMsg) : Bytes :=
  leBytes 2 m.blen ++ leBytes 1 m.version ++ leBytes 1 m.flags ++ leBytes 4 m.req ++ leBytes 4 m.obj ++ leBytes 1 m.type
    ++ leBytes 1 m.status ++ leBytes 2 m.rsv

/-- The tag passes (R396): on a session it is present and right, without one it is absent. -/
def chainTagGood (s : State) (m : ChainMsg) : Bool :=
  match (if chainVersion s = 1 then none else chainSess s m.src) with
  | some x => bit m.flags 0 && m.tag == slice (Config.hmac384 x.key (reqHeader m ++ m.body)) 0 16
  | none => !bit m.flags 0

/-- No request has been accepted on the session yet. -/
def storedNone : Nat := 0xFF
/-- The last request accepted awaits its response. -/
def storedDue : Nat := 0xFE

/-- The session of a chain request, none at PUBLIC. -/
def reqSess (s : State) (m : ChainMsg) : Option CSess := if bit m.flags 0 then chainSess s m.src else none

/-- A chain session changed. -/
def onChainSess (sid : Nat) (f : CSess → CSess) (s : State) : State :=
  { s with chain := { s.chain with sessions := updFirst (fun x => x.sid == sid) f s.chain.sessions } }

/-- An answer is due to the chain. -/
def dueToChain (a : Answer) : Bool :=
  match a with
  | .chain _ => true
  | _ => false

/-- Chain requests that await their responses (R393). -/
def chainQueue (s : State) : Nat :=
  (s.dir.waiting.filter (fun o => dueToChain o.ans)).length + (s.dir.commits.filter (fun c => dueToChain c.2)).length

/-- Who performs a chain request (R394). -/
def chainActor (x : Option CSess) : Actor :=
  match x with
  | some y => ⟨y.level, y.tenant, y.sid, true⟩
  | none => ⟨.pub, 0, 0, true⟩

/-- A request accepted and taken by the controller. -/
def acceptChain (m : ChainMsg) (wr : Option DVal) (s : State) : State :=
  let x := reqSess s m
  let s := optS x (fun y =>
    onChainSess y.sid (fun z => { z with last := m.req, stored := (storedDue, 0, []), lastTick := s.clk.tick })) s
  takeOp ⟨.chain m, chainActor x, m.obj, wr⟩ s

/-- A READ or WRITE through the checks of R392 that come before the entry's own. -/
def chainRequest (m : ChainMsg) (wr : Option DVal) (s : State) : State :=
  if m.version ≠ chainVersion s then respond m 9 (typeOf m.obj) [] s
  else if !chainTagGood s m then respond m 7 (typeOf m.obj) [] s
  else
    match reqSess s m with
    | some x =>
      let fresh := x.stored.1 == storedNone || decide (x.last < m.req)
      if fresh then
        (if 16 ≤ chainQueue s then respond m 6 (typeOf m.obj) [] s else acceptChain m wr s)
      else if m.req < x.last then respond m 8 (typeOf m.obj) [] s
      else if x.stored.1 = storedDue then s
      else respond m x.stored.1 x.stored.2.1 x.stored.2.2 (onChainSess x.sid (fun z => { z with lastTick := s.clk.tick }) s)
    | none => if 16 ≤ chainQueue s then respond m 6 (typeOf m.obj) [] s else acceptChain m wr s

/-- CHAIN_READ (R392, R393). -/
def execChainRead (m : ChainMsg) (s : State) : Out := .next (onMessage m 4096 (chainRequest m none) s)

/-- Value of a WRITE; one with another type code becomes a value of no entry's type. -/
def chainValue (m : ChainMsg) : DVal :=
  if m.type = typeOf m.obj then valueFrom m.obj m.body
  else if typeOf m.obj < 8 then .blob m.body else .num 0

/-- CHAIN_WRITE (R392, R393). -/
def execChainWrite (m : ChainMsg) (s : State) : Out := .next (onMessage m 4096 (chainRequest m (some (chainValue m))) s)

/-- CLOSE (R395): tagged on its session; it has no response. -/
def execClose (m : ChainMsg) (s : State) : Out :=
  .next (onMessage m 4096 (fun s =>
    if m.version = chainVersion s ∧ chainTagGood s m then optS (reqSess s m) (fun x => closeChain x.sid) s else s) s)

/-- CHAIN_SESSION_IDLE (R395). -/
def execChainSessionIdle (sid : Nat) (s : State) : Out :=
  .next (match s.chain.sessions.find? (fun x => x.sid == sid) with
    | some x => if x.lastTick + dirNum s (ent 0x1010 4) ≤ s.clk.tick then closeChain sid s else s
    | none => s)

/-! ### Handshake on the chain (R395) -/

/-- A handshake message sent: kind byte, for a CHALLENGE the session identifier, and the payload. -/
def sendSession (m : ChainMsg) (b : Bytes) (s : State) : State := chainSend (.session m.src m.xtag b) (16 + b.length) s

/-- REFUSAL on the chain. -/
def refuseChain (m : ChainMsg) (p : Bytes) (status : Nat) (s : State) : State :=
  sendSession m (leBytes 1 0x14 ++ leBytes 8 (fieldLE p 0 8) ++ leBytes 1 status) s

/-- The node holds all the chain sessions it can. -/
def chainFull (s : State) : Bool := decide (4 ≤ s.chain.sessions.length)

/-- A CHALLENGE sent on the chain and remembered for 200 ms. -/
def challengeChain (m : ChainMsg) (p : Bytes) (v : Nat) (s : State) : State :=
  let d := draw s
  let s := d.2
  let sid := s.hxt.nextSid
  let head := chalHead s (fieldLE p 0 8) v d.1 true
  let c := head ++ slice (Config.sign (slice (Config.sha384 (p ++ head)) 0 48)) 0 96
  let ch : Chal := { sid := sid, chain := true, src := m.src, eph := d.1, hello := p, challenge := c,
                     nonce := slice (Config.random d.1) 0 48, at_ := s.clk.now, version := v, sig := true, tenant := fieldLE p 10 1,
                     flags := fieldLE p 11 1, maxPayload := fieldLE p 12 2 }
  sendSession m (leBytes 1 0x11 ++ leBytes 4 sid ++ c)
    { s with hxt := { s.hxt with chals := s.hxt.chals ++ [ch], nextSid := stepSid sid } }

/-- HELLO on the chain. -/
def helloChain (m : ChainMsg) (p : Bytes) (s : State) : State :=
  let v := agreeVersion (fieldLE p 8 1) (dirNum s (ent 0xB010 2))
  if helloFields p then refuseChain m p 0x10 s
  else if v = 0 then refuseChain m p 0x11 s
  else if fieldLE p 9 1 = 0 || !s.sec.idKey then refuseChain m p 0x12 s
  else if chainFull s then refuseChain m p 0x50 s
  else challengeChain m p v s

/-- A proved RESPONSE opens its session. -/
def openChain (m : ChainMsg) (c : Chal) (p : Bytes) (lv : Level) (t : Nat) (s : State) : State :=
  let key := sessionKey s c p ['h', 'x', 't', '-', 's', 'e', 's', 's', 'i', 'o', 'n']
  let x : CSess := ⟨c.sid, m.src, lv, t, key, 0, (storedNone, 0, []), s.clk.tick, none⟩
  sendSession m (leBytes 1 0x13 ++ welcomeBytes c key t c.version c.flags)
    { s with chain := { s.chain with sessions := s.chain.sessions ++ [x] } }

/-- RESPONSE on the chain: it answers one CHALLENGE, for 200 ms. -/
def responseChain (m : ChainMsg) (p : Bytes) (s : State) : State :=
  match s.hxt.chals.find? (fun c => c.chain && c.src == m.src && slice c.hello 0 8 == slice p 0 8) with
  | none => refuseChain m p 0x13 s
  | some c =>
    let now := s.clk.now
    let s := dropChal c.sid true s
    if c.at_ + usCycles 200000 < now then refuseChain m p 0x13 s
    else if responseFields p true then refuseChain m p 0x10 s
    else
      match proveHost s c p with
      | none => refuseChain m p 0x12 s
      | some (lv, t) =>
        if lv == .tenant && !tenantServes s t then refuseChain m p 0x12 s
        else if chainFull s then refuseChain m p 0x50 s
        else openChain m c p lv t s

/-- SESSION (R395): on a chain at version 2. -/
def execSession (m : ChainMsg) (s : State) : Out :=
  .next (onMessage m 8193 (fun s =>
    let p := m.body.drop 1
    let k := fieldLE m.body 0 1
    if m.version ≠ chainVersion s || chainVersion s = 1 then refuseChain m p 0x11 s
    else if k = 0x10 then helloChain m p s
    else if k = 0x12 then responseChain m p s
    else ignoreChain s) s)

/-! ### Alerts (R403) -/

/-- Alerts up to `n` acknowledged (R403, R420). -/
def ackAlerts (n : Nat) (s : State) : State :=
  let seqs := (s.chain.alerts.filter (fun a => decide (a.num ≤ n))).map (fun a => a.seq)
  autoRemove { s with
    chain := { s.chain with alerts := s.chain.alerts.filter (fun a => decide (n < a.num)) }
    err := { s.err with queue := s.err.queue.map (fun r => if seqs.contains r.seq then { r with acked := true } else r) } }

/-- ALERT_ACK (R403, R420): alerts up to `n` are acknowledged. -/
def execAlertAck (n : Nat) (s : State) : Out :=
  .next (if chainServed s && addressed s then ackAlerts n (hearFrames 1 s) else s)

/-- One pending alert sent again. -/
def resendAlert (a : Alert) (s : State) : State :=
  let put := fun (x : Alert) => { x with lastTick := s.clk.tick }
  chainSend (.alert a.num a.record) 72
    { s with chain := { s.chain with alerts := updFirst (fun x => x.num == a.num) put s.chain.alerts } }

/-- ALERT_RESEND (R403): alerts sent 16 ticks ago or earlier. -/
def execAlertResend (s : State) : Out :=
  .next (if chainServed s && alertsOn s then
      foldS (s.chain.alerts.filter (fun a => decide (a.lastTick + 16 ≤ s.clk.tick))) resendAlert s
    else s)

end Sys2Proof.Machine
end

