-- ==== Sys2Proof/Machine/RvFloat.lean ====
section
/-! DEFINITION. RvFloat: the F and D operations of RV64GC (R33), each one exact result rounded once. The RISC-V
documents are the source (PRESUMED, log 18). A result is a pattern and the fflags it raises. -/
namespace Sys2Proof.Machine

/-- A value is negative zero or below. -/
def fpNeg : Fp → Bool
  | .nan _ => false
  | .inf n => n
  | .fin n _ _ => n

/-- A signalling NaN. -/
def fpSnan : Fp → Bool
  | .nan sig => sig
  | _ => false

/-- Any NaN. -/
def fpNan : Fp → Bool
  | .nan _ => true
  | _ => false

/-- NaN result of operands: NV when one signals. -/
def nanResult (f : Fmt) (xs : List Fp) : Nat × Nat := (canonNan f, if xs.any fpSnan then ffNV else 0)

/-- Invalid operation. -/
def invalid (f : Fmt) : Nat × Nat := (canonNan f, ffNV)

/-- Two finite values over the smaller of two exponents. -/
def alignTo (e : Int) (n : Bool) (m : Nat) (x : Int) : Int :=
  let v : Int := (m <<< (x - e).toNat : Nat)
  if n then -v else v

/-- Exact sum of two finite values rounded; an exact zero is negative when both are, or when rounding down. -/
def sumRound (f : Fmt) (rm : Rm) (n : Bool) (m : Nat) (e : Int) (k : Bool) (p : Nat) (x : Int) : Nat × Nat :=
  let lo := min e x
  let v := alignTo lo n m e + alignTo lo k p x
  if v = 0 then (fpZero f (if m = 0 ∧ p = 0 ∧ n = k then n else rm == .rdn), 0)
  else fpRound f rm (decide (v < 0)) v.natAbs lo

/-- Sum of two values. -/
def fpAdd (f : Fmt) (rm : Rm) (a b : Fp) : Nat × Nat :=
  match a, b with
  | .nan x, b => nanResult f [.nan x, b]
  | a, .nan x => nanResult f [a, .nan x]
  | .inf n, .inf k => if n = k then (fpInf f n, 0) else invalid f
  | .inf n, .fin _ _ _ => (fpInf f n, 0)
  | .fin _ _ _, .inf k => (fpInf f k, 0)
  | .fin n m e, .fin k p x => sumRound f rm n m e k p x

/-- A value negated. -/
def fpNegate : Fp → Fp
  | .nan x => .nan x
  | .inf n => .inf (!n)
  | .fin n m e => .fin (!n) m e

/-- Exact product of two values, or none where it is invalid or NaN. -/
def fpProd (a b : Fp) : Option Fp :=
  match a, b with
  | .nan _, _ => none
  | _, .nan _ => none
  | .inf n, .inf k => some (.inf (n != k))
  | .inf n, .fin k m _ => if m = 0 then none else some (.inf (n != k))
  | .fin k m _, .inf n => if m = 0 then none else some (.inf (n != k))
  | .fin n m e, .fin k p x => some (.fin (n != k) (m * p) (e + x))

/-- A value rounded into a format. -/
def fpPack (f : Fmt) (rm : Rm) : Fp → Nat × Nat
  | .nan x => nanResult f [.nan x]
  | .inf n => (fpInf f n, 0)
  | .fin n m e => fpRound f rm n m e

/-- Product of two values. -/
def fpMul (f : Fmt) (rm : Rm) (a b : Fp) : Nat × Nat :=
  match fpProd a b with
  | some p => fpPack f rm p
  | none => if fpNan a || fpNan b then nanResult f [a, b] else invalid f

/-- Fused product and sum. -/
def fpFma (f : Fmt) (rm : Rm) (a b c : Fp) : Nat × Nat :=
  match fpProd a b with
  | some p => fpAdd f rm p c
  | none => if fpNan a || fpNan b then nanResult f [a, b, c] else invalid f

/-- Quotient of two values. -/
def fpDiv (f : Fmt) (rm : Rm) (a b : Fp) : Nat × Nat :=
  match a, b with
  | .nan x, b => nanResult f [.nan x, b]
  | a, .nan x => nanResult f [a, .nan x]
  | .inf _, .inf _ => invalid f
  | .inf n, .fin k _ _ => (fpInf f (n != k), 0)
  | .fin n _ _, .inf k => (fpZero f (n != k), 0)
  | .fin n m e, .fin k p x =>
    if p = 0 then (if m = 0 then invalid f else (fpInf f (n != k), ffDZ))
    else
      let q := divSticky (f.mb + 4) m e p x
      fpRound f rm (n != k) q.1 q.2

/-- Integer square root, bit by bit from bit `k` down. -/
def isqrt : Nat → Nat → Nat → Nat
  | 0, _, r => r
  | k + 1, n, r =>
    let c := r + 2 ^ k
    isqrt k n (if c * c ≤ n then c else r)

/-- Square root. -/
def fpSqrt (f : Fmt) (rm : Rm) (a : Fp) : Nat × Nat :=
  match a with
  | .nan x => nanResult f [.nan x]
  | .inf n => if n then invalid f else (fpInf f false, 0)
  | .fin n m e =>
    if m = 0 then (fpZero f n, 0)
    else if n then invalid f
    else
      let odd := e % 2 = 1
      let m1 := if odd then 2 * m else m
      let e1 := if odd then e - 1 else e
      let sh := 2 * (f.mb + 4)
      let big := m1 <<< sh
      let r := isqrt (Nat.log2 big / 2 + 2) big 0
      fpRound f rm false (2 * r + b01 (r * r != big)) ((e1 - (sh : Int)) / 2 - 1)

/-- Order of two values that are not NaN: whether the first is less, and whether they are equal. -/
def fpOrder (a b : Fp) : Bool × Bool :=
  match a, b with
  | .inf n, .inf k => (n && !k, n == k)
  | .inf n, .fin _ _ _ => (n, false)
  | .fin _ _ _, .inf k => (!k, false)
  | .fin n m e, .fin k p x =>
    let lo := min e x
    let u := alignTo lo n m e
    let v := alignTo lo k p x
    (decide (u < v), decide (u = v))
  | _, _ => (false, false)

/-- FEQ (2), FLT (1), FLE (0). -/
def fpCmp (op : Nat) (a b : Fp) : Nat × Nat :=
  if fpNan a || fpNan b then (0, if op ≠ 2 ∨ fpSnan a ∨ fpSnan b then ffNV else 0)
  else
    let o := fpOrder a b
    (b01 (if op = 2 then o.2 else if op = 1 then o.1 else o.1 || o.2), 0)

/-- FMIN and FMAX on patterns. -/
def fpMinMax (f : Fmt) (mx : Bool) (x y : Nat) : Nat × Nat :=
  let a := fpOf f x
  let b := fpOf f y
  let fl := if fpSnan a || fpSnan b then ffNV else 0
  if fpNan a && fpNan b then (canonNan f, fl)
  else if fpNan a then (y, fl)
  else if fpNan b then (x, fl)
  else
    let o := fpOrder a b
    let less := o.1 || (o.2 && fpNeg a && !fpNeg b)
    (if less != mx then x else y, fl)

/-- FCLASS. -/
def fpClass (f : Fmt) (b : Nat) : Nat :=
  match fpOf f b with
  | .nan sig => if sig then 0x100 else 0x200
  | .inf n => if n then 0x1 else 0x80
  | .fin n m _ =>
    let sub := (fpFields f b).2.1 == 0
    if m = 0 then (if n then 0x8 else 0x10)
    else if sub then (if n then 0x4 else 0x20)
    else (if n then 0x2 else 0x40)

/-- A value converted to an integer of `n` bits, signed or not: the integer and the flags. -/
def fpToInt (n : Nat) (uns : Bool) (rm : Rm) (a : Fp) : Int × Nat :=
  let hi : Int := if uns then ((2 ^ n : Nat) : Int) - 1 else ((2 ^ (n - 1) : Nat) : Int) - 1
  let lo : Int := if uns then 0 else -((2 ^ (n - 1) : Nat) : Int)
  match a with
  | .nan _ => (hi, ffNV)
  | .inf k => (if k then lo else hi, ffNV)
  | .fin k m e =>
    let v := shiftRound rm k m (-e)
    let i : Int := if k then -(v.1 : Int) else v.1
    if i > hi then (hi, ffNV) else if i < lo then (lo, ffNV) else (i, if v.2 then 0 else ffNX)

/-- An integer converted to a format. -/
def fpFromInt (f : Fmt) (rm : Rm) (i : Int) : Nat × Nat := roundScaled f rm 0 false i

/-- Rounding mode of a code; none for the reserved ones. -/
def rmOf : Nat → Option Rm
  | 0 => some .rne
  | 1 => some .rtz
  | 2 => some .rdn
  | 3 => some .rup
  | 4 => some .rmm
  | _ => none

/-- Pattern of a floating register read in a format: a word must be boxed in ones. -/
def fpReg (f : Fmt) (v : W64) : Nat :=
  if f = fmt32 then (if v.toNat / 2 ^ 32 = 2 ^ 32 - 1 then v.toNat % 2 ^ 32 else canonNan fmt32) else v.toNat

/-- Register value of a pattern. -/
def fpBox (f : Fmt) (b : Nat) : W64 :=
  if f = fmt32 then BitVec.ofNat 64 (0xFFFFFFFF00000000 + b % 2 ^ 32) else BitVec.ofNat 64 b

end Sys2Proof.Machine
end

