-- ==== Sys2Proof/Machine/Rvv.lean ====
section
/-! DEFINITION. Rvv: the vector arithmetic of the V extension 1.0 (R33). The RISC-V documents that the spec names are the source
(PRESUMED, log 18). A meaning answers the thread after the instruction, or none for a reserved form. -/
namespace Sys2Proof.Machine

/-! ### Groups and elements -/

/-- EMUL in eighths of operands of `e` bytes. -/
def vEmul (t : Thread) (e : Nat) : Nat := e * vLmul8 t / vSew t

/-- A register group of `e`-byte elements may start at `v`. -/
def vOk (t : Thread) (e v : Nat) : Bool := decide (1 ≤ e) && decide (e ≤ 8) && vGroupOk t (vEmul t e) 1 v

/-- Registers of a group of `e`-byte elements. -/
def vRegs (t : Thread) (e : Nat) : Nat := groupRegs (vEmul t e)

/-- Two ranges of registers have none in common. -/
def vApart (a n b k : Nat) : Bool := decide (a + n ≤ b) || decide (b + k ≤ a)

/-- A destination of `ed`-byte elements may overlap a source of `es`-byte elements: of equal size, or in the lowest registers of a
wider source, or in the highest of a wider destination. -/
def vMeet (t : Thread) (ed d es v : Nat) : Bool :=
  vApart d (vRegs t ed) v (vRegs t es) || ed == es || (decide (ed < es) && d == v)
    || (decide (es < ed) && decide (8 ≤ vEmul t es) && v + vRegs t es == d + vRegs t ed)

/-- A mask destination may overlap a source group only in its lowest register. -/
def vMaskMeet (t : Thread) (d es v : Nat) : Bool := vApart d 1 v (vRegs t es) || d == v

/-- The largest number of elements under the vtype in force. -/
def vMax (t : Thread) : Nat := 8 * vLmul8 t / vSew t

/-- Elements from vstart to vl. -/
def vAll (t : Thread) : List Nat := (upFrom 0 (vLen t)).filter (fun i => decide (rcsr t 8 ≤ i))

/-- Elements that take part: the body's active ones. -/
def vBody (t : Thread) (vm : Bool) : List Nat := (vAll t).filter (vActive t vm)

/-- Elements of `n` bytes written. -/
def vPut (n rd : Nat) (l : List (Nat × Nat)) (t : Thread) : Thread :=
  l.foldl (fun t p => putElem rd n p.1 (leBytes n p.2) t) t

/-- Mask bits written. -/
def vPutBits (rd : Nat) (l : List (Nat × Bool)) (t : Thread) : Thread :=
  l.foldl (fun t p => dirtyVS (setV rd (vSetBits (rv t rd) p.1 1 (b01 p.2)) t)) t

/-- Bit `i` of a mask register. -/
def vBit (t : Thread) (v i : Nat) : Bool := bit (rv t v).toNat i

/-- The second operand of element `i`: a vector element, an immediate or a scalar register, as `n` bytes. -/
def vOpnd (t : Thread) (w n : Nat) (uns : Bool) (i : Nat) : Nat :=
  let r := bits w 19 15
  match bits w 14 12 with
  | 3 => if uns then r else wrap (8 * n) (sgn 5 r)
  | 4 => (rx t r).toNat % 2 ^ (8 * n)
  | 6 => (rx t r).toNat % 2 ^ (8 * n)
  | 5 => fpReg (if n = 4 then fmt32 else fmt64) (rf t r)
  | _ => vElem t r n i

/-- The second operand is a vector register group. -/
def vIsVV (w : Nat) : Bool := decide (bits w 14 12 < 3)

/-- Checks of an instruction whose operands and result all have SEW: groups aligned, v0 not written under its own mask. -/
def vPlain (t : Thread) (w : Nat) : Bool :=
  let n := vSew t
  vOk t n (bits w 11 7) && vOk t n (bits w 24 20) && (!vIsVV w || vOk t n (bits w 19 15)) && (bit w 25 || bits w 11 7 != 0)

/-! ### Integer operations -/

/-- A value shifted right by `d` bits under vxrm: nearest up, nearest even, down, to odd. -/
def vRound (rm d : Nat) (v : Int) : Int :=
  if d = 0 then v
  else
    let p : Int := ((2 ^ d : Nat) : Int)
    let q := v / p
    let r := (v % p).toNat
    let half := 2 ^ (d - 1)
    let up := match rm with
      | 0 => decide (half ≤ r)
      | 1 => decide (half < r) || (r == half && q % 2 == 1)
      | 2 => false
      | _ => r != 0 && q % 2 == 0
    if up then q + 1 else q

/-- A value saturated to `n` bits without a sign. -/
def satNat (n : Nat) (i : Int) : Int := if i < 0 then 0 else min i (((2 ^ n : Nat) : Int) - 1)

/-- A saturated value and whether it was. -/
def satPair (n : Nat) (sg : Bool) (i : Int) : Int × Bool :=
  let r := if sg then satInt n i else satNat n i
  (r, r != i)

/-- Operations of OPIVV, OPIVX and OPIVI on elements of `N` bits, vs2's first: the result and whether it saturated. -/
def vIntI (f6 N rm a b : Nat) : Option (Int × Bool) :=
  let sa := sgn N a
  let sb := sgn N b
  let ua : Int := (a : Int)
  let ub : Int := (b : Int)
  let sh := b % N
  let ok := fun (i : Int) => some (i, false)
  match f6 with
  | 0x00 => ok (sa + sb)
  | 0x02 => ok (sa - sb)
  | 0x03 => ok (sb - sa)
  | 0x04 => ok (min ua ub)
  | 0x05 => ok (min sa sb)
  | 0x06 => ok (max ua ub)
  | 0x07 => ok (max sa sb)
  | 0x09 => ok ((a &&& b : Nat) : Int)
  | 0x0A => ok ((a ||| b : Nat) : Int)
  | 0x0B => ok ((a ^^^ b : Nat) : Int)
  | 0x20 => some (satPair N false (ua + ub))
  | 0x21 => some (satPair N true (sa + sb))
  | 0x22 => some (satPair N false (ua - ub))
  | 0x23 => some (satPair N true (sa - sb))
  | 0x25 => ok ((a <<< sh : Nat) : Int)
  | 0x27 => some (satPair N true (vRound rm (N - 1) (sa * sb)))
  | 0x28 => ok ((a >>> sh : Nat) : Int)
  | 0x29 => ok (sa / ((2 ^ sh : Nat) : Int))
  | 0x2A => ok (vRound rm sh ua)
  | 0x2B => ok (vRound rm sh sa)
  | _ => none

/-- Operations of OPMVV and OPMVX on elements of `N` bits; `d` is the destination's element. -/
def vIntM (f6 N rm d a b : Nat) : Option Int :=
  let sa := sgn N a
  let sb := sgn N b
  let sd := sgn N d
  let ua : Int := (a : Int)
  let ub : Int := (b : Int)
  let p : Int := ((2 ^ N : Nat) : Int)
  match f6 with
  | 0x08 => some (vRound rm 1 (ua + ub))
  | 0x09 => some (vRound rm 1 (sa + sb))
  | 0x0A => some (vRound rm 1 (ua - ub))
  | 0x0B => some (vRound rm 1 (sa - sb))
  | 0x20 => some (if b = 0 then -1 else ua / ub)
  | 0x21 => some (if b = 0 then -1 else Int.tdiv sa sb)
  | 0x22 => some (if b = 0 then ua else ua % ub)
  | 0x23 => some (if b = 0 then sa else Int.tmod sa sb)
  | 0x24 => some (ua * ub / p)
  | 0x25 => some (sa * sb)
  | 0x26 => some (sa * ub / p)
  | 0x27 => some (sa * sb / p)
  | 0x29 => some (sd * sb + sa)
  | 0x2B => some (sa - sd * sb)
  | 0x2D => some (sa * sb + sd)
  | 0x2F => some (sd - sa * sb)
  | _ => none

/-- Which of the forms .vv, .vx and .vi an OPI operation has. -/
def vHasForm (f6 f3 : Nat) : Bool :=
  if f6 ∈ [0x02, 0x04, 0x05, 0x06, 0x07, 0x22, 0x23, 0x27] then f3 != 3 else if f6 = 0x03 then f3 != 0 else true

/-- Immediates of shifts, slides and gathers have no sign. -/
def vUnsImm (f6 : Nat) : Bool := f6 ∈ [0x25, 0x28, 0x29, 0x2A, 0x2B]

/-- A list of results, or none if one has none. -/
def vGather {α : Type} : List (Nat × Option α) → Option (List (Nat × α))
  | [] => some []
  | (i, some a) :: t => (vGather t).map (fun l => (i, a) :: l)
  | (_, none) :: _ => none

/-- vxsat raised when any element saturated. -/
def vSaturated (l : List (Nat × Int × Bool)) (t : Thread) : Thread :=
  if l.any (fun p => p.2.2) then setCsr 0xF (rcsr t 0xF ||| 1) t else t

/-- Single-width OPI operations. -/
def vOpI (t : Thread) (w : Nat) : Option Thread :=
  let n := vSew t
  let f6 := bits w 31 26
  let rm := bits (rcsr t 0xF) 2 1
  if !vPlain t w || !vHasForm f6 (bits w 14 12) || (vIntI f6 (8 * n) rm 0 0).isNone then none
  else
    (vGather ((vBody t (bit w 25)).map (fun i =>
      (i, vIntI f6 (8 * n) rm (vElem t (bits w 24 20) n i) (vOpnd t w n (vUnsImm f6) i))))).map (fun l =>
        vSaturated l (vPut n (bits w 11 7) (l.map (fun p => (p.1, wrap (8 * n) p.2.1))) t))

/-- Single-width OPM operations. -/
def vOpM (t : Thread) (w : Nat) : Option Thread :=
  let n := vSew t
  let f6 := bits w 31 26
  let rd := bits w 11 7
  let rm := bits (rcsr t 0xF) 2 1
  if !vPlain t w || (vIntM f6 (8 * n) rm 0 0 0).isNone then none
  else
    (vGather ((vBody t (bit w 25)).map (fun i =>
      (i, vIntM f6 (8 * n) rm (vElem t rd n i) (vElem t (bits w 24 20) n i) (vOpnd t w n false i))))).map (fun l =>
        vPut n rd (l.map (fun p => (p.1, wrap (8 * n) p.2))) t)

/-! ### Widening and narrowing -/

/-- Widening operations on exact operands: the signs of vs2's and of the second operand, and the result from the destination's
element, vs2's and the second operand's. -/
def vWiden (f6 : Nat) : Option (Bool × Bool × (Int → Int → Int → Int)) :=
  match f6 with
  | 0x30 => some (false, false, fun _ a b => a + b)
  | 0x31 => some (true, true, fun _ a b => a + b)
  | 0x32 => some (false, false, fun _ a b => a - b)
  | 0x33 => some (true, true, fun _ a b => a - b)
  | 0x34 => some (false, false, fun _ a b => a + b)
  | 0x35 => some (true, true, fun _ a b => a + b)
  | 0x36 => some (false, false, fun _ a b => a - b)
  | 0x37 => some (true, true, fun _ a b => a - b)
  | 0x38 => some (false, false, fun _ a b => a * b)
  | 0x3A => some (true, false, fun _ a b => a * b)
  | 0x3B => some (true, true, fun _ a b => a * b)
  | 0x3C => some (false, false, fun d a b => d + a * b)
  | 0x3D => some (true, true, fun d a b => d + a * b)
  | 0x3E => some (true, false, fun d a b => d + a * b)
  | 0x3F => some (false, true, fun d a b => d + a * b)
  | _ => none

/-- An element as an integer with or without its sign. -/
def vSigned (sg : Bool) (N v : Nat) : Int := if sg then sgn N v else (v : Int)

/-- vs2 of a widening operation already has the wide size. -/
def vWideSrc (f6 : Nat) : Bool := inR f6 0x34 0x37

/-- Checks of a widening operation of `n`-byte operands; `k` is the size of vs2's elements. -/
def vWideOk (t : Thread) (w k : Nat) : Bool :=
  let n := vSew t
  let rd := bits w 11 7
  vOk t (2 * n) rd && vOk t k (bits w 24 20) && vMeet t (2 * n) rd k (bits w 24 20)
    && (!vIsVV w || (vOk t n (bits w 19 15) && vMeet t (2 * n) rd n (bits w 19 15))) && (bit w 25 || rd != 0)

/-- Widening integer operations. -/
def vOpWiden (t : Thread) (w : Nat) : Option Thread :=
  let n := vSew t
  let f6 := bits w 31 26
  let rd := bits w 11 7
  let k := if vWideSrc f6 then 2 * n else n
  match vWiden f6 with
  | none => none
  | some (sa, sb, f) =>
    if !vWideOk t w k || (f6 == 0x3E && vIsVV w) then none
    else some (vPut (2 * n) rd ((vBody t (bit w 25)).map (fun i =>
      (i, wrap (16 * n) (f (sgn (16 * n) (vElem t rd (2 * n) i)) (vSigned sa (8 * k) (vElem t (bits w 24 20) k i))
        (vSigned sb (8 * n) (vOpnd t w n false i)))))) t)

/-- Narrowing shifts and clips of an element of `2N` bits. -/
def vNarrow (f6 N rm a b : Nat) : Int × Bool :=
  let sh := b % (2 * N)
  let sa := sgn (2 * N) a
  match f6 with
  | 0x2C => ((a >>> sh : Nat), false)
  | 0x2D => (sa / ((2 ^ sh : Nat) : Int), false)
  | 0x2E => satPair N false (vRound rm sh (a : Int))
  | _ => satPair N true (vRound rm sh sa)

/-- Checks of a narrowing operation. -/
def vNarrowOk (t : Thread) (w : Nat) : Bool :=
  let n := vSew t
  let rd := bits w 11 7
  vOk t n rd && vOk t (2 * n) (bits w 24 20) && vMeet t n rd (2 * n) (bits w 24 20)
    && (!vIsVV w || vOk t n (bits w 19 15)) && (bit w 25 || rd != 0)

/-- vnsrl, vnsra, vnclipu and vnclip. -/
def vOpNarrow (t : Thread) (w : Nat) : Option Thread :=
  let n := vSew t
  let rm := bits (rcsr t 0xF) 2 1
  if !vNarrowOk t w then none
  else
    let l := (vBody t (bit w 25)).map (fun i => (i, vNarrow (bits w 31 26) (8 * n) rm (vElem t (bits w 24 20) (2 * n) i)
      (vOpnd t w n true i)))
    some (vSaturated l (vPut n (bits w 11 7) (l.map (fun p => (p.1, wrap (8 * n) p.2.1))) t))

/-- vzext and vsext by 2, 4 and 8. -/
def vExtend (t : Thread) (w : Nat) : Option Thread :=
  let n := vSew t
  let c := bits w 19 15
  let k := n / (if c < 4 then 8 else if c < 6 then 4 else 2)
  let rd := bits w 11 7
  let v := bits w 24 20
  if !inR c 2 7 || !vOk t n rd || !vOk t k v || !vMeet t n rd k v || (!bit w 25 && rd == 0) then none
  else some (vPut n rd ((vBody t (bit w 25)).map (fun i =>
    (i, wrap (8 * n) (vSigned (c % 2 == 1) (8 * k) (vElem t v k i))))) t)

/-! ### Carries, merges, comparisons -/

/-- vadc and vsbc: the mask is the carry in, every body element is written. -/
def vCarry (t : Thread) (w : Nat) : Option Thread :=
  let n := vSew t
  let sub := bits w 31 26 == 0x12
  let rd := bits w 11 7
  if bit w 25 || rd == 0 || !vPlain t w || (sub && bits w 14 12 == 3) then none
  else some (vPut n rd ((vAll t).map (fun i =>
    let a : Int := (vElem t (bits w 24 20) n i : Int)
    let b : Int := (vOpnd t w n false i : Int)
    let c : Int := (b01 (vBit t 0 i) : Int)
    (i, wrap (8 * n) (if sub then a - b - c else a + b + c)))) t)

/-- Sources of a comparison: groups aligned, the mask destination over none but a lowest register. -/
def vMaskOk (t : Thread) (w : Nat) : Bool :=
  let n := vSew t
  let rd := bits w 11 7
  vOk t n (bits w 24 20) && vMaskMeet t rd n (bits w 24 20)
    && (!vIsVV w || (vOk t n (bits w 19 15) && vMaskMeet t rd n (bits w 19 15)))

/-- vmadc and vmsbc: the carry or borrow out; with vm clear the mask is the carry in. -/
def vCarryOut (t : Thread) (w : Nat) : Option Thread :=
  let n := vSew t
  let sub := bits w 31 26 == 0x13
  if !vMaskOk t w || (sub && bits w 14 12 == 3) then none
  else some (vPutBits (bits w 11 7) ((vAll t).map (fun i =>
    let a := vElem t (bits w 24 20) n i
    let b := vOpnd t w n false i
    let c := if bit w 25 then 0 else b01 (vBit t 0 i)
    (i, if sub then decide (a < b + c) else decide (2 ^ (8 * n) ≤ a + b + c)))) t)

/-- vmerge, and vmv.v with vm set. -/
def vMerge (t : Thread) (w : Nat) : Option Thread :=
  let n := vSew t
  let rd := bits w 11 7
  if !vPlain t w || (bit w 25 && bits w 24 20 != 0) then none
  else some (vPut n rd ((vAll t).map (fun i =>
    (i, if bit w 25 || vBit t 0 i then vOpnd t w n false i else vElem t (bits w 24 20) n i))) t)

/-- Integer comparisons. -/
def vCompare (f6 N a b : Nat) : Bool :=
  match f6 with
  | 0x18 => a == b
  | 0x19 => a != b
  | 0x1A => decide (a < b)
  | 0x1B => decide (sgn N a < sgn N b)
  | 0x1C => decide (a ≤ b)
  | 0x1D => decide (sgn N a ≤ sgn N b)
  | 0x1E => decide (b < a)
  | _ => decide (sgn N b < sgn N a)

/-- vmseq to vmsgt. -/
def vOpCompare (t : Thread) (w : Nat) : Option Thread :=
  let n := vSew t
  let f6 := bits w 31 26
  let f3 := bits w 14 12
  if !vMaskOk t w || (f6 ∈ [0x1A, 0x1B] && f3 == 3) || (f6 ∈ [0x1E, 0x1F] && f3 == 0) then none
  else some (vPutBits (bits w 11 7) ((vBody t (bit w 25)).map (fun i =>
    (i, vCompare f6 (8 * n) (vElem t (bits w 24 20) n i) (vOpnd t w n false i)))) t)

/-! ### Permutations -/

/-- Checks of a slide or gather: the destination lies apart from vs2 unless `over` allows it. -/
def vPermOk (t : Thread) (w : Nat) (overT : Bool) : Bool :=
  let n := vSew t
  let rd := bits w 11 7
  let v := bits w 24 20
  vOk t n rd && vOk t n v && (overT || vApart rd (vRegs t n) v (vRegs t n)) && (bit w 25 || rd != 0)

/-- Slide amount or index of the scalar forms: x[rs1] whole, or an immediate without sign. -/
def vAmount (t : Thread) (w : Nat) : Nat := if bits w 14 12 = 3 then bits w 19 15 else (rx t (bits w 19 15)).toNat

/-- vslideup. -/
def vSlideUp (t : Thread) (w : Nat) : Option Thread :=
  let n := vSew t
  let k := vAmount t w
  if !vPermOk t w false then none
  else some (vPut n (bits w 11 7) (((vBody t (bit w 25)).filter (fun i => decide (k ≤ i))).map (fun i =>
    (i, vElem t (bits w 24 20) n (i - k)))) t)

/-- An element of vs2, zero past VLMAX. -/
def vElemOr0 (t : Thread) (v n i : Nat) : Nat := if i < vMax t then vElem t v n i else 0

/-- vslidedown. -/
def vSlideDown (t : Thread) (w : Nat) : Option Thread :=
  let n := vSew t
  let k := vAmount t w
  if !vPermOk t w true then none
  else some (vPut n (bits w 11 7) ((vBody t (bit w 25)).map (fun i => (i, vElemOr0 t (bits w 24 20) n (i + k)))) t)

/-- vslide1up and vfslide1up. -/
def vSlide1Up (t : Thread) (w : Nat) : Option Thread :=
  let n := vSew t
  if !vPermOk t w false then none
  else some (vPut n (bits w 11 7) ((vBody t (bit w 25)).map (fun i =>
    (i, if i = 0 then vOpnd t w n false 0 else vElem t (bits w 24 20) n (i - 1)))) t)

/-- vslide1down and vfslide1down. -/
def vSlide1Down (t : Thread) (w : Nat) : Option Thread :=
  let n := vSew t
  if !vPermOk t w true then none
  else some (vPut n (bits w 11 7) ((vBody t (bit w 25)).map (fun i =>
    (i, if i + 1 = vLen t then vOpnd t w n false 0 else vElem t (bits w 24 20) n (i + 1)))) t)

/-- vrgather. -/
def vRgather (t : Thread) (w : Nat) : Option Thread :=
  let n := vSew t
  let rd := bits w 11 7
  let r := bits w 19 15
  let vv := bits w 14 12 == 0
  if !vPermOk t w false || (vv && !(vOk t n r && vApart rd (vRegs t n) r (vRegs t n))) then none
  else some (vPut n rd ((vBody t (bit w 25)).map (fun i =>
    (i, vElemOr0 t (bits w 24 20) n (if vv then vElem t r n i else vAmount t w)))) t)

/-- vrgatherei16. -/
def vRgather16 (t : Thread) (w : Nat) : Option Thread :=
  let n := vSew t
  let rd := bits w 11 7
  let r := bits w 19 15
  if !vPermOk t w false || !vOk t 2 r || !vApart rd (vRegs t n) r (vRegs t 2) then none
  else some (vPut n rd ((vBody t (bit w 25)).map (fun i => (i, vElemOr0 t (bits w 24 20) n (vElem t r 2 i)))) t)

/-- vcompress: the elements that vs1 selects, packed. -/
def vCompress (t : Thread) (w : Nat) : Option Thread :=
  let n := vSew t
  let rd := bits w 11 7
  let r := bits w 19 15
  if !bit w 25 || rcsr t 8 != 0 || !vPermOk t w false || !vApart rd (vRegs t n) r 1 then none
  else
    let l := (vAll t).filter (vBit t r)
    some (vPut n rd ((numbered l).map (fun p => (p.1, vElem t (bits w 24 20) n p.2))) t)

/-- vmv1r, vmv2r, vmv4r and vmv8r. -/
def vMoveRegs (t : Thread) (w : Nat) : Option Thread :=
  let k := bits w 19 15 + 1
  let rd := bits w 11 7
  let v := bits w 24 20
  let n := vSew t
  if !bit w 25 || !([1, 2, 4, 8].contains k) || rd % max 1 k != 0 || v % max 1 k != 0 then none
  else some (vPut n rd (((upFrom 0 (64 * k / n)).filter (fun i => decide (rcsr t 8 ≤ i))).map (fun i => (i, vElem t v n i))) t)

/-! ### Reductions and masks -/

/-- One step of an integer reduction. -/
def vReduceStep (f6 N acc x : Nat) : Nat :=
  match f6 with
  | 0 => (acc + x) % 2 ^ N
  | 1 => acc &&& x
  | 2 => acc ||| x
  | 3 => acc ^^^ x
  | 4 => min acc x
  | 5 => if sgn N x < sgn N acc then x else acc
  | 6 => max acc x
  | _ => if sgn N acc < sgn N x then x else acc

/-- vredsum to vredmax. -/
def vReduce (t : Thread) (w : Nat) : Option Thread :=
  let n := vSew t
  let v := bits w 24 20
  if rcsr t 8 != 0 || !vOk t n v then none
  else if vLen t = 0 then some t
  else some (vPut n (bits w 11 7) [(0, (vBody t (bit w 25)).foldl (fun acc i => vReduceStep (bits w 31 26) (8 * n) acc (vElem t v n i))
    (vElem t (bits w 19 15) n 0))] t)

/-- vwredsumu and vwredsum. -/
def vWideReduce (t : Thread) (w : Nat) : Option Thread :=
  let n := vSew t
  let v := bits w 24 20
  if rcsr t 8 != 0 || !vOk t n v || decide (8 < 2 * n) then none
  else if vLen t = 0 then some t
  else some (vPut (2 * n) (bits w 11 7) [(0, wrap (16 * n) ((vBody t (bit w 25)).foldl
    (fun acc i => acc + vSigned (bits w 31 26 == 0x31) (8 * n) (vElem t v n i)) (vElem t (bits w 19 15) (2 * n) 0 : Int)))] t)

/-- vmandn to vmxnor. -/
def vMaskLogic (t : Thread) (w : Nat) : Option Thread :=
  let f := fun (a b : Bool) => match bits w 31 26 with
    | 0x18 => a && !b
    | 0x19 => a && b
    | 0x1A => a || b
    | 0x1B => a != b
    | 0x1C => a || !b
    | 0x1D => !(a && b)
    | 0x1E => !(a || b)
    | _ => a == b
  if !bit w 25 then none
  else some (vPutBits (bits w 11 7) ((vAll t).map (fun i => (i, f (vBit t (bits w 24 20) i) (vBit t (bits w 19 15) i)))) t)

/-- vmsbf (1), vmsof (2), vmsif (3), viota (16) and vid (17). -/
def vMaskUnary (t : Thread) (w : Nat) : Option Thread :=
  let n := vSew t
  let rd := bits w 11 7
  let v := bits w 24 20
  let vm := bit w 25
  let act := vBody t vm
  let first := act.find? (vBit t v)
  let before := fun (i : Nat) => (first.all (fun k => decide (i < k)))
  if !vm && rd == 0 then none
  else match bits w 19 15 with
  | 0x11 => if v != 0 || !vOk t n rd then none else some (vPut n rd (act.map (fun i => (i, i))) t)
  | 0x10 =>
    if rcsr t 8 != 0 || !vOk t n rd || !vApart rd (vRegs t n) v 1 then none
    else some (vPut n rd (act.map (fun i => (i, (act.filter (fun j => decide (j < i) && vBit t v j)).length))) t)
  | c =>
    if rcsr t 8 != 0 || rd == v || !inR c 1 3 then none
    else some (vPutBits rd (act.map (fun i =>
      (i, if c = 1 then before i else if c = 2 then first == some i else before i || first == some i))) t)

/-! ### Floating operations -/

/-- Format of elements of a size; SEW of 4 or 8 bytes alone is supported (R33 names no half precision). -/
def vFmt (n : Nat) : Option Fmt := if n = 4 then some fmt32 else if n = 8 then some fmt64 else none

/-- Flags of floating elements accrued. -/
def vFlags (l : List Nat) (t : Thread) : Thread := dirtyFS (setCsr 3 (rcsr t 3 ||| l.foldl (fun a b => a ||| b) 0) t)

/-- Floating results written with their flags. -/
def vPutF (n rd : Nat) (l : List (Nat × Nat × Nat)) (t : Thread) : Thread :=
  vFlags (l.map (fun p => p.2.2)) (vPut n rd (l.map (fun p => (p.1, p.2.1))) t)

/-- A fused product and sum of patterns: `np` negates the product, `nc` the addend. -/
def vFma (f : Fmt) (rm : Rm) (np nc : Bool) (x y z : Nat) : Nat × Nat :=
  let a := fpOf f x
  let c := fpOf f z
  fpFma f rm (if np then fpNegate a else a) (fpOf f y) (if nc then fpNegate c else c)

/-- Single-width operations of OPFVV and OPFVF: vs2's element first, `d` the destination's. -/
def vFloat (f : Fmt) (rm : Rm) (f6 d a b : Nat) : Option (Nat × Nat) :=
  let x := fpOf f a
  let y := fpOf f b
  match f6 with
  | 0x00 => some (fpAdd f rm x y)
  | 0x02 => some (fpAdd f rm x (fpNegate y))
  | 0x27 => some (fpAdd f rm y (fpNegate x))
  | 0x04 => some (fpMinMax f false a b)
  | 0x06 => some (fpMinMax f true a b)
  | 0x20 => some (fpDiv f rm x y)
  | 0x21 => some (fpDiv f rm y x)
  | 0x24 => some (fpMul f rm x y)
  | 0x28 => some (vFma f rm false false d b a)
  | 0x29 => some (vFma f rm true true d b a)
  | 0x2A => some (vFma f rm false true d b a)
  | 0x2B => some (vFma f rm true false d b a)
  | 0x2C => some (vFma f rm false false a b d)
  | 0x2D => some (vFma f rm true true a b d)
  | 0x2E => some (vFma f rm false true a b d)
  | 0x2F => some (vFma f rm true false a b d)
  | _ => none

/-- Sign injection of elements. -/
def vSignInject (f : Fmt) (f6 a b : Nat) : Nat :=
  let top := f.eb + f.mb
  let sb := bits b top top
  a % 2 ^ top + fld (if f6 = 8 then sb else if f6 = 9 then 1 - sb else bits a top top ^^^ sb) top

/-- Operations that have only one of the forms .vv and .vf. -/
def vFloatForm (f6 f3 : Nat) : Bool := !(f6 ∈ [0x21, 0x27] && f3 == 1)

/-- Single-width floating operations. -/
def vOpF (t : Thread) (w : Nat) (rm : Rm) : Option Thread :=
  let n := vSew t
  let f6 := bits w 31 26
  let rd := bits w 11 7
  match vFmt n with
  | none => none
  | some f =>
    if !vPlain t w || !vFloatForm f6 (bits w 14 12) then none
    else if inR f6 8 10 then
      some (vPut n rd ((vBody t (bit w 25)).map (fun i => (i, vSignInject f f6 (vElem t (bits w 24 20) n i) (vOpnd t w n false i)))) t)
    else if (vFloat f rm f6 0 0 0).isNone then none
    else (vGather ((vBody t (bit w 25)).map (fun i =>
      (i, vFloat f rm f6 (vElem t rd n i) (vElem t (bits w 24 20) n i) (vOpnd t w n false i))))).map (fun l => vPutF n rd l t)

/-- Floating comparisons: vmfeq, vmfle, vmflt, vmfne, vmfgt, vmfge. -/
def vFloatCompare (f6 : Nat) (x y : Fp) : Option (Nat × Nat) :=
  match f6 with
  | 0x18 => some (fpCmp 2 x y)
  | 0x19 => some (fpCmp 0 x y)
  | 0x1B => some (fpCmp 1 x y)
  | 0x1C => some (1 - (fpCmp 2 x y).1, (fpCmp 2 x y).2)
  | 0x1D => some (fpCmp 1 y x)
  | 0x1F => some (fpCmp 0 y x)
  | _ => none

/-- Floating comparisons into a mask. -/
def vOpFCompare (t : Thread) (w : Nat) : Option Thread :=
  let n := vSew t
  let f6 := bits w 31 26
  match vFmt n with
  | none => none
  | some f =>
    if !vMaskOk t w || (f6 ∈ [0x1D, 0x1F] && bits w 14 12 == 1) then none
    else (vGather ((vBody t (bit w 25)).map (fun i =>
      (i, vFloatCompare f6 (fpOf f (vElem t (bits w 24 20) n i)) (fpOf f (vOpnd t w n false i)))))).map (fun l =>
        vFlags (l.map (fun p => p.2.2)) (vPutBits (bits w 11 7) (l.map (fun p => (p.1, p.2.1 != 0))) t))

/-- Widening floating operations on operands made wide. -/
def vFloatWide (rm : Rm) (f6 d : Nat) (x y : Fp) : Option (Nat × Nat) :=
  let z := fpOf fmt64 d
  match f6 with
  | 0x30 => some (fpAdd fmt64 rm x y)
  | 0x32 => some (fpAdd fmt64 rm x (fpNegate y))
  | 0x34 => some (fpAdd fmt64 rm x y)
  | 0x36 => some (fpAdd fmt64 rm x (fpNegate y))
  | 0x38 => some (fpMul fmt64 rm x y)
  | 0x3C => some (fpFma fmt64 rm x y z)
  | 0x3D => some (fpFma fmt64 rm (fpNegate x) y (fpNegate z))
  | 0x3E => some (fpFma fmt64 rm x y (fpNegate z))
  | 0x3F => some (fpFma fmt64 rm (fpNegate x) y z)
  | _ => none

/-- vfwadd to vfwnmsac: single precision into double. -/
def vOpFWide (t : Thread) (w : Nat) (rm : Rm) : Option Thread :=
  let f6 := bits w 31 26
  let rd := bits w 11 7
  let k := if f6 = 0x34 ∨ f6 = 0x36 then 8 else 4
  if vSew t ≠ 4 ∨ vWideOk t w k = false then none
  else (vGather ((vBody t (bit w 25)).map (fun i =>
    (i, vFloatWide rm f6 (vElem t rd 8 i) (fpOf (if k = 8 then fmt64 else fmt32) (vElem t (bits w 24 20) k i))
      (fpOf fmt32 (vOpnd t w 4 false i)))))).map (fun l => vPutF 8 rd l t)

/-- A value narrowed to single precision, to odd: truncated, the last bit set when inexact. -/
def fpToOdd (a : Fp) : Nat × Nat :=
  let r := fpPack fmt32 .rtz a
  if r.2 &&& ffNX = 0 then r else (r.1 ||| 1, r.2)

/-- Pattern and flags of a value converted to an integer. -/
def vToInt (N : Nat) (uns : Bool) (rm : Rm) (x : Fp) : Nat × Nat := (wrap N (fpToInt N uns rm x).1, (fpToInt N uns rm x).2)

/-- An element as an integer made floating. -/
def vFromInt (f : Fmt) (N : Nat) (uns : Bool) (rm : Rm) (v : Nat) : Nat × Nat := fpFromInt f rm (vSigned (!uns) N v)

/-- Conversions (VFUNARY0): size of the source and of the result, and the result of an element; none for a reserved form. -/
def vConvert (n c : Nat) (rm : Rm) : Option (Nat × Nat × (Nat → Nat × Nat)) :=
  let toI := fun (src dst : Nat) (m : Rm) => (vFmt src).map (fun f =>
    (src, dst, fun v => vToInt (8 * dst) (c % 2 == 0) m (fpOf f v)))
  let toF := fun (src dst : Nat) => (vFmt dst).map (fun f => (src, dst, fun v => vFromInt f (8 * src) (c % 2 == 0) rm v))
  match c with
  | 0x00 => toI n n rm
  | 0x01 => toI n n rm
  | 0x02 => toF n n
  | 0x03 => toF n n
  | 0x06 => toI n n .rtz
  | 0x07 => toI n n .rtz
  | 0x08 => if n = 4 then toI 4 8 rm else none
  | 0x09 => if n = 4 then toI 4 8 rm else none
  | 0x0A => if n ≤ 4 then toF n (2 * n) else none
  | 0x0B => if n ≤ 4 then toF n (2 * n) else none
  | 0x0C => if n = 4 then some (4, 8, fun v => fpPack fmt64 rm (fpOf fmt32 v)) else none
  | 0x0E => if n = 4 then toI 4 8 .rtz else none
  | 0x0F => if n = 4 then toI 4 8 .rtz else none
  | 0x10 => if n ≤ 4 then toI (2 * n) n rm else none
  | 0x11 => if n ≤ 4 then toI (2 * n) n rm else none
  | 0x12 => if n = 4 then toF 8 4 else none
  | 0x13 => if n = 4 then toF 8 4 else none
  | 0x14 => if n = 4 then some (8, 4, fun v => fpPack fmt32 rm (fpOf fmt64 v)) else none
  | 0x15 => if n = 4 then some (8, 4, fun v => fpToOdd (fpOf fmt64 v)) else none
  | 0x16 => if n ≤ 4 then toI (2 * n) n .rtz else none
  | 0x17 => if n ≤ 4 then toI (2 * n) n .rtz else none
  | _ => none

/-- vfcvt, vfwcvt and vfncvt. -/
def vOpConvert (t : Thread) (w : Nat) (rm : Rm) : Option Thread :=
  let rd := bits w 11 7
  let v := bits w 24 20
  match vConvert (vSew t) (bits w 19 15) rm with
  | none => none
  | some (es, ed, f) =>
    if !vOk t ed rd || !vOk t es v || !vMeet t ed rd es v || (!bit w 25 && rd == 0) then none
    else some (vPutF ed rd ((vBody t (bit w 25)).map (fun i => (i, f (vElem t v es i)))) t)

/-- Nearest integer to `2^16 / m`, less 128: an entry of the seven-bit reciprocal table. -/
def recip7 (i : Nat) : Nat := (2 ^ 17 + (257 + 2 * i)) / (2 * (257 + 2 * i)) - 128

/-- Entry of the seven-bit reciprocal square root table: the nearest to 256 over the root of the operand's middle. -/
def rsqrt7 (i : Nat) : Nat :=
  -- twice the square of 256 over the root, scaled so that the nearest integer follows from an integer root
  let den := if i < 64 then 2 * (129 + 2 * i) else 129 + 2 * (i - 64)
  let q := 2 ^ 25 / den
  (isqrt 14 q 0 + 1) / 2 - 128

/-- Exponent and fraction of a pattern with subnormals normalised. -/
def fpNormal (f : Fmt) (b : Nat) : Int × Nat :=
  let x := (fpFields f b).2.1
  let m := (fpFields f b).2.2
  if x = 0 then
    let lz := f.mb - 1 - Nat.log2 m
    (-(lz : Int), (m <<< (lz + 1)) % 2 ^ f.mb)
  else ((x : Int), m)

/-- vfrsqrt7. -/
def fpRsqrt7 (f : Fmt) (b : Nat) : Nat × Nat :=
  match fpOf f b with
  | .nan sg => (canonNan f, if sg then ffNV else 0)
  | .inf n => if n then invalid f else (fpZero f false, 0)
  | .fin n m _ =>
    if m = 0 then (fpInf f n, ffDZ)
    else if n then invalid f
    else
      let e := fpNormal f b
      let i := (e.1 % 2).toNat * 64 + e.2 / 2 ^ (f.mb - 6)
      (fld ((3 * f.bias - 1 - e.1) / 2).toNat f.mb + fld (rsqrt7 i) (f.mb - 7), 0)

/-- vfrec7. -/
def fpRec7 (f : Fmt) (rm : Rm) (b : Nat) : Nat × Nat :=
  match fpOf f b with
  | .nan sg => (canonNan f, if sg then ffNV else 0)
  | .inf n => (fpZero f n, 0)
  | .fin n m _ =>
    if m = 0 then (fpInf f n, ffDZ)
    else
      let e := fpNormal f b
      let out := 2 * f.bias - 1 - e.1
      let big := decide (((2 ^ f.eb : Nat) : Int) - 1 ≤ out)
      if big then
        let finite := rm == .rtz || (rm == .rdn && !n) || (rm == .rup && n)
        (if finite then fpMax f n else fpInf f n, ffOF ||| ffNX)
      else
        let frac := fld (recip7 (e.2 / 2 ^ (f.mb - 7))) (f.mb - 7)
        let sub := fld 1 (f.mb - 1) + frac / 2
        let body := if 0 < out then fld out.toNat f.mb + frac else if out = 0 then sub else sub / 2
        (fpZero f n + body, 0)

/-- vfsqrt, vfrsqrt7, vfrec7 and vfclass. -/
def vOpFUnary (t : Thread) (w : Nat) (rm : Rm) : Option Thread :=
  let n := vSew t
  let rd := bits w 11 7
  let v := bits w 24 20
  match vFmt n with
  | none => none
  | some f =>
    let go := fun (g : Nat → Nat × Nat) => some (vPutF n rd ((vBody t (bit w 25)).map (fun i => (i, g (vElem t v n i)))) t)
    if !vOk t n rd || !vOk t n v || (!bit w 25 && rd == 0) then none
    else match bits w 19 15 with
    | 0x00 => go (fun x => fpSqrt f rm (fpOf f x))
    | 0x04 => go (fpRsqrt7 f)
    | 0x05 => go (fpRec7 f rm)
    | 0x10 => some (vPut n rd ((vBody t (bit w 25)).map (fun i => (i, fpClass f (vElem t v n i)))) t)
    | _ => none

/-- Ordered sum, minimum and maximum over the active elements: the accumulator and the flags. -/
def vFoldF (f : Nat → Nat → Nat × Nat) (acc : Nat) (l : List Nat) : Nat × Nat :=
  l.foldl (fun p x => let r := f p.1 x; (r.1, p.2 ||| r.2)) (acc, 0)

/-- Floating reductions. The unordered sums have an order, and so a value and flags, of their own: `free` (log 18). -/
def vFReduce (t : Thread) (w : Nat) (rm : Rm) (free : Nat) : Option Thread :=
  let n := vSew t
  let rd := bits w 11 7
  let v := bits w 24 20
  let f6 := bits w 31 26
  match vFmt n with
  | none => none
  | some f =>
    if rcsr t 8 != 0 || !vOk t n v then none
    else if vLen t = 0 then some t
    else
      let xs := (vBody t (bit w 25)).map (vElem t v n)
      let acc := vElem t (bits w 19 15) n 0
      let fin := fun (r : Nat × Nat) => some (vFlags [r.2] (vPut n rd [(0, r.1)] t))
      match f6 with
      | 0x03 => fin (vFoldF (fun a x => fpAdd f rm (fpOf f a) (fpOf f x)) acc xs)
      | 0x05 => fin (vFoldF (fpMinMax f false) acc xs)
      | 0x07 => fin (vFoldF (fpMinMax f true) acc xs)
      | _ => fin (free % 2 ^ (8 * n), free / 2 ^ 64 % 32)

/-- vfwredosum and vfwredusum. -/
def vFWideReduce (t : Thread) (w : Nat) (rm : Rm) (free : Nat) : Option Thread :=
  let v := bits w 24 20
  if vSew t ≠ 4 ∨ rcsr t 8 ≠ 0 ∨ vOk t 4 v = false then none
  else if vLen t = 0 then some t
  else
    let xs := (vBody t (bit w 25)).map (vElem t v 4)
    let r := if bits w 31 26 = 0x33 then
        vFoldF (fun a x => fpAdd fmt64 rm (fpOf fmt64 a) (fpOf fmt32 x)) (vElem t (bits w 19 15) 8 0) xs
      else (free % 2 ^ 64, free / 2 ^ 64 % 32)
    some (vFlags [r.2] (vPut 8 (bits w 11 7) [(0, r.1)] t))

/-! ### Moves to and from scalar registers -/

/-- vmv.x.s, vcpop and vfirst. -/
def vToX (t : Thread) (w : Nat) : Option Thread :=
  let v := bits w 24 20
  let rd := bits w 11 7
  let act := (vBody t (bit w 25)).filter (vBit t v)
  match bits w 19 15 with
  | 0x00 => if bit w 25 then some (setX rd (sext64 (8 * vSew t) (vElem t v (vSew t) 0)) t) else none
  | 0x10 => if rcsr t 8 = 0 then some (setX rd (BitVec.ofNat 64 act.length) t) else none
  | 0x11 =>
    if rcsr t 8 = 0 then
      some (setX rd (match act with
        | i :: _ => BitVec.ofNat 64 i
        | [] => BitVec.allOnes 64) t)
    else none
  | _ => none

/-- vmv.s.x and vfmv.s.f. -/
def vFromX (t : Thread) (w : Nat) : Option Thread :=
  if bits w 24 20 != 0 || !bit w 25 then none
  else if rcsr t 8 < vLen t then some (vPut (vSew t) (bits w 11 7) [(0, vOpnd t w (vSew t) false 0)] t) else some t

/-- vfmv.f.s. -/
def vToF (t : Thread) (w : Nat) : Option Thread :=
  match vFmt (vSew t) with
  | none => none
  | some f =>
    if bits w 19 15 != 0 || !bit w 25 then none
    else some (dirtyFS (setF (bits w 11 7) (fpBox f (vElem t (bits w 24 20) (vSew t) 0)) t))

/-! ### The three groups -/

/-- OPIVV, OPIVX and OPIVI. -/
def vArithI (t : Thread) (w : Nat) : Option Thread :=
  let f3 := bits w 14 12
  match bits w 31 26 with
  | 0x0C => vRgather t w
  | 0x0E => if f3 = 0 then vRgather16 t w else vSlideUp t w
  | 0x0F => if f3 = 0 then none else vSlideDown t w
  | 0x10 => vCarry t w
  | 0x11 => vCarryOut t w
  | 0x12 => vCarry t w
  | 0x13 => vCarryOut t w
  | 0x17 => vMerge t w
  | 0x27 => if f3 = 3 then vMoveRegs t w else vOpI t w
  | 0x30 => if f3 = 0 then vWideReduce t w else none
  | 0x31 => if f3 = 0 then vWideReduce t w else none
  | f6 => if inR f6 0x18 0x1F then vOpCompare t w else if inR f6 0x2C 0x2F then vOpNarrow t w else vOpI t w

/-- OPMVV and OPMVX. -/
def vArithM (t : Thread) (w : Nat) : Option Thread :=
  let vv := bits w 14 12 == 2
  match bits w 31 26 with
  | 0x0E => if vv then none else vSlide1Up t w
  | 0x0F => if vv then none else vSlide1Down t w
  | 0x10 => if vv then vToX t w else vFromX t w
  | 0x12 => if vv then vExtend t w else none
  | 0x14 => if vv then vMaskUnary t w else none
  | 0x17 => if vv then vCompress t w else none
  | f6 =>
    if f6 < 8 then (if vv then vReduce t w else none)
    else if inR f6 0x18 0x1F then (if vv then vMaskLogic t w else none)
    else if 0x30 ≤ f6 then vOpWiden t w else vOpM t w

/-- OPFVV and OPFVF, with the rounding mode in force. -/
def vArithF (t : Thread) (w : Nat) (rm : Rm) (free : Nat) : Option Thread :=
  let vv := bits w 14 12 == 1
  match bits w 31 26 with
  | 0x0E => if vv || (vFmt (vSew t)).isNone then none else vSlide1Up t w
  | 0x0F => if vv || (vFmt (vSew t)).isNone then none else vSlide1Down t w
  | 0x10 => if vv then vToF t w else if (vFmt (vSew t)).isNone then none else vFromX t w
  | 0x12 => if vv then vOpConvert t w rm else none
  | 0x13 => if vv then vOpFUnary t w rm else none
  | 0x17 => if vv || (vFmt (vSew t)).isNone then none else vMerge t w
  | f6 =>
    if vv && f6 ∈ [1, 3, 5, 7] then vFReduce t w rm free
    else if f6 = 0x31 ∨ f6 = 0x33 then (if vv then vFWideReduce t w rm free else none)
    else if inR f6 0x18 0x1F then vOpFCompare t w
    else if 0x30 ≤ f6 then vOpFWide t w rm
    else vOpF t w rm

end Sys2Proof.Machine
end

