-- ==== Sys2Proof/Machine/Rv64.lean ====
section
/-! DEFINITION. Rv64: the instructions of RV64GC and V that a thread fetches (R33). Their encodings and effects are those of
the RISC-V documents the spec names (PRESUMED, log 18). -/
namespace Sys2Proof.Machine

/-- State of an outcome that goes on. -/
def goState (o : Out) (s : State) : State :=
  match o with
  | .next t => t
  | _ => s

/-! ### Immediates -/

/-- I-type immediate. -/
def immI (w : Nat) : Int := sgn 12 (bits w 31 20)
/-- S-type immediate. -/
def immS (w : Nat) : Int := sgn 12 (fld (bits w 31 25) 5 + bits w 11 7)
/-- B-type immediate. -/
def immB (w : Nat) : Int := sgn 13 (fld (bits w 31 31) 12 + fld (bits w 7 7) 11 + fld (bits w 30 25) 5 + fld (bits w 11 8) 1)
/-- U-type immediate. -/
def immU (w : Nat) : Int := sgn 32 (bits w 31 12 * 4096)
/-- J-type immediate. -/
def immJ (w : Nat) : Int :=
  sgn 21 (fld (bits w 31 31) 20 + fld (bits w 19 12) 12 + fld (bits w 20 20) 11 + fld (bits w 30 21) 1)

/-! ### Compressed instructions: each expands to the word it stands for -/

/-- I-type word. -/
def encI (op f3 rd rs1 imm : Nat) : Nat := fld (imm % 4096) 20 + fld rs1 15 + fld f3 12 + fld rd 7 + op
/-- R-type word. -/
def encR (op f3 f7 rd rs1 rs2 : Nat) : Nat := fld f7 25 + fld rs2 20 + fld rs1 15 + fld f3 12 + fld rd 7 + op
/-- S-type word. -/
def encS (op f3 rs1 rs2 imm : Nat) : Nat :=
  fld (bits imm 11 5) 25 + fld rs2 20 + fld rs1 15 + fld f3 12 + fld (bits imm 4 0) 7 + op
/-- B-type word of a sign-extended 13-bit offset. -/
def encB (f3 rs1 rs2 imm : Nat) : Nat :=
  fld (bits imm 12 12) 31 + fld (bits imm 10 5) 25 + fld rs2 20 + fld rs1 15 + fld f3 12 + fld (bits imm 4 1) 8
    + fld (bits imm 11 11) 7 + 0x63
/-- J-type word of a sign-extended 21-bit offset. -/
def encJ (rd imm : Nat) : Nat :=
  fld (bits imm 20 20) 31 + fld (bits imm 10 1) 21 + fld (bits imm 11 11) 20 + fld (bits imm 19 12) 12 + fld rd 7 + 0x6F

/-- Six-bit signed immediate of a CI word, as 12 bits. -/
def cImm6 (h : Nat) : Nat := wrap 12 (sgn 6 (fld (bits h 12 12) 5 + bits h 6 2))

/-- Quadrant 0. -/
def expand0 (h : Nat) : Option Nat :=
  let rd := 8 + bits h 4 2
  let rs := 8 + bits h 9 7
  let d := fld (bits h 12 10) 3 + fld (bits h 6 5) 6
  let w := fld (bits h 12 10) 3 + fld (bits h 6 6) 2 + fld (bits h 5 5) 6
  match bits h 15 13 with
  | 0 =>
    let i := fld (bits h 12 11) 4 + fld (bits h 10 7) 6 + fld (bits h 6 6) 2 + fld (bits h 5 5) 3
    if i = 0 then none else some (encI 0x13 0 rd 2 i)
  | 1 => some (encI 0x07 3 rd rs d)
  | 2 => some (encI 0x03 2 rd rs w)
  | 3 => some (encI 0x03 3 rd rs d)
  | 5 => some (encS 0x27 3 rs rd d)
  | 6 => some (encS 0x23 2 rs rd w)
  | 7 => some (encS 0x23 3 rs rd d)
  | _ => none

/-- Register-register operations of quadrant 1. -/
def expandAlu (h : Nat) : Option Nat :=
  let rd := 8 + bits h 9 7
  let r2 := 8 + bits h 4 2
  let sh := fld (bits h 12 12) 5 + bits h 6 2
  match bits h 11 10 with
  | 0 => some (encI 0x13 5 rd rd sh)
  | 1 => some (encI 0x13 5 rd rd (0x400 + sh))
  | 2 => some (encI 0x13 7 rd rd (cImm6 h))
  | _ => match bits h 12 12, bits h 6 5 with
    | 0, 0 => some (encR 0x33 0 0x20 rd rd r2)
    | 0, 1 => some (encR 0x33 4 0 rd rd r2)
    | 0, 2 => some (encR 0x33 6 0 rd rd r2)
    | 0, 3 => some (encR 0x33 7 0 rd rd r2)
    | 1, 0 => some (encR 0x3B 0 0x20 rd rd r2)
    | 1, 1 => some (encR 0x3B 0 0 rd rd r2)
    | _, _ => none

/-- Quadrant 1. -/
def expand1 (h : Nat) : Option Nat :=
  let rd := bits h 11 7
  let i6 := cImm6 h
  let j := wrap 21 (sgn 12 (fld (bits h 12 12) 11 + fld (bits h 11 11) 4 + fld (bits h 10 9) 8 + fld (bits h 8 8) 10
    + fld (bits h 7 7) 6 + fld (bits h 6 6) 7 + fld (bits h 5 3) 1 + fld (bits h 2 2) 5))
  let b := wrap 13 (sgn 9 (fld (bits h 12 12) 8 + fld (bits h 11 10) 3 + fld (bits h 6 5) 6 + fld (bits h 4 3) 1
    + fld (bits h 2 2) 5))
  match bits h 15 13 with
  | 0 => some (encI 0x13 0 rd rd i6)
  | 1 => if rd = 0 then none else some (encI 0x1B 0 rd rd i6)
  | 2 => some (encI 0x13 0 rd 0 i6)
  | 3 =>
    if i6 = 0 then none
    else if rd = 2 then
      some (encI 0x13 0 2 2 (wrap 12 (sgn 10 (fld (bits h 12 12) 9 + fld (bits h 6 6) 4 + fld (bits h 5 5) 6
        + fld (bits h 4 3) 7 + fld (bits h 2 2) 5))))
    else some (fld (wrap 20 (sgn 12 i6)) 12 + fld rd 7 + 0x37)
  | 4 => expandAlu h
  | 5 => some (encJ 0 j)
  | 6 => some (encB 0 (8 + bits h 9 7) 0 b)
  | _ => some (encB 1 (8 + bits h 9 7) 0 b)

/-- Quadrant 2. -/
def expand2 (h : Nat) : Option Nat :=
  let rd := bits h 11 7
  let r2 := bits h 6 2
  let d := fld (bits h 12 12) 5 + fld (bits h 6 5) 3 + fld (bits h 4 2) 6
  let w := fld (bits h 12 12) 5 + fld (bits h 6 4) 2 + fld (bits h 3 2) 6
  let sd := fld (bits h 12 10) 3 + fld (bits h 9 7) 6
  let sw := fld (bits h 12 9) 2 + fld (bits h 8 7) 6
  match bits h 15 13 with
  | 0 => some (encI 0x13 1 rd rd (fld (bits h 12 12) 5 + r2))
  | 1 => some (encI 0x07 3 rd 2 d)
  | 2 => if rd = 0 then none else some (encI 0x03 2 rd 2 w)
  | 3 => if rd = 0 then none else some (encI 0x03 3 rd 2 d)
  | 4 =>
    if bits h 12 12 = 0 then
      if r2 = 0 then (if rd = 0 then none else some (encI 0x67 0 0 rd 0)) else some (encR 0x33 0 0 rd 0 r2)
    else if r2 = 0 then (if rd = 0 then some 0x00100073 else some (encI 0x67 0 1 rd 0))
    else some (encR 0x33 0 0 rd rd r2)
  | 5 => some (encS 0x27 3 2 r2 sd)
  | 6 => some (encS 0x23 2 2 r2 sw)
  | _ => some (encS 0x23 3 2 r2 sd)

/-- The word a 16-bit instruction stands for; none for a reserved one. -/
def expandC (h : Nat) : Option Nat :=
  match h % 4 with
  | 0 => expand0 h
  | 1 => expand1 h
  | _ => expand2 h

/-! ### Integer operations -/

/-- 64-bit pattern of an integer. -/
def w64 (i : Int) : W64 := BitVec.ofNat 64 (wrap 64 i)

/-- Quotient of the M extension: towards zero, all ones by zero, wrapping on overflow. -/
def divM (a b : Int) : Int := if b = 0 then -1 else Int.tdiv a b
/-- Remainder of the M extension. -/
def remM (a b : Int) : Int := if b = 0 then a else Int.tmod a b

/-- Register-register results on `n`-bit operands: funct7 and funct3 as in OP and OP-32. -/
def aluOp (n f7 f3 a b : Nat) : Option Int :=
  let sa := sgn n a
  let sb := sgn n b
  let ua := a % 2 ^ n
  let ub := b % 2 ^ n
  let sh := b % n
  match f7, f3 with
  | 0, 0 => some (sa + sb)
  | 0, 1 => some ((ua <<< sh : Nat) : Int)
  | 0, 2 => some (b01 (decide (sa < sb)))
  | 0, 3 => some (b01 (decide (ua < ub)))
  | 0, 4 => some ((ua ^^^ ub : Nat) : Int)
  | 0, 5 => some ((ua >>> sh : Nat) : Int)
  | 0, 6 => some ((ua ||| ub : Nat) : Int)
  | 0, 7 => some ((ua &&& ub : Nat) : Int)
  | 0x20, 0 => some (sa - sb)
  | 0x20, 5 => some (sa / ((2 ^ sh : Nat) : Int))
  | 1, 0 => some (sa * sb)
  | 1, 1 => some (sa * sb / ((2 ^ n : Nat) : Int))
  | 1, 2 => some (sa * (ub : Int) / ((2 ^ n : Nat) : Int))
  | 1, 3 => some ((ua * ub / 2 ^ n : Nat) : Int)
  | 1, 4 => some (divM sa sb)
  | 1, 5 => some (if ub = 0 then -1 else ((ua / ub : Nat) : Int))
  | 1, 6 => some (remM sa sb)
  | 1, 7 => some (if ub = 0 then sa else ((ua % ub : Nat) : Int))
  | _, _ => none

/-- OP-32 has no operations but these. -/
def alu32Op (f7 f3 a b : Nat) : Option Int :=
  if (f7 = 1 ∧ f3 ∈ [0, 4, 5, 6, 7]) ∨ (f7 = 0 ∧ f3 ∈ [0, 1, 5]) ∨ (f7 = 0x20 ∧ f3 ∈ [0, 5]) then aluOp 32 f7 f3 a b
  else none

/-- Immediate operations: `n` bits, shift amounts of 6 or 5 bits. -/
def immOp (n w f3 a : Nat) : Option Int :=
  let i := immI w
  let sh := if n = 64 then bits w 25 20 else bits w 24 20
  let top := if n = 64 then bits w 31 26 * 2 else bits w 31 25
  match f3 with
  | 1 => if top = 0 then aluOp n 0 1 a sh else none
  | 5 => if top = 0 then aluOp n 0 5 a sh else if top = 0x20 then aluOp n 0x20 5 a sh else none
  | _ => if n = 32 ∧ f3 ≠ 0 then none else aluOp n 0 f3 a (wrap 64 i)

/-- Whether a branch is taken; none for a reserved condition. -/
def branchTaken (f3 a b : Nat) : Option Bool :=
  match f3 with
  | 0 => some (a == b)
  | 1 => some (a != b)
  | 4 => some (decide (sgn 64 a < sgn 64 b))
  | 5 => some (decide (sgn 64 b ≤ sgn 64 a))
  | 6 => some (decide (a < b))
  | 7 => some (decide (b ≤ a))
  | _ => none

/-- Integer result written, or an illegal instruction. -/
def putX (th len rd : Nat) (w : W32) (r : Option Int) (s : State) : State :=
  match r with
  | some i => onThread th (fun t => advance len (setX rd (w64 i) t)) s
  | none => illegal th w s

/-- A jump to an address, with the link in rd. -/
def jump (th len rd target : Nat) (s : State) : State :=
  onThread th (fun t => { setX rd (BitVec.ofNat 64 (t.pc + len)) t with pc := target / 2 * 2 }) s

/-! ### Floating operations -/

/-- Floating result of a format with its flags. -/
def putF (th len rd : Nat) (f : Fmt) (r : Nat × Nat) (s : State) : State :=
  onThread th (fun t => advance len (dirtyFS (setCsr 3 (rcsr t 3 ||| r.2) (setF rd (fpBox f r.1) t)))) s

/-- Integer result of a floating operation with its flags. -/
def putXF (th len rd : Nat) (v : Int) (fl : Nat) (s : State) : State :=
  onThread th (fun t => advance len (dirtyFS (setCsr 3 (rcsr t 3 ||| fl) (setX rd (w64 v) t)))) s

/-- Rounding mode in force for an instruction. -/
def rmNow (t : Thread) (w : Nat) : Option Rm :=
  let r := bits w 14 12
  rmOf (if r = 7 then bits (rcsr t 3) 7 5 else r)

/-- Format of a funct7's low bits. -/
def fmtOf (w : Nat) : Option Fmt :=
  match bits w 26 25 with
  | 0 => some fmt32
  | 1 => some fmt64
  | _ => none

/-- Sign-injection: 0 copy, 1 negate, 2 xor. -/
def signInject (f : Fmt) (op a b : Nat) : Option Nat :=
  let top := f.eb + f.mb
  let sb := bits b top top
  let sa := bits a top top
  let put := fun (sg : Nat) => some (a % 2 ^ top + fld sg top)
  match op with
  | 0 => put sb
  | 1 => put (1 - sb)
  | 2 => put (sa ^^^ sb)
  | _ => none

/-- OP-FP in a format. -/
def opFp (th len w : Nat) (f : Fmt) (s : State) : State :=
  let t := thread s th
  let bad := illegal th (BitVec.ofNat 32 w) s
  let rd := bits w 11 7
  let f3 := bits w 14 12
  let x2 := bits w 24 20
  let pa := fpReg f (rf t (bits w 19 15))
  let pb := fpReg f (rf t x2)
  let a := fpOf f pa
  let b := fpOf f pb
  let rounded := fun (g : Rm → State) => match rmNow t w with
    | some rm => g rm
    | none => bad
  match bits w 31 27 with
  | 0 => rounded (fun rm => putF th len rd f (fpAdd f rm a b) s)
  | 1 => rounded (fun rm => putF th len rd f (fpAdd f rm a (fpNegate b)) s)
  | 2 => rounded (fun rm => putF th len rd f (fpMul f rm a b) s)
  | 3 => rounded (fun rm => putF th len rd f (fpDiv f rm a b) s)
  | 0xB => if x2 = 0 then rounded (fun rm => putF th len rd f (fpSqrt f rm a) s) else bad
  | 4 => match signInject f f3 pa pb with
    | some v => putF th len rd f (v, 0) s
    | none => bad
  | 5 => if f3 < 2 then putF th len rd f (fpMinMax f (f3 == 1) pa pb) s else bad
  | 8 =>
    let g := if f = fmt32 then fmt64 else fmt32
    if x2 = (if f = fmt32 then 1 else 0) then
      rounded (fun rm => putF th len rd f (fpPack f rm (fpOf g (fpReg g (rf t (bits w 19 15))))) s)
    else bad
  | 0x14 => if f3 < 3 then putXF th len rd (fpCmp f3 a b).1 (fpCmp f3 a b).2 s else bad
  | 0x18 => rounded (fun rm =>
      let n := if x2 < 2 then 32 else 64
      let r := fpToInt n (x2 % 2 == 1) rm a
      if x2 < 4 then putXF th len rd (sgn n (wrap n r.1)) r.2 s else bad)
  | 0x1A => rounded (fun rm =>
      let n := if x2 < 2 then 32 else 64
      let v := (rx t (bits w 19 15)).toNat
      let i : Int := if x2 % 2 = 1 then ((v % 2 ^ n : Nat) : Int) else sgn n v
      if x2 < 4 then putF th len rd f (fpFromInt f rm i) s else bad)
  | 0x1C =>
    if x2 = 0 ∧ f3 = 0 then
      onThread th (fun t => advance len (setX rd (if f = fmt32 then sext64 32 (rf t (bits w 19 15)).toNat else rf t (bits w 19 15)) t)) s
    else if x2 = 0 ∧ f3 = 1 then onThread th (fun t => advance len (setX rd (BitVec.ofNat 64 (fpClass f pa)) t)) s
    else bad
  | 0x1E =>
    if x2 = 0 ∧ f3 = 0 then
      onThread th (fun t => advance len (dirtyFS (setF rd (fpBox f (rx t (bits w 19 15)).toNat) t))) s
    else bad
  | _ => bad

/-- The fused operations: 0 FMADD, 1 FMSUB, 2 FNMSUB, 3 FNMADD. -/
def opFma (th len w op : Nat) (s : State) : State :=
  let t := thread s th
  match fmtOf w, rmNow t w with
  | some f, some rm =>
    let a := fpOf f (fpReg f (rf t (bits w 19 15)))
    let b := fpOf f (fpReg f (rf t (bits w 24 20)))
    let c := fpOf f (fpReg f (rf t (bits w 31 27)))
    let a := if op < 2 then a else fpNegate a
    let c := if op = 1 ∨ op = 3 then fpNegate c else c
    putF th len (bits w 11 7) f (fpFma f rm a b c) s
  | _, _ => illegal th (BitVec.ofNat 32 w) s

/-! ### Vector configuration and arithmetic -/

/-- vtype as set: the value, or vill. -/
def vtypeOf (v : Nat) : Nat :=
  let m := v % 8
  let lm8 := if m < 4 then 8 * 2 ^ m else if m = 4 then 0 else 2 ^ (m - 5)
  let sew := 8 * 2 ^ bits v 5 3
  if v / 256 ≠ 0 ∨ m = 4 ∨ 3 < bits v 5 3 ∨ (m > 4 ∧ lm8 * 8 < sew) then 2 ^ 63 else v

/-- VLMAX of a legal vtype. -/
def vlMax (v : Nat) : Nat :=
  let m := v % 8
  let lm8 := if m < 4 then 8 * 2 ^ m else 2 ^ (m - 5)
  lm8 * 8 / 2 ^ bits v 5 3

/-- vset{i}vl{i}: vl and vtype, the new vl in rd. -/
def doVset (th len rd v : Nat) (avl : Option Nat) (s : State) : State :=
  let vt := vtypeOf v
  onThread th (fun t =>
    let vl := if vt = 2 ^ 63 then 0 else min (avl.getD (vLen t)) (vlMax vt)
    let t := dirtyVS (setCsr 8 0 (setCsr 0xC20 vl (setCsr 0xC21 vt t)))
    advance len (setX rd (BitVec.ofNat 64 vl) t)) s

/-- The three vset forms. -/
def opVset (th len w : Nat) (s : State) : State :=
  let t := thread s th
  let rd := bits w 11 7
  let r1 := bits w 19 15
  let avl : Option Nat := if r1 ≠ 0 then some (rx t r1).toNat else if rd ≠ 0 then some (2 ^ 64 - 1) else none
  if !bit w 31 then doVset th len rd (bits w 30 20) avl s
  else if bit w 30 then doVset th len rd (bits w 29 20) (some r1) s
  else if bits w 30 25 = 0 then doVset th len rd (rx t (bits w 24 20)).toNat avl s
  else illegal th (BitVec.ofNat 32 w) s

/-- Words whose result the V extension leaves open: the unordered sums. -/
def vUnordered (w : Nat) : Bool := bits w 14 12 == 1 && (bits w 31 26 == 1 || bits w 31 26 == 0x31)

/-- A vector instruction completes, vstart zero, or is illegal. -/
def vFinish (th len w : Nat) (r : Option Thread) (s : State) : State :=
  match r with
  | some t => onThread th (fun _ => advance len (dirtyVS (setCsr 8 0 t))) s
  | none => illegal th (BitVec.ofNat 32 w) s

/-- Floating vector arithmetic: FS on and a rounding mode in force; an unordered sum is a free value (log 18). -/
def opVecF (th len w : Nat) (s : State) : State :=
  let t := thread s th
  match rmOf (bits (rcsr t 3) 7 5) with
  | some rm =>
    if mFS t = 0 then illegal th (BitVec.ofNat 32 w) s
    else if vUnordered w then vFinish th len w (vArithF t w rm (Config.freeNat (draw s).1)) (draw s).2
    else vFinish th len w (vArithF t w rm 0) s
  | none => illegal th (BitVec.ofNat 32 w) s

/-- OP-V: configuration and arithmetic. -/
def opVec (th len w : Nat) (s : State) : State :=
  let t := thread s th
  let f3 := bits w 14 12
  if f3 = 7 then opVset th len w s
  else if vIll t then illegal th (BitVec.ofNat 32 w) s
  else if f3 = 1 ∨ f3 = 5 then opVecF th len w s
  else if f3 = 2 ∨ f3 = 6 then vFinish th len w (vArithM t w) s
  else vFinish th len w (vArithI t w) s

/-! ### Loads, stores, atomics -/

/-- Form of an integer load; none for a reserved width. -/
def loadForm (f3 rd : Nat) : Option MemForm :=
  match f3 with
  | 0 => some (.int 1 false rd)
  | 1 => some (.int 2 false rd)
  | 2 => some (.int 4 false rd)
  | 3 => some (.int 8 false rd)
  | 4 => some (.int 1 true rd)
  | 5 => some (.int 2 true rd)
  | 6 => some (.int 4 true rd)
  | _ => none

/-- Vector form of a LOAD-FP or STORE-FP word. -/
def vecForm (w : Nat) : Option MemForm :=
  let v := bits w 11 7
  let vm := bit w 25
  let nf := bits w 31 29 + 1
  let eew := match bits w 14 12 with
    | 0 => 1
    | 5 => 2
    | 6 => 4
    | _ => 8
  if bit w 28 then none
  else match bits w 27 26 with
  | 0 => match bits w 24 20 with
    | 0 => some (.vunit eew nf vm v)
    | 8 => if vm then some (.vwhole nf v) else none
    | 11 => if vm ∧ nf = 1 ∧ eew = 1 then some (.vmask v) else none
    | 16 => if bits w 6 0 = 7 then some (.vunit eew nf vm v) else none
    | _ => none
  | 2 => some (.vstride eew nf (bits w 24 20) vm v)
  | _ => some (.vindex eew nf (bits w 24 20) vm v)

/-- LOAD-FP and STORE-FP: the form and its offset. -/
def fpForm (w : Nat) (imm : Int) (r : Nat) : Option (MemForm × Int) :=
  match bits w 14 12 with
  | 2 => some (.fp 4 r, imm)
  | 3 => some (.fp 8 r, imm)
  | 1 => none
  | 4 => none
  | _ => (vecForm w).map (fun f => (f, 0))

/-- A fault-only-first load: a unit-stride load whose lumop is 16. -/
def isFaultFirst (w : Nat) : Bool :=
  bits w 6 0 == 7 && ((bits w 14 12 == 0) || decide (5 ≤ bits w 14 12)) && bits w 28 26 == 0 && bits w 24 20 == 16

/-- Element loads of a fault-only-first load: an exception past element 0 ends it with vl at its element, and none is taken. -/
def vLoadsFirst (th : Nat) : List (Nat × Nat × Nat × Nat) → State → Bool × State
  | [], s => (true, s)
  | (a, v, n, i) :: rest, s =>
    match loadAcc th a n (.loadVec (v + i * n / 64) (i * n % 64) n) (putElem v n i) s with
    | (true, s) => vLoadsFirst th rest s
    | (false, t) => if i = 0 then (false, t) else (true, onThread th (setCsr 0xC20 i) s)

/-- A fault-only-first load. -/
def doLoadFirst (th len : Nat) (f : MemForm) (va : Nat) (s : State) : State :=
  let p := vPlan (thread s th) va f
  if mVS (thread s th) = 0 ∨ p.ok = false then illegalForm th s
  else match vLoadsFirst th p.elems s with
    | (true, s) => onThread th (fun t => advance len (dirtyVS (setCsr 0x008 0 t))) s
    | (false, s) => s

/-- AMO of a funct5; LR and SC apart. -/
def amoOf : Nat → Option AmoOp
  | 0x01 => some .swap
  | 0x00 => some .add
  | 0x04 => some .xor
  | 0x0C => some .and
  | 0x08 => some .or
  | 0x10 => some .min
  | 0x14 => some .max
  | 0x18 => some .minu
  | 0x1C => some .maxu
  | _ => none

/-- The AMO opcode. -/
def opAmo (th len w : Nat) (s : State) : State :=
  let t := thread s th
  let rd := bits w 11 7
  let va := (rx t (bits w 19 15)).toNat
  let src := (rx t (bits w 24 20)).toNat
  let n := if bits w 14 12 = 2 then 4 else 8
  let bad := illegal th (BitVec.ofNat 32 w) s
  if bits w 14 12 ≠ 2 ∧ bits w 14 12 ≠ 3 then bad
  else match bits w 31 27 with
  | 2 => if bits w 24 20 = 0 then doLr th len n rd va s else bad
  | 3 => doSc th len n rd va src s
  | f => match amoOf f with
    | some op => doAmo th len op n rd va src s
    | none => bad

/-! ### SYSTEM -/

/-- MRET: the mode and interrupt enable saved in mstatus come back, pc from mepc. -/
def doMret (th : Nat) (s : State) : State :=
  onThread th (fun t =>
    let ms := rcsr t 0x300
    let ms' := clearOnes ms 0x1888 + fld (bits ms 7 7) 3 + 0x80
    { setCsr 0x300 ms' t with user := bits ms 12 11 == 0, pc := rcsr t 0x341 }) s

/-- SYSTEM instructions. -/
def opSystem (th len w : Nat) (s : State) : State :=
  let t := thread s th
  let f3 := bits w 14 12
  let rd := bits w 11 7
  let r1 := bits w 19 15
  let ww := BitVec.ofNat 32 w
  match f3 with
  | 0 =>
    if w = 0x00000073 then doEcall th s
    else if w = 0x00100073 then machineTrap th 3 t.pc s
    else if w = 0x30200073 then (if t.user then illegal th ww s else doMret th s)
    else if w = 0x10500073 then onThread th (advance len) s
    else illegal th ww s
  | 4 => illegal th ww s
  | _ =>
    let op := f3 % 4
    let v := if f3 < 4 then (rx t r1).toNat else r1
    doCsr th op rd (bits w 31 20) v (op == 1 || r1 != 0) ww s

/-! ### One instruction -/

/-- Words of the Eorus opcodes go to their commands' meanings (Table 2-1). -/
def opEorus (th w : Nat) (s : State) : State :=
  let ww := BitVec.ofNat 32 w
  let go := fun (o : Out) => goState o s
  match bits w 6 0, bits w 14 12 with
  | 0x0B, 0 => go (execEdot th ww s)
  | 0x0B, 1 => go (execEdotf th ww s)
  | 0x0B, 2 => go (execErescale th ww s)
  | 0x2B, 0 => match bits w 31 29 with
    | 0 => go (execInsert th ww s)
    | 1 => go (execInsertv th ww s)
    | 2 => go (execEslReset th ww s)
    | 3 => go (execDrain th ww s)
    | 4 => go (execFloor th ww s)
    | _ => onIssue th (illegal th ww) s
  | 0x2B, 1 => go (execEslmrg th ww s)
  | 0x2B, 2 => go (execEcompact th ww s)
  | 0x2B, 4 => match bits w 31 25 with
    | 0 => go (execWb th ww s)
    | 1 => go (execFlush th ww s)
    | 2 => go (execInv th ww s)
    | _ => onIssue th (illegal th ww) s
  | 0x2B, 5 => go (execEpost th ww s)
  | _, _ => onIssue th (illegal th ww) s

/-- Registers a word uses: integer, floating, vector. -/
def rvRegs (w : Nat) : List Nat × List Nat × List Nat :=
  let rd := bits w 11 7
  let r1 := bits w 19 15
  let r2 := bits w 24 20
  match bits w 6 0 with
  | 0x37 => ([rd], [], [])
  | 0x17 => ([rd], [], [])
  | 0x6F => ([rd], [], [])
  | 0x67 => ([rd, r1], [], [])
  | 0x63 => ([r1, r2], [], [])
  | 0x03 => ([rd, r1], [], [])
  | 0x13 => ([rd, r1], [], [])
  | 0x1B => ([rd, r1], [], [])
  | 0x23 => ([r1, r2], [], [])
  | 0x33 => ([rd, r1, r2], [], [])
  | 0x3B => ([rd, r1, r2], [], [])
  | 0x2F => ([rd, r1, r2], [], [])
  | 0x73 => ([rd, r1], [], [])
  | 0x07 => ([r1, r2], [rd], upFrom rd 8 ++ upFrom r2 8 ++ [0])
  | 0x27 => ([r1, r2], [r2], upFrom rd 8 ++ upFrom r2 8 ++ [0])
  | 0x53 => ([rd, r1], [rd, r1, r2], [])
  | 0x57 => ([rd, r1], [rd, r1], upFrom rd 8 ++ upFrom r1 8 ++ upFrom r2 8 ++ [0])
  | 0x0F => ([], [], [])
  | _ => ([], [rd, r1, r2, bits w 31 27], [])

/-- A word of RV64GC or V executed: `len` bytes long in memory. -/
def rvExec (th len w : Nat) (s : State) : State :=
  let t := thread s th
  let rd := bits w 11 7
  let f3 := bits w 14 12
  let f7 := bits w 31 25
  let ww := BitVec.ofNat 32 w
  let a := (rx t (bits w 19 15)).toNat
  let b := (rx t (bits w 24 20)).toNat
  match bits w 6 0 with
  | 0x37 => putX th len rd ww (some (immU w)) s
  | 0x17 => putX th len rd ww (some ((t.pc : Int) + immU w)) s
  | 0x6F => jump th len rd (wrap 64 ((t.pc : Int) + immJ w)) s
  | 0x67 => if f3 = 0 then jump th len rd (wrap 64 ((a : Int) + immI w)) s else illegal th ww s
  | 0x63 => match branchTaken f3 a b with
    | some true => onThread th (fun t => { t with pc := wrap 64 ((t.pc : Int) + immB w) }) s
    | some false => onThread th (advance len) s
    | none => illegal th ww s
  | 0x03 => match loadForm f3 rd with
    | some f => doLoad th len f (wrap 64 ((a : Int) + immI w)) s
    | none => illegal th ww s
  | 0x23 => if f3 < 4 then doStore th len (.int (2 ^ f3) false (bits w 24 20)) (wrap 64 ((a : Int) + immS w)) s
    else illegal th ww s
  | 0x13 => putX th len rd ww (immOp 64 w f3 a) s
  | 0x1B => putX th len rd ww ((immOp 32 w f3 a).map (fun i => sgn 32 (wrap 32 i))) s
  | 0x33 => putX th len rd ww (aluOp 64 f7 f3 a b) s
  | 0x3B => putX th len rd ww ((alu32Op f7 f3 a b).map (fun i => sgn 32 (wrap 32 i))) s
  | 0x0F => if f3 = 1 then doFenceI th len s else if f3 = 0 then doFence th len (bits w 27 24) s else illegal th ww s
  | 0x2F => opAmo th len w s
  | 0x73 => opSystem th len w s
  | 0x07 => match fpForm w (immI w) rd with
    | some (f, i) =>
      if isFaultFirst w then doLoadFirst th len f (wrap 64 ((a : Int) + i)) s else doLoad th len f (wrap 64 ((a : Int) + i)) s
    | none => illegal th ww s
  | 0x27 =>
    let v := if f3 = 2 ∨ f3 = 3 then bits w 24 20 else rd
    match fpForm w (immS w) v with
    | some (f, i) => doStore th len f (wrap 64 ((a : Int) + i)) s
    | none => illegal th ww s
  | 0x57 => if mVS t = 0 then illegal th ww s else opVec th len w s
  | 0x53 => match fmtOf w with
    | some f => if mFS t = 0 then illegal th ww s else opFp th len w f s
    | none => illegal th ww s
  | 0x43 => if mFS t = 0 then illegal th ww s else opFma th len w 0 s
  | 0x47 => if mFS t = 0 then illegal th ww s else opFma th len w 1 s
  | 0x4B => if mFS t = 0 then illegal th ww s else opFma th len w 2 s
  | 0x4F => if mFS t = 0 then illegal th ww s else opFma th len w 3 s
  | _ => illegal th ww s

/-- A 32-bit word executed as an instruction of its own or of the Eorus opcodes. -/
def rvWord (th len w : Nat) (s : State) : State :=
  if len = 4 ∧ (bits w 6 0 = 0x0B ∨ bits w 6 0 = 0x2B) then opEorus th w s
  else
    let r := rvRegs w
    onRegs th r.1 r.2.1 r.2.2 (rvExec th len w) s

/-! ### Fetch (R37, R39, R49) -/

/-- Key of a line in a core's L1 instruction cache. -/
def ilineKey (core a : Nat) : Nat := core * 2 ^ 34 + a / 64

/-- A line filled from L2 into a core's L1I (32 KiB; which line a full one gives up is left open). -/
def fillIline (core a : Nat) (v : V512) (s : State) : State :=
  let mine := s.mem.iline.filter (fun p => p.1 / 2 ^ 34 == core)
  let put := fun (s : State) => { s with mem := { s.mem with iline := smPut s.mem.iline (ilineKey core a) v } }
  if mine.length < 512 then put s
  else
    let d := draw s
    match mine[Config.choose d.1 mine.length % mine.length]? with
    | some p => put { d.2 with mem := { d.2.mem with iline := smDel d.2.mem.iline p.1 } }
    | none => put d.2

/-- Two bytes of code at an address: the status that ends the request (0 none), the halfword, the state. -/
def fetchHalf (th va : Nat) (s : State) : Nat × Nat × State :=
  match translate s th va 2 .fetch with
  | .loc a _ =>
    let core := coreOf th
    match smGet? s.mem.iline (ilineKey core a) with
    | some v => (0, fieldLE (leBytes 64 v.toNat) (a % 64) 2, s)
    | none =>
      let r := cacheFill (whoTh s th) (trainEnd s th a) (clusterOf th) a false s
      if r.1 = 0 then
        let b := lineBytes r.2 (clusterOf th) (a / 64 * 64) 64
        (0, fieldLE b (a % 64) 2, fillIline core a (BitVec.ofNat 512 (leNat b)) r.2)
      else (r.1, 0, r.2)
  | .mismatch => (0x41, 0, segMismatch th s)
  | _ => (0x10, 0, s)

/-- The instruction at the program counter fetched and executed. -/
def rvStep (th : Nat) (s : State) : State :=
  let pc := (thread s th).pc
  match fetchHalf th pc s with
  | (0, h, s) =>
    if h % 4 = 3 then
      match fetchHalf th ((pc + 2) % 2 ^ 64) s with
      | (0, h2, s) => rvWord th 4 (h + 65536 * h2) s
      | (st, _, s) => takeFault th causeFetch st ((pc + 2) % 2 ^ 64) s
    else match expandC h with
      | some w => rvWord th 2 w s
      | none => onIssue th (illegal th (BitVec.ofNat 32 h)) s
  | (st, _, s) => takeFault th causeFetch st pc s

/-- RV64GC_INSTRUCTION (R33, R35): a thread executes the instruction at its program counter. -/
def execRv64gcInstruction (th : Nat) (s : State) : Out := .next (if canIssue s th then rvStep th s else s)

end Sys2Proof.Machine
end

