-- ==== Sys2Proof/Machine/Time.lean ====
section
/-! DEFINITION. Time: round and frame boundaries, strict points, the management tick and the tenant reset (R263, R290,
R332, R341 to R344, R361, R363, R366). -/
namespace Sys2Proof.Machine

/-! ### Boundaries -/

/-- First cycle, not before `from_` and not before now, at which the node's count is a multiple of `per`. -/
def boundaryAt (s : State) (per from_ : Nat) : Nat :=
  let c := (((max s.clk.now from_ : Nat) : Int) - s.clk.post).toNat
  (s.clk.post + ((ceilDiv c per * per : Nat) : Int)).toNat

/-- Time moved on to a cycle. -/
def moveTo (c : Nat) (s : State) : State := { s with clk := { s.clk with now := max s.clk.now c } }

/-! ### The tenant reset at its boundary (R342, R344, R356) -/

/-- A read part served for another node ends with TENANT_RESET (R344). -/
def resetRead (p : Part) (s : State) : State :=
  let who := if p.kind % 8 = 0 then p.shard else ownPost s
  answerFailed (p.kind % 8) p.gate p.tag who 0x32 p.cause (dropPart p.id s)

/-- An update part of the tenant that has not been accepted, or a copy not yet staged, is refused with TENANT_RESET. -/
def resetUpdate (p : Part) (s : State) : State :=
  if p.kind = 3 then (if upStage p = 0 then refuseItem p 0x32 s else s)
  else if p.kind = 5 ∧ !p.waits.isEmpty ∧ p.status ≠ 0x100 then ownStaged p 0x32 (unstage p s)
  else s

/-- One part at the boundary of its tenant's reset. -/
def resetPart (p : Part) (s : State) : State :=
  if isRead p then (if p.gate = recPost s then s else resetRead p s) else resetUpdate p s

/-- Letters that a tenant's reset discards (R356): those in its kernel threads' pigeonholes and its own in holding slots. -/
def resetLetters (t : Nat) (s : State) : State :=
  let boxes := (s.sea.threads.filter (fun p => p.2.kern && p.2.tenant == t)).map (fun p => p.2.box.length)
  let mine := fun (l : Letter) => !l.sys && l.tenant == t
  let held := s.pwr.holding.map (fun p => (p.2.filter mine).length)
  let n := (boxes ++ held).foldl (fun a b => a + b) 0
  let s := bumpBy (ent 0xC090 7) n s
  { s with
    sea := { s.sea with threads := s.sea.threads.map (fun p => if p.2.kern && p.2.tenant == t then (p.1, { p.2 with box := [] }) else p) }
    pwr := { s.pwr with holding := s.pwr.holding.map (fun p => (p.1, p.2.filter (fun l => !mine l))) } }

/-- Boundary B of a tenant's reset (R342). -/
def startReset (t : Nat) (s : State) : State :=
  let x := tenantSt s t
  -- a receipt that only waits for its strict point has been formed
  let rs := (reqsOf s t).filter (fun r => r.ready.isNone)
  let k := notesOf s t
  let s := resetLetters t s
  let s := foldS rs (fun r s => failReq r.rid 0x32 s) s
  let s := { s with hxt := { s.hxt with asm := s.hxt.asm.filter (fun a => a.mgmt || a.tenant != t || a.ended) } }
  let s := foldS (s.path.parts.filter (fun p => p.tenant == t)) resetPart s
  let s := onNotes t (fun k => { k with pending := [], next := k.next + 1 }) s
  let s := refillTenant t s
  let open_ := (s.hxt.sessions.filter (fun y => y.tenant == t && !isMgmtPath y)).map (fun y => y.sid)
  onTenant t (fun _ => { x with
    reqAt := none, resetting := true, ended := rs.length, discarded := k.pending.length, noteSeq := k.next
    active := x.active && !x.disable, closing := if x.disable then open_ else [], disable := false }) s

/-- A reset is due at a boundary at frame `f` (R341). -/
def resetDue (s : State) (f t : Nat) : Bool := (tenantSt s t).reqAt.any (fun a => decide (a ≤ f))

/-- A tenant that waits to serve again does so at a boundary free of resets (R326). -/
def serveAgain (t : Nat) (s : State) : State :=
  let x := tenantSt s t
  if x.enable && !x.resetting && x.reqAt.isNone then onTenant t (fun x => { x with active := true, enable := false }) s else s

/-- Resets that are due, then tenants that serve again. -/
def boundaryTenants (s : State) : State :=
  let due := (upFrom 0 64).filter (resetDue s (frameNo s))
  foldS (upFrom 0 64) serveAgain (foldS due startReset s)

/-- Something that the reset ended is still under way: a thread, a stream, a descriptor, or a parcel write already issued
(R343). -/
def resetBusy (s : State) (t : Nat) : Bool :=
  s.sea.threads.any (fun p => p.2.kern && p.2.tenant == t)
    || s.par.queues.any (fun q => q.2.any (fun d => d.req != 0 && d.tenant == t))
    || s.par.flight.any (fun p => p.tenant == t && match p.dst with
        | .engine => false
        | _ => true)

/-- RESET_DONE (R343, R326): the NOTE is formed, before every NOTE generated since the boundary; sessions of a tenant that
was disabled close. -/
def finishReset (t : Nat) (s : State) : State :=
  let x := tenantSt s t
  let n : Note := ⟨x.noteSeq, 4, leBytes 4 x.ended ++ leBytes 4 x.discarded, timestamp s, 0, 0, s.clk.tick⟩
  let s := onNotes t (fun k => { k with pending := n :: k.pending }) s
  let s := onTenant t (fun y => { y with resetting := false, again := false, closing := []
                                         reqAt := if x.again then some 0 else y.reqAt }) s
  let s := foldS x.closing closeSess (bump (ent (0x3100 + t) 0xE) s)
  sendFreshNotes t s

/-- RESET_DONE. -/
def execResetDone (t : Nat) (s : State) : Out :=
  .next (if t < 64 ∧ (tenantSt s t).resetting ∧ !resetBusy s t then finishReset t s else s)

/-! ### Cancelled reads (R320) -/

/-- The admitted read that a CANCEL names. -/
def cancelTarget (s : State) (c : Req) : Option Req :=
  s.hxt.reqs.find? (fun r => r.cancelBy != 0 && r.sid == c.sid && r.pm == c.obj && r.type != 2)

/-- A CANCEL whose target was an admitted read: the read ends with ABORTED unless its receipt has been formed. -/
def runCancel (c : Req) (s : State) : State :=
  match cancelTarget s c with
  | none => endCancel c.rid 2 s
  | some r => if r.ready.isSome then endCancel c.rid 2 s else endCancel c.rid 0 (failReq r.rid 0x60 s)

/-- CANCELs that waited for the boundary. -/
def runCancels (s : State) : State :=
  foldS (s.hxt.reqs.filter (fun c => c.type == 2 && c.st == .executing)) runCancel s

/-! ### Admission (R332, R479) -/

/-- A complete envelope may be admitted now. -/
def mayAdmit (s : State) (r : Req) : Bool := r.st == .waiting && (r.mgmt || !isResetting s r.tenant) && !attendHeld s r

/-- Strict points of Table 12-4 that govern a request of class STRICT (R290, R295). -/
def pointsFor (s : State) (r : Req) : List Nat :=
  let at_ := fun l => l.map (fun i => dirNum s (ent 0xC100 i))
  if r.cls ≠ 0 then []
  else match r.type with
  | 0x0103 => at_ [1, 2, 3, 4]
  | 0x0205 => if (ctx? s r.tenant r.obj).any (fun x => decide (1 < x.members.length)) then at_ [5, 6] else at_ [5]
  | 0x0304 => at_ [7]
  | 0x0305 => at_ [8]
  | _ => []

/-- One envelope admitted: it leaves its inbox, and a mutating one is held from now on (R316). -/
def admitOne (r : Req) (s : State) : State :=
  let ps := pointsFor s r
  let s := onReq r.rid (fun r => { r with
    st := .admitted, admitted := timestamp s, admitAt := s.clk.now, points := ps, cause := nowCause s }) s
  let s := whenS (mutating r.type) (onSess r.sid (fun x => { x with held := smPut x.held r.pm ⟨r.type, none⟩ })) s
  bump (ent 0x3010 5) (dropAsm r.sid r.pm s)

/-- Priority of a queue. -/
def queuePrio (s : State) (k : Nat) : Nat := dirNum s (qObj (k / 16) (k % 16) 3)

/-- The next envelope admitted at a priority: the oldest of the first queue, in rotation, that holds one. -/
def nextAdmit (s : State) (prio : Nat) : Option Req :=
  let l := s.hxt.reqs.filter (fun r => !r.mgmt && mayAdmit s r && queuePrio s (16 * r.tenant + r.queue) == prio)
  let last := smGetD s.trf.lastQ prio 1023
  let dist := fun k => (k + 1023 - last) % 1024
  (argMin dist (l.map (fun r => 16 * r.tenant + r.queue))).bind (fun k => l.find? (fun r => 16 * r.tenant + r.queue == k))

/-- Admission so far: how many more the cap allows, the requests admitted, latest first, and the state. -/
structure Admission where
  left : Nat
  rids : List Nat
  st : State

/-- Envelopes of one priority admitted until the cap is reached or none is left. -/
def admitPrio (prio : Nat) : Nat → Admission → Admission
  | 0, a => a
  | fuel + 1, a =>
    match nextAdmit a.st prio with
    | none => a
    | some r =>
      let s := a.st
      let s := { s with trf := { s.trf with lastQ := smPut s.trf.lastQ prio (16 * r.tenant + r.queue) } }
      admitPrio prio fuel ⟨fuel, r.rid :: a.rids, admitOne r s⟩

/-- Admission at a boundary: the management path's envelopes first, then priority 7 down to 0. -/
def admission (s : State) : List Nat × State :=
  let cap := dirNum s (ent 0x3010 2)
  let ms := (s.hxt.reqs.filter (fun r => r.mgmt && mayAdmit s r)).take cap
  let a : Admission := ⟨cap - ms.length, (ms.map (fun r => r.rid)).reverse, foldS ms admitOne s⟩
  let a := [7, 6, 5, 4, 3, 2, 1, 0].foldl (fun a p => admitPrio p a.left a) a
  (a.rids.reverse, a.st)

/-- The round batches of a boundary (R191, R192): per table gathers, then writes, then scatter-adds. -/
def formBatches (rids : List Nat) (s : State) : State :=
  let one := fun (slot : Nat) (k : Nat × Nat) (s : State) =>
    let l := rids.filter (fun i => (req? s i).any (fun r => r.type == k.2 && (tab? s r.tenant r.obj).any (fun t => t.slot == slot)))
    formBatch slot k.1 s.clk.now l s
  foldS (s.path.tabs.map (fun t => t.slot)) (fun slot => foldS [(0, 0x0304), (1, 0x0303), (2, 0x0305)] (one slot)) s

/-! ### Quotas near their end (R340) -/

/-- The NOTE of one quota of a tenant: its row in Table 14-1, use and quota. -/
def quotaNote (t row use quota : Nat) (s : State) : State :=
  thresholdNote t 0x14 row use (ceilDiv (9 * quota) 10) (leBytes 1 row ++ zeros 7 ++ leBytes 8 use ++ leBytes 8 quota) s

/-- The quotas that a tenant holds, but kernels. -/
def quotaNotes (t : Nat) (s : State) : State :=
  let q := fun i => dirNum s (ent (0x3100 + t) i)
  let ss := (s.hxt.sessions.filter (fun x => x.tenant == t && !isMgmtPath x)).length
  let tabs := (s.path.tabs.filter (fun x => tbTenant x == t)).length
  let cs := (s.path.ctx.filter (fun y => y.tenant == t && !y.closing)).length
  foldS [(0, ss, q 4), (1, t1Used s t, q 5 * 2 ^ 30), (2, flashUsed s t, q 7 * 16), (3, corporaOf s t, q 9), (4, tabs, q 0xA),
      (5, cs, q 0xB)] (fun p => quotaNote t p.1 p.2.1 p.2.2) s

/-- The kernel quota at the end of a tick. -/
def kernelNotes (s : State) : State :=
  let s := foldS (upFrom 0 64) (fun t s => quotaNote t 6 (smGetD s.trf.kernMax t 0) (dirNum s (ent (0x3500 + t) 1)) s) s
  { s with trf := { s.trf with kernMax := [] } }

/-! ### Round boundaries -/

/-- Budgets begin anew and paused threads resume (R58); what was spent counts towards the tick's most. -/
def renewBudgets (s : State) : State :=
  let most := s.sea.spent.foldl (fun m p => smPut m (p.1 % 64) (max (smGetD m (p.1 % 64) 0) p.2)) s.trf.kernMax
  let wake := fun (t : Thread) => { t with spent := 0, run := if t.run = .paused then .running else t.run }
  { s with
    sea := { s.sea with pausedOn := [], spent := [], threads := s.sea.threads.map (fun p => (p.1, wake p.2)) }
    trf := { s.trf with kernMax := most } }

/-- Settings that govern from a round boundary: balancing (R60), the warm floor (R360), segments (R50), flash areas
(R232). -/
def boundarySettings (s : State) : State :=
  let s := loadAreas (loadSegs s)
  { s with
    sea := { s.sea with balance := dirFlag s (ent 0xC010 1) }
    pwr := { s.pwr with floor := dirNum s (ent 0x4010 1) } }

/-- The media manager's part of a round boundary (R234, R236, R238 to R240, R244, R246, R248, R251). -/
def boundaryMedia (s : State) : State :=
  if s.flash.serving then
    let s := feedDiscards (boundaryDiscards (reloadRecords (switchCopies s)))
    let s := gatherWrites (foldS s.flash.salvage salvageUnit s)
    startCheckpoint (startWear (startRefresh (startGc (startFold s))))
  else s

/-- A patch that the pending list's fill brings forward starts at the boundary (R157); one more round has passed since
the last. -/
def boundaryPatches (s : State) : State :=
  let s := { s with path := { s.path with patchRounds := s.path.patchRounds + 1 } }
  let n := pendAll s
  whenS (decide (0 < n) && decide (dirNum s (ent 0xC040 3) * s.path.pendCap ≤ 100 * n)) wantPatches (reloadSketches s)

/-- What the built-in paths do at a round boundary before envelopes are admitted (R156, R157, R164, R170, R173). -/
def boundaryPaths (s : State) : State :=
  startFolds (applyAllTokens (boundaryPatches (applyUpdates (freeClosed s))))

/-- Everything that a round boundary brings, in its order (log 64). -/
def roundWork (s : State) : State :=
  let s := boundaryTenants s
  let s := runCancels s
  let s := boundarySettings (renewBudgets (countRounds s))
  let s := engageDetours (boundaryMedia s)
  let s := boundaryPaths s
  let a := admission s
  let s := formBatches a.1 a.2
  let s := movePaths (startAttendPass (moveTabs (movePaths s)))
  queueNotes (foldS (upFrom 0 64) quotaNotes (startKernels s))

/-- A boundary's own bookkeeping: pending gate lists whose frame has come switch (R337). -/
def switchAll (s : State) : State := foldS (upFrom 0 8) switchGates s

/-- ROUND_BOUNDARY (R332). -/
def execRoundBoundary (s : State) : Out :=
  .next (if s.phase = .serving ∧ s.clk.counting then
      let s := moveTo (boundaryAt s (roundFrames s * frameCycles) s.clk.roundNext) s
      let s := { s with clk := { s.clk with roundNext := s.clk.now + 1 } }
      roundWork (queueNotes (switchAll s))
    else s)

/-! ### Frame boundaries (R263, R337, R361) -/

/-- Work waits, or a patch, fold or checkpoint falls due at the next boundary (R361). -/
def workDue (s : State) : Bool :=
  s.hxt.reqs.any (fun r => r.st == .waiting)
    || (decide (dirNum s (ent 0xC040 1) ≤ s.path.patchRounds + 1) && decide (0 < pendAll s))
    || s.path.ctx.any (fun x => recentCount s x == 1024 && !x.folding)
    || (s.flash.ckpt.isNone && decide (dirNum s (ent 0x6010 0xA) * 2 ^ 26 ≤ s.flash.since))

/-- FRAME_BOUNDARY (R263): gate lists switch, and at the start of a round's last frame the early wake starts. -/
def execFrameBoundary (s : State) : Out :=
  .next (if s.phase = .serving ∧ s.clk.counting then
      let s := moveTo (boundaryAt s frameCycles s.clk.frameNext) s
      let s := { s with clk := { s.clk with frameNext := s.clk.now + 1 } }
      let s := queueNotes (switchAll s)
      let last := frameNo s % roundFrames s + 1 == roundFrames s
      whenS (last && dirFlag s (ent 0x4010 5) && workDue s) wakeAll s
    else s)

/-! ### Strict points (R290, R291) -/

/-- Cycle of the point at which a request's work is held here: its release, or the finalists' leaving. -/
def heldUntil (r : Req) : Nat := r.admitAt + (if r.ready.isSome then r.points.getLastD 0 else r.points.getD 1 0)

/-- A request held here goes on: its receipt to the port, or its finalists to their owners. -/
def releaseReq (r : Req) (s : State) : State :=
  match r.ready with
  | some q => endReq r.rid q.1 q.2.1 0 q.2.2 s
  | none => movePaths (sendFinalists r.rid s)

/-- The answer of a held part leaves: to the gateway or home here, or into the merge tree (R290). -/
def releaseAny (p : Part) (s : State) : State :=
  let m := tmsgOf (slice p.par 0 24) p.query
  let s := dropPart p.id s
  if p.gate = recPost s then takeAnswer p.tag m s else treeInput p.gate p.tag m.stage 0 m s

/-- STRICT_POINT (R290): the point at which work of request or part `rid` is held has come. -/
def execStrictPoint (rid : Nat) (s : State) : Out :=
  .next (match req? s rid with
    | some r =>
      if r.st = .held ∨ (r.type = 0x0103 ∧ r.st = .executing ∧ r.stage = 1) then releaseReq r (moveTo (heldUntil r) s)
      else s
    | none => match part? s rid with
      | some p => if 8 ≤ p.kind then movePaths (releaseAny p (moveTo (p.points.headD 0) s)) else s
      | none => s)

/-! ### The management tick (R363, R366, R424) -/

/-- The node's always-on clock follows the timetable clock (R363). -/
def aonLocked (s : State) : Bool := s.clk.counting && (isRoot s || isSyntonised s)

/-- End of the tick in progress (R363): at a multiple of 10^6 cycles of the count, or one period after the last. -/
def tickEnd (s : State) : Nat :=
  if aonLocked s then boundaryAt s tickCycles (s.clk.tickAt + 1) else max s.clk.now (s.clk.tickAt + tickCycles)

/-- Source of the always-on clock from a tick boundary on (Table 21-12). -/
def aonSource (s : State) : Nat := if s.pins.aonInt then 2 else if s.clk.counting && isSyntonised s then 1 else 0

/-- Bin of a temperature in tenths of a degree: 0 below −5 °C, then 5 °C steps, 27 from 125 °C (Table 18-9). -/
def tempBin (t : Int) : Nat := if t < -50 then 0 else min 27 (((t + 50) / 50).toNat + 1)

/-- Temperatures shown and counted in each die's logbook (Table 21-11, R424). -/
def takeTemps (temps : List Int) (s : State) : State :=
  let l := temps.take 19
  let s := dirPut (ent 0x4030 1) (.blob (slice (l.flatMap (fun t => leBytes 2 (wrap 16 t))) 0 38)) s
  foldS (numbered l) (fun p =>
    let b := tempBin p.2
    onDieLog p.1 (fun x => { x with temp := smPut x.temp b (smGetD x.temp b 0 + 1) })) s

/-- Rail voltages: measured values, free; their bins in the logbooks of the compute and I/O dies as well (R424). -/
def takeVolts (s : State) : State :=
  let d := draw s
  let v := fun (i : Nat) => Config.freeNat (d.1 * 32 + i) % 65536
  let s := dirPut (ent 0x4030 2) (.blob ((upFrom 0 13).flatMap (fun i => leBytes 2 (v i)))) d.2
  foldS [(0, 3), (1, 4), (2, 5), (2, 6), (2, 7), (2, 8)] (fun p =>
    let b := p.2 * 16 + Config.freeNat (d.1 * 32 + 16 + p.2) % 16
    onDieLog p.1 (fun x => { x with volt := smPut x.volt b (smGetD x.volt b 0 + 1) })) s

/-- The controller's tasks of a tick: the power cap, guardband steps, kernel quotas. -/
def controllerTick (draw_ : Nat) (temps : List Int) (s : State) : State :=
  kernelNotes (raiseGuard (powerTick draw_ temps (boost s)))

/-- MANAGEMENT_TICK (R363, R366): with the average draw in watts and the temperatures in tenths of a degree. -/
def execManagementTick (draw_ : Nat) (temps : List Int) (s : State) : Out :=
  .next (
    let e := tickEnd s
    let s := moveTo e s
    let s := { s with clk := { s.clk with tick := s.clk.tick + 1, tickAt := s.clk.now } }
    let s := dirSet (ent 0x4040 4) (aonSource s) s
    if nodeAwake s then
      let s := takeVolts (takeTemps temps s)
      if s.err.mcDown then s else controllerTick draw_ temps s
    else s)

end Sys2Proof.Machine
end

