-- ==== Sys2Proof/Machine/Dispatch.lean ====
section
/-! DEFINITION. Dispatch: one arm per command, each a direct call of its meaning. -/
namespace Sys2Proof.Machine

def exec (i : Instr) (s : State) : Host.Outcome State Fault Refusal :=
  match i with
  | .load th form rs1 imm => Sys2Proof.Machine.execLoad th form rs1 imm s
  | .store th form rs1 imm => Sys2Proof.Machine.execStore th form rs1 imm s
  | .amo th op bytes rd rs1 rs2 => Sys2Proof.Machine.execAmo th op bytes rd rs1 rs2 s
  | .lrSc th sc bytes rd rs1 rs2 => Sys2Proof.Machine.execLrSc th sc bytes rd rs1 rs2 s
  | .fence th pred succ => Sys2Proof.Machine.execFence th pred succ s
  | .fenceI th => Sys2Proof.Machine.execFenceI th s
  | .ecallExit th => Sys2Proof.Machine.execEcallExit th s
  | .prefetchFill cluster slot line => Sys2Proof.Machine.execPrefetchFill cluster slot line s
  | .remoteAccessTimeout th tag => Sys2Proof.Machine.execRemoteAccessTimeout th tag s
  | .estream th rd rs1 => Sys2Proof.Machine.execEstream th rd rs1 s
  | .estwait th rd rs1 => Sys2Proof.Machine.execEstwait th rd rs1 s
  | .estrel th rd rs1 => Sys2Proof.Machine.execEstrel th rd rs1 s
  | .estop th rd rs1 => Sys2Proof.Machine.execEstop th rd rs1 s
  | .escstatWrite th rd rs1 => Sys2Proof.Machine.execEscstatWrite th rd rs1 s
  | .eslstatWrite th rd rs1 => Sys2Proof.Machine.execEslstatWrite th rd rs1 s
  | .registerWrite t => Sys2Proof.Machine.execRegisterWrite t s
  | .wb th w => Sys2Proof.Machine.execWb th w s
  | .flush th w => Sys2Proof.Machine.execFlush th w s
  | .inv th w => Sys2Proof.Machine.execInv th w s
  | .edot th w => Sys2Proof.Machine.execEdot th w s
  | .edotf th w => Sys2Proof.Machine.execEdotf th w s
  | .erescale th w => Sys2Proof.Machine.execErescale th w s
  | .insert th w => Sys2Proof.Machine.execInsert th w s
  | .insertv th w => Sys2Proof.Machine.execInsertv th w s
  | .eslReset th w => Sys2Proof.Machine.execEslReset th w s
  | .drain th w => Sys2Proof.Machine.execDrain th w s
  | .floor th w => Sys2Proof.Machine.execFloor th w s
  | .eslmrg th w => Sys2Proof.Machine.execEslmrg th w s
  | .ecompact th w => Sys2Proof.Machine.execEcompact th w s
  | .epost th w => Sys2Proof.Machine.execEpost th w s
  | .erecv th rd rs1 => Sys2Proof.Machine.execErecv th rd rs1 s
  | .ewait th rd rs1 => Sys2Proof.Machine.execEwait th rd rs1 s
  | .ewaitLimit th => Sys2Proof.Machine.execEwaitLimit th s
  | .itemSteal cluster => Sys2Proof.Machine.execItemSteal cluster s
  | .budgetSpent core tenant => Sys2Proof.Machine.execBudgetSpent core tenant s
  | .kernelRoundLimit rid => Sys2Proof.Machine.execKernelRoundLimit rid s
  | .cload th stack addr => Sys2Proof.Machine.execCload th stack addr s
  | .circularLoadDone stack => Sys2Proof.Machine.execCircularLoadDone stack s
  | .cstart th val => Sys2Proof.Machine.execCstart th val s
  | .cabort th stack val => Sys2Proof.Machine.execCabort th stack val s
  | .circularLaunch stack => Sys2Proof.Machine.execCircularLaunch stack s
  | .micEnd stack => Sys2Proof.Machine.execMicEnd stack s
  | .micStep stack => Sys2Proof.Machine.execMicStep stack s
  | .micRepeat stack => Sys2Proof.Machine.execMicRepeat stack s
  | .micLd stack => Sys2Proof.Machine.execMicLd stack s
  | .micAnd stack => Sys2Proof.Machine.execMicAnd stack s
  | .micOr stack => Sys2Proof.Machine.execMicOr stack s
  | .micXor stack => Sys2Proof.Machine.execMicXor stack s
  | .micXnor stack => Sys2Proof.Machine.execMicXnor stack s
  | .micAndn stack => Sys2Proof.Machine.execMicAndn stack s
  | .micNot stack => Sys2Proof.Machine.execMicNot stack s
  | .micMaj stack => Sys2Proof.Machine.execMicMaj stack s
  | .micFillq stack => Sys2Proof.Machine.execMicFillq stack s
  | .micFillt stack => Sys2Proof.Machine.execMicFillt stack s
  | .micWr stack => Sys2Proof.Machine.execMicWr stack s
  | .micRchk stack => Sys2Proof.Machine.execMicRchk stack s
  | .micSeal stack => Sys2Proof.Machine.execMicSeal stack s
  | .micSealc stack => Sys2Proof.Machine.execMicSealc stack s
  | .completionRecord stack => Sys2Proof.Machine.execCompletionRecord stack s
  | .refresh stack => Sys2Proof.Machine.execRefresh stack s
  | .refreshWatchdog stack => Sys2Proof.Machine.execRefreshWatchdog stack s
  | .roundBoundary => Sys2Proof.Machine.execRoundBoundary s
  | .frameBoundary => Sys2Proof.Machine.execFrameBoundary s
  | .sample => Sys2Proof.Machine.execSample s
  | .managementTick draw temps => Sys2Proof.Machine.execManagementTick draw temps s
  | .fastLimiter w => Sys2Proof.Machine.execFastLimiter w s
  | .strictPoint rid => Sys2Proof.Machine.execStrictPoint rid s
  | .psubmit th cluster addr => Sys2Proof.Machine.execPsubmit th cluster addr s
  | .parcelDelivered pid => Sys2Proof.Machine.execParcelDelivered pid s
  | .tierTimeout pid => Sys2Proof.Machine.execTierTimeout pid s
  | .flashWriteCompletion pid => Sys2Proof.Machine.execFlashWriteCompletion pid s
  | .checkpointDone => Sys2Proof.Machine.execCheckpointDone s
  | .flashProgramDone job ok => Sys2Proof.Machine.execFlashProgramDone job ok s
  | .flashEraseDone sb channel ok => Sys2Proof.Machine.execFlashEraseDone sb channel ok s
  | .flashReadDone pid r => Sys2Proof.Machine.execFlashReadDone pid r s
  | .scrub => Sys2Proof.Machine.execScrub s
  | .heatHalving => Sys2Proof.Machine.execHeatHalving s
  | .shredDone rid => Sys2Proof.Machine.execShredDone rid s
  | .flashDiscoveryDone chans => Sys2Proof.Machine.execFlashDiscoveryDone chans s
  | .recoveryDone => Sys2Proof.Machine.execRecoveryDone s
  | .corpusRebuildDone c ok => Sys2Proof.Machine.execCorpusRebuildDone c ok s
  | .slotReloadDone c => Sys2Proof.Machine.execSlotReloadDone c s
  | .pwrfailN ns => Sys2Proof.Machine.execPwrfailN ns s
  | .flushDone => Sys2Proof.Machine.execFlushDone s
  | .porstN at_ low => Sys2Proof.Machine.execPorstN at_ low s
  | .coldBoot inp => Sys2Proof.Machine.execColdBoot inp s
  | .wrstN at_ low => Sys2Proof.Machine.execWrstN at_ low s
  | .warmRequest a v => Sys2Proof.Machine.execWarmRequest a v s
  | .holdPoint => Sys2Proof.Machine.execHoldPoint s
  | .wrstNRelease => Sys2Proof.Machine.execWrstNRelease s
  | .nodeReady => Sys2Proof.Machine.execNodeReady s
  | .rejoin frame => Sys2Proof.Machine.execRejoin frame s
  | .mgtEnumIn at_ level => Sys2Proof.Machine.execMgtEnumIn at_ level s
  | .railFault rail ns => Sys2Proof.Machine.execRailFault rail ns s
  | .thermalHalt die temp => Sys2Proof.Machine.execThermalHalt die temp s
  | .thermtrip die temp => Sys2Proof.Machine.execThermtrip die temp s
  | .referenceLoss which => Sys2Proof.Machine.execReferenceLoss which s
  | .linkTrained link r => Sys2Proof.Machine.execLinkTrained link r s
  | .trainingAttemptTimeout link => Sys2Proof.Machine.execTrainingAttemptTimeout link s
  | .linkDown link => Sys2Proof.Machine.execLinkDown link s
  | .retrain link => Sys2Proof.Machine.execRetrain link s
  | .standbyParentSwitch => Sys2Proof.Machine.execStandbyParentSwitch s
  | .holdover => Sys2Proof.Machine.execHoldover s
  | .idle link => Sys2Proof.Machine.execIdle link s
  | .fanout m => Sys2Proof.Machine.execFanout m s
  | .tree m => Sys2Proof.Machine.execTree m s
  | .finalist m => Sys2Proof.Machine.execFinalist m s
  | .forward m => Sys2Proof.Machine.execForward m s
  | .pool m => Sys2Proof.Machine.execPool m s
  | .read m => Sys2Proof.Machine.execRead m s
  | .write m => Sys2Proof.Machine.execWrite m s
  | .resp m => Sys2Proof.Machine.execResp m s
  | .ctrl m => Sys2Proof.Machine.execCtrl m s
  | .replay link slot ok => Sys2Proof.Machine.execReplay link slot ok s
  | .originEntry n => Sys2Proof.Machine.execOriginEntry n s
  | .start m => Sys2Proof.Machine.execStart m s
  | .readyDeadline => Sys2Proof.Machine.execReadyDeadline s
  | .startPost => Sys2Proof.Machine.execStartPost s
  | .letter m => Sys2Proof.Machine.execLetter m s
  | .pigeonholeDelivery => Sys2Proof.Machine.execPigeonholeDelivery s
  | .clockGateEntry n => Sys2Proof.Machine.execClockGateEntry n s
  | .powerGateEntry n => Sys2Proof.Machine.execPowerGateEntry n s
  | .powerGatedDone n => Sys2Proof.Machine.execPowerGatedDone n s
  | .clusterWake n => Sys2Proof.Machine.execClusterWake n s
  | .dieStop d => Sys2Proof.Machine.execDieStop d s
  | .stackPowerDown k => Sys2Proof.Machine.execStackPowerDown k s
  | .selfRefreshEntry k => Sys2Proof.Machine.execSelfRefreshEntry k s
  | .channelGroupStandby g => Sys2Proof.Machine.execChannelGroupStandby g s
  | .controllerIdle => Sys2Proof.Machine.execControllerIdle s
  | .rowMove t row => Sys2Proof.Machine.execRowMove t row s
  | .moveDone t row => Sys2Proof.Machine.execMoveDone t row s
  | .rowReturn t row => Sys2Proof.Machine.execRowReturn t row s
  | .returnDone t row => Sys2Proof.Machine.execReturnDone t row s
  | .lineAdd t => Sys2Proof.Machine.execLineAdd t s
  | .scatterBatchDone t => Sys2Proof.Machine.execScatterBatchDone t s
  | .gatherBatchDone t => Sys2Proof.Machine.execGatherBatchDone t s
  | .itemAccepted rid n => Sys2Proof.Machine.execItemAccepted rid n s
  | .tokenFoldDone h => Sys2Proof.Machine.execTokenFoldDone h s
  | .patchEpoch => Sys2Proof.Machine.execPatchEpoch s
  | .envelope p => Sys2Proof.Machine.execEnvelope p s
  | .reassemblyExpiry sid pm => Sys2Proof.Machine.execReassemblyExpiry sid pm s
  | .hello p => Sys2Proof.Machine.execHello p s
  | .response p => Sys2Proof.Machine.execResponse p s
  | .challengeExpiry sid => Sys2Proof.Machine.execChallengeExpiry sid s
  | .bye p => Sys2Proof.Machine.execBye p s
  | .sessionIdleClose sid => Sys2Proof.Machine.execSessionIdleClose sid s
  | .noteAck p => Sys2Proof.Machine.execNoteAck p s
  | .noteResend tenant => Sys2Proof.Machine.execNoteResend tenant s
  | .ping rid => Sys2Proof.Machine.execPing rid s
  | .cancel rid => Sys2Proof.Machine.execCancel rid s
  | .corpusCreate rid => Sys2Proof.Machine.execCorpusCreate rid s
  | .corpusDrop rid => Sys2Proof.Machine.execCorpusDrop rid s
  | .search rid => Sys2Proof.Machine.execSearch rid s
  | .upsert rid => Sys2Proof.Machine.execUpsert rid s
  | .delete rid => Sys2Proof.Machine.execDelete rid s
  | .ctxProfile rid => Sys2Proof.Machine.execCtxProfile rid s
  | .ctxOpen rid => Sys2Proof.Machine.execCtxOpen rid s
  | .ctxClose rid => Sys2Proof.Machine.execCtxClose rid s
  | .ctxAppend rid => Sys2Proof.Machine.execCtxAppend rid s
  | .ctxAttend rid => Sys2Proof.Machine.execCtxAttend rid s
  | .embTableCreate rid => Sys2Proof.Machine.execEmbTableCreate rid s
  | .embTableDrop rid => Sys2Proof.Machine.execEmbTableDrop rid s
  | .embWrite rid => Sys2Proof.Machine.execEmbWrite rid s
  | .embGather rid => Sys2Proof.Machine.execEmbGather rid s
  | .embScatterAdd rid => Sys2Proof.Machine.execEmbScatterAdd rid s
  | .kernelRun rid => Sys2Proof.Machine.execKernelRun rid s
  | .flashDiscard rid => Sys2Proof.Machine.execFlashDiscard rid s
  | .dirRead rid => Sys2Proof.Machine.execDirRead rid s
  | .dirWrite rid => Sys2Proof.Machine.execDirWrite rid s
  | .transmitSelect p => Sys2Proof.Machine.execTransmitSelect p s
  | .arpNdIcmp p ask => Sys2Proof.Machine.execArpNdIcmp p ask s
  | .subportUp p => Sys2Proof.Machine.execSubportUp p s
  | .subportDown p => Sys2Proof.Machine.execSubportDown p s
  | .holdDownEnd p => Sys2Proof.Machine.execHoldDownEnd p s
  | .txAn a p v => Sys2Proof.Machine.execTxAn a p v s
  | .sak a p v => Sys2Proof.Machine.execSak a p v s
  | .enabled a t v => Sys2Proof.Machine.execEnabled a t v s
  | .tenantReset a t v => Sys2Proof.Machine.execTenantReset a t v s
  | .resetDone t => Sys2Proof.Machine.execResetDone t s
  | .policerEntryWrite a t sub v => Sys2Proof.Machine.execPolicerEntryWrite a t sub v s
  | .shaperEntryWrite a t q sub v => Sys2Proof.Machine.execShaperEntryWrite a t q sub v s
  | .commitFrame a p v => Sys2Proof.Machine.execCommitFrame a p v s
  | .histClear a t q v => Sys2Proof.Machine.execHistClear a t q v s
  | .rwcWrite a obj v => Sys2Proof.Machine.execRwcWrite a obj v s
  | .bootFlashCommit => Sys2Proof.Machine.execBootFlashCommit s
  | .enumReset => Sys2Proof.Machine.execEnumReset s
  | .enumOffer addr version => Sys2Proof.Machine.execEnumOffer addr version s
  | .enumConfirm addr version ident => Sys2Proof.Machine.execEnumConfirm addr version ident s
  | .enumConfirmTimeout => Sys2Proof.Machine.execEnumConfirmTimeout s
  | .session m => Sys2Proof.Machine.execSession m s
  | .close m => Sys2Proof.Machine.execClose m s
  | .chainSessionIdle sid => Sys2Proof.Machine.execChainSessionIdle sid s
  | .chainRead m => Sys2Proof.Machine.execChainRead m s
  | .chainWrite m => Sys2Proof.Machine.execChainWrite m s
  | .chainTransferExpiry id => Sys2Proof.Machine.execChainTransferExpiry id s
  | .alertAck n => Sys2Proof.Machine.execAlertAck n s
  | .alertResend => Sys2Proof.Machine.execAlertResend s
  | .restoreDefaults a v => Sys2Proof.Machine.execRestoreDefaults a v s
  | .target a n v => Sys2Proof.Machine.execTarget a n v s
  | .direction a n v => Sys2Proof.Machine.execDirection a n v s
  | .chunkWrite a n v => Sys2Proof.Machine.execChunkWrite a n v s
  | .chunkRead a n => Sys2Proof.Machine.execChunkRead a n s
  | .commit a n v => Sys2Proof.Machine.execCommit a n v s
  | .slotIdleClose n => Sys2Proof.Machine.execSlotIdleClose n s
  | .remove a v => Sys2Proof.Machine.execRemove a v s
  | .recordHandled seq => Sys2Proof.Machine.execRecordHandled seq s
  | .recordClose seq => Sys2Proof.Machine.execRecordClose seq s
  | .patrol addr => Sys2Proof.Machine.execPatrol addr s
  | .halt c => Sys2Proof.Machine.execHalt c s
  | .watchdogExpiry => Sys2Proof.Machine.execWatchdogExpiry s
  | .controllerRestartDone => Sys2Proof.Machine.execControllerRestartDone s
  | .logbookAppend die => Sys2Proof.Machine.execLogbookAppend die s
  | .logbookSummary die => Sys2Proof.Machine.execLogbookSummary die s
  | .ageingReading die deltas => Sys2Proof.Machine.execAgeingReading die deltas s
  | .replan a v => Sys2Proof.Machine.execReplan a v s
  | .marginReplan inp => Sys2Proof.Machine.execMarginReplan inp s
  | .operatorRoot a v => Sys2Proof.Machine.execOperatorRoot a v s
  | .nonce a v => Sys2Proof.Machine.execNonce a v s
  | .report a => Sys2Proof.Machine.execReport a s
  | .psk a t v => Sys2Proof.Machine.execPsk a t v s
  | .debugMode a v => Sys2Proof.Machine.execDebugMode a v s
  | .confirm a v => Sys2Proof.Machine.execConfirm a v s
  | .rv64gcInstruction th => Sys2Proof.Machine.execRv64gcInstruction th s
  | .jtagAccess op => Sys2Proof.Machine.execJtagAccess op s
  | .consoleInput b => Sys2Proof.Machine.execConsoleInput b s
  | .busOff => Sys2Proof.Machine.execBusOff s
  | .busOffRecovery => Sys2Proof.Machine.execBusOffRecovery s
  | .framesIgnored reason => Sys2Proof.Machine.execFramesIgnored reason s
  | .rxDropped p reason => Sys2Proof.Machine.execRxDropped p reason s
  | .reservedKindFlit m => Sys2Proof.Machine.execReservedKindFlit m s
  | .scheduledForwarding entry m => Sys2Proof.Machine.execScheduledForwarding entry m s
  | .readyMessage child => Sys2Proof.Machine.execReadyMessage child s
  | .droop rail mv ns => Sys2Proof.Machine.execDroop rail mv ns s
  | .vaonCollapse => Sys2Proof.Machine.execVaonCollapse s
  | .railsInTolerance => Sys2Proof.Machine.execRailsInTolerance s
  | .referenceReturn which => Sys2Proof.Machine.execReferenceReturn which s
  | .pcsLockLoss p ns regained => Sys2Proof.Machine.execPcsLockLoss p ns regained s
  | .refreshIntervalChange k temp => Sys2Proof.Machine.execRefreshIntervalChange k temp s

end Sys2Proof.Machine
end

