-- ==== Sys2Proof/Machine/Step.lean ====
section
/-! DEFINITION. Step: the block takes the command at the front of its queue. -/
namespace Sys2Proof.Machine

/-- One step: the front command's effect on the state with the queue's rest; with no command waiting one
cycle passes. -/
def step (s : State) : Host.Outcome State Fault Refusal :=
  match s.pending with
  | [] => .next (passCycle s)
  | c :: rest => exec c { s with pending := rest }

/-- The state with the command that a table word spells put at the front of its queue; the command table gives no row
bits, so no word spells one (Decode.lean). -/
def State.withFetchWord (s : State) (nbits w : Nat) : State :=
  match decodeTableWord nbits w with
  | some c => { s with pending := c :: s.pending }
  | none => s

end Sys2Proof.Machine
end

