-- ==== Sys2Proof/Safety.lean ====
section
/-! DEFINITION. Safety: what every step of the block keeps, in the terms the statements use. -/
namespace Sys2Proof.Machine

/-- Every store of the block that the spec bounds holds no more than its bound: the error record queue (R416), the sticky
store of HALT records (R421), the pending alerts (R403), the pigeonholes of the management controller and of the security
engine (Table 15-3), the sessions (R306) and the trace ring (R427). -/
structure Capacity (s : State) : Prop where
  records : s.err.queue.length ≤ 64
  halts : s.err.halts.length ≤ 4
  alerts : s.chain.alerts.length ≤ 16
  controller : s.pwr.mcBox.length ≤ 256
  security : s.pwr.seBox.length ≤ 64
  sessions : s.hxt.sessions.length ≤ 4096
  trace : s.log.trace.length ≤ 65536

/-- What has left the node stays sent: the packets handed to the ports, the messages of the chain and the flits of the
fabric are records that only grow. -/
structure Emits (s t : State) : Prop where
  ports : s.hxt.sent <+: t.hxt.sent
  chain : s.chain.out <+: t.chain.out
  fabric : s.fab.out <+: t.fab.out

/-! ### Frames of the instructions of a thread -/

/-- A thread may issue an instruction that uses the listed integer, floating and vector registers (R30): it runs, its
cluster is neither gated nor waking, its core is in service, its tenant's budget is not spent, and none of the registers
is the target of an outstanding remote access. -/
def Issues (s : State) (th : Nat) (xs fs vs : List Nat) : Prop :=
  canIssue s th = true ∧ regBusy (thread s th) xs fs vs = false

/-- Thread `th` moved past a four-byte instruction: of its context only the listed integer, floating and vector registers
and CSRs differ (R29). -/
structure Moves (th : Nat) (xs fs vs cs : List Nat) (s t : State) : Prop where
  pc : (thread t th).pc = ((thread s th).pc + 4) % 2 ^ 64
  ints : ∀ r, r ∉ xs → rx (thread t th) r = rx (thread s th) r
  floats : ∀ r, r ∉ fs → rf (thread t th) r = rf (thread s th) r
  vectors : ∀ r, r % 32 ∉ vs → rv (thread t th) r = rv (thread s th) r
  csrs : ∀ a, a ∉ cs → rcsr (thread t th) a = rcsr (thread s th) a
  rest : thread t th = { thread s th with
    pc := (thread t th).pc, x := (thread t th).x, f := (thread t th).f, v := (thread t th).v, csr := (thread t th).csr }

/-- No other thread's context differs (R29). -/
def Others (th : Nat) (s t : State) : Prop := ∀ u, u ≠ th → thread t u = thread s u

/-- No other thread's context differs but for a reservation it held on the line of local address `a` (R49). -/
def OthersBut (th a : Nat) (s t : State) : Prop :=
  ∀ u, u ≠ th → thread t u = thread s u ∨
    (∃ r, (thread s u).resv = some r ∧ r / 64 = a / 64) ∧ thread t u = { thread s u with resv := none }

/-- Of the block only thread contexts, the round's issue counts and the idle time of a cluster differ: no memory, no
directory entry, no queue, no other unit. -/
def ThreadsOnly (s t : State) : Prop :=
  t = { s with sea := { s.sea with threads := t.sea.threads, spent := t.sea.spent },
               pwr := { s.pwr with clLast := t.pwr.clLast } }

/-- Every stored byte reads as before. -/
def SameBytes (s t : State) : Prop := ∀ x, memByte t x = memByte s x

/-- A cluster's cache holds the line of a local address. -/
def LineHeld (s : State) (cl a : Nat) : Prop := ∃ l, smGet? s.mem.lines (lineKey cl a) = some l

/-- No row and no word that `n` bytes at `a` touch would end a read, and none needs a correction. -/
structure Clean (s : State) (a n : Nat) : Prop where
  rows : inStack a = true → ∀ r, r ∈ rowsOf a n → rowBroken s r = false ∧ rowUnsealed s r = false
  words : ∀ w, w ∈ wordsOf a n → isBad s w = false ∧ isFixable s w = false

/-- Bytes that an access of a cluster sees at a local address within one line: those of the line the cluster holds of a
CACHED or STREAM stack address, else the stored ones, corrected (R37, R49, R409). -/
def seen (s : State) (cl a n attr : Nat) : Bytes :=
  if attr < 2 ∧ inStack a = true then
    match smGet? s.mem.lines (lineKey cl a) with
    | some l => slice (leBytes 64 l.data.toNat) (a % 64) n
    | none => slice (fixedRead s (a / 64 * 64) 64) (a % 64) n
  else fixedRead s a n

/-- An access of a cluster finds its line held, or can bring it in without an error and without dropping another; an
access that is not cached finds its bytes clean. -/
def Reachable (s : State) (cl a n attr : Nat) : Prop :=
  if attr < 2 ∧ inStack a = true then
    LineHeld s cl a ∨ Clean s (a / 64 * 64) 64 ∧ (clusterLines s cl).length < 262144
  else Clean s a n

/-- A plain memory: no engine register. -/
def PlainAt (s : State) (a : Nat) : Prop := ∀ off, region s a ≠ .engine off

/-- `b` was stored at `a` by a thread of cluster `cl` and nothing else was: into the cluster's line, which is dirty, for a
CACHED or STREAM stack address; into memory otherwise. -/
def StoredAt (s t : State) (cl a attr : Nat) (b : Bytes) : Prop :=
  if attr < 2 ∧ inStack a = true then
    lineBytes t cl a b.length = b ∧ (∃ l, smGet? t.mem.lines (lineKey cl a) = some l ∧ l.dirty = true) ∧
      (∀ k, k ≠ lineKey cl a → smGet? t.mem.lines k = smGet? s.mem.lines k) ∧ SameBytes s t
  else
    t.mem.lines = s.mem.lines ∧
      ∀ x, memByte t x = if a ≤ x ∧ x < a + b.length then b.getD (x - a) 0 else memByte s x

/-- What an access of a thread to plain memory may change besides the registers and bytes it names: contexts of threads,
automatic prefetch, caches, idle times, and the count of footprint accesses. -/
def AccessOnly (s t : State) : Prop :=
  t = { s with mem := { s.mem with bytes := t.mem.bytes, synd := t.mem.synd, lines := t.mem.lines },
               sea := { s.sea with threads := t.sea.threads, spent := t.sea.spent, train := t.sea.train,
                                   streams := t.sea.streams },
               pwr := t.pwr, dir := { s.dir with vals := t.dir.vals } }

/-! ### Receipts -/

/-- The receipt of a request (R311, Table 13-8): a status of 0x10 or above carries neither class nor cause, and neither
count nor body but for the items of an UPSERT or DELETE that has begun. -/
def receiptFor (r : Req) (status count detail : Nat) (body : Bytes) : Bytes :=
  let classed := hasClass r.type && decide (status < 0x10)
  let keep := decide (status < 0x10) || ((r.type == 0x0104 || r.type == 0x0105) && r.st != .waiting && status != 0x32
    && status != 0x60 && !body.isEmpty)
  receiptBytes r.type status (if classed then classObtained r.type r.cls r.cause else 0xFF) (if classed then r.cause else 0)
    (if r.st = .waiting then 0 else r.admitted) (if keep then count else 0) detail (if keep then body else [])

/-- A request has left the node and, when its session is open and its sub-port up, the packets of its receipt were placed in
the outbox of its session's tenant, or on the control path (R312, R333, R479); nothing else was. -/
structure Receipted (s t : State) (r : Req) (b : Bytes) : Prop where
  gone : req? t r.rid = none
  sent : ∀ x, sess? s r.sid = some x → portUp s r.addr.port = true → t.hxt.out = s.hxt.out ++
    (packetsOf 2 x.version x.sid (epoch s) r.pm x.maxPayload (tagKey x) b).map (fun p =>
      ⟨r.addr.port, isMgmtPath x, x.tenant, r.queue, r.addr, 2, p, s.clk.now, 0, false⟩)

/-! ### Shortlists -/

/-- A unit list is in the order of R86, so that no two entries have one id, and holds no more than R90 allows. -/
structure ListOk (l : UList) : Prop where
  order : l.ents.Pairwise (fun a b => precedes l.fp a b = true)
  ids : l.ents.Pairwise (fun a b => a.id ≠ b.id)
  room : l.ents.length ≤ if l.ties then 2 * l.cap else l.cap

/-- Thread `th` moved past a four-byte shortlist instruction: of its context only the listed integer registers and CSRs and
the listed lists differ (R89). -/
structure MovesLists (th : Nat) (xs cs ls : List Nat) (s t : State) : Prop where
  pc : (thread t th).pc = ((thread s th).pc + 4) % 2 ^ 64
  ints : ∀ r, r ∉ xs → rx (thread t th) r = rx (thread s th) r
  csrs : ∀ a, a ∉ cs → rcsr (thread t th) a = rcsr (thread s th) a
  lists : ∀ i, i ∉ ls → ulist (thread t th) i = ulist (thread s th) i
  rest : thread t th = { thread s th with
    pc := (thread t th).pc, x := (thread t th).x, csr := (thread t th).csr, lists := (thread t th).lists }

/-! ### Circulars -/

/-- Stack `k` runs circular `c` and its present word, intact with its complement, has operation `op`; `m` is the word as it
runs there (R114, R116). -/
def AtWord (s : State) (k op : Nat) (c : Circ) (m : Mic) : Prop :=
  running? s k = some c ∧ (seqr s k).phase = .run ∧ c.descBad = false ∧
    ∃ w, pairNow s k c = some (w, ~~~w) ∧ (micOf w).op = op ∧ m = micNow (seqr s k) w

/-- Nothing of the block but the sequencer of stack `k` differs. -/
def StackOnly (k : Nat) (s t : State) : Prop := t = { s with stk := t.stk } ∧ ∀ j, j ≠ k → seqr t j = seqr s j

/-! ### Requests -/

/-- A request of a type has been admitted and its body passes the checks of its type (R309). -/
def Admitted (s : State) (rid type : Nat) (r : Req) : Prop :=
  req? s rid = some r ∧ r.type = type ∧ r.st = .admitted ∧ lateFault s r = none

/-- No descriptor of the parcel engine belongs to a request. -/
def NoDescs (s : State) (rid : Nat) : Prop := ∀ q, q ∈ s.par.queues → ∀ d, d ∈ q.2 → d.req ≠ rid

/-- `b` was written at `a` and no other stored byte differs. -/
def Wrote (s t : State) (a : Nat) (b : Bytes) : Prop :=
  ∀ x, memByte t x = if a ≤ x ∧ x < a + b.length then b.getD (x - a) 0 else memByte s x

/-- The slots of virtual block `v` of channel `c` hold nothing. -/
def BlockErased (s : State) (v c : Nat) : Prop :=
  ∀ k, k < 2 ^ 31 → v * s.flash.perBlock ≤ k → k < (v + 1) * s.flash.perBlock → smGet? s.flash.store (slotKey c k) = none

/-- Nothing but the media manager differs. -/
def FlashOnly (s t : State) : Prop := t = { s with flash := t.flash }

/-! ### Packets -/

/-- A packet of kind `k` passes every check of R300 and R301 at a sub-port that is up while HXT is served. -/
def PacketIn (s : State) (k : Nat) (p : Packet) : Prop :=
  portUp s p.port = true ∧ pkKind p = k ∧ pkGood p = true ∧ s.phase = .serving

/-- Packets that go out to a packet's source by the control path (R333). -/
def controlOut (s : State) (p : Packet) (kind : Nat) (ps : List Bytes) : List OutPkt :=
  ps.map (fun b => ⟨p.port, true, 0, 0, pkAddr p, kind, b, s.clk.now, 0, false⟩)

/-- No policer colours a session's packets: the management path has none (R479) and mode 0 passes all (R329). -/
def NoPolicer (s : State) (x : Sess) : Prop := isMgmtPath x = true ∨ dirNum s (ent (0x3200 + x.tenant) 1) = 0

/-- A session is closed: it and its transfer slots are gone, with it what of its envelopes was not yet admitted; every other
session, envelope and request is as before (R306, R401). -/
structure SessionClosed (s t : State) (sid : Nat) : Prop where
  gone : sess? t sid = none
  others : ∀ i, i ≠ sid → sess? t i = sess? s i
  waiting : ∀ r, r ∈ t.hxt.reqs ↔ r ∈ s.hxt.reqs ∧ ¬(r.sid = sid ∧ r.st = .waiting)
  partials : ∀ a, a ∈ t.hxt.asm ↔ a ∈ s.hxt.asm ∧ a.sid ≠ sid
  slots : ∀ k x, (k, x) ∈ t.dir.slots ↔ (k, x) ∈ s.dir.slots ∧ ¬(x.owner = sid ∧ x.chain = false)
  memory : t.mem = s.mem

/-! ### Messages of the fabric -/

/-- A message is for this node: the node takes part in the fabric, the header passes and names it (R279, R281). -/
def MsgIn (s : State) (m : FabMsg) : Prop :=
  fabricOn s = true ∧ headerVerdict s (msgHdr m) = 0 ∧ (msgHdr m).dest = recPost s

/-- A scheduled message that came in one piece (log 40); its inline bytes are `i`. -/
def Whole (m : FabMsg) (i : Bytes) : Prop :=
  fieldLE m.inl 24 2 = 0 ∧ fieldLE m.inl 26 2 ≤ flitsOf m.data ∧ i = slice m.inl 0 24 ++ slice m.inl 28 4

/-- With nothing waiting before, the one message that has left on a link or waits for one answers the access of header `h`
with a status and bytes (R52, log 13). -/
def Answered (s t : State) (h : Hdr) (st : Nat) (b : Bytes) : Prop :=
  ∃ a, t.fab.out ++ t.fab.held = s.fab.out ++ [a] ∧ (msgHdr a).kind = 4 ∧ (msgHdr a).dest = h.source ∧
    (msgHdr a).tag = h.tag ∧ (msgHdr a).tenant = h.tenant ∧ (msgHdr a).address = h.address ∧ fieldLE a.inl 0 2 = st ∧
    (b.length ≤ 24 → slice a.inl 8 b.length = b ∧ a.data = []) ∧ (24 < b.length → a.data = b)

/-! ### Fetching -/

/-- The halfword at a virtual address lies in a line that the thread's core holds in its instruction cache. -/
def HalfHeld (s : State) (th va h : Nat) : Prop :=
  ∃ a attr v, translate s th va 2 .fetch = .loc a attr ∧ smGet? s.mem.iline (ilineKey (coreOf th) a) = some v ∧
    fieldLE (leBytes 64 v.toNat) (a % 64) 2 = h

/-- The 32-bit word at a thread's program counter lies in lines that its core holds, so that fetching it changes nothing. -/
def Fetched (s : State) (th w : Nat) : Prop :=
  w < 2 ^ 32 ∧ w % 4 = 3 ∧ HalfHeld s th (thread s th).pc (w % 65536) ∧
    HalfHeld s th (((thread s th).pc + 2) % 2 ^ 64) (w / 65536)

/-- An instruction that only writes register `rd` was executed: the register holds `v` unless it is x0, the program counter
moved by `len`, and nothing else of the thread or of another thread differs (R29, R33). -/
def PutsX (th len rd : Nat) (v : W64) (s t : State) : Prop :=
  thread t th = { thread s th with pc := ((thread s th).pc + len) % 2 ^ 64, x := (thread t th).x } ∧
    (∀ r, rx (thread t th) r = if r = rd ∧ r ≠ 0 then v else rx (thread s th) r) ∧ Others th s t ∧ ThreadsOnly s t

/-! ### Directory writes -/

/-- A command writes `v` to entry `obj` for actor `a`: a row of the table with an actor of its own. -/
def WriteRow (c : Instr) (a : Actor) (obj : Nat) (v : DVal) : Prop :=
  match c with
  | .registerWrite (.entry b o w) => b = a ∧ o = obj ∧ w = v
  | .rwcWrite b o w => b = a ∧ o = obj ∧ w = v
  | .txAn b p w => b = a ∧ p < 8 ∧ obj = ent (0xB100 + p) 9 ∧ w = v
  | .enabled b t w => b = a ∧ t < 64 ∧ obj = ent (0x3100 + t) 1 ∧ w = v
  | .policerEntryWrite b t u w => b = a ∧ t < 64 ∧ u < 256 ∧ obj = ent (0x3200 + t) u ∧ w = v
  | .shaperEntryWrite b t q u w => b = a ∧ t < 64 ∧ q < 16 ∧ u < 256 ∧ obj = qObj t q u ∧ w = v
  | .commitFrame b p w => b = a ∧ p < 8 ∧ obj = ent (0x3300 + p) 2 ∧ w = v
  | .operatorRoot b w => b = a ∧ obj = ent 0x9010 3 ∧ w = v
  | .debugMode b w => b = a ∧ obj = ent 0x9030 1 ∧ w = v
  | _ => False

end Sys2Proof.Machine
end

