-- ==== Sys2Proof/Certificates/Slice0/Obligations.lean ====
section
/-! DEFINITION. Obligations: the statements for the provers. -/
open Sys2Proof Sys2Proof.Machine

/-! ## The block -/

/-- A step takes the command at the front of the queue: it is exec of that command on the state with the queue's rest. The
queue is the model's, not the spec's. -/
def Obligations.StepRunsFrontCommand : Prop :=
  ∀ (c : Instr) (rest : List Instr) (s : State), s.pending = c :: rest → step s = exec c { s with pending := rest }

/-- No command stops the block: every step of every state answers a next state. -/
def Obligations.EveryStepAnswers : Prop :=
  ∀ s : State, ∃ t, step s = .next t

/-- The queue is first in, first out: a step removes the front command, adds none and keeps the order of the others. -/
def Obligations.QueueIsFirstInFirstOut : Prop :=
  ∀ (s t : State), step s = .next t → t.pending = s.pending.tail

/-- Every step, whatever the command, keeps the memory's canonical form: addresses strictly rising and no cell equal to what
an unlisted address reads as. What an unlisted address reads as is the model's choice (assumption 2). -/
def Obligations.MemoryStaysCanonical : Prop :=
  ∀ (s t : State), Memory.wf s.mem = true → step s = .next t → Memory.wf t.mem = true

/-- Every step, whatever the command, keeps the bounds of the stores that the spec bounds: 64 error records queued, 4 HALT
records in the sticky store, 16 pending alerts, 256 and 64 pigeonhole entries, 4,096 sessions, 65,536 trace entries. -/
def Obligations.StoresStayWithinBounds : Prop :=
  ∀ (s t : State), Capacity s → step s = .next t → Capacity t

/-- No step, whatever the command, takes back or alters what has left the node: the packets sent by the ports, the messages
of the chain and the flits of the fabric before the step are a prefix of those after it. -/
def Obligations.SentStaysSent : Prop :=
  ∀ (s t : State), step s = .next t → Emits s t

/-- The state right after reset has memory in canonical form, every bounded store within its bound, nothing sent and an
empty queue. -/
def Obligations.ResetMeetsTheInvariants : Prop :=
  Memory.wf State.reset.mem = true ∧ Capacity State.reset ∧ State.reset.pending = [] ∧
    State.reset.hxt.sent = [] ∧ State.reset.chain.out = [] ∧ State.reset.fab.out = []

/-! ## The thread sea -/

/-- LOAD of 1, 2, 4 or 8 bytes that stay within one line, from plain local memory that is readable: the integer register
holds them sign- or zero-extended (register 0 stays zero), the floating register boxed with mstatus.FS dirty; the thread has
moved on by 4, its other registers, the other threads and every byte of memory are as before. -/
def Obligations.LoadReadsItsBytes : Prop :=
  ∀ (s : State) (th n : Nat) (uns : Bool) (r rs1 : Nat) (imm : Int) (a attr : Nat),
    crosses (effAddr (thread s th) rs1 imm) n = false →
    translate s th (effAddr (thread s th) rs1 imm) n .ld = .loc a attr →
    PlainAt s a → Reachable s (clusterOf th) a n attr →
    (Issues s th [rs1, r] [] [] →
      ∃ t, exec (.load th (.int n uns r) rs1 imm) s = .next t ∧ Moves th [r] [] [] [] s t ∧ Others th s t ∧
        rx (thread t th) r = (if r = 0 then 0 else extend n uns (seen s (clusterOf th) a n attr)) ∧
        SameBytes s t ∧ AccessOnly s t) ∧
    (Issues s th [rs1] [r] [] → mFS (thread s th) ≠ 0 →
      ∃ t, exec (.load th (.fp n r) rs1 imm) s = .next t ∧ Moves th [] [r] [] [0x300] s t ∧ Others th s t ∧
        rf (thread t th) r = boxed n (leNat (seen s (clusterOf th) a n attr)) ∧
        rcsr (thread t th) 0x300 = rcsr (thread s th) 0x300 ||| 0x6000 ∧ SameBytes s t ∧ AccessOnly s t)

/-- STORE of 1 to 8 bytes that stay within one line, to plain local memory: the register's low bytes, little-endian, are
stored at the translated address (in the cluster's line, which becomes dirty, for a CACHED or STREAM stack address) and every
other byte is as before; the thread has moved on by 4, none of its registers differs, and the other threads lose at most a
reservation on that line. -/
def Obligations.StoreWritesItsBytes : Prop :=
  ∀ (s : State) (th n : Nat) (uns : Bool) (r rs1 : Nat) (imm : Int) (a attr : Nat), n < 64 →
    crosses (effAddr (thread s th) rs1 imm) n = false →
    translate s th (effAddr (thread s th) rs1 imm) n .st = .loc a attr →
    PlainAt s a → Reachable s (clusterOf th) a n attr →
    (Issues s th [rs1, r] [] [] →
      ∃ t, exec (.store th (.int n uns r) rs1 imm) s = .next t ∧ Moves th [] [] [] [] s t ∧ OthersBut th a s t ∧
        StoredAt s t (clusterOf th) a attr (leBytes n (rx (thread s th) r).toNat) ∧ AccessOnly s t) ∧
    (Issues s th [rs1] [r] [] → mFS (thread s th) ≠ 0 →
      ∃ t, exec (.store th (.fp n r) rs1 imm) s = .next t ∧ Moves th [] [] [] [] s t ∧ OthersBut th a s t ∧
        StoredAt s t (clusterOf th) a attr (leBytes n (rf (thread s th) r).toNat) ∧ AccessOnly s t)

/-- On an aligned plain local address: AMO gives rd the old word sign-extended and stores the operation's result there and
nowhere else; LR (CACHED) gives rd the word and holds a reservation on its address; SC (CACHED) with a reservation on the line
gives rd 0 and stores rs2, without one gives rd 1 and stores nothing; either way the reservation is gone. -/
def Obligations.AtomicsReadAndWriteOnce : Prop :=
  ∀ (s : State) (th n rd rs1 rs2 a attr : Nat), Issues s th [rd, rs1, rs2] [] [] → n = 4 ∨ n = 8 →
    (rx (thread s th) rs1).toNat % n = 0 → PlainAt s a → Reachable s (clusterOf th) a n attr →
    (translate s th (rx (thread s th) rs1).toNat n .st = .loc a attr →
      (∀ op, ∃ t, exec (.amo th op n rd rs1 rs2) s = .next t ∧ Moves th [rd] [] [] [] s t ∧ OthersBut th a s t ∧
        rx (thread t th) rd =
          (if rd = 0 then 0 else sext64 (8 * n) (leNat (seen s (clusterOf th) a n attr))) ∧
        StoredAt s t (clusterOf th) a attr
          (leBytes n (amoVal op n (leNat (seen s (clusterOf th) a n attr)) (rx (thread s th) rs2).toNat)) ∧
        AccessOnly s t) ∧
      (attr = 0 → ∃ t, exec (.lrSc th true n rd rs1 rs2) s = .next t ∧ OthersBut th a s t ∧ AccessOnly s t ∧
        thread t th = { thread s th with
          resv := none, pc := ((thread s th).pc + 4) % 2 ^ 64, x := (thread t th).x } ∧
        (∀ r, r ≠ rd → rx (thread t th) r = rx (thread s th) r) ∧
        (if ∃ r, (thread s th).resv = some r ∧ r / 64 = a / 64 then
          rx (thread t th) rd = 0 ∧ StoredAt s t (clusterOf th) a 0 (leBytes n (rx (thread s th) rs2).toNat)
        else rx (thread t th) rd = (if rd = 0 then 0 else 1) ∧ t.mem = s.mem))) ∧
    (translate s th (rx (thread s th) rs1).toNat n .ld = .loc a 0 → attr = 0 →
      ∃ t, exec (.lrSc th false n rd rs1 rs2) s = .next t ∧ Others th s t ∧
        thread t th = { thread s th with
          resv := some a, pc := ((thread s th).pc + 4) % 2 ^ 64, x := (thread t th).x } ∧
        (∀ r, r ≠ rd → rx (thread t th) r = rx (thread s th) r) ∧
        rx (thread t th) rd = (if rd = 0 then 0 else sext64 (8 * n) (leNat (seen s (clusterOf th) a n 0))) ∧
        SameBytes s t ∧ AccessOnly s t)

/-- A vector form of LOAD or STORE (unit-stride, strided, indexed, whole-register, mask), with mstatus.VS nonzero and a legal
configuration, whose element accesses all go on: the machine is the one its element accesses leave, with the thread moved on
by 4 and vstart zero, a load also marking VS dirty; nothing else differs. -/
def Obligations.VectorFormsRunTheirElements : Prop :=
  ∀ (s : State) (th : Nat) (form : MemForm) (rs1 : Nat) (imm : Int),
    (∀ n uns r, form ≠ .int n uns r) → (∀ n r, form ≠ .fp n r) →
    Issues s th (rs1 :: (formRegs form).1) (formRegs form).2.1 (formRegs form).2.2 → mVS (thread s th) ≠ 0 →
    (vPlan (thread s th) (effAddr (thread s th) rs1 imm) form).ok = true →
    ((vLoads th (vPlan (thread s th) (effAddr (thread s th) rs1 imm) form).elems (issued th s)).1 = true →
      let u := (vLoads th (vPlan (thread s th) (effAddr (thread s th) rs1 imm) form).elems (issued th s)).2
      ∃ t, exec (.load th form rs1 imm) s = .next t ∧ Moves th [] [] [] [0x008, 0x300] u t ∧ Others th u t ∧
        rcsr (thread t th) 0x008 = 0 ∧ mVS (thread t th) = 3 ∧ ThreadsOnly u t) ∧
    ((vStores th (vPlan (thread s th) (effAddr (thread s th) rs1 imm) form).elems (issued th s)).1 = true →
      let u := (vStores th (vPlan (thread s th) (effAddr (thread s th) rs1 imm) form).elems (issued th s)).2
      ∃ t, exec (.store th form rs1 imm) s = .next t ∧ Moves th [] [] [] [0x008] u t ∧ Others th u t ∧
        rcsr (thread t th) 0x008 = 0 ∧ ThreadsOnly u t)

/-- FENCE goes on when its predecessor set lacks w or every store is acknowledged and none has failed, and holds the thread
while an acknowledgement is awaited; FENCE.I removes every line of its own core's instruction cache and no other; an ECALL of
a kernel thread with a7 zero and nothing outstanding frees its context, and the last thread of a KERNEL_RUN sends the receipt
OK. -/
def Obligations.FencesAndExit : Prop :=
  ∀ (s : State) (th : Nat), canIssue s th = true →
    (∀ pred succ, bit pred 0 = false ∨ (thread s th).failedAck = none ∧ storesAcked (thread s th) = true →
      ∃ t, exec (.fence th pred succ) s = .next t ∧ Moves th [] [] [] [] s t ∧ Others th s t ∧ ThreadsOnly s t) ∧
    (∀ pred succ, bit pred 0 = true → (thread s th).failedAck = none → storesAcked (thread s th) = false →
      ∃ t, exec (.fence th pred succ) s = .next t ∧ thread t th = thread s th ∧ Others th s t ∧ ThreadsOnly s t) ∧
    (∃ t, exec (.fenceI th) s = .next t ∧ Moves th [] [] [] [] s t ∧ Others th s t ∧
      (∀ k, smGet? t.mem.iline k = if k / 2 ^ 34 = coreOf th then none else smGet? s.mem.iline k) ∧
      ThreadsOnly { s with mem := { s.mem with iline := t.mem.iline } } t) ∧
    (∀ r, (thread s th).kern = true → (thread s th).user = true → rx (thread s th) 17 = 0 →
      (thread s th).failedAck = none → (thread s th).remote = [] → req? s (thread s th).req = some r →
      let r' := { r with cause := if (thread s th).remoteUsed then r.cause ||| cORDER else r.cause }
      ∃ t, exec (.ecallExit th) s = .next t ∧ thread t th = Thread.init ∧ SameBytes s t ∧
        (1 < r.threads → Others th s t ∧ req? t r.rid = some { r' with threads := r.threads - 1 }) ∧
        (r.threads ≤ 1 → r.type = 0x0401 → Receipted s t r (receiptFor r' 0 0 0 (leBytes 4 r.rounds ++ zeros 4))))

/-- Of a thread that may issue: ESTREAM with a valid descriptor in its local store gives rd the old handle and, with a slot free
or automatic, makes estream that slot's number and the slot the declared stream, whose parcels are then issued; with none, makes
estream all ones. ESTWAIT on a delivered parcel gives rd the count delivered, on a failed stream all ones, and otherwise holds
the thread. ESTREL raises the stream's release point, after which held parcels are delivered, waiters woken and further
parcels issued. ESTOP frees the stream's slot and no other, marks its parcels in flight and leaves memory as it is. -/
def Obligations.DeclaredStreams : Prop :=
  ∀ (s : State) (th rd rs1 : Nat), Issues s th [rd, rs1] [] [] →
    let v := (rx (thread s th) rs1).toNat
    let cl := clusterOf th
    (∀ a z, ownStore s th v 32 = some a → Clean s a 32 → streamOf s th (fixedRead s a 32) = some z →
      (∀ i, slotFor s cl = some i → ∃ t u, exec (.estream th rd rs1) s = .next t ∧ t = issueStream 64 (cl * 64 + i) u ∧
        Moves th [rd] [] [] [0x8C0] s u ∧ Others th s u ∧ rcsr (thread u th) 0x8C0 = i ∧
        rx (thread u th) rd = (if rd = 0 then 0 else BitVec.ofNat 64 (rcsr (thread s th) 0x8C0)) ∧
        smGet? u.sea.streams (cl * 64 + i) = some z ∧ SameBytes s u ∧
        ∀ k, k ≠ cl * 64 + i → smGet? u.sea.streams k = smGet? s.sea.streams k) ∧
      (slotFor s cl = none → ∃ t, exec (.estream th rd rs1) s = .next t ∧ Moves th [rd] [] [] [0x8C0] s t ∧ Others th s t ∧
        rcsr (thread t th) 0x8C0 = 2 ^ 64 - 1 ∧ t.sea.streams = s.sea.streams ∧ SameBytes s t)) ∧
    (∀ z, streamAt s th (v / 2 ^ 32) = some z →
      (z.failed ≠ 0 → ∃ t, exec (.estwait th rd rs1) s = .next t ∧ Moves th [rd] [] [] [] s t ∧ Others th s t ∧
        ThreadsOnly s t ∧ rx (thread t th) rd = if rd = 0 then 0 else BitVec.allOnes 64) ∧
      (z.failed = 0 → v % 2 ^ 32 < z.delivered → ∃ t, exec (.estwait th rd rs1) s = .next t ∧ Moves th [rd] [] [] [] s t ∧
        Others th s t ∧ ThreadsOnly s t ∧ rx (thread t th) rd = if rd = 0 then 0 else BitVec.ofNat 64 z.delivered) ∧
      (z.failed = 0 → z.delivered ≤ v % 2 ^ 32 → ∃ t, exec (.estwait th rd rs1) s = .next t ∧ Others th s t ∧
        ThreadsOnly s t ∧ thread t th = { thread s th with run := .waitStream (v / 2 ^ 32) (v % 2 ^ 32) rd }) ∧
      (let k := cl * 64 + v / 2 ^ 32
       ∃ t u, exec (.estrel th rd rs1) s = .next t ∧ t = issueStream 64 k (wakeStream k (drainStream 64 k u)) ∧
        Moves th [rd] [] [] [] s u ∧ Others th s u ∧ rx (thread u th) rd = 0 ∧ u.mem = s.mem ∧
        smGet? u.sea.streams k = some { z with released := max z.released (min z.count (v % 2 ^ 32 + 1)) } ∧
        ∀ j, j ≠ k → smGet? u.sea.streams j = smGet? s.sea.streams j)) ∧
    (∀ z, streamAt s th v = some z → ∃ t, exec (.estop th rd rs1) s = .next t ∧ Moves th [rd] [] [] [] s t ∧ Others th s t ∧
      rx (thread t th) rd = 0 ∧ smGet? t.sea.streams (cl * 64 + v) = none ∧ SameBytes s t ∧
      (∀ j, j ≠ cl * 64 + v → smGet? t.sea.streams j = smGet? s.sea.streams j) ∧
      ∀ p, p ∈ t.par.flight → (∃ i, p.owner = .stream (cl * 64 + v) i) → p.dead = true)

/-- ESCSTAT_WRITE and ESLSTAT_WRITE give rd the sticky register's old value and clear exactly the bits that are ones in rs1;
a REGISTER_WRITE of either CSR clears the bits of the value written. Nothing but that register, rd and the pc differs. -/
def Obligations.StickyRegistersClearOnes : Prop :=
  ∀ (s : State) (th : Nat),
    (∀ rd rs1, Issues s th [rd, rs1] [] [] → ∀ c (cmd : Instr),
      (c = 0x8C4 ∧ cmd = .escstatWrite th rd rs1) ∨ (c = 0x8C6 ∧ cmd = .eslstatWrite th rd rs1) →
      ∃ t, exec cmd s = .next t ∧ Moves th [rd] [] [] [c] s t ∧ Others th s t ∧ ThreadsOnly s t ∧
        rx (thread t th) rd = (if rd = 0 then 0 else BitVec.ofNat 64 (rcsr (thread s th) c)) ∧
        ∀ i, (rcsr (thread t th) c).testBit i =
          ((rcsr (thread s th) c).testBit i && !(rx (thread s th) rs1).toNat.testBit i)) ∧
    (canIssue s th = true → ∀ c v, c = 0x8C4 ∨ c = 0x8C6 →
      ∃ t, exec (.registerWrite (.csr th c v)) s = .next t ∧ Moves th [] [] [] [c] s t ∧ Others th s t ∧ ThreadsOnly s t ∧
        ∀ i, (rcsr (thread t th) c).testBit i = ((rcsr (thread s th) c).testBit i && !v.toNat.testBit i))

/-- ERANGE over `n` bytes from local address `a`, `n` being the length in rs2 up to 256 KiB: WB and FLUSH write every covered
dirty line back to its home, byte for byte; WB leaves the line held and clean, FLUSH and INV leave no covered line; INV
discards dirty data. Every other line and every other byte is as before, rd receives the bytes not yet covered. -/
def Obligations.RangeOperations : Prop :=
  ∀ (s : State) (th : Nat) (w : W32) (op a : Nat) (cmd : Instr),
    (op = 0 ∧ cmd = .wb th w) ∨ (op = 1 ∧ cmd = .flush th w) ∨ (op = 2 ∧ cmd = .inv th w) →
    Issues s th [wRd w, wRs1 w, wRs2 w] [] [] → rangeLegal (thread s th) op w = true →
    let va := (rx (thread s th) (wRs1 w)).toNat
    let len := (rx (thread s th) (wRs2 w)).toNat
    let n := min len 0x40000
    let cl := clusterOf th
    let cov := fun x => a / 64 ≤ x / 64 ∧ x / 64 * 64 < a + n ∧ x / 64 < 2 ^ 34
    (op = 2 → va % 64 = 0 ∧ len % 64 = 0) → n ≠ 0 → coverOf s th op va n = .here a →
    (∀ x, cov x → rowBroken s (rowId x) = false) →
    ∃ t, exec cmd s = .next t ∧ Moves th [wRd w] [] [] [] s t ∧ Others th s t ∧
      rx (thread t th) (wRd w) = (if wRd w = 0 then 0 else BitVec.ofNat 64 (len - n)) ∧
      (∀ x, cov x → ∀ l, smGet? s.mem.lines (lineKey cl x) = some l →
        smGet? t.mem.lines (lineKey cl x) = (if op = 0 then some { l with dirty := false } else none) ∧
        memByte t x = if op ≠ 2 ∧ l.dirty = true then (leBytes 64 l.data.toNat).getD (x % 64) 0 else memByte s x) ∧
      (∀ k, (∀ x, cov x → k ≠ lineKey cl x) → smGet? t.mem.lines k = smGet? s.mem.lines k) ∧
      (∀ x, ¬ cov x ∨ smGet? s.mem.lines (lineKey cl x) = none → memByte t x = memByte s x)

/-- PREFETCH_FILL of an automatic stream's next line, near enough, not past its end and readable, brings in the line clean and
moves the stream on by its stride, with no byte changed. REMOTE_ACCESS_TIMEOUT after 16 frames keeps a store's failure for the
next FENCE, and stops the thread of a load. ITEM_STEAL moves the last movable item of the longest queue inspected and counts
it. BUDGET_SPENT pauses exactly the tenant's running kernel threads on that core and counts the pause. -/
def Obligations.SeaEvents : Prop :=
  ∀ s : State,
    (∀ cl slot line z, slot < 64 → smGet? s.sea.streams (cl * 64 + slot) = some z → z.declared = false → line = z.nextLine →
      ((z.nextLine : Int) - z.cur).natAbs ≤ z.aheadLines * z.stride.natAbs → line ≤ z.endLine → z.unused < 256 →
      prefetchable s line = true → smGet? s.mem.lines (lineKey cl line) = none → (clusterLines s cl).length < 262144 →
      ∃ t, exec (.prefetchFill cl slot line) s = .next t ∧ SameBytes s t ∧ t.sea.threads = s.sea.threads ∧
        smGet? t.mem.lines (lineKey cl line) =
          some ⟨BitVec.ofNat 512 (leNat (fixedRead s line 64)), false, false, slot + 1⟩ ∧
        (∀ k, k ≠ lineKey cl line → smGet? t.mem.lines k = smGet? s.mem.lines k) ∧
        smGet? t.sea.streams (cl * 64 + slot) =
          some { z with unused := z.unused + 1, nextLine := ((z.nextLine : Int) + z.stride).toNat }) ∧
    (∀ th tag r, (thread s th).remote.find? (fun r => r.tag == tag) = some r → r.at_ + 16 * frameCycles ≤ s.clk.now →
      (r.kind = .ack → ∃ t, exec (.remoteAccessTimeout th tag) s = .next t ∧ Others th s t ∧
        thread t th = { thread s th with remote := (thread s th).remote.filter (fun x => x.tag != tag)
                                         failedAck := some ((thread s th).failedAck.getD (r.va, 0x42)) } ∧
        t = { s with sea := { s.sea with threads := t.sea.threads } }) ∧
      (r.kind ≠ .ack → (thread s th).kern = true → ∃ t, exec (.remoteAccessTimeout th tag) s = .next t ∧
        thread t th = Thread.init ∧ req? t (thread s th).req = none)) ∧
    (∀ c v n i, s.sea.balance = true → itemsOf s c = [] → c < nClusters s →
      longestQueue s ((ringOrder s c).take 4) = some (v, n) → v ≠ c →
      ((itemsOf s v).filter (fun i => !i.strict)).getLast? = some i →
      ∃ t, exec (.itemSteal c) s = .next t ∧ itemsOf t c = [i] ∧ itemsOf t v = (itemsOf s v).erase i ∧
        (∀ k, k ≠ c → k ≠ v → itemsOf t k = itemsOf s k) ∧ t.mem = s.mem ∧ t.sea.threads = s.sea.threads ∧
        dirNum t (ent 0xC010 5) = min (2 ^ 64 - 1) (dirNum s (ent 0xC010 5) + 1)) ∧
    (∀ core tn, dirNum s (ent (0x3500 + tn) 1) ≤ smGetD s.sea.spent (core * 64 + tn) 0 → (core, tn) ∉ s.sea.pausedOn →
      ∃ t, exec (.budgetSpent core tn) s = .next t ∧ (core, tn) ∈ t.sea.pausedOn ∧ t.mem = s.mem ∧
        (∀ k, thread t k = if k / 16 = core ∧ (thread s k).kern = true ∧ (thread s k).tenant = tn ∧
          (thread s k).run = .running then { thread s k with run := .paused } else thread s k) ∧
        dirNum t (ent 0xC010 6) = min (2 ^ 64 - 1) (dirNum s (ent 0xC010 6) + 1))

/-! ## Scoring and shortlists -/

/-- A legal EDOT gives every lane i of vd the exact sum of the products of row i (bytes 16 (i mod 4) and up of register
vs1 + ⌊i/4⌋, two int4 values a byte in the int4 form) with the query slice of vs2, added to the old lane and saturated to
int32 with acc set; ISAT is set exactly when a lane saturates and stays as it was otherwise; VS becomes Dirty, the thread moves
on by 4, and no other register, thread, memory or unit differs. All sources are read before vd is written. -/
def Obligations.EdotSumsProducts : Prop :=
  ∀ (s : State) (th : Nat) (w : W32), Issues s th [] [] (regs4 (wRs1 w) ++ [wRs2 w, wRd w]) → edotLegal w = true →
    scoreReady (thread s th) w = true →
    let v := thread s th
    let k := bits w.toNat 28 27
    let sum := fun (i : Nat) =>
      if bits w.toNat 31 29 = 0 then
        ((upFrom 0 16).map (fun j => sgn 8 (vbyte (rv v (wRs1 w + i / 4)) (16 * (i % 4) + j))
          * sgn 8 (vbyte (rv v (wRs2 w)) (16 * k + j)))).sum
      else
        ((upFrom 0 32).map (fun j => sgn 4 (lane 4 (rv v (wRs1 w + i / 4)) (32 * (i % 4) + j))
          * sgn 8 (vbyte (rv v (wRs2 w)) (32 * k + j)))).sum
    let y := fun (i : Nat) => (if bit w.toNat 26 then sgn 32 (lane 32 (rv v (wRd w)) i) else 0) + sum i
    ∃ t, exec (.edot th w) s = .next t ∧ Moves th [] [] [wRd w] [0x8C4, 0x300] s t ∧ Others th s t ∧ ThreadsOnly s t ∧
      (∀ i, i < 16 → lane 32 (rv (thread t th) (wRd w)) i = wrap 32 (satInt 32 (y i))) ∧
      rcsr (thread t th) 0x8C4 =
        (if ∃ i, i < 16 ∧ satInt 32 (y i) ≠ y i then rcsr (thread s th) 0x8C4 ||| 1 else rcsr (thread s th) 0x8C4) ∧
      rcsr (thread t th) 0x300 = rcsr (thread s th) 0x300 ||| 0x600

/-- A legal EDOTF gives each lane of vd the rounded sum of its row and ORs the lanes' flags into fflags, VS and FS becoming
Dirty. A legal ERESCALE gives element i of the chosen slice of vd the product of lane i with its multiplier, shifted right with
rounding half away from zero and saturated to the output format; other elements of vd keep their values; each saturated lane
adds one to esatcnt, which stops at all ones, and any saturation sets RSAT. Nothing else differs. -/
def Obligations.FloatDotsAndRescale : Prop :=
  ∀ (s : State) (th : Nat) (w : W32),
    (Issues s th [] [] (regs4 (wRs1 w) ++ [wRs2 w, wRd w]) → edotfLegal (thread s th) w = true →
      scoreReady (thread s th) w = true →
      ∃ t, exec (.edotf th w) s = .next t ∧ Moves th [] [] [wRd w] [0x003, 0x300] s t ∧ Others th s t ∧ ThreadsOnly s t ∧
        (∀ i, i < 16 → lane 32 (rv (thread t th) (wRd w)) i = (edotfLane (thread s th) w i).1 % 2 ^ 32) ∧
        (∀ b, b < 64 → (rcsr (thread t th) 0x003).testBit b =
          ((rcsr (thread s th) 0x003).testBit b || (upFrom 0 16).any (fun i => (edotfLane (thread s th) w i).2.testBit b))) ∧
        rcsr (thread t th) 0x300 = rcsr (thread s th) 0x300 ||| 0x6600) ∧
    (Issues s th [] [] [wRs1 w, wRs2 w, wRs2 w + 1, wRd w] → erescaleLegal w = true → scoreReady (thread s th) w = true →
      let v := thread s th
      let n := outBits (bits w.toNat 31 30)
      let k := bits w.toNat 29 27
      let y := fun (i : Nat) =>
        let j := if bit w.toNat 26 then 0 else i
        rescale (sgn 32 (lane 32 (rv v (wRs1 w)) i)) (sgn 32 (lane 32 (rv v (wRs2 w)) j))
          (lane 32 (rv v (wRs2 w + 1)) j % 64)
      let c := ((upFrom 0 16).filter (fun i => satInt n (y i) != y i)).length
      ∃ t, exec (.erescale th w) s = .next t ∧ Moves th [] [] [wRd w] [0x8C4, 0x8C5, 0x300] s t ∧ Others th s t ∧
        ThreadsOnly s t ∧
        (∀ e, e < 512 / n → lane n (rv (thread t th) (wRd w)) e =
          if 16 * k ≤ e ∧ e < 16 * k + 16 then wrap n (satInt n (y (e - 16 * k))) else lane n (rv v (wRd w)) e) ∧
        rcsr (thread t th) 0x8C5 = min (2 ^ 64 - 1) (rcsr v 0x8C5 + c) ∧
        rcsr (thread t th) 0x8C4 = (if c = 0 then rcsr v 0x8C4 else rcsr v 0x8C4 ||| 2) ∧
        rcsr (thread t th) 0x300 = rcsr v 0x300 ||| 0x600)

/-- INSERT and INSERTV leave the named list as its candidates, offered in order, leave it, return the result word and set the
flags met; a list in order with distinct ids and within its bound stays so. RESET empties the list with the configuration in
rs1 and returns 0. FLOOR changes no list and returns the result word. DRAIN writes the entries, 16 bytes each, at the address
in rs1, returns their count and changes no list. No other list, register, thread or byte differs. -/
def Obligations.ShortlistInstructions : Prop :=
  ∀ (s : State) (th : Nat) (w : W32),
    let v := thread s th
    let i := wList w
    (∀ (cmd : Instr) (es : List Ent),
      cmd = .insert th w ∧ es = insertCands v w ∧ Issues s th [wRs1 w, wRs2 w, wRd w] [] [] ∧ eslReady v w 0 false = true ∨
      cmd = .insertv th w ∧ es = insertvCands v w ∧ Issues s th [wRs2 w, wRd w] [] [wRs1 w, 0] ∧
        eslReady v w 1 true = true ∧ rcsr v 0x008 = 0 ∧ mVS v ≠ 0 →
      let o := offerAll (ulist v i) es
      ∃ t, exec cmd s = .next t ∧ MovesLists th [wRd w] [0x8C6] [i] s t ∧ Others th s t ∧ t.mem = s.mem ∧
        ulist (thread t th) i = o.1 ∧ (ListOk (ulist v i) → ListOk (ulist (thread t th) i)) ∧
        rx (thread t th) (wRd w) = (if wRd w = 0 then 0 else BitVec.ofNat 64 (resultWord o.1 o.2.1)) ∧
        rcsr (thread t th) 0x8C6 = rcsr v 0x8C6 ||| o.2.2.foldl (fun a b => a ||| b) 0) ∧
    (Issues s th [wRs1 w, wRd w] [] [] → eslReady v w 2 false = true → resetLegal (rx v (wRs1 w)).toNat = true →
      let c := (rx v (wRs1 w)).toNat
      ∃ t, exec (.eslReset th w) s = .next t ∧ MovesLists th [wRd w] [] [i] s t ∧ Others th s t ∧ ThreadsOnly s t ∧
        rx (thread t th) (wRd w) = 0 ∧
        ulist (thread t th) i = ⟨bits c 6 0, bit c 8, bit c 9, []⟩ ∧ ListOk (ulist (thread t th) i)) ∧
    (Issues s th [wRd w] [] [] → eslReady v w 4 false = true →
      ∃ t, exec (.floor th w) s = .next t ∧ Moves th [wRd w] [] [] [] s t ∧ Others th s t ∧ ThreadsOnly s t ∧
        rx (thread t th) (wRd w) =
          if wRd w = 0 then 0 else BitVec.ofNat 64 (resultWord (ulist v i) false)) ∧
    (∀ a, Issues s th [wRs1 w, wRd w] [] [] → eslReady v w 3 false = true → (rx v (wRs1 w)).toNat % 16 = 0 →
      let b := (ulist v i).ents.flatMap entBytes
      b = [] ∨ ownStore s th (rx v (wRs1 w)).toNat b.length = some a ∧ Clean s a b.length →
      ∃ t, exec (.drain th w) s = .next t ∧ Moves th [wRd w] [] [] [] s t ∧ Others th s t ∧
        rx (thread t th) (wRd w) = (if wRd w = 0 then 0 else BitVec.ofNat 64 (ulist v i).ents.length) ∧
        ∀ x, memByte t x = if a ≤ x ∧ x < a + b.length then b.getD (x - a) 0 else memByte s x)

/-- ESLMRG with a valid descriptor and both sources in order writes, at the destination and nowhere else, the reduced entries
of A and B with the padding asked for, and returns count and flags; the entries it writes are in the order of R86 with distinct
ids, at most k of them or 2k with ties. ECOMPACT gives lane j of vd the number of the j-th selected lane, zero beyond, ecmpcnt
their count, and sets NAN exactly when it met a NaN. -/
def Obligations.MergeAndCompact : Prop :=
  ∀ (s : State) (th : Nat) (w : W32),
    let v := thread s th
    (∀ da d a b c, Issues s th [wRs1 w, wRd w] [] [] → wOpcode w = 0x2B → wF3 w = 1 → wF7 w = 0 → wRs2 w = 0 → mXS v ≠ 0 →
      (rx v (wRs1 w)).toNat % 64 = 0 → ownStore s th (rx v (wRs1 w)).toNat 64 = some da → Clean s da 64 →
      mdescOf (fixedRead s da 64) = some d → mergePlaces s th d = some (a, b, c) → Clean s a (16 * d.countA) →
      Clean s b (16 * d.countB) → Clean s c (16 * (if d.ties then 2 * d.k else d.k)) →
      let xa := readEnts s a d.countA
      let xb := readEnts s b d.countB
      (orderedPrefix d.fp xa).2 = false → (orderedPrefix d.fp xb).2 = false →
      let m := mergeEnts d.fp xa xb
      let r := reduceTies d.fp d.ties d.k m.ents
      let out := r.1 ++ List.replicate (if d.pad then d.k - r.1.length else 0) (sentinelEnt d.fp)
      r.1.Pairwise (fun x y => precedes d.fp x y = true ∧ x.id ≠ y.id) ∧
      r.1.length ≤ (if d.ties then 2 * d.k else d.k) ∧
      ∃ t, exec (.eslmrg th w) s = .next t ∧ Moves th [wRd w] [] [] [0x8C6] s t ∧ Others th s t ∧
        rx (thread t th) (wRd w) = (if wRd w = 0 then 0 else BitVec.ofNat 64
          (fld (b01 (decide (r.1.length < d.k))) 63 + fld (b01 r.2) 62 + fld (b01 m.nan) 60 + r.1.length)) ∧
        ∀ x, memByte t x =
          if c ≤ x ∧ x < c + (out.flatMap entBytes).length then (out.flatMap entBytes).getD (x - c) 0 else memByte s x) ∧
    (Issues s th [wRs2 w] [] [wRs1 w, wRd w, 0] → ecompactReady v w = true →
      let e := ecSelect v w
      ∃ t, exec (.ecompact th w) s = .next t ∧ Moves th [] [] [wRd w] [0x8C6, 0xCC3, 0x300] s t ∧ Others th s t ∧
        t.mem = s.mem ∧ rcsr (thread t th) 0xCC3 = e.1.length ∧
        (∀ j, j < 32 → lane 16 (rv (thread t th) (wRd w)) j = e.1.getD j 0) ∧
        rcsr (thread t th) 0x8C6 = (if e.2 = 0 then rcsr v 0x8C6 else rcsr v 0x8C6 ||| 1) ∧
        rcsr (thread t th) 0x300 = rcsr v 0x300 ||| 0x600)

/-- EPOST of an allowed letter, with room in the core's outbound queue and every store acknowledged, appends the letter with
the node's stamp of the sender and counts it. ERECV with a letter held writes its 64 bytes at the address in rs1, removes it and
returns the count held before; with none held it returns 0 and writes nothing. EWAIT with a letter held returns the count;
with none it holds the thread. EWAIT_LIMIT of a thread whose limit has passed in a running cluster returns the count held. -/
def Obligations.LettersOfAThread : Prop :=
  ∀ (s : State) (th : Nat),
    let v := thread s th
    (∀ (w : W32) (a : Nat), Issues s th [wRs1 w, wRs2 w] [] [] → epostLegal v w = true →
      let x := (rx v (wRs1 w)).toNat
      let n := 8 * epostLen w
      epostDest v (bits x 31 0) = true → epostBody s th (rx v (wRs2 w)).toNat n = some a → writesAcked v = true →
      (outq s (coreOf th)).length < 16 → Clean s a n →
      ∃ t, exec (.epost th w) s = .next t ∧ Moves th [] [] [] [] s t ∧ Others th s t ∧ SameBytes s t ∧
        outq t (coreOf th) = outq s (coreOf th) ++
          [{ srcPost := recPost s, source := 8192 + th, sys := !v.user, tenant := if v.user then v.tenant else 0, len := n,
             mark := bits x 63 32, dest := bits x 31 0, body := slice (fixedRead s a n) 0 48 }] ∧
        (∀ c, c ≠ coreOf th → outq t c = outq s c) ∧
        dirNum t (ent 0xC090 1) = min (entMax (ent 0xC090 1)) (dirNum s (ent 0xC090 1) + 1)) ∧
    (∀ rd rs1 a, Issues s th [rd, rs1] [] [] → (rx v rs1).toNat % 64 = 0 → ownStore s th (rx v rs1).toNat 64 = some a →
      Clean s a 64 →
      (v.box = [] → ∃ t, exec (.erecv th rd rs1) s = .next t ∧ Moves th [rd] [] [] [] s t ∧ Others th s t ∧
        ThreadsOnly s t ∧ rx (thread t th) rd = 0) ∧
      (∀ l rest, v.box = l :: rest → ∃ t u, exec (.erecv th rd rs1) s = .next t ∧ t = retryKnocks u ∧ Others th s u ∧
        (thread u th).box = rest ∧ (thread u th).pc = (v.pc + 4) % 2 ^ 64 ∧
        rx (thread u th) rd = (if rd = 0 then 0 else BitVec.ofNat 64 v.box.length) ∧
        (∀ r, r ≠ rd → rx (thread u th) r = rx v r) ∧
        ∀ x, memByte u x = if a ≤ x ∧ x < a + 64 then (letterBytes l).getD (x - a) 0 else memByte s x)) ∧
    (∀ rd rs1, Issues s th [rd, rs1] [] [] →
      (v.box ≠ [] → ∃ t, exec (.ewait th rd rs1) s = .next t ∧ Moves th [rd] [] [] [] s t ∧ Others th s t ∧
        ThreadsOnly s t ∧ rx (thread t th) rd = if rd = 0 then 0 else BitVec.ofNat 64 v.box.length) ∧
      (v.box = [] → ∃ t, exec (.ewait th rd rs1) s = .next t ∧ Others th s t ∧ ThreadsOnly s t ∧
        thread t th = { v with run := .waitLetter s.clk.now (rx v rs1).toNat rd })) ∧
    (∀ since lim rd, v.run = .waitLetter since lim rd → lim ≠ 0 → since + lim ≤ s.clk.now →
      clState s (clusterOf th) = .run → ∃ t, exec (.ewaitLimit th) s = .next t ∧ Others th s t ∧ t.mem = s.mem ∧
        (thread t th).run = .running ∧ (thread t th).pc = (v.pc + 4) % 2 ^ 64 ∧
        rx (thread t th) rd = (if rd = 0 then 0 else BitVec.ofNat 64 v.box.length) ∧
        ∀ r, r ≠ rd → rx (thread t th) r = rx v r)

/-! ## Circulars -/

/-- For every value of the eight fields of a micro-operation within their widths, the fields read from the word that Table 5-3
gives are those values; and every 64-bit word is the word of its fields, so that no bit is dropped. -/
def Obligations.MicroOperationWordsRoundTrip : Prop :=
  (∀ m : Mic, m.wf = true → micOf (micWord m) = m) ∧ ∀ w : W64, (micOf w).wf = true ∧ micWord (micOf w) = w

/-- A load that is accepted has code 0; every word of its program agrees with its complement; no step of the unrolled program
exceeds 60 row cycles, END is met, no REPEAT has zero iterations and no word breaks the format; its ring is large enough for the
stacks of its mask and lies in a local store or L2 scratch; the queue held fewer than 4 circulars. -/
def Obligations.AcceptedCircularsAreBounded : Prop :=
  ∀ (s t : State) (k addr rid code : Nat) (c : Circ), checkLoad k addr rid s = (code, some c, t) →
    code = 0 ∧ (∀ p, p ∈ c.prog → p.2 = ~~~p.1) ∧
    (let r := checkProg (c.prog.map (fun p => micOf p.1))
     r.big ≤ 60 ∧ r.ended = true ∧ r.zero = false ∧ r.bad = false) ∧
    ringNeed c.mask c.limit ≤ c.ringBytes ∧ ringPlaced t c.ring = true ∧ c.mask ≠ 0 ∧ (seqr t k).queue.length < 4

/-- From a machine-mode thread that may issue: CLOAD adds the load to its stack and makes the stack active; CSTART starts, in
every stack of the mask that holds the sequence unstarted, the first such circular and sets smiss in the others of the mask;
CABORT of a running circular marks it to stop and discards those queued. A user-mode kernel thread is stopped instead. A load
that finishes is queued with refusal 0, or leaves its code and no circular. A write of one to CSTAT bit 5 clears smiss. -/
def Obligations.CircularRegisters : Prop :=
  ∀ (s : State) (th : Nat), canIssue s th = true →
    ((thread s th).user = false →
      (∀ k addr, k < 16 → ∃ t, exec (.cload th k addr) s = .next t ∧ Moves th [] [] [] [] s t ∧ Others th s t ∧
        seqr t k = { seqr s k with loads := (seqr s k).loads ++ [(addr, (thread s th).req)] } ∧
        (∀ j, j ≠ k → seqr t j = seqr s j) ∧ smGet? t.pwr.stPower k = none ∧ t.mem = s.mem) ∧
      (∀ v, ∃ t, exec (.cstart th v) s = .next t ∧ Moves th [] [] [] [] s t ∧ Others th s t ∧ t.mem = s.mem ∧
        ∀ k, seqr t k =
          if 16 ≤ k ∨ (v % 65536).testBit k = false then seqr s k
          else if (seqr s k).queue.any (fun c => c.seq == bits v 63 32 && !c.started) then
            { seqr s k with queue := startFirst (bits v 63 32) (seqr s k).queue }
          else { seqr s k with smiss := true }) ∧
      (∀ k v c rest, k < 16 → (seqr s k).queue = c :: rest → c.seq = v % 2 ^ 32 → (seqr s k).phase = .run →
        ∃ t, exec (.cabort th k v) s = .next t ∧ Moves th [] [] [] [] s t ∧ Others th s t ∧ t.mem = s.mem ∧
          seqr t k = { seqr s k with queue := [c], aborting := true } ∧ ∀ j, j ≠ k → seqr t j = seqr s j)) ∧
    ((thread s th).user = true → (thread s th).kern = true → ∀ cmd : Instr,
      (∃ k a, cmd = .cload th k a) ∨ (∃ v, cmd = .cstart th v) ∨ (∃ k v, cmd = .cabort th k v) →
      ∃ t, exec cmd s = .next t ∧ thread t th = Thread.init ∧ ∀ k, (seqr t k).queue = (seqr s k).queue) ∧
    (∀ k addr rid rest c u, k < 16 → (seqr s k).loads = (addr, rid) :: rest →
      checkLoad k addr rid (onSeqr k (fun q => { q with loads := rest }) s) = (0, some c, u) →
      ∃ t, exec (.circularLoadDone k) s = .next t ∧ t.mem = u.mem ∧
        seqr t k = { seqr u k with queue := (seqr u k).queue ++ [c], refusal := 0 } ∧ ∀ j, j ≠ k → seqr t j = seqr u j) ∧
    (∀ k addr rid rest code u, k < 16 → (seqr s k).loads = (addr, rid) :: rest →
      checkLoad k addr rid (onSeqr k (fun q => { q with loads := rest }) s) = (code, none, u) →
      ∃ t, exec (.circularLoadDone k) s = .next t ∧ (seqr t k).refusal = code ∧ (seqr t k).queue = (seqr u k).queue ∧
        (refusalStatus code ≠ 0 → req? t rid = none)) ∧
    (∀ a off k v, s.phase = .serving → region s a = .engine off → eregOf s off = some (.cstat k) → bit v 5 = true →
      ∃ t, exec (.registerWrite (.engine a v)) s = .next t ∧ seqr t k = { seqr s k with smiss := false } ∧ StackOnly k s t)

/-- A started circular at the head of an idle stack launches at its first word with both latches zero in every bank. END
without an abort or an end seal counts the last step and leaves the stack to compact. The completion record of a circular
without hit output writes its 64 bytes into the ring and nothing else into memory; the circular leaves the queue, the stack is
idle, last_sequence names it and the count of circulars rises by one. -/
def Obligations.CircularsLaunchAndComplete : Prop :=
  ∀ (s : State) (k : Nat) (c : Circ) (rest : List Circ), (seqr s k).queue = c :: rest →
    ((seqr s k).phase = .idle → c.started = true → c.descBad = false → (seqr s k).out = false → launchPaced s = false →
      s.path.pass = none →
      ∃ t, exec (.circularLaunch k) s = .next t ∧ (seqr t k).phase = .run ∧ (seqr t k).seq = c.seq ∧ (seqr t k).pcw = 0 ∧
        (∀ d b, latchVal (seqr t k) d b = 0) ∧ (seqr t k).steps = 0 ∧ (seqr t k).postponed = 0 ∧
        (seqr t k).refreshes = (seqr s k).postponed ∧ (seqr t k).queue = c :: rest ∧ t.mem = s.mem ∧
        ∀ j, j ≠ k → seqr t j = seqr s j) ∧
    (∀ m, AtWord s k 0x00 c m → (seqr s k).aborting = false → c.endSeal = 0 →
      ∃ t, exec (.micEnd k) s = .next t ∧ (seqr t k).phase = .compact ∧ (seqr t k).steps = (seqr s k).steps + 1 ∧
        (seqr t k).queue = c :: rest ∧ (seqr t k).status = (seqr s k).status ∧ t.mem = s.mem ∧
        (∀ j, j ≠ k → seqr t j = seqr s j) ∧
        dirNum t (ent 0x7010 2) = min (2 ^ 64 - 1) (dirNum s (ent 0x7010 2) + 1)) ∧
    ((seqr s k).phase = .compact → (seqr s k).status = 0 → (seqr s k).faulted = [] → c.hit = false → c.knock = 0 →
      (∀ p, p ∈ (seqr s k).railFaults → p.2 < dirNum s (ent 0x7010 0xA)) →
      let rec64 := completionBytes s k c 0
      ∃ t, exec (.completionRecord k) s = .next t ∧ rec64.length = 64 ∧
        (∀ x, memByte t x = if ringBase c k + c.ringPos ≤ x ∧ x < ringBase c k + c.ringPos + 64
          then rec64.getD (x - (ringBase c k + c.ringPos)) 0 else memByte s x) ∧
        (seqr t k).queue = rest ∧ (seqr t k).phase = .idle ∧ (∀ j, j ≠ k → seqr t j = seqr s j) ∧
        dirNum t (ent (0x7020 + k) 4) = c.seq ∧ dirNum t (ent (0x7020 + k) 3) = 0 ∧
        dirNum t (ent 0x7010 1) = min (2 ^ 64 - 1) (dirNum s (ent 0x7010 1) + 1))

/-- At a word of its operation, each of LD, AND, OR, XOR, XNOR, ANDN, NOT, MAJ, FILLQ and FILLT gives the destination latch of
every bank in service of that stack the value of Table 5-4, from the bank's own latch, operand row or other latch, query bit or
threshold bit; the other latch of every bank and every bank out of service keep theirs; the program position moves on and the
word's one row cycle is counted; no row, no other stack and no other unit differs. -/
def Obligations.LatchOperations : Prop :=
  ∀ (s : State) (k : Nat) (c : Circ) (m : Mic) (cmd : Instr) (op : Nat) (f : Nat → Row → Row),
    AtWord s k op c m →
    (cmd, op) ∈ [(Instr.micLd k, 0x08), (.micAnd k, 0x09), (.micOr k, 0x0A), (.micXor k, 0x0B), (.micXnor k, 0x0C),
      (.micAndn k, 0x0D), (.micNot k, 0x0E), (.micMaj k, 0x0F), (.micFillq k, 0x10), (.micFillt k, 0x11)] →
    (∀ b l, f b l =
      let o := operandOf s k b c m
      let q := (latchRec c b).query
      match op with
      | 0x08 => o
      | 0x09 => l &&& o
      | 0x0A => l ||| o
      | 0x0B => l ^^^ o
      | 0x0C => ~~~(l ^^^ o)
      | 0x0D => l &&& ~~~o
      | 0x0E => ~~~l
      | 0x0F =>
        let x := rowBits s k b (railRow m m.ra q)
        let y := rowBits s k b m.rb
        (l &&& x) ||| (l &&& y) ||| (x &&& y)
      | 0x10 => if q.toNat.testBit m.qbit then BitVec.allOnes 8192 else 0
      | _ => if (latchRec c b).threshold.testBit (m.qbit % 16) then BitVec.allOnes 8192 else 0) →
    ∃ t, exec cmd s = .next t ∧ StackOnly k s t ∧
      (∀ d b, d < 2 → latchVal (seqr t k) d b =
        if (d = 0 ↔ m.d = 0) ∧ b ∈ banksIn s k then f b (latchVal (seqr s k) d b) else latchVal (seqr s k) d b) ∧
      (seqr t k).cyc = (seqr s k).cyc + 1 ∧ (seqr t k).pcw = (micNext (seqr s k)).pcw ∧
      (seqr t k).loop = (micNext (seqr s k)).loop ∧ (seqr t k).queue = (seqr s k).queue ∧ (seqr t k).phase = .run

/-- In every bank in service: WR stores the latch in its row, or the complement in the partner row, leaves that row unsealed,
and changes no other byte; SEAL leaves its rows sealed and changes no byte; SEALC seals exactly the pairs whose rows are
complements and leaves the others as they are; RCHK names exactly the banks whose pair is not, besides those named before.
STEP counts a step, performs a refresh fallen due and goes on; REPEAT enters its body with its strides. -/
def Obligations.RowOperations : Prop :=
  ∀ (s : State) (k : Nat) (c : Circ) (m : Mic), k < 16 →
    let r := micRow m
    let same := fun (t : State) => (seqr t k).pcw = (micNext (seqr s k)).pcw ∧ (seqr t k).loop = (micNext (seqr s k)).loop ∧
      (seqr t k).queue = (seqr s k).queue ∧ ∀ j, j ≠ k → seqr t j = seqr s j
    (AtWord s k 0x18 c m → r < 65536 →
      let row := if m.rail = 1 then partner r else r
      ∃ t, exec (.micWr k) s = .next t ∧ same t ∧
        (∀ b, b ∈ banksIn s k → rowUnsealed t (rowId (rowAddr k b row)) = true ∧
          rowBits t k b row = if m.rail = 1 then ~~~(latchVal (seqr s k) m.d b) else latchVal (seqr s k) m.d b) ∧
        ∀ x, (∀ b, b ∈ banksIn s k → rowId x ≠ rowId (rowAddr k b row)) → memByte t x = memByte s x ∧
          rowUnsealed t (rowId x) = rowUnsealed s (rowId x)) ∧
    (AtWord s k 0x1D c m → r + m.imm ≤ 65536 →
      ∃ t, exec (.micSeal k) s = .next t ∧ same t ∧ SameBytes s t ∧
        ∀ b row, b < 1024 → row < 65536 → rowUnsealed t (rowId (rowAddr k b row)) =
          (rowUnsealed s (rowId (rowAddr k b row)) && !(decide (b ∈ banksIn s k) && decide (r ≤ row) && decide (row < r + m.imm)))) ∧
    (AtWord s k 0x1E c m → r % 2 = 0 → m.imm % 2 = 0 → r + m.imm ≤ 65536 →
      ∃ t, exec (.micSealc k) s = .next t ∧ same t ∧ SameBytes s t ∧
        ∀ b row, b < 1024 → row < 65536 → rowUnsealed t (rowId (rowAddr k b row)) =
          (rowUnsealed s (rowId (rowAddr k b row)) && !(decide (b ∈ banksIn s k) && decide (r ≤ row) &&
            decide (row < r + m.imm) && pairGood s k b (row / 2 * 2)))) ∧
    (AtWord s k 0x1C c m →
      ∃ t, exec (.micRchk k) s = .next t ∧ same t ∧ SameBytes s t ∧
        ∀ b, b ∈ (seqr t k).faulted ↔ b ∈ (seqr s k).faulted ∨ b ∈ banksIn s k ∧ pairGood s k b r = false) ∧
    (AtWord s k 0x01 c m → (seqr s k).aborting = false →
      ∃ t, exec (.micStep k) s = .next t ∧ same t ∧ (seqr t k).steps = (seqr s k).steps + 1 ∧ (seqr t k).cyc = 0 ∧
        (seqr t k).refreshDue = false ∧
        (seqr t k).refreshes = (seqr s k).refreshes + b01 (seqr s k).refreshDue ∧ (seqr t k).phase = .run) ∧
    (AtWord s k 0x02 c m → (seqr s k).loop = none →
      ∃ t, exec (.micRepeat k) s = .next t ∧ StackOnly k s t ∧ (seqr t k).pcw = (seqr s k).pcw + 1 ∧
        (seqr t k).loop = some ⟨(seqr s k).pcw + 1, m.qbit, m.imm, 0, sgn 16 m.ra, sgn 16 m.rb, m.rail⟩)

/-- A refresh falling due in a stack that runs a circular is marked for the next boundary, and outside one clears what was
postponed; the watchdog on a refresh still due stops the circular with status 2 and takes the stack out of service; a reading
above 85 °C sets the interval to 1,950 ns, one at or below it 3,900 ns unless the ageing plan forces 1,950 ns. -/
def Obligations.RefreshInCirculars : Prop :=
  ∀ (s : State) (k : Nat), k < 16 →
    (∃ t, exec (.refresh k) s = .next t ∧ StackOnly k s t ∧
      seqr t k = if (seqr s k).phase = .run then { seqr s k with refreshDue := true } else { seqr s k with postponed := 0 }) ∧
    ((seqr s k).phase = .run → (seqr s k).refreshDue = true →
      ∃ t, exec (.refreshWatchdog k) s = .next t ∧ (seqr t k).phase = .compact ∧ (seqr t k).status = 2 ∧
        (seqr t k).out = true ∧ SameBytes s t ∧ ∀ j, j ≠ k → seqr t j = seqr s j) ∧
    (∀ temp, ∃ t, exec (.refreshIntervalChange k temp) s = .next t ∧ (seqr t k).hot = decide (850 < temp) ∧
      dirNum t (ent (0x7020 + k) 1) =
        (if 850 < temp ∨ fieldLE (dirBytes s (ent 0xA020 7)) k 1 = 1 then 1950 else 3900) ∧
      (∀ j, j ≠ k → seqr t j = seqr s j) ∧ t.mem = s.mem)

/-! ## Parcels and flash -/

/-- From machine mode, PSUBMIT of a bad descriptor leaves result 1, of one too many result 2, and of a good one result 0 with
the descriptor last in its cluster's queue. A delivered parcel between T0 or T1 places writes its 4,096 bytes and nothing else.
A parcel past its limit fails with TIER_TIMEOUT. A finished parcel leaves the flight list and counts for its descriptor, whose
last one completes it with done set and status 0. A failed one completes its descriptor with the status and ends its request
with it, and every other descriptor of another request stays. -/
def Obligations.ParcelDescriptors : Prop :=
  ∀ (s : State),
    (∀ th n addr, canIssue s th = true → (thread s th).user = false →
      let a := bits addr 51 0
      let bad := bits addr 63 52 ≠ recPost s ∨ descGood s n a (fixedRead s a 32) = false
      (bad → ∃ t, exec (.psubmit th n addr) s = .next t ∧ Moves th [] [] [] [] s t ∧ Others th s t ∧ t.mem = s.mem ∧
        t.par = { s.par with result := smPut s.par.result n 1 }) ∧
      (¬ bad → 256 ≤ (pQueue s n).length →
        ∃ t, exec (.psubmit th n addr) s = .next t ∧ Moves th [] [] [] [] s t ∧ Others th s t ∧ t.mem = s.mem ∧
        t.par = { s.par with result := smPut s.par.result n 2 }) ∧
      (¬ bad → (pQueue s n).length < 256 →
        ∃ u, exec (.psubmit th n addr) s = .next (issueAll u) ∧ Moves th [] [] [] [] s u ∧ Others th s u ∧ u.mem = s.mem ∧
        u.par = { s.par with
          result := smPut s.par.result n 0
          queues := smPut s.par.queues n (pQueue s n ++ [descOf s a (thread s th).req (fixedRead s a 32)]) })) ∧
    (∀ pid p a b, parcel? s pid = some p → p.src = .local a → p.dst = .local b → p.data = none → p.dead = false →
      (∀ k i, p.owner ≠ .stream k i) → mustWait s.par.flight p = false → Clean s a 4096 → b % 4096 = 0 →
      ∃ v, exec (.parcelDelivered pid) s = .next (settlePaths (issueAll (parcelDone p (fixedRead s a 4096) v))) ∧
        v.par = s.par ∧ v.hxt = s.hxt ∧ v.sea = s.sea ∧ Wrote s v b (fixedRead s a 4096)) ∧
    (∀ pid p, parcel? s pid = some p → p.dead = false → p.limit ≠ 0 → p.at_ + p.limit * frameCycles ≤ s.clk.now →
      exec (.tierTimeout pid) s = .next (settlePaths (issueAll (failParcel pid 0x44 (bump (ent 0xC070 6) s))))) ∧
    (∀ p b, parcel? s p.pid = some p →
      parcel? (parcelDone p b s) p.pid = none ∧
      (∀ r, p.owner = .path r → (parcelDone p b s).par.done = s.par.done ++ [(r, p.pid, 0, b)]) ∧
      (∀ n a d, p.owner = .desc n a → (pQueue s n).find? (fun d => d.addr == a) = some d →
        (d.finished + 1 ≠ d.count → (pQueue (parcelDone p b s) n).length = (pQueue s n).length ∧
          { d with finished := d.finished + 1 } ∈ pQueue (parcelDone p b s) n) ∧
        (d.finished + 1 = d.count → pQueue (parcelDone p b s) n = (pQueue s n).erase d ∧
          memByte (parcelDone p b s) (d.addr + 28) = 0 ∧
          (memByte (parcelDone p b s) (d.addr + 29)).toNat.testBit 7 = true))) ∧
    (∀ pid st p, parcel? s pid = some p → p.dead = false →
      parcel? (failParcel pid st s) pid = none ∧
      (∀ r, p.owner = .path r → (failParcel pid st s).par.done = s.par.done ++ [(r, pid, st, [])]) ∧
      (∀ n a d, p.owner = .desc n a → (pQueue s n).find? (fun d => d.addr == a) = some d →
        (d.req = 0 → memByte (failParcel pid st s) (d.addr + 28) = BitVec.ofNat 8 st) ∧
        (∀ r, req? s d.req = some r → Receipted s (failParcel pid st s) r (receiptFor r st 0 0 [])) ∧
        (∀ m e, e ≠ d → e.req ≠ d.req → (e ∈ pQueue (failParcel pid st s) m ↔ e ∈ pQueue s m))))

/-- FLASH_WRITE_COMPLETION with room puts the parcel's bytes in the write buffer and one delta in the journal ring: a read of
that parcel then gives those bytes, every other buffered parcel and the map are as before. FLASH_READ_DONE of a good page gives
the parcel the stored bytes and keeps the retry level as the block's learned offset; an uncorrectable or misdirected page fails
the parcel with MEDIA_ERROR and changes no content; on a channel out of service the entry is also set lost. -/
def Obligations.FlashReadsAndWrites : Prop :=
  ∀ (s : State) (pid : Nat) (p : Parcel) (area parcel format nlp : Nat), parcel? s pid = some p → s.flash.serving = true →
    mustWait s.par.flight p = false → nlpOf s area parcel = some nlp →
    (∀ b, p.dst = .flash area parcel format → p.data = some b → writeRoom s = true → noGroupFor s nlp = false →
      overFlashQuota s area nlp = false →
      ∃ v, exec (.flashWriteCompletion pid) s = .next (settlePaths (issueAll (parcelDone p b v))) ∧ FlashOnly s v ∧
        flashRead v nlp (t3Handle format area parcel) = .now 0 b ∧ (∀ n, n ≠ nlp → buffered v n = buffered s n) ∧
        v.flash.map = s.flash.map ∧ v.flash.store = s.flash.store ∧ v.flash.ring = s.flash.ring ++ [.write nlp]) ∧
    (∀ c k, p.src = .flash area parcel format → p.data = none →
      flashRead s nlp (t3Handle format area parcel) = .nand c k →
      (∀ level margin x, level < 16 → chanUp s c = true → smGet? s.flash.store (slotKey c k) = some x → x.blank = false →
        metaCheck x (t3Handle format area parcel) = 0 →
        ∃ v, exec (.flashReadDone pid (.good level margin)) s = .next (settlePaths v) ∧
          parcel? v pid = some { p with data := some x.data } ∧ v.flash.map = s.flash.map ∧ v.flash.store = s.flash.store ∧
          v.mem = s.mem ∧
          (level ≠ 0 → smGetD v.flash.level (blkKey c (k / max 1 s.flash.perBlock)) 0 = level)) ∧
      (∀ r, (r = .bad ∨ r = .misdirected) → chanUp s c = true →
        ∃ v, exec (.flashReadDone pid r) s = .next (settlePaths (issueAll (failParcel pid 0x40 v))) ∧ v.par = s.par ∧
          v.flash = s.flash ∧ v.hxt = s.hxt ∧ v.mem = s.mem) ∧
      (∀ r, chanUp s c = false → inForce s (ent 0x6010 0x10) ≤ 2 ^ 25 →
        ∃ v, exec (.flashReadDone pid r) s = .next (settlePaths (issueAll (failParcel pid 0x40 v))) ∧ v.par = s.par ∧
          v.hxt = s.hxt ∧ v.mem = s.mem ∧ resolve v nlp = .lost ∧ v.flash.store = s.flash.store))

/-- FLASH_PROGRAM_DONE of a good job stores each of its parcels; a host row sets its unit's coarse entry, with its complement,
to the row's slot, a host parcel of a split unit its fine entry; a copy leaves the map as it was until the round boundary. A
program that failed in its one block retires that block and takes a spare, changing neither the map nor what is stored. An
erase of a closed superblock without valid parcels empties the block, counts its wear, and with the last channel frees the
superblock; a failed erase retires the block; any other superblock is left alone. -/
def Obligations.FlashProgramsAndErases : Prop :=
  (∀ (s : State) (id : Nat) (j : Job), s.flash.jobs.find? (fun x => x.id == id && !x.verified) = some j →
    (j.moves.map (fun m => slotKey m.chan m.slot)).Nodup → (s.flash.jobs.map (fun x => x.id)).Nodup →
    let stored := fun (t : State) =>
      (∀ m, m ∈ j.moves → smGet? t.flash.store (slotKey m.chan m.slot) = some m.cont) ∧
      ∀ k, (∀ m, m ∈ j.moves → slotKey m.chan m.slot ≠ k) → smGet? t.flash.store k = smGet? s.flash.store k
    (j.kind ≠ .host → j.kind ≠ .journal → ∃ t, exec (.flashProgramDone id true) s = .next t ∧ FlashOnly s t ∧ stored t ∧
      t.flash.map = s.flash.map ∧ { j with verified := true } ∈ t.flash.jobs) ∧
    (∀ m rest, j.kind = .host → j.moves = m :: rest → m.row = true →
      ∃ t, exec (.flashProgramDone id true) s = .next t ∧ FlashOnly s t ∧ stored t ∧
        coarseRec t.flash.map (m.nlp / 16) = withCompl m.slot ∧
        (∀ u, u ≠ m.nlp / 16 → coarseRec t.flash.map u = coarseRec s.flash.map u) ∧ (∀ x, x ∈ t.flash.jobs → x.id ≠ j.id)) ∧
    (∀ m g, j.kind = .host → j.moves = [m] → m.row = false → groupOf s (m.nlp / 16) = some g →
      (smGetD s.flash.map.groups g []).length = 16 →
      ∃ t, exec (.flashProgramDone id true) s = .next t ∧ FlashOnly s t ∧ stored t ∧ t.flash.map.coarse = s.flash.map.coarse ∧
        smGetD t.flash.map.groups g [] = (smGetD s.flash.map.groups g []).set (m.nlp % 16) (withCompl (fineEntry m))) ∧
    (∀ m, j.moves = [m] → m.chan < 32 → 0 < dirNum s (ent (0x6020 + m.chan) 7) →
      ∃ t, exec (.flashProgramDone id false) s = .next t ∧ t.flash.map = s.flash.map ∧ t.flash.store = s.flash.store ∧
        t.flash.jobs = s.flash.jobs ∧ dirNum t (ent (0x6020 + m.chan) 7) = dirNum s (ent (0x6020 + m.chan) 7) - 1 ∧
        blkKey m.chan (smGetD s.flash.remap (blkKey m.chan j.sb) j.sb) ∈ t.flash.retired ∧ t.mem = s.mem)) ∧
  (∀ (s : State) (v c : Nat),
    (erasable s v = true → c < 32 → chanUp s c = true →
      let key := blkKey c (smGetD s.flash.remap (blkKey c v) v)
      (∃ t, exec (.flashEraseDone v c true) s = .next t ∧ BlockErased t v c ∧
        smGetD t.flash.wear key 0 = smGetD s.flash.wear key 0 + 1 ∧ t.flash.map = s.flash.map ∧ t.mem = s.mem ∧
        ((∀ d, d < 32 → chanUp s d = true → d = c ∨ d ∈ (sblk s v).erased) → smGetD s.flash.endurance c 0 = 0 →
          (sblk t v).st = 0)) ∧
      ∃ t, exec (.flashEraseDone v c false) s = .next t ∧ key ∈ t.flash.retired ∧ t.flash.store = s.flash.store ∧
        t.flash.map = s.flash.map) ∧
    (erasable s v = false → ∀ ok, exec (.flashEraseDone v c ok) s = .next s))

/-- CHECKPOINT_DONE takes the checkpointed deltas off the count since the last one. SCRUB, when its ticks have passed, reads one
page of every closed superblock, and HEAT_HALVING, when its window has passed, halves every count; before that neither changes
anything. None of the three changes the map or what is stored. -/
def Obligations.MediaSchedules : Prop :=
  ∀ (s : State),
    (∀ n, s.flash.ckpt = some n → ∃ t, exec .checkpointDone s = .next t ∧ FlashOnly s t ∧
      t.flash = { s.flash with since := s.flash.since - n, ckpt := none }) ∧
    (s.flash.scrubTick + dirNum s (ent 0x6010 0xF) ≤ s.clk.tick → 0 < s.flash.perBlock →
      ∃ t, exec .scrub s = .next t ∧ t = { s with flash := t.flash, pwr := t.pwr } ∧ t.flash.scrubTick = s.clk.tick ∧
        t.flash.map = s.flash.map ∧ t.flash.store = s.flash.store ∧ t.flash.level = s.flash.level ∧
        ∀ v, v < nSuper s → (sblk s v).st = 2 →
          smGetD t.flash.reads (blkKey 0 v) 0 = smGetD s.flash.reads (blkKey 0 v) 0 + 1) ∧
    (s.clk.tick < s.flash.scrubTick + dirNum s (ent 0x6010 0xF) → exec .scrub s = .next s) ∧
    (s.flash.heatTick + dirNum s (ent 0x6010 7) ≤ s.clk.tick → (s.flash.heat.map (fun p => p.1)).Nodup →
      ∃ t, exec .heatHalving s = .next t ∧ FlashOnly s t ∧ t.flash.map = s.flash.map ∧ t.flash.store = s.flash.store ∧
        t.flash.heatTick = s.clk.tick ∧ ∀ u, smGetD t.flash.heat u 0 = smGetD s.flash.heat u 0 / 2) ∧
    (s.clk.tick < s.flash.heatTick + dirNum s (ent 0x6010 7) → exec .heatHalving s = .next s)

/-- FLASH_DISCARD of an admitted request only starts its wait for the round boundary. A discard of whole units leaves each of
them unmapped with nothing of it in the write buffer, and every unit outside the range as it was. SHRED_DONE, once no live
parcel of another range lies in the blocks it found, leaves none of their content, keeps the map, and completes the request OK,
or PARTIAL with the count of blocks it could not cleanse; before that it changes nothing. -/
def Obligations.DiscardsAndShreds : Prop :=
  (∀ (s : State) (rid : Nat) (r : Req), req? s rid = some r → r.type = 0x0402 → r.st = .admitted →
    ∃ t, exec (.flashDiscard rid) s = .next t ∧ t = { s with hxt := t.hxt } ∧
      req? t rid = some { r with st := .executing, stage := 1 } ∧ ∀ x, x ≠ rid → req? t x = req? s x) ∧
  (∀ (s : State) (lo n : Nat), lo % 16 = 0 → n % 16 = 0 →
    FlashOnly s { discard lo n s with pwr := s.pwr, dir := s.dir } ∧
    (∀ x, lo ≤ x → x < lo + n → buffered (discard lo n s) x = none ∧
      coarseRec (discard lo n s).flash.map (x / 16) = withCompl cUnmapped) ∧
    ∀ x, x < lo ∨ lo + n ≤ x → buffered (discard lo n s) x = buffered s x ∧
      coarseRec (discard lo n s).flash.map (x / 16) = coarseRec s.flash.map (x / 16)) ∧
  (∀ (s : State) (rid : Nat) (r : Req), req? s rid = some r → r.type = 0x0402 → r.st = .executing → r.stage = 3 →
    let q := discardRange s r
    let blocks := shredBlocks s q.1 q.2
    (shredBusy s blocks = false →
      ∃ v n, exec (.shredDone rid) s = .next (finishReq rid (if n = 0 then 0 else 1) (fieldLE r.body 8 8)
          (leBytes 4 (n % 2 ^ 32) ++ zeros 4) v) ∧
        n ≤ s.flash.retired.length ∧ v.hxt = s.hxt ∧ v.flash.map = s.flash.map ∧ v.mem = s.mem ∧
        ∀ b, b ∈ blocks → BlockErased v b.2 b.1) ∧
    (shredBusy s blocks = true → exec (.shredDone rid) s = .next s))

/-- FLASH_DISCOVERY_DONE before the first discovery puts each channel found good in service and every other one out of
service, sets V to the fewest good blocks less two per cent and each channel's spares to its blocks above V; a second one
changes nothing. RECOVERY_DONE after a complete flush serves exactly the durable map with an empty write buffer; without the
flush record it also sets the sticky flag; both spend the flush record. -/
def Obligations.DiscoveryAndRecovery : Prop :=
  ∀ (s : State),
    (∀ chans, s.flash.found = false → s.phase ≠ .coldReset →
      let l := chans.take 32
      ∃ t, exec (.flashDiscoveryDone chans) s = .next t ∧ t.flash.found = true ∧ t.mem = s.mem ∧
        dirNum t (ent 0x6010 0xE) = superCount l ∧ t.flash.map = s.flash.map ∧
        ∀ c f, l[c]? = some f → dirNum t (ent (0x6020 + c) 1) = (if goodChan l f then 1 else 2) ∧
          dirNum t (ent (0x6020 + c) 7) = f.blocks - superCount l) ∧
    (s.flash.found = true → ∀ chans, exec (.flashDiscoveryDone chans) s = .next s) ∧
    (s.flash.found = true → s.flash.serving = false →
      ∃ t, exec .recoveryDone s = .next t ∧ t.flash.serving = true ∧ t.flash.flushRec = false ∧ t.flash.buffer = [] ∧
        t.flash.jobs = [] ∧ t.mem = s.mem ∧ t.hxt = s.hxt ∧
        (s.flash.flushRec = true → t.flash.map = s.flash.durable ∧ FlashOnly s t) ∧
        (s.flash.flushRec = false → dirNum t (ent 0x6010 0xC) = 1)) ∧
    (s.flash.serving = true → exec .recoveryDone s = .next s)

/-! ## Corpora -/

/-- An admitted CORPUS_CREATE within the tenant's limits enters the corpus, serving and without slots, at its T1 place and under
the lowest free slot, whose entry names tenant and number, and is answered OK; with no group it is answered CAPACITY, with the
number in use BAD_ENVELOPE. CORPUS_DROP leaves no such corpus, every other one as it was, and the slot's entry free. A rebuilt
corpus serves at its new place with every sketch live and none pending; a reloaded slot lies in the first free slot of its cell
in service, its sketch pending. PATCH_EPOCH, when due, asks for a patch of every region with pending entries. -/
def Obligations.CorporaComeAndGo : Prop :=
  ∀ (s : State),
    (∀ rid r, Admitted s rid 0x0101 r →
      (groupFor s r.tenant = none → ∃ t, exec (.corpusCreate rid) s = .next t ∧ Receipted s t r (receiptFor r 0x51 0 0 [])) ∧
      (∀ g, groupFor s r.tenant = some g →
        ((corpus? s r.tenant r.obj).isSome = true →
          ∃ t, exec (.corpusCreate rid) s = .next t ∧ Receipted s t r (receiptFor r 0x10 0 0xFFFF []) ∧ t.path = s.path) ∧
        (let shards := if ownRole s roleShards then shardsHere s g (cbReplicas r.body) else []
        corpus? s r.tenant r.obj = none → corporaOf s r.tenant < dirNum s (ent (0x3100 + r.tenant) 9) →
          overT1 s r.tenant (shards.length * shardLen r.body false) = false → cbReplicas r.body ≤ g.reps →
          (shards = [] → ∃ t, exec (.corpusCreate rid) s = .next t ∧ Receipted s t r (receiptFor r 0 0 0 []) ∧
            t.path.corpora = s.path.corpora ++ [⟨r.tenant, r.obj, none, r.body, [], 0, false, [], [], [], [], [], true⟩]) ∧
          (∀ k a u, shards ≠ [] → freeCorpSlot s = some k →
            placeT1 (shards.length * shardLen r.body false) 0x100000 r.tenant 0 (r.tenant * 65536 + r.obj) s = some (a, u) →
            ∃ t, exec (.corpusCreate rid) s = .next t ∧ Receipted s t r (receiptFor r 0 0 0 []) ∧ t.cmp = u.cmp ∧
              t.path.corpora = s.path.corpora ++
                [⟨r.tenant, r.obj, some k, r.body, shards, a, false, [], [], [], [], [], true⟩] ∧
              dirNum t (corpObj k 6) = r.tenant * 65536 + r.obj ∧ (NoDescs s rid → t.mem = s.mem))))) ∧
    (∀ rid r c, Admitted s rid 0x0102 r → corpus? s r.tenant r.obj = some c →
      s.cmp.dCorpora.contains (r.tenant * 65536 + r.obj) = false →
      ∃ u, exec (.corpusDrop rid) s = .next (moveSearch u) ∧ Receipted s u r (receiptFor r 0 0 0 []) ∧
        corpus? u r.tenant r.obj = none ∧
        (∀ a b, ¬(a = r.tenant ∧ b = r.obj) → corpus? u a b = corpus? s a b) ∧
        (∀ k, c.slot = some k → k < 64 → dirNum u (corpObj k 6) = 0xFFFFFFFF) ∧ (NoDescs s rid → u.mem = s.mem)) ∧
    (∀ rid r, Admitted s rid 0x0102 r → corpus? s r.tenant r.obj = none →
      ∃ t, exec (.corpusDrop rid) s = .next t ∧ Receipted s t r (receiptFor r 0x13 0 0 []) ∧ t.path = s.path) ∧
    (∀ k x, s.path.corpora.find? (fun x => x.slot == some k && !x.serving) = some x →
      exec (.corpusRebuildDone k false) s = .next s ∧
      (∀ a t3 u, s.flash.serving = true → placeCorpus x.tenant x.num x.body x.shards.length s = some (a, t3, u) →
        ∃ v c, exec (.corpusRebuildDone k true) s = .next (moveSearch v) ∧ corpus? v x.tenant x.num = some c ∧
          c.serving = true ∧ c.base = a ∧ c.codeT3 = t3 ∧ c.slots.map (fun q => (q.1, q.2.id)) = x.slots.map (fun q => (q.1, q.2.id)) ∧
          (∀ q, q ∈ c.slots → q.2.live = (cbSketch x.body != 0) ∧ q.2.pend = false ∧ q.2.reload = false) ∧
          v.cmp = u.cmp ∧ v.hxt = s.hxt)) ∧
    (∀ n x k z i j, s.path.corpora.find? (fun x => x.slot == some n) = some x → corpus? s x.tenant x.num = some x →
      x.slots.filter (fun q => q.2.reload) = [(k, z)] → smGet? x.slots k = some z → cellOfKey x.body k = some i →
      (cellKeys x.body (kShard k) i).find? (fun j => keyFree x j && keyUp s x j) = some j →
      ∃ u c, exec (.slotReloadDone n) s = .next (moveSearch u) ∧ corpus? u x.tenant x.num = some c ∧
        smGet? c.slots j = some { z with reload := false, live := false, pend := cbSketch x.body != 0 } ∧
        (j ≠ k → smGet? c.slots k = none) ∧ (∀ m, m ≠ j → m ≠ k → smGet? c.slots m = smGet? x.slots m)) ∧
    (dirNum s (ent 0xC040 1) ≤ s.path.patchRounds →
      ∃ t, exec .patchEpoch s = .next t ∧ t = { s with path := t.path } ∧ t.path.corpora = s.path.corpora ∧
        t.path.patchRounds = 0 ∧ ∀ c, c ∈ s.path.corpora → cbSketch c.body ≠ 0 → ∀ q, q ∈ c.slots → q.2.pend = true →
          (c.tenant * 65536 + c.num, kRegion q.1) ∈ t.path.patches) ∧
    (s.path.patchRounds < dirNum s (ent 0xC040 1) → exec .patchEpoch s = .next s)

/-- A SEARCH of a corpus in service begins at its gateway: it is counted, its request executes and waits for every shard, and
when replica (postmark + i) mod replicas of each shard i is this node, one part per shard is entered with the query code, the
sketch and the parameters, and nothing of memory differs. A corpus that the tenant does not hold ends it with NO_SESSION, a
disputed one with NOT_OWNER; while the corpus is rebuilt it waits. -/
def Obligations.SearchGoesToEveryShard : Prop :=
  ∀ (s : State) (rid : Nat) (r : Req), Admitted s rid 0x0103 r →
    (corpus? s r.tenant r.obj = none →
      ∃ t, exec (.search rid) s = .next t ∧ Receipted s t r (receiptFor r 0x13 0 0 []) ∧ t.path = s.path) ∧
    (∀ c, corpus? s r.tenant r.obj = some c →
      (s.cmp.dCorpora.contains (r.tenant * 65536 + r.obj) = true →
        ∃ t, exec (.search rid) s = .next t ∧ Receipted s t r (receiptFor r 0x31 0 0 []) ∧ t.path = s.path) ∧
      (s.cmp.dCorpora.contains (r.tenant * 65536 + r.obj) = false →
        (c.serving = false → exec (.search rid) s = .next s) ∧
        (∀ g, c.serving = true → groupFor s r.tenant = some g → 0 < cbReplicas c.body →
          (∀ i, i < g.n → replica g i ((r.pm + i) % cbReplicas c.body) = ownPost s) →
          ∃ u r', exec (.search rid) s = .next (moveSearch u) ∧
            dirNum u (ent 0xC040 4) = min (2 ^ 64 - 1) (dirNum s (ent 0xC040 4) + 1) ∧
            req? u rid = some r' ∧ r'.st = .executing ∧ r'.stage = 0 ∧ r'.waits = upFrom 0 g.n ∧
            u.mem = s.mem ∧ u.path.corpora = s.path.corpora ∧ u.path.parts.take s.path.parts.length = s.path.parts ∧
            (u.path.parts.drop s.path.parts.length).map (fun p => (p.kind, p.gate, p.tag, p.shard)) =
              (upFrom 0 g.n).map (fun i => (0, recPost s, rid, i)) ∧
            ∀ p, p ∈ u.path.parts.drop s.path.parts.length → p.query = queryBytes c.body (r.body.drop 16) ∧
              p.par = leBytes 8 (spWord (sparam r.body c.body)) ++ leBytes 1 (sparam r.body c.body).method)))

/-- UPSERT and DELETE of a corpus in service route every item, each with no status yet, and wait while it is rebuilt. Staging
an upsert keeps the slot of a held id, else takes the lowest free slot of the best cell with room, with the code, the sketch,
the stamp and a pending entry; without room it is refused with CAPACITY. A delete of an id that is not held stages nothing.
ITEM_ACCEPTED of an item whose only replica is this node makes its staged changes ready, ends its part, and with the last item
of an accepted envelope sends OK with a zero status byte for each. -/
def Obligations.UpdatesAreStagedAndAccepted : Prop :=
  ∀ (s : State),
    (∀ rid r c, corpus? s r.tenant r.obj = some c → s.cmp.dCorpora.contains (r.tenant * 65536 + r.obj) = false →
      ∀ cmd : Instr, (cmd = .upsert rid ∧ Admitted s rid 0x0104 r ∨ cmd = .delete rid ∧ Admitted s rid 0x0105 r) →
      (c.serving = false → exec cmd s = .next s) ∧
      (c.serving = true → ∃ u, exec cmd s = .next (foldS (upFrom 0 (fieldLE r.body 0 2)) (routeItem rid) u) ∧
        u = { s with hxt := u.hxt } ∧
        req? u rid = some { r with st := .executing, items := List.replicate (fieldLE r.body 0 2) 0 })) ∧
    (∀ p c, corpus? s p.tenant p.obj = some c → (cbSketch c.body = 0 ∨ pendAll s < s.path.pendCap) →
      let x := vecF32 c.body p.query
      let code := (codeInts c.body x).map (fun q => q.1)
      let shard := (groupFor s c.tenant).elim 0 (fun g => shardOf (upId p) g.n)
      let key := match keyOfId c (upId p) with
        | some k => some k
        | none => findKey c shard code
      (key = none → ∃ u, stageUpsert p c s = (0x51, u) ∧ u.path = s.path ∧ u.mem = s.mem) ∧
      (∀ k v, key = some k →
        growCons c.tenant c.num ((vecParcels c.body (freeVec c)).getLastD 0)
          ((vecParcels c.body (freeVec c)).getLastD 0 / 32 + 2)
          (corpBump c 3 ((codeInts c.body x).filter (fun q => q.2)).length s) = (true, v) →
        ∃ u c' z, stageUpsert p c s = (0, u) ∧ corpus? u c.tenant c.num = some c' ∧ c'.slots = c.slots ∧
          c'.items = c.items ++ [⟨k, false, false, z, false, p.id, p.shard⟩] ∧ z.id = upId p ∧ z.stamp = upStamp p ∧
          z.code = packCode c.body code ∧ z.sketch = sketchOf c.body x ∧ z.live = false ∧
          z.pend = (cbSketch c.body != 0) ∧ smGet? c'.vecs z.vidx = some p.query ∧ u.mem = s.mem)) ∧
    (∀ p c, keyOfId c (upId p) = none → stageDelete p c s = s) ∧
    (∀ rid i p c, itemPart s rid i = some p → upTargets p = [ownPost s] → p.gate = recPost s → upFlags p ≠ 3 →
      corpus? s p.tenant p.obj = some c →
      ∃ v, exec (.itemAccepted rid i) s = .next (itemDone p.tag p.shard 0 v) ∧ v.hxt = s.hxt ∧ v.mem = s.mem ∧
        v.path.parts = s.path.parts.filter (fun q => q.id != p.id) ∧
        corpus? v p.tenant p.obj = some { c with
          items := c.items.map (fun x => if x.owner = p.id then { x with ready := true } else x) } ∧
        ∀ r, req? s p.tag = some r → r.items.length ≤ 512 → p.shard < r.items.length →
          (∀ j, j < r.items.length → j ≠ p.shard → r.items.getD j 0 = 1) →
          ∃ t, exec (.itemAccepted rid i) s = .next t ∧
            Receipted s t r (receiptFor r 0 r.items.length 0 (List.replicate r.items.length 0)))

/-! ## Context memory -/

/-- CTX_PROFILE part 0 makes the profile anew without rotations, another part gives one head's rotation. CTX_OPEN on one node
enters an empty session at its T1 place and answers with its handle; without a ready profile it ends with NO_SESSION, without
room and fallback with CAPACITY and reserves nothing. CTX_APPEND at the holder takes the next position and answers it; past the
capacity it ends with CAPACITY; while another append of the session is on its way it waits. TOKEN_FOLD_DONE of a folding session
ends the fold at the tokens applied, and waits while a circular runs. CTX_CLOSE marks the session for freeing and ends its
other envelopes. -/
def Obligations.SessionsOpenAppendFoldClose : Prop :=
  ∀ (s : State) (rid : Nat) (r : Req),
    (Admitted s rid 0x0201 r →
      (fieldLE r.body 0 1 = 0 → ∃ t, exec (.ctxProfile rid) s = .next t ∧ Receipted s t r (receiptFor r 0 0 0 []) ∧
        prof? t r.tenant r.obj = some ⟨r.tenant, r.obj, slice r.body 0 16, []⟩ ∧
        (∀ a b, ¬(a = r.tenant ∧ b = r.obj) → prof? t a b = prof? s a b) ∧ t.path.ctx = s.path.ctx) ∧
      (∀ p, fieldLE r.body 0 1 ≠ 0 → prof? s r.tenant r.obj = some p →
        ∃ t, exec (.ctxProfile rid) s = .next t ∧ Receipted s t r (receiptFor r 0 0 0 []) ∧
        prof? t r.tenant r.obj = some { p with rots := smPut p.rots (fieldLE r.body 0 1 - 1) (r.body.drop 16) } ∧
        (∀ a b, ¬(a = r.tenant ∧ b = r.obj) → prof? t a b = prof? s a b) ∧ t.path.ctx = s.path.ctx)) ∧
    (Admitted s rid 0x0202 r →
      ((prof? s r.tenant r.obj).filter profReady = none →
        ∃ t, exec (.ctxOpen rid) s = .next t ∧ Receipted s t r (receiptFor r 0x13 0 0 []) ∧ t.path = s.path) ∧
      (∀ p, (prof? s r.tenant r.obj).filter profReady = some p → fieldLE r.body 6 1 = 0 →
        let cap := ceilDiv (fieldLE r.body 0 4) 8192 * 8192
        let f := freshHandle s
        (s.path.ctx.filter (fun y => y.tenant == r.tenant && !y.closing)).length < dirNum s (ent (0x3100 + r.tenant) 0xB) →
        overT1 f.2 r.tenant (ctxLen p.par (cap / 8192)) = false → ownRole s roleSpans = true → s.path.ctx.length < 1024 →
        ctxAt s f.1 = none → 0 < cap →
        (∀ a u, placeT1 (ctxLen p.par (cap / 8192)) 16384 r.tenant 1 f.1 f.2 = some (a, u) →
          ∃ t, exec (.ctxOpen rid) s = .next t ∧
            Receipted s t r (receiptFor r 0 1 0 (leBytes 4 f.1 ++ leBytes 1 0 ++ zeros 3 ++ leBytes 4 0)) ∧ t.cmp = u.cmp ∧
            t.path.ctx = s.path.ctx ++ [{ newCtx f.1 r.tenant p cap (dflt (fieldLE r.body 4 1) (dirNum s (ent 0xC020 1)))
              (fieldLE r.body 5 1 == 1) [ownPost s] with base := a }] ∧ (NoDescs s rid → t.mem = s.mem)) ∧
        (mapFallback s.cmp.map = false →
          placeT1 (ctxLen p.par (cap / 8192)) 16384 r.tenant 1 f.1 f.2 = none →
          ∃ t, exec (.ctxOpen rid) s = .next t ∧ Receipted s t r (receiptFor r 0x51 0 0 []) ∧ t.path = s.path ∧
            t.cmp = s.cmp))) ∧
    (∀ x, ctx? s r.tenant r.obj = some x → ctxAt s r.obj = some x → x.closing = false → isHome s x = true →
      s.cmp.dCtx.contains x.handle = false →
      (Admitted s rid 0x0203 r →
        ∃ u, exec (.ctxClose rid) s = .next (movePaths u) ∧ req? u rid = none ∧
          (∀ q, q ∈ s.hxt.reqs → q.tenant = r.tenant → q.obj = r.obj → (q.type = 0x0204 ∨ q.type = 0x0205) →
            req? u q.rid = none) ∧
          (x.members = [ownPost s] → (ctxAt u r.obj) = some { x with closing := true })) ∧
      (Admitted s rid 0x0204 r → x.broken = true →
        ∃ t, exec (.ctxAppend rid) s = .next t ∧ Receipted s t r (receiptFor r 0x41 0 0 []) ∧ t.path = s.path) ∧
      (Admitted s rid 0x0204 r → x.broken = false →
        (x.cap * x.members.length ≤ x.accepted →
          ∃ t, exec (.ctxAppend rid) s = .next t ∧ Receipted s t r (receiptFor r 0x51 0 0 []) ∧ t.path = s.path) ∧
        (x.accepted < x.cap * x.members.length → appendBusy s x = true → exec (.ctxAppend rid) s = .next s) ∧
        (x.accepted < x.cap * x.members.length → appendBusy s x = false → holds s x x.accepted = true →
          ∃ t, exec (.ctxAppend rid) s = .next t ∧ Receipted s t r (receiptFor r 0 1 0 (leBytes 8 x.accepted)) ∧
            ctxAt t r.obj = some { x with toks := smPut x.toks x.accepted r.body, accepted := x.accepted + 1 } ∧
            (∀ h, h ≠ r.obj → ctxAt t h = ctxAt s h) ∧ (NoDescs s rid → t.mem = s.mem)))) ∧
    (∀ h x, ctxAt s h = some x →
      (x.folding = false ∨ stacksFree s = false → exec (.tokenFoldDone h) s = .next s) ∧
      (x.folding = true → stacksFree s = true → x.spilled = 0 →
        ∃ u, exec (.tokenFoldDone h) s = .next (movePaths u) ∧
          ctxAt u h = some { x with folded := x.applied, folding := false } ∧ u.mem = s.mem ∧
          dirNum u (ent 0xC050 8) = min (2 ^ 64 - 1) (dirNum s (ent 0xC050 8) + 1)))

/-- An admitted CTX_ATTEND whose positions have not all applied, or whose session's recent list is full, waits. Otherwise it
executes and one part is entered with its query and parameters and the tail's tokens below N, last in the order of attends. The
candidates of a query head lie below N, outside the tail and on this node; no more than k and the tail are attended. The record
of a query head has 16 + 4D bytes, names the head and counts the keys attended; with none it holds zeros, minus infinity and 0. -/
def Obligations.AttendsCoverTheirPositions : Prop :=
  ∀ (s : State),
    (∀ rid r x, Admitted s rid 0x0205 r → ctx? s r.tenant r.obj = some x → ctxAt s r.obj = some x → x.closing = false →
      isHome s x = true → s.cmp.dCtx.contains x.handle = false →
      (x.broken = true → ∃ t, exec (.ctxAttend rid) s = .next t ∧ Receipted s t r (receiptFor r 0x41 0 0 []) ∧ t.path = s.path) ∧
      (x.broken = false → (x.folding = true ∨ 1024 ≤ recentCount s x ∨ x.applied < (attendParam r.body x).n) →
        exec (.ctxAttend rid) s = .next s) ∧
      (x.broken = false → x.folding = false → recentCount s x < 1024 → (attendParam r.body x).n ≤ x.applied →
        x.members = [ownPost s] → (∀ p, p ∈ s.path.parts → p.id ≠ s.hxt.nextRid) →
        ∃ u p, exec (.ctxAttend rid) s = .next (movePaths u) ∧ u.path.parts = s.path.parts ++ [p] ∧ p.id = s.hxt.nextRid ∧
          p.kind = 2 ∧ p.gate = recPost s ∧ p.tag = rid ∧ p.obj = r.obj ∧ p.shard = fieldLE r.body 0 2 ∧
          p.par = (attendParam r.body x).bytes ∧ p.query = r.body.drop 16 ∧ u.path.attends = s.path.attends ++ [p.id] ∧
          (∀ n, (smGet? p.got (tailKey n)).isSome = true ↔ (smGet? x.toks n).isSome = true ∧ n < x.applied ∧
            n < (attendParam r.body x).n) ∧
          (∃ r', req? u rid = some r' ∧ r'.st = .executing ∧ r'.waits = x.members) ∧ u.mem = s.mem)) ∧
    (∀ x p l h hq n, n ∈ candidatesOf s x p l h hq →
      n < (aparamOf p.par).n ∧ n ∉ tailOf p ∧ holds s x n = true) ∧
    (∀ x p h hq b u, headRecord x p h hq s = (0, b, u) → hq < 65536 → (tailOf p).length < 65536 →
      b.length = 16 + 4 * cxDim x ∧ fieldLE b 4 2 = hq ∧ fieldLE b 0 4 ≤ (aparamOf p.par).k + (tailOf p).length) ∧
    (∀ x p h hq, candidatesOf s x p p.shard h hq = [] → tailOf p = [] → hq < 65536 →
      ∃ b u, headRecord x p h hq s = (0, b, u) ∧ fieldLE b 0 4 = 0 ∧ fieldLE b 8 4 = 0xFF800000 ∧ fieldLE b 12 4 = 0 ∧
        ∀ j, 16 ≤ j → b.getD j 0 = 0)

/-! ## Embedding tables -/

/-- EMB_TABLE_CREATE within the limits enters the table with the descriptor of Table 8-2 in the lowest free slot and leaves its
range of every stack in service zero; EMB_TABLE_DROP leaves the slot free, every other table as it was, and its envelopes ended.
EMB_WRITE, EMB_GATHER and EMB_SCATTER_ADD of a table start executing and its batches move; of a broken table they end with
MEMORY_ERROR, of none with NO_SESSION. A gather or scatter-add batch that is done is counted and each of its envelopes ended or
held for its strict point. A pooled element is one of its inputs, no smaller than any that is not a NaN, or the canonical NaN.
LINE_ADD applies one ready add's next line at the row's site and no other byte of memory. -/
def Obligations.TablesAndBatches : Prop :=
  ∀ (s : State),
    (∀ rid r, Admitted s rid 0x0301 r →
      let len := tabLen (fieldLE r.body 0 8) (strideOf (fieldLE r.body 8 2) (if fieldLE r.body 10 1 = 1 then 2 else 4))
      ((tab? s r.tenant r.obj).isSome = true →
        ∃ t, exec (.embTableCreate rid) s = .next t ∧ Receipted s t r (receiptFor r 0x10 0 0xFFFF []) ∧ t.path = s.path) ∧
      (∀ k a u, tab? s r.tenant r.obj = none →
        (s.path.tabs.filter (fun x => tbTenant x == r.tenant)).length < dirNum s (ent (0x3100 + r.tenant) 0xA) →
        overT1 s r.tenant len = false → freeTabSlot s = some k → ownRole s roleTables = true →
        placeT1 len 4096 r.tenant 2 k s = some (a, u) → NoDescs s rid →
        ∃ t, exec (.embTableCreate rid) s = .next t ∧ Receipted s t r (receiptFor r 0 1 0 (leBytes 1 k ++ zeros 7)) ∧
          t.cmp = u.cmp ∧ t.path.tabs = s.path.tabs ++ [⟨k, tabDesc s r.tenant r.obj a (fieldLE r.body 0 8) (fieldLE r.body 8 2)
            (fieldLE r.body 10 1) (fieldLE r.body 11 1) (fieldLE r.body 12 1) (fieldLE r.body 13 1), false, [], [], [], []⟩] ∧
          ∀ x, memByte t x = if ∃ j, j ∈ stacksIn s ∧ j * 0x1000000000 + a ≤ x ∧ x < j * 0x1000000000 + a + len then 0
            else memByte s x)) ∧
    (∀ rid r t0, Admitted s rid 0x0302 r → tab? s r.tenant r.obj = some t0 →
      ∃ t, exec (.embTableDrop rid) s = .next t ∧ tabAt t t0.slot = none ∧
        (∀ k, k ≠ t0.slot → tabAt t k = tabAt s k) ∧ req? t rid = none ∧
        (∀ b, b ∈ t0.batches → ∀ q, q ∈ batchReqs s b → req? t q.rid = none) ∧
        (t0.batches = [] → Receipted s t r (receiptFor r 0 0 0 []))) ∧
    (∀ rid r (cmd : Instr), (cmd = .embWrite rid ∧ Admitted s rid 0x0303 r ∨ cmd = .embGather rid ∧ Admitted s rid 0x0304 r ∨
        cmd = .embScatterAdd rid ∧ Admitted s rid 0x0305 r) →
      (tab? s r.tenant r.obj = none →
        ∃ t, exec cmd s = .next t ∧ Receipted s t r (receiptFor r 0x13 0 0 []) ∧ t.path = s.path) ∧
      (∀ t0, tab? s r.tenant r.obj = some t0 →
        (t0.broken = true → ∃ u, exec cmd s = .next (moveTab t0.slot u) ∧ Receipted s u r (receiptFor r 0x41 0 0 []) ∧
          u.path = s.path) ∧
        (t0.broken = false → ∃ u, exec cmd s = .next (moveTab t0.slot u) ∧ u = { s with hxt := u.hxt } ∧
          req? u rid = some { r with st := .executing }))) ∧
    (∀ slot t b k (cmd : Instr), tabAt s slot = some t →
      (cmd = .gatherBatchDone slot ∧ k = 4 ∧
          t.batches.find? (fun b => b.kind == 0 && b.started && b.rows.all (rowFree t b)) = some b ∨
        cmd = .scatterBatchDone slot ∧ k = 5 ∧
          t.batches.find? (fun b => b.kind == 2 && b.started && b.adds.isEmpty) = some b) →
      ∃ u t', exec cmd s = .next (moveTab slot u) ∧ tabAt u slot = some t' ∧ b ∉ t'.batches ∧
        dirNum u (ent 0xC060 k) = min (2 ^ 64 - 1) (dirNum s (ent 0xC060 k) + 1) ∧
        ∀ q, q ∈ batchReqs s b → req? u q.rid = none ∨ ∃ r, req? u q.rid = some r ∧ r.st = .held) ∧
    (∀ t l, ((∀ x, x ∈ l → maxKey t x = none) → maxElem t l = tabNan t) ∧
      ∀ x k, x ∈ l → maxKey t x = some k → maxElem t l ∈ l ∧ ∃ z, maxKey t (maxElem t l) = some z ∧ k ≤ z) ∧
    (∀ slot t, tabAt s slot = some t → addsReady t ≠ [] →
      (∀ p, p ∈ addsReady t → ∀ a, p.1.adds[p.2]? = some a → t.lost.contains a.row = false ∧
        (let x := rowSite t a.row + 64 * a.done.length
        Clean s x 64 ∧ (inStack x = true → bankUp s x = true))) →
      ∃ u p a, exec (.lineAdd slot) s = .next (moveTab slot u) ∧ p ∈ addsReady t ∧ p.1.adds[p.2]? = some a ∧
        (let x := rowSite t a.row + 64 * a.done.length
        Wrote s u x (lineAfter t (fixedRead s x 64) a.vals a.done.length)) ∧
        dirNum u (ent 0xC060 6) = min (2 ^ 64 - 1) (dirNum s (ent 0xC060 6) + 1) ∧ u.hxt = s.hxt)

/-- ROW_MOVE of the foremost candidate, with fewer than 64 rows moving and room in the hot store, makes the row MOVING with a free
place and touches no byte. MOVE_DONE, once no add of the row is half applied, copies the row whole to that place and makes it
FORWARDED. ROW_RETURN of a forwarded row below a quarter of the threshold makes it RETURNING, and of any other leaves it.
RETURN_DONE copies it whole to its stack and leaves no hot entry. Both wait while an add is half applied. -/
def Obligations.HotRowsMoveWhole : Prop :=
  ∀ (s : State) (slot row : Nat) (t : Tab), tabAt s slot = some t →
    ((candidates s).contains (refCount t row, slot, row) = true →
      (candidates s).all (fun c => !movesBefore c (refCount t row, slot, row)) = true → s.path.hotBytes ≠ 0 →
      (s.path.tabs.flatMap (fun t => t.hot.filter (fun h => h.st == .moving))).length < 64 → mayMove s t = true →
      hotOf t row = none → hotPlaces s (tbStride t) ≠ [] →
      ∃ u t' c o, exec (.rowMove slot row) s = .next u ∧ (c, o) ∈ hotPlaces s (tbStride t) ∧ tabAt u slot = some t' ∧
        hotOf t' row = some ⟨row, .moving, c, 0x30000000000 + c * 0x1000000 + o⟩ ∧ u.mem = s.mem ∧ u.hxt = s.hxt) ∧
    (∀ h, hotOf t row = some h →
      (partAdd t row = true → exec (.moveDone slot row) s = .next s ∧ exec (.returnDone slot row) s = .next s) ∧
      (h.st = .moving → partAdd t row = false → bankUp s (tabRow t row) = true → Clean s (tabRow t row) (tbStride t) →
        inStack h.addr = false → h.addr % 8 = 0 → tbStride t % 8 = 0 →
        ∃ u t', exec (.moveDone slot row) s = .next (moveTab slot u) ∧ tabAt u slot = some t' ∧
          hotOf t' row = some { h with st := .forwarded } ∧ Wrote s u h.addr (fixedRead s (tabRow t row) (tbStride t)) ∧
          dirNum u (ent 0xC060 7) = min (2 ^ 64 - 1) (dirNum s (ent 0xC060 7) + 1)) ∧
      (h.st = .forwarded → 4 * refCount t row < dirNum s (ent 0xC060 2) → mayMove s t = true →
        ∃ u t', exec (.rowReturn slot row) s = .next u ∧ tabAt u slot = some t' ∧
          hotOf t' row = some { h with st := .returning } ∧ u.mem = s.mem ∧ u.hxt = s.hxt) ∧
      (dirNum s (ent 0xC060 2) ≤ 4 * refCount t row → exec (.rowReturn slot row) s = .next s) ∧
      (h.st = .returning → partAdd t row = false → bankUp s (tabRow t row) = true → Clean s (tabRow t row) (tbStride t) →
        Clean s h.addr (tbStride t) → inStack h.addr = false → tabRow t row % 8 = 0 → tbStride t % 8 = 0 →
        ∃ u t', exec (.returnDone slot row) s = .next (moveTab slot u) ∧ tabAt u slot = some t' ∧ hotOf t' row = none ∧
          Wrote s u (tabRow t row) (fixedRead s h.addr (tbStride t)) ∧
          dirNum u (ent 0xC060 8) = min (2 ^ 64 - 1) (dirNum s (ent 0xC060 8) + 1)))

/-! ## Huchefen Transport -/

/-- A packet that fails a check, or comes while HXT is not served, is counted and changes nothing else. Segment 0 of a session
that is not open, its postmark not remembered, is answered NO_SESSION by the control path. A segment that no policer colours,
which agrees with what is held and finds room, enters its inbox; it leaves every other partial envelope as it was; one that
completes a message which passes every check and is new makes one waiting request, last in line, and H is raised. At the
reassembly limit an incomplete envelope is discarded and counted, and no other. -/
def Obligations.EnvelopesAreReassembled : Prop :=
  ∀ (s : State),
    (∀ p, portUp s p.port = true → pkKind p = 1 → (pkGood p = false ∨ s.phase ≠ .serving) →
      ∃ t, exec (.envelope p) s = .next t ∧ t = { s with dir := { s.dir with vals := t.dir.vals } } ∧
        dirNum t (ent 0xB010 7) = min (2 ^ 64 - 1) (dirNum s (ent 0xB010 7) + 1)) ∧
    (∀ p, PacketIn s 1 p → sess? s (pkSession p) = none → pkIndex p = 0 →
      (∀ u, u ∈ s.hxt.unknown → ¬(u.1 = pkSession p ∧ u.2.1 = pkMark p)) →
      ∃ t, exec (.envelope p) s = .next t ∧ t.hxt.reqs = s.hxt.reqs ∧ t.hxt.asm = s.hxt.asm ∧
        t.hxt.sessions = s.hxt.sessions ∧ t.mem = s.mem ∧
        t.hxt.unknown = s.hxt.unknown ++ [(pkSession p, pkMark p, s.clk.now)] ∧
        t.hxt.out = s.hxt.out ++ controlOut s p 2 (packetsOf 2 (pkVersion p) (pkSession p) (epoch s) (pkMark p) 8192 none
          (receiptBytes (fieldLE p.payload 0 2) 0x13 0xFF 0 0 0 0 []))) ∧
    (∀ p x, PacketIn s 1 p → sess? s (pkSession p) = some x → NoPolicer s x → pkVersion p = x.version →
      (x.version = 1 → pkCount p ≤ 16) →
      let a := (asm? s x.sid (pkMark p)).getD (newAsm s x p)
      let a' := { a with segs := smPut a.segs (pkIndex p) (segOf p), queue := asmQueue a p,
                         colour := if pkIndex p = 0 then 0 else a.colour, addr := asmAddr a p }
      a.ended = false → smGet? a.segs (pkIndex p) = none → segAgrees a p = true → movedFit s a p = true →
      greenRoom s a p = true →
      (a'.segs.length ≠ a.count →
        ∃ t, exec (.envelope p) s = .next t ∧ asm? t x.sid (pkMark p) = some a' ∧
          (∀ i j, ¬(i = x.sid ∧ j = pkMark p) → asm? t i j = asm? s i j) ∧ t.hxt.reqs = s.hxt.reqs ∧ t.mem = s.mem) ∧
      (∀ m, asmMessage a' = some m → (∀ r, r ∈ s.hxt.reqs → ¬(r.sid = x.sid ∧ r.pm = pkMark p ∧ r.st = .waiting)) →
        admissionFault s x a' m = none → windowOut { x with high := max x.high (pkMark p) } (pkMark p) (evType m) = .run →
        (s.hxt.reqs.filter (fun r => r.sid == x.sid)).length + (s.hxt.asm.filter (fun b => b.sid == x.sid)).length < 1024 →
        ∃ t r, exec (.envelope p) s = .next t ∧ t.hxt.reqs = s.hxt.reqs ++ [r] ∧ r.rid = s.hxt.nextRid ∧
          t.hxt.nextRid = s.hxt.nextRid + 1 ∧ r.sid = x.sid ∧ r.pm = pkMark p ∧ r.type = evType m ∧ r.tenant = x.tenant ∧
          r.level = x.level ∧ r.queue = evQueue m ∧ r.obj = evObject m ∧ r.body = m.drop 32 ∧ r.addr = a'.addr ∧
          r.st = (if evType m = 2 then .admitted else .waiting) ∧ t.mem = s.mem ∧
          (sess? t x.sid).map (fun y => y.high) = some (max x.high (pkMark p)))) ∧
    (∀ sid pm a, asm? s sid pm = some a → a.at_ + usCycles (dirNum s (ent 0xB010 4)) ≤ s.clk.now → a.ended = false →
      asmMessage a = none →
      ∃ t, exec (.reassemblyExpiry sid pm) s = .next t ∧ asm? t sid pm = none ∧
        (∀ i j, ¬(i = sid ∧ j = pm) → asm? t i j = asm? s i j) ∧ t.hxt.reqs = s.hxt.reqs ∧ t.hxt.out = s.hxt.out ∧
        dirNum t (ent 0xB010 8) = min (2 ^ 64 - 1) (dirNum s (ent 0xB010 8) + 1) ∧ t.mem = s.mem)

/-- A well-formed HELLO whose version, tenant and capacity checks pass is answered with a CHALLENGE that the node remembers under
a new identifier; a malformed one with a REFUSAL. Within 10 ms a well-formed RESPONSE that proves the host and passes the quotas
opens the session it was challenged for, with the key of its level, and uses the challenge up; without an open challenge it
is refused with NO_SESSION. A challenge expires after 10 ms. BYE, or idle_ticks without a packet while nothing admitted
runs, closes the session; neither touches another. -/
def Obligations.SessionsOpenAndClose : Prop :=
  ∀ (s : State),
    (∀ p, PacketIn s 0x10 p → helloBad p = true →
      ∃ t, exec (.hello p) s = .next t ∧ t.hxt.chals = s.hxt.chals ∧ t.hxt.sessions = s.hxt.sessions ∧
        t.hxt.out = s.hxt.out ++ controlOut s p 0x14 (packetsOf 0x14 (pkVersion p) (pkSession p) (epoch s) 0 8192 none
          (leBytes 8 (fieldLE p.payload 0 8) ++ leBytes 1 0x10))) ∧
    (∀ p, PacketIn s 0x10 p → helloBad p = false →
      let v := agreeVersion (fieldLE p.payload 8 1) (dirNum s (ent 0xB010 2))
      let tn := fieldLE p.payload 10 1
      v ≠ 0 → (fieldLE p.payload 9 1 = 0 → tenantServes s tn = true ∧ overSessions s tn = false) →
      (fieldLE p.payload 9 1 = 1 → s.sec.idKey = true) → s.hxt.sessions.length < 4096 → openChals s < 256 →
      ∃ t c, exec (.hello p) s = .next t ∧ t.hxt.chals = s.hxt.chals ++ [c] ∧ c.sid = s.hxt.nextSid ∧ c.chain = false ∧
        c.hello = p.payload ∧ c.version = v ∧ c.tenant = tn ∧ c.at_ = s.clk.now ∧ c.maxPayload = fieldLE p.payload 12 2 ∧
        fieldLE c.challenge 0 8 = fieldLE p.payload 0 8 ∧ fieldLE c.challenge 8 1 = v ∧
        fieldLE c.challenge 12 4 = epoch s % 2 ^ 32 ∧ slice c.challenge 16 48 = c.nonce ∧
        t.hxt.nextSid = stepSid s.hxt.nextSid ∧ t.hxt.sessions = s.hxt.sessions ∧
        t.hxt.out = s.hxt.out ++ controlOut s p 0x11 (packetsOf 0x11 v c.sid (epoch s) 0 8192 none c.challenge) ∧
        t.mem = s.mem) ∧
    (∀ p, PacketIn s 0x12 p →
      (∀ c, c ∈ s.hxt.chals → ¬(c.sid = pkSession p ∧ c.chain = false ∧ slice c.hello 0 8 = slice p.payload 0 8)) →
      ∃ t, exec (.response p) s = .next t ∧ t.hxt.sessions = s.hxt.sessions ∧ t.hxt.chals = s.hxt.chals ∧
        t.hxt.out = s.hxt.out ++ controlOut s p 0x14 (packetsOf 0x14 (pkVersion p) (pkSession p) (epoch s) 0 8192 none
          (leBytes 8 (fieldLE p.payload 0 8) ++ leBytes 1 0x13))) ∧
    (∀ p c lv tn, PacketIn s 0x12 p →
      s.hxt.chals.find? (fun c => c.sid == pkSession p && !c.chain && slice c.hello 0 8 == slice p.payload 0 8) = some c →
      s.clk.now ≤ c.at_ + usCycles 10000 → responseBad p c.sig = false → proveHost s c p.payload = some (lv, tn) →
      (lv = .tenant → c.sig = true → tenantServes s tn = true ∧ overSessions s tn = false) → s.hxt.sessions.length < 4096 →
      let x := newSess s c p.payload (pkAddr p) lv tn
      ∃ t l, exec (.response p) s = .next t ∧ t.hxt.sessions = s.hxt.sessions ++ [x] ∧ x.sid = c.sid ∧ x.level = lv ∧
        x.tenant = tn ∧ x.high = 0 ∧ x.held = [] ∧
        t.hxt.chals = s.hxt.chals.filter (fun d => !(d.sid == c.sid && d.chain == false)) ∧
        dirNum t (ent 0xB010 6) = s.hxt.sessions.length + 1 ∧ t.mem = s.mem ∧
        t.hxt.out = s.hxt.out ++ controlOut s p 0x13 (packetsOf 0x13 x.version x.sid (epoch s) 0 8192 none
          (welcomeBytes c x.key tn x.version (b01 x.mgmt + 2 * b01 x.tags + 4 * b01 (decide (0 < x.noteOrd))))) ++ l) ∧
    (∀ sid, ∃ t, exec (.challengeExpiry sid) s = .next t ∧ t = { s with hxt := { s.hxt with chals := t.hxt.chals } } ∧
      ∀ c, c ∈ t.hxt.chals ↔ c ∈ s.hxt.chals ∧ (c.sid = sid → s.clk.now ≤ c.at_ + usCycles 10000)) ∧
    (∀ p x, PacketIn s 0x15 p → sess? s (pkSession p) = some x → NoPolicer s x →
      ∃ t, exec (.bye p) s = .next t ∧ SessionClosed s t (pkSession p)) ∧
    (∀ sid x, sess? s sid = some x →
      (x.lastTick + dirNum s (ent 0xB010 3) ≤ s.clk.tick → (∀ r, r ∈ s.hxt.reqs → r.sid = sid → r.st = .waiting) →
        ∃ t, exec (.sessionIdleClose sid) s = .next t ∧ SessionClosed s t sid) ∧
      (s.clk.tick < x.lastTick + dirNum s (ent 0xB010 3) → exec (.sessionIdleClose sid) s = .next s))

/-- NOTE_ACK takes from its tenant's pending NOTEs those up to its sequence. NOTE_RESEND sends a NOTE that is due again, drops one
already resent eight times and leaves one that is not due. PING answers the timestamp and the epoch. CANCEL of an envelope that
waits ends it with ABORTED and answers 0, of a mutating one that runs 1, of an unknown one 2; one that runs and is not mutating
is marked to end at the round boundary. KERNEL_RUN leaves its kernel waiting for the boundary; a kernel past its round limit
ends with QUOTA and has no thread left. -/
def Obligations.NotesPingsCancelsAndKernels : Prop :=
  ∀ (s : State),
    (∀ p x, PacketIn s 4 p → sess? s (pkSession p) = some x → 3 ≤ x.version → isMgmtPath x = false → NoPolicer s x →
      (∀ n, n ∈ (notesOf s x.tenant).pending → n.sends ≠ 0) →
      ∃ t, exec (.noteAck p) s = .next t ∧
        (notesOf t x.tenant).pending = (notesOf s x.tenant).pending.filter (fun n => decide (pkMark p < n.seq)) ∧
        (∀ k, k ≠ x.tenant → notesOf t k = notesOf s k) ∧ t.hxt.reqs = s.hxt.reqs ∧ t.mem = s.mem) ∧
    (∀ tn x, s.phase = .serving → noteSess s tn = some x → 3 ≤ x.version → portUp s x.addr.port = true →
      (∀ y, smGet? s.trf.tenants tn = some y → y.resetting = false) →
      ((notesOf s tn).pending.map (fun n => n.seq)).Nodup →
      ∃ t, exec (.noteResend tn) s = .next t ∧ t.hxt.reqs = s.hxt.reqs ∧ t.mem = s.mem ∧
        (∀ k, k ≠ tn → notesOf t k = notesOf s k) ∧
        ∀ n, n ∈ (notesOf s tn).pending →
          let due := decide (n.sends ≠ 0) && decide (n.lastTick + dirNum s (ent 0xB010 5) ≤ s.clk.tick)
          (due = false → n ∈ (notesOf t tn).pending) ∧
          (due = true → n.sends ≤ 8 → { n with sends := n.sends + 1, lastTick := s.clk.tick } ∈ (notesOf t tn).pending) ∧
          (due = true → 8 < n.sends → ∀ m, m ∈ (notesOf t tn).pending → m.seq ≠ n.seq)) ∧
    (∀ rid r, req? s rid = some r → r.type = 1 → r.st = .admitted →
      ∃ t, exec (.ping rid) s = .next t ∧ (NoDescs s rid → t.mem = s.mem) ∧
        Receipted s t r (receiptFor r 0 0 0 (leBytes 8 (timestamp s) ++ leBytes 4 (epoch s) ++ zeros 4))) ∧
    (∀ rid c, req? s rid = some c → c.type = 2 → c.st = .admitted →
      (∀ w, s.hxt.reqs.find? (fun r => r.sid == c.sid && r.pm == c.obj && r.st == .waiting) = some w →
        req? s w.rid = some w → w.rid ≠ rid →
        ∃ u t, exec (.cancel rid) s = .next t ∧ Receipted s u w (receiptFor w 0x60 0 0 []) ∧
          Receipted u t c (receiptFor c 0 0 0 (leBytes 1 0 ++ zeros 7)) ∧ req? t w.rid = none) ∧
      ((∀ r, r ∈ s.hxt.reqs → r.sid = c.sid → r.pm = c.obj → r.st ≠ .waiting) →
        ((asm? s c.sid c.obj) = none ∨ ∃ a, asm? s c.sid c.obj = some a ∧ (a.ended = true ∨ smGet? a.segs 0 = none)) →
        (s.hxt.reqs.find? (fun r => r.sid == c.sid && r.pm == c.obj && r.rid != rid && r.type != 2) = none →
          ∃ t, exec (.cancel rid) s = .next t ∧ Receipted s t c (receiptFor c 0 0 0 (leBytes 1 2 ++ zeros 7))) ∧
        (∀ r, s.hxt.reqs.find? (fun r => r.sid == c.sid && r.pm == c.obj && r.rid != rid && r.type != 2) = some r →
          req? s r.rid = some r →
          (mutating r.type = true →
            ∃ t, exec (.cancel rid) s = .next t ∧ Receipted s t c (receiptFor c 0 0 0 (leBytes 1 1 ++ zeros 7)) ∧
              req? t r.rid = some r) ∧
          (mutating r.type = false →
            ∃ t, exec (.cancel rid) s = .next t ∧ t = { s with hxt := { s.hxt with reqs := t.hxt.reqs } } ∧
              req? t rid = some { c with st := .executing } ∧ req? t r.rid = some { r with cancelBy := rid })))) ∧
    (∀ rid r, Admitted s rid 0x0401 r →
      ∃ t, exec (.kernelRun rid) s = .next t ∧ t = { s with hxt := { s.hxt with reqs := t.hxt.reqs } } ∧
        req? t rid = some { r with st := .executing, stage := 1 } ∧ ∀ k, k ≠ rid → req? t k = req? s k) ∧
    (∀ rid r, req? s rid = some r → rid ≠ 0 → r.type = 0x0401 → r.stage = 2 → 0 < r.threads →
      (min (fieldLE r.body 20 4) (dirNum s (ent (0x3500 + r.tenant) 2)) ≤ r.rounds →
        ∃ t, exec (.kernelRoundLimit rid) s = .next t ∧ Receipted s t r (receiptFor r 0x50 0 0 []) ∧
          ∀ th, (thread t th).req ≠ rid) ∧
      (r.rounds < min (fieldLE r.body 20 4) (dirNum s (ent (0x3500 + r.tenant) 2)) →
        exec (.kernelRoundLimit rid) s = .next s))

/-! ## Time, admission and tenants -/

/-- A boundary's cycle is the first, not before now, at a whole number of periods from the start post. ROUND_BOUNDARY moves time
there and does the round's work; FRAME_BOUNDARY moves time to the frame's start and wakes the sleeping domains when it begins a
round's last frame with work due; off service neither does anything. A gate list whose frame has come replaces the one in force.
SAMPLE, at its frame, adds one to one bin of each of the four histograms of every queue. MANAGEMENT_TICK counts and moves to
the tick's end. STRICT_POINT hands a held receipt to the port. That the two boundary commands carry time there is the model's
choice (assumption 65). -/
def Obligations.BoundariesMoveTimeOn : Prop :=
  ∀ (s : State),
    (∀ per f : Nat, 0 < per → let c := boundaryAt s per f
      s.clk.now ≤ c ∧ f ≤ c ∧ ((c : Int) - s.clk.post) % (per : Int) = 0 ∧
        (s.clk.post ≤ (max s.clk.now f : Nat) → c < max s.clk.now f + per)) ∧
    (s.phase = .serving → s.clk.counting = true →
      let c := boundaryAt s (roundFrames s * frameCycles) s.clk.roundNext
      let d := boundaryAt s frameCycles s.clk.frameNext
      let w := queueNotes (switchAll { s with clk := { s.clk with now := d, frameNext := d + 1 } })
      exec .roundBoundary s =
        .next (roundWork (queueNotes (switchAll { s with clk := { s.clk with now := c, roundNext := c + 1 } }))) ∧
      exec .frameBoundary s =
        .next (if frameNo w % roundFrames w + 1 = roundFrames w ∧ dirFlag w (ent 0x4010 5) = true ∧ workDue w = true
          then wakeAll w else w) ∧
      w.mem = s.mem ∧ w.hxt.reqs = s.hxt.reqs ∧ w.path = s.path) ∧
    (s.phase ≠ .serving → exec .roundBoundary s = .next s ∧ exec .frameBoundary s = .next s) ∧
    (∀ p F, smGet? s.trf.commit p = some F → F ≤ frameNo s →
      dirVal (switchGates p s) (ent (0x3300 + p) 3) = dirVal s (ent (0x3300 + p) 1) ∧
        dirNum (switchGates p s) (ent (0x3300 + p) 4) = F ∧ smGet? (switchGates p s).trf.commit p = none ∧
        ∀ q, q ≠ p → smGet? (switchGates p s).trf.commit q = smGet? s.trf.commit q) ∧
    (s.clk.counting = true → sincePost s % frameCycles = 0 → frameNo s % max 1 (dirNum s (ent 0x3010 4)) = 0 →
      ∃ t, exec .sample s = .next t ∧ t = { s with dir := { s.dir with vals := t.dir.vals } } ∧
        ∀ tn q, tn < 64 → q < 16 → ∀ i b, (i, b) ∈ [(0xC, depthBin (inboxPkts s tn q)), (0xD, delayBin (inboxAge s tn q)),
            (0xE, depthBin (outPkts s tn q).length),
            (0xF, delayBin ((minOf ((outPkts s tn q).map (fun k => k.at_))).map (fun a => s.clk.now - a)))] →
          let old := slice (dirBytes s (qObj tn q i)) 0 64
          dirVal t (qObj tn q i) = .blob (patch old (4 * b) (leBytes 4 (min 0xFFFFFFFF (fieldLE old (4 * b) 4 + 1))))) ∧
    (∀ w temps, let e := max s.clk.now (tickEnd s)
      ∃ v, v.clk = { s.clk with now := e, tick := s.clk.tick + 1, tickAt := e } ∧ v.mem = s.mem ∧ v.hxt = s.hxt ∧
        exec (.managementTick w temps) s = .next (if nodeAwake s ∧ s.err.mcDown = false then controllerTick w temps v else v) ∧
        (nodeAwake s = true → dirBytes v (ent 0x4030 1) =
          slice ((temps.take 19).flatMap (fun t => leBytes 2 (wrap 16 t))) 0 38)) ∧
    (∀ rid r q, req? s rid = some r → r.st = .held → r.ready = some q →
      ∃ t, exec (.strictPoint rid) s = .next t ∧
        Receipted { s with clk := { s.clk with now := max s.clk.now (r.admitAt + r.points.getLastD 0) } } t r
          (receiptFor r q.1 q.2.1 0 q.2.2))

/-- At a boundary no more envelopes are admitted than the cap allows; each was waiting and is marked admitted then; below the cap
none that may be admitted is left; of two queues the one of higher priority goes first, and the management path before both. At
its boundary a tenant's reset leaves it resetting, with no pending NOTE, its policer and shapers refilled, and no envelope of it
without a receipt formed. RESET_DONE, once nothing of the reset runs, counts it, forms its NOTE ahead of the others and closes
the sessions that the tenant's disabling named. -/
def Obligations.AdmissionAndTenantReset : Prop :=
  ∀ (s : State),
    ((s.hxt.reqs.map (fun r => r.rid)).Nodup → (∀ r, r ∈ s.hxt.reqs → queuePrio s (16 * r.tenant + r.queue) ≤ 7) →
      let a := admission s
      a.1.length ≤ dirNum s (ent 0x3010 2) ∧ a.2.mem = s.mem ∧ a.2.path = s.path ∧
      (∀ r, r ∈ s.hxt.reqs → (r.rid ∈ a.1 → r.st = .waiting ∧
        req? a.2 r.rid = some { r with st := .admitted, admitted := timestamp s, admitAt := s.clk.now,
                                       points := pointsFor s r, cause := nowCause s }) ∧
        (r.rid ∉ a.1 → req? a.2 r.rid = some r)) ∧
      (a.1.length < dirNum s (ent 0x3010 2) → ∀ r, r ∈ s.hxt.reqs → mayAdmit s r = true → r.rid ∈ a.1) ∧
      (∀ r q, r ∈ s.hxt.reqs → q ∈ s.hxt.reqs → mayAdmit s r = true → mayAdmit s q = true → r.rid ∈ a.1 → r.mgmt = false →
        (q.mgmt = true ∨ queuePrio s (16 * r.tenant + r.queue) < queuePrio s (16 * q.tenant + q.queue)) → q.rid ∈ a.1)) ∧
    (∀ tn, tn < 64 → (s.hxt.reqs.map (fun r => r.rid)).Nodup → (∀ p, p ∈ s.path.parts → p.tenant ≠ tn) →
      let t := startReset tn s
      (tenantSt t tn).resetting = true ∧ (tenantSt t tn).reqAt = none ∧ (notesOf t tn).pending = [] ∧
        (∀ r, r ∈ t.hxt.reqs → r.tenant = tn → r.mgmt = true ∨ r.ready.isSome = true) ∧
        (∀ r, r ∈ s.hxt.reqs → r.tenant ≠ tn → r ∈ t.hxt.reqs) ∧
        (∀ a, a ∈ t.hxt.asm ↔ a ∈ s.hxt.asm ∧ (a.mgmt = true ∨ a.tenant ≠ tn ∨ a.ended = true)) ∧
        smGet? t.trf.buckets tn = some (freshBucket s tn) ∧
        ∀ q p, q < 16 → p < 8 → smGet? t.trf.credits (creditKey tn q p) = some (freshCredit s tn q s.clk.now)) ∧
    (∀ tn, tn < 64 → (tenantSt s tn).resetting = true →
      (resetBusy s tn = true → exec (.resetDone tn) s = .next s) ∧
      (resetBusy s tn = false → noteSess s tn = none →
        ∃ t, exec (.resetDone tn) s = .next t ∧ (tenantSt t tn).resetting = false ∧
          (∃ n, (notesOf t tn).pending = n :: (notesOf s tn).pending ∧ n.type = 4 ∧ n.seq = (tenantSt s tn).noteSeq ∧
            n.body = leBytes 4 (tenantSt s tn).ended ++ leBytes 4 (tenantSt s tn).discarded) ∧
          dirNum t (ent (0x3100 + tn) 0xE) = min (2 ^ 64 - 1) (dirNum s (ent (0x3100 + tn) 0xE) + 1) ∧
          (∀ i, i ∈ (tenantSt s tn).closing → sess? t i = none) ∧
          (∀ i, i ∉ (tenantSt s tn).closing → sess? t i = sess? s i) ∧ t.mem = s.mem)) ∧
    (∀ tn, (tenantSt s tn).resetting = false → exec (.resetDone tn) s = .next s)

/-! ## The directory -/

/-- A write that reaches the controller while none waits for the boot flash: refused with a status, it leaves every entry as it
was; accepted, an RW entry holds the value and an RWC entry what R12 gives, and one of persistence S awaits its commit, which
BOOT_FLASH_COMMIT makes; behind a commit it waits its turn. Policer, shaper, commit frame, histogram, tenant reset, key and
restore writes do what their chapters say. DIR_READ answers the type and value, DIR_WRITE the status; with the controller
down both end with ABORTED. -/
def Obligations.DirectoryReadsAndWrites : Prop :=
  ∀ (s : State),
    (∀ c a obj v, WriteRow c a obj v → dirServed s = true →
      (s.dir.commits ≠ [] → exec c s = .next { s with dir := { s.dir with waiting := s.dir.waiting ++ [⟨.none, a, obj, some v⟩] } }) ∧
      (s.dir.commits = [] → isSlotObj obj = false →
        (checkWrite s a obj v ≠ 0 → ∃ t, exec c s = .next t ∧ t.dir.status = checkWrite s a obj v ∧ dirVal t obj = dirVal s obj ∧
          t.dir.commits = [] ∧ t.mem = s.mem ∧ t.hxt = s.hxt ∧ t.trf = s.trf) ∧
        (∀ r, catRow obj = some r → checkWrite s a obj v = 0 →
          (r.acc = 1 → ∃ t, exec c s = .next t ∧ t.dir.status = 0 ∧ dirVal t obj = v ∧ t.mem = s.mem ∧
            t.dir.commits = if r.per = 2 then [(obj, Answer.none)] else []) ∧
          (r.acc = 3 → ∃ t, exec c s = .next t ∧ t.dir.status = 0 ∧ t.mem = s.mem ∧
            dirNum t obj = rwcNew obj r.ty (dirNum s obj) (valNum v))))) ∧
    (dirServed s = true → s.dir.commits = [] →
      (∀ a tn u v, checkWrite s a (ent (0x3200 + tn) u) v = 0 → tn < 64 → u < 256 →
        ∃ t, exec (.policerEntryWrite a tn u v) s = .next t ∧ smGet? t.trf.buckets tn = some (freshBucket t tn) ∧
          ∀ k, k ≠ tn → smGet? t.trf.buckets k = smGet? s.trf.buckets k) ∧
      (∀ a tn q u v, checkWrite s a (qObj tn q u) v = 0 → tn < 64 → q < 16 → u ∈ [5, 6, 7, 9] →
        ∃ t, exec (.shaperEntryWrite a tn q u v) s = .next t ∧
          ∀ p, p < 8 → smGet? t.trf.credits (creditKey tn q p) = some (freshCredit t tn q s.clk.now)) ∧
      (∀ a p v, checkWrite s a (ent (0x3300 + p) 2) v = 0 → p < 8 →
        ∃ t, exec (.commitFrame a p v) s = .next t ∧ smGet? t.trf.commit p = some (valNum v) ∧ frameNo s + 2 ≤ valNum v) ∧
      (∀ a tn q v, checkWrite s a (qObj tn q 0x10) v = 0 → tn < 64 → q < 16 →
        ∃ t, exec (.histClear a tn q v) s = .next t ∧
          ∀ u, u ∈ [0xC, 0xD, 0xE, 0xF] → dirVal t (qObj tn q u) = catDefault (qObj tn q u)) ∧
      (∀ a tn v, checkWrite s a (ent (0x3100 + tn) 2) v = 0 → tn < 64 →
        ∃ t, exec (.tenantReset a tn v) s = .next t ∧ tenantSt t tn =
          if (tenantSt s tn).resetting then { tenantSt s tn with again := true }
          else { tenantSt s tn with reqAt := some ((tenantSt s tn).reqAt.getD (valNum v)) }) ∧
      (∀ a p v, checkWrite s a (ent (0xB100 + p) 0xA) v = 0 → p < 8 →
        ∃ t, exec (.sak a p v) s = .next t ∧
          smGet? t.pins.saks ((p * 2 + fieldLE (valBlob v) 1 1) * 2 + fieldLE (valBlob v) 0 1) = some (valBlob v)) ∧
      (∀ a v, checkWrite s a (ent 0x1010 0xD) v = 0 → valNum v = 1 →
        ∃ t, exec (.restoreDefaults a v) s = .next t ∧ t.dir.restore = true ∧ t.dir.vals = s.dir.vals) ∧
      (∀ a v, checkWrite s a (ent 0xA020 1) v = 0 → valNum v = 1 →
        ∃ t, exec (.replan a v) s = .next t ∧ t.log.replan = true ∧ t.dir.vals = s.dir.vals)) ∧
    (dirServed s = true → s.dir.waiting = [] →
      (∀ obj, s.dir.commits = [(obj, Answer.none)] → ¬(0x3100 ≤ obj / 256 ∧ obj / 256 ≤ 0x313F) →
        ∃ t, exec .bootFlashCommit s = .next t ∧ t.dir.commits = [] ∧ newerCopy t = valsOf 2 s.dir.vals ∧
          t.dir.vals = s.dir.vals ∧ t.mem = s.mem) ∧
      (∀ tn, tn < 64 → s.dir.commits = [(ent (0x3100 + tn) 1, Answer.none)] →
        ∃ t, exec .bootFlashCommit s = .next t ∧ t.dir.commits = [] ∧ newerCopy t = valsOf 2 s.dir.vals ∧
          (dirNum s (ent (0x3100 + tn) 1) = 0 → (tenantSt s tn).active = true →
            (tenantSt t tn).disable = true ∧ ((tenantSt s tn).resetting = false → (tenantSt t tn).reqAt.isSome = true)) ∧
          (dirNum s (ent (0x3100 + tn) 1) ≠ 0 → (tenantSt s tn).active = false → (tenantSt t tn).enable = true))) ∧
    (s.dir.commits = [] → exec .bootFlashCommit s = .next s) ∧
    (∀ rid r, req? s rid = some r → r.st = .admitted →
      let u := onReq rid (fun x => { x with st := .executing }) s
      (dirServed s = false → r.type = 0x0501 →
        ∃ t, exec (.dirRead rid) s = .next t ∧ Receipted s t r (receiptFor r 0x60 0 0 [])) ∧
      (dirServed s = true → s.dir.commits = [] → r.type = 0x0501 → ∀ k v, readEntry u (reqActor r) r.obj = (k, v) →
        (k ≠ 0 → ∃ t, exec (.dirRead rid) s = .next t ∧
          Receipted s t r (receiptFor r (receiptOf k).1 0 (receiptOf k).2 [])) ∧
        (∀ e, k = 0 → catRow r.obj = some e →
          ∃ t, exec (.dirRead rid) s = .next t ∧ Receipted s t r (receiptFor r 0 1 0 (leBytes 8 e.ty ++ valBytes e v)))) ∧
      (dirServed s = true → s.dir.commits = [] → r.type = 0x0502 → isSlotObj r.obj = false →
        (checkWrite u (reqActor r) r.obj (valueFrom r.obj r.body) ≠ 0 → ∃ t k, exec (.dirWrite rid) s = .next t ∧
          k = receiptOf (checkWrite u (reqActor r) r.obj (valueFrom r.obj r.body)) ∧
          Receipted s t r (receiptFor r k.1 0 k.2 []) ∧
          (r.obj / 256 ≠ 0xB010 → r.obj / 256 ≠ 0xC090 → dirVal t r.obj = dirVal s r.obj)) ∧
        (∀ e, checkWrite u (reqActor r) r.obj (valueFrom r.obj r.body) = 0 → catRow r.obj = some e → e.acc = 1 → e.per ≠ 2 →
          ∃ t, exec (.dirWrite rid) s = .next t ∧ Receipted s t r (receiptFor r 0 0 0 []) ∧
            dirVal t r.obj = valueFrom r.obj r.body)))

/-- With the controller free and the write accepted: TARGET opens the slot for its writer or closes it; DIRECTION 0 leaves it empty
and writable, 1 leaves a snapshot of the target; CHUNK_WRITE places its bytes at the offset and advances it; CHUNK_READ gives
up to 4,096 bytes from the offset and advances it; COMMIT writes the whole value to its target and leaves the slot committed;
after 1,600 ticks without a request the slot closes. No other slot changes. -/
def Obligations.TransferSlotsMoveLargeValues : Prop :=
  ∀ (s : State) (n : Nat), n < 8 → dirServed s = true → s.dir.commits = [] →
    let x := xslot s n
    (∀ a v, checkWrite s a (ent (0x1020 + n) 1) v = 0 →
      ∃ t, exec (.target a n v) s = .next t ∧ (∀ m, m ≠ n → xslot t m = xslot s m) ∧ t.dir.vals = s.dir.vals ∧
        xslot t n = if valNum v = 0 then XSlot.init else
          { XSlot.init with owner := a.session, chain := a.chain, target := valNum v, state := 1, lastTick := s.clk.tick }) ∧
    (∀ a v, checkWrite s a (ent (0x1020 + n) 2) v = 0 →
      (valNum v = 0 → ∃ t, exec (.direction a n v) s = .next t ∧ (∀ m, m ≠ n → xslot t m = xslot s m) ∧
        xslot t n = { x with read := false, length := 0, offset := 0, data := [], state := 1, lastTick := s.clk.tick }) ∧
      (∀ r, valNum v ≠ 0 → isSlotObj x.target = false → x.target ≠ ent 0x9010 9 → catRow x.target = some r →
        let b := valBytes r (entValue s r x.target)
        ∃ t, exec (.direction a n v) s = .next t ∧ (∀ m, m ≠ n → xslot t m = xslot s m) ∧
          xslot t n = { x with read := true, length := b.length, offset := 0, data := b, state := 1, lastTick := s.clk.tick })) ∧
    (∀ a v, checkWrite s a (ent (0x1020 + n) 5) v = 0 →
      let b := valBlob v
      ∃ t, exec (.chunkWrite a n v) s = .next t ∧ (∀ m, m ≠ n → xslot t m = xslot s m) ∧ t.dir.vals = s.dir.vals ∧
        x.offset + b.length ≤ x.length ∧ (xslot t n).offset = x.offset + b.length ∧ (xslot t n).length = x.length ∧
        (xslot t n).data = x.data.take x.offset ++ b ++ x.data.drop (x.offset + b.length)) ∧
    (∀ a, slotOwn s a n = true → x.read = true → mayRead s a (ent (0x1020 + n) 5) = true →
      ∃ t, exec (.chunkRead a n) s = .next t ∧ (∀ m, m ≠ n → xslot t m = xslot s m) ∧ t.dir.vals = s.dir.vals ∧
        t.dir.status = 0 ∧ t.dir.value = some (.blob ((x.data.drop x.offset).take 4096)) ∧
        xslot t n = { x with offset := min x.length (x.offset + 4096), lastTick := s.clk.tick }) ∧
    (∀ a v, valNum v = 1 →
      (∀ r, checkWrite s a (ent (0x1020 + n) 6) v = 0 → isSlotObj x.target = false → catRow x.target = some r → r.acc = 1 →
        ∃ t, exec (.commit a n v) s = .next t ∧ (xslot t n).state = 3 ∧ (xslot t n).result = 0 ∧
          dirVal t x.target = slotValue x ∧ x.data.length = x.length ∧
          t.dir.commits = if r.per = 2 then [(x.target, Answer.none)] else []) ∧
      (∀ k, checkWrite s a (ent (0x1020 + n) 6) v = k → k ≠ 0 → slotOwn s a n = true →
        mayWrite s a (ent (0x1020 + n) 6) = true → x.state ≠ 3 → x.read = false → x.offset = x.length →
        x.data.length = x.length → x.length ≠ 0 →
        ∃ t, exec (.commit a n v) s = .next t ∧ xslot t n = { x with state := 4, result := k, lastTick := s.clk.tick } ∧
          dirVal t x.target = dirVal s x.target)) ∧
    (x.state ≠ 0 → x.lastTick + 1600 ≤ s.clk.tick →
      ∃ t, exec (.slotIdleClose n) s = .next t ∧ xslot t n = XSlot.init ∧ (∀ m, m ≠ n → xslot t m = xslot s m) ∧
        t = { s with dir := { s.dir with slots := t.dir.slots } }) ∧
    (s.clk.tick < x.lastTick + 1600 → exec (.slotIdleClose n) s = .next s)

/-! ## The management chain -/

/-- ENUM_RESET drops the address, the sessions, the challenges and the pending alerts of the chain and deasserts MGT_ENUM_OUT. An
ENUM_OFFER that meets R387 is claimed; another is not answered. An ENUM_CONFIRM of the claimed address with the own ident and
version takes it and asserts MGT_ENUM_OUT; another ident, a level change of MGT_ENUM_IN or 10 ms of silence abandons the
take-up and counts it. Bus-off is counted and ends with recovery; an ignored frame or expired transfer only counts. -/
def Obligations.EnumerationTakesAnAddress : Prop :=
  ∀ (s : State),
    (chainServed s = true →
      (∃ t, exec .enumReset s = .next t ∧ dirNum t (ent 0x1010 1) = 0 ∧ dirNum t (ent 0x1010 2) = 0 ∧
        t.chain.enumOut = false ∧ t.chain.claim = none ∧ t.chain.sessions = [] ∧ t.chain.alerts = [] ∧
        t.chain.enumIn = s.chain.enumIn ∧ t.chain.out = s.chain.out ∧ t.hxt.sessions = s.hxt.sessions ∧
        (∀ c, c ∈ t.hxt.chals ↔ c ∈ s.hxt.chals ∧ c.chain = false) ∧ t.mem = s.mem ∧ t.path = s.path) ∧
      (∀ addr v, offerGood s addr v = true →
        ∃ t, exec (.enumOffer addr v) s = .next t ∧ t.chain.claim = some (addr, min v 2, aonNow s) ∧
          t.chain.out = s.chain.out ++
            [.claim (ownIdent s) (dirNum s (ent 0x1001 1)) (slice (dirBytes s (ent 0x1001 2)) 0 2)] ∧
          dirNum t (ent 0x1010 1) = dirNum s (ent 0x1010 1) ∧ t.mem = s.mem) ∧
      (∀ addr v, offerGood s addr v = false →
        ∃ t, exec (.enumOffer addr v) s = .next t ∧ t.chain = s.chain ∧ t.mem = s.mem) ∧
      (∀ addr v at_, s.chain.claim = some (addr, v, at_) → aonNow s ≤ at_ + 16000 →
        (∃ t, exec (.enumConfirm addr v (ownIdent s)) s = .next t ∧ dirNum t (ent 0x1010 1) = addr ∧
          dirNum t (ent 0x1010 2) = v ∧ t.chain = { s.chain with claim := none, enumOut := true } ∧ t.mem = s.mem) ∧
        (∀ w b, b ≠ ownIdent s → ∃ t, exec (.enumConfirm addr w b) s = .next t ∧
          t.chain = { s.chain with claim := none } ∧ dirNum t (ent 0x1010 1) = dirNum s (ent 0x1010 1) ∧
          dirNum t (ent 0x1010 0xA) = min (2 ^ 32 - 1) (dirNum s (ent 0x1010 0xA) + 1)) ∧
        (∀ a w b, a ≠ addr → ∃ t, exec (.enumConfirm a w b) s = .next t ∧ t.chain = s.chain)) ∧
      (∀ k, ∃ t, exec (.framesIgnored k) s = .next t ∧ t.chain = s.chain ∧ t.mem = s.mem ∧
        dirNum t (ent 0x1010 8) = min (2 ^ 64 - 1) (dirNum s (ent 0x1010 8) + 1)) ∧
      (∀ i, ∃ t, exec (.chainTransferExpiry i) s = .next t ∧ t.chain = s.chain ∧ t.mem = s.mem ∧
        dirNum t (ent 0x1010 8) = min (2 ^ 64 - 1) (dirNum s (ent 0x1010 8) + 1))) ∧
    (∀ addr v at_, s.chain.claim = some (addr, v, at_) →
      (at_ + 16000 < aonNow s → ∃ t, exec .enumConfirmTimeout s = .next t ∧ t.chain = { s.chain with claim := none } ∧
        dirNum t (ent 0x1010 0xA) = min (2 ^ 32 - 1) (dirNum s (ent 0x1010 0xA) + 1)) ∧
      (aonNow s ≤ at_ + 16000 → exec .enumConfirmTimeout s = .next s)) ∧
    (∀ c l, (s.chain.enumIn = l → exec (.mgtEnumIn c l) s = .next s) ∧
      (s.chain.enumIn ≠ l → ∃ t, exec (.mgtEnumIn c l) s = .next t ∧
        t.chain = { s.chain with claim := none, enumIn := l, enumSince := c } ∧ t.mem = s.mem ∧
        dirNum t (ent 0x1010 0xA) = (if s.chain.claim.isSome then min (2 ^ 32 - 1) (dirNum s (ent 0x1010 0xA) + 1)
          else dirNum s (ent 0x1010 0xA)))) ∧
    (dirServed s = true → s.chain.busOff = false → ∃ t, exec .busOff s = .next t ∧
      t.chain = { s.chain with busOff := true } ∧ t.mem = s.mem ∧
      dirNum t (ent 0x1010 9) = min (2 ^ 32 - 1) (dirNum s (ent 0x1010 9) + 1)) ∧
    exec .busOffRecovery s = .next { s with chain := { s.chain with busOff := false } }

/-- On an addressed version-2 chain: a good SIG HELLO is answered with a CHALLENGE; a RESPONSE that proves the manager opens its
session; CLOSE, or idleness, closes it. A malformed message only counts. A READ without a session is answered untagged at level
PUBLIC; on a session, one above the last number is run at its level and answered with a tag, a repeat of the last is answered
from store and not run, and a lower one with STALE; a WRITE leaves its value and is answered, an S one when it is committed.
ALERT_ACK takes the alerts it covers; a pending alert is sent again after 16 ticks. -/
def Obligations.ChainRequestsAndAlerts : Prop :=
  ∀ (s : State), chainServed s = true → addressed s = true →
    (∀ m c, ((c = .session m ∧ msgBad m 8193 = true) ∨
        ((c = .close m ∨ c = .chainRead m ∨ c = .chainWrite m) ∧ msgBad m 4096 = true)) →
      ∃ t, exec c s = .next t ∧ t.chain = s.chain ∧ t.hxt = s.hxt ∧ t.dir.slots = s.dir.slots ∧
        dirNum t (ent 0x1010 8) = min (2 ^ 64 - 1) (dirNum s (ent 0x1010 8) + 1)) ∧
    (∀ m, msgBad m 8193 = false → m.version = chainVersion s → chainVersion s ≠ 1 →
      let p := m.body.drop 1
      (fieldLE m.body 0 1 = 0x10 → helloFields p = false → agreeVersion (fieldLE p 8 1) (dirNum s (ent 0xB010 2)) ≠ 0 →
        fieldLE p 9 1 ≠ 0 → s.sec.idKey = true → s.chain.sessions.length < 4 →
        ∃ t c, exec (.session m) s = .next t ∧ t.hxt.chals = s.hxt.chals ++ [c] ∧ c.chain = true ∧ c.src = m.src ∧
          c.sid = s.hxt.nextSid ∧ c.hello = p ∧ c.sig = true ∧ t.chain.sessions = s.chain.sessions ∧
          t.chain.out = s.chain.out ++ [.session m.src m.xtag (leBytes 1 0x11 ++ leBytes 4 c.sid ++ c.challenge)]) ∧
      (fieldLE m.body 0 1 = 0x10 → helloFields p = false → agreeVersion (fieldLE p 8 1) (dirNum s (ent 0xB010 2)) ≠ 0 →
        fieldLE p 9 1 = 0 →
        ∃ t, exec (.session m) s = .next t ∧ t.hxt.chals = s.hxt.chals ∧ t.chain.sessions = s.chain.sessions ∧
          t.chain.out = s.chain.out ++ [.session m.src m.xtag (leBytes 1 0x14 ++ leBytes 8 (fieldLE p 0 8) ++ leBytes 1 0x12)]) ∧
      (∀ c lv tn, fieldLE m.body 0 1 = 0x12 →
        s.hxt.chals.find? (fun c => c.chain && c.src == m.src && slice c.hello 0 8 == slice p 0 8) = some c →
        s.clk.now ≤ c.at_ + usCycles 200000 → responseFields p true = false → proveHost s c p = some (lv, tn) →
        (lv = .tenant → tenantServes s tn = true) → s.chain.sessions.length < 4 →
        ∃ t x, exec (.session m) s = .next t ∧ t.chain.sessions = s.chain.sessions ++ [x] ∧ x.sid = c.sid ∧ x.src = m.src ∧
          x.level = lv ∧ x.tenant = tn ∧ x.lastTick = s.clk.tick ∧
          t.hxt.chals = s.hxt.chals.filter (fun d => !(d.sid == c.sid && d.chain == true)))) ∧
    (∀ m x, msgBad m 4096 = false → m.version = chainVersion s → reqSess s m = some x → chainTagGood s m = true →
      ∃ t, exec (.close m) s = .next t ∧ (∀ y, y ∈ t.chain.sessions ↔ y ∈ s.chain.sessions ∧ y.sid ≠ x.sid) ∧
        t.chain.out = s.chain.out ∧ t.mem = s.mem ∧
        ∀ k z, (k, z) ∈ t.dir.slots ↔ (k, z) ∈ s.dir.slots ∧ ¬(z.owner = x.sid ∧ z.chain = true)) ∧
    (∀ sid x, s.chain.sessions.find? (fun x => x.sid == sid) = some x →
      (x.lastTick + dirNum s (ent 0x1010 4) ≤ s.clk.tick → ∃ t, exec (.chainSessionIdle sid) s = .next t ∧
        (∀ y, y ∈ t.chain.sessions ↔ y ∈ s.chain.sessions ∧ y.sid ≠ sid) ∧ t.mem = s.mem) ∧
      (s.clk.tick < x.lastTick + dirNum s (ent 0x1010 4) → exec (.chainSessionIdle sid) s = .next s)) ∧
    (∀ m, msgBad m 4096 = false → m.version = chainVersion s → chainTagGood s m = true → s.dir.commits = [] →
      s.dir.waiting = [] →
      let h := hearFrames (framesOf (msgLen m)) s
      (m.flags = 0 → ∀ k v, readEntry h ⟨.pub, 0, 0, true⟩ m.obj = (k, v) →
        ∃ t b, exec (.chainRead m) s = .next t ∧ t.chain.sessions = s.chain.sessions ∧
          (k ≠ 0 → b = []) ∧ (∀ r, k = 0 → catRow m.obj = some r → b = valBytes r v) ∧
          t.chain.out = s.chain.out ++ [.resp m.src m.xtag m.version 0 m.req m.obj (typeOf m.obj) k b []]) ∧
      (∀ x, reqSess s m = some x → (s.chain.sessions.map (fun y => y.sid)).Nodup →
        let y : CSess := { x with last := m.req, stored := (storedDue, 0, []), lastTick := s.clk.tick }
        let u := onChainSess x.sid (fun _ => y) h
        let tagged := fun (k : Nat) (ty : Nat) (b : Bytes) =>
          ChainOut.resp m.src m.xtag m.version 1 m.req m.obj ty k b
            (slice (Config.hmac384 x.key (respHeader m 1 k ty b.length ++ b)) 0 16)
        (x.stored.1 = storedNone ∨ x.last < m.req → ∀ k v, readEntry u (chainActor (some x)) m.obj = (k, v) →
          ∃ t b, exec (.chainRead m) s = .next t ∧ (k ≠ 0 → b = []) ∧ (∀ r, k = 0 → catRow m.obj = some r → b = valBytes r v) ∧
            t.chain.out = s.chain.out ++ [tagged k (typeOf m.obj) b] ∧
            chainSess t m.src = some { y with stored := (k, typeOf m.obj, b) }) ∧
        (x.stored.1 = storedNone ∨ x.last < m.req → ∀ r, isSlotObj m.obj = false → catRow m.obj = some r → r.acc = 1 →
          checkWrite u (chainActor (some x)) m.obj (chainValue m) = 0 →
          (r.per ≠ 2 → m.obj ≠ ent 0x9030 1 → ∃ t, exec (.chainWrite m) s = .next t ∧ dirVal t m.obj = chainValue m ∧
            t.chain.out = s.chain.out ++ [tagged 0 (typeOf m.obj) []]) ∧
          (r.per = 2 → ∃ t, exec (.chainWrite m) s = .next t ∧ dirVal t m.obj = chainValue m ∧
            t.chain.out = s.chain.out ∧ t.dir.commits = [(m.obj, .chain m)])) ∧
        (x.stored.1 ≠ storedNone → x.stored.1 ≠ storedDue → m.req = x.last → ∀ c, c = .chainRead m ∨ c = .chainWrite m →
          ∃ t, exec c s = .next t ∧ t.chain.out = s.chain.out ++ [tagged x.stored.1 x.stored.2.1 x.stored.2.2] ∧
            t.dir.commits = [] ∧ t.hxt = s.hxt) ∧
        (x.stored.1 ≠ storedNone → m.req < x.last → ∀ c, c = .chainRead m ∨ c = .chainWrite m →
          ∃ t, exec c s = .next t ∧ t.chain.out = s.chain.out ++ [tagged 8 (typeOf m.obj) []] ∧
            t.chain.sessions = s.chain.sessions ∧ t.hxt = s.hxt))) ∧
    (∀ n, ∃ t, exec (.alertAck n) s = .next t ∧ t.chain.alerts = s.chain.alerts.filter (fun a => decide (n < a.num)) ∧
      t.chain.sessions = s.chain.sessions ∧ t.chain.out = s.chain.out ∧ t.mem = s.mem) ∧
    (alertsOn s = true → (s.chain.alerts.map (fun a => a.num)).Nodup →
      ∃ t, exec .alertResend s = .next t ∧ t.mem = s.mem ∧
        t.chain.alerts = s.chain.alerts.map (fun a => if a.lastTick + 16 ≤ s.clk.tick then { a with lastTick := s.clk.tick } else a) ∧
        t.chain.out = s.chain.out ++ (s.chain.alerts.filter (fun a => decide (a.lastTick + 16 ≤ s.clk.tick))).map
          (fun a => .alert a.num a.record))

/-! ## Ports -/

/-- TRANSMIT_SELECT on a free sub-port that is up hands over its oldest control packet; without one the head of an outbox whose
credit and gate let it start, of the highest class with such an outbox, and takes 65,536 from a shaper's credit; a busy sub-port
sends nothing. A frame for the sub-port's own address is answered by the control path, a frame that breaks the rules is counted
and dropped. A link that falls loses its waiting packets; the fourth time in 16,000 ticks it is held down for 16,000 ticks;
a loss shorter than 1 ms is counted. A link rises only in states that drive it and when it is not held. -/
def Obligations.PortsSelectRiseAndFall : Prop :=
  ∀ (s : State) (p : Nat), p < 8 →
    (portUp s p = true → mayTransmit s = true → smGetD s.trf.busy p 0 ≤ s.clk.now →
      (∀ k, s.hxt.out.find? (fun k => k.ctl && k.port == p) = some k →
        ∃ t, exec (.transmitSelect p) s = .next t ∧ t.hxt.sent = s.hxt.sent ++ [k] ∧ t.hxt.out = s.hxt.out.erase k ∧
          smGet? t.trf.busy p = some (s.clk.now + txCycles s k) ∧ t.trf.credits = s.trf.credits ∧ t.mem = s.mem) ∧
      (∀ v, v = markWaits p s → s.hxt.out.find? (fun k => k.ctl && k.port == p) = none →
        (selectBox v p = none → exec (.transmitSelect p) s = .next v) ∧
        (∀ c x k, selectBox v p = some (c, x) → headOf v p x = some k →
          shaperOpen v p x = true ∧ classOf v (x / 16) (x % 16) = c ∧ gateFits v p c (txCycles v k) = true ∧
          (∀ y, y ∈ busyOutboxes v p → c < classOf v (y / 16) (y % 16) → classOf v (y / 16) (y % 16) < 8 →
            ¬(shaperOpen v p y = true ∧ headFits v p (classOf v (y / 16) (y % 16)) y = true)) ∧
          ∃ t, exec (.transmitSelect p) s = .next t ∧ t.hxt.sent = s.hxt.sent ++ [k] ∧ t.hxt.out = v.hxt.out.erase k ∧
            smGet? t.trf.busy p = some (s.clk.now + txCycles v k) ∧ t.mem = s.mem ∧
            (dirFlag v (qObj (x / 16) (x % 16) 5) = true → smGet? t.trf.credits (creditKey (x / 16) (x % 16) p) =
              some ⟨(creditNow v (x / 16) (x % 16) p).level - 65536, s.clk.now, s.clk.now + txCycles v k⟩)))) ∧
    (portUp s p = false ∨ s.clk.now < smGetD s.trf.busy p 0 → exec (.transmitSelect p) s = .next s) ∧
    (∀ a, portUp s p = true → frameOk s p a = true → ownAddress s p a = true →
      ∃ t, exec (.arpNdIcmp p a) s = .next t ∧ t.hxt.out = s.hxt.out ++
          [⟨p, true, 0, 0, ⟨p, a.v6, a.src, 0⟩, 0, leBytes 1 (b01 a.echo) ++ leBytes 16 a.target ++ leBytes 16 a.src,
            s.clk.now, 0, false⟩] ∧
        dirNum t (ent (0xB100 + p) 0xB) = min (2 ^ 64 - 1) (dirNum s (ent (0xB100 + p) 0xB) + 1)) ∧
    (∀ a, portUp s p = true → frameOk s p a = false → ∃ t, exec (.arpNdIcmp p a) s = .next t ∧ t.hxt = s.hxt ∧
        dirNum t (ent (0xB100 + p) 0xC) = min (2 ^ 64 - 1) (dirNum s (ent (0xB100 + p) 0xC) + 1)) ∧
    (∀ w, portUp s p = true → ∃ t, exec (.rxDropped p w) s = .next t ∧
        t = { s with dir := { s.dir with vals := t.dir.vals } } ∧
        dirNum t (ent (0xB100 + p) 0xB) = min (2 ^ 64 - 1) (dirNum s (ent (0xB100 + p) 0xB) + 1) ∧
        dirNum t (ent (0xB100 + p) 0xC) = (if w < 10 then min (2 ^ 64 - 1) (dirNum s (ent (0xB100 + p) 0xC) + 1)
          else dirNum s (ent (0xB100 + p) 0xC)) ∧
        dirNum t (ent 0xB010 7) = (if 6 ≤ w ∧ w ≤ 10 then min (2 ^ 64 - 1) (dirNum s (ent 0xB010 7) + 1)
          else dirNum s (ent 0xB010 7))) ∧
    (∀ v, v = takeArrangement (p / 4) s →
      portPresent v p = true → portsDriven s = true → (portSt s p).held = none → 1 ∉ s.pins.refsLost → portUp v p = false →
        ∃ t, exec (.subportUp p) s = .next t ∧ portUp t p = true ∧ t.hxt.sessions = s.hxt.sessions ∧ t.mem = s.mem ∧
          (∀ q, q ≠ p → portUp t q = portUp v q) ∧ s.hxt.out <+: t.hxt.out) ∧
    (portsDriven s = false ∨ (portSt s p).held.isSome = true ∨ 1 ∈ s.pins.refsLost →
      exec (.subportUp p) s = .next (takeArrangement (p / 4) s)) ∧
    (portUp s p = true → ∀ c, c = .subportDown p ∨ (∃ ns b, 1000000 ≤ ns ∧ c = .pcsLockLoss p ns b) →
      let ds := (portSt s p).downs.filter (fun d => decide (s.clk.tick < d + 16000)) ++ [s.clk.tick]
      ∃ t, exec c s = .next t ∧ dirNum t (ent (0xB100 + p) 2) = 0 ∧
        t.hxt.out = s.hxt.out.filter (fun k => k.port != p) ∧
        portSt t p = (if 4 ≤ ds.length then ⟨[], some s.clk.tick⟩ else { portSt s p with downs := ds }) ∧
        ∀ q, q ≠ p → portSt t q = portSt s q) ∧
    (portUp s p = false → exec (.subportDown p) s = .next s) ∧
    (∀ ns, portUp s p = true → ns < 1000000 → ∃ t, exec (.pcsLockLoss p ns true) s = .next t ∧
      t = { s with dir := { s.dir with vals := t.dir.vals } } ∧
      dirNum t (ent (0xB100 + p) 0xC) = min (2 ^ 64 - 1) (dirNum s (ent (0xB100 + p) 0xC) + 1)) ∧
    (∀ c, (portSt s p).held = some c →
      (c + 16000 ≤ s.clk.tick → ∃ t, exec (.holdDownEnd p) s = .next t ∧ portSt t p = { portSt s p with held := none } ∧
        t = { s with pins := { s.pins with ports := t.pins.ports } }) ∧
      (s.clk.tick < c + 16000 → exec (.holdDownEnd p) s = .next s))

/-! ## Letters and power domains -/

/-- PIGEONHOLE_DELIVERY moves the oldest letter in transit on, else the oldest of a core's outbound queue; LETTER brings one from
the fabric. A letter for a thread that accepts it is held while a slot is free; a full pigeonhole drops it and raises eovf; one
for a gated cluster enters a holding slot and starts the wake. The controller and the security engine take letters with sys
set, the host pigeonhole makes a NOTE, and everything else is counted as refused. A letter for another node goes to the
best-effort class. -/
def Obligations.LettersReachTheirPigeonholes : Prop :=
  ∀ (s : State) (l : Letter),
    (∀ rest, s.pwr.transit = l :: rest → let v := { s with pwr := { s.pwr with transit := rest } }
      (phPost l.dest = recPost s →
        (∀ t, deliver l v = (.done, t) → exec .pigeonholeDelivery s = .next t) ∧
        (∀ u, deliver l v = (.kept, u) →
          exec .pigeonholeDelivery s = .next (onKnocks (l.source % 8192) (fun ks => ks ++ [l]) u))) ∧
      (phPost l.dest ≠ recPost s → ∃ t, exec .pigeonholeDelivery s = .next t ∧ t.pwr = v.pwr ∧ t.mem = s.mem ∧
        t.fab.out.length + t.fab.held.length = s.fab.out.length + s.fab.held.length + 1 ∧ s.fab.out <+: t.fab.out ∧
        dirNum t (ent 0x8010 8) = min (2 ^ 64 - 1) (dirNum s (ent 0x8010 8) + 1))) ∧
    (∀ c rest more, s.pwr.transit = [] → s.sea.outq = (c, l :: rest) :: more → phPost l.dest = recPost s →
      ∀ t, deliver l (setOutq c rest s) = (.done, t) → exec .pigeonholeDelivery s = .next t) ∧
    (s.pwr.transit = [] → s.sea.outq = [] → exec .pigeonholeDelivery s = .next s) ∧
    (∀ m, fabricOn s = true → (msgHdr m).kind = 7 → headerVerdict s (msgHdr m) = 0 → (msgHdr m).dest = recPost s →
      l = letterOf (slice m.data 0 64) →
      (∀ t, deliver l s = (.done, t) → exec (.letter m) s = .next t) ∧
      (∀ u, deliver l s = (.kept, u) →
        exec (.letter m) s = .next { u with pwr := { u.pwr with transit := u.pwr.transit ++ [l] } })) ∧
    (phClass l.dest = 1 → phNum l.dest / 16 < nCores s →
      let n := phNum l.dest
      let c := clusterOf n
      let ok := l.sys = true ∨ ((thread s n).kern = true ∧ (thread s n).tenant = l.tenant)
      (clHolds s c = false → (isLent s n = true → (thread s n).run ≠ .off ∧ (thread s n).run ≠ .stopped) → ok →
        ((thread s n).box.length < 8 → (∀ a b d, (thread s n).run ≠ .waitLetter a b d) →
          ∃ t, deliver l s = (.done, t) ∧ thread t n = { thread s n with box := (thread s n).box ++ [l] } ∧ Others n s t ∧
            t.mem = s.mem ∧ dirNum t (ent 0xC090 2) = min (2 ^ 64 - 1) (dirNum s (ent 0xC090 2) + 1)) ∧
        (∀ a b d, (thread s n).run = .waitLetter a b d → (thread s n).box = [] →
          ∃ t, deliver l s = (.done, t) ∧ (thread t n).run = .running ∧ (thread t n).box = [l] ∧
            (thread t n).pc = ((thread s n).pc + 4) % 2 ^ 64 ∧ (d ≠ 0 → rx (thread t n) d = 1) ∧ Others n s t) ∧
        (8 ≤ (thread s n).box.length → fromEngine l = false →
          ∃ t, deliver l s = (.done, t) ∧ (thread t n).box = (thread s n).box ∧ Others n s t ∧
            rcsr (thread t n) 0x8CA = min (2 ^ 32 - 1) (rcsr (thread s n) 0x8CA + 1) ∧
            dirNum t (ent 0xC090 3) = min (2 ^ 64 - 1) (dirNum s (ent 0xC090 3) + 1)) ∧
        (8 ≤ (thread s n).box.length → fromEngine l = true → ∃ u, deliver l s = (.kept, u) ∧ u.sea = s.sea ∧ u.dir = s.dir)) ∧
      (clHolds s c = true → (smGetD s.pwr.holding c []).length < 8 →
        ∃ t, deliver l s = (.done, t) ∧ smGetD t.pwr.holding c [] = smGetD s.pwr.holding c [] ++ [l] ∧ t.sea = s.sea ∧
          (clState s c = .powerGated → clState t c = .waking) ∧ (clState s c = .gating → c ∈ t.pwr.wakeWanted)) ∧
      (clHolds s c = true → 8 ≤ (smGetD s.pwr.holding c []).length → fromEngine l = false →
        ∃ t, deliver l s = (.done, t) ∧ t.pwr.holding = s.pwr.holding ∧
          smGetD t.pwr.heldOvf c [] = smGetD s.pwr.heldOvf c [] ++ [n] ∧
          dirNum t (ent 0xC090 0xA) = min (2 ^ 64 - 1) (dirNum s (ent 0xC090 0xA) + 1)) ∧
      (clHolds s c = false → isLent s n = true → ((thread s n).run = .off ∨ (thread s n).run = .stopped) →
        ∃ t, deliver l s = (.done, t) ∧ t.sea = s.sea ∧
          dirNum t (ent 0xC090 5) = min (2 ^ 64 - 1) (dirNum s (ent 0xC090 5) + 1))) ∧
    (phClass l.dest = 2 → l.sys = true → s.pwr.mcBox.length < 256 →
      ∃ t, deliver l s = (.done, t) ∧ t.pwr = { s.pwr with mcBox := s.pwr.mcBox ++ [l], boosted := true, mcIdle := s.clk.now }) ∧
    (phClass l.dest = 3 → l.sys = true → s.pwr.seBox.length < 64 →
      ∃ t, deliver l s = (.done, t) ∧ t.pwr = { s.pwr with seBox := s.pwr.seBox ++ [l] }) ∧
    (∀ n, phClass l.dest = 4 → phNum l.dest = n → n < 64 → (l.sys = true ∨ l.tenant = n) →
      (notesOf s n).pending.length < 256 → noteSess s n = none →
      ∃ t k, deliver l s = (.done, t) ∧ (notesOf t n).pending = (notesOf s n).pending ++ [k] ∧ k.type = 5 ∧
        k.body = letterBytes l ∧ k.seq = (notesOf s n).next) ∧
    (((phClass l.dest = 2 ∨ phClass l.dest = 3) ∧ l.sys = false ∨ phClass l.dest = 0 ∨ 5 ≤ phClass l.dest ∨
        phClass l.dest = 4 ∧ l.sys = false ∧ l.tenant ≠ phNum l.dest) →
      ∃ t, deliver l s = (.done, t) ∧ t = { s with dir := { s.dir with vals := t.dir.vals } } ∧
        dirNum t (ent 0xC090 4) = min (2 ^ 64 - 1) (dirNum s (ent 0xC090 4) + 1))

/-- A cluster idle for 64 cycles is clock-gated; gated for gate_frames, outside the warm floor and holding nothing, it starts its
entry, whose end loses its cached lines; a wake leaves it running with its holding slots passed. A quiet die stops; a stack
powers down, then refreshes itself; a channel group stands by; the controller leaves its boost. Where a condition does not hold
nothing changes. Above the cap one throttling step more applies, and four ticks below it by the margin, cool, release one;
above 1,300 W the fast limiter acts at once and is counted. -/
def Obligations.PowerDomainsAndTheCap : Prop :=
  ∀ (s : State),
    (∀ c, let e := c < nClusters s ∧ clState s c = .run ∧ smGetD s.pwr.clLast c 0 + 64 ≤ s.clk.now ∧
        (clusterThreads s c).any threadBusy = false ∧ (itemsOf s c).isEmpty = true ∧ clHolds s c = false
      (e → ∃ t, exec (.clockGateEntry c) s = .next t ∧ t = { s with pwr := { s.pwr with clusters := t.pwr.clusters } } ∧
        clState t c = .clockGated s.clk.now ∧ ∀ d, d ≠ c → clState t d = clState s d) ∧
      (¬ e → exec (.clockGateEntry c) s = .next s)) ∧
    (∀ c since, clState s c = .clockGated since →
      let e := since + dirNum s (ent 0x4010 2) * frameCycles ≤ s.clk.now ∧ isWarm s c = false ∧ holdsPower s c = false
      (e → ∃ t, exec (.powerGateEntry c) s = .next t ∧ t = { s with pwr := { s.pwr with clusters := t.pwr.clusters } } ∧
        clState t c = .gating ∧ ∀ d, d ≠ c → clState t d = clState s d) ∧
      (¬ e → exec (.powerGateEntry c) s = .next s)) ∧
    (∀ c, clState s c = .gating → ∃ t, exec (.powerGatedDone c) s = .next t ∧ clusterLines t c = [] ∧
      clState t c = (if c ∈ s.pwr.wakeWanted then .waking else .powerGated) ∧ c ∉ t.pwr.wakeWanted ∧
      (∀ d, d ≠ c → clState t d = clState s d) ∧ t.hxt.sessions = s.hxt.sessions) ∧
    (∀ c, clState s c = .waking → ∃ t, exec (.clusterWake c) s = .next t ∧ clState t c = .run ∧
      smGetD t.pwr.holding c [] = [] ∧ dirNum t (ent 0x4010 8) = min (2 ^ 64 - 1) (dirNum s (ent 0x4010 8) + 1)) ∧
    (∀ c, clState s c ≠ .waking → exec (.clusterWake c) s = .next s) ∧
    (∀ d at_, let v := markDies s
      smGet? v.pwr.dieIdle d = some at_ → d < 2 → d ∉ s.pwr.dieStopped → (dieClusters s d).any (isWarm s) = false →
      (at_ + dirNum s (ent 0x4010 3) * frameCycles ≤ s.clk.now → ∃ t, exec (.dieStop d) s = .next t ∧ d ∈ t.pwr.dieStopped ∧
        dieQuiet s d = true ∧ dirNum t (ent 0x4010 9) = min (2 ^ 64 - 1) (dirNum s (ent 0x4010 9) + 1) ∧ t.mem = s.mem) ∧
      (s.clk.now < at_ + dirNum s (ent 0x4010 3) * frameCycles → exec (.dieStop d) s = .next v)) ∧
    (∀ k, k < 16 → stackIdle s k = true →
      (stState s k = .active → stackLast s k + 64 ≤ s.clk.now → ∃ t, exec (.stackPowerDown k) s = .next t ∧
        stState t k = .powerDown ∧ (∀ j, j ≠ k → stState t j = stState s j) ∧
        t = { s with pwr := { s.pwr with stPower := t.pwr.stPower } }) ∧
      (stState s k = .powerDown → stackLast s k + usCycles (dirNum s (ent 0x4010 4)) ≤ s.clk.now →
        ∃ t, exec (.selfRefreshEntry k) s = .next t ∧ stState t k = .selfRefresh ∧
          (∀ j, j ≠ k → stState t j = stState s j) ∧ t = { s with pwr := t.pwr })) ∧
    (∀ k, stackIdle s k = false → exec (.stackPowerDown k) s = .next s ∧ exec (.selfRefreshEntry k) s = .next s) ∧
    (∀ g, g < 4 → g ∉ s.pwr.groupsStandby →
      (smGetD s.pwr.grLast g 0 + usCycles 1000 ≤ s.clk.now → ∃ t, exec (.channelGroupStandby g) s = .next t ∧
        (∀ h, h ∈ t.pwr.groupsStandby ↔ h = g ∨ h ∈ s.pwr.groupsStandby) ∧
        t = { s with pwr := { s.pwr with groupsStandby := t.pwr.groupsStandby } }) ∧
      (s.clk.now < smGetD s.pwr.grLast g 0 + usCycles 1000 → exec (.channelGroupStandby g) s = .next s)) ∧
    (s.pwr.boosted = true → s.pwr.mcIdle + dirNum s (ent 0x4010 6) * 1000 ≤ s.clk.now → (∀ e, keptKnocks s e = []) →
      exec .controllerIdle s = .next { s with pwr := { s.pwr with boosted := false, mcBox := [] } }) ∧
    (s.pwr.boosted = false → exec .controllerIdle s = .next s) ∧
    (∀ w, (1300 < w → ∃ t, exec (.fastLimiter w) s = .next t ∧ t.pwr = { s.pwr with fast := true } ∧ t.mem = s.mem ∧
        dirNum t (ent 0x4020 9) = min (2 ^ 64 - 1) (dirNum s (ent 0x4020 9) + 1) ∧
        (∀ r, r ∈ s.hxt.reqs → r.st = .executing → (s.hxt.reqs.map (fun x => x.rid)).Nodup →
          ∃ r', req? t r.rid = some r' ∧ r'.cause = r.cause ||| cTHROTTLE)) ∧
      (w ≤ 1300 → exec (.fastLimiter w) s = .next s)) ∧
    (∀ w temps, (s.pwr.cap < w → dirNum (powerTick w temps s) (ent 0x4020 4) = min 10 (dirNum s (ent 0x4020 4) + 1)) ∧
      (w + dirNum s (ent 0x4020 3) < s.pwr.cap → 3 ≤ s.pwr.below → tooHot s 0 temps = false → tooHot s 5 temps = false →
        dirNum (powerTick w temps s) (ent 0x4020 4) = dirNum s (ent 0x4020 4) - 1) ∧
      (powerTick w temps s).pwr.fast = false ∧ (powerTick w temps s).pwr.cap = dirNum s (ent 0x4020 1))

/-! ## Fabric links -/

/-- A link in training takes the state of Table 11-3 that its plan gives, a failed attempt is counted and the third takes the
link out, and no attempt counts while FAB_REFCLK is missing. A link that falls is out and is counted, and trains again no sooner
than 16 ticks later and not after three falls within 1,024. The standby parent takes over when it serves; 2^20 frames without
a parent halt the node. A control flit brings credits, the neighbour's ready bit and requests for replays; a replay that fails a
third time is named lost. IDLE changes nothing; a reserved kind is counted. -/
def Obligations.LinksTrainFallAndRecover : Prop :=
  ∀ (s : State) (k : Nat),
    (36 ≤ k ∨ linkState s k ≠ 1 ∨ 2 ∈ s.pins.refsLost →
      exec (.trainingAttemptTimeout k) s = .next s ∧ ∀ r, exec (.linkTrained k r) s = .next s) ∧
    (k < 36 → linkState s k = 1 → 2 ∉ s.pins.refsLost →
      (∀ r l, r.ok = true → lanesUsed r.lanes = some l → ∃ t, exec (.linkTrained k r) s = .next t ∧ t.mem = s.mem ∧
        linkState t k = trainedState s k r l ∧ ((linkSt t k).ready = true ↔ trainedState s k r l = 2) ∧
        dirNum t (linkObj k 2) = agreedGen s k r.generation ∧ dirNum t (linkObj k 3) = l ∧
        dirNum t (linkObj k 4) = r.neighbour % 65536 ∧ dirNum t (linkObj k 5) = min 0xFFFF r.delay ∧
        dirNum t (linkObj k 6) = min 0xFFFF r.eye ∧ (linkSt t k).attempts = 0 ∧
        ∀ j, j < 36 → j ≠ k → linkState t j = linkState s j) ∧
      (∀ r, r.ok = false ∨ lanesUsed r.lanes = none → exec (.linkTrained k r) s = exec (.trainingAttemptTimeout k) s) ∧
      (∃ t, exec (.trainingAttemptTimeout k) s = .next t ∧ t.mem = s.mem ∧
        (linkSt t k).attempts = (linkSt s k).attempts + 1 ∧
        linkState t k = if 3 ≤ (linkSt s k).attempts + 1 then 6 else 1)) ∧
    (∀ r l, (ownPlan s k = none → trainedState s k r l = 5) ∧ (∀ p, ownPlan s k = some p →
      (r.neighbour ≠ planPost p ∨ r.imageId ≠ imgWord s.fab.image 4 → trainedState s k r l = 5) ∧
      (r.neighbour = planPost p → r.imageId = imgWord s.fab.image 4 →
        (agreedGen s k r.generation < planGen p ∨ popcount 8 l < popcount 8 (planLanes p) → trainedState s k r l = 3) ∧
        (planGen p ≤ agreedGen s k r.generation → popcount 8 (planLanes p) ≤ popcount 8 l →
          trainedState s k r l = if 64 * imgHop s.fab.image < r.delay + 352 then 4 else 2)))) ∧
    (k < 36 ∧ 2 ≤ linkState s k ∧ linkState s k ≤ 5 → ∃ t, exec (.linkDown k) s = .next t ∧ t.mem = s.mem ∧ linkState t k = 6 ∧
      dirNum t (linkObj k 9) = min (2 ^ 32 - 1) (dirNum s (linkObj k 9) + 1) ∧
      (linkSt t k).downs = s.clk.tick :: (linkSt s k).downs ∧ (linkSt t k).ready = false ∧ (linkSt t k).pending = true) ∧
    (¬(k < 36 ∧ 2 ≤ linkState s k ∧ linkState s k ≤ 5) → exec (.linkDown k) s = .next s) ∧
    (∀ a l, (linkSt s k).downs = a :: l →
      (k < 36 → linkState s k = 6 → a + 16 ≤ s.clk.tick → staysOut s k = false → (linkSt s k).attempts < 3 →
        ∃ t, exec (.retrain k) s = .next t ∧ linkState t k = 1 ∧ linkSt t k = { linkSt s k with attempts := 0 } ∧
          t = { s with fab := t.fab, dir := { s.dir with vals := t.dir.vals } }) ∧
      (linkState s k ≠ 6 ∨ s.clk.tick < a + 16 ∨ staysOut s k = true → exec (.retrain k) s = .next s)) ∧
    (∀ a b c l, (linkSt s k).downs = a :: b :: c :: l → (staysOut s k = true ↔ a < c + 1024)) ∧
    (∀ u, u = { s with fab := { s.fab with parent := 1 - s.fab.parent } } →
      (s.fab.holdSince = none ∨ isSyntonised u = false → exec .standbyParentSwitch s = .next s) ∧
      (s.fab.holdSince ≠ none → isSyntonised u = true → ∃ t, exec .standbyParentSwitch s = .next t ∧
        t.fab = { s.fab with parent := 1 - s.fab.parent, holdSince := none } ∧ dirNum t (ent 0x4040 3) = 1 ∧
        some (dirNum t (ent 0x8020 6)) = clockLink u)) ∧
    (∀ a, s.fab.holdSince = some a → s.phase = .serving →
      (a + 2 ^ 20 * frameCycles ≤ s.clk.now → s.err.halts.length < 4 → ∃ t r, exec .holdover s = .next t ∧
        t.phase = .halting ∧ dirNum t (ent 0x5020 6) = 1 ∧ t.err.halts = s.err.halts ++ [r] ∧ r.cls = 0x18 ∧
        r.source = 0x6002 ∧ r.detail = 0x1900 ∧ r.severity = 3) ∧
      (s.clk.now < a + 2 ^ 20 * frameCycles → exec .holdover s = .next s)) ∧
    (s.fab.holdSince = none ∨ s.phase ≠ .serving → exec .holdover s = .next s) ∧
    exec (.idle k) s = .next s ∧
    (∀ m, (8 ≤ (msgHdr m).kind → exec (.reservedKindFlit m) s = .next (bump (ent 0x8010 4) s)) ∧
      ((msgHdr m).kind < 8 → exec (.reservedKindFlit m) s = .next s)) ∧
    (∀ m, m.link = k →
      ((msgHdr m).kind ≠ 5 ∨ 36 ≤ k → exec (.ctrl m) s = .next s) ∧
      ((msgHdr m).kind = 5 → k < 36 → headerVerdict s (msgHdr m) = 2 → exec (.ctrl m) s = .next (bump (ent 0x8010 2) s)) ∧
      ((msgHdr m).kind = 5 → k < 36 → headerVerdict s (msgHdr m) = 0 → s.fab.held = [] →
        slotNames ((upFrom 0 3).map (fun i => fieldLE m.inl (18 + 2 * i) 2)) = [] →
        ∃ t, exec (.ctrl m) s = .next t ∧ t.mem = s.mem ∧ t.hxt = s.hxt ∧
          (linkSt t k).credit0 = min 256 ((linkSt s k).credit0 + bits m.w3.toNat 15 0) ∧
          (linkSt t k).credit1 = min 256 ((linkSt s k).credit1 + bits m.w3.toNat 31 16) ∧
          (linkSt t k).peer = bit (fieldLE m.inl 24 8) 0 ∧
          dirNum t (linkObj k 8) = min (2 ^ 64 - 1) (dirNum s (linkObj k 8) +
            (slotNames ((upFrom 0 8).map (fun i => fieldLE m.inl (2 * i) 2))).length))) ∧
    (∀ slot ok, ((linkSt s k).announced = none → exec (.replay k slot ok) s = .next s) ∧
      (∀ n, (linkSt s k).announced = some n → (nameSlot n ≠ slot → exec (.replay k slot ok) s = .next s) ∧
        (∀ c, nameSlot n = slot → c = smGetD (linkSt s k).tries n 0 + 1 →
          ∃ t, exec (.replay k slot ok) s = .next t ∧ t.mem = s.mem ∧ (linkSt t k).announced = (linkSt s k).asked.head? ∧
            dirNum t (ent 0x8010 5) = min (2 ^ 64 - 1) (dirNum s (ent 0x8010 5) + 1) ∧
            (ok = true ∨ c < 3 → (linkSt t k).toLose = (linkSt s k).toLose) ∧
            (ok = false → c < 3 → smGetD (linkSt t k).tries n 0 = c) ∧
            (ok = false → 3 ≤ c → (linkSt t k).toLose = (linkSt s k).toLose ++ [n] ∧
              dirNum t (ent 0x8010 6) = min (2 ^ 64 - 1) (dirNum s (ent 0x8010 6) + 1)))))

/-! ## Messages of the fabric -/

/-- A header with a stale epoch is dropped and counted, one for another node is passed on or dropped. A FANOUT starts a
shard's part or answers its failure, a TREE reaches its root or the merge here, a FINALIST its owner, a FORWARD its step;
a piece waits for the rest. A READ answers the bytes, a WRITE or a POOL store writes them, a RESP gives a thread its
register. At an origin entry a waiting message leaves in the slot, or an IDLE header; a forwarding entry passes the message
on. What the address and inline bytes carry is the model's layout (log 13, log 40). -/
def Obligations.FabricMessagesDoTheirWork : Prop :=
  ∀ (s : State) (m : FabMsg) (h : Hdr), h = msgHdr m →
    (fabricOn s = false → exec (.fanout m) s = .next s ∧ exec (.tree m) s = .next s ∧ exec (.finalist m) s = .next s ∧
      exec (.forward m) s = .next s ∧ exec (.pool m) s = .next s ∧ exec (.read m) s = .next s ∧ exec (.write m) s = .next s ∧
      exec (.resp m) s = .next s) ∧
    (∀ c, c ∈ [Instr.fanout m, .tree m, .finalist m, .forward m, .pool m] → fabricOn s = true →
      (headerVerdict s h = 2 → exec c s = .next (bump (ent 0x8010 2) s)) ∧
      (headerVerdict s h = 0 → h.dest ≠ recPost s → exec c s = .next (bump (ent 0x8010 3) s)) ∧
      (MsgIn s m → c ≠ .pool m → (takePiece m s).1 = none →
        ∃ t, exec c s = .next t ∧ t = { s with fab := { s.fab with asm := t.fab.asm } })) ∧
    (∀ c k, (c, k) ∈ [(Instr.read m, 2), (.write m, 3), (.resp m, 4)] → fabricOn s = true →
      (h.kind ≠ k → exec c s = .next s) ∧
      (h.kind = k → headerVerdict s h = 2 → exec c s = .next (bump (ent 0x8010 2) s)) ∧
      (h.kind = k → headerVerdict s h = 0 → h.dest ≠ recPost s → exec c s = .next (bePut m s))) ∧
    (MsgIn s m → ∀ i, Whole m i →
      (adOp h.address = 0x10 → isResetting s h.tenant = false →
        (corpus? s h.tenant (adObj h.address) = none →
          exec (.fanout m) s = .next (answerFailed 0 h.source h.tag (adShard h.address) 0x13 (carryCause m) s)) ∧
        (∀ x, corpus? s h.tenant (adObj h.address) = some x →
          (adShard h.address ∉ x.shards → exec (.fanout m) s = .next (answerFailed 0 h.source h.tag (adShard h.address) 0x31
            (carryCause m) (disputeCorpus h.tenant (adObj h.address) s))) ∧
          (adShard h.address ∈ x.shards → exec (.fanout m) s = .next (movePaths (addSearchPart
            { mkPart 0 h.source h.tag h.tenant (adObj h.address) (adShard h.address) with
              par := slice i 16 8 ++ leBytes 1 (adMethod h.address),
              query := slice m.data 0 64 ++ slice i 0 16 ++ slice m.data 64 16,
              points := partPoints s h.address (fieldLE i 24 4), cause := carryCause m ||| nowCause s } s))))) ∧
      (adOp h.address = 0x20 → exec (.fanout m) s = .next (memberAttend h.source h.tenant h.tag (carryCause m ||| nowCause s)
        (adMethod h.address) (adShard h.address)
        (if fieldLE i 24 4 = 0 then 0 else pointAt s (adFrame h.address) (fieldLE i 24 4)) i m.data s)) ∧
      (∀ t, t = tmsgOf i m.data →
        (bits h.address 63 32 = recPost s →
          exec (.tree m) s = .next (movePaths (takeAnswer h.tag { t with cause := t.cause ||| carryCause m } s))) ∧
        (bits h.address 63 32 ≠ recPost s → ∀ r, recFor s (bits h.address 63 32) = some r → ∀ j, j < r.kids.length →
          r.kids.findIdx? (fun k => k == h.source) = some j → exec (.tree m) s =
            .next (treeInput (bits h.address 63 32) h.tag t.stage (j + 1) { t with cause := t.cause ||| carryCause m } s))) ∧
      (adOp h.address = 0x11 → isResetting s h.tenant = false → ∀ x g, corpus? s h.tenant (adObj h.address) = some x →
        groupFor s h.tenant = some g → ∀ es, es = (upFrom 0 (fieldLE i 0 2)).map (fun j => entOf (slice m.data (16 * j) 16)) →
        (∀ e, e ∈ es → shardOf e.id g.n ∈ x.shards) → exec (.finalist m) s = .next (movePaths (addFinalists
          { mkPart 1 h.source h.tag h.tenant (adObj h.address) 0 with
            par := slice i 2 3, query := m.data.drop (16 * fieldLE i 0 2), ents := es,
            points := partPoints s h.address (fieldLE i 24 4), cause := carryCause m ||| nowCause s } s))) ∧
      (adOp h.address = 1 → exec (.forward m) s = .next (movePaths (orderItem
        { mkPart 3 h.source h.tag h.tenant (adObj h.address) (adShard h.address) with par := slice i 0 9, query := m.data } s))) ∧
      (adOp h.address = 2 → exec (.forward m) s = .next (movePaths (takeCopy h i m.data s))) ∧
      (adOp h.address = 5 → exec (.forward m) s = .next (movePaths (memberAppend h.source h.tenant h.tag i m.data s))) ∧
      (adOp h.address = 8 → exec (.forward m) s = .next (movePaths (memberOpen h.source h.tenant h.tag i m.data s)))) ∧
    (MsgIn s m → s.fab.held = [] → smGetD s.fab.seqs (h.stream * 4096 + h.source) 0 < 2 ^ 32 →
      ∀ a n, a = bits h.address 51 0 → n = fieldLE m.inl 0 2 → homeRefuses h n s = (0, s) → Clean s a n →
        (h.kind = 2 → ∃ t, exec (.read m) s = .next t ∧ t.mem = s.mem ∧ t.sea = s.sea ∧ Answered s t h 0 (fixedRead s a n)) ∧
        (h.kind = 3 → amoOfCode (fieldLE m.inl 2 1) = none → a % 8 = 0 → n % 8 = 0 → ∀ b,
          b = (if n ≤ 24 then slice m.inl 8 n else slice m.data 0 n) →
          ∃ t, exec (.write m) s = .next t ∧ Answered s t h 0 [] ∧
            ∀ x, memByte t x = if a ≤ x ∧ x < a + n then b.getD (x - a) 0 else memByte s x)) ∧
    (MsgIn s m → s.fab.held = [] → smGetD s.fab.seqs (h.stream * 4096 + h.source) 0 < 2 ^ 32 →
      bits h.address 63 52 = recPost s → ∀ a, a = bits h.address 51 0 → homeRefuses h 4096 s = (0, s) → Clean s a 4096 →
        a % 8 = 0 → ∃ t, exec (.pool m) s = .next t ∧ Answered s t h 0 [] ∧
          ∀ x, memByte t x = if a ≤ x ∧ x < a + 4096 then (slice m.data 0 4096).getD (x - a) 0 else memByte s x) ∧
    (MsgIn s m → bits h.address 63 52 ≠ recPost s → exec (.pool m) s = .next (settlePaths (parcelAnswer h 0 m.data s))) ∧
    (MsgIn s m → h.kind = 4 → ∀ b, b = (if m.data.isEmpty then m.inl.drop 8 else m.data) →
      (2 ^ 31 ≤ h.tag → exec (.resp m) s = .next (settlePaths (parcelAnswer h (fieldLE m.inl 0 2) b s))) ∧
      (h.tag < 2 ^ 31 → (∀ p, p ∈ s.sea.threads → ∀ r, r ∈ p.2.remote → r.tag ≠ h.tag) → exec (.resp m) s = .next s) ∧
      (∀ th t r, h.tag < 2 ^ 31 → fieldLE m.inl 0 2 = 0 →
        s.sea.threads.find? (fun p => p.2.remote.any (fun r => r.tag == h.tag)) = some (th, t) → thread s th = t →
        t.remote.find? (fun r => r.tag == h.tag) = some r →
        ∃ v, exec (.resp m) s = .next v ∧ Others th s v ∧ v.mem = s.mem ∧
          thread v th = putRemote r.kind b { t with remote := t.remote.filter (fun x => x.tag != h.tag) })) ∧
    (∀ n, (s.fab.entries[n]? = none ∨ schedOn s = false →
        exec (.originEntry n) s = .next s ∧ exec (.scheduledForwarding n m) s = .next s) ∧
      (∀ e, s.fab.entries[n]? = some e → schedOn s = true →
        (ttIn e.1 = 0x3E → ttGood e = false → exec (.originEntry n) s = .next (originLost (ttStream e.1) (entryBad n s))) ∧
        (ttIn e.1 = 0x3E → ttGood e = true → wayOut s e.1 = none → exec (.originEntry n) s = .next (originLost (ttStream e.1) s)) ∧
        (ttIn e.1 = 0x3E → ttGood e = true → ∀ k slot d, wayOut s e.1 = some (k, slot, d) →
          (ttKind e.1 = 1 → recPost s < 4096 → ∃ x, exec (.originEntry n) s = .next (fabOut x s) ∧ x.link = k ∧ x.slot = slot ∧
            (msgHdr x).kind = 0 ∧ x.data = []) ∧
          (ttKind e.1 ≠ 1 → ∀ o b rest, (pruneOuts s).fab.outs.find? (outReady s (ttStream e.1)) = some o →
            nextPiece (ttFlits e.1) o = some (b, rest) → ∃ t x, exec (.originEntry n) s = .next t ∧ t = { s with fab := t.fab } ∧
              t.fab.out = s.fab.out ++ [x] ∧ x.link = k ∧ x.slot = slot ∧ x.data = b ∧ x.detour = d ∧
              (x.w0, x.w1, x.w2, x.w3) = hdrWords (schedHdr s o (flitsOf b)) ∧ x.inl = slice (pieceInl o) 0 32 ∧
              t.fab.outs = (match rest with
                | some y => updFirst (fun z => z == o) (fun _ => y) (pruneOuts s).fab.outs
                | none => (pruneOuts s).fab.outs.erase o))) ∧
        (ttIn e.1 < 36 → ttOut e.1 < 36 → ttGood e = true → ∀ u, u = (match wayOut s e.1 with
            | some (k, slot, d) => fabOut { m with link := k, slot := slot, detour := m.detour || d } s
            | none => s) →
          (ttCopy e.1 = false → exec (.scheduledForwarding n m) s = .next u) ∧
          (ttCopy e.1 = true → exec (.scheduledForwarding n m) s = .next (deliverSched m u)))))

/-! ## The ready wave -/

/-- NODE_READY makes a node with its links trained ready, records the bring-up time, and in a partition boot after a warm reset
first loads map and image. Once a node and its children are ready it tells its parent; the root chooses the start 0.1 ms and
65,536 cycles ahead and sends it down, and each hop adds its delay and 7 cycles. At the deadline the root holds absent
children out. The start post and a rejoin put the node into service at their frame count. What START and the ready message
carry is the model's layout (log 43). -/
def Obligations.TheReadyWaveStartsTheNode : Prop :=
  ∀ (s : State),
    (s.pins.trained = false ∨ linksBusy s = true ∨ (s.phase ≠ .booting ∧ s.phase ≠ .warmBoot) →
      exec .nodeReady s = .next s) ∧
    (s.pins.trained = true → linksBusy s = false →
      (∀ p q, (p, q) ∈ [(Phase.booting, Phase.ready), (.warmBoot, .warmReady)] → s.phase = p →
        (p = .warmBoot → s.fab.running = true ∨ s.pins.mapsIn = true) → ∃ t, exec .nodeReady s = .next t ∧
          t.phase = q ∧ t.fab.readyAt = some s.clk.now ∧ t.mem = s.mem ∧ t.flash = s.flash ∧
          dirNum t (ent 0x4050 9) = (aonNow s - s.pins.resetAt) / 1600 ∧
          (s.fab.readySent = false → s.cmp.outside = false → (∀ c, c ∈ waveKids s → c ∈ s.fab.readyKids) →
            t.fab.readySent = true ∧ (isRoot s = true → t.fab.startAt = some (s.clk.now + 160000 + 65536)))) ∧
      (s.phase = .warmBoot → s.fab.running = false → s.pins.mapsIn = false → ∃ t, exec .nodeReady s = .next t ∧
        t.phase = .warmBoot ∧ t.pins.mapsIn = true ∧ (∀ k, k < 36 → linkState t k = 1) ∧ t.mem = s.mem)) ∧
    (s.fab.readyAt = none ∨ s.fab.readySent = true ∨ s.cmp.outside = true ∨ (∃ c, c ∈ waveKids s ∧ c ∉ s.fab.readyKids) →
      tryReady s = s) ∧
    (s.fab.readyAt ≠ none → s.fab.readySent = false → s.cmp.outside = false → (∀ c, c ∈ waveKids s → c ∈ s.fab.readyKids) →
      (tryReady s).fab.readySent = true ∧ s.fab.out <+: (tryReady s).fab.out ∧
      (isRoot s = true → (tryReady s).fab.startAt = some (s.clk.now + 160000 + 65536) ∧
        (tryReady s).fab.out.length + (tryReady s).fab.held.length =
          s.fab.out.length + s.fab.held.length + (waveKids s).length) ∧
      (isRoot s = false → ∀ p, parentOf s.fab.image (recPost s) = some p → s.fab.held = [] → recPost s < 4096 →
        smGetD s.fab.seqs p 0 < 2 ^ 32 → (tryReady s).fab.startAt = s.fab.startAt ∧
        ∃ a, (tryReady s).fab.out ++ (tryReady s).fab.held = s.fab.out ++ [a] ∧
          (msgHdr a).kind = 6 ∧ (msgHdr a).dest = p ∧ fieldLE a.inl 16 1 = 1)) ∧
    (∀ child, (s.clk.counting = true ∨ child ∉ kidsOf s.fab.image (recPost s) → exec (.readyMessage child) s = .next s) ∧
      (s.clk.counting = false → child ∈ kidsOf s.fab.image (recPost s) → ∃ u, exec (.readyMessage child) s = .next (tryReady u) ∧
        u = { s with fab := { s.fab with readyKids := u.fab.readyKids } } ∧
        ∀ c, c ∈ u.fab.readyKids ↔ c = child ∨ c ∈ s.fab.readyKids)) ∧
    (∀ m, (fabricOn s = false ∨ (msgHdr m).kind ≠ 6 → exec (.start m) s = .next s) ∧
      (MsgIn s m → (msgHdr m).kind = 6 →
        (fieldLE m.inl 16 1 = 0 →
          (s.clk.counting = true ∨ s.cmp.outside = true ∨ s.fab.startAt ≠ none → exec (.start m) s = .next s) ∧
          (s.clk.counting = false → s.cmp.outside = false → s.fab.startAt = none → ∃ t, exec (.start m) s = .next t ∧
            t.fab.startAt = some (fieldLE m.inl 0 8 + (fieldLE m.inl 8 8 + linkDelay s m.link + 224 + 16) / 32) ∧
            t.fab.out.length + t.fab.held.length = s.fab.out.length + s.fab.held.length + (waveKids s).length ∧
            t.mem = s.mem ∧ t.phase = s.phase)) ∧
        (fieldLE m.inl 16 1 ≠ 0 → s.clk.counting = false → (msgHdr m).source ∈ kidsOf s.fab.image (recPost s) →
          exec (.start m) s = exec (.readyMessage (msgHdr m).source) s))) ∧
    (isRoot s = false ∨ s.fab.readySent = true ∨ s.fab.readyAt = none → exec .readyDeadline s = .next s) ∧
    (∀ a, isRoot s = true → s.fab.readySent = false → s.fab.readyAt = some a →
      (s.clk.now < a + usCycles 2000000 → exec .readyDeadline s = .next s) ∧
      (a + usCycles 2000000 ≤ s.clk.now → s.cmp.outside = false → ∃ t, exec .readyDeadline s = .next t ∧
        t.fab.readySent = true ∧ t.fab.startAt = some (s.clk.now + 160000 + 65536) ∧
        (∀ c, c ∈ waveKids s → c ∉ s.fab.readyKids → c ∈ t.cmp.nodesOut ∧
          ∀ k p, k < 36 → ownPlan s k = some p → planPost p = c → linkState t k = 6))) ∧
    (s.fab.startAt = none ∨ (s.phase ≠ .ready ∧ s.phase ≠ .warmReady) → exec .startPost s = .next s) ∧
    (∀ a, s.fab.startAt = some a → s.phase = .ready ∨ s.phase = .warmReady → ∃ t, exec .startPost s = .next t ∧
      t.phase = .serving ∧ t.clk.now = max s.clk.now a ∧ t.clk.counting = true ∧ t.clk.post = (a : Int) ∧
      t.clk.tick = s.clk.tick + 1 ∧ t.clk.tickAt = a ∧ (s.clk.now ≤ a → frameNo t = 0) ∧ t.fab.startAt = none ∧
      t.pins.posted = true ∧ t.mem = s.mem ∧ t.hxt = s.hxt) ∧
    (∀ f, ((s.phase = .warmReady ∨ s.phase = .ready) ∧ s.fab.running = true ∧ s.cmp.outside = false →
        ∃ t, exec (.rejoin f) s = .next t ∧ t.phase = .serving ∧ t.clk.counting = true ∧ frameNo t = f ∧
          t.clk.now = s.clk.now ∧ t.pins.posted = true ∧ t.mem = s.mem ∧ t.hxt = s.hxt) ∧
      (¬((s.phase = .warmReady ∨ s.phase = .ready) ∧ s.fab.running = true ∧ s.cmp.outside = false) →
        exec (.rejoin f) s = .next s))

/-! ## Resets, supplies and clocks -/

/-- Pins count once they qualify; shorter pulses only add to their count. A power failure in service starts the flush, whose end
leaves the stacks in self-refresh; one during bring-up parks the node. A cold reset clears the node but for NAND, entries of
persistence L and S; a cold boot with a good image zeroes and seals the stacks and trains the links, else it ends in
BOOT_FAILED. A warm reset accepted under the rate rule runs to its hold point and keeps the stacks. A rail fault flushes or
stops the node with a FATAL record, a droop is logged; heat halts and trips; a lost reference takes down what needs it. -/
def Obligations.ResetsSuppliesAndClocks : Prop :=
  ∀ (s : State),
    (∀ ns, (s.phase ∈ [Phase.flushing, .flushDone, .coldReset, .stopped] → exec (.pwrfailN ns) s = .next s) ∧
      (s.phase ∉ [Phase.flushing, .flushDone, .coldReset, .stopped] →
        (ns < 1000 → exec (.pwrfailN ns) s = .next (bump (ent 0x4050 6) s)) ∧
        (1000 ≤ ns → ns < 1250 → ∃ u, u = { s with free := s.free + 1 } ∧
          (exec (.pwrfailN ns) s = .next (powerFail u) ∨ exec (.pwrfailN ns) s = .next (bump (ent 0x4050 6) u))) ∧
        (1250 ≤ ns → exec (.pwrfailN ns) s = .next (powerFail s)))) ∧
    (s.phase ∈ [Phase.serving, .warmReset, .warmHold, .warmBoot, .warmReady, .halting, .halted] →
      (powerFail s).phase = .flushing ∧ (powerFail s).hxt.reqs = [] ∧ (powerFail s).hxt.asm = [] ∧ (powerFail s).mem = s.mem ∧
      (powerFail s).flash = s.flash ∧ (∀ k, k < 36 → linkState (powerFail s) k = 6) ∧
      (∀ c, c < nClusters s → clState (powerFail s) c = .powerGated) ∧ ∀ p, p < 8 → portUp (powerFail s) p = false) ∧
    (s.phase ∈ [Phase.railWait, .booting, .ready] → s.pins.porstDue = false → (powerFail s).phase = .flushDone) ∧
    (∀ p q, (p, q) ∈ [(Phase.flushing, Phase.flushDone), (.halting, .halted)] → s.phase = p → ∃ t, exec .flushDone s = .next t ∧
      (s.pins.porstDue = true → t.phase = .coldReset ∧ dirNum t (ent 0x4050 1) = 1) ∧
      (s.pins.porstDue = false → t.phase = q ∧ (s.flash.serving = true → t.flash.flushRec = true) ∧
        (q = .halted → t.pins.haltDone = true) ∧ (q = .flushDone → ∀ k, k < 16 → stState t k = .selfRefresh))) ∧
    (s.phase ≠ .flushing → s.phase ≠ .halting → exec .flushDone s = .next s) ∧
    (∀ a n, (s.phase = .coldReset → exec (.porstN a n) s = .next s ∧ exec (.wrstN a n) s = .next s) ∧
      (s.phase ≠ .coldReset → n < 16 → exec (.porstN a n) s = .next (bump (ent 0x4050 5) (atPin (a + n) s)) ∧
        exec (.wrstN a n) s = .next (bump (ent 0x4050 5) (atPin (a + n) s))) ∧
      (16 ≤ n → s.phase ∈ [Phase.serving, .warmReset, .warmHold, .warmBoot, .warmReady] →
        ∃ t, exec (.porstN a n) s = .next t ∧ t.phase = .flushing ∧ t.pins.porstDue = true) ∧
      (16 ≤ n → s.phase ∈ [Phase.flushing, .halting] → exec (.porstN a n) s =
        .next { atPin (a + n) s with pins := { s.pins with porstDue := true } }) ∧
      (16 ≤ n → s.phase ∈ [Phase.railWait, .bootFailed, .booting, .ready, .halted, .flushDone, .stopped] →
        ∃ t, exec (.porstN a n) s = .next t ∧ t.phase = .coldReset ∧ dirNum t (ent 0x4050 1) = 1 ∧ t.hxt.sessions = [] ∧
          t.mem = State.reset.mem ∧ t.err = State.reset.err ∧ ((∀ c, c ∈ s.path.corpora → ∀ i, i ∈ c.items → i.ready = false) →
            (∀ p, p ∈ newerCopy s → perOf p.1 = 2) → (s.dir.vals.map (fun p => p.1)).Nodup →
            t.flash.store = s.flash.store ∧ ∀ obj, perOf obj = 3 → dirVal t obj = dirVal s obj)) ∧
      (s.phase ≠ .coldReset → 16 ≤ n → ∀ u, u = { atPin (a + 16) s with pins := { s.pins with wrstLow := true } } →
        (s.phase = .bootFailed → exec (.wrstN a n) s = .next u) ∧
        (s.phase ≠ .bootFailed → warmAccepted u (a + 16) = false → exec (.wrstN a n) s = .next (bump (ent 0x4050 4) u)) ∧
        (warmAccepted u (a + 16) = true → ∃ t, exec (.wrstN a n) s = .next t ∧ t.phase = .warmReset ∧ t.hxt.reqs = [] ∧
          dirNum t (ent 0x4050 1) = 2 ∧ dirNum t (ent 0x4050 3) = min (2 ^ 64 - 1) (dirNum s (ent 0x4050 3) + 1) ∧
          t.pins.warmAt = some (a + 16) ∧ t.flash = s.flash))) ∧
    (∀ c, warmAccepted s c = true → s.phase ∈ [Phase.serving, .warmBoot, .warmReady, .halted] ∧
      ∀ a, s.pins.warmAt = some a → a + 160000 ≤ c) ∧
    (∀ a v, dirServed s = true → s.dir.commits = [] → checkWrite s a (ent 0x4050 2) v = 0 → valNum v = 1 →
      warmAccepted s (aonNow s) = true → ∃ t, exec (.warmRequest a v) s = .next t ∧ t.phase = .warmReset ∧
        dirNum t (ent 0x4050 1) = 3 ∧ t.hxt.reqs = []) ∧
    (∀ inp, (s.phase ≠ .coldReset → exec (.coldBoot inp) s = .next s) ∧
      (s.phase = .coldReset → inp.railsOk = true → exec (.coldBoot inp) s = .next (bootNow inp s)) ∧
      (s.phase = .coldReset → inp.railsOk = false → ∃ t, exec (.coldBoot inp) s = .next t ∧ t.phase = .railWait ∧
        t.pins.bootIn = some inp ∧ dirNum t (ent 0x4030 6) = min (2 ^ 32 - 1) (dirNum s (ent 0x4030 6) + 1)) ∧
      (s.phase = .railWait → s.pins.bootIn = some inp → exec .railsInTolerance s = .next (bootNow inp s)) ∧
      (s.phase ≠ .railWait ∨ s.pins.bootIn = none → exec .railsInTolerance s = .next s) ∧
      dirNum (bootNow inp s) (ent 0x4050 8) = min (2 ^ 64 - 1) (dirNum s (ent 0x4050 8) + 1) ∧
      (inp.pufOk = false → (bootNow inp s).phase = .bootFailed ∧ dirNum (bootNow inp s) (ent 0x9010 0xA) = 1) ∧
      (gradeParts inp.grade = none ∨ inp.recordOk = false → (bootNow inp s).phase = .bootFailed) ∧
      (inp.imageAOk = false → inp.imageBOk = false → (bootNow inp s).phase = .bootFailed) ∧
      (∀ p, inp.pufOk = true → inp.recordOk = true → gradeParts inp.grade = some p → inp.imageAOk = true →
        inp.imageBOk = true → dirNum s (ent 0x9020 4) ≤ inp.versionA → dirNum s (ent 0x9020 4) ≤ inp.versionB →
        s.dir.restore = false → (bootNow inp s).phase = .booting ∧ dirNum (bootNow inp s) (ent 0x1001 1) = inp.grade ∧
        (bootNow inp s).sec.runB = firstSlot s ∧ (∀ x, memByte (bootNow inp s) x = 0) ∧
        (∀ r, rowUnsealed (bootNow inp s) r = false) ∧ ∀ k, k < 36 → linkState (bootNow inp s) k = 1)) ∧
    (s.phase ≠ .warmReset → exec .holdPoint s = .next s) ∧
    (s.phase = .warmReset → ∃ t, exec .holdPoint s = .next t ∧ t.phase = (if s.pins.wrstLow then .warmHold else .warmBoot) ∧
      t.hxt.sessions = [] ∧ t.path.ctx = [] ∧ t.path.tabs = [] ∧ t.mem.lines = [] ∧ (∀ p, p < 8 → portUp t p = false) ∧
      (s.flash.serving = false → ∀ x, inStack x = true → memByte t x = memByte s x)) ∧
    (s.phase = .warmHold → ∃ t, exec .wrstNRelease s = .next t ∧ t.phase = .warmBoot ∧ t.pins.wrstLow = false ∧ t.mem = s.mem ∧
      ∀ k, k < 36 → linkState t k = 1) ∧
    (s.phase ≠ .warmHold → exec .wrstNRelease s = .next { s with pins := { s.pins with wrstLow := false } }) ∧
    (∀ r ns, (s.phase = .coldReset ∨ s.phase = .stopped ∨ r = 0 ∨ 12 < r ∨ ns < 2000 → exec (.railFault r ns) s = .next s) ∧
      (s.phase ≠ .coldReset → s.phase ≠ .stopped → 0 < r → r ≤ 12 → 2000 ≤ ns →
        (r ∉ [3, 4, 6, 7] → s.err.halts.length < 4 → ∃ t e, exec (.railFault r ns) s = .next t ∧ t.phase = .stopped ∧
          t.err.halts = s.err.halts ++ [e] ∧ e.cls = 0x16 ∧ e.severity = 3 ∧ e.detail = r ∧
          dirNum t (ent 0x4030 3) = min (2 ^ 32 - 1) (dirNum s (ent 0x4030 3) + 1) ∧ t.mem = s.mem ∧ t.flash = s.flash) ∧
        (r ∈ [3, 4, 6, 7] → s.phase = .serving → ∃ t, exec (.railFault r ns) s = .next t ∧ t.phase = .flushing ∧
          dirNum t (ent 0x4030 3) = min (2 ^ 32 - 1) (dirNum s (ent 0x4030 3) + 1)))) ∧
    (∀ r mv ns, (nodeAwake s = true ∧ 50 < mv ∧ 20 ≤ ns ∧ ns < 2000 → ∃ t, exec (.droop r mv ns) s = .next t ∧
        t = { s with log := t.log } ∧ (dieLog t (railDie r)).droops = (dieLog s (railDie r)).droops + 1 ∧
        (dieLog t (railDie r)).droopLog = ((timestamp s, mv) :: (dieLog s (railDie r)).droopLog).take 64) ∧
      (¬(nodeAwake s = true ∧ 50 < mv ∧ 20 ≤ ns ∧ ns < 2000) → exec (.droop r mv ns) s = .next s)) ∧
    (∃ t, exec .vaonCollapse s = .next t ∧ t.phase = .coldReset ∧ t.clk = State.reset.clk ∧ t.pins.thermtrip = false ∧
      dirNum t (ent 0x4050 1) = 0 ∧ t.err = State.reset.err ∧ t.mem = State.reset.mem) ∧
    (∀ d temp, (nodeAwake s = true ∧ (if 3 ≤ d then 100 ≤ temp else 110 ≤ temp) →
        ∃ t, exec (.thermalHalt d temp) s = .next t ∧ dirNum t (ent 0x5020 6) = 1 ∧
          dirNum t (ent 0x4030 4) = min (2 ^ 32 - 1) (dirNum s (ent 0x4030 4) + 1) ∧
          t.phase = (if canHalt s.phase then .halting else s.phase)) ∧
      (¬(nodeAwake s = true ∧ (if 3 ≤ d then 100 ≤ temp else 110 ≤ temp)) → exec (.thermalHalt d temp) s = .next s) ∧
      exec (.thermtrip d temp) s = .next (if (if 3 ≤ d then 103 ≤ temp else 120 ≤ temp) then
        { s with pins := { s.pins with thermtrip := true, tripSeen := some d } } else s)) ∧
    (∀ w, (2 < w ∨ w ∈ s.pins.refsLost ∨ nodeAwake s = false → exec (.referenceLoss w) s = .next s) ∧
      (w ≤ 2 → w ∉ s.pins.refsLost → nodeAwake s = true → ∃ t, exec (.referenceLoss w) s = .next t ∧
        (∀ v, v ∈ t.pins.refsLost ↔ v = w ∨ v ∈ s.pins.refsLost) ∧
        dirNum t (ent 0x4040 5) = min (2 ^ 32 - 1) (dirNum s (ent 0x4040 5) + 1) ∧
        (w = 0 → (isRoot s = true ∨ isSyntonised s = false) → dirNum t (ent 0x4040 4) = 2 ∧
          t.phase = (if canHalt s.phase then .halting else s.phase)) ∧
        (w = 0 → isRoot s = false → isSyntonised s = true → t.phase = s.phase ∧ t.mem = s.mem ∧ t.hxt = s.hxt) ∧
        (w = 1 → t.phase = s.phase ∧ ∀ p, p < 8 → portUp t p = false) ∧
        (w = 2 → t.phase = s.phase ∧ ∀ k, k < 36 → linkState t k =
          if carriesBe s k = true ∧ dirNum s (linkObj k 2) = 1 then 6 else linkState s k)) ∧
      (w ∈ s.pins.refsLost → ∃ t, exec (.referenceReturn w) s = .next t ∧
        t = { s with pins := t.pins, dir := { s.dir with vals := t.dir.vals } } ∧
        ∀ v, v ∈ t.pins.refsLost ↔ v ≠ w ∧ v ∈ s.pins.refsLost) ∧
      (w ∉ s.pins.refsLost → exec (.referenceReturn w) s = .next s))

/-! ## Errors, the logbook and margins -/

/-- A repeat changes only its open record, another error enters as a new record while the queue has room and is counted lost
otherwise. RECORD_HANDLED ends the handling of the record that is handled and logs a DEGRADED one, RECORD_CLOSE closes records
past their window, REMOVE takes the head, and finished heads go by themselves while that is on. The patrol rewrites a
correctable word and leaves an uncorrectable one. A halt writes its record and flags and stops service; the watchdog restarts
the controller. Logbooks and summaries take a die's totals, ageing readings and margin plans follow Table 18-10. -/
def Obligations.ErrorsLogbookAndMargins : Prop :=
  ∀ (s : State),
    (∀ e, ((s.err.queue.any (isRepeat s e)) = true →
        (raise e s).err = { s.err with queue := updFirst (isRepeat s e) (mergeRepeat s) s.err.queue }) ∧
      ((s.err.queue.any (isRepeat s e)) = false → s.err.queue.length < 64 →
        (raise e s).err = { s.err with queue := s.err.queue ++ [newRec s e] } ∧
        dirNum (raise e s) (ent 0x5010 7) = dirNum s (ent 0x5010 7) + 1) ∧
      ((s.err.queue.any (isRepeat s e)) = false → 64 ≤ s.err.queue.length → (raise e s).err = s.err ∧
        dirNum (raise e s) (ent 0x5020 1) = 1 ∧
        dirNum (raise e s) (ent 0x5020 2) = min (2 ^ 32 - 1) (dirNum s (ent 0x5020 2) + 1))) ∧
    (∀ q, (nodeAwake s = false ∨ (∀ r, handling s = some r → r.seq ≠ q) → exec (.recordHandled q) s = .next s) ∧
      (∀ r, nodeAwake s = true → handling s = some r → r.seq = q → (s.err.queue.map (fun x => x.seq)).Nodup →
        ∃ t, exec (.recordHandled q) s = .next t ∧ t.hxt = s.hxt ∧
          (dirFlag s (ent 0x5010 8) = false → t.err.queue.map (fun x => x.seq) = s.err.queue.map (fun x => x.seq) ∧
            ∀ x, x ∈ t.err.queue → (x.seq = q → x.handled = true) ∧
              (x.seq ≠ q → ∃ y, y ∈ s.err.queue ∧ y.seq = x.seq ∧ y.handled = x.handled)) ∧
          (dirFlag s (ent 0x5010 8) = true → t.err.queue.map (fun x => x.seq) <:+ s.err.queue.map (fun x => x.seq) ∧
            ∀ x l, t.err.queue = x :: l → headDone t x = false) ∧
          (2 ≤ r.severity → (dieLog s (dieOfSource s r.source)).full.length < 4096 →
            (dieLog t (dieOfSource s r.source)).full = (dieLog s (dieOfSource s r.source)).full ++ [r]))) ∧
    (∀ q, (s.err.queue.any (windowOver s q) = false → exec (.recordClose q) s = .next s) ∧
      (s.err.queue.any (windowOver s q) = true → dirFlag s (ent 0x5010 8) = false → exec (.recordClose q) s = .next { s with
        err := { s.err with queue := updFirst (windowOver s q) (fun r => { r with opened := false }) s.err.queue } })) ∧
    (∀ a v, dirServed s = true → s.dir.commits = [] →
      (checkWrite s a (ent 0x5010 3) v ≠ 0 → ∃ t, exec (.remove a v) s = .next t ∧ t.err = s.err ∧
        t.dir.status = checkWrite s a (ent 0x5010 3) v) ∧
      (checkWrite s a (ent 0x5010 3) v = 0 → ∃ r l, s.err.queue = r :: l ∧ r.seq = valNum v ∧ r.handled = true ∧
        ∃ t, exec (.remove a v) s = .next t ∧ t.dir.status = 0 ∧
          (dirFlag s (ent 0x5010 8) = false → t.err = { s.err with queue := l }))) ∧
    (∀ a, (nodeAwake s = false → exec (.patrol a) s = .next s) ∧
      (nodeAwake s = true → s.mem.wbq = [] → (∀ w, w ∈ patrolWords s a → isBad s w = false ∧ isFixable s w = false) →
        exec (.patrol a) s = .next s) ∧
      (∀ m off, nodeAwake s = true → s.mem.wbq = [] → region s a = .store m off → region s (8 * (a / 8)) = .store m (off / 8 * 8) →
        (isFixable s (a / 8) = true → isBad s (a / 8) = false → ∃ t, exec (.patrol a) s = .next t ∧
          memRead t (8 * (a / 8)) 8 = fixWord s (a / 8) ∧ isFixable t (a / 8) = false ∧ t.hxt = s.hxt ∧
          ∀ x, x / 8 ≠ a / 8 → memByte t x = memByte s x) ∧
        (isBad s (a / 8) = true → ∃ t, exec (.patrol a) s = .next t ∧ t.mem = s.mem ∧ t.hxt = s.hxt ∧
          dirNum t (ent 0x5020 3) = 1 ∧ dirNum t (ent 0x5030 3) = min (2 ^ 64 - 1) (dirNum s (ent 0x5030 3) + 1)))) ∧
    (∀ c, (nodeAwake s = false → exec (.halt c) s = .next s) ∧
      (nodeAwake s = true → ∃ t, exec (.halt c) s = .next t ∧ dirNum t (ent 0x5020 6) = 1 ∧
        (c.errorPath = true → dirNum t (ent 0x5020 7) = 1) ∧ t.phase = (if canHalt s.phase then .halting else s.phase) ∧
        (canHalt s.phase = true → ∀ k, k < 36 → linkState t k = 6) ∧
        (s.err.halts.length < 4 → ∃ r, t.err.halts = s.err.halts ++ [r] ∧ r.cls = 0x18 ∧ r.severity = 3 ∧
          r.source = c.source ∧ r.location = c.location ∧ r.detail = c.cls * 256 + c.syndrome) ∧
        (4 ≤ s.err.halts.length → t.err.halts = s.err.halts))) ∧
    (nodeAwake s = false ∨ s.err.mcDown = true ∨ s.clk.tick < s.err.wdTick + 4 → exec .watchdogExpiry s = .next s) ∧
    (nodeAwake s = true → s.err.mcDown = false → s.err.wdTick + 4 ≤ s.clk.tick → ∃ t, exec .watchdogExpiry s = .next t ∧
      t.err.mcDown = true ∧ t.dir.waiting = [] ∧ dirNum t (ent 0x5020 8) = 1 ∧
      dirNum t (ent 0x5020 9) = min (2 ^ 32 - 1) (dirNum s (ent 0x5020 9) + 1) ∧
      t.err.wdResets = (s.clk.tick :: s.err.wdResets).take 3 ∧
      t.sec.meas = (extendM 2 (slice (s.sec.parts.getD 1 []) 0 48) s).sec.meas ∧
      (∀ b c l, s.err.wdResets = b :: c :: l → s.clk.tick < c + 1024 → canHalt s.phase = true → t.phase = .halting) ∧
      (s.err.wdResets.length < 2 → t.phase = s.phase)) ∧
    (s.err.mcDown = false → exec .controllerRestartDone s = .next s) ∧
    (s.err.mcDown = true → exec .controllerRestartDone s = .next { s with
      err := { s.err with mcDown := false, wdTick := s.clk.tick } }) ∧
    (∀ d, let due := d < 19 ∧ nodeAwake s = true ∧ ∀ p, smGet? s.log.saved d = some p → dirNum s (ent 0xA010 7) ≤ s.clk.tick - p.1
      (due → s.flash.serving = true → ∃ t, exec (.logbookAppend d) s = .next t ∧ dirNum t (ent 0xA010 6) = timestamp s ∧
        t.log = { s.log with saved := smPut s.log.saved d (s.clk.tick, s.log.order + 1, dieLog s d), order := s.log.order + 1 }) ∧
      (¬due ∨ s.flash.serving = false → exec (.logbookAppend d) s = .next s)) ∧
    (∀ d, (d < 19 ∧ nodeAwake s = true ∧ summaryDue s d = true → ∃ t, exec (.logbookSummary d) s = .next t ∧
        t.log = { s.log with summ := smPut s.log.summ d (s.clk.tick, s.log.order + 1, dieLog s d), order := s.log.order + 1 } ∧
        dirNum t (ent 0xA010 8) = min (2 ^ 32 - 1) (dirNum s (ent 0xA010 8) + 1)) ∧
      (¬(d < 19 ∧ nodeAwake s = true ∧ summaryDue s d = true) → exec (.logbookSummary d) s = .next s)) ∧
    (∀ d l, let due := d < 19 ∧ nodeAwake s = true ∧ ∀ n, smGet? s.log.readTick d = some n → n + 1600 ≤ s.clk.tick
      (¬due → exec (.ageingReading d l) s = .next s) ∧
      (due → ∃ t, exec (.ageingReading d l) s = .next t ∧ smGet? t.log.readTick d = some s.clk.tick ∧
        (∀ i, i < 64 → fieldLE (dirBytes t (ent 0xA020 3)) (128 * d + 2 * i) 2 = min 0xFFFF (l.getD i 0)) ∧
        ∀ k, k < 19 → k ≠ d → dieAge t k = dieAge s k)) ∧
    (∀ i, let due := nodeAwake s = true ∧ (s.log.replan = true ∨ s.log.planTick + dirNum s (ent 0xA020 0xA) ≤ s.clk.tick)
      (¬due → exec (.marginReplan i) s = .next s) ∧
      (due → ∃ t, exec (.marginReplan i) s = .next t ∧ t.log.replan = false ∧ t.log.planTick = s.clk.tick ∧
        dirNum t (ent 0xA020 2) = timestamp s ∧
        (∀ d, d < 3 → smGetD t.log.raising d 0 =
          min (wantSteps s d) (dirNum s (ent 0xA020 9) / 5) - guardband s d / 5) ∧
        (∀ d, d < 2 → fieldLE (dirBytes t (ent 0xA020 6)) (2 * d) 2 = if dirNum s (ent 0xA020 9) < 5 * wantSteps s d then
          lowerBin (binNow s d) else fieldLE (dirBytes s (ent 0xA020 6)) (2 * d) 2)))

/-! ## Security -/

/-- While no write waits for the boot flash: an operator root extends M7 and is open to anyone on the chain only while none is
held and only self-signed; a nonce is kept for its session, over which a report is read, and without which it is not; a tenant
key is open to level SECURITY alone, is set or cleared and counted; a higher debug mode extends M6, and OPEN closes every
session and erases every key; a confirmation ends the trial. JTAG answers BYPASS and IDCODE in every mode and reaches memory in
OPEN alone; console input is taken in CONSOLE and OPEN. -/
def Obligations.KeysReportsAndDebugModes : Prop :=
  ∀ (s : State),
    (∀ v a, (a.level = .pub → checkWrite s a (ent 0x9010 3) v = 0 → a.chain = true ∧ dirBytes s (ent 0x9010 3) = [] ∧
        Config.selfSigned (valBlob v) = true) ∧
      (a.level = .tenant ∨ a.level = .operator → checkWrite s a (ent 0x9010 3) v = 3 ∧ checkWrite s a (ent 0x9030 1) v = 3) ∧
      (∀ k, k < 64 → a.level ≠ .security → checkWrite s a (ent (0x9100 + k) 1) v = 3) ∧
      (a.level = .pub → checkWrite s a (ent 0x9010 8) v = 3)) ∧
    (∀ a v, dirServed s = true → s.dir.commits = [] →
      (checkWrite s a (ent 0x9010 3) v = 0 → ∃ t, exec (.operatorRoot a v) s = .next t ∧ dirVal t (ent 0x9010 3) = v ∧
        t.sec = (extendM 7 (slice (Config.sha384 (valBlob v)) 0 48) s).sec ∧ t.dir.commits = [(ent 0x9010 3, Answer.none)] ∧
        t.hxt = s.hxt) ∧
      (checkWrite s a (ent 0x9010 3) v ≠ 0 → ∃ t, exec (.operatorRoot a v) s = .next t ∧
        t.dir.vals = s.dir.vals ∧ t.sec = s.sec) ∧
      (checkWrite s a (ent 0x9010 8) v = 0 → (if a.chain then (s.chain.sessions.map (fun x => x.sid)).Nodup ∧
          ∃ x, x ∈ s.chain.sessions ∧ x.sid = a.session else (sess? s a.session).isSome = true) →
        ∃ t, exec (.nonce a v) s = .next t ∧ nonceOf t a = some (valBlob v) ∧ t.dir.vals = s.dir.vals ∧ t.sec = s.sec) ∧
      (∀ k b, checkWrite s a (ent (0x9100 + k) 1) (.blob b) = 0 → k < 64 → ∃ t, exec (.psk a k (.blob b)) s = .next t ∧
        t.dir.commits = [(ent (0x9100 + k) 1, Answer.none)] ∧ smGet? t.sec.psk k = (if allZero b then none else some b) ∧
        (∀ j, j ≠ k → smGet? t.sec.psk j = smGet? s.sec.psk j) ∧ k ∉ t.sec.pskBad ∧
        dirNum t (ent (0x9100 + k) 2) = (if allZero b then 0 else 1) ∧
        dirNum t (ent (0x9100 + k) 3) = min (2 ^ 32 - 1) (dirNum s (ent (0x9100 + k) 3) + 1)) ∧
      (checkWrite s a (ent 0x9030 1) v = 0 → ∃ t, exec (.debugMode a v) s = .next t ∧ dirVal t (ent 0x9030 1) = v ∧
        (valNum v ≤ dirNum s (ent 0x9030 1) → t.sec = s.sec ∧ t.hxt = s.hxt) ∧
        (dirNum s (ent 0x9030 1) < valNum v → t.sec.opened = true ∧
          t.sec.meas = (extendM 6 [BitVec.ofNat 8 (valNum v)] s).sec.meas ∧
          (valNum v < 3 → t.hxt = s.hxt ∧ t.sec.psk = s.sec.psk ∧ t.sec.idKey = s.sec.idKey) ∧
          (valNum v = 3 → t.hxt.sessions = [] ∧ t.sec.idKey = false ∧ (∀ k, k < 64 → smGet? t.sec.psk k = none) ∧
            dirNum t (ent 0x9030 3) = min (2 ^ 32 - 1) (dirNum s (ent 0x9030 3) + 1)))) ∧
      (checkWrite s a (ent 0x9020 6) v = 0 → valNum v = 1 → ∃ t, exec (.confirm a v) s = .next t ∧
        dirNum t (ent 0x9020 7) = 0 ∧ t.hxt = s.hxt ∧
        t.sec = { s.sec with trialA := s.sec.trialA && s.sec.runB, trialB := s.sec.trialB && !s.sec.runB })) ∧
    (∀ a, dirServed s = true → s.dir.commits = [] →
      (∀ n, a.level ≠ .pub → nonceOf s a = some n → s.sec.idKey = true →
        exec (.report a) s = .next { s with dir := { s.dir with status := 0, value := some (.blob (reportBytes s n)) } }) ∧
      (a.level ≠ .pub → nonceOf s a = none ∨ s.sec.idKey = false →
        exec (.report a) s = .next { s with dir := { s.dir with status := 2, value := none } }) ∧
      (a.level = .pub → exec (.report a) s = .next { s with dir := { s.dir with status := 3, value := none } })) ∧
    (∀ c, c ∈ [Instr.operatorRoot ⟨.security, 0, 0, true⟩ (.blob []), .confirm ⟨.security, 0, 0, true⟩ (.num 1),
        .report ⟨.security, 0, 0, true⟩] → dirServed s = false → exec c s = .next s) ∧
    (s.phase ≠ .coldReset →
      (∀ l, exec (.jtagAccess (.bypass l)) s = .next { s with sec := { s.sec with
        tap := s.sec.tap ++ (0 :: l.map b01).take l.length } }) ∧
      exec (.jtagAccess .idcode) s = .next { s with sec := { s.sec with tap := s.sec.tap ++ [dirNum s (ent 0x9030 2)] } } ∧
      (∀ x v, (dirNum s (ent 0x9030 1) ≠ 3 → exec (.jtagAccess .scan) s = .next s ∧
          exec (.jtagAccess (.memRead x)) s = .next s ∧ exec (.jtagAccess (.memWrite x v)) s = .next s) ∧
        (dirNum s (ent 0x9030 1) = 3 → exec (.jtagAccess (.memRead x)) s =
            .next { s with sec := { s.sec with tap := s.sec.tap ++ [(memByte s x).toNat] } } ∧
          (∃ t n, exec (.jtagAccess .scan) s = .next t ∧ t = { s with free := s.free + 1, sec := { s.sec with tap := s.sec.tap ++ [n] } }) ∧
          ∃ t, exec (.jtagAccess (.memWrite x v)) s = .next t ∧ t = { s with mem := t.mem } ∧
            ((∃ k o, region s x = .stack k o ∨ region s x = .store k o ∨ region s x = .scratch k o) →
              ∀ y, memByte t y = if y = x then v else memByte s y)))) ∧
    (s.phase = .coldReset → ∀ op, exec (.jtagAccess op) s = .next s) ∧
    (∀ b, (dirServed s = true → 2 ≤ dirNum s (ent 0x9030 1) →
        exec (.consoleInput b) s = .next { s with sec := { s.sec with console := s.sec.console ++ b } }) ∧
      (dirServed s = false ∨ dirNum s (ent 0x9030 1) < 2 → exec (.consoleInput b) s = .next s))

/-! ## RV64GC -/

/-- Where the word at the program counter lies in the core's instruction cache, a thread that may issue executes it: the
arithmetic of RV64I and M writes its destination alone and moves on, x0 stays zero, jumps link and branches go where they say, a
compressed add moves on by two bytes, EBREAK traps to machine mode, an unknown opcode is an illegal instruction, and a word of
the Eorus opcodes does what its own command does. A thread that may not issue does nothing. The encodings and effects are
those of the RISC-V documents that the spec names (log 18). -/
def Obligations.Rv64WordsExecute : Prop :=
  ∀ (s : State) (th w : Nat),
    (canIssue s th = false → exec (.rv64gcInstruction th) s = .next s) ∧
    (Fetched s th w → canIssue s th = true → ∀ op f3 f7 rd r1 r2 pc, op = bits w 6 0 → f3 = bits w 14 12 → f7 = bits w 31 25 →
      rd = bits w 11 7 → r1 = bits w 19 15 → r2 = bits w 24 20 → pc = (thread s th).pc → ∀ a b : W64,
      a = rx (thread s th) r1 → b = rx (thread s th) r2 →
      (op = 0x33 → regBusy (thread s th) [rd, r1, r2] [] [] = false →
        ∀ v, (f7, f3, v) ∈ [(0, 0, a + b), (0x20, 0, a - b), (0, 4, a ^^^ b), (0, 6, a ||| b), (0, 7, a &&& b),
            (0, 1, a <<< (b.toNat % 64)), (0, 5, a >>> (b.toNat % 64)), (0, 3, if a.toNat < b.toNat then 1 else 0),
            (0, 2, if a.toInt < b.toInt then 1 else 0), (1, 0, a * b),
            (1, 5, if b = 0 then BitVec.allOnes 64 else BitVec.ofNat 64 (a.toNat / b.toNat)),
            (1, 7, if b = 0 then a else BitVec.ofNat 64 (a.toNat % b.toNat))] →
          ∃ t, exec (.rv64gcInstruction th) s = .next t ∧ PutsX th 4 rd v s t) ∧
      (op = 0x13 → regBusy (thread s th) [rd, r1] [] [] = false → ∀ i : W64, i = BitVec.ofInt 64 (immI w) →
        ∀ v, (f3, v) ∈ [(0, a + i), (4, a ^^^ i), (6, a ||| i), (7, a &&& i)] →
          ∃ t, exec (.rv64gcInstruction th) s = .next t ∧ PutsX th 4 rd v s t) ∧
      (op = 0x37 → regBusy (thread s th) [rd] [] [] = false → ∃ t, exec (.rv64gcInstruction th) s = .next t ∧
        PutsX th 4 rd (BitVec.ofInt 64 (immU w)) s t) ∧
      (op = 0x17 → regBusy (thread s th) [rd] [] [] = false → ∃ t, exec (.rv64gcInstruction th) s = .next t ∧
        PutsX th 4 rd (BitVec.ofInt 64 ((pc : Int) + immU w)) s t) ∧
      (∀ tgt, (op = 0x6F ∧ tgt = (BitVec.ofInt 64 ((pc : Int) + immJ w)).toNat / 2 * 2 ∧
            regBusy (thread s th) [rd] [] [] = false) ∨
          (op = 0x67 ∧ f3 = 0 ∧ tgt = (a + BitVec.ofInt 64 (immI w)).toNat / 2 * 2 ∧
            regBusy (thread s th) [rd, r1] [] [] = false) →
        ∃ t, exec (.rv64gcInstruction th) s = .next t ∧ Others th s t ∧ ThreadsOnly s t ∧
          thread t th = { thread s th with pc := tgt, x := (thread t th).x } ∧
          ∀ r, rx (thread t th) r = if r = rd ∧ r ≠ 0 then BitVec.ofNat 64 (pc + 4) else rx (thread s th) r) ∧
      (op = 0x63 → regBusy (thread s th) [r1, r2] [] [] = false → ∀ c, (f3, c) ∈ [(0, decide (a = b)), (1, decide (a ≠ b)),
          (4, decide (a.toInt < b.toInt)), (5, decide (b.toInt ≤ a.toInt)), (6, decide (a.toNat < b.toNat)),
          (7, decide (b.toNat ≤ a.toNat))] →
        ∃ t, exec (.rv64gcInstruction th) s = .next t ∧ Others th s t ∧ ThreadsOnly s t ∧ thread t th = { thread s th with
          pc := if c then (BitVec.ofInt 64 ((pc : Int) + immB w)).toNat else (pc + 4) % 2 ^ 64 }) ∧
      (w = 0x00100073 → regBusy (thread s th) [0] [] [] = false → ∃ t, exec (.rv64gcInstruction th) s = .next t ∧
        Others th s t ∧ ThreadsOnly s t ∧ (thread t th).user = false ∧ rcsr (thread t th) 0x342 = 3 ∧
        rcsr (thread t th) 0x341 = pc % 2 ^ 64 ∧ (thread t th).pc = rcsr (thread s th) 0x305 / 4 * 4 ∧
        ∀ r, rx (thread t th) r = rx (thread s th) r) ∧
      (op ∈ [0x5B, 0x7B] → regBusy (thread s th) [] [rd, r1, r2, bits w 31 27] [] = false →
        exec (.rv64gcInstruction th) s = .next (illegal th (BitVec.ofNat 32 w) (issued th s))) ∧
      (∀ c, (op, f3, c) ∈ [(0x0B, 0, Instr.edot th (BitVec.ofNat 32 w)), (0x0B, 1, .edotf th (BitVec.ofNat 32 w)),
          (0x0B, 2, .erescale th (BitVec.ofNat 32 w)), (0x2B, 1, .eslmrg th (BitVec.ofNat 32 w)),
          (0x2B, 2, .ecompact th (BitVec.ofNat 32 w)), (0x2B, 5, .epost th (BitVec.ofNat 32 w))] →
        exec (.rv64gcInstruction th) s = exec c s)) ∧
    (∀ h, HalfHeld s th (thread s th).pc h → canIssue s th = true → h < 65536 → h % 4 = 1 → bits h 15 13 = 0 →
      regBusy (thread s th) [bits h 11 7, bits h 11 7] [] [] = false → ∃ t, exec (.rv64gcInstruction th) s = .next t ∧
        PutsX th 2 (bits h 11 7) (rx (thread s th) (bits h 11 7) +
          BitVec.ofInt 64 (sgn 6 (fld (bits h 12 12) 5 + bits h 6 2))) s t)
end

