-- ==== Sys2Proof/Laws/Maps.lean ====
section
/-! SUPPORT. Laws of sparse data (Machine/Maps.lean): reading after writing, for every list, canonical or not, and the
canonical form kept by every write. -/
namespace Sys2Proof.Machine
set_option Elab.async false
set_option linter.all false

@[simp] theorem smGet?_smPut_self {α : Type} (m : SMap α) (k : Nat) (a : α) : smGet? (smPut m k a) k = some a := by
  induction m with
  | nil => simp [smPut, smGet?]
  | cons p t ih =>
    obtain ⟨j, b⟩ := p
    by_cases h : j = k
    · simp [smPut, smGet?, h]
    · by_cases h' : k < j <;> simp [smPut, smGet?, h, h', ih]

theorem smGet?_smPut_ne {α : Type} (m : SMap α) (k i : Nat) (a : α) (h : i ≠ k) :
    smGet? (smPut m k a) i = smGet? m i := by
  induction m with
  | nil => simp [smPut, smGet?, Ne.symm h]
  | cons p t ih =>
    obtain ⟨j, b⟩ := p
    by_cases hj : j = k
    · subst hj; simp [smPut, smGet?, Ne.symm h]
    · by_cases h' : k < j
      · simp [smPut, smGet?, hj, h', Ne.symm h]
      · simp only [smPut, hj, h', if_false, smGet?, ih]

@[simp] theorem smGetD_smPut_self {α : Type} (m : SMap α) (k : Nat) (a d : α) : smGetD (smPut m k a) k d = a := by
  simp [smGetD]

theorem smGetD_smPut_ne {α : Type} (m : SMap α) (k i : Nat) (a d : α) (h : i ≠ k) :
    smGetD (smPut m k a) i d = smGetD m i d := by
  simp [smGetD, smGet?_smPut_ne m k i a h]

@[simp] theorem smGet?_smDel_self {α : Type} (m : SMap α) (k : Nat) : smGet? (smDel m k) k = none := by
  induction m with
  | nil => rfl
  | cons p t ih =>
    obtain ⟨j, b⟩ := p
    by_cases h : j = k
    · simpa [smDel, h] using ih
    · have : smDel ((j, b) :: t) k = (j, b) :: smDel t k := by simp [smDel, h]
      rw [this]; simp [smGet?, h, ih]

theorem smGet?_smDel_ne {α : Type} (m : SMap α) (k i : Nat) (h : i ≠ k) : smGet? (smDel m k) i = smGet? m i := by
  induction m with
  | nil => rfl
  | cons p t ih =>
    obtain ⟨j, b⟩ := p
    by_cases hj : j = k
    · have : smDel ((j, b) :: t) k = smDel t k := by simp [smDel, hj]
      rw [this, ih]; subst hj; simp [smGet?, Ne.symm h]
    · have : smDel ((j, b) :: t) k = (j, b) :: smDel t k := by simp [smDel, hj]
      rw [this]; simp only [smGet?, ih]

@[simp] theorem smGetD_smDel_self {α : Type} (m : SMap α) (k : Nat) (d : α) : smGetD (smDel m k) k d = d := by
  simp [smGetD]

theorem smGetD_smDel_ne {α : Type} (m : SMap α) (k i : Nat) (d : α) (h : i ≠ k) :
    smGetD (smDel m k) i d = smGetD m i d := by
  simp [smGetD, smGet?_smDel_ne m k i h]

@[simp] theorem smGetD_smSet_self {α : Type} [DecidableEq α] (d : α) (m : SMap α) (k : Nat) (a : α) :
    smGetD (smSet d m k a) k d = a := by
  by_cases h : a = d <;> simp [smSet, h]

theorem smGetD_smSet_ne {α : Type} [DecidableEq α] (d e : α) (m : SMap α) (k i : Nat) (a : α) (h : i ≠ k) :
    smGetD (smSet d m k a) i e = smGetD m i e := by
  unfold smSet; split
  · exact smGetD_smDel_ne m k i e h
  · exact smGetD_smPut_ne m k i a e h

/-- Reading any key after a write. -/
theorem smGetD_smSet {α : Type} [DecidableEq α] (d : α) (m : SMap α) (k i : Nat) (a : α) :
    smGetD (smSet d m k a) i d = if i = k then a else smGetD m i d := by
  by_cases h : i = k
  · subst h; simp
  · simp [h, smGetD_smSet_ne d d m k i a h]

theorem smGetD_smPut {α : Type} (m : SMap α) (k i : Nat) (a d : α) :
    smGetD (smPut m k a) i d = if i = k then a else smGetD m i d := by
  by_cases h : i = k
  · subst h; simp
  · simp [h, smGetD_smPut_ne m k i a d h]

@[simp] theorem smGet?_nil {α : Type} (k : Nat) : smGet? ([] : SMap α) k = none := rfl
@[simp] theorem smGetD_nil {α : Type} (k : Nat) (d : α) : smGetD ([] : SMap α) k d = d := rfl

/-! ### Sets of numbers -/

theorem mem_insNat (l : List Nat) (k i : Nat) : i ∈ insNat l k ↔ i = k ∨ i ∈ l := by
  induction l with
  | nil => simp [insNat]
  | cons j t ih =>
    unfold insNat
    by_cases h : j = k
    · simp [h]
    · by_cases h' : k < j
      · simp [h, h']
      · simp only [h, h', if_false, List.mem_cons, ih, or_left_comm]

theorem mem_delNat (l : List Nat) (k i : Nat) : i ∈ delNat l k ↔ i ∈ l ∧ i ≠ k := by
  simp [delNat]

@[simp] theorem whenS_true (f : State → State) (s : State) : whenS true f s = f s := rfl
@[simp] theorem whenS_false (f : State → State) (s : State) : whenS false f s = s := rfl
@[simp] theorem foldS_nil {α : Type} (f : α → State → State) (s : State) : foldS [] f s = s := rfl
@[simp] theorem foldS_cons {α : Type} (a : α) (t : List α) (f : α → State → State) (s : State) :
    foldS (a :: t) f s = foldS t f (f a s) := rfl
@[simp] theorem optS_none {α : Type} (f : α → State → State) (s : State) : optS none f s = s := rfl
@[simp] theorem optS_some {α : Type} (a : α) (f : α → State → State) (s : State) : optS (some a) f s = f a s := rfl

/-- What every step of a fold keeps, the fold keeps. -/
theorem foldS_keeps {α : Type} (P : State → Prop) (l : List α) (f : α → State → State) (s : State)
    (hf : ∀ a u, P u → P (f a u)) (h : P s) : P (foldS l f s) := by
  induction l generalizing s with
  | nil => exact h
  | cons a t ih => exact ih (f a s) (hf a s h)

/-! ### The canonical form of memory (Ops.lean) -/

/-- The canonical form as Mathlib spells it: addresses strictly rising and no listed byte equal to the unlisted one. -/
theorem cellsWf_iff (m : List Host.Cell) :
    cellsWf m = true ↔ m.Pairwise (fun p q => p.1 < q.1) ∧ ∀ p ∈ m, p.2 ≠ 0 := by
  induction m with
  | nil => simp [cellsWf]
  | cons p t ih =>
    obtain ⟨a, b⟩ := p
    cases t with
    | nil => simp [cellsWf]
    | cons q u =>
      obtain ⟨a', b'⟩ := q
      rw [show cellsWf ((a, b) :: (a', b') :: u) = (b != 0 && decide (a < a') && cellsWf ((a', b') :: u)) from rfl]
      simp only [Bool.and_eq_true, ih, bne_iff_ne, decide_eq_true_eq, List.pairwise_cons, List.mem_cons, forall_eq_or_imp]
      constructor
      · rintro ⟨⟨hb, hlt⟩, ⟨⟨hr, hp⟩, hb', hn⟩⟩
        exact ⟨⟨⟨hlt, fun r hr' => Nat.lt_trans hlt (hr r hr')⟩, hr, hp⟩, hb, hb', hn⟩
      · rintro ⟨⟨⟨hlt, _⟩, hr, hp⟩, hb, hb', hn⟩
        exact ⟨⟨hb, hlt⟩, ⟨⟨hr, hp⟩, hb', hn⟩⟩

theorem mem_smPut {α : Type} (m : SMap α) (k : Nat) (a : α) (q : Nat × α) (h : q ∈ smPut m k a) : q = (k, a) ∨ q ∈ m := by
  induction m with
  | nil => left; simpa [smPut] using h
  | cons p t ih =>
    obtain ⟨j, b⟩ := p
    unfold smPut at h
    split at h
    · rcases List.mem_cons.1 h with h | h
      · exact .inl h
      · exact .inr (List.mem_cons_of_mem _ h)
    · split at h
      · rcases List.mem_cons.1 h with h | h
        · exact .inl h
        · exact .inr h
      · rcases List.mem_cons.1 h with h | h
        · exact .inr (h ▸ List.mem_cons_self)
        · rcases ih h with h | h
          · exact .inl h
          · exact .inr (List.mem_cons_of_mem _ h)

/-- A write keeps the keys strictly rising. -/
theorem pairwise_smPut {α : Type} (m : SMap α) (k : Nat) (a : α) (h : m.Pairwise (fun p q => p.1 < q.1)) :
    (smPut m k a).Pairwise (fun p q => p.1 < q.1) := by
  induction m with
  | nil => simp [smPut]
  | cons p t ih =>
    obtain ⟨j, b⟩ := p
    rw [List.pairwise_cons] at h
    unfold smPut
    split
    · rename_i e; subst e; exact List.pairwise_cons.2 h
    · split
      · rename_i hlt
        refine List.pairwise_cons.2 ⟨fun q hq => ?_, List.pairwise_cons.2 h⟩
        rcases List.mem_cons.1 hq with rfl | hq
        · exact hlt
        · exact Nat.lt_trans hlt (h.1 q hq)
      · rename_i hne hnlt
        refine List.pairwise_cons.2 ⟨fun q hq => ?_, ih h.2⟩
        rcases mem_smPut t k a q hq with rfl | hq
        · omega
        · exact h.1 q hq

theorem cellsWf_smSet (m : List Host.Cell) (a : Nat) (b : Byte) (h : cellsWf m = true) : cellsWf (smSet 0 m a b) = true := by
  rw [cellsWf_iff] at h ⊢
  unfold smSet
  split
  · exact ⟨h.1.filter _, fun p hp => h.2 p ((List.mem_filter.1 hp).1)⟩
  · rename_i hb
    refine ⟨pairwise_smPut m a b h.1, fun p hp => ?_⟩
    rcases mem_smPut m a b p hp with rfl | hp
    · exact hb
    · exact h.2 p hp

theorem cellsWf_filter (m : List Host.Cell) (p : Host.Cell → Bool) (h : cellsWf m = true) : cellsWf (m.filter p) = true := by
  rw [cellsWf_iff] at h ⊢
  exact ⟨h.1.filter _, fun q hq => h.2 q ((List.mem_filter.1 hq).1)⟩

/-- A run of bytes written keeps the canonical form. -/
theorem cellsWf_cellsWrite (b : Bytes) (m : List Host.Cell) (a : Nat) (h : cellsWf m = true) :
    cellsWf (cellsWrite m a b) = true := by
  induction b generalizing m a with
  | nil => exact h
  | cons x t ih => exact ih _ _ (cellsWf_smSet m a x h)

/-- Reading one byte after a run of bytes is written: inside the run the byte written there, outside it the old byte. -/
theorem smGetD_cellsWrite (b : Bytes) (m : List Host.Cell) (a i : Nat) :
    smGetD (cellsWrite m a b) i 0 = if a ≤ i ∧ i < a + b.length then b.getD (i - a) 0 else smGetD m i 0 := by
  induction b generalizing m a with
  | nil => simp only [cellsWrite, List.length_nil]; split <;> first | rfl | omega
  | cons x t ih =>
    simp only [cellsWrite, ih, smGetD_smSet, List.length_cons]
    by_cases h1 : a = i
    · subst h1
      rw [if_neg (by omega), if_pos (by simp)]; simp
    · have : ¬ i = a := fun e => h1 e.symm
      by_cases h2 : a + 1 ≤ i ∧ i < a + 1 + t.length
      · have h3 : a ≤ i ∧ i < a + (t.length + 1) := by omega
        have h4 : i - a = (i - (a + 1)) + 1 := by omega
        simp [h2, h3, h4]
      · have h3 : ¬ (a ≤ i ∧ i < a + (t.length + 1)) := by omega
        rw [if_neg h2, if_neg h3, if_neg this]

end Sys2Proof.Machine
end

