-- ==== Sys2Proof/Laws/Frames.lean ====
section
/-! SUPPORT. Frames: which parts of the state an operation can change, said once as a mask of the fields of `State` (bit k is
the k-th field). The files Laws/Frame*.lean give each operation its mask. -/
namespace Sys2Proof.Machine
set_option Elab.async false
set_option linter.all false

/-- From `s` to `t` only the fields of `State` whose bit is set in `m` may differ, and never the queue. -/
structure Frame (m : Nat) (s t : State) : Prop where
  pending : t.pending = s.pending
  clk : m.testBit 1 = true ∨ t.clk = s.clk
  phase : m.testBit 2 = true ∨ t.phase = s.phase
  mem : m.testBit 3 = true ∨ t.mem = s.mem
  sea : m.testBit 4 = true ∨ t.sea = s.sea
  stk : m.testBit 5 = true ∨ t.stk = s.stk
  par : m.testBit 6 = true ∨ t.par = s.par
  pwr : m.testBit 7 = true ∨ t.pwr = s.pwr
  hxt : m.testBit 8 = true ∨ t.hxt = s.hxt
  trf : m.testBit 9 = true ∨ t.trf = s.trf
  err : m.testBit 10 = true ∨ t.err = s.err
  log : m.testBit 11 = true ∨ t.log = s.log
  dir : m.testBit 12 = true ∨ t.dir = s.dir
  chain : m.testBit 13 = true ∨ t.chain = s.chain
  fab : m.testBit 14 = true ∨ t.fab = s.fab
  cmp : m.testBit 15 = true ∨ t.cmp = s.cmp
  path : m.testBit 16 = true ∨ t.path = s.path
  flash : m.testBit 17 = true ∨ t.flash = s.flash
  sec : m.testBit 18 = true ∨ t.sec = s.sec
  pins : m.testBit 19 = true ∨ t.pins = s.pins
  free : m.testBit 20 = true ∨ t.free = s.free

theorem Frame.refl {m : Nat} (s : State) : Frame m s s := by
  constructor <;> first | rfl | exact .inr rfl

/-- A field outside the mask is the same. -/
theorem Frame.same {α : Type} {m k : Nat} {a b : α} (h : m.testBit k = true ∨ a = b) (hk : m.testBit k = false) : a = b := by
  rcases h with h | h
  · rw [hk] at h; cases h
  · exact h

/-- Masks one inside the other. -/
theorem Frame.sub {a b c : Nat} (h : a ||| b = b) (k : c ||| a = a) : c ||| b = b := by
  rw [← h, ← Nat.or_assoc, k]

theorem Frame.bit {a b k : Nat} (h : a ||| b = b) (e : a.testBit k = true) : b.testBit k = true := by
  rw [← h, Nat.testBit_or, e]; rfl

/-- A record update whose changed fields lie in the mask. -/
theorem Frame.upd_iff {m : Nat} {s u : State} {clk : Clock} {phase : Phase} {mem : Mem} {sea : Sea} {stk : SMap Seqr} {par : Par} {pwr : Pwr} {hxt : Hxt} {trf : Trf} {err : Err} {log : Log} {dir : Dir} {chain : Chain} {fab : Fab} {cmp : Comp} {path : Paths} {flash : Flash} {sec : Sec} {pins : Pins} {free : Nat}
    (h1 : m.testBit 1 = true ∨ clk = u.clk) (h2 : m.testBit 2 = true ∨ phase = u.phase) (h3 : m.testBit 3 = true ∨ mem = u.mem) (h4 : m.testBit 4 = true ∨ sea = u.sea) (h5 : m.testBit 5 = true ∨ stk = u.stk) (h6 : m.testBit 6 = true ∨ par = u.par) (h7 : m.testBit 7 = true ∨ pwr = u.pwr) (h8 : m.testBit 8 = true ∨ hxt = u.hxt) (h9 : m.testBit 9 = true ∨ trf = u.trf) (h10 : m.testBit 10 = true ∨ err = u.err) (h11 : m.testBit 11 = true ∨ log = u.log) (h12 : m.testBit 12 = true ∨ dir = u.dir) (h13 : m.testBit 13 = true ∨ chain = u.chain) (h14 : m.testBit 14 = true ∨ fab = u.fab) (h15 : m.testBit 15 = true ∨ cmp = u.cmp) (h16 : m.testBit 16 = true ∨ path = u.path) (h17 : m.testBit 17 = true ∨ flash = u.flash) (h18 : m.testBit 18 = true ∨ sec = u.sec) (h19 : m.testBit 19 = true ∨ pins = u.pins) (h20 : m.testBit 20 = true ∨ free = u.free) :
    Frame m s (State.mk u.pending clk phase mem sea stk par pwr hxt trf err log dir chain fab cmp path flash sec pins free) ↔ Frame m s u := by
  have or2 : ∀ {α : Type} {k : Nat} {a b c : α}, (m.testBit k = true ∨ b = a) → (m.testBit k = true ∨ c = b) →
      (m.testBit k = true ∨ c = a) := by
    intro α k a b c h g
    rcases h with h | h
    · exact .inl h
    · exact h ▸ g
  have sy : ∀ {α : Type} {k : Nat} {a b : α}, (m.testBit k = true ∨ a = b) → (m.testBit k = true ∨ b = a) := by
    intro α k a b h
    exact h.imp id Eq.symm
  constructor
  · intro h
    exact ⟨h.pending, or2 h.clk (sy h1), or2 h.phase (sy h2), or2 h.mem (sy h3), or2 h.sea (sy h4), or2 h.stk (sy h5), or2 h.par (sy h6), or2 h.pwr (sy h7), or2 h.hxt (sy h8), or2 h.trf (sy h9), or2 h.err (sy h10), or2 h.log (sy h11), or2 h.dir (sy h12), or2 h.chain (sy h13), or2 h.fab (sy h14), or2 h.cmp (sy h15), or2 h.path (sy h16), or2 h.flash (sy h17), or2 h.sec (sy h18), or2 h.pins (sy h19), or2 h.free (sy h20)⟩
  · intro h
    exact ⟨h.pending, or2 h.clk h1, or2 h.phase h2, or2 h.mem h3, or2 h.sea h4, or2 h.stk h5, or2 h.par h6, or2 h.pwr h7, or2 h.hxt h8, or2 h.trf h9, or2 h.err h10, or2 h.log h11, or2 h.dir h12, or2 h.chain h13, or2 h.fab h14, or2 h.cmp h15, or2 h.path h16, or2 h.flash h17, or2 h.sec h18, or2 h.pins h19, or2 h.free h20⟩

theorem Frame.snd {α : Type} {m : Nat} {s t : State} {p : α × State} {a : α} (e : p = (a, t)) (h : Frame m s p.2) : Frame m s t := by
  rw [e] at h; exact h

theorem Frame.fst {α : Type} {m : Nat} {s t : State} {p : State × α} {a : α} (e : p = (t, a)) (h : Frame m s p.1) : Frame m s t := by
  rw [e] at h; exact h

theorem Frame.some1 {m : Nat} {s t : State} {o : Option State} (e : o = some t) (h : ∀ r, o = some r → Frame m s r) : Frame m s t :=
  h t e

theorem Frame.some2 {α : Type} {m : Nat} {s t : State} {o : Option (α × State)} {a : α} (e : o = some (a, t))
    (h : ∀ r, o = some r → Frame m s r.2) : Frame m s t := h (a, t) e

theorem Frame.some3 {α β : Type} {m : Nat} {s t : State} {o : Option (α × β × State)} {a : α} {b : β} (e : o = some (a, b, t))
    (h : ∀ r, o = some r → Frame m s r.2.2) : Frame m s t := h (a, b, t) e

theorem Frame.snd3 {α β : Type} {m : Nat} {s t : State} {p : α × β × State} {a : α} {b : β} (e : p = (a, b, t))
    (h : Frame m s p.2.2) : Frame m s t := by
  rw [e] at h; exact h

theorem Frame.snd4 {α β γ : Type} {m : Nat} {s t : State} {p : α × β × γ × State} {a : α} {b : β} {c : γ} (e : p = (a, b, c, t))
    (h : Frame m s p.2.2.2) : Frame m s t := by
  rw [e] at h; exact h

/-- A fold over anything that holds a state. -/
theorem Frame.foldlOf {α β : Type} (g : β → State) {m : Nat} {s : State} {b : β} {l : List α} {f : β → α → β}
    (hf : ∀ b a, Frame m s (g b) → Frame m s (g (f b a))) (h : Frame m s (g b)) : Frame m s (g (l.foldl f b)) := by
  induction l generalizing b with
  | nil => exact h
  | cons a t ih => exact ih (hf _ _ h)

theorem Frame.getD {m : Nat} {s d : State} {o : Option State} (h : ∀ r, o = some r → Frame m s r) (hd : Frame m s d) :
    Frame m s (o.getD d) := by
  cases o with
  | none => exact hd
  | some t => exact h t rfl

theorem Frame.elim {α : Type} {m : Nat} {s d : State} {o : Option α} {f : α → State} (h : ∀ a, Frame m s (f a)) (hd : Frame m s d) :
    Frame m s (o.elim d f) := by
  cases o with
  | none => exact hd
  | some t => exact h t

theorem Frame.foldl3 {α β γ : Type} {m : Nat} {s : State} {p : β × γ × State} {l : List α} {f : β × γ × State → α → β × γ × State}
    (hf : ∀ p a, Frame m s p.2.2 → Frame m s (f p a).2.2) (h : Frame m s p.2.2) : Frame m s (l.foldl f p).2.2 := by
  induction l generalizing p with
  | nil => exact h
  | cons a t ih => exact ih (hf _ _ h)

theorem Frame.elim2 {α β : Type} {m : Nat} {s : State} {d : β × State} {o : Option α} {f : α → β × State}
    (h : ∀ a, Frame m s (f a).2) (hd : Frame m s d.2) : Frame m s (o.elim d f).2 := by
  cases o with
  | none => exact hd
  | some t => exact h t

theorem Frame.of4 {α β γ : Type} {m : Nat} {s t : State} {p : α × β × γ × State} {a : α} {b : β} {c : γ} (e : p = (a, b, c, t))
    (h : Frame m s t) : Frame m s p.2.2.2 := by rw [e]; exact h

theorem Frame.ite {m : Nat} {s a b : State} {c : Prop} [Decidable c] (ha : c → Frame m s a) (hb : ¬c → Frame m s b) :
    Frame m s (if c then a else b) := by
  split <;> simp_all

theorem Frame.ite2 {α : Type} {m : Nat} {s : State} {a b : α × State} {c : Prop} [Decidable c] (ha : c → Frame m s a.2)
    (hb : ¬c → Frame m s b.2) : Frame m s (if c then a else b).2 := by
  split <;> simp_all

theorem Frame.ite3 {α β : Type} {m : Nat} {s : State} {a b : α × β × State} {c : Prop} [Decidable c] (ha : c → Frame m s a.2.2)
    (hb : ¬c → Frame m s b.2.2) : Frame m s (if c then a else b).2.2 := by
  split <;> simp_all

theorem Frame.foldl {α : Type} {m : Nat} {s u : State} {l : List α} {f : State → α → State}
    (hf : ∀ u a, Frame m s u → Frame m s (f u a)) (h : Frame m s u) : Frame m s (l.foldl f u) := by
  induction l generalizing u with
  | nil => exact h
  | cons a t ih => exact ih (hf _ _ h)

theorem Frame.foldl2 {α β : Type} {m : Nat} {s : State} {p : β × State} {l : List α} {f : β × State → α → β × State}
    (hf : ∀ p a, Frame m s p.2 → Frame m s (f p a).2) (h : Frame m s p.2) : Frame m s (l.foldl f p).2 := by
  induction l generalizing p with
  | nil => exact h
  | cons a t ih => exact ih (hf _ _ h)

end Sys2Proof.Machine
end

