-- ==== Sys2Proof/Laws/FrameMaps.lean ====
section
/-! SUPPORT. FrameMaps: each operation of Machine/Maps.lean changes only the fields of `State`
that its mask names (`Frame`). -/
namespace Sys2Proof.Machine
set_option Elab.async false
set_option linter.all false

theorem frame_whenS {m0 : Nat} {s0 : State} (c : Bool) (f : State → State) (s : State) (hm : 0 ||| m0 = m0) (hf : ∀ u, Frame m0 s0 u → Frame m0 s0 (f u)) (hs : Frame m0 s0 s) :
    Frame m0 s0 (whenS c f s) := by
  unfold whenS
  repeat' (with_reducible first | assumption | (exact Frame.sub hm (by decide)) | apply hf | split | dsimp only | simp only [Frame.upd_iff, true_or, or_true])

theorem frame_optS {m0 : Nat} {s0 : State} {α : Type} (o : Option α) (f : α → State → State) (s : State) (hm : 0 ||| m0 = m0) (hf : ∀ y0 u, Frame m0 s0 u → Frame m0 s0 (f y0 u)) (hs : Frame m0 s0 s) :
    Frame m0 s0 (optS o f s) := by
  unfold optS
  repeat' (with_reducible first | assumption | (exact Frame.sub hm (by decide)) | apply hf | split | dsimp only | simp only [Frame.upd_iff, true_or, or_true])

theorem frame_foldS {m0 : Nat} {s0 : State} {α : Type} (l : List α) (f : α → State → State) (s : State) (hm : 0 ||| m0 = m0) (hf : ∀ y0 u, Frame m0 s0 u → Frame m0 s0 (f y0 u)) (hs : Frame m0 s0 s) :
    Frame m0 s0 (foldS l f s) := by
  induction l generalizing s with
  | nil => exact hs
  | cons a t ih => exact ih _ (hf _ _ hs)

end Sys2Proof.Machine
end

