-- ==== Sys2Proof/Laws/FrameOps.lean ====
section
/-! SUPPORT. FrameOps: each operation of Machine/Ops.lean changes only the fields of `State`
that its mask names (`Frame`). -/
namespace Sys2Proof.Machine
set_option Elab.async false
set_option linter.all false

theorem frame_draw {m0 : Nat} {s0 : State} (s : State) (hm : 1048576 ||| m0 = m0) (hs : Frame m0 s0 s) :
    Frame m0 s0 (draw s).2 := by
  have b20 := Frame.bit hm (k := 20) (by decide)
  unfold draw
  repeat' (with_reducible first | assumption | (exact Frame.sub hm (by decide)) | split | dsimp only | simp only [Frame.upd_iff, b20, true_or, or_true])

theorem frame_dirPut {m0 : Nat} {s0 : State} (obj : Nat) (v : DVal) (s : State) (hm : 4096 ||| m0 = m0) (hs : Frame m0 s0 s) :
    Frame m0 s0 (dirPut obj v s) := by
  have b12 := Frame.bit hm (k := 12) (by decide)
  unfold dirPut
  repeat' (with_reducible first | assumption | (exact Frame.sub hm (by decide)) | split | dsimp only | simp only [Frame.upd_iff, b12, true_or, or_true])

theorem frame_dirSet {m0 : Nat} {s0 : State} (obj : Nat) (n : Nat) (s : State) (hm : 4096 ||| m0 = m0) (hs : Frame m0 s0 s) :
    Frame m0 s0 (dirSet obj n s) := by
  unfold dirSet
  repeat' (with_reducible first | assumption | (exact Frame.sub hm (by decide)) | apply frame_dirPut | split | dsimp only | simp only [Frame.upd_iff, true_or, or_true])

theorem frame_bumpBy {m0 : Nat} {s0 : State} (obj : Nat) (n : Nat) (s : State) (hm : 4096 ||| m0 = m0) (hs : Frame m0 s0 s) :
    Frame m0 s0 (bumpBy obj n s) := by
  unfold bumpBy
  repeat' (with_reducible first | assumption | (exact Frame.sub hm (by decide)) | apply frame_dirSet | split | dsimp only | simp only [Frame.upd_iff, true_or, or_true])

theorem frame_bump {m0 : Nat} {s0 : State} (obj : Nat) (s : State) (hm : 4096 ||| m0 = m0) (hs : Frame m0 s0 s) :
    Frame m0 s0 (bump obj s) := by
  unfold bump
  repeat' (with_reducible first | assumption | (exact Frame.sub hm (by decide)) | apply frame_bumpBy | split | dsimp only | simp only [Frame.upd_iff, true_or, or_true])

theorem frame_onDieLog {m0 : Nat} {s0 : State} (d : Nat) (f : DieLog → DieLog) (s : State) (hm : 2048 ||| m0 = m0) (hs : Frame m0 s0 s) :
    Frame m0 s0 (onDieLog d f s) := by
  have b11 := Frame.bit hm (k := 11) (by decide)
  unfold onDieLog
  repeat' (with_reducible first | assumption | (exact Frame.sub hm (by decide)) | split | dsimp only | simp only [Frame.upd_iff, b11, true_or, or_true])

theorem frame_logError {m0 : Nat} {s0 : State} (e : ErrIn) (s : State) (hm : 2048 ||| m0 = m0) (hs : Frame m0 s0 s) :
    Frame m0 s0 (logError e s) := by
  unfold logError
  repeat' (with_reducible first | assumption | (exact Frame.sub hm (by decide)) | apply frame_onDieLog | split | dsimp only | simp only [Frame.upd_iff, true_or, or_true])

theorem frame_chainSend {m0 : Nat} {s0 : State} (o : ChainOut) (len : Nat) (s : State) (hm : 12288 ||| m0 = m0) (hs : Frame m0 s0 s) :
    Frame m0 s0 (chainSend o len s) := by
  have b13 := Frame.bit hm (k := 13) (by decide)
  unfold chainSend
  repeat' (with_reducible first | assumption | (exact Frame.sub hm (by decide)) | apply frame_bumpBy | split | dsimp only | simp only [Frame.upd_iff, b13, true_or, or_true])

theorem frame_sendAlert {m0 : Nat} {s0 : State} (seq : Nat) (b : Bytes) (s : State) (hm : 12288 ||| m0 = m0) (hs : Frame m0 s0 s) :
    Frame m0 s0 (sendAlert seq b s) := by
  have b13 := Frame.bit hm (k := 13) (by decide)
  unfold sendAlert
  repeat' (with_reducible first | assumption | (exact Frame.sub hm (by decide)) | apply frame_bump | apply frame_chainSend | split | dsimp only | simp only [Frame.upd_iff, b13, true_or, or_true])

theorem frame_errFlags {m0 : Nat} {s0 : State} (e : ErrIn) (s : State) (hm : 4096 ||| m0 = m0) (hs : Frame m0 s0 s) :
    Frame m0 s0 (errFlags e s) := by
  unfold errFlags
  repeat' (with_reducible first | assumption | (exact Frame.sub hm (by decide)) | apply frame_bump | apply frame_dirSet | apply frame_whenS | (intro _) | refine Frame.ite ?_ ?_ | split | dsimp only | simp only [Frame.upd_iff, true_or, or_true])

theorem frame_raise {m0 : Nat} {s0 : State} (e : ErrIn) (s : State) (hm : 15360 ||| m0 = m0) (hs : Frame m0 s0 s) :
    Frame m0 s0 (raise e s) := by
  have b10 := Frame.bit hm (k := 10) (by decide)
  unfold raise
  repeat' (with_reducible first | assumption | (exact Frame.sub hm (by decide)) | apply frame_bump | apply frame_dirSet | apply frame_errFlags | apply frame_logError | apply frame_sendAlert | split | dsimp only | simp only [Frame.upd_iff, b10, true_or, or_true])

theorem frame_memWrite {m0 : Nat} {s0 : State} (a : Nat) (b : Bytes) (s : State) (hm : 8 ||| m0 = m0) (hs : Frame m0 s0 s) :
    Frame m0 s0 (memWrite a b s) := by
  have b3 := Frame.bit hm (k := 3) (by decide)
  unfold memWrite
  repeat' (with_reducible first | assumption | (exact Frame.sub hm (by decide)) | split | dsimp only | simp only [Frame.upd_iff, b3, true_or, or_true])

theorem frame_freshCheck {m0 : Nat} {s0 : State} (a : Nat) (n : Nat) (s : State) (hm : 8 ||| m0 = m0) (hs : Frame m0 s0 s) :
    Frame m0 s0 (freshCheck a n s) := by
  have b3 := Frame.bit hm (k := 3) (by decide)
  unfold freshCheck
  repeat' (with_reducible first | assumption | (exact Frame.sub hm (by decide)) | split | dsimp only | simp only [Frame.upd_iff, b3, true_or, or_true])

theorem frame_setUnsealed {m0 : Nat} {s0 : State} (row : Nat) (u : Bool) (s : State) (hm : 8 ||| m0 = m0) (hs : Frame m0 s0 s) :
    Frame m0 s0 (setUnsealed row u s) := by
  have b3 := Frame.bit hm (k := 3) (by decide)
  unfold setUnsealed
  repeat' (with_reducible first | assumption | (exact Frame.sub hm (by decide)) | split | dsimp only | simp only [Frame.upd_iff, b3, true_or, or_true])

theorem frame_onSeqr {m0 : Nat} {s0 : State} (k : Nat) (f : Seqr → Seqr) (s : State) (hm : 32 ||| m0 = m0) (hs : Frame m0 s0 s) :
    Frame m0 s0 (onSeqr k f s) := by
  have b5 := Frame.bit hm (k := 5) (by decide)
  unfold onSeqr
  repeat' (with_reducible first | assumption | (exact Frame.sub hm (by decide)) | split | dsimp only | simp only [Frame.upd_iff, b5, true_or, or_true])

theorem frame_touchStack {m0 : Nat} {s0 : State} (k : Nat) (s : State) (hm : 128 ||| m0 = m0) (hs : Frame m0 s0 s) :
    Frame m0 s0 (touchStack k s) := by
  have b7 := Frame.bit hm (k := 7) (by decide)
  unfold touchStack
  repeat' (with_reducible first | assumption | (exact Frame.sub hm (by decide)) | split | dsimp only | simp only [Frame.upd_iff, b7, true_or, or_true])

theorem frame_countFoot {m0 : Nat} {s0 : State} (k : Nat) (off : Nat) (s : State) (hm : 4096 ||| m0 = m0) (hs : Frame m0 s0 s) :
    Frame m0 s0 (countFoot k off s) := by
  unfold countFoot
  repeat' (with_reducible first | assumption | (exact Frame.sub hm (by decide)) | apply frame_bump | apply frame_whenS | (intro _) | refine Frame.ite ?_ ?_ | split | dsimp only | simp only [Frame.upd_iff, true_or, or_true])

theorem frame_noteCorrected {m0 : Nat} {s0 : State} (w : Who) (wa : Nat) (s : State) (hm : 15368 ||| m0 = m0) (hs : Frame m0 s0 s) :
    Frame m0 s0 (noteCorrected w wa s) := by
  have b3 := Frame.bit hm (k := 3) (by decide)
  unfold noteCorrected
  repeat' (with_reducible first | assumption | (exact Frame.sub hm (by decide)) | apply frame_freshCheck | apply frame_memWrite | apply frame_raise | split | dsimp only | simp only [Frame.upd_iff, b3, true_or, or_true])

theorem frame_accessStack {m0 : Nat} {s0 : State} (a : Nat) (s : State) (hm : 4224 ||| m0 = m0) (hs : Frame m0 s0 s) :
    Frame m0 s0 (accessStack a s) := by
  unfold accessStack
  repeat' (with_reducible first | assumption | (exact Frame.sub hm (by decide)) | apply frame_countFoot | apply frame_touchStack | split | dsimp only | simp only [Frame.upd_iff, true_or, or_true])

theorem frame_demandRead {m0 : Nat} {s0 : State} (w : Who) (a : Nat) (n : Nat) (s : State) (hm : 15496 ||| m0 = m0) (hs : Frame m0 s0 s) :
    Frame m0 s0 (demandRead w a n s).2 := by
  unfold demandRead
  repeat' (with_reducible first | assumption | (exact Frame.sub hm (by decide)) | apply frame_accessStack | apply frame_bump | apply frame_foldS | apply frame_noteCorrected | apply frame_raise | (intro _) | refine Frame.ite ?_ ?_ | split | dsimp only | simp only [Frame.upd_iff, true_or, or_true])

theorem frame_demandWrite {m0 : Nat} {s0 : State} (w : Who) (atomic : Bool) (a : Nat) (b : Bytes) (s : State) (hm : 15496 ||| m0 = m0) (hs : Frame m0 s0 s) :
    Frame m0 s0 (demandWrite w atomic a b s).2 := by
  unfold demandWrite
  repeat' (with_reducible first | assumption | (exact Frame.sub hm (by decide)) | apply frame_accessStack | apply frame_bump | apply frame_foldS | apply frame_freshCheck | apply frame_memWrite | apply frame_raise | apply frame_setUnsealed | (intro _) | refine Frame.ite ?_ ?_ | split | dsimp only | simp only [Frame.upd_iff, true_or, or_true])

theorem frame_writeBack {m0 : Nat} {s0 : State} (p : Nat × Nat × Nat) (s : State) (hm : 4104 ||| m0 = m0) (hs : Frame m0 s0 s) :
    Frame m0 s0 (writeBack p s) := by
  unfold writeBack
  repeat' (with_reducible first | assumption | (exact Frame.sub hm (by decide)) | apply frame_bump | apply frame_freshCheck | apply frame_memWrite | split | dsimp only | simp only [Frame.upd_iff, true_or, or_true])

theorem frame_flushWriteBacks {m0 : Nat} {s0 : State} (s : State) (hm : 4104 ||| m0 = m0) (hs : Frame m0 s0 s) :
    Frame m0 s0 (flushWriteBacks s) := by
  have b3 := Frame.bit hm (k := 3) (by decide)
  unfold flushWriteBacks
  repeat' (with_reducible first | assumption | (exact Frame.sub hm (by decide)) | apply frame_foldS | apply frame_writeBack | (intro _) | refine Frame.ite ?_ ?_ | split | dsimp only | simp only [Frame.upd_iff, b3, true_or, or_true])

theorem frame_record {m0 : Nat} {s0 : State} (cls : Nat) (severity : Nat) (unit : Nat) (inst : Nat) (location : Nat) (detail : Nat) (status : Nat) (tenant : Option Nat) (s : State) (hm : 15360 ||| m0 = m0) (hs : Frame m0 s0 s) :
    Frame m0 s0 (record cls severity unit inst location detail status tenant s) := by
  unfold record
  repeat' (with_reducible first | assumption | (exact Frame.sub hm (by decide)) | apply frame_raise | split | dsimp only | simp only [Frame.upd_iff, true_or, or_true])

end Sys2Proof.Machine
end

