-- ==== Sys2Proof/Laws/FrameKnocks.lean ====
section
/-! SUPPORT. FrameKnocks: each operation of Machine/Knocks.lean changes only the fields of `State`
that its mask names (`Frame`). -/
namespace Sys2Proof.Machine
set_option Elab.async false
set_option linter.all false

theorem frame_onKnocks {m0 : Nat} {s0 : State} (engine : Nat) (f : List Letter → List Letter) (s : State) (hm : 96 ||| m0 = m0) (hs : Frame m0 s0 s) :
    Frame m0 s0 (onKnocks engine f s) := by
  have b6 := Frame.bit hm (k := 6) (by decide)
  unfold onKnocks
  repeat' (with_reducible first | assumption | (exact Frame.sub hm (by decide)) | apply frame_onSeqr | split | dsimp only | simp only [Frame.upd_iff, b6, true_or, or_true])

theorem frame_sendLetter {m0 : Nat} {s0 : State} (l : Letter) (s : State) (hm : 4224 ||| m0 = m0) (hs : Frame m0 s0 s) :
    Frame m0 s0 (sendLetter l s) := by
  have b7 := Frame.bit hm (k := 7) (by decide)
  unfold sendLetter
  repeat' (with_reducible first | assumption | (exact Frame.sub hm (by decide)) | apply frame_bump | split | dsimp only | simp only [Frame.upd_iff, b7, true_or, or_true])

theorem frame_sendKnock {m0 : Nat} {s0 : State} (engine : Nat) (mark : Nat) (dest : Nat) (s : State) (hm : 4320 ||| m0 = m0) (hs : Frame m0 s0 s) :
    Frame m0 s0 (sendKnock engine mark dest s) := by
  unfold sendKnock
  repeat' (with_reducible first | assumption | (exact Frame.sub hm (by decide)) | apply frame_bump | apply frame_onKnocks | apply frame_sendLetter | split | dsimp only | simp only [Frame.upd_iff, true_or, or_true])

theorem frame_onQueue {m0 : Nat} {s0 : State} (n : Nat) (f : List PDesc → List PDesc) (s : State) (hm : 64 ||| m0 = m0) (hs : Frame m0 s0 s) :
    Frame m0 s0 (onQueue n f s) := by
  have b6 := Frame.bit hm (k := 6) (by decide)
  unfold onQueue
  repeat' (with_reducible first | assumption | (exact Frame.sub hm (by decide)) | split | dsimp only | simp only [Frame.upd_iff, b6, true_or, or_true])

theorem frame_killParcels {m0 : Nat} {s0 : State} (p : POwner → Bool) (s : State) (hm : 64 ||| m0 = m0) (hs : Frame m0 s0 s) :
    Frame m0 s0 (killParcels p s) := by
  have b6 := Frame.bit hm (k := 6) (by decide)
  unfold killParcels
  repeat' (with_reducible first | assumption | (exact Frame.sub hm (by decide)) | split | dsimp only | simp only [Frame.upd_iff, b6, true_or, or_true])

theorem frame_completeDesc {m0 : Nat} {s0 : State} (n : Nat) (d : PDesc) (status : Nat) (s : State) (hm : 4328 ||| m0 = m0) (hs : Frame m0 s0 s) :
    Frame m0 s0 (completeDesc n d status s) := by
  unfold completeDesc
  repeat' (with_reducible first | assumption | (exact Frame.sub hm (by decide)) | apply frame_freshCheck | apply frame_killParcels | apply frame_memWrite | apply frame_onQueue | apply frame_sendKnock | split | dsimp only | simp only [Frame.upd_iff, true_or, or_true])

theorem frame_endDescs {m0 : Nat} {s0 : State} (p : PDesc → Bool) (status : Nat) (s : State) (hm : 4328 ||| m0 = m0) (hs : Frame m0 s0 s) :
    Frame m0 s0 (endDescs p status s) := by
  unfold endDescs
  repeat' (with_reducible first | assumption | (exact Frame.sub hm (by decide)) | apply frame_completeDesc | apply frame_foldS | (intro _) | refine Frame.ite ?_ ?_ | split | dsimp only | simp only [Frame.upd_iff, true_or, or_true])

end Sys2Proof.Machine
end

