-- ==== Sys2Proof/Laws/FrameReceipts.lean ====
section
/-! SUPPORT. FrameReceipts: each operation of Machine/Receipts.lean changes only the fields of `State`
that its mask names (`Frame`). -/
namespace Sys2Proof.Machine
set_option Elab.async false
set_option linter.all false

theorem frame_onSess {m0 : Nat} {s0 : State} (sid : Nat) (f : Sess → Sess) (s : State) (hm : 256 ||| m0 = m0) (hs : Frame m0 s0 s) :
    Frame m0 s0 (onSess sid f s) := by
  have b8 := Frame.bit hm (k := 8) (by decide)
  unfold onSess
  repeat' (with_reducible first | assumption | (exact Frame.sub hm (by decide)) | split | dsimp only | simp only [Frame.upd_iff, b8, true_or, or_true])

theorem frame_putOut {m0 : Nat} {s0 : State} (port : Nat) (ctl : Bool) (tenant : Nat) (queue : Nat) (a : Addr) (kind : Nat) (note : Nat) (ps : List Bytes) (s : State) (hm : 256 ||| m0 = m0) (hs : Frame m0 s0 s) :
    Frame m0 s0 (putOut port ctl tenant queue a kind note ps s) := by
  have b8 := Frame.bit hm (k := 8) (by decide)
  unfold putOut
  repeat' (with_reducible first | assumption | (exact Frame.sub hm (by decide)) | split | dsimp only | simp only [Frame.upd_iff, b8, true_or, or_true])

theorem frame_onNotes {m0 : Nat} {s0 : State} (t : Nat) (f : Notes → Notes) (s : State) (hm : 256 ||| m0 = m0) (hs : Frame m0 s0 s) :
    Frame m0 s0 (onNotes t f s) := by
  have b8 := Frame.bit hm (k := 8) (by decide)
  unfold onNotes
  repeat' (with_reducible first | assumption | (exact Frame.sub hm (by decide)) | split | dsimp only | simp only [Frame.upd_iff, b8, true_or, or_true])

theorem frame_sendNote {m0 : Nat} {s0 : State} (t : Nat) (seq : Nat) (s : State) (hm : 256 ||| m0 = m0) (hs : Frame m0 s0 s) :
    Frame m0 s0 (sendNote t seq s) := by
  unfold sendNote
  repeat' (with_reducible first | assumption | (exact Frame.sub hm (by decide)) | apply frame_onNotes | apply frame_putOut | split | dsimp only | simp only [Frame.upd_iff, true_or, or_true])

theorem frame_sendFreshNotes {m0 : Nat} {s0 : State} (t : Nat) (s : State) (hm : 256 ||| m0 = m0) (hs : Frame m0 s0 s) :
    Frame m0 s0 (sendFreshNotes t s) := by
  unfold sendFreshNotes
  repeat' (with_reducible first | assumption | (exact Frame.sub hm (by decide)) | apply frame_foldS | apply frame_sendNote | (intro _) | refine Frame.ite ?_ ?_ | split | dsimp only | simp only [Frame.upd_iff, true_or, or_true])

theorem frame_addNote {m0 : Nat} {s0 : State} (t : Nat) (type : Nat) (body : Bytes) (s : State) (hm : 4352 ||| m0 = m0) (hs : Frame m0 s0 s) :
    Frame m0 s0 (addNote t type body s) := by
  unfold addNote
  repeat' (with_reducible first | assumption | (exact Frame.sub hm (by decide)) | apply frame_bump | apply frame_onNotes | apply frame_sendNote | apply frame_whenS | (intro _) | refine Frame.ite ?_ ?_ | split | dsimp only | simp only [Frame.upd_iff, true_or, or_true])

theorem frame_trafficNote {m0 : Nat} {s0 : State} (t : Nat) (type : Nat) (subj : Nat) (counts : List Nat) (body : List Nat → Bytes) (s : State) (hm : 4864 ||| m0 = m0) (hs : Frame m0 s0 s) :
    Frame m0 s0 (trafficNote t type subj counts body s) := by
  have b9 := Frame.bit hm (k := 9) (by decide)
  unfold trafficNote
  repeat' (with_reducible first | assumption | (exact Frame.sub hm (by decide)) | apply frame_addNote | split | dsimp only | simp only [Frame.upd_iff, b9, true_or, or_true])

theorem frame_thresholdNote {m0 : Nat} {s0 : State} (t : Nat) (type : Nat) (subj : Nat) (value : Nat) (threshold : Nat) (body : Bytes) (s : State) (hm : 4864 ||| m0 = m0) (hs : Frame m0 s0 s) :
    Frame m0 s0 (thresholdNote t type subj value threshold body s) := by
  have b9 := Frame.bit hm (k := 9) (by decide)
  unfold thresholdNote
  repeat' (with_reducible first | assumption | (exact Frame.sub hm (by decide)) | apply frame_addNote | split | dsimp only | simp only [Frame.upd_iff, b9, true_or, or_true])

theorem frame_rearmNote {m0 : Nat} {s0 : State} (t : Nat) (type : Nat) (subj : Nat) (value : Nat) (threshold : Nat) (s : State) (hm : 512 ||| m0 = m0) (hs : Frame m0 s0 s) :
    Frame m0 s0 (rearmNote t type subj value threshold s) := by
  have b9 := Frame.bit hm (k := 9) (by decide)
  unfold rearmNote
  repeat' (with_reducible first | assumption | (exact Frame.sub hm (by decide)) | split | dsimp only | simp only [Frame.upd_iff, b9, true_or, or_true])

theorem frame_postReceipt {m0 : Nat} {s0 : State} (x : Sess) (a : Addr) (queue : Nat) (pm : Nat) (r : Bytes) (s : State) (hm : 4352 ||| m0 = m0) (hs : Frame m0 s0 s) :
    Frame m0 s0 (postReceipt x a queue pm r s) := by
  unfold postReceipt
  repeat' (with_reducible first | assumption | (exact Frame.sub hm (by decide)) | apply frame_bump | apply frame_putOut | split | dsimp only | simp only [Frame.upd_iff, true_or, or_true])

theorem frame_earlyReceipt {m0 : Nat} {s0 : State} (sid : Nat) (pm : Nat) (type : Nat) (status : Nat) (detail : Nat) (queue : Nat) (a : Addr) (s : State) (hm : 4352 ||| m0 = m0) (hs : Frame m0 s0 s) :
    Frame m0 s0 (earlyReceipt sid pm type status detail queue a s) := by
  unfold earlyReceipt
  repeat' (with_reducible first | assumption | (exact Frame.sub hm (by decide)) | apply frame_bump | apply frame_optS | apply frame_postReceipt | apply frame_whenS | (intro _) | refine Frame.ite ?_ ?_ | split | dsimp only | simp only [Frame.upd_iff, true_or, or_true])

theorem frame_onReq {m0 : Nat} {s0 : State} (rid : Nat) (f : Req → Req) (s : State) (hm : 256 ||| m0 = m0) (hs : Frame m0 s0 s) :
    Frame m0 s0 (onReq rid f s) := by
  have b8 := Frame.bit hm (k := 8) (by decide)
  unfold onReq
  repeat' (with_reducible first | assumption | (exact Frame.sub hm (by decide)) | split | dsimp only | simp only [Frame.upd_iff, b8, true_or, or_true])

theorem frame_dropReq {m0 : Nat} {s0 : State} (rid : Nat) (s : State) (hm : 256 ||| m0 = m0) (hs : Frame m0 s0 s) :
    Frame m0 s0 (dropReq rid s) := by
  have b8 := Frame.bit hm (k := 8) (by decide)
  unfold dropReq
  repeat' (with_reducible first | assumption | (exact Frame.sub hm (by decide)) | split | dsimp only | simp only [Frame.upd_iff, b8, true_or, or_true])

theorem frame_addCause {m0 : Nat} {s0 : State} (rid : Nat) (c : Nat) (s : State) (hm : 65792 ||| m0 = m0) (hs : Frame m0 s0 s) :
    Frame m0 s0 (addCause rid c s) := by
  have b16 := Frame.bit hm (k := 16) (by decide)
  unfold addCause
  repeat' (with_reducible first | assumption | (exact Frame.sub hm (by decide)) | apply frame_onReq | split | dsimp only | simp only [Frame.upd_iff, b16, true_or, or_true])

theorem frame_onThread {m0 : Nat} {s0 : State} (th : Nat) (f : Thread → Thread) (s : State) (hm : 16 ||| m0 = m0) (hs : Frame m0 s0 s) :
    Frame m0 s0 (onThread th f s) := by
  have b4 := Frame.bit hm (k := 4) (by decide)
  unfold onThread
  repeat' (with_reducible first | assumption | (exact Frame.sub hm (by decide)) | split | dsimp only | simp only [Frame.upd_iff, b4, true_or, or_true])

theorem frame_stopWork {m0 : Nat} {s0 : State} (rid : Nat) (status : Nat) (s : State) (hm : 4344 ||| m0 = m0) (hs : Frame m0 s0 s) :
    Frame m0 s0 (stopWork rid status s) := by
  have b4 := Frame.bit hm (k := 4) (by decide)
  unfold stopWork
  repeat' (with_reducible first | assumption | (exact Frame.sub hm (by decide)) | apply frame_endDescs | apply frame_killParcels | split | dsimp only | simp only [Frame.upd_iff, b4, true_or, or_true])

theorem frame_addTrace {m0 : Nat} {s0 : State} (e : Trace) (s : State) (hm : 2048 ||| m0 = m0) (hs : Frame m0 s0 s) :
    Frame m0 s0 (addTrace e s) := by
  have b11 := Frame.bit hm (k := 11) (by decide)
  unfold addTrace
  repeat' (with_reducible first | assumption | (exact Frame.sub hm (by decide)) | split | dsimp only | simp only [Frame.upd_iff, b11, true_or, or_true])

theorem frame_countClass {m0 : Nat} {s0 : State} (r : Req) (status : Nat) (cls : Nat) (s : State) (hm : 6144 ||| m0 = m0) (hs : Frame m0 s0 s) :
    Frame m0 s0 (countClass r status cls s) := by
  unfold countClass
  repeat' (with_reducible first | assumption | (exact Frame.sub hm (by decide)) | apply frame_addTrace | apply frame_bump | apply frame_dirSet | apply frame_whenS | (intro _) | refine Frame.ite ?_ ?_ | split | dsimp only | simp only [Frame.upd_iff, true_or, or_true])

theorem frame_holdReceipt {m0 : Nat} {s0 : State} (r : Req) (b : Bytes) (s : State) (hm : 256 ||| m0 = m0) (hs : Frame m0 s0 s) :
    Frame m0 s0 (holdReceipt r b s) := by
  unfold holdReceipt
  repeat' (with_reducible first | assumption | (exact Frame.sub hm (by decide)) | apply frame_onSess | split | dsimp only | simp only [Frame.upd_iff, true_or, or_true])

theorem frame_countStatus {m0 : Nat} {s0 : State} (r : Req) (status : Nat) (s : State) (hm : 4096 ||| m0 = m0) (hs : Frame m0 s0 s) :
    Frame m0 s0 (countStatus r status s) := by
  unfold countStatus
  repeat' (with_reducible first | assumption | (exact Frame.sub hm (by decide)) | apply frame_bump | apply frame_whenS | (intro _) | refine Frame.ite ?_ ?_ | split | dsimp only | simp only [Frame.upd_iff, true_or, or_true])

theorem frame_endReq {m0 : Nat} {s0 : State} (rid : Nat) (status : Nat) (count : Nat) (detail : Nat) (body : Bytes) (s : State) (hm : 6648 ||| m0 = m0) (hs : Frame m0 s0 s) :
    Frame m0 s0 (endReq rid status count detail body s) := by
  unfold endReq
  repeat' (with_reducible first | assumption | (exact Frame.sub hm (by decide)) | apply frame_countClass | apply frame_countStatus | apply frame_dropReq | apply frame_holdReceipt | apply frame_optS | apply frame_postReceipt | apply frame_stopWork | apply frame_whenS | (intro _) | refine Frame.ite ?_ ?_ | split | dsimp only | simp only [Frame.upd_iff, true_or, or_true])

theorem frame_failReq {m0 : Nat} {s0 : State} (rid : Nat) (status : Nat) (s : State) (hm : 6648 ||| m0 = m0) (hs : Frame m0 s0 s) :
    Frame m0 s0 (failReq rid status s) := by
  unfold failReq
  repeat' (with_reducible first | assumption | (exact Frame.sub hm (by decide)) | apply frame_endReq | split | dsimp only | simp only [Frame.upd_iff, true_or, or_true])

theorem frame_badReq {m0 : Nat} {s0 : State} (rid : Nat) (detail : Nat) (s : State) (hm : 6648 ||| m0 = m0) (hs : Frame m0 s0 s) :
    Frame m0 s0 (badReq rid detail s) := by
  unfold badReq
  repeat' (with_reducible first | assumption | (exact Frame.sub hm (by decide)) | apply frame_endReq | split | dsimp only | simp only [Frame.upd_iff, true_or, or_true])

theorem frame_finishReq {m0 : Nat} {s0 : State} (rid : Nat) (status : Nat) (count : Nat) (body : Bytes) (s : State) (hm : 72184 ||| m0 = m0) (hs : Frame m0 s0 s) :
    Frame m0 s0 (finishReq rid status count body s) := by
  unfold finishReq
  repeat' (with_reducible first | assumption | (exact Frame.sub hm (by decide)) | apply frame_addCause | apply frame_endReq | apply frame_onReq | split | dsimp only | simp only [Frame.upd_iff, true_or, or_true])

end Sys2Proof.Machine
end

