-- ==== Sys2Proof/Laws/FrameLetters.lean ====
section
/-! SUPPORT. FrameLetters: each operation of Machine/Letters.lean changes only the fields of `State`
that its mask names (`Frame`). -/
namespace Sys2Proof.Machine
set_option Elab.async false
set_option linter.all false

theorem frame_deliverThread {m0 : Nat} {s0 : State} (l : Letter) (n : Nat) (s : State) (hm : 4112 ||| m0 = m0) (hs : Frame m0 s0 s) :
    Frame m0 s0 (deliverThread l n s).2 := by
  unfold deliverThread
  repeat' (with_reducible first | assumption | (exact Frame.sub hm (by decide)) | apply frame_bump | apply frame_onThread | split | dsimp only | simp only [Frame.upd_iff, true_or, or_true])

theorem frame_startWake {m0 : Nat} {s0 : State} (c : Nat) (s : State) (hm : 128 ||| m0 = m0) (hs : Frame m0 s0 s) :
    Frame m0 s0 (startWake c s) := by
  have b7 := Frame.bit hm (k := 7) (by decide)
  unfold startWake
  repeat' (with_reducible first | assumption | (exact Frame.sub hm (by decide)) | split | dsimp only | simp only [Frame.upd_iff, b7, true_or, or_true])

theorem frame_ungate {m0 : Nat} {s0 : State} (c : Nat) (s : State) (hm : 128 ||| m0 = m0) (hs : Frame m0 s0 s) :
    Frame m0 s0 (ungate c s) := by
  have b7 := Frame.bit hm (k := 7) (by decide)
  unfold ungate
  repeat' (with_reducible first | assumption | (exact Frame.sub hm (by decide)) | split | dsimp only | simp only [Frame.upd_iff, b7, true_or, or_true])

theorem frame_holdLetter {m0 : Nat} {s0 : State} (l : Letter) (c : Nat) (n : Nat) (s : State) (hm : 4224 ||| m0 = m0) (hs : Frame m0 s0 s) :
    Frame m0 s0 (holdLetter l c n s).2 := by
  have b7 := Frame.bit hm (k := 7) (by decide)
  unfold holdLetter
  repeat' (with_reducible first | assumption | (exact Frame.sub hm (by decide)) | apply frame_bump | apply frame_startWake | split | dsimp only | simp only [Frame.upd_iff, b7, true_or, or_true])

theorem frame_boost {m0 : Nat} {s0 : State} (s : State) (hm : 128 ||| m0 = m0) (hs : Frame m0 s0 s) :
    Frame m0 s0 (boost s) := by
  have b7 := Frame.bit hm (k := 7) (by decide)
  unfold boost
  repeat' (with_reducible first | assumption | (exact Frame.sub hm (by decide)) | split | dsimp only | simp only [Frame.upd_iff, b7, true_or, or_true])

theorem frame_intoController {m0 : Nat} {s0 : State} (l : Letter) (s : State) (hm : 128 ||| m0 = m0) (hs : Frame m0 s0 s) :
    Frame m0 s0 (intoController l s) := by
  have b7 := Frame.bit hm (k := 7) (by decide)
  unfold intoController
  repeat' (with_reducible first | assumption | (exact Frame.sub hm (by decide)) | split | dsimp only | simp only [Frame.upd_iff, b7, true_or, or_true])

theorem frame_intoSecurity {m0 : Nat} {s0 : State} (l : Letter) (s : State) (hm : 128 ||| m0 = m0) (hs : Frame m0 s0 s) :
    Frame m0 s0 (intoSecurity l s) := by
  have b7 := Frame.bit hm (k := 7) (by decide)
  unfold intoSecurity
  repeat' (with_reducible first | assumption | (exact Frame.sub hm (by decide)) | split | dsimp only | simp only [Frame.upd_iff, b7, true_or, or_true])

theorem frame_deliver {m0 : Nat} {s0 : State} (l : Letter) (s : State) (hm : 4496 ||| m0 = m0) (hs : Frame m0 s0 s) :
    Frame m0 s0 (deliver l s).2 := by
  unfold deliver
  repeat' (with_reducible first | assumption | (exact Frame.sub hm (by decide)) | apply frame_addNote | apply frame_boost | apply frame_bump | apply frame_deliverThread | apply frame_holdLetter | apply frame_intoController | apply frame_intoSecurity | apply frame_ungate | split | dsimp only | simp only [Frame.upd_iff, true_or, or_true])

theorem frame_retryKnock {m0 : Nat} {s0 : State} (engine : Nat) (l : Letter) (s : State) (hm : 4592 ||| m0 = m0) (hs : Frame m0 s0 s) :
    Frame m0 s0 (retryKnock engine l s) := by
  unfold retryKnock
  repeat' (with_reducible first | assumption | (exact Frame.sub hm (by decide)) | exact Frame.refl _ | apply frame_deliver | apply frame_onKnocks | (intro _) | refine Frame.snd (by assumption) ?_ | refine Frame.snd3 (by assumption) ?_ | refine Frame.snd4 (by assumption) ?_ | refine Frame.some1 (by assumption) ?_ | refine Frame.some2 (by assumption) ?_ | refine Frame.some3 (by assumption) ?_ | refine Frame.fst (by assumption) ?_ | refine Frame.ite ?_ ?_ | refine Frame.ite2 ?_ ?_ | refine Frame.ite3 ?_ ?_ | split | dsimp only | simp only [Frame.upd_iff, true_or, or_true])

theorem frame_retryKnocks {m0 : Nat} {s0 : State} (s : State) (hm : 4592 ||| m0 = m0) (hs : Frame m0 s0 s) :
    Frame m0 s0 (retryKnocks s) := by
  unfold retryKnocks
  repeat' (with_reducible first | assumption | (exact Frame.sub hm (by decide)) | apply frame_foldS | apply frame_retryKnock | (intro _) | refine Frame.ite ?_ ?_ | split | dsimp only | simp only [Frame.upd_iff, true_or, or_true])

theorem frame_deliverOrKeep {m0 : Nat} {s0 : State} (l : Letter) (s : State) (hm : 4592 ||| m0 = m0) (hs : Frame m0 s0 s) :
    Frame m0 s0 (deliverOrKeep l s) := by
  unfold deliverOrKeep
  repeat' (with_reducible first | assumption | (exact Frame.sub hm (by decide)) | exact Frame.refl _ | apply frame_deliver | apply frame_onKnocks | (intro _) | refine Frame.snd (by assumption) ?_ | refine Frame.snd3 (by assumption) ?_ | refine Frame.snd4 (by assumption) ?_ | refine Frame.some1 (by assumption) ?_ | refine Frame.some2 (by assumption) ?_ | refine Frame.some3 (by assumption) ?_ | refine Frame.fst (by assumption) ?_ | refine Frame.ite ?_ ?_ | refine Frame.ite2 ?_ ?_ | refine Frame.ite3 ?_ ?_ | split | dsimp only | simp only [Frame.upd_iff, true_or, or_true])

end Sys2Proof.Machine
end

