-- ==== Sys2Proof/Laws/FrameFabops.lean ====
section
/-! SUPPORT. FrameFabops: each operation of Machine/Fabops.lean changes only the fields of `State`
that its mask names (`Frame`). -/
namespace Sys2Proof.Machine
set_option Elab.async false
set_option linter.all false

theorem frame_fabOut {m0 : Nat} {s0 : State} (m : FabMsg) (s : State) (hm : 16384 ||| m0 = m0) (hs : Frame m0 s0 s) :
    Frame m0 s0 (fabOut m s) := by
  have b14 := Frame.bit hm (k := 14) (by decide)
  unfold fabOut
  repeat' (with_reducible first | assumption | (exact Frame.sub hm (by decide)) | split | dsimp only | simp only [Frame.upd_iff, b14, true_or, or_true])

theorem frame_fabSend {m0 : Nat} {s0 : State} (link : Nat) (slot : Nat) (detour : Bool) (h : Hdr) (inl : Bytes) (data : Bytes) (s : State) (hm : 16384 ||| m0 = m0) (hs : Frame m0 s0 s) :
    Frame m0 s0 (fabSend link slot detour h inl data s) := by
  unfold fabSend
  repeat' (with_reducible first | assumption | (exact Frame.sub hm (by decide)) | apply frame_fabOut | split | dsimp only | simp only [Frame.upd_iff, true_or, or_true])

theorem frame_onLink {m0 : Nat} {s0 : State} (k : Nat) (f : LinkSt → LinkSt) (s : State) (hm : 16384 ||| m0 = m0) (hs : Frame m0 s0 s) :
    Frame m0 s0 (onLink k f s) := by
  have b14 := Frame.bit hm (k := 14) (by decide)
  unfold onLink
  repeat' (with_reducible first | assumption | (exact Frame.sub hm (by decide)) | split | dsimp only | simp only [Frame.upd_iff, b14, true_or, or_true])

theorem frame_tryHeld {m0 : Nat} {s0 : State} (p : List Nat × State) (m : FabMsg) (hm : 16384 ||| m0 = m0) (hp : Frame m0 s0 p.2) :
    Frame m0 s0 (tryHeld p m).2 := by
  have b14 := Frame.bit hm (k := 14) (by decide)
  unfold tryHeld
  repeat' (with_reducible first | assumption | (exact Frame.sub hm (by decide)) | apply frame_fabOut | apply frame_onLink | split | dsimp only | simp only [Frame.upd_iff, b14, true_or, or_true])

theorem frame_flushHeld {m0 : Nat} {s0 : State} (s : State) (hm : 16384 ||| m0 = m0) (hs : Frame m0 s0 s) :
    Frame m0 s0 (flushHeld s) := by
  have b14 := Frame.bit hm (k := 14) (by decide)
  unfold flushHeld
  repeat' (with_reducible first | assumption | (exact Frame.sub hm (by decide)) | exact Frame.refl _ | apply frame_tryHeld | (intro _) | refine Frame.snd (by assumption) ?_ | refine Frame.snd3 (by assumption) ?_ | refine Frame.snd4 (by assumption) ?_ | refine Frame.some1 (by assumption) ?_ | refine Frame.some2 (by assumption) ?_ | refine Frame.some3 (by assumption) ?_ | refine Frame.fst (by assumption) ?_ | refine Frame.getD ?_ ?_ | refine Frame.elim ?_ ?_ | refine Frame.elim2 ?_ ?_ | refine Frame.foldl ?_ ?_ | refine Frame.foldl2 ?_ ?_ | refine Frame.foldl3 ?_ ?_ | refine Frame.ite ?_ ?_ | refine Frame.ite2 ?_ ?_ | refine Frame.ite3 ?_ ?_ | split | dsimp only | simp only [Frame.upd_iff, b14, true_or, or_true])

theorem frame_bePut {m0 : Nat} {s0 : State} (m : FabMsg) (s : State) (hm : 16384 ||| m0 = m0) (hs : Frame m0 s0 s) :
    Frame m0 s0 (bePut m s) := by
  have b14 := Frame.bit hm (k := 14) (by decide)
  unfold bePut
  repeat' (with_reducible first | assumption | (exact Frame.sub hm (by decide)) | apply frame_flushHeld | split | dsimp only | simp only [Frame.upd_iff, b14, true_or, or_true])

theorem frame_beSend {m0 : Nat} {s0 : State} (kind : Nat) (src : Nat) (dest : Nat) (tenant : Nat) (tag : Nat) (address : Nat) (inl : Bytes) (data : Bytes) (s : State) (hm : 20480 ||| m0 = m0) (hs : Frame m0 s0 s) :
    Frame m0 s0 (beSend kind src dest tenant tag address inl data s) := by
  have b14 := Frame.bit hm (k := 14) (by decide)
  unfold beSend
  repeat' (with_reducible first | assumption | (exact Frame.sub hm (by decide)) | apply frame_bePut | apply frame_bump | split | dsimp only | simp only [Frame.upd_iff, b14, true_or, or_true])

theorem frame_sendRemoteLetter {m0 : Nat} {s0 : State} (l : Letter) (s : State) (hm : 20480 ||| m0 = m0) (hs : Frame m0 s0 s) :
    Frame m0 s0 (sendRemoteLetter l s) := by
  unfold sendRemoteLetter
  repeat' (with_reducible first | assumption | (exact Frame.sub hm (by decide)) | apply frame_beSend | split | dsimp only | simp only [Frame.upd_iff, true_or, or_true])

end Sys2Proof.Machine
end

