-- ==== Sys2Proof/Laws/FrameSeaOps.lean ====
section
/-! SUPPORT. FrameSeaOps: each operation of Machine/SeaOps.lean changes only the fields of `State`
that its mask names (`Frame`). -/
namespace Sys2Proof.Machine
set_option Elab.async false
set_option linter.all false

theorem frame_charge {m0 : Nat} {s0 : State} (th : Nat) (s : State) (hm : 16 ||| m0 = m0) (hs : Frame m0 s0 s) :
    Frame m0 s0 (charge th s) := by
  have b4 := Frame.bit hm (k := 4) (by decide)
  unfold charge
  repeat' (with_reducible first | assumption | (exact Frame.sub hm (by decide)) | split | dsimp only | simp only [Frame.upd_iff, b4, true_or, or_true])

theorem frame_issued {m0 : Nat} {s0 : State} (th : Nat) (s : State) (hm : 144 ||| m0 = m0) (hs : Frame m0 s0 s) :
    Frame m0 s0 (issued th s) := by
  have b7 := Frame.bit hm (k := 7) (by decide)
  unfold issued
  repeat' (with_reducible first | assumption | (exact Frame.sub hm (by decide)) | apply frame_charge | split | dsimp only | simp only [Frame.upd_iff, b7, true_or, or_true])

theorem frame_onIssue {m0 : Nat} {s0 : State} (th : Nat) (f : State → State) (s : State) (hm : 144 ||| m0 = m0) (hf : ∀ u, Frame m0 s0 u → Frame m0 s0 (f u)) (hs : Frame m0 s0 s) :
    Frame m0 s0 (onIssue th f s) := by
  unfold onIssue
  repeat' (with_reducible first | assumption | (exact Frame.sub hm (by decide)) | apply frame_issued | apply hf | split | dsimp only | simp only [Frame.upd_iff, true_or, or_true])

theorem frame_onRegs {m0 : Nat} {s0 : State} (th : Nat) (xs : List Nat) (fs : List Nat) (vs : List Nat) (f : State → State) (s : State) (hm : 144 ||| m0 = m0) (hf : ∀ u, Frame m0 s0 u → Frame m0 s0 (f u)) (hs : Frame m0 s0 s) :
    Frame m0 s0 (onRegs th xs fs vs f s) := by
  unfold onRegs
  repeat' (with_reducible first | assumption | (exact Frame.sub hm (by decide)) | apply frame_onIssue | apply hf | split | dsimp only | simp only [Frame.upd_iff, true_or, or_true])

theorem frame_takeFault {m0 : Nat} {s0 : State} (th : Nat) (cause : Nat) (status : Nat) (mtval : Nat) (s : State) (hm : 6648 ||| m0 = m0) (hs : Frame m0 s0 s) :
    Frame m0 s0 (takeFault th cause status mtval s) := by
  unfold takeFault
  repeat' (with_reducible first | assumption | (exact Frame.sub hm (by decide)) | apply frame_addNote | apply frame_failReq | apply frame_onThread | apply frame_whenS | (intro _) | refine Frame.ite ?_ ?_ | split | dsimp only | simp only [Frame.upd_iff, true_or, or_true])

theorem frame_illegal {m0 : Nat} {s0 : State} (th : Nat) (w : W32) (s : State) (hm : 6648 ||| m0 = m0) (hs : Frame m0 s0 s) :
    Frame m0 s0 (illegal th w s) := by
  unfold illegal
  repeat' (with_reducible first | assumption | (exact Frame.sub hm (by decide)) | apply frame_takeFault | split | dsimp only | simp only [Frame.upd_iff, true_or, or_true])

theorem frame_writeBackLine {m0 : Nat} {s0 : State} (w : Who) (key : Nat) (s : State) (hm : 15496 ||| m0 = m0) (hs : Frame m0 s0 s) :
    Frame m0 s0 (writeBackLine w key s) := by
  have b3 := Frame.bit hm (k := 3) (by decide)
  unfold writeBackLine
  repeat' (with_reducible first | assumption | (exact Frame.sub hm (by decide)) | apply frame_demandWrite | split | dsimp only | simp only [Frame.upd_iff, b3, true_or, or_true])

theorem frame_dropLine {m0 : Nat} {s0 : State} (key : Nat) (s : State) (hm : 8 ||| m0 = m0) (hs : Frame m0 s0 s) :
    Frame m0 s0 (dropLine key s) := by
  have b3 := Frame.bit hm (k := 3) (by decide)
  unfold dropLine
  repeat' (with_reducible first | assumption | (exact Frame.sub hm (by decide)) | split | dsimp only | simp only [Frame.upd_iff, b3, true_or, or_true])

theorem frame_makeRoom {m0 : Nat} {s0 : State} (w : Who) (cl : Nat) (s : State) (hm : 1064072 ||| m0 = m0) (hs : Frame m0 s0 s) :
    Frame m0 s0 (makeRoom w cl s) := by
  unfold makeRoom
  repeat' (with_reducible first | assumption | (exact Frame.sub hm (by decide)) | apply frame_draw | apply frame_dropLine | apply frame_writeBackLine | split | dsimp only | simp only [Frame.upd_iff, true_or, or_true])

theorem frame_onStream {m0 : Nat} {s0 : State} (k : Nat) (f : Stream → Stream) (s : State) (hm : 16 ||| m0 = m0) (hs : Frame m0 s0 s) :
    Frame m0 s0 (onStream k f s) := by
  have b4 := Frame.bit hm (k := 4) (by decide)
  unfold onStream
  repeat' (with_reducible first | assumption | (exact Frame.sub hm (by decide)) | split | dsimp only | simp only [Frame.upd_iff, b4, true_or, or_true])

theorem frame_demandHit {m0 : Nat} {s0 : State} (cl : Nat) (key : Nat) (s : State) (hm : 24 ||| m0 = m0) (hs : Frame m0 s0 s) :
    Frame m0 s0 (demandHit cl key s) := by
  have b3 := Frame.bit hm (k := 3) (by decide)
  unfold demandHit
  repeat' (with_reducible first | assumption | (exact Frame.sub hm (by decide)) | apply frame_onStream | split | dsimp only | simp only [Frame.upd_iff, b3, true_or, or_true])

theorem frame_trainMiss {m0 : Nat} {s0 : State} (lim : Nat) (cl : Nat) (a : Nat) (s : State) (hm : 16 ||| m0 = m0) (hs : Frame m0 s0 s) :
    Frame m0 s0 (trainMiss lim cl a s) := by
  have b4 := Frame.bit hm (k := 4) (by decide)
  unfold trainMiss
  repeat' (with_reducible first | assumption | (exact Frame.sub hm (by decide)) | split | dsimp only | simp only [Frame.upd_iff, b4, true_or, or_true])

theorem frame_cacheFill {m0 : Nat} {s0 : State} (w : Who) (lim : Nat) (cl : Nat) (a : Nat) (stream : Bool) (s : State) (hm : 1064088 ||| m0 = m0) (hs : Frame m0 s0 s) :
    Frame m0 s0 (cacheFill w lim cl a stream s).2 := by
  have b3 := Frame.bit hm (k := 3) (by decide)
  unfold cacheFill
  repeat' (with_reducible first | assumption | (exact Frame.sub hm (by decide)) | apply frame_demandHit | apply frame_demandRead | apply frame_makeRoom | apply frame_trainMiss | split | dsimp only | simp only [Frame.upd_iff, b3, true_or, or_true])

theorem frame_lineWrite {m0 : Nat} {s0 : State} (cl : Nat) (a : Nat) (b : Bytes) (stream : Bool) (s : State) (hm : 8 ||| m0 = m0) (hs : Frame m0 s0 s) :
    Frame m0 s0 (lineWrite cl a b stream s) := by
  have b3 := Frame.bit hm (k := 3) (by decide)
  unfold lineWrite
  repeat' (with_reducible first | assumption | (exact Frame.sub hm (by decide)) | split | dsimp only | simp only [Frame.upd_iff, b3, true_or, or_true])

theorem frame_breakResv {m0 : Nat} {s0 : State} (th : Nat) (a : Nat) (s : State) (hm : 16 ||| m0 = m0) (hs : Frame m0 s0 s) :
    Frame m0 s0 (breakResv th a s) := by
  have b4 := Frame.bit hm (k := 4) (by decide)
  unfold breakResv
  repeat' (with_reducible first | assumption | (exact Frame.sub hm (by decide)) | split | dsimp only | simp only [Frame.upd_iff, b4, true_or, or_true])

theorem frame_readLocal {m0 : Nat} {s0 : State} (th : Nat) (a : Nat) (n : Nat) (attr : Nat) (s : State) (hm : 1064088 ||| m0 = m0) (hs : Frame m0 s0 s) :
    Frame m0 s0 (readLocal th a n attr s).2.2 := by
  unfold readLocal
  repeat' (with_reducible first | assumption | (exact Frame.sub hm (by decide)) | apply frame_cacheFill | apply frame_demandRead | split | dsimp only | simp only [Frame.upd_iff, true_or, or_true])

theorem frame_writeLocal {m0 : Nat} {s0 : State} (th : Nat) (a : Nat) (attr : Nat) (b : Bytes) (s : State) (hm : 1064088 ||| m0 = m0) (hs : Frame m0 s0 s) :
    Frame m0 s0 (writeLocal th a attr b s).2 := by
  unfold writeLocal
  repeat' (with_reducible first | assumption | (exact Frame.sub hm (by decide)) | apply frame_breakResv | apply frame_cacheFill | apply frame_demandWrite | apply frame_lineWrite | apply frame_makeRoom | split | dsimp only | simp only [Frame.upd_iff, true_or, or_true])

theorem frame_stepTag {m0 : Nat} {s0 : State} (s : State) (hm : 16 ||| m0 = m0) (hs : Frame m0 s0 s) :
    Frame m0 s0 (stepTag s) := by
  have b4 := Frame.bit hm (k := 4) (by decide)
  unfold stepTag
  repeat' (with_reducible first | assumption | (exact Frame.sub hm (by decide)) | split | dsimp only | simp only [Frame.upd_iff, b4, true_or, or_true])

theorem frame_sendRemote {m0 : Nat} {s0 : State} (th : Nat) (va : Nat) (kind : Nat) (post : Nat) (a : Nat) (n : Nat) (op : Nat) (data : Bytes) (what : RemKind) (s : State) (hm : 20496 ||| m0 = m0) (hs : Frame m0 s0 s) :
    Frame m0 s0 (sendRemote th va kind post a n op data what s) := by
  unfold sendRemote
  repeat' (with_reducible first | assumption | (exact Frame.sub hm (by decide)) | apply frame_beSend | apply frame_onThread | apply frame_stepTag | split | dsimp only | simp only [Frame.upd_iff, true_or, or_true])

end Sys2Proof.Machine
end

