-- ==== Sys2Proof/Laws/FrameCircOps.lean ====
section
/-! SUPPORT. FrameCircOps: each operation of Machine/CircOps.lean changes only the fields of `State`
that its mask names (`Frame`). -/
namespace Sys2Proof.Machine
set_option Elab.async false
set_option linter.all false

theorem frame_checkLoad {m0 : Nat} {s0 : State} (k : Nat) (addr : Nat) (rid : Nat) (s : State) (hm : 15496 ||| m0 = m0) (hs : Frame m0 s0 s) :
    Frame m0 s0 (checkLoad k addr rid s).2.2 := by
  unfold checkLoad
  repeat' (with_reducible first | assumption | (exact Frame.sub hm (by decide)) | apply frame_demandRead | split | dsimp only | simp only [Frame.upd_iff, true_or, or_true])

theorem frame_rowStore {m0 : Nat} {s0 : State} (k : Nat) (b : Nat) (r : Nat) (v : Row) (s : State) (hm : 8 ||| m0 = m0) (hs : Frame m0 s0 s) :
    Frame m0 s0 (rowStore k b r v s) := by
  unfold rowStore
  repeat' (with_reducible first | assumption | (exact Frame.sub hm (by decide)) | apply frame_memWrite | apply frame_setUnsealed | split | dsimp only | simp only [Frame.upd_iff, true_or, or_true])

theorem frame_rowSeal {m0 : Nat} {s0 : State} (k : Nat) (b : Nat) (r : Nat) (s : State) (hm : 8 ||| m0 = m0) (hs : Frame m0 s0 s) :
    Frame m0 s0 (rowSeal k b r s) := by
  unfold rowSeal
  repeat' (with_reducible first | assumption | (exact Frame.sub hm (by decide)) | apply frame_freshCheck | apply frame_setUnsealed | split | dsimp only | simp only [Frame.upd_iff, true_or, or_true])

theorem frame_latchOp {m0 : Nat} {s0 : State} (k : Nat) (c : Circ) (m : Mic) (s : State) (hm : 32 ||| m0 = m0) (hs : Frame m0 s0 s) :
    Frame m0 s0 (latchOp k c m s) := by
  unfold latchOp
  repeat' (with_reducible first | assumption | (exact Frame.sub hm (by decide)) | apply frame_foldS | apply frame_onSeqr | (intro _) | refine Frame.ite ?_ ?_ | split | dsimp only | simp only [Frame.upd_iff, true_or, or_true])

theorem frame_wrOp {m0 : Nat} {s0 : State} (k : Nat) (m : Mic) (s : State) (hm : 8 ||| m0 = m0) (hs : Frame m0 s0 s) :
    Frame m0 s0 (wrOp k m s) := by
  unfold wrOp
  repeat' (with_reducible first | assumption | (exact Frame.sub hm (by decide)) | apply frame_foldS | apply frame_rowStore | (intro _) | refine Frame.ite ?_ ?_ | split | dsimp only | simp only [Frame.upd_iff, true_or, or_true])

theorem frame_railFault {m0 : Nat} {s0 : State} (k : Nat) (b : Nat) (r : Nat) (s : State) (hm : 15392 ||| m0 = m0) (hs : Frame m0 s0 s) :
    Frame m0 s0 (railFault k b r s) := by
  unfold railFault
  repeat' (with_reducible first | assumption | (exact Frame.sub hm (by decide)) | apply frame_bump | apply frame_onSeqr | apply frame_raise | split | dsimp only | simp only [Frame.upd_iff, true_or, or_true])

theorem frame_rchkOp {m0 : Nat} {s0 : State} (k : Nat) (r : Nat) (s : State) (hm : 15392 ||| m0 = m0) (hs : Frame m0 s0 s) :
    Frame m0 s0 (rchkOp k r s) := by
  unfold rchkOp
  repeat' (with_reducible first | assumption | (exact Frame.sub hm (by decide)) | apply frame_foldS | apply frame_railFault | (intro _) | refine Frame.ite ?_ ?_ | split | dsimp only | simp only [Frame.upd_iff, true_or, or_true])

theorem frame_sealOp {m0 : Nat} {s0 : State} (k : Nat) (rows : List Nat) (s : State) (hm : 8 ||| m0 = m0) (hs : Frame m0 s0 s) :
    Frame m0 s0 (sealOp k rows s) := by
  unfold sealOp
  repeat' (with_reducible first | assumption | (exact Frame.sub hm (by decide)) | apply frame_foldS | apply frame_rowSeal | (intro _) | refine Frame.ite ?_ ?_ | split | dsimp only | simp only [Frame.upd_iff, true_or, or_true])

theorem frame_sealPair {m0 : Nat} {s0 : State} (k : Nat) (b : Nat) (r : Nat) (s : State) (hm : 15400 ||| m0 = m0) (hs : Frame m0 s0 s) :
    Frame m0 s0 (sealPair k b r s) := by
  unfold sealPair
  repeat' (with_reducible first | assumption | (exact Frame.sub hm (by decide)) | apply frame_bump | apply frame_onSeqr | apply frame_raise | apply frame_rowSeal | split | dsimp only | simp only [Frame.upd_iff, true_or, or_true])

theorem frame_sealcOp {m0 : Nat} {s0 : State} (k : Nat) (r : Nat) (n : Nat) (s : State) (hm : 15400 ||| m0 = m0) (hs : Frame m0 s0 s) :
    Frame m0 s0 (sealcOp k r n s) := by
  unfold sealcOp
  repeat' (with_reducible first | assumption | (exact Frame.sub hm (by decide)) | apply frame_foldS | apply frame_sealPair | (intro _) | refine Frame.ite ?_ ?_ | split | dsimp only | simp only [Frame.upd_iff, true_or, or_true])

theorem frame_sealUnsealed {m0 : Nat} {s0 : State} (k : Nat) (r : Nat) (n : Nat) (s : State) (hm : 15400 ||| m0 = m0) (hs : Frame m0 s0 s) :
    Frame m0 s0 (sealUnsealed k r n s) := by
  unfold sealUnsealed
  repeat' (with_reducible first | assumption | (exact Frame.sub hm (by decide)) | apply frame_foldS | apply frame_sealPair | (intro _) | refine Frame.ite ?_ ?_ | split | dsimp only | simp only [Frame.upd_iff, true_or, or_true])

theorem frame_stopCirc {m0 : Nat} {s0 : State} (k : Nat) (status : Nat) (s : State) (hm : 32 ||| m0 = m0) (hs : Frame m0 s0 s) :
    Frame m0 s0 (stopCirc k status s) := by
  unfold stopCirc
  repeat' (with_reducible first | assumption | (exact Frame.sub hm (by decide)) | apply frame_onSeqr | split | dsimp only | simp only [Frame.upd_iff, true_or, or_true])

theorem frame_compStop {m0 : Nat} {s0 : State} (k : Nat) (s : State) (hm : 15392 ||| m0 = m0) (hs : Frame m0 s0 s) :
    Frame m0 s0 (compStop k s) := by
  unfold compStop
  repeat' (with_reducible first | assumption | (exact Frame.sub hm (by decide)) | apply frame_raise | apply frame_stopCirc | split | dsimp only | simp only [Frame.upd_iff, true_or, or_true])

theorem frame_issueMic {m0 : Nat} {s0 : State} (k : Nat) (op : Nat) (f : Circ → Mic → State → State) (s : State) (hm : 15392 ||| m0 = m0) (hf : ∀ y0 y1 u, Frame m0 s0 u → Frame m0 s0 (f y0 y1 u)) (hs : Frame m0 s0 s) :
    Frame m0 s0 (issueMic k op f s) := by
  unfold issueMic
  repeat' (with_reducible first | assumption | (exact Frame.sub hm (by decide)) | apply frame_compStop | apply frame_onSeqr | apply hf | split | dsimp only | simp only [Frame.upd_iff, true_or, or_true])

theorem frame_bankMic {m0 : Nat} {s0 : State} (k : Nat) (op : Nat) (f : Circ → Mic → State → State) (s : State) (hm : 15392 ||| m0 = m0) (hf : ∀ y0 y1 u, Frame m0 s0 u → Frame m0 s0 (f y0 y1 u)) (hs : Frame m0 s0 s) :
    Frame m0 s0 (bankMic k op f s) := by
  unfold bankMic
  repeat' (with_reducible first | assumption | (exact Frame.sub hm (by decide)) | apply frame_issueMic | apply frame_onSeqr | apply hf | (intro _) | refine Frame.ite ?_ ?_ | split | dsimp only | simp only [Frame.upd_iff, true_or, or_true])

theorem frame_stepRefresh {m0 : Nat} {s0 : State} (k : Nat) (s : State) (hm : 4128 ||| m0 = m0) (hs : Frame m0 s0 s) :
    Frame m0 s0 (stepRefresh k s) := by
  unfold stepRefresh
  repeat' (with_reducible first | assumption | (exact Frame.sub hm (by decide)) | apply frame_bump | apply frame_onSeqr | split | dsimp only | simp only [Frame.upd_iff, true_or, or_true])

theorem frame_stepBoundary {m0 : Nat} {s0 : State} (k : Nat) (s : State) (hm : 4136 ||| m0 = m0) (hs : Frame m0 s0 s) :
    Frame m0 s0 (stepBoundary k s) := by
  unfold stepBoundary
  repeat' (with_reducible first | assumption | (exact Frame.sub hm (by decide)) | apply frame_bump | apply frame_flushWriteBacks | apply frame_onSeqr | apply frame_stepRefresh | apply frame_stopCirc | split | dsimp only | simp only [Frame.upd_iff, true_or, or_true])

theorem frame_endSealOp {m0 : Nat} {s0 : State} (k : Nat) (c : Circ) (s : State) (hm : 15400 ||| m0 = m0) (hs : Frame m0 s0 s) :
    Frame m0 s0 (endSealOp k c s) := by
  unfold endSealOp
  repeat' (with_reducible first | assumption | (exact Frame.sub hm (by decide)) | apply frame_bumpBy | apply frame_foldS | apply frame_onSeqr | apply frame_rowSeal | apply frame_sealUnsealed | (intro _) | refine Frame.ite ?_ ?_ | split | dsimp only | simp only [Frame.upd_iff, true_or, or_true])

theorem frame_ringWrite {m0 : Nat} {s0 : State} (k : Nat) (c : Circ) (b : Bytes) (s : State) (hm : 40 ||| m0 = m0) (hs : Frame m0 s0 s) :
    Frame m0 s0 (ringWrite k c b s) := by
  unfold ringWrite
  repeat' (with_reducible first | assumption | (exact Frame.sub hm (by decide)) | apply frame_freshCheck | apply frame_memWrite | apply frame_onSeqr | split | dsimp only | simp only [Frame.upd_iff, true_or, or_true])

theorem frame_compactBank {m0 : Nat} {s0 : State} (k : Nat) (c : Circ) (b : Nat) (p : Nat × State) (hm : 4136 ||| m0 = m0) (hp : Frame m0 s0 p.2) :
    Frame m0 s0 (compactBank k c b p).2 := by
  unfold compactBank
  repeat' (with_reducible first | assumption | (exact Frame.sub hm (by decide)) | apply frame_bump | apply frame_ringWrite | apply frame_whenS | (intro _) | refine Frame.ite ?_ ?_ | split | dsimp only | simp only [Frame.upd_iff, true_or, or_true])

theorem frame_refreshResources {m0 : Nat} {s0 : State} (s : State) (hm : 4096 ||| m0 = m0) (hs : Frame m0 s0 s) :
    Frame m0 s0 (refreshResources s) := by
  unfold refreshResources
  repeat' (with_reducible first | assumption | (exact Frame.sub hm (by decide)) | apply frame_dirSet | split | dsimp only | simp only [Frame.upd_iff, true_or, or_true])

theorem frame_bankOut {m0 : Nat} {s0 : State} (k : Nat) (b : Nat) (s : State) (hm : 15392 ||| m0 = m0) (hs : Frame m0 s0 s) :
    Frame m0 s0 (bankOut k b s) := by
  unfold bankOut
  repeat' (with_reducible first | assumption | (exact Frame.sub hm (by decide)) | apply frame_dirSet | apply frame_onSeqr | apply frame_raise | apply frame_refreshResources | split | dsimp only | simp only [Frame.upd_iff, true_or, or_true])

theorem frame_stackOut {m0 : Nat} {s0 : State} (k : Nat) (s : State) (hm : 15392 ||| m0 = m0) (hs : Frame m0 s0 s) :
    Frame m0 s0 (stackOut k s) := by
  unfold stackOut
  repeat' (with_reducible first | assumption | (exact Frame.sub hm (by decide)) | apply frame_onSeqr | apply frame_raise | apply frame_refreshResources | split | dsimp only | simp only [Frame.upd_iff, true_or, or_true])

theorem frame_mirrorCstat {m0 : Nat} {s0 : State} (k : Nat) (s : State) (hm : 4096 ||| m0 = m0) (hs : Frame m0 s0 s) :
    Frame m0 s0 (mirrorCstat k s) := by
  unfold mirrorCstat
  repeat' (with_reducible first | assumption | (exact Frame.sub hm (by decide)) | apply frame_dirSet | split | dsimp only | simp only [Frame.upd_iff, true_or, or_true])

theorem frame_closeCirc {m0 : Nat} {s0 : State} (k : Nat) (s : State) (hm : 32 ||| m0 = m0) (hs : Frame m0 s0 s) :
    Frame m0 s0 (closeCirc k s) := by
  unfold closeCirc
  repeat' (with_reducible first | assumption | (exact Frame.sub hm (by decide)) | apply frame_onSeqr | split | dsimp only | simp only [Frame.upd_iff, true_or, or_true])

theorem frame_cloadReg {m0 : Nat} {s0 : State} (rid : Nat) (k : Nat) (addr : Nat) (s : State) (hm : 160 ||| m0 = m0) (hs : Frame m0 s0 s) :
    Frame m0 s0 (cloadReg rid k addr s) := by
  unfold cloadReg
  repeat' (with_reducible first | assumption | (exact Frame.sub hm (by decide)) | apply frame_onSeqr | apply frame_touchStack | split | dsimp only | simp only [Frame.upd_iff, true_or, or_true])

theorem frame_cstartStack {m0 : Nat} {s0 : State} (seq : Nat) (k : Nat) (s : State) (hm : 32 ||| m0 = m0) (hs : Frame m0 s0 s) :
    Frame m0 s0 (cstartStack seq k s) := by
  unfold cstartStack
  repeat' (with_reducible first | assumption | (exact Frame.sub hm (by decide)) | apply frame_onSeqr | split | dsimp only | simp only [Frame.upd_iff, true_or, or_true])

theorem frame_cstartReg {m0 : Nat} {s0 : State} (v : Nat) (s : State) (hm : 32 ||| m0 = m0) (hs : Frame m0 s0 s) :
    Frame m0 s0 (cstartReg v s) := by
  unfold cstartReg
  repeat' (with_reducible first | assumption | (exact Frame.sub hm (by decide)) | apply frame_cstartStack | apply frame_foldS | (intro _) | refine Frame.ite ?_ ?_ | split | dsimp only | simp only [Frame.upd_iff, true_or, or_true])

theorem frame_cabortReg {m0 : Nat} {s0 : State} (k : Nat) (v : Nat) (s : State) (hm : 4128 ||| m0 = m0) (hs : Frame m0 s0 s) :
    Frame m0 s0 (cabortReg k v s) := by
  unfold cabortReg
  repeat' (with_reducible first | assumption | (exact Frame.sub hm (by decide)) | apply frame_mirrorCstat | apply frame_onSeqr | split | dsimp only | simp only [Frame.upd_iff, true_or, or_true])

theorem frame_cstatReg {m0 : Nat} {s0 : State} (k : Nat) (v : Nat) (s : State) (hm : 32 ||| m0 = m0) (hs : Frame m0 s0 s) :
    Frame m0 s0 (cstatReg k v s) := by
  unfold cstatReg
  repeat' (with_reducible first | assumption | (exact Frame.sub hm (by decide)) | apply frame_onSeqr | split | dsimp only | simp only [Frame.upd_iff, true_or, or_true])

end Sys2Proof.Machine
end

