-- ==== Sys2Proof/Laws/FrameFlashOps.lean ====
section
/-! SUPPORT. FrameFlashOps: each operation of Machine/FlashOps.lean changes only the fields of `State`
that its mask names (`Frame`). -/
namespace Sys2Proof.Machine
set_option Elab.async false
set_option linter.all false

theorem frame_onFlash {m0 : Nat} {s0 : State} (f : Flash → Flash) (s : State) (hm : 131072 ||| m0 = m0) (hs : Frame m0 s0 s) :
    Frame m0 s0 (onFlash f s) := by
  have b17 := Frame.bit hm (k := 17) (by decide)
  unfold onFlash
  repeat' (with_reducible first | assumption | (exact Frame.sub hm (by decide)) | split | dsimp only | simp only [Frame.upd_iff, b17, true_or, or_true])

theorem frame_touchGroup {m0 : Nat} {s0 : State} (c : Nat) (s : State) (hm : 128 ||| m0 = m0) (hs : Frame m0 s0 s) :
    Frame m0 s0 (touchGroup c s) := by
  have b7 := Frame.bit hm (k := 7) (by decide)
  unfold touchGroup
  repeat' (with_reducible first | assumption | (exact Frame.sub hm (by decide)) | split | dsimp only | simp only [Frame.upd_iff, b7, true_or, or_true])

theorem frame_delta {m0 : Nat} {s0 : State} (d : Delta) (s : State) (hm : 131072 ||| m0 = m0) (hs : Frame m0 s0 s) :
    Frame m0 s0 (delta d s) := by
  unfold delta
  repeat' (with_reducible first | assumption | (exact Frame.sub hm (by decide)) | apply frame_onFlash | split | dsimp only | simp only [Frame.upd_iff, true_or, or_true])

theorem frame_unitDelta {m0 : Nat} {s0 : State} (u : Nat) (s : State) (hm : 131072 ||| m0 = m0) (hs : Frame m0 s0 s) :
    Frame m0 s0 (unitDelta u s) := by
  unfold unitDelta
  repeat' (with_reducible first | assumption | (exact Frame.sub hm (by decide)) | apply frame_delta | split | dsimp only | simp only [Frame.upd_iff, true_or, or_true])

theorem frame_setCoarse {m0 : Nat} {s0 : State} (u : Nat) (e : Nat) (s : State) (hm : 131072 ||| m0 = m0) (hs : Frame m0 s0 s) :
    Frame m0 s0 (setCoarse u e s) := by
  unfold setCoarse
  repeat' (with_reducible first | assumption | (exact Frame.sub hm (by decide)) | apply frame_onFlash | split | dsimp only | simp only [Frame.upd_iff, true_or, or_true])

theorem frame_setFine {m0 : Nat} {s0 : State} (nlp : Nat) (e : Nat) (s : State) (hm : 131072 ||| m0 = m0) (hs : Frame m0 s0 s) :
    Frame m0 s0 (setFine nlp e s) := by
  unfold setFine
  repeat' (with_reducible first | assumption | (exact Frame.sub hm (by decide)) | apply frame_onFlash | split | dsimp only | simp only [Frame.upd_iff, true_or, or_true])

theorem frame_splitUnit {m0 : Nat} {s0 : State} (u : Nat) (s : State) (hm : 135168 ||| m0 = m0) (hs : Frame m0 s0 s) :
    Frame m0 s0 (splitUnit u s).2 := by
  unfold splitUnit
  repeat' (with_reducible first | assumption | (exact Frame.sub hm (by decide)) | apply frame_dirSet | apply frame_onFlash | split | dsimp only | simp only [Frame.upd_iff, true_or, or_true])

theorem frame_mergeUnit {m0 : Nat} {s0 : State} (u : Nat) (slot : Nat) (s : State) (hm : 135168 ||| m0 = m0) (hs : Frame m0 s0 s) :
    Frame m0 s0 (mergeUnit u slot s) := by
  unfold mergeUnit
  repeat' (with_reducible first | assumption | (exact Frame.sub hm (by decide)) | apply frame_dirSet | apply frame_setCoarse | split | dsimp only | simp only [Frame.upd_iff, true_or, or_true])

theorem frame_setLost {m0 : Nat} {s0 : State} (nlp : Nat) (s : State) (hm : 146432 ||| m0 = m0) (hs : Frame m0 s0 s) :
    Frame m0 s0 (setLost nlp s) := by
  unfold setLost
  repeat' (with_reducible first | assumption | (exact Frame.sub hm (by decide)) | exact Frame.refl _ | apply frame_bump | apply frame_onFlash | apply frame_raise | apply frame_setCoarse | apply frame_setFine | apply frame_splitUnit | apply frame_unitDelta | (intro _) | refine Frame.snd (by assumption) ?_ | refine Frame.snd3 (by assumption) ?_ | refine Frame.snd4 (by assumption) ?_ | refine Frame.some1 (by assumption) ?_ | refine Frame.some2 (by assumption) ?_ | refine Frame.some3 (by assumption) ?_ | refine Frame.fst (by assumption) ?_ | refine Frame.ite ?_ ?_ | refine Frame.ite2 ?_ ?_ | refine Frame.ite3 ?_ ?_ | split | dsimp only | simp only [Frame.upd_iff, true_or, or_true])

theorem frame_salvageUnit {m0 : Nat} {s0 : State} (p : Nat × Nat) (s : State) (hm : 135168 ||| m0 = m0) (hs : Frame m0 s0 s) :
    Frame m0 s0 (salvageUnit p s) := by
  unfold salvageUnit
  repeat' (with_reducible first | assumption | (exact Frame.sub hm (by decide)) | exact Frame.refl _ | apply frame_foldS | apply frame_onFlash | apply frame_setFine | apply frame_splitUnit | apply frame_unitDelta | (intro _) | refine Frame.snd (by assumption) ?_ | refine Frame.snd3 (by assumption) ?_ | refine Frame.snd4 (by assumption) ?_ | refine Frame.some1 (by assumption) ?_ | refine Frame.some2 (by assumption) ?_ | refine Frame.some3 (by assumption) ?_ | refine Frame.fst (by assumption) ?_ | refine Frame.ite ?_ ?_ | refine Frame.ite2 ?_ ?_ | refine Frame.ite3 ?_ ?_ | split | dsimp only | simp only [Frame.upd_iff, true_or, or_true])

theorem frame_onSblk {m0 : Nat} {s0 : State} (v : Nat) (g : SBlk → SBlk) (s : State) (hm : 131072 ||| m0 = m0) (hs : Frame m0 s0 s) :
    Frame m0 s0 (onSblk v g s) := by
  unfold onSblk
  repeat' (with_reducible first | assumption | (exact Frame.sub hm (by decide)) | apply frame_onFlash | split | dsimp only | simp only [Frame.upd_iff, true_or, or_true])

theorem frame_openBlock {m0 : Nat} {s0 : State} (slc : Bool) (s : State) (hm : 135168 ||| m0 = m0) (hs : Frame m0 s0 s) :
    ∀ r, (openBlock slc s) = some r → Frame m0 s0 r.2 := by
  intro r e
  unfold openBlock at e
  try dsimp only at e
  repeat' (split at e)
  all_goals first | contradiction | (injection e with e; subst e) | skip
  repeat' (with_reducible first | assumption | (exact Frame.sub hm (by decide)) | apply frame_delta | apply frame_dirSet | apply frame_onSblk | split | dsimp only | simp only [Frame.upd_iff, true_or, or_true])

theorem frame_setOpen {m0 : Nat} {s0 : State} (k : JobKind) (v : Option Nat) (s : State) (hm : 131072 ||| m0 = m0) (hs : Frame m0 s0 s) :
    Frame m0 s0 (setOpen k v s) := by
  unfold setOpen
  repeat' (with_reducible first | assumption | (exact Frame.sub hm (by decide)) | apply frame_onFlash | split | dsimp only | simp only [Frame.upd_iff, true_or, or_true])

theorem frame_takeRow {m0 : Nat} {s0 : State} (fuel : Nat) (k : JobKind) (cs : List Nat) (s : State) (hm : 135168 ||| m0 = m0) (hs : Frame m0 s0 s) :
    ∀ r, (takeRow fuel k cs s) = some r → Frame m0 s0 r.2.2 := by
  induction fuel generalizing k cs s with
  | zero => intro r e; simp [takeRow] at e
  | succ n ih =>
    intro r e
    unfold takeRow at e
    dsimp only at e
    split at e
    · split at e
      · cases e
      · rename_i heq
        exact ih _ _ _ (frame_setOpen _ _ _ (Frame.sub hm (by decide)) (frame_openBlock _ _ (Frame.sub hm (by decide)) hs _ heq)) _ e
    · split at e
      · cases e; dsimp only; exact frame_onSblk _ _ _ (Frame.sub hm (by decide)) hs
      · exact ih _ _ _ (frame_setOpen _ _ _ (Frame.sub hm (by decide)) (frame_onSblk _ _ _ (Frame.sub hm (by decide)) hs)) _ e

theorem frame_mapError {m0 : Nat} {s0 : State} (nlp : Nat) (w : Who) (s : State) (hm : 146432 ||| m0 = m0) (hs : Frame m0 s0 s) :
    Frame m0 s0 (mapError nlp w s) := by
  unfold mapError
  repeat' (with_reducible first | assumption | (exact Frame.sub hm (by decide)) | apply frame_onFlash | apply frame_raise | split | dsimp only | simp only [Frame.upd_iff, true_or, or_true])

theorem frame_readStored {m0 : Nat} {s0 : State} (c : Nat) (k : Nat) (nlp : Nat) (handle : Nat) (w : Who) (s : State) (hm : 15360 ||| m0 = m0) (hs : Frame m0 s0 s) :
    Frame m0 s0 (readStored c k nlp handle w s).2.2 := by
  unfold readStored
  repeat' (with_reducible first | assumption | (exact Frame.sub hm (by decide)) | apply frame_raise | split | dsimp only | simp only [Frame.upd_iff, true_or, or_true])

theorem frame_noteRead {m0 : Nat} {s0 : State} (c : Nat) (k : Nat) (level : Nat) (soft : Bool) (margin : Bool) (s : State) (hm : 131200 ||| m0 = m0) (hs : Frame m0 s0 s) :
    Frame m0 s0 (noteRead c k level soft margin s) := by
  unfold noteRead
  repeat' (with_reducible first | assumption | (exact Frame.sub hm (by decide)) | apply frame_onFlash | apply frame_touchGroup | split | dsimp only | simp only [Frame.upd_iff, true_or, or_true])

theorem frame_noteRetry {m0 : Nat} {s0 : State} (c : Nat) (k : Nat) (level : Nat) (nlp : Nat) (s : State) (hm : 15360 ||| m0 = m0) (hs : Frame m0 s0 s) :
    Frame m0 s0 (noteRetry c k level nlp s) := by
  unfold noteRetry
  repeat' (with_reducible first | assumption | (exact Frame.sub hm (by decide)) | apply frame_bump | apply frame_onDieLog | apply frame_raise | split | dsimp only | simp only [Frame.upd_iff, true_or, or_true])

theorem frame_eraseChan {m0 : Nat} {s0 : State} (v : Nat) (c : Nat) (s : State) (hm : 131200 ||| m0 = m0) (hs : Frame m0 s0 s) :
    Frame m0 s0 (eraseChan v c s) := by
  unfold eraseChan
  repeat' (with_reducible first | assumption | (exact Frame.sub hm (by decide)) | apply frame_onFlash | apply frame_touchGroup | split | dsimp only | simp only [Frame.upd_iff, true_or, or_true])

theorem frame_chanOut {m0 : Nat} {s0 : State} (c : Nat) (s : State) (hm : 15360 ||| m0 = m0) (hs : Frame m0 s0 s) :
    Frame m0 s0 (chanOut c s) := by
  unfold chanOut
  repeat' (with_reducible first | assumption | (exact Frame.sub hm (by decide)) | apply frame_dirSet | apply frame_raise | split | dsimp only | simp only [Frame.upd_iff, true_or, or_true])

theorem frame_countFail {m0 : Nat} {s0 : State} (c : Nat) (s : State) (hm : 146432 ||| m0 = m0) (hs : Frame m0 s0 s) :
    Frame m0 s0 (countFail c s) := by
  unfold countFail
  repeat' (with_reducible first | assumption | (exact Frame.sub hm (by decide)) | apply frame_chanOut | apply frame_onFlash | apply frame_whenS | (intro _) | refine Frame.ite ?_ ?_ | split | dsimp only | simp only [Frame.upd_iff, true_or, or_true])

theorem frame_retireBlock {m0 : Nat} {s0 : State} (c : Nat) (v : Nat) (s : State) (hm : 146432 ||| m0 = m0) (hs : Frame m0 s0 s) :
    Frame m0 s0 (retireBlock c v s).2 := by
  unfold retireBlock
  repeat' (with_reducible first | assumption | (exact Frame.sub hm (by decide)) | apply frame_bump | apply frame_countFail | apply frame_delta | apply frame_dirSet | apply frame_onFlash | apply frame_onSblk | apply frame_raise | split | dsimp only | simp only [Frame.upd_iff, true_or, or_true])

theorem frame_addJob {m0 : Nat} {s0 : State} (k : JobKind) (sb : Nat) (ms : List Move) (deltas : Nat) (s : State) (hm : 131200 ||| m0 = m0) (hs : Frame m0 s0 s) :
    Frame m0 s0 (addJob k sb ms deltas s) := by
  unfold addJob
  repeat' (with_reducible first | assumption | (exact Frame.sub hm (by decide)) | apply frame_foldS | apply frame_onFlash | apply frame_touchGroup | (intro _) | refine Frame.ite ?_ ?_ | split | dsimp only | simp only [Frame.upd_iff, true_or, or_true])

theorem frame_moveOne {m0 : Nat} {s0 : State} (k : JobKind) (nlp : Nat) (c : FSlot) (src : Option (Nat × Nat)) (s : State) (hm : 135296 ||| m0 = m0) (hs : Frame m0 s0 s) :
    Frame m0 s0 (moveOne k nlp c src s) := by
  unfold moveOne
  repeat' (with_reducible first | assumption | (exact Frame.sub hm (by decide)) | exact Frame.refl _ | apply frame_addJob | (show ∀ _, _ → _; apply frame_takeRow) | (intro _) | refine Frame.snd (by assumption) ?_ | refine Frame.snd3 (by assumption) ?_ | refine Frame.snd4 (by assumption) ?_ | refine Frame.some1 (by assumption) ?_ | refine Frame.some2 (by assumption) ?_ | refine Frame.some3 (by assumption) ?_ | refine Frame.fst (by assumption) ?_ | refine Frame.ite ?_ ?_ | refine Frame.ite2 ?_ ?_ | refine Frame.ite3 ?_ ?_ | split | dsimp only | simp only [Frame.upd_iff, true_or, or_true])

theorem frame_moveRow {m0 : Nat} {s0 : State} (k : JobKind) (u : Nat) (cs : List FSlot) (srcs : List (Option (Nat × Nat))) (s : State) (hm : 135296 ||| m0 = m0) (hs : Frame m0 s0 s) :
    Frame m0 s0 (moveRow k u cs srcs s) := by
  unfold moveRow
  repeat' (with_reducible first | assumption | (exact Frame.sub hm (by decide)) | exact Frame.refl _ | apply frame_addJob | (show ∀ _, _ → _; apply frame_takeRow) | (intro _) | refine Frame.snd (by assumption) ?_ | refine Frame.snd3 (by assumption) ?_ | refine Frame.snd4 (by assumption) ?_ | refine Frame.some1 (by assumption) ?_ | refine Frame.some2 (by assumption) ?_ | refine Frame.some3 (by assumption) ?_ | refine Frame.fst (by assumption) ?_ | refine Frame.ite ?_ ?_ | refine Frame.ite2 ?_ ?_ | refine Frame.ite3 ?_ ?_ | split | dsimp only | simp only [Frame.upd_iff, true_or, or_true])

theorem frame_addHeat {m0 : Nat} {s0 : State} (u : Nat) (s : State) (hm : 131072 ||| m0 = m0) (hs : Frame m0 s0 s) :
    Frame m0 s0 (addHeat u s) := by
  unfold addHeat
  repeat' (with_reducible first | assumption | (exact Frame.sub hm (by decide)) | apply frame_onFlash | split | dsimp only | simp only [Frame.upd_iff, true_or, or_true])

theorem frame_gatherUnit {m0 : Nat} {s0 : State} (u : Nat) (s : State) (hm : 135296 ||| m0 = m0) (hs : Frame m0 s0 s) :
    Frame m0 s0 (gatherUnit u s) := by
  unfold gatherUnit
  repeat' (with_reducible first | assumption | (exact Frame.sub hm (by decide)) | exact Frame.refl _ | apply frame_addHeat | apply frame_foldS | apply frame_moveOne | apply frame_moveRow | apply frame_splitUnit | apply frame_unitDelta | (intro _) | refine Frame.snd (by assumption) ?_ | refine Frame.snd3 (by assumption) ?_ | refine Frame.snd4 (by assumption) ?_ | refine Frame.some1 (by assumption) ?_ | refine Frame.some2 (by assumption) ?_ | refine Frame.some3 (by assumption) ?_ | refine Frame.fst (by assumption) ?_ | refine Frame.ite ?_ ?_ | refine Frame.ite2 ?_ ?_ | refine Frame.ite3 ?_ ?_ | split | dsimp only | simp only [Frame.upd_iff, true_or, or_true])

theorem frame_drainJournal {m0 : Nat} {s0 : State} (s : State) (hm : 135296 ||| m0 = m0) (hs : Frame m0 s0 s) :
    Frame m0 s0 (drainJournal s) := by
  unfold drainJournal
  repeat' (with_reducible first | assumption | (exact Frame.sub hm (by decide)) | exact Frame.refl _ | apply frame_addJob | (show ∀ _, _ → _; apply frame_takeRow) | (intro _) | refine Frame.snd (by assumption) ?_ | refine Frame.snd3 (by assumption) ?_ | refine Frame.snd4 (by assumption) ?_ | refine Frame.some1 (by assumption) ?_ | refine Frame.some2 (by assumption) ?_ | refine Frame.some3 (by assumption) ?_ | refine Frame.fst (by assumption) ?_ | refine Frame.ite ?_ ?_ | refine Frame.ite2 ?_ ?_ | refine Frame.ite3 ?_ ?_ | split | dsimp only | simp only [Frame.upd_iff, true_or, or_true])

theorem frame_gatherWrites {m0 : Nat} {s0 : State} (s : State) (hm : 135296 ||| m0 = m0) (hs : Frame m0 s0 s) :
    Frame m0 s0 (gatherWrites s) := by
  unfold gatherWrites
  repeat' (with_reducible first | assumption | (exact Frame.sub hm (by decide)) | apply frame_drainJournal | apply frame_foldS | apply frame_gatherUnit | (intro _) | refine Frame.ite ?_ ?_ | split | dsimp only | simp only [Frame.upd_iff, true_or, or_true])

theorem frame_storeMoves {m0 : Nat} {s0 : State} (ms : List Move) (s : State) (hm : 131072 ||| m0 = m0) (hs : Frame m0 s0 s) :
    Frame m0 s0 (storeMoves ms s) := by
  unfold storeMoves
  repeat' (with_reducible first | assumption | (exact Frame.sub hm (by decide)) | apply frame_onFlash | split | dsimp only | simp only [Frame.upd_iff, true_or, or_true])

theorem frame_unbuffer {m0 : Nat} {s0 : State} (ms : List Move) (s : State) (hm : 131072 ||| m0 = m0) (hs : Frame m0 s0 s) :
    Frame m0 s0 (unbuffer ms s) := by
  unfold unbuffer
  repeat' (with_reducible first | assumption | (exact Frame.sub hm (by decide)) | apply frame_onFlash | split | dsimp only | simp only [Frame.upd_iff, true_or, or_true])

theorem frame_mapHost {m0 : Nat} {s0 : State} (ms : List Move) (s : State) (hm : 131072 ||| m0 = m0) (hs : Frame m0 s0 s) :
    Frame m0 s0 (mapHost ms s) := by
  unfold mapHost
  repeat' (with_reducible first | assumption | (exact Frame.sub hm (by decide)) | apply frame_foldS | apply frame_setCoarse | apply frame_setFine | apply frame_unitDelta | (intro _) | refine Frame.ite ?_ ?_ | split | dsimp only | simp only [Frame.upd_iff, true_or, or_true])

theorem frame_journalDone {m0 : Nat} {s0 : State} (n : Nat) (s : State) (hm : 131072 ||| m0 = m0) (hs : Frame m0 s0 s) :
    Frame m0 s0 (journalDone n s) := by
  unfold journalDone
  repeat' (with_reducible first | assumption | (exact Frame.sub hm (by decide)) | apply frame_onFlash | split | dsimp only | simp only [Frame.upd_iff, true_or, or_true])

theorem frame_startCheckpoint {m0 : Nat} {s0 : State} (s : State) (hm : 131072 ||| m0 = m0) (hs : Frame m0 s0 s) :
    Frame m0 s0 (startCheckpoint s) := by
  unfold startCheckpoint
  repeat' (with_reducible first | assumption | (exact Frame.sub hm (by decide)) | apply frame_onFlash | split | dsimp only | simp only [Frame.upd_iff, true_or, or_true])

theorem frame_copyUnit {m0 : Nat} {s0 : State} (k : JobKind) (ps : List (Nat × Nat × Nat)) (u : Nat) (s : State) (hm : 135296 ||| m0 = m0) (hs : Frame m0 s0 s) :
    Frame m0 s0 (copyUnit k ps u s) := by
  unfold copyUnit
  repeat' (with_reducible first | assumption | (exact Frame.sub hm (by decide)) | apply frame_foldS | apply frame_moveOne | apply frame_moveRow | (intro _) | refine Frame.ite ?_ ?_ | split | dsimp only | simp only [Frame.upd_iff, true_or, or_true])

theorem frame_copyBlock {m0 : Nat} {s0 : State} (k : JobKind) (v : Nat) (s : State) (hm : 135296 ||| m0 = m0) (hs : Frame m0 s0 s) :
    Frame m0 s0 (copyBlock k v s) := by
  unfold copyBlock
  repeat' (with_reducible first | assumption | (exact Frame.sub hm (by decide)) | apply frame_bumpBy | apply frame_copyUnit | apply frame_foldS | (intro _) | refine Frame.ite ?_ ?_ | split | dsimp only | simp only [Frame.upd_iff, true_or, or_true])

theorem frame_startFold {m0 : Nat} {s0 : State} (s : State) (hm : 135296 ||| m0 = m0) (hs : Frame m0 s0 s) :
    Frame m0 s0 (startFold s) := by
  unfold startFold
  repeat' (with_reducible first | assumption | (exact Frame.sub hm (by decide)) | apply frame_copyBlock | split | dsimp only | simp only [Frame.upd_iff, true_or, or_true])

theorem frame_startGc {m0 : Nat} {s0 : State} (s : State) (hm : 135296 ||| m0 = m0) (hs : Frame m0 s0 s) :
    Frame m0 s0 (startGc s) := by
  unfold startGc
  repeat' (with_reducible first | assumption | (exact Frame.sub hm (by decide)) | apply frame_copyBlock | split | dsimp only | simp only [Frame.upd_iff, true_or, or_true])

theorem frame_startRefresh {m0 : Nat} {s0 : State} (s : State) (hm : 135296 ||| m0 = m0) (hs : Frame m0 s0 s) :
    Frame m0 s0 (startRefresh s) := by
  unfold startRefresh
  repeat' (with_reducible first | assumption | (exact Frame.sub hm (by decide)) | apply frame_copyBlock | apply frame_onFlash | split | dsimp only | simp only [Frame.upd_iff, true_or, or_true])

theorem frame_startWear {m0 : Nat} {s0 : State} (s : State) (hm : 135296 ||| m0 = m0) (hs : Frame m0 s0 s) :
    Frame m0 s0 (startWear s) := by
  unfold startWear
  repeat' (with_reducible first | assumption | (exact Frame.sub hm (by decide)) | apply frame_copyBlock | split | dsimp only | simp only [Frame.upd_iff, true_or, or_true])

theorem frame_switchOne {m0 : Nat} {s0 : State} (m : Move) (s : State) (hm : 135168 ||| m0 = m0) (hs : Frame m0 s0 s) :
    Frame m0 s0 (switchOne m s) := by
  unfold switchOne
  repeat' (with_reducible first | assumption | (exact Frame.sub hm (by decide)) | exact Frame.refl _ | apply frame_setFine | apply frame_splitUnit | (intro _) | refine Frame.snd (by assumption) ?_ | refine Frame.snd3 (by assumption) ?_ | refine Frame.snd4 (by assumption) ?_ | refine Frame.some1 (by assumption) ?_ | refine Frame.some2 (by assumption) ?_ | refine Frame.some3 (by assumption) ?_ | refine Frame.fst (by assumption) ?_ | refine Frame.ite ?_ ?_ | refine Frame.ite2 ?_ ?_ | refine Frame.ite3 ?_ ?_ | split | dsimp only | simp only [Frame.upd_iff, true_or, or_true])

theorem frame_switchJob {m0 : Nat} {s0 : State} (j : Job) (s : State) (hm : 135168 ||| m0 = m0) (hs : Frame m0 s0 s) :
    Frame m0 s0 (switchJob j s) := by
  unfold switchJob
  repeat' (with_reducible first | assumption | (exact Frame.sub hm (by decide)) | apply frame_foldS | apply frame_mergeUnit | apply frame_setCoarse | apply frame_switchOne | apply frame_unitDelta | (intro _) | refine Frame.ite ?_ ?_ | split | dsimp only | simp only [Frame.upd_iff, true_or, or_true])

theorem frame_switchCopies {m0 : Nat} {s0 : State} (s : State) (hm : 135168 ||| m0 = m0) (hs : Frame m0 s0 s) :
    Frame m0 s0 (switchCopies s) := by
  unfold switchCopies
  repeat' (with_reducible first | assumption | (exact Frame.sub hm (by decide)) | apply frame_foldS | apply frame_onFlash | apply frame_switchJob | (intro _) | refine Frame.ite ?_ ?_ | split | dsimp only | simp only [Frame.upd_iff, true_or, or_true])

theorem frame_reloadRecords {m0 : Nat} {s0 : State} (s : State) (hm : 131072 ||| m0 = m0) (hs : Frame m0 s0 s) :
    Frame m0 s0 (reloadRecords s) := by
  unfold reloadRecords
  repeat' (with_reducible first | assumption | (exact Frame.sub hm (by decide)) | apply frame_onFlash | split | dsimp only | simp only [Frame.upd_iff, true_or, or_true])

theorem frame_loadAreas {m0 : Nat} {s0 : State} (s : State) (hm : 131072 ||| m0 = m0) (hs : Frame m0 s0 s) :
    Frame m0 s0 (loadAreas s) := by
  unfold loadAreas
  repeat' (with_reducible first | assumption | (exact Frame.sub hm (by decide)) | apply frame_onFlash | split | dsimp only | simp only [Frame.upd_iff, true_or, or_true])

theorem frame_showReserve {m0 : Nat} {s0 : State} (s : State) (hm : 4096 ||| m0 = m0) (hs : Frame m0 s0 s) :
    Frame m0 s0 (showReserve s) := by
  unfold showReserve
  repeat' (with_reducible first | assumption | (exact Frame.sub hm (by decide)) | apply frame_dirSet | split | dsimp only | simp only [Frame.upd_iff, true_or, or_true])

theorem frame_discardUnit {m0 : Nat} {s0 : State} (lo : Nat) (n : Nat) (u : Nat) (s : State) (hm : 135296 ||| m0 = m0) (hs : Frame m0 s0 s) :
    Frame m0 s0 (discardUnit lo n u s) := by
  unfold discardUnit
  repeat' (with_reducible first | assumption | (exact Frame.sub hm (by decide)) | exact Frame.refl _ | apply frame_foldS | apply frame_moveRow | apply frame_onFlash | apply frame_setCoarse | apply frame_setFine | apply frame_splitUnit | (intro _) | refine Frame.snd (by assumption) ?_ | refine Frame.snd3 (by assumption) ?_ | refine Frame.snd4 (by assumption) ?_ | refine Frame.some1 (by assumption) ?_ | refine Frame.some2 (by assumption) ?_ | refine Frame.some3 (by assumption) ?_ | refine Frame.fst (by assumption) ?_ | refine Frame.ite ?_ ?_ | refine Frame.ite2 ?_ ?_ | refine Frame.ite3 ?_ ?_ | split | dsimp only | simp only [Frame.upd_iff, true_or, or_true])

theorem frame_discard {m0 : Nat} {s0 : State} (lo : Nat) (n : Nat) (s : State) (hm : 135296 ||| m0 = m0) (hs : Frame m0 s0 s) :
    Frame m0 s0 (discard lo n s) := by
  unfold discard
  repeat' (with_reducible first | assumption | (exact Frame.sub hm (by decide)) | apply frame_discardUnit | apply frame_foldS | apply frame_unitDelta | (intro _) | refine Frame.ite ?_ ?_ | split | dsimp only | simp only [Frame.upd_iff, true_or, or_true])

theorem frame_bufferWrite {m0 : Nat} {s0 : State} (nlp : Nat) (handle : Nat) (tenant : Nat) (data : Bytes) (s : State) (hm : 131072 ||| m0 = m0) (hs : Frame m0 s0 s) :
    Frame m0 s0 (bufferWrite nlp handle tenant data s) := by
  unfold bufferWrite
  repeat' (with_reducible first | assumption | (exact Frame.sub hm (by decide)) | apply frame_delta | apply frame_onFlash | split | dsimp only | simp only [Frame.upd_iff, true_or, or_true])

end Sys2Proof.Machine
end

