-- ==== Sys2Proof/Laws/FrameParOps.lean ====
section
/-! SUPPORT. FrameParOps: each operation of Machine/ParOps.lean changes only the fields of `State`
that its mask names (`Frame`). -/
namespace Sys2Proof.Machine
set_option Elab.async false
set_option linter.all false

theorem frame_onParcel {m0 : Nat} {s0 : State} (pid : Nat) (f : Parcel → Parcel) (s : State) (hm : 64 ||| m0 = m0) (hs : Frame m0 s0 s) :
    Frame m0 s0 (onParcel pid f s) := by
  have b6 := Frame.bit hm (k := 6) (by decide)
  unfold onParcel
  repeat' (with_reducible first | assumption | (exact Frame.sub hm (by decide)) | split | dsimp only | simp only [Frame.upd_iff, b6, true_or, or_true])

theorem frame_dropParcel {m0 : Nat} {s0 : State} (pid : Nat) (s : State) (hm : 64 ||| m0 = m0) (hs : Frame m0 s0 s) :
    Frame m0 s0 (dropParcel pid s) := by
  have b6 := Frame.bit hm (k := 6) (by decide)
  unfold dropParcel
  repeat' (with_reducible first | assumption | (exact Frame.sub hm (by decide)) | split | dsimp only | simp only [Frame.upd_iff, b6, true_or, or_true])

theorem frame_giveBytes {m0 : Nat} {s0 : State} (pid : Nat) (b : Bytes) (s : State) (hm : 64 ||| m0 = m0) (hs : Frame m0 s0 s) :
    Frame m0 s0 (giveBytes pid b s) := by
  unfold giveBytes
  repeat' (with_reducible first | assumption | (exact Frame.sub hm (by decide)) | apply frame_onParcel | split | dsimp only | simp only [Frame.upd_iff, true_or, or_true])

theorem frame_issueParcel {m0 : Nat} {s0 : State} (owner : POwner) (src : Place) (dst : Place) (limit : Nat) (tenant : Nat) (s : State) (hm : 20544 ||| m0 = m0) (hs : Frame m0 s0 s) :
    Frame m0 s0 (issueParcel owner src dst limit tenant s) := by
  have b6 := Frame.bit hm (k := 6) (by decide)
  unfold issueParcel
  repeat' (with_reducible first | assumption | (exact Frame.sub hm (by decide)) | apply frame_beSend | split | dsimp only | simp only [Frame.upd_iff, b6, true_or, or_true])

theorem frame_failStream {m0 : Nat} {s0 : State} (k : Nat) (status : Nat) (s : State) (hm : 6648 ||| m0 = m0) (hs : Frame m0 s0 s) :
    Frame m0 s0 (failStream k status s) := by
  have b4 := Frame.bit hm (k := 4) (by decide)
  unfold failStream
  repeat' (with_reducible first | assumption | (exact Frame.sub hm (by decide)) | apply frame_failReq | apply frame_killParcels | apply frame_onStream | split | dsimp only | simp only [Frame.upd_iff, b4, true_or, or_true])

theorem frame_pathDone {m0 : Nat} {s0 : State} (owner : Nat) (pid : Nat) (status : Nat) (b : Bytes) (s : State) (hm : 64 ||| m0 = m0) (hs : Frame m0 s0 s) :
    Frame m0 s0 (pathDone owner pid status b s) := by
  have b6 := Frame.bit hm (k := 6) (by decide)
  unfold pathDone
  repeat' (with_reducible first | assumption | (exact Frame.sub hm (by decide)) | split | dsimp only | simp only [Frame.upd_iff, b6, true_or, or_true])

theorem frame_failParcel {m0 : Nat} {s0 : State} (pid : Nat) (status : Nat) (s : State) (hm : 6648 ||| m0 = m0) (hs : Frame m0 s0 s) :
    Frame m0 s0 (failParcel pid status s) := by
  unfold failParcel
  repeat' (with_reducible first | assumption | (exact Frame.sub hm (by decide)) | apply frame_completeDesc | apply frame_dropParcel | apply frame_failReq | apply frame_failStream | apply frame_pathDone | split | dsimp only | simp only [Frame.upd_iff, true_or, or_true])

theorem frame_badDesc {m0 : Nat} {s0 : State} (n : Nat) (d : PDesc) (s : State) (hm : 6648 ||| m0 = m0) (hs : Frame m0 s0 s) :
    Frame m0 s0 (badDesc n d s) := by
  unfold badDesc
  repeat' (with_reducible first | assumption | (exact Frame.sub hm (by decide)) | apply frame_completeDesc | apply frame_failReq | split | dsimp only | simp only [Frame.upd_iff, true_or, or_true])

theorem frame_issueDesc {m0 : Nat} {s0 : State} (x0 : Nat) (x1 : Nat) (x2 : Nat) (x3 : State) (hm : 23032 ||| m0 = m0) (hx3 : Frame m0 s0 x3) :
    Frame m0 s0 (issueDesc x0 x1 x2 x3) := by
  induction x0 generalizing x1 x2 x3 with
  | zero =>
    unfold issueDesc
    all_goals try dsimp only
    repeat' (with_reducible first | assumption | (exact Frame.sub hm (by decide)) | exact Frame.refl _ | apply frame_badDesc | apply frame_issueParcel | apply frame_onQueue | (intro _) | refine Frame.snd (by assumption) ?_ | refine Frame.snd3 (by assumption) ?_ | refine Frame.snd4 (by assumption) ?_ | refine Frame.some1 (by assumption) ?_ | refine Frame.some2 (by assumption) ?_ | refine Frame.some3 (by assumption) ?_ | refine Frame.fst (by assumption) ?_ | refine Frame.ite ?_ ?_ | refine Frame.ite2 ?_ ?_ | refine Frame.ite3 ?_ ?_ | split | dsimp only | simp only [Frame.upd_iff, true_or, or_true])
  | succ n ih =>
    unfold issueDesc
    all_goals try dsimp only
    repeat' (with_reducible first | assumption | (exact Frame.sub hm (by decide)) | exact Frame.refl _ | apply frame_badDesc | apply frame_issueParcel | apply frame_onQueue | with_reducible apply ih | (intro _) | refine Frame.snd (by assumption) ?_ | refine Frame.snd3 (by assumption) ?_ | refine Frame.snd4 (by assumption) ?_ | refine Frame.some1 (by assumption) ?_ | refine Frame.some2 (by assumption) ?_ | refine Frame.some3 (by assumption) ?_ | refine Frame.fst (by assumption) ?_ | refine Frame.ite ?_ ?_ | refine Frame.ite2 ?_ ?_ | refine Frame.ite3 ?_ ?_ | split | dsimp only | simp only [Frame.upd_iff, true_or, or_true])

theorem frame_issueStream {m0 : Nat} {s0 : State} (x0 : Nat) (x1 : Nat) (x2 : State) (hm : 23032 ||| m0 = m0) (hx2 : Frame m0 s0 x2) :
    Frame m0 s0 (issueStream x0 x1 x2) := by
  induction x0 generalizing x1 x2 with
  | zero =>
    unfold issueStream
    all_goals try dsimp only
    repeat' (with_reducible first | assumption | (exact Frame.sub hm (by decide)) | exact Frame.refl _ | apply frame_failStream | apply frame_issueParcel | apply frame_onStream | (intro _) | refine Frame.snd (by assumption) ?_ | refine Frame.snd3 (by assumption) ?_ | refine Frame.snd4 (by assumption) ?_ | refine Frame.some1 (by assumption) ?_ | refine Frame.some2 (by assumption) ?_ | refine Frame.some3 (by assumption) ?_ | refine Frame.fst (by assumption) ?_ | refine Frame.ite ?_ ?_ | refine Frame.ite2 ?_ ?_ | refine Frame.ite3 ?_ ?_ | split | dsimp only | simp only [Frame.upd_iff, true_or, or_true])
  | succ n ih =>
    unfold issueStream
    all_goals try dsimp only
    repeat' (with_reducible first | assumption | (exact Frame.sub hm (by decide)) | exact Frame.refl _ | apply frame_failStream | apply frame_issueParcel | apply frame_onStream | with_reducible apply ih | (intro _) | refine Frame.snd (by assumption) ?_ | refine Frame.snd3 (by assumption) ?_ | refine Frame.snd4 (by assumption) ?_ | refine Frame.some1 (by assumption) ?_ | refine Frame.some2 (by assumption) ?_ | refine Frame.some3 (by assumption) ?_ | refine Frame.fst (by assumption) ?_ | refine Frame.ite ?_ ?_ | refine Frame.ite2 ?_ ?_ | refine Frame.ite3 ?_ ?_ | split | dsimp only | simp only [Frame.upd_iff, true_or, or_true])

theorem frame_issueAll {m0 : Nat} {s0 : State} (s : State) (hm : 23032 ||| m0 = m0) (hs : Frame m0 s0 s) :
    Frame m0 s0 (issueAll s) := by
  unfold issueAll
  repeat' (with_reducible first | assumption | (exact Frame.sub hm (by decide)) | apply frame_foldS | apply frame_issueDesc | apply frame_issueStream | (intro _) | refine Frame.ite ?_ ?_ | split | dsimp only | simp only [Frame.upd_iff, true_or, or_true])

theorem frame_fillLines {m0 : Nat} {s0 : State} (cl : Nat) (a : Nat) (data : Bytes) (s : State) (hm : 1064072 ||| m0 = m0) (hs : Frame m0 s0 s) :
    Frame m0 s0 (fillLines cl a data s) := by
  have b3 := Frame.bit hm (k := 3) (by decide)
  unfold fillLines
  repeat' (with_reducible first | assumption | (exact Frame.sub hm (by decide)) | apply frame_foldS | apply frame_makeRoom | (intro _) | refine Frame.ite ?_ ?_ | split | dsimp only | simp only [Frame.upd_iff, b3, true_or, or_true])

theorem frame_wakeStream {m0 : Nat} {s0 : State} (k : Nat) (s : State) (hm : 144 ||| m0 = m0) (hs : Frame m0 s0 s) :
    Frame m0 s0 (wakeStream k s) := by
  have b4 := Frame.bit hm (k := 4) (by decide)
  unfold wakeStream
  repeat' (with_reducible first | assumption | (exact Frame.sub hm (by decide)) | apply frame_ungate | split | dsimp only | simp only [Frame.upd_iff, b4, true_or, or_true])

theorem frame_drainStream {m0 : Nat} {s0 : State} (x0 : Nat) (x1 : Nat) (x2 : State) (hm : 1064088 ||| m0 = m0) (hx2 : Frame m0 s0 x2) :
    Frame m0 s0 (drainStream x0 x1 x2) := by
  induction x0 generalizing x1 x2 with
  | zero =>
    unfold drainStream
    all_goals try dsimp only
    repeat' (with_reducible first | assumption | (exact Frame.sub hm (by decide)) | exact Frame.refl _ | apply frame_demandWrite | apply frame_fillLines | apply frame_onStream | (intro _) | refine Frame.snd (by assumption) ?_ | refine Frame.snd3 (by assumption) ?_ | refine Frame.snd4 (by assumption) ?_ | refine Frame.some1 (by assumption) ?_ | refine Frame.some2 (by assumption) ?_ | refine Frame.some3 (by assumption) ?_ | refine Frame.fst (by assumption) ?_ | refine Frame.ite ?_ ?_ | refine Frame.ite2 ?_ ?_ | refine Frame.ite3 ?_ ?_ | split | dsimp only | simp only [Frame.upd_iff, true_or, or_true])
  | succ n ih =>
    unfold drainStream
    all_goals try dsimp only
    repeat' (with_reducible first | assumption | (exact Frame.sub hm (by decide)) | exact Frame.refl _ | apply frame_demandWrite | apply frame_fillLines | apply frame_onStream | with_reducible apply ih | (intro _) | refine Frame.snd (by assumption) ?_ | refine Frame.snd3 (by assumption) ?_ | refine Frame.snd4 (by assumption) ?_ | refine Frame.some1 (by assumption) ?_ | refine Frame.some2 (by assumption) ?_ | refine Frame.some3 (by assumption) ?_ | refine Frame.fst (by assumption) ?_ | refine Frame.ite ?_ ?_ | refine Frame.ite2 ?_ ?_ | refine Frame.ite3 ?_ ?_ | split | dsimp only | simp only [Frame.upd_iff, true_or, or_true])

theorem frame_countParcel {m0 : Nat} {s0 : State} (p : Parcel) (s : State) (hm : 4096 ||| m0 = m0) (hs : Frame m0 s0 s) :
    Frame m0 s0 (countParcel p s) := by
  unfold countParcel
  repeat' (with_reducible first | assumption | (exact Frame.sub hm (by decide)) | apply frame_bump | apply frame_whenS | (intro _) | refine Frame.ite ?_ ?_ | split | dsimp only | simp only [Frame.upd_iff, true_or, or_true])

theorem frame_finishDesc {m0 : Nat} {s0 : State} (n : Nat) (a : Nat) (s : State) (hm : 4328 ||| m0 = m0) (hs : Frame m0 s0 s) :
    Frame m0 s0 (finishDesc n a s) := by
  unfold finishDesc
  repeat' (with_reducible first | assumption | (exact Frame.sub hm (by decide)) | apply frame_completeDesc | apply frame_onQueue | split | dsimp only | simp only [Frame.upd_iff, true_or, or_true])

theorem frame_parcelDone {m0 : Nat} {s0 : State} (p : Parcel) (b : Bytes) (s : State) (hm : 4328 ||| m0 = m0) (hs : Frame m0 s0 s) :
    Frame m0 s0 (parcelDone p b s) := by
  unfold parcelDone
  repeat' (with_reducible first | assumption | (exact Frame.sub hm (by decide)) | apply frame_countParcel | apply frame_dropParcel | apply frame_finishDesc | apply frame_pathDone | split | dsimp only | simp only [Frame.upd_iff, true_or, or_true])

theorem frame_sourceBytes {m0 : Nat} {s0 : State} (p : Parcel) (s : State) (hm : 146568 ||| m0 = m0) (hs : Frame m0 s0 s) :
    ∀ r, (sourceBytes p s) = some r → Frame m0 s0 r.2.2 := by
  intro r e
  unfold sourceBytes at e
  try dsimp only at e
  repeat' (split at e)
  all_goals first | contradiction | (injection e with e; subst e) | skip
  repeat' (with_reducible first | assumption | (exact Frame.sub hm (by decide)) | apply frame_demandRead | apply frame_mapError | split | dsimp only | simp only [Frame.upd_iff, true_or, or_true])

theorem frame_placeBytes {m0 : Nat} {s0 : State} (p : Parcel) (b : Bytes) (s : State) (hm : 1080536 ||| m0 = m0) (hs : Frame m0 s0 s) :
    ∀ r, (placeBytes p b s) = some r → Frame m0 s0 r.2 := by
  intro r e
  unfold placeBytes at e
  try dsimp only at e
  repeat' (split at e)
  all_goals first | contradiction | (injection e with e; subst e) | skip
  repeat' (with_reducible first | assumption | (exact Frame.sub hm (by decide)) | apply frame_beSend | apply frame_demandWrite | apply frame_drainStream | apply frame_onParcel | apply frame_onStream | split | dsimp only | simp only [Frame.upd_iff, true_or, or_true])

theorem frame_deliverParcel {m0 : Nat} {s0 : State} (pid : Nat) (s : State) (hm : 1211896 ||| m0 = m0) (hs : Frame m0 s0 s) :
    Frame m0 s0 (deliverParcel pid s) := by
  unfold deliverParcel
  repeat' (with_reducible first | assumption | (exact Frame.sub hm (by decide)) | exact Frame.refl _ | apply frame_bump | apply frame_dropParcel | apply frame_failParcel | apply frame_issueAll | apply frame_parcelDone | (show ∀ _, _ → _; apply frame_placeBytes) | (show ∀ _, _ → _; apply frame_sourceBytes) | apply frame_wakeStream | (intro _) | refine Frame.snd (by assumption) ?_ | refine Frame.snd3 (by assumption) ?_ | refine Frame.snd4 (by assumption) ?_ | refine Frame.some1 (by assumption) ?_ | refine Frame.some2 (by assumption) ?_ | refine Frame.some3 (by assumption) ?_ | refine Frame.fst (by assumption) ?_ | refine Frame.ite ?_ ?_ | refine Frame.ite2 ?_ ?_ | refine Frame.ite3 ?_ ?_ | split | dsimp only | simp only [Frame.upd_iff, true_or, or_true])

theorem frame_psubmitReg {m0 : Nat} {s0 : State} (rid : Nat) (n : Nat) (v : Nat) (s : State) (hm : 23032 ||| m0 = m0) (hs : Frame m0 s0 s) :
    Frame m0 s0 (psubmitReg rid n v s) := by
  have b6 := Frame.bit hm (k := 6) (by decide)
  unfold psubmitReg
  repeat' (with_reducible first | assumption | (exact Frame.sub hm (by decide)) | apply frame_issueAll | apply frame_onQueue | split | dsimp only | simp only [Frame.upd_iff, b6, true_or, or_true])

end Sys2Proof.Machine
end

