-- ==== Sys2Proof/Laws/FrameCompOps.lean ====
section
/-! SUPPORT. FrameCompOps: each operation of Machine/CompOps.lean changes only the fields of `State`
that its mask names (`Frame`). -/
namespace Sys2Proof.Machine
set_option Elab.async false
set_option linter.all false

theorem frame_disagree {m0 : Nat} {s0 : State} (obj : Nat) (tenant : Option Nat) (s : State) (hm : 15360 ||| m0 = m0) (hs : Frame m0 s0 s) :
    Frame m0 s0 (disagree obj tenant s) := by
  unfold disagree
  repeat' (with_reducible first | assumption | (exact Frame.sub hm (by decide)) | apply frame_bump | apply frame_dirSet | apply frame_record | split | dsimp only | simp only [Frame.upd_iff, true_or, or_true])

theorem frame_disputeCorpus {m0 : Nat} {s0 : State} (t : Nat) (c : Nat) (s : State) (hm : 48128 ||| m0 = m0) (hs : Frame m0 s0 s) :
    Frame m0 s0 (disputeCorpus t c s) := by
  have b15 := Frame.bit hm (k := 15) (by decide)
  unfold disputeCorpus
  repeat' (with_reducible first | assumption | (exact Frame.sub hm (by decide)) | apply frame_disagree | split | dsimp only | simp only [Frame.upd_iff, b15, true_or, or_true])

theorem frame_disputeCtx {m0 : Nat} {s0 : State} (h : Nat) (t : Nat) (s : State) (hm : 48128 ||| m0 = m0) (hs : Frame m0 s0 s) :
    Frame m0 s0 (disputeCtx h t s) := by
  have b15 := Frame.bit hm (k := 15) (by decide)
  unfold disputeCtx
  repeat' (with_reducible first | assumption | (exact Frame.sub hm (by decide)) | apply frame_disagree | split | dsimp only | simp only [Frame.upd_iff, b15, true_or, or_true])

theorem frame_disputeWindow {m0 : Nat} {s0 : State} (i : Nat) (s : State) (hm : 48128 ||| m0 = m0) (hs : Frame m0 s0 s) :
    Frame m0 s0 (disputeWindow i s) := by
  have b15 := Frame.bit hm (k := 15) (by decide)
  unfold disputeWindow
  repeat' (with_reducible first | assumption | (exact Frame.sub hm (by decide)) | apply frame_disagree | split | dsimp only | simp only [Frame.upd_iff, b15, true_or, or_true])

theorem frame_placeT1 {m0 : Nat} {s0 : State} (len : Nat) (al : Nat) (tenant : Nat) (kind : Nat) (num : Nat) (s : State) (hm : 1081344 ||| m0 = m0) (hs : Frame m0 s0 s) :
    ∀ r, (placeT1 len al tenant kind num s) = some r → Frame m0 s0 r.2 := by
  have b15 := Frame.bit hm (k := 15) (by decide)
  intro r e
  unfold placeT1 at e
  try dsimp only at e
  repeat' (split at e)
  all_goals first | contradiction | (injection e with e; subst e) | skip
  repeat' (with_reducible first | assumption | (exact Frame.sub hm (by decide)) | apply frame_draw | split | dsimp only | simp only [Frame.upd_iff, b15, true_or, or_true])

theorem frame_unplace {m0 : Nat} {s0 : State} (kind : Nat) (num : Nat) (s : State) (hm : 32768 ||| m0 = m0) (hs : Frame m0 s0 s) :
    Frame m0 s0 (unplace kind num s) := by
  have b15 := Frame.bit hm (k := 15) (by decide)
  unfold unplace
  repeat' (with_reducible first | assumption | (exact Frame.sub hm (by decide)) | split | dsimp only | simp only [Frame.upd_iff, b15, true_or, or_true])

end Sys2Proof.Machine
end

