-- ==== Sys2Proof/Laws/FrameEorus.lean ====
section
/-! SUPPORT. FrameEorus: each operation of Machine/Eorus.lean changes only the fields of `State`
that its mask names (`Frame`). -/
namespace Sys2Proof.Machine
set_option Elab.async false
set_option linter.all false

theorem frame_execEdot {m0 : Nat} {s0 : State} (th : Nat) (w : W32) (s : State) (hm : 6648 ||| m0 = m0) (hs : Frame m0 s0 s) :
    ∀ z, (execEdot th w s) = .next z → Frame m0 s0 z := by
  intro z e
  unfold execEdot at e
  try dsimp only at e
  first | (split at e <;> first | (injection e with e; subst e)) | (injection e with e; subst e) | skip
  repeat' (with_reducible first | assumption | (exact Frame.sub hm (by decide)) | apply frame_illegal | apply frame_onRegs | apply frame_onThread | (intro _) | refine Frame.ite ?_ ?_ | split | dsimp only | simp only [Frame.upd_iff, true_or, or_true])

theorem frame_execEdotf {m0 : Nat} {s0 : State} (th : Nat) (w : W32) (s : State) (hm : 6648 ||| m0 = m0) (hs : Frame m0 s0 s) :
    ∀ z, (execEdotf th w s) = .next z → Frame m0 s0 z := by
  intro z e
  unfold execEdotf at e
  try dsimp only at e
  first | (split at e <;> first | (injection e with e; subst e)) | (injection e with e; subst e) | skip
  repeat' (with_reducible first | assumption | (exact Frame.sub hm (by decide)) | apply frame_illegal | apply frame_onRegs | apply frame_onThread | (intro _) | refine Frame.ite ?_ ?_ | split | dsimp only | simp only [Frame.upd_iff, true_or, or_true])

theorem frame_execErescale {m0 : Nat} {s0 : State} (th : Nat) (w : W32) (s : State) (hm : 6648 ||| m0 = m0) (hs : Frame m0 s0 s) :
    ∀ z, (execErescale th w s) = .next z → Frame m0 s0 z := by
  intro z e
  unfold execErescale at e
  try dsimp only at e
  first | (split at e <;> first | (injection e with e; subst e)) | (injection e with e; subst e) | skip
  repeat' (with_reducible first | assumption | (exact Frame.sub hm (by decide)) | apply frame_illegal | apply frame_onRegs | apply frame_onThread | (intro _) | refine Frame.ite ?_ ?_ | split | dsimp only | simp only [Frame.upd_iff, true_or, or_true])

end Sys2Proof.Machine
end

