-- ==== Sys2Proof/Laws/FrameShortlist.lean ====
section
/-! SUPPORT. FrameShortlist: each operation of Machine/Shortlist.lean changes only the fields of `State`
that its mask names (`Frame`). -/
namespace Sys2Proof.Machine
set_option Elab.async false
set_option linter.all false

theorem frame_countFlags {m0 : Nat} {s0 : State} (fl : Nat) (s : State) (hm : 4096 ||| m0 = m0) (hs : Frame m0 s0 s) :
    Frame m0 s0 (countFlags fl s) := by
  unfold countFlags
  repeat' (with_reducible first | assumption | (exact Frame.sub hm (by decide)) | apply frame_bump | apply frame_whenS | (intro _) | refine Frame.ite ?_ ?_ | split | dsimp only | simp only [Frame.upd_iff, true_or, or_true])

theorem frame_runOffers {m0 : Nat} {s0 : State} (th : Nat) (w : W32) (es : List Ent) (s : State) (hm : 4112 ||| m0 = m0) (hs : Frame m0 s0 s) :
    Frame m0 s0 (runOffers th w es s) := by
  unfold runOffers
  repeat' (with_reducible first | assumption | (exact Frame.sub hm (by decide)) | apply frame_countFlags | apply frame_foldS | apply frame_onThread | (intro _) | refine Frame.ite ?_ ?_ | split | dsimp only | simp only [Frame.upd_iff, true_or, or_true])

theorem frame_execInsert {m0 : Nat} {s0 : State} (th : Nat) (w : W32) (s : State) (hm : 6648 ||| m0 = m0) (hs : Frame m0 s0 s) :
    ∀ z, (execInsert th w s) = .next z → Frame m0 s0 z := by
  intro z e
  unfold execInsert at e
  try dsimp only at e
  first | (split at e <;> first | (injection e with e; subst e)) | (injection e with e; subst e) | skip
  repeat' (with_reducible first | assumption | (exact Frame.sub hm (by decide)) | apply frame_illegal | apply frame_onRegs | apply frame_runOffers | (intro _) | refine Frame.ite ?_ ?_ | split | dsimp only | simp only [Frame.upd_iff, true_or, or_true])

theorem frame_execInsertv {m0 : Nat} {s0 : State} (th : Nat) (w : W32) (s : State) (hm : 6648 ||| m0 = m0) (hs : Frame m0 s0 s) :
    ∀ z, (execInsertv th w s) = .next z → Frame m0 s0 z := by
  intro z e
  unfold execInsertv at e
  try dsimp only at e
  first | (split at e <;> first | (injection e with e; subst e)) | (injection e with e; subst e) | skip
  repeat' (with_reducible first | assumption | (exact Frame.sub hm (by decide)) | apply frame_illegal | apply frame_onRegs | apply frame_runOffers | (intro _) | refine Frame.ite ?_ ?_ | split | dsimp only | simp only [Frame.upd_iff, true_or, or_true])

theorem frame_execEslReset {m0 : Nat} {s0 : State} (th : Nat) (w : W32) (s : State) (hm : 6648 ||| m0 = m0) (hs : Frame m0 s0 s) :
    ∀ z, (execEslReset th w s) = .next z → Frame m0 s0 z := by
  intro z e
  unfold execEslReset at e
  try dsimp only at e
  first | (split at e <;> first | (injection e with e; subst e)) | (injection e with e; subst e) | skip
  repeat' (with_reducible first | assumption | (exact Frame.sub hm (by decide)) | apply frame_illegal | apply frame_onRegs | apply frame_onThread | (intro _) | refine Frame.ite ?_ ?_ | split | dsimp only | simp only [Frame.upd_iff, true_or, or_true])

theorem frame_storeOwn {m0 : Nat} {s0 : State} (th : Nat) (a : Nat) (b : Bytes) (s : State) (hm : 15496 ||| m0 = m0) (hs : Frame m0 s0 s) :
    Frame m0 s0 (storeOwn th a b s).2 := by
  unfold storeOwn
  repeat' (with_reducible first | assumption | (exact Frame.sub hm (by decide)) | apply frame_demandWrite | split | dsimp only | simp only [Frame.upd_iff, true_or, or_true])

theorem frame_execDrain {m0 : Nat} {s0 : State} (th : Nat) (w : W32) (s : State) (hm : 15864 ||| m0 = m0) (hs : Frame m0 s0 s) :
    ∀ z, (execDrain th w s) = .next z → Frame m0 s0 z := by
  intro z e
  unfold execDrain at e
  try dsimp only at e
  first | (split at e <;> first | (injection e with e; subst e)) | (injection e with e; subst e) | skip
  repeat' (with_reducible first | assumption | (exact Frame.sub hm (by decide)) | apply frame_illegal | apply frame_onRegs | apply frame_onThread | apply frame_storeOwn | apply frame_takeFault | (intro _) | refine Frame.ite ?_ ?_ | split | dsimp only | simp only [Frame.upd_iff, true_or, or_true])

theorem frame_execFloor {m0 : Nat} {s0 : State} (th : Nat) (w : W32) (s : State) (hm : 6648 ||| m0 = m0) (hs : Frame m0 s0 s) :
    ∀ z, (execFloor th w s) = .next z → Frame m0 s0 z := by
  intro z e
  unfold execFloor at e
  try dsimp only at e
  first | (split at e <;> first | (injection e with e; subst e)) | (injection e with e; subst e) | skip
  repeat' (with_reducible first | assumption | (exact Frame.sub hm (by decide)) | apply frame_illegal | apply frame_onRegs | apply frame_onThread | (intro _) | refine Frame.ite ?_ ?_ | split | dsimp only | simp only [Frame.upd_iff, true_or, or_true])

theorem frame_mergeGood {m0 : Nat} {s0 : State} (d : MDesc) (xa : List Ent) (xb : List Ent) (s : State) (hm : 4096 ||| m0 = m0) (hs : Frame m0 s0 s) :
    Frame m0 s0 (mergeGood d xa xb s).st := by
  unfold mergeGood
  repeat' (with_reducible first | assumption | (exact Frame.sub hm (by decide)) | apply frame_bump | apply frame_whenS | (intro _) | refine Frame.ite ?_ ?_ | split | dsimp only | simp only [Frame.upd_iff, true_or, or_true])

theorem frame_mergeStopped {m0 : Nat} {s0 : State} (d : MDesc) (xa : List Ent) (xb : List Ent) (s : State) (hm : 1052672 ||| m0 = m0) (hs : Frame m0 s0 s) :
    Frame m0 s0 (mergeStopped d xa xb s).st := by
  unfold mergeStopped
  repeat' (with_reducible first | assumption | (exact Frame.sub hm (by decide)) | apply frame_bump | apply frame_draw | apply frame_whenS | (intro _) | refine Frame.ite ?_ ?_ | split | dsimp only | simp only [Frame.upd_iff, true_or, or_true])

theorem frame_mergeRun {m0 : Nat} {s0 : State} (d : MDesc) (xa : List Ent) (xb : List Ent) (s : State) (hm : 1052672 ||| m0 = m0) (hs : Frame m0 s0 s) :
    Frame m0 s0 (mergeRun d xa xb s).st := by
  unfold mergeRun
  repeat' (with_reducible first | assumption | (exact Frame.sub hm (by decide)) | apply frame_mergeGood | apply frame_mergeStopped | split | dsimp only | simp only [Frame.upd_iff, true_or, or_true])

theorem frame_readAll {m0 : Nat} {s0 : State} (w : Who) (rs : List (Nat × Nat)) (s : State) (hm : 15496 ||| m0 = m0) (hs : Frame m0 s0 s) :
    Frame m0 s0 (readAll w rs s).2 := by
  unfold readAll
  repeat' (with_reducible first | assumption | (exact Frame.sub hm (by decide)) | exact Frame.refl _ | apply frame_demandRead | (intro _) | refine Frame.snd (by assumption) ?_ | refine Frame.snd3 (by assumption) ?_ | refine Frame.snd4 (by assumption) ?_ | refine Frame.some1 (by assumption) ?_ | refine Frame.some2 (by assumption) ?_ | refine Frame.some3 (by assumption) ?_ | refine Frame.fst (by assumption) ?_ | refine Frame.getD ?_ ?_ | refine Frame.elim ?_ ?_ | refine Frame.elim2 ?_ ?_ | refine Frame.foldl ?_ ?_ | refine Frame.foldl2 ?_ ?_ | refine Frame.foldl3 ?_ ?_ | refine Frame.ite ?_ ?_ | refine Frame.ite2 ?_ ?_ | refine Frame.ite3 ?_ ?_ | split | dsimp only | simp only [Frame.upd_iff, true_or, or_true])

theorem frame_runMerge {m0 : Nat} {s0 : State} (th : Nat) (w : W32) (d : MDesc) (a : Nat) (b : Nat) (c : Nat) (va : Nat) (s : State) (hm : 1064440 ||| m0 = m0) (hs : Frame m0 s0 s) :
    Frame m0 s0 (runMerge th w d a b c va s) := by
  unfold runMerge
  repeat' (with_reducible first | assumption | (exact Frame.sub hm (by decide)) | apply frame_mergeRun | apply frame_onThread | apply frame_readAll | apply frame_storeOwn | apply frame_takeFault | refine Frame.foldlOf MOut.st ?_ ?_ | split | dsimp only | simp only [Frame.upd_iff, true_or, or_true])

theorem frame_execEslmrg {m0 : Nat} {s0 : State} (th : Nat) (w : W32) (s : State) (hm : 1064440 ||| m0 = m0) (hs : Frame m0 s0 s) :
    ∀ z, (execEslmrg th w s) = .next z → Frame m0 s0 z := by
  intro z e
  unfold execEslmrg at e
  try dsimp only at e
  first | (split at e <;> first | (injection e with e; subst e)) | (injection e with e; subst e) | skip
  repeat' (with_reducible first | assumption | (exact Frame.sub hm (by decide)) | apply frame_demandRead | apply frame_illegal | apply frame_onRegs | apply frame_runMerge | apply frame_takeFault | (intro _) | refine Frame.ite ?_ ?_ | split | dsimp only | simp only [Frame.upd_iff, true_or, or_true])

theorem frame_execEcompact {m0 : Nat} {s0 : State} (th : Nat) (w : W32) (s : State) (hm : 6648 ||| m0 = m0) (hs : Frame m0 s0 s) :
    ∀ z, (execEcompact th w s) = .next z → Frame m0 s0 z := by
  intro z e
  unfold execEcompact at e
  try dsimp only at e
  first | (split at e <;> first | (injection e with e; subst e)) | (injection e with e; subst e) | skip
  repeat' (with_reducible first | assumption | (exact Frame.sub hm (by decide)) | apply frame_bumpBy | apply frame_illegal | apply frame_onRegs | apply frame_onThread | apply frame_whenS | (intro _) | refine Frame.ite ?_ ?_ | split | dsimp only | simp only [Frame.upd_iff, true_or, or_true])

end Sys2Proof.Machine
end

