-- ==== Sys2Proof/Laws/FrameCorpOps.lean ====
section
/-! SUPPORT. FrameCorpOps: each operation of Machine/CorpOps.lean changes only the fields of `State`
that its mask names (`Frame`). -/
namespace Sys2Proof.Machine
set_option Elab.async false
set_option linter.all false

theorem frame_onCorpus {m0 : Nat} {s0 : State} (t : Nat) (c : Nat) (f : Corp → Corp) (s : State) (hm : 65536 ||| m0 = m0) (hs : Frame m0 s0 s) :
    Frame m0 s0 (onCorpus t c f s) := by
  have b16 := Frame.bit hm (k := 16) (by decide)
  unfold onCorpus
  repeat' (with_reducible first | assumption | (exact Frame.sub hm (by decide)) | split | dsimp only | simp only [Frame.upd_iff, b16, true_or, or_true])

theorem frame_corpBump {m0 : Nat} {s0 : State} (c : Corp) (sub : Nat) (n : Nat) (s : State) (hm : 4096 ||| m0 = m0) (hs : Frame m0 s0 s) :
    Frame m0 s0 (corpBump c sub n s) := by
  unfold corpBump
  repeat' (with_reducible first | assumption | (exact Frame.sub hm (by decide)) | apply frame_bumpBy | apply frame_optS | (intro _) | refine Frame.ite ?_ ?_ | split | dsimp only | simp only [Frame.upd_iff, true_or, or_true])

theorem frame_putBytes {m0 : Nat} {s0 : State} (a : Nat) (b : Bytes) (s : State) (hm : 8 ||| m0 = m0) (hs : Frame m0 s0 s) :
    Frame m0 s0 (putBytes a b s) := by
  unfold putBytes
  repeat' (with_reducible first | assumption | (exact Frame.sub hm (by decide)) | apply frame_freshCheck | apply frame_memWrite | split | dsimp only | simp only [Frame.upd_iff, true_or, or_true])

theorem frame_storeSlot {m0 : Nat} {s0 : State} (c : Corp) (k : Nat) (z : CSlot) (s : State) (hm : 8 ||| m0 = m0) (hs : Frame m0 s0 s) :
    Frame m0 s0 (storeSlot c k z s) := by
  unfold storeSlot
  repeat' (with_reducible first | assumption | (exact Frame.sub hm (by decide)) | apply frame_putBytes | split | dsimp only | simp only [Frame.upd_iff, true_or, or_true])

theorem frame_clearSlot {m0 : Nat} {s0 : State} (c : Corp) (k : Nat) (s : State) (hm : 8 ||| m0 = m0) (hs : Frame m0 s0 s) :
    Frame m0 s0 (clearSlot c k s) := by
  unfold clearSlot
  repeat' (with_reducible first | assumption | (exact Frame.sub hm (by decide)) | apply frame_putBytes | split | dsimp only | simp only [Frame.upd_iff, true_or, or_true])

theorem frame_readSlot {m0 : Nat} {s0 : State} (w : Who) (c : Corp) (k : Nat) (z : CSlot) (s : State) (hm : 15496 ||| m0 = m0) (hs : Frame m0 s0 s) :
    Frame m0 s0 (readSlot w c k z s).2.2.2 := by
  refine Frame.of4 (readSlot.eq_1 w c k z s) ?_
  apply frame_demandRead _ _ _ _ (Frame.sub hm (by decide))
  exact Frame.ite2 (fun _ => hs) (fun _ => frame_demandRead _ _ _ _ (Frame.sub hm (by decide)) hs)

theorem frame_allocRun {m0 : Nat} {s0 : State} (t : Nat) (n : Nat) (s : State) (hm : 1048576 ||| m0 = m0) (hs : Frame m0 s0 s) :
    ∀ r, (allocRun t n s) = some r → Frame m0 s0 r.2 := by
  intro r e
  simp only [allocRun, Option.map_eq_some_iff] at e
  obtain ⟨p, -, rfl⟩ := e
  exact frame_draw _ (Frame.sub hm (by decide)) hs

theorem frame_showCorpus {m0 : Nat} {s0 : State} (t : Nat) (c : Nat) (s : State) (hm : 4096 ||| m0 = m0) (hs : Frame m0 s0 s) :
    Frame m0 s0 (showCorpus t c s) := by
  unfold showCorpus
  repeat' (with_reducible first | assumption | (exact Frame.sub hm (by decide)) | apply frame_dirSet | apply frame_optS | (intro _) | refine Frame.ite ?_ ?_ | split | dsimp only | simp only [Frame.upd_iff, true_or, or_true])

theorem frame_mapSlots {m0 : Nat} {s0 : State} (p : Corp → Nat → Bool) (f : CSlot → CSlot) (s : State) (hm : 65536 ||| m0 = m0) (hs : Frame m0 s0 s) :
    Frame m0 s0 (mapSlots p f s) := by
  have b16 := Frame.bit hm (k := 16) (by decide)
  unfold mapSlots
  repeat' (with_reducible first | assumption | (exact Frame.sub hm (by decide)) | split | dsimp only | simp only [Frame.upd_iff, b16, true_or, or_true])

theorem frame_corpusFaultAt {m0 : Nat} {s0 : State} (k : Nat) (bank : Nat) (r : Nat) (s : State) (hm : 65536 ||| m0 = m0) (hs : Frame m0 s0 s) :
    Frame m0 s0 (corpusFaultAt k bank r s) := by
  unfold corpusFaultAt
  repeat' (with_reducible first | assumption | (exact Frame.sub hm (by decide)) | apply frame_mapSlots | split | dsimp only | simp only [Frame.upd_iff, true_or, or_true])

theorem frame_reloadSketches {m0 : Nat} {s0 : State} (s : State) (hm : 69632 ||| m0 = m0) (hs : Frame m0 s0 s) :
    Frame m0 s0 (reloadSketches s) := by
  unfold reloadSketches
  repeat' (with_reducible first | assumption | (exact Frame.sub hm (by decide)) | apply frame_foldS | apply frame_mapSlots | apply frame_showCorpus | (intro _) | refine Frame.ite ?_ ?_ | split | dsimp only | simp only [Frame.upd_iff, true_or, or_true])

theorem frame_corpusBankOut {m0 : Nat} {s0 : State} (k : Nat) (bank : Nat) (s : State) (hm : 69632 ||| m0 = m0) (hs : Frame m0 s0 s) :
    Frame m0 s0 (corpusBankOut k bank s) := by
  unfold corpusBankOut
  repeat' (with_reducible first | assumption | (exact Frame.sub hm (by decide)) | apply frame_foldS | apply frame_mapSlots | apply frame_showCorpus | (intro _) | refine Frame.ite ?_ ?_ | split | dsimp only | simp only [Frame.upd_iff, true_or, or_true])

theorem frame_corpusAfter {m0 : Nat} {s0 : State} (k : Nat) (r : Nat) (before : State) (after : State) (hm : 69632 ||| m0 = m0) (hbefore : Frame m0 s0 before) (hafter : Frame m0 s0 after) :
    Frame m0 s0 (corpusAfter k r before after) := by
  unfold corpusAfter
  repeat' (with_reducible first | assumption | (exact Frame.sub hm (by decide)) | apply frame_corpusBankOut | apply frame_corpusFaultAt | apply frame_foldS | (intro _) | refine Frame.ite ?_ ?_ | split | dsimp only | simp only [Frame.upd_iff, true_or, or_true])

end Sys2Proof.Machine
end

