-- ==== Sys2Proof/Laws/FrameSchedOps.lean ====
section
/-! SUPPORT. FrameSchedOps: each operation of Machine/SchedOps.lean changes only the fields of `State`
that its mask names (`Frame`). -/
namespace Sys2Proof.Machine
set_option Elab.async false
set_option linter.all false

theorem frame_schedPut {m0 : Nat} {s0 : State} (stream : Nat) (dest : Nat) (tenant : Nat) (tag : Nat) (address : Nat) (inl : Bytes) (data : Bytes) (after : Nat) (rid : Nat) (s : State) (hm : 16384 ||| m0 = m0) (hs : Frame m0 s0 s) :
    Frame m0 s0 (schedPut stream dest tenant tag address inl data after rid s) := by
  have b14 := Frame.bit hm (k := 14) (by decide)
  unfold schedPut
  repeat' (with_reducible first | assumption | (exact Frame.sub hm (by decide)) | split | dsimp only | simp only [Frame.upd_iff, b14, true_or, or_true])

theorem frame_schedSend {m0 : Nat} {s0 : State} (fn : Nat) (dest : Nat) (tenant : Nat) (tag : Nat) (address : Nat) (inl : Bytes) (data : Bytes) (rid : Nat) (s : State) (hm : 1064960 ||| m0 = m0) (hs : Frame m0 s0 s) :
    ∀ r, (schedSend fn dest tenant tag address inl data rid s) = some r → Frame m0 s0 r := by
  intro r e
  unfold schedSend at e
  try dsimp only at e
  repeat' (split at e)
  all_goals first | contradiction | (injection e with e; subst e) | skip
  repeat' (with_reducible first | assumption | (exact Frame.sub hm (by decide)) | apply frame_draw | apply frame_schedPut | split | dsimp only | simp only [Frame.upd_iff, true_or, or_true])

theorem frame_sendIdle {m0 : Nat} {s0 : State} (link : Nat) (slot : Nat) (detour : Bool) (stream : Nat) (s : State) (hm : 16384 ||| m0 = m0) (hs : Frame m0 s0 s) :
    Frame m0 s0 (sendIdle link slot detour stream s) := by
  unfold sendIdle
  repeat' (with_reducible first | assumption | (exact Frame.sub hm (by decide)) | apply frame_fabSend | split | dsimp only | simp only [Frame.upd_iff, true_or, or_true])

theorem frame_treeInput {m0 : Nat} {s0 : State} (root : Nat) (tag : Nat) (stage : Nat) (i : Nat) (m : TMsg) (s : State) (hm : 16384 ||| m0 = m0) (hs : Frame m0 s0 s) :
    Frame m0 s0 (treeInput root tag stage i m s) := by
  have b14 := Frame.bit hm (k := 14) (by decide)
  unfold treeInput
  repeat' (with_reducible first | assumption | (exact Frame.sub hm (by decide)) | split | dsimp only | simp only [Frame.upd_iff, b14, true_or, or_true])

theorem frame_treeToOut {m0 : Nat} {s0 : State} (k : Nat) (s : State) (hm : 16384 ||| m0 = m0) (hs : Frame m0 s0 s) :
    Frame m0 s0 (treeToOut k s) := by
  have b14 := Frame.bit hm (k := 14) (by decide)
  unfold treeToOut
  repeat' (with_reducible first | assumption | (exact Frame.sub hm (by decide)) | apply frame_schedPut | split | dsimp only | simp only [Frame.upd_iff, b14, true_or, or_true])

theorem frame_pruneOuts {m0 : Nat} {s0 : State} (s : State) (hm : 16384 ||| m0 = m0) (hs : Frame m0 s0 s) :
    Frame m0 s0 (pruneOuts s) := by
  have b14 := Frame.bit hm (k := 14) (by decide)
  unfold pruneOuts
  repeat' (with_reducible first | assumption | (exact Frame.sub hm (by decide)) | split | dsimp only | simp only [Frame.upd_iff, b14, true_or, or_true])

theorem frame_originLost {m0 : Nat} {s0 : State} (k : Nat) (s : State) (hm : 23032 ||| m0 = m0) (hs : Frame m0 s0 s) :
    Frame m0 s0 (originLost k s) := by
  have b14 := Frame.bit hm (k := 14) (by decide)
  unfold originLost
  repeat' (with_reducible first | assumption | (exact Frame.sub hm (by decide)) | apply frame_failReq | apply frame_pruneOuts | apply frame_treeToOut | split | dsimp only | simp only [Frame.upd_iff, b14, true_or, or_true])

theorem frame_originSend {m0 : Nat} {s0 : State} (link : Nat) (slot : Nat) (detour : Bool) (k : Nat) (f : Nat) (s : State) (hm : 16384 ||| m0 = m0) (hs : Frame m0 s0 s) :
    Frame m0 s0 (originSend link slot detour k f s) := by
  have b14 := Frame.bit hm (k := 14) (by decide)
  unfold originSend
  repeat' (with_reducible first | assumption | (exact Frame.sub hm (by decide)) | apply frame_fabSend | apply frame_pruneOuts | apply frame_sendIdle | apply frame_treeToOut | split | dsimp only | simp only [Frame.upd_iff, b14, true_or, or_true])

theorem frame_takePiece {m0 : Nat} {s0 : State} (m : FabMsg) (s : State) (hm : 16384 ||| m0 = m0) (hs : Frame m0 s0 s) :
    Frame m0 s0 (takePiece m s).2 := by
  have b14 := Frame.bit hm (k := 14) (by decide)
  unfold takePiece
  repeat' (with_reducible first | assumption | (exact Frame.sub hm (by decide)) | split | dsimp only | simp only [Frame.upd_iff, b14, true_or, or_true])

end Sys2Proof.Machine
end

