-- ==== Sys2Proof/Laws/FrameCircular.lean ====
section
/-! SUPPORT. FrameCircular: each operation of Machine/Circular.lean changes only the fields of `State`
that its mask names (`Frame`). -/
namespace Sys2Proof.Machine
set_option Elab.async false
set_option linter.all false

theorem frame_onEngine {m0 : Nat} {s0 : State} (th : Nat) (f : Nat → State → State) (s : State) (hm : 6648 ||| m0 = m0) (hf : ∀ y0 u, Frame m0 s0 u → Frame m0 s0 (f y0 u)) (hs : Frame m0 s0 s) :
    Frame m0 s0 (onEngine th f s) := by
  unfold onEngine
  repeat' (with_reducible first | assumption | (exact Frame.sub hm (by decide)) | apply frame_onIssue | apply frame_onThread | apply frame_takeFault | apply hf | (intro _) | refine Frame.ite ?_ ?_ | split | dsimp only | simp only [Frame.upd_iff, true_or, or_true])

theorem frame_execCload {m0 : Nat} {s0 : State} (th : Nat) (k : Nat) (addr : Nat) (s : State) (hm : 6648 ||| m0 = m0) (hs : Frame m0 s0 s) :
    ∀ z, (execCload th k addr s) = .next z → Frame m0 s0 z := by
  intro z e
  unfold execCload at e
  try dsimp only at e
  first | (split at e <;> first | (injection e with e; subst e)) | (injection e with e; subst e) | skip
  repeat' (with_reducible first | assumption | (exact Frame.sub hm (by decide)) | apply frame_cloadReg | apply frame_onEngine | (intro _) | refine Frame.ite ?_ ?_ | split | dsimp only | simp only [Frame.upd_iff, true_or, or_true])

theorem frame_loadDone {m0 : Nat} {s0 : State} (k : Nat) (s : State) (hm : 15864 ||| m0 = m0) (hs : Frame m0 s0 s) :
    Frame m0 s0 (loadDone k s) := by
  unfold loadDone
  repeat' (with_reducible first | assumption | (exact Frame.sub hm (by decide)) | exact Frame.refl _ | apply frame_bump | apply frame_checkLoad | apply frame_failReq | apply frame_mirrorCstat | apply frame_onSeqr | (intro _) | refine Frame.snd (by assumption) ?_ | refine Frame.snd3 (by assumption) ?_ | refine Frame.snd4 (by assumption) ?_ | refine Frame.some1 (by assumption) ?_ | refine Frame.some2 (by assumption) ?_ | refine Frame.some3 (by assumption) ?_ | refine Frame.fst (by assumption) ?_ | refine Frame.ite ?_ ?_ | refine Frame.ite2 ?_ ?_ | refine Frame.ite3 ?_ ?_ | split | dsimp only | simp only [Frame.upd_iff, true_or, or_true])

theorem frame_execCircularLoadDone {m0 : Nat} {s0 : State} (k : Nat) (s : State) (hm : 15864 ||| m0 = m0) (hs : Frame m0 s0 s) :
    ∀ z, (execCircularLoadDone k s) = .next z → Frame m0 s0 z := by
  intro z e
  unfold execCircularLoadDone at e
  try dsimp only at e
  first | (split at e <;> first | (injection e with e; subst e)) | (injection e with e; subst e) | skip
  repeat' (with_reducible first | assumption | (exact Frame.sub hm (by decide)) | apply frame_loadDone | split | dsimp only | simp only [Frame.upd_iff, true_or, or_true])

theorem frame_execCstart {m0 : Nat} {s0 : State} (th : Nat) (v : Nat) (s : State) (hm : 6648 ||| m0 = m0) (hs : Frame m0 s0 s) :
    ∀ z, (execCstart th v s) = .next z → Frame m0 s0 z := by
  intro z e
  unfold execCstart at e
  try dsimp only at e
  first | (split at e <;> first | (injection e with e; subst e)) | (injection e with e; subst e) | skip
  repeat' (with_reducible first | assumption | (exact Frame.sub hm (by decide)) | apply frame_cstartReg | apply frame_onEngine | (intro _) | refine Frame.ite ?_ ?_ | split | dsimp only | simp only [Frame.upd_iff, true_or, or_true])

theorem frame_execCabort {m0 : Nat} {s0 : State} (th : Nat) (k : Nat) (v : Nat) (s : State) (hm : 6648 ||| m0 = m0) (hs : Frame m0 s0 s) :
    ∀ z, (execCabort th k v s) = .next z → Frame m0 s0 z := by
  intro z e
  unfold execCabort at e
  try dsimp only at e
  first | (split at e <;> first | (injection e with e; subst e)) | (injection e with e; subst e) | skip
  repeat' (with_reducible first | assumption | (exact Frame.sub hm (by decide)) | apply frame_cabortReg | apply frame_onEngine | (intro _) | refine Frame.ite ?_ ?_ | split | dsimp only | simp only [Frame.upd_iff, true_or, or_true])

theorem frame_launch {m0 : Nat} {s0 : State} (k : Nat) (c : Circ) (s : State) (hm : 15392 ||| m0 = m0) (hs : Frame m0 s0 s) :
    Frame m0 s0 (launch k c s) := by
  unfold launch
  repeat' (with_reducible first | assumption | (exact Frame.sub hm (by decide)) | apply frame_bumpBy | apply frame_compStop | apply frame_mirrorCstat | apply frame_onSeqr | split | dsimp only | simp only [Frame.upd_iff, true_or, or_true])

theorem frame_execCircularLaunch {m0 : Nat} {s0 : State} (k : Nat) (s : State) (hm : 15520 ||| m0 = m0) (hs : Frame m0 s0 s) :
    ∀ z, (execCircularLaunch k s) = .next z → Frame m0 s0 z := by
  intro z e
  unfold execCircularLaunch at e
  try dsimp only at e
  first | (split at e <;> first | (injection e with e; subst e)) | (injection e with e; subst e) | skip
  repeat' (with_reducible first | assumption | (exact Frame.sub hm (by decide)) | apply frame_launch | apply frame_touchStack | split | dsimp only | simp only [Frame.upd_iff, true_or, or_true])

theorem frame_sealedPairs {m0 : Nat} {s0 : State} (k : Nat) (rows : List Nat) (s : State) (hm : 65536 ||| m0 = m0) (hs : Frame m0 s0 s) :
    Frame m0 s0 (sealedPairs k rows s) := by
  unfold sealedPairs
  repeat' (with_reducible first | assumption | (exact Frame.sub hm (by decide)) | apply frame_corpusFaultAt | apply frame_foldS | (intro _) | refine Frame.ite ?_ ?_ | split | dsimp only | simp only [Frame.upd_iff, true_or, or_true])

theorem frame_endProg {m0 : Nat} {s0 : State} (k : Nat) (c : Circ) (s : State) (hm : 80936 ||| m0 = m0) (hs : Frame m0 s0 s) :
    Frame m0 s0 (endProg k c s) := by
  unfold endProg
  repeat' (with_reducible first | assumption | (exact Frame.sub hm (by decide)) | apply frame_bump | apply frame_endSealOp | apply frame_onSeqr | apply frame_sealedPairs | apply frame_stopCirc | split | dsimp only | simp only [Frame.upd_iff, true_or, or_true])

theorem frame_execMicEnd {m0 : Nat} {s0 : State} (k : Nat) (s : State) (hm : 80936 ||| m0 = m0) (hs : Frame m0 s0 s) :
    ∀ z, (execMicEnd k s) = .next z → Frame m0 s0 z := by
  intro z e
  unfold execMicEnd at e
  try dsimp only at e
  first | (split at e <;> first | (injection e with e; subst e)) | (injection e with e; subst e) | skip
  repeat' (with_reducible first | assumption | (exact Frame.sub hm (by decide)) | apply frame_endProg | apply frame_issueMic | (intro _) | refine Frame.ite ?_ ?_ | split | dsimp only | simp only [Frame.upd_iff, true_or, or_true])

theorem frame_execMicStep {m0 : Nat} {s0 : State} (k : Nat) (s : State) (hm : 15400 ||| m0 = m0) (hs : Frame m0 s0 s) :
    ∀ z, (execMicStep k s) = .next z → Frame m0 s0 z := by
  intro z e
  unfold execMicStep at e
  try dsimp only at e
  first | (split at e <;> first | (injection e with e; subst e)) | (injection e with e; subst e) | skip
  repeat' (with_reducible first | assumption | (exact Frame.sub hm (by decide)) | apply frame_issueMic | apply frame_stepBoundary | (intro _) | refine Frame.ite ?_ ?_ | split | dsimp only | simp only [Frame.upd_iff, true_or, or_true])

theorem frame_startLoop {m0 : Nat} {s0 : State} (k : Nat) (m : Mic) (s : State) (hm : 32 ||| m0 = m0) (hs : Frame m0 s0 s) :
    Frame m0 s0 (startLoop k m s) := by
  unfold startLoop
  repeat' (with_reducible first | assumption | (exact Frame.sub hm (by decide)) | apply frame_onSeqr | split | dsimp only | simp only [Frame.upd_iff, true_or, or_true])

theorem frame_execMicRepeat {m0 : Nat} {s0 : State} (k : Nat) (s : State) (hm : 15392 ||| m0 = m0) (hs : Frame m0 s0 s) :
    ∀ z, (execMicRepeat k s) = .next z → Frame m0 s0 z := by
  intro z e
  unfold execMicRepeat at e
  try dsimp only at e
  first | (split at e <;> first | (injection e with e; subst e)) | (injection e with e; subst e) | skip
  repeat' (with_reducible first | assumption | (exact Frame.sub hm (by decide)) | apply frame_issueMic | apply frame_startLoop | (intro _) | refine Frame.ite ?_ ?_ | split | dsimp only | simp only [Frame.upd_iff, true_or, or_true])

theorem frame_execMicLd {m0 : Nat} {s0 : State} (k : Nat) (s : State) (hm : 15392 ||| m0 = m0) (hs : Frame m0 s0 s) :
    ∀ z, (execMicLd k s) = .next z → Frame m0 s0 z := by
  intro z e
  unfold execMicLd at e
  try dsimp only at e
  first | (split at e <;> first | (injection e with e; subst e)) | (injection e with e; subst e) | skip
  repeat' (with_reducible first | assumption | (exact Frame.sub hm (by decide)) | apply frame_bankMic | apply frame_latchOp | (intro _) | refine Frame.ite ?_ ?_ | split | dsimp only | simp only [Frame.upd_iff, true_or, or_true])

theorem frame_execMicAnd {m0 : Nat} {s0 : State} (k : Nat) (s : State) (hm : 15392 ||| m0 = m0) (hs : Frame m0 s0 s) :
    ∀ z, (execMicAnd k s) = .next z → Frame m0 s0 z := by
  intro z e
  unfold execMicAnd at e
  try dsimp only at e
  first | (split at e <;> first | (injection e with e; subst e)) | (injection e with e; subst e) | skip
  repeat' (with_reducible first | assumption | (exact Frame.sub hm (by decide)) | apply frame_bankMic | apply frame_latchOp | (intro _) | refine Frame.ite ?_ ?_ | split | dsimp only | simp only [Frame.upd_iff, true_or, or_true])

theorem frame_execMicOr {m0 : Nat} {s0 : State} (k : Nat) (s : State) (hm : 15392 ||| m0 = m0) (hs : Frame m0 s0 s) :
    ∀ z, (execMicOr k s) = .next z → Frame m0 s0 z := by
  intro z e
  unfold execMicOr at e
  try dsimp only at e
  first | (split at e <;> first | (injection e with e; subst e)) | (injection e with e; subst e) | skip
  repeat' (with_reducible first | assumption | (exact Frame.sub hm (by decide)) | apply frame_bankMic | apply frame_latchOp | (intro _) | refine Frame.ite ?_ ?_ | split | dsimp only | simp only [Frame.upd_iff, true_or, or_true])

theorem frame_execMicXor {m0 : Nat} {s0 : State} (k : Nat) (s : State) (hm : 15392 ||| m0 = m0) (hs : Frame m0 s0 s) :
    ∀ z, (execMicXor k s) = .next z → Frame m0 s0 z := by
  intro z e
  unfold execMicXor at e
  try dsimp only at e
  first | (split at e <;> first | (injection e with e; subst e)) | (injection e with e; subst e) | skip
  repeat' (with_reducible first | assumption | (exact Frame.sub hm (by decide)) | apply frame_bankMic | apply frame_latchOp | (intro _) | refine Frame.ite ?_ ?_ | split | dsimp only | simp only [Frame.upd_iff, true_or, or_true])

theorem frame_execMicXnor {m0 : Nat} {s0 : State} (k : Nat) (s : State) (hm : 15392 ||| m0 = m0) (hs : Frame m0 s0 s) :
    ∀ z, (execMicXnor k s) = .next z → Frame m0 s0 z := by
  intro z e
  unfold execMicXnor at e
  try dsimp only at e
  first | (split at e <;> first | (injection e with e; subst e)) | (injection e with e; subst e) | skip
  repeat' (with_reducible first | assumption | (exact Frame.sub hm (by decide)) | apply frame_bankMic | apply frame_latchOp | (intro _) | refine Frame.ite ?_ ?_ | split | dsimp only | simp only [Frame.upd_iff, true_or, or_true])

theorem frame_execMicAndn {m0 : Nat} {s0 : State} (k : Nat) (s : State) (hm : 15392 ||| m0 = m0) (hs : Frame m0 s0 s) :
    ∀ z, (execMicAndn k s) = .next z → Frame m0 s0 z := by
  intro z e
  unfold execMicAndn at e
  try dsimp only at e
  first | (split at e <;> first | (injection e with e; subst e)) | (injection e with e; subst e) | skip
  repeat' (with_reducible first | assumption | (exact Frame.sub hm (by decide)) | apply frame_bankMic | apply frame_latchOp | (intro _) | refine Frame.ite ?_ ?_ | split | dsimp only | simp only [Frame.upd_iff, true_or, or_true])

theorem frame_execMicNot {m0 : Nat} {s0 : State} (k : Nat) (s : State) (hm : 15392 ||| m0 = m0) (hs : Frame m0 s0 s) :
    ∀ z, (execMicNot k s) = .next z → Frame m0 s0 z := by
  intro z e
  unfold execMicNot at e
  try dsimp only at e
  first | (split at e <;> first | (injection e with e; subst e)) | (injection e with e; subst e) | skip
  repeat' (with_reducible first | assumption | (exact Frame.sub hm (by decide)) | apply frame_bankMic | apply frame_latchOp | (intro _) | refine Frame.ite ?_ ?_ | split | dsimp only | simp only [Frame.upd_iff, true_or, or_true])

theorem frame_execMicMaj {m0 : Nat} {s0 : State} (k : Nat) (s : State) (hm : 15392 ||| m0 = m0) (hs : Frame m0 s0 s) :
    ∀ z, (execMicMaj k s) = .next z → Frame m0 s0 z := by
  intro z e
  unfold execMicMaj at e
  try dsimp only at e
  first | (split at e <;> first | (injection e with e; subst e)) | (injection e with e; subst e) | skip
  repeat' (with_reducible first | assumption | (exact Frame.sub hm (by decide)) | apply frame_bankMic | apply frame_latchOp | (intro _) | refine Frame.ite ?_ ?_ | split | dsimp only | simp only [Frame.upd_iff, true_or, or_true])

theorem frame_execMicFillq {m0 : Nat} {s0 : State} (k : Nat) (s : State) (hm : 15392 ||| m0 = m0) (hs : Frame m0 s0 s) :
    ∀ z, (execMicFillq k s) = .next z → Frame m0 s0 z := by
  intro z e
  unfold execMicFillq at e
  try dsimp only at e
  first | (split at e <;> first | (injection e with e; subst e)) | (injection e with e; subst e) | skip
  repeat' (with_reducible first | assumption | (exact Frame.sub hm (by decide)) | apply frame_bankMic | apply frame_latchOp | (intro _) | refine Frame.ite ?_ ?_ | split | dsimp only | simp only [Frame.upd_iff, true_or, or_true])

theorem frame_execMicFillt {m0 : Nat} {s0 : State} (k : Nat) (s : State) (hm : 15392 ||| m0 = m0) (hs : Frame m0 s0 s) :
    ∀ z, (execMicFillt k s) = .next z → Frame m0 s0 z := by
  intro z e
  unfold execMicFillt at e
  try dsimp only at e
  first | (split at e <;> first | (injection e with e; subst e)) | (injection e with e; subst e) | skip
  repeat' (with_reducible first | assumption | (exact Frame.sub hm (by decide)) | apply frame_bankMic | apply frame_latchOp | (intro _) | refine Frame.ite ?_ ?_ | split | dsimp only | simp only [Frame.upd_iff, true_or, or_true])

theorem frame_execMicWr {m0 : Nat} {s0 : State} (k : Nat) (s : State) (hm : 15400 ||| m0 = m0) (hs : Frame m0 s0 s) :
    ∀ z, (execMicWr k s) = .next z → Frame m0 s0 z := by
  intro z e
  unfold execMicWr at e
  try dsimp only at e
  first | (split at e <;> first | (injection e with e; subst e)) | (injection e with e; subst e) | skip
  repeat' (with_reducible first | assumption | (exact Frame.sub hm (by decide)) | apply frame_bankMic | apply frame_wrOp | (intro _) | refine Frame.ite ?_ ?_ | split | dsimp only | simp only [Frame.upd_iff, true_or, or_true])

theorem frame_execMicRchk {m0 : Nat} {s0 : State} (k : Nat) (s : State) (hm : 80928 ||| m0 = m0) (hs : Frame m0 s0 s) :
    ∀ z, (execMicRchk k s) = .next z → Frame m0 s0 z := by
  intro z e
  unfold execMicRchk at e
  try dsimp only at e
  first | (split at e <;> first | (injection e with e; subst e)) | (injection e with e; subst e) | skip
  repeat' (with_reducible first | assumption | (exact Frame.sub hm (by decide)) | apply frame_bankMic | apply frame_corpusAfter | apply frame_rchkOp | (intro _) | refine Frame.ite ?_ ?_ | split | dsimp only | simp only [Frame.upd_iff, true_or, or_true])

theorem frame_execMicSeal {m0 : Nat} {s0 : State} (k : Nat) (s : State) (hm : 15400 ||| m0 = m0) (hs : Frame m0 s0 s) :
    ∀ z, (execMicSeal k s) = .next z → Frame m0 s0 z := by
  intro z e
  unfold execMicSeal at e
  try dsimp only at e
  first | (split at e <;> first | (injection e with e; subst e)) | (injection e with e; subst e) | skip
  repeat' (with_reducible first | assumption | (exact Frame.sub hm (by decide)) | apply frame_bankMic | apply frame_sealOp | (intro _) | refine Frame.ite ?_ ?_ | split | dsimp only | simp only [Frame.upd_iff, true_or, or_true])

theorem frame_execMicSealc {m0 : Nat} {s0 : State} (k : Nat) (s : State) (hm : 80936 ||| m0 = m0) (hs : Frame m0 s0 s) :
    ∀ z, (execMicSealc k s) = .next z → Frame m0 s0 z := by
  intro z e
  unfold execMicSealc at e
  try dsimp only at e
  first | (split at e <;> first | (injection e with e; subst e)) | (injection e with e; subst e) | skip
  repeat' (with_reducible first | assumption | (exact Frame.sub hm (by decide)) | apply frame_bankMic | apply frame_sealcOp | apply frame_sealedPairs | (intro _) | refine Frame.ite ?_ ?_ | split | dsimp only | simp only [Frame.upd_iff, true_or, or_true])

theorem frame_limitBanks {m0 : Nat} {s0 : State} (k : Nat) (s : State) (hm : 15392 ||| m0 = m0) (hs : Frame m0 s0 s) :
    Frame m0 s0 (limitBanks k s) := by
  unfold limitBanks
  repeat' (with_reducible first | assumption | (exact Frame.sub hm (by decide)) | apply frame_bankOut | apply frame_foldS | (intro _) | refine Frame.ite ?_ ?_ | split | dsimp only | simp only [Frame.upd_iff, true_or, or_true])

theorem frame_circRequest {m0 : Nat} {s0 : State} (k : Nat) (c : Circ) (s : State) (hm : 6648 ||| m0 = m0) (hs : Frame m0 s0 s) :
    Frame m0 s0 (circRequest k c s) := by
  unfold circRequest
  repeat' (with_reducible first | assumption | (exact Frame.sub hm (by decide)) | apply frame_failReq | split | dsimp only | simp only [Frame.upd_iff, true_or, or_true])

theorem frame_compactAll {m0 : Nat} {s0 : State} (k : Nat) (c : Circ) (s : State) (hm : 4136 ||| m0 = m0) (hs : Frame m0 s0 s) :
    Frame m0 s0 (compactAll k c s).2 := by
  unfold compactAll
  repeat' (with_reducible first | assumption | (exact Frame.sub hm (by decide)) | exact Frame.refl _ | apply frame_compactBank | (intro _) | refine Frame.snd (by assumption) ?_ | refine Frame.snd3 (by assumption) ?_ | refine Frame.snd4 (by assumption) ?_ | refine Frame.some1 (by assumption) ?_ | refine Frame.some2 (by assumption) ?_ | refine Frame.some3 (by assumption) ?_ | refine Frame.fst (by assumption) ?_ | refine Frame.getD ?_ ?_ | refine Frame.elim ?_ ?_ | refine Frame.elim2 ?_ ?_ | refine Frame.foldl ?_ ?_ | refine Frame.foldl2 ?_ ?_ | refine Frame.foldl3 ?_ ?_ | refine Frame.ite ?_ ?_ | refine Frame.ite2 ?_ ?_ | refine Frame.ite3 ?_ ?_ | split | dsimp only | simp only [Frame.upd_iff, true_or, or_true])

theorem frame_complete {m0 : Nat} {s0 : State} (k : Nat) (c : Circ) (s : State) (hm : 81400 ||| m0 = m0) (hs : Frame m0 s0 s) :
    Frame m0 s0 (complete k c s) := by
  unfold complete
  repeat' (with_reducible first | assumption | (exact Frame.sub hm (by decide)) | apply frame_bump | apply frame_circRequest | apply frame_closeCirc | apply frame_compactAll | apply frame_corpusAfter | apply frame_dirSet | apply frame_limitBanks | apply frame_mirrorCstat | apply frame_ringWrite | apply frame_sendKnock | apply frame_touchStack | apply frame_whenS | (intro _) | refine Frame.ite ?_ ?_ | split | dsimp only | simp only [Frame.upd_iff, true_or, or_true])

theorem frame_completionRecord {m0 : Nat} {s0 : State} (k : Nat) (s : State) (hm : 81400 ||| m0 = m0) (hs : Frame m0 s0 s) :
    Frame m0 s0 (completionRecord k s) := by
  unfold completionRecord
  repeat' (with_reducible first | assumption | (exact Frame.sub hm (by decide)) | apply frame_complete | split | dsimp only | simp only [Frame.upd_iff, true_or, or_true])

theorem frame_corpusStackOut {m0 : Nat} {s0 : State} (k : Nat) (s : State) (hm : 69632 ||| m0 = m0) (hs : Frame m0 s0 s) :
    Frame m0 s0 (corpusStackOut k s) := by
  unfold corpusStackOut
  repeat' (with_reducible first | assumption | (exact Frame.sub hm (by decide)) | apply frame_foldS | apply frame_mapSlots | apply frame_showCorpus | (intro _) | refine Frame.ite ?_ ?_ | split | dsimp only | simp only [Frame.upd_iff, true_or, or_true])

theorem frame_execRefresh {m0 : Nat} {s0 : State} (k : Nat) (s : State) (hm : 32 ||| m0 = m0) (hs : Frame m0 s0 s) :
    ∀ z, (execRefresh k s) = .next z → Frame m0 s0 z := by
  intro z e
  unfold execRefresh at e
  try dsimp only at e
  first | (split at e <;> first | (injection e with e; subst e)) | (injection e with e; subst e) | skip
  repeat' (with_reducible first | assumption | (exact Frame.sub hm (by decide)) | apply frame_onSeqr | split | dsimp only | simp only [Frame.upd_iff, true_or, or_true])

theorem frame_refreshWatchdog {m0 : Nat} {s0 : State} (k : Nat) (s : State) (hm : 80928 ||| m0 = m0) (hs : Frame m0 s0 s) :
    Frame m0 s0 (refreshWatchdog k s) := by
  unfold refreshWatchdog
  repeat' (with_reducible first | assumption | (exact Frame.sub hm (by decide)) | apply frame_corpusStackOut | apply frame_raise | apply frame_stackOut | apply frame_stopCirc | split | dsimp only | simp only [Frame.upd_iff, true_or, or_true])

theorem frame_execRefreshIntervalChange {m0 : Nat} {s0 : State} (k : Nat) (temp : Int) (s : State) (hm : 4128 ||| m0 = m0) (hs : Frame m0 s0 s) :
    ∀ z, (execRefreshIntervalChange k temp s) = .next z → Frame m0 s0 z := by
  intro z e
  unfold execRefreshIntervalChange at e
  try dsimp only at e
  first | (split at e <;> first | (injection e with e; subst e)) | (injection e with e; subst e) | skip
  repeat' (with_reducible first | assumption | (exact Frame.sub hm (by decide)) | apply frame_dirSet | apply frame_onSeqr | split | dsimp only | simp only [Frame.upd_iff, true_or, or_true])

end Sys2Proof.Machine
end

