-- ==== Sys2Proof/Laws/FrameHxtOps.lean ====
section
/-! SUPPORT. FrameHxtOps: each operation of Machine/HxtOps.lean changes only the fields of `State`
that its mask names (`Frame`). -/
namespace Sys2Proof.Machine
set_option Elab.async false
set_option linter.all false

theorem frame_pkDrop {m0 : Nat} {s0 : State} (s : State) (hm : 4096 ||| m0 = m0) (hs : Frame m0 s0 s) :
    Frame m0 s0 (pkDrop s) := by
  unfold pkDrop
  repeat' (with_reducible first | assumption | (exact Frame.sub hm (by decide)) | apply frame_bump | split | dsimp only | simp only [Frame.upd_iff, true_or, or_true])

theorem frame_onPacket {m0 : Nat} {s0 : State} (p : Packet) (kind : Nat) (f : State → State) (s : State) (hm : 4096 ||| m0 = m0) (hf : ∀ u, Frame m0 s0 u → Frame m0 s0 (f u)) (hs : Frame m0 s0 s) :
    Frame m0 s0 (onPacket p kind f s) := by
  unfold onPacket
  repeat' (with_reducible first | assumption | (exact Frame.sub hm (by decide)) | apply frame_bump | apply frame_pkDrop | apply hf | split | dsimp only | simp only [Frame.upd_iff, true_or, or_true])

theorem frame_police {m0 : Nat} {s0 : State} (t : Nat) (p : Packet) (seg0 : Nat) (s : State) (hm : 4608 ||| m0 = m0) (hs : Frame m0 s0 s) :
    Frame m0 s0 (police t p seg0 s).2 := by
  have b9 := Frame.bit hm (k := 9) (by decide)
  unfold police
  repeat' (with_reducible first | assumption | (exact Frame.sub hm (by decide)) | apply frame_bump | apply frame_whenS | (intro _) | refine Frame.ite ?_ ?_ | split | dsimp only | simp only [Frame.upd_iff, b9, true_or, or_true])

theorem frame_policedNote {m0 : Nat} {s0 : State} (t : Nat) (red : Nat) (yellow : Nat) (s : State) (hm : 4864 ||| m0 = m0) (hs : Frame m0 s0 s) :
    Frame m0 s0 (policedNote t red yellow s) := by
  unfold policedNote
  repeat' (with_reducible first | assumption | (exact Frame.sub hm (by decide)) | apply frame_trafficNote | split | dsimp only | simp only [Frame.upd_iff, true_or, or_true])

theorem frame_redDrop {m0 : Nat} {s0 : State} (t : Nat) (s : State) (hm : 4864 ||| m0 = m0) (hs : Frame m0 s0 s) :
    Frame m0 s0 (redDrop t s) := by
  unfold redDrop
  repeat' (with_reducible first | assumption | (exact Frame.sub hm (by decide)) | apply frame_bump | apply frame_policedNote | split | dsimp only | simp only [Frame.upd_iff, true_or, or_true])

theorem frame_yellowDrop {m0 : Nat} {s0 : State} (t : Nat) (s : State) (hm : 4864 ||| m0 = m0) (hs : Frame m0 s0 s) :
    Frame m0 s0 (yellowDrop t s) := by
  unfold yellowDrop
  repeat' (with_reducible first | assumption | (exact Frame.sub hm (by decide)) | apply frame_bump | apply frame_policedNote | split | dsimp only | simp only [Frame.upd_iff, true_or, or_true])

theorem frame_onAsm {m0 : Nat} {s0 : State} (sid : Nat) (pm : Nat) (f : Asm → Asm) (s : State) (hm : 256 ||| m0 = m0) (hs : Frame m0 s0 s) :
    Frame m0 s0 (onAsm sid pm f s) := by
  have b8 := Frame.bit hm (k := 8) (by decide)
  unfold onAsm
  repeat' (with_reducible first | assumption | (exact Frame.sub hm (by decide)) | split | dsimp only | simp only [Frame.upd_iff, b8, true_or, or_true])

theorem frame_dropAsm {m0 : Nat} {s0 : State} (sid : Nat) (pm : Nat) (s : State) (hm : 256 ||| m0 = m0) (hs : Frame m0 s0 s) :
    Frame m0 s0 (dropAsm sid pm s) := by
  have b8 := Frame.bit hm (k := 8) (by decide)
  unfold dropAsm
  repeat' (with_reducible first | assumption | (exact Frame.sub hm (by decide)) | split | dsimp only | simp only [Frame.upd_iff, b8, true_or, or_true])

theorem frame_endAsm {m0 : Nat} {s0 : State} (a : Asm) (type : Nat) (status : Nat) (detail : Nat) (addr : Addr) (s : State) (hm : 4352 ||| m0 = m0) (hs : Frame m0 s0 s) :
    Frame m0 s0 (endAsm a type status detail addr s) := by
  unfold endAsm
  repeat' (with_reducible first | assumption | (exact Frame.sub hm (by decide)) | apply frame_earlyReceipt | apply frame_onAsm | split | dsimp only | simp only [Frame.upd_iff, true_or, or_true])

theorem frame_endWhole {m0 : Nat} {s0 : State} (a : Asm) (type : Nat) (status : Nat) (detail : Nat) (s : State) (hm : 4352 ||| m0 = m0) (hs : Frame m0 s0 s) :
    Frame m0 s0 (endWhole a type status detail s) := by
  unfold endWhole
  repeat' (with_reducible first | assumption | (exact Frame.sub hm (by decide)) | apply frame_dropAsm | apply frame_endAsm | split | dsimp only | simp only [Frame.upd_iff, true_or, or_true])

theorem frame_queueFull {m0 : Nat} {s0 : State} (a : Asm) (q : Nat) (type : Nat) (addr : Addr) (s : State) (hm : 4864 ||| m0 = m0) (hs : Frame m0 s0 s) :
    Frame m0 s0 (queueFull a q type addr s) := by
  unfold queueFull
  repeat' (with_reducible first | assumption | (exact Frame.sub hm (by decide)) | apply frame_bump | apply frame_endAsm | apply frame_trafficNote | split | dsimp only | simp only [Frame.upd_iff, true_or, or_true])

theorem frame_makeReq {m0 : Nat} {s0 : State} (x : Sess) (a : Asm) (m : Bytes) (s : State) (hm : 256 ||| m0 = m0) (hs : Frame m0 s0 s) :
    Frame m0 s0 (makeReq x a m s) := by
  have b8 := Frame.bit hm (k := 8) (by decide)
  unfold makeReq
  repeat' (with_reducible first | assumption | (exact Frame.sub hm (by decide)) | apply frame_dropAsm | split | dsimp only | simp only [Frame.upd_iff, b8, true_or, or_true])

theorem frame_completeAsm {m0 : Nat} {s0 : State} (x : Sess) (a : Asm) (m : Bytes) (s : State) (hm : 4864 ||| m0 = m0) (hs : Frame m0 s0 s) :
    Frame m0 s0 (completeAsm x a m s) := by
  unfold completeAsm
  repeat' (with_reducible first | assumption | (exact Frame.sub hm (by decide)) | apply frame_bump | apply frame_dropAsm | apply frame_earlyReceipt | apply frame_endWhole | apply frame_makeReq | apply frame_onSess | apply frame_postReceipt | apply frame_queueFull | apply frame_whenS | (intro _) | refine Frame.ite ?_ ?_ | split | dsimp only | simp only [Frame.upd_iff, true_or, or_true])

end Sys2Proof.Machine
end

