-- ==== Sys2Proof/Laws/FrameTrafOps.lean ====
section
/-! SUPPORT. FrameTrafOps: each operation of Machine/TrafOps.lean changes only the fields of `State`
that its mask names (`Frame`). -/
namespace Sys2Proof.Machine
set_option Elab.async false
set_option linter.all false

theorem frame_refillShaper {m0 : Nat} {s0 : State} (t : Nat) (q : Nat) (s : State) (hm : 512 ||| m0 = m0) (hs : Frame m0 s0 s) :
    Frame m0 s0 (refillShaper t q s) := by
  have b9 := Frame.bit hm (k := 9) (by decide)
  unfold refillShaper
  repeat' (with_reducible first | assumption | (exact Frame.sub hm (by decide)) | split | dsimp only | simp only [Frame.upd_iff, b9, true_or, or_true])

theorem frame_refillPolicer {m0 : Nat} {s0 : State} (t : Nat) (s : State) (hm : 512 ||| m0 = m0) (hs : Frame m0 s0 s) :
    Frame m0 s0 (refillPolicer t s) := by
  have b9 := Frame.bit hm (k := 9) (by decide)
  unfold refillPolicer
  repeat' (with_reducible first | assumption | (exact Frame.sub hm (by decide)) | split | dsimp only | simp only [Frame.upd_iff, b9, true_or, or_true])

theorem frame_refillTenant {m0 : Nat} {s0 : State} (t : Nat) (s : State) (hm : 512 ||| m0 = m0) (hs : Frame m0 s0 s) :
    Frame m0 s0 (refillTenant t s) := by
  unfold refillTenant
  repeat' (with_reducible first | assumption | (exact Frame.sub hm (by decide)) | apply frame_foldS | apply frame_refillPolicer | apply frame_refillShaper | (intro _) | refine Frame.ite ?_ ?_ | split | dsimp only | simp only [Frame.upd_iff, true_or, or_true])

theorem frame_switchGates {m0 : Nat} {s0 : State} (p : Nat) (s : State) (hm : 4864 ||| m0 = m0) (hs : Frame m0 s0 s) :
    Frame m0 s0 (switchGates p s) := by
  have b9 := Frame.bit hm (k := 9) (by decide)
  unfold switchGates
  repeat' (with_reducible first | assumption | (exact Frame.sub hm (by decide)) | apply frame_dirPut | apply frame_dirSet | apply frame_foldS | apply frame_trafficNote | (intro _) | refine Frame.ite ?_ ?_ | split | dsimp only | simp only [Frame.upd_iff, b9, true_or, or_true])

theorem frame_sendPkt {m0 : Nat} {s0 : State} (p : Nat) (k : OutPkt) (s : State) (hm : 768 ||| m0 = m0) (hs : Frame m0 s0 s) :
    Frame m0 s0 (sendPkt p k s) := by
  have b8 := Frame.bit hm (k := 8) (by decide)
  have b9 := Frame.bit hm (k := 9) (by decide)
  unfold sendPkt
  repeat' (with_reducible first | assumption | (exact Frame.sub hm (by decide)) | split | dsimp only | simp only [Frame.upd_iff, b8, b9, true_or, or_true])

theorem frame_markWaits {m0 : Nat} {s0 : State} (p : Nat) (s : State) (hm : 4352 ||| m0 = m0) (hs : Frame m0 s0 s) :
    Frame m0 s0 (markWaits p s) := by
  have b8 := Frame.bit hm (k := 8) (by decide)
  unfold markWaits
  repeat' (with_reducible first | assumption | (exact Frame.sub hm (by decide)) | apply frame_bump | apply frame_foldS | (intro _) | refine Frame.ite ?_ ?_ | split | dsimp only | simp only [Frame.upd_iff, b8, true_or, or_true])

theorem frame_selectNext {m0 : Nat} {s0 : State} (p : Nat) (s : State) (hm : 4864 ||| m0 = m0) (hs : Frame m0 s0 s) :
    Frame m0 s0 (selectNext p s) := by
  have b9 := Frame.bit hm (k := 9) (by decide)
  unfold selectNext
  repeat' (with_reducible first | assumption | (exact Frame.sub hm (by decide)) | apply frame_markWaits | apply frame_sendPkt | split | dsimp only | simp only [Frame.upd_iff, b9, true_or, or_true])

theorem frame_histAdd {m0 : Nat} {s0 : State} (obj : Nat) (bin : Nat) (s : State) (hm : 4096 ||| m0 = m0) (hs : Frame m0 s0 s) :
    Frame m0 s0 (histAdd obj bin s) := by
  unfold histAdd
  repeat' (with_reducible first | assumption | (exact Frame.sub hm (by decide)) | apply frame_dirPut | split | dsimp only | simp only [Frame.upd_iff, true_or, or_true])

theorem frame_sampleQueue {m0 : Nat} {s0 : State} (t : Nat) (q : Nat) (s : State) (hm : 4096 ||| m0 = m0) (hs : Frame m0 s0 s) :
    Frame m0 s0 (sampleQueue t q s) := by
  unfold sampleQueue
  repeat' (with_reducible first | assumption | (exact Frame.sub hm (by decide)) | apply frame_histAdd | split | dsimp only | simp only [Frame.upd_iff, true_or, or_true])

theorem frame_clearHist {m0 : Nat} {s0 : State} (t : Nat) (q : Nat) (s : State) (hm : 4096 ||| m0 = m0) (hs : Frame m0 s0 s) :
    Frame m0 s0 (clearHist t q s) := by
  unfold clearHist
  repeat' (with_reducible first | assumption | (exact Frame.sub hm (by decide)) | apply frame_dirPut | apply frame_foldS | (intro _) | refine Frame.ite ?_ ?_ | split | dsimp only | simp only [Frame.upd_iff, true_or, or_true])

theorem frame_noticeQueue {m0 : Nat} {s0 : State} (tq : Nat) (s : State) (hm : 4864 ||| m0 = m0) (hs : Frame m0 s0 s) :
    Frame m0 s0 (noticeQueue tq s) := by
  unfold noticeQueue
  repeat' (with_reducible first | assumption | (exact Frame.sub hm (by decide)) | apply frame_thresholdNote | split | dsimp only | simp only [Frame.upd_iff, true_or, or_true])

theorem frame_queueNotes {m0 : Nat} {s0 : State} (s : State) (hm : 4864 ||| m0 = m0) (hs : Frame m0 s0 s) :
    Frame m0 s0 (queueNotes s) := by
  unfold queueNotes
  repeat' (with_reducible first | assumption | (exact Frame.sub hm (by decide)) | apply frame_foldS | apply frame_noticeQueue | (intro _) | refine Frame.ite ?_ ?_ | split | dsimp only | simp only [Frame.upd_iff, true_or, or_true])

theorem frame_passCycle {m0 : Nat} {s0 : State} (s : State) (hm : 4866 ||| m0 = m0) (hs : Frame m0 s0 s) :
    Frame m0 s0 (passCycle s) := by
  have b1 := Frame.bit hm (k := 1) (by decide)
  unfold passCycle
  repeat' (with_reducible first | assumption | (exact Frame.sub hm (by decide)) | apply frame_queueNotes | split | dsimp only | simp only [Frame.upd_iff, b1, true_or, or_true])

theorem frame_onPort {m0 : Nat} {s0 : State} (p : Nat) (f : PortSt → PortSt) (s : State) (hm : 524288 ||| m0 = m0) (hs : Frame m0 s0 s) :
    Frame m0 s0 (onPort p f s) := by
  have b19 := Frame.bit hm (k := 19) (by decide)
  unfold onPort
  repeat' (with_reducible first | assumption | (exact Frame.sub hm (by decide)) | split | dsimp only | simp only [Frame.upd_iff, b19, true_or, or_true])

theorem frame_losePort {m0 : Nat} {s0 : State} (p : Nat) (s : State) (hm : 4352 ||| m0 = m0) (hs : Frame m0 s0 s) :
    Frame m0 s0 (losePort p s) := by
  have b8 := Frame.bit hm (k := 8) (by decide)
  unfold losePort
  repeat' (with_reducible first | assumption | (exact Frame.sub hm (by decide)) | apply frame_bumpBy | split | dsimp only | simp only [Frame.upd_iff, b8, true_or, or_true])

theorem frame_portDown {m0 : Nat} {s0 : State} (p : Nat) (s : State) (hm : 539904 ||| m0 = m0) (hs : Frame m0 s0 s) :
    Frame m0 s0 (portDown p s) := by
  unfold portDown
  repeat' (with_reducible first | assumption | (exact Frame.sub hm (by decide)) | apply frame_bump | apply frame_dirSet | apply frame_losePort | apply frame_onPort | apply frame_record | split | dsimp only | simp only [Frame.upd_iff, true_or, or_true])

theorem frame_portsOff {m0 : Nat} {s0 : State} (s : State) (hm : 4352 ||| m0 = m0) (hs : Frame m0 s0 s) :
    Frame m0 s0 (portsOff s) := by
  unfold portsOff
  repeat' (with_reducible first | assumption | (exact Frame.sub hm (by decide)) | apply frame_dirSet | apply frame_foldS | apply frame_losePort | (intro _) | refine Frame.ite ?_ ?_ | split | dsimp only | simp only [Frame.upd_iff, true_or, or_true])

theorem frame_showPorts {m0 : Nat} {s0 : State} (port : Nat) (s : State) (hm : 4096 ||| m0 = m0) (hs : Frame m0 s0 s) :
    Frame m0 s0 (showPorts port s) := by
  unfold showPorts
  repeat' (with_reducible first | assumption | (exact Frame.sub hm (by decide)) | apply frame_dirSet | apply frame_foldS | (intro _) | refine Frame.ite ?_ ?_ | split | dsimp only | simp only [Frame.upd_iff, true_or, or_true])

theorem frame_takeArrangement {m0 : Nat} {s0 : State} (port : Nat) (s : State) (hm : 528384 ||| m0 = m0) (hs : Frame m0 s0 s) :
    Frame m0 s0 (takeArrangement port s) := by
  have b19 := Frame.bit hm (k := 19) (by decide)
  unfold takeArrangement
  repeat' (with_reducible first | assumption | (exact Frame.sub hm (by decide)) | apply frame_showPorts | split | dsimp only | simp only [Frame.upd_iff, b19, true_or, or_true])

theorem frame_portRise {m0 : Nat} {s0 : State} (p : Nat) (s : State) (hm : 528640 ||| m0 = m0) (hs : Frame m0 s0 s) :
    Frame m0 s0 (portRise p s) := by
  unfold portRise
  repeat' (with_reducible first | assumption | (exact Frame.sub hm (by decide)) | apply frame_dirSet | apply frame_foldS | apply frame_sendFreshNotes | apply frame_takeArrangement | (intro _) | refine Frame.ite ?_ ?_ | split | dsimp only | simp only [Frame.upd_iff, true_or, or_true])

theorem frame_onTenant {m0 : Nat} {s0 : State} (t : Nat) (f : TenantSt → TenantSt) (s : State) (hm : 512 ||| m0 = m0) (hs : Frame m0 s0 s) :
    Frame m0 s0 (onTenant t f s) := by
  have b9 := Frame.bit hm (k := 9) (by decide)
  unfold onTenant
  repeat' (with_reducible first | assumption | (exact Frame.sub hm (by decide)) | split | dsimp only | simp only [Frame.upd_iff, b9, true_or, or_true])

theorem frame_askReset {m0 : Nat} {s0 : State} (t : Nat) (f : Nat) (s : State) (hm : 512 ||| m0 = m0) (hs : Frame m0 s0 s) :
    Frame m0 s0 (askReset t f s) := by
  unfold askReset
  repeat' (with_reducible first | assumption | (exact Frame.sub hm (by decide)) | apply frame_onTenant | split | dsimp only | simp only [Frame.upd_iff, true_or, or_true])

theorem frame_writeEnabled {m0 : Nat} {s0 : State} (t : Nat) (v : Nat) (s : State) (hm : 512 ||| m0 = m0) (hs : Frame m0 s0 s) :
    Frame m0 s0 (writeEnabled t v s) := by
  unfold writeEnabled
  repeat' (with_reducible first | assumption | (exact Frame.sub hm (by decide)) | apply frame_askReset | apply frame_onTenant | split | dsimp only | simp only [Frame.upd_iff, true_or, or_true])

end Sys2Proof.Machine
end

