-- ==== Sys2Proof/Laws/FrameSearchOps.lean ====
section
/-! SUPPORT. FrameSearchOps: each operation of Machine/SearchOps.lean changes only the fields of `State`
that its mask names (`Frame`). -/
namespace Sys2Proof.Machine
set_option Elab.async false
set_option linter.all false

theorem frame_newPart {m0 : Nat} {s0 : State} (p : Part) (s : State) (hm : 65792 ||| m0 = m0) (hs : Frame m0 s0 s) :
    Frame m0 s0 (newPart p s) := by
  have b8 := Frame.bit hm (k := 8) (by decide)
  have b16 := Frame.bit hm (k := 16) (by decide)
  unfold newPart
  repeat' (with_reducible first | assumption | (exact Frame.sub hm (by decide)) | split | dsimp only | simp only [Frame.upd_iff, b8, b16, true_or, or_true])

theorem frame_onPart {m0 : Nat} {s0 : State} (id : Nat) (f : Part → Part) (s : State) (hm : 65536 ||| m0 = m0) (hs : Frame m0 s0 s) :
    Frame m0 s0 (onPart id f s) := by
  have b16 := Frame.bit hm (k := 16) (by decide)
  unfold onPart
  repeat' (with_reducible first | assumption | (exact Frame.sub hm (by decide)) | split | dsimp only | simp only [Frame.upd_iff, b16, true_or, or_true])

theorem frame_dropPart {m0 : Nat} {s0 : State} (id : Nat) (s : State) (hm : 65600 ||| m0 = m0) (hs : Frame m0 s0 s) :
    Frame m0 s0 (dropPart id s) := by
  have b16 := Frame.bit hm (k := 16) (by decide)
  unfold dropPart
  repeat' (with_reducible first | assumption | (exact Frame.sub hm (by decide)) | apply frame_killParcels | split | dsimp only | simp only [Frame.upd_iff, b16, true_or, or_true])

theorem frame_pruneParts {m0 : Nat} {s0 : State} (s : State) (hm : 65600 ||| m0 = m0) (hs : Frame m0 s0 s) :
    Frame m0 s0 (pruneParts s) := by
  unfold pruneParts
  repeat' (with_reducible first | assumption | (exact Frame.sub hm (by decide)) | apply frame_dropPart | apply frame_foldS | (intro _) | refine Frame.ite ?_ ?_ | split | dsimp only | simp only [Frame.upd_iff, true_or, or_true])

theorem frame_setPass {m0 : Nat} {s0 : State} (p : Pass) (s : State) (hm : 65664 ||| m0 = m0) (hs : Frame m0 s0 s) :
    Frame m0 s0 (setPass p s) := by
  have b16 := Frame.bit hm (k := 16) (by decide)
  unfold setPass
  repeat' (with_reducible first | assumption | (exact Frame.sub hm (by decide)) | apply frame_foldS | apply frame_touchStack | (intro _) | refine Frame.ite ?_ ?_ | split | dsimp only | simp only [Frame.upd_iff, b16, true_or, or_true])

theorem frame_sweepPass {m0 : Nat} {s0 : State} (p : Part) (c : Corp) (tile : Nat) (s : State) (hm : 65664 ||| m0 = m0) (hs : Frame m0 s0 s) :
    Frame m0 s0 (sweepPass p c tile s) := by
  unfold sweepPass
  repeat' (with_reducible first | assumption | (exact Frame.sub hm (by decide)) | apply frame_setPass | split | dsimp only | simp only [Frame.upd_iff, true_or, or_true])

theorem frame_patchPass {m0 : Nat} {s0 : State} (c : Corp) (reg : Nat) (s : State) (hm : 65664 ||| m0 = m0) (hs : Frame m0 s0 s) :
    Frame m0 s0 (patchPass c reg s) := by
  unfold patchPass
  repeat' (with_reducible first | assumption | (exact Frame.sub hm (by decide)) | apply frame_onCorpus | apply frame_setPass | split | dsimp only | simp only [Frame.upd_iff, true_or, or_true])

theorem frame_startPass {m0 : Nat} {s0 : State} (s : State) (hm : 65664 ||| m0 = m0) (hs : Frame m0 s0 s) :
    Frame m0 s0 (startPass s) := by
  have b16 := Frame.bit hm (k := 16) (by decide)
  unfold startPass
  repeat' (with_reducible first | assumption | (exact Frame.sub hm (by decide)) | apply frame_optS | apply frame_patchPass | apply frame_sweepPass | (intro _) | refine Frame.ite ?_ ?_ | split | dsimp only | simp only [Frame.upd_iff, b16, true_or, or_true])

theorem frame_sweepDone {m0 : Nat} {s0 : State} (p : Pass) (s : State) (hm : 65536 ||| m0 = m0) (hs : Frame m0 s0 s) :
    Frame m0 s0 (sweepDone p s) := by
  unfold sweepDone
  repeat' (with_reducible first | assumption | (exact Frame.sub hm (by decide)) | apply frame_foldS | apply frame_onPart | (intro _) | refine Frame.ite ?_ ?_ | split | dsimp only | simp only [Frame.upd_iff, true_or, or_true])

theorem frame_patchDone {m0 : Nat} {s0 : State} (p : Pass) (s : State) (hm : 69632 ||| m0 = m0) (hs : Frame m0 s0 s) :
    Frame m0 s0 (patchDone p s) := by
  unfold patchDone
  repeat' (with_reducible first | assumption | (exact Frame.sub hm (by decide)) | apply frame_dirSet | apply frame_onCorpus | apply frame_optS | apply frame_showCorpus | (intro _) | refine Frame.ite ?_ ?_ | split | dsimp only | simp only [Frame.upd_iff, true_or, or_true])

theorem frame_wantPatches {m0 : Nat} {s0 : State} (s : State) (hm : 65536 ||| m0 = m0) (hs : Frame m0 s0 s) :
    Frame m0 s0 (wantPatches s) := by
  have b16 := Frame.bit hm (k := 16) (by decide)
  unfold wantPatches
  repeat' (with_reducible first | assumption | (exact Frame.sub hm (by decide)) | split | dsimp only | simp only [Frame.upd_iff, b16, true_or, or_true])

theorem frame_scoreSlot {m0 : Nat} {s0 : State} (w : Who) (c : Corp) (q : List Int) (tol : Bool) (a : Scoring) (p : Nat × CSlot) (hm : 15496 ||| m0 = m0) (ha : Frame m0 s0 a.st) :
    Frame m0 s0 (scoreSlot w c q tol a p).st := by
  unfold scoreSlot
  repeat' (with_reducible first | assumption | (exact Frame.sub hm (by decide)) | exact Frame.refl _ | apply frame_readSlot | (intro _) | refine Frame.snd (by assumption) ?_ | refine Frame.snd3 (by assumption) ?_ | refine Frame.snd4 (by assumption) ?_ | refine Frame.some1 (by assumption) ?_ | refine Frame.some2 (by assumption) ?_ | refine Frame.some3 (by assumption) ?_ | refine Frame.fst (by assumption) ?_ | refine Frame.foldlOf Scoring.st ?_ ?_ | refine Frame.ite ?_ ?_ | refine Frame.ite2 ?_ ?_ | refine Frame.ite3 ?_ ?_ | split | dsimp only | simp only [Frame.upd_iff, true_or, or_true])

theorem frame_shardAnswer {m0 : Nat} {s0 : State} (p : Part) (s : State) (hm : 15496 ||| m0 = m0) (hs : Frame m0 s0 s) :
    Frame m0 s0 (shardAnswer p s).2 := by
  unfold shardAnswer
  repeat' (with_reducible first | assumption | (exact Frame.sub hm (by decide)) | apply frame_scoreSlot | (intro _) | refine Frame.foldlOf Scoring.st ?_ ?_ | refine Frame.ite ?_ ?_ | split | dsimp only | simp only [Frame.upd_iff, true_or, or_true])

theorem frame_addSearchPart {m0 : Nat} {s0 : State} (p : Part) (s : State) (hm : 65792 ||| m0 = m0) (hs : Frame m0 s0 s) :
    Frame m0 s0 (addSearchPart p s) := by
  unfold addSearchPart
  repeat' (with_reducible first | assumption | (exact Frame.sub hm (by decide)) | apply frame_newPart | split | dsimp only | simp only [Frame.upd_iff, true_or, or_true])

theorem frame_issueFinalist {m0 : Nat} {s0 : State} (pid : Nat) (c : Corp) (i : Nat) (n : Nat) (s : State) (hm : 86080 ||| m0 = m0) (hs : Frame m0 s0 s) :
    Frame m0 s0 (issueFinalist pid c i n s) := by
  unfold issueFinalist
  repeat' (with_reducible first | assumption | (exact Frame.sub hm (by decide)) | apply frame_foldS | apply frame_issueParcel | apply frame_onPart | (intro _) | refine Frame.ite ?_ ?_ | split | dsimp only | simp only [Frame.upd_iff, true_or, or_true])

theorem frame_addFinalists {m0 : Nat} {s0 : State} (p : Part) (s : State) (hm : 86336 ||| m0 = m0) (hs : Frame m0 s0 s) :
    Frame m0 s0 (addFinalists p s) := by
  unfold addFinalists
  repeat' (with_reducible first | assumption | (exact Frame.sub hm (by decide)) | apply frame_foldS | apply frame_issueFinalist | apply frame_newPart | (intro _) | refine Frame.ite ?_ ?_ | split | dsimp only | simp only [Frame.upd_iff, true_or, or_true])

theorem frame_ownerAnswer {m0 : Nat} {s0 : State} (p : Part) (s : State) (hm : 4096 ||| m0 = m0) (hs : Frame m0 s0 s) :
    Frame m0 s0 (ownerAnswer p s).2 := by
  unfold ownerAnswer
  repeat' (with_reducible first | assumption | (exact Frame.sub hm (by decide)) | apply frame_bumpBy | split | dsimp only | simp only [Frame.upd_iff, true_or, or_true])

theorem frame_sendShard {m0 : Nat} {s0 : State} (r : Req) (i : Nat) (post : Nat) (s : State) (hm : 1130752 ||| m0 = m0) (hs : Frame m0 s0 s) :
    Frame m0 s0 (sendShard r i post s).2 := by
  unfold sendShard
  repeat' (with_reducible first | assumption | (exact Frame.sub hm (by decide)) | exact Frame.refl _ | apply frame_addSearchPart | (show ∀ _, _ → _; apply frame_schedSend) | (intro _) | refine Frame.snd (by assumption) ?_ | refine Frame.snd3 (by assumption) ?_ | refine Frame.snd4 (by assumption) ?_ | refine Frame.some1 (by assumption) ?_ | refine Frame.some2 (by assumption) ?_ | refine Frame.some3 (by assumption) ?_ | refine Frame.fst (by assumption) ?_ | refine Frame.ite ?_ ?_ | refine Frame.ite2 ?_ ?_ | refine Frame.ite3 ?_ ?_ | split | dsimp only | simp only [Frame.upd_iff, true_or, or_true])

theorem frame_shardLost {m0 : Nat} {s0 : State} (rid : Nat) (i : Nat) (st : Nat) (s : State) (hm : 72184 ||| m0 = m0) (hs : Frame m0 s0 s) :
    Frame m0 s0 (shardLost rid i st s) := by
  unfold shardLost
  repeat' (with_reducible first | assumption | (exact Frame.sub hm (by decide)) | apply frame_addCause | apply frame_failReq | apply frame_onReq | split | dsimp only | simp only [Frame.upd_iff, true_or, or_true])

theorem frame_tryShard {m0 : Nat} {s0 : State} (x0 : Nat) (x1 : Nat) (x2 : Nat) (x3 : State) (hm : 1137144 ||| m0 = m0) (hx3 : Frame m0 s0 x3) :
    Frame m0 s0 (tryShard x0 x1 x2 x3) := by
  induction x0 generalizing x1 x2 x3 with
  | zero =>
    unfold tryShard
    all_goals try dsimp only
    repeat' (with_reducible first | assumption | (exact Frame.sub hm (by decide)) | exact Frame.refl _ | apply frame_bump | apply frame_onReq | apply frame_sendShard | apply frame_shardLost | apply frame_whenS | (intro _) | refine Frame.snd (by assumption) ?_ | refine Frame.snd3 (by assumption) ?_ | refine Frame.snd4 (by assumption) ?_ | refine Frame.some1 (by assumption) ?_ | refine Frame.some2 (by assumption) ?_ | refine Frame.some3 (by assumption) ?_ | refine Frame.fst (by assumption) ?_ | refine Frame.ite ?_ ?_ | refine Frame.ite2 ?_ ?_ | refine Frame.ite3 ?_ ?_ | split | dsimp only | simp only [Frame.upd_iff, true_or, or_true])
  | succ n ih =>
    unfold tryShard
    all_goals try dsimp only
    repeat' (with_reducible first | assumption | (exact Frame.sub hm (by decide)) | exact Frame.refl _ | apply frame_bump | apply frame_onReq | apply frame_sendShard | apply frame_shardLost | apply frame_whenS | with_reducible apply ih | (intro _) | refine Frame.snd (by assumption) ?_ | refine Frame.snd3 (by assumption) ?_ | refine Frame.snd4 (by assumption) ?_ | refine Frame.some1 (by assumption) ?_ | refine Frame.some2 (by assumption) ?_ | refine Frame.some3 (by assumption) ?_ | refine Frame.fst (by assumption) ?_ | refine Frame.ite ?_ ?_ | refine Frame.ite2 ?_ ?_ | refine Frame.ite3 ?_ ?_ | split | dsimp only | simp only [Frame.upd_iff, true_or, or_true])

theorem frame_shardFailed {m0 : Nat} {s0 : State} (rid : Nat) (f : Nat × Nat) (s : State) (hm : 1179128 ||| m0 = m0) (hs : Frame m0 s0 s) :
    Frame m0 s0 (shardFailed rid f s) := by
  unfold shardFailed
  repeat' (with_reducible first | assumption | (exact Frame.sub hm (by decide)) | apply frame_disputeCorpus | apply frame_failReq | apply frame_onReq | apply frame_shardLost | apply frame_tryShard | apply frame_whenS | (intro _) | refine Frame.ite ?_ ?_ | split | dsimp only | simp only [Frame.upd_iff, true_or, or_true])

theorem frame_takeMsg {m0 : Nat} {s0 : State} (rid : Nat) (m : TMsg) (s : State) (hm : 65792 ||| m0 = m0) (hs : Frame m0 s0 s) :
    Frame m0 s0 (takeMsg rid m s) := by
  unfold takeMsg
  repeat' (with_reducible first | assumption | (exact Frame.sub hm (by decide)) | apply frame_addCause | apply frame_onReq | apply frame_whenS | (intro _) | refine Frame.ite ?_ ?_ | split | dsimp only | simp only [Frame.upd_iff, true_or, or_true])

theorem frame_finishSearch {m0 : Nat} {s0 : State} (rid : Nat) (s : State) (hm : 72184 ||| m0 = m0) (hs : Frame m0 s0 s) :
    Frame m0 s0 (finishSearch rid s) := by
  unfold finishSearch
  repeat' (with_reducible first | assumption | (exact Frame.sub hm (by decide)) | apply frame_addCause | apply frame_bump | apply frame_finishReq | apply frame_whenS | (intro _) | refine Frame.ite ?_ ?_ | split | dsimp only | simp only [Frame.upd_iff, true_or, or_true])

theorem frame_sendOwner {m0 : Nat} {s0 : State} (rid : Nat) (post : Nat) (es : List Ent) (s : State) (hm : 1137144 ||| m0 = m0) (hs : Frame m0 s0 s) :
    Frame m0 s0 (sendOwner rid post es s) := by
  unfold sendOwner
  repeat' (with_reducible first | assumption | (exact Frame.sub hm (by decide)) | exact Frame.refl _ | apply frame_addCause | apply frame_addFinalists | apply frame_failReq | apply frame_onReq | (show ∀ _, _ → _; apply frame_schedSend) | (intro _) | refine Frame.snd (by assumption) ?_ | refine Frame.snd3 (by assumption) ?_ | refine Frame.snd4 (by assumption) ?_ | refine Frame.some1 (by assumption) ?_ | refine Frame.some2 (by assumption) ?_ | refine Frame.some3 (by assumption) ?_ | refine Frame.fst (by assumption) ?_ | refine Frame.ite ?_ ?_ | refine Frame.ite2 ?_ ?_ | refine Frame.ite3 ?_ ?_ | split | dsimp only | simp only [Frame.upd_iff, true_or, or_true])

theorem frame_sendFinalists {m0 : Nat} {s0 : State} (rid : Nat) (s : State) (hm : 1137144 ||| m0 = m0) (hs : Frame m0 s0 s) :
    Frame m0 s0 (sendFinalists rid s) := by
  unfold sendFinalists
  repeat' (with_reducible first | assumption | (exact Frame.sub hm (by decide)) | apply frame_foldS | apply frame_onReq | apply frame_sendOwner | (intro _) | refine Frame.ite ?_ ?_ | split | dsimp only | simp only [Frame.upd_iff, true_or, or_true])

theorem frame_markLate {m0 : Nat} {s0 : State} (rid : Nat) (s : State) (hm : 65792 ||| m0 = m0) (hs : Frame m0 s0 s) :
    Frame m0 s0 (markLate rid s) := by
  unfold markLate
  repeat' (with_reducible first | assumption | (exact Frame.sub hm (by decide)) | apply frame_addCause | apply frame_onReq | split | dsimp only | simp only [Frame.upd_iff, true_or, or_true])

theorem frame_searchStep {m0 : Nat} {s0 : State} (rid : Nat) (s : State) (hm : 1137144 ||| m0 = m0) (hs : Frame m0 s0 s) :
    Frame m0 s0 (searchStep rid s) := by
  unfold searchStep
  repeat' (with_reducible first | assumption | (exact Frame.sub hm (by decide)) | apply frame_finishSearch | apply frame_markLate | apply frame_onReq | apply frame_sendFinalists | apply frame_whenS | (intro _) | refine Frame.ite ?_ ?_ | split | dsimp only | simp only [Frame.upd_iff, true_or, or_true])

theorem frame_gatewaySearch {m0 : Nat} {s0 : State} (r : Req) (m : TMsg) (s : State) (hm : 1179128 ||| m0 = m0) (hs : Frame m0 s0 s) :
    Frame m0 s0 (gatewaySearch r m s) := by
  unfold gatewaySearch
  repeat' (with_reducible first | assumption | (exact Frame.sub hm (by decide)) | apply frame_failReq | apply frame_foldS | apply frame_onReq | apply frame_searchStep | apply frame_shardFailed | apply frame_takeMsg | (intro _) | refine Frame.ite ?_ ?_ | split | dsimp only | simp only [Frame.upd_iff, true_or, or_true])

end Sys2Proof.Machine
end

