-- ==== Sys2Proof/Laws/FrameParcel.lean ====
section
/-! SUPPORT. FrameParcel: each operation of Machine/Parcel.lean changes only the fields of `State`
that its mask names (`Frame`). -/
namespace Sys2Proof.Machine
set_option Elab.async false
set_option linter.all false

theorem frame_execPsubmit {m0 : Nat} {s0 : State} (th : Nat) (n : Nat) (addr : Nat) (s : State) (hm : 23032 ||| m0 = m0) (hs : Frame m0 s0 s) :
    ∀ z, (execPsubmit th n addr s) = .next z → Frame m0 s0 z := by
  intro z e
  unfold execPsubmit at e
  try dsimp only at e
  first | (split at e <;> first | (injection e with e; subst e)) | (injection e with e; subst e) | skip
  repeat' (with_reducible first | assumption | (exact Frame.sub hm (by decide)) | apply frame_onEngine | apply frame_psubmitReg | (intro _) | refine Frame.ite ?_ ?_ | split | dsimp only | simp only [Frame.upd_iff, true_or, or_true])

theorem frame_tierTimeout {m0 : Nat} {s0 : State} (pid : Nat) (s : State) (hm : 23032 ||| m0 = m0) (hs : Frame m0 s0 s) :
    Frame m0 s0 (tierTimeout pid s) := by
  unfold tierTimeout
  repeat' (with_reducible first | assumption | (exact Frame.sub hm (by decide)) | apply frame_bump | apply frame_failParcel | apply frame_issueAll | split | dsimp only | simp only [Frame.upd_iff, true_or, or_true])

end Sys2Proof.Machine
end

