-- ==== Sys2Proof/Laws/FrameMedia.lean ====
section
/-! SUPPORT. FrameMedia: each operation of Machine/Media.lean changes only the fields of `State`
that its mask names (`Frame`). -/
namespace Sys2Proof.Machine
set_option Elab.async false
set_option linter.all false

theorem frame_completeWrite {m0 : Nat} {s0 : State} (p : Parcel) (area : Nat) (parcel : Nat) (format : Nat) (b : Bytes) (s : State) (hm : 154104 ||| m0 = m0) (hs : Frame m0 s0 s) :
    Frame m0 s0 (completeWrite p area parcel format b s) := by
  unfold completeWrite
  repeat' (with_reducible first | assumption | (exact Frame.sub hm (by decide)) | apply frame_bufferWrite | apply frame_failParcel | apply frame_issueAll | apply frame_parcelDone | split | dsimp only | simp only [Frame.upd_iff, true_or, or_true])

theorem frame_flashWriteDone {m0 : Nat} {s0 : State} (pid : Nat) (s : State) (hm : 163320 ||| m0 = m0) (hs : Frame m0 s0 s) :
    Frame m0 s0 (flashWriteDone pid s) := by
  unfold flashWriteDone
  repeat' (with_reducible first | assumption | (exact Frame.sub hm (by decide)) | exact Frame.refl _ | apply frame_completeWrite | apply frame_failParcel | apply frame_issueAll | (show ∀ _, _ → _; apply frame_sourceBytes) | (intro _) | refine Frame.snd (by assumption) ?_ | refine Frame.snd3 (by assumption) ?_ | refine Frame.snd4 (by assumption) ?_ | refine Frame.some1 (by assumption) ?_ | refine Frame.some2 (by assumption) ?_ | refine Frame.some3 (by assumption) ?_ | refine Frame.fst (by assumption) ?_ | refine Frame.ite ?_ ?_ | refine Frame.ite2 ?_ ?_ | refine Frame.ite3 ?_ ?_ | split | dsimp only | simp only [Frame.upd_iff, true_or, or_true])

theorem frame_feedDiscard {m0 : Nat} {s0 : State} (p : Nat × Nat) (s : State) (hm : 203256 ||| m0 = m0) (hs : Frame m0 s0 s) :
    Frame m0 s0 (feedDiscard p s) := by
  unfold feedDiscard
  repeat' (with_reducible first | assumption | (exact Frame.sub hm (by decide)) | apply frame_finishReq | apply frame_onFlash | apply frame_onReq | split | dsimp only | simp only [Frame.upd_iff, true_or, or_true])

theorem frame_feedDiscards {m0 : Nat} {s0 : State} (s : State) (hm : 203256 ||| m0 = m0) (hs : Frame m0 s0 s) :
    Frame m0 s0 (feedDiscards s) := by
  unfold feedDiscards
  repeat' (with_reducible first | assumption | (exact Frame.sub hm (by decide)) | apply frame_feedDiscard | apply frame_foldS | (intro _) | refine Frame.ite ?_ ?_ | split | dsimp only | simp only [Frame.upd_iff, true_or, or_true])

theorem frame_startDiscard {m0 : Nat} {s0 : State} (rid : Nat) (lo : Nat) (n : Nat) (shred : Bool) (s : State) (hm : 203256 ||| m0 = m0) (hs : Frame m0 s0 s) :
    Frame m0 s0 (startDiscard rid lo n shred s) := by
  unfold startDiscard
  repeat' (with_reducible first | assumption | (exact Frame.sub hm (by decide)) | apply frame_copyBlock | apply frame_discard | apply frame_feedDiscard | apply frame_foldS | apply frame_onReq | (intro _) | refine Frame.ite ?_ ?_ | split | dsimp only | simp only [Frame.upd_iff, true_or, or_true])

theorem frame_boundaryDiscards {m0 : Nat} {s0 : State} (s : State) (hm : 203256 ||| m0 = m0) (hs : Frame m0 s0 s) :
    Frame m0 s0 (boundaryDiscards s) := by
  unfold boundaryDiscards
  repeat' (with_reducible first | assumption | (exact Frame.sub hm (by decide)) | apply frame_foldS | apply frame_startDiscard | (intro _) | refine Frame.ite ?_ ?_ | split | dsimp only | simp only [Frame.upd_iff, true_or, or_true])

theorem frame_execFlashDiscard {m0 : Nat} {s0 : State} (rid : Nat) (s : State) (hm : 256 ||| m0 = m0) (hs : Frame m0 s0 s) :
    ∀ z, (execFlashDiscard rid s) = .next z → Frame m0 s0 z := by
  intro z e
  unfold execFlashDiscard at e
  try dsimp only at e
  first | (split at e <;> first | (injection e with e; subst e)) | (injection e with e; subst e) | skip
  repeat' (with_reducible first | assumption | (exact Frame.sub hm (by decide)) | apply frame_onReq | split | dsimp only | simp only [Frame.upd_iff, true_or, or_true])

theorem frame_cleanse {m0 : Nat} {s0 : State} (blocks : List (Nat × Nat)) (s : State) (hm : 131200 ||| m0 = m0) (hs : Frame m0 s0 s) :
    Frame m0 s0 (cleanse blocks s) := by
  unfold cleanse
  repeat' (with_reducible first | assumption | (exact Frame.sub hm (by decide)) | apply frame_eraseChan | apply frame_foldS | apply frame_onFlash | (intro _) | refine Frame.ite ?_ ?_ | split | dsimp only | simp only [Frame.upd_iff, true_or, or_true])

theorem frame_shredEnd {m0 : Nat} {s0 : State} (rid : Nat) (lo : Nat) (n : Nat) (count : Nat) (s : State) (hm : 1251832 ||| m0 = m0) (hs : Frame m0 s0 s) :
    Frame m0 s0 (shredEnd rid lo n count s) := by
  unfold shredEnd
  repeat' (with_reducible first | assumption | (exact Frame.sub hm (by decide)) | apply frame_bumpBy | apply frame_cleanse | apply frame_draw | apply frame_finishReq | split | dsimp only | simp only [Frame.upd_iff, true_or, or_true])

theorem frame_shredReq {m0 : Nat} {s0 : State} (r : Req) (s : State) (hm : 1251832 ||| m0 = m0) (hs : Frame m0 s0 s) :
    Frame m0 s0 (shredReq r s) := by
  unfold shredReq
  repeat' (with_reducible first | assumption | (exact Frame.sub hm (by decide)) | apply frame_shredEnd | split | dsimp only | simp only [Frame.upd_iff, true_or, or_true])

theorem frame_jobProgrammed {m0 : Nat} {s0 : State} (j : Job) (s : State) (hm : 203256 ||| m0 = m0) (hs : Frame m0 s0 s) :
    Frame m0 s0 (jobProgrammed j s) := by
  unfold jobProgrammed
  repeat' (with_reducible first | assumption | (exact Frame.sub hm (by decide)) | apply frame_feedDiscards | apply frame_journalDone | apply frame_mapHost | apply frame_onFlash | apply frame_storeMoves | apply frame_unbuffer | split | dsimp only | simp only [Frame.upd_iff, true_or, or_true])

theorem frame_retarget {m0 : Nat} {s0 : State} (k : JobKind) (ms : List Move) (s : State) (hm : 135168 ||| m0 = m0) (hs : Frame m0 s0 s) :
    ∀ r, (retarget k ms s) = some r → Frame m0 s0 r.2.2 := by
  intro r e
  unfold retarget at e
  try dsimp only at e
  repeat' (split at e)
  all_goals first | contradiction | (injection e with e; subst e) | skip
  repeat' (with_reducible first | assumption | (exact Frame.sub hm (by decide)) | exact Frame.refl _ | (show ∀ _, _ → _; apply frame_takeRow) | (intro _) | refine Frame.snd (by assumption) ?_ | refine Frame.snd3 (by assumption) ?_ | refine Frame.snd4 (by assumption) ?_ | refine Frame.some1 (by assumption) ?_ | refine Frame.some2 (by assumption) ?_ | refine Frame.some3 (by assumption) ?_ | refine Frame.fst (by assumption) ?_ | refine Frame.ite ?_ ?_ | refine Frame.ite2 ?_ ?_ | refine Frame.ite3 ?_ ?_ | split | dsimp only | simp only [Frame.upd_iff, true_or, or_true])

theorem frame_jobFailed {m0 : Nat} {s0 : State} (j : Job) (s : State) (hm : 1195008 ||| m0 = m0) (hs : Frame m0 s0 s) :
    Frame m0 s0 (jobFailed j s) := by
  unfold jobFailed
  repeat' (with_reducible first | assumption | (exact Frame.sub hm (by decide)) | exact Frame.refl _ | apply frame_draw | apply frame_onFlash | (show ∀ _, _ → _; apply frame_retarget) | apply frame_retireBlock | apply frame_setOpen | (intro _) | refine Frame.snd (by assumption) ?_ | refine Frame.snd3 (by assumption) ?_ | refine Frame.snd4 (by assumption) ?_ | refine Frame.some1 (by assumption) ?_ | refine Frame.some2 (by assumption) ?_ | refine Frame.some3 (by assumption) ?_ | refine Frame.fst (by assumption) ?_ | refine Frame.ite ?_ ?_ | refine Frame.ite2 ?_ ?_ | refine Frame.ite3 ?_ ?_ | split | dsimp only | simp only [Frame.upd_iff, true_or, or_true])

theorem frame_execFlashProgramDone {m0 : Nat} {s0 : State} (id : Nat) (ok : Bool) (s : State) (hm : 1261048 ||| m0 = m0) (hs : Frame m0 s0 s) :
    ∀ z, (execFlashProgramDone id ok s) = .next z → Frame m0 s0 z := by
  intro z e
  unfold execFlashProgramDone at e
  try dsimp only at e
  first | (split at e <;> first | (injection e with e; subst e)) | (injection e with e; subst e) | skip
  repeat' (with_reducible first | assumption | (exact Frame.sub hm (by decide)) | apply frame_jobFailed | apply frame_jobProgrammed | split | dsimp only | simp only [Frame.upd_iff, true_or, or_true])

theorem frame_eraseOk {m0 : Nat} {s0 : State} (v : Nat) (c : Nat) (s : State) (hm : 146560 ||| m0 = m0) (hs : Frame m0 s0 s) :
    Frame m0 s0 (eraseOk v c s) := by
  unfold eraseOk
  repeat' (with_reducible first | assumption | (exact Frame.sub hm (by decide)) | apply frame_dirSet | apply frame_eraseChan | apply frame_onFlash | apply frame_onSblk | apply frame_retireBlock | split | dsimp only | simp only [Frame.upd_iff, true_or, or_true])

theorem frame_execFlashEraseDone {m0 : Nat} {s0 : State} (v : Nat) (c : Nat) (ok : Bool) (s : State) (hm : 146560 ||| m0 = m0) (hs : Frame m0 s0 s) :
    ∀ z, (execFlashEraseDone v c ok s) = .next z → Frame m0 s0 z := by
  intro z e
  unfold execFlashEraseDone at e
  try dsimp only at e
  first | (split at e <;> first | (injection e with e; subst e)) | (injection e with e; subst e) | skip
  repeat' (with_reducible first | assumption | (exact Frame.sub hm (by decide)) | apply frame_eraseOk | apply frame_retireBlock | split | dsimp only | simp only [Frame.upd_iff, true_or, or_true])

theorem frame_readGood {m0 : Nat} {s0 : State} (p : Parcel) (area : Nat) (parcel : Nat) (format : Nat) (c : Nat) (k : Nat) (level : Nat) (soft : Bool) (margin : Bool) (s : State) (hm : 228856 ||| m0 = m0) (hs : Frame m0 s0 s) :
    Frame m0 s0 (readGood p area parcel format c k level soft margin s) := by
  unfold readGood
  repeat' (with_reducible first | assumption | (exact Frame.sub hm (by decide)) | exact Frame.refl _ | apply frame_addCause | apply frame_bump | apply frame_failParcel | apply frame_issueAll | apply frame_noteRead | apply frame_noteRetry | apply frame_onParcel | apply frame_readStored | apply frame_whenS | (intro _) | refine Frame.snd (by assumption) ?_ | refine Frame.snd3 (by assumption) ?_ | refine Frame.snd4 (by assumption) ?_ | refine Frame.some1 (by assumption) ?_ | refine Frame.some2 (by assumption) ?_ | refine Frame.some3 (by assumption) ?_ | refine Frame.fst (by assumption) ?_ | refine Frame.ite ?_ ?_ | refine Frame.ite2 ?_ ?_ | refine Frame.ite3 ?_ ?_ | split | dsimp only | simp only [Frame.upd_iff, true_or, or_true])

theorem frame_readBad {m0 : Nat} {s0 : State} (p : Parcel) (c : Nat) (k : Nat) (nlp : Nat) (s : State) (hm : 32248 ||| m0 = m0) (hs : Frame m0 s0 s) :
    Frame m0 s0 (readBad p c k nlp s) := by
  unfold readBad
  repeat' (with_reducible first | assumption | (exact Frame.sub hm (by decide)) | apply frame_bump | apply frame_failParcel | apply frame_issueAll | apply frame_raise | split | dsimp only | simp only [Frame.upd_iff, true_or, or_true])

theorem frame_readMisdirected {m0 : Nat} {s0 : State} (p : Parcel) (c : Nat) (k : Nat) (nlp : Nat) (s : State) (hm : 32248 ||| m0 = m0) (hs : Frame m0 s0 s) :
    Frame m0 s0 (readMisdirected p c k nlp s) := by
  unfold readMisdirected
  repeat' (with_reducible first | assumption | (exact Frame.sub hm (by decide)) | apply frame_bump | apply frame_failParcel | apply frame_issueAll | apply frame_raise | split | dsimp only | simp only [Frame.upd_iff, true_or, or_true])

theorem frame_readOut {m0 : Nat} {s0 : State} (p : Parcel) (nlp : Nat) (s : State) (hm : 163320 ||| m0 = m0) (hs : Frame m0 s0 s) :
    Frame m0 s0 (readOut p nlp s) := by
  unfold readOut
  repeat' (with_reducible first | assumption | (exact Frame.sub hm (by decide)) | apply frame_bump | apply frame_failParcel | apply frame_issueAll | apply frame_setLost | split | dsimp only | simp only [Frame.upd_iff, true_or, or_true])

theorem frame_flashReadDone {m0 : Nat} {s0 : State} (pid : Nat) (r : ReadOutcome) (s : State) (hm : 228856 ||| m0 = m0) (hs : Frame m0 s0 s) :
    Frame m0 s0 (flashReadDone pid r s) := by
  unfold flashReadDone
  repeat' (with_reducible first | assumption | (exact Frame.sub hm (by decide)) | apply frame_readBad | apply frame_readGood | apply frame_readMisdirected | apply frame_readOut | split | dsimp only | simp only [Frame.upd_iff, true_or, or_true])

theorem frame_execCheckpointDone {m0 : Nat} {s0 : State} (s : State) (hm : 131072 ||| m0 = m0) (hs : Frame m0 s0 s) :
    ∀ z, (execCheckpointDone s) = .next z → Frame m0 s0 z := by
  intro z e
  unfold execCheckpointDone at e
  try dsimp only at e
  first | (split at e <;> first | (injection e with e; subst e)) | (injection e with e; subst e) | skip
  repeat' (with_reducible first | assumption | (exact Frame.sub hm (by decide)) | apply frame_onFlash | split | dsimp only | simp only [Frame.upd_iff, true_or, or_true])

theorem frame_execScrub {m0 : Nat} {s0 : State} (s : State) (hm : 131200 ||| m0 = m0) (hs : Frame m0 s0 s) :
    ∀ z, (execScrub s) = .next z → Frame m0 s0 z := by
  intro z e
  unfold execScrub at e
  try dsimp only at e
  first | (split at e <;> first | (injection e with e; subst e)) | (injection e with e; subst e) | skip
  repeat' (with_reducible first | assumption | (exact Frame.sub hm (by decide)) | apply frame_foldS | apply frame_noteRead | apply frame_onFlash | (intro _) | refine Frame.ite ?_ ?_ | split | dsimp only | simp only [Frame.upd_iff, true_or, or_true])

theorem frame_execHeatHalving {m0 : Nat} {s0 : State} (s : State) (hm : 131072 ||| m0 = m0) (hs : Frame m0 s0 s) :
    ∀ z, (execHeatHalving s) = .next z → Frame m0 s0 z := by
  intro z e
  unfold execHeatHalving at e
  try dsimp only at e
  first | (split at e <;> first | (injection e with e; subst e)) | (injection e with e; subst e) | skip
  repeat' (with_reducible first | assumption | (exact Frame.sub hm (by decide)) | apply frame_onFlash | split | dsimp only | simp only [Frame.upd_iff, true_or, or_true])

theorem frame_reportChan {m0 : Nat} {s0 : State} (good : Bool) (p : Nat × ChanFound) (s : State) (hm : 146432 ||| m0 = m0) (hs : Frame m0 s0 s) :
    Frame m0 s0 (reportChan good p s) := by
  unfold reportChan
  repeat' (with_reducible first | assumption | (exact Frame.sub hm (by decide)) | apply frame_dirSet | apply frame_onFlash | apply frame_raise | split | dsimp only | simp only [Frame.upd_iff, true_or, or_true])

theorem frame_execFlashDiscoveryDone {m0 : Nat} {s0 : State} (chans : List ChanFound) (s : State) (hm : 146432 ||| m0 = m0) (hs : Frame m0 s0 s) :
    ∀ z, (execFlashDiscoveryDone chans s) = .next z → Frame m0 s0 z := by
  intro z e
  unfold execFlashDiscoveryDone at e
  try dsimp only at e
  first | (split at e <;> first | (injection e with e; subst e)) | (injection e with e; subst e) | skip
  repeat' (with_reducible first | assumption | (exact Frame.sub hm (by decide)) | apply frame_dirSet | apply frame_foldS | apply frame_onFlash | apply frame_reportChan | apply frame_showReserve | (intro _) | refine Frame.ite ?_ ?_ | split | dsimp only | simp only [Frame.upd_iff, true_or, or_true])

theorem frame_recoverMap {m0 : Nat} {s0 : State} (s : State) (hm : 146432 ||| m0 = m0) (hs : Frame m0 s0 s) :
    Frame m0 s0 (recoverMap s) := by
  unfold recoverMap
  repeat' (with_reducible first | assumption | (exact Frame.sub hm (by decide)) | apply frame_dirSet | apply frame_foldS | apply frame_onFlash | apply frame_raise | apply frame_setLost | (intro _) | refine Frame.ite ?_ ?_ | split | dsimp only | simp only [Frame.upd_iff, true_or, or_true])

theorem frame_execRecoveryDone {m0 : Nat} {s0 : State} (s : State) (hm : 146432 ||| m0 = m0) (hs : Frame m0 s0 s) :
    ∀ z, (execRecoveryDone s) = .next z → Frame m0 s0 z := by
  intro z e
  unfold execRecoveryDone at e
  try dsimp only at e
  first | (split at e <;> first | (injection e with e; subst e)) | (injection e with e; subst e) | skip
  repeat' (with_reducible first | assumption | (exact Frame.sub hm (by decide)) | apply frame_loadAreas | apply frame_onFlash | apply frame_recoverMap | split | dsimp only | simp only [Frame.upd_iff, true_or, or_true])

end Sys2Proof.Machine
end

