-- ==== Sys2Proof/Laws/FrameUpdOps.lean ====
section
/-! SUPPORT. FrameUpdOps: each operation of Machine/UpdOps.lean changes only the fields of `State`
that its mask names (`Frame`). -/
namespace Sys2Proof.Machine
set_option Elab.async false
set_option linter.all false

theorem frame_sendAnswer {m0 : Nat} {s0 : State} (gate : Nat) (tag : Nat) (m : TMsg) (s : State) (hm : 1179128 ||| m0 = m0) (hs : Frame m0 s0 s) :
    Frame m0 s0 (sendAnswer gate tag m s) := by
  unfold sendAnswer
  repeat' (with_reducible first | assumption | (exact Frame.sub hm (by decide)) | apply frame_gatewaySearch | apply frame_optS | apply frame_treeInput | (intro _) | refine Frame.ite ?_ ?_ | split | dsimp only | simp only [Frame.upd_iff, true_or, or_true])

theorem frame_partAnswered {m0 : Nat} {s0 : State} (p : Part) (m : TMsg) (s : State) (hm : 1179128 ||| m0 = m0) (hs : Frame m0 s0 s) :
    Frame m0 s0 (partAnswered p m s) := by
  unfold partAnswered
  repeat' (with_reducible first | assumption | (exact Frame.sub hm (by decide)) | apply frame_dropPart | apply frame_onPart | apply frame_sendAnswer | split | dsimp only | simp only [Frame.upd_iff, true_or, or_true])

theorem frame_runPart {m0 : Nat} {s0 : State} (p : Part) (s : State) (hm : 1179128 ||| m0 = m0) (hs : Frame m0 s0 s) :
    Frame m0 s0 (runPart p s) := by
  unfold runPart
  repeat' (with_reducible first | assumption | (exact Frame.sub hm (by decide)) | apply frame_ownerAnswer | apply frame_partAnswered | apply frame_shardAnswer | split | dsimp only | simp only [Frame.upd_iff, true_or, or_true])

theorem frame_driveParts {m0 : Nat} {s0 : State} (x0 : Nat) (x1 : State) (hm : 1179128 ||| m0 = m0) (hx1 : Frame m0 s0 x1) :
    Frame m0 s0 (driveParts x0 x1) := by
  induction x0 generalizing x1 with
  | zero =>
    unfold driveParts
    all_goals try dsimp only
    repeat' (with_reducible first | assumption | (exact Frame.sub hm (by decide)) | exact Frame.refl _ | apply frame_runPart | (intro _) | refine Frame.snd (by assumption) ?_ | refine Frame.snd3 (by assumption) ?_ | refine Frame.snd4 (by assumption) ?_ | refine Frame.some1 (by assumption) ?_ | refine Frame.some2 (by assumption) ?_ | refine Frame.some3 (by assumption) ?_ | refine Frame.fst (by assumption) ?_ | refine Frame.ite ?_ ?_ | refine Frame.ite2 ?_ ?_ | refine Frame.ite3 ?_ ?_ | split | dsimp only | simp only [Frame.upd_iff, true_or, or_true])
  | succ n ih =>
    unfold driveParts
    all_goals try dsimp only
    repeat' (with_reducible first | assumption | (exact Frame.sub hm (by decide)) | exact Frame.refl _ | apply frame_runPart | with_reducible apply ih | (intro _) | refine Frame.snd (by assumption) ?_ | refine Frame.snd3 (by assumption) ?_ | refine Frame.snd4 (by assumption) ?_ | refine Frame.some1 (by assumption) ?_ | refine Frame.some2 (by assumption) ?_ | refine Frame.some3 (by assumption) ?_ | refine Frame.fst (by assumption) ?_ | refine Frame.ite ?_ ?_ | refine Frame.ite2 ?_ ?_ | refine Frame.ite3 ?_ ?_ | split | dsimp only | simp only [Frame.upd_iff, true_or, or_true])

theorem frame_moveSearch {m0 : Nat} {s0 : State} (s : State) (hm : 1179128 ||| m0 = m0) (hs : Frame m0 s0 s) :
    Frame m0 s0 (moveSearch s) := by
  unfold moveSearch
  repeat' (with_reducible first | assumption | (exact Frame.sub hm (by decide)) | apply frame_driveParts | apply frame_pruneParts | apply frame_startPass | split | dsimp only | simp only [Frame.upd_iff, true_or, or_true])

theorem frame_passStackDone {m0 : Nat} {s0 : State} (k : Nat) (s : State) (hm : 1179128 ||| m0 = m0) (hs : Frame m0 s0 s) :
    Frame m0 s0 (passStackDone k s) := by
  have b16 := Frame.bit hm (k := 16) (by decide)
  unfold passStackDone
  repeat' (with_reducible first | assumption | (exact Frame.sub hm (by decide)) | apply frame_bump | apply frame_moveSearch | apply frame_patchDone | apply frame_sweepDone | apply frame_whenS | (intro _) | refine Frame.ite ?_ ?_ | split | dsimp only | simp only [Frame.upd_iff, b16, true_or, or_true])

theorem frame_finishUpdate {m0 : Nat} {s0 : State} (rid : Nat) (s : State) (hm : 6648 ||| m0 = m0) (hs : Frame m0 s0 s) :
    Frame m0 s0 (finishUpdate rid s) := by
  unfold finishUpdate
  repeat' (with_reducible first | assumption | (exact Frame.sub hm (by decide)) | apply frame_endReq | split | dsimp only | simp only [Frame.upd_iff, true_or, or_true])

theorem frame_itemDone {m0 : Nat} {s0 : State} (rid : Nat) (i : Nat) (st : Nat) (s : State) (hm : 48632 ||| m0 = m0) (hs : Frame m0 s0 s) :
    Frame m0 s0 (itemDone rid i st s) := by
  unfold itemDone
  repeat' (with_reducible first | assumption | (exact Frame.sub hm (by decide)) | apply frame_disputeCorpus | apply frame_failReq | apply frame_finishUpdate | apply frame_onReq | apply frame_whenS | (intro _) | refine Frame.ite ?_ ?_ | split | dsimp only | simp only [Frame.upd_iff, true_or, or_true])

theorem frame_answerItem {m0 : Nat} {s0 : State} (p : Part) (st : Nat) (s : State) (hm : 1179128 ||| m0 = m0) (hs : Frame m0 s0 s) :
    Frame m0 s0 (answerItem p st s) := by
  unfold answerItem
  repeat' (with_reducible first | assumption | (exact Frame.sub hm (by decide)) | exact Frame.refl _ | apply frame_dropPart | apply frame_itemDone | (show ∀ _, _ → _; apply frame_schedSend) | (intro _) | refine Frame.snd (by assumption) ?_ | refine Frame.snd3 (by assumption) ?_ | refine Frame.snd4 (by assumption) ?_ | refine Frame.some1 (by assumption) ?_ | refine Frame.some2 (by assumption) ?_ | refine Frame.some3 (by assumption) ?_ | refine Frame.fst (by assumption) ?_ | refine Frame.getD ?_ ?_ | refine Frame.elim ?_ ?_ | refine Frame.elim2 ?_ ?_ | refine Frame.foldl ?_ ?_ | refine Frame.foldl2 ?_ ?_ | refine Frame.foldl3 ?_ ?_ | refine Frame.ite ?_ ?_ | refine Frame.ite2 ?_ ?_ | refine Frame.ite3 ?_ ?_ | split | dsimp only | simp only [Frame.upd_iff, true_or, or_true])

theorem frame_growCons {m0 : Nat} {s0 : State} (t : Nat) (c : Nat) (p : Nat) (x3 : Nat) (x4 : State) (hm : 1114112 ||| m0 = m0) (hx4 : Frame m0 s0 x4) :
    Frame m0 s0 (growCons t c p x3 x4).2 := by
  induction x3 generalizing t c p x4 with
  | zero =>
    unfold growCons
    all_goals try dsimp only
    repeat' (with_reducible first | assumption | (exact Frame.sub hm (by decide)) | exact Frame.refl _ | (show ∀ _, _ → _; apply frame_allocRun) | apply frame_onCorpus | (intro _) | refine Frame.snd (by assumption) ?_ | refine Frame.snd3 (by assumption) ?_ | refine Frame.snd4 (by assumption) ?_ | refine Frame.some1 (by assumption) ?_ | refine Frame.some2 (by assumption) ?_ | refine Frame.some3 (by assumption) ?_ | refine Frame.fst (by assumption) ?_ | refine Frame.ite ?_ ?_ | refine Frame.ite2 ?_ ?_ | refine Frame.ite3 ?_ ?_ | split | dsimp only | simp only [Frame.upd_iff, true_or, or_true])
  | succ n ih =>
    unfold growCons
    all_goals try dsimp only
    repeat' (with_reducible first | assumption | (exact Frame.sub hm (by decide)) | exact Frame.refl _ | (show ∀ _, _ → _; apply frame_allocRun) | apply frame_onCorpus | with_reducible apply ih | (intro _) | refine Frame.snd (by assumption) ?_ | refine Frame.snd3 (by assumption) ?_ | refine Frame.snd4 (by assumption) ?_ | refine Frame.some1 (by assumption) ?_ | refine Frame.some2 (by assumption) ?_ | refine Frame.some3 (by assumption) ?_ | refine Frame.fst (by assumption) ?_ | refine Frame.ite ?_ ?_ | refine Frame.ite2 ?_ ?_ | refine Frame.ite3 ?_ ?_ | split | dsimp only | simp only [Frame.upd_iff, true_or, or_true])

theorem frame_writeVector {m0 : Nat} {s0 : State} (id : Nat) (c : Corp) (n : Nat) (s : State) (hm : 86080 ||| m0 = m0) (hs : Frame m0 s0 s) :
    Frame m0 s0 (writeVector id c n s) := by
  unfold writeVector
  repeat' (with_reducible first | assumption | (exact Frame.sub hm (by decide)) | apply frame_foldS | apply frame_giveBytes | apply frame_issueParcel | apply frame_onPart | (intro _) | refine Frame.ite ?_ ?_ | split | dsimp only | simp only [Frame.upd_iff, true_or, or_true])

theorem frame_claimItem {m0 : Nat} {s0 : State} (p : Part) (c : Corp) (key : Nat) (z : CSlot) (s : State) (hm : 86080 ||| m0 = m0) (hs : Frame m0 s0 s) :
    Frame m0 s0 (claimItem p c key z s) := by
  unfold claimItem
  repeat' (with_reducible first | assumption | (exact Frame.sub hm (by decide)) | apply frame_onCorpus | apply frame_optS | apply frame_writeVector | (intro _) | refine Frame.ite ?_ ?_ | split | dsimp only | simp only [Frame.upd_iff, true_or, or_true])

theorem frame_stageUpsert {m0 : Nat} {s0 : State} (p : Part) (c : Corp) (s : State) (hm : 1134656 ||| m0 = m0) (hs : Frame m0 s0 s) :
    Frame m0 s0 (stageUpsert p c s).2 := by
  unfold stageUpsert
  repeat' (with_reducible first | assumption | (exact Frame.sub hm (by decide)) | exact Frame.refl _ | apply frame_bump | apply frame_claimItem | apply frame_corpBump | apply frame_growCons | (intro _) | refine Frame.snd (by assumption) ?_ | refine Frame.snd3 (by assumption) ?_ | refine Frame.snd4 (by assumption) ?_ | refine Frame.some1 (by assumption) ?_ | refine Frame.some2 (by assumption) ?_ | refine Frame.some3 (by assumption) ?_ | refine Frame.fst (by assumption) ?_ | refine Frame.ite ?_ ?_ | refine Frame.ite2 ?_ ?_ | refine Frame.ite3 ?_ ?_ | split | dsimp only | simp only [Frame.upd_iff, true_or, or_true])

theorem frame_stageDelete {m0 : Nat} {s0 : State} (p : Part) (c : Corp) (s : State) (hm : 65536 ||| m0 = m0) (hs : Frame m0 s0 s) :
    Frame m0 s0 (stageDelete p c s) := by
  unfold stageDelete
  repeat' (with_reducible first | assumption | (exact Frame.sub hm (by decide)) | apply frame_onCorpus | split | dsimp only | simp only [Frame.upd_iff, true_or, or_true])

theorem frame_stageItem {m0 : Nat} {s0 : State} (id : Nat) (s : State) (hm : 1134656 ||| m0 = m0) (hs : Frame m0 s0 s) :
    Frame m0 s0 (stageItem id s).2 := by
  unfold stageItem
  repeat' (with_reducible first | assumption | (exact Frame.sub hm (by decide)) | apply frame_stageDelete | apply frame_stageUpsert | split | dsimp only | simp only [Frame.upd_iff, true_or, or_true])

theorem frame_discardVec {m0 : Nat} {s0 : State} (t : Nat) (c : Nat) (n : Nat) (s : State) (hm : 200832 ||| m0 = m0) (hs : Frame m0 s0 s) :
    Frame m0 s0 (discardVec t c n s) := by
  unfold discardVec
  repeat' (with_reducible first | assumption | (exact Frame.sub hm (by decide)) | apply frame_discard | apply frame_foldS | apply frame_onCorpus | apply frame_optS | (intro _) | refine Frame.ite ?_ ?_ | split | dsimp only | simp only [Frame.upd_iff, true_or, or_true])

theorem frame_unstage {m0 : Nat} {s0 : State} (p : Part) (s : State) (hm : 200832 ||| m0 = m0) (hs : Frame m0 s0 s) :
    Frame m0 s0 (unstage p s) := by
  unfold unstage
  repeat' (with_reducible first | assumption | (exact Frame.sub hm (by decide)) | apply frame_discardVec | apply frame_foldS | apply frame_onCorpus | (intro _) | refine Frame.ite ?_ ?_ | split | dsimp only | simp only [Frame.upd_iff, true_or, or_true])

theorem frame_acceptItems {m0 : Nat} {s0 : State} (p : Part) (s : State) (hm : 65536 ||| m0 = m0) (hs : Frame m0 s0 s) :
    Frame m0 s0 (acceptItems p s) := by
  unfold acceptItems
  repeat' (with_reducible first | assumption | (exact Frame.sub hm (by decide)) | apply frame_onCorpus | split | dsimp only | simp only [Frame.upd_iff, true_or, or_true])

theorem frame_toReplica {m0 : Nat} {s0 : State} (p : Part) (op : Nat) (post : Nat) (inl : Bytes) (data : Bytes) (s : State) (hm : 1064960 ||| m0 = m0) (hs : Frame m0 s0 s) :
    ∀ r, (toReplica p op post inl data s) = some r → Frame m0 s0 r := by
  intro r e
  unfold toReplica at e
  try dsimp only at e
  repeat' (split at e)
  all_goals first | contradiction | (injection e with e; subst e) | skip
  repeat' (with_reducible first | assumption | (exact Frame.sub hm (by decide)) | exact Frame.refl _ | (show ∀ _, _ → _; apply frame_schedSend) | (intro _) | refine Frame.snd (by assumption) ?_ | refine Frame.snd3 (by assumption) ?_ | refine Frame.snd4 (by assumption) ?_ | refine Frame.some1 (by assumption) ?_ | refine Frame.some2 (by assumption) ?_ | refine Frame.some3 (by assumption) ?_ | refine Frame.fst (by assumption) ?_ | refine Frame.ite ?_ ?_ | refine Frame.ite2 ?_ ?_ | refine Frame.ite3 ?_ ?_ | split | dsimp only | simp only [Frame.upd_iff, true_or, or_true])

theorem frame_refuseItem {m0 : Nat} {s0 : State} (p : Part) (st : Nat) (s : State) (hm : 1310200 ||| m0 = m0) (hs : Frame m0 s0 s) :
    Frame m0 s0 (refuseItem p st s) := by
  unfold refuseItem
  repeat' (with_reducible first | assumption | (exact Frame.sub hm (by decide)) | exact Frame.refl _ | apply frame_answerItem | apply frame_foldS | (show ∀ _, _ → _; apply frame_toReplica) | apply frame_unstage | (intro _) | refine Frame.snd (by assumption) ?_ | refine Frame.snd3 (by assumption) ?_ | refine Frame.snd4 (by assumption) ?_ | refine Frame.some1 (by assumption) ?_ | refine Frame.some2 (by assumption) ?_ | refine Frame.some3 (by assumption) ?_ | refine Frame.fst (by assumption) ?_ | refine Frame.getD ?_ ?_ | refine Frame.elim ?_ ?_ | refine Frame.elim2 ?_ ?_ | refine Frame.foldl ?_ ?_ | refine Frame.foldl2 ?_ ?_ | refine Frame.foldl3 ?_ ?_ | refine Frame.ite ?_ ?_ | refine Frame.ite2 ?_ ?_ | refine Frame.ite3 ?_ ?_ | split | dsimp only | simp only [Frame.upd_iff, true_or, or_true])

theorem frame_ackItem {m0 : Nat} {s0 : State} (id : Nat) (post : Nat) (st : Nat) (s : State) (hm : 1310200 ||| m0 = m0) (hs : Frame m0 s0 s) :
    Frame m0 s0 (ackItem id post st s) := by
  unfold ackItem
  repeat' (with_reducible first | assumption | (exact Frame.sub hm (by decide)) | apply frame_answerItem | apply frame_onPart | apply frame_refuseItem | split | dsimp only | simp only [Frame.upd_iff, true_or, or_true])

theorem frame_ownStaged {m0 : Nat} {s0 : State} (p : Part) (st : Nat) (s : State) (hm : 1310200 ||| m0 = m0) (hs : Frame m0 s0 s) :
    Frame m0 s0 (ownStaged p st s) := by
  unfold ownStaged
  repeat' (with_reducible first | assumption | (exact Frame.sub hm (by decide)) | exact Frame.refl _ | apply frame_ackItem | apply frame_dropPart | (show ∀ _, _ → _; apply frame_schedSend) | (intro _) | refine Frame.snd (by assumption) ?_ | refine Frame.snd3 (by assumption) ?_ | refine Frame.snd4 (by assumption) ?_ | refine Frame.some1 (by assumption) ?_ | refine Frame.some2 (by assumption) ?_ | refine Frame.some3 (by assumption) ?_ | refine Frame.fst (by assumption) ?_ | refine Frame.getD ?_ ?_ | refine Frame.elim ?_ ?_ | refine Frame.elim2 ?_ ?_ | refine Frame.foldl ?_ ?_ | refine Frame.foldl2 ?_ ?_ | refine Frame.foldl3 ?_ ?_ | refine Frame.ite ?_ ?_ | refine Frame.ite2 ?_ ?_ | refine Frame.ite3 ?_ ?_ | split | dsimp only | simp only [Frame.upd_iff, true_or, or_true])

theorem frame_stageHere {m0 : Nat} {s0 : State} (id : Nat) (s : State) (hm : 1310200 ||| m0 = m0) (hs : Frame m0 s0 s) :
    Frame m0 s0 (stageHere id s) := by
  unfold stageHere
  repeat' (with_reducible first | assumption | (exact Frame.sub hm (by decide)) | apply frame_ownStaged | apply frame_stageItem | split | dsimp only | simp only [Frame.upd_iff, true_or, or_true])

theorem frame_orderItem {m0 : Nat} {s0 : State} (p : Part) (s : State) (hm : 1310200 ||| m0 = m0) (hs : Frame m0 s0 s) :
    Frame m0 s0 (orderItem p s) := by
  unfold orderItem
  repeat' (with_reducible first | assumption | (exact Frame.sub hm (by decide)) | exact Frame.refl _ | apply frame_ackItem | apply frame_answerItem | apply frame_disputeCorpus | apply frame_foldS | apply frame_newPart | apply frame_stageHere | (show ∀ _, _ → _; apply frame_toReplica) | (intro _) | refine Frame.snd (by assumption) ?_ | refine Frame.snd3 (by assumption) ?_ | refine Frame.snd4 (by assumption) ?_ | refine Frame.some1 (by assumption) ?_ | refine Frame.some2 (by assumption) ?_ | refine Frame.some3 (by assumption) ?_ | refine Frame.fst (by assumption) ?_ | refine Frame.ite ?_ ?_ | refine Frame.ite2 ?_ ?_ | refine Frame.ite3 ?_ ?_ | split | dsimp only | simp only [Frame.upd_iff, true_or, or_true])

theorem frame_routeItem {m0 : Nat} {s0 : State} (rid : Nat) (i : Nat) (s : State) (hm : 1310200 ||| m0 = m0) (hs : Frame m0 s0 s) :
    Frame m0 s0 (routeItem rid i s) := by
  unfold routeItem
  repeat' (with_reducible first | assumption | (exact Frame.sub hm (by decide)) | exact Frame.refl _ | apply frame_bump | apply frame_itemDone | apply frame_orderItem | (show ∀ _, _ → _; apply frame_schedSend) | (intro _) | refine Frame.snd (by assumption) ?_ | refine Frame.snd3 (by assumption) ?_ | refine Frame.snd4 (by assumption) ?_ | refine Frame.some1 (by assumption) ?_ | refine Frame.some2 (by assumption) ?_ | refine Frame.some3 (by assumption) ?_ | refine Frame.fst (by assumption) ?_ | refine Frame.ite ?_ ?_ | refine Frame.ite2 ?_ ?_ | refine Frame.ite3 ?_ ?_ | split | dsimp only | simp only [Frame.upd_iff, true_or, or_true])

theorem frame_acceptItem {m0 : Nat} {s0 : State} (p : Part) (s : State) (hm : 1310200 ||| m0 = m0) (hs : Frame m0 s0 s) :
    Frame m0 s0 (acceptItem p s) := by
  unfold acceptItem
  repeat' (with_reducible first | assumption | (exact Frame.sub hm (by decide)) | exact Frame.refl _ | apply frame_acceptItems | apply frame_ackItem | apply frame_answerItem | apply frame_foldS | apply frame_onPart | (show ∀ _, _ → _; apply frame_toReplica) | (intro _) | refine Frame.snd (by assumption) ?_ | refine Frame.snd3 (by assumption) ?_ | refine Frame.snd4 (by assumption) ?_ | refine Frame.some1 (by assumption) ?_ | refine Frame.some2 (by assumption) ?_ | refine Frame.some3 (by assumption) ?_ | refine Frame.fst (by assumption) ?_ | refine Frame.getD ?_ ?_ | refine Frame.elim ?_ ?_ | refine Frame.elim2 ?_ ?_ | refine Frame.foldl ?_ ?_ | refine Frame.foldl2 ?_ ?_ | refine Frame.foldl3 ?_ ?_ | refine Frame.ite ?_ ?_ | refine Frame.ite2 ?_ ?_ | refine Frame.ite3 ?_ ?_ | split | dsimp only | simp only [Frame.upd_iff, true_or, or_true])

theorem frame_touchSearches {m0 : Nat} {s0 : State} (t : Nat) (c : Nat) (s : State) (hm : 65792 ||| m0 = m0) (hs : Frame m0 s0 s) :
    Frame m0 s0 (touchSearches t c s) := by
  have b16 := Frame.bit hm (k := 16) (by decide)
  unfold touchSearches
  repeat' (with_reducible first | assumption | (exact Frame.sub hm (by decide)) | apply frame_addCause | apply frame_foldS | (intro _) | refine Frame.ite ?_ ?_ | split | dsimp only | simp only [Frame.upd_iff, b16, true_or, or_true])

theorem frame_supersede {m0 : Nat} {s0 : State} (t : Nat) (c : Nat) (key : Nat) (s : State) (hm : 65536 ||| m0 = m0) (hs : Frame m0 s0 s) :
    Frame m0 s0 (supersede t c key s) := by
  have b16 := Frame.bit hm (k := 16) (by decide)
  unfold supersede
  repeat' (with_reducible first | assumption | (exact Frame.sub hm (by decide)) | split | dsimp only | simp only [Frame.upd_iff, b16, true_or, or_true])

theorem frame_shredVec {m0 : Nat} {s0 : State} (id : Nat) (t : Nat) (c : Nat) (n : Nat) (s : State) (hm : 200832 ||| m0 = m0) (hs : Frame m0 s0 s) :
    Frame m0 s0 (shredVec id t c n s) := by
  unfold shredVec
  repeat' (with_reducible first | assumption | (exact Frame.sub hm (by decide)) | apply frame_bufferWrite | apply frame_copyBlock | apply frame_discard | apply frame_foldS | apply frame_onCorpus | apply frame_onPart | (intro _) | refine Frame.ite ?_ ?_ | split | dsimp only | simp only [Frame.upd_iff, true_or, or_true])

theorem frame_applyItem {m0 : Nat} {s0 : State} (t : Nat) (c : Nat) (it : CItem) (s : State) (hm : 201096 ||| m0 = m0) (hs : Frame m0 s0 s) :
    Frame m0 s0 (applyItem t c it s) := by
  unfold applyItem
  repeat' (with_reducible first | assumption | (exact Frame.sub hm (by decide)) | apply frame_bump | apply frame_clearSlot | apply frame_discardVec | apply frame_onCorpus | apply frame_optS | apply frame_shredVec | apply frame_storeSlot | apply frame_supersede | apply frame_touchSearches | (intro _) | refine Frame.ite ?_ ?_ | split | dsimp only | simp only [Frame.upd_iff, true_or, or_true])

theorem frame_applyCorpus {m0 : Nat} {s0 : State} (c : Corp) (s : State) (hm : 201096 ||| m0 = m0) (hs : Frame m0 s0 s) :
    Frame m0 s0 (applyCorpus c s) := by
  unfold applyCorpus
  repeat' (with_reducible first | assumption | (exact Frame.sub hm (by decide)) | apply frame_applyItem | apply frame_foldS | apply frame_onCorpus | apply frame_showCorpus | (intro _) | refine Frame.ite ?_ ?_ | split | dsimp only | simp only [Frame.upd_iff, true_or, or_true])

theorem frame_applyUpdates {m0 : Nat} {s0 : State} (s : State) (hm : 201096 ||| m0 = m0) (hs : Frame m0 s0 s) :
    Frame m0 s0 (applyUpdates s) := by
  unfold applyUpdates
  repeat' (with_reducible first | assumption | (exact Frame.sub hm (by decide)) | apply frame_applyCorpus | apply frame_foldS | (intro _) | refine Frame.ite ?_ ?_ | split | dsimp only | simp only [Frame.upd_iff, true_or, or_true])

theorem frame_partShredded {m0 : Nat} {s0 : State} (p : Part) (s : State) (hm : 1310200 ||| m0 = m0) (hs : Frame m0 s0 s) :
    Frame m0 s0 (partShredded p s) := by
  unfold partShredded
  repeat' (with_reducible first | assumption | (exact Frame.sub hm (by decide)) | exact Frame.refl _ | apply frame_ackItem | apply frame_dropPart | (show ∀ _, _ → _; apply frame_schedSend) | (intro _) | refine Frame.snd (by assumption) ?_ | refine Frame.snd3 (by assumption) ?_ | refine Frame.snd4 (by assumption) ?_ | refine Frame.some1 (by assumption) ?_ | refine Frame.some2 (by assumption) ?_ | refine Frame.some3 (by assumption) ?_ | refine Frame.fst (by assumption) ?_ | refine Frame.getD ?_ ?_ | refine Frame.elim ?_ ?_ | refine Frame.elim2 ?_ ?_ | refine Frame.foldl ?_ ?_ | refine Frame.foldl2 ?_ ?_ | refine Frame.foldl3 ?_ ?_ | refine Frame.ite ?_ ?_ | refine Frame.ite2 ?_ ?_ | refine Frame.ite3 ?_ ?_ | split | dsimp only | simp only [Frame.upd_iff, true_or, or_true])

theorem frame_shredPart {m0 : Nat} {s0 : State} (p : Part) (s : State) (hm : 1310200 ||| m0 = m0) (hs : Frame m0 s0 s) :
    Frame m0 s0 (shredPart p s) := by
  unfold shredPart
  repeat' (with_reducible first | assumption | (exact Frame.sub hm (by decide)) | apply frame_bumpBy | apply frame_cleanse | apply frame_draw | apply frame_partShredded | split | dsimp only | simp only [Frame.upd_iff, true_or, or_true])

end Sys2Proof.Machine
end

