-- ==== Sys2Proof/Laws/FrameSearch.lean ====
section
/-! SUPPORT. FrameSearch: each operation of Machine/Search.lean changes only the fields of `State`
that its mask names (`Frame`). -/
namespace Sys2Proof.Machine
set_option Elab.async false
set_option linter.all false

theorem frame_onAdmitted {m0 : Nat} {s0 : State} (rid : Nat) (type : Nat) (f : Req → State → State) (s : State) (hm : 6648 ||| m0 = m0) (hf : ∀ y0 u, Frame m0 s0 u → Frame m0 s0 (f y0 u)) (hs : Frame m0 s0 s) :
    Frame m0 s0 (onAdmitted rid type f s) := by
  unfold onAdmitted
  repeat' (with_reducible first | assumption | (exact Frame.sub hm (by decide)) | apply frame_badReq | apply hf | split | dsimp only | simp only [Frame.upd_iff, true_or, or_true])

theorem frame_onCorpusReq {m0 : Nat} {s0 : State} (rid : Nat) (type : Nat) (f : Req → Corp → State → State) (s : State) (hm : 6648 ||| m0 = m0) (hf : ∀ y0 y1 u, Frame m0 s0 u → Frame m0 s0 (f y0 y1 u)) (hs : Frame m0 s0 s) :
    Frame m0 s0 (onCorpusReq rid type f s) := by
  unfold onCorpusReq
  repeat' (with_reducible first | assumption | (exact Frame.sub hm (by decide)) | apply frame_failReq | apply frame_onAdmitted | apply hf | (intro _) | refine Frame.ite ?_ ?_ | split | dsimp only | simp only [Frame.upd_iff, true_or, or_true])

theorem frame_openSlot {m0 : Nat} {s0 : State} (k : Nat) (t : Nat) (c : Nat) (s : State) (hm : 4096 ||| m0 = m0) (hs : Frame m0 s0 s) :
    Frame m0 s0 (openSlot k t c s) := by
  unfold openSlot
  repeat' (with_reducible first | assumption | (exact Frame.sub hm (by decide)) | apply frame_dirSet | apply frame_foldS | (intro _) | refine Frame.ite ?_ ?_ | split | dsimp only | simp only [Frame.upd_iff, true_or, or_true])

theorem frame_placeCorpus {m0 : Nat} {s0 : State} (t : Nat) (c : Nat) (b : Bytes) (n : Nat) (s : State) (hm : 1085440 ||| m0 = m0) (hs : Frame m0 s0 s) :
    ∀ r, (placeCorpus t c b n s) = some r → Frame m0 s0 r.2.2 := by
  intro r e
  unfold placeCorpus at e
  split at e
  · cases e; exact hs
  · split at e
    · rename_i heq
      cases e; exact frame_placeT1 _ _ _ _ _ _ (Frame.sub hm (by decide)) hs _ heq
    · split at e
      · simp only [Option.map_eq_some_iff] at e
        obtain ⟨q, heq, rfl⟩ := e
        exact frame_bump _ _ (Frame.sub hm (by decide)) (frame_placeT1 _ _ _ _ _ _ (Frame.sub hm (by decide)) hs _ heq)
      · cases e

theorem frame_addCorpus {m0 : Nat} {s0 : State} (r : Req) (slot : Option Nat) (shards : List Nat) (base : Nat) (t3 : Bool) (s : State) (hm : 69632 ||| m0 = m0) (hs : Frame m0 s0 s) :
    Frame m0 s0 (addCorpus r slot shards base t3 s) := by
  have b16 := Frame.bit hm (k := 16) (by decide)
  unfold addCorpus
  repeat' (with_reducible first | assumption | (exact Frame.sub hm (by decide)) | apply frame_openSlot | apply frame_optS | (intro _) | refine Frame.ite ?_ ?_ | split | dsimp only | simp only [Frame.upd_iff, b16, true_or, or_true])

theorem frame_createCorpus {m0 : Nat} {s0 : State} (r : Req) (s : State) (hm : 1153528 ||| m0 = m0) (hs : Frame m0 s0 s) :
    Frame m0 s0 (createCorpus r s) := by
  unfold createCorpus
  repeat' (with_reducible first | assumption | (exact Frame.sub hm (by decide)) | exact Frame.refl _ | apply frame_addCorpus | apply frame_badReq | apply frame_bump | apply frame_endReq | apply frame_failReq | (show ∀ _, _ → _; apply frame_placeCorpus) | (intro _) | refine Frame.snd (by assumption) ?_ | refine Frame.snd3 (by assumption) ?_ | refine Frame.snd4 (by assumption) ?_ | refine Frame.some1 (by assumption) ?_ | refine Frame.some2 (by assumption) ?_ | refine Frame.some3 (by assumption) ?_ | refine Frame.fst (by assumption) ?_ | refine Frame.ite ?_ ?_ | refine Frame.ite2 ?_ ?_ | refine Frame.ite3 ?_ ?_ | split | dsimp only | simp only [Frame.upd_iff, true_or, or_true])

theorem frame_execCorpusCreate {m0 : Nat} {s0 : State} (rid : Nat) (s : State) (hm : 1153528 ||| m0 = m0) (hs : Frame m0 s0 s) :
    ∀ z, (execCorpusCreate rid s) = .next z → Frame m0 s0 z := by
  intro z e
  unfold execCorpusCreate at e
  try dsimp only at e
  first | (split at e <;> first | (injection e with e; subst e)) | (injection e with e; subst e) | skip
  repeat' (with_reducible first | assumption | (exact Frame.sub hm (by decide)) | apply frame_createCorpus | apply frame_onAdmitted | (intro _) | refine Frame.ite ?_ ?_ | split | dsimp only | simp only [Frame.upd_iff, true_or, or_true])

theorem frame_dropCorpus {m0 : Nat} {s0 : State} (c : Corp) (s : State) (hm : 233600 ||| m0 = m0) (hs : Frame m0 s0 s) :
    Frame m0 s0 (dropCorpus c s) := by
  have b16 := Frame.bit hm (k := 16) (by decide)
  unfold dropCorpus
  repeat' (with_reducible first | assumption | (exact Frame.sub hm (by decide)) | apply frame_dirSet | apply frame_discardVec | apply frame_foldS | apply frame_onCorpus | apply frame_optS | apply frame_unplace | (intro _) | refine Frame.ite ?_ ?_ | split | dsimp only | simp only [Frame.upd_iff, b16, true_or, or_true])

theorem frame_execCorpusDrop {m0 : Nat} {s0 : State} (rid : Nat) (s : State) (hm : 1310200 ||| m0 = m0) (hs : Frame m0 s0 s) :
    ∀ z, (execCorpusDrop rid s) = .next z → Frame m0 s0 z := by
  intro z e
  unfold execCorpusDrop at e
  try dsimp only at e
  first | (split at e <;> first | (injection e with e; subst e)) | (injection e with e; subst e) | skip
  repeat' (with_reducible first | assumption | (exact Frame.sub hm (by decide)) | apply frame_dropCorpus | apply frame_endReq | apply frame_moveSearch | apply frame_onCorpusReq | (intro _) | refine Frame.ite ?_ ?_ | split | dsimp only | simp only [Frame.upd_iff, true_or, or_true])

theorem frame_beginSearch {m0 : Nat} {s0 : State} (r : Req) (c : Corp) (s : State) (hm : 1179128 ||| m0 = m0) (hs : Frame m0 s0 s) :
    Frame m0 s0 (beginSearch r c s) := by
  unfold beginSearch
  repeat' (with_reducible first | assumption | (exact Frame.sub hm (by decide)) | apply frame_bump | apply frame_failReq | apply frame_foldS | apply frame_moveSearch | apply frame_onReq | apply frame_tryShard | (intro _) | refine Frame.ite ?_ ?_ | split | dsimp only | simp only [Frame.upd_iff, true_or, or_true])

theorem frame_execSearch {m0 : Nat} {s0 : State} (rid : Nat) (s : State) (hm : 1179128 ||| m0 = m0) (hs : Frame m0 s0 s) :
    ∀ z, (execSearch rid s) = .next z → Frame m0 s0 z := by
  intro z e
  unfold execSearch at e
  try dsimp only at e
  first | (split at e <;> first | (injection e with e; subst e)) | (injection e with e; subst e) | skip
  repeat' (with_reducible first | assumption | (exact Frame.sub hm (by decide)) | apply frame_beginSearch | apply frame_onCorpusReq | (intro _) | refine Frame.ite ?_ ?_ | split | dsimp only | simp only [Frame.upd_iff, true_or, or_true])

theorem frame_beginUpdate {m0 : Nat} {s0 : State} (r : Req) (s : State) (hm : 1310200 ||| m0 = m0) (hs : Frame m0 s0 s) :
    Frame m0 s0 (beginUpdate r s) := by
  unfold beginUpdate
  repeat' (with_reducible first | assumption | (exact Frame.sub hm (by decide)) | apply frame_foldS | apply frame_onReq | apply frame_routeItem | (intro _) | refine Frame.ite ?_ ?_ | split | dsimp only | simp only [Frame.upd_iff, true_or, or_true])

theorem frame_execUpsert {m0 : Nat} {s0 : State} (rid : Nat) (s : State) (hm : 1310200 ||| m0 = m0) (hs : Frame m0 s0 s) :
    ∀ z, (execUpsert rid s) = .next z → Frame m0 s0 z := by
  intro z e
  unfold execUpsert at e
  try dsimp only at e
  first | (split at e <;> first | (injection e with e; subst e)) | (injection e with e; subst e) | skip
  repeat' (with_reducible first | assumption | (exact Frame.sub hm (by decide)) | apply frame_beginUpdate | apply frame_onCorpusReq | (intro _) | refine Frame.ite ?_ ?_ | split | dsimp only | simp only [Frame.upd_iff, true_or, or_true])

theorem frame_execDelete {m0 : Nat} {s0 : State} (rid : Nat) (s : State) (hm : 1310200 ||| m0 = m0) (hs : Frame m0 s0 s) :
    ∀ z, (execDelete rid s) = .next z → Frame m0 s0 z := by
  intro z e
  unfold execDelete at e
  try dsimp only at e
  first | (split at e <;> first | (injection e with e; subst e)) | (injection e with e; subst e) | skip
  repeat' (with_reducible first | assumption | (exact Frame.sub hm (by decide)) | apply frame_beginUpdate | apply frame_onCorpusReq | (intro _) | refine Frame.ite ?_ ?_ | split | dsimp only | simp only [Frame.upd_iff, true_or, or_true])

theorem frame_execItemAccepted {m0 : Nat} {s0 : State} (rid : Nat) (i : Nat) (s : State) (hm : 1310200 ||| m0 = m0) (hs : Frame m0 s0 s) :
    ∀ z, (execItemAccepted rid i s) = .next z → Frame m0 s0 z := by
  intro z e
  unfold execItemAccepted at e
  try dsimp only at e
  first | (split at e <;> first | (injection e with e; subst e)) | (injection e with e; subst e) | skip
  repeat' (with_reducible first | assumption | (exact Frame.sub hm (by decide)) | apply frame_acceptItem | apply frame_optS | (intro _) | refine Frame.ite ?_ ?_ | split | dsimp only | simp only [Frame.upd_iff, true_or, or_true])

theorem frame_execShredDone {m0 : Nat} {s0 : State} (rid : Nat) (s : State) (hm : 1310200 ||| m0 = m0) (hs : Frame m0 s0 s) :
    ∀ z, (execShredDone rid s) = .next z → Frame m0 s0 z := by
  intro z e
  unfold execShredDone at e
  try dsimp only at e
  first | (split at e <;> first | (injection e with e; subst e)) | (injection e with e; subst e) | skip
  repeat' (with_reducible first | assumption | (exact Frame.sub hm (by decide)) | apply frame_shredPart | apply frame_shredReq | split | dsimp only | simp only [Frame.upd_iff, true_or, or_true])

theorem frame_execPatchEpoch {m0 : Nat} {s0 : State} (s : State) (hm : 65536 ||| m0 = m0) (hs : Frame m0 s0 s) :
    ∀ z, (execPatchEpoch s) = .next z → Frame m0 s0 z := by
  intro z e
  unfold execPatchEpoch at e
  try dsimp only at e
  first | (split at e <;> first | (injection e with e; subst e)) | (injection e with e; subst e) | skip
  repeat' (with_reducible first | assumption | (exact Frame.sub hm (by decide)) | apply frame_wantPatches | split | dsimp only | simp only [Frame.upd_iff, true_or, or_true])

theorem frame_rebuildCorpus {m0 : Nat} {s0 : State} (c : Corp) (a : Nat) (t3 : Bool) (s : State) (hm : 69640 ||| m0 = m0) (hs : Frame m0 s0 s) :
    Frame m0 s0 (rebuildCorpus c a t3 s) := by
  unfold rebuildCorpus
  repeat' (with_reducible first | assumption | (exact Frame.sub hm (by decide)) | apply frame_foldS | apply frame_onCorpus | apply frame_openSlot | apply frame_optS | apply frame_showCorpus | apply frame_storeSlot | (intro _) | refine Frame.ite ?_ ?_ | split | dsimp only | simp only [Frame.upd_iff, true_or, or_true])

theorem frame_execCorpusRebuildDone {m0 : Nat} {s0 : State} (c : Nat) (ok : Bool) (s : State) (hm : 1179128 ||| m0 = m0) (hs : Frame m0 s0 s) :
    ∀ z, (execCorpusRebuildDone c ok s) = .next z → Frame m0 s0 z := by
  intro z e
  unfold execCorpusRebuildDone at e
  try dsimp only at e
  first | (split at e <;> first | (injection e with e; subst e)) | (injection e with e; subst e) | skip
  repeat' (with_reducible first | assumption | (exact Frame.sub hm (by decide)) | exact Frame.refl _ | apply frame_bump | apply frame_moveSearch | (show ∀ _, _ → _; apply frame_placeCorpus) | apply frame_rebuildCorpus | (intro _) | refine Frame.snd (by assumption) ?_ | refine Frame.snd3 (by assumption) ?_ | refine Frame.snd4 (by assumption) ?_ | refine Frame.some1 (by assumption) ?_ | refine Frame.some2 (by assumption) ?_ | refine Frame.some3 (by assumption) ?_ | refine Frame.fst (by assumption) ?_ | refine Frame.ite ?_ ?_ | refine Frame.ite2 ?_ ?_ | refine Frame.ite3 ?_ ?_ | split | dsimp only | simp only [Frame.upd_iff, true_or, or_true])

theorem frame_reloadSlot {m0 : Nat} {s0 : State} (t : Nat) (c : Nat) (k : Nat) (s : State) (hm : 65544 ||| m0 = m0) (hs : Frame m0 s0 s) :
    Frame m0 s0 (reloadSlot t c k s) := by
  unfold reloadSlot
  repeat' (with_reducible first | assumption | (exact Frame.sub hm (by decide)) | apply frame_onCorpus | apply frame_storeSlot | split | dsimp only | simp only [Frame.upd_iff, true_or, or_true])

theorem frame_execSlotReloadDone {m0 : Nat} {s0 : State} (c : Nat) (s : State) (hm : 1179128 ||| m0 = m0) (hs : Frame m0 s0 s) :
    ∀ z, (execSlotReloadDone c s) = .next z → Frame m0 s0 z := by
  intro z e
  unfold execSlotReloadDone at e
  try dsimp only at e
  first | (split at e <;> first | (injection e with e; subst e)) | (injection e with e; subst e) | skip
  repeat' (with_reducible first | assumption | (exact Frame.sub hm (by decide)) | apply frame_foldS | apply frame_moveSearch | apply frame_reloadSlot | apply frame_showCorpus | (intro _) | refine Frame.ite ?_ ?_ | split | dsimp only | simp only [Frame.upd_iff, true_or, or_true])

end Sys2Proof.Machine
end

