-- ==== Sys2Proof/Laws/FrameCtxOps.lean ====
section
/-! SUPPORT. FrameCtxOps: each operation of Machine/CtxOps.lean changes only the fields of `State`
that its mask names (`Frame`). -/
namespace Sys2Proof.Machine
set_option Elab.async false
set_option linter.all false

theorem frame_onCtx {m0 : Nat} {s0 : State} (h : Nat) (f : CtxS → CtxS) (s : State) (hm : 65536 ||| m0 = m0) (hs : Frame m0 s0 s) :
    Frame m0 s0 (onCtx h f s) := by
  have b16 := Frame.bit hm (k := 16) (by decide)
  unfold onCtx
  repeat' (with_reducible first | assumption | (exact Frame.sub hm (by decide)) | split | dsimp only | simp only [Frame.upd_iff, b16, true_or, or_true])

theorem frame_countCtx {m0 : Nat} {s0 : State} (s : State) (hm : 4096 ||| m0 = m0) (hs : Frame m0 s0 s) :
    Frame m0 s0 (countCtx s) := by
  unfold countCtx
  repeat' (with_reducible first | assumption | (exact Frame.sub hm (by decide)) | apply frame_dirSet | split | dsimp only | simp only [Frame.upd_iff, true_or, or_true])

theorem frame_breakCtx {m0 : Nat} {s0 : State} (h : Nat) (status : Nat) (s : State) (hm : 69888 ||| m0 = m0) (hs : Frame m0 s0 s) :
    Frame m0 s0 (breakCtx h status s) := by
  unfold breakCtx
  repeat' (with_reducible first | assumption | (exact Frame.sub hm (by decide)) | apply frame_addNote | apply frame_bump | apply frame_onCtx | split | dsimp only | simp only [Frame.upd_iff, true_or, or_true])

theorem frame_spillWrite {m0 : Nat} {s0 : State} (x : CtxS) (p : Nat) (off : Nat) (b : Bytes) (s : State) (hm : 131072 ||| m0 = m0) (hs : Frame m0 s0 s) :
    Frame m0 s0 (spillWrite x p off b s) := by
  unfold spillWrite
  repeat' (with_reducible first | assumption | (exact Frame.sub hm (by decide)) | apply frame_bufferWrite | split | dsimp only | simp only [Frame.upd_iff, true_or, or_true])

theorem frame_putBlock {m0 : Nat} {s0 : State} (x : CtxS) (l : Nat) (h : Nat) (b : Nat) (record : Bytes) (scale : Bytes) (s : State) (hm : 131080 ||| m0 = m0) (hs : Frame m0 s0 s) :
    Frame m0 s0 (putBlock x l h b record scale s) := by
  unfold putBlock
  repeat' (with_reducible first | assumption | (exact Frame.sub hm (by decide)) | apply frame_foldS | apply frame_putBytes | apply frame_spillWrite | (intro _) | refine Frame.ite ?_ ?_ | split | dsimp only | simp only [Frame.upd_iff, true_or, or_true])

theorem frame_quantHead {m0 : Nat} {s0 : State} (hd : Nat) (first : Nat) (lh : Nat × Nat) (s : State) (hm : 200712 ||| m0 = m0) (hs : Frame m0 s0 s) :
    Frame m0 s0 (quantHead hd first lh s) := by
  unfold quantHead
  repeat' (with_reducible first | assumption | (exact Frame.sub hm (by decide)) | apply frame_bumpBy | apply frame_onCtx | apply frame_putBlock | split | dsimp only | simp only [Frame.upd_iff, true_or, or_true])

theorem frame_quantBlock {m0 : Nat} {s0 : State} (hd : Nat) (first : Nat) (s : State) (hm : 200712 ||| m0 = m0) (hs : Frame m0 s0 s) :
    Frame m0 s0 (quantBlock hd first s) := by
  unfold quantBlock
  repeat' (with_reducible first | assumption | (exact Frame.sub hm (by decide)) | apply frame_foldS | apply frame_onCtx | apply frame_quantHead | (intro _) | refine Frame.ite ?_ ?_ | split | dsimp only | simp only [Frame.upd_iff, true_or, or_true])

theorem frame_applyToken {m0 : Nat} {s0 : State} (hd : Nat) (pos : Nat) (s : State) (hm : 200712 ||| m0 = m0) (hs : Frame m0 s0 s) :
    Frame m0 s0 (applyToken hd pos s) := by
  unfold applyToken
  repeat' (with_reducible first | assumption | (exact Frame.sub hm (by decide)) | apply frame_bump | apply frame_onCtx | apply frame_quantBlock | split | dsimp only | simp only [Frame.upd_iff, true_or, or_true])

theorem frame_applyTokens {m0 : Nat} {s0 : State} (x0 : Nat) (x1 : Nat) (x2 : State) (hm : 200712 ||| m0 = m0) (hx2 : Frame m0 s0 x2) :
    Frame m0 s0 (applyTokens x0 x1 x2) := by
  induction x0 generalizing x1 x2 with
  | zero =>
    unfold applyTokens
    all_goals try dsimp only
    repeat' (with_reducible first | assumption | (exact Frame.sub hm (by decide)) | exact Frame.refl _ | apply frame_applyToken | (intro _) | refine Frame.snd (by assumption) ?_ | refine Frame.snd3 (by assumption) ?_ | refine Frame.snd4 (by assumption) ?_ | refine Frame.some1 (by assumption) ?_ | refine Frame.some2 (by assumption) ?_ | refine Frame.some3 (by assumption) ?_ | refine Frame.fst (by assumption) ?_ | refine Frame.ite ?_ ?_ | refine Frame.ite2 ?_ ?_ | refine Frame.ite3 ?_ ?_ | split | dsimp only | simp only [Frame.upd_iff, true_or, or_true])
  | succ n ih =>
    unfold applyTokens
    all_goals try dsimp only
    repeat' (with_reducible first | assumption | (exact Frame.sub hm (by decide)) | exact Frame.refl _ | apply frame_applyToken | with_reducible apply ih | (intro _) | refine Frame.snd (by assumption) ?_ | refine Frame.snd3 (by assumption) ?_ | refine Frame.snd4 (by assumption) ?_ | refine Frame.some1 (by assumption) ?_ | refine Frame.some2 (by assumption) ?_ | refine Frame.some3 (by assumption) ?_ | refine Frame.fst (by assumption) ?_ | refine Frame.ite ?_ ?_ | refine Frame.ite2 ?_ ?_ | refine Frame.ite3 ?_ ?_ | split | dsimp only | simp only [Frame.upd_iff, true_or, or_true])

theorem frame_applyAllTokens {m0 : Nat} {s0 : State} (s : State) (hm : 200712 ||| m0 = m0) (hs : Frame m0 s0 s) :
    Frame m0 s0 (applyAllTokens s) := by
  unfold applyAllTokens
  repeat' (with_reducible first | assumption | (exact Frame.sub hm (by decide)) | apply frame_applyTokens | apply frame_foldS | (intro _) | refine Frame.ite ?_ ?_ | split | dsimp only | simp only [Frame.upd_iff, true_or, or_true])

theorem frame_startFolds {m0 : Nat} {s0 : State} (s : State) (hm : 65536 ||| m0 = m0) (hs : Frame m0 s0 s) :
    Frame m0 s0 (startFolds s) := by
  have b16 := Frame.bit hm (k := 16) (by decide)
  unfold startFolds
  repeat' (with_reducible first | assumption | (exact Frame.sub hm (by decide)) | split | dsimp only | simp only [Frame.upd_iff, b16, true_or, or_true])

theorem frame_spillSketches {m0 : Nat} {s0 : State} (x : CtxS) (ps : List Nat) (s : State) (hm : 131072 ||| m0 = m0) (hs : Frame m0 s0 s) :
    Frame m0 s0 (spillSketches x ps s) := by
  unfold spillSketches
  repeat' (with_reducible first | assumption | (exact Frame.sub hm (by decide)) | apply frame_foldS | apply frame_spillWrite | (intro _) | refine Frame.ite ?_ ?_ | split | dsimp only | simp only [Frame.upd_iff, true_or, or_true])

theorem frame_foldDone {m0 : Nat} {s0 : State} (x : CtxS) (s : State) (hm : 200704 ||| m0 = m0) (hs : Frame m0 s0 s) :
    Frame m0 s0 (foldDone x s) := by
  unfold foldDone
  repeat' (with_reducible first | assumption | (exact Frame.sub hm (by decide)) | apply frame_bump | apply frame_onCtx | apply frame_spillSketches | split | dsimp only | simp only [Frame.upd_iff, true_or, or_true])

theorem frame_readKV {m0 : Nat} {s0 : State} (x : CtxS) (p : Part) (l : Nat) (h : Nat) (pos : Nat) (kv : Nat) (s : State) (hm : 15496 ||| m0 = m0) (hs : Frame m0 s0 s) :
    Frame m0 s0 (readKV x p l h pos kv s).2.2.2 := by
  rw [readKV.eq_1]
  split
  · exact Frame.of4 rfl hs
  · refine Frame.of4 rfl ?_
    exact frame_demandRead _ _ _ _ (Frame.sub hm (by decide)) (frame_demandRead _ _ _ _ (Frame.sub hm (by decide)) hs)

theorem frame_scorePos {m0 : Nat} {s0 : State} (x : CtxS) (p : Part) (l : Nat) (h : Nat) (sq : Nat) (code : List Int) (a : HeadRun) (pos : Nat) (hm : 15496 ||| m0 = m0) (ha : Frame m0 s0 a.st) :
    Frame m0 s0 (scorePos x p l h sq code a pos).st := by
  unfold scorePos
  repeat' (with_reducible first | assumption | (exact Frame.sub hm (by decide)) | exact Frame.refl _ | apply frame_readKV | (intro _) | refine Frame.snd (by assumption) ?_ | refine Frame.snd3 (by assumption) ?_ | refine Frame.snd4 (by assumption) ?_ | refine Frame.some1 (by assumption) ?_ | refine Frame.some2 (by assumption) ?_ | refine Frame.some3 (by assumption) ?_ | refine Frame.fst (by assumption) ?_ | refine Frame.foldlOf HeadRun.st ?_ ?_ | refine Frame.ite ?_ ?_ | refine Frame.ite2 ?_ ?_ | refine Frame.ite3 ?_ ?_ | split | dsimp only | simp only [Frame.upd_iff, true_or, or_true])

theorem frame_valueOf {m0 : Nat} {s0 : State} (x : CtxS) (p : Part) (l : Nat) (h : Nat) (pos : Nat) (s : State) (hm : 15496 ||| m0 = m0) (hs : Frame m0 s0 s) :
    Frame m0 s0 (valueOf x p l h pos s).2.2 := by
  unfold valueOf
  repeat' (with_reducible first | assumption | (exact Frame.sub hm (by decide)) | apply frame_readKV | split | dsimp only | simp only [Frame.upd_iff, true_or, or_true])

theorem frame_gatherValues {m0 : Nat} {s0 : State} (x : CtxS) (p : Part) (l : Nat) (h : Nat) (ps : List Nat) (s : State) (hm : 15496 ||| m0 = m0) (hs : Frame m0 s0 s) :
    Frame m0 s0 (gatherValues x p l h ps s).2.2 := by
  unfold gatherValues
  repeat' (with_reducible first | assumption | (exact Frame.sub hm (by decide)) | exact Frame.refl _ | apply frame_valueOf | (intro _) | refine Frame.snd (by assumption) ?_ | refine Frame.snd3 (by assumption) ?_ | refine Frame.snd4 (by assumption) ?_ | refine Frame.some1 (by assumption) ?_ | refine Frame.some2 (by assumption) ?_ | refine Frame.some3 (by assumption) ?_ | refine Frame.fst (by assumption) ?_ | refine Frame.getD ?_ ?_ | refine Frame.elim ?_ ?_ | refine Frame.elim2 ?_ ?_ | refine Frame.foldl ?_ ?_ | refine Frame.foldl2 ?_ ?_ | refine Frame.foldl3 ?_ ?_ | refine Frame.ite ?_ ?_ | refine Frame.ite2 ?_ ?_ | refine Frame.ite3 ?_ ?_ | split | dsimp only | simp only [Frame.upd_iff, true_or, or_true])

theorem frame_headRecord {m0 : Nat} {s0 : State} (x : CtxS) (p : Part) (h : Nat) (hq : Nat) (s : State) (hm : 15496 ||| m0 = m0) (hs : Frame m0 s0 s) :
    Frame m0 s0 (headRecord x p h hq s).2.2 := by
  unfold headRecord
  repeat' (with_reducible first | assumption | (exact Frame.sub hm (by decide)) | exact Frame.refl _ | apply frame_gatherValues | apply frame_scorePos | (intro _) | refine Frame.snd (by assumption) ?_ | refine Frame.snd3 (by assumption) ?_ | refine Frame.snd4 (by assumption) ?_ | refine Frame.some1 (by assumption) ?_ | refine Frame.some2 (by assumption) ?_ | refine Frame.some3 (by assumption) ?_ | refine Frame.fst (by assumption) ?_ | refine Frame.foldlOf HeadRun.st ?_ ?_ | refine Frame.ite ?_ ?_ | refine Frame.ite2 ?_ ?_ | refine Frame.ite3 ?_ ?_ | split | dsimp only | simp only [Frame.upd_iff, true_or, or_true])

theorem frame_headRecords {m0 : Nat} {s0 : State} (x : CtxS) (p : Part) (s : State) (hm : 15496 ||| m0 = m0) (hs : Frame m0 s0 s) :
    Frame m0 s0 (headRecords x p s).2.2 := by
  unfold headRecords
  repeat' (with_reducible first | assumption | (exact Frame.sub hm (by decide)) | exact Frame.refl _ | apply frame_headRecord | (intro _) | refine Frame.snd (by assumption) ?_ | refine Frame.snd3 (by assumption) ?_ | refine Frame.snd4 (by assumption) ?_ | refine Frame.some1 (by assumption) ?_ | refine Frame.some2 (by assumption) ?_ | refine Frame.some3 (by assumption) ?_ | refine Frame.fst (by assumption) ?_ | refine Frame.getD ?_ ?_ | refine Frame.elim ?_ ?_ | refine Frame.elim2 ?_ ?_ | refine Frame.foldl ?_ ?_ | refine Frame.foldl2 ?_ ?_ | refine Frame.foldl3 ?_ ?_ | refine Frame.ite ?_ ?_ | refine Frame.ite2 ?_ ?_ | refine Frame.ite3 ?_ ?_ | split | dsimp only | simp only [Frame.upd_iff, true_or, or_true])

theorem frame_memberAnswer {m0 : Nat} {s0 : State} (p : Part) (s : State) (hm : 81288 ||| m0 = m0) (hs : Frame m0 s0 s) :
    Frame m0 s0 (memberAnswer p s).2 := by
  unfold memberAnswer
  repeat' (with_reducible first | assumption | (exact Frame.sub hm (by decide)) | exact Frame.refl _ | apply frame_breakCtx | apply frame_headRecords | (intro _) | refine Frame.snd (by assumption) ?_ | refine Frame.snd3 (by assumption) ?_ | refine Frame.snd4 (by assumption) ?_ | refine Frame.some1 (by assumption) ?_ | refine Frame.some2 (by assumption) ?_ | refine Frame.some3 (by assumption) ?_ | refine Frame.fst (by assumption) ?_ | refine Frame.ite ?_ ?_ | refine Frame.ite2 ?_ ?_ | refine Frame.ite3 ?_ ?_ | split | dsimp only | simp only [Frame.upd_iff, true_or, or_true])

theorem frame_addMember {m0 : Nat} {s0 : State} (p : Part) (s : State) (hm : 86336 ||| m0 = m0) (hs : Frame m0 s0 s) :
    Frame m0 s0 (addMember p s) := by
  have b16 := Frame.bit hm (k := 16) (by decide)
  unfold addMember
  repeat' (with_reducible first | assumption | (exact Frame.sub hm (by decide)) | apply frame_foldS | apply frame_issueParcel | apply frame_newPart | apply frame_onPart | (intro _) | refine Frame.ite ?_ ?_ | split | dsimp only | simp only [Frame.upd_iff, b16, true_or, or_true])

theorem frame_endAttend {m0 : Nat} {s0 : State} (id : Nat) (s : State) (hm : 65536 ||| m0 = m0) (hs : Frame m0 s0 s) :
    Frame m0 s0 (endAttend id s) := by
  have b16 := Frame.bit hm (k := 16) (by decide)
  unfold endAttend
  repeat' (with_reducible first | assumption | (exact Frame.sub hm (by decide)) | split | dsimp only | simp only [Frame.upd_iff, b16, true_or, or_true])

theorem frame_screenPart {m0 : Nat} {s0 : State} (p : Part) (s : State) (hm : 65536 ||| m0 = m0) (hs : Frame m0 s0 s) :
    Frame m0 s0 (screenPart p s) := by
  unfold screenPart
  repeat' (with_reducible first | assumption | (exact Frame.sub hm (by decide)) | apply frame_onPart | split | dsimp only | simp only [Frame.upd_iff, true_or, or_true])

theorem frame_startAttendPass {m0 : Nat} {s0 : State} (s : State) (hm : 65664 ||| m0 = m0) (hs : Frame m0 s0 s) :
    Frame m0 s0 (startAttendPass s) := by
  unfold startAttendPass
  repeat' (with_reducible first | assumption | (exact Frame.sub hm (by decide)) | apply frame_foldS | apply frame_screenPart | apply frame_setPass | (intro _) | refine Frame.ite ?_ ?_ | split | dsimp only | simp only [Frame.upd_iff, true_or, or_true])

theorem frame_attendPassDone {m0 : Nat} {s0 : State} (p : Pass) (s : State) (hm : 65536 ||| m0 = m0) (hs : Frame m0 s0 s) :
    Frame m0 s0 (attendPassDone p s) := by
  unfold attendPassDone
  repeat' (with_reducible first | assumption | (exact Frame.sub hm (by decide)) | apply frame_foldS | apply frame_onPart | (intro _) | refine Frame.ite ?_ ?_ | split | dsimp only | simp only [Frame.upd_iff, true_or, or_true])

theorem frame_finishAttend {m0 : Nat} {s0 : State} (rid : Nat) (s : State) (hm : 72184 ||| m0 = m0) (hs : Frame m0 s0 s) :
    Frame m0 s0 (finishAttend rid s) := by
  unfold finishAttend
  repeat' (with_reducible first | assumption | (exact Frame.sub hm (by decide)) | apply frame_addCause | apply frame_bump | apply frame_failReq | apply frame_finishReq | apply frame_markLate | apply frame_whenS | (intro _) | refine Frame.ite ?_ ?_ | split | dsimp only | simp only [Frame.upd_iff, true_or, or_true])

theorem frame_memberFailed {m0 : Nat} {s0 : State} (rid : Nat) (f : Nat × Nat) (s : State) (hm : 72184 ||| m0 = m0) (hs : Frame m0 s0 s) :
    Frame m0 s0 (memberFailed rid f s) := by
  unfold memberFailed
  repeat' (with_reducible first | assumption | (exact Frame.sub hm (by decide)) | apply frame_addCause | apply frame_failReq | apply frame_onReq | split | dsimp only | simp only [Frame.upd_iff, true_or, or_true])

theorem frame_attendStep {m0 : Nat} {s0 : State} (rid : Nat) (s : State) (hm : 72184 ||| m0 = m0) (hs : Frame m0 s0 s) :
    Frame m0 s0 (attendStep rid s) := by
  unfold attendStep
  repeat' (with_reducible first | assumption | (exact Frame.sub hm (by decide)) | apply frame_finishAttend | split | dsimp only | simp only [Frame.upd_iff, true_or, or_true])

theorem frame_homeAttend {m0 : Nat} {s0 : State} (r : Req) (m : TMsg) (s : State) (hm : 72184 ||| m0 = m0) (hs : Frame m0 s0 s) :
    Frame m0 s0 (homeAttend r m s) := by
  unfold homeAttend
  repeat' (with_reducible first | assumption | (exact Frame.sub hm (by decide)) | apply frame_addCause | apply frame_attendStep | apply frame_foldS | apply frame_memberFailed | apply frame_onReq | apply frame_whenS | (intro _) | refine Frame.ite ?_ ?_ | split | dsimp only | simp only [Frame.upd_iff, true_or, or_true])

theorem frame_takeAnswer {m0 : Nat} {s0 : State} (tag : Nat) (m : TMsg) (s : State) (hm : 1179128 ||| m0 = m0) (hs : Frame m0 s0 s) :
    Frame m0 s0 (takeAnswer tag m s) := by
  unfold takeAnswer
  repeat' (with_reducible first | assumption | (exact Frame.sub hm (by decide)) | apply frame_gatewaySearch | apply frame_homeAttend | split | dsimp only | simp only [Frame.upd_iff, true_or, or_true])

theorem frame_runMember {m0 : Nat} {s0 : State} (p : Part) (s : State) (hm : 1179128 ||| m0 = m0) (hs : Frame m0 s0 s) :
    Frame m0 s0 (runMember p s) := by
  unfold runMember
  repeat' (with_reducible first | assumption | (exact Frame.sub hm (by decide)) | apply frame_dropPart | apply frame_endAttend | apply frame_memberAnswer | apply frame_onPart | apply frame_takeAnswer | apply frame_treeInput | split | dsimp only | simp only [Frame.upd_iff, true_or, or_true])

theorem frame_driveMembers {m0 : Nat} {s0 : State} (x0 : Nat) (x1 : State) (hm : 1179128 ||| m0 = m0) (hx1 : Frame m0 s0 x1) :
    Frame m0 s0 (driveMembers x0 x1) := by
  induction x0 generalizing x1 with
  | zero =>
    unfold driveMembers
    all_goals try dsimp only
    repeat' (with_reducible first | assumption | (exact Frame.sub hm (by decide)) | exact Frame.refl _ | apply frame_runMember | (intro _) | refine Frame.snd (by assumption) ?_ | refine Frame.snd3 (by assumption) ?_ | refine Frame.snd4 (by assumption) ?_ | refine Frame.some1 (by assumption) ?_ | refine Frame.some2 (by assumption) ?_ | refine Frame.some3 (by assumption) ?_ | refine Frame.fst (by assumption) ?_ | refine Frame.ite ?_ ?_ | refine Frame.ite2 ?_ ?_ | refine Frame.ite3 ?_ ?_ | split | dsimp only | simp only [Frame.upd_iff, true_or, or_true])
  | succ n ih =>
    unfold driveMembers
    all_goals try dsimp only
    repeat' (with_reducible first | assumption | (exact Frame.sub hm (by decide)) | exact Frame.refl _ | apply frame_runMember | with_reducible apply ih | (intro _) | refine Frame.snd (by assumption) ?_ | refine Frame.snd3 (by assumption) ?_ | refine Frame.snd4 (by assumption) ?_ | refine Frame.some1 (by assumption) ?_ | refine Frame.some2 (by assumption) ?_ | refine Frame.some3 (by assumption) ?_ | refine Frame.fst (by assumption) ?_ | refine Frame.ite ?_ ?_ | refine Frame.ite2 ?_ ?_ | refine Frame.ite3 ?_ ?_ | split | dsimp only | simp only [Frame.upd_iff, true_or, or_true])

theorem frame_movePaths {m0 : Nat} {s0 : State} (s : State) (hm : 1179128 ||| m0 = m0) (hs : Frame m0 s0 s) :
    Frame m0 s0 (movePaths s) := by
  have b16 := Frame.bit hm (k := 16) (by decide)
  unfold movePaths
  repeat' (with_reducible first | assumption | (exact Frame.sub hm (by decide)) | apply frame_driveMembers | apply frame_moveSearch | apply frame_pruneParts | split | dsimp only | simp only [Frame.upd_iff, b16, true_or, or_true])

end Sys2Proof.Machine
end

