-- ==== Sys2Proof/Laws/FrameContext.lean ====
section
/-! SUPPORT. FrameContext: each operation of Machine/Context.lean changes only the fields of `State`
that its mask names (`Frame`). -/
namespace Sys2Proof.Machine
set_option Elab.async false
set_option linter.all false

theorem frame_setProfile {m0 : Nat} {s0 : State} (r : Req) (s : State) (hm : 72184 ||| m0 = m0) (hs : Frame m0 s0 s) :
    Frame m0 s0 (setProfile r s) := by
  have b16 := Frame.bit hm (k := 16) (by decide)
  unfold setProfile
  repeat' (with_reducible first | assumption | (exact Frame.sub hm (by decide)) | apply frame_endReq | apply frame_failReq | split | dsimp only | simp only [Frame.upd_iff, b16, true_or, or_true])

theorem frame_execCtxProfile {m0 : Nat} {s0 : State} (rid : Nat) (s : State) (hm : 72184 ||| m0 = m0) (hs : Frame m0 s0 s) :
    ∀ z, (execCtxProfile rid s) = .next z → Frame m0 s0 z := by
  intro z e
  unfold execCtxProfile at e
  try dsimp only at e
  first | (split at e <;> first | (injection e with e; subst e)) | (injection e with e; subst e) | skip
  repeat' (with_reducible first | assumption | (exact Frame.sub hm (by decide)) | apply frame_onAdmitted | apply frame_setProfile | (intro _) | refine Frame.ite ?_ ?_ | split | dsimp only | simp only [Frame.upd_iff, true_or, or_true])

theorem frame_placeSpans {m0 : Nat} {s0 : State} (h : Nat) (t : Nat) (p : Bytes) (spans : Nat) (s : State) (z : Nat) (hm : 1081344 ||| m0 = m0) (hs : Frame m0 s0 s) :
    ∀ r, (placeSpans h t p spans s z) = some r → Frame m0 s0 r.2.2 := by
  intro r e
  unfold placeSpans at e
  split at e
  · cases e; exact hs
  · simp only [Option.map_eq_some_iff] at e
    obtain ⟨q, heq, rfl⟩ := e
    exact frame_placeT1 _ _ _ _ _ _ (Frame.sub hm (by decide)) hs _ heq

theorem frame_fitSession {m0 : Nat} {s0 : State} (h : Nat) (t : Nat) (p : Bytes) (spans : Nat) (s : State) (hm : 1081344 ||| m0 = m0) (hs : Frame m0 s0 s) :
    ∀ r, (fitSession h t p spans s) = some r → Frame m0 s0 r.2.2 := by
  intro r e
  unfold fitSession at e
  obtain ⟨z, -, e⟩ := List.exists_of_findSome?_eq_some e
  exact frame_placeSpans _ _ _ _ _ _ (Frame.sub hm (by decide)) hs _ e

theorem frame_enterCtx {m0 : Nat} {s0 : State} (x : CtxS) (s : State) (hm : 69632 ||| m0 = m0) (hs : Frame m0 s0 s) :
    Frame m0 s0 (enterCtx x s) := by
  have b16 := Frame.bit hm (k := 16) (by decide)
  unfold enterCtx
  repeat' (with_reducible first | assumption | (exact Frame.sub hm (by decide)) | apply frame_countCtx | split | dsimp only | simp only [Frame.upd_iff, b16, true_or, or_true])

theorem frame_openLocal {m0 : Nat} {s0 : State} (x : CtxS) (s : State) (hm : 1150976 ||| m0 = m0) (hs : Frame m0 s0 s) :
    Frame m0 s0 (openLocal x s).2.2 := by
  unfold openLocal
  repeat' (with_reducible first | assumption | (exact Frame.sub hm (by decide)) | exact Frame.refl _ | (show ∀ _, _ → _; apply frame_allocRun) | apply frame_bump | apply frame_enterCtx | (show ∀ _, _ → _; apply frame_fitSession) | (intro _) | refine Frame.snd (by assumption) ?_ | refine Frame.snd3 (by assumption) ?_ | refine Frame.snd4 (by assumption) ?_ | refine Frame.some1 (by assumption) ?_ | refine Frame.some2 (by assumption) ?_ | refine Frame.some3 (by assumption) ?_ | refine Frame.fst (by assumption) ?_ | refine Frame.ite ?_ ?_ | refine Frame.ite2 ?_ ?_ | refine Frame.ite3 ?_ ?_ | split | dsimp only | simp only [Frame.upd_iff, true_or, or_true])

theorem frame_freshHandle {m0 : Nat} {s0 : State} (s : State) (hm : 1048576 ||| m0 = m0) (hs : Frame m0 s0 s) :
    Frame m0 s0 (freshHandle s).2 := by
  unfold freshHandle
  repeat' (with_reducible first | assumption | (exact Frame.sub hm (by decide)) | exact Frame.refl _ | apply frame_draw | (intro _) | refine Frame.snd (by assumption) ?_ | refine Frame.snd3 (by assumption) ?_ | refine Frame.snd4 (by assumption) ?_ | refine Frame.some1 (by assumption) ?_ | refine Frame.some2 (by assumption) ?_ | refine Frame.some3 (by assumption) ?_ | refine Frame.fst (by assumption) ?_ | refine Frame.getD ?_ ?_ | refine Frame.elim ?_ ?_ | refine Frame.elim2 ?_ ?_ | refine Frame.foldl ?_ ?_ | refine Frame.foldl2 ?_ ?_ | refine Frame.foldl3 ?_ ?_ | refine Frame.ite ?_ ?_ | refine Frame.ite2 ?_ ?_ | refine Frame.ite3 ?_ ?_ | split | dsimp only | simp only [Frame.upd_iff, true_or, or_true])

theorem frame_openStep {m0 : Nat} {s0 : State} (rid : Nat) (s : State) (hm : 6648 ||| m0 = m0) (hs : Frame m0 s0 s) :
    Frame m0 s0 (openStep rid s) := by
  unfold openStep
  repeat' (with_reducible first | assumption | (exact Frame.sub hm (by decide)) | apply frame_endReq | split | dsimp only | simp only [Frame.upd_iff, true_or, or_true])

theorem frame_freeCtx {m0 : Nat} {s0 : State} (h : Nat) (s : State) (hm : 233600 ||| m0 = m0) (hs : Frame m0 s0 s) :
    Frame m0 s0 (freeCtx h s) := by
  have b16 := Frame.bit hm (k := 16) (by decide)
  unfold freeCtx
  repeat' (with_reducible first | assumption | (exact Frame.sub hm (by decide)) | apply frame_countCtx | apply frame_discard | apply frame_optS | apply frame_unplace | (intro _) | refine Frame.ite ?_ ?_ | split | dsimp only | simp only [Frame.upd_iff, b16, true_or, or_true])

theorem frame_toMember {m0 : Nat} {s0 : State} (op : Nat) (post : Nat) (t : Nat) (tag : Nat) (inl : Bytes) (data : Bytes) (rid : Nat) (s : State) (hm : 1064960 ||| m0 = m0) (hs : Frame m0 s0 s) :
    ∀ r, (toMember op post t tag inl data rid s) = some r → Frame m0 s0 r := by
  intro r e
  unfold toMember at e
  try dsimp only at e
  repeat' (split at e)
  all_goals first | contradiction | (injection e with e; subst e) | skip
  repeat' (with_reducible first | assumption | (exact Frame.sub hm (by decide)) | exact Frame.refl _ | (show ∀ _, _ → _; apply frame_schedSend) | (intro _) | refine Frame.snd (by assumption) ?_ | refine Frame.snd3 (by assumption) ?_ | refine Frame.snd4 (by assumption) ?_ | refine Frame.some1 (by assumption) ?_ | refine Frame.some2 (by assumption) ?_ | refine Frame.some3 (by assumption) ?_ | refine Frame.fst (by assumption) ?_ | refine Frame.ite ?_ ?_ | refine Frame.ite2 ?_ ?_ | refine Frame.ite3 ?_ ?_ | split | dsimp only | simp only [Frame.upd_iff, true_or, or_true])

theorem frame_closeMembers {m0 : Nat} {s0 : State} (x : CtxS) (s : State) (hm : 1064960 ||| m0 = m0) (hs : Frame m0 s0 s) :
    Frame m0 s0 (closeMembers x s) := by
  unfold closeMembers
  repeat' (with_reducible first | assumption | (exact Frame.sub hm (by decide)) | exact Frame.refl _ | apply frame_foldS | (show ∀ _, _ → _; apply frame_toMember) | (intro _) | refine Frame.snd (by assumption) ?_ | refine Frame.snd3 (by assumption) ?_ | refine Frame.snd4 (by assumption) ?_ | refine Frame.some1 (by assumption) ?_ | refine Frame.some2 (by assumption) ?_ | refine Frame.some3 (by assumption) ?_ | refine Frame.fst (by assumption) ?_ | refine Frame.getD ?_ ?_ | refine Frame.elim ?_ ?_ | refine Frame.elim2 ?_ ?_ | refine Frame.foldl ?_ ?_ | refine Frame.foldl2 ?_ ?_ | refine Frame.foldl3 ?_ ?_ | refine Frame.ite ?_ ?_ | refine Frame.ite2 ?_ ?_ | refine Frame.ite3 ?_ ?_ | split | dsimp only | simp only [Frame.upd_iff, true_or, or_true])

theorem frame_openFails {m0 : Nat} {s0 : State} (rid : Nat) (st : Nat) (s : State) (hm : 1300984 ||| m0 = m0) (hs : Frame m0 s0 s) :
    Frame m0 s0 (openFails rid st s) := by
  unfold openFails
  repeat' (with_reducible first | assumption | (exact Frame.sub hm (by decide)) | apply frame_closeMembers | apply frame_failReq | apply frame_freeCtx | apply frame_optS | (intro _) | refine Frame.ite ?_ ?_ | split | dsimp only | simp only [Frame.upd_iff, true_or, or_true])

theorem frame_openAck {m0 : Nat} {s0 : State} (rid : Nat) (post : Nat) (st : Nat) (z : Nat) (s : State) (hm : 1300984 ||| m0 = m0) (hs : Frame m0 s0 s) :
    Frame m0 s0 (openAck rid post st z s) := by
  unfold openAck
  repeat' (with_reducible first | assumption | (exact Frame.sub hm (by decide)) | apply frame_onReq | apply frame_openFails | apply frame_openStep | split | dsimp only | simp only [Frame.upd_iff, true_or, or_true])

theorem frame_askMember {m0 : Nat} {s0 : State} (rid : Nat) (x : CtxS) (m : Nat) (s : State) (hm : 1300984 ||| m0 = m0) (hs : Frame m0 s0 s) :
    Frame m0 s0 (askMember rid x m s) := by
  unfold askMember
  repeat' (with_reducible first | assumption | (exact Frame.sub hm (by decide)) | exact Frame.refl _ | apply frame_openFails | (show ∀ _, _ → _; apply frame_toMember) | (intro _) | refine Frame.snd (by assumption) ?_ | refine Frame.snd3 (by assumption) ?_ | refine Frame.snd4 (by assumption) ?_ | refine Frame.some1 (by assumption) ?_ | refine Frame.some2 (by assumption) ?_ | refine Frame.some3 (by assumption) ?_ | refine Frame.fst (by assumption) ?_ | refine Frame.ite ?_ ?_ | refine Frame.ite2 ?_ ?_ | refine Frame.ite3 ?_ ?_ | split | dsimp only | simp only [Frame.upd_iff, true_or, or_true])

theorem frame_openSession {m0 : Nat} {s0 : State} (r : Req) (s : State) (hm : 1300984 ||| m0 = m0) (hs : Frame m0 s0 s) :
    Frame m0 s0 (openSession r s) := by
  unfold openSession
  repeat' (with_reducible first | assumption | (exact Frame.sub hm (by decide)) | exact Frame.refl _ | apply frame_askMember | apply frame_failReq | apply frame_foldS | apply frame_freshHandle | apply frame_onReq | apply frame_openLocal | apply frame_openStep | (intro _) | refine Frame.snd (by assumption) ?_ | refine Frame.snd3 (by assumption) ?_ | refine Frame.snd4 (by assumption) ?_ | refine Frame.some1 (by assumption) ?_ | refine Frame.some2 (by assumption) ?_ | refine Frame.some3 (by assumption) ?_ | refine Frame.fst (by assumption) ?_ | refine Frame.ite ?_ ?_ | refine Frame.ite2 ?_ ?_ | refine Frame.ite3 ?_ ?_ | split | dsimp only | simp only [Frame.upd_iff, true_or, or_true])

theorem frame_execCtxOpen {m0 : Nat} {s0 : State} (rid : Nat) (s : State) (hm : 1300984 ||| m0 = m0) (hs : Frame m0 s0 s) :
    ∀ z, (execCtxOpen rid s) = .next z → Frame m0 s0 z := by
  intro z e
  unfold execCtxOpen at e
  try dsimp only at e
  first | (split at e <;> first | (injection e with e; subst e)) | (injection e with e; subst e) | skip
  repeat' (with_reducible first | assumption | (exact Frame.sub hm (by decide)) | apply frame_onAdmitted | apply frame_openSession | (intro _) | refine Frame.ite ?_ ?_ | split | dsimp only | simp only [Frame.upd_iff, true_or, or_true])

theorem frame_memberOpen {m0 : Nat} {s0 : State} (home : Nat) (t : Nat) (tag : Nat) (inl : Bytes) (data : Bytes) (s : State) (hm : 1167360 ||| m0 = m0) (hs : Frame m0 s0 s) :
    Frame m0 s0 (memberOpen home t tag inl data s) := by
  unfold memberOpen
  repeat' (with_reducible first | assumption | (exact Frame.sub hm (by decide)) | exact Frame.refl _ | apply frame_openLocal | (show ∀ _, _ → _; apply frame_toMember) | (intro _) | refine Frame.snd (by assumption) ?_ | refine Frame.snd3 (by assumption) ?_ | refine Frame.snd4 (by assumption) ?_ | refine Frame.some1 (by assumption) ?_ | refine Frame.some2 (by assumption) ?_ | refine Frame.some3 (by assumption) ?_ | refine Frame.fst (by assumption) ?_ | refine Frame.getD ?_ ?_ | refine Frame.elim ?_ ?_ | refine Frame.elim2 ?_ ?_ | refine Frame.foldl ?_ ?_ | refine Frame.foldl2 ?_ ?_ | refine Frame.foldl3 ?_ ?_ | refine Frame.ite ?_ ?_ | refine Frame.ite2 ?_ ?_ | refine Frame.ite3 ?_ ?_ | split | dsimp only | simp only [Frame.upd_iff, true_or, or_true])

theorem frame_onCtxReq {m0 : Nat} {s0 : State} (rid : Nat) (type : Nat) (f : Req → CtxS → State → State) (s : State) (hm : 6648 ||| m0 = m0) (hf : ∀ y0 y1 u, Frame m0 s0 u → Frame m0 s0 (f y0 y1 u)) (hs : Frame m0 s0 s) :
    Frame m0 s0 (onCtxReq rid type f s) := by
  unfold onCtxReq
  repeat' (with_reducible first | assumption | (exact Frame.sub hm (by decide)) | apply frame_failReq | apply frame_onAdmitted | apply hf | (intro _) | refine Frame.ite ?_ ?_ | split | dsimp only | simp only [Frame.upd_iff, true_or, or_true])

theorem frame_abortOthers {m0 : Nat} {s0 : State} (rid : Nat) (t : Nat) (h : Nat) (s : State) (hm : 6648 ||| m0 = m0) (hs : Frame m0 s0 s) :
    Frame m0 s0 (abortOthers rid t h s) := by
  unfold abortOthers
  repeat' (with_reducible first | assumption | (exact Frame.sub hm (by decide)) | apply frame_failReq | apply frame_foldS | (intro _) | refine Frame.ite ?_ ?_ | split | dsimp only | simp only [Frame.upd_iff, true_or, or_true])

theorem frame_closeLocal {m0 : Nat} {s0 : State} (h : Nat) (s : State) (hm : 69632 ||| m0 = m0) (hs : Frame m0 s0 s) :
    Frame m0 s0 (closeLocal h s) := by
  unfold closeLocal
  repeat' (with_reducible first | assumption | (exact Frame.sub hm (by decide)) | apply frame_countCtx | apply frame_onCtx | split | dsimp only | simp only [Frame.upd_iff, true_or, or_true])

theorem frame_execCtxClose {m0 : Nat} {s0 : State} (rid : Nat) (s : State) (hm : 1179128 ||| m0 = m0) (hs : Frame m0 s0 s) :
    ∀ z, (execCtxClose rid s) = .next z → Frame m0 s0 z := by
  intro z e
  unfold execCtxClose at e
  try dsimp only at e
  first | (split at e <;> first | (injection e with e; subst e)) | (injection e with e; subst e) | skip
  repeat' (with_reducible first | assumption | (exact Frame.sub hm (by decide)) | apply frame_abortOthers | apply frame_closeLocal | apply frame_closeMembers | apply frame_endReq | apply frame_movePaths | apply frame_onCtxReq | (intro _) | refine Frame.ite ?_ ?_ | split | dsimp only | simp only [Frame.upd_iff, true_or, or_true])

theorem frame_freeClosed {m0 : Nat} {s0 : State} (s : State) (hm : 233600 ||| m0 = m0) (hs : Frame m0 s0 s) :
    Frame m0 s0 (freeClosed s) := by
  unfold freeClosed
  repeat' (with_reducible first | assumption | (exact Frame.sub hm (by decide)) | apply frame_foldS | apply frame_freeCtx | (intro _) | refine Frame.ite ?_ ?_ | split | dsimp only | simp only [Frame.upd_iff, true_or, or_true])

theorem frame_acceptToken {m0 : Nat} {s0 : State} (rid : Nat) (h : Nat) (n : Nat) (s : State) (hm : 72184 ||| m0 = m0) (hs : Frame m0 s0 s) :
    Frame m0 s0 (acceptToken rid h n s) := by
  unfold acceptToken
  repeat' (with_reducible first | assumption | (exact Frame.sub hm (by decide)) | apply frame_endReq | apply frame_onCtx | split | dsimp only | simp only [Frame.upd_iff, true_or, or_true])

theorem frame_appendToken {m0 : Nat} {s0 : State} (r : Req) (x : CtxS) (s : State) (hm : 1137144 ||| m0 = m0) (hs : Frame m0 s0 s) :
    Frame m0 s0 (appendToken r x s) := by
  unfold appendToken
  repeat' (with_reducible first | assumption | (exact Frame.sub hm (by decide)) | exact Frame.refl _ | apply frame_acceptToken | apply frame_bump | apply frame_failReq | apply frame_onCtx | apply frame_onReq | (show ∀ _, _ → _; apply frame_toMember) | (intro _) | refine Frame.snd (by assumption) ?_ | refine Frame.snd3 (by assumption) ?_ | refine Frame.snd4 (by assumption) ?_ | refine Frame.some1 (by assumption) ?_ | refine Frame.some2 (by assumption) ?_ | refine Frame.some3 (by assumption) ?_ | refine Frame.fst (by assumption) ?_ | refine Frame.ite ?_ ?_ | refine Frame.ite2 ?_ ?_ | refine Frame.ite3 ?_ ?_ | split | dsimp only | simp only [Frame.upd_iff, true_or, or_true])

theorem frame_execCtxAppend {m0 : Nat} {s0 : State} (rid : Nat) (s : State) (hm : 1137144 ||| m0 = m0) (hs : Frame m0 s0 s) :
    ∀ z, (execCtxAppend rid s) = .next z → Frame m0 s0 z := by
  intro z e
  unfold execCtxAppend at e
  try dsimp only at e
  first | (split at e <;> first | (injection e with e; subst e)) | (injection e with e; subst e) | skip
  repeat' (with_reducible first | assumption | (exact Frame.sub hm (by decide)) | apply frame_appendToken | apply frame_onCtxReq | (intro _) | refine Frame.ite ?_ ?_ | split | dsimp only | simp only [Frame.upd_iff, true_or, or_true])

theorem frame_nextAppends {m0 : Nat} {s0 : State} (t : Nat) (h : Nat) (s : State) (hm : 1137144 ||| m0 = m0) (hs : Frame m0 s0 s) :
    Frame m0 s0 (nextAppends t h s) := by
  unfold nextAppends
  repeat' (with_reducible first | assumption | (exact Frame.sub hm (by decide)) | apply frame_appendToken | apply frame_foldS | apply frame_onCtxReq | (intro _) | refine Frame.ite ?_ ?_ | split | dsimp only | simp only [Frame.upd_iff, true_or, or_true])

theorem frame_appendAck {m0 : Nat} {s0 : State} (rid : Nat) (st : Nat) (s : State) (hm : 1179128 ||| m0 = m0) (hs : Frame m0 s0 s) :
    Frame m0 s0 (appendAck rid st s) := by
  unfold appendAck
  repeat' (with_reducible first | assumption | (exact Frame.sub hm (by decide)) | apply frame_acceptToken | apply frame_disputeCtx | apply frame_failReq | apply frame_nextAppends | apply frame_whenS | (intro _) | refine Frame.ite ?_ ?_ | split | dsimp only | simp only [Frame.upd_iff, true_or, or_true])

theorem frame_memberAppend {m0 : Nat} {s0 : State} (home : Nat) (t : Nat) (tag : Nat) (inl : Bytes) (body : Bytes) (s : State) (hm : 1178624 ||| m0 = m0) (hs : Frame m0 s0 s) :
    Frame m0 s0 (memberAppend home t tag inl body s) := by
  unfold memberAppend
  repeat' (with_reducible first | assumption | (exact Frame.sub hm (by decide)) | exact Frame.refl _ | apply frame_disputeCtx | apply frame_onCtx | (show ∀ _, _ → _; apply frame_toMember) | (intro _) | refine Frame.snd (by assumption) ?_ | refine Frame.snd3 (by assumption) ?_ | refine Frame.snd4 (by assumption) ?_ | refine Frame.some1 (by assumption) ?_ | refine Frame.some2 (by assumption) ?_ | refine Frame.some3 (by assumption) ?_ | refine Frame.fst (by assumption) ?_ | refine Frame.getD ?_ ?_ | refine Frame.elim ?_ ?_ | refine Frame.elim2 ?_ ?_ | refine Frame.foldl ?_ ?_ | refine Frame.foldl2 ?_ ?_ | refine Frame.foldl3 ?_ ?_ | refine Frame.ite ?_ ?_ | refine Frame.ite2 ?_ ?_ | refine Frame.ite3 ?_ ?_ | split | dsimp only | simp only [Frame.upd_iff, true_or, or_true])

theorem frame_sendMember {m0 : Nat} {s0 : State} (r : Req) (a : AParam) (m : Nat) (s : State) (hm : 1137144 ||| m0 = m0) (hs : Frame m0 s0 s) :
    Frame m0 s0 (sendMember r a m s) := by
  unfold sendMember
  repeat' (with_reducible first | assumption | (exact Frame.sub hm (by decide)) | exact Frame.refl _ | apply frame_memberFailed | (show ∀ _, _ → _; apply frame_schedSend) | (intro _) | refine Frame.snd (by assumption) ?_ | refine Frame.snd3 (by assumption) ?_ | refine Frame.snd4 (by assumption) ?_ | refine Frame.some1 (by assumption) ?_ | refine Frame.some2 (by assumption) ?_ | refine Frame.some3 (by assumption) ?_ | refine Frame.fst (by assumption) ?_ | refine Frame.ite ?_ ?_ | refine Frame.ite2 ?_ ?_ | refine Frame.ite3 ?_ ?_ | split | dsimp only | simp only [Frame.upd_iff, true_or, or_true])

theorem frame_beginAttend {m0 : Nat} {s0 : State} (r : Req) (x : CtxS) (s : State) (hm : 1179128 ||| m0 = m0) (hs : Frame m0 s0 s) :
    Frame m0 s0 (beginAttend r x s) := by
  unfold beginAttend
  repeat' (with_reducible first | assumption | (exact Frame.sub hm (by decide)) | apply frame_addMember | apply frame_attendStep | apply frame_foldS | apply frame_movePaths | apply frame_onReq | apply frame_sendMember | (intro _) | refine Frame.ite ?_ ?_ | split | dsimp only | simp only [Frame.upd_iff, true_or, or_true])

theorem frame_execCtxAttend {m0 : Nat} {s0 : State} (rid : Nat) (s : State) (hm : 1179128 ||| m0 = m0) (hs : Frame m0 s0 s) :
    ∀ z, (execCtxAttend rid s) = .next z → Frame m0 s0 z := by
  intro z e
  unfold execCtxAttend at e
  try dsimp only at e
  first | (split at e <;> first | (injection e with e; subst e)) | (injection e with e; subst e) | skip
  repeat' (with_reducible first | assumption | (exact Frame.sub hm (by decide)) | apply frame_beginAttend | apply frame_onCtxReq | (intro _) | refine Frame.ite ?_ ?_ | split | dsimp only | simp only [Frame.upd_iff, true_or, or_true])

theorem frame_memberAttend {m0 : Nat} {s0 : State} (home : Nat) (t : Nat) (tag : Nat) (cause : Nat) (mode : Nat) (layer : Nat) (point : Nat) (inl : Bytes) (q : Bytes) (s : State) (hm : 1179128 ||| m0 = m0) (hs : Frame m0 s0 s) :
    Frame m0 s0 (memberAttend home t tag cause mode layer point inl q s) := by
  unfold memberAttend
  repeat' (with_reducible first | assumption | (exact Frame.sub hm (by decide)) | apply frame_addMember | apply frame_movePaths | apply frame_treeInput | split | dsimp only | simp only [Frame.upd_iff, true_or, or_true])

theorem frame_execTokenFoldDone {m0 : Nat} {s0 : State} (h : Nat) (s : State) (hm : 1310200 ||| m0 = m0) (hs : Frame m0 s0 s) :
    ∀ z, (execTokenFoldDone h s) = .next z → Frame m0 s0 z := by
  intro z e
  unfold execTokenFoldDone at e
  try dsimp only at e
  first | (split at e <;> first | (injection e with e; subst e)) | (injection e with e; subst e) | skip
  repeat' (with_reducible first | assumption | (exact Frame.sub hm (by decide)) | apply frame_foldDone | apply frame_movePaths | split | dsimp only | simp only [Frame.upd_iff, true_or, or_true])

end Sys2Proof.Machine
end

