-- ==== Sys2Proof/Laws/FrameEmbOps.lean ====
section
/-! SUPPORT. FrameEmbOps: each operation of Machine/EmbOps.lean changes only the fields of `State`
that its mask names (`Frame`). -/
namespace Sys2Proof.Machine
set_option Elab.async false
set_option linter.all false

theorem frame_onTab {m0 : Nat} {s0 : State} (slot : Nat) (f : Tab → Tab) (s : State) (hm : 65536 ||| m0 = m0) (hs : Frame m0 s0 s) :
    Frame m0 s0 (onTab slot f s) := by
  have b16 := Frame.bit hm (k := 16) (by decide)
  unfold onTab
  repeat' (with_reducible first | assumption | (exact Frame.sub hm (by decide)) | split | dsimp only | simp only [Frame.upd_iff, b16, true_or, or_true])

theorem frame_tabBump {m0 : Nat} {s0 : State} (slot : Nat) (sub : Nat) (n : Nat) (s : State) (hm : 4096 ||| m0 = m0) (hs : Frame m0 s0 s) :
    Frame m0 s0 (tabBump slot sub n s) := by
  unfold tabBump
  repeat' (with_reducible first | assumption | (exact Frame.sub hm (by decide)) | apply frame_bumpBy | split | dsimp only | simp only [Frame.upd_iff, true_or, or_true])

theorem frame_breakTab {m0 : Nat} {s0 : State} (slot : Nat) (s : State) (hm : 69888 ||| m0 = m0) (hs : Frame m0 s0 s) :
    Frame m0 s0 (breakTab slot s) := by
  unfold breakTab
  repeat' (with_reducible first | assumption | (exact Frame.sub hm (by decide)) | apply frame_addNote | apply frame_onTab | split | dsimp only | simp only [Frame.upd_iff, true_or, or_true])

theorem frame_zeroRange {m0 : Nat} {s0 : State} (a : Nat) (n : Nat) (s : State) (hm : 8 ||| m0 = m0) (hs : Frame m0 s0 s) :
    Frame m0 s0 (zeroRange a n s) := by
  have b3 := Frame.bit hm (k := 3) (by decide)
  unfold zeroRange
  repeat' (with_reducible first | assumption | (exact Frame.sub hm (by decide)) | split | dsimp only | simp only [Frame.upd_iff, b3, true_or, or_true])

theorem frame_showHot {m0 : Nat} {s0 : State} (s : State) (hm : 4096 ||| m0 = m0) (hs : Frame m0 s0 s) :
    Frame m0 s0 (showHot s) := by
  unfold showHot
  repeat' (with_reducible first | assumption | (exact Frame.sub hm (by decide)) | apply frame_dirSet | split | dsimp only | simp only [Frame.upd_iff, true_or, or_true])

theorem frame_hotLost {m0 : Nat} {s0 : State} (slot : Nat) (row : Nat) (s : State) (hm : 69632 ||| m0 = m0) (hs : Frame m0 s0 s) :
    Frame m0 s0 (hotLost slot row s) := by
  unfold hotLost
  repeat' (with_reducible first | assumption | (exact Frame.sub hm (by decide)) | apply frame_bump | apply frame_onTab | apply frame_showHot | split | dsimp only | simp only [Frame.upd_iff, true_or, or_true])

theorem frame_readRow {m0 : Nat} {s0 : State} (w : Who) (slot : Nat) (row : Nat) (off : Nat) (n : Nat) (s : State) (hm : 81032 ||| m0 = m0) (hs : Frame m0 s0 s) :
    Frame m0 s0 (readRow w slot row off n s).2.2 := by
  unfold readRow
  repeat' (with_reducible first | assumption | (exact Frame.sub hm (by decide)) | exact Frame.refl _ | apply frame_demandRead | apply frame_hotLost | (intro _) | refine Frame.snd (by assumption) ?_ | refine Frame.snd3 (by assumption) ?_ | refine Frame.snd4 (by assumption) ?_ | refine Frame.some1 (by assumption) ?_ | refine Frame.some2 (by assumption) ?_ | refine Frame.some3 (by assumption) ?_ | refine Frame.fst (by assumption) ?_ | refine Frame.ite ?_ ?_ | refine Frame.ite2 ?_ ?_ | refine Frame.ite3 ?_ ?_ | split | dsimp only | simp only [Frame.upd_iff, true_or, or_true])

theorem frame_writeRow {m0 : Nat} {s0 : State} (w : Who) (atomic : Bool) (slot : Nat) (row : Nat) (off : Nat) (b : Bytes) (s : State) (hm : 15496 ||| m0 = m0) (hs : Frame m0 s0 s) :
    Frame m0 s0 (writeRow w atomic slot row off b s).2 := by
  unfold writeRow
  repeat' (with_reducible first | assumption | (exact Frame.sub hm (by decide)) | apply frame_demandWrite | split | dsimp only | simp only [Frame.upd_iff, true_or, or_true])

theorem frame_onBatch {m0 : Nat} {s0 : State} (slot : Nat) (b : Batch) (f : Batch → Batch) (s : State) (hm : 65536 ||| m0 = m0) (hs : Frame m0 s0 s) :
    Frame m0 s0 (onBatch slot b f s) := by
  unfold onBatch
  repeat' (with_reducible first | assumption | (exact Frame.sub hm (by decide)) | apply frame_onTab | split | dsimp only | simp only [Frame.upd_iff, true_or, or_true])

theorem frame_dropBatch {m0 : Nat} {s0 : State} (slot : Nat) (b : Batch) (s : State) (hm : 65536 ||| m0 = m0) (hs : Frame m0 s0 s) :
    Frame m0 s0 (dropBatch slot b s) := by
  unfold dropBatch
  repeat' (with_reducible first | assumption | (exact Frame.sub hm (by decide)) | apply frame_onTab | split | dsimp only | simp only [Frame.upd_iff, true_or, or_true])

theorem frame_pruneBatches {m0 : Nat} {s0 : State} (slot : Nat) (s : State) (hm : 65536 ||| m0 = m0) (hs : Frame m0 s0 s) :
    Frame m0 s0 (pruneBatches slot s) := by
  unfold pruneBatches
  repeat' (with_reducible first | assumption | (exact Frame.sub hm (by decide)) | apply frame_onTab | split | dsimp only | simp only [Frame.upd_iff, true_or, or_true])

theorem frame_failBatch {m0 : Nat} {s0 : State} (slot : Nat) (status : Nat) (b : Batch) (s : State) (hm : 72184 ||| m0 = m0) (hs : Frame m0 s0 s) :
    Frame m0 s0 (failBatch slot status b s) := by
  unfold failBatch
  repeat' (with_reducible first | assumption | (exact Frame.sub hm (by decide)) | apply frame_dropBatch | apply frame_failReq | apply frame_foldS | (intro _) | refine Frame.ite ?_ ?_ | split | dsimp only | simp only [Frame.upd_iff, true_or, or_true])

theorem frame_deadFail {m0 : Nat} {s0 : State} (slot : Nat) (t : Tab) (b : Batch) (s : State) (hm : 81400 ||| m0 = m0) (hs : Frame m0 s0 s) :
    Frame m0 s0 (deadFail slot t b s) := by
  unfold deadFail
  repeat' (with_reducible first | assumption | (exact Frame.sub hm (by decide)) | apply frame_breakTab | apply frame_failBatch | apply frame_raise | split | dsimp only | simp only [Frame.upd_iff, true_or, or_true])

theorem frame_addRefs {m0 : Nat} {s0 : State} (slot : Nat) (rows : List Nat) (s : State) (hm : 65536 ||| m0 = m0) (hs : Frame m0 s0 s) :
    Frame m0 s0 (addRefs slot rows s) := by
  unfold addRefs
  repeat' (with_reducible first | assumption | (exact Frame.sub hm (by decide)) | apply frame_onTab | split | dsimp only | simp only [Frame.upd_iff, true_or, or_true])

theorem frame_countSubst {m0 : Nat} {s0 : State} (slot : Nat) (l : List (Nat × Nat)) (s : State) (hm : 4096 ||| m0 = m0) (hs : Frame m0 s0 s) :
    Frame m0 s0 (countSubst slot l s) := by
  unfold countSubst
  repeat' (with_reducible first | assumption | (exact Frame.sub hm (by decide)) | apply frame_foldS | apply frame_tabBump | (intro _) | refine Frame.ite ?_ ?_ | split | dsimp only | simp only [Frame.upd_iff, true_or, or_true])

theorem frame_startBatch {m0 : Nat} {s0 : State} (slot : Nat) (b : Batch) (s : State) (hm : 81400 ||| m0 = m0) (hs : Frame m0 s0 s) :
    Frame m0 s0 (startBatch slot b s) := by
  unfold startBatch
  repeat' (with_reducible first | assumption | (exact Frame.sub hm (by decide)) | apply frame_addRefs | apply frame_countSubst | apply frame_deadFail | apply frame_onBatch | apply frame_tabBump | split | dsimp only | simp only [Frame.upd_iff, true_or, or_true])

theorem frame_applyWrites {m0 : Nat} {s0 : State} (slot : Nat) (b : Batch) (s : State) (hm : 81400 ||| m0 = m0) (hs : Frame m0 s0 s) :
    Frame m0 s0 (applyWrites slot b s) := by
  unfold applyWrites
  repeat' (with_reducible first | assumption | (exact Frame.sub hm (by decide)) | exact Frame.refl _ | apply frame_dropBatch | apply frame_endReq | apply frame_failReq | apply frame_foldS | apply frame_onBatch | apply frame_onTab | apply frame_writeRow | (intro _) | refine Frame.snd (by assumption) ?_ | refine Frame.snd3 (by assumption) ?_ | refine Frame.snd4 (by assumption) ?_ | refine Frame.some1 (by assumption) ?_ | refine Frame.some2 (by assumption) ?_ | refine Frame.some3 (by assumption) ?_ | refine Frame.fst (by assumption) ?_ | refine Frame.ite ?_ ?_ | refine Frame.ite2 ?_ ?_ | refine Frame.ite3 ?_ ?_ | split | dsimp only | simp only [Frame.upd_iff, true_or, or_true])

theorem frame_moveTab {m0 : Nat} {s0 : State} (slot : Nat) (s : State) (hm : 81400 ||| m0 = m0) (hs : Frame m0 s0 s) :
    Frame m0 s0 (moveTab slot s) := by
  unfold moveTab
  repeat' (with_reducible first | assumption | (exact Frame.sub hm (by decide)) | apply frame_applyWrites | apply frame_foldS | apply frame_pruneBatches | apply frame_startBatch | (intro _) | refine Frame.ite ?_ ?_ | split | dsimp only | simp only [Frame.upd_iff, true_or, or_true])

theorem frame_moveTabs {m0 : Nat} {s0 : State} (s : State) (hm : 81400 ||| m0 = m0) (hs : Frame m0 s0 s) :
    Frame m0 s0 (moveTabs s) := by
  unfold moveTabs
  repeat' (with_reducible first | assumption | (exact Frame.sub hm (by decide)) | apply frame_foldS | apply frame_moveTab | (intro _) | refine Frame.ite ?_ ?_ | split | dsimp only | simp only [Frame.upd_iff, true_or, or_true])

theorem frame_formBatch {m0 : Nat} {s0 : State} (slot : Nat) (kind : Nat) (round : Nat) (rids : List Nat) (s : State) (hm : 65536 ||| m0 = m0) (hs : Frame m0 s0 s) :
    Frame m0 s0 (formBatch slot kind round rids s) := by
  unfold formBatch
  repeat' (with_reducible first | assumption | (exact Frame.sub hm (by decide)) | apply frame_onTab | split | dsimp only | simp only [Frame.upd_iff, true_or, or_true])

theorem frame_finishGather {m0 : Nat} {s0 : State} (slot : Nat) (t : Tab) (got : SMap Bytes) (bad : SMap Nat) (r : Req) (s : State) (hm : 72184 ||| m0 = m0) (hs : Frame m0 s0 s) :
    Frame m0 s0 (finishGather slot t got bad r s) := by
  unfold finishGather
  repeat' (with_reducible first | assumption | (exact Frame.sub hm (by decide)) | apply frame_addCause | apply frame_countSubst | apply frame_failReq | apply frame_finishReq | apply frame_tabBump | split | dsimp only | simp only [Frame.upd_iff, true_or, or_true])

theorem frame_gatherDone {m0 : Nat} {s0 : State} (slot : Nat) (t : Tab) (b : Batch) (s : State) (hm : 81400 ||| m0 = m0) (hs : Frame m0 s0 s) :
    Frame m0 s0 (gatherDone slot t b s) := by
  unfold gatherDone
  repeat' (with_reducible first | assumption | (exact Frame.sub hm (by decide)) | exact Frame.refl _ | apply frame_bump | apply frame_dropBatch | apply frame_finishGather | apply frame_foldS | apply frame_moveTab | apply frame_readRow | (intro _) | refine Frame.snd (by assumption) ?_ | refine Frame.snd3 (by assumption) ?_ | refine Frame.snd4 (by assumption) ?_ | refine Frame.some1 (by assumption) ?_ | refine Frame.some2 (by assumption) ?_ | refine Frame.some3 (by assumption) ?_ | refine Frame.fst (by assumption) ?_ | refine Frame.getD ?_ ?_ | refine Frame.elim ?_ ?_ | refine Frame.elim2 ?_ ?_ | refine Frame.foldl ?_ ?_ | refine Frame.foldl2 ?_ ?_ | refine Frame.foldl3 ?_ ?_ | refine Frame.ite ?_ ?_ | refine Frame.ite2 ?_ ?_ | refine Frame.ite3 ?_ ?_ | split | dsimp only | simp only [Frame.upd_iff, true_or, or_true])

theorem frame_applyLine {m0 : Nat} {s0 : State} (slot : Nat) (t : Tab) (b : Batch) (i : Nat) (s : State) (hm : 81400 ||| m0 = m0) (hs : Frame m0 s0 s) :
    Frame m0 s0 (applyLine slot t b i s) := by
  unfold applyLine
  repeat' (with_reducible first | assumption | (exact Frame.sub hm (by decide)) | exact Frame.refl _ | apply frame_bump | apply frame_failBatch | apply frame_onBatch | apply frame_readRow | apply frame_writeRow | (intro _) | refine Frame.snd (by assumption) ?_ | refine Frame.snd3 (by assumption) ?_ | refine Frame.snd4 (by assumption) ?_ | refine Frame.some1 (by assumption) ?_ | refine Frame.some2 (by assumption) ?_ | refine Frame.some3 (by assumption) ?_ | refine Frame.fst (by assumption) ?_ | refine Frame.ite ?_ ?_ | refine Frame.ite2 ?_ ?_ | refine Frame.ite3 ?_ ?_ | split | dsimp only | simp only [Frame.upd_iff, true_or, or_true])

theorem frame_finishScatter {m0 : Nat} {s0 : State} (t : Tab) (r : Req) (s : State) (hm : 72184 ||| m0 = m0) (hs : Frame m0 s0 s) :
    Frame m0 s0 (finishScatter t r s) := by
  unfold finishScatter
  repeat' (with_reducible first | assumption | (exact Frame.sub hm (by decide)) | apply frame_addCause | apply frame_finishReq | split | dsimp only | simp only [Frame.upd_iff, true_or, or_true])

theorem frame_setHot {m0 : Nat} {s0 : State} (slot : Nat) (row : Nat) (st : HotSt) (s : State) (hm : 69632 ||| m0 = m0) (hs : Frame m0 s0 s) :
    Frame m0 s0 (setHot slot row st s) := by
  unfold setHot
  repeat' (with_reducible first | assumption | (exact Frame.sub hm (by decide)) | apply frame_onTab | apply frame_showHot | split | dsimp only | simp only [Frame.upd_iff, true_or, or_true])

theorem frame_hotMove {m0 : Nat} {s0 : State} (slot : Nat) (row : Nat) (t : Tab) (s : State) (hm : 1118208 ||| m0 = m0) (hs : Frame m0 s0 s) :
    Frame m0 s0 (hotMove slot row t s) := by
  unfold hotMove
  repeat' (with_reducible first | assumption | (exact Frame.sub hm (by decide)) | apply frame_draw | apply frame_onTab | apply frame_setHot | split | dsimp only | simp only [Frame.upd_iff, true_or, or_true])

theorem frame_pathLosses {m0 : Nat} {s0 : State} (k : Nat) (before : State) (after : State) (hm : 69888 ||| m0 = m0) (hbefore : Frame m0 s0 before) (hafter : Frame m0 s0 after) :
    Frame m0 s0 (pathLosses k before after) := by
  unfold pathLosses
  repeat' (with_reducible first | assumption | (exact Frame.sub hm (by decide)) | apply frame_breakCtx | apply frame_breakTab | apply frame_foldS | (intro _) | refine Frame.ite ?_ ?_ | split | dsimp only | simp only [Frame.upd_iff, true_or, or_true])

end Sys2Proof.Machine
end

