-- ==== Sys2Proof/Laws/FrameEmbedding.lean ====
section
/-! SUPPORT. FrameEmbedding: each operation of Machine/Embedding.lean changes only the fields of `State`
that its mask names (`Frame`). -/
namespace Sys2Proof.Machine
set_option Elab.async false
set_option linter.all false

theorem frame_enterTab {m0 : Nat} {s0 : State} (r : Req) (slot : Nat) (area : Nat) (len : Nat) (s : State) (hm : 69640 ||| m0 = m0) (hs : Frame m0 s0 s) :
    Frame m0 s0 (enterTab r slot area len s) := by
  have b16 := Frame.bit hm (k := 16) (by decide)
  unfold enterTab
  repeat' (with_reducible first | assumption | (exact Frame.sub hm (by decide)) | apply frame_dirPut | apply frame_dirSet | apply frame_foldS | apply frame_zeroRange | (intro _) | refine Frame.ite ?_ ?_ | split | dsimp only | simp only [Frame.upd_iff, b16, true_or, or_true])

theorem frame_createTable {m0 : Nat} {s0 : State} (r : Req) (s : State) (hm : 1153528 ||| m0 = m0) (hs : Frame m0 s0 s) :
    Frame m0 s0 (createTable r s) := by
  unfold createTable
  repeat' (with_reducible first | assumption | (exact Frame.sub hm (by decide)) | exact Frame.refl _ | apply frame_badReq | apply frame_bump | apply frame_endReq | apply frame_enterTab | apply frame_failReq | (show ∀ _, _ → _; apply frame_placeT1) | (intro _) | refine Frame.snd (by assumption) ?_ | refine Frame.snd3 (by assumption) ?_ | refine Frame.snd4 (by assumption) ?_ | refine Frame.some1 (by assumption) ?_ | refine Frame.some2 (by assumption) ?_ | refine Frame.some3 (by assumption) ?_ | refine Frame.fst (by assumption) ?_ | refine Frame.ite ?_ ?_ | refine Frame.ite2 ?_ ?_ | refine Frame.ite3 ?_ ?_ | split | dsimp only | simp only [Frame.upd_iff, true_or, or_true])

theorem frame_execEmbTableCreate {m0 : Nat} {s0 : State} (rid : Nat) (s : State) (hm : 1153528 ||| m0 = m0) (hs : Frame m0 s0 s) :
    ∀ z, (execEmbTableCreate rid s) = .next z → Frame m0 s0 z := by
  intro z e
  unfold execEmbTableCreate at e
  try dsimp only at e
  first | (split at e <;> first | (injection e with e; subst e)) | (injection e with e; subst e) | skip
  repeat' (with_reducible first | assumption | (exact Frame.sub hm (by decide)) | apply frame_createTable | apply frame_onAdmitted | (intro _) | refine Frame.ite ?_ ?_ | split | dsimp only | simp only [Frame.upd_iff, true_or, or_true])

theorem frame_onTabReq {m0 : Nat} {s0 : State} (rid : Nat) (type : Nat) (f : Req → Tab → State → State) (s : State) (hm : 81400 ||| m0 = m0) (hf : ∀ y0 y1 u, Frame m0 s0 u → Frame m0 s0 (f y0 y1 u)) (hs : Frame m0 s0 s) :
    Frame m0 s0 (onTabReq rid type f s) := by
  unfold onTabReq
  repeat' (with_reducible first | assumption | (exact Frame.sub hm (by decide)) | apply frame_failReq | apply frame_moveTab | apply frame_onAdmitted | apply hf | (intro _) | refine Frame.ite ?_ ?_ | split | dsimp only | simp only [Frame.upd_iff, true_or, or_true])

theorem frame_dropTable {m0 : Nat} {s0 : State} (r : Req) (t : Tab) (s : State) (hm : 104952 ||| m0 = m0) (hs : Frame m0 s0 s) :
    Frame m0 s0 (dropTable r t s) := by
  have b16 := Frame.bit hm (k := 16) (by decide)
  unfold dropTable
  repeat' (with_reducible first | assumption | (exact Frame.sub hm (by decide)) | apply frame_dirPut | apply frame_endReq | apply frame_failBatch | apply frame_foldS | apply frame_showHot | apply frame_unplace | (intro _) | refine Frame.ite ?_ ?_ | split | dsimp only | simp only [Frame.upd_iff, b16, true_or, or_true])

theorem frame_execEmbTableDrop {m0 : Nat} {s0 : State} (rid : Nat) (s : State) (hm : 114168 ||| m0 = m0) (hs : Frame m0 s0 s) :
    ∀ z, (execEmbTableDrop rid s) = .next z → Frame m0 s0 z := by
  intro z e
  unfold execEmbTableDrop at e
  try dsimp only at e
  first | (split at e <;> first | (injection e with e; subst e)) | (injection e with e; subst e) | skip
  repeat' (with_reducible first | assumption | (exact Frame.sub hm (by decide)) | apply frame_dropTable | apply frame_onTabReq | (intro _) | refine Frame.ite ?_ ?_ | split | dsimp only | simp only [Frame.upd_iff, true_or, or_true])

theorem frame_joinBatch {m0 : Nat} {s0 : State} (r : Req) (t : Tab) (s : State) (hm : 81400 ||| m0 = m0) (hs : Frame m0 s0 s) :
    Frame m0 s0 (joinBatch r t s) := by
  unfold joinBatch
  repeat' (with_reducible first | assumption | (exact Frame.sub hm (by decide)) | apply frame_moveTab | apply frame_onReq | split | dsimp only | simp only [Frame.upd_iff, true_or, or_true])

theorem frame_execEmbWrite {m0 : Nat} {s0 : State} (rid : Nat) (s : State) (hm : 81400 ||| m0 = m0) (hs : Frame m0 s0 s) :
    ∀ z, (execEmbWrite rid s) = .next z → Frame m0 s0 z := by
  intro z e
  unfold execEmbWrite at e
  try dsimp only at e
  first | (split at e <;> first | (injection e with e; subst e)) | (injection e with e; subst e) | skip
  repeat' (with_reducible first | assumption | (exact Frame.sub hm (by decide)) | apply frame_joinBatch | apply frame_onTabReq | (intro _) | refine Frame.ite ?_ ?_ | split | dsimp only | simp only [Frame.upd_iff, true_or, or_true])

theorem frame_execEmbGather {m0 : Nat} {s0 : State} (rid : Nat) (s : State) (hm : 81400 ||| m0 = m0) (hs : Frame m0 s0 s) :
    ∀ z, (execEmbGather rid s) = .next z → Frame m0 s0 z := by
  intro z e
  unfold execEmbGather at e
  try dsimp only at e
  first | (split at e <;> first | (injection e with e; subst e)) | (injection e with e; subst e) | skip
  repeat' (with_reducible first | assumption | (exact Frame.sub hm (by decide)) | apply frame_joinBatch | apply frame_onTabReq | (intro _) | refine Frame.ite ?_ ?_ | split | dsimp only | simp only [Frame.upd_iff, true_or, or_true])

theorem frame_execEmbScatterAdd {m0 : Nat} {s0 : State} (rid : Nat) (s : State) (hm : 81400 ||| m0 = m0) (hs : Frame m0 s0 s) :
    ∀ z, (execEmbScatterAdd rid s) = .next z → Frame m0 s0 z := by
  intro z e
  unfold execEmbScatterAdd at e
  try dsimp only at e
  first | (split at e <;> first | (injection e with e; subst e)) | (injection e with e; subst e) | skip
  repeat' (with_reducible first | assumption | (exact Frame.sub hm (by decide)) | apply frame_joinBatch | apply frame_onTabReq | (intro _) | refine Frame.ite ?_ ?_ | split | dsimp only | simp only [Frame.upd_iff, true_or, or_true])

theorem frame_execGatherBatchDone {m0 : Nat} {s0 : State} (slot : Nat) (s : State) (hm : 81400 ||| m0 = m0) (hs : Frame m0 s0 s) :
    ∀ z, (execGatherBatchDone slot s) = .next z → Frame m0 s0 z := by
  intro z e
  unfold execGatherBatchDone at e
  try dsimp only at e
  first | (split at e <;> first | (injection e with e; subst e)) | (injection e with e; subst e) | skip
  repeat' (with_reducible first | assumption | (exact Frame.sub hm (by decide)) | apply frame_gatherDone | split | dsimp only | simp only [Frame.upd_iff, true_or, or_true])

theorem frame_execLineAdd {m0 : Nat} {s0 : State} (slot : Nat) (s : State) (hm : 1129976 ||| m0 = m0) (hs : Frame m0 s0 s) :
    ∀ z, (execLineAdd slot s) = .next z → Frame m0 s0 z := by
  intro z e
  unfold execLineAdd at e
  try dsimp only at e
  first | (split at e <;> first | (injection e with e; subst e)) | (injection e with e; subst e) | skip
  repeat' (with_reducible first | assumption | (exact Frame.sub hm (by decide)) | apply frame_applyLine | apply frame_draw | apply frame_moveTab | split | dsimp only | simp only [Frame.upd_iff, true_or, or_true])

theorem frame_execScatterBatchDone {m0 : Nat} {s0 : State} (slot : Nat) (s : State) (hm : 81400 ||| m0 = m0) (hs : Frame m0 s0 s) :
    ∀ z, (execScatterBatchDone slot s) = .next z → Frame m0 s0 z := by
  intro z e
  unfold execScatterBatchDone at e
  try dsimp only at e
  first | (split at e <;> first | (injection e with e; subst e)) | (injection e with e; subst e) | skip
  repeat' (with_reducible first | assumption | (exact Frame.sub hm (by decide)) | apply frame_bump | apply frame_dropBatch | apply frame_finishScatter | apply frame_foldS | apply frame_moveTab | (intro _) | refine Frame.ite ?_ ?_ | split | dsimp only | simp only [Frame.upd_iff, true_or, or_true])

theorem frame_execRowMove {m0 : Nat} {s0 : State} (slot : Nat) (row : Nat) (s : State) (hm : 1118208 ||| m0 = m0) (hs : Frame m0 s0 s) :
    ∀ z, (execRowMove slot row s) = .next z → Frame m0 s0 z := by
  intro z e
  unfold execRowMove at e
  try dsimp only at e
  first | (split at e <;> first | (injection e with e; subst e)) | (injection e with e; subst e) | skip
  repeat' (with_reducible first | assumption | (exact Frame.sub hm (by decide)) | apply frame_hotMove | split | dsimp only | simp only [Frame.upd_iff, true_or, or_true])

theorem frame_execMoveDone {m0 : Nat} {s0 : State} (slot : Nat) (row : Nat) (s : State) (hm : 81400 ||| m0 = m0) (hs : Frame m0 s0 s) :
    ∀ z, (execMoveDone slot row s) = .next z → Frame m0 s0 z := by
  intro z e
  unfold execMoveDone at e
  try dsimp only at e
  first | (split at e <;> first | (injection e with e; subst e)) | (injection e with e; subst e) | skip
  repeat' (with_reducible first | assumption | (exact Frame.sub hm (by decide)) | exact Frame.refl _ | apply frame_bump | apply frame_demandRead | apply frame_demandWrite | apply frame_moveTab | apply frame_onTab | apply frame_setHot | (intro _) | refine Frame.snd (by assumption) ?_ | refine Frame.snd3 (by assumption) ?_ | refine Frame.snd4 (by assumption) ?_ | refine Frame.some1 (by assumption) ?_ | refine Frame.some2 (by assumption) ?_ | refine Frame.some3 (by assumption) ?_ | refine Frame.fst (by assumption) ?_ | refine Frame.ite ?_ ?_ | refine Frame.ite2 ?_ ?_ | refine Frame.ite3 ?_ ?_ | split | dsimp only | simp only [Frame.upd_iff, true_or, or_true])

theorem frame_execRowReturn {m0 : Nat} {s0 : State} (slot : Nat) (row : Nat) (s : State) (hm : 69632 ||| m0 = m0) (hs : Frame m0 s0 s) :
    ∀ z, (execRowReturn slot row s) = .next z → Frame m0 s0 z := by
  intro z e
  unfold execRowReturn at e
  try dsimp only at e
  first | (split at e <;> first | (injection e with e; subst e)) | (injection e with e; subst e) | skip
  repeat' (with_reducible first | assumption | (exact Frame.sub hm (by decide)) | apply frame_setHot | split | dsimp only | simp only [Frame.upd_iff, true_or, or_true])

theorem frame_execReturnDone {m0 : Nat} {s0 : State} (slot : Nat) (row : Nat) (s : State) (hm : 81400 ||| m0 = m0) (hs : Frame m0 s0 s) :
    ∀ z, (execReturnDone slot row s) = .next z → Frame m0 s0 z := by
  intro z e
  unfold execReturnDone at e
  try dsimp only at e
  first | (split at e <;> first | (injection e with e; subst e)) | (injection e with e; subst e) | skip
  repeat' (with_reducible first | assumption | (exact Frame.sub hm (by decide)) | exact Frame.refl _ | apply frame_bump | apply frame_demandRead | apply frame_hotLost | apply frame_moveTab | apply frame_onTab | apply frame_showHot | apply frame_writeRow | (intro _) | refine Frame.snd (by assumption) ?_ | refine Frame.snd3 (by assumption) ?_ | refine Frame.snd4 (by assumption) ?_ | refine Frame.some1 (by assumption) ?_ | refine Frame.some2 (by assumption) ?_ | refine Frame.some3 (by assumption) ?_ | refine Frame.fst (by assumption) ?_ | refine Frame.ite ?_ ?_ | refine Frame.ite2 ?_ ?_ | refine Frame.ite3 ?_ ?_ | split | dsimp only | simp only [Frame.upd_iff, true_or, or_true])

end Sys2Proof.Machine
end

