-- ==== Sys2Proof/Laws/FrameSettle.lean ====
section
/-! SUPPORT. FrameSettle: each operation of Machine/Settle.lean changes only the fields of `State`
that its mask names (`Frame`). -/
namespace Sys2Proof.Machine
set_option Elab.async false
set_option linter.all false

theorem frame_settleFinalist {m0 : Nat} {s0 : State} (p : Part) (pid : Nat) (st : Nat) (b : Bytes) (s : State) (hm : 65536 ||| m0 = m0) (hs : Frame m0 s0 s) :
    Frame m0 s0 (settleFinalist p pid st b s) := by
  unfold settleFinalist
  repeat' (with_reducible first | assumption | (exact Frame.sub hm (by decide)) | apply frame_onPart | split | dsimp only | simp only [Frame.upd_iff, true_or, or_true])

theorem frame_settleSpilled {m0 : Nat} {s0 : State} (p : Part) (pid : Nat) (st : Nat) (b : Bytes) (s : State) (hm : 65536 ||| m0 = m0) (hs : Frame m0 s0 s) :
    Frame m0 s0 (settleSpilled p pid st b s) := by
  unfold settleSpilled
  repeat' (with_reducible first | assumption | (exact Frame.sub hm (by decide)) | apply frame_onPart | split | dsimp only | simp only [Frame.upd_iff, true_or, or_true])

theorem frame_settleVector {m0 : Nat} {s0 : State} (p : Part) (pid : Nat) (st : Nat) (s : State) (hm : 1310200 ||| m0 = m0) (hs : Frame m0 s0 s) :
    Frame m0 s0 (settleVector p pid st s) := by
  unfold settleVector
  repeat' (with_reducible first | assumption | (exact Frame.sub hm (by decide)) | apply frame_onPart | apply frame_ownStaged | apply frame_unstage | split | dsimp only | simp only [Frame.upd_iff, true_or, or_true])

theorem frame_settleOne {m0 : Nat} {s0 : State} (d : Nat × Nat × Nat × Bytes) (s : State) (hm : 1310200 ||| m0 = m0) (hs : Frame m0 s0 s) :
    Frame m0 s0 (settleOne d s) := by
  unfold settleOne
  repeat' (with_reducible first | assumption | (exact Frame.sub hm (by decide)) | apply frame_settleFinalist | apply frame_settleSpilled | apply frame_settleVector | split | dsimp only | simp only [Frame.upd_iff, true_or, or_true])

theorem frame_settlePaths {m0 : Nat} {s0 : State} (s : State) (hm : 1310200 ||| m0 = m0) (hs : Frame m0 s0 s) :
    Frame m0 s0 (settlePaths s) := by
  have b6 := Frame.bit hm (k := 6) (by decide)
  unfold settlePaths
  repeat' (with_reducible first | assumption | (exact Frame.sub hm (by decide)) | apply frame_foldS | apply frame_movePaths | apply frame_settleOne | (intro _) | refine Frame.ite ?_ ?_ | split | dsimp only | simp only [Frame.upd_iff, b6, true_or, or_true])

theorem frame_execParcelDelivered {m0 : Nat} {s0 : State} (pid : Nat) (s : State) (hm : 1310200 ||| m0 = m0) (hs : Frame m0 s0 s) :
    ∀ z, (execParcelDelivered pid s) = .next z → Frame m0 s0 z := by
  intro z e
  unfold execParcelDelivered at e
  try dsimp only at e
  first | (split at e <;> first | (injection e with e; subst e)) | (injection e with e; subst e) | skip
  repeat' (with_reducible first | assumption | (exact Frame.sub hm (by decide)) | apply frame_deliverParcel | apply frame_settlePaths | split | dsimp only | simp only [Frame.upd_iff, true_or, or_true])

theorem frame_execTierTimeout {m0 : Nat} {s0 : State} (pid : Nat) (s : State) (hm : 1310200 ||| m0 = m0) (hs : Frame m0 s0 s) :
    ∀ z, (execTierTimeout pid s) = .next z → Frame m0 s0 z := by
  intro z e
  unfold execTierTimeout at e
  try dsimp only at e
  first | (split at e <;> first | (injection e with e; subst e)) | (injection e with e; subst e) | skip
  repeat' (with_reducible first | assumption | (exact Frame.sub hm (by decide)) | apply frame_settlePaths | apply frame_tierTimeout | split | dsimp only | simp only [Frame.upd_iff, true_or, or_true])

theorem frame_execFlashWriteCompletion {m0 : Nat} {s0 : State} (pid : Nat) (s : State) (hm : 1310200 ||| m0 = m0) (hs : Frame m0 s0 s) :
    ∀ z, (execFlashWriteCompletion pid s) = .next z → Frame m0 s0 z := by
  intro z e
  unfold execFlashWriteCompletion at e
  try dsimp only at e
  first | (split at e <;> first | (injection e with e; subst e)) | (injection e with e; subst e) | skip
  repeat' (with_reducible first | assumption | (exact Frame.sub hm (by decide)) | apply frame_flashWriteDone | apply frame_settlePaths | split | dsimp only | simp only [Frame.upd_iff, true_or, or_true])

theorem frame_execFlashReadDone {m0 : Nat} {s0 : State} (pid : Nat) (r : ReadOutcome) (s : State) (hm : 1310200 ||| m0 = m0) (hs : Frame m0 s0 s) :
    ∀ z, (execFlashReadDone pid r s) = .next z → Frame m0 s0 z := by
  intro z e
  unfold execFlashReadDone at e
  try dsimp only at e
  first | (split at e <;> first | (injection e with e; subst e)) | (injection e with e; subst e) | skip
  repeat' (with_reducible first | assumption | (exact Frame.sub hm (by decide)) | apply frame_flashReadDone | apply frame_settlePaths | split | dsimp only | simp only [Frame.upd_iff, true_or, or_true])

theorem frame_passCompleted {m0 : Nat} {s0 : State} (k : Nat) (p : Pass) (s : State) (hm : 1179128 ||| m0 = m0) (hs : Frame m0 s0 s) :
    Frame m0 s0 (passCompleted k p s) := by
  unfold passCompleted
  repeat' (with_reducible first | assumption | (exact Frame.sub hm (by decide)) | apply frame_attendPassDone | apply frame_movePaths | apply frame_passStackDone | split | dsimp only | simp only [Frame.upd_iff, true_or, or_true])

theorem frame_execCompletionRecord {m0 : Nat} {s0 : State} (k : Nat) (s : State) (hm : 1179128 ||| m0 = m0) (hs : Frame m0 s0 s) :
    ∀ z, (execCompletionRecord k s) = .next z → Frame m0 s0 z := by
  intro z e
  unfold execCompletionRecord at e
  try dsimp only at e
  first | (split at e <;> first | (injection e with e; subst e)) | (injection e with e; subst e) | skip
  repeat' (with_reducible first | assumption | (exact Frame.sub hm (by decide)) | apply frame_completionRecord | apply frame_movePaths | apply frame_moveTabs | apply frame_passCompleted | apply frame_pathLosses | split | dsimp only | simp only [Frame.upd_iff, true_or, or_true])

theorem frame_execRefreshWatchdog {m0 : Nat} {s0 : State} (k : Nat) (s : State) (hm : 1179128 ||| m0 = m0) (hs : Frame m0 s0 s) :
    ∀ z, (execRefreshWatchdog k s) = .next z → Frame m0 s0 z := by
  intro z e
  unfold execRefreshWatchdog at e
  try dsimp only at e
  first | (split at e <;> first | (injection e with e; subst e)) | (injection e with e; subst e) | skip
  repeat' (with_reducible first | assumption | (exact Frame.sub hm (by decide)) | apply frame_movePaths | apply frame_pathLosses | apply frame_refreshWatchdog | split | dsimp only | simp only [Frame.upd_iff, true_or, or_true])

end Sys2Proof.Machine
end

