-- ==== Sys2Proof/Laws/FrameHxt.lean ====
section
/-! SUPPORT. FrameHxt: each operation of Machine/Hxt.lean changes only the fields of `State`
that its mask names (`Frame`). -/
namespace Sys2Proof.Machine
set_option Elab.async false
set_option linter.all false

theorem frame_takeSegment {m0 : Nat} {s0 : State} (x : Sess) (a : Asm) (p : Packet) (colour : Nat) (s : State) (hm : 4864 ||| m0 = m0) (hs : Frame m0 s0 s) :
    Frame m0 s0 (takeSegment x a p colour s) := by
  unfold takeSegment
  repeat' (with_reducible first | assumption | (exact Frame.sub hm (by decide)) | apply frame_completeAsm | apply frame_onAsm | apply frame_rearmNote | apply frame_thresholdNote | split | dsimp only | simp only [Frame.upd_iff, true_or, or_true])

theorem frame_cutAsm {m0 : Nat} {s0 : State} (a : Asm) (p : Packet) (status : Nat) (detail : Nat) (s : State) (hm : 4352 ||| m0 = m0) (hs : Frame m0 s0 s) :
    Frame m0 s0 (cutAsm a p status detail s) := by
  unfold cutAsm
  repeat' (with_reducible first | assumption | (exact Frame.sub hm (by decide)) | apply frame_endAsm | split | dsimp only | simp only [Frame.upd_iff, true_or, or_true])

theorem frame_disposeSegment {m0 : Nat} {s0 : State} (x : Sess) (a : Asm) (p : Packet) (colour : Nat) (s : State) (hm : 4864 ||| m0 = m0) (hs : Frame m0 s0 s) :
    Frame m0 s0 (disposeSegment x a p colour s) := by
  unfold disposeSegment
  repeat' (with_reducible first | assumption | (exact Frame.sub hm (by decide)) | apply frame_queueFull | apply frame_takeSegment | apply frame_yellowDrop | split | dsimp only | simp only [Frame.upd_iff, true_or, or_true])

theorem frame_placeSegment {m0 : Nat} {s0 : State} (x : Sess) (p : Packet) (colour : Nat) (s : State) (hm : 4864 ||| m0 = m0) (hs : Frame m0 s0 s) :
    Frame m0 s0 (placeSegment x p colour s) := by
  have b8 := Frame.bit hm (k := 8) (by decide)
  unfold placeSegment
  repeat' (with_reducible first | assumption | (exact Frame.sub hm (by decide)) | apply frame_cutAsm | apply frame_disposeSegment | split | dsimp only | simp only [Frame.upd_iff, b8, true_or, or_true])

theorem frame_heardFrom {m0 : Nat} {s0 : State} (x : Sess) (p : Packet) (s : State) (hm : 256 ||| m0 = m0) (hs : Frame m0 s0 s) :
    Frame m0 s0 (heardFrom x p s) := by
  unfold heardFrom
  repeat' (with_reducible first | assumption | (exact Frame.sub hm (by decide)) | apply frame_onSess | apply frame_sendFreshNotes | split | dsimp only | simp only [Frame.upd_iff, true_or, or_true])

theorem frame_unknownSession {m0 : Nat} {s0 : State} (p : Packet) (s : State) (hm : 4352 ||| m0 = m0) (hs : Frame m0 s0 s) :
    Frame m0 s0 (unknownSession p s) := by
  have b8 := Frame.bit hm (k := 8) (by decide)
  unfold unknownSession
  repeat' (with_reducible first | assumption | (exact Frame.sub hm (by decide)) | apply frame_pkDrop | apply frame_putOut | split | dsimp only | simp only [Frame.upd_iff, b8, true_or, or_true])

theorem frame_policeFor {m0 : Nat} {s0 : State} (x : Sess) (p : Packet) (s : State) (hm : 4608 ||| m0 = m0) (hs : Frame m0 s0 s) :
    Frame m0 s0 (policeFor x p s).2 := by
  unfold policeFor
  repeat' (with_reducible first | assumption | (exact Frame.sub hm (by decide)) | apply frame_police | split | dsimp only | simp only [Frame.upd_iff, true_or, or_true])

theorem frame_execEnvelope {m0 : Nat} {s0 : State} (p : Packet) (s : State) (hm : 4864 ||| m0 = m0) (hs : Frame m0 s0 s) :
    ∀ z, (execEnvelope p s) = .next z → Frame m0 s0 z := by
  intro z e
  unfold execEnvelope at e
  try dsimp only at e
  first | (split at e <;> first | (injection e with e; subst e)) | (injection e with e; subst e) | skip
  repeat' (with_reducible first | assumption | (exact Frame.sub hm (by decide)) | apply frame_heardFrom | apply frame_onPacket | apply frame_placeSegment | apply frame_policeFor | apply frame_redDrop | apply frame_unknownSession | (intro _) | refine Frame.ite ?_ ?_ | split | dsimp only | simp only [Frame.upd_iff, true_or, or_true])

theorem frame_execReassemblyExpiry {m0 : Nat} {s0 : State} (sid : Nat) (pm : Nat) (s : State) (hm : 4352 ||| m0 = m0) (hs : Frame m0 s0 s) :
    ∀ z, (execReassemblyExpiry sid pm s) = .next z → Frame m0 s0 z := by
  have b8 := Frame.bit hm (k := 8) (by decide)
  intro z e
  unfold execReassemblyExpiry at e
  try dsimp only at e
  first | (split at e <;> first | (injection e with e; subst e)) | (injection e with e; subst e) | skip
  repeat' (with_reducible first | assumption | (exact Frame.sub hm (by decide)) | apply frame_bump | apply frame_dropAsm | split | dsimp only | simp only [Frame.upd_iff, b8, true_or, or_true])

theorem frame_refuse {m0 : Nat} {s0 : State} (p : Packet) (helloId : Nat) (status : Nat) (s : State) (hm : 4352 ||| m0 = m0) (hs : Frame m0 s0 s) :
    Frame m0 s0 (refuse p helloId status s) := by
  unfold refuse
  repeat' (with_reducible first | assumption | (exact Frame.sub hm (by decide)) | apply frame_bump | apply frame_putOut | apply frame_whenS | (intro _) | refine Frame.ite ?_ ?_ | split | dsimp only | simp only [Frame.upd_iff, true_or, or_true])

theorem frame_challenge {m0 : Nat} {s0 : State} (p : Packet) (v : Nat) (s : State) (hm : 1048832 ||| m0 = m0) (hs : Frame m0 s0 s) :
    Frame m0 s0 (challenge p v s) := by
  have b8 := Frame.bit hm (k := 8) (by decide)
  unfold challenge
  repeat' (with_reducible first | assumption | (exact Frame.sub hm (by decide)) | apply frame_draw | apply frame_putOut | split | dsimp only | simp only [Frame.upd_iff, b8, true_or, or_true])

theorem frame_execHello {m0 : Nat} {s0 : State} (p : Packet) (s : State) (hm : 1052928 ||| m0 = m0) (hs : Frame m0 s0 s) :
    ∀ z, (execHello p s) = .next z → Frame m0 s0 z := by
  intro z e
  unfold execHello at e
  try dsimp only at e
  first | (split at e <;> first | (injection e with e; subst e)) | (injection e with e; subst e) | skip
  repeat' (with_reducible first | assumption | (exact Frame.sub hm (by decide)) | apply frame_bump | apply frame_challenge | apply frame_onPacket | apply frame_refuse | (intro _) | refine Frame.ite ?_ ?_ | split | dsimp only | simp only [Frame.upd_iff, true_or, or_true])

theorem frame_sessCount {m0 : Nat} {s0 : State} (s : State) (hm : 4096 ||| m0 = m0) (hs : Frame m0 s0 s) :
    Frame m0 s0 (sessCount s) := by
  unfold sessCount
  repeat' (with_reducible first | assumption | (exact Frame.sub hm (by decide)) | apply frame_dirSet | split | dsimp only | simp only [Frame.upd_iff, true_or, or_true])

theorem frame_welcome {m0 : Nat} {s0 : State} (p : Packet) (c : Chal) (x : Sess) (s : State) (hm : 256 ||| m0 = m0) (hs : Frame m0 s0 s) :
    Frame m0 s0 (welcome p c x s) := by
  unfold welcome
  repeat' (with_reducible first | assumption | (exact Frame.sub hm (by decide)) | apply frame_putOut | split | dsimp only | simp only [Frame.upd_iff, true_or, or_true])

theorem frame_dropChal {m0 : Nat} {s0 : State} (sid : Nat) (chain : Bool) (s : State) (hm : 256 ||| m0 = m0) (hs : Frame m0 s0 s) :
    Frame m0 s0 (dropChal sid chain s) := by
  have b8 := Frame.bit hm (k := 8) (by decide)
  unfold dropChal
  repeat' (with_reducible first | assumption | (exact Frame.sub hm (by decide)) | split | dsimp only | simp only [Frame.upd_iff, b8, true_or, or_true])

theorem frame_addSess {m0 : Nat} {s0 : State} (x : Sess) (s : State) (hm : 256 ||| m0 = m0) (hs : Frame m0 s0 s) :
    Frame m0 s0 (addSess x s) := by
  have b8 := Frame.bit hm (k := 8) (by decide)
  unfold addSess
  repeat' (with_reducible first | assumption | (exact Frame.sub hm (by decide)) | split | dsimp only | simp only [Frame.upd_iff, b8, true_or, or_true])

theorem frame_answerChal {m0 : Nat} {s0 : State} (p : Packet) (c : Chal) (s : State) (hm : 15616 ||| m0 = m0) (hs : Frame m0 s0 s) :
    Frame m0 s0 (answerChal p c s) := by
  unfold answerChal
  repeat' (with_reducible first | assumption | (exact Frame.sub hm (by decide)) | apply frame_addSess | apply frame_dropChal | apply frame_record | apply frame_refuse | apply frame_sendFreshNotes | apply frame_sessCount | apply frame_welcome | apply frame_whenS | (intro _) | refine Frame.ite ?_ ?_ | split | dsimp only | simp only [Frame.upd_iff, true_or, or_true])

theorem frame_execResponse {m0 : Nat} {s0 : State} (p : Packet) (s : State) (hm : 15616 ||| m0 = m0) (hs : Frame m0 s0 s) :
    ∀ z, (execResponse p s) = .next z → Frame m0 s0 z := by
  intro z e
  unfold execResponse at e
  try dsimp only at e
  first | (split at e <;> first | (injection e with e; subst e)) | (injection e with e; subst e) | skip
  repeat' (with_reducible first | assumption | (exact Frame.sub hm (by decide)) | apply frame_answerChal | apply frame_dropChal | apply frame_onPacket | apply frame_refuse | (intro _) | refine Frame.ite ?_ ?_ | split | dsimp only | simp only [Frame.upd_iff, true_or, or_true])

theorem frame_execChallengeExpiry {m0 : Nat} {s0 : State} (sid : Nat) (s : State) (hm : 256 ||| m0 = m0) (hs : Frame m0 s0 s) :
    ∀ z, (execChallengeExpiry sid s) = .next z → Frame m0 s0 z := by
  have b8 := Frame.bit hm (k := 8) (by decide)
  intro z e
  unfold execChallengeExpiry at e
  try dsimp only at e
  first | (split at e <;> first | (injection e with e; subst e)) | (injection e with e; subst e) | skip
  repeat' (with_reducible first | assumption | (exact Frame.sub hm (by decide)) | split | dsimp only | simp only [Frame.upd_iff, b8, true_or, or_true])

theorem frame_closeSess {m0 : Nat} {s0 : State} (sid : Nat) (s : State) (hm : 4352 ||| m0 = m0) (hs : Frame m0 s0 s) :
    Frame m0 s0 (closeSess sid s) := by
  have b8 := Frame.bit hm (k := 8) (by decide)
  have b12 := Frame.bit hm (k := 12) (by decide)
  unfold closeSess
  repeat' (with_reducible first | assumption | (exact Frame.sub hm (by decide)) | apply frame_sessCount | split | dsimp only | simp only [Frame.upd_iff, b8, b12, true_or, or_true])

theorem frame_execBye {m0 : Nat} {s0 : State} (p : Packet) (s : State) (hm : 4864 ||| m0 = m0) (hs : Frame m0 s0 s) :
    ∀ z, (execBye p s) = .next z → Frame m0 s0 z := by
  intro z e
  unfold execBye at e
  try dsimp only at e
  first | (split at e <;> first | (injection e with e; subst e)) | (injection e with e; subst e) | skip
  repeat' (with_reducible first | assumption | (exact Frame.sub hm (by decide)) | apply frame_closeSess | apply frame_onPacket | apply frame_pkDrop | apply frame_policeFor | apply frame_redDrop | (intro _) | refine Frame.ite ?_ ?_ | split | dsimp only | simp only [Frame.upd_iff, true_or, or_true])

theorem frame_execSessionIdleClose {m0 : Nat} {s0 : State} (sid : Nat) (s : State) (hm : 4352 ||| m0 = m0) (hs : Frame m0 s0 s) :
    ∀ z, (execSessionIdleClose sid s) = .next z → Frame m0 s0 z := by
  intro z e
  unfold execSessionIdleClose at e
  try dsimp only at e
  first | (split at e <;> first | (injection e with e; subst e)) | (injection e with e; subst e) | skip
  repeat' (with_reducible first | assumption | (exact Frame.sub hm (by decide)) | apply frame_closeSess | split | dsimp only | simp only [Frame.upd_iff, true_or, or_true])

theorem frame_execNoteAck {m0 : Nat} {s0 : State} (p : Packet) (s : State) (hm : 4864 ||| m0 = m0) (hs : Frame m0 s0 s) :
    ∀ z, (execNoteAck p s) = .next z → Frame m0 s0 z := by
  intro z e
  unfold execNoteAck at e
  try dsimp only at e
  first | (split at e <;> first | (injection e with e; subst e)) | (injection e with e; subst e) | skip
  repeat' (with_reducible first | assumption | (exact Frame.sub hm (by decide)) | apply frame_heardFrom | apply frame_onNotes | apply frame_onPacket | apply frame_pkDrop | apply frame_policeFor | apply frame_redDrop | (intro _) | refine Frame.ite ?_ ?_ | split | dsimp only | simp only [Frame.upd_iff, true_or, or_true])

theorem frame_resendNote {m0 : Nat} {s0 : State} (t : Nat) (n : Note) (s : State) (hm : 4352 ||| m0 = m0) (hs : Frame m0 s0 s) :
    Frame m0 s0 (resendNote t n s) := by
  unfold resendNote
  repeat' (with_reducible first | assumption | (exact Frame.sub hm (by decide)) | apply frame_bump | apply frame_onNotes | apply frame_sendNote | split | dsimp only | simp only [Frame.upd_iff, true_or, or_true])

theorem frame_execNoteResend {m0 : Nat} {s0 : State} (t : Nat) (s : State) (hm : 4352 ||| m0 = m0) (hs : Frame m0 s0 s) :
    ∀ z, (execNoteResend t s) = .next z → Frame m0 s0 z := by
  intro z e
  unfold execNoteResend at e
  try dsimp only at e
  first | (split at e <;> first | (injection e with e; subst e)) | (injection e with e; subst e) | skip
  repeat' (with_reducible first | assumption | (exact Frame.sub hm (by decide)) | apply frame_foldS | apply frame_resendNote | (intro _) | refine Frame.ite ?_ ?_ | split | dsimp only | simp only [Frame.upd_iff, true_or, or_true])

theorem frame_execPing {m0 : Nat} {s0 : State} (rid : Nat) (s : State) (hm : 6648 ||| m0 = m0) (hs : Frame m0 s0 s) :
    ∀ z, (execPing rid s) = .next z → Frame m0 s0 z := by
  intro z e
  unfold execPing at e
  try dsimp only at e
  first | (split at e <;> first | (injection e with e; subst e)) | (injection e with e; subst e) | skip
  repeat' (with_reducible first | assumption | (exact Frame.sub hm (by decide)) | apply frame_endReq | split | dsimp only | simp only [Frame.upd_iff, true_or, or_true])

theorem frame_endCancel {m0 : Nat} {s0 : State} (rid : Nat) (result : Nat) (s : State) (hm : 6648 ||| m0 = m0) (hs : Frame m0 s0 s) :
    Frame m0 s0 (endCancel rid result s) := by
  unfold endCancel
  repeat' (with_reducible first | assumption | (exact Frame.sub hm (by decide)) | apply frame_endReq | split | dsimp only | simp only [Frame.upd_iff, true_or, or_true])

theorem frame_cancelWaiting {m0 : Nat} {s0 : State} (sid : Nat) (pm : Nat) (s : State) (hm : 6648 ||| m0 = m0) (hs : Frame m0 s0 s) :
    Frame m0 s0 (cancelWaiting sid pm s) := by
  unfold cancelWaiting
  repeat' (with_reducible first | assumption | (exact Frame.sub hm (by decide)) | apply frame_dropAsm | apply frame_endAsm | apply frame_failReq | apply frame_onSess | apply frame_whenS | (intro _) | refine Frame.ite ?_ ?_ | split | dsimp only | simp only [Frame.upd_iff, true_or, or_true])

theorem frame_execCancel {m0 : Nat} {s0 : State} (rid : Nat) (s : State) (hm : 6648 ||| m0 = m0) (hs : Frame m0 s0 s) :
    ∀ z, (execCancel rid s) = .next z → Frame m0 s0 z := by
  intro z e
  unfold execCancel at e
  try dsimp only at e
  first | (split at e <;> first | (injection e with e; subst e)) | (injection e with e; subst e) | skip
  repeat' (with_reducible first | assumption | (exact Frame.sub hm (by decide)) | apply frame_cancelWaiting | apply frame_endCancel | apply frame_onReq | split | dsimp only | simp only [Frame.upd_iff, true_or, or_true])

end Sys2Proof.Machine
end

