-- ==== Sys2Proof/Laws/FrameMemOps.lean ====
section
/-! SUPPORT. FrameMemOps: each operation of Machine/MemOps.lean changes only the fields of `State`
that its mask names (`Frame`). -/
namespace Sys2Proof.Machine
set_option Elab.async false
set_option linter.all false

theorem frame_eregWrite {m0 : Nat} {s0 : State} (rid : Nat) (v : Nat) (r : EReg) (s : State) (hm : 23032 ||| m0 = m0) (hs : Frame m0 s0 s) :
    Frame m0 s0 (eregWrite rid v r s) := by
  unfold eregWrite
  repeat' (with_reducible first | assumption | (exact Frame.sub hm (by decide)) | apply frame_cabortReg | apply frame_cloadReg | apply frame_cstartReg | apply frame_cstatReg | apply frame_psubmitReg | split | dsimp only | simp only [Frame.upd_iff, true_or, or_true])

theorem frame_segMismatch {m0 : Nat} {s0 : State} (th : Nat) (s : State) (hm : 15360 ||| m0 = m0) (hs : Frame m0 s0 s) :
    Frame m0 s0 (segMismatch th s) := by
  unfold segMismatch
  repeat' (with_reducible first | assumption | (exact Frame.sub hm (by decide)) | apply frame_raise | split | dsimp only | simp only [Frame.upd_iff, true_or, or_true])

theorem frame_loadAcc {m0 : Nat} {s0 : State} (th : Nat) (va : Nat) (n : Nat) (what : RemKind) (put : Bytes → Thread → Thread) (s : State) (hm : 1080824 ||| m0 = m0) (hs : Frame m0 s0 s) :
    Frame m0 s0 (loadAcc th va n what put s).2 := by
  unfold loadAcc
  repeat' (with_reducible first | assumption | (exact Frame.sub hm (by decide)) | exact Frame.refl _ | apply frame_onThread | apply frame_readLocal | apply frame_segMismatch | apply frame_sendRemote | apply frame_takeFault | (intro _) | refine Frame.snd (by assumption) ?_ | refine Frame.snd3 (by assumption) ?_ | refine Frame.snd4 (by assumption) ?_ | refine Frame.some1 (by assumption) ?_ | refine Frame.some2 (by assumption) ?_ | refine Frame.some3 (by assumption) ?_ | refine Frame.fst (by assumption) ?_ | refine Frame.ite ?_ ?_ | refine Frame.ite2 ?_ ?_ | refine Frame.ite3 ?_ ?_ | split | dsimp only | simp only [Frame.upd_iff, true_or, or_true])

theorem frame_storeAcc {m0 : Nat} {s0 : State} (th : Nat) (va : Nat) (b : Bytes) (s : State) (hm : 1080824 ||| m0 = m0) (hs : Frame m0 s0 s) :
    Frame m0 s0 (storeAcc th va b s).2 := by
  unfold storeAcc
  repeat' (with_reducible first | assumption | (exact Frame.sub hm (by decide)) | exact Frame.refl _ | apply frame_eregWrite | apply frame_segMismatch | apply frame_sendRemote | apply frame_takeFault | apply frame_writeLocal | (intro _) | refine Frame.snd (by assumption) ?_ | refine Frame.snd3 (by assumption) ?_ | refine Frame.snd4 (by assumption) ?_ | refine Frame.some1 (by assumption) ?_ | refine Frame.some2 (by assumption) ?_ | refine Frame.some3 (by assumption) ?_ | refine Frame.fst (by assumption) ?_ | refine Frame.ite ?_ ?_ | refine Frame.ite2 ?_ ?_ | refine Frame.ite3 ?_ ?_ | split | dsimp only | simp only [Frame.upd_iff, true_or, or_true])

theorem frame_goOn {m0 : Nat} {s0 : State} (th : Nat) (len : Nat) (r : Bool × State) (hm : 16 ||| m0 = m0) (hr : Frame m0 s0 r.2) :
    Frame m0 s0 (goOn th len r) := by
  unfold goOn
  repeat' (with_reducible first | assumption | (exact Frame.sub hm (by decide)) | apply frame_onThread | split | dsimp only | simp only [Frame.upd_iff, true_or, or_true])

theorem frame_vLoads {m0 : Nat} {s0 : State} (th : Nat) (x1 : List (Nat × Nat × Nat × Nat)) (x2 : State) (hm : 1080824 ||| m0 = m0) (hx2 : Frame m0 s0 x2) :
    Frame m0 s0 (vLoads th x1 x2).2 := by
  induction x1 generalizing th x2 with
  | nil =>
    unfold vLoads
    all_goals try dsimp only
    repeat' (with_reducible first | assumption | (exact Frame.sub hm (by decide)) | exact Frame.refl _ | apply frame_loadAcc | apply frame_onThread | (intro _) | refine Frame.snd (by assumption) ?_ | refine Frame.snd3 (by assumption) ?_ | refine Frame.snd4 (by assumption) ?_ | refine Frame.some1 (by assumption) ?_ | refine Frame.some2 (by assumption) ?_ | refine Frame.some3 (by assumption) ?_ | refine Frame.fst (by assumption) ?_ | refine Frame.ite ?_ ?_ | refine Frame.ite2 ?_ ?_ | refine Frame.ite3 ?_ ?_ | split | dsimp only | simp only [Frame.upd_iff, true_or, or_true])
  | cons a t ih =>
    unfold vLoads
    all_goals try dsimp only
    repeat' (with_reducible first | assumption | (exact Frame.sub hm (by decide)) | exact Frame.refl _ | apply frame_loadAcc | apply frame_onThread | with_reducible apply ih | (intro _) | refine Frame.snd (by assumption) ?_ | refine Frame.snd3 (by assumption) ?_ | refine Frame.snd4 (by assumption) ?_ | refine Frame.some1 (by assumption) ?_ | refine Frame.some2 (by assumption) ?_ | refine Frame.some3 (by assumption) ?_ | refine Frame.fst (by assumption) ?_ | refine Frame.ite ?_ ?_ | refine Frame.ite2 ?_ ?_ | refine Frame.ite3 ?_ ?_ | split | dsimp only | simp only [Frame.upd_iff, true_or, or_true])

theorem frame_vStores {m0 : Nat} {s0 : State} (th : Nat) (x1 : List (Nat × Nat × Nat × Nat)) (x2 : State) (hm : 1080824 ||| m0 = m0) (hx2 : Frame m0 s0 x2) :
    Frame m0 s0 (vStores th x1 x2).2 := by
  induction x1 generalizing th x2 with
  | nil =>
    unfold vStores
    all_goals try dsimp only
    repeat' (with_reducible first | assumption | (exact Frame.sub hm (by decide)) | exact Frame.refl _ | apply frame_onThread | apply frame_storeAcc | (intro _) | refine Frame.snd (by assumption) ?_ | refine Frame.snd3 (by assumption) ?_ | refine Frame.snd4 (by assumption) ?_ | refine Frame.some1 (by assumption) ?_ | refine Frame.some2 (by assumption) ?_ | refine Frame.some3 (by assumption) ?_ | refine Frame.fst (by assumption) ?_ | refine Frame.ite ?_ ?_ | refine Frame.ite2 ?_ ?_ | refine Frame.ite3 ?_ ?_ | split | dsimp only | simp only [Frame.upd_iff, true_or, or_true])
  | cons a t ih =>
    unfold vStores
    all_goals try dsimp only
    repeat' (with_reducible first | assumption | (exact Frame.sub hm (by decide)) | exact Frame.refl _ | apply frame_onThread | apply frame_storeAcc | with_reducible apply ih | (intro _) | refine Frame.snd (by assumption) ?_ | refine Frame.snd3 (by assumption) ?_ | refine Frame.snd4 (by assumption) ?_ | refine Frame.some1 (by assumption) ?_ | refine Frame.some2 (by assumption) ?_ | refine Frame.some3 (by assumption) ?_ | refine Frame.fst (by assumption) ?_ | refine Frame.ite ?_ ?_ | refine Frame.ite2 ?_ ?_ | refine Frame.ite3 ?_ ?_ | split | dsimp only | simp only [Frame.upd_iff, true_or, or_true])

theorem frame_illegalForm {m0 : Nat} {s0 : State} (th : Nat) (s : State) (hm : 6648 ||| m0 = m0) (hs : Frame m0 s0 s) :
    Frame m0 s0 (illegalForm th s) := by
  unfold illegalForm
  repeat' (with_reducible first | assumption | (exact Frame.sub hm (by decide)) | apply frame_takeFault | split | dsimp only | simp only [Frame.upd_iff, true_or, or_true])

theorem frame_doLoad {m0 : Nat} {s0 : State} (th : Nat) (len : Nat) (form : MemForm) (va : Nat) (s : State) (hm : 1080824 ||| m0 = m0) (hs : Frame m0 s0 s) :
    Frame m0 s0 (doLoad th len form va s) := by
  unfold doLoad
  repeat' (with_reducible first | assumption | (exact Frame.sub hm (by decide)) | exact Frame.refl _ | apply frame_goOn | apply frame_illegalForm | apply frame_loadAcc | apply frame_onThread | apply frame_vLoads | (intro _) | refine Frame.snd (by assumption) ?_ | refine Frame.snd3 (by assumption) ?_ | refine Frame.snd4 (by assumption) ?_ | refine Frame.some1 (by assumption) ?_ | refine Frame.some2 (by assumption) ?_ | refine Frame.some3 (by assumption) ?_ | refine Frame.fst (by assumption) ?_ | refine Frame.ite ?_ ?_ | refine Frame.ite2 ?_ ?_ | refine Frame.ite3 ?_ ?_ | split | dsimp only | simp only [Frame.upd_iff, true_or, or_true])

theorem frame_doStore {m0 : Nat} {s0 : State} (th : Nat) (len : Nat) (form : MemForm) (va : Nat) (s : State) (hm : 1080824 ||| m0 = m0) (hs : Frame m0 s0 s) :
    Frame m0 s0 (doStore th len form va s) := by
  unfold doStore
  repeat' (with_reducible first | assumption | (exact Frame.sub hm (by decide)) | exact Frame.refl _ | apply frame_goOn | apply frame_illegalForm | apply frame_onThread | apply frame_storeAcc | apply frame_vStores | (intro _) | refine Frame.snd (by assumption) ?_ | refine Frame.snd3 (by assumption) ?_ | refine Frame.snd4 (by assumption) ?_ | refine Frame.some1 (by assumption) ?_ | refine Frame.some2 (by assumption) ?_ | refine Frame.some3 (by assumption) ?_ | refine Frame.fst (by assumption) ?_ | refine Frame.ite ?_ ?_ | refine Frame.ite2 ?_ ?_ | refine Frame.ite3 ?_ ?_ | split | dsimp only | simp only [Frame.upd_iff, true_or, or_true])

theorem frame_amoHome {m0 : Nat} {s0 : State} (w : Who) (op : AmoOp) (a : Nat) (n : Nat) (src : Nat) (s : State) (hm : 15496 ||| m0 = m0) (hs : Frame m0 s0 s) :
    Frame m0 s0 (amoHome w op a n src s).2.2 := by
  unfold amoHome
  repeat' (with_reducible first | assumption | (exact Frame.sub hm (by decide)) | exact Frame.refl _ | apply frame_demandRead | apply frame_demandWrite | (intro _) | refine Frame.snd (by assumption) ?_ | refine Frame.snd3 (by assumption) ?_ | refine Frame.snd4 (by assumption) ?_ | refine Frame.some1 (by assumption) ?_ | refine Frame.some2 (by assumption) ?_ | refine Frame.some3 (by assumption) ?_ | refine Frame.fst (by assumption) ?_ | refine Frame.ite ?_ ?_ | refine Frame.ite2 ?_ ?_ | refine Frame.ite3 ?_ ?_ | split | dsimp only | simp only [Frame.upd_iff, true_or, or_true])

theorem frame_doAmo {m0 : Nat} {s0 : State} (th : Nat) (len : Nat) (op : AmoOp) (n : Nat) (rd : Nat) (va : Nat) (src : Nat) (s : State) (hm : 1080824 ||| m0 = m0) (hs : Frame m0 s0 s) :
    Frame m0 s0 (doAmo th len op n rd va src s) := by
  unfold doAmo
  repeat' (with_reducible first | assumption | (exact Frame.sub hm (by decide)) | exact Frame.refl _ | apply frame_amoHome | apply frame_breakResv | apply frame_goOn | apply frame_onThread | apply frame_readLocal | apply frame_segMismatch | apply frame_sendRemote | apply frame_takeFault | apply frame_writeLocal | (intro _) | refine Frame.snd (by assumption) ?_ | refine Frame.snd3 (by assumption) ?_ | refine Frame.snd4 (by assumption) ?_ | refine Frame.some1 (by assumption) ?_ | refine Frame.some2 (by assumption) ?_ | refine Frame.some3 (by assumption) ?_ | refine Frame.fst (by assumption) ?_ | refine Frame.ite ?_ ?_ | refine Frame.ite2 ?_ ?_ | refine Frame.ite3 ?_ ?_ | split | dsimp only | simp only [Frame.upd_iff, true_or, or_true])

theorem frame_doLr {m0 : Nat} {s0 : State} (th : Nat) (len : Nat) (n : Nat) (rd : Nat) (va : Nat) (s : State) (hm : 1064440 ||| m0 = m0) (hs : Frame m0 s0 s) :
    Frame m0 s0 (doLr th len n rd va s) := by
  unfold doLr
  repeat' (with_reducible first | assumption | (exact Frame.sub hm (by decide)) | exact Frame.refl _ | apply frame_onThread | apply frame_readLocal | apply frame_segMismatch | apply frame_takeFault | (intro _) | refine Frame.snd (by assumption) ?_ | refine Frame.snd3 (by assumption) ?_ | refine Frame.snd4 (by assumption) ?_ | refine Frame.some1 (by assumption) ?_ | refine Frame.some2 (by assumption) ?_ | refine Frame.some3 (by assumption) ?_ | refine Frame.fst (by assumption) ?_ | refine Frame.ite ?_ ?_ | refine Frame.ite2 ?_ ?_ | refine Frame.ite3 ?_ ?_ | split | dsimp only | simp only [Frame.upd_iff, true_or, or_true])

theorem frame_doSc {m0 : Nat} {s0 : State} (th : Nat) (len : Nat) (n : Nat) (rd : Nat) (va : Nat) (src : Nat) (s : State) (hm : 1064440 ||| m0 = m0) (hs : Frame m0 s0 s) :
    Frame m0 s0 (doSc th len n rd va src s) := by
  unfold doSc
  repeat' (with_reducible first | assumption | (exact Frame.sub hm (by decide)) | exact Frame.refl _ | apply frame_onThread | apply frame_segMismatch | apply frame_takeFault | apply frame_writeLocal | (intro _) | refine Frame.snd (by assumption) ?_ | refine Frame.snd3 (by assumption) ?_ | refine Frame.snd4 (by assumption) ?_ | refine Frame.some1 (by assumption) ?_ | refine Frame.some2 (by assumption) ?_ | refine Frame.some3 (by assumption) ?_ | refine Frame.fst (by assumption) ?_ | refine Frame.ite ?_ ?_ | refine Frame.ite2 ?_ ?_ | refine Frame.ite3 ?_ ?_ | split | dsimp only | simp only [Frame.upd_iff, true_or, or_true])

theorem frame_doFence {m0 : Nat} {s0 : State} (th : Nat) (len : Nat) (pred : Nat) (s : State) (hm : 6648 ||| m0 = m0) (hs : Frame m0 s0 s) :
    Frame m0 s0 (doFence th len pred s) := by
  unfold doFence
  repeat' (with_reducible first | assumption | (exact Frame.sub hm (by decide)) | apply frame_onThread | apply frame_takeFault | split | dsimp only | simp only [Frame.upd_iff, true_or, or_true])

theorem frame_doFenceI {m0 : Nat} {s0 : State} (th : Nat) (len : Nat) (s : State) (hm : 24 ||| m0 = m0) (hs : Frame m0 s0 s) :
    Frame m0 s0 (doFenceI th len s) := by
  have b3 := Frame.bit hm (k := 3) (by decide)
  unfold doFenceI
  repeat' (with_reducible first | assumption | (exact Frame.sub hm (by decide)) | apply frame_onThread | split | dsimp only | simp only [Frame.upd_iff, b3, true_or, or_true])

theorem frame_machineTrap {m0 : Nat} {s0 : State} (th : Nat) (cause : Nat) (tval : Nat) (s : State) (hm : 16 ||| m0 = m0) (hs : Frame m0 s0 s) :
    Frame m0 s0 (machineTrap th cause tval s) := by
  unfold machineTrap
  repeat' (with_reducible first | assumption | (exact Frame.sub hm (by decide)) | apply frame_onThread | split | dsimp only | simp only [Frame.upd_iff, true_or, or_true])

theorem frame_dropStreams {m0 : Nat} {s0 : State} (th : Nat) (s : State) (hm : 80 ||| m0 = m0) (hs : Frame m0 s0 s) :
    Frame m0 s0 (dropStreams th s) := by
  have b4 := Frame.bit hm (k := 4) (by decide)
  unfold dropStreams
  repeat' (with_reducible first | assumption | (exact Frame.sub hm (by decide)) | apply frame_killParcels | split | dsimp only | simp only [Frame.upd_iff, b4, true_or, or_true])

theorem frame_kernelThreadDone {m0 : Nat} {s0 : State} (rid : Nat) (s : State) (hm : 72184 ||| m0 = m0) (hs : Frame m0 s0 s) :
    Frame m0 s0 (kernelThreadDone rid s) := by
  unfold kernelThreadDone
  repeat' (with_reducible first | assumption | (exact Frame.sub hm (by decide)) | apply frame_finishReq | apply frame_onReq | split | dsimp only | simp only [Frame.upd_iff, true_or, or_true])

theorem frame_exitThread {m0 : Nat} {s0 : State} (th : Nat) (s : State) (hm : 72184 ||| m0 = m0) (hs : Frame m0 s0 s) :
    Frame m0 s0 (exitThread th s) := by
  unfold exitThread
  repeat' (with_reducible first | assumption | (exact Frame.sub hm (by decide)) | apply frame_addCause | apply frame_bump | apply frame_bumpBy | apply frame_dropStreams | apply frame_kernelThreadDone | apply frame_onThread | apply frame_whenS | (intro _) | refine Frame.ite ?_ ?_ | split | dsimp only | simp only [Frame.upd_iff, true_or, or_true])

theorem frame_doEcall {m0 : Nat} {s0 : State} (th : Nat) (s : State) (hm : 72184 ||| m0 = m0) (hs : Frame m0 s0 s) :
    Frame m0 s0 (doEcall th s) := by
  unfold doEcall
  repeat' (with_reducible first | assumption | (exact Frame.sub hm (by decide)) | apply frame_exitThread | apply frame_machineTrap | apply frame_takeFault | split | dsimp only | simp only [Frame.upd_iff, true_or, or_true])

end Sys2Proof.Machine
end

