-- ==== Sys2Proof/Laws/FrameSea.lean ====
section
/-! SUPPORT. FrameSea: each operation of Machine/Sea.lean changes only the fields of `State`
that its mask names (`Frame`). -/
namespace Sys2Proof.Machine
set_option Elab.async false
set_option linter.all false

theorem frame_onForm {m0 : Nat} {s0 : State} (th : Nat) (rs1 : Nat) (form : MemForm) (f : State → State) (s : State) (hm : 144 ||| m0 = m0) (hf : ∀ u, Frame m0 s0 u → Frame m0 s0 (f u)) (hs : Frame m0 s0 s) :
    Frame m0 s0 (onForm th rs1 form f s) := by
  unfold onForm
  repeat' (with_reducible first | assumption | (exact Frame.sub hm (by decide)) | apply frame_onRegs | apply hf | split | dsimp only | simp only [Frame.upd_iff, true_or, or_true])

theorem frame_execLoad {m0 : Nat} {s0 : State} (th : Nat) (form : MemForm) (rs1 : Nat) (imm : Int) (s : State) (hm : 1080824 ||| m0 = m0) (hs : Frame m0 s0 s) :
    ∀ z, (execLoad th form rs1 imm s) = .next z → Frame m0 s0 z := by
  intro z e
  unfold execLoad at e
  try dsimp only at e
  first | (split at e <;> first | (injection e with e; subst e)) | (injection e with e; subst e) | skip
  repeat' (with_reducible first | assumption | (exact Frame.sub hm (by decide)) | apply frame_doLoad | apply frame_onForm | (intro _) | refine Frame.ite ?_ ?_ | split | dsimp only | simp only [Frame.upd_iff, true_or, or_true])

theorem frame_execStore {m0 : Nat} {s0 : State} (th : Nat) (form : MemForm) (rs1 : Nat) (imm : Int) (s : State) (hm : 1080824 ||| m0 = m0) (hs : Frame m0 s0 s) :
    ∀ z, (execStore th form rs1 imm s) = .next z → Frame m0 s0 z := by
  intro z e
  unfold execStore at e
  try dsimp only at e
  first | (split at e <;> first | (injection e with e; subst e)) | (injection e with e; subst e) | skip
  repeat' (with_reducible first | assumption | (exact Frame.sub hm (by decide)) | apply frame_doStore | apply frame_onForm | (intro _) | refine Frame.ite ?_ ?_ | split | dsimp only | simp only [Frame.upd_iff, true_or, or_true])

theorem frame_execAmo {m0 : Nat} {s0 : State} (th : Nat) (op : AmoOp) (n : Nat) (rd : Nat) (rs1 : Nat) (rs2 : Nat) (s : State) (hm : 1080824 ||| m0 = m0) (hs : Frame m0 s0 s) :
    ∀ z, (execAmo th op n rd rs1 rs2 s) = .next z → Frame m0 s0 z := by
  intro z e
  unfold execAmo at e
  try dsimp only at e
  first | (split at e <;> first | (injection e with e; subst e)) | (injection e with e; subst e) | skip
  repeat' (with_reducible first | assumption | (exact Frame.sub hm (by decide)) | apply frame_doAmo | apply frame_onRegs | (intro _) | refine Frame.ite ?_ ?_ | split | dsimp only | simp only [Frame.upd_iff, true_or, or_true])

theorem frame_execLrSc {m0 : Nat} {s0 : State} (th : Nat) (sc : Bool) (n : Nat) (rd : Nat) (rs1 : Nat) (rs2 : Nat) (s : State) (hm : 1064440 ||| m0 = m0) (hs : Frame m0 s0 s) :
    ∀ z, (execLrSc th sc n rd rs1 rs2 s) = .next z → Frame m0 s0 z := by
  intro z e
  unfold execLrSc at e
  try dsimp only at e
  first | (split at e <;> first | (injection e with e; subst e)) | (injection e with e; subst e) | skip
  repeat' (with_reducible first | assumption | (exact Frame.sub hm (by decide)) | apply frame_doLr | apply frame_doSc | apply frame_onRegs | (intro _) | refine Frame.ite ?_ ?_ | split | dsimp only | simp only [Frame.upd_iff, true_or, or_true])

theorem frame_execFence {m0 : Nat} {s0 : State} (th : Nat) (pred : Nat) (_succ : Nat) (s : State) (hm : 6648 ||| m0 = m0) (hs : Frame m0 s0 s) :
    ∀ z, (execFence th pred _succ s) = .next z → Frame m0 s0 z := by
  intro z e
  unfold execFence at e
  try dsimp only at e
  first | (split at e <;> first | (injection e with e; subst e)) | (injection e with e; subst e) | skip
  repeat' (with_reducible first | assumption | (exact Frame.sub hm (by decide)) | apply frame_doFence | apply frame_onIssue | (intro _) | refine Frame.ite ?_ ?_ | split | dsimp only | simp only [Frame.upd_iff, true_or, or_true])

theorem frame_execFenceI {m0 : Nat} {s0 : State} (th : Nat) (s : State) (hm : 152 ||| m0 = m0) (hs : Frame m0 s0 s) :
    ∀ z, (execFenceI th s) = .next z → Frame m0 s0 z := by
  intro z e
  unfold execFenceI at e
  try dsimp only at e
  first | (split at e <;> first | (injection e with e; subst e)) | (injection e with e; subst e) | skip
  repeat' (with_reducible first | assumption | (exact Frame.sub hm (by decide)) | apply frame_doFenceI | apply frame_onIssue | (intro _) | refine Frame.ite ?_ ?_ | split | dsimp only | simp only [Frame.upd_iff, true_or, or_true])

theorem frame_execEcallExit {m0 : Nat} {s0 : State} (th : Nat) (s : State) (hm : 72184 ||| m0 = m0) (hs : Frame m0 s0 s) :
    ∀ z, (execEcallExit th s) = .next z → Frame m0 s0 z := by
  intro z e
  unfold execEcallExit at e
  try dsimp only at e
  first | (split at e <;> first | (injection e with e; subst e)) | (injection e with e; subst e) | skip
  repeat' (with_reducible first | assumption | (exact Frame.sub hm (by decide)) | apply frame_doEcall | apply frame_onIssue | (intro _) | refine Frame.ite ?_ ?_ | split | dsimp only | simp only [Frame.upd_iff, true_or, or_true])

theorem frame_unmark {m0 : Nat} {s0 : State} (cl : Nat) (slot : Nat) (s : State) (hm : 8 ||| m0 = m0) (hs : Frame m0 s0 s) :
    Frame m0 s0 (unmark cl slot s) := by
  have b3 := Frame.bit hm (k := 3) (by decide)
  unfold unmark
  repeat' (with_reducible first | assumption | (exact Frame.sub hm (by decide)) | split | dsimp only | simp only [Frame.upd_iff, b3, true_or, or_true])

theorem frame_freeStream {m0 : Nat} {s0 : State} (k : Nat) (s : State) (hm : 24 ||| m0 = m0) (hs : Frame m0 s0 s) :
    Frame m0 s0 (freeStream k s) := by
  have b4 := Frame.bit hm (k := 4) (by decide)
  unfold freeStream
  repeat' (with_reducible first | assumption | (exact Frame.sub hm (by decide)) | apply frame_unmark | split | dsimp only | simp only [Frame.upd_iff, b4, true_or, or_true])

theorem frame_prefetchLine {m0 : Nat} {s0 : State} (k : Nat) (a : Nat) (s : State) (hm : 1064088 ||| m0 = m0) (hs : Frame m0 s0 s) :
    Frame m0 s0 (prefetchLine k a s) := by
  have b3 := Frame.bit hm (k := 3) (by decide)
  unfold prefetchLine
  repeat' (with_reducible first | assumption | (exact Frame.sub hm (by decide)) | apply frame_accessStack | apply frame_makeRoom | apply frame_onStream | split | dsimp only | simp only [Frame.upd_iff, b3, true_or, or_true])

theorem frame_execPrefetchFill {m0 : Nat} {s0 : State} (cl : Nat) (slot : Nat) (line : Nat) (s : State) (hm : 1064088 ||| m0 = m0) (hs : Frame m0 s0 s) :
    ∀ z, (execPrefetchFill cl slot line s) = .next z → Frame m0 s0 z := by
  intro z e
  unfold execPrefetchFill at e
  try dsimp only at e
  first | (split at e <;> first | (injection e with e; subst e)) | (injection e with e; subst e) | skip
  repeat' (with_reducible first | assumption | (exact Frame.sub hm (by decide)) | apply frame_freeStream | apply frame_onStream | apply frame_prefetchLine | split | dsimp only | simp only [Frame.upd_iff, true_or, or_true])

theorem frame_execRemoteAccessTimeout {m0 : Nat} {s0 : State} (th : Nat) (tag : Nat) (s : State) (hm : 6648 ||| m0 = m0) (hs : Frame m0 s0 s) :
    ∀ z, (execRemoteAccessTimeout th tag s) = .next z → Frame m0 s0 z := by
  intro z e
  unfold execRemoteAccessTimeout at e
  try dsimp only at e
  first | (split at e <;> first | (injection e with e; subst e)) | (injection e with e; subst e) | skip
  repeat' (with_reducible first | assumption | (exact Frame.sub hm (by decide)) | apply frame_onThread | apply frame_takeFault | split | dsimp only | simp only [Frame.upd_iff, true_or, or_true])

theorem frame_declareStream {m0 : Nat} {s0 : State} (th : Nat) (z : Stream) (s : State) (hm : 23032 ||| m0 = m0) (hs : Frame m0 s0 s) :
    Frame m0 s0 (declareStream th z s) := by
  have b4 := Frame.bit hm (k := 4) (by decide)
  unfold declareStream
  repeat' (with_reducible first | assumption | (exact Frame.sub hm (by decide)) | apply frame_freeStream | apply frame_issueStream | apply frame_onThread | split | dsimp only | simp only [Frame.upd_iff, b4, true_or, or_true])

theorem frame_doEstream {m0 : Nat} {s0 : State} (th : Nat) (rd : Nat) (arg : Nat) (s : State) (hm : 32248 ||| m0 = m0) (hs : Frame m0 s0 s) :
    Frame m0 s0 (doEstream th rd arg s) := by
  unfold doEstream
  repeat' (with_reducible first | assumption | (exact Frame.sub hm (by decide)) | exact Frame.refl _ | apply frame_declareStream | apply frame_demandRead | apply frame_onThread | apply frame_takeFault | (intro _) | refine Frame.snd (by assumption) ?_ | refine Frame.snd3 (by assumption) ?_ | refine Frame.snd4 (by assumption) ?_ | refine Frame.some1 (by assumption) ?_ | refine Frame.some2 (by assumption) ?_ | refine Frame.some3 (by assumption) ?_ | refine Frame.fst (by assumption) ?_ | refine Frame.ite ?_ ?_ | refine Frame.ite2 ?_ ?_ | refine Frame.ite3 ?_ ?_ | split | dsimp only | simp only [Frame.upd_iff, true_or, or_true])

theorem frame_execEstream {m0 : Nat} {s0 : State} (th : Nat) (rd : Nat) (rs1 : Nat) (s : State) (hm : 32248 ||| m0 = m0) (hs : Frame m0 s0 s) :
    ∀ z, (execEstream th rd rs1 s) = .next z → Frame m0 s0 z := by
  intro z e
  unfold execEstream at e
  try dsimp only at e
  first | (split at e <;> first | (injection e with e; subst e)) | (injection e with e; subst e) | skip
  repeat' (with_reducible first | assumption | (exact Frame.sub hm (by decide)) | apply frame_doEstream | apply frame_onRegs | (intro _) | refine Frame.ite ?_ ?_ | split | dsimp only | simp only [Frame.upd_iff, true_or, or_true])

theorem frame_doEstwait {m0 : Nat} {s0 : State} (th : Nat) (rd : Nat) (arg : Nat) (s : State) (hm : 1048592 ||| m0 = m0) (hs : Frame m0 s0 s) :
    Frame m0 s0 (doEstwait th rd arg s) := by
  unfold doEstwait
  repeat' (with_reducible first | assumption | (exact Frame.sub hm (by decide)) | apply frame_draw | apply frame_onThread | split | dsimp only | simp only [Frame.upd_iff, true_or, or_true])

theorem frame_execEstwait {m0 : Nat} {s0 : State} (th : Nat) (rd : Nat) (rs1 : Nat) (s : State) (hm : 1048720 ||| m0 = m0) (hs : Frame m0 s0 s) :
    ∀ z, (execEstwait th rd rs1 s) = .next z → Frame m0 s0 z := by
  intro z e
  unfold execEstwait at e
  try dsimp only at e
  first | (split at e <;> first | (injection e with e; subst e)) | (injection e with e; subst e) | skip
  repeat' (with_reducible first | assumption | (exact Frame.sub hm (by decide)) | apply frame_doEstwait | apply frame_onRegs | (intro _) | refine Frame.ite ?_ ?_ | split | dsimp only | simp only [Frame.upd_iff, true_or, or_true])

theorem frame_doEstrel {m0 : Nat} {s0 : State} (th : Nat) (rd : Nat) (arg : Nat) (s : State) (hm : 1080824 ||| m0 = m0) (hs : Frame m0 s0 s) :
    Frame m0 s0 (doEstrel th rd arg s) := by
  unfold doEstrel
  repeat' (with_reducible first | assumption | (exact Frame.sub hm (by decide)) | apply frame_drainStream | apply frame_issueStream | apply frame_onStream | apply frame_onThread | apply frame_wakeStream | split | dsimp only | simp only [Frame.upd_iff, true_or, or_true])

theorem frame_execEstrel {m0 : Nat} {s0 : State} (th : Nat) (rd : Nat) (rs1 : Nat) (s : State) (hm : 1080824 ||| m0 = m0) (hs : Frame m0 s0 s) :
    ∀ z, (execEstrel th rd rs1 s) = .next z → Frame m0 s0 z := by
  intro z e
  unfold execEstrel at e
  try dsimp only at e
  first | (split at e <;> first | (injection e with e; subst e)) | (injection e with e; subst e) | skip
  repeat' (with_reducible first | assumption | (exact Frame.sub hm (by decide)) | apply frame_doEstrel | apply frame_onRegs | (intro _) | refine Frame.ite ?_ ?_ | split | dsimp only | simp only [Frame.upd_iff, true_or, or_true])

theorem frame_doEstop {m0 : Nat} {s0 : State} (th : Nat) (rd : Nat) (arg : Nat) (s : State) (hm : 88 ||| m0 = m0) (hs : Frame m0 s0 s) :
    Frame m0 s0 (doEstop th rd arg s) := by
  unfold doEstop
  repeat' (with_reducible first | assumption | (exact Frame.sub hm (by decide)) | apply frame_freeStream | apply frame_killParcels | apply frame_onThread | split | dsimp only | simp only [Frame.upd_iff, true_or, or_true])

theorem frame_execEstop {m0 : Nat} {s0 : State} (th : Nat) (rd : Nat) (rs1 : Nat) (s : State) (hm : 216 ||| m0 = m0) (hs : Frame m0 s0 s) :
    ∀ z, (execEstop th rd rs1 s) = .next z → Frame m0 s0 z := by
  intro z e
  unfold execEstop at e
  try dsimp only at e
  first | (split at e <;> first | (injection e with e; subst e)) | (injection e with e; subst e) | skip
  repeat' (with_reducible first | assumption | (exact Frame.sub hm (by decide)) | apply frame_doEstop | apply frame_onRegs | (intro _) | refine Frame.ite ?_ ?_ | split | dsimp only | simp only [Frame.upd_iff, true_or, or_true])

theorem frame_clearSticky {m0 : Nat} {s0 : State} (th : Nat) (rd : Nat) (rs1 : Nat) (csr : Nat) (s : State) (hm : 144 ||| m0 = m0) (hs : Frame m0 s0 s) :
    Frame m0 s0 (clearSticky th rd rs1 csr s) := by
  unfold clearSticky
  repeat' (with_reducible first | assumption | (exact Frame.sub hm (by decide)) | apply frame_onRegs | apply frame_onThread | (intro _) | refine Frame.ite ?_ ?_ | split | dsimp only | simp only [Frame.upd_iff, true_or, or_true])

theorem frame_execEscstatWrite {m0 : Nat} {s0 : State} (th : Nat) (rd : Nat) (rs1 : Nat) (s : State) (hm : 144 ||| m0 = m0) (hs : Frame m0 s0 s) :
    ∀ z, (execEscstatWrite th rd rs1 s) = .next z → Frame m0 s0 z := by
  intro z e
  unfold execEscstatWrite at e
  try dsimp only at e
  first | (split at e <;> first | (injection e with e; subst e)) | (injection e with e; subst e) | skip
  repeat' (with_reducible first | assumption | (exact Frame.sub hm (by decide)) | apply frame_clearSticky | split | dsimp only | simp only [Frame.upd_iff, true_or, or_true])

theorem frame_execEslstatWrite {m0 : Nat} {s0 : State} (th : Nat) (rd : Nat) (rs1 : Nat) (s : State) (hm : 144 ||| m0 = m0) (hs : Frame m0 s0 s) :
    ∀ z, (execEslstatWrite th rd rs1 s) = .next z → Frame m0 s0 z := by
  intro z e
  unfold execEslstatWrite at e
  try dsimp only at e
  first | (split at e <;> first | (injection e with e; subst e)) | (injection e with e; subst e) | skip
  repeat' (with_reducible first | assumption | (exact Frame.sub hm (by decide)) | apply frame_clearSticky | split | dsimp only | simp only [Frame.upd_iff, true_or, or_true])

theorem frame_rangeLine {m0 : Nat} {s0 : State} (op : Nat) (w : Who) (key : Nat) (s : State) (hm : 15496 ||| m0 = m0) (hs : Frame m0 s0 s) :
    Frame m0 s0 (rangeLine op w key s) := by
  unfold rangeLine
  repeat' (with_reducible first | assumption | (exact Frame.sub hm (by decide)) | apply frame_dropLine | apply frame_writeBackLine | split | dsimp only | simp only [Frame.upd_iff, true_or, or_true])

theorem frame_doRange {m0 : Nat} {s0 : State} (th : Nat) (op : Nat) (w : W32) (s : State) (hm : 15864 ||| m0 = m0) (hs : Frame m0 s0 s) :
    Frame m0 s0 (doRange th op w s) := by
  unfold doRange
  repeat' (with_reducible first | assumption | (exact Frame.sub hm (by decide)) | apply frame_foldS | apply frame_illegal | apply frame_onThread | apply frame_rangeLine | apply frame_segMismatch | apply frame_takeFault | (intro _) | refine Frame.ite ?_ ?_ | split | dsimp only | simp only [Frame.upd_iff, true_or, or_true])

theorem frame_execWb {m0 : Nat} {s0 : State} (th : Nat) (w : W32) (s : State) (hm : 15864 ||| m0 = m0) (hs : Frame m0 s0 s) :
    ∀ z, (execWb th w s) = .next z → Frame m0 s0 z := by
  intro z e
  unfold execWb at e
  try dsimp only at e
  first | (split at e <;> first | (injection e with e; subst e)) | (injection e with e; subst e) | skip
  repeat' (with_reducible first | assumption | (exact Frame.sub hm (by decide)) | apply frame_doRange | apply frame_onRegs | (intro _) | refine Frame.ite ?_ ?_ | split | dsimp only | simp only [Frame.upd_iff, true_or, or_true])

theorem frame_execFlush {m0 : Nat} {s0 : State} (th : Nat) (w : W32) (s : State) (hm : 15864 ||| m0 = m0) (hs : Frame m0 s0 s) :
    ∀ z, (execFlush th w s) = .next z → Frame m0 s0 z := by
  intro z e
  unfold execFlush at e
  try dsimp only at e
  first | (split at e <;> first | (injection e with e; subst e)) | (injection e with e; subst e) | skip
  repeat' (with_reducible first | assumption | (exact Frame.sub hm (by decide)) | apply frame_doRange | apply frame_onRegs | (intro _) | refine Frame.ite ?_ ?_ | split | dsimp only | simp only [Frame.upd_iff, true_or, or_true])

theorem frame_execInv {m0 : Nat} {s0 : State} (th : Nat) (w : W32) (s : State) (hm : 15864 ||| m0 = m0) (hs : Frame m0 s0 s) :
    ∀ z, (execInv th w s) = .next z → Frame m0 s0 z := by
  intro z e
  unfold execInv at e
  try dsimp only at e
  first | (split at e <;> first | (injection e with e; subst e)) | (injection e with e; subst e) | skip
  repeat' (with_reducible first | assumption | (exact Frame.sub hm (by decide)) | apply frame_doRange | apply frame_onRegs | (intro _) | refine Frame.ite ?_ ?_ | split | dsimp only | simp only [Frame.upd_iff, true_or, or_true])

theorem frame_execItemSteal {m0 : Nat} {s0 : State} (c : Nat) (s : State) (hm : 4112 ||| m0 = m0) (hs : Frame m0 s0 s) :
    ∀ z, (execItemSteal c s) = .next z → Frame m0 s0 z := by
  have b4 := Frame.bit hm (k := 4) (by decide)
  intro z e
  unfold execItemSteal at e
  try dsimp only at e
  first | (split at e <;> first | (injection e with e; subst e)) | (injection e with e; subst e) | skip
  repeat' (with_reducible first | assumption | (exact Frame.sub hm (by decide)) | apply frame_bump | split | dsimp only | simp only [Frame.upd_iff, b4, true_or, or_true])

theorem frame_execBudgetSpent {m0 : Nat} {s0 : State} (core : Nat) (t : Nat) (s : State) (hm : 4112 ||| m0 = m0) (hs : Frame m0 s0 s) :
    ∀ z, (execBudgetSpent core t s) = .next z → Frame m0 s0 z := by
  have b4 := Frame.bit hm (k := 4) (by decide)
  intro z e
  unfold execBudgetSpent at e
  try dsimp only at e
  first | (split at e <;> first | (injection e with e; subst e)) | (injection e with e; subst e) | skip
  repeat' (with_reducible first | assumption | (exact Frame.sub hm (by decide)) | apply frame_bump | split | dsimp only | simp only [Frame.upd_iff, b4, true_or, or_true])

end Sys2Proof.Machine
end

