-- ==== Sys2Proof/Laws/FramePigeon.lean ====
section
/-! SUPPORT. FramePigeon: each operation of Machine/Pigeon.lean changes only the fields of `State`
that its mask names (`Frame`). -/
namespace Sys2Proof.Machine
set_option Elab.async false
set_option linter.all false

theorem frame_setOutq {m0 : Nat} {s0 : State} (core : Nat) (l : List Letter) (s : State) (hm : 16 ||| m0 = m0) (hs : Frame m0 s0 s) :
    Frame m0 s0 (setOutq core l s) := by
  have b4 := Frame.bit hm (k := 4) (by decide)
  unfold setOutq
  repeat' (with_reducible first | assumption | (exact Frame.sub hm (by decide)) | split | dsimp only | simp only [Frame.upd_iff, b4, true_or, or_true])

theorem frame_execEpost {m0 : Nat} {s0 : State} (th : Nat) (w : W32) (s : State) (hm : 15864 ||| m0 = m0) (hs : Frame m0 s0 s) :
    ∀ z, (execEpost th w s) = .next z → Frame m0 s0 z := by
  intro z e
  unfold execEpost at e
  try dsimp only at e
  first | (split at e <;> first | (injection e with e; subst e)) | (injection e with e; subst e) | skip
  repeat' (with_reducible first | assumption | (exact Frame.sub hm (by decide)) | exact Frame.refl _ | apply frame_bump | apply frame_demandRead | apply frame_illegal | apply frame_onRegs | apply frame_onThread | apply frame_setOutq | apply frame_takeFault | (intro _) | refine Frame.snd (by assumption) ?_ | refine Frame.snd3 (by assumption) ?_ | refine Frame.snd4 (by assumption) ?_ | refine Frame.some1 (by assumption) ?_ | refine Frame.some2 (by assumption) ?_ | refine Frame.some3 (by assumption) ?_ | refine Frame.fst (by assumption) ?_ | refine Frame.ite ?_ ?_ | refine Frame.ite2 ?_ ?_ | refine Frame.ite3 ?_ ?_ | split | dsimp only | simp only [Frame.upd_iff, true_or, or_true])

theorem frame_doErecv {m0 : Nat} {s0 : State} (th : Nat) (rd : Nat) (arg : Nat) (s : State) (hm : 15864 ||| m0 = m0) (hs : Frame m0 s0 s) :
    Frame m0 s0 (doErecv th rd arg s) := by
  unfold doErecv
  repeat' (with_reducible first | assumption | (exact Frame.sub hm (by decide)) | exact Frame.refl _ | apply frame_onThread | apply frame_retryKnocks | apply frame_storeOwn | apply frame_takeFault | (intro _) | refine Frame.snd (by assumption) ?_ | refine Frame.snd3 (by assumption) ?_ | refine Frame.snd4 (by assumption) ?_ | refine Frame.some1 (by assumption) ?_ | refine Frame.some2 (by assumption) ?_ | refine Frame.some3 (by assumption) ?_ | refine Frame.fst (by assumption) ?_ | refine Frame.ite ?_ ?_ | refine Frame.ite2 ?_ ?_ | refine Frame.ite3 ?_ ?_ | split | dsimp only | simp only [Frame.upd_iff, true_or, or_true])

theorem frame_execErecv {m0 : Nat} {s0 : State} (th : Nat) (rd : Nat) (rs1 : Nat) (s : State) (hm : 15864 ||| m0 = m0) (hs : Frame m0 s0 s) :
    ∀ z, (execErecv th rd rs1 s) = .next z → Frame m0 s0 z := by
  intro z e
  unfold execErecv at e
  try dsimp only at e
  first | (split at e <;> first | (injection e with e; subst e)) | (injection e with e; subst e) | skip
  repeat' (with_reducible first | assumption | (exact Frame.sub hm (by decide)) | apply frame_doErecv | apply frame_onRegs | (intro _) | refine Frame.ite ?_ ?_ | split | dsimp only | simp only [Frame.upd_iff, true_or, or_true])

theorem frame_doEwait {m0 : Nat} {s0 : State} (th : Nat) (rd : Nat) (arg : Nat) (s : State) (hm : 16 ||| m0 = m0) (hs : Frame m0 s0 s) :
    Frame m0 s0 (doEwait th rd arg s) := by
  unfold doEwait
  repeat' (with_reducible first | assumption | (exact Frame.sub hm (by decide)) | apply frame_onThread | split | dsimp only | simp only [Frame.upd_iff, true_or, or_true])

theorem frame_execEwait {m0 : Nat} {s0 : State} (th : Nat) (rd : Nat) (rs1 : Nat) (s : State) (hm : 144 ||| m0 = m0) (hs : Frame m0 s0 s) :
    ∀ z, (execEwait th rd rs1 s) = .next z → Frame m0 s0 z := by
  intro z e
  unfold execEwait at e
  try dsimp only at e
  first | (split at e <;> first | (injection e with e; subst e)) | (injection e with e; subst e) | skip
  repeat' (with_reducible first | assumption | (exact Frame.sub hm (by decide)) | apply frame_doEwait | apply frame_onRegs | (intro _) | refine Frame.ite ?_ ?_ | split | dsimp only | simp only [Frame.upd_iff, true_or, or_true])

theorem frame_execEwaitLimit {m0 : Nat} {s0 : State} (th : Nat) (s : State) (hm : 144 ||| m0 = m0) (hs : Frame m0 s0 s) :
    ∀ z, (execEwaitLimit th s) = .next z → Frame m0 s0 z := by
  intro z e
  unfold execEwaitLimit at e
  try dsimp only at e
  first | (split at e <;> first | (injection e with e; subst e)) | (injection e with e; subst e) | skip
  repeat' (with_reducible first | assumption | (exact Frame.sub hm (by decide)) | apply frame_onThread | apply frame_startWake | apply frame_ungate | split | dsimp only | simp only [Frame.upd_iff, true_or, or_true])

theorem frame_routeLetter {m0 : Nat} {s0 : State} (l : Letter) (s : State) (hm : 20976 ||| m0 = m0) (hs : Frame m0 s0 s) :
    Frame m0 s0 (routeLetter l s) := by
  unfold routeLetter
  repeat' (with_reducible first | assumption | (exact Frame.sub hm (by decide)) | apply frame_deliverOrKeep | apply frame_sendRemoteLetter | split | dsimp only | simp only [Frame.upd_iff, true_or, or_true])

theorem frame_execPigeonholeDelivery {m0 : Nat} {s0 : State} (s : State) (hm : 20976 ||| m0 = m0) (hs : Frame m0 s0 s) :
    ∀ z, (execPigeonholeDelivery s) = .next z → Frame m0 s0 z := by
  have b7 := Frame.bit hm (k := 7) (by decide)
  intro z e
  unfold execPigeonholeDelivery at e
  try dsimp only at e
  first | (split at e <;> first | (injection e with e; subst e)) | (injection e with e; subst e) | skip
  repeat' (with_reducible first | assumption | (exact Frame.sub hm (by decide)) | apply frame_routeLetter | apply frame_setOutq | split | dsimp only | simp only [Frame.upd_iff, b7, true_or, or_true])

theorem frame_passHeld {m0 : Nat} {s0 : State} (c : Nat) (s : State) (hm : 4592 ||| m0 = m0) (hs : Frame m0 s0 s) :
    Frame m0 s0 (passHeld c s) := by
  have b7 := Frame.bit hm (k := 7) (by decide)
  unfold passHeld
  repeat' (with_reducible first | assumption | (exact Frame.sub hm (by decide)) | apply frame_deliverOrKeep | apply frame_foldS | (intro _) | refine Frame.ite ?_ ?_ | split | dsimp only | simp only [Frame.upd_iff, b7, true_or, or_true])

theorem frame_addHeldOvf {m0 : Nat} {s0 : State} (c : Nat) (s : State) (hm : 144 ||| m0 = m0) (hs : Frame m0 s0 s) :
    Frame m0 s0 (addHeldOvf c s) := by
  have b7 := Frame.bit hm (k := 7) (by decide)
  unfold addHeldOvf
  repeat' (with_reducible first | assumption | (exact Frame.sub hm (by decide)) | apply frame_foldS | apply frame_onThread | (intro _) | refine Frame.ite ?_ ?_ | split | dsimp only | simp only [Frame.upd_iff, b7, true_or, or_true])

theorem frame_execClusterWake {m0 : Nat} {s0 : State} (c : Nat) (s : State) (hm : 4592 ||| m0 = m0) (hs : Frame m0 s0 s) :
    ∀ z, (execClusterWake c s) = .next z → Frame m0 s0 z := by
  have b7 := Frame.bit hm (k := 7) (by decide)
  intro z e
  unfold execClusterWake at e
  try dsimp only at e
  first | (split at e <;> first | (injection e with e; subst e)) | (injection e with e; subst e) | skip
  repeat' (with_reducible first | assumption | (exact Frame.sub hm (by decide)) | apply frame_addHeldOvf | apply frame_bump | apply frame_passHeld | apply frame_retryKnocks | split | dsimp only | simp only [Frame.upd_iff, b7, true_or, or_true])

end Sys2Proof.Machine
end

