-- ==== Sys2Proof/Laws/FrameKernel.lean ====
section
/-! SUPPORT. FrameKernel: each operation of Machine/Kernel.lean changes only the fields of `State`
that its mask names (`Frame`). -/
namespace Sys2Proof.Machine
set_option Elab.async false
set_option linter.all false

theorem frame_startThread {m0 : Nat} {s0 : State} (r : Req) (n : Nat) (p : Nat × Nat) (s : State) (hm : 144 ||| m0 = m0) (hs : Frame m0 s0 s) :
    Frame m0 s0 (startThread r n p s) := by
  unfold startThread
  repeat' (with_reducible first | assumption | (exact Frame.sub hm (by decide)) | apply frame_onThread | apply frame_startWake | apply frame_ungate | split | dsimp only | simp only [Frame.upd_iff, true_or, or_true])

theorem frame_startKernel {m0 : Nat} {s0 : State} (rid : Nat) (s : State) (hm : 400 ||| m0 = m0) (hs : Frame m0 s0 s) :
    Frame m0 s0 (startKernel rid s) := by
  unfold startKernel
  repeat' (with_reducible first | assumption | (exact Frame.sub hm (by decide)) | apply frame_foldS | apply frame_onReq | apply frame_startThread | (intro _) | refine Frame.ite ?_ ?_ | split | dsimp only | simp only [Frame.upd_iff, true_or, or_true])

theorem frame_startKernels {m0 : Nat} {s0 : State} (s : State) (hm : 400 ||| m0 = m0) (hs : Frame m0 s0 s) :
    Frame m0 s0 (startKernels s) := by
  unfold startKernels
  repeat' (with_reducible first | assumption | (exact Frame.sub hm (by decide)) | apply frame_foldS | apply frame_startKernel | (intro _) | refine Frame.ite ?_ ?_ | split | dsimp only | simp only [Frame.upd_iff, true_or, or_true])

theorem frame_countRounds {m0 : Nat} {s0 : State} (s : State) (hm : 256 ||| m0 = m0) (hs : Frame m0 s0 s) :
    Frame m0 s0 (countRounds s) := by
  have b8 := Frame.bit hm (k := 8) (by decide)
  unfold countRounds
  repeat' (with_reducible first | assumption | (exact Frame.sub hm (by decide)) | split | dsimp only | simp only [Frame.upd_iff, b8, true_or, or_true])

theorem frame_execKernelRun {m0 : Nat} {s0 : State} (rid : Nat) (s : State) (hm : 6648 ||| m0 = m0) (hs : Frame m0 s0 s) :
    ∀ z, (execKernelRun rid s) = .next z → Frame m0 s0 z := by
  intro z e
  unfold execKernelRun at e
  try dsimp only at e
  first | (split at e <;> first | (injection e with e; subst e)) | (injection e with e; subst e) | skip
  repeat' (with_reducible first | assumption | (exact Frame.sub hm (by decide)) | apply frame_onAdmitted | apply frame_onReq | (intro _) | refine Frame.ite ?_ ?_ | split | dsimp only | simp only [Frame.upd_iff, true_or, or_true])

theorem frame_execKernelRoundLimit {m0 : Nat} {s0 : State} (rid : Nat) (s : State) (hm : 6648 ||| m0 = m0) (hs : Frame m0 s0 s) :
    ∀ z, (execKernelRoundLimit rid s) = .next z → Frame m0 s0 z := by
  intro z e
  unfold execKernelRoundLimit at e
  try dsimp only at e
  first | (split at e <;> first | (injection e with e; subst e)) | (injection e with e; subst e) | skip
  repeat' (with_reducible first | assumption | (exact Frame.sub hm (by decide)) | apply frame_failReq | split | dsimp only | simp only [Frame.upd_iff, true_or, or_true])

end Sys2Proof.Machine
end

