-- ==== Sys2Proof/Laws/FramePower.lean ====
section
/-! SUPPORT. FramePower: each operation of Machine/Power.lean changes only the fields of `State`
that its mask names (`Frame`). -/
namespace Sys2Proof.Machine
set_option Elab.async false
set_option linter.all false

theorem frame_execClockGateEntry {m0 : Nat} {s0 : State} (c : Nat) (s : State) (hm : 128 ||| m0 = m0) (hs : Frame m0 s0 s) :
    ∀ z, (execClockGateEntry c s) = .next z → Frame m0 s0 z := by
  have b7 := Frame.bit hm (k := 7) (by decide)
  intro z e
  unfold execClockGateEntry at e
  try dsimp only at e
  first | (split at e <;> first | (injection e with e; subst e)) | (injection e with e; subst e) | skip
  repeat' (with_reducible first | assumption | (exact Frame.sub hm (by decide)) | split | dsimp only | simp only [Frame.upd_iff, b7, true_or, or_true])

theorem frame_execPowerGateEntry {m0 : Nat} {s0 : State} (c : Nat) (s : State) (hm : 128 ||| m0 = m0) (hs : Frame m0 s0 s) :
    ∀ z, (execPowerGateEntry c s) = .next z → Frame m0 s0 z := by
  have b7 := Frame.bit hm (k := 7) (by decide)
  intro z e
  unfold execPowerGateEntry at e
  try dsimp only at e
  first | (split at e <;> first | (injection e with e; subst e)) | (injection e with e; subst e) | skip
  repeat' (with_reducible first | assumption | (exact Frame.sub hm (by decide)) | split | dsimp only | simp only [Frame.upd_iff, b7, true_or, or_true])

theorem frame_emptyCaches {m0 : Nat} {s0 : State} (c : Nat) (s : State) (hm : 15512 ||| m0 = m0) (hs : Frame m0 s0 s) :
    Frame m0 s0 (emptyCaches c s) := by
  have b3 := Frame.bit hm (k := 3) (by decide)
  have b4 := Frame.bit hm (k := 4) (by decide)
  unfold emptyCaches
  repeat' (with_reducible first | assumption | (exact Frame.sub hm (by decide)) | apply frame_dropLine | apply frame_foldS | apply frame_writeBackLine | (intro _) | refine Frame.ite ?_ ?_ | split | dsimp only | simp only [Frame.upd_iff, b3, b4, true_or, or_true])

theorem frame_execPowerGatedDone {m0 : Nat} {s0 : State} (c : Nat) (s : State) (hm : 15512 ||| m0 = m0) (hs : Frame m0 s0 s) :
    ∀ z, (execPowerGatedDone c s) = .next z → Frame m0 s0 z := by
  have b7 := Frame.bit hm (k := 7) (by decide)
  intro z e
  unfold execPowerGatedDone at e
  try dsimp only at e
  first | (split at e <;> first | (injection e with e; subst e)) | (injection e with e; subst e) | skip
  repeat' (with_reducible first | assumption | (exact Frame.sub hm (by decide)) | apply frame_emptyCaches | split | dsimp only | simp only [Frame.upd_iff, b7, true_or, or_true])

theorem frame_markDies {m0 : Nat} {s0 : State} (s : State) (hm : 128 ||| m0 = m0) (hs : Frame m0 s0 s) :
    Frame m0 s0 (markDies s) := by
  have b7 := Frame.bit hm (k := 7) (by decide)
  unfold markDies
  repeat' (with_reducible first | assumption | (exact Frame.sub hm (by decide)) | apply frame_foldS | (intro _) | refine Frame.ite ?_ ?_ | split | dsimp only | simp only [Frame.upd_iff, b7, true_or, or_true])

theorem frame_execDieStop {m0 : Nat} {s0 : State} (d : Nat) (s : State) (hm : 4224 ||| m0 = m0) (hs : Frame m0 s0 s) :
    ∀ z, (execDieStop d s) = .next z → Frame m0 s0 z := by
  have b7 := Frame.bit hm (k := 7) (by decide)
  intro z e
  unfold execDieStop at e
  try dsimp only at e
  first | (split at e <;> first | (injection e with e; subst e)) | (injection e with e; subst e) | skip
  repeat' (with_reducible first | assumption | (exact Frame.sub hm (by decide)) | apply frame_bump | apply frame_markDies | split | dsimp only | simp only [Frame.upd_iff, b7, true_or, or_true])

theorem frame_execStackPowerDown {m0 : Nat} {s0 : State} (k : Nat) (s : State) (hm : 128 ||| m0 = m0) (hs : Frame m0 s0 s) :
    ∀ z, (execStackPowerDown k s) = .next z → Frame m0 s0 z := by
  have b7 := Frame.bit hm (k := 7) (by decide)
  intro z e
  unfold execStackPowerDown at e
  try dsimp only at e
  first | (split at e <;> first | (injection e with e; subst e)) | (injection e with e; subst e) | skip
  repeat' (with_reducible first | assumption | (exact Frame.sub hm (by decide)) | split | dsimp only | simp only [Frame.upd_iff, b7, true_or, or_true])

theorem frame_execSelfRefreshEntry {m0 : Nat} {s0 : State} (k : Nat) (s : State) (hm : 128 ||| m0 = m0) (hs : Frame m0 s0 s) :
    ∀ z, (execSelfRefreshEntry k s) = .next z → Frame m0 s0 z := by
  have b7 := Frame.bit hm (k := 7) (by decide)
  intro z e
  unfold execSelfRefreshEntry at e
  try dsimp only at e
  first | (split at e <;> first | (injection e with e; subst e)) | (injection e with e; subst e) | skip
  repeat' (with_reducible first | assumption | (exact Frame.sub hm (by decide)) | apply frame_markDies | split | dsimp only | simp only [Frame.upd_iff, b7, true_or, or_true])

theorem frame_execChannelGroupStandby {m0 : Nat} {s0 : State} (g : Nat) (s : State) (hm : 128 ||| m0 = m0) (hs : Frame m0 s0 s) :
    ∀ z, (execChannelGroupStandby g s) = .next z → Frame m0 s0 z := by
  have b7 := Frame.bit hm (k := 7) (by decide)
  intro z e
  unfold execChannelGroupStandby at e
  try dsimp only at e
  first | (split at e <;> first | (injection e with e; subst e)) | (injection e with e; subst e) | skip
  repeat' (with_reducible first | assumption | (exact Frame.sub hm (by decide)) | split | dsimp only | simp only [Frame.upd_iff, b7, true_or, or_true])

theorem frame_unboost {m0 : Nat} {s0 : State} (s : State) (hm : 4592 ||| m0 = m0) (hs : Frame m0 s0 s) :
    Frame m0 s0 (unboost s) := by
  have b7 := Frame.bit hm (k := 7) (by decide)
  unfold unboost
  repeat' (with_reducible first | assumption | (exact Frame.sub hm (by decide)) | apply frame_retryKnocks | split | dsimp only | simp only [Frame.upd_iff, b7, true_or, or_true])

theorem frame_execControllerIdle {m0 : Nat} {s0 : State} (s : State) (hm : 4592 ||| m0 = m0) (hs : Frame m0 s0 s) :
    ∀ z, (execControllerIdle s) = .next z → Frame m0 s0 z := by
  intro z e
  unfold execControllerIdle at e
  try dsimp only at e
  first | (split at e <;> first | (injection e with e; subst e)) | (injection e with e; subst e) | skip
  repeat' (with_reducible first | assumption | (exact Frame.sub hm (by decide)) | apply frame_unboost | split | dsimp only | simp only [Frame.upd_iff, true_or, or_true])

theorem frame_wakeAll {m0 : Nat} {s0 : State} (s : State) (hm : 128 ||| m0 = m0) (hs : Frame m0 s0 s) :
    Frame m0 s0 (wakeAll s) := by
  have b7 := Frame.bit hm (k := 7) (by decide)
  unfold wakeAll
  repeat' (with_reducible first | assumption | (exact Frame.sub hm (by decide)) | apply frame_foldS | apply frame_startWake | apply frame_touchStack | (intro _) | refine Frame.ite ?_ ?_ | split | dsimp only | simp only [Frame.upd_iff, b7, true_or, or_true])

theorem frame_throttleWork {m0 : Nat} {s0 : State} (s : State) (hm : 65792 ||| m0 = m0) (hs : Frame m0 s0 s) :
    Frame m0 s0 (throttleWork s) := by
  unfold throttleWork
  repeat' (with_reducible first | assumption | (exact Frame.sub hm (by decide)) | apply frame_addCause | apply frame_foldS | (intro _) | refine Frame.ite ?_ ?_ | split | dsimp only | simp only [Frame.upd_iff, true_or, or_true])

theorem frame_setSteps {m0 : Nat} {s0 : State} (n : Nat) (s : State) (hm : 69888 ||| m0 = m0) (hs : Frame m0 s0 s) :
    Frame m0 s0 (setSteps n s) := by
  unfold setSteps
  repeat' (with_reducible first | assumption | (exact Frame.sub hm (by decide)) | apply frame_dirSet | apply frame_throttleWork | apply frame_whenS | (intro _) | refine Frame.ite ?_ ?_ | split | dsimp only | simp only [Frame.upd_iff, true_or, or_true])

theorem frame_capStep {m0 : Nat} {s0 : State} (draw : Nat) (temps : List Int) (s : State) (hm : 70016 ||| m0 = m0) (hs : Frame m0 s0 s) :
    Frame m0 s0 (capStep draw temps s) := by
  have b7 := Frame.bit hm (k := 7) (by decide)
  unfold capStep
  repeat' (with_reducible first | assumption | (exact Frame.sub hm (by decide)) | apply frame_setSteps | split | dsimp only | simp only [Frame.upd_iff, b7, true_or, or_true])

theorem frame_capUnmet {m0 : Nat} {s0 : State} (draw : Nat) (applied : Nat) (s : State) (hm : 15488 ||| m0 = m0) (hs : Frame m0 s0 s) :
    Frame m0 s0 (capUnmet draw applied s) := by
  have b7 := Frame.bit hm (k := 7) (by decide)
  unfold capUnmet
  repeat' (with_reducible first | assumption | (exact Frame.sub hm (by decide)) | apply frame_dirSet | apply frame_record | split | dsimp only | simp only [Frame.upd_iff, b7, true_or, or_true])

theorem frame_powerTick {m0 : Nat} {s0 : State} (draw : Nat) (temps : List Int) (s : State) (hm : 81280 ||| m0 = m0) (hs : Frame m0 s0 s) :
    Frame m0 s0 (powerTick draw temps s) := by
  have b7 := Frame.bit hm (k := 7) (by decide)
  unfold powerTick
  repeat' (with_reducible first | assumption | (exact Frame.sub hm (by decide)) | apply frame_bump | apply frame_capStep | apply frame_capUnmet | apply frame_dirSet | apply frame_whenS | (intro _) | refine Frame.ite ?_ ?_ | split | dsimp only | simp only [Frame.upd_iff, b7, true_or, or_true])

theorem frame_execFastLimiter {m0 : Nat} {s0 : State} (w : Nat) (s : State) (hm : 70016 ||| m0 = m0) (hs : Frame m0 s0 s) :
    ∀ z, (execFastLimiter w s) = .next z → Frame m0 s0 z := by
  have b7 := Frame.bit hm (k := 7) (by decide)
  intro z e
  unfold execFastLimiter at e
  try dsimp only at e
  first | (split at e <;> first | (injection e with e; subst e)) | (injection e with e; subst e) | skip
  repeat' (with_reducible first | assumption | (exact Frame.sub hm (by decide)) | apply frame_bump | apply frame_throttleWork | split | dsimp only | simp only [Frame.upd_iff, b7, true_or, or_true])

end Sys2Proof.Machine
end

