-- ==== Sys2Proof/Laws/FrameLinkOps.lean ====
section
/-! SUPPORT. FrameLinkOps: each operation of Machine/LinkOps.lean changes only the fields of `State`
that its mask names (`Frame`). -/
namespace Sys2Proof.Machine
set_option Elab.async false
set_option linter.all false

theorem frame_linkErr {m0 : Nat} {s0 : State} (cls : Nat) (sev : Nat) (k : Nat) (detail : Nat) (s : State) (hm : 15360 ||| m0 = m0) (hs : Frame m0 s0 s) :
    Frame m0 s0 (linkErr cls sev k detail s) := by
  unfold linkErr
  repeat' (with_reducible first | assumption | (exact Frame.sub hm (by decide)) | apply frame_record | split | dsimp only | simp only [Frame.upd_iff, true_or, or_true])

theorem frame_viewNode {m0 : Nat} {s0 : State} (post : Nat) (s : State) (hm : 32768 ||| m0 = m0) (hs : Frame m0 s0 s) :
    Frame m0 s0 (viewNode post s) := by
  have b15 := Frame.bit hm (k := 15) (by decide)
  unfold viewNode
  repeat' (with_reducible first | assumption | (exact Frame.sub hm (by decide)) | split | dsimp only | simp only [Frame.upd_iff, b15, true_or, or_true])

theorem frame_viewLink {m0 : Nat} {s0 : State} (k : Nat) (s : State) (hm : 32768 ||| m0 = m0) (hs : Frame m0 s0 s) :
    Frame m0 s0 (viewLink k s) := by
  unfold viewLink
  repeat' (with_reducible first | assumption | (exact Frame.sub hm (by decide)) | apply frame_optS | apply frame_viewNode | (intro _) | refine Frame.ite ?_ ?_ | split | dsimp only | simp only [Frame.upd_iff, true_or, or_true])

theorem frame_showClock {m0 : Nat} {s0 : State} (s : State) (hm : 4096 ||| m0 = m0) (hs : Frame m0 s0 s) :
    Frame m0 s0 (showClock s) := by
  unfold showClock
  repeat' (with_reducible first | assumption | (exact Frame.sub hm (by decide)) | apply frame_dirSet | split | dsimp only | simp only [Frame.upd_iff, true_or, or_true])

theorem frame_setLinkState {m0 : Nat} {s0 : State} (k : Nat) (v : Nat) (s : State) (hm : 4096 ||| m0 = m0) (hs : Frame m0 s0 s) :
    Frame m0 s0 (setLinkState k v s) := by
  unfold setLinkState
  repeat' (with_reducible first | assumption | (exact Frame.sub hm (by decide)) | apply frame_dirSet | split | dsimp only | simp only [Frame.upd_iff, true_or, or_true])

theorem frame_trackParent {m0 : Nat} {s0 : State} (s : State) (hm : 20480 ||| m0 = m0) (hs : Frame m0 s0 s) :
    Frame m0 s0 (trackParent s) := by
  have b14 := Frame.bit hm (k := 14) (by decide)
  unfold trackParent
  repeat' (with_reducible first | assumption | (exact Frame.sub hm (by decide)) | apply frame_showClock | split | dsimp only | simp only [Frame.upd_iff, b14, true_or, or_true])

theorem frame_engageDetours {m0 : Nat} {s0 : State} (s : State) (hm : 20480 ||| m0 = m0) (hs : Frame m0 s0 s) :
    Frame m0 s0 (engageDetours s) := by
  unfold engageDetours
  repeat' (with_reducible first | assumption | (exact Frame.sub hm (by decide)) | apply frame_dirSet | apply frame_foldS | apply frame_onLink | (intro _) | refine Frame.ite ?_ ?_ | split | dsimp only | simp only [Frame.upd_iff, true_or, or_true])

theorem frame_startTraining {m0 : Nat} {s0 : State} (s : State) (hm : 20480 ||| m0 = m0) (hs : Frame m0 s0 s) :
    Frame m0 s0 (startTraining s) := by
  unfold startTraining
  repeat' (with_reducible first | assumption | (exact Frame.sub hm (by decide)) | apply frame_foldS | apply frame_onLink | apply frame_setLinkState | (intro _) | refine Frame.ite ?_ ?_ | split | dsimp only | simp only [Frame.upd_iff, true_or, or_true])

theorem frame_degradeLink {m0 : Nat} {s0 : State} (k : Nat) (st : Nat) (s : State) (hm : 64512 ||| m0 = m0) (hs : Frame m0 s0 s) :
    Frame m0 s0 (degradeLink k st s) := by
  unfold degradeLink
  repeat' (with_reducible first | assumption | (exact Frame.sub hm (by decide)) | apply frame_linkErr | apply frame_onLink | apply frame_setLinkState | apply frame_trackParent | apply frame_viewLink | split | dsimp only | simp only [Frame.upd_iff, true_or, or_true])

theorem frame_failAttempt {m0 : Nat} {s0 : State} (k : Nat) (s : State) (hm : 64512 ||| m0 = m0) (hs : Frame m0 s0 s) :
    Frame m0 s0 (failAttempt k s) := by
  unfold failAttempt
  repeat' (with_reducible first | assumption | (exact Frame.sub hm (by decide)) | apply frame_degradeLink | apply frame_onLink | split | dsimp only | simp only [Frame.upd_iff, true_or, or_true])

theorem frame_finishTraining {m0 : Nat} {s0 : State} (k : Nat) (r : TrainResult) (lanes : Nat) (s : State) (hm : 64512 ||| m0 = m0) (hs : Frame m0 s0 s) :
    Frame m0 s0 (finishTraining k r lanes s) := by
  unfold finishTraining
  repeat' (with_reducible first | assumption | (exact Frame.sub hm (by decide)) | apply frame_degradeLink | apply frame_dirSet | apply frame_flushHeld | apply frame_onDieLog | apply frame_onLink | apply frame_setLinkState | apply frame_trackParent | apply frame_viewLink | split | dsimp only | simp only [Frame.upd_iff, true_or, or_true])

theorem frame_linkFalls {m0 : Nat} {s0 : State} (k : Nat) (s : State) (hm : 64512 ||| m0 = m0) (hs : Frame m0 s0 s) :
    Frame m0 s0 (linkFalls k s) := by
  unfold linkFalls
  repeat' (with_reducible first | assumption | (exact Frame.sub hm (by decide)) | apply frame_bump | apply frame_degradeLink | apply frame_onLink | split | dsimp only | simp only [Frame.upd_iff, true_or, or_true])

theorem frame_askReplay {m0 : Nat} {s0 : State} (k : Nat) (n : Nat) (s : State) (hm : 20480 ||| m0 = m0) (hs : Frame m0 s0 s) :
    Frame m0 s0 (askReplay k n s) := by
  unfold askReplay
  repeat' (with_reducible first | assumption | (exact Frame.sub hm (by decide)) | apply frame_bump | apply frame_onLink | split | dsimp only | simp only [Frame.upd_iff, true_or, or_true])

theorem frame_announceNext {m0 : Nat} {s0 : State} (k : Nat) (s : State) (hm : 16384 ||| m0 = m0) (hs : Frame m0 s0 s) :
    Frame m0 s0 (announceNext k s) := by
  unfold announceNext
  repeat' (with_reducible first | assumption | (exact Frame.sub hm (by decide)) | apply frame_onLink | split | dsimp only | simp only [Frame.upd_iff, true_or, or_true])

theorem frame_flitLost {m0 : Nat} {s0 : State} (k : Nat) (n : Nat) (s : State) (hm : 1080824 ||| m0 = m0) (hs : Frame m0 s0 s) :
    Frame m0 s0 (flitLost k n s) := by
  unfold flitLost
  repeat' (with_reducible first | assumption | (exact Frame.sub hm (by decide)) | apply frame_bump | apply frame_draw | apply frame_failReq | apply frame_onLink | apply frame_optS | apply frame_record | (intro _) | refine Frame.ite ?_ ?_ | split | dsimp only | simp only [Frame.upd_iff, true_or, or_true])

end Sys2Proof.Machine
end

