-- ==== Sys2Proof/Laws/FrameFabric.lean ====
section
/-! SUPPORT. FrameFabric: each operation of Machine/Fabric.lean changes only the fields of `State`
that its mask names (`Frame`). -/
namespace Sys2Proof.Machine
set_option Elab.async false
set_option linter.all false

theorem frame_dropHeader {m0 : Nat} {s0 : State} (m : FabMsg) (v : Nat) (s : State) (hm : 15360 ||| m0 = m0) (hs : Frame m0 s0 s) :
    Frame m0 s0 (dropHeader m v s) := by
  unfold dropHeader
  repeat' (with_reducible first | assumption | (exact Frame.sub hm (by decide)) | apply frame_bump | apply frame_linkErr | apply frame_record | split | dsimp only | simp only [Frame.upd_iff, true_or, or_true])

theorem frame_onSched {m0 : Nat} {s0 : State} (m : FabMsg) (f : Hdr → State → State) (s : State) (hm : 15360 ||| m0 = m0) (hf : ∀ y0 u, Frame m0 s0 u → Frame m0 s0 (f y0 u)) (hs : Frame m0 s0 s) :
    Frame m0 s0 (onSched m f s) := by
  unfold onSched
  repeat' (with_reducible first | assumption | (exact Frame.sub hm (by decide)) | apply frame_bump | apply frame_dropHeader | apply hf | split | dsimp only | simp only [Frame.upd_iff, true_or, or_true])

theorem frame_onBest {m0 : Nat} {s0 : State} (kind : Nat) (m : FabMsg) (f : Hdr → State → State) (s : State) (hm : 31744 ||| m0 = m0) (hf : ∀ y0 u, Frame m0 s0 u → Frame m0 s0 (f y0 u)) (hs : Frame m0 s0 s) :
    Frame m0 s0 (onBest kind m f s) := by
  unfold onBest
  repeat' (with_reducible first | assumption | (exact Frame.sub hm (by decide)) | apply frame_bePut | apply frame_bump | apply frame_dropHeader | apply frame_whenS | apply hf | (intro _) | refine Frame.ite ?_ ?_ | split | dsimp only | simp only [Frame.upd_iff, true_or, or_true])

theorem frame_onWhole {m0 : Nat} {s0 : State} (m : FabMsg) (f : Hdr → Bytes → Bytes → Nat → State → State) (s : State) (hm : 31744 ||| m0 = m0) (hf : ∀ y0 y1 y2 y3 u, Frame m0 s0 u → Frame m0 s0 (f y0 y1 y2 y3 u)) (hs : Frame m0 s0 s) :
    Frame m0 s0 (onWhole m f s) := by
  unfold onWhole
  repeat' (with_reducible first | assumption | (exact Frame.sub hm (by decide)) | exact Frame.refl _ | apply frame_onSched | apply frame_takePiece | apply hf | (intro _) | refine Frame.snd (by assumption) ?_ | refine Frame.snd3 (by assumption) ?_ | refine Frame.snd4 (by assumption) ?_ | refine Frame.some1 (by assumption) ?_ | refine Frame.some2 (by assumption) ?_ | refine Frame.some3 (by assumption) ?_ | refine Frame.fst (by assumption) ?_ | refine Frame.ite ?_ ?_ | refine Frame.ite2 ?_ ?_ | refine Frame.ite3 ?_ ?_ | split | dsimp only | simp only [Frame.upd_iff, true_or, or_true])

theorem frame_answerFailed {m0 : Nat} {s0 : State} (stage : Nat) (gate : Nat) (tag : Nat) (who : Nat) (st : Nat) (cause : Nat) (s : State) (hm : 16384 ||| m0 = m0) (hs : Frame m0 s0 s) :
    Frame m0 s0 (answerFailed stage gate tag who st cause s) := by
  unfold answerFailed
  repeat' (with_reducible first | assumption | (exact Frame.sub hm (by decide)) | apply frame_treeInput | split | dsimp only | simp only [Frame.upd_iff, true_or, or_true])

theorem frame_fanShard {m0 : Nat} {s0 : State} (h : Hdr) (inl : Bytes) (data : Bytes) (cause : Nat) (s : State) (hm : 1179128 ||| m0 = m0) (hs : Frame m0 s0 s) :
    Frame m0 s0 (fanShard h inl data cause s) := by
  unfold fanShard
  repeat' (with_reducible first | assumption | (exact Frame.sub hm (by decide)) | apply frame_addSearchPart | apply frame_answerFailed | apply frame_disputeCorpus | apply frame_movePaths | split | dsimp only | simp only [Frame.upd_iff, true_or, or_true])

theorem frame_takeFanout {m0 : Nat} {s0 : State} (m : FabMsg) (s : State) (hm : 1179128 ||| m0 = m0) (hs : Frame m0 s0 s) :
    Frame m0 s0 (takeFanout m s) := by
  unfold takeFanout
  repeat' (with_reducible first | assumption | (exact Frame.sub hm (by decide)) | apply frame_fanShard | apply frame_memberAttend | apply frame_onWhole | (intro _) | refine Frame.ite ?_ ?_ | split | dsimp only | simp only [Frame.upd_iff, true_or, or_true])

theorem frame_execFanout {m0 : Nat} {s0 : State} (m : FabMsg) (s : State) (hm : 1179128 ||| m0 = m0) (hs : Frame m0 s0 s) :
    ∀ z, (execFanout m s) = .next z → Frame m0 s0 z := by
  intro z e
  unfold execFanout at e
  try dsimp only at e
  first | (split at e <;> first | (injection e with e; subst e)) | (injection e with e; subst e) | skip
  repeat' (with_reducible first | assumption | (exact Frame.sub hm (by decide)) | apply frame_takeFanout | split | dsimp only | simp only [Frame.upd_iff, true_or, or_true])

theorem frame_takeTree {m0 : Nat} {s0 : State} (m : FabMsg) (s : State) (hm : 1179128 ||| m0 = m0) (hs : Frame m0 s0 s) :
    Frame m0 s0 (takeTree m s) := by
  unfold takeTree
  repeat' (with_reducible first | assumption | (exact Frame.sub hm (by decide)) | apply frame_movePaths | apply frame_onWhole | apply frame_takeAnswer | apply frame_treeInput | (intro _) | refine Frame.ite ?_ ?_ | split | dsimp only | simp only [Frame.upd_iff, true_or, or_true])

theorem frame_execTree {m0 : Nat} {s0 : State} (m : FabMsg) (s : State) (hm : 1179128 ||| m0 = m0) (hs : Frame m0 s0 s) :
    ∀ z, (execTree m s) = .next z → Frame m0 s0 z := by
  intro z e
  unfold execTree at e
  try dsimp only at e
  first | (split at e <;> first | (injection e with e; subst e)) | (injection e with e; subst e) | skip
  repeat' (with_reducible first | assumption | (exact Frame.sub hm (by decide)) | apply frame_takeTree | split | dsimp only | simp only [Frame.upd_iff, true_or, or_true])

theorem frame_takeFinalist {m0 : Nat} {s0 : State} (m : FabMsg) (s : State) (hm : 1179128 ||| m0 = m0) (hs : Frame m0 s0 s) :
    Frame m0 s0 (takeFinalist m s) := by
  unfold takeFinalist
  repeat' (with_reducible first | assumption | (exact Frame.sub hm (by decide)) | apply frame_addFinalists | apply frame_answerFailed | apply frame_disputeCorpus | apply frame_movePaths | apply frame_onWhole | (intro _) | refine Frame.ite ?_ ?_ | split | dsimp only | simp only [Frame.upd_iff, true_or, or_true])

theorem frame_execFinalist {m0 : Nat} {s0 : State} (m : FabMsg) (s : State) (hm : 1179128 ||| m0 = m0) (hs : Frame m0 s0 s) :
    ∀ z, (execFinalist m s) = .next z → Frame m0 s0 z := by
  intro z e
  unfold execFinalist at e
  try dsimp only at e
  first | (split at e <;> first | (injection e with e; subst e)) | (injection e with e; subst e) | skip
  repeat' (with_reducible first | assumption | (exact Frame.sub hm (by decide)) | apply frame_takeFinalist | split | dsimp only | simp only [Frame.upd_iff, true_or, or_true])

theorem frame_takeCopy {m0 : Nat} {s0 : State} (h : Hdr) (inl : Bytes) (data : Bytes) (s : State) (hm : 1310200 ||| m0 = m0) (hs : Frame m0 s0 s) :
    Frame m0 s0 (takeCopy h inl data s) := by
  unfold takeCopy
  repeat' (with_reducible first | assumption | (exact Frame.sub hm (by decide)) | exact Frame.refl _ | apply frame_disputeCorpus | apply frame_newPart | (show ∀ _, _ → _; apply frame_schedSend) | apply frame_stageHere | apply frame_whenS | (intro _) | refine Frame.snd (by assumption) ?_ | refine Frame.snd3 (by assumption) ?_ | refine Frame.snd4 (by assumption) ?_ | refine Frame.some1 (by assumption) ?_ | refine Frame.some2 (by assumption) ?_ | refine Frame.some3 (by assumption) ?_ | refine Frame.fst (by assumption) ?_ | refine Frame.getD ?_ ?_ | refine Frame.elim ?_ ?_ | refine Frame.elim2 ?_ ?_ | refine Frame.foldl ?_ ?_ | refine Frame.foldl2 ?_ ?_ | refine Frame.foldl3 ?_ ?_ | refine Frame.ite ?_ ?_ | refine Frame.ite2 ?_ ?_ | refine Frame.ite3 ?_ ?_ | split | dsimp only | simp only [Frame.upd_iff, true_or, or_true])

theorem frame_takeVerdict {m0 : Nat} {s0 : State} (h : Hdr) (commit : Bool) (s : State) (hm : 1310200 ||| m0 = m0) (hs : Frame m0 s0 s) :
    Frame m0 s0 (takeVerdict h commit s) := by
  unfold takeVerdict
  repeat' (with_reducible first | assumption | (exact Frame.sub hm (by decide)) | apply frame_acceptItems | apply frame_dropPart | apply frame_onPart | apply frame_partShredded | apply frame_unstage | split | dsimp only | simp only [Frame.upd_iff, true_or, or_true])

theorem frame_takeForward {m0 : Nat} {s0 : State} (m : FabMsg) (s : State) (hm : 1310200 ||| m0 = m0) (hs : Frame m0 s0 s) :
    Frame m0 s0 (takeForward m s) := by
  unfold takeForward
  repeat' (with_reducible first | assumption | (exact Frame.sub hm (by decide)) | apply frame_ackItem | apply frame_appendAck | apply frame_closeLocal | apply frame_itemDone | apply frame_memberAppend | apply frame_memberOpen | apply frame_movePaths | apply frame_onWhole | apply frame_openAck | apply frame_orderItem | apply frame_takeCopy | apply frame_takeVerdict | (intro _) | refine Frame.ite ?_ ?_ | split | dsimp only | simp only [Frame.upd_iff, true_or, or_true])

theorem frame_execForward {m0 : Nat} {s0 : State} (m : FabMsg) (s : State) (hm : 1310200 ||| m0 = m0) (hs : Frame m0 s0 s) :
    ∀ z, (execForward m s) = .next z → Frame m0 s0 z := by
  intro z e
  unfold execForward at e
  try dsimp only at e
  first | (split at e <;> first | (injection e with e; subst e)) | (injection e with e; subst e) | skip
  repeat' (with_reducible first | assumption | (exact Frame.sub hm (by decide)) | apply frame_takeForward | split | dsimp only | simp only [Frame.upd_iff, true_or, or_true])

theorem frame_answer {m0 : Nat} {s0 : State} (h : Hdr) (st : Nat) (b : Bytes) (s : State) (hm : 20480 ||| m0 = m0) (hs : Frame m0 s0 s) :
    Frame m0 s0 (answer h st b s) := by
  unfold answer
  repeat' (with_reducible first | assumption | (exact Frame.sub hm (by decide)) | apply frame_beSend | split | dsimp only | simp only [Frame.upd_iff, true_or, or_true])

theorem frame_homeRefuses {m0 : Nat} {s0 : State} (h : Hdr) (n : Nat) (s : State) (hm : 48128 ||| m0 = m0) (hs : Frame m0 s0 s) :
    Frame m0 s0 (homeRefuses h n s).2 := by
  unfold homeRefuses
  repeat' (with_reducible first | assumption | (exact Frame.sub hm (by decide)) | apply frame_bump | apply frame_disputeWindow | split | dsimp only | simp only [Frame.upd_iff, true_or, or_true])

theorem frame_serveRead {m0 : Nat} {s0 : State} (m : FabMsg) (h : Hdr) (s : State) (hm : 64648 ||| m0 = m0) (hs : Frame m0 s0 s) :
    Frame m0 s0 (serveRead m h s) := by
  unfold serveRead
  repeat' (with_reducible first | assumption | (exact Frame.sub hm (by decide)) | exact Frame.refl _ | apply frame_answer | apply frame_demandRead | apply frame_homeRefuses | (intro _) | refine Frame.snd (by assumption) ?_ | refine Frame.snd3 (by assumption) ?_ | refine Frame.snd4 (by assumption) ?_ | refine Frame.some1 (by assumption) ?_ | refine Frame.some2 (by assumption) ?_ | refine Frame.some3 (by assumption) ?_ | refine Frame.fst (by assumption) ?_ | refine Frame.ite ?_ ?_ | refine Frame.ite2 ?_ ?_ | refine Frame.ite3 ?_ ?_ | split | dsimp only | simp only [Frame.upd_iff, true_or, or_true])

theorem frame_serveWrite {m0 : Nat} {s0 : State} (m : FabMsg) (h : Hdr) (s : State) (hm : 64664 ||| m0 = m0) (hs : Frame m0 s0 s) :
    Frame m0 s0 (serveWrite m h s) := by
  unfold serveWrite
  repeat' (with_reducible first | assumption | (exact Frame.sub hm (by decide)) | exact Frame.refl _ | apply frame_amoHome | apply frame_answer | apply frame_breakResv | apply frame_demandWrite | apply frame_foldS | apply frame_homeRefuses | (intro _) | refine Frame.snd (by assumption) ?_ | refine Frame.snd3 (by assumption) ?_ | refine Frame.snd4 (by assumption) ?_ | refine Frame.some1 (by assumption) ?_ | refine Frame.some2 (by assumption) ?_ | refine Frame.some3 (by assumption) ?_ | refine Frame.fst (by assumption) ?_ | refine Frame.ite ?_ ?_ | refine Frame.ite2 ?_ ?_ | refine Frame.ite3 ?_ ?_ | split | dsimp only | simp only [Frame.upd_iff, true_or, or_true])

theorem frame_execRead {m0 : Nat} {s0 : State} (m : FabMsg) (s : State) (hm : 64648 ||| m0 = m0) (hs : Frame m0 s0 s) :
    ∀ z, (execRead m s) = .next z → Frame m0 s0 z := by
  intro z e
  unfold execRead at e
  try dsimp only at e
  first | (split at e <;> first | (injection e with e; subst e)) | (injection e with e; subst e) | skip
  repeat' (with_reducible first | assumption | (exact Frame.sub hm (by decide)) | apply frame_onBest | apply frame_serveRead | (intro _) | refine Frame.ite ?_ ?_ | split | dsimp only | simp only [Frame.upd_iff, true_or, or_true])

theorem frame_execWrite {m0 : Nat} {s0 : State} (m : FabMsg) (s : State) (hm : 64664 ||| m0 = m0) (hs : Frame m0 s0 s) :
    ∀ z, (execWrite m s) = .next z → Frame m0 s0 z := by
  intro z e
  unfold execWrite at e
  try dsimp only at e
  first | (split at e <;> first | (injection e with e; subst e)) | (injection e with e; subst e) | skip
  repeat' (with_reducible first | assumption | (exact Frame.sub hm (by decide)) | apply frame_onBest | apply frame_serveWrite | (intro _) | refine Frame.ite ?_ ?_ | split | dsimp only | simp only [Frame.upd_iff, true_or, or_true])

theorem frame_noteRefusal {m0 : Nat} {s0 : State} (h : Hdr) (st : Nat) (s : State) (hm : 48128 ||| m0 = m0) (hs : Frame m0 s0 s) :
    Frame m0 s0 (noteRefusal h st s) := by
  unfold noteRefusal
  repeat' (with_reducible first | assumption | (exact Frame.sub hm (by decide)) | apply frame_bump | apply frame_disputeWindow | apply frame_optS | (intro _) | refine Frame.ite ?_ ?_ | split | dsimp only | simp only [Frame.upd_iff, true_or, or_true])

theorem frame_parcelAnswer {m0 : Nat} {s0 : State} (h : Hdr) (st : Nat) (b : Bytes) (s : State) (hm : 65016 ||| m0 = m0) (hs : Frame m0 s0 s) :
    Frame m0 s0 (parcelAnswer h st b s) := by
  unfold parcelAnswer
  repeat' (with_reducible first | assumption | (exact Frame.sub hm (by decide)) | apply frame_bump | apply frame_failParcel | apply frame_issueAll | apply frame_noteRefusal | apply frame_onParcel | split | dsimp only | simp only [Frame.upd_iff, true_or, or_true])

theorem frame_threadAnswer {m0 : Nat} {s0 : State} (h : Hdr) (st : Nat) (b : Bytes) (cause : Nat) (s : State) (hm : 114168 ||| m0 = m0) (hs : Frame m0 s0 s) :
    Frame m0 s0 (threadAnswer h st b cause s) := by
  unfold threadAnswer
  repeat' (with_reducible first | assumption | (exact Frame.sub hm (by decide)) | apply frame_addCause | apply frame_noteRefusal | apply frame_onThread | apply frame_takeFault | split | dsimp only | simp only [Frame.upd_iff, true_or, or_true])

theorem frame_takeResp {m0 : Nat} {s0 : State} (m : FabMsg) (h : Hdr) (s : State) (hm : 1310200 ||| m0 = m0) (hs : Frame m0 s0 s) :
    Frame m0 s0 (takeResp m h s) := by
  unfold takeResp
  repeat' (with_reducible first | assumption | (exact Frame.sub hm (by decide)) | apply frame_parcelAnswer | apply frame_settlePaths | apply frame_threadAnswer | split | dsimp only | simp only [Frame.upd_iff, true_or, or_true])

theorem frame_execResp {m0 : Nat} {s0 : State} (m : FabMsg) (s : State) (hm : 1310200 ||| m0 = m0) (hs : Frame m0 s0 s) :
    ∀ z, (execResp m s) = .next z → Frame m0 s0 z := by
  intro z e
  unfold execResp at e
  try dsimp only at e
  first | (split at e <;> first | (injection e with e; subst e)) | (injection e with e; subst e) | skip
  repeat' (with_reducible first | assumption | (exact Frame.sub hm (by decide)) | apply frame_onBest | apply frame_takeResp | (intro _) | refine Frame.ite ?_ ?_ | split | dsimp only | simp only [Frame.upd_iff, true_or, or_true])

theorem frame_takePool {m0 : Nat} {s0 : State} (m : FabMsg) (s : State) (hm : 1310200 ||| m0 = m0) (hs : Frame m0 s0 s) :
    Frame m0 s0 (takePool m s) := by
  unfold takePool
  repeat' (with_reducible first | assumption | (exact Frame.sub hm (by decide)) | apply frame_onSched | apply frame_parcelAnswer | apply frame_serveWrite | apply frame_settlePaths | (intro _) | refine Frame.ite ?_ ?_ | split | dsimp only | simp only [Frame.upd_iff, true_or, or_true])

theorem frame_execPool {m0 : Nat} {s0 : State} (m : FabMsg) (s : State) (hm : 1310200 ||| m0 = m0) (hs : Frame m0 s0 s) :
    ∀ z, (execPool m s) = .next z → Frame m0 s0 z := by
  intro z e
  unfold execPool at e
  try dsimp only at e
  first | (split at e <;> first | (injection e with e; subst e)) | (injection e with e; subst e) | skip
  repeat' (with_reducible first | assumption | (exact Frame.sub hm (by decide)) | apply frame_takePool | split | dsimp only | simp only [Frame.upd_iff, true_or, or_true])

theorem frame_takeLetter {m0 : Nat} {s0 : State} (l : Letter) (s : State) (hm : 4496 ||| m0 = m0) (hs : Frame m0 s0 s) :
    Frame m0 s0 (takeLetter l s) := by
  have b7 := Frame.bit hm (k := 7) (by decide)
  unfold takeLetter
  repeat' (with_reducible first | assumption | (exact Frame.sub hm (by decide)) | exact Frame.refl _ | apply frame_deliver | (intro _) | refine Frame.snd (by assumption) ?_ | refine Frame.snd3 (by assumption) ?_ | refine Frame.snd4 (by assumption) ?_ | refine Frame.some1 (by assumption) ?_ | refine Frame.some2 (by assumption) ?_ | refine Frame.some3 (by assumption) ?_ | refine Frame.fst (by assumption) ?_ | refine Frame.ite ?_ ?_ | refine Frame.ite2 ?_ ?_ | refine Frame.ite3 ?_ ?_ | split | dsimp only | simp only [Frame.upd_iff, b7, true_or, or_true])

theorem frame_execLetter {m0 : Nat} {s0 : State} (m : FabMsg) (s : State) (hm : 32144 ||| m0 = m0) (hs : Frame m0 s0 s) :
    ∀ z, (execLetter m s) = .next z → Frame m0 s0 z := by
  intro z e
  unfold execLetter at e
  try dsimp only at e
  first | (split at e <;> first | (injection e with e; subst e)) | (injection e with e; subst e) | skip
  repeat' (with_reducible first | assumption | (exact Frame.sub hm (by decide)) | apply frame_onBest | apply frame_takeLetter | (intro _) | refine Frame.ite ?_ ?_ | split | dsimp only | simp only [Frame.upd_iff, true_or, or_true])

theorem frame_execIdle {m0 : Nat} {s0 : State} (_link : Nat) (s : State) (hm : 0 ||| m0 = m0) (hs : Frame m0 s0 s) :
    ∀ z, (execIdle _link s) = .next z → Frame m0 s0 z := by
  intro z e
  unfold execIdle at e
  try dsimp only at e
  first | (split at e <;> first | (injection e with e; subst e)) | (injection e with e; subst e) | skip
  repeat' (with_reducible first | assumption | (exact Frame.sub hm (by decide)) | split | dsimp only | simp only [Frame.upd_iff, true_or, or_true])

theorem frame_execReservedKindFlit {m0 : Nat} {s0 : State} (m : FabMsg) (s : State) (hm : 4096 ||| m0 = m0) (hs : Frame m0 s0 s) :
    ∀ z, (execReservedKindFlit m s) = .next z → Frame m0 s0 z := by
  intro z e
  unfold execReservedKindFlit at e
  try dsimp only at e
  first | (split at e <;> first | (injection e with e; subst e)) | (injection e with e; subst e) | skip
  repeat' (with_reducible first | assumption | (exact Frame.sub hm (by decide)) | apply frame_bump | split | dsimp only | simp only [Frame.upd_iff, true_or, or_true])

theorem frame_entryBad {m0 : Nat} {s0 : State} (i : Nat) (s : State) (hm : 15360 ||| m0 = m0) (hs : Frame m0 s0 s) :
    Frame m0 s0 (entryBad i s) := by
  unfold entryBad
  repeat' (with_reducible first | assumption | (exact Frame.sub hm (by decide)) | apply frame_record | split | dsimp only | simp only [Frame.upd_iff, true_or, or_true])

theorem frame_takeOrigin {m0 : Nat} {s0 : State} (i : Nat) (s : State) (hm : 32248 ||| m0 = m0) (hs : Frame m0 s0 s) :
    Frame m0 s0 (takeOrigin i s) := by
  unfold takeOrigin
  repeat' (with_reducible first | assumption | (exact Frame.sub hm (by decide)) | apply frame_entryBad | apply frame_originLost | apply frame_originSend | apply frame_sendIdle | split | dsimp only | simp only [Frame.upd_iff, true_or, or_true])

theorem frame_execOriginEntry {m0 : Nat} {s0 : State} (i : Nat) (s : State) (hm : 32248 ||| m0 = m0) (hs : Frame m0 s0 s) :
    ∀ z, (execOriginEntry i s) = .next z → Frame m0 s0 z := by
  intro z e
  unfold execOriginEntry at e
  try dsimp only at e
  first | (split at e <;> first | (injection e with e; subst e)) | (injection e with e; subst e) | skip
  repeat' (with_reducible first | assumption | (exact Frame.sub hm (by decide)) | apply frame_takeOrigin | split | dsimp only | simp only [Frame.upd_iff, true_or, or_true])

theorem frame_deliverSched {m0 : Nat} {s0 : State} (m : FabMsg) (s : State) (hm : 1310200 ||| m0 = m0) (hs : Frame m0 s0 s) :
    Frame m0 s0 (deliverSched m s) := by
  unfold deliverSched
  repeat' (with_reducible first | assumption | (exact Frame.sub hm (by decide)) | apply frame_takeFanout | apply frame_takeFinalist | apply frame_takeForward | apply frame_takePool | apply frame_takeTree | split | dsimp only | simp only [Frame.upd_iff, true_or, or_true])

theorem frame_execScheduledForwarding {m0 : Nat} {s0 : State} (i : Nat) (m : FabMsg) (s : State) (hm : 1310200 ||| m0 = m0) (hs : Frame m0 s0 s) :
    ∀ z, (execScheduledForwarding i m s) = .next z → Frame m0 s0 z := by
  intro z e
  unfold execScheduledForwarding at e
  try dsimp only at e
  first | (split at e <;> first | (injection e with e; subst e)) | (injection e with e; subst e) | skip
  repeat' (with_reducible first | assumption | (exact Frame.sub hm (by decide)) | apply frame_deliverSched | apply frame_entryBad | apply frame_fabOut | split | dsimp only | simp only [Frame.upd_iff, true_or, or_true])

theorem frame_checkSkew {m0 : Nat} {s0 : State} (k : Nat) (t : Nat) (s : State) (hm : 64512 ||| m0 = m0) (hs : Frame m0 s0 s) :
    Frame m0 s0 (checkSkew k t s) := by
  unfold checkSkew
  repeat' (with_reducible first | assumption | (exact Frame.sub hm (by decide)) | apply frame_degradeLink | apply frame_dirSet | apply frame_linkErr | split | dsimp only | simp only [Frame.upd_iff, true_or, or_true])

theorem frame_noteRunning {m0 : Nat} {s0 : State} (k : Nat) (t : Nat) (s : State) (hm : 16384 ||| m0 = m0) (hs : Frame m0 s0 s) :
    Frame m0 s0 (noteRunning k t s) := by
  have b14 := Frame.bit hm (k := 14) (by decide)
  unfold noteRunning
  repeat' (with_reducible first | assumption | (exact Frame.sub hm (by decide)) | split | dsimp only | simp only [Frame.upd_iff, b14, true_or, or_true])

theorem frame_takeCtrl {m0 : Nat} {s0 : State} (m : FabMsg) (s : State) (hm : 1113592 ||| m0 = m0) (hs : Frame m0 s0 s) :
    Frame m0 s0 (takeCtrl m s) := by
  unfold takeCtrl
  repeat' (with_reducible first | assumption | (exact Frame.sub hm (by decide)) | apply frame_announceNext | apply frame_askReplay | apply frame_bumpBy | apply frame_checkSkew | apply frame_flitLost | apply frame_flushHeld | apply frame_foldS | apply frame_noteRunning | apply frame_onLink | apply frame_whenS | (intro _) | refine Frame.ite ?_ ?_ | split | dsimp only | simp only [Frame.upd_iff, true_or, or_true])

theorem frame_execCtrl {m0 : Nat} {s0 : State} (m : FabMsg) (s : State) (hm : 1113592 ||| m0 = m0) (hs : Frame m0 s0 s) :
    ∀ z, (execCtrl m s) = .next z → Frame m0 s0 z := by
  intro z e
  unfold execCtrl at e
  try dsimp only at e
  first | (split at e <;> first | (injection e with e; subst e)) | (injection e with e; subst e) | skip
  repeat' (with_reducible first | assumption | (exact Frame.sub hm (by decide)) | apply frame_dropHeader | apply frame_takeCtrl | split | dsimp only | simp only [Frame.upd_iff, true_or, or_true])

theorem frame_execReplay {m0 : Nat} {s0 : State} (k : Nat) (slot : Nat) (ok : Bool) (s : State) (hm : 31744 ||| m0 = m0) (hs : Frame m0 s0 s) :
    ∀ z, (execReplay k slot ok s) = .next z → Frame m0 s0 z := by
  intro z e
  unfold execReplay at e
  try dsimp only at e
  first | (split at e <;> first | (injection e with e; subst e)) | (injection e with e; subst e) | skip
  repeat' (with_reducible first | assumption | (exact Frame.sub hm (by decide)) | apply frame_announceNext | apply frame_bump | apply frame_onLink | apply frame_record | apply frame_whenS | (intro _) | refine Frame.ite ?_ ?_ | split | dsimp only | simp only [Frame.upd_iff, true_or, or_true])

theorem frame_execLinkTrained {m0 : Nat} {s0 : State} (k : Nat) (r : TrainResult) (s : State) (hm : 64512 ||| m0 = m0) (hs : Frame m0 s0 s) :
    ∀ z, (execLinkTrained k r s) = .next z → Frame m0 s0 z := by
  intro z e
  unfold execLinkTrained at e
  try dsimp only at e
  first | (split at e <;> first | (injection e with e; subst e)) | (injection e with e; subst e) | skip
  repeat' (with_reducible first | assumption | (exact Frame.sub hm (by decide)) | apply frame_failAttempt | apply frame_finishTraining | split | dsimp only | simp only [Frame.upd_iff, true_or, or_true])

theorem frame_execTrainingAttemptTimeout {m0 : Nat} {s0 : State} (k : Nat) (s : State) (hm : 64512 ||| m0 = m0) (hs : Frame m0 s0 s) :
    ∀ z, (execTrainingAttemptTimeout k s) = .next z → Frame m0 s0 z := by
  intro z e
  unfold execTrainingAttemptTimeout at e
  try dsimp only at e
  first | (split at e <;> first | (injection e with e; subst e)) | (injection e with e; subst e) | skip
  repeat' (with_reducible first | assumption | (exact Frame.sub hm (by decide)) | apply frame_failAttempt | split | dsimp only | simp only [Frame.upd_iff, true_or, or_true])

theorem frame_execLinkDown {m0 : Nat} {s0 : State} (k : Nat) (s : State) (hm : 64512 ||| m0 = m0) (hs : Frame m0 s0 s) :
    ∀ z, (execLinkDown k s) = .next z → Frame m0 s0 z := by
  intro z e
  unfold execLinkDown at e
  try dsimp only at e
  first | (split at e <;> first | (injection e with e; subst e)) | (injection e with e; subst e) | skip
  repeat' (with_reducible first | assumption | (exact Frame.sub hm (by decide)) | apply frame_linkFalls | split | dsimp only | simp only [Frame.upd_iff, true_or, or_true])

theorem frame_execRetrain {m0 : Nat} {s0 : State} (k : Nat) (s : State) (hm : 20480 ||| m0 = m0) (hs : Frame m0 s0 s) :
    ∀ z, (execRetrain k s) = .next z → Frame m0 s0 z := by
  intro z e
  unfold execRetrain at e
  try dsimp only at e
  first | (split at e <;> first | (injection e with e; subst e)) | (injection e with e; subst e) | skip
  repeat' (with_reducible first | assumption | (exact Frame.sub hm (by decide)) | apply frame_onLink | apply frame_setLinkState | split | dsimp only | simp only [Frame.upd_iff, true_or, or_true])

theorem frame_execStandbyParentSwitch {m0 : Nat} {s0 : State} (s : State) (hm : 20480 ||| m0 = m0) (hs : Frame m0 s0 s) :
    ∀ z, (execStandbyParentSwitch s) = .next z → Frame m0 s0 z := by
  have b14 := Frame.bit hm (k := 14) (by decide)
  intro z e
  unfold execStandbyParentSwitch at e
  try dsimp only at e
  first | (split at e <;> first | (injection e with e; subst e)) | (injection e with e; subst e) | skip
  repeat' (with_reducible first | assumption | (exact Frame.sub hm (by decide)) | apply frame_trackParent | split | dsimp only | simp only [Frame.upd_iff, b14, true_or, or_true])

end Sys2Proof.Machine
end

