-- ==== Sys2Proof/Laws/FrameMapOps.lean ====
section
/-! SUPPORT. FrameMapOps: each operation of Machine/MapOps.lean changes only the fields of `State`
that its mask names (`Frame`). -/
namespace Sys2Proof.Machine
set_option Elab.async false
set_option linter.all false

theorem frame_saveRecord {m0 : Nat} {s0 : State} (s : State) (hm : 4096 ||| m0 = m0) (hs : Frame m0 s0 s) :
    Frame m0 s0 (saveRecord s) := by
  have b12 := Frame.bit hm (k := 12) (by decide)
  unfold saveRecord
  repeat' (with_reducible first | assumption | (exact Frame.sub hm (by decide)) | split | dsimp only | simp only [Frame.upd_iff, b12, true_or, or_true])

theorem frame_extendM {m0 : Nat} {s0 : State} (k : Nat) (d : Bytes) (s : State) (hm : 262144 ||| m0 = m0) (hs : Frame m0 s0 s) :
    Frame m0 s0 (extendM k d s) := by
  have b18 := Frame.bit hm (k := 18) (by decide)
  unfold extendM
  repeat' (with_reducible first | assumption | (exact Frame.sub hm (by decide)) | split | dsimp only | simp only [Frame.upd_iff, b18, true_or, or_true])

theorem frame_stageMap {m0 : Nat} {s0 : State} (b : Bytes) (s : State) (hm : 36864 ||| m0 = m0) (hs : Frame m0 s0 s) :
    Frame m0 s0 (stageMap b s).2 := by
  have b15 := Frame.bit hm (k := 15) (by decide)
  unfold stageMap
  repeat' (with_reducible first | assumption | (exact Frame.sub hm (by decide)) | apply frame_dirSet | apply frame_saveRecord | split | dsimp only | simp only [Frame.upd_iff, b15, true_or, or_true])

theorem frame_stageImage {m0 : Nat} {s0 : State} (b : Bytes) (s : State) (hm : 36864 ||| m0 = m0) (hs : Frame m0 s0 s) :
    Frame m0 s0 (stageImage b s).2 := by
  have b15 := Frame.bit hm (k := 15) (by decide)
  unfold stageImage
  repeat' (with_reducible first | assumption | (exact Frame.sub hm (by decide)) | apply frame_dirSet | split | dsimp only | simp only [Frame.upd_iff, b15, true_or, or_true])

theorem frame_takeImage {m0 : Nat} {s0 : State} (b : Bytes) (s : State) (hm : 282624 ||| m0 = m0) (hs : Frame m0 s0 s) :
    Frame m0 s0 (takeImage b s) := by
  have b14 := Frame.bit hm (k := 14) (by decide)
  unfold takeImage
  repeat' (with_reducible first | assumption | (exact Frame.sub hm (by decide)) | apply frame_dirPut | apply frame_dirSet | apply frame_extendM | split | dsimp only | simp only [Frame.upd_iff, b14, true_or, or_true])

theorem frame_stayOutside {m0 : Nat} {s0 : State} (s : State) (hm : 32768 ||| m0 = m0) (hs : Frame m0 s0 s) :
    Frame m0 s0 (stayOutside s) := by
  have b15 := Frame.bit hm (k := 15) (by decide)
  unfold stayOutside
  repeat' (with_reducible first | assumption | (exact Frame.sub hm (by decide)) | split | dsimp only | simp only [Frame.upd_iff, b15, true_or, or_true])

theorem frame_takeMap {m0 : Nat} {s0 : State} (b : Bytes) (s : State) (hm : 299008 ||| m0 = m0) (hs : Frame m0 s0 s) :
    Frame m0 s0 (takeMap b s) := by
  have b15 := Frame.bit hm (k := 15) (by decide)
  unfold takeMap
  repeat' (with_reducible first | assumption | (exact Frame.sub hm (by decide)) | apply frame_dirPut | apply frame_dirSet | apply frame_extendM | apply frame_saveRecord | split | dsimp only | simp only [Frame.upd_iff, b15, true_or, or_true])

theorem frame_loadMaps {m0 : Nat} {s0 : State} (s : State) (hm : 315392 ||| m0 = m0) (hs : Frame m0 s0 s) :
    Frame m0 s0 (loadMaps s) := by
  have b15 := Frame.bit hm (k := 15) (by decide)
  unfold loadMaps
  repeat' (with_reducible first | assumption | (exact Frame.sub hm (by decide)) | apply frame_dirSet | apply frame_stayOutside | apply frame_takeImage | apply frame_takeMap | apply frame_whenS | (intro _) | refine Frame.ite ?_ ?_ | split | dsimp only | simp only [Frame.upd_iff, b15, true_or, or_true])

end Sys2Proof.Machine
end

