-- ==== Sys2Proof/Laws/FrameLogOps.lean ====
section
/-! SUPPORT. FrameLogOps: each operation of Machine/LogOps.lean changes only the fields of `State`
that its mask names (`Frame`). -/
namespace Sys2Proof.Machine
set_option Elab.async false
set_option linter.all false

theorem frame_appendDie {m0 : Nat} {s0 : State} (d : Nat) (s : State) (hm : 6144 ||| m0 = m0) (hs : Frame m0 s0 s) :
    Frame m0 s0 (appendDie d s) := by
  have b11 := Frame.bit hm (k := 11) (by decide)
  unfold appendDie
  repeat' (with_reducible first | assumption | (exact Frame.sub hm (by decide)) | apply frame_dirSet | split | dsimp only | simp only [Frame.upd_iff, b11, true_or, or_true])

theorem frame_mirrorDie {m0 : Nat} {s0 : State} (d : Nat) (s : State) (hm : 6144 ||| m0 = m0) (hs : Frame m0 s0 s) :
    Frame m0 s0 (mirrorDie d s) := by
  have b11 := Frame.bit hm (k := 11) (by decide)
  unfold mirrorDie
  repeat' (with_reducible first | assumption | (exact Frame.sub hm (by decide)) | apply frame_bump | split | dsimp only | simp only [Frame.upd_iff, b11, true_or, or_true])

theorem frame_keepFull {m0 : Nat} {s0 : State} (d : Nat) (r : ErrRec) (s : State) (hm : 2048 ||| m0 = m0) (hs : Frame m0 s0 s) :
    Frame m0 s0 (keepFull d r s) := by
  unfold keepFull
  repeat' (with_reducible first | assumption | (exact Frame.sub hm (by decide)) | apply frame_onDieLog | split | dsimp only | simp only [Frame.upd_iff, true_or, or_true])

theorem frame_logSevere {m0 : Nat} {s0 : State} (r : ErrRec) (s : State) (hm : 6144 ||| m0 = m0) (hs : Frame m0 s0 s) :
    Frame m0 s0 (logSevere r s) := by
  unfold logSevere
  repeat' (with_reducible first | assumption | (exact Frame.sub hm (by decide)) | apply frame_appendDie | apply frame_keepFull | apply frame_mirrorDie | apply frame_whenS | (intro _) | refine Frame.ite ?_ ?_ | split | dsimp only | simp only [Frame.upd_iff, true_or, or_true])

theorem frame_resumeDie {m0 : Nat} {s0 : State} (d : Nat) (s : State) (hm : 2048 ||| m0 = m0) (hs : Frame m0 s0 s) :
    Frame m0 s0 (resumeDie d s) := by
  unfold resumeDie
  repeat' (with_reducible first | assumption | (exact Frame.sub hm (by decide)) | apply frame_onDieLog | split | dsimp only | simp only [Frame.upd_iff, true_or, or_true])

theorem frame_autoRemove {m0 : Nat} {s0 : State} (s : State) (hm : 1024 ||| m0 = m0) (hs : Frame m0 s0 s) :
    Frame m0 s0 (autoRemove s) := by
  have b10 := Frame.bit hm (k := 10) (by decide)
  unfold autoRemove
  repeat' (with_reducible first | assumption | (exact Frame.sub hm (by decide)) | split | dsimp only | simp only [Frame.upd_iff, b10, true_or, or_true])

theorem frame_takeCores {m0 : Nat} {s0 : State} (l : List Nat) (s : State) (hm : 4112 ||| m0 = m0) (hs : Frame m0 s0 s) :
    Frame m0 s0 (takeCores l s) := by
  have b4 := Frame.bit hm (k := 4) (by decide)
  unfold takeCores
  repeat' (with_reducible first | assumption | (exact Frame.sub hm (by decide)) | apply frame_dirSet | split | dsimp only | simp only [Frame.upd_iff, b4, true_or, or_true])

theorem frame_finishRecord {m0 : Nat} {s0 : State} (r : ErrRec) (s : State) (hm : 7192 ||| m0 = m0) (hs : Frame m0 s0 s) :
    Frame m0 s0 (finishRecord r s) := by
  have b10 := Frame.bit hm (k := 10) (by decide)
  unfold finishRecord
  repeat' (with_reducible first | assumption | (exact Frame.sub hm (by decide)) | apply frame_flushWriteBacks | apply frame_logSevere | apply frame_takeCores | apply frame_whenS | (intro _) | refine Frame.ite ?_ ?_ | split | dsimp only | simp only [Frame.upd_iff, b10, true_or, or_true])

theorem frame_startNext {m0 : Nat} {s0 : State} (s : State) (hm : 1024 ||| m0 = m0) (hs : Frame m0 s0 s) :
    Frame m0 s0 (startNext s) := by
  have b10 := Frame.bit hm (k := 10) (by decide)
  unfold startNext
  repeat' (with_reducible first | assumption | (exact Frame.sub hm (by decide)) | split | dsimp only | simp only [Frame.upd_iff, b10, true_or, or_true])

theorem frame_dropAlerts {m0 : Nat} {s0 : State} (s : State) (hm : 9216 ||| m0 = m0) (hs : Frame m0 s0 s) :
    Frame m0 s0 (dropAlerts s) := by
  have b10 := Frame.bit hm (k := 10) (by decide)
  have b13 := Frame.bit hm (k := 13) (by decide)
  unfold dropAlerts
  repeat' (with_reducible first | assumption | (exact Frame.sub hm (by decide)) | apply frame_autoRemove | split | dsimp only | simp only [Frame.upd_iff, b10, b13, true_or, or_true])

theorem frame_endAdmitted {m0 : Nat} {s0 : State} (status : Nat) (s : State) (hm : 6648 ||| m0 = m0) (hs : Frame m0 s0 s) :
    Frame m0 s0 (endAdmitted status s) := by
  unfold endAdmitted
  repeat' (with_reducible first | assumption | (exact Frame.sub hm (by decide)) | apply frame_failReq | apply frame_foldS | (intro _) | refine Frame.ite ?_ ?_ | split | dsimp only | simp only [Frame.upd_iff, true_or, or_true])

theorem frame_fabricOff {m0 : Nat} {s0 : State} (s : State) (hm : 20480 ||| m0 = m0) (hs : Frame m0 s0 s) :
    Frame m0 s0 (fabricOff s) := by
  have b14 := Frame.bit hm (k := 14) (by decide)
  unfold fabricOff
  repeat' (with_reducible first | assumption | (exact Frame.sub hm (by decide)) | apply frame_foldS | apply frame_onLink | apply frame_setLinkState | apply frame_trackParent | (intro _) | refine Frame.ite ?_ ?_ | split | dsimp only | simp only [Frame.upd_iff, b14, true_or, or_true])

theorem frame_dropParts {m0 : Nat} {s0 : State} (s : State) (hm : 65536 ||| m0 = m0) (hs : Frame m0 s0 s) :
    Frame m0 s0 (dropParts s) := by
  have b16 := Frame.bit hm (k := 16) (by decide)
  unfold dropParts
  repeat' (with_reducible first | assumption | (exact Frame.sub hm (by decide)) | split | dsimp only | simp only [Frame.upd_iff, b16, true_or, or_true])

theorem frame_keepSticky {m0 : Nat} {s0 : State} (r : ErrRec) (s : State) (hm : 1024 ||| m0 = m0) (hs : Frame m0 s0 s) :
    Frame m0 s0 (keepSticky r s) := by
  have b10 := Frame.bit hm (k := 10) (by decide)
  unfold keepSticky
  repeat' (with_reducible first | assumption | (exact Frame.sub hm (by decide)) | split | dsimp only | simp only [Frame.upd_iff, b10, true_or, or_true])

theorem frame_writeSticky {m0 : Nat} {s0 : State} (r : ErrRec) (s : State) (hm : 15360 ||| m0 = m0) (hs : Frame m0 s0 s) :
    Frame m0 s0 (writeSticky r s) := by
  unfold writeSticky
  repeat' (with_reducible first | assumption | (exact Frame.sub hm (by decide)) | apply frame_keepFull | apply frame_keepSticky | apply frame_onDieLog | apply frame_sendAlert | split | dsimp only | simp only [Frame.upd_iff, true_or, or_true])

theorem frame_haltNode {m0 : Nat} {s0 : State} (c : HaltCause) (s : State) (hm : 622076 ||| m0 = m0) (hs : Frame m0 s0 s) :
    Frame m0 s0 (haltNode c s) := by
  have b2 := Frame.bit hm (k := 2) (by decide)
  have b19 := Frame.bit hm (k := 19) (by decide)
  unfold haltNode
  repeat' (with_reducible first | assumption | (exact Frame.sub hm (by decide)) | apply frame_dirSet | apply frame_dropParts | apply frame_endAdmitted | apply frame_fabricOff | apply frame_whenS | apply frame_writeSticky | (intro _) | refine Frame.ite ?_ ?_ | split | dsimp only | simp only [Frame.upd_iff, b2, b19, true_or, or_true])

theorem frame_finishHost {m0 : Nat} {s0 : State} (s : State) (hm : 203256 ||| m0 = m0) (hs : Frame m0 s0 s) :
    Frame m0 s0 (finishHost s) := by
  unfold finishHost
  repeat' (with_reducible first | assumption | (exact Frame.sub hm (by decide)) | apply frame_foldS | apply frame_jobProgrammed | (intro _) | refine Frame.ite ?_ ?_ | split | dsimp only | simp only [Frame.upd_iff, true_or, or_true])

theorem frame_programBuffer {m0 : Nat} {s0 : State} (s : State) (hm : 203256 ||| m0 = m0) (hs : Frame m0 s0 s) :
    Frame m0 s0 (programBuffer s) := by
  unfold programBuffer
  repeat' (with_reducible first | assumption | (exact Frame.sub hm (by decide)) | apply frame_finishHost | apply frame_foldS | apply frame_gatherUnit | (intro _) | refine Frame.ite ?_ ?_ | split | dsimp only | simp only [Frame.upd_iff, true_or, or_true])

theorem frame_flushMedia {m0 : Nat} {s0 : State} (s : State) (hm : 203256 ||| m0 = m0) (hs : Frame m0 s0 s) :
    Frame m0 s0 (flushMedia s) := by
  unfold flushMedia
  repeat' (with_reducible first | assumption | (exact Frame.sub hm (by decide)) | apply frame_appendDie | apply frame_foldS | apply frame_journalDone | apply frame_onFlash | apply frame_programBuffer | (intro _) | refine Frame.ite ?_ ?_ | split | dsimp only | simp only [Frame.upd_iff, true_or, or_true])

theorem frame_sleepStacks {m0 : Nat} {s0 : State} (s : State) (hm : 128 ||| m0 = m0) (hs : Frame m0 s0 s) :
    Frame m0 s0 (sleepStacks s) := by
  have b7 := Frame.bit hm (k := 7) (by decide)
  unfold sleepStacks
  repeat' (with_reducible first | assumption | (exact Frame.sub hm (by decide)) | split | dsimp only | simp only [Frame.upd_iff, b7, true_or, or_true])

end Sys2Proof.Machine
end

