-- ==== Sys2Proof/Laws/FrameErrors.lean ====
section
/-! SUPPORT. FrameErrors: each operation of Machine/Errors.lean changes only the fields of `State`
that its mask names (`Frame`). -/
namespace Sys2Proof.Machine
set_option Elab.async false
set_option linter.all false

theorem frame_execRecordHandled {m0 : Nat} {s0 : State} (seq : Nat) (s : State) (hm : 7192 ||| m0 = m0) (hs : Frame m0 s0 s) :
    ∀ z, (execRecordHandled seq s) = .next z → Frame m0 s0 z := by
  intro z e
  unfold execRecordHandled at e
  try dsimp only at e
  first | (split at e <;> first | (injection e with e; subst e)) | (injection e with e; subst e) | skip
  repeat' (with_reducible first | assumption | (exact Frame.sub hm (by decide)) | apply frame_autoRemove | apply frame_finishRecord | apply frame_startNext | split | dsimp only | simp only [Frame.upd_iff, true_or, or_true])

theorem frame_execRecordClose {m0 : Nat} {s0 : State} (seq : Nat) (s : State) (hm : 1024 ||| m0 = m0) (hs : Frame m0 s0 s) :
    ∀ z, (execRecordClose seq s) = .next z → Frame m0 s0 z := by
  have b10 := Frame.bit hm (k := 10) (by decide)
  intro z e
  unfold execRecordClose at e
  try dsimp only at e
  first | (split at e <;> first | (injection e with e; subst e)) | (injection e with e; subst e) | skip
  repeat' (with_reducible first | assumption | (exact Frame.sub hm (by decide)) | apply frame_autoRemove | split | dsimp only | simp only [Frame.upd_iff, b10, true_or, or_true])

theorem frame_patrolWord {m0 : Nat} {s0 : State} (wa : Nat) (s : State) (hm : 15368 ||| m0 = m0) (hs : Frame m0 s0 s) :
    Frame m0 s0 (patrolWord wa s) := by
  unfold patrolWord
  repeat' (with_reducible first | assumption | (exact Frame.sub hm (by decide)) | apply frame_noteCorrected | apply frame_raise | split | dsimp only | simp only [Frame.upd_iff, true_or, or_true])

theorem frame_execPatrol {m0 : Nat} {s0 : State} (a : Nat) (s : State) (hm : 15368 ||| m0 = m0) (hs : Frame m0 s0 s) :
    ∀ z, (execPatrol a s) = .next z → Frame m0 s0 z := by
  intro z e
  unfold execPatrol at e
  try dsimp only at e
  first | (split at e <;> first | (injection e with e; subst e)) | (injection e with e; subst e) | skip
  repeat' (with_reducible first | assumption | (exact Frame.sub hm (by decide)) | apply frame_flushWriteBacks | apply frame_foldS | apply frame_patrolWord | (intro _) | refine Frame.ite ?_ ?_ | split | dsimp only | simp only [Frame.upd_iff, true_or, or_true])

theorem frame_execHalt {m0 : Nat} {s0 : State} (c : HaltCause) (s : State) (hm : 622076 ||| m0 = m0) (hs : Frame m0 s0 s) :
    ∀ z, (execHalt c s) = .next z → Frame m0 s0 z := by
  intro z e
  unfold execHalt at e
  try dsimp only at e
  first | (split at e <;> first | (injection e with e; subst e)) | (injection e with e; subst e) | skip
  repeat' (with_reducible first | assumption | (exact Frame.sub hm (by decide)) | apply frame_haltNode | split | dsimp only | simp only [Frame.upd_iff, true_or, or_true])

theorem frame_abortDirectory {m0 : Nat} {s0 : State} (s : State) (hm : 6648 ||| m0 = m0) (hs : Frame m0 s0 s) :
    Frame m0 s0 (abortDirectory s) := by
  have b12 := Frame.bit hm (k := 12) (by decide)
  unfold abortDirectory
  repeat' (with_reducible first | assumption | (exact Frame.sub hm (by decide)) | apply frame_failReq | apply frame_foldS | (intro _) | refine Frame.ite ?_ ?_ | split | dsimp only | simp only [Frame.upd_iff, b12, true_or, or_true])

theorem frame_resetController {m0 : Nat} {s0 : State} (s : State) (hm : 278008 ||| m0 = m0) (hs : Frame m0 s0 s) :
    Frame m0 s0 (resetController s) := by
  have b10 := Frame.bit hm (k := 10) (by decide)
  unfold resetController
  repeat' (with_reducible first | assumption | (exact Frame.sub hm (by decide)) | apply frame_abortDirectory | apply frame_bump | apply frame_dirSet | apply frame_extendM | apply frame_record | split | dsimp only | simp only [Frame.upd_iff, b10, true_or, or_true])

theorem frame_execWatchdogExpiry {m0 : Nat} {s0 : State} (s : State) (hm : 884220 ||| m0 = m0) (hs : Frame m0 s0 s) :
    ∀ z, (execWatchdogExpiry s) = .next z → Frame m0 s0 z := by
  intro z e
  unfold execWatchdogExpiry at e
  try dsimp only at e
  first | (split at e <;> first | (injection e with e; subst e)) | (injection e with e; subst e) | skip
  repeat' (with_reducible first | assumption | (exact Frame.sub hm (by decide)) | apply frame_haltNode | apply frame_resetController | apply frame_whenS | (intro _) | refine Frame.ite ?_ ?_ | split | dsimp only | simp only [Frame.upd_iff, true_or, or_true])

theorem frame_execControllerRestartDone {m0 : Nat} {s0 : State} (s : State) (hm : 1024 ||| m0 = m0) (hs : Frame m0 s0 s) :
    ∀ z, (execControllerRestartDone s) = .next z → Frame m0 s0 z := by
  have b10 := Frame.bit hm (k := 10) (by decide)
  intro z e
  unfold execControllerRestartDone at e
  try dsimp only at e
  first | (split at e <;> first | (injection e with e; subst e)) | (injection e with e; subst e) | skip
  repeat' (with_reducible first | assumption | (exact Frame.sub hm (by decide)) | split | dsimp only | simp only [Frame.upd_iff, b10, true_or, or_true])

theorem frame_execLogbookAppend {m0 : Nat} {s0 : State} (die : Nat) (s : State) (hm : 6144 ||| m0 = m0) (hs : Frame m0 s0 s) :
    ∀ z, (execLogbookAppend die s) = .next z → Frame m0 s0 z := by
  intro z e
  unfold execLogbookAppend at e
  try dsimp only at e
  first | (split at e <;> first | (injection e with e; subst e)) | (injection e with e; subst e) | skip
  repeat' (with_reducible first | assumption | (exact Frame.sub hm (by decide)) | apply frame_appendDie | split | dsimp only | simp only [Frame.upd_iff, true_or, or_true])

theorem frame_execLogbookSummary {m0 : Nat} {s0 : State} (die : Nat) (s : State) (hm : 6144 ||| m0 = m0) (hs : Frame m0 s0 s) :
    ∀ z, (execLogbookSummary die s) = .next z → Frame m0 s0 z := by
  intro z e
  unfold execLogbookSummary at e
  try dsimp only at e
  first | (split at e <;> first | (injection e with e; subst e)) | (injection e with e; subst e) | skip
  repeat' (with_reducible first | assumption | (exact Frame.sub hm (by decide)) | apply frame_mirrorDie | split | dsimp only | simp only [Frame.upd_iff, true_or, or_true])

theorem frame_execAgeingReading {m0 : Nat} {s0 : State} (die : Nat) (deltas : List Nat) (s : State) (hm : 6144 ||| m0 = m0) (hs : Frame m0 s0 s) :
    ∀ z, (execAgeingReading die deltas s) = .next z → Frame m0 s0 z := by
  have b11 := Frame.bit hm (k := 11) (by decide)
  intro z e
  unfold execAgeingReading at e
  try dsimp only at e
  first | (split at e <;> first | (injection e with e; subst e)) | (injection e with e; subst e) | skip
  repeat' (with_reducible first | assumption | (exact Frame.sub hm (by decide)) | apply frame_dirPut | split | dsimp only | simp only [Frame.upd_iff, b11, true_or, or_true])

theorem frame_planGuard {m0 : Nat} {s0 : State} (d : Nat) (s : State) (hm : 2048 ||| m0 = m0) (hs : Frame m0 s0 s) :
    Frame m0 s0 (planGuard d s) := by
  have b11 := Frame.bit hm (k := 11) (by decide)
  unfold planGuard
  repeat' (with_reducible first | assumption | (exact Frame.sub hm (by decide)) | split | dsimp only | simp only [Frame.upd_iff, b11, true_or, or_true])

theorem frame_planBin {m0 : Nat} {s0 : State} (d : Nat) (s : State) (hm : 4096 ||| m0 = m0) (hs : Frame m0 s0 s) :
    Frame m0 s0 (planBin d s) := by
  unfold planBin
  repeat' (with_reducible first | assumption | (exact Frame.sub hm (by decide)) | apply frame_dirPut | apply frame_saveRecord | split | dsimp only | simp only [Frame.upd_iff, true_or, or_true])

theorem frame_planRefresh {m0 : Nat} {s0 : State} (k : Nat) (margin : Nat) (s : State) (hm : 4096 ||| m0 = m0) (hs : Frame m0 s0 s) :
    Frame m0 s0 (planRefresh k margin s) := by
  unfold planRefresh
  repeat' (with_reducible first | assumption | (exact Frame.sub hm (by decide)) | apply frame_dirPut | split | dsimp only | simp only [Frame.upd_iff, true_or, or_true])

theorem frame_planOffset {m0 : Nat} {s0 : State} (c : Nat) (share : Nat) (s : State) (hm : 4096 ||| m0 = m0) (hs : Frame m0 s0 s) :
    Frame m0 s0 (planOffset c share s) := by
  unfold planOffset
  repeat' (with_reducible first | assumption | (exact Frame.sub hm (by decide)) | apply frame_dirPut | split | dsimp only | simp only [Frame.upd_iff, true_or, or_true])

theorem frame_planLanes4 {m0 : Nat} {s0 : State} (w : Nat) (s : State) (hm : 4096 ||| m0 = m0) (hs : Frame m0 s0 s) :
    Frame m0 s0 (planLanes4 w s) := by
  unfold planLanes4
  repeat' (with_reducible first | assumption | (exact Frame.sub hm (by decide)) | apply frame_dirSet | apply frame_saveRecord | split | dsimp only | simp only [Frame.upd_iff, true_or, or_true])

theorem frame_planMargins {m0 : Nat} {s0 : State} (i : PlanInputs) (s : State) (hm : 15392 ||| m0 = m0) (hs : Frame m0 s0 s) :
    Frame m0 s0 (planMargins i s) := by
  have b11 := Frame.bit hm (k := 11) (by decide)
  unfold planMargins
  repeat' (with_reducible first | assumption | (exact Frame.sub hm (by decide)) | apply frame_bankOut | apply frame_dirSet | apply frame_foldS | apply frame_onDieLog | apply frame_planBin | apply frame_planGuard | apply frame_planLanes4 | apply frame_planOffset | apply frame_planRefresh | (intro _) | refine Frame.ite ?_ ?_ | split | dsimp only | simp only [Frame.upd_iff, b11, true_or, or_true])

theorem frame_execMarginReplan {m0 : Nat} {s0 : State} (i : PlanInputs) (s : State) (hm : 15392 ||| m0 = m0) (hs : Frame m0 s0 s) :
    ∀ z, (execMarginReplan i s) = .next z → Frame m0 s0 z := by
  intro z e
  unfold execMarginReplan at e
  try dsimp only at e
  first | (split at e <;> first | (injection e with e; subst e)) | (injection e with e; subst e) | skip
  repeat' (with_reducible first | assumption | (exact Frame.sub hm (by decide)) | apply frame_planMargins | split | dsimp only | simp only [Frame.upd_iff, true_or, or_true])

theorem frame_raiseGuard {m0 : Nat} {s0 : State} (s : State) (hm : 6144 ||| m0 = m0) (hs : Frame m0 s0 s) :
    Frame m0 s0 (raiseGuard s) := by
  have b11 := Frame.bit hm (k := 11) (by decide)
  unfold raiseGuard
  repeat' (with_reducible first | assumption | (exact Frame.sub hm (by decide)) | apply frame_dirPut | apply frame_foldS | (intro _) | refine Frame.ite ?_ ?_ | split | dsimp only | simp only [Frame.upd_iff, b11, true_or, or_true])

end Sys2Proof.Machine
end

