-- ==== Sys2Proof/Laws/FrameTraffic.lean ====
section
/-! SUPPORT. FrameTraffic: each operation of Machine/Traffic.lean changes only the fields of `State`
that its mask names (`Frame`). -/
namespace Sys2Proof.Machine
set_option Elab.async false
set_option linter.all false

theorem frame_execTransmitSelect {m0 : Nat} {s0 : State} (p : Nat) (s : State) (hm : 4864 ||| m0 = m0) (hs : Frame m0 s0 s) :
    ∀ z, (execTransmitSelect p s) = .next z → Frame m0 s0 z := by
  intro z e
  unfold execTransmitSelect at e
  try dsimp only at e
  first | (split at e <;> first | (injection e with e; subst e)) | (injection e with e; subst e) | skip
  repeat' (with_reducible first | assumption | (exact Frame.sub hm (by decide)) | apply frame_selectNext | split | dsimp only | simp only [Frame.upd_iff, true_or, or_true])

theorem frame_execArpNdIcmp {m0 : Nat} {s0 : State} (p : Nat) (a : NetAsk) (s : State) (hm : 4352 ||| m0 = m0) (hs : Frame m0 s0 s) :
    ∀ z, (execArpNdIcmp p a s) = .next z → Frame m0 s0 z := by
  intro z e
  unfold execArpNdIcmp at e
  try dsimp only at e
  first | (split at e <;> first | (injection e with e; subst e)) | (injection e with e; subst e) | skip
  repeat' (with_reducible first | assumption | (exact Frame.sub hm (by decide)) | apply frame_bump | apply frame_putOut | split | dsimp only | simp only [Frame.upd_iff, true_or, or_true])

theorem frame_execSubportUp {m0 : Nat} {s0 : State} (p : Nat) (s : State) (hm : 528640 ||| m0 = m0) (hs : Frame m0 s0 s) :
    ∀ z, (execSubportUp p s) = .next z → Frame m0 s0 z := by
  intro z e
  unfold execSubportUp at e
  try dsimp only at e
  first | (split at e <;> first | (injection e with e; subst e)) | (injection e with e; subst e) | skip
  repeat' (with_reducible first | assumption | (exact Frame.sub hm (by decide)) | apply frame_portRise | split | dsimp only | simp only [Frame.upd_iff, true_or, or_true])

theorem frame_execSubportDown {m0 : Nat} {s0 : State} (p : Nat) (s : State) (hm : 539904 ||| m0 = m0) (hs : Frame m0 s0 s) :
    ∀ z, (execSubportDown p s) = .next z → Frame m0 s0 z := by
  intro z e
  unfold execSubportDown at e
  try dsimp only at e
  first | (split at e <;> first | (injection e with e; subst e)) | (injection e with e; subst e) | skip
  repeat' (with_reducible first | assumption | (exact Frame.sub hm (by decide)) | apply frame_portDown | split | dsimp only | simp only [Frame.upd_iff, true_or, or_true])

theorem frame_execHoldDownEnd {m0 : Nat} {s0 : State} (p : Nat) (s : State) (hm : 524288 ||| m0 = m0) (hs : Frame m0 s0 s) :
    ∀ z, (execHoldDownEnd p s) = .next z → Frame m0 s0 z := by
  intro z e
  unfold execHoldDownEnd at e
  try dsimp only at e
  first | (split at e <;> first | (injection e with e; subst e)) | (injection e with e; subst e) | skip
  repeat' (with_reducible first | assumption | (exact Frame.sub hm (by decide)) | apply frame_onPort | split | dsimp only | simp only [Frame.upd_iff, true_or, or_true])

theorem frame_execPcsLockLoss {m0 : Nat} {s0 : State} (p : Nat) (ns : Nat) (regained : Bool) (s : State) (hm : 539904 ||| m0 = m0) (hs : Frame m0 s0 s) :
    ∀ z, (execPcsLockLoss p ns regained s) = .next z → Frame m0 s0 z := by
  intro z e
  unfold execPcsLockLoss at e
  try dsimp only at e
  first | (split at e <;> first | (injection e with e; subst e)) | (injection e with e; subst e) | skip
  repeat' (with_reducible first | assumption | (exact Frame.sub hm (by decide)) | apply frame_bump | apply frame_portDown | split | dsimp only | simp only [Frame.upd_iff, true_or, or_true])

theorem frame_execRxDropped {m0 : Nat} {s0 : State} (p : Nat) (reason : Nat) (s : State) (hm : 4096 ||| m0 = m0) (hs : Frame m0 s0 s) :
    ∀ z, (execRxDropped p reason s) = .next z → Frame m0 s0 z := by
  intro z e
  unfold execRxDropped at e
  try dsimp only at e
  first | (split at e <;> first | (injection e with e; subst e)) | (injection e with e; subst e) | skip
  repeat' (with_reducible first | assumption | (exact Frame.sub hm (by decide)) | apply frame_bump | apply frame_pkDrop | apply frame_whenS | (intro _) | refine Frame.ite ?_ ?_ | split | dsimp only | simp only [Frame.upd_iff, true_or, or_true])

theorem frame_execSample {m0 : Nat} {s0 : State} (s : State) (hm : 4096 ||| m0 = m0) (hs : Frame m0 s0 s) :
    ∀ z, (execSample s) = .next z → Frame m0 s0 z := by
  intro z e
  unfold execSample at e
  try dsimp only at e
  first | (split at e <;> first | (injection e with e; subst e)) | (injection e with e; subst e) | skip
  repeat' (with_reducible first | assumption | (exact Frame.sub hm (by decide)) | apply frame_foldS | apply frame_sampleQueue | (intro _) | refine Frame.ite ?_ ?_ | split | dsimp only | simp only [Frame.upd_iff, true_or, or_true])

end Sys2Proof.Machine
end

