-- ==== Sys2Proof/Laws/FrameBootOps.lean ====
section
/-! SUPPORT. FrameBootOps: each operation of Machine/BootOps.lean changes only the fields of `State`
that its mask names (`Frame`). -/
namespace Sys2Proof.Machine
set_option Elab.async false
set_option linter.all false

theorem frame_atPin {m0 : Nat} {s0 : State} (c : Nat) (s : State) (hm : 2 ||| m0 = m0) (hs : Frame m0 s0 s) :
    Frame m0 s0 (atPin c s) := by
  have b1 := Frame.bit hm (k := 1) (by decide)
  unfold atPin
  repeat' (with_reducible first | assumption | (exact Frame.sub hm (by decide)) | split | dsimp only | simp only [Frame.upd_iff, b1, true_or, or_true])

theorem frame_coldClear {m0 : Nat} {s0 : State} (cause : Nat) (s : State) (hm : 1048574 ||| m0 = m0) (hs : Frame m0 s0 s) :
    Frame m0 s0 (coldClear cause s) := by
  unfold coldClear
  refine frame_dirSet _ _ _ (Frame.sub hm (by decide)) ?_
  exact (Frame.upd_iff (u := applyUpdates s) (.inl (Frame.bit hm (k := 1) (by decide))) (.inl (Frame.bit hm (k := 2) (by decide))) (.inl (Frame.bit hm (k := 3) (by decide))) (.inl (Frame.bit hm (k := 4) (by decide))) (.inl (Frame.bit hm (k := 5) (by decide))) (.inl (Frame.bit hm (k := 6) (by decide))) (.inl (Frame.bit hm (k := 7) (by decide))) (.inl (Frame.bit hm (k := 8) (by decide))) (.inl (Frame.bit hm (k := 9) (by decide))) (.inl (Frame.bit hm (k := 10) (by decide))) (.inl (Frame.bit hm (k := 11) (by decide))) (.inl (Frame.bit hm (k := 12) (by decide))) (.inl (Frame.bit hm (k := 13) (by decide))) (.inl (Frame.bit hm (k := 14) (by decide))) (.inl (Frame.bit hm (k := 15) (by decide))) (.inl (Frame.bit hm (k := 16) (by decide))) (.inl (Frame.bit hm (k := 17) (by decide))) (.inl (Frame.bit hm (k := 18) (by decide))) (.inl (Frame.bit hm (k := 19) (by decide))) (.inr rfl)).2 (frame_applyUpdates _ (Frame.sub hm (by decide)) hs)

theorem frame_powerLost {m0 : Nat} {s0 : State} (s : State) (hm : 1048574 ||| m0 = m0) (hs : Frame m0 s0 s) :
    Frame m0 s0 (powerLost s) := by
  have h := frame_coldClear 0 s (Frame.sub hm (by decide)) hs
  unfold powerLost
  generalize coldClear 0 s = u at h ⊢
  exact (Frame.upd_iff (u := u) (.inl (Frame.bit hm (k := 1) (by decide))) (.inr rfl) (.inr rfl) (.inr rfl) (.inr rfl) (.inr rfl) (.inr rfl) (.inr rfl) (.inr rfl) (.inr rfl) (.inl (Frame.bit hm (k := 11) (by decide))) (.inr rfl) (.inl (Frame.bit hm (k := 13) (by decide))) (.inr rfl) (.inr rfl) (.inr rfl) (.inr rfl) (.inr rfl) (.inl (Frame.bit hm (k := 19) (by decide))) (.inr rfl)).2 h

theorem frame_stopDies {m0 : Nat} {s0 : State} (s : State) (hm : 112 ||| m0 = m0) (hs : Frame m0 s0 s) :
    Frame m0 s0 (stopDies s) := by
  have b4 := Frame.bit hm (k := 4) (by decide)
  have b5 := Frame.bit hm (k := 5) (by decide)
  have b6 := Frame.bit hm (k := 6) (by decide)
  unfold stopDies
  repeat' (with_reducible first | assumption | (exact Frame.sub hm (by decide)) | split | dsimp only | simp only [Frame.upd_iff, b4, b5, b6, true_or, or_true])

theorem frame_startFlush {m0 : Nat} {s0 : State} (s : State) (hm : 86516 ||| m0 = m0) (hs : Frame m0 s0 s) :
    Frame m0 s0 (startFlush s) := by
  have b2 := Frame.bit hm (k := 2) (by decide)
  have b7 := Frame.bit hm (k := 7) (by decide)
  have b8 := Frame.bit hm (k := 8) (by decide)
  unfold startFlush
  repeat' (with_reducible first | assumption | (exact Frame.sub hm (by decide)) | apply frame_dropParts | apply frame_fabricOff | apply frame_portsOff | apply frame_stopDies | split | dsimp only | simp only [Frame.upd_iff, b2, b7, b8, true_or, or_true])

theorem frame_afterFlush {m0 : Nat} {s0 : State} (s : State) (hm : 1048574 ||| m0 = m0) (hs : Frame m0 s0 s) :
    Frame m0 s0 (afterFlush s) := by
  unfold afterFlush
  repeat' (with_reducible first | assumption | (exact Frame.sub hm (by decide)) | apply frame_coldClear | split | dsimp only | simp only [Frame.upd_iff, true_or, or_true])

theorem frame_endFlush {m0 : Nat} {s0 : State} (s : State) (hm : 1048574 ||| m0 = m0) (hs : Frame m0 s0 s) :
    Frame m0 s0 (endFlush s) := by
  have b2 := Frame.bit hm (k := 2) (by decide)
  unfold endFlush
  repeat' (with_reducible first | assumption | (exact Frame.sub hm (by decide)) | apply frame_afterFlush | apply frame_flushMedia | apply frame_sleepStacks | split | dsimp only | simp only [Frame.upd_iff, b2, true_or, or_true])

theorem frame_powerFail {m0 : Nat} {s0 : State} (s : State) (hm : 1048574 ||| m0 = m0) (hs : Frame m0 s0 s) :
    Frame m0 s0 (powerFail s) := by
  unfold powerFail
  repeat' (with_reducible first | assumption | (exact Frame.sub hm (by decide)) | apply frame_endFlush | apply frame_startFlush | split | dsimp only | simp only [Frame.upd_iff, true_or, or_true])

theorem frame_dropChainSessions {m0 : Nat} {s0 : State} (s : State) (hm : 12544 ||| m0 = m0) (hs : Frame m0 s0 s) :
    Frame m0 s0 (dropChainSessions s) := by
  have b8 := Frame.bit hm (k := 8) (by decide)
  have b12 := Frame.bit hm (k := 12) (by decide)
  have b13 := Frame.bit hm (k := 13) (by decide)
  unfold dropChainSessions
  repeat' (with_reducible first | assumption | (exact Frame.sub hm (by decide)) | split | dsimp only | simp only [Frame.upd_iff, b8, b12, b13, true_or, or_true])

theorem frame_enterWarm {m0 : Nat} {s0 : State} (cause : Nat) (c : Nat) (s : State) (hm : 604670 ||| m0 = m0) (hs : Frame m0 s0 s) :
    Frame m0 s0 (enterWarm cause c s) := by
  have b1 := Frame.bit hm (k := 1) (by decide)
  have b2 := Frame.bit hm (k := 2) (by decide)
  have b5 := Frame.bit hm (k := 5) (by decide)
  have b8 := Frame.bit hm (k := 8) (by decide)
  have b19 := Frame.bit hm (k := 19) (by decide)
  unfold enterWarm
  repeat' (with_reducible first | assumption | (exact Frame.sub hm (by decide)) | apply frame_bump | apply frame_dirSet | apply frame_dropChainSessions | apply frame_dropParts | apply frame_endAdmitted | split | dsimp only | simp only [Frame.upd_iff, b1, b2, b5, b8, b19, true_or, or_true])

theorem frame_askWarm {m0 : Nat} {s0 : State} (cause : Nat) (c : Nat) (s : State) (hm : 604670 ||| m0 = m0) (hs : Frame m0 s0 s) :
    Frame m0 s0 (askWarm cause c s) := by
  unfold askWarm
  repeat' (with_reducible first | assumption | (exact Frame.sub hm (by decide)) | apply frame_bump | apply frame_enterWarm | split | dsimp only | simp only [Frame.upd_iff, true_or, or_true])

theorem frame_warmLose {m0 : Nat} {s0 : State} (s : State) (hm : 644088 ||| m0 = m0) (hs : Frame m0 s0 s) :
    Frame m0 s0 (warmLose s) := by
  have b3 := Frame.bit hm (k := 3) (by decide)
  have b7 := Frame.bit hm (k := 7) (by decide)
  have b8 := Frame.bit hm (k := 8) (by decide)
  have b9 := Frame.bit hm (k := 9) (by decide)
  have b14 := Frame.bit hm (k := 14) (by decide)
  have b15 := Frame.bit hm (k := 15) (by decide)
  have b16 := Frame.bit hm (k := 16) (by decide)
  have b19 := Frame.bit hm (k := 19) (by decide)
  unfold warmLose
  repeat' (with_reducible first | assumption | (exact Frame.sub hm (by decide)) | apply frame_sessCount | apply frame_stopDies | split | dsimp only | simp only [Frame.upd_iff, b3, b7, b8, b9, b14, b15, b16, b19, true_or, or_true])

theorem frame_startTenants {m0 : Nat} {s0 : State} (s : State) (hm : 512 ||| m0 = m0) (hs : Frame m0 s0 s) :
    Frame m0 s0 (startTenants s) := by
  unfold startTenants
  repeat' (with_reducible first | assumption | (exact Frame.sub hm (by decide)) | apply frame_foldS | apply frame_onTenant | apply frame_refillPolicer | (intro _) | refine Frame.ite ?_ ?_ | split | dsimp only | simp only [Frame.upd_iff, true_or, or_true])

theorem frame_partitionLoad {m0 : Nat} {s0 : State} (s : State) (hm : 905216 ||| m0 = m0) (hs : Frame m0 s0 s) :
    Frame m0 s0 (partitionLoad s) := by
  have b14 := Frame.bit hm (k := 14) (by decide)
  have b15 := Frame.bit hm (k := 15) (by decide)
  have b16 := Frame.bit hm (k := 16) (by decide)
  have b19 := Frame.bit hm (k := 19) (by decide)
  unfold partitionLoad
  repeat' (with_reducible first | assumption | (exact Frame.sub hm (by decide)) | apply frame_loadMaps | split | dsimp only | simp only [Frame.upd_iff, b14, b15, b16, b19, true_or, or_true])

theorem frame_warmUp {m0 : Nat} {s0 : State} (s : State) (hm : 1036820 ||| m0 = m0) (hs : Frame m0 s0 s) :
    Frame m0 s0 (warmUp s) := by
  have b2 := Frame.bit hm (k := 2) (by decide)
  have b4 := Frame.bit hm (k := 4) (by decide)
  have b14 := Frame.bit hm (k := 14) (by decide)
  have b19 := Frame.bit hm (k := 19) (by decide)
  unfold warmUp
  repeat' (with_reducible first | assumption | (exact Frame.sub hm (by decide)) | apply frame_onFlash | apply frame_partitionLoad | apply frame_showClock | apply frame_startTenants | apply frame_startTraining | apply frame_whenS | (intro _) | refine Frame.ite ?_ ?_ | split | dsimp only | simp only [Frame.upd_iff, b2, b4, b14, b19, true_or, or_true])

theorem frame_holdPoint {m0 : Nat} {s0 : State} (s : State) (hm : 1039356 ||| m0 = m0) (hs : Frame m0 s0 s) :
    Frame m0 s0 (holdPoint s) := by
  have b2 := Frame.bit hm (k := 2) (by decide)
  unfold holdPoint
  repeat' (with_reducible first | assumption | (exact Frame.sub hm (by decide)) | apply frame_fabricOff | apply frame_portsOff | apply frame_programBuffer | apply frame_sleepStacks | apply frame_warmLose | apply frame_warmUp | apply frame_whenS | (intro _) | refine Frame.ite ?_ ?_ | split | dsimp only | simp only [Frame.upd_iff, b2, true_or, or_true])

theorem frame_restoreDefs {m0 : Nat} {s0 : State} (s : State) (hm : 36864 ||| m0 = m0) (hs : Frame m0 s0 s) :
    Frame m0 s0 (restoreDefs s) := by
  have b12 := Frame.bit hm (k := 12) (by decide)
  have b15 := Frame.bit hm (k := 15) (by decide)
  unfold restoreDefs
  repeat' (with_reducible first | assumption | (exact Frame.sub hm (by decide)) | apply frame_dirSet | apply frame_saveRecord | split | dsimp only | simp only [Frame.upd_iff, b12, b15, true_or, or_true])

theorem frame_takeIdentity {m0 : Nat} {s0 : State} (inp : BootInputs) (p : Nat × Nat × Nat) (s : State) (hm : 266240 ||| m0 = m0) (hs : Frame m0 s0 s) :
    Frame m0 s0 (takeIdentity inp p s) := by
  have b18 := Frame.bit hm (k := 18) (by decide)
  unfold takeIdentity
  repeat' (with_reducible first | assumption | (exact Frame.sub hm (by decide)) | apply frame_dirPut | apply frame_dirSet | split | dsimp only | simp only [Frame.upd_iff, b18, true_or, or_true])

theorem frame_startImage {m0 : Nat} {s0 : State} (inp : BootInputs) (b : Bool) (fell : Bool) (s : State) (hm : 266240 ||| m0 = m0) (hs : Frame m0 s0 s) :
    Frame m0 s0 (startImage inp b fell s) := by
  have b18 := Frame.bit hm (k := 18) (by decide)
  unfold startImage
  repeat' (with_reducible first | assumption | (exact Frame.sub hm (by decide)) | apply frame_dirPut | apply frame_dirSet | apply frame_extendM | apply frame_whenS | (intro _) | refine Frame.ite ?_ ?_ | split | dsimp only | simp only [Frame.upd_iff, b18, true_or, or_true])

theorem frame_loadKeys {m0 : Nat} {s0 : State} (s : State) (hm : 266240 ||| m0 = m0) (hs : Frame m0 s0 s) :
    Frame m0 s0 (loadKeys s) := by
  have b18 := Frame.bit hm (k := 18) (by decide)
  unfold loadKeys
  repeat' (with_reducible first | assumption | (exact Frame.sub hm (by decide)) | apply frame_dirSet | apply frame_foldS | (intro _) | refine Frame.ite ?_ ?_ | split | dsimp only | simp only [Frame.upd_iff, b18, true_or, or_true])

theorem frame_loadSegs {m0 : Nat} {s0 : State} (s : State) (hm : 8 ||| m0 = m0) (hs : Frame m0 s0 s) :
    Frame m0 s0 (loadSegs s) := by
  have b3 := Frame.bit hm (k := 3) (by decide)
  unfold loadSegs
  repeat' (with_reducible first | assumption | (exact Frame.sub hm (by decide)) | split | dsimp only | simp only [Frame.upd_iff, b3, true_or, or_true])

theorem frame_takeSettings {m0 : Nat} {s0 : State} (s : State) (hm : 594584 ||| m0 = m0) (hs : Frame m0 s0 s) :
    Frame m0 s0 (takeSettings s) := by
  have b3 := Frame.bit hm (k := 3) (by decide)
  have b4 := Frame.bit hm (k := 4) (by decide)
  have b7 := Frame.bit hm (k := 7) (by decide)
  have b12 := Frame.bit hm (k := 12) (by decide)
  have b16 := Frame.bit hm (k := 16) (by decide)
  unfold takeSettings
  repeat' (with_reducible first | assumption | (exact Frame.sub hm (by decide)) | apply frame_loadSegs | apply frame_startTenants | apply frame_takeArrangement | split | dsimp only | simp only [Frame.upd_iff, b3, b4, b7, b12, b16, true_or, or_true])

theorem frame_takeBins {m0 : Nat} {s0 : State} (s : State) (hm : 4096 ||| m0 = m0) (hs : Frame m0 s0 s) :
    Frame m0 s0 (takeBins s) := by
  unfold takeBins
  repeat' (with_reducible first | assumption | (exact Frame.sub hm (by decide)) | apply frame_dirPut | split | dsimp only | simp only [Frame.upd_iff, true_or, or_true])

theorem frame_zeroStacks {m0 : Nat} {s0 : State} (s : State) (hm : 8 ||| m0 = m0) (hs : Frame m0 s0 s) :
    Frame m0 s0 (zeroStacks s) := by
  have b3 := Frame.bit hm (k := 3) (by decide)
  unfold zeroStacks
  repeat' (with_reducible first | assumption | (exact Frame.sub hm (by decide)) | split | dsimp only | simp only [Frame.upd_iff, b3, true_or, or_true])

theorem frame_startLogs {m0 : Nat} {s0 : State} (s : State) (hm : 530432 ||| m0 = m0) (hs : Frame m0 s0 s) :
    Frame m0 s0 (startLogs s) := by
  have b19 := Frame.bit hm (k := 19) (by decide)
  unfold startLogs
  repeat' (with_reducible first | assumption | (exact Frame.sub hm (by decide)) | apply frame_bump | apply frame_foldS | apply frame_mirrorDie | apply frame_onDieLog | apply frame_resumeDie | (intro _) | refine Frame.ite ?_ ?_ | split | dsimp only | simp only [Frame.upd_iff, b19, true_or, or_true])

theorem frame_showRefs {m0 : Nat} {s0 : State} (s : State) (hm : 4096 ||| m0 = m0) (hs : Frame m0 s0 s) :
    Frame m0 s0 (showRefs s) := by
  unfold showRefs
  repeat' (with_reducible first | assumption | (exact Frame.sub hm (by decide)) | apply frame_dirSet | split | dsimp only | simp only [Frame.upd_iff, true_or, or_true])

theorem frame_bootOn {m0 : Nat} {s0 : State} (inp : BootInputs) (b : Bool) (fell : Bool) (s : State) (hm : 917180 ||| m0 = m0) (hs : Frame m0 s0 s) :
    Frame m0 s0 (bootOn inp b fell s) := by
  have b2 := Frame.bit hm (k := 2) (by decide)
  have b10 := Frame.bit hm (k := 10) (by decide)
  have b11 := Frame.bit hm (k := 11) (by decide)
  have b19 := Frame.bit hm (k := 19) (by decide)
  unfold bootOn
  repeat' (with_reducible first | assumption | (exact Frame.sub hm (by decide)) | apply frame_bankOut | apply frame_foldS | apply frame_loadKeys | apply frame_partitionLoad | apply frame_refreshResources | apply frame_showClock | apply frame_showRefs | apply frame_showReserve | apply frame_stackOut | apply frame_startImage | apply frame_startLogs | apply frame_startTraining | apply frame_takeBins | apply frame_takeSettings | apply frame_zeroStacks | (intro _) | refine Frame.ite ?_ ?_ | split | dsimp only | simp only [Frame.upd_iff, b2, b10, b11, b19, true_or, or_true])

theorem frame_bootNow {m0 : Nat} {s0 : State} (inp : BootInputs) (s : State) (hm : 917180 ||| m0 = m0) (hs : Frame m0 s0 s) :
    Frame m0 s0 (bootNow inp s) := by
  have b2 := Frame.bit hm (k := 2) (by decide)
  have b19 := Frame.bit hm (k := 19) (by decide)
  unfold bootNow
  repeat' (with_reducible first | assumption | (exact Frame.sub hm (by decide)) | apply frame_bootOn | apply frame_bump | apply frame_dirSet | apply frame_restoreDefs | apply frame_takeIdentity | apply frame_whenS | (intro _) | refine Frame.ite ?_ ?_ | split | dsimp only | simp only [Frame.upd_iff, b2, b19, true_or, or_true])

theorem frame_coldStart {m0 : Nat} {s0 : State} (inp : BootInputs) (s : State) (hm : 917180 ||| m0 = m0) (hs : Frame m0 s0 s) :
    Frame m0 s0 (coldStart inp s) := by
  have b2 := Frame.bit hm (k := 2) (by decide)
  have b19 := Frame.bit hm (k := 19) (by decide)
  unfold coldStart
  repeat' (with_reducible first | assumption | (exact Frame.sub hm (by decide)) | apply frame_bootNow | apply frame_bump | split | dsimp only | simp only [Frame.upd_iff, b2, b19, true_or, or_true])

theorem frame_sendStart {m0 : Nat} {s0 : State} (t : Nat) (path : Nat) (s : State) (hm : 20480 ||| m0 = m0) (hs : Frame m0 s0 s) :
    Frame m0 s0 (sendStart t path s) := by
  unfold sendStart
  repeat' (with_reducible first | assumption | (exact Frame.sub hm (by decide)) | apply frame_beSend | apply frame_foldS | (intro _) | refine Frame.ite ?_ ?_ | split | dsimp only | simp only [Frame.upd_iff, true_or, or_true])

theorem frame_sendReady {m0 : Nat} {s0 : State} (s : State) (hm : 20480 ||| m0 = m0) (hs : Frame m0 s0 s) :
    Frame m0 s0 (sendReady s) := by
  unfold sendReady
  repeat' (with_reducible first | assumption | (exact Frame.sub hm (by decide)) | apply frame_beSend | apply frame_optS | (intro _) | refine Frame.ite ?_ ?_ | split | dsimp only | simp only [Frame.upd_iff, true_or, or_true])

theorem frame_tryReady {m0 : Nat} {s0 : State} (s : State) (hm : 20480 ||| m0 = m0) (hs : Frame m0 s0 s) :
    Frame m0 s0 (tryReady s) := by
  have b14 := Frame.bit hm (k := 14) (by decide)
  unfold tryReady
  repeat' (with_reducible first | assumption | (exact Frame.sub hm (by decide)) | apply frame_sendReady | apply frame_sendStart | split | dsimp only | simp only [Frame.upd_iff, b14, true_or, or_true])

theorem frame_becomeReady {m0 : Nat} {s0 : State} (s : State) (hm : 20484 ||| m0 = m0) (hs : Frame m0 s0 s) :
    Frame m0 s0 (becomeReady s) := by
  have b2 := Frame.bit hm (k := 2) (by decide)
  have b14 := Frame.bit hm (k := 14) (by decide)
  unfold becomeReady
  repeat' (with_reducible first | assumption | (exact Frame.sub hm (by decide)) | apply frame_dirSet | apply frame_tryReady | split | dsimp only | simp only [Frame.upd_iff, b2, b14, true_or, or_true])

theorem frame_startPost {m0 : Nat} {s0 : State} (at_ : Nat) (s : State) (hm : 544774 ||| m0 = m0) (hs : Frame m0 s0 s) :
    Frame m0 s0 (startPost at_ s) := by
  have b1 := Frame.bit hm (k := 1) (by decide)
  have b2 := Frame.bit hm (k := 2) (by decide)
  have b14 := Frame.bit hm (k := 14) (by decide)
  have b19 := Frame.bit hm (k := 19) (by decide)
  unfold startPost
  repeat' (with_reducible first | assumption | (exact Frame.sub hm (by decide)) | apply frame_dirPut | apply frame_dirSet | apply frame_engageDetours | apply frame_foldS | apply frame_trackParent | (intro _) | refine Frame.ite ?_ ?_ | split | dsimp only | simp only [Frame.upd_iff, b1, b2, b14, b19, true_or, or_true])

theorem frame_rejoinAt {m0 : Nat} {s0 : State} (frame : Nat) (s : State) (hm : 544774 ||| m0 = m0) (hs : Frame m0 s0 s) :
    Frame m0 s0 (rejoinAt frame s) := by
  have b1 := Frame.bit hm (k := 1) (by decide)
  have b2 := Frame.bit hm (k := 2) (by decide)
  have b19 := Frame.bit hm (k := 19) (by decide)
  unfold rejoinAt
  repeat' (with_reducible first | assumption | (exact Frame.sub hm (by decide)) | apply frame_foldS | apply frame_onLink | apply frame_trackParent | (intro _) | refine Frame.ite ?_ ?_ | split | dsimp only | simp only [Frame.upd_iff, b1, b2, b19, true_or, or_true])

theorem frame_dropAbsent {m0 : Nat} {s0 : State} (s : State) (hm : 53248 ||| m0 = m0) (hs : Frame m0 s0 s) :
    Frame m0 s0 (dropAbsent s) := by
  have b15 := Frame.bit hm (k := 15) (by decide)
  unfold dropAbsent
  repeat' (with_reducible first | assumption | (exact Frame.sub hm (by decide)) | apply frame_foldS | apply frame_onLink | apply frame_setLinkState | (intro _) | refine Frame.ite ?_ ?_ | split | dsimp only | simp only [Frame.upd_iff, b15, true_or, or_true])

end Sys2Proof.Machine
end

