-- ==== Sys2Proof/Laws/FrameBoot.lean ====
section
/-! SUPPORT. FrameBoot: each operation of Machine/Boot.lean changes only the fields of `State`
that its mask names (`Frame`). -/
namespace Sys2Proof.Machine
set_option Elab.async false
set_option linter.all false

theorem frame_execPwrfailN {m0 : Nat} {s0 : State} (ns : Nat) (s : State) (hm : 2097150 ||| m0 = m0) (hs : Frame m0 s0 s) :
    ∀ z, (execPwrfailN ns s) = .next z → Frame m0 s0 z := by
  intro z e
  unfold execPwrfailN at e
  try dsimp only at e
  first | (split at e <;> first | (injection e with e; subst e)) | (injection e with e; subst e) | skip
  repeat' (with_reducible first | assumption | (exact Frame.sub hm (by decide)) | apply frame_bump | apply frame_draw | apply frame_powerFail | split | dsimp only | simp only [Frame.upd_iff, true_or, or_true])

theorem frame_execFlushDone {m0 : Nat} {s0 : State} (s : State) (hm : 1048574 ||| m0 = m0) (hs : Frame m0 s0 s) :
    ∀ z, (execFlushDone s) = .next z → Frame m0 s0 z := by
  have b2 := Frame.bit hm (k := 2) (by decide)
  have b19 := Frame.bit hm (k := 19) (by decide)
  intro z e
  unfold execFlushDone at e
  try dsimp only at e
  first | (split at e <;> first | (injection e with e; subst e)) | (injection e with e; subst e) | skip
  repeat' (with_reducible first | assumption | (exact Frame.sub hm (by decide)) | apply frame_afterFlush | apply frame_endFlush | apply frame_flushMedia | split | dsimp only | simp only [Frame.upd_iff, b2, b19, true_or, or_true])

theorem frame_coldRequest {m0 : Nat} {s0 : State} (s : State) (hm : 1048574 ||| m0 = m0) (hs : Frame m0 s0 s) :
    Frame m0 s0 (coldRequest s) := by
  have b19 := Frame.bit hm (k := 19) (by decide)
  unfold coldRequest
  repeat' (with_reducible first | assumption | (exact Frame.sub hm (by decide)) | apply frame_coldClear | apply frame_startFlush | split | dsimp only | simp only [Frame.upd_iff, b19, true_or, or_true])

theorem frame_execPorstN {m0 : Nat} {s0 : State} (at_ : Nat) (low : Nat) (s : State) (hm : 1048574 ||| m0 = m0) (hs : Frame m0 s0 s) :
    ∀ z, (execPorstN at_ low s) = .next z → Frame m0 s0 z := by
  intro z e
  unfold execPorstN at e
  try dsimp only at e
  first | (split at e <;> first | (injection e with e; subst e)) | (injection e with e; subst e) | skip
  repeat' (with_reducible first | assumption | (exact Frame.sub hm (by decide)) | apply frame_atPin | apply frame_bump | apply frame_coldRequest | split | dsimp only | simp only [Frame.upd_iff, true_or, or_true])

theorem frame_execColdBoot {m0 : Nat} {s0 : State} (inp : BootInputs) (s : State) (hm : 917180 ||| m0 = m0) (hs : Frame m0 s0 s) :
    ∀ z, (execColdBoot inp s) = .next z → Frame m0 s0 z := by
  intro z e
  unfold execColdBoot at e
  try dsimp only at e
  first | (split at e <;> first | (injection e with e; subst e)) | (injection e with e; subst e) | skip
  repeat' (with_reducible first | assumption | (exact Frame.sub hm (by decide)) | apply frame_coldStart | split | dsimp only | simp only [Frame.upd_iff, true_or, or_true])

theorem frame_execRailsInTolerance {m0 : Nat} {s0 : State} (s : State) (hm : 917180 ||| m0 = m0) (hs : Frame m0 s0 s) :
    ∀ z, (execRailsInTolerance s) = .next z → Frame m0 s0 z := by
  intro z e
  unfold execRailsInTolerance at e
  try dsimp only at e
  first | (split at e <;> first | (injection e with e; subst e)) | (injection e with e; subst e) | skip
  repeat' (with_reducible first | assumption | (exact Frame.sub hm (by decide)) | apply frame_bootNow | split | dsimp only | simp only [Frame.upd_iff, true_or, or_true])

theorem frame_execWrstN {m0 : Nat} {s0 : State} (at_ : Nat) (low : Nat) (s : State) (hm : 604670 ||| m0 = m0) (hs : Frame m0 s0 s) :
    ∀ z, (execWrstN at_ low s) = .next z → Frame m0 s0 z := by
  have b19 := Frame.bit hm (k := 19) (by decide)
  intro z e
  unfold execWrstN at e
  try dsimp only at e
  first | (split at e <;> first | (injection e with e; subst e)) | (injection e with e; subst e) | skip
  repeat' (with_reducible first | assumption | (exact Frame.sub hm (by decide)) | apply frame_askWarm | apply frame_atPin | apply frame_bump | split | dsimp only | simp only [Frame.upd_iff, b19, true_or, or_true])

theorem frame_execHoldPoint {m0 : Nat} {s0 : State} (s : State) (hm : 1039356 ||| m0 = m0) (hs : Frame m0 s0 s) :
    ∀ z, (execHoldPoint s) = .next z → Frame m0 s0 z := by
  intro z e
  unfold execHoldPoint at e
  try dsimp only at e
  first | (split at e <;> first | (injection e with e; subst e)) | (injection e with e; subst e) | skip
  repeat' (with_reducible first | assumption | (exact Frame.sub hm (by decide)) | apply frame_holdPoint | split | dsimp only | simp only [Frame.upd_iff, true_or, or_true])

theorem frame_execWrstNRelease {m0 : Nat} {s0 : State} (s : State) (hm : 1036820 ||| m0 = m0) (hs : Frame m0 s0 s) :
    ∀ z, (execWrstNRelease s) = .next z → Frame m0 s0 z := by
  have b19 := Frame.bit hm (k := 19) (by decide)
  intro z e
  unfold execWrstNRelease at e
  try dsimp only at e
  first | (split at e <;> first | (injection e with e; subst e)) | (injection e with e; subst e) | skip
  repeat' (with_reducible first | assumption | (exact Frame.sub hm (by decide)) | apply frame_warmUp | split | dsimp only | simp only [Frame.upd_iff, b19, true_or, or_true])

theorem frame_execVaonCollapse {m0 : Nat} {s0 : State} (s : State) (hm : 1048574 ||| m0 = m0) (hs : Frame m0 s0 s) :
    ∀ z, (execVaonCollapse s) = .next z → Frame m0 s0 z := by
  intro z e
  unfold execVaonCollapse at e
  try dsimp only at e
  first | (split at e <;> first | (injection e with e; subst e)) | (injection e with e; subst e) | skip
  repeat' (with_reducible first | assumption | (exact Frame.sub hm (by decide)) | apply frame_powerLost | split | dsimp only | simp only [Frame.upd_iff, true_or, or_true])

theorem frame_execNodeReady {m0 : Nat} {s0 : State} (s : State) (hm : 905220 ||| m0 = m0) (hs : Frame m0 s0 s) :
    ∀ z, (execNodeReady s) = .next z → Frame m0 s0 z := by
  intro z e
  unfold execNodeReady at e
  try dsimp only at e
  first | (split at e <;> first | (injection e with e; subst e)) | (injection e with e; subst e) | skip
  repeat' (with_reducible first | assumption | (exact Frame.sub hm (by decide)) | apply frame_becomeReady | apply frame_partitionLoad | apply frame_startTraining | split | dsimp only | simp only [Frame.upd_iff, true_or, or_true])

theorem frame_execReadyMessage {m0 : Nat} {s0 : State} (child : Nat) (s : State) (hm : 20480 ||| m0 = m0) (hs : Frame m0 s0 s) :
    ∀ z, (execReadyMessage child s) = .next z → Frame m0 s0 z := by
  have b14 := Frame.bit hm (k := 14) (by decide)
  intro z e
  unfold execReadyMessage at e
  try dsimp only at e
  first | (split at e <;> first | (injection e with e; subst e)) | (injection e with e; subst e) | skip
  repeat' (with_reducible first | assumption | (exact Frame.sub hm (by decide)) | apply frame_tryReady | split | dsimp only | simp only [Frame.upd_iff, b14, true_or, or_true])

theorem frame_takeStart {m0 : Nat} {s0 : State} (m : FabMsg) (s : State) (hm : 20480 ||| m0 = m0) (hs : Frame m0 s0 s) :
    Frame m0 s0 (takeStart m s) := by
  have b14 := Frame.bit hm (k := 14) (by decide)
  unfold takeStart
  repeat' (with_reducible first | assumption | (exact Frame.sub hm (by decide)) | apply frame_sendStart | split | dsimp only | simp only [Frame.upd_iff, b14, true_or, or_true])

theorem frame_execStart {m0 : Nat} {s0 : State} (m : FabMsg) (s : State) (hm : 31744 ||| m0 = m0) (hs : Frame m0 s0 s) :
    ∀ z, (execStart m s) = .next z → Frame m0 s0 z := by
  have b14 := Frame.bit hm (k := 14) (by decide)
  intro z e
  unfold execStart at e
  try dsimp only at e
  first | (split at e <;> first | (injection e with e; subst e)) | (injection e with e; subst e) | skip
  repeat' (with_reducible first | assumption | (exact Frame.sub hm (by decide)) | apply frame_onBest | apply frame_takeStart | apply frame_tryReady | (intro _) | refine Frame.ite ?_ ?_ | split | dsimp only | simp only [Frame.upd_iff, b14, true_or, or_true])

theorem frame_execReadyDeadline {m0 : Nat} {s0 : State} (s : State) (hm : 53248 ||| m0 = m0) (hs : Frame m0 s0 s) :
    ∀ z, (execReadyDeadline s) = .next z → Frame m0 s0 z := by
  intro z e
  unfold execReadyDeadline at e
  try dsimp only at e
  first | (split at e <;> first | (injection e with e; subst e)) | (injection e with e; subst e) | skip
  repeat' (with_reducible first | assumption | (exact Frame.sub hm (by decide)) | apply frame_dropAbsent | apply frame_tryReady | split | dsimp only | simp only [Frame.upd_iff, true_or, or_true])

theorem frame_execStartPost {m0 : Nat} {s0 : State} (s : State) (hm : 544774 ||| m0 = m0) (hs : Frame m0 s0 s) :
    ∀ z, (execStartPost s) = .next z → Frame m0 s0 z := by
  intro z e
  unfold execStartPost at e
  try dsimp only at e
  first | (split at e <;> first | (injection e with e; subst e)) | (injection e with e; subst e) | skip
  repeat' (with_reducible first | assumption | (exact Frame.sub hm (by decide)) | apply frame_startPost | split | dsimp only | simp only [Frame.upd_iff, true_or, or_true])

theorem frame_execRejoin {m0 : Nat} {s0 : State} (frame : Nat) (s : State) (hm : 544774 ||| m0 = m0) (hs : Frame m0 s0 s) :
    ∀ z, (execRejoin frame s) = .next z → Frame m0 s0 z := by
  intro z e
  unfold execRejoin at e
  try dsimp only at e
  first | (split at e <;> first | (injection e with e; subst e)) | (injection e with e; subst e) | skip
  repeat' (with_reducible first | assumption | (exact Frame.sub hm (by decide)) | apply frame_rejoinAt | split | dsimp only | simp only [Frame.upd_iff, true_or, or_true])

theorem frame_execHoldover {m0 : Nat} {s0 : State} (s : State) (hm : 622076 ||| m0 = m0) (hs : Frame m0 s0 s) :
    ∀ z, (execHoldover s) = .next z → Frame m0 s0 z := by
  intro z e
  unfold execHoldover at e
  try dsimp only at e
  first | (split at e <;> first | (injection e with e; subst e)) | (injection e with e; subst e) | skip
  repeat' (with_reducible first | assumption | (exact Frame.sub hm (by decide)) | apply frame_haltNode | split | dsimp only | simp only [Frame.upd_iff, true_or, or_true])

theorem frame_logDroop {m0 : Nat} {s0 : State} (rail : Nat) (mv : Nat) (s : State) (hm : 2048 ||| m0 = m0) (hs : Frame m0 s0 s) :
    Frame m0 s0 (logDroop rail mv s) := by
  unfold logDroop
  repeat' (with_reducible first | assumption | (exact Frame.sub hm (by decide)) | apply frame_onDieLog | split | dsimp only | simp only [Frame.upd_iff, true_or, or_true])

theorem frame_stopClocks {m0 : Nat} {s0 : State} (s : State) (hm : 86388 ||| m0 = m0) (hs : Frame m0 s0 s) :
    Frame m0 s0 (stopClocks s) := by
  have b2 := Frame.bit hm (k := 2) (by decide)
  have b8 := Frame.bit hm (k := 8) (by decide)
  unfold stopClocks
  repeat' (with_reducible first | assumption | (exact Frame.sub hm (by decide)) | apply frame_dropParts | apply frame_fabricOff | apply frame_portsOff | apply frame_stopDies | split | dsimp only | simp only [Frame.upd_iff, b2, b8, true_or, or_true])

theorem frame_execRailFault {m0 : Nat} {s0 : State} (rail : Nat) (ns : Nat) (s : State) (hm : 1048574 ||| m0 = m0) (hs : Frame m0 s0 s) :
    ∀ z, (execRailFault rail ns s) = .next z → Frame m0 s0 z := by
  intro z e
  unfold execRailFault at e
  try dsimp only at e
  first | (split at e <;> first | (injection e with e; subst e)) | (injection e with e; subst e) | skip
  repeat' (with_reducible first | assumption | (exact Frame.sub hm (by decide)) | apply frame_bump | apply frame_powerFail | apply frame_stopClocks | apply frame_writeSticky | split | dsimp only | simp only [Frame.upd_iff, true_or, or_true])

theorem frame_execDroop {m0 : Nat} {s0 : State} (rail : Nat) (mv : Nat) (ns : Nat) (s : State) (hm : 2048 ||| m0 = m0) (hs : Frame m0 s0 s) :
    ∀ z, (execDroop rail mv ns s) = .next z → Frame m0 s0 z := by
  intro z e
  unfold execDroop at e
  try dsimp only at e
  first | (split at e <;> first | (injection e with e; subst e)) | (injection e with e; subst e) | skip
  repeat' (with_reducible first | assumption | (exact Frame.sub hm (by decide)) | apply frame_logDroop | split | dsimp only | simp only [Frame.upd_iff, true_or, or_true])

theorem frame_execThermalHalt {m0 : Nat} {s0 : State} (die : Nat) (temp : Int) (s : State) (hm : 622076 ||| m0 = m0) (hs : Frame m0 s0 s) :
    ∀ z, (execThermalHalt die temp s) = .next z → Frame m0 s0 z := by
  intro z e
  unfold execThermalHalt at e
  try dsimp only at e
  first | (split at e <;> first | (injection e with e; subst e)) | (injection e with e; subst e) | skip
  repeat' (with_reducible first | assumption | (exact Frame.sub hm (by decide)) | apply frame_bump | apply frame_haltNode | split | dsimp only | simp only [Frame.upd_iff, true_or, or_true])

theorem frame_execThermtrip {m0 : Nat} {s0 : State} (die : Nat) (temp : Int) (s : State) (hm : 524288 ||| m0 = m0) (hs : Frame m0 s0 s) :
    ∀ z, (execThermtrip die temp s) = .next z → Frame m0 s0 z := by
  have b19 := Frame.bit hm (k := 19) (by decide)
  intro z e
  unfold execThermtrip at e
  try dsimp only at e
  first | (split at e <;> first | (injection e with e; subst e)) | (injection e with e; subst e) | skip
  repeat' (with_reducible first | assumption | (exact Frame.sub hm (by decide)) | split | dsimp only | simp only [Frame.upd_iff, b19, true_or, or_true])

theorem frame_lostRef25 {m0 : Nat} {s0 : State} (s : State) (hm : 622076 ||| m0 = m0) (hs : Frame m0 s0 s) :
    Frame m0 s0 (lostRef25 s) := by
  have b19 := Frame.bit hm (k := 19) (by decide)
  unfold lostRef25
  repeat' (with_reducible first | assumption | (exact Frame.sub hm (by decide)) | apply frame_dirSet | apply frame_haltNode | apply frame_record | split | dsimp only | simp only [Frame.upd_iff, b19, true_or, or_true])

theorem frame_lostFabRef {m0 : Nat} {s0 : State} (s : State) (hm : 64512 ||| m0 = m0) (hs : Frame m0 s0 s) :
    Frame m0 s0 (lostFabRef s) := by
  unfold lostFabRef
  repeat' (with_reducible first | assumption | (exact Frame.sub hm (by decide)) | apply frame_foldS | apply frame_linkFalls | (intro _) | refine Frame.ite ?_ ?_ | split | dsimp only | simp only [Frame.upd_iff, true_or, or_true])

theorem frame_execReferenceLoss {m0 : Nat} {s0 : State} (which : Nat) (s : State) (hm : 654844 ||| m0 = m0) (hs : Frame m0 s0 s) :
    ∀ z, (execReferenceLoss which s) = .next z → Frame m0 s0 z := by
  have b19 := Frame.bit hm (k := 19) (by decide)
  intro z e
  unfold execReferenceLoss at e
  try dsimp only at e
  first | (split at e <;> first | (injection e with e; subst e)) | (injection e with e; subst e) | skip
  repeat' (with_reducible first | assumption | (exact Frame.sub hm (by decide)) | apply frame_bump | apply frame_lostFabRef | apply frame_lostRef25 | apply frame_portsOff | apply frame_showRefs | split | dsimp only | simp only [Frame.upd_iff, b19, true_or, or_true])

theorem frame_execReferenceReturn {m0 : Nat} {s0 : State} (which : Nat) (s : State) (hm : 528384 ||| m0 = m0) (hs : Frame m0 s0 s) :
    ∀ z, (execReferenceReturn which s) = .next z → Frame m0 s0 z := by
  have b19 := Frame.bit hm (k := 19) (by decide)
  intro z e
  unfold execReferenceReturn at e
  try dsimp only at e
  first | (split at e <;> first | (injection e with e; subst e)) | (injection e with e; subst e) | skip
  repeat' (with_reducible first | assumption | (exact Frame.sub hm (by decide)) | apply frame_showRefs | split | dsimp only | simp only [Frame.upd_iff, b19, true_or, or_true])

end Sys2Proof.Machine
end

