-- ==== Sys2Proof/Laws/FrameDirOps.lean ====
section
/-! SUPPORT. FrameDirOps: each operation of Machine/DirOps.lean changes only the fields of `State`
that its mask names (`Frame`). -/
namespace Sys2Proof.Machine
set_option Elab.async false
set_option linter.all false

theorem frame_onXslot {m0 : Nat} {s0 : State} (n : Nat) (f : XSlot → XSlot) (s : State) (hm : 4096 ||| m0 = m0) (hs : Frame m0 s0 s) :
    Frame m0 s0 (onXslot n f s) := by
  have b12 := Frame.bit hm (k := 12) (by decide)
  unfold onXslot
  repeat' (with_reducible first | assumption | (exact Frame.sub hm (by decide)) | split | dsimp only | simp only [Frame.upd_iff, b12, true_or, or_true])

theorem frame_afterRead {m0 : Nat} {s0 : State} (a : Actor) (obj : Nat) (s : State) (hm : 1052672 ||| m0 = m0) (hs : Frame m0 s0 s) :
    Frame m0 s0 (afterRead a obj s) := by
  unfold afterRead
  repeat' (with_reducible first | assumption | (exact Frame.sub hm (by decide)) | apply frame_draw | apply frame_onXslot | split | dsimp only | simp only [Frame.upd_iff, true_or, or_true])

end Sys2Proof.Machine
end

