-- ==== Sys2Proof/Laws/FrameRvCsr.lean ====
section
/-! SUPPORT. FrameRvCsr: each operation of Machine/RvCsr.lean changes only the fields of `State`
that its mask names (`Frame`). -/
namespace Sys2Proof.Machine
set_option Elab.async false
set_option linter.all false

theorem frame_doCsrAct {m0 : Nat} {s0 : State} (th : Nat) (rd : Nat) (a : Nat) (v : Nat) (s : State) (hm : 1080824 ||| m0 = m0) (hs : Frame m0 s0 s) :
    Frame m0 s0 (doCsrAct th rd a v s) := by
  unfold doCsrAct
  repeat' (with_reducible first | assumption | (exact Frame.sub hm (by decide)) | apply frame_doErecv | apply frame_doEstop | apply frame_doEstream | apply frame_doEstrel | apply frame_doEstwait | apply frame_doEwait | split | dsimp only | simp only [Frame.upd_iff, true_or, or_true])

theorem frame_doCsr {m0 : Nat} {s0 : State} (th : Nat) (op : Nat) (rd : Nat) (a : Nat) (v : Nat) (write : Bool) (w : W32) (s : State) (hm : 1080824 ||| m0 = m0) (hs : Frame m0 s0 s) :
    Frame m0 s0 (doCsr th op rd a v write w s) := by
  unfold doCsr
  repeat' (with_reducible first | assumption | (exact Frame.sub hm (by decide)) | apply frame_doCsrAct | apply frame_draw | apply frame_illegal | apply frame_onThread | split | dsimp only | simp only [Frame.upd_iff, true_or, or_true])

end Sys2Proof.Machine
end

