-- ==== Sys2Proof/Laws/FrameDir.lean ====
section
/-! SUPPORT. FrameDir: each operation of Machine/Dir.lean changes only the fields of `State`
that its mask names (`Frame`). -/
namespace Sys2Proof.Machine
set_option Elab.async false
set_option linter.all false

theorem frame_removeHead {m0 : Nat} {s0 : State} (s : State) (hm : 1024 ||| m0 = m0) (hs : Frame m0 s0 s) :
    Frame m0 s0 (removeHead s) := by
  have b10 := Frame.bit hm (k := 10) (by decide)
  unfold removeHead
  repeat' (with_reducible first | assumption | (exact Frame.sub hm (by decide)) | apply frame_autoRemove | split | dsimp only | simp only [Frame.upd_iff, b10, true_or, or_true])

theorem frame_putNonce {m0 : Nat} {s0 : State} (a : Actor) (b : Bytes) (s : State) (hm : 8448 ||| m0 = m0) (hs : Frame m0 s0 s) :
    Frame m0 s0 (putNonce a b s) := by
  have b13 := Frame.bit hm (k := 13) (by decide)
  unfold putNonce
  repeat' (with_reducible first | assumption | (exact Frame.sub hm (by decide)) | apply frame_onSess | split | dsimp only | simp only [Frame.upd_iff, b13, true_or, or_true])

theorem frame_putKey {m0 : Nat} {s0 : State} (t : Nat) (b : Bytes) (s : State) (hm : 266240 ||| m0 = m0) (hs : Frame m0 s0 s) :
    Frame m0 s0 (putKey t b s) := by
  have b18 := Frame.bit hm (k := 18) (by decide)
  unfold putKey
  repeat' (with_reducible first | assumption | (exact Frame.sub hm (by decide)) | apply frame_bump | apply frame_dirPut | apply frame_dirSet | split | dsimp only | simp only [Frame.upd_iff, b18, true_or, or_true])

theorem frame_eraseKey {m0 : Nat} {s0 : State} (t : Nat) (s : State) (hm : 266240 ||| m0 = m0) (hs : Frame m0 s0 s) :
    Frame m0 s0 (eraseKey t s) := by
  have b18 := Frame.bit hm (k := 18) (by decide)
  unfold eraseKey
  repeat' (with_reducible first | assumption | (exact Frame.sub hm (by decide)) | apply frame_dirPut | apply frame_dirSet | split | dsimp only | simp only [Frame.upd_iff, b18, true_or, or_true])

theorem frame_enterOpen {m0 : Nat} {s0 : State} (s : State) (hm : 266496 ||| m0 = m0) (hs : Frame m0 s0 s) :
    Frame m0 s0 (enterOpen s) := by
  have b18 := Frame.bit hm (k := 18) (by decide)
  unfold enterOpen
  repeat' (with_reducible first | assumption | (exact Frame.sub hm (by decide)) | apply frame_bump | apply frame_closeSess | apply frame_eraseKey | apply frame_foldS | apply frame_saveRecord | (intro _) | refine Frame.ite ?_ ?_ | split | dsimp only | simp only [Frame.upd_iff, b18, true_or, or_true])

theorem frame_setDebug {m0 : Nat} {s0 : State} (old : Nat) (m : Nat) (s : State) (hm : 266496 ||| m0 = m0) (hs : Frame m0 s0 s) :
    Frame m0 s0 (setDebug old m s) := by
  have b18 := Frame.bit hm (k := 18) (by decide)
  unfold setDebug
  repeat' (with_reducible first | assumption | (exact Frame.sub hm (by decide)) | apply frame_enterOpen | apply frame_extendM | apply frame_whenS | (intro _) | refine Frame.ite ?_ ?_ | split | dsimp only | simp only [Frame.upd_iff, b18, true_or, or_true])

theorem frame_confirmImage {m0 : Nat} {s0 : State} (s : State) (hm : 266240 ||| m0 = m0) (hs : Frame m0 s0 s) :
    Frame m0 s0 (confirmImage s) := by
  have b18 := Frame.bit hm (k := 18) (by decide)
  unfold confirmImage
  repeat' (with_reducible first | assumption | (exact Frame.sub hm (by decide)) | apply frame_dirSet | apply frame_saveRecord | split | dsimp only | simp only [Frame.upd_iff, b18, true_or, or_true])

theorem frame_putImage {m0 : Nat} {s0 : State} (b : Bytes) (s : State) (hm : 262144 ||| m0 = m0) (hs : Frame m0 s0 s) :
    Frame m0 s0 (putImage b s) := by
  have b18 := Frame.bit hm (k := 18) (by decide)
  unfold putImage
  repeat' (with_reducible first | assumption | (exact Frame.sub hm (by decide)) | split | dsimp only | simp only [Frame.upd_iff, b18, true_or, or_true])

theorem frame_putSak {m0 : Nat} {s0 : State} (p : Nat) (b : Bytes) (s : State) (hm : 524288 ||| m0 = m0) (hs : Frame m0 s0 s) :
    Frame m0 s0 (putSak p b s) := by
  have b19 := Frame.bit hm (k := 19) (by decide)
  unfold putSak
  repeat' (with_reducible first | assumption | (exact Frame.sub hm (by decide)) | split | dsimp only | simp only [Frame.upd_iff, b19, true_or, or_true])

theorem frame_actTraffic {m0 : Nat} {s0 : State} (obj : Nat) (v : DVal) (s : State) (hm : 4608 ||| m0 = m0) (hs : Frame m0 s0 s) :
    Frame m0 s0 (actTraffic obj v s) := by
  have b9 := Frame.bit hm (k := 9) (by decide)
  unfold actTraffic
  repeat' (with_reducible first | assumption | (exact Frame.sub hm (by decide)) | apply frame_askReset | apply frame_clearHist | apply frame_refillPolicer | apply frame_refillShaper | split | dsimp only | simp only [Frame.upd_iff, b9, true_or, or_true])

theorem frame_actSingle {m0 : Nat} {s0 : State} (a : Actor) (obj : Nat) (old : Nat) (v : DVal) (s : State) (hm : 900606 ||| m0 = m0) (hs : Frame m0 s0 s) :
    Frame m0 s0 (actSingle a obj old v s) := by
  have b11 := Frame.bit hm (k := 11) (by decide)
  have b12 := Frame.bit hm (k := 12) (by decide)
  unfold actSingle
  repeat' (with_reducible first | assumption | (exact Frame.sub hm (by decide)) | apply frame_askWarm | apply frame_autoRemove | apply frame_confirmImage | apply frame_extendM | apply frame_putImage | apply frame_putNonce | apply frame_removeHead | apply frame_setDebug | apply frame_stageImage | apply frame_stageMap | (intro _) | refine Frame.ite ?_ ?_ | split | dsimp only | simp only [Frame.upd_iff, b11, b12, true_or, or_true])

theorem frame_actWrite {m0 : Nat} {s0 : State} (a : Actor) (obj : Nat) (old : Nat) (v : DVal) (s : State) (hm : 901118 ||| m0 = m0) (hs : Frame m0 s0 s) :
    Frame m0 s0 (actWrite a obj old v s) := by
  unfold actWrite
  repeat' (with_reducible first | assumption | (exact Frame.sub hm (by decide)) | apply frame_actSingle | apply frame_actTraffic | apply frame_putKey | apply frame_putSak | apply frame_showReserve | apply frame_takeArrangement | split | dsimp only | simp only [Frame.upd_iff, true_or, or_true])

theorem frame_effectPlain {m0 : Nat} {s0 : State} (a : Actor) (obj : Nat) (v : DVal) (s : State) (hm : 901118 ||| m0 = m0) (hs : Frame m0 s0 s) :
    Frame m0 s0 (effectPlain a obj v s) := by
  unfold effectPlain
  repeat' (with_reducible first | assumption | (exact Frame.sub hm (by decide)) | apply frame_actWrite | apply frame_dirPut | apply frame_dirSet | apply frame_whenS | (intro _) | refine Frame.ite ?_ ?_ | split | dsimp only | simp only [Frame.upd_iff, true_or, or_true])

theorem frame_effectRefused {m0 : Nat} {s0 : State} (obj : Nat) (v : DVal) (s : State) (hm : 36864 ||| m0 = m0) (hs : Frame m0 s0 s) :
    Frame m0 s0 (effectRefused obj v s) := by
  unfold effectRefused
  repeat' (with_reducible first | assumption | (exact Frame.sub hm (by decide)) | apply frame_stageImage | apply frame_stageMap | split | dsimp only | simp only [Frame.upd_iff, true_or, or_true])

theorem frame_slotTarget {m0 : Nat} {s0 : State} (a : Actor) (n : Nat) (t : Nat) (s : State) (hm : 4096 ||| m0 = m0) (hs : Frame m0 s0 s) :
    Frame m0 s0 (slotTarget a n t s) := by
  unfold slotTarget
  repeat' (with_reducible first | assumption | (exact Frame.sub hm (by decide)) | apply frame_onXslot | split | dsimp only | simp only [Frame.upd_iff, true_or, or_true])

theorem frame_slotDirection {m0 : Nat} {s0 : State} (a : Actor) (n : Nat) (d : Nat) (s : State) (hm : 1052672 ||| m0 = m0) (hs : Frame m0 s0 s) :
    Frame m0 s0 (slotDirection a n d s) := by
  unfold slotDirection
  repeat' (with_reducible first | assumption | (exact Frame.sub hm (by decide)) | apply frame_afterRead | apply frame_onXslot | apply frame_whenS | (intro _) | refine Frame.ite ?_ ?_ | split | dsimp only | simp only [Frame.upd_iff, true_or, or_true])

theorem frame_slotLength {m0 : Nat} {s0 : State} (n : Nat) (k : Nat) (s : State) (hm : 4096 ||| m0 = m0) (hs : Frame m0 s0 s) :
    Frame m0 s0 (slotLength n k s) := by
  unfold slotLength
  repeat' (with_reducible first | assumption | (exact Frame.sub hm (by decide)) | apply frame_onXslot | split | dsimp only | simp only [Frame.upd_iff, true_or, or_true])

theorem frame_slotChunk {m0 : Nat} {s0 : State} (n : Nat) (b : Bytes) (s : State) (hm : 4096 ||| m0 = m0) (hs : Frame m0 s0 s) :
    Frame m0 s0 (slotChunk n b s) := by
  unfold slotChunk
  repeat' (with_reducible first | assumption | (exact Frame.sub hm (by decide)) | apply frame_onXslot | split | dsimp only | simp only [Frame.upd_iff, true_or, or_true])

theorem frame_slotCommit {m0 : Nat} {s0 : State} (a : Actor) (n : Nat) (s : State) (hm : 901118 ||| m0 = m0) (hs : Frame m0 s0 s) :
    Frame m0 s0 (slotCommit a n s) := by
  unfold slotCommit
  repeat' (with_reducible first | assumption | (exact Frame.sub hm (by decide)) | apply frame_effectPlain | apply frame_onXslot | split | dsimp only | simp only [Frame.upd_iff, true_or, or_true])

theorem frame_slotRefused {m0 : Nat} {s0 : State} (n : Nat) (st : Nat) (s : State) (hm : 36864 ||| m0 = m0) (hs : Frame m0 s0 s) :
    Frame m0 s0 (slotRefused n st s) := by
  unfold slotRefused
  repeat' (with_reducible first | assumption | (exact Frame.sub hm (by decide)) | apply frame_effectRefused | apply frame_onXslot | apply frame_whenS | (intro _) | refine Frame.ite ?_ ?_ | split | dsimp only | simp only [Frame.upd_iff, true_or, or_true])

theorem frame_effectSlot {m0 : Nat} {s0 : State} (a : Actor) (n : Nat) (u : Nat) (v : DVal) (s : State) (hm : 1949694 ||| m0 = m0) (hs : Frame m0 s0 s) :
    Frame m0 s0 (effectSlot a n u v s) := by
  unfold effectSlot
  repeat' (with_reducible first | assumption | (exact Frame.sub hm (by decide)) | apply frame_onXslot | apply frame_slotChunk | apply frame_slotCommit | apply frame_slotDirection | apply frame_slotLength | apply frame_slotTarget | split | dsimp only | simp only [Frame.upd_iff, true_or, or_true])

theorem frame_touchSlot {m0 : Nat} {s0 : State} (a : Actor) (obj : Nat) (s : State) (hm : 4096 ||| m0 = m0) (hs : Frame m0 s0 s) :
    Frame m0 s0 (touchSlot a obj s) := by
  unfold touchSlot
  repeat' (with_reducible first | assumption | (exact Frame.sub hm (by decide)) | apply frame_onXslot | split | dsimp only | simp only [Frame.upd_iff, true_or, or_true])

theorem frame_effectWrite {m0 : Nat} {s0 : State} (a : Actor) (obj : Nat) (v : DVal) (s : State) (hm : 1949694 ||| m0 = m0) (hs : Frame m0 s0 s) :
    Frame m0 s0 (effectWrite a obj v s) := by
  unfold effectWrite
  repeat' (with_reducible first | assumption | (exact Frame.sub hm (by decide)) | apply frame_effectPlain | apply frame_effectSlot | split | dsimp only | simp only [Frame.upd_iff, true_or, or_true])

theorem frame_effectNone {m0 : Nat} {s0 : State} (a : Actor) (obj : Nat) (st : Nat) (v : DVal) (s : State) (hm : 36864 ||| m0 = m0) (hs : Frame m0 s0 s) :
    Frame m0 s0 (effectNone a obj st v s) := by
  unfold effectNone
  repeat' (with_reducible first | assumption | (exact Frame.sub hm (by decide)) | apply frame_effectRefused | apply frame_slotRefused | split | dsimp only | simp only [Frame.upd_iff, true_or, or_true])

theorem frame_respond {m0 : Nat} {s0 : State} (m : ChainMsg) (st : Nat) (ty : Nat) (body : Bytes) (s : State) (hm : 12288 ||| m0 = m0) (hs : Frame m0 s0 s) :
    Frame m0 s0 (respond m st ty body s) := by
  unfold respond
  repeat' (with_reducible first | assumption | (exact Frame.sub hm (by decide)) | apply frame_bump | apply frame_chainSend | apply frame_whenS | (intro _) | refine Frame.ite ?_ ?_ | split | dsimp only | simp only [Frame.upd_iff, true_or, or_true])

theorem frame_keepResponse {m0 : Nat} {s0 : State} (m : ChainMsg) (st : Nat) (ty : Nat) (body : Bytes) (s : State) (hm : 8192 ||| m0 = m0) (hs : Frame m0 s0 s) :
    Frame m0 s0 (keepResponse m st ty body s) := by
  have b13 := Frame.bit hm (k := 13) (by decide)
  unfold keepResponse
  repeat' (with_reducible first | assumption | (exact Frame.sub hm (by decide)) | split | dsimp only | simp only [Frame.upd_iff, b13, true_or, or_true])

theorem frame_answerOp {m0 : Nat} {s0 : State} (ans : Answer) (obj : Nat) (st : Nat) (read : Bool) (body : Bytes) (s : State) (hm : 14840 ||| m0 = m0) (hs : Frame m0 s0 s) :
    Frame m0 s0 (answerOp ans obj st read body s) := by
  unfold answerOp
  repeat' (with_reducible first | assumption | (exact Frame.sub hm (by decide)) | apply frame_endReq | apply frame_keepResponse | apply frame_respond | split | dsimp only | simp only [Frame.upd_iff, true_or, or_true])

theorem frame_noteOp {m0 : Nat} {s0 : State} (st : Nat) (v : Option DVal) (s : State) (hm : 4096 ||| m0 = m0) (hs : Frame m0 s0 s) :
    Frame m0 s0 (noteOp st v s) := by
  have b12 := Frame.bit hm (k := 12) (by decide)
  unfold noteOp
  repeat' (with_reducible first | assumption | (exact Frame.sub hm (by decide)) | split | dsimp only | simp only [Frame.upd_iff, b12, true_or, or_true])

theorem frame_runRead {m0 : Nat} {s0 : State} (o : DirOp) (s : State) (hm : 1063416 ||| m0 = m0) (hs : Frame m0 s0 s) :
    Frame m0 s0 (runRead o s) := by
  unfold runRead
  repeat' (with_reducible first | assumption | (exact Frame.sub hm (by decide)) | apply frame_afterRead | apply frame_answerOp | apply frame_noteOp | apply frame_touchSlot | apply frame_whenS | (intro _) | refine Frame.ite ?_ ?_ | split | dsimp only | simp only [Frame.upd_iff, true_or, or_true])

theorem frame_lateAct {m0 : Nat} {s0 : State} (obj : Nat) (s : State) (hm : 512 ||| m0 = m0) (hs : Frame m0 s0 s) :
    Frame m0 s0 (lateAct obj s) := by
  unfold lateAct
  repeat' (with_reducible first | assumption | (exact Frame.sub hm (by decide)) | apply frame_writeEnabled | split | dsimp only | simp only [Frame.upd_iff, true_or, or_true])

theorem frame_runWrite {m0 : Nat} {s0 : State} (o : DirOp) (v : DVal) (s : State) (hm : 1949694 ||| m0 = m0) (hs : Frame m0 s0 s) :
    Frame m0 s0 (runWrite o v s) := by
  have b12 := Frame.bit hm (k := 12) (by decide)
  unfold runWrite
  repeat' (with_reducible first | assumption | (exact Frame.sub hm (by decide)) | apply frame_answerOp | apply frame_effectNone | apply frame_effectWrite | apply frame_noteOp | apply frame_touchSlot | split | dsimp only | simp only [Frame.upd_iff, b12, true_or, or_true])

theorem frame_runOp {m0 : Nat} {s0 : State} (o : DirOp) (s : State) (hm : 1949694 ||| m0 = m0) (hs : Frame m0 s0 s) :
    Frame m0 s0 (runOp o s) := by
  unfold runOp
  repeat' (with_reducible first | assumption | (exact Frame.sub hm (by decide)) | apply frame_runRead | apply frame_runWrite | split | dsimp only | simp only [Frame.upd_iff, true_or, or_true])

theorem frame_takeOp {m0 : Nat} {s0 : State} (o : DirOp) (s : State) (hm : 1949694 ||| m0 = m0) (hs : Frame m0 s0 s) :
    Frame m0 s0 (takeOp o s) := by
  have b12 := Frame.bit hm (k := 12) (by decide)
  unfold takeOp
  repeat' (with_reducible first | assumption | (exact Frame.sub hm (by decide)) | apply frame_runOp | split | dsimp only | simp only [Frame.upd_iff, b12, true_or, or_true])

theorem frame_drainOps {m0 : Nat} {s0 : State} (x0 : List DirOp) (x1 : State) (hm : 1949694 ||| m0 = m0) (hx1 : Frame m0 s0 x1) :
    Frame m0 s0 (drainOps x0 x1) := by
  have b12 := Frame.bit hm (k := 12) (by decide)
  induction x0 generalizing x1 with
  | nil =>
    unfold drainOps
    all_goals try dsimp only
    repeat' (with_reducible first | assumption | (exact Frame.sub hm (by decide)) | exact Frame.refl _ | apply frame_runOp | (intro _) | refine Frame.snd (by assumption) ?_ | refine Frame.snd3 (by assumption) ?_ | refine Frame.snd4 (by assumption) ?_ | refine Frame.some1 (by assumption) ?_ | refine Frame.some2 (by assumption) ?_ | refine Frame.some3 (by assumption) ?_ | refine Frame.fst (by assumption) ?_ | refine Frame.ite ?_ ?_ | refine Frame.ite2 ?_ ?_ | refine Frame.ite3 ?_ ?_ | split | dsimp only | simp only [Frame.upd_iff, b12, true_or, or_true])
  | cons a t ih =>
    unfold drainOps
    all_goals try dsimp only
    repeat' (with_reducible first | assumption | (exact Frame.sub hm (by decide)) | exact Frame.refl _ | apply frame_runOp | with_reducible apply ih | (intro _) | refine Frame.snd (by assumption) ?_ | refine Frame.snd3 (by assumption) ?_ | refine Frame.snd4 (by assumption) ?_ | refine Frame.some1 (by assumption) ?_ | refine Frame.some2 (by assumption) ?_ | refine Frame.some3 (by assumption) ?_ | refine Frame.fst (by assumption) ?_ | refine Frame.ite ?_ ?_ | refine Frame.ite2 ?_ ?_ | refine Frame.ite3 ?_ ?_ | split | dsimp only | simp only [Frame.upd_iff, b12, true_or, or_true])

theorem frame_commitRecord {m0 : Nat} {s0 : State} (s : State) (hm : 1949694 ||| m0 = m0) (hs : Frame m0 s0 s) :
    Frame m0 s0 (commitRecord s) := by
  have b12 := Frame.bit hm (k := 12) (by decide)
  unfold commitRecord
  repeat' (with_reducible first | assumption | (exact Frame.sub hm (by decide)) | apply frame_answerOp | apply frame_drainOps | apply frame_foldS | apply frame_lateAct | apply frame_saveRecord | (intro _) | refine Frame.ite ?_ ?_ | split | dsimp only | simp only [Frame.upd_iff, b12, true_or, or_true])

theorem frame_rowOp {m0 : Nat} {s0 : State} (ok : Bool) (a : Actor) (obj : Nat) (wr : Option DVal) (s : State) (hm : 1949694 ||| m0 = m0) (hs : Frame m0 s0 s) :
    ∀ z, (rowOp ok a obj wr s) = .next z → Frame m0 s0 z := by
  intro z e
  unfold rowOp at e
  try dsimp only at e
  first | (split at e <;> first | (injection e with e; subst e)) | (injection e with e; subst e) | skip
  repeat' (with_reducible first | assumption | (exact Frame.sub hm (by decide)) | apply frame_noteOp | apply frame_takeOp | split | dsimp only | simp only [Frame.upd_iff, true_or, or_true])

theorem frame_takeReq {m0 : Nat} {s0 : State} (rid : Nat) (type : Nat) (wr : Req → Option DVal) (s : State) (hm : 1949694 ||| m0 = m0) (hs : Frame m0 s0 s) :
    Frame m0 s0 (takeReq rid type wr s) := by
  unfold takeReq
  repeat' (with_reducible first | assumption | (exact Frame.sub hm (by decide)) | apply frame_failReq | apply frame_onReq | apply frame_takeOp | split | dsimp only | simp only [Frame.upd_iff, true_or, or_true])

theorem frame_execDirRead {m0 : Nat} {s0 : State} (rid : Nat) (s : State) (hm : 1949694 ||| m0 = m0) (hs : Frame m0 s0 s) :
    ∀ z, (execDirRead rid s) = .next z → Frame m0 s0 z := by
  intro z e
  unfold execDirRead at e
  try dsimp only at e
  first | (split at e <;> first | (injection e with e; subst e)) | (injection e with e; subst e) | skip
  repeat' (with_reducible first | assumption | (exact Frame.sub hm (by decide)) | apply frame_takeReq | split | dsimp only | simp only [Frame.upd_iff, true_or, or_true])

theorem frame_execDirWrite {m0 : Nat} {s0 : State} (rid : Nat) (s : State) (hm : 1949694 ||| m0 = m0) (hs : Frame m0 s0 s) :
    ∀ z, (execDirWrite rid s) = .next z → Frame m0 s0 z := by
  intro z e
  unfold execDirWrite at e
  try dsimp only at e
  first | (split at e <;> first | (injection e with e; subst e)) | (injection e with e; subst e) | skip
  repeat' (with_reducible first | assumption | (exact Frame.sub hm (by decide)) | apply frame_takeReq | split | dsimp only | simp only [Frame.upd_iff, true_or, or_true])

theorem frame_execBootFlashCommit {m0 : Nat} {s0 : State} (s : State) (hm : 1949694 ||| m0 = m0) (hs : Frame m0 s0 s) :
    ∀ z, (execBootFlashCommit s) = .next z → Frame m0 s0 z := by
  intro z e
  unfold execBootFlashCommit at e
  try dsimp only at e
  first | (split at e <;> first | (injection e with e; subst e)) | (injection e with e; subst e) | skip
  repeat' (with_reducible first | assumption | (exact Frame.sub hm (by decide)) | apply frame_commitRecord | split | dsimp only | simp only [Frame.upd_iff, true_or, or_true])

theorem frame_execRegisterWrite {m0 : Nat} {s0 : State} (t : RegTarget) (s : State) (hm : 1966078 ||| m0 = m0) (hs : Frame m0 s0 s) :
    ∀ z, (execRegisterWrite t s) = .next z → Frame m0 s0 z := by
  intro z e
  unfold execRegisterWrite at e
  try dsimp only at e
  first | exact frame_rowOp _ _ _ _ _ (Frame.sub hm (by decide)) hs _ e | (split at e <;> first | exact frame_rowOp _ _ _ _ _ (Frame.sub hm (by decide)) hs _ e | (injection e with e; subst e)) | (injection e with e; subst e) | skip
  repeat' (with_reducible first | assumption | (exact Frame.sub hm (by decide)) | apply frame_eregWrite | apply frame_illegal | apply frame_onIssue | apply frame_onThread | (show ∀ _, _ → _; apply frame_rowOp) | (intro _) | refine Frame.ite ?_ ?_ | split | dsimp only | simp only [Frame.upd_iff, true_or, or_true])

theorem frame_execTxAn {m0 : Nat} {s0 : State} (a : Actor) (p : Nat) (v : DVal) (s : State) (hm : 1949694 ||| m0 = m0) (hs : Frame m0 s0 s) :
    ∀ z, (execTxAn a p v s) = .next z → Frame m0 s0 z := by
  intro z e
  unfold execTxAn at e
  try dsimp only at e
  first | exact frame_rowOp _ _ _ _ _ (Frame.sub hm (by decide)) hs _ e | (split at e <;> first | exact frame_rowOp _ _ _ _ _ (Frame.sub hm (by decide)) hs _ e | (injection e with e; subst e)) | (injection e with e; subst e) | skip
  repeat' (with_reducible first | assumption | (exact Frame.sub hm (by decide)) | (show ∀ _, _ → _; apply frame_rowOp) | split | dsimp only | simp only [Frame.upd_iff, true_or, or_true])

theorem frame_execSak {m0 : Nat} {s0 : State} (a : Actor) (p : Nat) (v : DVal) (s : State) (hm : 1949694 ||| m0 = m0) (hs : Frame m0 s0 s) :
    ∀ z, (execSak a p v s) = .next z → Frame m0 s0 z := by
  intro z e
  unfold execSak at e
  try dsimp only at e
  first | exact frame_rowOp _ _ _ _ _ (Frame.sub hm (by decide)) hs _ e | (split at e <;> first | exact frame_rowOp _ _ _ _ _ (Frame.sub hm (by decide)) hs _ e | (injection e with e; subst e)) | (injection e with e; subst e) | skip
  repeat' (with_reducible first | assumption | (exact Frame.sub hm (by decide)) | (show ∀ _, _ → _; apply frame_rowOp) | split | dsimp only | simp only [Frame.upd_iff, true_or, or_true])

theorem frame_execEnabled {m0 : Nat} {s0 : State} (a : Actor) (t : Nat) (v : DVal) (s : State) (hm : 1949694 ||| m0 = m0) (hs : Frame m0 s0 s) :
    ∀ z, (execEnabled a t v s) = .next z → Frame m0 s0 z := by
  intro z e
  unfold execEnabled at e
  try dsimp only at e
  first | exact frame_rowOp _ _ _ _ _ (Frame.sub hm (by decide)) hs _ e | (split at e <;> first | exact frame_rowOp _ _ _ _ _ (Frame.sub hm (by decide)) hs _ e | (injection e with e; subst e)) | (injection e with e; subst e) | skip
  repeat' (with_reducible first | assumption | (exact Frame.sub hm (by decide)) | (show ∀ _, _ → _; apply frame_rowOp) | split | dsimp only | simp only [Frame.upd_iff, true_or, or_true])

theorem frame_execTenantReset {m0 : Nat} {s0 : State} (a : Actor) (t : Nat) (v : DVal) (s : State) (hm : 1949694 ||| m0 = m0) (hs : Frame m0 s0 s) :
    ∀ z, (execTenantReset a t v s) = .next z → Frame m0 s0 z := by
  intro z e
  unfold execTenantReset at e
  try dsimp only at e
  first | exact frame_rowOp _ _ _ _ _ (Frame.sub hm (by decide)) hs _ e | (split at e <;> first | exact frame_rowOp _ _ _ _ _ (Frame.sub hm (by decide)) hs _ e | (injection e with e; subst e)) | (injection e with e; subst e) | skip
  repeat' (with_reducible first | assumption | (exact Frame.sub hm (by decide)) | (show ∀ _, _ → _; apply frame_rowOp) | split | dsimp only | simp only [Frame.upd_iff, true_or, or_true])

theorem frame_execPolicerEntryWrite {m0 : Nat} {s0 : State} (a : Actor) (t : Nat) (sub : Nat) (v : DVal) (s : State) (hm : 1949694 ||| m0 = m0) (hs : Frame m0 s0 s) :
    ∀ z, (execPolicerEntryWrite a t sub v s) = .next z → Frame m0 s0 z := by
  intro z e
  unfold execPolicerEntryWrite at e
  try dsimp only at e
  first | exact frame_rowOp _ _ _ _ _ (Frame.sub hm (by decide)) hs _ e | (split at e <;> first | exact frame_rowOp _ _ _ _ _ (Frame.sub hm (by decide)) hs _ e | (injection e with e; subst e)) | (injection e with e; subst e) | skip
  repeat' (with_reducible first | assumption | (exact Frame.sub hm (by decide)) | (show ∀ _, _ → _; apply frame_rowOp) | split | dsimp only | simp only [Frame.upd_iff, true_or, or_true])

theorem frame_execShaperEntryWrite {m0 : Nat} {s0 : State} (a : Actor) (t : Nat) (q : Nat) (sub : Nat) (v : DVal) (s : State) (hm : 1949694 ||| m0 = m0) (hs : Frame m0 s0 s) :
    ∀ z, (execShaperEntryWrite a t q sub v s) = .next z → Frame m0 s0 z := by
  intro z e
  unfold execShaperEntryWrite at e
  try dsimp only at e
  first | exact frame_rowOp _ _ _ _ _ (Frame.sub hm (by decide)) hs _ e | (split at e <;> first | exact frame_rowOp _ _ _ _ _ (Frame.sub hm (by decide)) hs _ e | (injection e with e; subst e)) | (injection e with e; subst e) | skip
  repeat' (with_reducible first | assumption | (exact Frame.sub hm (by decide)) | (show ∀ _, _ → _; apply frame_rowOp) | split | dsimp only | simp only [Frame.upd_iff, true_or, or_true])

theorem frame_execCommitFrame {m0 : Nat} {s0 : State} (a : Actor) (p : Nat) (v : DVal) (s : State) (hm : 1949694 ||| m0 = m0) (hs : Frame m0 s0 s) :
    ∀ z, (execCommitFrame a p v s) = .next z → Frame m0 s0 z := by
  intro z e
  unfold execCommitFrame at e
  try dsimp only at e
  first | exact frame_rowOp _ _ _ _ _ (Frame.sub hm (by decide)) hs _ e | (split at e <;> first | exact frame_rowOp _ _ _ _ _ (Frame.sub hm (by decide)) hs _ e | (injection e with e; subst e)) | (injection e with e; subst e) | skip
  repeat' (with_reducible first | assumption | (exact Frame.sub hm (by decide)) | (show ∀ _, _ → _; apply frame_rowOp) | split | dsimp only | simp only [Frame.upd_iff, true_or, or_true])

theorem frame_execHistClear {m0 : Nat} {s0 : State} (a : Actor) (t : Nat) (q : Nat) (v : DVal) (s : State) (hm : 1949694 ||| m0 = m0) (hs : Frame m0 s0 s) :
    ∀ z, (execHistClear a t q v s) = .next z → Frame m0 s0 z := by
  intro z e
  unfold execHistClear at e
  try dsimp only at e
  first | exact frame_rowOp _ _ _ _ _ (Frame.sub hm (by decide)) hs _ e | (split at e <;> first | exact frame_rowOp _ _ _ _ _ (Frame.sub hm (by decide)) hs _ e | (injection e with e; subst e)) | (injection e with e; subst e) | skip
  repeat' (with_reducible first | assumption | (exact Frame.sub hm (by decide)) | (show ∀ _, _ → _; apply frame_rowOp) | split | dsimp only | simp only [Frame.upd_iff, true_or, or_true])

theorem frame_execRwcWrite {m0 : Nat} {s0 : State} (a : Actor) (obj : Nat) (v : DVal) (s : State) (hm : 1949694 ||| m0 = m0) (hs : Frame m0 s0 s) :
    ∀ z, (execRwcWrite a obj v s) = .next z → Frame m0 s0 z := by
  intro z e
  unfold execRwcWrite at e
  try dsimp only at e
  first | exact frame_rowOp _ _ _ _ _ (Frame.sub hm (by decide)) hs _ e | (split at e <;> first | exact frame_rowOp _ _ _ _ _ (Frame.sub hm (by decide)) hs _ e | (injection e with e; subst e)) | (injection e with e; subst e) | skip
  repeat' (with_reducible first | assumption | (exact Frame.sub hm (by decide)) | (show ∀ _, _ → _; apply frame_rowOp) | split | dsimp only | simp only [Frame.upd_iff, true_or, or_true])

theorem frame_execWarmRequest {m0 : Nat} {s0 : State} (a : Actor) (v : DVal) (s : State) (hm : 1949694 ||| m0 = m0) (hs : Frame m0 s0 s) :
    ∀ z, (execWarmRequest a v s) = .next z → Frame m0 s0 z := by
  intro z e
  unfold execWarmRequest at e
  try dsimp only at e
  first | exact frame_rowOp _ _ _ _ _ (Frame.sub hm (by decide)) hs _ e | (split at e <;> first | exact frame_rowOp _ _ _ _ _ (Frame.sub hm (by decide)) hs _ e | (injection e with e; subst e)) | (injection e with e; subst e) | skip
  repeat' (with_reducible first | assumption | (exact Frame.sub hm (by decide)) | (show ∀ _, _ → _; apply frame_rowOp) | split | dsimp only | simp only [Frame.upd_iff, true_or, or_true])

theorem frame_execRestoreDefaults {m0 : Nat} {s0 : State} (a : Actor) (v : DVal) (s : State) (hm : 1949694 ||| m0 = m0) (hs : Frame m0 s0 s) :
    ∀ z, (execRestoreDefaults a v s) = .next z → Frame m0 s0 z := by
  intro z e
  unfold execRestoreDefaults at e
  try dsimp only at e
  first | exact frame_rowOp _ _ _ _ _ (Frame.sub hm (by decide)) hs _ e | (split at e <;> first | exact frame_rowOp _ _ _ _ _ (Frame.sub hm (by decide)) hs _ e | (injection e with e; subst e)) | (injection e with e; subst e) | skip
  repeat' (with_reducible first | assumption | (exact Frame.sub hm (by decide)) | (show ∀ _, _ → _; apply frame_rowOp) | split | dsimp only | simp only [Frame.upd_iff, true_or, or_true])

theorem frame_execTarget {m0 : Nat} {s0 : State} (a : Actor) (n : Nat) (v : DVal) (s : State) (hm : 1949694 ||| m0 = m0) (hs : Frame m0 s0 s) :
    ∀ z, (execTarget a n v s) = .next z → Frame m0 s0 z := by
  intro z e
  unfold execTarget at e
  try dsimp only at e
  first | exact frame_rowOp _ _ _ _ _ (Frame.sub hm (by decide)) hs _ e | (split at e <;> first | exact frame_rowOp _ _ _ _ _ (Frame.sub hm (by decide)) hs _ e | (injection e with e; subst e)) | (injection e with e; subst e) | skip
  repeat' (with_reducible first | assumption | (exact Frame.sub hm (by decide)) | (show ∀ _, _ → _; apply frame_rowOp) | split | dsimp only | simp only [Frame.upd_iff, true_or, or_true])

theorem frame_execDirection {m0 : Nat} {s0 : State} (a : Actor) (n : Nat) (v : DVal) (s : State) (hm : 1949694 ||| m0 = m0) (hs : Frame m0 s0 s) :
    ∀ z, (execDirection a n v s) = .next z → Frame m0 s0 z := by
  intro z e
  unfold execDirection at e
  try dsimp only at e
  first | exact frame_rowOp _ _ _ _ _ (Frame.sub hm (by decide)) hs _ e | (split at e <;> first | exact frame_rowOp _ _ _ _ _ (Frame.sub hm (by decide)) hs _ e | (injection e with e; subst e)) | (injection e with e; subst e) | skip
  repeat' (with_reducible first | assumption | (exact Frame.sub hm (by decide)) | (show ∀ _, _ → _; apply frame_rowOp) | split | dsimp only | simp only [Frame.upd_iff, true_or, or_true])

theorem frame_execChunkWrite {m0 : Nat} {s0 : State} (a : Actor) (n : Nat) (v : DVal) (s : State) (hm : 1949694 ||| m0 = m0) (hs : Frame m0 s0 s) :
    ∀ z, (execChunkWrite a n v s) = .next z → Frame m0 s0 z := by
  intro z e
  unfold execChunkWrite at e
  try dsimp only at e
  first | exact frame_rowOp _ _ _ _ _ (Frame.sub hm (by decide)) hs _ e | (split at e <;> first | exact frame_rowOp _ _ _ _ _ (Frame.sub hm (by decide)) hs _ e | (injection e with e; subst e)) | (injection e with e; subst e) | skip
  repeat' (with_reducible first | assumption | (exact Frame.sub hm (by decide)) | (show ∀ _, _ → _; apply frame_rowOp) | split | dsimp only | simp only [Frame.upd_iff, true_or, or_true])

theorem frame_execChunkRead {m0 : Nat} {s0 : State} (a : Actor) (n : Nat) (s : State) (hm : 1949694 ||| m0 = m0) (hs : Frame m0 s0 s) :
    ∀ z, (execChunkRead a n s) = .next z → Frame m0 s0 z := by
  intro z e
  unfold execChunkRead at e
  try dsimp only at e
  first | exact frame_rowOp _ _ _ _ _ (Frame.sub hm (by decide)) hs _ e | (split at e <;> first | exact frame_rowOp _ _ _ _ _ (Frame.sub hm (by decide)) hs _ e | (injection e with e; subst e)) | (injection e with e; subst e) | skip
  repeat' (with_reducible first | assumption | (exact Frame.sub hm (by decide)) | (show ∀ _, _ → _; apply frame_rowOp) | split | dsimp only | simp only [Frame.upd_iff, true_or, or_true])

theorem frame_execCommit {m0 : Nat} {s0 : State} (a : Actor) (n : Nat) (v : DVal) (s : State) (hm : 1949694 ||| m0 = m0) (hs : Frame m0 s0 s) :
    ∀ z, (execCommit a n v s) = .next z → Frame m0 s0 z := by
  intro z e
  unfold execCommit at e
  try dsimp only at e
  first | exact frame_rowOp _ _ _ _ _ (Frame.sub hm (by decide)) hs _ e | (split at e <;> first | exact frame_rowOp _ _ _ _ _ (Frame.sub hm (by decide)) hs _ e | (injection e with e; subst e)) | (injection e with e; subst e) | skip
  repeat' (with_reducible first | assumption | (exact Frame.sub hm (by decide)) | (show ∀ _, _ → _; apply frame_rowOp) | split | dsimp only | simp only [Frame.upd_iff, true_or, or_true])

theorem frame_execSlotIdleClose {m0 : Nat} {s0 : State} (n : Nat) (s : State) (hm : 4096 ||| m0 = m0) (hs : Frame m0 s0 s) :
    ∀ z, (execSlotIdleClose n s) = .next z → Frame m0 s0 z := by
  intro z e
  unfold execSlotIdleClose at e
  try dsimp only at e
  first | (split at e <;> first | (injection e with e; subst e)) | (injection e with e; subst e) | skip
  repeat' (with_reducible first | assumption | (exact Frame.sub hm (by decide)) | apply frame_onXslot | split | dsimp only | simp only [Frame.upd_iff, true_or, or_true])

theorem frame_execRemove {m0 : Nat} {s0 : State} (a : Actor) (v : DVal) (s : State) (hm : 1949694 ||| m0 = m0) (hs : Frame m0 s0 s) :
    ∀ z, (execRemove a v s) = .next z → Frame m0 s0 z := by
  intro z e
  unfold execRemove at e
  try dsimp only at e
  first | exact frame_rowOp _ _ _ _ _ (Frame.sub hm (by decide)) hs _ e | (split at e <;> first | exact frame_rowOp _ _ _ _ _ (Frame.sub hm (by decide)) hs _ e | (injection e with e; subst e)) | (injection e with e; subst e) | skip
  repeat' (with_reducible first | assumption | (exact Frame.sub hm (by decide)) | (show ∀ _, _ → _; apply frame_rowOp) | split | dsimp only | simp only [Frame.upd_iff, true_or, or_true])

theorem frame_execReplan {m0 : Nat} {s0 : State} (a : Actor) (v : DVal) (s : State) (hm : 1949694 ||| m0 = m0) (hs : Frame m0 s0 s) :
    ∀ z, (execReplan a v s) = .next z → Frame m0 s0 z := by
  intro z e
  unfold execReplan at e
  try dsimp only at e
  first | exact frame_rowOp _ _ _ _ _ (Frame.sub hm (by decide)) hs _ e | (split at e <;> first | exact frame_rowOp _ _ _ _ _ (Frame.sub hm (by decide)) hs _ e | (injection e with e; subst e)) | (injection e with e; subst e) | skip
  repeat' (with_reducible first | assumption | (exact Frame.sub hm (by decide)) | (show ∀ _, _ → _; apply frame_rowOp) | split | dsimp only | simp only [Frame.upd_iff, true_or, or_true])

theorem frame_execOperatorRoot {m0 : Nat} {s0 : State} (a : Actor) (v : DVal) (s : State) (hm : 1949694 ||| m0 = m0) (hs : Frame m0 s0 s) :
    ∀ z, (execOperatorRoot a v s) = .next z → Frame m0 s0 z := by
  intro z e
  unfold execOperatorRoot at e
  try dsimp only at e
  first | exact frame_rowOp _ _ _ _ _ (Frame.sub hm (by decide)) hs _ e | (split at e <;> first | exact frame_rowOp _ _ _ _ _ (Frame.sub hm (by decide)) hs _ e | (injection e with e; subst e)) | (injection e with e; subst e) | skip
  repeat' (with_reducible first | assumption | (exact Frame.sub hm (by decide)) | (show ∀ _, _ → _; apply frame_rowOp) | split | dsimp only | simp only [Frame.upd_iff, true_or, or_true])

theorem frame_execNonce {m0 : Nat} {s0 : State} (a : Actor) (v : DVal) (s : State) (hm : 1949694 ||| m0 = m0) (hs : Frame m0 s0 s) :
    ∀ z, (execNonce a v s) = .next z → Frame m0 s0 z := by
  intro z e
  unfold execNonce at e
  try dsimp only at e
  first | exact frame_rowOp _ _ _ _ _ (Frame.sub hm (by decide)) hs _ e | (split at e <;> first | exact frame_rowOp _ _ _ _ _ (Frame.sub hm (by decide)) hs _ e | (injection e with e; subst e)) | (injection e with e; subst e) | skip
  repeat' (with_reducible first | assumption | (exact Frame.sub hm (by decide)) | (show ∀ _, _ → _; apply frame_rowOp) | split | dsimp only | simp only [Frame.upd_iff, true_or, or_true])

theorem frame_execReport {m0 : Nat} {s0 : State} (a : Actor) (s : State) (hm : 1949694 ||| m0 = m0) (hs : Frame m0 s0 s) :
    ∀ z, (execReport a s) = .next z → Frame m0 s0 z := by
  intro z e
  unfold execReport at e
  try dsimp only at e
  first | exact frame_rowOp _ _ _ _ _ (Frame.sub hm (by decide)) hs _ e | (split at e <;> first | exact frame_rowOp _ _ _ _ _ (Frame.sub hm (by decide)) hs _ e | (injection e with e; subst e)) | (injection e with e; subst e) | skip
  repeat' (with_reducible first | assumption | (exact Frame.sub hm (by decide)) | (show ∀ _, _ → _; apply frame_rowOp) | split | dsimp only | simp only [Frame.upd_iff, true_or, or_true])

theorem frame_execPsk {m0 : Nat} {s0 : State} (a : Actor) (t : Nat) (v : DVal) (s : State) (hm : 1949694 ||| m0 = m0) (hs : Frame m0 s0 s) :
    ∀ z, (execPsk a t v s) = .next z → Frame m0 s0 z := by
  intro z e
  unfold execPsk at e
  try dsimp only at e
  first | exact frame_rowOp _ _ _ _ _ (Frame.sub hm (by decide)) hs _ e | (split at e <;> first | exact frame_rowOp _ _ _ _ _ (Frame.sub hm (by decide)) hs _ e | (injection e with e; subst e)) | (injection e with e; subst e) | skip
  repeat' (with_reducible first | assumption | (exact Frame.sub hm (by decide)) | (show ∀ _, _ → _; apply frame_rowOp) | split | dsimp only | simp only [Frame.upd_iff, true_or, or_true])

theorem frame_execDebugMode {m0 : Nat} {s0 : State} (a : Actor) (v : DVal) (s : State) (hm : 1949694 ||| m0 = m0) (hs : Frame m0 s0 s) :
    ∀ z, (execDebugMode a v s) = .next z → Frame m0 s0 z := by
  intro z e
  unfold execDebugMode at e
  try dsimp only at e
  first | exact frame_rowOp _ _ _ _ _ (Frame.sub hm (by decide)) hs _ e | (split at e <;> first | exact frame_rowOp _ _ _ _ _ (Frame.sub hm (by decide)) hs _ e | (injection e with e; subst e)) | (injection e with e; subst e) | skip
  repeat' (with_reducible first | assumption | (exact Frame.sub hm (by decide)) | (show ∀ _, _ → _; apply frame_rowOp) | split | dsimp only | simp only [Frame.upd_iff, true_or, or_true])

theorem frame_execConfirm {m0 : Nat} {s0 : State} (a : Actor) (v : DVal) (s : State) (hm : 1949694 ||| m0 = m0) (hs : Frame m0 s0 s) :
    ∀ z, (execConfirm a v s) = .next z → Frame m0 s0 z := by
  intro z e
  unfold execConfirm at e
  try dsimp only at e
  first | exact frame_rowOp _ _ _ _ _ (Frame.sub hm (by decide)) hs _ e | (split at e <;> first | exact frame_rowOp _ _ _ _ _ (Frame.sub hm (by decide)) hs _ e | (injection e with e; subst e)) | (injection e with e; subst e) | skip
  repeat' (with_reducible first | assumption | (exact Frame.sub hm (by decide)) | (show ∀ _, _ → _; apply frame_rowOp) | split | dsimp only | simp only [Frame.upd_iff, true_or, or_true])

theorem frame_scanWrite {m0 : Nat} {s0 : State} (addr : Nat) (v : Byte) (s : State) (hm : 8 ||| m0 = m0) (hs : Frame m0 s0 s) :
    Frame m0 s0 (scanWrite addr v s) := by
  unfold scanWrite
  repeat' (with_reducible first | assumption | (exact Frame.sub hm (by decide)) | apply frame_freshCheck | apply frame_memWrite | split | dsimp only | simp only [Frame.upd_iff, true_or, or_true])

theorem frame_tapOut {m0 : Nat} {s0 : State} (l : List Nat) (s : State) (hm : 262144 ||| m0 = m0) (hs : Frame m0 s0 s) :
    Frame m0 s0 (tapOut l s) := by
  have b18 := Frame.bit hm (k := 18) (by decide)
  unfold tapOut
  repeat' (with_reducible first | assumption | (exact Frame.sub hm (by decide)) | split | dsimp only | simp only [Frame.upd_iff, b18, true_or, or_true])

theorem frame_execJtagAccess {m0 : Nat} {s0 : State} (op : JtagOp) (s : State) (hm : 1310728 ||| m0 = m0) (hs : Frame m0 s0 s) :
    ∀ z, (execJtagAccess op s) = .next z → Frame m0 s0 z := by
  intro z e
  unfold execJtagAccess at e
  try dsimp only at e
  first | (split at e <;> first | (injection e with e; subst e)) | (injection e with e; subst e) | skip
  repeat' (with_reducible first | assumption | (exact Frame.sub hm (by decide)) | apply frame_draw | apply frame_scanWrite | apply frame_tapOut | apply frame_whenS | (intro _) | refine Frame.ite ?_ ?_ | split | dsimp only | simp only [Frame.upd_iff, true_or, or_true])

theorem frame_execConsoleInput {m0 : Nat} {s0 : State} (b : Bytes) (s : State) (hm : 262144 ||| m0 = m0) (hs : Frame m0 s0 s) :
    ∀ z, (execConsoleInput b s) = .next z → Frame m0 s0 z := by
  have b18 := Frame.bit hm (k := 18) (by decide)
  intro z e
  unfold execConsoleInput at e
  try dsimp only at e
  first | (split at e <;> first | (injection e with e; subst e)) | (injection e with e; subst e) | skip
  repeat' (with_reducible first | assumption | (exact Frame.sub hm (by decide)) | split | dsimp only | simp only [Frame.upd_iff, b18, true_or, or_true])

end Sys2Proof.Machine
end

