-- ==== Sys2Proof/Laws/State.lean ====
section
/-! SUPPORT. State: for each named operation of the model, the fields of the state that it leaves as they are; one lemma per
operation and field, so that no later proof unfolds a record update. -/
namespace Sys2Proof.Machine
set_option Elab.async false
set_option linter.all false

@[simp] theorem passCycle_pending (s : State) : (passCycle s).pending = s.pending := (frame_passCycle (m0 := 4866) _ (by decide) (Frame.refl _)).pending
@[simp] theorem passCycle_phase (s : State) : (passCycle s).phase = s.phase := Frame.same (frame_passCycle (m0 := 4866) _ (by decide) (Frame.refl _)).phase rfl
@[simp] theorem passCycle_mem (s : State) : (passCycle s).mem = s.mem := Frame.same (frame_passCycle (m0 := 4866) _ (by decide) (Frame.refl _)).mem rfl
@[simp] theorem passCycle_sea (s : State) : (passCycle s).sea = s.sea := Frame.same (frame_passCycle (m0 := 4866) _ (by decide) (Frame.refl _)).sea rfl
@[simp] theorem passCycle_stk (s : State) : (passCycle s).stk = s.stk := Frame.same (frame_passCycle (m0 := 4866) _ (by decide) (Frame.refl _)).stk rfl
@[simp] theorem passCycle_par (s : State) : (passCycle s).par = s.par := Frame.same (frame_passCycle (m0 := 4866) _ (by decide) (Frame.refl _)).par rfl
@[simp] theorem passCycle_pwr (s : State) : (passCycle s).pwr = s.pwr := Frame.same (frame_passCycle (m0 := 4866) _ (by decide) (Frame.refl _)).pwr rfl
@[simp] theorem passCycle_err (s : State) : (passCycle s).err = s.err := Frame.same (frame_passCycle (m0 := 4866) _ (by decide) (Frame.refl _)).err rfl
@[simp] theorem passCycle_log (s : State) : (passCycle s).log = s.log := Frame.same (frame_passCycle (m0 := 4866) _ (by decide) (Frame.refl _)).log rfl
@[simp] theorem passCycle_chain (s : State) : (passCycle s).chain = s.chain := Frame.same (frame_passCycle (m0 := 4866) _ (by decide) (Frame.refl _)).chain rfl
@[simp] theorem passCycle_fab (s : State) : (passCycle s).fab = s.fab := Frame.same (frame_passCycle (m0 := 4866) _ (by decide) (Frame.refl _)).fab rfl
@[simp] theorem passCycle_cmp (s : State) : (passCycle s).cmp = s.cmp := Frame.same (frame_passCycle (m0 := 4866) _ (by decide) (Frame.refl _)).cmp rfl
@[simp] theorem passCycle_path (s : State) : (passCycle s).path = s.path := Frame.same (frame_passCycle (m0 := 4866) _ (by decide) (Frame.refl _)).path rfl
@[simp] theorem passCycle_flash (s : State) : (passCycle s).flash = s.flash := Frame.same (frame_passCycle (m0 := 4866) _ (by decide) (Frame.refl _)).flash rfl
@[simp] theorem passCycle_sec (s : State) : (passCycle s).sec = s.sec := Frame.same (frame_passCycle (m0 := 4866) _ (by decide) (Frame.refl _)).sec rfl
@[simp] theorem passCycle_pins (s : State) : (passCycle s).pins = s.pins := Frame.same (frame_passCycle (m0 := 4866) _ (by decide) (Frame.refl _)).pins rfl
@[simp] theorem passCycle_free (s : State) : (passCycle s).free = s.free := Frame.same (frame_passCycle (m0 := 4866) _ (by decide) (Frame.refl _)).free rfl
@[simp] theorem draw_pending (s : State) : (draw s).2.pending = s.pending := (frame_draw (m0 := 1048576) _ (by decide) (Frame.refl _)).pending
@[simp] theorem draw_clk (s : State) : (draw s).2.clk = s.clk := Frame.same (frame_draw (m0 := 1048576) _ (by decide) (Frame.refl _)).clk rfl
@[simp] theorem draw_phase (s : State) : (draw s).2.phase = s.phase := Frame.same (frame_draw (m0 := 1048576) _ (by decide) (Frame.refl _)).phase rfl
@[simp] theorem draw_mem (s : State) : (draw s).2.mem = s.mem := Frame.same (frame_draw (m0 := 1048576) _ (by decide) (Frame.refl _)).mem rfl
@[simp] theorem draw_sea (s : State) : (draw s).2.sea = s.sea := Frame.same (frame_draw (m0 := 1048576) _ (by decide) (Frame.refl _)).sea rfl
@[simp] theorem draw_stk (s : State) : (draw s).2.stk = s.stk := Frame.same (frame_draw (m0 := 1048576) _ (by decide) (Frame.refl _)).stk rfl
@[simp] theorem draw_par (s : State) : (draw s).2.par = s.par := Frame.same (frame_draw (m0 := 1048576) _ (by decide) (Frame.refl _)).par rfl
@[simp] theorem draw_pwr (s : State) : (draw s).2.pwr = s.pwr := Frame.same (frame_draw (m0 := 1048576) _ (by decide) (Frame.refl _)).pwr rfl
@[simp] theorem draw_hxt (s : State) : (draw s).2.hxt = s.hxt := Frame.same (frame_draw (m0 := 1048576) _ (by decide) (Frame.refl _)).hxt rfl
@[simp] theorem draw_trf (s : State) : (draw s).2.trf = s.trf := Frame.same (frame_draw (m0 := 1048576) _ (by decide) (Frame.refl _)).trf rfl
@[simp] theorem draw_err (s : State) : (draw s).2.err = s.err := Frame.same (frame_draw (m0 := 1048576) _ (by decide) (Frame.refl _)).err rfl
@[simp] theorem draw_log (s : State) : (draw s).2.log = s.log := Frame.same (frame_draw (m0 := 1048576) _ (by decide) (Frame.refl _)).log rfl
@[simp] theorem draw_dir (s : State) : (draw s).2.dir = s.dir := Frame.same (frame_draw (m0 := 1048576) _ (by decide) (Frame.refl _)).dir rfl
@[simp] theorem draw_chain (s : State) : (draw s).2.chain = s.chain := Frame.same (frame_draw (m0 := 1048576) _ (by decide) (Frame.refl _)).chain rfl
@[simp] theorem draw_fab (s : State) : (draw s).2.fab = s.fab := Frame.same (frame_draw (m0 := 1048576) _ (by decide) (Frame.refl _)).fab rfl
@[simp] theorem draw_cmp (s : State) : (draw s).2.cmp = s.cmp := Frame.same (frame_draw (m0 := 1048576) _ (by decide) (Frame.refl _)).cmp rfl
@[simp] theorem draw_path (s : State) : (draw s).2.path = s.path := Frame.same (frame_draw (m0 := 1048576) _ (by decide) (Frame.refl _)).path rfl
@[simp] theorem draw_flash (s : State) : (draw s).2.flash = s.flash := Frame.same (frame_draw (m0 := 1048576) _ (by decide) (Frame.refl _)).flash rfl
@[simp] theorem draw_sec (s : State) : (draw s).2.sec = s.sec := Frame.same (frame_draw (m0 := 1048576) _ (by decide) (Frame.refl _)).sec rfl
@[simp] theorem draw_pins (s : State) : (draw s).2.pins = s.pins := Frame.same (frame_draw (m0 := 1048576) _ (by decide) (Frame.refl _)).pins rfl
@[simp] theorem dirPut_pending (obj : Nat) (v : DVal) (s : State) : (dirPut obj v s).pending = s.pending := (frame_dirPut (m0 := 4096) _ _ _ (by decide) (Frame.refl _)).pending
@[simp] theorem dirPut_clk (obj : Nat) (v : DVal) (s : State) : (dirPut obj v s).clk = s.clk := Frame.same (frame_dirPut (m0 := 4096) _ _ _ (by decide) (Frame.refl _)).clk rfl
@[simp] theorem dirPut_phase (obj : Nat) (v : DVal) (s : State) : (dirPut obj v s).phase = s.phase := Frame.same (frame_dirPut (m0 := 4096) _ _ _ (by decide) (Frame.refl _)).phase rfl
@[simp] theorem dirPut_mem (obj : Nat) (v : DVal) (s : State) : (dirPut obj v s).mem = s.mem := Frame.same (frame_dirPut (m0 := 4096) _ _ _ (by decide) (Frame.refl _)).mem rfl
@[simp] theorem dirPut_sea (obj : Nat) (v : DVal) (s : State) : (dirPut obj v s).sea = s.sea := Frame.same (frame_dirPut (m0 := 4096) _ _ _ (by decide) (Frame.refl _)).sea rfl
@[simp] theorem dirPut_stk (obj : Nat) (v : DVal) (s : State) : (dirPut obj v s).stk = s.stk := Frame.same (frame_dirPut (m0 := 4096) _ _ _ (by decide) (Frame.refl _)).stk rfl
@[simp] theorem dirPut_par (obj : Nat) (v : DVal) (s : State) : (dirPut obj v s).par = s.par := Frame.same (frame_dirPut (m0 := 4096) _ _ _ (by decide) (Frame.refl _)).par rfl
@[simp] theorem dirPut_pwr (obj : Nat) (v : DVal) (s : State) : (dirPut obj v s).pwr = s.pwr := Frame.same (frame_dirPut (m0 := 4096) _ _ _ (by decide) (Frame.refl _)).pwr rfl
@[simp] theorem dirPut_hxt (obj : Nat) (v : DVal) (s : State) : (dirPut obj v s).hxt = s.hxt := Frame.same (frame_dirPut (m0 := 4096) _ _ _ (by decide) (Frame.refl _)).hxt rfl
@[simp] theorem dirPut_trf (obj : Nat) (v : DVal) (s : State) : (dirPut obj v s).trf = s.trf := Frame.same (frame_dirPut (m0 := 4096) _ _ _ (by decide) (Frame.refl _)).trf rfl
@[simp] theorem dirPut_err (obj : Nat) (v : DVal) (s : State) : (dirPut obj v s).err = s.err := Frame.same (frame_dirPut (m0 := 4096) _ _ _ (by decide) (Frame.refl _)).err rfl
@[simp] theorem dirPut_log (obj : Nat) (v : DVal) (s : State) : (dirPut obj v s).log = s.log := Frame.same (frame_dirPut (m0 := 4096) _ _ _ (by decide) (Frame.refl _)).log rfl
@[simp] theorem dirPut_chain (obj : Nat) (v : DVal) (s : State) : (dirPut obj v s).chain = s.chain := Frame.same (frame_dirPut (m0 := 4096) _ _ _ (by decide) (Frame.refl _)).chain rfl
@[simp] theorem dirPut_fab (obj : Nat) (v : DVal) (s : State) : (dirPut obj v s).fab = s.fab := Frame.same (frame_dirPut (m0 := 4096) _ _ _ (by decide) (Frame.refl _)).fab rfl
@[simp] theorem dirPut_cmp (obj : Nat) (v : DVal) (s : State) : (dirPut obj v s).cmp = s.cmp := Frame.same (frame_dirPut (m0 := 4096) _ _ _ (by decide) (Frame.refl _)).cmp rfl
@[simp] theorem dirPut_path (obj : Nat) (v : DVal) (s : State) : (dirPut obj v s).path = s.path := Frame.same (frame_dirPut (m0 := 4096) _ _ _ (by decide) (Frame.refl _)).path rfl
@[simp] theorem dirPut_flash (obj : Nat) (v : DVal) (s : State) : (dirPut obj v s).flash = s.flash := Frame.same (frame_dirPut (m0 := 4096) _ _ _ (by decide) (Frame.refl _)).flash rfl
@[simp] theorem dirPut_sec (obj : Nat) (v : DVal) (s : State) : (dirPut obj v s).sec = s.sec := Frame.same (frame_dirPut (m0 := 4096) _ _ _ (by decide) (Frame.refl _)).sec rfl
@[simp] theorem dirPut_pins (obj : Nat) (v : DVal) (s : State) : (dirPut obj v s).pins = s.pins := Frame.same (frame_dirPut (m0 := 4096) _ _ _ (by decide) (Frame.refl _)).pins rfl
@[simp] theorem dirPut_free (obj : Nat) (v : DVal) (s : State) : (dirPut obj v s).free = s.free := Frame.same (frame_dirPut (m0 := 4096) _ _ _ (by decide) (Frame.refl _)).free rfl
@[simp] theorem dirSet_pending (obj : Nat) (n : Nat) (s : State) : (dirSet obj n s).pending = s.pending := (frame_dirSet (m0 := 4096) _ _ _ (by decide) (Frame.refl _)).pending
@[simp] theorem dirSet_clk (obj : Nat) (n : Nat) (s : State) : (dirSet obj n s).clk = s.clk := Frame.same (frame_dirSet (m0 := 4096) _ _ _ (by decide) (Frame.refl _)).clk rfl
@[simp] theorem dirSet_phase (obj : Nat) (n : Nat) (s : State) : (dirSet obj n s).phase = s.phase := Frame.same (frame_dirSet (m0 := 4096) _ _ _ (by decide) (Frame.refl _)).phase rfl
@[simp] theorem dirSet_mem (obj : Nat) (n : Nat) (s : State) : (dirSet obj n s).mem = s.mem := Frame.same (frame_dirSet (m0 := 4096) _ _ _ (by decide) (Frame.refl _)).mem rfl
@[simp] theorem dirSet_sea (obj : Nat) (n : Nat) (s : State) : (dirSet obj n s).sea = s.sea := Frame.same (frame_dirSet (m0 := 4096) _ _ _ (by decide) (Frame.refl _)).sea rfl
@[simp] theorem dirSet_stk (obj : Nat) (n : Nat) (s : State) : (dirSet obj n s).stk = s.stk := Frame.same (frame_dirSet (m0 := 4096) _ _ _ (by decide) (Frame.refl _)).stk rfl
@[simp] theorem dirSet_par (obj : Nat) (n : Nat) (s : State) : (dirSet obj n s).par = s.par := Frame.same (frame_dirSet (m0 := 4096) _ _ _ (by decide) (Frame.refl _)).par rfl
@[simp] theorem dirSet_pwr (obj : Nat) (n : Nat) (s : State) : (dirSet obj n s).pwr = s.pwr := Frame.same (frame_dirSet (m0 := 4096) _ _ _ (by decide) (Frame.refl _)).pwr rfl
@[simp] theorem dirSet_hxt (obj : Nat) (n : Nat) (s : State) : (dirSet obj n s).hxt = s.hxt := Frame.same (frame_dirSet (m0 := 4096) _ _ _ (by decide) (Frame.refl _)).hxt rfl
@[simp] theorem dirSet_trf (obj : Nat) (n : Nat) (s : State) : (dirSet obj n s).trf = s.trf := Frame.same (frame_dirSet (m0 := 4096) _ _ _ (by decide) (Frame.refl _)).trf rfl
@[simp] theorem dirSet_err (obj : Nat) (n : Nat) (s : State) : (dirSet obj n s).err = s.err := Frame.same (frame_dirSet (m0 := 4096) _ _ _ (by decide) (Frame.refl _)).err rfl
@[simp] theorem dirSet_log (obj : Nat) (n : Nat) (s : State) : (dirSet obj n s).log = s.log := Frame.same (frame_dirSet (m0 := 4096) _ _ _ (by decide) (Frame.refl _)).log rfl
@[simp] theorem dirSet_chain (obj : Nat) (n : Nat) (s : State) : (dirSet obj n s).chain = s.chain := Frame.same (frame_dirSet (m0 := 4096) _ _ _ (by decide) (Frame.refl _)).chain rfl
@[simp] theorem dirSet_fab (obj : Nat) (n : Nat) (s : State) : (dirSet obj n s).fab = s.fab := Frame.same (frame_dirSet (m0 := 4096) _ _ _ (by decide) (Frame.refl _)).fab rfl
@[simp] theorem dirSet_cmp (obj : Nat) (n : Nat) (s : State) : (dirSet obj n s).cmp = s.cmp := Frame.same (frame_dirSet (m0 := 4096) _ _ _ (by decide) (Frame.refl _)).cmp rfl
@[simp] theorem dirSet_path (obj : Nat) (n : Nat) (s : State) : (dirSet obj n s).path = s.path := Frame.same (frame_dirSet (m0 := 4096) _ _ _ (by decide) (Frame.refl _)).path rfl
@[simp] theorem dirSet_flash (obj : Nat) (n : Nat) (s : State) : (dirSet obj n s).flash = s.flash := Frame.same (frame_dirSet (m0 := 4096) _ _ _ (by decide) (Frame.refl _)).flash rfl
@[simp] theorem dirSet_sec (obj : Nat) (n : Nat) (s : State) : (dirSet obj n s).sec = s.sec := Frame.same (frame_dirSet (m0 := 4096) _ _ _ (by decide) (Frame.refl _)).sec rfl
@[simp] theorem dirSet_pins (obj : Nat) (n : Nat) (s : State) : (dirSet obj n s).pins = s.pins := Frame.same (frame_dirSet (m0 := 4096) _ _ _ (by decide) (Frame.refl _)).pins rfl
@[simp] theorem dirSet_free (obj : Nat) (n : Nat) (s : State) : (dirSet obj n s).free = s.free := Frame.same (frame_dirSet (m0 := 4096) _ _ _ (by decide) (Frame.refl _)).free rfl
@[simp] theorem bumpBy_pending (obj : Nat) (n : Nat) (s : State) : (bumpBy obj n s).pending = s.pending := (frame_bumpBy (m0 := 4096) _ _ _ (by decide) (Frame.refl _)).pending
@[simp] theorem bumpBy_clk (obj : Nat) (n : Nat) (s : State) : (bumpBy obj n s).clk = s.clk := Frame.same (frame_bumpBy (m0 := 4096) _ _ _ (by decide) (Frame.refl _)).clk rfl
@[simp] theorem bumpBy_phase (obj : Nat) (n : Nat) (s : State) : (bumpBy obj n s).phase = s.phase := Frame.same (frame_bumpBy (m0 := 4096) _ _ _ (by decide) (Frame.refl _)).phase rfl
@[simp] theorem bumpBy_mem (obj : Nat) (n : Nat) (s : State) : (bumpBy obj n s).mem = s.mem := Frame.same (frame_bumpBy (m0 := 4096) _ _ _ (by decide) (Frame.refl _)).mem rfl
@[simp] theorem bumpBy_sea (obj : Nat) (n : Nat) (s : State) : (bumpBy obj n s).sea = s.sea := Frame.same (frame_bumpBy (m0 := 4096) _ _ _ (by decide) (Frame.refl _)).sea rfl
@[simp] theorem bumpBy_stk (obj : Nat) (n : Nat) (s : State) : (bumpBy obj n s).stk = s.stk := Frame.same (frame_bumpBy (m0 := 4096) _ _ _ (by decide) (Frame.refl _)).stk rfl
@[simp] theorem bumpBy_par (obj : Nat) (n : Nat) (s : State) : (bumpBy obj n s).par = s.par := Frame.same (frame_bumpBy (m0 := 4096) _ _ _ (by decide) (Frame.refl _)).par rfl
@[simp] theorem bumpBy_pwr (obj : Nat) (n : Nat) (s : State) : (bumpBy obj n s).pwr = s.pwr := Frame.same (frame_bumpBy (m0 := 4096) _ _ _ (by decide) (Frame.refl _)).pwr rfl
@[simp] theorem bumpBy_hxt (obj : Nat) (n : Nat) (s : State) : (bumpBy obj n s).hxt = s.hxt := Frame.same (frame_bumpBy (m0 := 4096) _ _ _ (by decide) (Frame.refl _)).hxt rfl
@[simp] theorem bumpBy_trf (obj : Nat) (n : Nat) (s : State) : (bumpBy obj n s).trf = s.trf := Frame.same (frame_bumpBy (m0 := 4096) _ _ _ (by decide) (Frame.refl _)).trf rfl
@[simp] theorem bumpBy_err (obj : Nat) (n : Nat) (s : State) : (bumpBy obj n s).err = s.err := Frame.same (frame_bumpBy (m0 := 4096) _ _ _ (by decide) (Frame.refl _)).err rfl
@[simp] theorem bumpBy_log (obj : Nat) (n : Nat) (s : State) : (bumpBy obj n s).log = s.log := Frame.same (frame_bumpBy (m0 := 4096) _ _ _ (by decide) (Frame.refl _)).log rfl
@[simp] theorem bumpBy_chain (obj : Nat) (n : Nat) (s : State) : (bumpBy obj n s).chain = s.chain := Frame.same (frame_bumpBy (m0 := 4096) _ _ _ (by decide) (Frame.refl _)).chain rfl
@[simp] theorem bumpBy_fab (obj : Nat) (n : Nat) (s : State) : (bumpBy obj n s).fab = s.fab := Frame.same (frame_bumpBy (m0 := 4096) _ _ _ (by decide) (Frame.refl _)).fab rfl
@[simp] theorem bumpBy_cmp (obj : Nat) (n : Nat) (s : State) : (bumpBy obj n s).cmp = s.cmp := Frame.same (frame_bumpBy (m0 := 4096) _ _ _ (by decide) (Frame.refl _)).cmp rfl
@[simp] theorem bumpBy_path (obj : Nat) (n : Nat) (s : State) : (bumpBy obj n s).path = s.path := Frame.same (frame_bumpBy (m0 := 4096) _ _ _ (by decide) (Frame.refl _)).path rfl
@[simp] theorem bumpBy_flash (obj : Nat) (n : Nat) (s : State) : (bumpBy obj n s).flash = s.flash := Frame.same (frame_bumpBy (m0 := 4096) _ _ _ (by decide) (Frame.refl _)).flash rfl
@[simp] theorem bumpBy_sec (obj : Nat) (n : Nat) (s : State) : (bumpBy obj n s).sec = s.sec := Frame.same (frame_bumpBy (m0 := 4096) _ _ _ (by decide) (Frame.refl _)).sec rfl
@[simp] theorem bumpBy_pins (obj : Nat) (n : Nat) (s : State) : (bumpBy obj n s).pins = s.pins := Frame.same (frame_bumpBy (m0 := 4096) _ _ _ (by decide) (Frame.refl _)).pins rfl
@[simp] theorem bumpBy_free (obj : Nat) (n : Nat) (s : State) : (bumpBy obj n s).free = s.free := Frame.same (frame_bumpBy (m0 := 4096) _ _ _ (by decide) (Frame.refl _)).free rfl
@[simp] theorem bump_pending (obj : Nat) (s : State) : (bump obj s).pending = s.pending := (frame_bump (m0 := 4096) _ _ (by decide) (Frame.refl _)).pending
@[simp] theorem bump_clk (obj : Nat) (s : State) : (bump obj s).clk = s.clk := Frame.same (frame_bump (m0 := 4096) _ _ (by decide) (Frame.refl _)).clk rfl
@[simp] theorem bump_phase (obj : Nat) (s : State) : (bump obj s).phase = s.phase := Frame.same (frame_bump (m0 := 4096) _ _ (by decide) (Frame.refl _)).phase rfl
@[simp] theorem bump_mem (obj : Nat) (s : State) : (bump obj s).mem = s.mem := Frame.same (frame_bump (m0 := 4096) _ _ (by decide) (Frame.refl _)).mem rfl
@[simp] theorem bump_sea (obj : Nat) (s : State) : (bump obj s).sea = s.sea := Frame.same (frame_bump (m0 := 4096) _ _ (by decide) (Frame.refl _)).sea rfl
@[simp] theorem bump_stk (obj : Nat) (s : State) : (bump obj s).stk = s.stk := Frame.same (frame_bump (m0 := 4096) _ _ (by decide) (Frame.refl _)).stk rfl
@[simp] theorem bump_par (obj : Nat) (s : State) : (bump obj s).par = s.par := Frame.same (frame_bump (m0 := 4096) _ _ (by decide) (Frame.refl _)).par rfl
@[simp] theorem bump_pwr (obj : Nat) (s : State) : (bump obj s).pwr = s.pwr := Frame.same (frame_bump (m0 := 4096) _ _ (by decide) (Frame.refl _)).pwr rfl
@[simp] theorem bump_hxt (obj : Nat) (s : State) : (bump obj s).hxt = s.hxt := Frame.same (frame_bump (m0 := 4096) _ _ (by decide) (Frame.refl _)).hxt rfl
@[simp] theorem bump_trf (obj : Nat) (s : State) : (bump obj s).trf = s.trf := Frame.same (frame_bump (m0 := 4096) _ _ (by decide) (Frame.refl _)).trf rfl
@[simp] theorem bump_err (obj : Nat) (s : State) : (bump obj s).err = s.err := Frame.same (frame_bump (m0 := 4096) _ _ (by decide) (Frame.refl _)).err rfl
@[simp] theorem bump_log (obj : Nat) (s : State) : (bump obj s).log = s.log := Frame.same (frame_bump (m0 := 4096) _ _ (by decide) (Frame.refl _)).log rfl
@[simp] theorem bump_chain (obj : Nat) (s : State) : (bump obj s).chain = s.chain := Frame.same (frame_bump (m0 := 4096) _ _ (by decide) (Frame.refl _)).chain rfl
@[simp] theorem bump_fab (obj : Nat) (s : State) : (bump obj s).fab = s.fab := Frame.same (frame_bump (m0 := 4096) _ _ (by decide) (Frame.refl _)).fab rfl
@[simp] theorem bump_cmp (obj : Nat) (s : State) : (bump obj s).cmp = s.cmp := Frame.same (frame_bump (m0 := 4096) _ _ (by decide) (Frame.refl _)).cmp rfl
@[simp] theorem bump_path (obj : Nat) (s : State) : (bump obj s).path = s.path := Frame.same (frame_bump (m0 := 4096) _ _ (by decide) (Frame.refl _)).path rfl
@[simp] theorem bump_flash (obj : Nat) (s : State) : (bump obj s).flash = s.flash := Frame.same (frame_bump (m0 := 4096) _ _ (by decide) (Frame.refl _)).flash rfl
@[simp] theorem bump_sec (obj : Nat) (s : State) : (bump obj s).sec = s.sec := Frame.same (frame_bump (m0 := 4096) _ _ (by decide) (Frame.refl _)).sec rfl
@[simp] theorem bump_pins (obj : Nat) (s : State) : (bump obj s).pins = s.pins := Frame.same (frame_bump (m0 := 4096) _ _ (by decide) (Frame.refl _)).pins rfl
@[simp] theorem bump_free (obj : Nat) (s : State) : (bump obj s).free = s.free := Frame.same (frame_bump (m0 := 4096) _ _ (by decide) (Frame.refl _)).free rfl
@[simp] theorem onDieLog_pending (d : Nat) (f : DieLog → DieLog) (s : State) : (onDieLog d f s).pending = s.pending := (frame_onDieLog (m0 := 2048) _ _ _ (by decide) (Frame.refl _)).pending
@[simp] theorem onDieLog_clk (d : Nat) (f : DieLog → DieLog) (s : State) : (onDieLog d f s).clk = s.clk := Frame.same (frame_onDieLog (m0 := 2048) _ _ _ (by decide) (Frame.refl _)).clk rfl
@[simp] theorem onDieLog_phase (d : Nat) (f : DieLog → DieLog) (s : State) : (onDieLog d f s).phase = s.phase := Frame.same (frame_onDieLog (m0 := 2048) _ _ _ (by decide) (Frame.refl _)).phase rfl
@[simp] theorem onDieLog_mem (d : Nat) (f : DieLog → DieLog) (s : State) : (onDieLog d f s).mem = s.mem := Frame.same (frame_onDieLog (m0 := 2048) _ _ _ (by decide) (Frame.refl _)).mem rfl
@[simp] theorem onDieLog_sea (d : Nat) (f : DieLog → DieLog) (s : State) : (onDieLog d f s).sea = s.sea := Frame.same (frame_onDieLog (m0 := 2048) _ _ _ (by decide) (Frame.refl _)).sea rfl
@[simp] theorem onDieLog_stk (d : Nat) (f : DieLog → DieLog) (s : State) : (onDieLog d f s).stk = s.stk := Frame.same (frame_onDieLog (m0 := 2048) _ _ _ (by decide) (Frame.refl _)).stk rfl
@[simp] theorem onDieLog_par (d : Nat) (f : DieLog → DieLog) (s : State) : (onDieLog d f s).par = s.par := Frame.same (frame_onDieLog (m0 := 2048) _ _ _ (by decide) (Frame.refl _)).par rfl
@[simp] theorem onDieLog_pwr (d : Nat) (f : DieLog → DieLog) (s : State) : (onDieLog d f s).pwr = s.pwr := Frame.same (frame_onDieLog (m0 := 2048) _ _ _ (by decide) (Frame.refl _)).pwr rfl
@[simp] theorem onDieLog_hxt (d : Nat) (f : DieLog → DieLog) (s : State) : (onDieLog d f s).hxt = s.hxt := Frame.same (frame_onDieLog (m0 := 2048) _ _ _ (by decide) (Frame.refl _)).hxt rfl
@[simp] theorem onDieLog_trf (d : Nat) (f : DieLog → DieLog) (s : State) : (onDieLog d f s).trf = s.trf := Frame.same (frame_onDieLog (m0 := 2048) _ _ _ (by decide) (Frame.refl _)).trf rfl
@[simp] theorem onDieLog_err (d : Nat) (f : DieLog → DieLog) (s : State) : (onDieLog d f s).err = s.err := Frame.same (frame_onDieLog (m0 := 2048) _ _ _ (by decide) (Frame.refl _)).err rfl
@[simp] theorem onDieLog_dir (d : Nat) (f : DieLog → DieLog) (s : State) : (onDieLog d f s).dir = s.dir := Frame.same (frame_onDieLog (m0 := 2048) _ _ _ (by decide) (Frame.refl _)).dir rfl
@[simp] theorem onDieLog_chain (d : Nat) (f : DieLog → DieLog) (s : State) : (onDieLog d f s).chain = s.chain := Frame.same (frame_onDieLog (m0 := 2048) _ _ _ (by decide) (Frame.refl _)).chain rfl
@[simp] theorem onDieLog_fab (d : Nat) (f : DieLog → DieLog) (s : State) : (onDieLog d f s).fab = s.fab := Frame.same (frame_onDieLog (m0 := 2048) _ _ _ (by decide) (Frame.refl _)).fab rfl
@[simp] theorem onDieLog_cmp (d : Nat) (f : DieLog → DieLog) (s : State) : (onDieLog d f s).cmp = s.cmp := Frame.same (frame_onDieLog (m0 := 2048) _ _ _ (by decide) (Frame.refl _)).cmp rfl
@[simp] theorem onDieLog_path (d : Nat) (f : DieLog → DieLog) (s : State) : (onDieLog d f s).path = s.path := Frame.same (frame_onDieLog (m0 := 2048) _ _ _ (by decide) (Frame.refl _)).path rfl
@[simp] theorem onDieLog_flash (d : Nat) (f : DieLog → DieLog) (s : State) : (onDieLog d f s).flash = s.flash := Frame.same (frame_onDieLog (m0 := 2048) _ _ _ (by decide) (Frame.refl _)).flash rfl
@[simp] theorem onDieLog_sec (d : Nat) (f : DieLog → DieLog) (s : State) : (onDieLog d f s).sec = s.sec := Frame.same (frame_onDieLog (m0 := 2048) _ _ _ (by decide) (Frame.refl _)).sec rfl
@[simp] theorem onDieLog_pins (d : Nat) (f : DieLog → DieLog) (s : State) : (onDieLog d f s).pins = s.pins := Frame.same (frame_onDieLog (m0 := 2048) _ _ _ (by decide) (Frame.refl _)).pins rfl
@[simp] theorem onDieLog_free (d : Nat) (f : DieLog → DieLog) (s : State) : (onDieLog d f s).free = s.free := Frame.same (frame_onDieLog (m0 := 2048) _ _ _ (by decide) (Frame.refl _)).free rfl
@[simp] theorem logError_pending (e : ErrIn) (s : State) : (logError e s).pending = s.pending := (frame_logError (m0 := 2048) _ _ (by decide) (Frame.refl _)).pending
@[simp] theorem logError_clk (e : ErrIn) (s : State) : (logError e s).clk = s.clk := Frame.same (frame_logError (m0 := 2048) _ _ (by decide) (Frame.refl _)).clk rfl
@[simp] theorem logError_phase (e : ErrIn) (s : State) : (logError e s).phase = s.phase := Frame.same (frame_logError (m0 := 2048) _ _ (by decide) (Frame.refl _)).phase rfl
@[simp] theorem logError_mem (e : ErrIn) (s : State) : (logError e s).mem = s.mem := Frame.same (frame_logError (m0 := 2048) _ _ (by decide) (Frame.refl _)).mem rfl
@[simp] theorem logError_sea (e : ErrIn) (s : State) : (logError e s).sea = s.sea := Frame.same (frame_logError (m0 := 2048) _ _ (by decide) (Frame.refl _)).sea rfl
@[simp] theorem logError_stk (e : ErrIn) (s : State) : (logError e s).stk = s.stk := Frame.same (frame_logError (m0 := 2048) _ _ (by decide) (Frame.refl _)).stk rfl
@[simp] theorem logError_par (e : ErrIn) (s : State) : (logError e s).par = s.par := Frame.same (frame_logError (m0 := 2048) _ _ (by decide) (Frame.refl _)).par rfl
@[simp] theorem logError_pwr (e : ErrIn) (s : State) : (logError e s).pwr = s.pwr := Frame.same (frame_logError (m0 := 2048) _ _ (by decide) (Frame.refl _)).pwr rfl
@[simp] theorem logError_hxt (e : ErrIn) (s : State) : (logError e s).hxt = s.hxt := Frame.same (frame_logError (m0 := 2048) _ _ (by decide) (Frame.refl _)).hxt rfl
@[simp] theorem logError_trf (e : ErrIn) (s : State) : (logError e s).trf = s.trf := Frame.same (frame_logError (m0 := 2048) _ _ (by decide) (Frame.refl _)).trf rfl
@[simp] theorem logError_err (e : ErrIn) (s : State) : (logError e s).err = s.err := Frame.same (frame_logError (m0 := 2048) _ _ (by decide) (Frame.refl _)).err rfl
@[simp] theorem logError_dir (e : ErrIn) (s : State) : (logError e s).dir = s.dir := Frame.same (frame_logError (m0 := 2048) _ _ (by decide) (Frame.refl _)).dir rfl
@[simp] theorem logError_chain (e : ErrIn) (s : State) : (logError e s).chain = s.chain := Frame.same (frame_logError (m0 := 2048) _ _ (by decide) (Frame.refl _)).chain rfl
@[simp] theorem logError_fab (e : ErrIn) (s : State) : (logError e s).fab = s.fab := Frame.same (frame_logError (m0 := 2048) _ _ (by decide) (Frame.refl _)).fab rfl
@[simp] theorem logError_cmp (e : ErrIn) (s : State) : (logError e s).cmp = s.cmp := Frame.same (frame_logError (m0 := 2048) _ _ (by decide) (Frame.refl _)).cmp rfl
@[simp] theorem logError_path (e : ErrIn) (s : State) : (logError e s).path = s.path := Frame.same (frame_logError (m0 := 2048) _ _ (by decide) (Frame.refl _)).path rfl
@[simp] theorem logError_flash (e : ErrIn) (s : State) : (logError e s).flash = s.flash := Frame.same (frame_logError (m0 := 2048) _ _ (by decide) (Frame.refl _)).flash rfl
@[simp] theorem logError_sec (e : ErrIn) (s : State) : (logError e s).sec = s.sec := Frame.same (frame_logError (m0 := 2048) _ _ (by decide) (Frame.refl _)).sec rfl
@[simp] theorem logError_pins (e : ErrIn) (s : State) : (logError e s).pins = s.pins := Frame.same (frame_logError (m0 := 2048) _ _ (by decide) (Frame.refl _)).pins rfl
@[simp] theorem logError_free (e : ErrIn) (s : State) : (logError e s).free = s.free := Frame.same (frame_logError (m0 := 2048) _ _ (by decide) (Frame.refl _)).free rfl
@[simp] theorem chainSend_pending (o : ChainOut) (len : Nat) (s : State) : (chainSend o len s).pending = s.pending := (frame_chainSend (m0 := 12288) _ _ _ (by decide) (Frame.refl _)).pending
@[simp] theorem chainSend_clk (o : ChainOut) (len : Nat) (s : State) : (chainSend o len s).clk = s.clk := Frame.same (frame_chainSend (m0 := 12288) _ _ _ (by decide) (Frame.refl _)).clk rfl
@[simp] theorem chainSend_phase (o : ChainOut) (len : Nat) (s : State) : (chainSend o len s).phase = s.phase := Frame.same (frame_chainSend (m0 := 12288) _ _ _ (by decide) (Frame.refl _)).phase rfl
@[simp] theorem chainSend_mem (o : ChainOut) (len : Nat) (s : State) : (chainSend o len s).mem = s.mem := Frame.same (frame_chainSend (m0 := 12288) _ _ _ (by decide) (Frame.refl _)).mem rfl
@[simp] theorem chainSend_sea (o : ChainOut) (len : Nat) (s : State) : (chainSend o len s).sea = s.sea := Frame.same (frame_chainSend (m0 := 12288) _ _ _ (by decide) (Frame.refl _)).sea rfl
@[simp] theorem chainSend_stk (o : ChainOut) (len : Nat) (s : State) : (chainSend o len s).stk = s.stk := Frame.same (frame_chainSend (m0 := 12288) _ _ _ (by decide) (Frame.refl _)).stk rfl
@[simp] theorem chainSend_par (o : ChainOut) (len : Nat) (s : State) : (chainSend o len s).par = s.par := Frame.same (frame_chainSend (m0 := 12288) _ _ _ (by decide) (Frame.refl _)).par rfl
@[simp] theorem chainSend_pwr (o : ChainOut) (len : Nat) (s : State) : (chainSend o len s).pwr = s.pwr := Frame.same (frame_chainSend (m0 := 12288) _ _ _ (by decide) (Frame.refl _)).pwr rfl
@[simp] theorem chainSend_hxt (o : ChainOut) (len : Nat) (s : State) : (chainSend o len s).hxt = s.hxt := Frame.same (frame_chainSend (m0 := 12288) _ _ _ (by decide) (Frame.refl _)).hxt rfl
@[simp] theorem chainSend_trf (o : ChainOut) (len : Nat) (s : State) : (chainSend o len s).trf = s.trf := Frame.same (frame_chainSend (m0 := 12288) _ _ _ (by decide) (Frame.refl _)).trf rfl
@[simp] theorem chainSend_err (o : ChainOut) (len : Nat) (s : State) : (chainSend o len s).err = s.err := Frame.same (frame_chainSend (m0 := 12288) _ _ _ (by decide) (Frame.refl _)).err rfl
@[simp] theorem chainSend_log (o : ChainOut) (len : Nat) (s : State) : (chainSend o len s).log = s.log := Frame.same (frame_chainSend (m0 := 12288) _ _ _ (by decide) (Frame.refl _)).log rfl
@[simp] theorem chainSend_fab (o : ChainOut) (len : Nat) (s : State) : (chainSend o len s).fab = s.fab := Frame.same (frame_chainSend (m0 := 12288) _ _ _ (by decide) (Frame.refl _)).fab rfl
@[simp] theorem chainSend_cmp (o : ChainOut) (len : Nat) (s : State) : (chainSend o len s).cmp = s.cmp := Frame.same (frame_chainSend (m0 := 12288) _ _ _ (by decide) (Frame.refl _)).cmp rfl
@[simp] theorem chainSend_path (o : ChainOut) (len : Nat) (s : State) : (chainSend o len s).path = s.path := Frame.same (frame_chainSend (m0 := 12288) _ _ _ (by decide) (Frame.refl _)).path rfl
@[simp] theorem chainSend_flash (o : ChainOut) (len : Nat) (s : State) : (chainSend o len s).flash = s.flash := Frame.same (frame_chainSend (m0 := 12288) _ _ _ (by decide) (Frame.refl _)).flash rfl
@[simp] theorem chainSend_sec (o : ChainOut) (len : Nat) (s : State) : (chainSend o len s).sec = s.sec := Frame.same (frame_chainSend (m0 := 12288) _ _ _ (by decide) (Frame.refl _)).sec rfl
@[simp] theorem chainSend_pins (o : ChainOut) (len : Nat) (s : State) : (chainSend o len s).pins = s.pins := Frame.same (frame_chainSend (m0 := 12288) _ _ _ (by decide) (Frame.refl _)).pins rfl
@[simp] theorem chainSend_free (o : ChainOut) (len : Nat) (s : State) : (chainSend o len s).free = s.free := Frame.same (frame_chainSend (m0 := 12288) _ _ _ (by decide) (Frame.refl _)).free rfl
@[simp] theorem sendAlert_pending (seq : Nat) (b : Bytes) (s : State) : (sendAlert seq b s).pending = s.pending := (frame_sendAlert (m0 := 12288) _ _ _ (by decide) (Frame.refl _)).pending
@[simp] theorem sendAlert_clk (seq : Nat) (b : Bytes) (s : State) : (sendAlert seq b s).clk = s.clk := Frame.same (frame_sendAlert (m0 := 12288) _ _ _ (by decide) (Frame.refl _)).clk rfl
@[simp] theorem sendAlert_phase (seq : Nat) (b : Bytes) (s : State) : (sendAlert seq b s).phase = s.phase := Frame.same (frame_sendAlert (m0 := 12288) _ _ _ (by decide) (Frame.refl _)).phase rfl
@[simp] theorem sendAlert_mem (seq : Nat) (b : Bytes) (s : State) : (sendAlert seq b s).mem = s.mem := Frame.same (frame_sendAlert (m0 := 12288) _ _ _ (by decide) (Frame.refl _)).mem rfl
@[simp] theorem sendAlert_sea (seq : Nat) (b : Bytes) (s : State) : (sendAlert seq b s).sea = s.sea := Frame.same (frame_sendAlert (m0 := 12288) _ _ _ (by decide) (Frame.refl _)).sea rfl
@[simp] theorem sendAlert_stk (seq : Nat) (b : Bytes) (s : State) : (sendAlert seq b s).stk = s.stk := Frame.same (frame_sendAlert (m0 := 12288) _ _ _ (by decide) (Frame.refl _)).stk rfl
@[simp] theorem sendAlert_par (seq : Nat) (b : Bytes) (s : State) : (sendAlert seq b s).par = s.par := Frame.same (frame_sendAlert (m0 := 12288) _ _ _ (by decide) (Frame.refl _)).par rfl
@[simp] theorem sendAlert_pwr (seq : Nat) (b : Bytes) (s : State) : (sendAlert seq b s).pwr = s.pwr := Frame.same (frame_sendAlert (m0 := 12288) _ _ _ (by decide) (Frame.refl _)).pwr rfl
@[simp] theorem sendAlert_hxt (seq : Nat) (b : Bytes) (s : State) : (sendAlert seq b s).hxt = s.hxt := Frame.same (frame_sendAlert (m0 := 12288) _ _ _ (by decide) (Frame.refl _)).hxt rfl
@[simp] theorem sendAlert_trf (seq : Nat) (b : Bytes) (s : State) : (sendAlert seq b s).trf = s.trf := Frame.same (frame_sendAlert (m0 := 12288) _ _ _ (by decide) (Frame.refl _)).trf rfl
@[simp] theorem sendAlert_err (seq : Nat) (b : Bytes) (s : State) : (sendAlert seq b s).err = s.err := Frame.same (frame_sendAlert (m0 := 12288) _ _ _ (by decide) (Frame.refl _)).err rfl
@[simp] theorem sendAlert_log (seq : Nat) (b : Bytes) (s : State) : (sendAlert seq b s).log = s.log := Frame.same (frame_sendAlert (m0 := 12288) _ _ _ (by decide) (Frame.refl _)).log rfl
@[simp] theorem sendAlert_fab (seq : Nat) (b : Bytes) (s : State) : (sendAlert seq b s).fab = s.fab := Frame.same (frame_sendAlert (m0 := 12288) _ _ _ (by decide) (Frame.refl _)).fab rfl
@[simp] theorem sendAlert_cmp (seq : Nat) (b : Bytes) (s : State) : (sendAlert seq b s).cmp = s.cmp := Frame.same (frame_sendAlert (m0 := 12288) _ _ _ (by decide) (Frame.refl _)).cmp rfl
@[simp] theorem sendAlert_path (seq : Nat) (b : Bytes) (s : State) : (sendAlert seq b s).path = s.path := Frame.same (frame_sendAlert (m0 := 12288) _ _ _ (by decide) (Frame.refl _)).path rfl
@[simp] theorem sendAlert_flash (seq : Nat) (b : Bytes) (s : State) : (sendAlert seq b s).flash = s.flash := Frame.same (frame_sendAlert (m0 := 12288) _ _ _ (by decide) (Frame.refl _)).flash rfl
@[simp] theorem sendAlert_sec (seq : Nat) (b : Bytes) (s : State) : (sendAlert seq b s).sec = s.sec := Frame.same (frame_sendAlert (m0 := 12288) _ _ _ (by decide) (Frame.refl _)).sec rfl
@[simp] theorem sendAlert_pins (seq : Nat) (b : Bytes) (s : State) : (sendAlert seq b s).pins = s.pins := Frame.same (frame_sendAlert (m0 := 12288) _ _ _ (by decide) (Frame.refl _)).pins rfl
@[simp] theorem sendAlert_free (seq : Nat) (b : Bytes) (s : State) : (sendAlert seq b s).free = s.free := Frame.same (frame_sendAlert (m0 := 12288) _ _ _ (by decide) (Frame.refl _)).free rfl
@[simp] theorem raise_pending (e : ErrIn) (s : State) : (raise e s).pending = s.pending := (frame_raise (m0 := 15360) _ _ (by decide) (Frame.refl _)).pending
@[simp] theorem raise_clk (e : ErrIn) (s : State) : (raise e s).clk = s.clk := Frame.same (frame_raise (m0 := 15360) _ _ (by decide) (Frame.refl _)).clk rfl
@[simp] theorem raise_phase (e : ErrIn) (s : State) : (raise e s).phase = s.phase := Frame.same (frame_raise (m0 := 15360) _ _ (by decide) (Frame.refl _)).phase rfl
@[simp] theorem raise_mem (e : ErrIn) (s : State) : (raise e s).mem = s.mem := Frame.same (frame_raise (m0 := 15360) _ _ (by decide) (Frame.refl _)).mem rfl
@[simp] theorem raise_sea (e : ErrIn) (s : State) : (raise e s).sea = s.sea := Frame.same (frame_raise (m0 := 15360) _ _ (by decide) (Frame.refl _)).sea rfl
@[simp] theorem raise_stk (e : ErrIn) (s : State) : (raise e s).stk = s.stk := Frame.same (frame_raise (m0 := 15360) _ _ (by decide) (Frame.refl _)).stk rfl
@[simp] theorem raise_par (e : ErrIn) (s : State) : (raise e s).par = s.par := Frame.same (frame_raise (m0 := 15360) _ _ (by decide) (Frame.refl _)).par rfl
@[simp] theorem raise_pwr (e : ErrIn) (s : State) : (raise e s).pwr = s.pwr := Frame.same (frame_raise (m0 := 15360) _ _ (by decide) (Frame.refl _)).pwr rfl
@[simp] theorem raise_hxt (e : ErrIn) (s : State) : (raise e s).hxt = s.hxt := Frame.same (frame_raise (m0 := 15360) _ _ (by decide) (Frame.refl _)).hxt rfl
@[simp] theorem raise_trf (e : ErrIn) (s : State) : (raise e s).trf = s.trf := Frame.same (frame_raise (m0 := 15360) _ _ (by decide) (Frame.refl _)).trf rfl
@[simp] theorem raise_fab (e : ErrIn) (s : State) : (raise e s).fab = s.fab := Frame.same (frame_raise (m0 := 15360) _ _ (by decide) (Frame.refl _)).fab rfl
@[simp] theorem raise_cmp (e : ErrIn) (s : State) : (raise e s).cmp = s.cmp := Frame.same (frame_raise (m0 := 15360) _ _ (by decide) (Frame.refl _)).cmp rfl
@[simp] theorem raise_path (e : ErrIn) (s : State) : (raise e s).path = s.path := Frame.same (frame_raise (m0 := 15360) _ _ (by decide) (Frame.refl _)).path rfl
@[simp] theorem raise_flash (e : ErrIn) (s : State) : (raise e s).flash = s.flash := Frame.same (frame_raise (m0 := 15360) _ _ (by decide) (Frame.refl _)).flash rfl
@[simp] theorem raise_sec (e : ErrIn) (s : State) : (raise e s).sec = s.sec := Frame.same (frame_raise (m0 := 15360) _ _ (by decide) (Frame.refl _)).sec rfl
@[simp] theorem raise_pins (e : ErrIn) (s : State) : (raise e s).pins = s.pins := Frame.same (frame_raise (m0 := 15360) _ _ (by decide) (Frame.refl _)).pins rfl
@[simp] theorem raise_free (e : ErrIn) (s : State) : (raise e s).free = s.free := Frame.same (frame_raise (m0 := 15360) _ _ (by decide) (Frame.refl _)).free rfl
@[simp] theorem memWrite_pending (a : Nat) (b : Bytes) (s : State) : (memWrite a b s).pending = s.pending := (frame_memWrite (m0 := 8) _ _ _ (by decide) (Frame.refl _)).pending
@[simp] theorem memWrite_clk (a : Nat) (b : Bytes) (s : State) : (memWrite a b s).clk = s.clk := Frame.same (frame_memWrite (m0 := 8) _ _ _ (by decide) (Frame.refl _)).clk rfl
@[simp] theorem memWrite_phase (a : Nat) (b : Bytes) (s : State) : (memWrite a b s).phase = s.phase := Frame.same (frame_memWrite (m0 := 8) _ _ _ (by decide) (Frame.refl _)).phase rfl
@[simp] theorem memWrite_sea (a : Nat) (b : Bytes) (s : State) : (memWrite a b s).sea = s.sea := Frame.same (frame_memWrite (m0 := 8) _ _ _ (by decide) (Frame.refl _)).sea rfl
@[simp] theorem memWrite_stk (a : Nat) (b : Bytes) (s : State) : (memWrite a b s).stk = s.stk := Frame.same (frame_memWrite (m0 := 8) _ _ _ (by decide) (Frame.refl _)).stk rfl
@[simp] theorem memWrite_par (a : Nat) (b : Bytes) (s : State) : (memWrite a b s).par = s.par := Frame.same (frame_memWrite (m0 := 8) _ _ _ (by decide) (Frame.refl _)).par rfl
@[simp] theorem memWrite_pwr (a : Nat) (b : Bytes) (s : State) : (memWrite a b s).pwr = s.pwr := Frame.same (frame_memWrite (m0 := 8) _ _ _ (by decide) (Frame.refl _)).pwr rfl
@[simp] theorem memWrite_hxt (a : Nat) (b : Bytes) (s : State) : (memWrite a b s).hxt = s.hxt := Frame.same (frame_memWrite (m0 := 8) _ _ _ (by decide) (Frame.refl _)).hxt rfl
@[simp] theorem memWrite_trf (a : Nat) (b : Bytes) (s : State) : (memWrite a b s).trf = s.trf := Frame.same (frame_memWrite (m0 := 8) _ _ _ (by decide) (Frame.refl _)).trf rfl
@[simp] theorem memWrite_err (a : Nat) (b : Bytes) (s : State) : (memWrite a b s).err = s.err := Frame.same (frame_memWrite (m0 := 8) _ _ _ (by decide) (Frame.refl _)).err rfl
@[simp] theorem memWrite_log (a : Nat) (b : Bytes) (s : State) : (memWrite a b s).log = s.log := Frame.same (frame_memWrite (m0 := 8) _ _ _ (by decide) (Frame.refl _)).log rfl
@[simp] theorem memWrite_dir (a : Nat) (b : Bytes) (s : State) : (memWrite a b s).dir = s.dir := Frame.same (frame_memWrite (m0 := 8) _ _ _ (by decide) (Frame.refl _)).dir rfl
@[simp] theorem memWrite_chain (a : Nat) (b : Bytes) (s : State) : (memWrite a b s).chain = s.chain := Frame.same (frame_memWrite (m0 := 8) _ _ _ (by decide) (Frame.refl _)).chain rfl
@[simp] theorem memWrite_fab (a : Nat) (b : Bytes) (s : State) : (memWrite a b s).fab = s.fab := Frame.same (frame_memWrite (m0 := 8) _ _ _ (by decide) (Frame.refl _)).fab rfl
@[simp] theorem memWrite_cmp (a : Nat) (b : Bytes) (s : State) : (memWrite a b s).cmp = s.cmp := Frame.same (frame_memWrite (m0 := 8) _ _ _ (by decide) (Frame.refl _)).cmp rfl
@[simp] theorem memWrite_path (a : Nat) (b : Bytes) (s : State) : (memWrite a b s).path = s.path := Frame.same (frame_memWrite (m0 := 8) _ _ _ (by decide) (Frame.refl _)).path rfl
@[simp] theorem memWrite_flash (a : Nat) (b : Bytes) (s : State) : (memWrite a b s).flash = s.flash := Frame.same (frame_memWrite (m0 := 8) _ _ _ (by decide) (Frame.refl _)).flash rfl
@[simp] theorem memWrite_sec (a : Nat) (b : Bytes) (s : State) : (memWrite a b s).sec = s.sec := Frame.same (frame_memWrite (m0 := 8) _ _ _ (by decide) (Frame.refl _)).sec rfl
@[simp] theorem memWrite_pins (a : Nat) (b : Bytes) (s : State) : (memWrite a b s).pins = s.pins := Frame.same (frame_memWrite (m0 := 8) _ _ _ (by decide) (Frame.refl _)).pins rfl
@[simp] theorem memWrite_free (a : Nat) (b : Bytes) (s : State) : (memWrite a b s).free = s.free := Frame.same (frame_memWrite (m0 := 8) _ _ _ (by decide) (Frame.refl _)).free rfl
@[simp] theorem freshCheck_pending (a : Nat) (n : Nat) (s : State) : (freshCheck a n s).pending = s.pending := (frame_freshCheck (m0 := 8) _ _ _ (by decide) (Frame.refl _)).pending
@[simp] theorem freshCheck_clk (a : Nat) (n : Nat) (s : State) : (freshCheck a n s).clk = s.clk := Frame.same (frame_freshCheck (m0 := 8) _ _ _ (by decide) (Frame.refl _)).clk rfl
@[simp] theorem freshCheck_phase (a : Nat) (n : Nat) (s : State) : (freshCheck a n s).phase = s.phase := Frame.same (frame_freshCheck (m0 := 8) _ _ _ (by decide) (Frame.refl _)).phase rfl
@[simp] theorem freshCheck_sea (a : Nat) (n : Nat) (s : State) : (freshCheck a n s).sea = s.sea := Frame.same (frame_freshCheck (m0 := 8) _ _ _ (by decide) (Frame.refl _)).sea rfl
@[simp] theorem freshCheck_stk (a : Nat) (n : Nat) (s : State) : (freshCheck a n s).stk = s.stk := Frame.same (frame_freshCheck (m0 := 8) _ _ _ (by decide) (Frame.refl _)).stk rfl
@[simp] theorem freshCheck_par (a : Nat) (n : Nat) (s : State) : (freshCheck a n s).par = s.par := Frame.same (frame_freshCheck (m0 := 8) _ _ _ (by decide) (Frame.refl _)).par rfl
@[simp] theorem freshCheck_pwr (a : Nat) (n : Nat) (s : State) : (freshCheck a n s).pwr = s.pwr := Frame.same (frame_freshCheck (m0 := 8) _ _ _ (by decide) (Frame.refl _)).pwr rfl
@[simp] theorem freshCheck_hxt (a : Nat) (n : Nat) (s : State) : (freshCheck a n s).hxt = s.hxt := Frame.same (frame_freshCheck (m0 := 8) _ _ _ (by decide) (Frame.refl _)).hxt rfl
@[simp] theorem freshCheck_trf (a : Nat) (n : Nat) (s : State) : (freshCheck a n s).trf = s.trf := Frame.same (frame_freshCheck (m0 := 8) _ _ _ (by decide) (Frame.refl _)).trf rfl
@[simp] theorem freshCheck_err (a : Nat) (n : Nat) (s : State) : (freshCheck a n s).err = s.err := Frame.same (frame_freshCheck (m0 := 8) _ _ _ (by decide) (Frame.refl _)).err rfl
@[simp] theorem freshCheck_log (a : Nat) (n : Nat) (s : State) : (freshCheck a n s).log = s.log := Frame.same (frame_freshCheck (m0 := 8) _ _ _ (by decide) (Frame.refl _)).log rfl
@[simp] theorem freshCheck_dir (a : Nat) (n : Nat) (s : State) : (freshCheck a n s).dir = s.dir := Frame.same (frame_freshCheck (m0 := 8) _ _ _ (by decide) (Frame.refl _)).dir rfl
@[simp] theorem freshCheck_chain (a : Nat) (n : Nat) (s : State) : (freshCheck a n s).chain = s.chain := Frame.same (frame_freshCheck (m0 := 8) _ _ _ (by decide) (Frame.refl _)).chain rfl
@[simp] theorem freshCheck_fab (a : Nat) (n : Nat) (s : State) : (freshCheck a n s).fab = s.fab := Frame.same (frame_freshCheck (m0 := 8) _ _ _ (by decide) (Frame.refl _)).fab rfl
@[simp] theorem freshCheck_cmp (a : Nat) (n : Nat) (s : State) : (freshCheck a n s).cmp = s.cmp := Frame.same (frame_freshCheck (m0 := 8) _ _ _ (by decide) (Frame.refl _)).cmp rfl
@[simp] theorem freshCheck_path (a : Nat) (n : Nat) (s : State) : (freshCheck a n s).path = s.path := Frame.same (frame_freshCheck (m0 := 8) _ _ _ (by decide) (Frame.refl _)).path rfl
@[simp] theorem freshCheck_flash (a : Nat) (n : Nat) (s : State) : (freshCheck a n s).flash = s.flash := Frame.same (frame_freshCheck (m0 := 8) _ _ _ (by decide) (Frame.refl _)).flash rfl
@[simp] theorem freshCheck_sec (a : Nat) (n : Nat) (s : State) : (freshCheck a n s).sec = s.sec := Frame.same (frame_freshCheck (m0 := 8) _ _ _ (by decide) (Frame.refl _)).sec rfl
@[simp] theorem freshCheck_pins (a : Nat) (n : Nat) (s : State) : (freshCheck a n s).pins = s.pins := Frame.same (frame_freshCheck (m0 := 8) _ _ _ (by decide) (Frame.refl _)).pins rfl
@[simp] theorem freshCheck_free (a : Nat) (n : Nat) (s : State) : (freshCheck a n s).free = s.free := Frame.same (frame_freshCheck (m0 := 8) _ _ _ (by decide) (Frame.refl _)).free rfl
@[simp] theorem setUnsealed_pending (row : Nat) (u : Bool) (s : State) : (setUnsealed row u s).pending = s.pending := (frame_setUnsealed (m0 := 8) _ _ _ (by decide) (Frame.refl _)).pending
@[simp] theorem setUnsealed_clk (row : Nat) (u : Bool) (s : State) : (setUnsealed row u s).clk = s.clk := Frame.same (frame_setUnsealed (m0 := 8) _ _ _ (by decide) (Frame.refl _)).clk rfl
@[simp] theorem setUnsealed_phase (row : Nat) (u : Bool) (s : State) : (setUnsealed row u s).phase = s.phase := Frame.same (frame_setUnsealed (m0 := 8) _ _ _ (by decide) (Frame.refl _)).phase rfl
@[simp] theorem setUnsealed_sea (row : Nat) (u : Bool) (s : State) : (setUnsealed row u s).sea = s.sea := Frame.same (frame_setUnsealed (m0 := 8) _ _ _ (by decide) (Frame.refl _)).sea rfl
@[simp] theorem setUnsealed_stk (row : Nat) (u : Bool) (s : State) : (setUnsealed row u s).stk = s.stk := Frame.same (frame_setUnsealed (m0 := 8) _ _ _ (by decide) (Frame.refl _)).stk rfl
@[simp] theorem setUnsealed_par (row : Nat) (u : Bool) (s : State) : (setUnsealed row u s).par = s.par := Frame.same (frame_setUnsealed (m0 := 8) _ _ _ (by decide) (Frame.refl _)).par rfl
@[simp] theorem setUnsealed_pwr (row : Nat) (u : Bool) (s : State) : (setUnsealed row u s).pwr = s.pwr := Frame.same (frame_setUnsealed (m0 := 8) _ _ _ (by decide) (Frame.refl _)).pwr rfl
@[simp] theorem setUnsealed_hxt (row : Nat) (u : Bool) (s : State) : (setUnsealed row u s).hxt = s.hxt := Frame.same (frame_setUnsealed (m0 := 8) _ _ _ (by decide) (Frame.refl _)).hxt rfl
@[simp] theorem setUnsealed_trf (row : Nat) (u : Bool) (s : State) : (setUnsealed row u s).trf = s.trf := Frame.same (frame_setUnsealed (m0 := 8) _ _ _ (by decide) (Frame.refl _)).trf rfl
@[simp] theorem setUnsealed_err (row : Nat) (u : Bool) (s : State) : (setUnsealed row u s).err = s.err := Frame.same (frame_setUnsealed (m0 := 8) _ _ _ (by decide) (Frame.refl _)).err rfl
@[simp] theorem setUnsealed_log (row : Nat) (u : Bool) (s : State) : (setUnsealed row u s).log = s.log := Frame.same (frame_setUnsealed (m0 := 8) _ _ _ (by decide) (Frame.refl _)).log rfl
@[simp] theorem setUnsealed_dir (row : Nat) (u : Bool) (s : State) : (setUnsealed row u s).dir = s.dir := Frame.same (frame_setUnsealed (m0 := 8) _ _ _ (by decide) (Frame.refl _)).dir rfl
@[simp] theorem setUnsealed_chain (row : Nat) (u : Bool) (s : State) : (setUnsealed row u s).chain = s.chain := Frame.same (frame_setUnsealed (m0 := 8) _ _ _ (by decide) (Frame.refl _)).chain rfl
@[simp] theorem setUnsealed_fab (row : Nat) (u : Bool) (s : State) : (setUnsealed row u s).fab = s.fab := Frame.same (frame_setUnsealed (m0 := 8) _ _ _ (by decide) (Frame.refl _)).fab rfl
@[simp] theorem setUnsealed_cmp (row : Nat) (u : Bool) (s : State) : (setUnsealed row u s).cmp = s.cmp := Frame.same (frame_setUnsealed (m0 := 8) _ _ _ (by decide) (Frame.refl _)).cmp rfl
@[simp] theorem setUnsealed_path (row : Nat) (u : Bool) (s : State) : (setUnsealed row u s).path = s.path := Frame.same (frame_setUnsealed (m0 := 8) _ _ _ (by decide) (Frame.refl _)).path rfl
@[simp] theorem setUnsealed_flash (row : Nat) (u : Bool) (s : State) : (setUnsealed row u s).flash = s.flash := Frame.same (frame_setUnsealed (m0 := 8) _ _ _ (by decide) (Frame.refl _)).flash rfl
@[simp] theorem setUnsealed_sec (row : Nat) (u : Bool) (s : State) : (setUnsealed row u s).sec = s.sec := Frame.same (frame_setUnsealed (m0 := 8) _ _ _ (by decide) (Frame.refl _)).sec rfl
@[simp] theorem setUnsealed_pins (row : Nat) (u : Bool) (s : State) : (setUnsealed row u s).pins = s.pins := Frame.same (frame_setUnsealed (m0 := 8) _ _ _ (by decide) (Frame.refl _)).pins rfl
@[simp] theorem setUnsealed_free (row : Nat) (u : Bool) (s : State) : (setUnsealed row u s).free = s.free := Frame.same (frame_setUnsealed (m0 := 8) _ _ _ (by decide) (Frame.refl _)).free rfl
@[simp] theorem onSeqr_pending (k : Nat) (f : Seqr → Seqr) (s : State) : (onSeqr k f s).pending = s.pending := (frame_onSeqr (m0 := 32) _ _ _ (by decide) (Frame.refl _)).pending
@[simp] theorem onSeqr_clk (k : Nat) (f : Seqr → Seqr) (s : State) : (onSeqr k f s).clk = s.clk := Frame.same (frame_onSeqr (m0 := 32) _ _ _ (by decide) (Frame.refl _)).clk rfl
@[simp] theorem onSeqr_phase (k : Nat) (f : Seqr → Seqr) (s : State) : (onSeqr k f s).phase = s.phase := Frame.same (frame_onSeqr (m0 := 32) _ _ _ (by decide) (Frame.refl _)).phase rfl
@[simp] theorem onSeqr_mem (k : Nat) (f : Seqr → Seqr) (s : State) : (onSeqr k f s).mem = s.mem := Frame.same (frame_onSeqr (m0 := 32) _ _ _ (by decide) (Frame.refl _)).mem rfl
@[simp] theorem onSeqr_sea (k : Nat) (f : Seqr → Seqr) (s : State) : (onSeqr k f s).sea = s.sea := Frame.same (frame_onSeqr (m0 := 32) _ _ _ (by decide) (Frame.refl _)).sea rfl
@[simp] theorem onSeqr_par (k : Nat) (f : Seqr → Seqr) (s : State) : (onSeqr k f s).par = s.par := Frame.same (frame_onSeqr (m0 := 32) _ _ _ (by decide) (Frame.refl _)).par rfl
@[simp] theorem onSeqr_pwr (k : Nat) (f : Seqr → Seqr) (s : State) : (onSeqr k f s).pwr = s.pwr := Frame.same (frame_onSeqr (m0 := 32) _ _ _ (by decide) (Frame.refl _)).pwr rfl
@[simp] theorem onSeqr_hxt (k : Nat) (f : Seqr → Seqr) (s : State) : (onSeqr k f s).hxt = s.hxt := Frame.same (frame_onSeqr (m0 := 32) _ _ _ (by decide) (Frame.refl _)).hxt rfl
@[simp] theorem onSeqr_trf (k : Nat) (f : Seqr → Seqr) (s : State) : (onSeqr k f s).trf = s.trf := Frame.same (frame_onSeqr (m0 := 32) _ _ _ (by decide) (Frame.refl _)).trf rfl
@[simp] theorem onSeqr_err (k : Nat) (f : Seqr → Seqr) (s : State) : (onSeqr k f s).err = s.err := Frame.same (frame_onSeqr (m0 := 32) _ _ _ (by decide) (Frame.refl _)).err rfl
@[simp] theorem onSeqr_log (k : Nat) (f : Seqr → Seqr) (s : State) : (onSeqr k f s).log = s.log := Frame.same (frame_onSeqr (m0 := 32) _ _ _ (by decide) (Frame.refl _)).log rfl
@[simp] theorem onSeqr_dir (k : Nat) (f : Seqr → Seqr) (s : State) : (onSeqr k f s).dir = s.dir := Frame.same (frame_onSeqr (m0 := 32) _ _ _ (by decide) (Frame.refl _)).dir rfl
@[simp] theorem onSeqr_chain (k : Nat) (f : Seqr → Seqr) (s : State) : (onSeqr k f s).chain = s.chain := Frame.same (frame_onSeqr (m0 := 32) _ _ _ (by decide) (Frame.refl _)).chain rfl
@[simp] theorem onSeqr_fab (k : Nat) (f : Seqr → Seqr) (s : State) : (onSeqr k f s).fab = s.fab := Frame.same (frame_onSeqr (m0 := 32) _ _ _ (by decide) (Frame.refl _)).fab rfl
@[simp] theorem onSeqr_cmp (k : Nat) (f : Seqr → Seqr) (s : State) : (onSeqr k f s).cmp = s.cmp := Frame.same (frame_onSeqr (m0 := 32) _ _ _ (by decide) (Frame.refl _)).cmp rfl
@[simp] theorem onSeqr_path (k : Nat) (f : Seqr → Seqr) (s : State) : (onSeqr k f s).path = s.path := Frame.same (frame_onSeqr (m0 := 32) _ _ _ (by decide) (Frame.refl _)).path rfl
@[simp] theorem onSeqr_flash (k : Nat) (f : Seqr → Seqr) (s : State) : (onSeqr k f s).flash = s.flash := Frame.same (frame_onSeqr (m0 := 32) _ _ _ (by decide) (Frame.refl _)).flash rfl
@[simp] theorem onSeqr_sec (k : Nat) (f : Seqr → Seqr) (s : State) : (onSeqr k f s).sec = s.sec := Frame.same (frame_onSeqr (m0 := 32) _ _ _ (by decide) (Frame.refl _)).sec rfl
@[simp] theorem onSeqr_pins (k : Nat) (f : Seqr → Seqr) (s : State) : (onSeqr k f s).pins = s.pins := Frame.same (frame_onSeqr (m0 := 32) _ _ _ (by decide) (Frame.refl _)).pins rfl
@[simp] theorem onSeqr_free (k : Nat) (f : Seqr → Seqr) (s : State) : (onSeqr k f s).free = s.free := Frame.same (frame_onSeqr (m0 := 32) _ _ _ (by decide) (Frame.refl _)).free rfl
@[simp] theorem touchStack_pending (k : Nat) (s : State) : (touchStack k s).pending = s.pending := (frame_touchStack (m0 := 128) _ _ (by decide) (Frame.refl _)).pending
@[simp] theorem touchStack_clk (k : Nat) (s : State) : (touchStack k s).clk = s.clk := Frame.same (frame_touchStack (m0 := 128) _ _ (by decide) (Frame.refl _)).clk rfl
@[simp] theorem touchStack_phase (k : Nat) (s : State) : (touchStack k s).phase = s.phase := Frame.same (frame_touchStack (m0 := 128) _ _ (by decide) (Frame.refl _)).phase rfl
@[simp] theorem touchStack_mem (k : Nat) (s : State) : (touchStack k s).mem = s.mem := Frame.same (frame_touchStack (m0 := 128) _ _ (by decide) (Frame.refl _)).mem rfl
@[simp] theorem touchStack_sea (k : Nat) (s : State) : (touchStack k s).sea = s.sea := Frame.same (frame_touchStack (m0 := 128) _ _ (by decide) (Frame.refl _)).sea rfl
@[simp] theorem touchStack_stk (k : Nat) (s : State) : (touchStack k s).stk = s.stk := Frame.same (frame_touchStack (m0 := 128) _ _ (by decide) (Frame.refl _)).stk rfl
@[simp] theorem touchStack_par (k : Nat) (s : State) : (touchStack k s).par = s.par := Frame.same (frame_touchStack (m0 := 128) _ _ (by decide) (Frame.refl _)).par rfl
@[simp] theorem touchStack_hxt (k : Nat) (s : State) : (touchStack k s).hxt = s.hxt := Frame.same (frame_touchStack (m0 := 128) _ _ (by decide) (Frame.refl _)).hxt rfl
@[simp] theorem touchStack_trf (k : Nat) (s : State) : (touchStack k s).trf = s.trf := Frame.same (frame_touchStack (m0 := 128) _ _ (by decide) (Frame.refl _)).trf rfl
@[simp] theorem touchStack_err (k : Nat) (s : State) : (touchStack k s).err = s.err := Frame.same (frame_touchStack (m0 := 128) _ _ (by decide) (Frame.refl _)).err rfl
@[simp] theorem touchStack_log (k : Nat) (s : State) : (touchStack k s).log = s.log := Frame.same (frame_touchStack (m0 := 128) _ _ (by decide) (Frame.refl _)).log rfl
@[simp] theorem touchStack_dir (k : Nat) (s : State) : (touchStack k s).dir = s.dir := Frame.same (frame_touchStack (m0 := 128) _ _ (by decide) (Frame.refl _)).dir rfl
@[simp] theorem touchStack_chain (k : Nat) (s : State) : (touchStack k s).chain = s.chain := Frame.same (frame_touchStack (m0 := 128) _ _ (by decide) (Frame.refl _)).chain rfl
@[simp] theorem touchStack_fab (k : Nat) (s : State) : (touchStack k s).fab = s.fab := Frame.same (frame_touchStack (m0 := 128) _ _ (by decide) (Frame.refl _)).fab rfl
@[simp] theorem touchStack_cmp (k : Nat) (s : State) : (touchStack k s).cmp = s.cmp := Frame.same (frame_touchStack (m0 := 128) _ _ (by decide) (Frame.refl _)).cmp rfl
@[simp] theorem touchStack_path (k : Nat) (s : State) : (touchStack k s).path = s.path := Frame.same (frame_touchStack (m0 := 128) _ _ (by decide) (Frame.refl _)).path rfl
@[simp] theorem touchStack_flash (k : Nat) (s : State) : (touchStack k s).flash = s.flash := Frame.same (frame_touchStack (m0 := 128) _ _ (by decide) (Frame.refl _)).flash rfl
@[simp] theorem touchStack_sec (k : Nat) (s : State) : (touchStack k s).sec = s.sec := Frame.same (frame_touchStack (m0 := 128) _ _ (by decide) (Frame.refl _)).sec rfl
@[simp] theorem touchStack_pins (k : Nat) (s : State) : (touchStack k s).pins = s.pins := Frame.same (frame_touchStack (m0 := 128) _ _ (by decide) (Frame.refl _)).pins rfl
@[simp] theorem touchStack_free (k : Nat) (s : State) : (touchStack k s).free = s.free := Frame.same (frame_touchStack (m0 := 128) _ _ (by decide) (Frame.refl _)).free rfl
@[simp] theorem accessStack_pending (a : Nat) (s : State) : (accessStack a s).pending = s.pending := (frame_accessStack (m0 := 4224) _ _ (by decide) (Frame.refl _)).pending
@[simp] theorem accessStack_clk (a : Nat) (s : State) : (accessStack a s).clk = s.clk := Frame.same (frame_accessStack (m0 := 4224) _ _ (by decide) (Frame.refl _)).clk rfl
@[simp] theorem accessStack_phase (a : Nat) (s : State) : (accessStack a s).phase = s.phase := Frame.same (frame_accessStack (m0 := 4224) _ _ (by decide) (Frame.refl _)).phase rfl
@[simp] theorem accessStack_mem (a : Nat) (s : State) : (accessStack a s).mem = s.mem := Frame.same (frame_accessStack (m0 := 4224) _ _ (by decide) (Frame.refl _)).mem rfl
@[simp] theorem accessStack_sea (a : Nat) (s : State) : (accessStack a s).sea = s.sea := Frame.same (frame_accessStack (m0 := 4224) _ _ (by decide) (Frame.refl _)).sea rfl
@[simp] theorem accessStack_stk (a : Nat) (s : State) : (accessStack a s).stk = s.stk := Frame.same (frame_accessStack (m0 := 4224) _ _ (by decide) (Frame.refl _)).stk rfl
@[simp] theorem accessStack_par (a : Nat) (s : State) : (accessStack a s).par = s.par := Frame.same (frame_accessStack (m0 := 4224) _ _ (by decide) (Frame.refl _)).par rfl
@[simp] theorem accessStack_hxt (a : Nat) (s : State) : (accessStack a s).hxt = s.hxt := Frame.same (frame_accessStack (m0 := 4224) _ _ (by decide) (Frame.refl _)).hxt rfl
@[simp] theorem accessStack_trf (a : Nat) (s : State) : (accessStack a s).trf = s.trf := Frame.same (frame_accessStack (m0 := 4224) _ _ (by decide) (Frame.refl _)).trf rfl
@[simp] theorem accessStack_err (a : Nat) (s : State) : (accessStack a s).err = s.err := Frame.same (frame_accessStack (m0 := 4224) _ _ (by decide) (Frame.refl _)).err rfl
@[simp] theorem accessStack_log (a : Nat) (s : State) : (accessStack a s).log = s.log := Frame.same (frame_accessStack (m0 := 4224) _ _ (by decide) (Frame.refl _)).log rfl
@[simp] theorem accessStack_chain (a : Nat) (s : State) : (accessStack a s).chain = s.chain := Frame.same (frame_accessStack (m0 := 4224) _ _ (by decide) (Frame.refl _)).chain rfl
@[simp] theorem accessStack_fab (a : Nat) (s : State) : (accessStack a s).fab = s.fab := Frame.same (frame_accessStack (m0 := 4224) _ _ (by decide) (Frame.refl _)).fab rfl
@[simp] theorem accessStack_cmp (a : Nat) (s : State) : (accessStack a s).cmp = s.cmp := Frame.same (frame_accessStack (m0 := 4224) _ _ (by decide) (Frame.refl _)).cmp rfl
@[simp] theorem accessStack_path (a : Nat) (s : State) : (accessStack a s).path = s.path := Frame.same (frame_accessStack (m0 := 4224) _ _ (by decide) (Frame.refl _)).path rfl
@[simp] theorem accessStack_flash (a : Nat) (s : State) : (accessStack a s).flash = s.flash := Frame.same (frame_accessStack (m0 := 4224) _ _ (by decide) (Frame.refl _)).flash rfl
@[simp] theorem accessStack_sec (a : Nat) (s : State) : (accessStack a s).sec = s.sec := Frame.same (frame_accessStack (m0 := 4224) _ _ (by decide) (Frame.refl _)).sec rfl
@[simp] theorem accessStack_pins (a : Nat) (s : State) : (accessStack a s).pins = s.pins := Frame.same (frame_accessStack (m0 := 4224) _ _ (by decide) (Frame.refl _)).pins rfl
@[simp] theorem accessStack_free (a : Nat) (s : State) : (accessStack a s).free = s.free := Frame.same (frame_accessStack (m0 := 4224) _ _ (by decide) (Frame.refl _)).free rfl
@[simp] theorem demandRead_pending (w : Who) (a : Nat) (n : Nat) (s : State) : (demandRead w a n s).2.pending = s.pending := (frame_demandRead (m0 := 15496) _ _ _ _ (by decide) (Frame.refl _)).pending
@[simp] theorem demandRead_clk (w : Who) (a : Nat) (n : Nat) (s : State) : (demandRead w a n s).2.clk = s.clk := Frame.same (frame_demandRead (m0 := 15496) _ _ _ _ (by decide) (Frame.refl _)).clk rfl
@[simp] theorem demandRead_phase (w : Who) (a : Nat) (n : Nat) (s : State) : (demandRead w a n s).2.phase = s.phase := Frame.same (frame_demandRead (m0 := 15496) _ _ _ _ (by decide) (Frame.refl _)).phase rfl
@[simp] theorem demandRead_sea (w : Who) (a : Nat) (n : Nat) (s : State) : (demandRead w a n s).2.sea = s.sea := Frame.same (frame_demandRead (m0 := 15496) _ _ _ _ (by decide) (Frame.refl _)).sea rfl
@[simp] theorem demandRead_stk (w : Who) (a : Nat) (n : Nat) (s : State) : (demandRead w a n s).2.stk = s.stk := Frame.same (frame_demandRead (m0 := 15496) _ _ _ _ (by decide) (Frame.refl _)).stk rfl
@[simp] theorem demandRead_par (w : Who) (a : Nat) (n : Nat) (s : State) : (demandRead w a n s).2.par = s.par := Frame.same (frame_demandRead (m0 := 15496) _ _ _ _ (by decide) (Frame.refl _)).par rfl
@[simp] theorem demandRead_hxt (w : Who) (a : Nat) (n : Nat) (s : State) : (demandRead w a n s).2.hxt = s.hxt := Frame.same (frame_demandRead (m0 := 15496) _ _ _ _ (by decide) (Frame.refl _)).hxt rfl
@[simp] theorem demandRead_trf (w : Who) (a : Nat) (n : Nat) (s : State) : (demandRead w a n s).2.trf = s.trf := Frame.same (frame_demandRead (m0 := 15496) _ _ _ _ (by decide) (Frame.refl _)).trf rfl
@[simp] theorem demandRead_fab (w : Who) (a : Nat) (n : Nat) (s : State) : (demandRead w a n s).2.fab = s.fab := Frame.same (frame_demandRead (m0 := 15496) _ _ _ _ (by decide) (Frame.refl _)).fab rfl
@[simp] theorem demandRead_cmp (w : Who) (a : Nat) (n : Nat) (s : State) : (demandRead w a n s).2.cmp = s.cmp := Frame.same (frame_demandRead (m0 := 15496) _ _ _ _ (by decide) (Frame.refl _)).cmp rfl
@[simp] theorem demandRead_path (w : Who) (a : Nat) (n : Nat) (s : State) : (demandRead w a n s).2.path = s.path := Frame.same (frame_demandRead (m0 := 15496) _ _ _ _ (by decide) (Frame.refl _)).path rfl
@[simp] theorem demandRead_flash (w : Who) (a : Nat) (n : Nat) (s : State) : (demandRead w a n s).2.flash = s.flash := Frame.same (frame_demandRead (m0 := 15496) _ _ _ _ (by decide) (Frame.refl _)).flash rfl
@[simp] theorem demandRead_sec (w : Who) (a : Nat) (n : Nat) (s : State) : (demandRead w a n s).2.sec = s.sec := Frame.same (frame_demandRead (m0 := 15496) _ _ _ _ (by decide) (Frame.refl _)).sec rfl
@[simp] theorem demandRead_pins (w : Who) (a : Nat) (n : Nat) (s : State) : (demandRead w a n s).2.pins = s.pins := Frame.same (frame_demandRead (m0 := 15496) _ _ _ _ (by decide) (Frame.refl _)).pins rfl
@[simp] theorem demandRead_free (w : Who) (a : Nat) (n : Nat) (s : State) : (demandRead w a n s).2.free = s.free := Frame.same (frame_demandRead (m0 := 15496) _ _ _ _ (by decide) (Frame.refl _)).free rfl
@[simp] theorem demandWrite_pending (w : Who) (atomic : Bool) (a : Nat) (b : Bytes) (s : State) : (demandWrite w atomic a b s).2.pending = s.pending := (frame_demandWrite (m0 := 15496) _ _ _ _ _ (by decide) (Frame.refl _)).pending
@[simp] theorem demandWrite_clk (w : Who) (atomic : Bool) (a : Nat) (b : Bytes) (s : State) : (demandWrite w atomic a b s).2.clk = s.clk := Frame.same (frame_demandWrite (m0 := 15496) _ _ _ _ _ (by decide) (Frame.refl _)).clk rfl
@[simp] theorem demandWrite_phase (w : Who) (atomic : Bool) (a : Nat) (b : Bytes) (s : State) : (demandWrite w atomic a b s).2.phase = s.phase := Frame.same (frame_demandWrite (m0 := 15496) _ _ _ _ _ (by decide) (Frame.refl _)).phase rfl
@[simp] theorem demandWrite_sea (w : Who) (atomic : Bool) (a : Nat) (b : Bytes) (s : State) : (demandWrite w atomic a b s).2.sea = s.sea := Frame.same (frame_demandWrite (m0 := 15496) _ _ _ _ _ (by decide) (Frame.refl _)).sea rfl
@[simp] theorem demandWrite_stk (w : Who) (atomic : Bool) (a : Nat) (b : Bytes) (s : State) : (demandWrite w atomic a b s).2.stk = s.stk := Frame.same (frame_demandWrite (m0 := 15496) _ _ _ _ _ (by decide) (Frame.refl _)).stk rfl
@[simp] theorem demandWrite_par (w : Who) (atomic : Bool) (a : Nat) (b : Bytes) (s : State) : (demandWrite w atomic a b s).2.par = s.par := Frame.same (frame_demandWrite (m0 := 15496) _ _ _ _ _ (by decide) (Frame.refl _)).par rfl
@[simp] theorem demandWrite_hxt (w : Who) (atomic : Bool) (a : Nat) (b : Bytes) (s : State) : (demandWrite w atomic a b s).2.hxt = s.hxt := Frame.same (frame_demandWrite (m0 := 15496) _ _ _ _ _ (by decide) (Frame.refl _)).hxt rfl
@[simp] theorem demandWrite_trf (w : Who) (atomic : Bool) (a : Nat) (b : Bytes) (s : State) : (demandWrite w atomic a b s).2.trf = s.trf := Frame.same (frame_demandWrite (m0 := 15496) _ _ _ _ _ (by decide) (Frame.refl _)).trf rfl
@[simp] theorem demandWrite_fab (w : Who) (atomic : Bool) (a : Nat) (b : Bytes) (s : State) : (demandWrite w atomic a b s).2.fab = s.fab := Frame.same (frame_demandWrite (m0 := 15496) _ _ _ _ _ (by decide) (Frame.refl _)).fab rfl
@[simp] theorem demandWrite_cmp (w : Who) (atomic : Bool) (a : Nat) (b : Bytes) (s : State) : (demandWrite w atomic a b s).2.cmp = s.cmp := Frame.same (frame_demandWrite (m0 := 15496) _ _ _ _ _ (by decide) (Frame.refl _)).cmp rfl
@[simp] theorem demandWrite_path (w : Who) (atomic : Bool) (a : Nat) (b : Bytes) (s : State) : (demandWrite w atomic a b s).2.path = s.path := Frame.same (frame_demandWrite (m0 := 15496) _ _ _ _ _ (by decide) (Frame.refl _)).path rfl
@[simp] theorem demandWrite_flash (w : Who) (atomic : Bool) (a : Nat) (b : Bytes) (s : State) : (demandWrite w atomic a b s).2.flash = s.flash := Frame.same (frame_demandWrite (m0 := 15496) _ _ _ _ _ (by decide) (Frame.refl _)).flash rfl
@[simp] theorem demandWrite_sec (w : Who) (atomic : Bool) (a : Nat) (b : Bytes) (s : State) : (demandWrite w atomic a b s).2.sec = s.sec := Frame.same (frame_demandWrite (m0 := 15496) _ _ _ _ _ (by decide) (Frame.refl _)).sec rfl
@[simp] theorem demandWrite_pins (w : Who) (atomic : Bool) (a : Nat) (b : Bytes) (s : State) : (demandWrite w atomic a b s).2.pins = s.pins := Frame.same (frame_demandWrite (m0 := 15496) _ _ _ _ _ (by decide) (Frame.refl _)).pins rfl
@[simp] theorem demandWrite_free (w : Who) (atomic : Bool) (a : Nat) (b : Bytes) (s : State) : (demandWrite w atomic a b s).2.free = s.free := Frame.same (frame_demandWrite (m0 := 15496) _ _ _ _ _ (by decide) (Frame.refl _)).free rfl
@[simp] theorem writeBack_pending (p : Nat × Nat × Nat) (s : State) : (writeBack p s).pending = s.pending := (frame_writeBack (m0 := 4104) _ _ (by decide) (Frame.refl _)).pending
@[simp] theorem writeBack_clk (p : Nat × Nat × Nat) (s : State) : (writeBack p s).clk = s.clk := Frame.same (frame_writeBack (m0 := 4104) _ _ (by decide) (Frame.refl _)).clk rfl
@[simp] theorem writeBack_phase (p : Nat × Nat × Nat) (s : State) : (writeBack p s).phase = s.phase := Frame.same (frame_writeBack (m0 := 4104) _ _ (by decide) (Frame.refl _)).phase rfl
@[simp] theorem writeBack_sea (p : Nat × Nat × Nat) (s : State) : (writeBack p s).sea = s.sea := Frame.same (frame_writeBack (m0 := 4104) _ _ (by decide) (Frame.refl _)).sea rfl
@[simp] theorem writeBack_stk (p : Nat × Nat × Nat) (s : State) : (writeBack p s).stk = s.stk := Frame.same (frame_writeBack (m0 := 4104) _ _ (by decide) (Frame.refl _)).stk rfl
@[simp] theorem writeBack_par (p : Nat × Nat × Nat) (s : State) : (writeBack p s).par = s.par := Frame.same (frame_writeBack (m0 := 4104) _ _ (by decide) (Frame.refl _)).par rfl
@[simp] theorem writeBack_pwr (p : Nat × Nat × Nat) (s : State) : (writeBack p s).pwr = s.pwr := Frame.same (frame_writeBack (m0 := 4104) _ _ (by decide) (Frame.refl _)).pwr rfl
@[simp] theorem writeBack_hxt (p : Nat × Nat × Nat) (s : State) : (writeBack p s).hxt = s.hxt := Frame.same (frame_writeBack (m0 := 4104) _ _ (by decide) (Frame.refl _)).hxt rfl
@[simp] theorem writeBack_trf (p : Nat × Nat × Nat) (s : State) : (writeBack p s).trf = s.trf := Frame.same (frame_writeBack (m0 := 4104) _ _ (by decide) (Frame.refl _)).trf rfl
@[simp] theorem writeBack_err (p : Nat × Nat × Nat) (s : State) : (writeBack p s).err = s.err := Frame.same (frame_writeBack (m0 := 4104) _ _ (by decide) (Frame.refl _)).err rfl
@[simp] theorem writeBack_log (p : Nat × Nat × Nat) (s : State) : (writeBack p s).log = s.log := Frame.same (frame_writeBack (m0 := 4104) _ _ (by decide) (Frame.refl _)).log rfl
@[simp] theorem writeBack_chain (p : Nat × Nat × Nat) (s : State) : (writeBack p s).chain = s.chain := Frame.same (frame_writeBack (m0 := 4104) _ _ (by decide) (Frame.refl _)).chain rfl
@[simp] theorem writeBack_fab (p : Nat × Nat × Nat) (s : State) : (writeBack p s).fab = s.fab := Frame.same (frame_writeBack (m0 := 4104) _ _ (by decide) (Frame.refl _)).fab rfl
@[simp] theorem writeBack_cmp (p : Nat × Nat × Nat) (s : State) : (writeBack p s).cmp = s.cmp := Frame.same (frame_writeBack (m0 := 4104) _ _ (by decide) (Frame.refl _)).cmp rfl
@[simp] theorem writeBack_path (p : Nat × Nat × Nat) (s : State) : (writeBack p s).path = s.path := Frame.same (frame_writeBack (m0 := 4104) _ _ (by decide) (Frame.refl _)).path rfl
@[simp] theorem writeBack_flash (p : Nat × Nat × Nat) (s : State) : (writeBack p s).flash = s.flash := Frame.same (frame_writeBack (m0 := 4104) _ _ (by decide) (Frame.refl _)).flash rfl
@[simp] theorem writeBack_sec (p : Nat × Nat × Nat) (s : State) : (writeBack p s).sec = s.sec := Frame.same (frame_writeBack (m0 := 4104) _ _ (by decide) (Frame.refl _)).sec rfl
@[simp] theorem writeBack_pins (p : Nat × Nat × Nat) (s : State) : (writeBack p s).pins = s.pins := Frame.same (frame_writeBack (m0 := 4104) _ _ (by decide) (Frame.refl _)).pins rfl
@[simp] theorem writeBack_free (p : Nat × Nat × Nat) (s : State) : (writeBack p s).free = s.free := Frame.same (frame_writeBack (m0 := 4104) _ _ (by decide) (Frame.refl _)).free rfl
@[simp] theorem onKnocks_pending (engine : Nat) (f : List Letter → List Letter) (s : State) : (onKnocks engine f s).pending = s.pending := (frame_onKnocks (m0 := 96) _ _ _ (by decide) (Frame.refl _)).pending
@[simp] theorem onKnocks_clk (engine : Nat) (f : List Letter → List Letter) (s : State) : (onKnocks engine f s).clk = s.clk := Frame.same (frame_onKnocks (m0 := 96) _ _ _ (by decide) (Frame.refl _)).clk rfl
@[simp] theorem onKnocks_phase (engine : Nat) (f : List Letter → List Letter) (s : State) : (onKnocks engine f s).phase = s.phase := Frame.same (frame_onKnocks (m0 := 96) _ _ _ (by decide) (Frame.refl _)).phase rfl
@[simp] theorem onKnocks_mem (engine : Nat) (f : List Letter → List Letter) (s : State) : (onKnocks engine f s).mem = s.mem := Frame.same (frame_onKnocks (m0 := 96) _ _ _ (by decide) (Frame.refl _)).mem rfl
@[simp] theorem onKnocks_sea (engine : Nat) (f : List Letter → List Letter) (s : State) : (onKnocks engine f s).sea = s.sea := Frame.same (frame_onKnocks (m0 := 96) _ _ _ (by decide) (Frame.refl _)).sea rfl
@[simp] theorem onKnocks_pwr (engine : Nat) (f : List Letter → List Letter) (s : State) : (onKnocks engine f s).pwr = s.pwr := Frame.same (frame_onKnocks (m0 := 96) _ _ _ (by decide) (Frame.refl _)).pwr rfl
@[simp] theorem onKnocks_hxt (engine : Nat) (f : List Letter → List Letter) (s : State) : (onKnocks engine f s).hxt = s.hxt := Frame.same (frame_onKnocks (m0 := 96) _ _ _ (by decide) (Frame.refl _)).hxt rfl
@[simp] theorem onKnocks_trf (engine : Nat) (f : List Letter → List Letter) (s : State) : (onKnocks engine f s).trf = s.trf := Frame.same (frame_onKnocks (m0 := 96) _ _ _ (by decide) (Frame.refl _)).trf rfl
@[simp] theorem onKnocks_err (engine : Nat) (f : List Letter → List Letter) (s : State) : (onKnocks engine f s).err = s.err := Frame.same (frame_onKnocks (m0 := 96) _ _ _ (by decide) (Frame.refl _)).err rfl
@[simp] theorem onKnocks_log (engine : Nat) (f : List Letter → List Letter) (s : State) : (onKnocks engine f s).log = s.log := Frame.same (frame_onKnocks (m0 := 96) _ _ _ (by decide) (Frame.refl _)).log rfl
@[simp] theorem onKnocks_dir (engine : Nat) (f : List Letter → List Letter) (s : State) : (onKnocks engine f s).dir = s.dir := Frame.same (frame_onKnocks (m0 := 96) _ _ _ (by decide) (Frame.refl _)).dir rfl
@[simp] theorem onKnocks_chain (engine : Nat) (f : List Letter → List Letter) (s : State) : (onKnocks engine f s).chain = s.chain := Frame.same (frame_onKnocks (m0 := 96) _ _ _ (by decide) (Frame.refl _)).chain rfl
@[simp] theorem onKnocks_fab (engine : Nat) (f : List Letter → List Letter) (s : State) : (onKnocks engine f s).fab = s.fab := Frame.same (frame_onKnocks (m0 := 96) _ _ _ (by decide) (Frame.refl _)).fab rfl
@[simp] theorem onKnocks_cmp (engine : Nat) (f : List Letter → List Letter) (s : State) : (onKnocks engine f s).cmp = s.cmp := Frame.same (frame_onKnocks (m0 := 96) _ _ _ (by decide) (Frame.refl _)).cmp rfl
@[simp] theorem onKnocks_path (engine : Nat) (f : List Letter → List Letter) (s : State) : (onKnocks engine f s).path = s.path := Frame.same (frame_onKnocks (m0 := 96) _ _ _ (by decide) (Frame.refl _)).path rfl
@[simp] theorem onKnocks_flash (engine : Nat) (f : List Letter → List Letter) (s : State) : (onKnocks engine f s).flash = s.flash := Frame.same (frame_onKnocks (m0 := 96) _ _ _ (by decide) (Frame.refl _)).flash rfl
@[simp] theorem onKnocks_sec (engine : Nat) (f : List Letter → List Letter) (s : State) : (onKnocks engine f s).sec = s.sec := Frame.same (frame_onKnocks (m0 := 96) _ _ _ (by decide) (Frame.refl _)).sec rfl
@[simp] theorem onKnocks_pins (engine : Nat) (f : List Letter → List Letter) (s : State) : (onKnocks engine f s).pins = s.pins := Frame.same (frame_onKnocks (m0 := 96) _ _ _ (by decide) (Frame.refl _)).pins rfl
@[simp] theorem onKnocks_free (engine : Nat) (f : List Letter → List Letter) (s : State) : (onKnocks engine f s).free = s.free := Frame.same (frame_onKnocks (m0 := 96) _ _ _ (by decide) (Frame.refl _)).free rfl
@[simp] theorem sendLetter_pending (l : Letter) (s : State) : (sendLetter l s).pending = s.pending := (frame_sendLetter (m0 := 4224) _ _ (by decide) (Frame.refl _)).pending
@[simp] theorem sendLetter_clk (l : Letter) (s : State) : (sendLetter l s).clk = s.clk := Frame.same (frame_sendLetter (m0 := 4224) _ _ (by decide) (Frame.refl _)).clk rfl
@[simp] theorem sendLetter_phase (l : Letter) (s : State) : (sendLetter l s).phase = s.phase := Frame.same (frame_sendLetter (m0 := 4224) _ _ (by decide) (Frame.refl _)).phase rfl
@[simp] theorem sendLetter_mem (l : Letter) (s : State) : (sendLetter l s).mem = s.mem := Frame.same (frame_sendLetter (m0 := 4224) _ _ (by decide) (Frame.refl _)).mem rfl
@[simp] theorem sendLetter_sea (l : Letter) (s : State) : (sendLetter l s).sea = s.sea := Frame.same (frame_sendLetter (m0 := 4224) _ _ (by decide) (Frame.refl _)).sea rfl
@[simp] theorem sendLetter_stk (l : Letter) (s : State) : (sendLetter l s).stk = s.stk := Frame.same (frame_sendLetter (m0 := 4224) _ _ (by decide) (Frame.refl _)).stk rfl
@[simp] theorem sendLetter_par (l : Letter) (s : State) : (sendLetter l s).par = s.par := Frame.same (frame_sendLetter (m0 := 4224) _ _ (by decide) (Frame.refl _)).par rfl
@[simp] theorem sendLetter_hxt (l : Letter) (s : State) : (sendLetter l s).hxt = s.hxt := Frame.same (frame_sendLetter (m0 := 4224) _ _ (by decide) (Frame.refl _)).hxt rfl
@[simp] theorem sendLetter_trf (l : Letter) (s : State) : (sendLetter l s).trf = s.trf := Frame.same (frame_sendLetter (m0 := 4224) _ _ (by decide) (Frame.refl _)).trf rfl
@[simp] theorem sendLetter_err (l : Letter) (s : State) : (sendLetter l s).err = s.err := Frame.same (frame_sendLetter (m0 := 4224) _ _ (by decide) (Frame.refl _)).err rfl
@[simp] theorem sendLetter_log (l : Letter) (s : State) : (sendLetter l s).log = s.log := Frame.same (frame_sendLetter (m0 := 4224) _ _ (by decide) (Frame.refl _)).log rfl
@[simp] theorem sendLetter_chain (l : Letter) (s : State) : (sendLetter l s).chain = s.chain := Frame.same (frame_sendLetter (m0 := 4224) _ _ (by decide) (Frame.refl _)).chain rfl
@[simp] theorem sendLetter_fab (l : Letter) (s : State) : (sendLetter l s).fab = s.fab := Frame.same (frame_sendLetter (m0 := 4224) _ _ (by decide) (Frame.refl _)).fab rfl
@[simp] theorem sendLetter_cmp (l : Letter) (s : State) : (sendLetter l s).cmp = s.cmp := Frame.same (frame_sendLetter (m0 := 4224) _ _ (by decide) (Frame.refl _)).cmp rfl
@[simp] theorem sendLetter_path (l : Letter) (s : State) : (sendLetter l s).path = s.path := Frame.same (frame_sendLetter (m0 := 4224) _ _ (by decide) (Frame.refl _)).path rfl
@[simp] theorem sendLetter_flash (l : Letter) (s : State) : (sendLetter l s).flash = s.flash := Frame.same (frame_sendLetter (m0 := 4224) _ _ (by decide) (Frame.refl _)).flash rfl
@[simp] theorem sendLetter_sec (l : Letter) (s : State) : (sendLetter l s).sec = s.sec := Frame.same (frame_sendLetter (m0 := 4224) _ _ (by decide) (Frame.refl _)).sec rfl
@[simp] theorem sendLetter_pins (l : Letter) (s : State) : (sendLetter l s).pins = s.pins := Frame.same (frame_sendLetter (m0 := 4224) _ _ (by decide) (Frame.refl _)).pins rfl
@[simp] theorem sendLetter_free (l : Letter) (s : State) : (sendLetter l s).free = s.free := Frame.same (frame_sendLetter (m0 := 4224) _ _ (by decide) (Frame.refl _)).free rfl
@[simp] theorem sendKnock_pending (engine : Nat) (mark : Nat) (dest : Nat) (s : State) : (sendKnock engine mark dest s).pending = s.pending := (frame_sendKnock (m0 := 4320) _ _ _ _ (by decide) (Frame.refl _)).pending
@[simp] theorem sendKnock_clk (engine : Nat) (mark : Nat) (dest : Nat) (s : State) : (sendKnock engine mark dest s).clk = s.clk := Frame.same (frame_sendKnock (m0 := 4320) _ _ _ _ (by decide) (Frame.refl _)).clk rfl
@[simp] theorem sendKnock_phase (engine : Nat) (mark : Nat) (dest : Nat) (s : State) : (sendKnock engine mark dest s).phase = s.phase := Frame.same (frame_sendKnock (m0 := 4320) _ _ _ _ (by decide) (Frame.refl _)).phase rfl
@[simp] theorem sendKnock_mem (engine : Nat) (mark : Nat) (dest : Nat) (s : State) : (sendKnock engine mark dest s).mem = s.mem := Frame.same (frame_sendKnock (m0 := 4320) _ _ _ _ (by decide) (Frame.refl _)).mem rfl
@[simp] theorem sendKnock_sea (engine : Nat) (mark : Nat) (dest : Nat) (s : State) : (sendKnock engine mark dest s).sea = s.sea := Frame.same (frame_sendKnock (m0 := 4320) _ _ _ _ (by decide) (Frame.refl _)).sea rfl
@[simp] theorem sendKnock_hxt (engine : Nat) (mark : Nat) (dest : Nat) (s : State) : (sendKnock engine mark dest s).hxt = s.hxt := Frame.same (frame_sendKnock (m0 := 4320) _ _ _ _ (by decide) (Frame.refl _)).hxt rfl
@[simp] theorem sendKnock_trf (engine : Nat) (mark : Nat) (dest : Nat) (s : State) : (sendKnock engine mark dest s).trf = s.trf := Frame.same (frame_sendKnock (m0 := 4320) _ _ _ _ (by decide) (Frame.refl _)).trf rfl
@[simp] theorem sendKnock_err (engine : Nat) (mark : Nat) (dest : Nat) (s : State) : (sendKnock engine mark dest s).err = s.err := Frame.same (frame_sendKnock (m0 := 4320) _ _ _ _ (by decide) (Frame.refl _)).err rfl
@[simp] theorem sendKnock_log (engine : Nat) (mark : Nat) (dest : Nat) (s : State) : (sendKnock engine mark dest s).log = s.log := Frame.same (frame_sendKnock (m0 := 4320) _ _ _ _ (by decide) (Frame.refl _)).log rfl
@[simp] theorem sendKnock_chain (engine : Nat) (mark : Nat) (dest : Nat) (s : State) : (sendKnock engine mark dest s).chain = s.chain := Frame.same (frame_sendKnock (m0 := 4320) _ _ _ _ (by decide) (Frame.refl _)).chain rfl
@[simp] theorem sendKnock_fab (engine : Nat) (mark : Nat) (dest : Nat) (s : State) : (sendKnock engine mark dest s).fab = s.fab := Frame.same (frame_sendKnock (m0 := 4320) _ _ _ _ (by decide) (Frame.refl _)).fab rfl
@[simp] theorem sendKnock_cmp (engine : Nat) (mark : Nat) (dest : Nat) (s : State) : (sendKnock engine mark dest s).cmp = s.cmp := Frame.same (frame_sendKnock (m0 := 4320) _ _ _ _ (by decide) (Frame.refl _)).cmp rfl
@[simp] theorem sendKnock_path (engine : Nat) (mark : Nat) (dest : Nat) (s : State) : (sendKnock engine mark dest s).path = s.path := Frame.same (frame_sendKnock (m0 := 4320) _ _ _ _ (by decide) (Frame.refl _)).path rfl
@[simp] theorem sendKnock_flash (engine : Nat) (mark : Nat) (dest : Nat) (s : State) : (sendKnock engine mark dest s).flash = s.flash := Frame.same (frame_sendKnock (m0 := 4320) _ _ _ _ (by decide) (Frame.refl _)).flash rfl
@[simp] theorem sendKnock_sec (engine : Nat) (mark : Nat) (dest : Nat) (s : State) : (sendKnock engine mark dest s).sec = s.sec := Frame.same (frame_sendKnock (m0 := 4320) _ _ _ _ (by decide) (Frame.refl _)).sec rfl
@[simp] theorem sendKnock_pins (engine : Nat) (mark : Nat) (dest : Nat) (s : State) : (sendKnock engine mark dest s).pins = s.pins := Frame.same (frame_sendKnock (m0 := 4320) _ _ _ _ (by decide) (Frame.refl _)).pins rfl
@[simp] theorem sendKnock_free (engine : Nat) (mark : Nat) (dest : Nat) (s : State) : (sendKnock engine mark dest s).free = s.free := Frame.same (frame_sendKnock (m0 := 4320) _ _ _ _ (by decide) (Frame.refl _)).free rfl
@[simp] theorem onQueue_pending (n : Nat) (f : List PDesc → List PDesc) (s : State) : (onQueue n f s).pending = s.pending := (frame_onQueue (m0 := 64) _ _ _ (by decide) (Frame.refl _)).pending
@[simp] theorem onQueue_clk (n : Nat) (f : List PDesc → List PDesc) (s : State) : (onQueue n f s).clk = s.clk := Frame.same (frame_onQueue (m0 := 64) _ _ _ (by decide) (Frame.refl _)).clk rfl
@[simp] theorem onQueue_phase (n : Nat) (f : List PDesc → List PDesc) (s : State) : (onQueue n f s).phase = s.phase := Frame.same (frame_onQueue (m0 := 64) _ _ _ (by decide) (Frame.refl _)).phase rfl
@[simp] theorem onQueue_mem (n : Nat) (f : List PDesc → List PDesc) (s : State) : (onQueue n f s).mem = s.mem := Frame.same (frame_onQueue (m0 := 64) _ _ _ (by decide) (Frame.refl _)).mem rfl
@[simp] theorem onQueue_sea (n : Nat) (f : List PDesc → List PDesc) (s : State) : (onQueue n f s).sea = s.sea := Frame.same (frame_onQueue (m0 := 64) _ _ _ (by decide) (Frame.refl _)).sea rfl
@[simp] theorem onQueue_stk (n : Nat) (f : List PDesc → List PDesc) (s : State) : (onQueue n f s).stk = s.stk := Frame.same (frame_onQueue (m0 := 64) _ _ _ (by decide) (Frame.refl _)).stk rfl
@[simp] theorem onQueue_pwr (n : Nat) (f : List PDesc → List PDesc) (s : State) : (onQueue n f s).pwr = s.pwr := Frame.same (frame_onQueue (m0 := 64) _ _ _ (by decide) (Frame.refl _)).pwr rfl
@[simp] theorem onQueue_hxt (n : Nat) (f : List PDesc → List PDesc) (s : State) : (onQueue n f s).hxt = s.hxt := Frame.same (frame_onQueue (m0 := 64) _ _ _ (by decide) (Frame.refl _)).hxt rfl
@[simp] theorem onQueue_trf (n : Nat) (f : List PDesc → List PDesc) (s : State) : (onQueue n f s).trf = s.trf := Frame.same (frame_onQueue (m0 := 64) _ _ _ (by decide) (Frame.refl _)).trf rfl
@[simp] theorem onQueue_err (n : Nat) (f : List PDesc → List PDesc) (s : State) : (onQueue n f s).err = s.err := Frame.same (frame_onQueue (m0 := 64) _ _ _ (by decide) (Frame.refl _)).err rfl
@[simp] theorem onQueue_log (n : Nat) (f : List PDesc → List PDesc) (s : State) : (onQueue n f s).log = s.log := Frame.same (frame_onQueue (m0 := 64) _ _ _ (by decide) (Frame.refl _)).log rfl
@[simp] theorem onQueue_dir (n : Nat) (f : List PDesc → List PDesc) (s : State) : (onQueue n f s).dir = s.dir := Frame.same (frame_onQueue (m0 := 64) _ _ _ (by decide) (Frame.refl _)).dir rfl
@[simp] theorem onQueue_chain (n : Nat) (f : List PDesc → List PDesc) (s : State) : (onQueue n f s).chain = s.chain := Frame.same (frame_onQueue (m0 := 64) _ _ _ (by decide) (Frame.refl _)).chain rfl
@[simp] theorem onQueue_fab (n : Nat) (f : List PDesc → List PDesc) (s : State) : (onQueue n f s).fab = s.fab := Frame.same (frame_onQueue (m0 := 64) _ _ _ (by decide) (Frame.refl _)).fab rfl
@[simp] theorem onQueue_cmp (n : Nat) (f : List PDesc → List PDesc) (s : State) : (onQueue n f s).cmp = s.cmp := Frame.same (frame_onQueue (m0 := 64) _ _ _ (by decide) (Frame.refl _)).cmp rfl
@[simp] theorem onQueue_path (n : Nat) (f : List PDesc → List PDesc) (s : State) : (onQueue n f s).path = s.path := Frame.same (frame_onQueue (m0 := 64) _ _ _ (by decide) (Frame.refl _)).path rfl
@[simp] theorem onQueue_flash (n : Nat) (f : List PDesc → List PDesc) (s : State) : (onQueue n f s).flash = s.flash := Frame.same (frame_onQueue (m0 := 64) _ _ _ (by decide) (Frame.refl _)).flash rfl
@[simp] theorem onQueue_sec (n : Nat) (f : List PDesc → List PDesc) (s : State) : (onQueue n f s).sec = s.sec := Frame.same (frame_onQueue (m0 := 64) _ _ _ (by decide) (Frame.refl _)).sec rfl
@[simp] theorem onQueue_pins (n : Nat) (f : List PDesc → List PDesc) (s : State) : (onQueue n f s).pins = s.pins := Frame.same (frame_onQueue (m0 := 64) _ _ _ (by decide) (Frame.refl _)).pins rfl
@[simp] theorem onQueue_free (n : Nat) (f : List PDesc → List PDesc) (s : State) : (onQueue n f s).free = s.free := Frame.same (frame_onQueue (m0 := 64) _ _ _ (by decide) (Frame.refl _)).free rfl
@[simp] theorem killParcels_pending (p : POwner → Bool) (s : State) : (killParcels p s).pending = s.pending := (frame_killParcels (m0 := 64) _ _ (by decide) (Frame.refl _)).pending
@[simp] theorem killParcels_clk (p : POwner → Bool) (s : State) : (killParcels p s).clk = s.clk := Frame.same (frame_killParcels (m0 := 64) _ _ (by decide) (Frame.refl _)).clk rfl
@[simp] theorem killParcels_phase (p : POwner → Bool) (s : State) : (killParcels p s).phase = s.phase := Frame.same (frame_killParcels (m0 := 64) _ _ (by decide) (Frame.refl _)).phase rfl
@[simp] theorem killParcels_mem (p : POwner → Bool) (s : State) : (killParcels p s).mem = s.mem := Frame.same (frame_killParcels (m0 := 64) _ _ (by decide) (Frame.refl _)).mem rfl
@[simp] theorem killParcels_sea (p : POwner → Bool) (s : State) : (killParcels p s).sea = s.sea := Frame.same (frame_killParcels (m0 := 64) _ _ (by decide) (Frame.refl _)).sea rfl
@[simp] theorem killParcels_stk (p : POwner → Bool) (s : State) : (killParcels p s).stk = s.stk := Frame.same (frame_killParcels (m0 := 64) _ _ (by decide) (Frame.refl _)).stk rfl
@[simp] theorem killParcels_pwr (p : POwner → Bool) (s : State) : (killParcels p s).pwr = s.pwr := Frame.same (frame_killParcels (m0 := 64) _ _ (by decide) (Frame.refl _)).pwr rfl
@[simp] theorem killParcels_hxt (p : POwner → Bool) (s : State) : (killParcels p s).hxt = s.hxt := Frame.same (frame_killParcels (m0 := 64) _ _ (by decide) (Frame.refl _)).hxt rfl
@[simp] theorem killParcels_trf (p : POwner → Bool) (s : State) : (killParcels p s).trf = s.trf := Frame.same (frame_killParcels (m0 := 64) _ _ (by decide) (Frame.refl _)).trf rfl
@[simp] theorem killParcels_err (p : POwner → Bool) (s : State) : (killParcels p s).err = s.err := Frame.same (frame_killParcels (m0 := 64) _ _ (by decide) (Frame.refl _)).err rfl
@[simp] theorem killParcels_log (p : POwner → Bool) (s : State) : (killParcels p s).log = s.log := Frame.same (frame_killParcels (m0 := 64) _ _ (by decide) (Frame.refl _)).log rfl
@[simp] theorem killParcels_dir (p : POwner → Bool) (s : State) : (killParcels p s).dir = s.dir := Frame.same (frame_killParcels (m0 := 64) _ _ (by decide) (Frame.refl _)).dir rfl
@[simp] theorem killParcels_chain (p : POwner → Bool) (s : State) : (killParcels p s).chain = s.chain := Frame.same (frame_killParcels (m0 := 64) _ _ (by decide) (Frame.refl _)).chain rfl
@[simp] theorem killParcels_fab (p : POwner → Bool) (s : State) : (killParcels p s).fab = s.fab := Frame.same (frame_killParcels (m0 := 64) _ _ (by decide) (Frame.refl _)).fab rfl
@[simp] theorem killParcels_cmp (p : POwner → Bool) (s : State) : (killParcels p s).cmp = s.cmp := Frame.same (frame_killParcels (m0 := 64) _ _ (by decide) (Frame.refl _)).cmp rfl
@[simp] theorem killParcels_path (p : POwner → Bool) (s : State) : (killParcels p s).path = s.path := Frame.same (frame_killParcels (m0 := 64) _ _ (by decide) (Frame.refl _)).path rfl
@[simp] theorem killParcels_flash (p : POwner → Bool) (s : State) : (killParcels p s).flash = s.flash := Frame.same (frame_killParcels (m0 := 64) _ _ (by decide) (Frame.refl _)).flash rfl
@[simp] theorem killParcels_sec (p : POwner → Bool) (s : State) : (killParcels p s).sec = s.sec := Frame.same (frame_killParcels (m0 := 64) _ _ (by decide) (Frame.refl _)).sec rfl
@[simp] theorem killParcels_pins (p : POwner → Bool) (s : State) : (killParcels p s).pins = s.pins := Frame.same (frame_killParcels (m0 := 64) _ _ (by decide) (Frame.refl _)).pins rfl
@[simp] theorem killParcels_free (p : POwner → Bool) (s : State) : (killParcels p s).free = s.free := Frame.same (frame_killParcels (m0 := 64) _ _ (by decide) (Frame.refl _)).free rfl
@[simp] theorem completeDesc_pending (n : Nat) (d : PDesc) (status : Nat) (s : State) : (completeDesc n d status s).pending = s.pending := (frame_completeDesc (m0 := 4328) _ _ _ _ (by decide) (Frame.refl _)).pending
@[simp] theorem completeDesc_clk (n : Nat) (d : PDesc) (status : Nat) (s : State) : (completeDesc n d status s).clk = s.clk := Frame.same (frame_completeDesc (m0 := 4328) _ _ _ _ (by decide) (Frame.refl _)).clk rfl
@[simp] theorem completeDesc_phase (n : Nat) (d : PDesc) (status : Nat) (s : State) : (completeDesc n d status s).phase = s.phase := Frame.same (frame_completeDesc (m0 := 4328) _ _ _ _ (by decide) (Frame.refl _)).phase rfl
@[simp] theorem completeDesc_sea (n : Nat) (d : PDesc) (status : Nat) (s : State) : (completeDesc n d status s).sea = s.sea := Frame.same (frame_completeDesc (m0 := 4328) _ _ _ _ (by decide) (Frame.refl _)).sea rfl
@[simp] theorem completeDesc_hxt (n : Nat) (d : PDesc) (status : Nat) (s : State) : (completeDesc n d status s).hxt = s.hxt := Frame.same (frame_completeDesc (m0 := 4328) _ _ _ _ (by decide) (Frame.refl _)).hxt rfl
@[simp] theorem completeDesc_trf (n : Nat) (d : PDesc) (status : Nat) (s : State) : (completeDesc n d status s).trf = s.trf := Frame.same (frame_completeDesc (m0 := 4328) _ _ _ _ (by decide) (Frame.refl _)).trf rfl
@[simp] theorem completeDesc_err (n : Nat) (d : PDesc) (status : Nat) (s : State) : (completeDesc n d status s).err = s.err := Frame.same (frame_completeDesc (m0 := 4328) _ _ _ _ (by decide) (Frame.refl _)).err rfl
@[simp] theorem completeDesc_log (n : Nat) (d : PDesc) (status : Nat) (s : State) : (completeDesc n d status s).log = s.log := Frame.same (frame_completeDesc (m0 := 4328) _ _ _ _ (by decide) (Frame.refl _)).log rfl
@[simp] theorem completeDesc_chain (n : Nat) (d : PDesc) (status : Nat) (s : State) : (completeDesc n d status s).chain = s.chain := Frame.same (frame_completeDesc (m0 := 4328) _ _ _ _ (by decide) (Frame.refl _)).chain rfl
@[simp] theorem completeDesc_fab (n : Nat) (d : PDesc) (status : Nat) (s : State) : (completeDesc n d status s).fab = s.fab := Frame.same (frame_completeDesc (m0 := 4328) _ _ _ _ (by decide) (Frame.refl _)).fab rfl
@[simp] theorem completeDesc_cmp (n : Nat) (d : PDesc) (status : Nat) (s : State) : (completeDesc n d status s).cmp = s.cmp := Frame.same (frame_completeDesc (m0 := 4328) _ _ _ _ (by decide) (Frame.refl _)).cmp rfl
@[simp] theorem completeDesc_path (n : Nat) (d : PDesc) (status : Nat) (s : State) : (completeDesc n d status s).path = s.path := Frame.same (frame_completeDesc (m0 := 4328) _ _ _ _ (by decide) (Frame.refl _)).path rfl
@[simp] theorem completeDesc_flash (n : Nat) (d : PDesc) (status : Nat) (s : State) : (completeDesc n d status s).flash = s.flash := Frame.same (frame_completeDesc (m0 := 4328) _ _ _ _ (by decide) (Frame.refl _)).flash rfl
@[simp] theorem completeDesc_sec (n : Nat) (d : PDesc) (status : Nat) (s : State) : (completeDesc n d status s).sec = s.sec := Frame.same (frame_completeDesc (m0 := 4328) _ _ _ _ (by decide) (Frame.refl _)).sec rfl
@[simp] theorem completeDesc_pins (n : Nat) (d : PDesc) (status : Nat) (s : State) : (completeDesc n d status s).pins = s.pins := Frame.same (frame_completeDesc (m0 := 4328) _ _ _ _ (by decide) (Frame.refl _)).pins rfl
@[simp] theorem completeDesc_free (n : Nat) (d : PDesc) (status : Nat) (s : State) : (completeDesc n d status s).free = s.free := Frame.same (frame_completeDesc (m0 := 4328) _ _ _ _ (by decide) (Frame.refl _)).free rfl
@[simp] theorem onSess_pending (sid : Nat) (f : Sess → Sess) (s : State) : (onSess sid f s).pending = s.pending := (frame_onSess (m0 := 256) _ _ _ (by decide) (Frame.refl _)).pending
@[simp] theorem onSess_clk (sid : Nat) (f : Sess → Sess) (s : State) : (onSess sid f s).clk = s.clk := Frame.same (frame_onSess (m0 := 256) _ _ _ (by decide) (Frame.refl _)).clk rfl
@[simp] theorem onSess_phase (sid : Nat) (f : Sess → Sess) (s : State) : (onSess sid f s).phase = s.phase := Frame.same (frame_onSess (m0 := 256) _ _ _ (by decide) (Frame.refl _)).phase rfl
@[simp] theorem onSess_mem (sid : Nat) (f : Sess → Sess) (s : State) : (onSess sid f s).mem = s.mem := Frame.same (frame_onSess (m0 := 256) _ _ _ (by decide) (Frame.refl _)).mem rfl
@[simp] theorem onSess_sea (sid : Nat) (f : Sess → Sess) (s : State) : (onSess sid f s).sea = s.sea := Frame.same (frame_onSess (m0 := 256) _ _ _ (by decide) (Frame.refl _)).sea rfl
@[simp] theorem onSess_stk (sid : Nat) (f : Sess → Sess) (s : State) : (onSess sid f s).stk = s.stk := Frame.same (frame_onSess (m0 := 256) _ _ _ (by decide) (Frame.refl _)).stk rfl
@[simp] theorem onSess_par (sid : Nat) (f : Sess → Sess) (s : State) : (onSess sid f s).par = s.par := Frame.same (frame_onSess (m0 := 256) _ _ _ (by decide) (Frame.refl _)).par rfl
@[simp] theorem onSess_pwr (sid : Nat) (f : Sess → Sess) (s : State) : (onSess sid f s).pwr = s.pwr := Frame.same (frame_onSess (m0 := 256) _ _ _ (by decide) (Frame.refl _)).pwr rfl
@[simp] theorem onSess_trf (sid : Nat) (f : Sess → Sess) (s : State) : (onSess sid f s).trf = s.trf := Frame.same (frame_onSess (m0 := 256) _ _ _ (by decide) (Frame.refl _)).trf rfl
@[simp] theorem onSess_err (sid : Nat) (f : Sess → Sess) (s : State) : (onSess sid f s).err = s.err := Frame.same (frame_onSess (m0 := 256) _ _ _ (by decide) (Frame.refl _)).err rfl
@[simp] theorem onSess_log (sid : Nat) (f : Sess → Sess) (s : State) : (onSess sid f s).log = s.log := Frame.same (frame_onSess (m0 := 256) _ _ _ (by decide) (Frame.refl _)).log rfl
@[simp] theorem onSess_dir (sid : Nat) (f : Sess → Sess) (s : State) : (onSess sid f s).dir = s.dir := Frame.same (frame_onSess (m0 := 256) _ _ _ (by decide) (Frame.refl _)).dir rfl
@[simp] theorem onSess_chain (sid : Nat) (f : Sess → Sess) (s : State) : (onSess sid f s).chain = s.chain := Frame.same (frame_onSess (m0 := 256) _ _ _ (by decide) (Frame.refl _)).chain rfl
@[simp] theorem onSess_fab (sid : Nat) (f : Sess → Sess) (s : State) : (onSess sid f s).fab = s.fab := Frame.same (frame_onSess (m0 := 256) _ _ _ (by decide) (Frame.refl _)).fab rfl
@[simp] theorem onSess_cmp (sid : Nat) (f : Sess → Sess) (s : State) : (onSess sid f s).cmp = s.cmp := Frame.same (frame_onSess (m0 := 256) _ _ _ (by decide) (Frame.refl _)).cmp rfl
@[simp] theorem onSess_path (sid : Nat) (f : Sess → Sess) (s : State) : (onSess sid f s).path = s.path := Frame.same (frame_onSess (m0 := 256) _ _ _ (by decide) (Frame.refl _)).path rfl
@[simp] theorem onSess_flash (sid : Nat) (f : Sess → Sess) (s : State) : (onSess sid f s).flash = s.flash := Frame.same (frame_onSess (m0 := 256) _ _ _ (by decide) (Frame.refl _)).flash rfl
@[simp] theorem onSess_sec (sid : Nat) (f : Sess → Sess) (s : State) : (onSess sid f s).sec = s.sec := Frame.same (frame_onSess (m0 := 256) _ _ _ (by decide) (Frame.refl _)).sec rfl
@[simp] theorem onSess_pins (sid : Nat) (f : Sess → Sess) (s : State) : (onSess sid f s).pins = s.pins := Frame.same (frame_onSess (m0 := 256) _ _ _ (by decide) (Frame.refl _)).pins rfl
@[simp] theorem onSess_free (sid : Nat) (f : Sess → Sess) (s : State) : (onSess sid f s).free = s.free := Frame.same (frame_onSess (m0 := 256) _ _ _ (by decide) (Frame.refl _)).free rfl
@[simp] theorem putOut_pending (port : Nat) (ctl : Bool) (tenant : Nat) (queue : Nat) (a : Addr) (kind : Nat) (note : Nat) (ps : List Bytes) (s : State) : (putOut port ctl tenant queue a kind note ps s).pending = s.pending := (frame_putOut (m0 := 256) _ _ _ _ _ _ _ _ _ (by decide) (Frame.refl _)).pending
@[simp] theorem putOut_clk (port : Nat) (ctl : Bool) (tenant : Nat) (queue : Nat) (a : Addr) (kind : Nat) (note : Nat) (ps : List Bytes) (s : State) : (putOut port ctl tenant queue a kind note ps s).clk = s.clk := Frame.same (frame_putOut (m0 := 256) _ _ _ _ _ _ _ _ _ (by decide) (Frame.refl _)).clk rfl
@[simp] theorem putOut_phase (port : Nat) (ctl : Bool) (tenant : Nat) (queue : Nat) (a : Addr) (kind : Nat) (note : Nat) (ps : List Bytes) (s : State) : (putOut port ctl tenant queue a kind note ps s).phase = s.phase := Frame.same (frame_putOut (m0 := 256) _ _ _ _ _ _ _ _ _ (by decide) (Frame.refl _)).phase rfl
@[simp] theorem putOut_mem (port : Nat) (ctl : Bool) (tenant : Nat) (queue : Nat) (a : Addr) (kind : Nat) (note : Nat) (ps : List Bytes) (s : State) : (putOut port ctl tenant queue a kind note ps s).mem = s.mem := Frame.same (frame_putOut (m0 := 256) _ _ _ _ _ _ _ _ _ (by decide) (Frame.refl _)).mem rfl
@[simp] theorem putOut_sea (port : Nat) (ctl : Bool) (tenant : Nat) (queue : Nat) (a : Addr) (kind : Nat) (note : Nat) (ps : List Bytes) (s : State) : (putOut port ctl tenant queue a kind note ps s).sea = s.sea := Frame.same (frame_putOut (m0 := 256) _ _ _ _ _ _ _ _ _ (by decide) (Frame.refl _)).sea rfl
@[simp] theorem putOut_stk (port : Nat) (ctl : Bool) (tenant : Nat) (queue : Nat) (a : Addr) (kind : Nat) (note : Nat) (ps : List Bytes) (s : State) : (putOut port ctl tenant queue a kind note ps s).stk = s.stk := Frame.same (frame_putOut (m0 := 256) _ _ _ _ _ _ _ _ _ (by decide) (Frame.refl _)).stk rfl
@[simp] theorem putOut_par (port : Nat) (ctl : Bool) (tenant : Nat) (queue : Nat) (a : Addr) (kind : Nat) (note : Nat) (ps : List Bytes) (s : State) : (putOut port ctl tenant queue a kind note ps s).par = s.par := Frame.same (frame_putOut (m0 := 256) _ _ _ _ _ _ _ _ _ (by decide) (Frame.refl _)).par rfl
@[simp] theorem putOut_pwr (port : Nat) (ctl : Bool) (tenant : Nat) (queue : Nat) (a : Addr) (kind : Nat) (note : Nat) (ps : List Bytes) (s : State) : (putOut port ctl tenant queue a kind note ps s).pwr = s.pwr := Frame.same (frame_putOut (m0 := 256) _ _ _ _ _ _ _ _ _ (by decide) (Frame.refl _)).pwr rfl
@[simp] theorem putOut_trf (port : Nat) (ctl : Bool) (tenant : Nat) (queue : Nat) (a : Addr) (kind : Nat) (note : Nat) (ps : List Bytes) (s : State) : (putOut port ctl tenant queue a kind note ps s).trf = s.trf := Frame.same (frame_putOut (m0 := 256) _ _ _ _ _ _ _ _ _ (by decide) (Frame.refl _)).trf rfl
@[simp] theorem putOut_err (port : Nat) (ctl : Bool) (tenant : Nat) (queue : Nat) (a : Addr) (kind : Nat) (note : Nat) (ps : List Bytes) (s : State) : (putOut port ctl tenant queue a kind note ps s).err = s.err := Frame.same (frame_putOut (m0 := 256) _ _ _ _ _ _ _ _ _ (by decide) (Frame.refl _)).err rfl
@[simp] theorem putOut_log (port : Nat) (ctl : Bool) (tenant : Nat) (queue : Nat) (a : Addr) (kind : Nat) (note : Nat) (ps : List Bytes) (s : State) : (putOut port ctl tenant queue a kind note ps s).log = s.log := Frame.same (frame_putOut (m0 := 256) _ _ _ _ _ _ _ _ _ (by decide) (Frame.refl _)).log rfl
@[simp] theorem putOut_dir (port : Nat) (ctl : Bool) (tenant : Nat) (queue : Nat) (a : Addr) (kind : Nat) (note : Nat) (ps : List Bytes) (s : State) : (putOut port ctl tenant queue a kind note ps s).dir = s.dir := Frame.same (frame_putOut (m0 := 256) _ _ _ _ _ _ _ _ _ (by decide) (Frame.refl _)).dir rfl
@[simp] theorem putOut_chain (port : Nat) (ctl : Bool) (tenant : Nat) (queue : Nat) (a : Addr) (kind : Nat) (note : Nat) (ps : List Bytes) (s : State) : (putOut port ctl tenant queue a kind note ps s).chain = s.chain := Frame.same (frame_putOut (m0 := 256) _ _ _ _ _ _ _ _ _ (by decide) (Frame.refl _)).chain rfl
@[simp] theorem putOut_fab (port : Nat) (ctl : Bool) (tenant : Nat) (queue : Nat) (a : Addr) (kind : Nat) (note : Nat) (ps : List Bytes) (s : State) : (putOut port ctl tenant queue a kind note ps s).fab = s.fab := Frame.same (frame_putOut (m0 := 256) _ _ _ _ _ _ _ _ _ (by decide) (Frame.refl _)).fab rfl
@[simp] theorem putOut_cmp (port : Nat) (ctl : Bool) (tenant : Nat) (queue : Nat) (a : Addr) (kind : Nat) (note : Nat) (ps : List Bytes) (s : State) : (putOut port ctl tenant queue a kind note ps s).cmp = s.cmp := Frame.same (frame_putOut (m0 := 256) _ _ _ _ _ _ _ _ _ (by decide) (Frame.refl _)).cmp rfl
@[simp] theorem putOut_path (port : Nat) (ctl : Bool) (tenant : Nat) (queue : Nat) (a : Addr) (kind : Nat) (note : Nat) (ps : List Bytes) (s : State) : (putOut port ctl tenant queue a kind note ps s).path = s.path := Frame.same (frame_putOut (m0 := 256) _ _ _ _ _ _ _ _ _ (by decide) (Frame.refl _)).path rfl
@[simp] theorem putOut_flash (port : Nat) (ctl : Bool) (tenant : Nat) (queue : Nat) (a : Addr) (kind : Nat) (note : Nat) (ps : List Bytes) (s : State) : (putOut port ctl tenant queue a kind note ps s).flash = s.flash := Frame.same (frame_putOut (m0 := 256) _ _ _ _ _ _ _ _ _ (by decide) (Frame.refl _)).flash rfl
@[simp] theorem putOut_sec (port : Nat) (ctl : Bool) (tenant : Nat) (queue : Nat) (a : Addr) (kind : Nat) (note : Nat) (ps : List Bytes) (s : State) : (putOut port ctl tenant queue a kind note ps s).sec = s.sec := Frame.same (frame_putOut (m0 := 256) _ _ _ _ _ _ _ _ _ (by decide) (Frame.refl _)).sec rfl
@[simp] theorem putOut_pins (port : Nat) (ctl : Bool) (tenant : Nat) (queue : Nat) (a : Addr) (kind : Nat) (note : Nat) (ps : List Bytes) (s : State) : (putOut port ctl tenant queue a kind note ps s).pins = s.pins := Frame.same (frame_putOut (m0 := 256) _ _ _ _ _ _ _ _ _ (by decide) (Frame.refl _)).pins rfl
@[simp] theorem putOut_free (port : Nat) (ctl : Bool) (tenant : Nat) (queue : Nat) (a : Addr) (kind : Nat) (note : Nat) (ps : List Bytes) (s : State) : (putOut port ctl tenant queue a kind note ps s).free = s.free := Frame.same (frame_putOut (m0 := 256) _ _ _ _ _ _ _ _ _ (by decide) (Frame.refl _)).free rfl
@[simp] theorem onNotes_pending (t : Nat) (f : Notes → Notes) (s : State) : (onNotes t f s).pending = s.pending := (frame_onNotes (m0 := 256) _ _ _ (by decide) (Frame.refl _)).pending
@[simp] theorem onNotes_clk (t : Nat) (f : Notes → Notes) (s : State) : (onNotes t f s).clk = s.clk := Frame.same (frame_onNotes (m0 := 256) _ _ _ (by decide) (Frame.refl _)).clk rfl
@[simp] theorem onNotes_phase (t : Nat) (f : Notes → Notes) (s : State) : (onNotes t f s).phase = s.phase := Frame.same (frame_onNotes (m0 := 256) _ _ _ (by decide) (Frame.refl _)).phase rfl
@[simp] theorem onNotes_mem (t : Nat) (f : Notes → Notes) (s : State) : (onNotes t f s).mem = s.mem := Frame.same (frame_onNotes (m0 := 256) _ _ _ (by decide) (Frame.refl _)).mem rfl
@[simp] theorem onNotes_sea (t : Nat) (f : Notes → Notes) (s : State) : (onNotes t f s).sea = s.sea := Frame.same (frame_onNotes (m0 := 256) _ _ _ (by decide) (Frame.refl _)).sea rfl
@[simp] theorem onNotes_stk (t : Nat) (f : Notes → Notes) (s : State) : (onNotes t f s).stk = s.stk := Frame.same (frame_onNotes (m0 := 256) _ _ _ (by decide) (Frame.refl _)).stk rfl
@[simp] theorem onNotes_par (t : Nat) (f : Notes → Notes) (s : State) : (onNotes t f s).par = s.par := Frame.same (frame_onNotes (m0 := 256) _ _ _ (by decide) (Frame.refl _)).par rfl
@[simp] theorem onNotes_pwr (t : Nat) (f : Notes → Notes) (s : State) : (onNotes t f s).pwr = s.pwr := Frame.same (frame_onNotes (m0 := 256) _ _ _ (by decide) (Frame.refl _)).pwr rfl
@[simp] theorem onNotes_trf (t : Nat) (f : Notes → Notes) (s : State) : (onNotes t f s).trf = s.trf := Frame.same (frame_onNotes (m0 := 256) _ _ _ (by decide) (Frame.refl _)).trf rfl
@[simp] theorem onNotes_err (t : Nat) (f : Notes → Notes) (s : State) : (onNotes t f s).err = s.err := Frame.same (frame_onNotes (m0 := 256) _ _ _ (by decide) (Frame.refl _)).err rfl
@[simp] theorem onNotes_log (t : Nat) (f : Notes → Notes) (s : State) : (onNotes t f s).log = s.log := Frame.same (frame_onNotes (m0 := 256) _ _ _ (by decide) (Frame.refl _)).log rfl
@[simp] theorem onNotes_dir (t : Nat) (f : Notes → Notes) (s : State) : (onNotes t f s).dir = s.dir := Frame.same (frame_onNotes (m0 := 256) _ _ _ (by decide) (Frame.refl _)).dir rfl
@[simp] theorem onNotes_chain (t : Nat) (f : Notes → Notes) (s : State) : (onNotes t f s).chain = s.chain := Frame.same (frame_onNotes (m0 := 256) _ _ _ (by decide) (Frame.refl _)).chain rfl
@[simp] theorem onNotes_fab (t : Nat) (f : Notes → Notes) (s : State) : (onNotes t f s).fab = s.fab := Frame.same (frame_onNotes (m0 := 256) _ _ _ (by decide) (Frame.refl _)).fab rfl
@[simp] theorem onNotes_cmp (t : Nat) (f : Notes → Notes) (s : State) : (onNotes t f s).cmp = s.cmp := Frame.same (frame_onNotes (m0 := 256) _ _ _ (by decide) (Frame.refl _)).cmp rfl
@[simp] theorem onNotes_path (t : Nat) (f : Notes → Notes) (s : State) : (onNotes t f s).path = s.path := Frame.same (frame_onNotes (m0 := 256) _ _ _ (by decide) (Frame.refl _)).path rfl
@[simp] theorem onNotes_flash (t : Nat) (f : Notes → Notes) (s : State) : (onNotes t f s).flash = s.flash := Frame.same (frame_onNotes (m0 := 256) _ _ _ (by decide) (Frame.refl _)).flash rfl
@[simp] theorem onNotes_sec (t : Nat) (f : Notes → Notes) (s : State) : (onNotes t f s).sec = s.sec := Frame.same (frame_onNotes (m0 := 256) _ _ _ (by decide) (Frame.refl _)).sec rfl
@[simp] theorem onNotes_pins (t : Nat) (f : Notes → Notes) (s : State) : (onNotes t f s).pins = s.pins := Frame.same (frame_onNotes (m0 := 256) _ _ _ (by decide) (Frame.refl _)).pins rfl
@[simp] theorem onNotes_free (t : Nat) (f : Notes → Notes) (s : State) : (onNotes t f s).free = s.free := Frame.same (frame_onNotes (m0 := 256) _ _ _ (by decide) (Frame.refl _)).free rfl
@[simp] theorem addNote_pending (t : Nat) (type : Nat) (body : Bytes) (s : State) : (addNote t type body s).pending = s.pending := (frame_addNote (m0 := 4352) _ _ _ _ (by decide) (Frame.refl _)).pending
@[simp] theorem addNote_clk (t : Nat) (type : Nat) (body : Bytes) (s : State) : (addNote t type body s).clk = s.clk := Frame.same (frame_addNote (m0 := 4352) _ _ _ _ (by decide) (Frame.refl _)).clk rfl
@[simp] theorem addNote_phase (t : Nat) (type : Nat) (body : Bytes) (s : State) : (addNote t type body s).phase = s.phase := Frame.same (frame_addNote (m0 := 4352) _ _ _ _ (by decide) (Frame.refl _)).phase rfl
@[simp] theorem addNote_mem (t : Nat) (type : Nat) (body : Bytes) (s : State) : (addNote t type body s).mem = s.mem := Frame.same (frame_addNote (m0 := 4352) _ _ _ _ (by decide) (Frame.refl _)).mem rfl
@[simp] theorem addNote_sea (t : Nat) (type : Nat) (body : Bytes) (s : State) : (addNote t type body s).sea = s.sea := Frame.same (frame_addNote (m0 := 4352) _ _ _ _ (by decide) (Frame.refl _)).sea rfl
@[simp] theorem addNote_stk (t : Nat) (type : Nat) (body : Bytes) (s : State) : (addNote t type body s).stk = s.stk := Frame.same (frame_addNote (m0 := 4352) _ _ _ _ (by decide) (Frame.refl _)).stk rfl
@[simp] theorem addNote_par (t : Nat) (type : Nat) (body : Bytes) (s : State) : (addNote t type body s).par = s.par := Frame.same (frame_addNote (m0 := 4352) _ _ _ _ (by decide) (Frame.refl _)).par rfl
@[simp] theorem addNote_pwr (t : Nat) (type : Nat) (body : Bytes) (s : State) : (addNote t type body s).pwr = s.pwr := Frame.same (frame_addNote (m0 := 4352) _ _ _ _ (by decide) (Frame.refl _)).pwr rfl
@[simp] theorem addNote_trf (t : Nat) (type : Nat) (body : Bytes) (s : State) : (addNote t type body s).trf = s.trf := Frame.same (frame_addNote (m0 := 4352) _ _ _ _ (by decide) (Frame.refl _)).trf rfl
@[simp] theorem addNote_err (t : Nat) (type : Nat) (body : Bytes) (s : State) : (addNote t type body s).err = s.err := Frame.same (frame_addNote (m0 := 4352) _ _ _ _ (by decide) (Frame.refl _)).err rfl
@[simp] theorem addNote_log (t : Nat) (type : Nat) (body : Bytes) (s : State) : (addNote t type body s).log = s.log := Frame.same (frame_addNote (m0 := 4352) _ _ _ _ (by decide) (Frame.refl _)).log rfl
@[simp] theorem addNote_chain (t : Nat) (type : Nat) (body : Bytes) (s : State) : (addNote t type body s).chain = s.chain := Frame.same (frame_addNote (m0 := 4352) _ _ _ _ (by decide) (Frame.refl _)).chain rfl
@[simp] theorem addNote_fab (t : Nat) (type : Nat) (body : Bytes) (s : State) : (addNote t type body s).fab = s.fab := Frame.same (frame_addNote (m0 := 4352) _ _ _ _ (by decide) (Frame.refl _)).fab rfl
@[simp] theorem addNote_cmp (t : Nat) (type : Nat) (body : Bytes) (s : State) : (addNote t type body s).cmp = s.cmp := Frame.same (frame_addNote (m0 := 4352) _ _ _ _ (by decide) (Frame.refl _)).cmp rfl
@[simp] theorem addNote_path (t : Nat) (type : Nat) (body : Bytes) (s : State) : (addNote t type body s).path = s.path := Frame.same (frame_addNote (m0 := 4352) _ _ _ _ (by decide) (Frame.refl _)).path rfl
@[simp] theorem addNote_flash (t : Nat) (type : Nat) (body : Bytes) (s : State) : (addNote t type body s).flash = s.flash := Frame.same (frame_addNote (m0 := 4352) _ _ _ _ (by decide) (Frame.refl _)).flash rfl
@[simp] theorem addNote_sec (t : Nat) (type : Nat) (body : Bytes) (s : State) : (addNote t type body s).sec = s.sec := Frame.same (frame_addNote (m0 := 4352) _ _ _ _ (by decide) (Frame.refl _)).sec rfl
@[simp] theorem addNote_pins (t : Nat) (type : Nat) (body : Bytes) (s : State) : (addNote t type body s).pins = s.pins := Frame.same (frame_addNote (m0 := 4352) _ _ _ _ (by decide) (Frame.refl _)).pins rfl
@[simp] theorem addNote_free (t : Nat) (type : Nat) (body : Bytes) (s : State) : (addNote t type body s).free = s.free := Frame.same (frame_addNote (m0 := 4352) _ _ _ _ (by decide) (Frame.refl _)).free rfl
@[simp] theorem onReq_pending (rid : Nat) (f : Req → Req) (s : State) : (onReq rid f s).pending = s.pending := (frame_onReq (m0 := 256) _ _ _ (by decide) (Frame.refl _)).pending
@[simp] theorem onReq_clk (rid : Nat) (f : Req → Req) (s : State) : (onReq rid f s).clk = s.clk := Frame.same (frame_onReq (m0 := 256) _ _ _ (by decide) (Frame.refl _)).clk rfl
@[simp] theorem onReq_phase (rid : Nat) (f : Req → Req) (s : State) : (onReq rid f s).phase = s.phase := Frame.same (frame_onReq (m0 := 256) _ _ _ (by decide) (Frame.refl _)).phase rfl
@[simp] theorem onReq_mem (rid : Nat) (f : Req → Req) (s : State) : (onReq rid f s).mem = s.mem := Frame.same (frame_onReq (m0 := 256) _ _ _ (by decide) (Frame.refl _)).mem rfl
@[simp] theorem onReq_sea (rid : Nat) (f : Req → Req) (s : State) : (onReq rid f s).sea = s.sea := Frame.same (frame_onReq (m0 := 256) _ _ _ (by decide) (Frame.refl _)).sea rfl
@[simp] theorem onReq_stk (rid : Nat) (f : Req → Req) (s : State) : (onReq rid f s).stk = s.stk := Frame.same (frame_onReq (m0 := 256) _ _ _ (by decide) (Frame.refl _)).stk rfl
@[simp] theorem onReq_par (rid : Nat) (f : Req → Req) (s : State) : (onReq rid f s).par = s.par := Frame.same (frame_onReq (m0 := 256) _ _ _ (by decide) (Frame.refl _)).par rfl
@[simp] theorem onReq_pwr (rid : Nat) (f : Req → Req) (s : State) : (onReq rid f s).pwr = s.pwr := Frame.same (frame_onReq (m0 := 256) _ _ _ (by decide) (Frame.refl _)).pwr rfl
@[simp] theorem onReq_trf (rid : Nat) (f : Req → Req) (s : State) : (onReq rid f s).trf = s.trf := Frame.same (frame_onReq (m0 := 256) _ _ _ (by decide) (Frame.refl _)).trf rfl
@[simp] theorem onReq_err (rid : Nat) (f : Req → Req) (s : State) : (onReq rid f s).err = s.err := Frame.same (frame_onReq (m0 := 256) _ _ _ (by decide) (Frame.refl _)).err rfl
@[simp] theorem onReq_log (rid : Nat) (f : Req → Req) (s : State) : (onReq rid f s).log = s.log := Frame.same (frame_onReq (m0 := 256) _ _ _ (by decide) (Frame.refl _)).log rfl
@[simp] theorem onReq_dir (rid : Nat) (f : Req → Req) (s : State) : (onReq rid f s).dir = s.dir := Frame.same (frame_onReq (m0 := 256) _ _ _ (by decide) (Frame.refl _)).dir rfl
@[simp] theorem onReq_chain (rid : Nat) (f : Req → Req) (s : State) : (onReq rid f s).chain = s.chain := Frame.same (frame_onReq (m0 := 256) _ _ _ (by decide) (Frame.refl _)).chain rfl
@[simp] theorem onReq_fab (rid : Nat) (f : Req → Req) (s : State) : (onReq rid f s).fab = s.fab := Frame.same (frame_onReq (m0 := 256) _ _ _ (by decide) (Frame.refl _)).fab rfl
@[simp] theorem onReq_cmp (rid : Nat) (f : Req → Req) (s : State) : (onReq rid f s).cmp = s.cmp := Frame.same (frame_onReq (m0 := 256) _ _ _ (by decide) (Frame.refl _)).cmp rfl
@[simp] theorem onReq_path (rid : Nat) (f : Req → Req) (s : State) : (onReq rid f s).path = s.path := Frame.same (frame_onReq (m0 := 256) _ _ _ (by decide) (Frame.refl _)).path rfl
@[simp] theorem onReq_flash (rid : Nat) (f : Req → Req) (s : State) : (onReq rid f s).flash = s.flash := Frame.same (frame_onReq (m0 := 256) _ _ _ (by decide) (Frame.refl _)).flash rfl
@[simp] theorem onReq_sec (rid : Nat) (f : Req → Req) (s : State) : (onReq rid f s).sec = s.sec := Frame.same (frame_onReq (m0 := 256) _ _ _ (by decide) (Frame.refl _)).sec rfl
@[simp] theorem onReq_pins (rid : Nat) (f : Req → Req) (s : State) : (onReq rid f s).pins = s.pins := Frame.same (frame_onReq (m0 := 256) _ _ _ (by decide) (Frame.refl _)).pins rfl
@[simp] theorem onReq_free (rid : Nat) (f : Req → Req) (s : State) : (onReq rid f s).free = s.free := Frame.same (frame_onReq (m0 := 256) _ _ _ (by decide) (Frame.refl _)).free rfl
@[simp] theorem dropReq_pending (rid : Nat) (s : State) : (dropReq rid s).pending = s.pending := (frame_dropReq (m0 := 256) _ _ (by decide) (Frame.refl _)).pending
@[simp] theorem dropReq_clk (rid : Nat) (s : State) : (dropReq rid s).clk = s.clk := Frame.same (frame_dropReq (m0 := 256) _ _ (by decide) (Frame.refl _)).clk rfl
@[simp] theorem dropReq_phase (rid : Nat) (s : State) : (dropReq rid s).phase = s.phase := Frame.same (frame_dropReq (m0 := 256) _ _ (by decide) (Frame.refl _)).phase rfl
@[simp] theorem dropReq_mem (rid : Nat) (s : State) : (dropReq rid s).mem = s.mem := Frame.same (frame_dropReq (m0 := 256) _ _ (by decide) (Frame.refl _)).mem rfl
@[simp] theorem dropReq_sea (rid : Nat) (s : State) : (dropReq rid s).sea = s.sea := Frame.same (frame_dropReq (m0 := 256) _ _ (by decide) (Frame.refl _)).sea rfl
@[simp] theorem dropReq_stk (rid : Nat) (s : State) : (dropReq rid s).stk = s.stk := Frame.same (frame_dropReq (m0 := 256) _ _ (by decide) (Frame.refl _)).stk rfl
@[simp] theorem dropReq_par (rid : Nat) (s : State) : (dropReq rid s).par = s.par := Frame.same (frame_dropReq (m0 := 256) _ _ (by decide) (Frame.refl _)).par rfl
@[simp] theorem dropReq_pwr (rid : Nat) (s : State) : (dropReq rid s).pwr = s.pwr := Frame.same (frame_dropReq (m0 := 256) _ _ (by decide) (Frame.refl _)).pwr rfl
@[simp] theorem dropReq_trf (rid : Nat) (s : State) : (dropReq rid s).trf = s.trf := Frame.same (frame_dropReq (m0 := 256) _ _ (by decide) (Frame.refl _)).trf rfl
@[simp] theorem dropReq_err (rid : Nat) (s : State) : (dropReq rid s).err = s.err := Frame.same (frame_dropReq (m0 := 256) _ _ (by decide) (Frame.refl _)).err rfl
@[simp] theorem dropReq_log (rid : Nat) (s : State) : (dropReq rid s).log = s.log := Frame.same (frame_dropReq (m0 := 256) _ _ (by decide) (Frame.refl _)).log rfl
@[simp] theorem dropReq_dir (rid : Nat) (s : State) : (dropReq rid s).dir = s.dir := Frame.same (frame_dropReq (m0 := 256) _ _ (by decide) (Frame.refl _)).dir rfl
@[simp] theorem dropReq_chain (rid : Nat) (s : State) : (dropReq rid s).chain = s.chain := Frame.same (frame_dropReq (m0 := 256) _ _ (by decide) (Frame.refl _)).chain rfl
@[simp] theorem dropReq_fab (rid : Nat) (s : State) : (dropReq rid s).fab = s.fab := Frame.same (frame_dropReq (m0 := 256) _ _ (by decide) (Frame.refl _)).fab rfl
@[simp] theorem dropReq_cmp (rid : Nat) (s : State) : (dropReq rid s).cmp = s.cmp := Frame.same (frame_dropReq (m0 := 256) _ _ (by decide) (Frame.refl _)).cmp rfl
@[simp] theorem dropReq_path (rid : Nat) (s : State) : (dropReq rid s).path = s.path := Frame.same (frame_dropReq (m0 := 256) _ _ (by decide) (Frame.refl _)).path rfl
@[simp] theorem dropReq_flash (rid : Nat) (s : State) : (dropReq rid s).flash = s.flash := Frame.same (frame_dropReq (m0 := 256) _ _ (by decide) (Frame.refl _)).flash rfl
@[simp] theorem dropReq_sec (rid : Nat) (s : State) : (dropReq rid s).sec = s.sec := Frame.same (frame_dropReq (m0 := 256) _ _ (by decide) (Frame.refl _)).sec rfl
@[simp] theorem dropReq_pins (rid : Nat) (s : State) : (dropReq rid s).pins = s.pins := Frame.same (frame_dropReq (m0 := 256) _ _ (by decide) (Frame.refl _)).pins rfl
@[simp] theorem dropReq_free (rid : Nat) (s : State) : (dropReq rid s).free = s.free := Frame.same (frame_dropReq (m0 := 256) _ _ (by decide) (Frame.refl _)).free rfl
@[simp] theorem addCause_pending (rid : Nat) (c : Nat) (s : State) : (addCause rid c s).pending = s.pending := (frame_addCause (m0 := 65792) _ _ _ (by decide) (Frame.refl _)).pending
@[simp] theorem addCause_clk (rid : Nat) (c : Nat) (s : State) : (addCause rid c s).clk = s.clk := Frame.same (frame_addCause (m0 := 65792) _ _ _ (by decide) (Frame.refl _)).clk rfl
@[simp] theorem addCause_phase (rid : Nat) (c : Nat) (s : State) : (addCause rid c s).phase = s.phase := Frame.same (frame_addCause (m0 := 65792) _ _ _ (by decide) (Frame.refl _)).phase rfl
@[simp] theorem addCause_mem (rid : Nat) (c : Nat) (s : State) : (addCause rid c s).mem = s.mem := Frame.same (frame_addCause (m0 := 65792) _ _ _ (by decide) (Frame.refl _)).mem rfl
@[simp] theorem addCause_sea (rid : Nat) (c : Nat) (s : State) : (addCause rid c s).sea = s.sea := Frame.same (frame_addCause (m0 := 65792) _ _ _ (by decide) (Frame.refl _)).sea rfl
@[simp] theorem addCause_stk (rid : Nat) (c : Nat) (s : State) : (addCause rid c s).stk = s.stk := Frame.same (frame_addCause (m0 := 65792) _ _ _ (by decide) (Frame.refl _)).stk rfl
@[simp] theorem addCause_par (rid : Nat) (c : Nat) (s : State) : (addCause rid c s).par = s.par := Frame.same (frame_addCause (m0 := 65792) _ _ _ (by decide) (Frame.refl _)).par rfl
@[simp] theorem addCause_pwr (rid : Nat) (c : Nat) (s : State) : (addCause rid c s).pwr = s.pwr := Frame.same (frame_addCause (m0 := 65792) _ _ _ (by decide) (Frame.refl _)).pwr rfl
@[simp] theorem addCause_trf (rid : Nat) (c : Nat) (s : State) : (addCause rid c s).trf = s.trf := Frame.same (frame_addCause (m0 := 65792) _ _ _ (by decide) (Frame.refl _)).trf rfl
@[simp] theorem addCause_err (rid : Nat) (c : Nat) (s : State) : (addCause rid c s).err = s.err := Frame.same (frame_addCause (m0 := 65792) _ _ _ (by decide) (Frame.refl _)).err rfl
@[simp] theorem addCause_log (rid : Nat) (c : Nat) (s : State) : (addCause rid c s).log = s.log := Frame.same (frame_addCause (m0 := 65792) _ _ _ (by decide) (Frame.refl _)).log rfl
@[simp] theorem addCause_dir (rid : Nat) (c : Nat) (s : State) : (addCause rid c s).dir = s.dir := Frame.same (frame_addCause (m0 := 65792) _ _ _ (by decide) (Frame.refl _)).dir rfl
@[simp] theorem addCause_chain (rid : Nat) (c : Nat) (s : State) : (addCause rid c s).chain = s.chain := Frame.same (frame_addCause (m0 := 65792) _ _ _ (by decide) (Frame.refl _)).chain rfl
@[simp] theorem addCause_fab (rid : Nat) (c : Nat) (s : State) : (addCause rid c s).fab = s.fab := Frame.same (frame_addCause (m0 := 65792) _ _ _ (by decide) (Frame.refl _)).fab rfl
@[simp] theorem addCause_cmp (rid : Nat) (c : Nat) (s : State) : (addCause rid c s).cmp = s.cmp := Frame.same (frame_addCause (m0 := 65792) _ _ _ (by decide) (Frame.refl _)).cmp rfl
@[simp] theorem addCause_flash (rid : Nat) (c : Nat) (s : State) : (addCause rid c s).flash = s.flash := Frame.same (frame_addCause (m0 := 65792) _ _ _ (by decide) (Frame.refl _)).flash rfl
@[simp] theorem addCause_sec (rid : Nat) (c : Nat) (s : State) : (addCause rid c s).sec = s.sec := Frame.same (frame_addCause (m0 := 65792) _ _ _ (by decide) (Frame.refl _)).sec rfl
@[simp] theorem addCause_pins (rid : Nat) (c : Nat) (s : State) : (addCause rid c s).pins = s.pins := Frame.same (frame_addCause (m0 := 65792) _ _ _ (by decide) (Frame.refl _)).pins rfl
@[simp] theorem addCause_free (rid : Nat) (c : Nat) (s : State) : (addCause rid c s).free = s.free := Frame.same (frame_addCause (m0 := 65792) _ _ _ (by decide) (Frame.refl _)).free rfl
@[simp] theorem onThread_pending (th : Nat) (f : Thread → Thread) (s : State) : (onThread th f s).pending = s.pending := (frame_onThread (m0 := 16) _ _ _ (by decide) (Frame.refl _)).pending
@[simp] theorem onThread_clk (th : Nat) (f : Thread → Thread) (s : State) : (onThread th f s).clk = s.clk := Frame.same (frame_onThread (m0 := 16) _ _ _ (by decide) (Frame.refl _)).clk rfl
@[simp] theorem onThread_phase (th : Nat) (f : Thread → Thread) (s : State) : (onThread th f s).phase = s.phase := Frame.same (frame_onThread (m0 := 16) _ _ _ (by decide) (Frame.refl _)).phase rfl
@[simp] theorem onThread_mem (th : Nat) (f : Thread → Thread) (s : State) : (onThread th f s).mem = s.mem := Frame.same (frame_onThread (m0 := 16) _ _ _ (by decide) (Frame.refl _)).mem rfl
@[simp] theorem onThread_stk (th : Nat) (f : Thread → Thread) (s : State) : (onThread th f s).stk = s.stk := Frame.same (frame_onThread (m0 := 16) _ _ _ (by decide) (Frame.refl _)).stk rfl
@[simp] theorem onThread_par (th : Nat) (f : Thread → Thread) (s : State) : (onThread th f s).par = s.par := Frame.same (frame_onThread (m0 := 16) _ _ _ (by decide) (Frame.refl _)).par rfl
@[simp] theorem onThread_pwr (th : Nat) (f : Thread → Thread) (s : State) : (onThread th f s).pwr = s.pwr := Frame.same (frame_onThread (m0 := 16) _ _ _ (by decide) (Frame.refl _)).pwr rfl
@[simp] theorem onThread_hxt (th : Nat) (f : Thread → Thread) (s : State) : (onThread th f s).hxt = s.hxt := Frame.same (frame_onThread (m0 := 16) _ _ _ (by decide) (Frame.refl _)).hxt rfl
@[simp] theorem onThread_trf (th : Nat) (f : Thread → Thread) (s : State) : (onThread th f s).trf = s.trf := Frame.same (frame_onThread (m0 := 16) _ _ _ (by decide) (Frame.refl _)).trf rfl
@[simp] theorem onThread_err (th : Nat) (f : Thread → Thread) (s : State) : (onThread th f s).err = s.err := Frame.same (frame_onThread (m0 := 16) _ _ _ (by decide) (Frame.refl _)).err rfl
@[simp] theorem onThread_log (th : Nat) (f : Thread → Thread) (s : State) : (onThread th f s).log = s.log := Frame.same (frame_onThread (m0 := 16) _ _ _ (by decide) (Frame.refl _)).log rfl
@[simp] theorem onThread_dir (th : Nat) (f : Thread → Thread) (s : State) : (onThread th f s).dir = s.dir := Frame.same (frame_onThread (m0 := 16) _ _ _ (by decide) (Frame.refl _)).dir rfl
@[simp] theorem onThread_chain (th : Nat) (f : Thread → Thread) (s : State) : (onThread th f s).chain = s.chain := Frame.same (frame_onThread (m0 := 16) _ _ _ (by decide) (Frame.refl _)).chain rfl
@[simp] theorem onThread_fab (th : Nat) (f : Thread → Thread) (s : State) : (onThread th f s).fab = s.fab := Frame.same (frame_onThread (m0 := 16) _ _ _ (by decide) (Frame.refl _)).fab rfl
@[simp] theorem onThread_cmp (th : Nat) (f : Thread → Thread) (s : State) : (onThread th f s).cmp = s.cmp := Frame.same (frame_onThread (m0 := 16) _ _ _ (by decide) (Frame.refl _)).cmp rfl
@[simp] theorem onThread_path (th : Nat) (f : Thread → Thread) (s : State) : (onThread th f s).path = s.path := Frame.same (frame_onThread (m0 := 16) _ _ _ (by decide) (Frame.refl _)).path rfl
@[simp] theorem onThread_flash (th : Nat) (f : Thread → Thread) (s : State) : (onThread th f s).flash = s.flash := Frame.same (frame_onThread (m0 := 16) _ _ _ (by decide) (Frame.refl _)).flash rfl
@[simp] theorem onThread_sec (th : Nat) (f : Thread → Thread) (s : State) : (onThread th f s).sec = s.sec := Frame.same (frame_onThread (m0 := 16) _ _ _ (by decide) (Frame.refl _)).sec rfl
@[simp] theorem onThread_pins (th : Nat) (f : Thread → Thread) (s : State) : (onThread th f s).pins = s.pins := Frame.same (frame_onThread (m0 := 16) _ _ _ (by decide) (Frame.refl _)).pins rfl
@[simp] theorem onThread_free (th : Nat) (f : Thread → Thread) (s : State) : (onThread th f s).free = s.free := Frame.same (frame_onThread (m0 := 16) _ _ _ (by decide) (Frame.refl _)).free rfl
@[simp] theorem mirrorCstat_pending (k : Nat) (s : State) : (mirrorCstat k s).pending = s.pending := (frame_mirrorCstat (m0 := 4096) _ _ (by decide) (Frame.refl _)).pending
@[simp] theorem mirrorCstat_clk (k : Nat) (s : State) : (mirrorCstat k s).clk = s.clk := Frame.same (frame_mirrorCstat (m0 := 4096) _ _ (by decide) (Frame.refl _)).clk rfl
@[simp] theorem mirrorCstat_phase (k : Nat) (s : State) : (mirrorCstat k s).phase = s.phase := Frame.same (frame_mirrorCstat (m0 := 4096) _ _ (by decide) (Frame.refl _)).phase rfl
@[simp] theorem mirrorCstat_mem (k : Nat) (s : State) : (mirrorCstat k s).mem = s.mem := Frame.same (frame_mirrorCstat (m0 := 4096) _ _ (by decide) (Frame.refl _)).mem rfl
@[simp] theorem mirrorCstat_sea (k : Nat) (s : State) : (mirrorCstat k s).sea = s.sea := Frame.same (frame_mirrorCstat (m0 := 4096) _ _ (by decide) (Frame.refl _)).sea rfl
@[simp] theorem mirrorCstat_stk (k : Nat) (s : State) : (mirrorCstat k s).stk = s.stk := Frame.same (frame_mirrorCstat (m0 := 4096) _ _ (by decide) (Frame.refl _)).stk rfl
@[simp] theorem mirrorCstat_par (k : Nat) (s : State) : (mirrorCstat k s).par = s.par := Frame.same (frame_mirrorCstat (m0 := 4096) _ _ (by decide) (Frame.refl _)).par rfl
@[simp] theorem mirrorCstat_pwr (k : Nat) (s : State) : (mirrorCstat k s).pwr = s.pwr := Frame.same (frame_mirrorCstat (m0 := 4096) _ _ (by decide) (Frame.refl _)).pwr rfl
@[simp] theorem mirrorCstat_hxt (k : Nat) (s : State) : (mirrorCstat k s).hxt = s.hxt := Frame.same (frame_mirrorCstat (m0 := 4096) _ _ (by decide) (Frame.refl _)).hxt rfl
@[simp] theorem mirrorCstat_trf (k : Nat) (s : State) : (mirrorCstat k s).trf = s.trf := Frame.same (frame_mirrorCstat (m0 := 4096) _ _ (by decide) (Frame.refl _)).trf rfl
@[simp] theorem mirrorCstat_err (k : Nat) (s : State) : (mirrorCstat k s).err = s.err := Frame.same (frame_mirrorCstat (m0 := 4096) _ _ (by decide) (Frame.refl _)).err rfl
@[simp] theorem mirrorCstat_log (k : Nat) (s : State) : (mirrorCstat k s).log = s.log := Frame.same (frame_mirrorCstat (m0 := 4096) _ _ (by decide) (Frame.refl _)).log rfl
@[simp] theorem mirrorCstat_chain (k : Nat) (s : State) : (mirrorCstat k s).chain = s.chain := Frame.same (frame_mirrorCstat (m0 := 4096) _ _ (by decide) (Frame.refl _)).chain rfl
@[simp] theorem mirrorCstat_fab (k : Nat) (s : State) : (mirrorCstat k s).fab = s.fab := Frame.same (frame_mirrorCstat (m0 := 4096) _ _ (by decide) (Frame.refl _)).fab rfl
@[simp] theorem mirrorCstat_cmp (k : Nat) (s : State) : (mirrorCstat k s).cmp = s.cmp := Frame.same (frame_mirrorCstat (m0 := 4096) _ _ (by decide) (Frame.refl _)).cmp rfl
@[simp] theorem mirrorCstat_path (k : Nat) (s : State) : (mirrorCstat k s).path = s.path := Frame.same (frame_mirrorCstat (m0 := 4096) _ _ (by decide) (Frame.refl _)).path rfl
@[simp] theorem mirrorCstat_flash (k : Nat) (s : State) : (mirrorCstat k s).flash = s.flash := Frame.same (frame_mirrorCstat (m0 := 4096) _ _ (by decide) (Frame.refl _)).flash rfl
@[simp] theorem mirrorCstat_sec (k : Nat) (s : State) : (mirrorCstat k s).sec = s.sec := Frame.same (frame_mirrorCstat (m0 := 4096) _ _ (by decide) (Frame.refl _)).sec rfl
@[simp] theorem mirrorCstat_pins (k : Nat) (s : State) : (mirrorCstat k s).pins = s.pins := Frame.same (frame_mirrorCstat (m0 := 4096) _ _ (by decide) (Frame.refl _)).pins rfl
@[simp] theorem mirrorCstat_free (k : Nat) (s : State) : (mirrorCstat k s).free = s.free := Frame.same (frame_mirrorCstat (m0 := 4096) _ _ (by decide) (Frame.refl _)).free rfl
@[simp] theorem record_pending (cls : Nat) (severity : Nat) (unit : Nat) (inst : Nat) (location : Nat) (detail : Nat) (status : Nat) (tenant : Option Nat) (s : State) : (record cls severity unit inst location detail status tenant s).pending = s.pending := (frame_record (m0 := 15360) _ _ _ _ _ _ _ _ _ (by decide) (Frame.refl _)).pending
@[simp] theorem record_clk (cls : Nat) (severity : Nat) (unit : Nat) (inst : Nat) (location : Nat) (detail : Nat) (status : Nat) (tenant : Option Nat) (s : State) : (record cls severity unit inst location detail status tenant s).clk = s.clk := Frame.same (frame_record (m0 := 15360) _ _ _ _ _ _ _ _ _ (by decide) (Frame.refl _)).clk rfl
@[simp] theorem record_phase (cls : Nat) (severity : Nat) (unit : Nat) (inst : Nat) (location : Nat) (detail : Nat) (status : Nat) (tenant : Option Nat) (s : State) : (record cls severity unit inst location detail status tenant s).phase = s.phase := Frame.same (frame_record (m0 := 15360) _ _ _ _ _ _ _ _ _ (by decide) (Frame.refl _)).phase rfl
@[simp] theorem record_mem (cls : Nat) (severity : Nat) (unit : Nat) (inst : Nat) (location : Nat) (detail : Nat) (status : Nat) (tenant : Option Nat) (s : State) : (record cls severity unit inst location detail status tenant s).mem = s.mem := Frame.same (frame_record (m0 := 15360) _ _ _ _ _ _ _ _ _ (by decide) (Frame.refl _)).mem rfl
@[simp] theorem record_sea (cls : Nat) (severity : Nat) (unit : Nat) (inst : Nat) (location : Nat) (detail : Nat) (status : Nat) (tenant : Option Nat) (s : State) : (record cls severity unit inst location detail status tenant s).sea = s.sea := Frame.same (frame_record (m0 := 15360) _ _ _ _ _ _ _ _ _ (by decide) (Frame.refl _)).sea rfl
@[simp] theorem record_stk (cls : Nat) (severity : Nat) (unit : Nat) (inst : Nat) (location : Nat) (detail : Nat) (status : Nat) (tenant : Option Nat) (s : State) : (record cls severity unit inst location detail status tenant s).stk = s.stk := Frame.same (frame_record (m0 := 15360) _ _ _ _ _ _ _ _ _ (by decide) (Frame.refl _)).stk rfl
@[simp] theorem record_par (cls : Nat) (severity : Nat) (unit : Nat) (inst : Nat) (location : Nat) (detail : Nat) (status : Nat) (tenant : Option Nat) (s : State) : (record cls severity unit inst location detail status tenant s).par = s.par := Frame.same (frame_record (m0 := 15360) _ _ _ _ _ _ _ _ _ (by decide) (Frame.refl _)).par rfl
@[simp] theorem record_pwr (cls : Nat) (severity : Nat) (unit : Nat) (inst : Nat) (location : Nat) (detail : Nat) (status : Nat) (tenant : Option Nat) (s : State) : (record cls severity unit inst location detail status tenant s).pwr = s.pwr := Frame.same (frame_record (m0 := 15360) _ _ _ _ _ _ _ _ _ (by decide) (Frame.refl _)).pwr rfl
@[simp] theorem record_hxt (cls : Nat) (severity : Nat) (unit : Nat) (inst : Nat) (location : Nat) (detail : Nat) (status : Nat) (tenant : Option Nat) (s : State) : (record cls severity unit inst location detail status tenant s).hxt = s.hxt := Frame.same (frame_record (m0 := 15360) _ _ _ _ _ _ _ _ _ (by decide) (Frame.refl _)).hxt rfl
@[simp] theorem record_trf (cls : Nat) (severity : Nat) (unit : Nat) (inst : Nat) (location : Nat) (detail : Nat) (status : Nat) (tenant : Option Nat) (s : State) : (record cls severity unit inst location detail status tenant s).trf = s.trf := Frame.same (frame_record (m0 := 15360) _ _ _ _ _ _ _ _ _ (by decide) (Frame.refl _)).trf rfl
@[simp] theorem record_fab (cls : Nat) (severity : Nat) (unit : Nat) (inst : Nat) (location : Nat) (detail : Nat) (status : Nat) (tenant : Option Nat) (s : State) : (record cls severity unit inst location detail status tenant s).fab = s.fab := Frame.same (frame_record (m0 := 15360) _ _ _ _ _ _ _ _ _ (by decide) (Frame.refl _)).fab rfl
@[simp] theorem record_cmp (cls : Nat) (severity : Nat) (unit : Nat) (inst : Nat) (location : Nat) (detail : Nat) (status : Nat) (tenant : Option Nat) (s : State) : (record cls severity unit inst location detail status tenant s).cmp = s.cmp := Frame.same (frame_record (m0 := 15360) _ _ _ _ _ _ _ _ _ (by decide) (Frame.refl _)).cmp rfl
@[simp] theorem record_path (cls : Nat) (severity : Nat) (unit : Nat) (inst : Nat) (location : Nat) (detail : Nat) (status : Nat) (tenant : Option Nat) (s : State) : (record cls severity unit inst location detail status tenant s).path = s.path := Frame.same (frame_record (m0 := 15360) _ _ _ _ _ _ _ _ _ (by decide) (Frame.refl _)).path rfl
@[simp] theorem record_flash (cls : Nat) (severity : Nat) (unit : Nat) (inst : Nat) (location : Nat) (detail : Nat) (status : Nat) (tenant : Option Nat) (s : State) : (record cls severity unit inst location detail status tenant s).flash = s.flash := Frame.same (frame_record (m0 := 15360) _ _ _ _ _ _ _ _ _ (by decide) (Frame.refl _)).flash rfl
@[simp] theorem record_sec (cls : Nat) (severity : Nat) (unit : Nat) (inst : Nat) (location : Nat) (detail : Nat) (status : Nat) (tenant : Option Nat) (s : State) : (record cls severity unit inst location detail status tenant s).sec = s.sec := Frame.same (frame_record (m0 := 15360) _ _ _ _ _ _ _ _ _ (by decide) (Frame.refl _)).sec rfl
@[simp] theorem record_pins (cls : Nat) (severity : Nat) (unit : Nat) (inst : Nat) (location : Nat) (detail : Nat) (status : Nat) (tenant : Option Nat) (s : State) : (record cls severity unit inst location detail status tenant s).pins = s.pins := Frame.same (frame_record (m0 := 15360) _ _ _ _ _ _ _ _ _ (by decide) (Frame.refl _)).pins rfl
@[simp] theorem record_free (cls : Nat) (severity : Nat) (unit : Nat) (inst : Nat) (location : Nat) (detail : Nat) (status : Nat) (tenant : Option Nat) (s : State) : (record cls severity unit inst location detail status tenant s).free = s.free := Frame.same (frame_record (m0 := 15360) _ _ _ _ _ _ _ _ _ (by decide) (Frame.refl _)).free rfl
@[simp] theorem issued_pending (th : Nat) (s : State) : (issued th s).pending = s.pending := (frame_issued (m0 := 144) _ _ (by decide) (Frame.refl _)).pending
@[simp] theorem issued_clk (th : Nat) (s : State) : (issued th s).clk = s.clk := Frame.same (frame_issued (m0 := 144) _ _ (by decide) (Frame.refl _)).clk rfl
@[simp] theorem issued_phase (th : Nat) (s : State) : (issued th s).phase = s.phase := Frame.same (frame_issued (m0 := 144) _ _ (by decide) (Frame.refl _)).phase rfl
@[simp] theorem issued_mem (th : Nat) (s : State) : (issued th s).mem = s.mem := Frame.same (frame_issued (m0 := 144) _ _ (by decide) (Frame.refl _)).mem rfl
@[simp] theorem issued_stk (th : Nat) (s : State) : (issued th s).stk = s.stk := Frame.same (frame_issued (m0 := 144) _ _ (by decide) (Frame.refl _)).stk rfl
@[simp] theorem issued_par (th : Nat) (s : State) : (issued th s).par = s.par := Frame.same (frame_issued (m0 := 144) _ _ (by decide) (Frame.refl _)).par rfl
@[simp] theorem issued_hxt (th : Nat) (s : State) : (issued th s).hxt = s.hxt := Frame.same (frame_issued (m0 := 144) _ _ (by decide) (Frame.refl _)).hxt rfl
@[simp] theorem issued_trf (th : Nat) (s : State) : (issued th s).trf = s.trf := Frame.same (frame_issued (m0 := 144) _ _ (by decide) (Frame.refl _)).trf rfl
@[simp] theorem issued_err (th : Nat) (s : State) : (issued th s).err = s.err := Frame.same (frame_issued (m0 := 144) _ _ (by decide) (Frame.refl _)).err rfl
@[simp] theorem issued_log (th : Nat) (s : State) : (issued th s).log = s.log := Frame.same (frame_issued (m0 := 144) _ _ (by decide) (Frame.refl _)).log rfl
@[simp] theorem issued_dir (th : Nat) (s : State) : (issued th s).dir = s.dir := Frame.same (frame_issued (m0 := 144) _ _ (by decide) (Frame.refl _)).dir rfl
@[simp] theorem issued_chain (th : Nat) (s : State) : (issued th s).chain = s.chain := Frame.same (frame_issued (m0 := 144) _ _ (by decide) (Frame.refl _)).chain rfl
@[simp] theorem issued_fab (th : Nat) (s : State) : (issued th s).fab = s.fab := Frame.same (frame_issued (m0 := 144) _ _ (by decide) (Frame.refl _)).fab rfl
@[simp] theorem issued_cmp (th : Nat) (s : State) : (issued th s).cmp = s.cmp := Frame.same (frame_issued (m0 := 144) _ _ (by decide) (Frame.refl _)).cmp rfl
@[simp] theorem issued_path (th : Nat) (s : State) : (issued th s).path = s.path := Frame.same (frame_issued (m0 := 144) _ _ (by decide) (Frame.refl _)).path rfl
@[simp] theorem issued_flash (th : Nat) (s : State) : (issued th s).flash = s.flash := Frame.same (frame_issued (m0 := 144) _ _ (by decide) (Frame.refl _)).flash rfl
@[simp] theorem issued_sec (th : Nat) (s : State) : (issued th s).sec = s.sec := Frame.same (frame_issued (m0 := 144) _ _ (by decide) (Frame.refl _)).sec rfl
@[simp] theorem issued_pins (th : Nat) (s : State) : (issued th s).pins = s.pins := Frame.same (frame_issued (m0 := 144) _ _ (by decide) (Frame.refl _)).pins rfl
@[simp] theorem issued_free (th : Nat) (s : State) : (issued th s).free = s.free := Frame.same (frame_issued (m0 := 144) _ _ (by decide) (Frame.refl _)).free rfl
@[simp] theorem onFlash_pending (f : Flash → Flash) (s : State) : (onFlash f s).pending = s.pending := (frame_onFlash (m0 := 131072) _ _ (by decide) (Frame.refl _)).pending
@[simp] theorem onFlash_clk (f : Flash → Flash) (s : State) : (onFlash f s).clk = s.clk := Frame.same (frame_onFlash (m0 := 131072) _ _ (by decide) (Frame.refl _)).clk rfl
@[simp] theorem onFlash_phase (f : Flash → Flash) (s : State) : (onFlash f s).phase = s.phase := Frame.same (frame_onFlash (m0 := 131072) _ _ (by decide) (Frame.refl _)).phase rfl
@[simp] theorem onFlash_mem (f : Flash → Flash) (s : State) : (onFlash f s).mem = s.mem := Frame.same (frame_onFlash (m0 := 131072) _ _ (by decide) (Frame.refl _)).mem rfl
@[simp] theorem onFlash_sea (f : Flash → Flash) (s : State) : (onFlash f s).sea = s.sea := Frame.same (frame_onFlash (m0 := 131072) _ _ (by decide) (Frame.refl _)).sea rfl
@[simp] theorem onFlash_stk (f : Flash → Flash) (s : State) : (onFlash f s).stk = s.stk := Frame.same (frame_onFlash (m0 := 131072) _ _ (by decide) (Frame.refl _)).stk rfl
@[simp] theorem onFlash_par (f : Flash → Flash) (s : State) : (onFlash f s).par = s.par := Frame.same (frame_onFlash (m0 := 131072) _ _ (by decide) (Frame.refl _)).par rfl
@[simp] theorem onFlash_pwr (f : Flash → Flash) (s : State) : (onFlash f s).pwr = s.pwr := Frame.same (frame_onFlash (m0 := 131072) _ _ (by decide) (Frame.refl _)).pwr rfl
@[simp] theorem onFlash_hxt (f : Flash → Flash) (s : State) : (onFlash f s).hxt = s.hxt := Frame.same (frame_onFlash (m0 := 131072) _ _ (by decide) (Frame.refl _)).hxt rfl
@[simp] theorem onFlash_trf (f : Flash → Flash) (s : State) : (onFlash f s).trf = s.trf := Frame.same (frame_onFlash (m0 := 131072) _ _ (by decide) (Frame.refl _)).trf rfl
@[simp] theorem onFlash_err (f : Flash → Flash) (s : State) : (onFlash f s).err = s.err := Frame.same (frame_onFlash (m0 := 131072) _ _ (by decide) (Frame.refl _)).err rfl
@[simp] theorem onFlash_log (f : Flash → Flash) (s : State) : (onFlash f s).log = s.log := Frame.same (frame_onFlash (m0 := 131072) _ _ (by decide) (Frame.refl _)).log rfl
@[simp] theorem onFlash_dir (f : Flash → Flash) (s : State) : (onFlash f s).dir = s.dir := Frame.same (frame_onFlash (m0 := 131072) _ _ (by decide) (Frame.refl _)).dir rfl
@[simp] theorem onFlash_chain (f : Flash → Flash) (s : State) : (onFlash f s).chain = s.chain := Frame.same (frame_onFlash (m0 := 131072) _ _ (by decide) (Frame.refl _)).chain rfl
@[simp] theorem onFlash_fab (f : Flash → Flash) (s : State) : (onFlash f s).fab = s.fab := Frame.same (frame_onFlash (m0 := 131072) _ _ (by decide) (Frame.refl _)).fab rfl
@[simp] theorem onFlash_cmp (f : Flash → Flash) (s : State) : (onFlash f s).cmp = s.cmp := Frame.same (frame_onFlash (m0 := 131072) _ _ (by decide) (Frame.refl _)).cmp rfl
@[simp] theorem onFlash_path (f : Flash → Flash) (s : State) : (onFlash f s).path = s.path := Frame.same (frame_onFlash (m0 := 131072) _ _ (by decide) (Frame.refl _)).path rfl
@[simp] theorem onFlash_sec (f : Flash → Flash) (s : State) : (onFlash f s).sec = s.sec := Frame.same (frame_onFlash (m0 := 131072) _ _ (by decide) (Frame.refl _)).sec rfl
@[simp] theorem onFlash_pins (f : Flash → Flash) (s : State) : (onFlash f s).pins = s.pins := Frame.same (frame_onFlash (m0 := 131072) _ _ (by decide) (Frame.refl _)).pins rfl
@[simp] theorem onFlash_free (f : Flash → Flash) (s : State) : (onFlash f s).free = s.free := Frame.same (frame_onFlash (m0 := 131072) _ _ (by decide) (Frame.refl _)).free rfl
@[simp] theorem onLink_pending (k : Nat) (f : LinkSt → LinkSt) (s : State) : (onLink k f s).pending = s.pending := (frame_onLink (m0 := 16384) _ _ _ (by decide) (Frame.refl _)).pending
@[simp] theorem onLink_clk (k : Nat) (f : LinkSt → LinkSt) (s : State) : (onLink k f s).clk = s.clk := Frame.same (frame_onLink (m0 := 16384) _ _ _ (by decide) (Frame.refl _)).clk rfl
@[simp] theorem onLink_phase (k : Nat) (f : LinkSt → LinkSt) (s : State) : (onLink k f s).phase = s.phase := Frame.same (frame_onLink (m0 := 16384) _ _ _ (by decide) (Frame.refl _)).phase rfl
@[simp] theorem onLink_mem (k : Nat) (f : LinkSt → LinkSt) (s : State) : (onLink k f s).mem = s.mem := Frame.same (frame_onLink (m0 := 16384) _ _ _ (by decide) (Frame.refl _)).mem rfl
@[simp] theorem onLink_sea (k : Nat) (f : LinkSt → LinkSt) (s : State) : (onLink k f s).sea = s.sea := Frame.same (frame_onLink (m0 := 16384) _ _ _ (by decide) (Frame.refl _)).sea rfl
@[simp] theorem onLink_stk (k : Nat) (f : LinkSt → LinkSt) (s : State) : (onLink k f s).stk = s.stk := Frame.same (frame_onLink (m0 := 16384) _ _ _ (by decide) (Frame.refl _)).stk rfl
@[simp] theorem onLink_par (k : Nat) (f : LinkSt → LinkSt) (s : State) : (onLink k f s).par = s.par := Frame.same (frame_onLink (m0 := 16384) _ _ _ (by decide) (Frame.refl _)).par rfl
@[simp] theorem onLink_pwr (k : Nat) (f : LinkSt → LinkSt) (s : State) : (onLink k f s).pwr = s.pwr := Frame.same (frame_onLink (m0 := 16384) _ _ _ (by decide) (Frame.refl _)).pwr rfl
@[simp] theorem onLink_hxt (k : Nat) (f : LinkSt → LinkSt) (s : State) : (onLink k f s).hxt = s.hxt := Frame.same (frame_onLink (m0 := 16384) _ _ _ (by decide) (Frame.refl _)).hxt rfl
@[simp] theorem onLink_trf (k : Nat) (f : LinkSt → LinkSt) (s : State) : (onLink k f s).trf = s.trf := Frame.same (frame_onLink (m0 := 16384) _ _ _ (by decide) (Frame.refl _)).trf rfl
@[simp] theorem onLink_err (k : Nat) (f : LinkSt → LinkSt) (s : State) : (onLink k f s).err = s.err := Frame.same (frame_onLink (m0 := 16384) _ _ _ (by decide) (Frame.refl _)).err rfl
@[simp] theorem onLink_log (k : Nat) (f : LinkSt → LinkSt) (s : State) : (onLink k f s).log = s.log := Frame.same (frame_onLink (m0 := 16384) _ _ _ (by decide) (Frame.refl _)).log rfl
@[simp] theorem onLink_dir (k : Nat) (f : LinkSt → LinkSt) (s : State) : (onLink k f s).dir = s.dir := Frame.same (frame_onLink (m0 := 16384) _ _ _ (by decide) (Frame.refl _)).dir rfl
@[simp] theorem onLink_chain (k : Nat) (f : LinkSt → LinkSt) (s : State) : (onLink k f s).chain = s.chain := Frame.same (frame_onLink (m0 := 16384) _ _ _ (by decide) (Frame.refl _)).chain rfl
@[simp] theorem onLink_cmp (k : Nat) (f : LinkSt → LinkSt) (s : State) : (onLink k f s).cmp = s.cmp := Frame.same (frame_onLink (m0 := 16384) _ _ _ (by decide) (Frame.refl _)).cmp rfl
@[simp] theorem onLink_path (k : Nat) (f : LinkSt → LinkSt) (s : State) : (onLink k f s).path = s.path := Frame.same (frame_onLink (m0 := 16384) _ _ _ (by decide) (Frame.refl _)).path rfl
@[simp] theorem onLink_flash (k : Nat) (f : LinkSt → LinkSt) (s : State) : (onLink k f s).flash = s.flash := Frame.same (frame_onLink (m0 := 16384) _ _ _ (by decide) (Frame.refl _)).flash rfl
@[simp] theorem onLink_sec (k : Nat) (f : LinkSt → LinkSt) (s : State) : (onLink k f s).sec = s.sec := Frame.same (frame_onLink (m0 := 16384) _ _ _ (by decide) (Frame.refl _)).sec rfl
@[simp] theorem onLink_pins (k : Nat) (f : LinkSt → LinkSt) (s : State) : (onLink k f s).pins = s.pins := Frame.same (frame_onLink (m0 := 16384) _ _ _ (by decide) (Frame.refl _)).pins rfl
@[simp] theorem onLink_free (k : Nat) (f : LinkSt → LinkSt) (s : State) : (onLink k f s).free = s.free := Frame.same (frame_onLink (m0 := 16384) _ _ _ (by decide) (Frame.refl _)).free rfl
@[simp] theorem setLinkState_pending (k : Nat) (v : Nat) (s : State) : (setLinkState k v s).pending = s.pending := (frame_setLinkState (m0 := 4096) _ _ _ (by decide) (Frame.refl _)).pending
@[simp] theorem setLinkState_clk (k : Nat) (v : Nat) (s : State) : (setLinkState k v s).clk = s.clk := Frame.same (frame_setLinkState (m0 := 4096) _ _ _ (by decide) (Frame.refl _)).clk rfl
@[simp] theorem setLinkState_phase (k : Nat) (v : Nat) (s : State) : (setLinkState k v s).phase = s.phase := Frame.same (frame_setLinkState (m0 := 4096) _ _ _ (by decide) (Frame.refl _)).phase rfl
@[simp] theorem setLinkState_mem (k : Nat) (v : Nat) (s : State) : (setLinkState k v s).mem = s.mem := Frame.same (frame_setLinkState (m0 := 4096) _ _ _ (by decide) (Frame.refl _)).mem rfl
@[simp] theorem setLinkState_sea (k : Nat) (v : Nat) (s : State) : (setLinkState k v s).sea = s.sea := Frame.same (frame_setLinkState (m0 := 4096) _ _ _ (by decide) (Frame.refl _)).sea rfl
@[simp] theorem setLinkState_stk (k : Nat) (v : Nat) (s : State) : (setLinkState k v s).stk = s.stk := Frame.same (frame_setLinkState (m0 := 4096) _ _ _ (by decide) (Frame.refl _)).stk rfl
@[simp] theorem setLinkState_par (k : Nat) (v : Nat) (s : State) : (setLinkState k v s).par = s.par := Frame.same (frame_setLinkState (m0 := 4096) _ _ _ (by decide) (Frame.refl _)).par rfl
@[simp] theorem setLinkState_pwr (k : Nat) (v : Nat) (s : State) : (setLinkState k v s).pwr = s.pwr := Frame.same (frame_setLinkState (m0 := 4096) _ _ _ (by decide) (Frame.refl _)).pwr rfl
@[simp] theorem setLinkState_hxt (k : Nat) (v : Nat) (s : State) : (setLinkState k v s).hxt = s.hxt := Frame.same (frame_setLinkState (m0 := 4096) _ _ _ (by decide) (Frame.refl _)).hxt rfl
@[simp] theorem setLinkState_trf (k : Nat) (v : Nat) (s : State) : (setLinkState k v s).trf = s.trf := Frame.same (frame_setLinkState (m0 := 4096) _ _ _ (by decide) (Frame.refl _)).trf rfl
@[simp] theorem setLinkState_err (k : Nat) (v : Nat) (s : State) : (setLinkState k v s).err = s.err := Frame.same (frame_setLinkState (m0 := 4096) _ _ _ (by decide) (Frame.refl _)).err rfl
@[simp] theorem setLinkState_log (k : Nat) (v : Nat) (s : State) : (setLinkState k v s).log = s.log := Frame.same (frame_setLinkState (m0 := 4096) _ _ _ (by decide) (Frame.refl _)).log rfl
@[simp] theorem setLinkState_chain (k : Nat) (v : Nat) (s : State) : (setLinkState k v s).chain = s.chain := Frame.same (frame_setLinkState (m0 := 4096) _ _ _ (by decide) (Frame.refl _)).chain rfl
@[simp] theorem setLinkState_fab (k : Nat) (v : Nat) (s : State) : (setLinkState k v s).fab = s.fab := Frame.same (frame_setLinkState (m0 := 4096) _ _ _ (by decide) (Frame.refl _)).fab rfl
@[simp] theorem setLinkState_cmp (k : Nat) (v : Nat) (s : State) : (setLinkState k v s).cmp = s.cmp := Frame.same (frame_setLinkState (m0 := 4096) _ _ _ (by decide) (Frame.refl _)).cmp rfl
@[simp] theorem setLinkState_path (k : Nat) (v : Nat) (s : State) : (setLinkState k v s).path = s.path := Frame.same (frame_setLinkState (m0 := 4096) _ _ _ (by decide) (Frame.refl _)).path rfl
@[simp] theorem setLinkState_flash (k : Nat) (v : Nat) (s : State) : (setLinkState k v s).flash = s.flash := Frame.same (frame_setLinkState (m0 := 4096) _ _ _ (by decide) (Frame.refl _)).flash rfl
@[simp] theorem setLinkState_sec (k : Nat) (v : Nat) (s : State) : (setLinkState k v s).sec = s.sec := Frame.same (frame_setLinkState (m0 := 4096) _ _ _ (by decide) (Frame.refl _)).sec rfl
@[simp] theorem setLinkState_pins (k : Nat) (v : Nat) (s : State) : (setLinkState k v s).pins = s.pins := Frame.same (frame_setLinkState (m0 := 4096) _ _ _ (by decide) (Frame.refl _)).pins rfl
@[simp] theorem setLinkState_free (k : Nat) (v : Nat) (s : State) : (setLinkState k v s).free = s.free := Frame.same (frame_setLinkState (m0 := 4096) _ _ _ (by decide) (Frame.refl _)).free rfl
@[simp] theorem onTenant_pending (t : Nat) (f : TenantSt → TenantSt) (s : State) : (onTenant t f s).pending = s.pending := (frame_onTenant (m0 := 512) _ _ _ (by decide) (Frame.refl _)).pending
@[simp] theorem onTenant_clk (t : Nat) (f : TenantSt → TenantSt) (s : State) : (onTenant t f s).clk = s.clk := Frame.same (frame_onTenant (m0 := 512) _ _ _ (by decide) (Frame.refl _)).clk rfl
@[simp] theorem onTenant_phase (t : Nat) (f : TenantSt → TenantSt) (s : State) : (onTenant t f s).phase = s.phase := Frame.same (frame_onTenant (m0 := 512) _ _ _ (by decide) (Frame.refl _)).phase rfl
@[simp] theorem onTenant_mem (t : Nat) (f : TenantSt → TenantSt) (s : State) : (onTenant t f s).mem = s.mem := Frame.same (frame_onTenant (m0 := 512) _ _ _ (by decide) (Frame.refl _)).mem rfl
@[simp] theorem onTenant_sea (t : Nat) (f : TenantSt → TenantSt) (s : State) : (onTenant t f s).sea = s.sea := Frame.same (frame_onTenant (m0 := 512) _ _ _ (by decide) (Frame.refl _)).sea rfl
@[simp] theorem onTenant_stk (t : Nat) (f : TenantSt → TenantSt) (s : State) : (onTenant t f s).stk = s.stk := Frame.same (frame_onTenant (m0 := 512) _ _ _ (by decide) (Frame.refl _)).stk rfl
@[simp] theorem onTenant_par (t : Nat) (f : TenantSt → TenantSt) (s : State) : (onTenant t f s).par = s.par := Frame.same (frame_onTenant (m0 := 512) _ _ _ (by decide) (Frame.refl _)).par rfl
@[simp] theorem onTenant_pwr (t : Nat) (f : TenantSt → TenantSt) (s : State) : (onTenant t f s).pwr = s.pwr := Frame.same (frame_onTenant (m0 := 512) _ _ _ (by decide) (Frame.refl _)).pwr rfl
@[simp] theorem onTenant_hxt (t : Nat) (f : TenantSt → TenantSt) (s : State) : (onTenant t f s).hxt = s.hxt := Frame.same (frame_onTenant (m0 := 512) _ _ _ (by decide) (Frame.refl _)).hxt rfl
@[simp] theorem onTenant_err (t : Nat) (f : TenantSt → TenantSt) (s : State) : (onTenant t f s).err = s.err := Frame.same (frame_onTenant (m0 := 512) _ _ _ (by decide) (Frame.refl _)).err rfl
@[simp] theorem onTenant_log (t : Nat) (f : TenantSt → TenantSt) (s : State) : (onTenant t f s).log = s.log := Frame.same (frame_onTenant (m0 := 512) _ _ _ (by decide) (Frame.refl _)).log rfl
@[simp] theorem onTenant_dir (t : Nat) (f : TenantSt → TenantSt) (s : State) : (onTenant t f s).dir = s.dir := Frame.same (frame_onTenant (m0 := 512) _ _ _ (by decide) (Frame.refl _)).dir rfl
@[simp] theorem onTenant_chain (t : Nat) (f : TenantSt → TenantSt) (s : State) : (onTenant t f s).chain = s.chain := Frame.same (frame_onTenant (m0 := 512) _ _ _ (by decide) (Frame.refl _)).chain rfl
@[simp] theorem onTenant_fab (t : Nat) (f : TenantSt → TenantSt) (s : State) : (onTenant t f s).fab = s.fab := Frame.same (frame_onTenant (m0 := 512) _ _ _ (by decide) (Frame.refl _)).fab rfl
@[simp] theorem onTenant_cmp (t : Nat) (f : TenantSt → TenantSt) (s : State) : (onTenant t f s).cmp = s.cmp := Frame.same (frame_onTenant (m0 := 512) _ _ _ (by decide) (Frame.refl _)).cmp rfl
@[simp] theorem onTenant_path (t : Nat) (f : TenantSt → TenantSt) (s : State) : (onTenant t f s).path = s.path := Frame.same (frame_onTenant (m0 := 512) _ _ _ (by decide) (Frame.refl _)).path rfl
@[simp] theorem onTenant_flash (t : Nat) (f : TenantSt → TenantSt) (s : State) : (onTenant t f s).flash = s.flash := Frame.same (frame_onTenant (m0 := 512) _ _ _ (by decide) (Frame.refl _)).flash rfl
@[simp] theorem onTenant_sec (t : Nat) (f : TenantSt → TenantSt) (s : State) : (onTenant t f s).sec = s.sec := Frame.same (frame_onTenant (m0 := 512) _ _ _ (by decide) (Frame.refl _)).sec rfl
@[simp] theorem onTenant_pins (t : Nat) (f : TenantSt → TenantSt) (s : State) : (onTenant t f s).pins = s.pins := Frame.same (frame_onTenant (m0 := 512) _ _ _ (by decide) (Frame.refl _)).pins rfl
@[simp] theorem onTenant_free (t : Nat) (f : TenantSt → TenantSt) (s : State) : (onTenant t f s).free = s.free := Frame.same (frame_onTenant (m0 := 512) _ _ _ (by decide) (Frame.refl _)).free rfl
@[simp] theorem onPart_pending (id : Nat) (f : Part → Part) (s : State) : (onPart id f s).pending = s.pending := (frame_onPart (m0 := 65536) _ _ _ (by decide) (Frame.refl _)).pending
@[simp] theorem onPart_clk (id : Nat) (f : Part → Part) (s : State) : (onPart id f s).clk = s.clk := Frame.same (frame_onPart (m0 := 65536) _ _ _ (by decide) (Frame.refl _)).clk rfl
@[simp] theorem onPart_phase (id : Nat) (f : Part → Part) (s : State) : (onPart id f s).phase = s.phase := Frame.same (frame_onPart (m0 := 65536) _ _ _ (by decide) (Frame.refl _)).phase rfl
@[simp] theorem onPart_mem (id : Nat) (f : Part → Part) (s : State) : (onPart id f s).mem = s.mem := Frame.same (frame_onPart (m0 := 65536) _ _ _ (by decide) (Frame.refl _)).mem rfl
@[simp] theorem onPart_sea (id : Nat) (f : Part → Part) (s : State) : (onPart id f s).sea = s.sea := Frame.same (frame_onPart (m0 := 65536) _ _ _ (by decide) (Frame.refl _)).sea rfl
@[simp] theorem onPart_stk (id : Nat) (f : Part → Part) (s : State) : (onPart id f s).stk = s.stk := Frame.same (frame_onPart (m0 := 65536) _ _ _ (by decide) (Frame.refl _)).stk rfl
@[simp] theorem onPart_par (id : Nat) (f : Part → Part) (s : State) : (onPart id f s).par = s.par := Frame.same (frame_onPart (m0 := 65536) _ _ _ (by decide) (Frame.refl _)).par rfl
@[simp] theorem onPart_pwr (id : Nat) (f : Part → Part) (s : State) : (onPart id f s).pwr = s.pwr := Frame.same (frame_onPart (m0 := 65536) _ _ _ (by decide) (Frame.refl _)).pwr rfl
@[simp] theorem onPart_hxt (id : Nat) (f : Part → Part) (s : State) : (onPart id f s).hxt = s.hxt := Frame.same (frame_onPart (m0 := 65536) _ _ _ (by decide) (Frame.refl _)).hxt rfl
@[simp] theorem onPart_trf (id : Nat) (f : Part → Part) (s : State) : (onPart id f s).trf = s.trf := Frame.same (frame_onPart (m0 := 65536) _ _ _ (by decide) (Frame.refl _)).trf rfl
@[simp] theorem onPart_err (id : Nat) (f : Part → Part) (s : State) : (onPart id f s).err = s.err := Frame.same (frame_onPart (m0 := 65536) _ _ _ (by decide) (Frame.refl _)).err rfl
@[simp] theorem onPart_log (id : Nat) (f : Part → Part) (s : State) : (onPart id f s).log = s.log := Frame.same (frame_onPart (m0 := 65536) _ _ _ (by decide) (Frame.refl _)).log rfl
@[simp] theorem onPart_dir (id : Nat) (f : Part → Part) (s : State) : (onPart id f s).dir = s.dir := Frame.same (frame_onPart (m0 := 65536) _ _ _ (by decide) (Frame.refl _)).dir rfl
@[simp] theorem onPart_chain (id : Nat) (f : Part → Part) (s : State) : (onPart id f s).chain = s.chain := Frame.same (frame_onPart (m0 := 65536) _ _ _ (by decide) (Frame.refl _)).chain rfl
@[simp] theorem onPart_fab (id : Nat) (f : Part → Part) (s : State) : (onPart id f s).fab = s.fab := Frame.same (frame_onPart (m0 := 65536) _ _ _ (by decide) (Frame.refl _)).fab rfl
@[simp] theorem onPart_cmp (id : Nat) (f : Part → Part) (s : State) : (onPart id f s).cmp = s.cmp := Frame.same (frame_onPart (m0 := 65536) _ _ _ (by decide) (Frame.refl _)).cmp rfl
@[simp] theorem onPart_flash (id : Nat) (f : Part → Part) (s : State) : (onPart id f s).flash = s.flash := Frame.same (frame_onPart (m0 := 65536) _ _ _ (by decide) (Frame.refl _)).flash rfl
@[simp] theorem onPart_sec (id : Nat) (f : Part → Part) (s : State) : (onPart id f s).sec = s.sec := Frame.same (frame_onPart (m0 := 65536) _ _ _ (by decide) (Frame.refl _)).sec rfl
@[simp] theorem onPart_pins (id : Nat) (f : Part → Part) (s : State) : (onPart id f s).pins = s.pins := Frame.same (frame_onPart (m0 := 65536) _ _ _ (by decide) (Frame.refl _)).pins rfl
@[simp] theorem onPart_free (id : Nat) (f : Part → Part) (s : State) : (onPart id f s).free = s.free := Frame.same (frame_onPart (m0 := 65536) _ _ _ (by decide) (Frame.refl _)).free rfl
@[simp] theorem onStream_pending (k : Nat) (f : Stream → Stream) (s : State) : (onStream k f s).pending = s.pending := (frame_onStream (m0 := 16) _ _ _ (by decide) (Frame.refl _)).pending
@[simp] theorem onStream_clk (k : Nat) (f : Stream → Stream) (s : State) : (onStream k f s).clk = s.clk := Frame.same (frame_onStream (m0 := 16) _ _ _ (by decide) (Frame.refl _)).clk rfl
@[simp] theorem onStream_phase (k : Nat) (f : Stream → Stream) (s : State) : (onStream k f s).phase = s.phase := Frame.same (frame_onStream (m0 := 16) _ _ _ (by decide) (Frame.refl _)).phase rfl
@[simp] theorem onStream_mem (k : Nat) (f : Stream → Stream) (s : State) : (onStream k f s).mem = s.mem := Frame.same (frame_onStream (m0 := 16) _ _ _ (by decide) (Frame.refl _)).mem rfl
@[simp] theorem onStream_stk (k : Nat) (f : Stream → Stream) (s : State) : (onStream k f s).stk = s.stk := Frame.same (frame_onStream (m0 := 16) _ _ _ (by decide) (Frame.refl _)).stk rfl
@[simp] theorem onStream_par (k : Nat) (f : Stream → Stream) (s : State) : (onStream k f s).par = s.par := Frame.same (frame_onStream (m0 := 16) _ _ _ (by decide) (Frame.refl _)).par rfl
@[simp] theorem onStream_pwr (k : Nat) (f : Stream → Stream) (s : State) : (onStream k f s).pwr = s.pwr := Frame.same (frame_onStream (m0 := 16) _ _ _ (by decide) (Frame.refl _)).pwr rfl
@[simp] theorem onStream_hxt (k : Nat) (f : Stream → Stream) (s : State) : (onStream k f s).hxt = s.hxt := Frame.same (frame_onStream (m0 := 16) _ _ _ (by decide) (Frame.refl _)).hxt rfl
@[simp] theorem onStream_trf (k : Nat) (f : Stream → Stream) (s : State) : (onStream k f s).trf = s.trf := Frame.same (frame_onStream (m0 := 16) _ _ _ (by decide) (Frame.refl _)).trf rfl
@[simp] theorem onStream_err (k : Nat) (f : Stream → Stream) (s : State) : (onStream k f s).err = s.err := Frame.same (frame_onStream (m0 := 16) _ _ _ (by decide) (Frame.refl _)).err rfl
@[simp] theorem onStream_log (k : Nat) (f : Stream → Stream) (s : State) : (onStream k f s).log = s.log := Frame.same (frame_onStream (m0 := 16) _ _ _ (by decide) (Frame.refl _)).log rfl
@[simp] theorem onStream_dir (k : Nat) (f : Stream → Stream) (s : State) : (onStream k f s).dir = s.dir := Frame.same (frame_onStream (m0 := 16) _ _ _ (by decide) (Frame.refl _)).dir rfl
@[simp] theorem onStream_chain (k : Nat) (f : Stream → Stream) (s : State) : (onStream k f s).chain = s.chain := Frame.same (frame_onStream (m0 := 16) _ _ _ (by decide) (Frame.refl _)).chain rfl
@[simp] theorem onStream_fab (k : Nat) (f : Stream → Stream) (s : State) : (onStream k f s).fab = s.fab := Frame.same (frame_onStream (m0 := 16) _ _ _ (by decide) (Frame.refl _)).fab rfl
@[simp] theorem onStream_cmp (k : Nat) (f : Stream → Stream) (s : State) : (onStream k f s).cmp = s.cmp := Frame.same (frame_onStream (m0 := 16) _ _ _ (by decide) (Frame.refl _)).cmp rfl
@[simp] theorem onStream_path (k : Nat) (f : Stream → Stream) (s : State) : (onStream k f s).path = s.path := Frame.same (frame_onStream (m0 := 16) _ _ _ (by decide) (Frame.refl _)).path rfl
@[simp] theorem onStream_flash (k : Nat) (f : Stream → Stream) (s : State) : (onStream k f s).flash = s.flash := Frame.same (frame_onStream (m0 := 16) _ _ _ (by decide) (Frame.refl _)).flash rfl
@[simp] theorem onStream_sec (k : Nat) (f : Stream → Stream) (s : State) : (onStream k f s).sec = s.sec := Frame.same (frame_onStream (m0 := 16) _ _ _ (by decide) (Frame.refl _)).sec rfl
@[simp] theorem onStream_pins (k : Nat) (f : Stream → Stream) (s : State) : (onStream k f s).pins = s.pins := Frame.same (frame_onStream (m0 := 16) _ _ _ (by decide) (Frame.refl _)).pins rfl
@[simp] theorem onStream_free (k : Nat) (f : Stream → Stream) (s : State) : (onStream k f s).free = s.free := Frame.same (frame_onStream (m0 := 16) _ _ _ (by decide) (Frame.refl _)).free rfl
@[simp] theorem fabOut_pending (m : FabMsg) (s : State) : (fabOut m s).pending = s.pending := (frame_fabOut (m0 := 16384) _ _ (by decide) (Frame.refl _)).pending
@[simp] theorem fabOut_clk (m : FabMsg) (s : State) : (fabOut m s).clk = s.clk := Frame.same (frame_fabOut (m0 := 16384) _ _ (by decide) (Frame.refl _)).clk rfl
@[simp] theorem fabOut_phase (m : FabMsg) (s : State) : (fabOut m s).phase = s.phase := Frame.same (frame_fabOut (m0 := 16384) _ _ (by decide) (Frame.refl _)).phase rfl
@[simp] theorem fabOut_mem (m : FabMsg) (s : State) : (fabOut m s).mem = s.mem := Frame.same (frame_fabOut (m0 := 16384) _ _ (by decide) (Frame.refl _)).mem rfl
@[simp] theorem fabOut_sea (m : FabMsg) (s : State) : (fabOut m s).sea = s.sea := Frame.same (frame_fabOut (m0 := 16384) _ _ (by decide) (Frame.refl _)).sea rfl
@[simp] theorem fabOut_stk (m : FabMsg) (s : State) : (fabOut m s).stk = s.stk := Frame.same (frame_fabOut (m0 := 16384) _ _ (by decide) (Frame.refl _)).stk rfl
@[simp] theorem fabOut_par (m : FabMsg) (s : State) : (fabOut m s).par = s.par := Frame.same (frame_fabOut (m0 := 16384) _ _ (by decide) (Frame.refl _)).par rfl
@[simp] theorem fabOut_pwr (m : FabMsg) (s : State) : (fabOut m s).pwr = s.pwr := Frame.same (frame_fabOut (m0 := 16384) _ _ (by decide) (Frame.refl _)).pwr rfl
@[simp] theorem fabOut_hxt (m : FabMsg) (s : State) : (fabOut m s).hxt = s.hxt := Frame.same (frame_fabOut (m0 := 16384) _ _ (by decide) (Frame.refl _)).hxt rfl
@[simp] theorem fabOut_trf (m : FabMsg) (s : State) : (fabOut m s).trf = s.trf := Frame.same (frame_fabOut (m0 := 16384) _ _ (by decide) (Frame.refl _)).trf rfl
@[simp] theorem fabOut_err (m : FabMsg) (s : State) : (fabOut m s).err = s.err := Frame.same (frame_fabOut (m0 := 16384) _ _ (by decide) (Frame.refl _)).err rfl
@[simp] theorem fabOut_log (m : FabMsg) (s : State) : (fabOut m s).log = s.log := Frame.same (frame_fabOut (m0 := 16384) _ _ (by decide) (Frame.refl _)).log rfl
@[simp] theorem fabOut_dir (m : FabMsg) (s : State) : (fabOut m s).dir = s.dir := Frame.same (frame_fabOut (m0 := 16384) _ _ (by decide) (Frame.refl _)).dir rfl
@[simp] theorem fabOut_chain (m : FabMsg) (s : State) : (fabOut m s).chain = s.chain := Frame.same (frame_fabOut (m0 := 16384) _ _ (by decide) (Frame.refl _)).chain rfl
@[simp] theorem fabOut_cmp (m : FabMsg) (s : State) : (fabOut m s).cmp = s.cmp := Frame.same (frame_fabOut (m0 := 16384) _ _ (by decide) (Frame.refl _)).cmp rfl
@[simp] theorem fabOut_path (m : FabMsg) (s : State) : (fabOut m s).path = s.path := Frame.same (frame_fabOut (m0 := 16384) _ _ (by decide) (Frame.refl _)).path rfl
@[simp] theorem fabOut_flash (m : FabMsg) (s : State) : (fabOut m s).flash = s.flash := Frame.same (frame_fabOut (m0 := 16384) _ _ (by decide) (Frame.refl _)).flash rfl
@[simp] theorem fabOut_sec (m : FabMsg) (s : State) : (fabOut m s).sec = s.sec := Frame.same (frame_fabOut (m0 := 16384) _ _ (by decide) (Frame.refl _)).sec rfl
@[simp] theorem fabOut_pins (m : FabMsg) (s : State) : (fabOut m s).pins = s.pins := Frame.same (frame_fabOut (m0 := 16384) _ _ (by decide) (Frame.refl _)).pins rfl
@[simp] theorem fabOut_free (m : FabMsg) (s : State) : (fabOut m s).free = s.free := Frame.same (frame_fabOut (m0 := 16384) _ _ (by decide) (Frame.refl _)).free rfl
@[simp] theorem fabSend_pending (link : Nat) (slot : Nat) (detour : Bool) (h : Hdr) (inl : Bytes) (data : Bytes) (s : State) : (fabSend link slot detour h inl data s).pending = s.pending := (frame_fabSend (m0 := 16384) _ _ _ _ _ _ _ (by decide) (Frame.refl _)).pending
@[simp] theorem fabSend_clk (link : Nat) (slot : Nat) (detour : Bool) (h : Hdr) (inl : Bytes) (data : Bytes) (s : State) : (fabSend link slot detour h inl data s).clk = s.clk := Frame.same (frame_fabSend (m0 := 16384) _ _ _ _ _ _ _ (by decide) (Frame.refl _)).clk rfl
@[simp] theorem fabSend_phase (link : Nat) (slot : Nat) (detour : Bool) (h : Hdr) (inl : Bytes) (data : Bytes) (s : State) : (fabSend link slot detour h inl data s).phase = s.phase := Frame.same (frame_fabSend (m0 := 16384) _ _ _ _ _ _ _ (by decide) (Frame.refl _)).phase rfl
@[simp] theorem fabSend_mem (link : Nat) (slot : Nat) (detour : Bool) (h : Hdr) (inl : Bytes) (data : Bytes) (s : State) : (fabSend link slot detour h inl data s).mem = s.mem := Frame.same (frame_fabSend (m0 := 16384) _ _ _ _ _ _ _ (by decide) (Frame.refl _)).mem rfl
@[simp] theorem fabSend_sea (link : Nat) (slot : Nat) (detour : Bool) (h : Hdr) (inl : Bytes) (data : Bytes) (s : State) : (fabSend link slot detour h inl data s).sea = s.sea := Frame.same (frame_fabSend (m0 := 16384) _ _ _ _ _ _ _ (by decide) (Frame.refl _)).sea rfl
@[simp] theorem fabSend_stk (link : Nat) (slot : Nat) (detour : Bool) (h : Hdr) (inl : Bytes) (data : Bytes) (s : State) : (fabSend link slot detour h inl data s).stk = s.stk := Frame.same (frame_fabSend (m0 := 16384) _ _ _ _ _ _ _ (by decide) (Frame.refl _)).stk rfl
@[simp] theorem fabSend_par (link : Nat) (slot : Nat) (detour : Bool) (h : Hdr) (inl : Bytes) (data : Bytes) (s : State) : (fabSend link slot detour h inl data s).par = s.par := Frame.same (frame_fabSend (m0 := 16384) _ _ _ _ _ _ _ (by decide) (Frame.refl _)).par rfl
@[simp] theorem fabSend_pwr (link : Nat) (slot : Nat) (detour : Bool) (h : Hdr) (inl : Bytes) (data : Bytes) (s : State) : (fabSend link slot detour h inl data s).pwr = s.pwr := Frame.same (frame_fabSend (m0 := 16384) _ _ _ _ _ _ _ (by decide) (Frame.refl _)).pwr rfl
@[simp] theorem fabSend_hxt (link : Nat) (slot : Nat) (detour : Bool) (h : Hdr) (inl : Bytes) (data : Bytes) (s : State) : (fabSend link slot detour h inl data s).hxt = s.hxt := Frame.same (frame_fabSend (m0 := 16384) _ _ _ _ _ _ _ (by decide) (Frame.refl _)).hxt rfl
@[simp] theorem fabSend_trf (link : Nat) (slot : Nat) (detour : Bool) (h : Hdr) (inl : Bytes) (data : Bytes) (s : State) : (fabSend link slot detour h inl data s).trf = s.trf := Frame.same (frame_fabSend (m0 := 16384) _ _ _ _ _ _ _ (by decide) (Frame.refl _)).trf rfl
@[simp] theorem fabSend_err (link : Nat) (slot : Nat) (detour : Bool) (h : Hdr) (inl : Bytes) (data : Bytes) (s : State) : (fabSend link slot detour h inl data s).err = s.err := Frame.same (frame_fabSend (m0 := 16384) _ _ _ _ _ _ _ (by decide) (Frame.refl _)).err rfl
@[simp] theorem fabSend_log (link : Nat) (slot : Nat) (detour : Bool) (h : Hdr) (inl : Bytes) (data : Bytes) (s : State) : (fabSend link slot detour h inl data s).log = s.log := Frame.same (frame_fabSend (m0 := 16384) _ _ _ _ _ _ _ (by decide) (Frame.refl _)).log rfl
@[simp] theorem fabSend_dir (link : Nat) (slot : Nat) (detour : Bool) (h : Hdr) (inl : Bytes) (data : Bytes) (s : State) : (fabSend link slot detour h inl data s).dir = s.dir := Frame.same (frame_fabSend (m0 := 16384) _ _ _ _ _ _ _ (by decide) (Frame.refl _)).dir rfl
@[simp] theorem fabSend_chain (link : Nat) (slot : Nat) (detour : Bool) (h : Hdr) (inl : Bytes) (data : Bytes) (s : State) : (fabSend link slot detour h inl data s).chain = s.chain := Frame.same (frame_fabSend (m0 := 16384) _ _ _ _ _ _ _ (by decide) (Frame.refl _)).chain rfl
@[simp] theorem fabSend_cmp (link : Nat) (slot : Nat) (detour : Bool) (h : Hdr) (inl : Bytes) (data : Bytes) (s : State) : (fabSend link slot detour h inl data s).cmp = s.cmp := Frame.same (frame_fabSend (m0 := 16384) _ _ _ _ _ _ _ (by decide) (Frame.refl _)).cmp rfl
@[simp] theorem fabSend_path (link : Nat) (slot : Nat) (detour : Bool) (h : Hdr) (inl : Bytes) (data : Bytes) (s : State) : (fabSend link slot detour h inl data s).path = s.path := Frame.same (frame_fabSend (m0 := 16384) _ _ _ _ _ _ _ (by decide) (Frame.refl _)).path rfl
@[simp] theorem fabSend_flash (link : Nat) (slot : Nat) (detour : Bool) (h : Hdr) (inl : Bytes) (data : Bytes) (s : State) : (fabSend link slot detour h inl data s).flash = s.flash := Frame.same (frame_fabSend (m0 := 16384) _ _ _ _ _ _ _ (by decide) (Frame.refl _)).flash rfl
@[simp] theorem fabSend_sec (link : Nat) (slot : Nat) (detour : Bool) (h : Hdr) (inl : Bytes) (data : Bytes) (s : State) : (fabSend link slot detour h inl data s).sec = s.sec := Frame.same (frame_fabSend (m0 := 16384) _ _ _ _ _ _ _ (by decide) (Frame.refl _)).sec rfl
@[simp] theorem fabSend_pins (link : Nat) (slot : Nat) (detour : Bool) (h : Hdr) (inl : Bytes) (data : Bytes) (s : State) : (fabSend link slot detour h inl data s).pins = s.pins := Frame.same (frame_fabSend (m0 := 16384) _ _ _ _ _ _ _ (by decide) (Frame.refl _)).pins rfl
@[simp] theorem fabSend_free (link : Nat) (slot : Nat) (detour : Bool) (h : Hdr) (inl : Bytes) (data : Bytes) (s : State) : (fabSend link slot detour h inl data s).free = s.free := Frame.same (frame_fabSend (m0 := 16384) _ _ _ _ _ _ _ (by decide) (Frame.refl _)).free rfl
@[simp] theorem dropChal_pending (sid : Nat) (chain : Bool) (s : State) : (dropChal sid chain s).pending = s.pending := (frame_dropChal (m0 := 256) _ _ _ (by decide) (Frame.refl _)).pending
@[simp] theorem dropChal_clk (sid : Nat) (chain : Bool) (s : State) : (dropChal sid chain s).clk = s.clk := Frame.same (frame_dropChal (m0 := 256) _ _ _ (by decide) (Frame.refl _)).clk rfl
@[simp] theorem dropChal_phase (sid : Nat) (chain : Bool) (s : State) : (dropChal sid chain s).phase = s.phase := Frame.same (frame_dropChal (m0 := 256) _ _ _ (by decide) (Frame.refl _)).phase rfl
@[simp] theorem dropChal_mem (sid : Nat) (chain : Bool) (s : State) : (dropChal sid chain s).mem = s.mem := Frame.same (frame_dropChal (m0 := 256) _ _ _ (by decide) (Frame.refl _)).mem rfl
@[simp] theorem dropChal_sea (sid : Nat) (chain : Bool) (s : State) : (dropChal sid chain s).sea = s.sea := Frame.same (frame_dropChal (m0 := 256) _ _ _ (by decide) (Frame.refl _)).sea rfl
@[simp] theorem dropChal_stk (sid : Nat) (chain : Bool) (s : State) : (dropChal sid chain s).stk = s.stk := Frame.same (frame_dropChal (m0 := 256) _ _ _ (by decide) (Frame.refl _)).stk rfl
@[simp] theorem dropChal_par (sid : Nat) (chain : Bool) (s : State) : (dropChal sid chain s).par = s.par := Frame.same (frame_dropChal (m0 := 256) _ _ _ (by decide) (Frame.refl _)).par rfl
@[simp] theorem dropChal_pwr (sid : Nat) (chain : Bool) (s : State) : (dropChal sid chain s).pwr = s.pwr := Frame.same (frame_dropChal (m0 := 256) _ _ _ (by decide) (Frame.refl _)).pwr rfl
@[simp] theorem dropChal_trf (sid : Nat) (chain : Bool) (s : State) : (dropChal sid chain s).trf = s.trf := Frame.same (frame_dropChal (m0 := 256) _ _ _ (by decide) (Frame.refl _)).trf rfl
@[simp] theorem dropChal_err (sid : Nat) (chain : Bool) (s : State) : (dropChal sid chain s).err = s.err := Frame.same (frame_dropChal (m0 := 256) _ _ _ (by decide) (Frame.refl _)).err rfl
@[simp] theorem dropChal_log (sid : Nat) (chain : Bool) (s : State) : (dropChal sid chain s).log = s.log := Frame.same (frame_dropChal (m0 := 256) _ _ _ (by decide) (Frame.refl _)).log rfl
@[simp] theorem dropChal_dir (sid : Nat) (chain : Bool) (s : State) : (dropChal sid chain s).dir = s.dir := Frame.same (frame_dropChal (m0 := 256) _ _ _ (by decide) (Frame.refl _)).dir rfl
@[simp] theorem dropChal_chain (sid : Nat) (chain : Bool) (s : State) : (dropChal sid chain s).chain = s.chain := Frame.same (frame_dropChal (m0 := 256) _ _ _ (by decide) (Frame.refl _)).chain rfl
@[simp] theorem dropChal_fab (sid : Nat) (chain : Bool) (s : State) : (dropChal sid chain s).fab = s.fab := Frame.same (frame_dropChal (m0 := 256) _ _ _ (by decide) (Frame.refl _)).fab rfl
@[simp] theorem dropChal_cmp (sid : Nat) (chain : Bool) (s : State) : (dropChal sid chain s).cmp = s.cmp := Frame.same (frame_dropChal (m0 := 256) _ _ _ (by decide) (Frame.refl _)).cmp rfl
@[simp] theorem dropChal_path (sid : Nat) (chain : Bool) (s : State) : (dropChal sid chain s).path = s.path := Frame.same (frame_dropChal (m0 := 256) _ _ _ (by decide) (Frame.refl _)).path rfl
@[simp] theorem dropChal_flash (sid : Nat) (chain : Bool) (s : State) : (dropChal sid chain s).flash = s.flash := Frame.same (frame_dropChal (m0 := 256) _ _ _ (by decide) (Frame.refl _)).flash rfl
@[simp] theorem dropChal_sec (sid : Nat) (chain : Bool) (s : State) : (dropChal sid chain s).sec = s.sec := Frame.same (frame_dropChal (m0 := 256) _ _ _ (by decide) (Frame.refl _)).sec rfl
@[simp] theorem dropChal_pins (sid : Nat) (chain : Bool) (s : State) : (dropChal sid chain s).pins = s.pins := Frame.same (frame_dropChal (m0 := 256) _ _ _ (by decide) (Frame.refl _)).pins rfl
@[simp] theorem dropChal_free (sid : Nat) (chain : Bool) (s : State) : (dropChal sid chain s).free = s.free := Frame.same (frame_dropChal (m0 := 256) _ _ _ (by decide) (Frame.refl _)).free rfl
@[simp] theorem addSess_pending (x : Sess) (s : State) : (addSess x s).pending = s.pending := (frame_addSess (m0 := 256) _ _ (by decide) (Frame.refl _)).pending
@[simp] theorem addSess_clk (x : Sess) (s : State) : (addSess x s).clk = s.clk := Frame.same (frame_addSess (m0 := 256) _ _ (by decide) (Frame.refl _)).clk rfl
@[simp] theorem addSess_phase (x : Sess) (s : State) : (addSess x s).phase = s.phase := Frame.same (frame_addSess (m0 := 256) _ _ (by decide) (Frame.refl _)).phase rfl
@[simp] theorem addSess_mem (x : Sess) (s : State) : (addSess x s).mem = s.mem := Frame.same (frame_addSess (m0 := 256) _ _ (by decide) (Frame.refl _)).mem rfl
@[simp] theorem addSess_sea (x : Sess) (s : State) : (addSess x s).sea = s.sea := Frame.same (frame_addSess (m0 := 256) _ _ (by decide) (Frame.refl _)).sea rfl
@[simp] theorem addSess_stk (x : Sess) (s : State) : (addSess x s).stk = s.stk := Frame.same (frame_addSess (m0 := 256) _ _ (by decide) (Frame.refl _)).stk rfl
@[simp] theorem addSess_par (x : Sess) (s : State) : (addSess x s).par = s.par := Frame.same (frame_addSess (m0 := 256) _ _ (by decide) (Frame.refl _)).par rfl
@[simp] theorem addSess_pwr (x : Sess) (s : State) : (addSess x s).pwr = s.pwr := Frame.same (frame_addSess (m0 := 256) _ _ (by decide) (Frame.refl _)).pwr rfl
@[simp] theorem addSess_trf (x : Sess) (s : State) : (addSess x s).trf = s.trf := Frame.same (frame_addSess (m0 := 256) _ _ (by decide) (Frame.refl _)).trf rfl
@[simp] theorem addSess_err (x : Sess) (s : State) : (addSess x s).err = s.err := Frame.same (frame_addSess (m0 := 256) _ _ (by decide) (Frame.refl _)).err rfl
@[simp] theorem addSess_log (x : Sess) (s : State) : (addSess x s).log = s.log := Frame.same (frame_addSess (m0 := 256) _ _ (by decide) (Frame.refl _)).log rfl
@[simp] theorem addSess_dir (x : Sess) (s : State) : (addSess x s).dir = s.dir := Frame.same (frame_addSess (m0 := 256) _ _ (by decide) (Frame.refl _)).dir rfl
@[simp] theorem addSess_chain (x : Sess) (s : State) : (addSess x s).chain = s.chain := Frame.same (frame_addSess (m0 := 256) _ _ (by decide) (Frame.refl _)).chain rfl
@[simp] theorem addSess_fab (x : Sess) (s : State) : (addSess x s).fab = s.fab := Frame.same (frame_addSess (m0 := 256) _ _ (by decide) (Frame.refl _)).fab rfl
@[simp] theorem addSess_cmp (x : Sess) (s : State) : (addSess x s).cmp = s.cmp := Frame.same (frame_addSess (m0 := 256) _ _ (by decide) (Frame.refl _)).cmp rfl
@[simp] theorem addSess_path (x : Sess) (s : State) : (addSess x s).path = s.path := Frame.same (frame_addSess (m0 := 256) _ _ (by decide) (Frame.refl _)).path rfl
@[simp] theorem addSess_flash (x : Sess) (s : State) : (addSess x s).flash = s.flash := Frame.same (frame_addSess (m0 := 256) _ _ (by decide) (Frame.refl _)).flash rfl
@[simp] theorem addSess_sec (x : Sess) (s : State) : (addSess x s).sec = s.sec := Frame.same (frame_addSess (m0 := 256) _ _ (by decide) (Frame.refl _)).sec rfl
@[simp] theorem addSess_pins (x : Sess) (s : State) : (addSess x s).pins = s.pins := Frame.same (frame_addSess (m0 := 256) _ _ (by decide) (Frame.refl _)).pins rfl
@[simp] theorem addSess_free (x : Sess) (s : State) : (addSess x s).free = s.free := Frame.same (frame_addSess (m0 := 256) _ _ (by decide) (Frame.refl _)).free rfl
@[simp] theorem sessCount_pending (s : State) : (sessCount s).pending = s.pending := (frame_sessCount (m0 := 4096) _ (by decide) (Frame.refl _)).pending
@[simp] theorem sessCount_clk (s : State) : (sessCount s).clk = s.clk := Frame.same (frame_sessCount (m0 := 4096) _ (by decide) (Frame.refl _)).clk rfl
@[simp] theorem sessCount_phase (s : State) : (sessCount s).phase = s.phase := Frame.same (frame_sessCount (m0 := 4096) _ (by decide) (Frame.refl _)).phase rfl
@[simp] theorem sessCount_mem (s : State) : (sessCount s).mem = s.mem := Frame.same (frame_sessCount (m0 := 4096) _ (by decide) (Frame.refl _)).mem rfl
@[simp] theorem sessCount_sea (s : State) : (sessCount s).sea = s.sea := Frame.same (frame_sessCount (m0 := 4096) _ (by decide) (Frame.refl _)).sea rfl
@[simp] theorem sessCount_stk (s : State) : (sessCount s).stk = s.stk := Frame.same (frame_sessCount (m0 := 4096) _ (by decide) (Frame.refl _)).stk rfl
@[simp] theorem sessCount_par (s : State) : (sessCount s).par = s.par := Frame.same (frame_sessCount (m0 := 4096) _ (by decide) (Frame.refl _)).par rfl
@[simp] theorem sessCount_pwr (s : State) : (sessCount s).pwr = s.pwr := Frame.same (frame_sessCount (m0 := 4096) _ (by decide) (Frame.refl _)).pwr rfl
@[simp] theorem sessCount_hxt (s : State) : (sessCount s).hxt = s.hxt := Frame.same (frame_sessCount (m0 := 4096) _ (by decide) (Frame.refl _)).hxt rfl
@[simp] theorem sessCount_trf (s : State) : (sessCount s).trf = s.trf := Frame.same (frame_sessCount (m0 := 4096) _ (by decide) (Frame.refl _)).trf rfl
@[simp] theorem sessCount_err (s : State) : (sessCount s).err = s.err := Frame.same (frame_sessCount (m0 := 4096) _ (by decide) (Frame.refl _)).err rfl
@[simp] theorem sessCount_log (s : State) : (sessCount s).log = s.log := Frame.same (frame_sessCount (m0 := 4096) _ (by decide) (Frame.refl _)).log rfl
@[simp] theorem sessCount_chain (s : State) : (sessCount s).chain = s.chain := Frame.same (frame_sessCount (m0 := 4096) _ (by decide) (Frame.refl _)).chain rfl
@[simp] theorem sessCount_fab (s : State) : (sessCount s).fab = s.fab := Frame.same (frame_sessCount (m0 := 4096) _ (by decide) (Frame.refl _)).fab rfl
@[simp] theorem sessCount_cmp (s : State) : (sessCount s).cmp = s.cmp := Frame.same (frame_sessCount (m0 := 4096) _ (by decide) (Frame.refl _)).cmp rfl
@[simp] theorem sessCount_path (s : State) : (sessCount s).path = s.path := Frame.same (frame_sessCount (m0 := 4096) _ (by decide) (Frame.refl _)).path rfl
@[simp] theorem sessCount_flash (s : State) : (sessCount s).flash = s.flash := Frame.same (frame_sessCount (m0 := 4096) _ (by decide) (Frame.refl _)).flash rfl
@[simp] theorem sessCount_sec (s : State) : (sessCount s).sec = s.sec := Frame.same (frame_sessCount (m0 := 4096) _ (by decide) (Frame.refl _)).sec rfl
@[simp] theorem sessCount_pins (s : State) : (sessCount s).pins = s.pins := Frame.same (frame_sessCount (m0 := 4096) _ (by decide) (Frame.refl _)).pins rfl
@[simp] theorem sessCount_free (s : State) : (sessCount s).free = s.free := Frame.same (frame_sessCount (m0 := 4096) _ (by decide) (Frame.refl _)).free rfl
@[simp] theorem refuse_pending (p : Packet) (helloId : Nat) (status : Nat) (s : State) : (refuse p helloId status s).pending = s.pending := (frame_refuse (m0 := 4352) _ _ _ _ (by decide) (Frame.refl _)).pending
@[simp] theorem refuse_clk (p : Packet) (helloId : Nat) (status : Nat) (s : State) : (refuse p helloId status s).clk = s.clk := Frame.same (frame_refuse (m0 := 4352) _ _ _ _ (by decide) (Frame.refl _)).clk rfl
@[simp] theorem refuse_phase (p : Packet) (helloId : Nat) (status : Nat) (s : State) : (refuse p helloId status s).phase = s.phase := Frame.same (frame_refuse (m0 := 4352) _ _ _ _ (by decide) (Frame.refl _)).phase rfl
@[simp] theorem refuse_mem (p : Packet) (helloId : Nat) (status : Nat) (s : State) : (refuse p helloId status s).mem = s.mem := Frame.same (frame_refuse (m0 := 4352) _ _ _ _ (by decide) (Frame.refl _)).mem rfl
@[simp] theorem refuse_sea (p : Packet) (helloId : Nat) (status : Nat) (s : State) : (refuse p helloId status s).sea = s.sea := Frame.same (frame_refuse (m0 := 4352) _ _ _ _ (by decide) (Frame.refl _)).sea rfl
@[simp] theorem refuse_stk (p : Packet) (helloId : Nat) (status : Nat) (s : State) : (refuse p helloId status s).stk = s.stk := Frame.same (frame_refuse (m0 := 4352) _ _ _ _ (by decide) (Frame.refl _)).stk rfl
@[simp] theorem refuse_par (p : Packet) (helloId : Nat) (status : Nat) (s : State) : (refuse p helloId status s).par = s.par := Frame.same (frame_refuse (m0 := 4352) _ _ _ _ (by decide) (Frame.refl _)).par rfl
@[simp] theorem refuse_pwr (p : Packet) (helloId : Nat) (status : Nat) (s : State) : (refuse p helloId status s).pwr = s.pwr := Frame.same (frame_refuse (m0 := 4352) _ _ _ _ (by decide) (Frame.refl _)).pwr rfl
@[simp] theorem refuse_trf (p : Packet) (helloId : Nat) (status : Nat) (s : State) : (refuse p helloId status s).trf = s.trf := Frame.same (frame_refuse (m0 := 4352) _ _ _ _ (by decide) (Frame.refl _)).trf rfl
@[simp] theorem refuse_err (p : Packet) (helloId : Nat) (status : Nat) (s : State) : (refuse p helloId status s).err = s.err := Frame.same (frame_refuse (m0 := 4352) _ _ _ _ (by decide) (Frame.refl _)).err rfl
@[simp] theorem refuse_log (p : Packet) (helloId : Nat) (status : Nat) (s : State) : (refuse p helloId status s).log = s.log := Frame.same (frame_refuse (m0 := 4352) _ _ _ _ (by decide) (Frame.refl _)).log rfl
@[simp] theorem refuse_chain (p : Packet) (helloId : Nat) (status : Nat) (s : State) : (refuse p helloId status s).chain = s.chain := Frame.same (frame_refuse (m0 := 4352) _ _ _ _ (by decide) (Frame.refl _)).chain rfl
@[simp] theorem refuse_fab (p : Packet) (helloId : Nat) (status : Nat) (s : State) : (refuse p helloId status s).fab = s.fab := Frame.same (frame_refuse (m0 := 4352) _ _ _ _ (by decide) (Frame.refl _)).fab rfl
@[simp] theorem refuse_cmp (p : Packet) (helloId : Nat) (status : Nat) (s : State) : (refuse p helloId status s).cmp = s.cmp := Frame.same (frame_refuse (m0 := 4352) _ _ _ _ (by decide) (Frame.refl _)).cmp rfl
@[simp] theorem refuse_path (p : Packet) (helloId : Nat) (status : Nat) (s : State) : (refuse p helloId status s).path = s.path := Frame.same (frame_refuse (m0 := 4352) _ _ _ _ (by decide) (Frame.refl _)).path rfl
@[simp] theorem refuse_flash (p : Packet) (helloId : Nat) (status : Nat) (s : State) : (refuse p helloId status s).flash = s.flash := Frame.same (frame_refuse (m0 := 4352) _ _ _ _ (by decide) (Frame.refl _)).flash rfl
@[simp] theorem refuse_sec (p : Packet) (helloId : Nat) (status : Nat) (s : State) : (refuse p helloId status s).sec = s.sec := Frame.same (frame_refuse (m0 := 4352) _ _ _ _ (by decide) (Frame.refl _)).sec rfl
@[simp] theorem refuse_pins (p : Packet) (helloId : Nat) (status : Nat) (s : State) : (refuse p helloId status s).pins = s.pins := Frame.same (frame_refuse (m0 := 4352) _ _ _ _ (by decide) (Frame.refl _)).pins rfl
@[simp] theorem refuse_free (p : Packet) (helloId : Nat) (status : Nat) (s : State) : (refuse p helloId status s).free = s.free := Frame.same (frame_refuse (m0 := 4352) _ _ _ _ (by decide) (Frame.refl _)).free rfl
@[simp] theorem noteOp_pending (st : Nat) (v : Option DVal) (s : State) : (noteOp st v s).pending = s.pending := (frame_noteOp (m0 := 4096) _ _ _ (by decide) (Frame.refl _)).pending
@[simp] theorem noteOp_clk (st : Nat) (v : Option DVal) (s : State) : (noteOp st v s).clk = s.clk := Frame.same (frame_noteOp (m0 := 4096) _ _ _ (by decide) (Frame.refl _)).clk rfl
@[simp] theorem noteOp_phase (st : Nat) (v : Option DVal) (s : State) : (noteOp st v s).phase = s.phase := Frame.same (frame_noteOp (m0 := 4096) _ _ _ (by decide) (Frame.refl _)).phase rfl
@[simp] theorem noteOp_mem (st : Nat) (v : Option DVal) (s : State) : (noteOp st v s).mem = s.mem := Frame.same (frame_noteOp (m0 := 4096) _ _ _ (by decide) (Frame.refl _)).mem rfl
@[simp] theorem noteOp_sea (st : Nat) (v : Option DVal) (s : State) : (noteOp st v s).sea = s.sea := Frame.same (frame_noteOp (m0 := 4096) _ _ _ (by decide) (Frame.refl _)).sea rfl
@[simp] theorem noteOp_stk (st : Nat) (v : Option DVal) (s : State) : (noteOp st v s).stk = s.stk := Frame.same (frame_noteOp (m0 := 4096) _ _ _ (by decide) (Frame.refl _)).stk rfl
@[simp] theorem noteOp_par (st : Nat) (v : Option DVal) (s : State) : (noteOp st v s).par = s.par := Frame.same (frame_noteOp (m0 := 4096) _ _ _ (by decide) (Frame.refl _)).par rfl
@[simp] theorem noteOp_pwr (st : Nat) (v : Option DVal) (s : State) : (noteOp st v s).pwr = s.pwr := Frame.same (frame_noteOp (m0 := 4096) _ _ _ (by decide) (Frame.refl _)).pwr rfl
@[simp] theorem noteOp_hxt (st : Nat) (v : Option DVal) (s : State) : (noteOp st v s).hxt = s.hxt := Frame.same (frame_noteOp (m0 := 4096) _ _ _ (by decide) (Frame.refl _)).hxt rfl
@[simp] theorem noteOp_trf (st : Nat) (v : Option DVal) (s : State) : (noteOp st v s).trf = s.trf := Frame.same (frame_noteOp (m0 := 4096) _ _ _ (by decide) (Frame.refl _)).trf rfl
@[simp] theorem noteOp_err (st : Nat) (v : Option DVal) (s : State) : (noteOp st v s).err = s.err := Frame.same (frame_noteOp (m0 := 4096) _ _ _ (by decide) (Frame.refl _)).err rfl
@[simp] theorem noteOp_log (st : Nat) (v : Option DVal) (s : State) : (noteOp st v s).log = s.log := Frame.same (frame_noteOp (m0 := 4096) _ _ _ (by decide) (Frame.refl _)).log rfl
@[simp] theorem noteOp_chain (st : Nat) (v : Option DVal) (s : State) : (noteOp st v s).chain = s.chain := Frame.same (frame_noteOp (m0 := 4096) _ _ _ (by decide) (Frame.refl _)).chain rfl
@[simp] theorem noteOp_fab (st : Nat) (v : Option DVal) (s : State) : (noteOp st v s).fab = s.fab := Frame.same (frame_noteOp (m0 := 4096) _ _ _ (by decide) (Frame.refl _)).fab rfl
@[simp] theorem noteOp_cmp (st : Nat) (v : Option DVal) (s : State) : (noteOp st v s).cmp = s.cmp := Frame.same (frame_noteOp (m0 := 4096) _ _ _ (by decide) (Frame.refl _)).cmp rfl
@[simp] theorem noteOp_path (st : Nat) (v : Option DVal) (s : State) : (noteOp st v s).path = s.path := Frame.same (frame_noteOp (m0 := 4096) _ _ _ (by decide) (Frame.refl _)).path rfl
@[simp] theorem noteOp_flash (st : Nat) (v : Option DVal) (s : State) : (noteOp st v s).flash = s.flash := Frame.same (frame_noteOp (m0 := 4096) _ _ _ (by decide) (Frame.refl _)).flash rfl
@[simp] theorem noteOp_sec (st : Nat) (v : Option DVal) (s : State) : (noteOp st v s).sec = s.sec := Frame.same (frame_noteOp (m0 := 4096) _ _ _ (by decide) (Frame.refl _)).sec rfl
@[simp] theorem noteOp_pins (st : Nat) (v : Option DVal) (s : State) : (noteOp st v s).pins = s.pins := Frame.same (frame_noteOp (m0 := 4096) _ _ _ (by decide) (Frame.refl _)).pins rfl
@[simp] theorem noteOp_free (st : Nat) (v : Option DVal) (s : State) : (noteOp st v s).free = s.free := Frame.same (frame_noteOp (m0 := 4096) _ _ _ (by decide) (Frame.refl _)).free rfl
@[simp] theorem onXslot_pending (n : Nat) (f : XSlot → XSlot) (s : State) : (onXslot n f s).pending = s.pending := (frame_onXslot (m0 := 4096) _ _ _ (by decide) (Frame.refl _)).pending
@[simp] theorem onXslot_clk (n : Nat) (f : XSlot → XSlot) (s : State) : (onXslot n f s).clk = s.clk := Frame.same (frame_onXslot (m0 := 4096) _ _ _ (by decide) (Frame.refl _)).clk rfl
@[simp] theorem onXslot_phase (n : Nat) (f : XSlot → XSlot) (s : State) : (onXslot n f s).phase = s.phase := Frame.same (frame_onXslot (m0 := 4096) _ _ _ (by decide) (Frame.refl _)).phase rfl
@[simp] theorem onXslot_mem (n : Nat) (f : XSlot → XSlot) (s : State) : (onXslot n f s).mem = s.mem := Frame.same (frame_onXslot (m0 := 4096) _ _ _ (by decide) (Frame.refl _)).mem rfl
@[simp] theorem onXslot_sea (n : Nat) (f : XSlot → XSlot) (s : State) : (onXslot n f s).sea = s.sea := Frame.same (frame_onXslot (m0 := 4096) _ _ _ (by decide) (Frame.refl _)).sea rfl
@[simp] theorem onXslot_stk (n : Nat) (f : XSlot → XSlot) (s : State) : (onXslot n f s).stk = s.stk := Frame.same (frame_onXslot (m0 := 4096) _ _ _ (by decide) (Frame.refl _)).stk rfl
@[simp] theorem onXslot_par (n : Nat) (f : XSlot → XSlot) (s : State) : (onXslot n f s).par = s.par := Frame.same (frame_onXslot (m0 := 4096) _ _ _ (by decide) (Frame.refl _)).par rfl
@[simp] theorem onXslot_pwr (n : Nat) (f : XSlot → XSlot) (s : State) : (onXslot n f s).pwr = s.pwr := Frame.same (frame_onXslot (m0 := 4096) _ _ _ (by decide) (Frame.refl _)).pwr rfl
@[simp] theorem onXslot_hxt (n : Nat) (f : XSlot → XSlot) (s : State) : (onXslot n f s).hxt = s.hxt := Frame.same (frame_onXslot (m0 := 4096) _ _ _ (by decide) (Frame.refl _)).hxt rfl
@[simp] theorem onXslot_trf (n : Nat) (f : XSlot → XSlot) (s : State) : (onXslot n f s).trf = s.trf := Frame.same (frame_onXslot (m0 := 4096) _ _ _ (by decide) (Frame.refl _)).trf rfl
@[simp] theorem onXslot_err (n : Nat) (f : XSlot → XSlot) (s : State) : (onXslot n f s).err = s.err := Frame.same (frame_onXslot (m0 := 4096) _ _ _ (by decide) (Frame.refl _)).err rfl
@[simp] theorem onXslot_log (n : Nat) (f : XSlot → XSlot) (s : State) : (onXslot n f s).log = s.log := Frame.same (frame_onXslot (m0 := 4096) _ _ _ (by decide) (Frame.refl _)).log rfl
@[simp] theorem onXslot_chain (n : Nat) (f : XSlot → XSlot) (s : State) : (onXslot n f s).chain = s.chain := Frame.same (frame_onXslot (m0 := 4096) _ _ _ (by decide) (Frame.refl _)).chain rfl
@[simp] theorem onXslot_fab (n : Nat) (f : XSlot → XSlot) (s : State) : (onXslot n f s).fab = s.fab := Frame.same (frame_onXslot (m0 := 4096) _ _ _ (by decide) (Frame.refl _)).fab rfl
@[simp] theorem onXslot_cmp (n : Nat) (f : XSlot → XSlot) (s : State) : (onXslot n f s).cmp = s.cmp := Frame.same (frame_onXslot (m0 := 4096) _ _ _ (by decide) (Frame.refl _)).cmp rfl
@[simp] theorem onXslot_path (n : Nat) (f : XSlot → XSlot) (s : State) : (onXslot n f s).path = s.path := Frame.same (frame_onXslot (m0 := 4096) _ _ _ (by decide) (Frame.refl _)).path rfl
@[simp] theorem onXslot_flash (n : Nat) (f : XSlot → XSlot) (s : State) : (onXslot n f s).flash = s.flash := Frame.same (frame_onXslot (m0 := 4096) _ _ _ (by decide) (Frame.refl _)).flash rfl
@[simp] theorem onXslot_sec (n : Nat) (f : XSlot → XSlot) (s : State) : (onXslot n f s).sec = s.sec := Frame.same (frame_onXslot (m0 := 4096) _ _ _ (by decide) (Frame.refl _)).sec rfl
@[simp] theorem onXslot_pins (n : Nat) (f : XSlot → XSlot) (s : State) : (onXslot n f s).pins = s.pins := Frame.same (frame_onXslot (m0 := 4096) _ _ _ (by decide) (Frame.refl _)).pins rfl
@[simp] theorem onXslot_free (n : Nat) (f : XSlot → XSlot) (s : State) : (onXslot n f s).free = s.free := Frame.same (frame_onXslot (m0 := 4096) _ _ _ (by decide) (Frame.refl _)).free rfl
@[simp] theorem ringWrite_pending (k : Nat) (c : Circ) (b : Bytes) (s : State) : (ringWrite k c b s).pending = s.pending := (frame_ringWrite (m0 := 40) _ _ _ _ (by decide) (Frame.refl _)).pending
@[simp] theorem ringWrite_clk (k : Nat) (c : Circ) (b : Bytes) (s : State) : (ringWrite k c b s).clk = s.clk := Frame.same (frame_ringWrite (m0 := 40) _ _ _ _ (by decide) (Frame.refl _)).clk rfl
@[simp] theorem ringWrite_phase (k : Nat) (c : Circ) (b : Bytes) (s : State) : (ringWrite k c b s).phase = s.phase := Frame.same (frame_ringWrite (m0 := 40) _ _ _ _ (by decide) (Frame.refl _)).phase rfl
@[simp] theorem ringWrite_sea (k : Nat) (c : Circ) (b : Bytes) (s : State) : (ringWrite k c b s).sea = s.sea := Frame.same (frame_ringWrite (m0 := 40) _ _ _ _ (by decide) (Frame.refl _)).sea rfl
@[simp] theorem ringWrite_par (k : Nat) (c : Circ) (b : Bytes) (s : State) : (ringWrite k c b s).par = s.par := Frame.same (frame_ringWrite (m0 := 40) _ _ _ _ (by decide) (Frame.refl _)).par rfl
@[simp] theorem ringWrite_pwr (k : Nat) (c : Circ) (b : Bytes) (s : State) : (ringWrite k c b s).pwr = s.pwr := Frame.same (frame_ringWrite (m0 := 40) _ _ _ _ (by decide) (Frame.refl _)).pwr rfl
@[simp] theorem ringWrite_hxt (k : Nat) (c : Circ) (b : Bytes) (s : State) : (ringWrite k c b s).hxt = s.hxt := Frame.same (frame_ringWrite (m0 := 40) _ _ _ _ (by decide) (Frame.refl _)).hxt rfl
@[simp] theorem ringWrite_trf (k : Nat) (c : Circ) (b : Bytes) (s : State) : (ringWrite k c b s).trf = s.trf := Frame.same (frame_ringWrite (m0 := 40) _ _ _ _ (by decide) (Frame.refl _)).trf rfl
@[simp] theorem ringWrite_err (k : Nat) (c : Circ) (b : Bytes) (s : State) : (ringWrite k c b s).err = s.err := Frame.same (frame_ringWrite (m0 := 40) _ _ _ _ (by decide) (Frame.refl _)).err rfl
@[simp] theorem ringWrite_log (k : Nat) (c : Circ) (b : Bytes) (s : State) : (ringWrite k c b s).log = s.log := Frame.same (frame_ringWrite (m0 := 40) _ _ _ _ (by decide) (Frame.refl _)).log rfl
@[simp] theorem ringWrite_dir (k : Nat) (c : Circ) (b : Bytes) (s : State) : (ringWrite k c b s).dir = s.dir := Frame.same (frame_ringWrite (m0 := 40) _ _ _ _ (by decide) (Frame.refl _)).dir rfl
@[simp] theorem ringWrite_chain (k : Nat) (c : Circ) (b : Bytes) (s : State) : (ringWrite k c b s).chain = s.chain := Frame.same (frame_ringWrite (m0 := 40) _ _ _ _ (by decide) (Frame.refl _)).chain rfl
@[simp] theorem ringWrite_fab (k : Nat) (c : Circ) (b : Bytes) (s : State) : (ringWrite k c b s).fab = s.fab := Frame.same (frame_ringWrite (m0 := 40) _ _ _ _ (by decide) (Frame.refl _)).fab rfl
@[simp] theorem ringWrite_cmp (k : Nat) (c : Circ) (b : Bytes) (s : State) : (ringWrite k c b s).cmp = s.cmp := Frame.same (frame_ringWrite (m0 := 40) _ _ _ _ (by decide) (Frame.refl _)).cmp rfl
@[simp] theorem ringWrite_path (k : Nat) (c : Circ) (b : Bytes) (s : State) : (ringWrite k c b s).path = s.path := Frame.same (frame_ringWrite (m0 := 40) _ _ _ _ (by decide) (Frame.refl _)).path rfl
@[simp] theorem ringWrite_flash (k : Nat) (c : Circ) (b : Bytes) (s : State) : (ringWrite k c b s).flash = s.flash := Frame.same (frame_ringWrite (m0 := 40) _ _ _ _ (by decide) (Frame.refl _)).flash rfl
@[simp] theorem ringWrite_sec (k : Nat) (c : Circ) (b : Bytes) (s : State) : (ringWrite k c b s).sec = s.sec := Frame.same (frame_ringWrite (m0 := 40) _ _ _ _ (by decide) (Frame.refl _)).sec rfl
@[simp] theorem ringWrite_pins (k : Nat) (c : Circ) (b : Bytes) (s : State) : (ringWrite k c b s).pins = s.pins := Frame.same (frame_ringWrite (m0 := 40) _ _ _ _ (by decide) (Frame.refl _)).pins rfl
@[simp] theorem ringWrite_free (k : Nat) (c : Circ) (b : Bytes) (s : State) : (ringWrite k c b s).free = s.free := Frame.same (frame_ringWrite (m0 := 40) _ _ _ _ (by decide) (Frame.refl _)).free rfl
@[simp] theorem addTrace_pending (e : Trace) (s : State) : (addTrace e s).pending = s.pending := (frame_addTrace (m0 := 2048) _ _ (by decide) (Frame.refl _)).pending
@[simp] theorem addTrace_clk (e : Trace) (s : State) : (addTrace e s).clk = s.clk := Frame.same (frame_addTrace (m0 := 2048) _ _ (by decide) (Frame.refl _)).clk rfl
@[simp] theorem addTrace_phase (e : Trace) (s : State) : (addTrace e s).phase = s.phase := Frame.same (frame_addTrace (m0 := 2048) _ _ (by decide) (Frame.refl _)).phase rfl
@[simp] theorem addTrace_mem (e : Trace) (s : State) : (addTrace e s).mem = s.mem := Frame.same (frame_addTrace (m0 := 2048) _ _ (by decide) (Frame.refl _)).mem rfl
@[simp] theorem addTrace_sea (e : Trace) (s : State) : (addTrace e s).sea = s.sea := Frame.same (frame_addTrace (m0 := 2048) _ _ (by decide) (Frame.refl _)).sea rfl
@[simp] theorem addTrace_stk (e : Trace) (s : State) : (addTrace e s).stk = s.stk := Frame.same (frame_addTrace (m0 := 2048) _ _ (by decide) (Frame.refl _)).stk rfl
@[simp] theorem addTrace_par (e : Trace) (s : State) : (addTrace e s).par = s.par := Frame.same (frame_addTrace (m0 := 2048) _ _ (by decide) (Frame.refl _)).par rfl
@[simp] theorem addTrace_pwr (e : Trace) (s : State) : (addTrace e s).pwr = s.pwr := Frame.same (frame_addTrace (m0 := 2048) _ _ (by decide) (Frame.refl _)).pwr rfl
@[simp] theorem addTrace_hxt (e : Trace) (s : State) : (addTrace e s).hxt = s.hxt := Frame.same (frame_addTrace (m0 := 2048) _ _ (by decide) (Frame.refl _)).hxt rfl
@[simp] theorem addTrace_trf (e : Trace) (s : State) : (addTrace e s).trf = s.trf := Frame.same (frame_addTrace (m0 := 2048) _ _ (by decide) (Frame.refl _)).trf rfl
@[simp] theorem addTrace_err (e : Trace) (s : State) : (addTrace e s).err = s.err := Frame.same (frame_addTrace (m0 := 2048) _ _ (by decide) (Frame.refl _)).err rfl
@[simp] theorem addTrace_dir (e : Trace) (s : State) : (addTrace e s).dir = s.dir := Frame.same (frame_addTrace (m0 := 2048) _ _ (by decide) (Frame.refl _)).dir rfl
@[simp] theorem addTrace_chain (e : Trace) (s : State) : (addTrace e s).chain = s.chain := Frame.same (frame_addTrace (m0 := 2048) _ _ (by decide) (Frame.refl _)).chain rfl
@[simp] theorem addTrace_fab (e : Trace) (s : State) : (addTrace e s).fab = s.fab := Frame.same (frame_addTrace (m0 := 2048) _ _ (by decide) (Frame.refl _)).fab rfl
@[simp] theorem addTrace_cmp (e : Trace) (s : State) : (addTrace e s).cmp = s.cmp := Frame.same (frame_addTrace (m0 := 2048) _ _ (by decide) (Frame.refl _)).cmp rfl
@[simp] theorem addTrace_path (e : Trace) (s : State) : (addTrace e s).path = s.path := Frame.same (frame_addTrace (m0 := 2048) _ _ (by decide) (Frame.refl _)).path rfl
@[simp] theorem addTrace_flash (e : Trace) (s : State) : (addTrace e s).flash = s.flash := Frame.same (frame_addTrace (m0 := 2048) _ _ (by decide) (Frame.refl _)).flash rfl
@[simp] theorem addTrace_sec (e : Trace) (s : State) : (addTrace e s).sec = s.sec := Frame.same (frame_addTrace (m0 := 2048) _ _ (by decide) (Frame.refl _)).sec rfl
@[simp] theorem addTrace_pins (e : Trace) (s : State) : (addTrace e s).pins = s.pins := Frame.same (frame_addTrace (m0 := 2048) _ _ (by decide) (Frame.refl _)).pins rfl
@[simp] theorem addTrace_free (e : Trace) (s : State) : (addTrace e s).free = s.free := Frame.same (frame_addTrace (m0 := 2048) _ _ (by decide) (Frame.refl _)).free rfl

end Sys2Proof.Machine
end

