-- ==== Sys2Proof/Laws/Reads.lean ====
section
/-! SUPPORT. Reads: reading the state after a named write: directory entries, threads and their registers, sequencers,
requests, bytes of memory. -/
namespace Sys2Proof.Machine
set_option Elab.async false
set_option linter.all false

/-! ### The directory -/

theorem dirVal_dirPut (k j : Nat) (v : DVal) (s : State) :
    dirVal (dirPut k v s) j = if j = k then v else dirVal s j := by
  unfold dirVal dirPut valsPut
  by_cases h : j = k
  · subst h; simp
  · simp [h, smGetD_smSet_ne _ _ _ _ _ _ h]

@[simp] theorem dirVal_dirPut_self (k : Nat) (v : DVal) (s : State) : dirVal (dirPut k v s) k = v := by
  simp [dirVal_dirPut]

theorem dirNum_dirSet (k j n : Nat) (s : State) : dirNum (dirSet k n s) j = if j = k then n else dirNum s j := by
  unfold dirNum dirSet
  rw [dirVal_dirPut]
  by_cases h : j = k <;> simp [h]

@[simp] theorem dirNum_dirSet_self (k n : Nat) (s : State) : dirNum (dirSet k n s) k = n := by simp [dirNum_dirSet]

theorem dirNum_dirPut_ne (k j : Nat) (v : DVal) (s : State) (h : j ≠ k) : dirNum (dirPut k v s) j = dirNum s j := by
  unfold dirNum; rw [dirVal_dirPut]; simp [h]

theorem dirNum_bumpBy (k j n : Nat) (s : State) :
    dirNum (bumpBy k n s) j = if j = k then min (entMax k) (dirNum s k + n) else dirNum s j := by
  unfold bumpBy; rw [dirNum_dirSet]

theorem dirNum_bump (k j : Nat) (s : State) :
    dirNum (bump k s) j = if j = k then min (entMax k) (dirNum s k + 1) else dirNum s j := by
  unfold bump; rw [dirNum_bumpBy]

/-- A state with the same directory reads the same. -/
theorem dirNum_congr {s t : State} (h : t.dir = s.dir) (j : Nat) : dirNum t j = dirNum s j := by
  unfold dirNum dirVal; rw [h]

/-! ### Threads -/

theorem thread_onThread (th k : Nat) (f : Thread → Thread) (s : State) :
    thread (onThread th f s) k = if k = th then f (thread s th) else thread s k := by
  unfold thread onThread
  by_cases h : k = th
  · subst h; simp [thread]
  · simp [h, smGetD_smPut_ne _ _ _ _ _ h]

@[simp] theorem thread_onThread_self (th : Nat) (f : Thread → Thread) (s : State) :
    thread (onThread th f s) th = f (thread s th) := by simp [thread_onThread]

theorem thread_congr {s t : State} (h : t.sea = s.sea) (k : Nat) : thread t k = thread s k := by
  unfold thread; rw [h]

@[simp] theorem thread_issued (th k : Nat) (s : State) : thread (issued th s) k = thread s k := by
  unfold issued charge thread
  dsimp only
  split <;> rfl

@[simp] theorem issued_streams (th : Nat) (s : State) : (issued th s).sea.streams = s.sea.streams := by
  unfold issued charge; dsimp only; split <;> rfl

@[simp] theorem issued_outq (th : Nat) (s : State) : (issued th s).sea.outq = s.sea.outq := by
  unfold issued charge; dsimp only; split <;> rfl

@[simp] theorem advance_pc (n : Nat) (t : Thread) : (advance n t).pc = (t.pc + n) % 2 ^ 64 := rfl
@[simp] theorem advance_x (n : Nat) (t : Thread) : (advance n t).x = t.x := rfl
@[simp] theorem advance_f (n : Nat) (t : Thread) : (advance n t).f = t.f := rfl
@[simp] theorem advance_v (n : Nat) (t : Thread) : (advance n t).v = t.v := rfl
@[simp] theorem advance_csr (n : Nat) (t : Thread) : (advance n t).csr = t.csr := rfl
@[simp] theorem advance_lists (n : Nat) (t : Thread) : (advance n t).lists = t.lists := rfl
@[simp] theorem advance_box (n : Nat) (t : Thread) : (advance n t).box = t.box := rfl
@[simp] theorem advance_run (n : Nat) (t : Thread) : (advance n t).run = t.run := rfl
@[simp] theorem advance_resv (n : Nat) (t : Thread) : (advance n t).resv = t.resv := rfl
@[simp] theorem advance_user (n : Nat) (t : Thread) : (advance n t).user = t.user := rfl

theorem rx_eq_of_x {t u : Thread} (h : t.x = u.x) (r : Nat) : rx t r = rx u r := by unfold rx; rw [h]

@[simp] theorem rx_advance (n : Nat) (t : Thread) (r : Nat) : rx (advance n t) r = rx t r := rfl
@[simp] theorem rf_advance (n : Nat) (t : Thread) (r : Nat) : rf (advance n t) r = rf t r := rfl
@[simp] theorem rv_advance (n : Nat) (t : Thread) (r : Nat) : rv (advance n t) r = rv t r := rfl
@[simp] theorem rcsr_advance (n : Nat) (t : Thread) (r : Nat) : rcsr (advance n t) r = rcsr t r := rfl
@[simp] theorem ulist_advance (n : Nat) (t : Thread) (r : Nat) : ulist (advance n t) r = ulist t r := rfl

/-- Reading an integer register after a write of one: x0 discards (R33). -/
theorem rx_setX (rd r : Nat) (v : W64) (t : Thread) : rx (setX rd v t) r = if r = rd ∧ rd ≠ 0 then v else rx t r := by
  unfold setX
  by_cases h0 : rd = 0
  · simp [h0]
  · simp only [h0, if_false]
    by_cases h : r = rd
    · subst h; simp [rx, h0]
    · simp [rx, h, smGetD_smSet_ne _ _ _ _ _ _ h]

@[simp] theorem setX_pc (rd : Nat) (v : W64) (t : Thread) : (setX rd v t).pc = t.pc := by unfold setX; split <;> rfl
@[simp] theorem setX_f (rd : Nat) (v : W64) (t : Thread) : (setX rd v t).f = t.f := by unfold setX; split <;> rfl
@[simp] theorem setX_v (rd : Nat) (v : W64) (t : Thread) : (setX rd v t).v = t.v := by unfold setX; split <;> rfl
@[simp] theorem setX_csr (rd : Nat) (v : W64) (t : Thread) : (setX rd v t).csr = t.csr := by unfold setX; split <;> rfl
@[simp] theorem setX_lists (rd : Nat) (v : W64) (t : Thread) : (setX rd v t).lists = t.lists := by unfold setX; split <;> rfl
@[simp] theorem setX_box (rd : Nat) (v : W64) (t : Thread) : (setX rd v t).box = t.box := by unfold setX; split <;> rfl
@[simp] theorem setX_run (rd : Nat) (v : W64) (t : Thread) : (setX rd v t).run = t.run := by unfold setX; split <;> rfl
@[simp] theorem setX_resv (rd : Nat) (v : W64) (t : Thread) : (setX rd v t).resv = t.resv := by unfold setX; split <;> rfl

@[simp] theorem setCsr_pc (a v : Nat) (t : Thread) : (setCsr a v t).pc = t.pc := rfl
@[simp] theorem setCsr_x (a v : Nat) (t : Thread) : (setCsr a v t).x = t.x := rfl
@[simp] theorem setCsr_f (a v : Nat) (t : Thread) : (setCsr a v t).f = t.f := rfl
@[simp] theorem setCsr_v (a v : Nat) (t : Thread) : (setCsr a v t).v = t.v := rfl
@[simp] theorem setCsr_lists (a v : Nat) (t : Thread) : (setCsr a v t).lists = t.lists := rfl
@[simp] theorem setCsr_run (a v : Nat) (t : Thread) : (setCsr a v t).run = t.run := rfl
@[simp] theorem setCsr_box (a v : Nat) (t : Thread) : (setCsr a v t).box = t.box := rfl

/-- Reading a CSR after a write of one. -/
theorem rcsr_setCsr (a b v : Nat) (t : Thread) : rcsr (setCsr a v t) b = if b = a then v % 2 ^ 64 else rcsr t b := by
  unfold rcsr setCsr
  by_cases h : b = a
  · subst h; simp
  · simp [h, smGetD_smSet_ne _ _ _ _ _ _ h]

theorem rx_setCsr (a v r : Nat) (t : Thread) : rx (setCsr a v t) r = rx t r := rfl

/-- Reading a vector register after a write of one. -/
theorem rv_setV (r k : Nat) (v : V512) (t : Thread) : rv (setV r v t) k = if k % 32 = r % 32 then v else rv t k := by
  unfold rv setV
  by_cases h : k % 32 = r % 32
  · simp [h]
  · simp [h, smGetD_smSet_ne _ _ _ _ _ _ h]

@[simp] theorem setV_pc (r : Nat) (v : V512) (t : Thread) : (setV r v t).pc = t.pc := rfl
@[simp] theorem setV_x (r : Nat) (v : V512) (t : Thread) : (setV r v t).x = t.x := rfl
@[simp] theorem setV_f (r : Nat) (v : V512) (t : Thread) : (setV r v t).f = t.f := rfl
@[simp] theorem setV_csr (r : Nat) (v : V512) (t : Thread) : (setV r v t).csr = t.csr := rfl
@[simp] theorem setV_lists (r : Nat) (v : V512) (t : Thread) : (setV r v t).lists = t.lists := rfl

theorem rf_setF (r k : Nat) (v : W64) (t : Thread) : rf (setF r v t) k = if k = r then v else rf t k := by
  unfold rf setF; simp [smGetD_smSet]

theorem ulist_setList (i k : Nat) (l : UList) (t : Thread) : ulist (setList i l t) k = if k = i then l else ulist t k := by
  unfold ulist setList; simp [smGetD_smSet]

@[simp] theorem setList_pc (i : Nat) (l : UList) (t : Thread) : (setList i l t).pc = t.pc := rfl
@[simp] theorem setList_x (i : Nat) (l : UList) (t : Thread) : (setList i l t).x = t.x := rfl
@[simp] theorem setList_csr (i : Nat) (l : UList) (t : Thread) : (setList i l t).csr = t.csr := rfl
@[simp] theorem setList_v (i : Nat) (l : UList) (t : Thread) : (setList i l t).v = t.v := rfl
@[simp] theorem setList_f (i : Nat) (l : UList) (t : Thread) : (setList i l t).f = t.f := rfl

/-! ### Issue -/

/-- An instruction whose thread can issue and whose registers are free acts on the issued state. -/
theorem onRegs_of {th : Nat} {xs fs vs : List Nat} {f : State → State} {s : State} (hi : canIssue s th = true)
    (hb : regBusy (thread s th) xs fs vs = false) : onRegs th xs fs vs f s = f (issued th s) := by
  unfold onRegs onIssue; rw [hb, hi]; rfl

theorem onIssue_of {th : Nat} {f : State → State} {s : State} (hi : canIssue s th = true) :
    onIssue th f s = f (issued th s) := by
  unfold onIssue; rw [hi]; rfl

/-! ### Sequencers, requests, memory -/

theorem seqr_onSeqr (k j : Nat) (f : Seqr → Seqr) (s : State) :
    seqr (onSeqr k f s) j = if j = k then f (seqr s k) else seqr s j := by
  unfold seqr onSeqr; simp [smGetD_smPut, seqr]

@[simp] theorem seqr_onSeqr_self (k : Nat) (f : Seqr → Seqr) (s : State) : seqr (onSeqr k f s) k = f (seqr s k) := by
  simp [seqr_onSeqr]

theorem seqr_congr {s t : State} (h : t.stk = s.stk) (k : Nat) : seqr t k = seqr s k := by unfold seqr; rw [h]

/-- A byte after a write: the byte written inside the run, the old byte outside it. -/
theorem memByte_memWrite (a i : Nat) (b : Bytes) (s : State) :
    memByte (memWrite a b s) i = if a ≤ i ∧ i < a + b.length then b.getD (i - a) 0 else memByte s i := by
  unfold memByte memWrite; exact smGetD_cellsWrite b s.mem.bytes a i

@[simp] theorem freshCheck_bytes (a n : Nat) (s : State) : (freshCheck a n s).mem.bytes = s.mem.bytes := rfl
@[simp] theorem memByte_freshCheck (a n i : Nat) (s : State) : memByte (freshCheck a n s) i = memByte s i := rfl

theorem memByte_congr {s t : State} (h : t.mem.bytes = s.mem.bytes) (i : Nat) : memByte t i = memByte s i := by
  unfold memByte; rw [h]

/-- The word of `b.length` bytes read where it was just written. -/
theorem memRead_memWrite_self (a : Nat) (b : Bytes) (s : State) : memRead (memWrite a b s) a b.length = b := by
  have key : ∀ (l : Bytes) (k : Nat), (∀ i, i < l.length → b.getD (k + i) 0 = l.getD i 0) → k + l.length ≤ b.length →
      memRead (memWrite a b s) (a + k) l.length = l := by
    intro l
    induction l with
    | nil => intro k _ _; rfl
    | cons x t ih =>
      intro k hk hl
      simp only [List.length_cons] at hl ⊢
      unfold memRead
      congr 1
      · rw [memByte_memWrite, if_pos (by omega), show a + k - a = k by omega]
        have := hk 0 (by simp)
        simpa using this
      · rw [Nat.add_assoc]
        exact ih (k + 1) (fun i hi => by
          have := hk (i + 1) (by simpa using hi)
          simpa [Nat.add_assoc, Nat.add_comm 1 i] using this) (by omega)
  have := key b 0 (fun i _ => by simp) (by omega)
  simpa using this

end Sys2Proof.Machine
end

