-- ==== Sys2Proof/Laws/Access.lean ====
section
/-! SUPPORT. Access: what a read or a write of plain local memory by a thread does, said once. -/
namespace Sys2Proof.Machine
set_option Elab.async false
set_option linter.all false

/-! ### Bytes and numbers -/

@[simp] theorem leBytes_length (n v : Nat) : (leBytes n v).length = n := by
  induction n generalizing v with
  | zero => rfl
  | succ n ih => simp [leBytes, ih]

theorem leNat_lt (b : Bytes) : leNat b < 256 ^ b.length := by
  induction b with
  | nil => simp [leNat]
  | cons x t ih =>
    have := x.isLt
    simp only [leNat, List.length_cons, Nat.pow_succ]
    omega

theorem leBytes_leNat (b : Bytes) : leBytes b.length (leNat b) = b := by
  induction b with
  | nil => rfl
  | cons x t ih =>
    have hx := x.isLt
    have h1 : (x.toNat + 256 * leNat t) / 256 = leNat t := by omega
    have h2 : (BitVec.ofNat 8 (x.toNat + 256 * leNat t) : Byte) = x := by
      apply BitVec.eq_of_toNat_eq
      simp only [BitVec.toNat_ofNat]; omega
    simp only [leBytes, leNat, List.length_cons, h1, h2, ih]

theorem leNat_leBytes (n v : Nat) : leNat (leBytes n v) = v % 256 ^ n := by
  induction n generalizing v with
  | zero => simp [leBytes, leNat, Nat.mod_one]
  | succ n ih =>
    simp only [leBytes, leNat, ih, BitVec.toNat_ofNat, Nat.pow_succ]
    have : v % (256 ^ n * 256) = v % 256 + 256 * (v / 256 % 256 ^ n) := by
      rw [Nat.mul_comm, Nat.mod_mul]
    omega

theorem leBytes_word (b : Bytes) (h : b.length = 64) : leBytes 64 (BitVec.ofNat 512 (leNat b) : V512).toNat = b := by
  have e : (256 : Nat) ^ 64 = 2 ^ 512 := by rw [show (256 : Nat) = 2 ^ 8 from rfl, ← Nat.pow_mul]
  have h2 : leNat b % 2 ^ 512 = leNat b := Nat.mod_eq_of_lt (by have := leNat_lt b; rw [h, e] at this; exact this)
  rw [BitVec.toNat_ofNat, h2]
  have := leBytes_leNat b
  rwa [h] at this

@[simp] theorem slice_length (b : Bytes) (o n : Nat) : (slice b o n).length = n := by
  unfold slice zeros; simp <;> omega

theorem slice_in (b : Bytes) (o n : Nat) (h : o + n ≤ b.length) : slice b o n = (b.drop o).take n := by
  unfold slice zeros
  have : n - ((b.drop o).take n).length = 0 := by simp; omega
  dsimp only
  rw [this]; simp

theorem patch_length (b v : Bytes) (o : Nat) (h : o + v.length ≤ b.length) : (patch b o v).length = b.length := by
  unfold patch; simp; omega

theorem slice_patch (b v : Bytes) (o : Nat) (h : o + v.length ≤ b.length) : slice (patch b o v) o v.length = v := by
  rw [slice_in _ _ _ (by rw [patch_length _ _ _ h]; exact h)]
  unfold patch
  have h1 : (b.take o).length = o := by simp; omega
  have h2 : v.take (b.length - o) = v := List.take_of_length_le (by omega)
  rw [h2, List.append_assoc, List.drop_append_of_le_length (by omega)]
  have h3 : (b.take o).drop o = [] := List.drop_of_length_le (by omega)
  rw [h3]; simp

theorem memRead_length (s : State) (a n : Nat) : (memRead s a n).length = n := by
  induction n generalizing a with
  | zero => rfl
  | succ n ih => simp [memRead, ih]

theorem fixWord_length (s : State) (w : Nat) : (fixWord s w).length = 8 := by
  unfold fixWord; dsimp only; split <;> simp

theorem upFrom_length (a n : Nat) : (upFrom a n).length = n := by
  induction n generalizing a with
  | zero => rfl
  | succ n ih => simp [upFrom, ih]

theorem flatMap_eight {α : Type} (l : List α) (f : α → Bytes) (h : ∀ x, (f x).length = 8) :
    (l.flatMap f).length = 8 * l.length := by
  induction l with
  | nil => rfl
  | cons x t ih => simp [List.flatMap_cons, h, ih]; omega

theorem fixedRead_length (s : State) (a n : Nat) : (fixedRead s a n).length = n := by
  unfold fixedRead wordsOf
  rw [List.length_take, List.length_drop, flatMap_eight _ _ (fixWord_length s), upFrom_length]
  omega

/-! ### Quiet changes -/

/-- From `s` to `t` only caches, automatic prefetch, idle times and directory values may differ. -/
def Quiet (s t : State) : Prop :=
  t = { s with mem := { s.mem with lines := t.mem.lines },
               sea := { s.sea with train := t.sea.train, streams := t.sea.streams }, pwr := t.pwr,
               dir := { s.dir with vals := t.dir.vals } }

theorem Quiet.refl (s : State) : Quiet s s := rfl

theorem Quiet.trans {s t u : State} (h : Quiet s t) (k : Quiet t u) : Quiet s u := by
  unfold Quiet at *
  rw [h] at k
  exact k

theorem Quiet.bytes {s t : State} (h : Quiet s t) : t.mem.bytes = s.mem.bytes := by rw [h]
theorem Quiet.synd {s t : State} (h : Quiet s t) : t.mem.synd = s.mem.synd := by rw [h]
theorem Quiet.threads {s t : State} (h : Quiet s t) : t.sea.threads = s.sea.threads := by rw [h]

theorem thread_of_threads {s t : State} (h : t.sea.threads = s.sea.threads) (k : Nat) : thread t k = thread s k := by
  unfold thread; rw [h]

theorem memRead_congr {s t : State} (h : t.mem.bytes = s.mem.bytes) (a n : Nat) : memRead t a n = memRead s a n := by
  induction n generalizing a with
  | zero => rfl
  | succ n ih => unfold memRead; rw [ih, memByte_congr h]

theorem fixWord_congr {s t : State} (h : t.mem.bytes = s.mem.bytes) (g : t.mem.synd = s.mem.synd) (w : Nat) :
    fixWord t w = fixWord s w := by
  unfold fixWord syndOf; rw [g, memRead_congr h]

theorem fixedRead_congr {s t : State} (h : t.mem.bytes = s.mem.bytes) (g : t.mem.synd = s.mem.synd) (a n : Nat) :
    fixedRead t a n = fixedRead s a n := by
  unfold fixedRead
  have : fixWord t = fixWord s := funext (fixWord_congr h g)
  rw [this]

theorem Clean.congr {s t : State} {a n : Nat} (c : Clean s a n) (g : t.mem.synd = s.mem.synd)
    (h1 : t.mem.rowFlip = s.mem.rowFlip) (h2 : t.mem.rowBad = s.mem.rowBad) (h3 : t.mem.unsealedDef = s.mem.unsealedDef) :
    Clean t a n := by
  refine ⟨fun hi r hr => ?_, fun w hw => ?_⟩
  · have := c.rows hi r hr
    unfold rowBroken rowUnsealed at *
    rwa [h1, h2, h3]
  · have := c.words w hw
    unfold isBad isFixable syndOf at *
    rwa [g]

theorem Quiet.clean {s t : State} (h : Quiet s t) {a n : Nat} (c : Clean s a n) : Clean t a n := by
  refine c.congr h.synd ?_ ?_ ?_ <;> rw [h]

theorem quiet_bump (k : Nat) (s : State) : Quiet s (bump k s) := rfl

theorem quiet_countFoot (k o : Nat) (s : State) : Quiet s (countFoot k o s) := by
  unfold countFoot
  dsimp only
  split
  · unfold whenS; split
    · exact quiet_bump _ _
    · rfl
  · rfl

theorem quiet_accessStack (a : Nat) (s : State) : Quiet s (accessStack a s) := by
  unfold accessStack
  split
  · exact Quiet.trans (t := touchStack (a / 0x1000000000) s) rfl (quiet_countFoot _ _ _)
  · rfl

theorem accessStack_lines (a : Nat) (s : State) : (accessStack a s).mem = s.mem := by
  unfold accessStack countFoot
  split
  · dsimp only
    split
    · unfold whenS; split <;> rfl
    · rfl
  · rfl

theorem quiet_onStream (k : Nat) (f : Stream → Stream) (s : State) : Quiet s (onStream k f s) := by
  unfold onStream
  split <;> rfl

theorem quiet_trainMiss (lim cl a : Nat) (s : State) : Quiet s (trainMiss lim cl a s) := by
  unfold trainMiss
  repeat' (first | rfl | split | dsimp only)

theorem trainMiss_mem (lim cl a : Nat) (s : State) : (trainMiss lim cl a s).mem = s.mem := by
  unfold trainMiss
  repeat' (first | rfl | split | dsimp only)

/-! ### Reads and writes of clean memory -/

theorem demandRead_clean {w : Who} {a n : Nat} {s : State} (c : Clean s a n) :
    demandRead w a n s = (0, accessStack a s) := by
  have q := quiet_accessStack a s
  have c' := q.clean c
  unfold demandRead
  dsimp only
  have h1 : (if inStack a then rowsOf a n else []).find? (rowBroken (accessStack a s)) = none := by
    rw [List.find?_eq_none]
    intro r hr
    split at hr
    · rename_i hi; simp [(c'.rows hi r hr).1]
    · cases hr
  have h2 : (if inStack a then rowsOf a n else []).any (rowUnsealed (accessStack a s)) = false := by
    rw [List.any_eq_false]
    intro r hr
    split at hr
    · rename_i hi; simp [(c'.rows hi r hr).2]
    · cases hr
  have h3 : (wordsOf a n).find? (isBad (accessStack a s)) = none := by
    rw [List.find?_eq_none]
    intro x hx; simp [(c'.words x hx).1]
  have h4 : (wordsOf a n).filter (isFixable (accessStack a s)) = [] := by
    rw [List.filter_eq_nil_iff]
    intro x hx; simp [(c'.words x hx).2]
  simp only [h1, h2, h3, h4, foldS_nil]
  rfl

theorem demandWrite_clean {w : Who} {at_ : Bool} {a : Nat} {b : Bytes} {s : State} (c : Clean s a b.length)
    (hl : b.length < 1024) :
    demandWrite w at_ a b s = (0, freshCheck a b.length (memWrite a b (accessStack a s))) := by
  have q := quiet_accessStack a s
  have c' := q.clean c
  have hw : wholeRows a b.length = [] := by
    unfold wholeRows
    rw [List.filter_eq_nil_iff]
    intro r _
    simp
    omega
  unfold demandWrite
  dsimp only
  simp only [hw, ite_self, List.contains_nil, Bool.not_false, Bool.and_true, foldS_nil]
  have hf : ∀ l : List Nat, l.filter (fun _ => true) = l := by intro l; simp
  rw [hf]
  have h1 : (if inStack a then rowsOf a b.length else []).find? (rowBroken (accessStack a s)) = none := by
    rw [List.find?_eq_none]
    intro r hr
    split at hr
    · rename_i hi; simp [(c'.rows hi r hr).1]
    · cases hr
  have h2 : (if inStack a then rowsOf a b.length else []).any (fun r => rowUnsealed (accessStack a s) r) = false := by
    rw [List.any_eq_false]
    intro r hr
    split at hr
    · rename_i hi; simp [(c'.rows hi r hr).2]
    · cases hr
  have hp : ∀ x, x ∈ partWords a b.length → x ∈ wordsOf a b.length := by
    intro x hx; unfold partWords at hx; exact (List.mem_filter.mp hx).1
  have h3 : (partWords a b.length).find? (isBad (accessStack a s)) = none := by
    rw [List.find?_eq_none]
    intro x hx; simp [(c'.words x (hp x hx)).1]
  have h4 : (partWords a b.length).filter (isFixable (accessStack a s)) = [] := by
    rw [List.filter_eq_nil_iff]
    intro x hx; simp [(c'.words x (hp x hx)).2]
  simp only [h1, h2, h3, h4, foldS_nil, Bool.false_and]
  rfl

/-! ### The caches -/

theorem demandHit_spec {cl key : Nat} {s : State} {l : Line} (h : smGet? s.mem.lines key = some l) :
    Quiet s (demandHit cl key s) ∧ (∀ k, k ≠ key → smGet? (demandHit cl key s).mem.lines k = smGet? s.mem.lines k) ∧
      ∃ l', smGet? (demandHit cl key s).mem.lines key = some l' ∧ l'.data = l.data := by
  unfold demandHit
  rw [h]
  dsimp only
  split
  · exact ⟨rfl, fun _ _ => rfl, l, h, rfl⟩
  · refine ⟨Quiet.trans (t := { s with mem := { s.mem with lines := smPut s.mem.lines key { l with pf := 0 } } }) rfl
      (quiet_onStream _ _ _), fun k hk => ?_, { l with pf := 0 }, ?_, rfl⟩
    · rw [onStream_mem]; exact smGet?_smPut_ne _ _ _ _ hk
    · rw [onStream_mem]; exact smGet?_smPut_self _ _ _

theorem makeRoom_room {w : Who} {cl : Nat} {s : State} (h : (clusterLines s cl).length < 262144) : makeRoom w cl s = s := by
  unfold makeRoom; simp [h]

/-- A cluster's line after a fill: the one held, else the stored bytes, corrected. -/
theorem cacheFill_spec {w : Who} {lim cl a : Nat} {st : Bool} {s : State}
    (h : LineHeld s cl a ∨ Clean s (a / 64 * 64) 64 ∧ (clusterLines s cl).length < 262144) :
    ∃ t, cacheFill w lim cl a st s = (0, t) ∧ Quiet s t ∧
      (∀ k, k ≠ lineKey cl a → smGet? t.mem.lines k = smGet? s.mem.lines k) ∧
      ∃ l, smGet? t.mem.lines (lineKey cl a) = some l ∧ leBytes 64 l.data.toNat =
        (match smGet? s.mem.lines (lineKey cl a) with
          | some l0 => leBytes 64 l0.data.toNat
          | none => fixedRead s (a / 64 * 64) 64) := by
  unfold cacheFill
  dsimp only
  by_cases hh : ∃ l, smGet? s.mem.lines (lineKey cl a) = some l
  · obtain ⟨l, hl⟩ := hh
    obtain ⟨q, o, l', e1, e2⟩ := demandHit_spec (cl := cl) hl
    refine ⟨demandHit cl (lineKey cl a) s, ?_, q, o, l', e1, ?_⟩
    · simp [hl]
    · rw [hl, e2]
  · have hn : smGet? s.mem.lines (lineKey cl a) = none := by
      cases e : smGet? s.mem.lines (lineKey cl a) with
      | none => rfl
      | some l => exact absurd ⟨l, e⟩ hh
    have hc : Clean s (a / 64 * 64) 64 ∧ (clusterLines s cl).length < 262144 := by
      rcases h with h | h
      · exact absurd h hh
      · exact h
    have q1 := quiet_trainMiss lim cl a s
    have m1 := trainMiss_mem lim cl a s
    have q2 := quiet_accessStack (a / 64 * 64) (trainMiss lim cl a s)
    have m2 := accessStack_lines (a / 64 * 64) (trainMiss lim cl a s)
    have hr : (clusterLines (accessStack (a / 64 * 64) (trainMiss lim cl a s)) cl).length < 262144 := by
      unfold clusterLines; rw [m2, m1]; exact hc.2
    simp only [hn, Option.isSome_none, Bool.false_eq_true, if_false, demandRead_clean (q1.clean hc.1), if_true,
      makeRoom_room hr]
    have hfix : fixedRead (trainMiss lim cl a s) (a / 64 * 64) 64 = fixedRead s (a / 64 * 64) 64 :=
      fixedRead_congr (by rw [m1]) (by rw [m1]) _ _
    refine ⟨_, rfl, Quiet.trans (q1.trans q2) rfl, fun k hk => ?_, _, smGet?_smPut_self _ _ _, ?_⟩
    · dsimp only
      rw [smGet?_smPut_ne _ _ _ _ hk, m2, m1]
    · dsimp only
      rw [leBytes_word _ (fixedRead_length _ _ _), hfix]

theorem lineBytes_of {s : State} {cl a n : Nat} {l : Line} (h : smGet? s.mem.lines (lineKey cl a) = some l) :
    lineBytes s cl a n = slice (leBytes 64 l.data.toNat) (a % 64) n := by
  unfold lineBytes; rw [h]

/-- A read of plain local memory that is reachable gives the bytes seen and changes nothing else. -/
theorem readLocal_spec {th a n attr : Nat} {s : State} (h : Reachable s (clusterOf th) a n attr) :
    ∃ t, readLocal th a n attr s = (0, seen s (clusterOf th) a n attr, t) ∧ Quiet s t ∧
      (attr < 2 ∧ inStack a = true → LineHeld t (clusterOf th) a ∧
        lineBytes t (clusterOf th) a n = seen s (clusterOf th) a n attr) ∧
      (¬ (attr < 2 ∧ inStack a = true) → t.mem = s.mem) ∧
      (∀ k, k ≠ lineKey (clusterOf th) a → smGet? t.mem.lines k = smGet? s.mem.lines k) := by
  unfold readLocal Reachable at *
  dsimp only at *
  by_cases hc : attr < 2 ∧ inStack a = true
  · rw [if_pos hc] at h
    obtain ⟨t, e, q, o, l, e1, e2⟩ := cacheFill_spec (w := whoTh s th) (lim := trainEnd s th a) (st := attr == 1) h
    have hb : lineBytes t (clusterOf th) a n = seen s (clusterOf th) a n attr := by
      rw [lineBytes_of e1, e2]
      unfold seen; rw [if_pos hc]
      cases smGet? s.mem.lines (lineKey (clusterOf th) a) <;> rfl
    refine ⟨t, ?_, q, fun _ => ⟨⟨l, e1⟩, hb⟩, fun hn => absurd hc hn, o⟩
    rw [if_pos hc, e]; simp [hb]
  · rw [if_neg hc] at h
    refine ⟨accessStack a s, ?_, quiet_accessStack a s, fun hx => absurd hx hc, fun _ => accessStack_lines a s, fun k _ => ?_⟩
    · rw [if_neg hc, demandRead_clean h]; unfold seen; rw [if_neg hc]
    · rw [accessStack_lines]

/-! ### Writes -/

theorem smGet?_map {α : Type} (m : SMap α) (g : Nat → α → α) (k : Nat) :
    smGet? (m.map (fun p => (p.1, g p.1 p.2))) k = (smGet? m k).map (g k) := by
  induction m with
  | nil => rfl
  | cons p t ih =>
    obtain ⟨i, a⟩ := p
    simp only [List.map_cons, smGet?]
    by_cases h : i = k
    · subst h; simp
    · simp [h, ih]

/-- A context after a store of thread `th` on the line of `a`. -/
def dropResv (th a i : Nat) (t : Thread) : Thread :=
  match t.resv with
  | some r => if i ≠ th ∧ r / 64 = a / 64 then { t with resv := none } else t
  | none => t

/-- A reservation on a line is lost by the other threads only. -/
theorem thread_breakResv (th a k : Nat) (s : State) :
    thread (breakResv th a s) k =
      if k ≠ th ∧ ∃ r, (thread s k).resv = some r ∧ r / 64 = a / 64 then { thread s k with resv := none } else thread s k := by
  have e : (breakResv th a s).sea.threads = s.sea.threads.map (fun p => (p.1, dropResv th a p.1 p.2)) := by
    unfold breakResv
    dsimp only
    apply List.map_congr_left
    intro p _
    obtain ⟨i, t⟩ := p
    unfold dropResv
    dsimp only
    cases t.resv with
    | none => rfl
    | some r => dsimp only; split <;> rfl
  unfold thread smGetD
  rw [e, smGet?_map _ (dropResv th a)]
  cases hg : smGet? s.sea.threads k with
  | none => simp [Thread.init]
  | some t =>
    simp only [Option.map_some, Option.getD_some]
    unfold dropResv
    cases hr : t.resv with
    | none => simp
    | some r =>
      dsimp only
      by_cases h : k ≠ th ∧ r / 64 = a / 64
      · rw [if_pos h, if_pos ⟨h.1, r, rfl, h.2⟩]
      · rw [if_neg h, if_neg]
        rintro ⟨h1, r', h2, h3⟩
        cases h2
        exact h ⟨h1, h3⟩

theorem breakResv_mem (th a : Nat) (s : State) : (breakResv th a s).mem = s.mem := rfl

theorem lineWrite_bytes {s : State} {cl a : Nat} {b : Bytes} {st : Bool} (hf : a % 64 + b.length ≤ 64) :
    lineBytes (lineWrite cl a b st s) cl a b.length = b := by
  have e : ∀ old : Bytes, old.length = 64 → (patch old (a % 64) b).length = 64 := by
    intro old ho; rw [patch_length _ _ _ (by omega), ho]
  unfold lineWrite
  dsimp only
  rw [lineBytes_of (l := _) (smGet?_smPut_self _ _ _)]
  dsimp only
  cases smGet? s.mem.lines (lineKey cl a) with
  | none =>
    dsimp only
    rw [leBytes_word _ (e _ (by simp [zeros])), slice_patch _ _ _ (by simpa [zeros] using hf)]
  | some l =>
    dsimp only
    rw [leBytes_word _ (e _ (by simp)), slice_patch _ _ _ (by simpa using hf)]

/-- A write of plain local memory that is reachable stores its bytes and nothing else. -/
theorem writeLocal_spec {th a attr : Nat} {b : Bytes} {s : State} (h : Reachable s (clusterOf th) a b.length attr)
    (hl : b.length < 64) (hf : a % 64 + b.length ≤ 64) :
    ∃ t, writeLocal th a attr b s = (0, t) ∧ StoredAt s t (clusterOf th) a attr b ∧
      t.sea.threads = (breakResv th a s).sea.threads ∧ AccessOnly s t := by
  unfold writeLocal Reachable StoredAt at *
  dsimp only at *
  by_cases hc : attr < 2 ∧ inStack a = true
  · rw [if_pos hc] at h
    simp only [if_pos hc]
    have h' : LineHeld (breakResv th a s) (clusterOf th) a ∨
        Clean (breakResv th a s) (a / 64 * 64) 64 ∧ (clusterLines (breakResv th a s) (clusterOf th)).length < 262144 := by
      refine h.imp id (fun c => ⟨c.1.congr rfl rfl rfl rfl, c.2⟩)
    have hno : ¬ ((smGet? (breakResv th a s).mem.lines (lineKey (clusterOf th) a)).isNone = true ∧
        (rowUnsealed (breakResv th a s) (rowId a) = true ∨ rowBroken (breakResv th a s) (rowId a) = true)) := by
      rintro ⟨h1, h2⟩
      rcases h with ⟨l, hl⟩ | ⟨hcl, -⟩
      · rw [breakResv_mem, hl] at h1; cases h1
      · have hin : inStack (a / 64 * 64) = true := by
          have := hc.2
          unfold inStack at *
          simp only [decide_eq_true_eq] at *
          omega
        have hr : rowId a ∈ rowsOf (a / 64 * 64) 64 := by
          unfold rowsOf rowId
          have : (a / 64 * 64 + 64 + 1023) / 1024 - a / 64 * 64 / 1024 = 1 := by omega
          rw [this]
          simp [upFrom]; omega
        have := hcl.rows hin _ hr
        unfold rowUnsealed rowBroken at this h2
        rw [breakResv_mem, this.1, this.2] at h2
        simp at h2
    rw [if_neg hno, if_neg (by omega)]
    obtain ⟨t, e, q, o, l, e1, -⟩ := cacheFill_spec (w := whoTh s th) (lim := trainEnd (breakResv th a s) th a)
      (st := attr == 1) h'
    rw [e]
    refine ⟨lineWrite (clusterOf th) a b (attr == 1) t, rfl, ⟨lineWrite_bytes hf, ⟨_, smGet?_smPut_self _ _ _, rfl⟩, ?_, ?_⟩, ?_, ?_⟩
    · intro k hk
      unfold lineWrite; dsimp only
      rw [smGet?_smPut_ne _ _ _ _ hk, o k hk, breakResv_mem]
    · intro x
      unfold memByte lineWrite
      dsimp only
      rw [q.bytes, breakResv_mem]
    · exact q.threads
    · unfold AccessOnly lineWrite
      dsimp only
      rw [q]
      rfl
  · rw [if_neg hc] at h
    have h' : Clean (breakResv th a s) a b.length := h.congr rfl rfl rfl rfl
    simp only [if_neg hc]
    rw [demandWrite_clean h' (by omega)]
    have q := quiet_accessStack a (breakResv th a s)
    have m := accessStack_lines a (breakResv th a s)
    refine ⟨_, rfl, ⟨?_, ?_⟩, ?_, ?_⟩
    · show (accessStack a (breakResv th a s)).mem.lines = _
      rw [m]; rfl
    · intro x
      rw [memByte_freshCheck, memByte_memWrite, memByte_congr (s := s) (by rw [m]; rfl)]
    · exact q.threads
    · unfold AccessOnly freshCheck memWrite
      dsimp only
      rw [q]
      rfl

end Sys2Proof.Machine
end

