-- ==== Sys2Proof/Laws/FrameChain.lean ====
section
/-! SUPPORT. FrameChain: each operation of Machine/Chain.lean changes only the fields of `State`
that its mask names (`Frame`). -/
namespace Sys2Proof.Machine
set_option Elab.async false
set_option linter.all false

theorem frame_hearFrames {m0 : Nat} {s0 : State} (k : Nat) (s : State) (hm : 4224 ||| m0 = m0) (hs : Frame m0 s0 s) :
    Frame m0 s0 (hearFrames k s) := by
  unfold hearFrames
  repeat' (with_reducible first | assumption | (exact Frame.sub hm (by decide)) | apply frame_boost | apply frame_bumpBy | split | dsimp only | simp only [Frame.upd_iff, true_or, or_true])

theorem frame_ignoreChain {m0 : Nat} {s0 : State} (s : State) (hm : 4096 ||| m0 = m0) (hs : Frame m0 s0 s) :
    Frame m0 s0 (ignoreChain s) := by
  unfold ignoreChain
  repeat' (with_reducible first | assumption | (exact Frame.sub hm (by decide)) | apply frame_bump | split | dsimp only | simp only [Frame.upd_iff, true_or, or_true])

theorem frame_execFramesIgnored {m0 : Nat} {s0 : State} (_reason : Nat) (s : State) (hm : 4224 ||| m0 = m0) (hs : Frame m0 s0 s) :
    ∀ z, (execFramesIgnored _reason s) = .next z → Frame m0 s0 z := by
  intro z e
  unfold execFramesIgnored at e
  try dsimp only at e
  first | (split at e <;> first | (injection e with e; subst e)) | (injection e with e; subst e) | skip
  repeat' (with_reducible first | assumption | (exact Frame.sub hm (by decide)) | apply frame_boost | apply frame_ignoreChain | split | dsimp only | simp only [Frame.upd_iff, true_or, or_true])

theorem frame_execChainTransferExpiry {m0 : Nat} {s0 : State} (_id : Nat) (s : State) (hm : 1052800 ||| m0 = m0) (hs : Frame m0 s0 s) :
    ∀ z, (execChainTransferExpiry _id s) = .next z → Frame m0 s0 z := by
  intro z e
  unfold execChainTransferExpiry at e
  try dsimp only at e
  first | (split at e <;> first | (injection e with e; subst e)) | (injection e with e; subst e) | skip
  repeat' (with_reducible first | assumption | (exact Frame.sub hm (by decide)) | apply frame_draw | apply frame_hearFrames | apply frame_ignoreChain | split | dsimp only | simp only [Frame.upd_iff, true_or, or_true])

theorem frame_execBusOff {m0 : Nat} {s0 : State} (s : State) (hm : 12288 ||| m0 = m0) (hs : Frame m0 s0 s) :
    ∀ z, (execBusOff s) = .next z → Frame m0 s0 z := by
  have b13 := Frame.bit hm (k := 13) (by decide)
  intro z e
  unfold execBusOff at e
  try dsimp only at e
  first | (split at e <;> first | (injection e with e; subst e)) | (injection e with e; subst e) | skip
  repeat' (with_reducible first | assumption | (exact Frame.sub hm (by decide)) | apply frame_bump | split | dsimp only | simp only [Frame.upd_iff, b13, true_or, or_true])

theorem frame_execBusOffRecovery {m0 : Nat} {s0 : State} (s : State) (hm : 8192 ||| m0 = m0) (hs : Frame m0 s0 s) :
    ∀ z, (execBusOffRecovery s) = .next z → Frame m0 s0 z := by
  have b13 := Frame.bit hm (k := 13) (by decide)
  intro z e
  unfold execBusOffRecovery at e
  try dsimp only at e
  first | (split at e <;> first | (injection e with e; subst e)) | (injection e with e; subst e) | skip
  repeat' (with_reducible first | assumption | (exact Frame.sub hm (by decide)) | split | dsimp only | simp only [Frame.upd_iff, b13, true_or, or_true])

theorem frame_abandon {m0 : Nat} {s0 : State} (s : State) (hm : 12288 ||| m0 = m0) (hs : Frame m0 s0 s) :
    Frame m0 s0 (abandon s) := by
  have b13 := Frame.bit hm (k := 13) (by decide)
  unfold abandon
  repeat' (with_reducible first | assumption | (exact Frame.sub hm (by decide)) | apply frame_bump | split | dsimp only | simp only [Frame.upd_iff, b13, true_or, or_true])

theorem frame_closeChain {m0 : Nat} {s0 : State} (sid : Nat) (s : State) (hm : 12288 ||| m0 = m0) (hs : Frame m0 s0 s) :
    Frame m0 s0 (closeChain sid s) := by
  have b12 := Frame.bit hm (k := 12) (by decide)
  have b13 := Frame.bit hm (k := 13) (by decide)
  unfold closeChain
  repeat' (with_reducible first | assumption | (exact Frame.sub hm (by decide)) | split | dsimp only | simp only [Frame.upd_iff, b12, b13, true_or, or_true])

theorem frame_dropChainOps {m0 : Nat} {s0 : State} (s : State) (hm : 4096 ||| m0 = m0) (hs : Frame m0 s0 s) :
    Frame m0 s0 (dropChainOps s) := by
  have b12 := Frame.bit hm (k := 12) (by decide)
  unfold dropChainOps
  repeat' (with_reducible first | assumption | (exact Frame.sub hm (by decide)) | split | dsimp only | simp only [Frame.upd_iff, b12, true_or, or_true])

theorem frame_execEnumReset {m0 : Nat} {s0 : State} (s : State) (hm : 13696 ||| m0 = m0) (hs : Frame m0 s0 s) :
    ∀ z, (execEnumReset s) = .next z → Frame m0 s0 z := by
  have b8 := Frame.bit hm (k := 8) (by decide)
  have b13 := Frame.bit hm (k := 13) (by decide)
  intro z e
  unfold execEnumReset at e
  try dsimp only at e
  first | (split at e <;> first | (injection e with e; subst e)) | (injection e with e; subst e) | skip
  repeat' (with_reducible first | assumption | (exact Frame.sub hm (by decide)) | apply frame_closeChain | apply frame_dirSet | apply frame_dropAlerts | apply frame_dropChainOps | apply frame_foldS | apply frame_hearFrames | (intro _) | refine Frame.ite ?_ ?_ | split | dsimp only | simp only [Frame.upd_iff, b8, b13, true_or, or_true])

theorem frame_execEnumOffer {m0 : Nat} {s0 : State} (addr : Nat) (version : Nat) (s : State) (hm : 12416 ||| m0 = m0) (hs : Frame m0 s0 s) :
    ∀ z, (execEnumOffer addr version s) = .next z → Frame m0 s0 z := by
  have b13 := Frame.bit hm (k := 13) (by decide)
  intro z e
  unfold execEnumOffer at e
  try dsimp only at e
  first | (split at e <;> first | (injection e with e; subst e)) | (injection e with e; subst e) | skip
  repeat' (with_reducible first | assumption | (exact Frame.sub hm (by decide)) | apply frame_chainSend | apply frame_hearFrames | split | dsimp only | simp only [Frame.upd_iff, b13, true_or, or_true])

theorem frame_takeAddress {m0 : Nat} {s0 : State} (addr : Nat) (version : Nat) (s : State) (hm : 12288 ||| m0 = m0) (hs : Frame m0 s0 s) :
    Frame m0 s0 (takeAddress addr version s) := by
  have b13 := Frame.bit hm (k := 13) (by decide)
  unfold takeAddress
  repeat' (with_reducible first | assumption | (exact Frame.sub hm (by decide)) | apply frame_dirSet | split | dsimp only | simp only [Frame.upd_iff, b13, true_or, or_true])

theorem frame_execEnumConfirm {m0 : Nat} {s0 : State} (addr : Nat) (version : Nat) (ident : Bytes) (s : State) (hm : 12416 ||| m0 = m0) (hs : Frame m0 s0 s) :
    ∀ z, (execEnumConfirm addr version ident s) = .next z → Frame m0 s0 z := by
  intro z e
  unfold execEnumConfirm at e
  try dsimp only at e
  first | (split at e <;> first | (injection e with e; subst e)) | (injection e with e; subst e) | skip
  repeat' (with_reducible first | assumption | (exact Frame.sub hm (by decide)) | apply frame_abandon | apply frame_hearFrames | apply frame_takeAddress | split | dsimp only | simp only [Frame.upd_iff, true_or, or_true])

theorem frame_execEnumConfirmTimeout {m0 : Nat} {s0 : State} (s : State) (hm : 12288 ||| m0 = m0) (hs : Frame m0 s0 s) :
    ∀ z, (execEnumConfirmTimeout s) = .next z → Frame m0 s0 z := by
  intro z e
  unfold execEnumConfirmTimeout at e
  try dsimp only at e
  first | (split at e <;> first | (injection e with e; subst e)) | (injection e with e; subst e) | skip
  repeat' (with_reducible first | assumption | (exact Frame.sub hm (by decide)) | apply frame_abandon | split | dsimp only | simp only [Frame.upd_iff, true_or, or_true])

theorem frame_execMgtEnumIn {m0 : Nat} {s0 : State} (at_ : Nat) (level : Bool) (s : State) (hm : 12290 ||| m0 = m0) (hs : Frame m0 s0 s) :
    ∀ z, (execMgtEnumIn at_ level s) = .next z → Frame m0 s0 z := by
  have b13 := Frame.bit hm (k := 13) (by decide)
  intro z e
  unfold execMgtEnumIn at e
  try dsimp only at e
  first | (split at e <;> first | (injection e with e; subst e)) | (injection e with e; subst e) | skip
  repeat' (with_reducible first | assumption | (exact Frame.sub hm (by decide)) | apply frame_abandon | apply frame_atPin | apply frame_whenS | (intro _) | refine Frame.ite ?_ ?_ | split | dsimp only | simp only [Frame.upd_iff, b13, true_or, or_true])

theorem frame_onMessage {m0 : Nat} {s0 : State} (m : ChainMsg) (most : Nat) (f : State → State) (s : State) (hm : 4224 ||| m0 = m0) (hf : ∀ u, Frame m0 s0 u → Frame m0 s0 (f u)) (hs : Frame m0 s0 s) :
    Frame m0 s0 (onMessage m most f s) := by
  unfold onMessage
  repeat' (with_reducible first | assumption | (exact Frame.sub hm (by decide)) | apply frame_hearFrames | apply frame_ignoreChain | apply hf | split | dsimp only | simp only [Frame.upd_iff, true_or, or_true])

theorem frame_onChainSess {m0 : Nat} {s0 : State} (sid : Nat) (f : CSess → CSess) (s : State) (hm : 8192 ||| m0 = m0) (hs : Frame m0 s0 s) :
    Frame m0 s0 (onChainSess sid f s) := by
  have b13 := Frame.bit hm (k := 13) (by decide)
  unfold onChainSess
  repeat' (with_reducible first | assumption | (exact Frame.sub hm (by decide)) | split | dsimp only | simp only [Frame.upd_iff, b13, true_or, or_true])

theorem frame_acceptChain {m0 : Nat} {s0 : State} (m : ChainMsg) (wr : Option DVal) (s : State) (hm : 1949694 ||| m0 = m0) (hs : Frame m0 s0 s) :
    Frame m0 s0 (acceptChain m wr s) := by
  unfold acceptChain
  repeat' (with_reducible first | assumption | (exact Frame.sub hm (by decide)) | apply frame_onChainSess | apply frame_optS | apply frame_takeOp | (intro _) | refine Frame.ite ?_ ?_ | split | dsimp only | simp only [Frame.upd_iff, true_or, or_true])

theorem frame_chainRequest {m0 : Nat} {s0 : State} (m : ChainMsg) (wr : Option DVal) (s : State) (hm : 1949694 ||| m0 = m0) (hs : Frame m0 s0 s) :
    Frame m0 s0 (chainRequest m wr s) := by
  unfold chainRequest
  repeat' (with_reducible first | assumption | (exact Frame.sub hm (by decide)) | apply frame_acceptChain | apply frame_onChainSess | apply frame_respond | split | dsimp only | simp only [Frame.upd_iff, true_or, or_true])

theorem frame_execChainRead {m0 : Nat} {s0 : State} (m : ChainMsg) (s : State) (hm : 1949694 ||| m0 = m0) (hs : Frame m0 s0 s) :
    ∀ z, (execChainRead m s) = .next z → Frame m0 s0 z := by
  intro z e
  unfold execChainRead at e
  try dsimp only at e
  first | (split at e <;> first | (injection e with e; subst e)) | (injection e with e; subst e) | skip
  repeat' (with_reducible first | assumption | (exact Frame.sub hm (by decide)) | apply frame_chainRequest | apply frame_onMessage | (intro _) | refine Frame.ite ?_ ?_ | split | dsimp only | simp only [Frame.upd_iff, true_or, or_true])

theorem frame_execChainWrite {m0 : Nat} {s0 : State} (m : ChainMsg) (s : State) (hm : 1949694 ||| m0 = m0) (hs : Frame m0 s0 s) :
    ∀ z, (execChainWrite m s) = .next z → Frame m0 s0 z := by
  intro z e
  unfold execChainWrite at e
  try dsimp only at e
  first | (split at e <;> first | (injection e with e; subst e)) | (injection e with e; subst e) | skip
  repeat' (with_reducible first | assumption | (exact Frame.sub hm (by decide)) | apply frame_chainRequest | apply frame_onMessage | (intro _) | refine Frame.ite ?_ ?_ | split | dsimp only | simp only [Frame.upd_iff, true_or, or_true])

theorem frame_execClose {m0 : Nat} {s0 : State} (m : ChainMsg) (s : State) (hm : 12416 ||| m0 = m0) (hs : Frame m0 s0 s) :
    ∀ z, (execClose m s) = .next z → Frame m0 s0 z := by
  intro z e
  unfold execClose at e
  try dsimp only at e
  first | (split at e <;> first | (injection e with e; subst e)) | (injection e with e; subst e) | skip
  repeat' (with_reducible first | assumption | (exact Frame.sub hm (by decide)) | apply frame_closeChain | apply frame_onMessage | apply frame_optS | (intro _) | refine Frame.ite ?_ ?_ | split | dsimp only | simp only [Frame.upd_iff, true_or, or_true])

theorem frame_execChainSessionIdle {m0 : Nat} {s0 : State} (sid : Nat) (s : State) (hm : 12288 ||| m0 = m0) (hs : Frame m0 s0 s) :
    ∀ z, (execChainSessionIdle sid s) = .next z → Frame m0 s0 z := by
  intro z e
  unfold execChainSessionIdle at e
  try dsimp only at e
  first | (split at e <;> first | (injection e with e; subst e)) | (injection e with e; subst e) | skip
  repeat' (with_reducible first | assumption | (exact Frame.sub hm (by decide)) | apply frame_closeChain | split | dsimp only | simp only [Frame.upd_iff, true_or, or_true])

theorem frame_sendSession {m0 : Nat} {s0 : State} (m : ChainMsg) (b : Bytes) (s : State) (hm : 12288 ||| m0 = m0) (hs : Frame m0 s0 s) :
    Frame m0 s0 (sendSession m b s) := by
  unfold sendSession
  repeat' (with_reducible first | assumption | (exact Frame.sub hm (by decide)) | apply frame_chainSend | split | dsimp only | simp only [Frame.upd_iff, true_or, or_true])

theorem frame_refuseChain {m0 : Nat} {s0 : State} (m : ChainMsg) (p : Bytes) (status : Nat) (s : State) (hm : 12288 ||| m0 = m0) (hs : Frame m0 s0 s) :
    Frame m0 s0 (refuseChain m p status s) := by
  unfold refuseChain
  repeat' (with_reducible first | assumption | (exact Frame.sub hm (by decide)) | apply frame_sendSession | split | dsimp only | simp only [Frame.upd_iff, true_or, or_true])

theorem frame_challengeChain {m0 : Nat} {s0 : State} (m : ChainMsg) (p : Bytes) (v : Nat) (s : State) (hm : 1061120 ||| m0 = m0) (hs : Frame m0 s0 s) :
    Frame m0 s0 (challengeChain m p v s) := by
  have b8 := Frame.bit hm (k := 8) (by decide)
  unfold challengeChain
  repeat' (with_reducible first | assumption | (exact Frame.sub hm (by decide)) | apply frame_draw | apply frame_sendSession | split | dsimp only | simp only [Frame.upd_iff, b8, true_or, or_true])

theorem frame_helloChain {m0 : Nat} {s0 : State} (m : ChainMsg) (p : Bytes) (s : State) (hm : 1061120 ||| m0 = m0) (hs : Frame m0 s0 s) :
    Frame m0 s0 (helloChain m p s) := by
  unfold helloChain
  repeat' (with_reducible first | assumption | (exact Frame.sub hm (by decide)) | apply frame_challengeChain | apply frame_refuseChain | split | dsimp only | simp only [Frame.upd_iff, true_or, or_true])

theorem frame_openChain {m0 : Nat} {s0 : State} (m : ChainMsg) (c : Chal) (p : Bytes) (lv : Level) (t : Nat) (s : State) (hm : 12288 ||| m0 = m0) (hs : Frame m0 s0 s) :
    Frame m0 s0 (openChain m c p lv t s) := by
  have b13 := Frame.bit hm (k := 13) (by decide)
  unfold openChain
  repeat' (with_reducible first | assumption | (exact Frame.sub hm (by decide)) | apply frame_sendSession | split | dsimp only | simp only [Frame.upd_iff, b13, true_or, or_true])

theorem frame_responseChain {m0 : Nat} {s0 : State} (m : ChainMsg) (p : Bytes) (s : State) (hm : 12544 ||| m0 = m0) (hs : Frame m0 s0 s) :
    Frame m0 s0 (responseChain m p s) := by
  unfold responseChain
  repeat' (with_reducible first | assumption | (exact Frame.sub hm (by decide)) | apply frame_dropChal | apply frame_openChain | apply frame_refuseChain | split | dsimp only | simp only [Frame.upd_iff, true_or, or_true])

theorem frame_execSession {m0 : Nat} {s0 : State} (m : ChainMsg) (s : State) (hm : 1061248 ||| m0 = m0) (hs : Frame m0 s0 s) :
    ∀ z, (execSession m s) = .next z → Frame m0 s0 z := by
  intro z e
  unfold execSession at e
  try dsimp only at e
  first | (split at e <;> first | (injection e with e; subst e)) | (injection e with e; subst e) | skip
  repeat' (with_reducible first | assumption | (exact Frame.sub hm (by decide)) | apply frame_helloChain | apply frame_ignoreChain | apply frame_onMessage | apply frame_refuseChain | apply frame_responseChain | (intro _) | refine Frame.ite ?_ ?_ | split | dsimp only | simp only [Frame.upd_iff, true_or, or_true])

theorem frame_ackAlerts {m0 : Nat} {s0 : State} (n : Nat) (s : State) (hm : 9216 ||| m0 = m0) (hs : Frame m0 s0 s) :
    Frame m0 s0 (ackAlerts n s) := by
  have b10 := Frame.bit hm (k := 10) (by decide)
  have b13 := Frame.bit hm (k := 13) (by decide)
  unfold ackAlerts
  repeat' (with_reducible first | assumption | (exact Frame.sub hm (by decide)) | apply frame_autoRemove | split | dsimp only | simp only [Frame.upd_iff, b10, b13, true_or, or_true])

theorem frame_execAlertAck {m0 : Nat} {s0 : State} (n : Nat) (s : State) (hm : 13440 ||| m0 = m0) (hs : Frame m0 s0 s) :
    ∀ z, (execAlertAck n s) = .next z → Frame m0 s0 z := by
  intro z e
  unfold execAlertAck at e
  try dsimp only at e
  first | (split at e <;> first | (injection e with e; subst e)) | (injection e with e; subst e) | skip
  repeat' (with_reducible first | assumption | (exact Frame.sub hm (by decide)) | apply frame_ackAlerts | apply frame_hearFrames | split | dsimp only | simp only [Frame.upd_iff, true_or, or_true])

theorem frame_resendAlert {m0 : Nat} {s0 : State} (a : Alert) (s : State) (hm : 12288 ||| m0 = m0) (hs : Frame m0 s0 s) :
    Frame m0 s0 (resendAlert a s) := by
  have b13 := Frame.bit hm (k := 13) (by decide)
  unfold resendAlert
  repeat' (with_reducible first | assumption | (exact Frame.sub hm (by decide)) | apply frame_chainSend | split | dsimp only | simp only [Frame.upd_iff, b13, true_or, or_true])

theorem frame_execAlertResend {m0 : Nat} {s0 : State} (s : State) (hm : 12288 ||| m0 = m0) (hs : Frame m0 s0 s) :
    ∀ z, (execAlertResend s) = .next z → Frame m0 s0 z := by
  intro z e
  unfold execAlertResend at e
  try dsimp only at e
  first | (split at e <;> first | (injection e with e; subst e)) | (injection e with e; subst e) | skip
  repeat' (with_reducible first | assumption | (exact Frame.sub hm (by decide)) | apply frame_foldS | apply frame_resendAlert | (intro _) | refine Frame.ite ?_ ?_ | split | dsimp only | simp only [Frame.upd_iff, true_or, or_true])

end Sys2Proof.Machine
end

