-- ==== Sys2Proof/Laws/FrameRv64.lean ====
section
/-! SUPPORT. FrameRv64: each operation of Machine/Rv64.lean changes only the fields of `State`
that its mask names (`Frame`). -/
namespace Sys2Proof.Machine
set_option Elab.async false
set_option linter.all false

theorem frame_goState {m0 : Nat} {s0 : State} (o : Out) (s : State) (ho : ∀ z, o = .next z → Frame m0 s0 z) (hs : Frame m0 s0 s) :
    Frame m0 s0 (goState o s) := by
  unfold goState; split
  · exact ho _ rfl
  · exact hs

theorem frame_putX {m0 : Nat} {s0 : State} (th : Nat) (len : Nat) (rd : Nat) (w : W32) (r : Option Int) (s : State) (hm : 6648 ||| m0 = m0) (hs : Frame m0 s0 s) :
    Frame m0 s0 (putX th len rd w r s) := by
  unfold putX
  repeat' (with_reducible first | assumption | (exact Frame.sub hm (by decide)) | apply frame_illegal | apply frame_onThread | split | dsimp only | simp only [Frame.upd_iff, true_or, or_true])

theorem frame_jump {m0 : Nat} {s0 : State} (th : Nat) (len : Nat) (rd : Nat) (target : Nat) (s : State) (hm : 16 ||| m0 = m0) (hs : Frame m0 s0 s) :
    Frame m0 s0 (jump th len rd target s) := by
  unfold jump
  repeat' (with_reducible first | assumption | (exact Frame.sub hm (by decide)) | apply frame_onThread | split | dsimp only | simp only [Frame.upd_iff, true_or, or_true])

theorem frame_putF {m0 : Nat} {s0 : State} (th : Nat) (len : Nat) (rd : Nat) (f : Fmt) (r : Nat × Nat) (s : State) (hm : 16 ||| m0 = m0) (hs : Frame m0 s0 s) :
    Frame m0 s0 (putF th len rd f r s) := by
  unfold putF
  repeat' (with_reducible first | assumption | (exact Frame.sub hm (by decide)) | apply frame_onThread | split | dsimp only | simp only [Frame.upd_iff, true_or, or_true])

theorem frame_putXF {m0 : Nat} {s0 : State} (th : Nat) (len : Nat) (rd : Nat) (v : Int) (fl : Nat) (s : State) (hm : 16 ||| m0 = m0) (hs : Frame m0 s0 s) :
    Frame m0 s0 (putXF th len rd v fl s) := by
  unfold putXF
  repeat' (with_reducible first | assumption | (exact Frame.sub hm (by decide)) | apply frame_onThread | split | dsimp only | simp only [Frame.upd_iff, true_or, or_true])

theorem frame_opFp {m0 : Nat} {s0 : State} (th : Nat) (len : Nat) (w : Nat) (f : Fmt) (s : State) (hm : 6648 ||| m0 = m0) (hs : Frame m0 s0 s) :
    Frame m0 s0 (opFp th len w f s) := by
  unfold opFp
  repeat' (with_reducible first | assumption | (exact Frame.sub hm (by decide)) | apply frame_illegal | apply frame_onThread | apply frame_putF | apply frame_putXF | split | dsimp only | simp only [Frame.upd_iff, true_or, or_true])

theorem frame_opFma {m0 : Nat} {s0 : State} (th : Nat) (len : Nat) (w : Nat) (op : Nat) (s : State) (hm : 6648 ||| m0 = m0) (hs : Frame m0 s0 s) :
    Frame m0 s0 (opFma th len w op s) := by
  unfold opFma
  repeat' (with_reducible first | assumption | (exact Frame.sub hm (by decide)) | apply frame_illegal | apply frame_putF | split | dsimp only | simp only [Frame.upd_iff, true_or, or_true])

theorem frame_doVset {m0 : Nat} {s0 : State} (th : Nat) (len : Nat) (rd : Nat) (v : Nat) (avl : Option Nat) (s : State) (hm : 16 ||| m0 = m0) (hs : Frame m0 s0 s) :
    Frame m0 s0 (doVset th len rd v avl s) := by
  unfold doVset
  repeat' (with_reducible first | assumption | (exact Frame.sub hm (by decide)) | apply frame_onThread | split | dsimp only | simp only [Frame.upd_iff, true_or, or_true])

theorem frame_opVset {m0 : Nat} {s0 : State} (th : Nat) (len : Nat) (w : Nat) (s : State) (hm : 6648 ||| m0 = m0) (hs : Frame m0 s0 s) :
    Frame m0 s0 (opVset th len w s) := by
  unfold opVset
  repeat' (with_reducible first | assumption | (exact Frame.sub hm (by decide)) | apply frame_doVset | apply frame_illegal | split | dsimp only | simp only [Frame.upd_iff, true_or, or_true])

theorem frame_vFinish {m0 : Nat} {s0 : State} (th : Nat) (len : Nat) (w : Nat) (r : Option Thread) (s : State) (hm : 6648 ||| m0 = m0) (hs : Frame m0 s0 s) :
    Frame m0 s0 (vFinish th len w r s) := by
  unfold vFinish
  repeat' (with_reducible first | assumption | (exact Frame.sub hm (by decide)) | apply frame_illegal | apply frame_onThread | split | dsimp only | simp only [Frame.upd_iff, true_or, or_true])

theorem frame_opVecF {m0 : Nat} {s0 : State} (th : Nat) (len : Nat) (w : Nat) (s : State) (hm : 1055224 ||| m0 = m0) (hs : Frame m0 s0 s) :
    Frame m0 s0 (opVecF th len w s) := by
  unfold opVecF
  repeat' (with_reducible first | assumption | (exact Frame.sub hm (by decide)) | apply frame_draw | apply frame_illegal | apply frame_vFinish | split | dsimp only | simp only [Frame.upd_iff, true_or, or_true])

theorem frame_opVec {m0 : Nat} {s0 : State} (th : Nat) (len : Nat) (w : Nat) (s : State) (hm : 1055224 ||| m0 = m0) (hs : Frame m0 s0 s) :
    Frame m0 s0 (opVec th len w s) := by
  unfold opVec
  repeat' (with_reducible first | assumption | (exact Frame.sub hm (by decide)) | apply frame_illegal | apply frame_opVecF | apply frame_opVset | apply frame_vFinish | split | dsimp only | simp only [Frame.upd_iff, true_or, or_true])

theorem frame_vLoadsFirst {m0 : Nat} {s0 : State} (th : Nat) (x1 : List (Nat × Nat × Nat × Nat)) (x2 : State) (hm : 1080824 ||| m0 = m0) (hx2 : Frame m0 s0 x2) :
    Frame m0 s0 (vLoadsFirst th x1 x2).2 := by
  induction x1 generalizing th x2 with
  | nil =>
    unfold vLoadsFirst
    all_goals try dsimp only
    repeat' (with_reducible first | assumption | (exact Frame.sub hm (by decide)) | exact Frame.refl _ | apply frame_loadAcc | apply frame_onThread | (intro _) | refine Frame.snd (by assumption) ?_ | refine Frame.snd3 (by assumption) ?_ | refine Frame.snd4 (by assumption) ?_ | refine Frame.some1 (by assumption) ?_ | refine Frame.some2 (by assumption) ?_ | refine Frame.some3 (by assumption) ?_ | refine Frame.fst (by assumption) ?_ | refine Frame.ite ?_ ?_ | refine Frame.ite2 ?_ ?_ | refine Frame.ite3 ?_ ?_ | split | dsimp only | simp only [Frame.upd_iff, true_or, or_true])
  | cons a t ih =>
    unfold vLoadsFirst
    all_goals try dsimp only
    repeat' (with_reducible first | assumption | (exact Frame.sub hm (by decide)) | exact Frame.refl _ | apply frame_loadAcc | apply frame_onThread | with_reducible apply ih | (intro _) | refine Frame.snd (by assumption) ?_ | refine Frame.snd3 (by assumption) ?_ | refine Frame.snd4 (by assumption) ?_ | refine Frame.some1 (by assumption) ?_ | refine Frame.some2 (by assumption) ?_ | refine Frame.some3 (by assumption) ?_ | refine Frame.fst (by assumption) ?_ | refine Frame.ite ?_ ?_ | refine Frame.ite2 ?_ ?_ | refine Frame.ite3 ?_ ?_ | split | dsimp only | simp only [Frame.upd_iff, true_or, or_true])

theorem frame_doLoadFirst {m0 : Nat} {s0 : State} (th : Nat) (len : Nat) (f : MemForm) (va : Nat) (s : State) (hm : 1080824 ||| m0 = m0) (hs : Frame m0 s0 s) :
    Frame m0 s0 (doLoadFirst th len f va s) := by
  unfold doLoadFirst
  repeat' (with_reducible first | assumption | (exact Frame.sub hm (by decide)) | exact Frame.refl _ | apply frame_illegalForm | apply frame_onThread | apply frame_vLoadsFirst | (intro _) | refine Frame.snd (by assumption) ?_ | refine Frame.snd3 (by assumption) ?_ | refine Frame.snd4 (by assumption) ?_ | refine Frame.some1 (by assumption) ?_ | refine Frame.some2 (by assumption) ?_ | refine Frame.some3 (by assumption) ?_ | refine Frame.fst (by assumption) ?_ | refine Frame.ite ?_ ?_ | refine Frame.ite2 ?_ ?_ | refine Frame.ite3 ?_ ?_ | split | dsimp only | simp only [Frame.upd_iff, true_or, or_true])

theorem frame_opAmo {m0 : Nat} {s0 : State} (th : Nat) (len : Nat) (w : Nat) (s : State) (hm : 1080824 ||| m0 = m0) (hs : Frame m0 s0 s) :
    Frame m0 s0 (opAmo th len w s) := by
  unfold opAmo
  repeat' (with_reducible first | assumption | (exact Frame.sub hm (by decide)) | apply frame_doAmo | apply frame_doLr | apply frame_doSc | apply frame_illegal | split | dsimp only | simp only [Frame.upd_iff, true_or, or_true])

theorem frame_doMret {m0 : Nat} {s0 : State} (th : Nat) (s : State) (hm : 16 ||| m0 = m0) (hs : Frame m0 s0 s) :
    Frame m0 s0 (doMret th s) := by
  unfold doMret
  repeat' (with_reducible first | assumption | (exact Frame.sub hm (by decide)) | apply frame_onThread | split | dsimp only | simp only [Frame.upd_iff, true_or, or_true])

theorem frame_opSystem {m0 : Nat} {s0 : State} (th : Nat) (len : Nat) (w : Nat) (s : State) (hm : 1146360 ||| m0 = m0) (hs : Frame m0 s0 s) :
    Frame m0 s0 (opSystem th len w s) := by
  unfold opSystem
  repeat' (with_reducible first | assumption | (exact Frame.sub hm (by decide)) | apply frame_doCsr | apply frame_doEcall | apply frame_doMret | apply frame_illegal | apply frame_machineTrap | apply frame_onThread | split | dsimp only | simp only [Frame.upd_iff, true_or, or_true])

theorem frame_opEorus {m0 : Nat} {s0 : State} (th : Nat) (w : Nat) (s : State) (hm : 1064440 ||| m0 = m0) (hs : Frame m0 s0 s) :
    Frame m0 s0 (opEorus th w s) := by
  unfold opEorus
  repeat' (with_reducible first | assumption | (exact Frame.sub hm (by decide)) | (show ∀ _, _ → _; apply frame_execDrain) | (show ∀ _, _ → _; apply frame_execEcompact) | (show ∀ _, _ → _; apply frame_execEdot) | (show ∀ _, _ → _; apply frame_execEdotf) | (show ∀ _, _ → _; apply frame_execEpost) | (show ∀ _, _ → _; apply frame_execErescale) | (show ∀ _, _ → _; apply frame_execEslReset) | (show ∀ _, _ → _; apply frame_execEslmrg) | (show ∀ _, _ → _; apply frame_execFloor) | (show ∀ _, _ → _; apply frame_execFlush) | (show ∀ _, _ → _; apply frame_execInsert) | (show ∀ _, _ → _; apply frame_execInsertv) | (show ∀ _, _ → _; apply frame_execInv) | (show ∀ _, _ → _; apply frame_execWb) | apply frame_goState | apply frame_illegal | apply frame_onIssue | (intro _) | refine Frame.ite ?_ ?_ | split | dsimp only | simp only [Frame.upd_iff, true_or, or_true])

theorem frame_rvExec {m0 : Nat} {s0 : State} (th : Nat) (len : Nat) (w : Nat) (s : State) (hm : 1146360 ||| m0 = m0) (hs : Frame m0 s0 s) :
    Frame m0 s0 (rvExec th len w s) := by
  unfold rvExec
  repeat' (with_reducible first | assumption | (exact Frame.sub hm (by decide)) | apply frame_doFence | apply frame_doFenceI | apply frame_doLoad | apply frame_doLoadFirst | apply frame_doStore | apply frame_illegal | apply frame_jump | apply frame_onThread | apply frame_opAmo | apply frame_opFma | apply frame_opFp | apply frame_opSystem | apply frame_opVec | apply frame_putX | split | dsimp only | simp only [Frame.upd_iff, true_or, or_true])

theorem frame_rvWord {m0 : Nat} {s0 : State} (th : Nat) (len : Nat) (w : Nat) (s : State) (hm : 1146360 ||| m0 = m0) (hs : Frame m0 s0 s) :
    Frame m0 s0 (rvWord th len w s) := by
  unfold rvWord
  repeat' (with_reducible first | assumption | (exact Frame.sub hm (by decide)) | apply frame_onRegs | apply frame_opEorus | apply frame_rvExec | (intro _) | refine Frame.ite ?_ ?_ | split | dsimp only | simp only [Frame.upd_iff, true_or, or_true])

theorem frame_fillIline {m0 : Nat} {s0 : State} (core : Nat) (a : Nat) (v : V512) (s : State) (hm : 1048584 ||| m0 = m0) (hs : Frame m0 s0 s) :
    Frame m0 s0 (fillIline core a v s) := by
  have b3 := Frame.bit hm (k := 3) (by decide)
  unfold fillIline
  repeat' (with_reducible first | assumption | (exact Frame.sub hm (by decide)) | apply frame_draw | split | dsimp only | simp only [Frame.upd_iff, b3, true_or, or_true])

theorem frame_fetchHalf {m0 : Nat} {s0 : State} (th : Nat) (va : Nat) (s : State) (hm : 1064088 ||| m0 = m0) (hs : Frame m0 s0 s) :
    Frame m0 s0 (fetchHalf th va s).2.2 := by
  unfold fetchHalf
  repeat' (with_reducible first | assumption | (exact Frame.sub hm (by decide)) | apply frame_cacheFill | apply frame_fillIline | apply frame_segMismatch | split | dsimp only | simp only [Frame.upd_iff, true_or, or_true])

theorem frame_rvStep {m0 : Nat} {s0 : State} (th : Nat) (s : State) (hm : 1146360 ||| m0 = m0) (hs : Frame m0 s0 s) :
    Frame m0 s0 (rvStep th s) := by
  unfold rvStep
  repeat' (with_reducible first | assumption | (exact Frame.sub hm (by decide)) | exact Frame.refl _ | apply frame_fetchHalf | apply frame_illegal | apply frame_onIssue | apply frame_rvWord | apply frame_takeFault | (intro _) | refine Frame.snd (by assumption) ?_ | refine Frame.snd3 (by assumption) ?_ | refine Frame.snd4 (by assumption) ?_ | refine Frame.some1 (by assumption) ?_ | refine Frame.some2 (by assumption) ?_ | refine Frame.some3 (by assumption) ?_ | refine Frame.fst (by assumption) ?_ | refine Frame.ite ?_ ?_ | refine Frame.ite2 ?_ ?_ | refine Frame.ite3 ?_ ?_ | split | dsimp only | simp only [Frame.upd_iff, true_or, or_true])

theorem frame_execRv64gcInstruction {m0 : Nat} {s0 : State} (th : Nat) (s : State) (hm : 1146360 ||| m0 = m0) (hs : Frame m0 s0 s) :
    ∀ z, (execRv64gcInstruction th s) = .next z → Frame m0 s0 z := by
  intro z e
  unfold execRv64gcInstruction at e
  try dsimp only at e
  first | (split at e <;> first | (injection e with e; subst e)) | (injection e with e; subst e) | skip
  repeat' (with_reducible first | assumption | (exact Frame.sub hm (by decide)) | apply frame_rvStep | split | dsimp only | simp only [Frame.upd_iff, true_or, or_true])

end Sys2Proof.Machine
end

