-- ==== Sys2Proof/Laws/FrameTime.lean ====
section
/-! SUPPORT. FrameTime: each operation of Machine/Time.lean changes only the fields of `State`
that its mask names (`Frame`). -/
namespace Sys2Proof.Machine
set_option Elab.async false
set_option linter.all false

theorem frame_moveTo {m0 : Nat} {s0 : State} (c : Nat) (s : State) (hm : 2 ||| m0 = m0) (hs : Frame m0 s0 s) :
    Frame m0 s0 (moveTo c s) := by
  have b1 := Frame.bit hm (k := 1) (by decide)
  unfold moveTo
  repeat' (with_reducible first | assumption | (exact Frame.sub hm (by decide)) | split | dsimp only | simp only [Frame.upd_iff, b1, true_or, or_true])

theorem frame_resetRead {m0 : Nat} {s0 : State} (p : Part) (s : State) (hm : 81984 ||| m0 = m0) (hs : Frame m0 s0 s) :
    Frame m0 s0 (resetRead p s) := by
  unfold resetRead
  repeat' (with_reducible first | assumption | (exact Frame.sub hm (by decide)) | apply frame_answerFailed | apply frame_dropPart | split | dsimp only | simp only [Frame.upd_iff, true_or, or_true])

theorem frame_resetUpdate {m0 : Nat} {s0 : State} (p : Part) (s : State) (hm : 1310200 ||| m0 = m0) (hs : Frame m0 s0 s) :
    Frame m0 s0 (resetUpdate p s) := by
  unfold resetUpdate
  repeat' (with_reducible first | assumption | (exact Frame.sub hm (by decide)) | apply frame_ownStaged | apply frame_refuseItem | apply frame_unstage | split | dsimp only | simp only [Frame.upd_iff, true_or, or_true])

theorem frame_resetPart {m0 : Nat} {s0 : State} (p : Part) (s : State) (hm : 1310200 ||| m0 = m0) (hs : Frame m0 s0 s) :
    Frame m0 s0 (resetPart p s) := by
  unfold resetPart
  repeat' (with_reducible first | assumption | (exact Frame.sub hm (by decide)) | apply frame_resetRead | apply frame_resetUpdate | split | dsimp only | simp only [Frame.upd_iff, true_or, or_true])

theorem frame_resetLetters {m0 : Nat} {s0 : State} (t : Nat) (s : State) (hm : 4240 ||| m0 = m0) (hs : Frame m0 s0 s) :
    Frame m0 s0 (resetLetters t s) := by
  have b4 := Frame.bit hm (k := 4) (by decide)
  have b7 := Frame.bit hm (k := 7) (by decide)
  unfold resetLetters
  repeat' (with_reducible first | assumption | (exact Frame.sub hm (by decide)) | apply frame_bumpBy | split | dsimp only | simp only [Frame.upd_iff, b4, b7, true_or, or_true])

theorem frame_startReset {m0 : Nat} {s0 : State} (t : Nat) (s : State) (hm : 1310712 ||| m0 = m0) (hs : Frame m0 s0 s) :
    Frame m0 s0 (startReset t s) := by
  have b8 := Frame.bit hm (k := 8) (by decide)
  unfold startReset
  repeat' (with_reducible first | assumption | (exact Frame.sub hm (by decide)) | apply frame_failReq | apply frame_foldS | apply frame_onNotes | apply frame_onTenant | apply frame_refillTenant | apply frame_resetLetters | apply frame_resetPart | (intro _) | refine Frame.ite ?_ ?_ | split | dsimp only | simp only [Frame.upd_iff, b8, true_or, or_true])

theorem frame_serveAgain {m0 : Nat} {s0 : State} (t : Nat) (s : State) (hm : 512 ||| m0 = m0) (hs : Frame m0 s0 s) :
    Frame m0 s0 (serveAgain t s) := by
  unfold serveAgain
  repeat' (with_reducible first | assumption | (exact Frame.sub hm (by decide)) | apply frame_onTenant | split | dsimp only | simp only [Frame.upd_iff, true_or, or_true])

theorem frame_boundaryTenants {m0 : Nat} {s0 : State} (s : State) (hm : 1310712 ||| m0 = m0) (hs : Frame m0 s0 s) :
    Frame m0 s0 (boundaryTenants s) := by
  unfold boundaryTenants
  repeat' (with_reducible first | assumption | (exact Frame.sub hm (by decide)) | apply frame_foldS | apply frame_serveAgain | apply frame_startReset | (intro _) | refine Frame.ite ?_ ?_ | split | dsimp only | simp only [Frame.upd_iff, true_or, or_true])

theorem frame_finishReset {m0 : Nat} {s0 : State} (t : Nat) (s : State) (hm : 4864 ||| m0 = m0) (hs : Frame m0 s0 s) :
    Frame m0 s0 (finishReset t s) := by
  unfold finishReset
  repeat' (with_reducible first | assumption | (exact Frame.sub hm (by decide)) | apply frame_bump | apply frame_closeSess | apply frame_foldS | apply frame_onNotes | apply frame_onTenant | apply frame_sendFreshNotes | (intro _) | refine Frame.ite ?_ ?_ | split | dsimp only | simp only [Frame.upd_iff, true_or, or_true])

theorem frame_execResetDone {m0 : Nat} {s0 : State} (t : Nat) (s : State) (hm : 4864 ||| m0 = m0) (hs : Frame m0 s0 s) :
    ∀ z, (execResetDone t s) = .next z → Frame m0 s0 z := by
  intro z e
  unfold execResetDone at e
  try dsimp only at e
  first | (split at e <;> first | (injection e with e; subst e)) | (injection e with e; subst e) | skip
  repeat' (with_reducible first | assumption | (exact Frame.sub hm (by decide)) | apply frame_finishReset | split | dsimp only | simp only [Frame.upd_iff, true_or, or_true])

theorem frame_runCancel {m0 : Nat} {s0 : State} (c : Req) (s : State) (hm : 6648 ||| m0 = m0) (hs : Frame m0 s0 s) :
    Frame m0 s0 (runCancel c s) := by
  unfold runCancel
  repeat' (with_reducible first | assumption | (exact Frame.sub hm (by decide)) | apply frame_endCancel | apply frame_failReq | split | dsimp only | simp only [Frame.upd_iff, true_or, or_true])

theorem frame_runCancels {m0 : Nat} {s0 : State} (s : State) (hm : 6648 ||| m0 = m0) (hs : Frame m0 s0 s) :
    Frame m0 s0 (runCancels s) := by
  unfold runCancels
  repeat' (with_reducible first | assumption | (exact Frame.sub hm (by decide)) | apply frame_foldS | apply frame_runCancel | (intro _) | refine Frame.ite ?_ ?_ | split | dsimp only | simp only [Frame.upd_iff, true_or, or_true])

theorem frame_admitOne {m0 : Nat} {s0 : State} (r : Req) (s : State) (hm : 4352 ||| m0 = m0) (hs : Frame m0 s0 s) :
    Frame m0 s0 (admitOne r s) := by
  unfold admitOne
  repeat' (with_reducible first | assumption | (exact Frame.sub hm (by decide)) | apply frame_bump | apply frame_dropAsm | apply frame_onReq | apply frame_onSess | apply frame_whenS | (intro _) | refine Frame.ite ?_ ?_ | split | dsimp only | simp only [Frame.upd_iff, true_or, or_true])

theorem frame_admitPrio {m0 : Nat} {s0 : State} (prio : Nat) (x1 : Nat) (x2 : Admission) (hm : 4864 ||| m0 = m0) (hx2 : Frame m0 s0 x2.st) :
    Frame m0 s0 (admitPrio prio x1 x2).st := by
  have b9 := Frame.bit hm (k := 9) (by decide)
  induction x1 generalizing prio x2 with
  | zero =>
    unfold admitPrio
    all_goals try dsimp only
    repeat' (with_reducible first | assumption | (exact Frame.sub hm (by decide)) | exact Frame.refl _ | apply frame_admitOne | (intro _) | refine Frame.snd (by assumption) ?_ | refine Frame.snd3 (by assumption) ?_ | refine Frame.snd4 (by assumption) ?_ | refine Frame.some1 (by assumption) ?_ | refine Frame.some2 (by assumption) ?_ | refine Frame.some3 (by assumption) ?_ | refine Frame.fst (by assumption) ?_ | refine Frame.foldlOf Admission.st ?_ ?_ | refine Frame.ite ?_ ?_ | refine Frame.ite2 ?_ ?_ | refine Frame.ite3 ?_ ?_ | split | dsimp only | simp only [Frame.upd_iff, b9, true_or, or_true])
  | succ n ih =>
    unfold admitPrio
    all_goals try dsimp only
    repeat' (with_reducible first | assumption | (exact Frame.sub hm (by decide)) | exact Frame.refl _ | apply frame_admitOne | with_reducible apply ih | (intro _) | refine Frame.snd (by assumption) ?_ | refine Frame.snd3 (by assumption) ?_ | refine Frame.snd4 (by assumption) ?_ | refine Frame.some1 (by assumption) ?_ | refine Frame.some2 (by assumption) ?_ | refine Frame.some3 (by assumption) ?_ | refine Frame.fst (by assumption) ?_ | refine Frame.foldlOf Admission.st ?_ ?_ | refine Frame.ite ?_ ?_ | refine Frame.ite2 ?_ ?_ | refine Frame.ite3 ?_ ?_ | split | dsimp only | simp only [Frame.upd_iff, b9, true_or, or_true])

theorem frame_admission {m0 : Nat} {s0 : State} (s : State) (hm : 4864 ||| m0 = m0) (hs : Frame m0 s0 s) :
    Frame m0 s0 (admission s).2 := by
  unfold admission
  repeat' (with_reducible first | assumption | (exact Frame.sub hm (by decide)) | apply frame_admitOne | apply frame_admitPrio | apply frame_foldS | (intro _) | refine Frame.foldlOf Admission.st ?_ ?_ | refine Frame.ite ?_ ?_ | split | dsimp only | simp only [Frame.upd_iff, true_or, or_true])

theorem frame_formBatches {m0 : Nat} {s0 : State} (rids : List Nat) (s : State) (hm : 65536 ||| m0 = m0) (hs : Frame m0 s0 s) :
    Frame m0 s0 (formBatches rids s) := by
  unfold formBatches
  repeat' (with_reducible first | assumption | (exact Frame.sub hm (by decide)) | apply frame_foldS | apply frame_formBatch | (intro _) | refine Frame.ite ?_ ?_ | split | dsimp only | simp only [Frame.upd_iff, true_or, or_true])

theorem frame_quotaNote {m0 : Nat} {s0 : State} (t : Nat) (row : Nat) (use : Nat) (quota : Nat) (s : State) (hm : 4864 ||| m0 = m0) (hs : Frame m0 s0 s) :
    Frame m0 s0 (quotaNote t row use quota s) := by
  unfold quotaNote
  repeat' (with_reducible first | assumption | (exact Frame.sub hm (by decide)) | apply frame_thresholdNote | split | dsimp only | simp only [Frame.upd_iff, true_or, or_true])

theorem frame_quotaNotes {m0 : Nat} {s0 : State} (t : Nat) (s : State) (hm : 4864 ||| m0 = m0) (hs : Frame m0 s0 s) :
    Frame m0 s0 (quotaNotes t s) := by
  unfold quotaNotes
  repeat' (with_reducible first | assumption | (exact Frame.sub hm (by decide)) | apply frame_foldS | apply frame_quotaNote | (intro _) | refine Frame.ite ?_ ?_ | split | dsimp only | simp only [Frame.upd_iff, true_or, or_true])

theorem frame_kernelNotes {m0 : Nat} {s0 : State} (s : State) (hm : 4864 ||| m0 = m0) (hs : Frame m0 s0 s) :
    Frame m0 s0 (kernelNotes s) := by
  have b9 := Frame.bit hm (k := 9) (by decide)
  unfold kernelNotes
  repeat' (with_reducible first | assumption | (exact Frame.sub hm (by decide)) | apply frame_foldS | apply frame_quotaNote | (intro _) | refine Frame.ite ?_ ?_ | split | dsimp only | simp only [Frame.upd_iff, b9, true_or, or_true])

theorem frame_renewBudgets {m0 : Nat} {s0 : State} (s : State) (hm : 528 ||| m0 = m0) (hs : Frame m0 s0 s) :
    Frame m0 s0 (renewBudgets s) := by
  have b4 := Frame.bit hm (k := 4) (by decide)
  have b9 := Frame.bit hm (k := 9) (by decide)
  unfold renewBudgets
  repeat' (with_reducible first | assumption | (exact Frame.sub hm (by decide)) | split | dsimp only | simp only [Frame.upd_iff, b4, b9, true_or, or_true])

theorem frame_boundarySettings {m0 : Nat} {s0 : State} (s : State) (hm : 131224 ||| m0 = m0) (hs : Frame m0 s0 s) :
    Frame m0 s0 (boundarySettings s) := by
  have b4 := Frame.bit hm (k := 4) (by decide)
  have b7 := Frame.bit hm (k := 7) (by decide)
  unfold boundarySettings
  repeat' (with_reducible first | assumption | (exact Frame.sub hm (by decide)) | apply frame_loadAreas | apply frame_loadSegs | split | dsimp only | simp only [Frame.upd_iff, b4, b7, true_or, or_true])

theorem frame_boundaryMedia {m0 : Nat} {s0 : State} (s : State) (hm : 203256 ||| m0 = m0) (hs : Frame m0 s0 s) :
    Frame m0 s0 (boundaryMedia s) := by
  unfold boundaryMedia
  repeat' (with_reducible first | assumption | (exact Frame.sub hm (by decide)) | apply frame_boundaryDiscards | apply frame_feedDiscards | apply frame_foldS | apply frame_gatherWrites | apply frame_reloadRecords | apply frame_salvageUnit | apply frame_startCheckpoint | apply frame_startFold | apply frame_startGc | apply frame_startRefresh | apply frame_startWear | apply frame_switchCopies | (intro _) | refine Frame.ite ?_ ?_ | split | dsimp only | simp only [Frame.upd_iff, true_or, or_true])

theorem frame_boundaryPatches {m0 : Nat} {s0 : State} (s : State) (hm : 69632 ||| m0 = m0) (hs : Frame m0 s0 s) :
    Frame m0 s0 (boundaryPatches s) := by
  have b16 := Frame.bit hm (k := 16) (by decide)
  unfold boundaryPatches
  repeat' (with_reducible first | assumption | (exact Frame.sub hm (by decide)) | apply frame_reloadSketches | apply frame_wantPatches | apply frame_whenS | (intro _) | refine Frame.ite ?_ ?_ | split | dsimp only | simp only [Frame.upd_iff, b16, true_or, or_true])

theorem frame_boundaryPaths {m0 : Nat} {s0 : State} (s : State) (hm : 233864 ||| m0 = m0) (hs : Frame m0 s0 s) :
    Frame m0 s0 (boundaryPaths s) := by
  unfold boundaryPaths
  repeat' (with_reducible first | assumption | (exact Frame.sub hm (by decide)) | apply frame_applyAllTokens | apply frame_applyUpdates | apply frame_boundaryPatches | apply frame_freeClosed | apply frame_startFolds | split | dsimp only | simp only [Frame.upd_iff, true_or, or_true])

theorem frame_roundWork {m0 : Nat} {s0 : State} (s : State) (hm : 1310712 ||| m0 = m0) (hs : Frame m0 s0 s) :
    Frame m0 s0 (roundWork s) := by
  unfold roundWork
  repeat' (with_reducible first | assumption | (exact Frame.sub hm (by decide)) | apply frame_admission | apply frame_boundaryMedia | apply frame_boundaryPaths | apply frame_boundarySettings | apply frame_boundaryTenants | apply frame_countRounds | apply frame_engageDetours | apply frame_foldS | apply frame_formBatches | apply frame_movePaths | apply frame_moveTabs | apply frame_queueNotes | apply frame_quotaNotes | apply frame_renewBudgets | apply frame_runCancels | apply frame_startAttendPass | apply frame_startKernels | (intro _) | refine Frame.ite ?_ ?_ | split | dsimp only | simp only [Frame.upd_iff, true_or, or_true])

theorem frame_switchAll {m0 : Nat} {s0 : State} (s : State) (hm : 4864 ||| m0 = m0) (hs : Frame m0 s0 s) :
    Frame m0 s0 (switchAll s) := by
  unfold switchAll
  repeat' (with_reducible first | assumption | (exact Frame.sub hm (by decide)) | apply frame_foldS | apply frame_switchGates | (intro _) | refine Frame.ite ?_ ?_ | split | dsimp only | simp only [Frame.upd_iff, true_or, or_true])

theorem frame_execRoundBoundary {m0 : Nat} {s0 : State} (s : State) (hm : 1310714 ||| m0 = m0) (hs : Frame m0 s0 s) :
    ∀ z, (execRoundBoundary s) = .next z → Frame m0 s0 z := by
  have b1 := Frame.bit hm (k := 1) (by decide)
  intro z e
  unfold execRoundBoundary at e
  try dsimp only at e
  first | (split at e <;> first | (injection e with e; subst e)) | (injection e with e; subst e) | skip
  repeat' (with_reducible first | assumption | (exact Frame.sub hm (by decide)) | apply frame_moveTo | apply frame_queueNotes | apply frame_roundWork | apply frame_switchAll | split | dsimp only | simp only [Frame.upd_iff, b1, true_or, or_true])

theorem frame_execFrameBoundary {m0 : Nat} {s0 : State} (s : State) (hm : 4994 ||| m0 = m0) (hs : Frame m0 s0 s) :
    ∀ z, (execFrameBoundary s) = .next z → Frame m0 s0 z := by
  have b1 := Frame.bit hm (k := 1) (by decide)
  intro z e
  unfold execFrameBoundary at e
  try dsimp only at e
  first | (split at e <;> first | (injection e with e; subst e)) | (injection e with e; subst e) | skip
  repeat' (with_reducible first | assumption | (exact Frame.sub hm (by decide)) | apply frame_moveTo | apply frame_queueNotes | apply frame_switchAll | apply frame_wakeAll | apply frame_whenS | (intro _) | refine Frame.ite ?_ ?_ | split | dsimp only | simp only [Frame.upd_iff, b1, true_or, or_true])

theorem frame_releaseReq {m0 : Nat} {s0 : State} (r : Req) (s : State) (hm : 1179128 ||| m0 = m0) (hs : Frame m0 s0 s) :
    Frame m0 s0 (releaseReq r s) := by
  unfold releaseReq
  repeat' (with_reducible first | assumption | (exact Frame.sub hm (by decide)) | apply frame_endReq | apply frame_movePaths | apply frame_sendFinalists | split | dsimp only | simp only [Frame.upd_iff, true_or, or_true])

theorem frame_releaseAny {m0 : Nat} {s0 : State} (p : Part) (s : State) (hm : 1179128 ||| m0 = m0) (hs : Frame m0 s0 s) :
    Frame m0 s0 (releaseAny p s) := by
  unfold releaseAny
  repeat' (with_reducible first | assumption | (exact Frame.sub hm (by decide)) | apply frame_dropPart | apply frame_takeAnswer | apply frame_treeInput | split | dsimp only | simp only [Frame.upd_iff, true_or, or_true])

theorem frame_execStrictPoint {m0 : Nat} {s0 : State} (rid : Nat) (s : State) (hm : 1179130 ||| m0 = m0) (hs : Frame m0 s0 s) :
    ∀ z, (execStrictPoint rid s) = .next z → Frame m0 s0 z := by
  intro z e
  unfold execStrictPoint at e
  try dsimp only at e
  first | (split at e <;> first | (injection e with e; subst e)) | (injection e with e; subst e) | skip
  repeat' (with_reducible first | assumption | (exact Frame.sub hm (by decide)) | apply frame_movePaths | apply frame_moveTo | apply frame_releaseAny | apply frame_releaseReq | split | dsimp only | simp only [Frame.upd_iff, true_or, or_true])

theorem frame_takeTemps {m0 : Nat} {s0 : State} (temps : List Int) (s : State) (hm : 6144 ||| m0 = m0) (hs : Frame m0 s0 s) :
    Frame m0 s0 (takeTemps temps s) := by
  unfold takeTemps
  repeat' (with_reducible first | assumption | (exact Frame.sub hm (by decide)) | apply frame_dirPut | apply frame_foldS | apply frame_onDieLog | (intro _) | refine Frame.ite ?_ ?_ | split | dsimp only | simp only [Frame.upd_iff, true_or, or_true])

theorem frame_takeVolts {m0 : Nat} {s0 : State} (s : State) (hm : 1054720 ||| m0 = m0) (hs : Frame m0 s0 s) :
    Frame m0 s0 (takeVolts s) := by
  unfold takeVolts
  repeat' (with_reducible first | assumption | (exact Frame.sub hm (by decide)) | apply frame_dirPut | apply frame_draw | apply frame_foldS | apply frame_onDieLog | (intro _) | refine Frame.ite ?_ ?_ | split | dsimp only | simp only [Frame.upd_iff, true_or, or_true])

theorem frame_controllerTick {m0 : Nat} {s0 : State} (draw_ : Nat) (temps : List Int) (s : State) (hm : 81792 ||| m0 = m0) (hs : Frame m0 s0 s) :
    Frame m0 s0 (controllerTick draw_ temps s) := by
  unfold controllerTick
  repeat' (with_reducible first | assumption | (exact Frame.sub hm (by decide)) | apply frame_boost | apply frame_kernelNotes | apply frame_powerTick | apply frame_raiseGuard | split | dsimp only | simp only [Frame.upd_iff, true_or, or_true])

theorem frame_execManagementTick {m0 : Nat} {s0 : State} (draw_ : Nat) (temps : List Int) (s : State) (hm : 1130370 ||| m0 = m0) (hs : Frame m0 s0 s) :
    ∀ z, (execManagementTick draw_ temps s) = .next z → Frame m0 s0 z := by
  have b1 := Frame.bit hm (k := 1) (by decide)
  intro z e
  unfold execManagementTick at e
  try dsimp only at e
  first | (split at e <;> first | (injection e with e; subst e)) | (injection e with e; subst e) | skip
  repeat' (with_reducible first | assumption | (exact Frame.sub hm (by decide)) | apply frame_controllerTick | apply frame_dirSet | apply frame_moveTo | apply frame_takeTemps | apply frame_takeVolts | split | dsimp only | simp only [Frame.upd_iff, b1, true_or, or_true])

end Sys2Proof.Machine
end

