-- ==== Sys2Proof/Laws/Keeps.lean ====
section
/-! SUPPORT. Keeps: what every operation of the model keeps, said once. The files Laws/Keep*.lean show it of each operation,
and the invariants of the machine follow from it without unfolding a meaning again. -/
namespace Sys2Proof.Machine
set_option Elab.async false
set_option linter.all false

/-- From `s` to `t` the queue of commands is untouched, the canonical form of memory is kept, no free value is drawn twice,
what was sent stays sent, and no bounded store passes its bound. -/
structure Keeps (s t : State) : Prop where
  queue : t.pending = s.pending
  mem : Memory.wf s.mem = true → Memory.wf t.mem = true
  free : s.free ≤ t.free
  emits : Emits s t
  room : Capacity s → Capacity t

theorem Emits.refl (s : State) : Emits s s := ⟨List.prefix_refl _, List.prefix_refl _, List.prefix_refl _⟩

theorem Emits.trans {s u t : State} (h : Emits s u) (k : Emits u t) : Emits s t :=
  ⟨h.ports.trans k.ports, h.chain.trans k.chain, h.fabric.trans k.fabric⟩

theorem Keeps.refl (s : State) : Keeps s s := ⟨rfl, id, Nat.le_refl _, .refl s, id⟩

theorem Keeps.trans {s u t : State} (h : Keeps s u) (k : Keeps u t) : Keeps s t :=
  ⟨k.queue.trans h.queue, fun w => k.mem (h.mem w), Nat.le_trans h.free k.free, h.emits.trans k.emits, fun w => k.room (h.room w)⟩

/-- A record update that touches neither the queue, the bytes of memory, the free counter nor the output records, and
leaves as many entries in every bounded store. -/
theorem Keeps.upd_iff {s u : State} {clk : Clock} {phase : Phase} {mem : Mem} {sea : Sea} {stk : SMap Seqr} {par : Par} {pwr : Pwr} {hxt : Hxt} {trf : Trf} {err : Err} {log : Log} {dir : Dir} {chain : Chain} {fab : Fab} {cmp : Comp} {path : Paths} {flash : Flash} {sec : Sec} {pins : Pins}
    (e : mem.bytes = u.mem.bytes) (e1 : hxt.sent = u.hxt.sent) (e2 : chain.out = u.chain.out) (e3 : fab.out = u.fab.out)
    (n1 : err.queue.length = u.err.queue.length)
    (n2 : err.halts.length = u.err.halts.length)
    (n3 : chain.alerts.length = u.chain.alerts.length)
    (n4 : pwr.mcBox.length = u.pwr.mcBox.length)
    (n5 : pwr.seBox.length = u.pwr.seBox.length)
    (n6 : hxt.sessions.length = u.hxt.sessions.length)
    (n7 : log.trace.length = u.log.trace.length) :
    Keeps s (State.mk u.pending clk phase mem sea stk par pwr hxt trf err log dir chain fab cmp path flash sec pins u.free) ↔ Keeps s u := by
  constructor <;> intro h <;> refine ⟨h.queue, fun w => ?_, h.free, ⟨?_, ?_, ?_⟩, fun w => ?_⟩
  · have := h.mem w; unfold Memory.wf at *; simpa [e] using this
  · simpa [e1] using h.emits.ports
  · simpa [e2] using h.emits.chain
  · simpa [e3] using h.emits.fabric
  · have k := h.room w
    exact ⟨n1 ▸ k.records, n2 ▸ k.halts, n3 ▸ k.alerts, n4 ▸ k.controller, n5 ▸ k.security, n6 ▸ k.sessions, n7 ▸ k.trace⟩
  · have := h.mem w; unfold Memory.wf at *; simpa [e] using this
  · simpa [e1] using h.emits.ports
  · simpa [e2] using h.emits.chain
  · simpa [e3] using h.emits.fabric
  · have k := h.room w
    exact ⟨n1 ▸ k.records, n2 ▸ k.halts, n3 ▸ k.alerts, n4 ▸ k.controller, n5 ▸ k.security, n6 ▸ k.sessions, n7 ▸ k.trace⟩

/-- A record update that grows nothing bounded and only adds to what was sent. -/
theorem Keeps.upd {s u : State} {clk : Clock} {phase : Phase} {mem : Mem} {sea : Sea} {stk : SMap Seqr} {par : Par} {pwr : Pwr} {hxt : Hxt} {trf : Trf} {err : Err} {log : Log} {dir : Dir} {chain : Chain} {fab : Fab} {cmp : Comp} {path : Paths} {flash : Flash} {sec : Sec} {pins : Pins}
    (h : Keeps s u) (e : Memory.wf u.mem = true → cellsWf mem.bytes = true)
    (e1 : u.hxt.sent <+: hxt.sent) (e2 : u.chain.out <+: chain.out) (e3 : u.fab.out <+: fab.out)
    (n1 : err.queue.length ≤ u.err.queue.length)
    (n2 : err.halts.length ≤ u.err.halts.length)
    (n3 : chain.alerts.length ≤ u.chain.alerts.length)
    (n4 : pwr.mcBox.length ≤ u.pwr.mcBox.length)
    (n5 : pwr.seBox.length ≤ u.pwr.seBox.length)
    (n6 : hxt.sessions.length ≤ u.hxt.sessions.length)
    (n7 : log.trace.length ≤ u.log.trace.length) :
    Keeps s (State.mk u.pending clk phase mem sea stk par pwr hxt trf err log dir chain fab cmp path flash sec pins u.free) :=
  ⟨h.queue, fun w => e (h.mem w), h.free, ⟨h.emits.ports.trans e1, h.emits.chain.trans e2, h.emits.fabric.trans e3⟩,
   fun w => have k := h.room w
    ⟨Nat.le_trans n1 k.records, Nat.le_trans n2 k.halts, Nat.le_trans n3 k.alerts, Nat.le_trans n4 k.controller,
      Nat.le_trans n5 k.security, Nat.le_trans n6 k.sessions, Nat.le_trans n7 k.trace⟩⟩

/-- A change to a bounded store or to an output record, on top of what is kept so far. -/
theorem Keeps.of {s u t : State} (h : Keeps s u) (hq : t.pending = u.pending) (hm : t.mem.bytes = u.mem.bytes)
    (hf : u.free ≤ t.free) (he : Emits u t) (hc : Capacity u → Capacity t) : Keeps s t :=
  h.trans ⟨hq, fun w => by unfold Memory.wf at *; rwa [hm], hf, he, hc⟩

/-- The free counter advanced. -/
theorem Keeps.drawn {s u : State} (h : Keeps s u) : Keeps s { u with free := u.free + 1 } :=
  ⟨h.queue, h.mem, Nat.le_succ_of_le h.free, ⟨h.emits.ports, h.emits.chain, h.emits.fabric⟩,
   fun w => have k := h.room w
    ⟨k.records, k.halts, k.alerts, k.controller, k.security, k.sessions, k.trace⟩⟩

@[simp] theorem length_updFirst {α : Type} (p : α → Bool) (f : α → α) (l : List α) : (updFirst p f l).length = l.length := by
  induction l with
  | nil => rfl
  | cons a t ih => unfold updFirst; split <;> simp [ih]

theorem Keeps.snd {α : Type} {s t : State} {p : α × State} {a : α} (e : p = (a, t)) (h : Keeps s p.2) : Keeps s t := by
  rw [e] at h; exact h

theorem Keeps.fst {α : Type} {s t : State} {p : State × α} {a : α} (e : p = (t, a)) (h : Keeps s p.1) : Keeps s t := by
  rw [e] at h; exact h

theorem Keeps.some1 {s t : State} {o : Option State} (e : o = some t) (h : ∀ r, o = some r → Keeps s r) : Keeps s t :=
  h t e

theorem Keeps.some2 {α : Type} {s t : State} {o : Option (α × State)} {a : α} (e : o = some (a, t))
    (h : ∀ r, o = some r → Keeps s r.2) : Keeps s t := h (a, t) e

theorem Keeps.some3 {α β : Type} {s t : State} {o : Option (α × β × State)} {a : α} {b : β} (e : o = some (a, b, t))
    (h : ∀ r, o = some r → Keeps s r.2.2) : Keeps s t := h (a, b, t) e

theorem Keeps.snd3 {α β : Type} {s t : State} {p : α × β × State} {a : α} {b : β} (e : p = (a, b, t))
    (h : Keeps s p.2.2) : Keeps s t := by
  rw [e] at h; exact h

theorem Keeps.snd4 {α β γ : Type} {s t : State} {p : α × β × γ × State} {a : α} {b : β} {c : γ} (e : p = (a, b, c, t))
    (h : Keeps s p.2.2.2) : Keeps s t := by
  rw [e] at h; exact h

/-- A fold over anything that holds a state. -/
theorem Keeps.foldlOf {α β : Type} (g : β → State) {s : State} {b : β} {l : List α} {f : β → α → β}
    (hf : ∀ b a, Keeps s (g b) → Keeps s (g (f b a))) (h : Keeps s (g b)) : Keeps s (g (l.foldl f b)) := by
  induction l generalizing b with
  | nil => exact h
  | cons a t ih => exact ih (hf _ _ h)

theorem Keeps.getD {s d : State} {o : Option State} (h : ∀ r, o = some r → Keeps s r) (hd : Keeps s d) :
    Keeps s (o.getD d) := by
  cases o with
  | none => exact hd
  | some t => exact h t rfl

theorem Keeps.elim {α : Type} {s d : State} {o : Option α} {f : α → State} (h : ∀ a, Keeps s (f a)) (hd : Keeps s d) :
    Keeps s (o.elim d f) := by
  cases o with
  | none => exact hd
  | some t => exact h t

theorem Keeps.foldl3 {α β γ : Type} {s : State} {p : β × γ × State} {l : List α} {f : β × γ × State → α → β × γ × State}
    (hf : ∀ p a, Keeps s p.2.2 → Keeps s (f p a).2.2) (h : Keeps s p.2.2) : Keeps s (l.foldl f p).2.2 := by
  induction l generalizing p with
  | nil => exact h
  | cons a t ih => exact ih (hf _ _ h)

theorem Keeps.elim2 {α β : Type} {s : State} {d : β × State} {o : Option α} {f : α → β × State}
    (h : ∀ a, Keeps s (f a).2) (hd : Keeps s d.2) : Keeps s (o.elim d f).2 := by
  cases o with
  | none => exact hd
  | some t => exact h t

theorem Keeps.of4 {α β γ : Type} {s t : State} {p : α × β × γ × State} {a : α} {b : β} {c : γ} (e : p = (a, b, c, t))
    (h : Keeps s t) : Keeps s p.2.2.2 := by rw [e]; exact h

theorem Keeps.ite {s a b : State} {c : Prop} [Decidable c] (ha : c → Keeps s a) (hb : ¬c → Keeps s b) :
    Keeps s (if c then a else b) := by
  split <;> simp_all

theorem Keeps.ite2 {α : Type} {s : State} {a b : α × State} {c : Prop} [Decidable c] (ha : c → Keeps s a.2)
    (hb : ¬c → Keeps s b.2) : Keeps s (if c then a else b).2 := by
  split <;> simp_all

theorem Keeps.ite3 {α β : Type} {s : State} {a b : α × β × State} {c : Prop} [Decidable c] (ha : c → Keeps s a.2.2)
    (hb : ¬c → Keeps s b.2.2) : Keeps s (if c then a else b).2.2 := by
  split <;> simp_all

theorem Keeps.foldl {α : Type} {s u : State} {l : List α} {f : State → α → State}
    (hf : ∀ u a, Keeps s u → Keeps s (f u a)) (h : Keeps s u) : Keeps s (l.foldl f u) := by
  induction l generalizing u with
  | nil => exact h
  | cons a t ih => exact ih (hf _ _ h)

theorem Keeps.foldl2 {α β : Type} {s : State} {p : β × State} {l : List α} {f : β × State → α → β × State}
    (hf : ∀ p a, Keeps s p.2 → Keeps s (f p a).2) (h : Keeps s p.2) : Keeps s (l.foldl f p).2 := by
  induction l generalizing p with
  | nil => exact h
  | cons a t ih => exact ih (hf _ _ h)

end Sys2Proof.Machine
end

