-- ==== Sys2Proof/Laws/KeepMaps.lean ====
section
/-! SUPPORT. KeepMaps: each operation of Machine/Maps.lean keeps the queue, the canonical form of memory and the
order of the free values (`Keeps`). -/
namespace Sys2Proof.Machine
set_option Elab.async false
set_option linter.all false

theorem keeps_whenS {s0 : State} (c : Bool) (f : State → State) (s : State) (hf : ∀ u, Keeps s0 u → Keeps s0 (f u)) (hs : Keeps s0 s) :
    Keeps s0 (whenS c f s) := by
  unfold whenS
  repeat' (with_reducible first | assumption | apply hf | split | dsimp only | simp only [Keeps.upd_iff])

theorem keeps_optS {s0 : State} {α : Type} (o : Option α) (f : α → State → State) (s : State) (hf : ∀ y0 u, Keeps s0 u → Keeps s0 (f y0 u)) (hs : Keeps s0 s) :
    Keeps s0 (optS o f s) := by
  unfold optS
  repeat' (with_reducible first | assumption | apply hf | split | dsimp only | simp only [Keeps.upd_iff])

theorem keeps_foldS {s0 : State} {α : Type} (l : List α) (f : α → State → State) (s : State) (hf : ∀ y0 u, Keeps s0 u → Keeps s0 (f y0 u)) (hs : Keeps s0 s) :
    Keeps s0 (foldS l f s) := by
  induction l generalizing s with
  | nil => exact hs
  | cons a t ih => exact ih _ (hf _ _ hs)

end Sys2Proof.Machine
end

