-- ==== Sys2Proof/Laws/KeepOps.lean ====
section
/-! SUPPORT. KeepOps: each operation of Machine/Ops.lean keeps the queue, the canonical form of memory and the
order of the free values (`Keeps`). -/
namespace Sys2Proof.Machine
set_option Elab.async false
set_option linter.all false

theorem keeps_draw {s0 : State} (s : State) (hs : Keeps s0 s) :
    Keeps s0 (draw s).2 := hs.drawn

theorem keeps_dirPut {s0 : State} (obj : Nat) (v : DVal) (s : State) (hs : Keeps s0 s) :
    Keeps s0 (dirPut obj v s) := by
  unfold dirPut
  repeat' (with_reducible first | assumption | split | dsimp only | simp only [Keeps.upd_iff])

theorem keeps_dirSet {s0 : State} (obj : Nat) (n : Nat) (s : State) (hs : Keeps s0 s) :
    Keeps s0 (dirSet obj n s) := by
  unfold dirSet
  repeat' (with_reducible first | assumption | apply keeps_dirPut | split | dsimp only | simp only [Keeps.upd_iff])

theorem keeps_bumpBy {s0 : State} (obj : Nat) (n : Nat) (s : State) (hs : Keeps s0 s) :
    Keeps s0 (bumpBy obj n s) := by
  unfold bumpBy
  repeat' (with_reducible first | assumption | apply keeps_dirSet | split | dsimp only | simp only [Keeps.upd_iff])

theorem keeps_bump {s0 : State} (obj : Nat) (s : State) (hs : Keeps s0 s) :
    Keeps s0 (bump obj s) := by
  unfold bump
  repeat' (with_reducible first | assumption | apply keeps_bumpBy | split | dsimp only | simp only [Keeps.upd_iff])

theorem keeps_onDieLog {s0 : State} (d : Nat) (f : DieLog → DieLog) (s : State) (hs : Keeps s0 s) :
    Keeps s0 (onDieLog d f s) := by
  unfold onDieLog
  repeat' (with_reducible first | assumption | split | dsimp only | simp only [Keeps.upd_iff])

theorem keeps_logError {s0 : State} (e : ErrIn) (s : State) (hs : Keeps s0 s) :
    Keeps s0 (logError e s) := by
  unfold logError
  repeat' (with_reducible first | assumption | apply keeps_onDieLog | split | dsimp only | simp only [Keeps.upd_iff])

theorem keeps_chainSend {s0 : State} (o : ChainOut) (len : Nat) (s : State) (hs : Keeps s0 s) :
    Keeps s0 (chainSend o len s) := by
  unfold chainSend
  split
  · exact hs
  · exact keeps_bumpBy _ _ _ (Keeps.of (u := s) hs rfl rfl (Nat.le_refl _) ⟨List.prefix_refl _, List.prefix_append _ _, List.prefix_refl _⟩ (fun k => ⟨k.records, k.halts, k.alerts, k.controller, k.security, k.sessions, k.trace⟩))

theorem keeps_sendAlert {s0 : State} (seq : Nat) (b : Bytes) (s : State) (hs : Keeps s0 s) :
    Keeps s0 (sendAlert seq b s) := by
  unfold sendAlert
  split
  · split
    · rename_i h
      exact keeps_chainSend _ _ _ (Keeps.of (u := s) hs rfl rfl (Nat.le_refl _) ⟨List.prefix_refl _, List.prefix_refl _, List.prefix_refl _⟩ (fun k => ⟨k.records, k.halts, by simp only [List.length_append, List.length_singleton]; omega, k.controller, k.security, k.sessions, k.trace⟩))
    · exact keeps_bump _ _ hs
  · exact hs

theorem keeps_errFlags {s0 : State} (e : ErrIn) (s : State) (hs : Keeps s0 s) :
    Keeps s0 (errFlags e s) := by
  unfold errFlags
  repeat' (with_reducible first | assumption | apply keeps_bump | apply keeps_dirSet | apply keeps_whenS | (intro _) | refine Keeps.ite ?_ ?_ | split | dsimp only | simp only [Keeps.upd_iff])

theorem keeps_raise {s0 : State} (e : ErrIn) (s : State) (hs : Keeps s0 s) :
    Keeps s0 (raise e s) := by
  unfold raise
  have h1 := keeps_errFlags e _ (keeps_logError e s hs)
  generalize errFlags e (logError e s) = u at h1 ⊢
  dsimp only
  split
  · exact (Keeps.of (u := u) h1 rfl rfl (Nat.le_refl _) ⟨List.prefix_refl _, List.prefix_refl _, List.prefix_refl _⟩ (fun k => ⟨by simpa using k.records, k.halts, k.alerts, k.controller, k.security, k.sessions, k.trace⟩))
  · split
    · exact keeps_bump _ _ (keeps_dirSet _ _ _ h1)
    · rename_i h
      exact keeps_sendAlert _ _ _ (keeps_bump _ _ (keeps_dirSet _ _ _ (Keeps.of (u := u) h1 rfl rfl (Nat.le_refl _) ⟨List.prefix_refl _, List.prefix_refl _, List.prefix_refl _⟩ (fun k => ⟨by simp only [List.length_append, List.length_singleton]; omega, k.halts, k.alerts, k.controller, k.security, k.sessions, k.trace⟩))))

theorem keeps_memWrite {s0 : State} (a : Nat) (b : Bytes) (s : State) (hs : Keeps s0 s) :
    Keeps s0 (memWrite a b s) := Keeps.upd (u := s) hs (fun h => cellsWf_cellsWrite _ _ _ h) (List.prefix_refl _) (List.prefix_refl _) (List.prefix_refl _)
    (Nat.le_refl _) (Nat.le_refl _) (Nat.le_refl _) (Nat.le_refl _) (Nat.le_refl _) (Nat.le_refl _) (Nat.le_refl _)

theorem keeps_freshCheck {s0 : State} (a : Nat) (n : Nat) (s : State) (hs : Keeps s0 s) :
    Keeps s0 (freshCheck a n s) := by
  unfold freshCheck
  repeat' (with_reducible first | assumption | split | dsimp only | simp only [Keeps.upd_iff])

theorem keeps_setUnsealed {s0 : State} (row : Nat) (u : Bool) (s : State) (hs : Keeps s0 s) :
    Keeps s0 (setUnsealed row u s) := by
  unfold setUnsealed
  repeat' (with_reducible first | assumption | split | dsimp only | simp only [Keeps.upd_iff])

theorem keeps_onSeqr {s0 : State} (k : Nat) (f : Seqr → Seqr) (s : State) (hs : Keeps s0 s) :
    Keeps s0 (onSeqr k f s) := by
  unfold onSeqr
  repeat' (with_reducible first | assumption | split | dsimp only | simp only [Keeps.upd_iff])

theorem keeps_touchStack {s0 : State} (k : Nat) (s : State) (hs : Keeps s0 s) :
    Keeps s0 (touchStack k s) := by
  unfold touchStack
  repeat' (with_reducible first | assumption | split | dsimp only | simp only [Keeps.upd_iff])

theorem keeps_countFoot {s0 : State} (k : Nat) (off : Nat) (s : State) (hs : Keeps s0 s) :
    Keeps s0 (countFoot k off s) := by
  unfold countFoot
  repeat' (with_reducible first | assumption | apply keeps_bump | apply keeps_whenS | split | dsimp only | simp only [Keeps.upd_iff])

theorem keeps_noteCorrected {s0 : State} (w : Who) (wa : Nat) (s : State) (hs : Keeps s0 s) :
    Keeps s0 (noteCorrected w wa s) := by
  unfold noteCorrected
  repeat' (with_reducible first | assumption | apply keeps_freshCheck | apply keeps_memWrite | apply keeps_raise | split | dsimp only | simp only [Keeps.upd_iff])

theorem keeps_accessStack {s0 : State} (a : Nat) (s : State) (hs : Keeps s0 s) :
    Keeps s0 (accessStack a s) := by
  unfold accessStack
  repeat' (with_reducible first | assumption | apply keeps_countFoot | apply keeps_touchStack | split | dsimp only | simp only [Keeps.upd_iff])

theorem keeps_demandRead {s0 : State} (w : Who) (a : Nat) (n : Nat) (s : State) (hs : Keeps s0 s) :
    Keeps s0 (demandRead w a n s).2 := by
  unfold demandRead
  repeat' (with_reducible first | assumption | apply keeps_accessStack | apply keeps_bump | apply keeps_foldS | apply keeps_noteCorrected | apply keeps_raise | split | dsimp only | simp only [Keeps.upd_iff])

theorem keeps_demandWrite {s0 : State} (w : Who) (atomic : Bool) (a : Nat) (b : Bytes) (s : State) (hs : Keeps s0 s) :
    Keeps s0 (demandWrite w atomic a b s).2 := by
  unfold demandWrite
  repeat' (with_reducible first | assumption | apply keeps_accessStack | apply keeps_bump | apply keeps_foldS | apply keeps_freshCheck | apply keeps_memWrite | apply keeps_raise | apply keeps_setUnsealed | (intro _) | refine Keeps.ite ?_ ?_ | split | dsimp only | simp only [Keeps.upd_iff])

theorem keeps_writeBack {s0 : State} (p : Nat × Nat × Nat) (s : State) (hs : Keeps s0 s) :
    Keeps s0 (writeBack p s) := by
  unfold writeBack
  repeat' (with_reducible first | assumption | apply keeps_bump | apply keeps_freshCheck | apply keeps_memWrite | split | dsimp only | simp only [Keeps.upd_iff])

theorem keeps_flushWriteBacks {s0 : State} (s : State) (hs : Keeps s0 s) :
    Keeps s0 (flushWriteBacks s) := by
  unfold flushWriteBacks
  repeat' (with_reducible first | assumption | apply keeps_foldS | apply keeps_writeBack | split | dsimp only | simp only [Keeps.upd_iff])

theorem keeps_record {s0 : State} (cls : Nat) (severity : Nat) (unit : Nat) (inst : Nat) (location : Nat) (detail : Nat) (status : Nat) (tenant : Option Nat) (s : State) (hs : Keeps s0 s) :
    Keeps s0 (record cls severity unit inst location detail status tenant s) := by
  unfold record
  repeat' (with_reducible first | assumption | apply keeps_raise | split | dsimp only | simp only [Keeps.upd_iff])

end Sys2Proof.Machine
end

