-- ==== Sys2Proof/Laws/KeepKnocks.lean ====
section
/-! SUPPORT. KeepKnocks: each operation of Machine/Knocks.lean keeps the queue, the canonical form of memory and the
order of the free values (`Keeps`). -/
namespace Sys2Proof.Machine
set_option Elab.async false
set_option linter.all false

theorem keeps_onKnocks {s0 : State} (engine : Nat) (f : List Letter → List Letter) (s : State) (hs : Keeps s0 s) :
    Keeps s0 (onKnocks engine f s) := by
  unfold onKnocks
  repeat' (with_reducible first | assumption | apply keeps_onSeqr | split | dsimp only | simp only [Keeps.upd_iff])

theorem keeps_sendLetter {s0 : State} (l : Letter) (s : State) (hs : Keeps s0 s) :
    Keeps s0 (sendLetter l s) := by
  unfold sendLetter
  repeat' (with_reducible first | assumption | apply keeps_bump | split | dsimp only | simp only [Keeps.upd_iff])

theorem keeps_sendKnock {s0 : State} (engine : Nat) (mark : Nat) (dest : Nat) (s : State) (hs : Keeps s0 s) :
    Keeps s0 (sendKnock engine mark dest s) := by
  unfold sendKnock
  repeat' (with_reducible first | assumption | apply keeps_bump | apply keeps_onKnocks | apply keeps_sendLetter | split | dsimp only | simp only [Keeps.upd_iff])

theorem keeps_onQueue {s0 : State} (n : Nat) (f : List PDesc → List PDesc) (s : State) (hs : Keeps s0 s) :
    Keeps s0 (onQueue n f s) := by
  unfold onQueue
  repeat' (with_reducible first | assumption | split | dsimp only | simp only [Keeps.upd_iff])

theorem keeps_killParcels {s0 : State} (p : POwner → Bool) (s : State) (hs : Keeps s0 s) :
    Keeps s0 (killParcels p s) := by
  unfold killParcels
  repeat' (with_reducible first | assumption | split | dsimp only | simp only [Keeps.upd_iff])

theorem keeps_completeDesc {s0 : State} (n : Nat) (d : PDesc) (status : Nat) (s : State) (hs : Keeps s0 s) :
    Keeps s0 (completeDesc n d status s) := by
  unfold completeDesc
  repeat' (with_reducible first | assumption | apply keeps_freshCheck | apply keeps_killParcels | apply keeps_memWrite | apply keeps_onQueue | apply keeps_sendKnock | split | dsimp only | simp only [Keeps.upd_iff])

theorem keeps_endDescs {s0 : State} (p : PDesc → Bool) (status : Nat) (s : State) (hs : Keeps s0 s) :
    Keeps s0 (endDescs p status s) := by
  unfold endDescs
  repeat' (with_reducible first | assumption | apply keeps_completeDesc | apply keeps_foldS | (intro _) | refine Keeps.ite ?_ ?_ | split | dsimp only | simp only [Keeps.upd_iff])

end Sys2Proof.Machine
end

