-- ==== Sys2Proof/Laws/KeepReceipts.lean ====
section
/-! SUPPORT. KeepReceipts: each operation of Machine/Receipts.lean keeps the queue, the canonical form of memory and the
order of the free values (`Keeps`). -/
namespace Sys2Proof.Machine
set_option Elab.async false
set_option linter.all false

theorem keeps_onSess {s0 : State} (sid : Nat) (f : Sess → Sess) (s : State) (hs : Keeps s0 s) :
    Keeps s0 (onSess sid f s) := by
  unfold onSess
  repeat' (with_reducible first | assumption | exact Keeps.refl _ | (intro _) | refine Keeps.snd (by assumption) ?_ | refine Keeps.snd3 (by assumption) ?_ | refine Keeps.snd4 (by assumption) ?_ | refine Keeps.some1 (by assumption) ?_ | refine Keeps.some2 (by assumption) ?_ | refine Keeps.some3 (by assumption) ?_ | refine Keeps.fst (by assumption) ?_ | refine Keeps.ite ?_ ?_ | refine Keeps.ite2 ?_ ?_ | refine Keeps.ite3 ?_ ?_ | split | dsimp only | simp only [Keeps.upd_iff, List.length_map] | simp only [Keeps.upd_iff, length_updFirst] | simp only [Keeps.upd_iff])

theorem keeps_putOut {s0 : State} (port : Nat) (ctl : Bool) (tenant : Nat) (queue : Nat) (a : Addr) (kind : Nat) (note : Nat) (ps : List Bytes) (s : State) (hs : Keeps s0 s) :
    Keeps s0 (putOut port ctl tenant queue a kind note ps s) := by
  unfold putOut
  repeat' (with_reducible first | assumption | split | dsimp only | simp only [Keeps.upd_iff])

theorem keeps_onNotes {s0 : State} (t : Nat) (f : Notes → Notes) (s : State) (hs : Keeps s0 s) :
    Keeps s0 (onNotes t f s) := by
  unfold onNotes
  repeat' (with_reducible first | assumption | split | dsimp only | simp only [Keeps.upd_iff])

theorem keeps_sendNote {s0 : State} (t : Nat) (seq : Nat) (s : State) (hs : Keeps s0 s) :
    Keeps s0 (sendNote t seq s) := by
  unfold sendNote
  repeat' (with_reducible first | assumption | apply keeps_onNotes | apply keeps_putOut | split | dsimp only | simp only [Keeps.upd_iff])

theorem keeps_sendFreshNotes {s0 : State} (t : Nat) (s : State) (hs : Keeps s0 s) :
    Keeps s0 (sendFreshNotes t s) := by
  unfold sendFreshNotes
  repeat' (with_reducible first | assumption | apply keeps_foldS | apply keeps_sendNote | split | dsimp only | simp only [Keeps.upd_iff])

theorem keeps_addNote {s0 : State} (t : Nat) (type : Nat) (body : Bytes) (s : State) (hs : Keeps s0 s) :
    Keeps s0 (addNote t type body s) := by
  unfold addNote
  repeat' (with_reducible first | assumption | apply keeps_bump | apply keeps_onNotes | apply keeps_sendNote | apply keeps_whenS | split | dsimp only | simp only [Keeps.upd_iff])

theorem keeps_trafficNote {s0 : State} (t : Nat) (type : Nat) (subj : Nat) (counts : List Nat) (body : List Nat → Bytes) (s : State) (hs : Keeps s0 s) :
    Keeps s0 (trafficNote t type subj counts body s) := by
  unfold trafficNote
  repeat' (with_reducible first | assumption | apply keeps_addNote | split | dsimp only | simp only [Keeps.upd_iff])

theorem keeps_thresholdNote {s0 : State} (t : Nat) (type : Nat) (subj : Nat) (value : Nat) (threshold : Nat) (body : Bytes) (s : State) (hs : Keeps s0 s) :
    Keeps s0 (thresholdNote t type subj value threshold body s) := by
  unfold thresholdNote
  repeat' (with_reducible first | assumption | apply keeps_addNote | split | dsimp only | simp only [Keeps.upd_iff])

theorem keeps_rearmNote {s0 : State} (t : Nat) (type : Nat) (subj : Nat) (value : Nat) (threshold : Nat) (s : State) (hs : Keeps s0 s) :
    Keeps s0 (rearmNote t type subj value threshold s) := by
  unfold rearmNote
  repeat' (with_reducible first | assumption | split | dsimp only | simp only [Keeps.upd_iff])

theorem keeps_postReceipt {s0 : State} (x : Sess) (a : Addr) (queue : Nat) (pm : Nat) (r : Bytes) (s : State) (hs : Keeps s0 s) :
    Keeps s0 (postReceipt x a queue pm r s) := by
  unfold postReceipt
  repeat' (with_reducible first | assumption | apply keeps_bump | apply keeps_putOut | split | dsimp only | simp only [Keeps.upd_iff])

theorem keeps_earlyReceipt {s0 : State} (sid : Nat) (pm : Nat) (type : Nat) (status : Nat) (detail : Nat) (queue : Nat) (a : Addr) (s : State) (hs : Keeps s0 s) :
    Keeps s0 (earlyReceipt sid pm type status detail queue a s) := by
  unfold earlyReceipt
  repeat' (with_reducible first | assumption | apply keeps_bump | apply keeps_optS | apply keeps_postReceipt | apply keeps_whenS | (intro _) | refine Keeps.ite ?_ ?_ | split | dsimp only | simp only [Keeps.upd_iff])

theorem keeps_onReq {s0 : State} (rid : Nat) (f : Req → Req) (s : State) (hs : Keeps s0 s) :
    Keeps s0 (onReq rid f s) := by
  unfold onReq
  repeat' (with_reducible first | assumption | split | dsimp only | simp only [Keeps.upd_iff])

theorem keeps_dropReq {s0 : State} (rid : Nat) (s : State) (hs : Keeps s0 s) :
    Keeps s0 (dropReq rid s) := by
  unfold dropReq
  repeat' (with_reducible first | assumption | split | dsimp only | simp only [Keeps.upd_iff])

theorem keeps_addCause {s0 : State} (rid : Nat) (c : Nat) (s : State) (hs : Keeps s0 s) :
    Keeps s0 (addCause rid c s) := by
  unfold addCause
  repeat' (with_reducible first | assumption | apply keeps_onReq | split | dsimp only | simp only [Keeps.upd_iff])

theorem keeps_onThread {s0 : State} (th : Nat) (f : Thread → Thread) (s : State) (hs : Keeps s0 s) :
    Keeps s0 (onThread th f s) := by
  unfold onThread
  repeat' (with_reducible first | assumption | split | dsimp only | simp only [Keeps.upd_iff])

theorem keeps_stopWork {s0 : State} (rid : Nat) (status : Nat) (s : State) (hs : Keeps s0 s) :
    Keeps s0 (stopWork rid status s) := by
  unfold stopWork
  repeat' (with_reducible first | assumption | apply keeps_endDescs | apply keeps_killParcels | split | dsimp only | simp only [Keeps.upd_iff])

theorem keeps_addTrace {s0 : State} (e : Trace) (s : State) (hs : Keeps s0 s) :
    Keeps s0 (addTrace e s) := by
  unfold addTrace
  exact (Keeps.of (u := s) hs rfl rfl (Nat.le_refl _) ⟨List.prefix_refl _, List.prefix_refl _, List.prefix_refl _⟩ (fun k => ⟨k.records, k.halts, k.alerts, k.controller, k.security, k.sessions, by have := k.trace; simp only [List.length_append, List.length_singleton]; split <;> simp <;> omega⟩))

theorem keeps_countClass {s0 : State} (r : Req) (status : Nat) (cls : Nat) (s : State) (hs : Keeps s0 s) :
    Keeps s0 (countClass r status cls s) := by
  unfold countClass
  repeat' (with_reducible first | assumption | apply keeps_addTrace | apply keeps_bump | apply keeps_dirSet | apply keeps_whenS | (intro _) | refine Keeps.ite ?_ ?_ | split | dsimp only | simp only [Keeps.upd_iff])

theorem keeps_holdReceipt {s0 : State} (r : Req) (b : Bytes) (s : State) (hs : Keeps s0 s) :
    Keeps s0 (holdReceipt r b s) := by
  unfold holdReceipt
  repeat' (with_reducible first | assumption | apply keeps_onSess | split | dsimp only | simp only [Keeps.upd_iff])

theorem keeps_countStatus {s0 : State} (r : Req) (status : Nat) (s : State) (hs : Keeps s0 s) :
    Keeps s0 (countStatus r status s) := by
  unfold countStatus
  repeat' (with_reducible first | assumption | apply keeps_bump | apply keeps_whenS | split | dsimp only | simp only [Keeps.upd_iff])

theorem keeps_endReq {s0 : State} (rid : Nat) (status : Nat) (count : Nat) (detail : Nat) (body : Bytes) (s : State) (hs : Keeps s0 s) :
    Keeps s0 (endReq rid status count detail body s) := by
  unfold endReq
  repeat' (with_reducible first | assumption | apply keeps_countClass | apply keeps_countStatus | apply keeps_dropReq | apply keeps_holdReceipt | apply keeps_optS | apply keeps_postReceipt | apply keeps_stopWork | apply keeps_whenS | (intro _) | refine Keeps.ite ?_ ?_ | split | dsimp only | simp only [Keeps.upd_iff])

theorem keeps_failReq {s0 : State} (rid : Nat) (status : Nat) (s : State) (hs : Keeps s0 s) :
    Keeps s0 (failReq rid status s) := by
  unfold failReq
  repeat' (with_reducible first | assumption | apply keeps_endReq | split | dsimp only | simp only [Keeps.upd_iff])

theorem keeps_badReq {s0 : State} (rid : Nat) (detail : Nat) (s : State) (hs : Keeps s0 s) :
    Keeps s0 (badReq rid detail s) := by
  unfold badReq
  repeat' (with_reducible first | assumption | apply keeps_endReq | split | dsimp only | simp only [Keeps.upd_iff])

theorem keeps_finishReq {s0 : State} (rid : Nat) (status : Nat) (count : Nat) (body : Bytes) (s : State) (hs : Keeps s0 s) :
    Keeps s0 (finishReq rid status count body s) := by
  unfold finishReq
  repeat' (with_reducible first | assumption | apply keeps_addCause | apply keeps_endReq | apply keeps_onReq | split | dsimp only | simp only [Keeps.upd_iff])

end Sys2Proof.Machine
end

