-- ==== Sys2Proof/Laws/KeepLetters.lean ====
section
/-! SUPPORT. KeepLetters: each operation of Machine/Letters.lean keeps the queue, the canonical form of memory and the
order of the free values (`Keeps`). -/
namespace Sys2Proof.Machine
set_option Elab.async false
set_option linter.all false

theorem keeps_deliverThread {s0 : State} (l : Letter) (n : Nat) (s : State) (hs : Keeps s0 s) :
    Keeps s0 (deliverThread l n s).2 := by
  unfold deliverThread
  repeat' (with_reducible first | assumption | apply keeps_bump | apply keeps_onThread | split | dsimp only | simp only [Keeps.upd_iff])

theorem keeps_startWake {s0 : State} (c : Nat) (s : State) (hs : Keeps s0 s) :
    Keeps s0 (startWake c s) := by
  unfold startWake
  repeat' (with_reducible first | assumption | split | dsimp only | simp only [Keeps.upd_iff])

theorem keeps_ungate {s0 : State} (c : Nat) (s : State) (hs : Keeps s0 s) :
    Keeps s0 (ungate c s) := by
  unfold ungate
  repeat' (with_reducible first | assumption | split | dsimp only | simp only [Keeps.upd_iff])

theorem keeps_holdLetter {s0 : State} (l : Letter) (c : Nat) (n : Nat) (s : State) (hs : Keeps s0 s) :
    Keeps s0 (holdLetter l c n s).2 := by
  unfold holdLetter
  repeat' (with_reducible first | assumption | apply keeps_bump | apply keeps_startWake | split | dsimp only | simp only [Keeps.upd_iff])

theorem keeps_boost {s0 : State} (s : State) (hs : Keeps s0 s) :
    Keeps s0 (boost s) := by
  unfold boost
  repeat' (with_reducible first | assumption | split | dsimp only | simp only [Keeps.upd_iff])

theorem keeps_intoController {s0 : State} (l : Letter) (s : State) (hs : Keeps s0 s) :
    Keeps s0 (intoController l s) := by
  unfold intoController
  split
  · rename_i h
    exact (Keeps.of (u := s) hs rfl rfl (Nat.le_refl _) ⟨List.prefix_refl _, List.prefix_refl _, List.prefix_refl _⟩ (fun k => ⟨k.records, k.halts, k.alerts, by simp only [List.length_append, List.length_singleton]; omega, k.security, k.sessions, k.trace⟩))
  · exact hs

theorem keeps_intoSecurity {s0 : State} (l : Letter) (s : State) (hs : Keeps s0 s) :
    Keeps s0 (intoSecurity l s) := by
  unfold intoSecurity
  split
  · rename_i h
    exact (Keeps.of (u := s) hs rfl rfl (Nat.le_refl _) ⟨List.prefix_refl _, List.prefix_refl _, List.prefix_refl _⟩ (fun k => ⟨k.records, k.halts, k.alerts, k.controller, by simp only [List.length_append, List.length_singleton]; omega, k.sessions, k.trace⟩))
  · exact hs

theorem keeps_deliver {s0 : State} (l : Letter) (s : State) (hs : Keeps s0 s) :
    Keeps s0 (deliver l s).2 := by
  unfold deliver
  repeat' (with_reducible first | assumption | apply keeps_addNote | apply keeps_boost | apply keeps_bump | apply keeps_deliverThread | apply keeps_holdLetter | apply keeps_intoController | apply keeps_intoSecurity | apply keeps_ungate | split | dsimp only | simp only [Keeps.upd_iff])

theorem keeps_retryKnock {s0 : State} (engine : Nat) (l : Letter) (s : State) (hs : Keeps s0 s) :
    Keeps s0 (retryKnock engine l s) := by
  unfold retryKnock
  repeat' (with_reducible first | assumption | exact Keeps.refl _ | apply keeps_deliver | apply keeps_onKnocks | (intro _) | refine Keeps.snd (by assumption) ?_ | refine Keeps.snd3 (by assumption) ?_ | refine Keeps.snd4 (by assumption) ?_ | refine Keeps.some1 (by assumption) ?_ | refine Keeps.some2 (by assumption) ?_ | refine Keeps.some3 (by assumption) ?_ | refine Keeps.fst (by assumption) ?_ | refine Keeps.ite ?_ ?_ | refine Keeps.ite2 ?_ ?_ | refine Keeps.ite3 ?_ ?_ | split | dsimp only | simp only [Keeps.upd_iff, List.length_map] | simp only [Keeps.upd_iff, length_updFirst] | simp only [Keeps.upd_iff])

theorem keeps_retryKnocks {s0 : State} (s : State) (hs : Keeps s0 s) :
    Keeps s0 (retryKnocks s) := by
  unfold retryKnocks
  repeat' (with_reducible first | assumption | apply keeps_foldS | apply keeps_retryKnock | (intro _) | refine Keeps.ite ?_ ?_ | split | dsimp only | simp only [Keeps.upd_iff])

theorem keeps_deliverOrKeep {s0 : State} (l : Letter) (s : State) (hs : Keeps s0 s) :
    Keeps s0 (deliverOrKeep l s) := by
  unfold deliverOrKeep
  repeat' (with_reducible first | assumption | exact Keeps.refl _ | apply keeps_deliver | apply keeps_onKnocks | (intro _) | refine Keeps.snd (by assumption) ?_ | refine Keeps.snd3 (by assumption) ?_ | refine Keeps.snd4 (by assumption) ?_ | refine Keeps.some1 (by assumption) ?_ | refine Keeps.some2 (by assumption) ?_ | refine Keeps.some3 (by assumption) ?_ | refine Keeps.fst (by assumption) ?_ | refine Keeps.ite ?_ ?_ | refine Keeps.ite2 ?_ ?_ | refine Keeps.ite3 ?_ ?_ | split | dsimp only | simp only [Keeps.upd_iff, List.length_map] | simp only [Keeps.upd_iff, length_updFirst] | simp only [Keeps.upd_iff])

end Sys2Proof.Machine
end

