-- ==== Sys2Proof/Laws/KeepFabops.lean ====
section
/-! SUPPORT. KeepFabops: each operation of Machine/Fabops.lean keeps the queue, the canonical form of memory and the
order of the free values (`Keeps`). -/
namespace Sys2Proof.Machine
set_option Elab.async false
set_option linter.all false

theorem keeps_fabOut {s0 : State} (m : FabMsg) (s : State) (hs : Keeps s0 s) :
    Keeps s0 (fabOut m s) := Keeps.of (u := s) hs rfl rfl (Nat.le_refl _) ⟨List.prefix_refl _, List.prefix_refl _, List.prefix_append _ _⟩ (fun k => ⟨k.records, k.halts, k.alerts, k.controller, k.security, k.sessions, k.trace⟩)

theorem keeps_fabSend {s0 : State} (link : Nat) (slot : Nat) (detour : Bool) (h : Hdr) (inl : Bytes) (data : Bytes) (s : State) (hs : Keeps s0 s) :
    Keeps s0 (fabSend link slot detour h inl data s) := by
  unfold fabSend
  repeat' (with_reducible first | assumption | apply keeps_fabOut | split | dsimp only | simp only [Keeps.upd_iff])

theorem keeps_onLink {s0 : State} (k : Nat) (f : LinkSt → LinkSt) (s : State) (hs : Keeps s0 s) :
    Keeps s0 (onLink k f s) := by
  unfold onLink
  repeat' (with_reducible first | assumption | split | dsimp only | simp only [Keeps.upd_iff])

theorem keeps_tryHeld {s0 : State} (p : List Nat × State) (m : FabMsg) (hp : Keeps s0 p.2) :
    Keeps s0 (tryHeld p m).2 := by
  unfold tryHeld
  repeat' (with_reducible first | assumption | apply keeps_fabOut | apply keeps_onLink | split | dsimp only | simp only [Keeps.upd_iff])

theorem keeps_flushHeld {s0 : State} (s : State) (hs : Keeps s0 s) :
    Keeps s0 (flushHeld s) := by
  unfold flushHeld
  repeat' (with_reducible first | assumption | exact Keeps.refl _ | apply keeps_tryHeld | (intro _) | refine Keeps.snd (by assumption) ?_ | refine Keeps.snd3 (by assumption) ?_ | refine Keeps.snd4 (by assumption) ?_ | refine Keeps.some1 (by assumption) ?_ | refine Keeps.some2 (by assumption) ?_ | refine Keeps.some3 (by assumption) ?_ | refine Keeps.fst (by assumption) ?_ | refine Keeps.getD ?_ ?_ | refine Keeps.elim ?_ ?_ | refine Keeps.elim2 ?_ ?_ | refine Keeps.foldl ?_ ?_ | refine Keeps.foldl2 ?_ ?_ | refine Keeps.foldl3 ?_ ?_ | refine Keeps.ite ?_ ?_ | refine Keeps.ite2 ?_ ?_ | refine Keeps.ite3 ?_ ?_ | split | dsimp only | simp only [Keeps.upd_iff, List.length_map] | simp only [Keeps.upd_iff, length_updFirst] | simp only [Keeps.upd_iff])

theorem keeps_bePut {s0 : State} (m : FabMsg) (s : State) (hs : Keeps s0 s) :
    Keeps s0 (bePut m s) := by
  unfold bePut
  repeat' (with_reducible first | assumption | apply keeps_flushHeld | split | dsimp only | simp only [Keeps.upd_iff])

theorem keeps_beSend {s0 : State} (kind : Nat) (src : Nat) (dest : Nat) (tenant : Nat) (tag : Nat) (address : Nat) (inl : Bytes) (data : Bytes) (s : State) (hs : Keeps s0 s) :
    Keeps s0 (beSend kind src dest tenant tag address inl data s) := by
  unfold beSend
  repeat' (with_reducible first | assumption | apply keeps_bePut | apply keeps_bump | split | dsimp only | simp only [Keeps.upd_iff])

theorem keeps_sendRemoteLetter {s0 : State} (l : Letter) (s : State) (hs : Keeps s0 s) :
    Keeps s0 (sendRemoteLetter l s) := by
  unfold sendRemoteLetter
  repeat' (with_reducible first | assumption | apply keeps_beSend | split | dsimp only | simp only [Keeps.upd_iff])

end Sys2Proof.Machine
end

