-- ==== Sys2Proof/Laws/KeepSeaOps.lean ====
section
/-! SUPPORT. KeepSeaOps: each operation of Machine/SeaOps.lean keeps the queue, the canonical form of memory and the
order of the free values (`Keeps`). -/
namespace Sys2Proof.Machine
set_option Elab.async false
set_option linter.all false

theorem keeps_charge {s0 : State} (th : Nat) (s : State) (hs : Keeps s0 s) :
    Keeps s0 (charge th s) := by
  unfold charge
  repeat' (with_reducible first | assumption | split | dsimp only | simp only [Keeps.upd_iff])

theorem keeps_issued {s0 : State} (th : Nat) (s : State) (hs : Keeps s0 s) :
    Keeps s0 (issued th s) := by
  unfold issued
  repeat' (with_reducible first | assumption | apply keeps_charge | split | dsimp only | simp only [Keeps.upd_iff])

theorem keeps_onIssue {s0 : State} (th : Nat) (f : State → State) (s : State) (hf : ∀ u, Keeps s0 u → Keeps s0 (f u)) (hs : Keeps s0 s) :
    Keeps s0 (onIssue th f s) := by
  unfold onIssue
  repeat' (with_reducible first | assumption | apply keeps_issued | apply hf | split | dsimp only | simp only [Keeps.upd_iff])

theorem keeps_onRegs {s0 : State} (th : Nat) (xs : List Nat) (fs : List Nat) (vs : List Nat) (f : State → State) (s : State) (hf : ∀ u, Keeps s0 u → Keeps s0 (f u)) (hs : Keeps s0 s) :
    Keeps s0 (onRegs th xs fs vs f s) := by
  unfold onRegs
  repeat' (with_reducible first | assumption | apply keeps_onIssue | apply hf | split | dsimp only | simp only [Keeps.upd_iff])

theorem keeps_takeFault {s0 : State} (th : Nat) (cause : Nat) (status : Nat) (mtval : Nat) (s : State) (hs : Keeps s0 s) :
    Keeps s0 (takeFault th cause status mtval s) := by
  unfold takeFault
  repeat' (with_reducible first | assumption | apply keeps_addNote | apply keeps_failReq | apply keeps_onThread | apply keeps_whenS | split | dsimp only | simp only [Keeps.upd_iff])

theorem keeps_illegal {s0 : State} (th : Nat) (w : W32) (s : State) (hs : Keeps s0 s) :
    Keeps s0 (illegal th w s) := by
  unfold illegal
  repeat' (with_reducible first | assumption | apply keeps_takeFault | split | dsimp only | simp only [Keeps.upd_iff])

theorem keeps_writeBackLine {s0 : State} (w : Who) (key : Nat) (s : State) (hs : Keeps s0 s) :
    Keeps s0 (writeBackLine w key s) := by
  unfold writeBackLine
  repeat' (with_reducible first | assumption | apply keeps_demandWrite | split | dsimp only | simp only [Keeps.upd_iff])

theorem keeps_dropLine {s0 : State} (key : Nat) (s : State) (hs : Keeps s0 s) :
    Keeps s0 (dropLine key s) := by
  unfold dropLine
  repeat' (with_reducible first | assumption | split | dsimp only | simp only [Keeps.upd_iff])

theorem keeps_makeRoom {s0 : State} (w : Who) (cl : Nat) (s : State) (hs : Keeps s0 s) :
    Keeps s0 (makeRoom w cl s) := by
  unfold makeRoom
  repeat' (with_reducible first | assumption | apply keeps_draw | apply keeps_dropLine | apply keeps_writeBackLine | split | dsimp only | simp only [Keeps.upd_iff])

theorem keeps_onStream {s0 : State} (k : Nat) (f : Stream → Stream) (s : State) (hs : Keeps s0 s) :
    Keeps s0 (onStream k f s) := by
  unfold onStream
  repeat' (with_reducible first | assumption | split | dsimp only | simp only [Keeps.upd_iff])

theorem keeps_demandHit {s0 : State} (cl : Nat) (key : Nat) (s : State) (hs : Keeps s0 s) :
    Keeps s0 (demandHit cl key s) := by
  unfold demandHit
  repeat' (with_reducible first | assumption | apply keeps_onStream | split | dsimp only | simp only [Keeps.upd_iff])

theorem keeps_trainMiss {s0 : State} (lim : Nat) (cl : Nat) (a : Nat) (s : State) (hs : Keeps s0 s) :
    Keeps s0 (trainMiss lim cl a s) := by
  unfold trainMiss
  repeat' (with_reducible first | assumption | split | dsimp only | simp only [Keeps.upd_iff])

theorem keeps_cacheFill {s0 : State} (w : Who) (lim : Nat) (cl : Nat) (a : Nat) (stream : Bool) (s : State) (hs : Keeps s0 s) :
    Keeps s0 (cacheFill w lim cl a stream s).2 := by
  unfold cacheFill
  repeat' (with_reducible first | assumption | apply keeps_demandHit | apply keeps_demandRead | apply keeps_makeRoom | apply keeps_trainMiss | split | dsimp only | simp only [Keeps.upd_iff])

theorem keeps_lineWrite {s0 : State} (cl : Nat) (a : Nat) (b : Bytes) (stream : Bool) (s : State) (hs : Keeps s0 s) :
    Keeps s0 (lineWrite cl a b stream s) := by
  unfold lineWrite
  repeat' (with_reducible first | assumption | split | dsimp only | simp only [Keeps.upd_iff])

theorem keeps_breakResv {s0 : State} (th : Nat) (a : Nat) (s : State) (hs : Keeps s0 s) :
    Keeps s0 (breakResv th a s) := by
  unfold breakResv
  repeat' (with_reducible first | assumption | split | dsimp only | simp only [Keeps.upd_iff])

theorem keeps_readLocal {s0 : State} (th : Nat) (a : Nat) (n : Nat) (attr : Nat) (s : State) (hs : Keeps s0 s) :
    Keeps s0 (readLocal th a n attr s).2.2 := by
  unfold readLocal
  repeat' (with_reducible first | assumption | apply keeps_cacheFill | apply keeps_demandRead | split | dsimp only | simp only [Keeps.upd_iff])

theorem keeps_writeLocal {s0 : State} (th : Nat) (a : Nat) (attr : Nat) (b : Bytes) (s : State) (hs : Keeps s0 s) :
    Keeps s0 (writeLocal th a attr b s).2 := by
  unfold writeLocal
  repeat' (with_reducible first | assumption | apply keeps_breakResv | apply keeps_cacheFill | apply keeps_demandWrite | apply keeps_lineWrite | apply keeps_makeRoom | split | dsimp only | simp only [Keeps.upd_iff])

theorem keeps_stepTag {s0 : State} (s : State) (hs : Keeps s0 s) :
    Keeps s0 (stepTag s) := by
  unfold stepTag
  repeat' (with_reducible first | assumption | split | dsimp only | simp only [Keeps.upd_iff])

theorem keeps_sendRemote {s0 : State} (th : Nat) (va : Nat) (kind : Nat) (post : Nat) (a : Nat) (n : Nat) (op : Nat) (data : Bytes) (what : RemKind) (s : State) (hs : Keeps s0 s) :
    Keeps s0 (sendRemote th va kind post a n op data what s) := by
  unfold sendRemote
  repeat' (with_reducible first | assumption | apply keeps_beSend | apply keeps_onThread | apply keeps_stepTag | split | dsimp only | simp only [Keeps.upd_iff])

end Sys2Proof.Machine
end

