-- ==== Sys2Proof/Laws/KeepCircOps.lean ====
section
/-! SUPPORT. KeepCircOps: each operation of Machine/CircOps.lean keeps the queue, the canonical form of memory and the
order of the free values (`Keeps`). -/
namespace Sys2Proof.Machine
set_option Elab.async false
set_option linter.all false

theorem keeps_checkLoad {s0 : State} (k : Nat) (addr : Nat) (rid : Nat) (s : State) (hs : Keeps s0 s) :
    Keeps s0 (checkLoad k addr rid s).2.2 := by
  unfold checkLoad
  repeat' (with_reducible first | assumption | apply keeps_demandRead | split | dsimp only | simp only [Keeps.upd_iff])

theorem keeps_rowStore {s0 : State} (k : Nat) (b : Nat) (r : Nat) (v : Row) (s : State) (hs : Keeps s0 s) :
    Keeps s0 (rowStore k b r v s) := by
  unfold rowStore
  repeat' (with_reducible first | assumption | apply keeps_memWrite | apply keeps_setUnsealed | split | dsimp only | simp only [Keeps.upd_iff])

theorem keeps_rowSeal {s0 : State} (k : Nat) (b : Nat) (r : Nat) (s : State) (hs : Keeps s0 s) :
    Keeps s0 (rowSeal k b r s) := by
  unfold rowSeal
  repeat' (with_reducible first | assumption | apply keeps_freshCheck | apply keeps_setUnsealed | split | dsimp only | simp only [Keeps.upd_iff])

theorem keeps_latchOp {s0 : State} (k : Nat) (c : Circ) (m : Mic) (s : State) (hs : Keeps s0 s) :
    Keeps s0 (latchOp k c m s) := by
  unfold latchOp
  repeat' (with_reducible first | assumption | apply keeps_foldS | apply keeps_onSeqr | (intro _) | refine Keeps.ite ?_ ?_ | split | dsimp only | simp only [Keeps.upd_iff])

theorem keeps_wrOp {s0 : State} (k : Nat) (m : Mic) (s : State) (hs : Keeps s0 s) :
    Keeps s0 (wrOp k m s) := by
  unfold wrOp
  repeat' (with_reducible first | assumption | apply keeps_foldS | apply keeps_rowStore | (intro _) | refine Keeps.ite ?_ ?_ | split | dsimp only | simp only [Keeps.upd_iff])

theorem keeps_railFault {s0 : State} (k : Nat) (b : Nat) (r : Nat) (s : State) (hs : Keeps s0 s) :
    Keeps s0 (railFault k b r s) := by
  unfold railFault
  repeat' (with_reducible first | assumption | apply keeps_bump | apply keeps_onSeqr | apply keeps_raise | split | dsimp only | simp only [Keeps.upd_iff])

theorem keeps_rchkOp {s0 : State} (k : Nat) (r : Nat) (s : State) (hs : Keeps s0 s) :
    Keeps s0 (rchkOp k r s) := by
  unfold rchkOp
  repeat' (with_reducible first | assumption | apply keeps_foldS | apply keeps_railFault | (intro _) | refine Keeps.ite ?_ ?_ | split | dsimp only | simp only [Keeps.upd_iff])

theorem keeps_sealOp {s0 : State} (k : Nat) (rows : List Nat) (s : State) (hs : Keeps s0 s) :
    Keeps s0 (sealOp k rows s) := by
  unfold sealOp
  repeat' (with_reducible first | assumption | apply keeps_foldS | apply keeps_rowSeal | (intro _) | refine Keeps.ite ?_ ?_ | split | dsimp only | simp only [Keeps.upd_iff])

theorem keeps_sealPair {s0 : State} (k : Nat) (b : Nat) (r : Nat) (s : State) (hs : Keeps s0 s) :
    Keeps s0 (sealPair k b r s) := by
  unfold sealPair
  repeat' (with_reducible first | assumption | apply keeps_bump | apply keeps_onSeqr | apply keeps_raise | apply keeps_rowSeal | split | dsimp only | simp only [Keeps.upd_iff])

theorem keeps_sealcOp {s0 : State} (k : Nat) (r : Nat) (n : Nat) (s : State) (hs : Keeps s0 s) :
    Keeps s0 (sealcOp k r n s) := by
  unfold sealcOp
  repeat' (with_reducible first | assumption | apply keeps_foldS | apply keeps_sealPair | (intro _) | refine Keeps.ite ?_ ?_ | split | dsimp only | simp only [Keeps.upd_iff])

theorem keeps_sealUnsealed {s0 : State} (k : Nat) (r : Nat) (n : Nat) (s : State) (hs : Keeps s0 s) :
    Keeps s0 (sealUnsealed k r n s) := by
  unfold sealUnsealed
  repeat' (with_reducible first | assumption | apply keeps_foldS | apply keeps_sealPair | (intro _) | refine Keeps.ite ?_ ?_ | split | dsimp only | simp only [Keeps.upd_iff])

theorem keeps_stopCirc {s0 : State} (k : Nat) (status : Nat) (s : State) (hs : Keeps s0 s) :
    Keeps s0 (stopCirc k status s) := by
  unfold stopCirc
  repeat' (with_reducible first | assumption | apply keeps_onSeqr | split | dsimp only | simp only [Keeps.upd_iff])

theorem keeps_compStop {s0 : State} (k : Nat) (s : State) (hs : Keeps s0 s) :
    Keeps s0 (compStop k s) := by
  unfold compStop
  repeat' (with_reducible first | assumption | apply keeps_raise | apply keeps_stopCirc | split | dsimp only | simp only [Keeps.upd_iff])

theorem keeps_issueMic {s0 : State} (k : Nat) (op : Nat) (f : Circ → Mic → State → State) (s : State) (hf : ∀ y0 y1 u, Keeps s0 u → Keeps s0 (f y0 y1 u)) (hs : Keeps s0 s) :
    Keeps s0 (issueMic k op f s) := by
  unfold issueMic
  repeat' (with_reducible first | assumption | apply keeps_compStop | apply keeps_onSeqr | apply hf | split | dsimp only | simp only [Keeps.upd_iff])

theorem keeps_bankMic {s0 : State} (k : Nat) (op : Nat) (f : Circ → Mic → State → State) (s : State) (hf : ∀ y0 y1 u, Keeps s0 u → Keeps s0 (f y0 y1 u)) (hs : Keeps s0 s) :
    Keeps s0 (bankMic k op f s) := by
  unfold bankMic
  repeat' (with_reducible first | assumption | apply keeps_issueMic | apply keeps_onSeqr | apply hf | (intro _) | refine Keeps.ite ?_ ?_ | split | dsimp only | simp only [Keeps.upd_iff])

theorem keeps_stepRefresh {s0 : State} (k : Nat) (s : State) (hs : Keeps s0 s) :
    Keeps s0 (stepRefresh k s) := by
  unfold stepRefresh
  repeat' (with_reducible first | assumption | apply keeps_bump | apply keeps_onSeqr | split | dsimp only | simp only [Keeps.upd_iff])

theorem keeps_stepBoundary {s0 : State} (k : Nat) (s : State) (hs : Keeps s0 s) :
    Keeps s0 (stepBoundary k s) := by
  unfold stepBoundary
  repeat' (with_reducible first | assumption | apply keeps_bump | apply keeps_flushWriteBacks | apply keeps_onSeqr | apply keeps_stepRefresh | apply keeps_stopCirc | split | dsimp only | simp only [Keeps.upd_iff])

theorem keeps_endSealOp {s0 : State} (k : Nat) (c : Circ) (s : State) (hs : Keeps s0 s) :
    Keeps s0 (endSealOp k c s) := by
  unfold endSealOp
  repeat' (with_reducible first | assumption | apply keeps_bumpBy | apply keeps_foldS | apply keeps_onSeqr | apply keeps_rowSeal | apply keeps_sealUnsealed | (intro _) | refine Keeps.ite ?_ ?_ | split | dsimp only | simp only [Keeps.upd_iff])

theorem keeps_ringWrite {s0 : State} (k : Nat) (c : Circ) (b : Bytes) (s : State) (hs : Keeps s0 s) :
    Keeps s0 (ringWrite k c b s) := by
  unfold ringWrite
  repeat' (with_reducible first | assumption | apply keeps_freshCheck | apply keeps_memWrite | apply keeps_onSeqr | split | dsimp only | simp only [Keeps.upd_iff])

theorem keeps_compactBank {s0 : State} (k : Nat) (c : Circ) (b : Nat) (p : Nat × State) (hp : Keeps s0 p.2) :
    Keeps s0 (compactBank k c b p).2 := by
  unfold compactBank
  repeat' (with_reducible first | assumption | apply keeps_bump | apply keeps_ringWrite | apply keeps_whenS | split | dsimp only | simp only [Keeps.upd_iff])

theorem keeps_refreshResources {s0 : State} (s : State) (hs : Keeps s0 s) :
    Keeps s0 (refreshResources s) := by
  unfold refreshResources
  repeat' (with_reducible first | assumption | apply keeps_dirSet | split | dsimp only | simp only [Keeps.upd_iff])

theorem keeps_bankOut {s0 : State} (k : Nat) (b : Nat) (s : State) (hs : Keeps s0 s) :
    Keeps s0 (bankOut k b s) := by
  unfold bankOut
  repeat' (with_reducible first | assumption | apply keeps_dirSet | apply keeps_onSeqr | apply keeps_raise | apply keeps_refreshResources | split | dsimp only | simp only [Keeps.upd_iff])

theorem keeps_stackOut {s0 : State} (k : Nat) (s : State) (hs : Keeps s0 s) :
    Keeps s0 (stackOut k s) := by
  unfold stackOut
  repeat' (with_reducible first | assumption | apply keeps_onSeqr | apply keeps_raise | apply keeps_refreshResources | split | dsimp only | simp only [Keeps.upd_iff])

theorem keeps_mirrorCstat {s0 : State} (k : Nat) (s : State) (hs : Keeps s0 s) :
    Keeps s0 (mirrorCstat k s) := by
  unfold mirrorCstat
  repeat' (with_reducible first | assumption | apply keeps_dirSet | split | dsimp only | simp only [Keeps.upd_iff])

theorem keeps_closeCirc {s0 : State} (k : Nat) (s : State) (hs : Keeps s0 s) :
    Keeps s0 (closeCirc k s) := by
  unfold closeCirc
  repeat' (with_reducible first | assumption | apply keeps_onSeqr | split | dsimp only | simp only [Keeps.upd_iff])

theorem keeps_cloadReg {s0 : State} (rid : Nat) (k : Nat) (addr : Nat) (s : State) (hs : Keeps s0 s) :
    Keeps s0 (cloadReg rid k addr s) := by
  unfold cloadReg
  repeat' (with_reducible first | assumption | apply keeps_onSeqr | apply keeps_touchStack | split | dsimp only | simp only [Keeps.upd_iff])

theorem keeps_cstartStack {s0 : State} (seq : Nat) (k : Nat) (s : State) (hs : Keeps s0 s) :
    Keeps s0 (cstartStack seq k s) := by
  unfold cstartStack
  repeat' (with_reducible first | assumption | apply keeps_onSeqr | split | dsimp only | simp only [Keeps.upd_iff])

theorem keeps_cstartReg {s0 : State} (v : Nat) (s : State) (hs : Keeps s0 s) :
    Keeps s0 (cstartReg v s) := by
  unfold cstartReg
  repeat' (with_reducible first | assumption | apply keeps_cstartStack | apply keeps_foldS | split | dsimp only | simp only [Keeps.upd_iff])

theorem keeps_cabortReg {s0 : State} (k : Nat) (v : Nat) (s : State) (hs : Keeps s0 s) :
    Keeps s0 (cabortReg k v s) := by
  unfold cabortReg
  repeat' (with_reducible first | assumption | apply keeps_mirrorCstat | apply keeps_onSeqr | split | dsimp only | simp only [Keeps.upd_iff])

theorem keeps_cstatReg {s0 : State} (k : Nat) (v : Nat) (s : State) (hs : Keeps s0 s) :
    Keeps s0 (cstatReg k v s) := by
  unfold cstatReg
  repeat' (with_reducible first | assumption | apply keeps_onSeqr | split | dsimp only | simp only [Keeps.upd_iff])

end Sys2Proof.Machine
end

