-- ==== Sys2Proof/Laws/KeepFlashOps.lean ====
section
/-! SUPPORT. KeepFlashOps: each operation of Machine/FlashOps.lean keeps the queue, the canonical form of memory and the
order of the free values (`Keeps`). -/
namespace Sys2Proof.Machine
set_option Elab.async false
set_option linter.all false

theorem keeps_onFlash {s0 : State} (f : Flash → Flash) (s : State) (hs : Keeps s0 s) :
    Keeps s0 (onFlash f s) := by
  unfold onFlash
  repeat' (with_reducible first | assumption | split | dsimp only | simp only [Keeps.upd_iff])

theorem keeps_touchGroup {s0 : State} (c : Nat) (s : State) (hs : Keeps s0 s) :
    Keeps s0 (touchGroup c s) := by
  unfold touchGroup
  repeat' (with_reducible first | assumption | split | dsimp only | simp only [Keeps.upd_iff])

theorem keeps_delta {s0 : State} (d : Delta) (s : State) (hs : Keeps s0 s) :
    Keeps s0 (delta d s) := by
  unfold delta
  repeat' (with_reducible first | assumption | apply keeps_onFlash | split | dsimp only | simp only [Keeps.upd_iff])

theorem keeps_unitDelta {s0 : State} (u : Nat) (s : State) (hs : Keeps s0 s) :
    Keeps s0 (unitDelta u s) := by
  unfold unitDelta
  repeat' (with_reducible first | assumption | apply keeps_delta | split | dsimp only | simp only [Keeps.upd_iff])

theorem keeps_setCoarse {s0 : State} (u : Nat) (e : Nat) (s : State) (hs : Keeps s0 s) :
    Keeps s0 (setCoarse u e s) := by
  unfold setCoarse
  repeat' (with_reducible first | assumption | apply keeps_onFlash | split | dsimp only | simp only [Keeps.upd_iff])

theorem keeps_setFine {s0 : State} (nlp : Nat) (e : Nat) (s : State) (hs : Keeps s0 s) :
    Keeps s0 (setFine nlp e s) := by
  unfold setFine
  repeat' (with_reducible first | assumption | apply keeps_onFlash | split | dsimp only | simp only [Keeps.upd_iff])

theorem keeps_splitUnit {s0 : State} (u : Nat) (s : State) (hs : Keeps s0 s) :
    Keeps s0 (splitUnit u s).2 := by
  unfold splitUnit
  repeat' (with_reducible first | assumption | apply keeps_dirSet | apply keeps_onFlash | split | dsimp only | simp only [Keeps.upd_iff])

theorem keeps_mergeUnit {s0 : State} (u : Nat) (slot : Nat) (s : State) (hs : Keeps s0 s) :
    Keeps s0 (mergeUnit u slot s) := by
  unfold mergeUnit
  repeat' (with_reducible first | assumption | apply keeps_dirSet | apply keeps_setCoarse | split | dsimp only | simp only [Keeps.upd_iff])

theorem keeps_setLost {s0 : State} (nlp : Nat) (s : State) (hs : Keeps s0 s) :
    Keeps s0 (setLost nlp s) := by
  unfold setLost
  repeat' (with_reducible first | assumption | exact Keeps.refl _ | apply keeps_bump | apply keeps_onFlash | apply keeps_raise | apply keeps_setCoarse | apply keeps_setFine | apply keeps_splitUnit | apply keeps_unitDelta | (intro _) | refine Keeps.snd (by assumption) ?_ | refine Keeps.snd3 (by assumption) ?_ | refine Keeps.snd4 (by assumption) ?_ | refine Keeps.some1 (by assumption) ?_ | refine Keeps.some2 (by assumption) ?_ | refine Keeps.some3 (by assumption) ?_ | refine Keeps.fst (by assumption) ?_ | refine Keeps.ite ?_ ?_ | refine Keeps.ite2 ?_ ?_ | refine Keeps.ite3 ?_ ?_ | split | dsimp only | simp only [Keeps.upd_iff, List.length_map] | simp only [Keeps.upd_iff, length_updFirst] | simp only [Keeps.upd_iff])

theorem keeps_salvageUnit {s0 : State} (p : Nat × Nat) (s : State) (hs : Keeps s0 s) :
    Keeps s0 (salvageUnit p s) := by
  unfold salvageUnit
  repeat' (with_reducible first | assumption | exact Keeps.refl _ | apply keeps_foldS | apply keeps_onFlash | apply keeps_setFine | apply keeps_splitUnit | apply keeps_unitDelta | (intro _) | refine Keeps.snd (by assumption) ?_ | refine Keeps.snd3 (by assumption) ?_ | refine Keeps.snd4 (by assumption) ?_ | refine Keeps.some1 (by assumption) ?_ | refine Keeps.some2 (by assumption) ?_ | refine Keeps.some3 (by assumption) ?_ | refine Keeps.fst (by assumption) ?_ | refine Keeps.ite ?_ ?_ | refine Keeps.ite2 ?_ ?_ | refine Keeps.ite3 ?_ ?_ | split | dsimp only | simp only [Keeps.upd_iff, List.length_map] | simp only [Keeps.upd_iff, length_updFirst] | simp only [Keeps.upd_iff])

theorem keeps_onSblk {s0 : State} (v : Nat) (g : SBlk → SBlk) (s : State) (hs : Keeps s0 s) :
    Keeps s0 (onSblk v g s) := by
  unfold onSblk
  repeat' (with_reducible first | assumption | apply keeps_onFlash | split | dsimp only | simp only [Keeps.upd_iff])

theorem keeps_openBlock {s0 : State} (slc : Bool) (s : State) (hs : Keeps s0 s) :
    ∀ r, (openBlock slc s) = some r → Keeps s0 r.2 := by
  intro r e
  unfold openBlock at e
  try dsimp only at e
  repeat' (split at e)
  all_goals first | contradiction | (injection e with e; subst e) | skip
  repeat' (with_reducible first | assumption | apply keeps_delta | apply keeps_dirSet | apply keeps_onSblk | split | dsimp only | simp only [Keeps.upd_iff])

theorem keeps_setOpen {s0 : State} (k : JobKind) (v : Option Nat) (s : State) (hs : Keeps s0 s) :
    Keeps s0 (setOpen k v s) := by
  unfold setOpen
  repeat' (with_reducible first | assumption | apply keeps_onFlash | split | dsimp only | simp only [Keeps.upd_iff])

theorem keeps_takeRow {s0 : State} (fuel : Nat) (k : JobKind) (cs : List Nat) (s : State) (hs : Keeps s0 s) :
    ∀ r, (takeRow fuel k cs s) = some r → Keeps s0 r.2.2 := by
  induction fuel generalizing k cs s with
  | zero => intro r e; simp [takeRow] at e
  | succ n ih =>
    intro r e
    unfold takeRow at e
    dsimp only at e
    split at e
    · split at e
      · cases e
      · rename_i heq
        exact ih _ _ _ (keeps_setOpen _ _ _ (keeps_openBlock _ _ hs _ heq)) _ e
    · split at e
      · cases e; dsimp only; exact keeps_onSblk _ _ _ hs
      · exact ih _ _ _ (keeps_setOpen _ _ _ (keeps_onSblk _ _ _ hs)) _ e

theorem keeps_mapError {s0 : State} (nlp : Nat) (w : Who) (s : State) (hs : Keeps s0 s) :
    Keeps s0 (mapError nlp w s) := by
  unfold mapError
  repeat' (with_reducible first | assumption | apply keeps_onFlash | apply keeps_raise | split | dsimp only | simp only [Keeps.upd_iff])

theorem keeps_readStored {s0 : State} (c : Nat) (k : Nat) (nlp : Nat) (handle : Nat) (w : Who) (s : State) (hs : Keeps s0 s) :
    Keeps s0 (readStored c k nlp handle w s).2.2 := by
  unfold readStored
  repeat' (with_reducible first | assumption | apply keeps_raise | split | dsimp only | simp only [Keeps.upd_iff])

theorem keeps_noteRead {s0 : State} (c : Nat) (k : Nat) (level : Nat) (soft : Bool) (margin : Bool) (s : State) (hs : Keeps s0 s) :
    Keeps s0 (noteRead c k level soft margin s) := by
  unfold noteRead
  repeat' (with_reducible first | assumption | apply keeps_onFlash | apply keeps_touchGroup | split | dsimp only | simp only [Keeps.upd_iff])

theorem keeps_noteRetry {s0 : State} (c : Nat) (k : Nat) (level : Nat) (nlp : Nat) (s : State) (hs : Keeps s0 s) :
    Keeps s0 (noteRetry c k level nlp s) := by
  unfold noteRetry
  repeat' (with_reducible first | assumption | apply keeps_bump | apply keeps_onDieLog | apply keeps_raise | split | dsimp only | simp only [Keeps.upd_iff])

theorem keeps_eraseChan {s0 : State} (v : Nat) (c : Nat) (s : State) (hs : Keeps s0 s) :
    Keeps s0 (eraseChan v c s) := by
  unfold eraseChan
  repeat' (with_reducible first | assumption | apply keeps_onFlash | apply keeps_touchGroup | split | dsimp only | simp only [Keeps.upd_iff])

theorem keeps_chanOut {s0 : State} (c : Nat) (s : State) (hs : Keeps s0 s) :
    Keeps s0 (chanOut c s) := by
  unfold chanOut
  repeat' (with_reducible first | assumption | apply keeps_dirSet | apply keeps_raise | split | dsimp only | simp only [Keeps.upd_iff])

theorem keeps_countFail {s0 : State} (c : Nat) (s : State) (hs : Keeps s0 s) :
    Keeps s0 (countFail c s) := by
  unfold countFail
  repeat' (with_reducible first | assumption | apply keeps_chanOut | apply keeps_onFlash | apply keeps_whenS | split | dsimp only | simp only [Keeps.upd_iff])

theorem keeps_retireBlock {s0 : State} (c : Nat) (v : Nat) (s : State) (hs : Keeps s0 s) :
    Keeps s0 (retireBlock c v s).2 := by
  unfold retireBlock
  repeat' (with_reducible first | assumption | apply keeps_bump | apply keeps_countFail | apply keeps_delta | apply keeps_dirSet | apply keeps_onFlash | apply keeps_onSblk | apply keeps_raise | split | dsimp only | simp only [Keeps.upd_iff])

theorem keeps_addJob {s0 : State} (k : JobKind) (sb : Nat) (ms : List Move) (deltas : Nat) (s : State) (hs : Keeps s0 s) :
    Keeps s0 (addJob k sb ms deltas s) := by
  unfold addJob
  repeat' (with_reducible first | assumption | apply keeps_foldS | apply keeps_onFlash | apply keeps_touchGroup | (intro _) | refine Keeps.ite ?_ ?_ | split | dsimp only | simp only [Keeps.upd_iff])

theorem keeps_moveOne {s0 : State} (k : JobKind) (nlp : Nat) (c : FSlot) (src : Option (Nat × Nat)) (s : State) (hs : Keeps s0 s) :
    Keeps s0 (moveOne k nlp c src s) := by
  unfold moveOne
  repeat' (with_reducible first | assumption | exact Keeps.refl _ | apply keeps_addJob | (show ∀ _, _ → _; apply keeps_takeRow) | (intro _) | refine Keeps.snd (by assumption) ?_ | refine Keeps.snd3 (by assumption) ?_ | refine Keeps.snd4 (by assumption) ?_ | refine Keeps.some1 (by assumption) ?_ | refine Keeps.some2 (by assumption) ?_ | refine Keeps.some3 (by assumption) ?_ | refine Keeps.fst (by assumption) ?_ | refine Keeps.ite ?_ ?_ | refine Keeps.ite2 ?_ ?_ | refine Keeps.ite3 ?_ ?_ | split | dsimp only | simp only [Keeps.upd_iff, List.length_map] | simp only [Keeps.upd_iff, length_updFirst] | simp only [Keeps.upd_iff])

theorem keeps_moveRow {s0 : State} (k : JobKind) (u : Nat) (cs : List FSlot) (srcs : List (Option (Nat × Nat))) (s : State) (hs : Keeps s0 s) :
    Keeps s0 (moveRow k u cs srcs s) := by
  unfold moveRow
  repeat' (with_reducible first | assumption | exact Keeps.refl _ | apply keeps_addJob | (show ∀ _, _ → _; apply keeps_takeRow) | (intro _) | refine Keeps.snd (by assumption) ?_ | refine Keeps.snd3 (by assumption) ?_ | refine Keeps.snd4 (by assumption) ?_ | refine Keeps.some1 (by assumption) ?_ | refine Keeps.some2 (by assumption) ?_ | refine Keeps.some3 (by assumption) ?_ | refine Keeps.fst (by assumption) ?_ | refine Keeps.ite ?_ ?_ | refine Keeps.ite2 ?_ ?_ | refine Keeps.ite3 ?_ ?_ | split | dsimp only | simp only [Keeps.upd_iff, List.length_map] | simp only [Keeps.upd_iff, length_updFirst] | simp only [Keeps.upd_iff])

theorem keeps_addHeat {s0 : State} (u : Nat) (s : State) (hs : Keeps s0 s) :
    Keeps s0 (addHeat u s) := by
  unfold addHeat
  repeat' (with_reducible first | assumption | apply keeps_onFlash | split | dsimp only | simp only [Keeps.upd_iff])

theorem keeps_gatherUnit {s0 : State} (u : Nat) (s : State) (hs : Keeps s0 s) :
    Keeps s0 (gatherUnit u s) := by
  unfold gatherUnit
  repeat' (with_reducible first | assumption | exact Keeps.refl _ | apply keeps_addHeat | apply keeps_foldS | apply keeps_moveOne | apply keeps_moveRow | apply keeps_splitUnit | apply keeps_unitDelta | (intro _) | refine Keeps.snd (by assumption) ?_ | refine Keeps.snd3 (by assumption) ?_ | refine Keeps.snd4 (by assumption) ?_ | refine Keeps.some1 (by assumption) ?_ | refine Keeps.some2 (by assumption) ?_ | refine Keeps.some3 (by assumption) ?_ | refine Keeps.fst (by assumption) ?_ | refine Keeps.ite ?_ ?_ | refine Keeps.ite2 ?_ ?_ | refine Keeps.ite3 ?_ ?_ | split | dsimp only | simp only [Keeps.upd_iff, List.length_map] | simp only [Keeps.upd_iff, length_updFirst] | simp only [Keeps.upd_iff])

theorem keeps_drainJournal {s0 : State} (s : State) (hs : Keeps s0 s) :
    Keeps s0 (drainJournal s) := by
  unfold drainJournal
  repeat' (with_reducible first | assumption | exact Keeps.refl _ | apply keeps_addJob | (show ∀ _, _ → _; apply keeps_takeRow) | (intro _) | refine Keeps.snd (by assumption) ?_ | refine Keeps.snd3 (by assumption) ?_ | refine Keeps.snd4 (by assumption) ?_ | refine Keeps.some1 (by assumption) ?_ | refine Keeps.some2 (by assumption) ?_ | refine Keeps.some3 (by assumption) ?_ | refine Keeps.fst (by assumption) ?_ | refine Keeps.ite ?_ ?_ | refine Keeps.ite2 ?_ ?_ | refine Keeps.ite3 ?_ ?_ | split | dsimp only | simp only [Keeps.upd_iff, List.length_map] | simp only [Keeps.upd_iff, length_updFirst] | simp only [Keeps.upd_iff])

theorem keeps_gatherWrites {s0 : State} (s : State) (hs : Keeps s0 s) :
    Keeps s0 (gatherWrites s) := by
  unfold gatherWrites
  repeat' (with_reducible first | assumption | apply keeps_drainJournal | apply keeps_foldS | apply keeps_gatherUnit | split | dsimp only | simp only [Keeps.upd_iff])

theorem keeps_storeMoves {s0 : State} (ms : List Move) (s : State) (hs : Keeps s0 s) :
    Keeps s0 (storeMoves ms s) := by
  unfold storeMoves
  repeat' (with_reducible first | assumption | apply keeps_onFlash | split | dsimp only | simp only [Keeps.upd_iff])

theorem keeps_unbuffer {s0 : State} (ms : List Move) (s : State) (hs : Keeps s0 s) :
    Keeps s0 (unbuffer ms s) := by
  unfold unbuffer
  repeat' (with_reducible first | assumption | apply keeps_onFlash | split | dsimp only | simp only [Keeps.upd_iff])

theorem keeps_mapHost {s0 : State} (ms : List Move) (s : State) (hs : Keeps s0 s) :
    Keeps s0 (mapHost ms s) := by
  unfold mapHost
  repeat' (with_reducible first | assumption | apply keeps_foldS | apply keeps_setCoarse | apply keeps_setFine | apply keeps_unitDelta | (intro _) | refine Keeps.ite ?_ ?_ | split | dsimp only | simp only [Keeps.upd_iff])

theorem keeps_journalDone {s0 : State} (n : Nat) (s : State) (hs : Keeps s0 s) :
    Keeps s0 (journalDone n s) := by
  unfold journalDone
  repeat' (with_reducible first | assumption | apply keeps_onFlash | split | dsimp only | simp only [Keeps.upd_iff])

theorem keeps_startCheckpoint {s0 : State} (s : State) (hs : Keeps s0 s) :
    Keeps s0 (startCheckpoint s) := by
  unfold startCheckpoint
  repeat' (with_reducible first | assumption | apply keeps_onFlash | split | dsimp only | simp only [Keeps.upd_iff])

theorem keeps_copyUnit {s0 : State} (k : JobKind) (ps : List (Nat × Nat × Nat)) (u : Nat) (s : State) (hs : Keeps s0 s) :
    Keeps s0 (copyUnit k ps u s) := by
  unfold copyUnit
  repeat' (with_reducible first | assumption | apply keeps_foldS | apply keeps_moveOne | apply keeps_moveRow | (intro _) | refine Keeps.ite ?_ ?_ | split | dsimp only | simp only [Keeps.upd_iff])

theorem keeps_copyBlock {s0 : State} (k : JobKind) (v : Nat) (s : State) (hs : Keeps s0 s) :
    Keeps s0 (copyBlock k v s) := by
  unfold copyBlock
  repeat' (with_reducible first | assumption | apply keeps_bumpBy | apply keeps_copyUnit | apply keeps_foldS | split | dsimp only | simp only [Keeps.upd_iff])

theorem keeps_startFold {s0 : State} (s : State) (hs : Keeps s0 s) :
    Keeps s0 (startFold s) := by
  unfold startFold
  repeat' (with_reducible first | assumption | apply keeps_copyBlock | split | dsimp only | simp only [Keeps.upd_iff])

theorem keeps_startGc {s0 : State} (s : State) (hs : Keeps s0 s) :
    Keeps s0 (startGc s) := by
  unfold startGc
  repeat' (with_reducible first | assumption | apply keeps_copyBlock | split | dsimp only | simp only [Keeps.upd_iff])

theorem keeps_startRefresh {s0 : State} (s : State) (hs : Keeps s0 s) :
    Keeps s0 (startRefresh s) := by
  unfold startRefresh
  repeat' (with_reducible first | assumption | apply keeps_copyBlock | apply keeps_onFlash | split | dsimp only | simp only [Keeps.upd_iff])

theorem keeps_startWear {s0 : State} (s : State) (hs : Keeps s0 s) :
    Keeps s0 (startWear s) := by
  unfold startWear
  repeat' (with_reducible first | assumption | apply keeps_copyBlock | split | dsimp only | simp only [Keeps.upd_iff])

theorem keeps_switchOne {s0 : State} (m : Move) (s : State) (hs : Keeps s0 s) :
    Keeps s0 (switchOne m s) := by
  unfold switchOne
  repeat' (with_reducible first | assumption | exact Keeps.refl _ | apply keeps_setFine | apply keeps_splitUnit | (intro _) | refine Keeps.snd (by assumption) ?_ | refine Keeps.snd3 (by assumption) ?_ | refine Keeps.snd4 (by assumption) ?_ | refine Keeps.some1 (by assumption) ?_ | refine Keeps.some2 (by assumption) ?_ | refine Keeps.some3 (by assumption) ?_ | refine Keeps.fst (by assumption) ?_ | refine Keeps.ite ?_ ?_ | refine Keeps.ite2 ?_ ?_ | refine Keeps.ite3 ?_ ?_ | split | dsimp only | simp only [Keeps.upd_iff, List.length_map] | simp only [Keeps.upd_iff, length_updFirst] | simp only [Keeps.upd_iff])

theorem keeps_switchJob {s0 : State} (j : Job) (s : State) (hs : Keeps s0 s) :
    Keeps s0 (switchJob j s) := by
  unfold switchJob
  repeat' (with_reducible first | assumption | apply keeps_foldS | apply keeps_mergeUnit | apply keeps_setCoarse | apply keeps_switchOne | apply keeps_unitDelta | split | dsimp only | simp only [Keeps.upd_iff])

theorem keeps_switchCopies {s0 : State} (s : State) (hs : Keeps s0 s) :
    Keeps s0 (switchCopies s) := by
  unfold switchCopies
  repeat' (with_reducible first | assumption | apply keeps_foldS | apply keeps_onFlash | apply keeps_switchJob | split | dsimp only | simp only [Keeps.upd_iff])

theorem keeps_reloadRecords {s0 : State} (s : State) (hs : Keeps s0 s) :
    Keeps s0 (reloadRecords s) := by
  unfold reloadRecords
  repeat' (with_reducible first | assumption | apply keeps_onFlash | split | dsimp only | simp only [Keeps.upd_iff])

theorem keeps_loadAreas {s0 : State} (s : State) (hs : Keeps s0 s) :
    Keeps s0 (loadAreas s) := by
  unfold loadAreas
  repeat' (with_reducible first | assumption | apply keeps_onFlash | split | dsimp only | simp only [Keeps.upd_iff])

theorem keeps_showReserve {s0 : State} (s : State) (hs : Keeps s0 s) :
    Keeps s0 (showReserve s) := by
  unfold showReserve
  repeat' (with_reducible first | assumption | apply keeps_dirSet | split | dsimp only | simp only [Keeps.upd_iff])

theorem keeps_discardUnit {s0 : State} (lo : Nat) (n : Nat) (u : Nat) (s : State) (hs : Keeps s0 s) :
    Keeps s0 (discardUnit lo n u s) := by
  unfold discardUnit
  repeat' (with_reducible first | assumption | exact Keeps.refl _ | apply keeps_foldS | apply keeps_moveRow | apply keeps_onFlash | apply keeps_setCoarse | apply keeps_setFine | apply keeps_splitUnit | (intro _) | refine Keeps.snd (by assumption) ?_ | refine Keeps.snd3 (by assumption) ?_ | refine Keeps.snd4 (by assumption) ?_ | refine Keeps.some1 (by assumption) ?_ | refine Keeps.some2 (by assumption) ?_ | refine Keeps.some3 (by assumption) ?_ | refine Keeps.fst (by assumption) ?_ | refine Keeps.ite ?_ ?_ | refine Keeps.ite2 ?_ ?_ | refine Keeps.ite3 ?_ ?_ | split | dsimp only | simp only [Keeps.upd_iff, List.length_map] | simp only [Keeps.upd_iff, length_updFirst] | simp only [Keeps.upd_iff])

theorem keeps_discard {s0 : State} (lo : Nat) (n : Nat) (s : State) (hs : Keeps s0 s) :
    Keeps s0 (discard lo n s) := by
  unfold discard
  repeat' (with_reducible first | assumption | apply keeps_discardUnit | apply keeps_foldS | apply keeps_unitDelta | (intro _) | refine Keeps.ite ?_ ?_ | split | dsimp only | simp only [Keeps.upd_iff])

theorem keeps_bufferWrite {s0 : State} (nlp : Nat) (handle : Nat) (tenant : Nat) (data : Bytes) (s : State) (hs : Keeps s0 s) :
    Keeps s0 (bufferWrite nlp handle tenant data s) := by
  unfold bufferWrite
  repeat' (with_reducible first | assumption | apply keeps_delta | apply keeps_onFlash | split | dsimp only | simp only [Keeps.upd_iff])

end Sys2Proof.Machine
end

