-- ==== Sys2Proof/Laws/KeepParOps.lean ====
section
/-! SUPPORT. KeepParOps: each operation of Machine/ParOps.lean keeps the queue, the canonical form of memory and the
order of the free values (`Keeps`). -/
namespace Sys2Proof.Machine
set_option Elab.async false
set_option linter.all false

theorem keeps_onParcel {s0 : State} (pid : Nat) (f : Parcel → Parcel) (s : State) (hs : Keeps s0 s) :
    Keeps s0 (onParcel pid f s) := by
  unfold onParcel
  repeat' (with_reducible first | assumption | split | dsimp only | simp only [Keeps.upd_iff])

theorem keeps_dropParcel {s0 : State} (pid : Nat) (s : State) (hs : Keeps s0 s) :
    Keeps s0 (dropParcel pid s) := by
  unfold dropParcel
  repeat' (with_reducible first | assumption | split | dsimp only | simp only [Keeps.upd_iff])

theorem keeps_giveBytes {s0 : State} (pid : Nat) (b : Bytes) (s : State) (hs : Keeps s0 s) :
    Keeps s0 (giveBytes pid b s) := by
  unfold giveBytes
  repeat' (with_reducible first | assumption | apply keeps_onParcel | split | dsimp only | simp only [Keeps.upd_iff])

theorem keeps_issueParcel {s0 : State} (owner : POwner) (src : Place) (dst : Place) (limit : Nat) (tenant : Nat) (s : State) (hs : Keeps s0 s) :
    Keeps s0 (issueParcel owner src dst limit tenant s) := by
  unfold issueParcel
  repeat' (with_reducible first | assumption | apply keeps_beSend | split | dsimp only | simp only [Keeps.upd_iff])

theorem keeps_failStream {s0 : State} (k : Nat) (status : Nat) (s : State) (hs : Keeps s0 s) :
    Keeps s0 (failStream k status s) := by
  unfold failStream
  repeat' (with_reducible first | assumption | apply keeps_failReq | apply keeps_killParcels | apply keeps_onStream | split | dsimp only | simp only [Keeps.upd_iff])

theorem keeps_pathDone {s0 : State} (owner : Nat) (pid : Nat) (status : Nat) (b : Bytes) (s : State) (hs : Keeps s0 s) :
    Keeps s0 (pathDone owner pid status b s) := by
  unfold pathDone
  repeat' (with_reducible first | assumption | split | dsimp only | simp only [Keeps.upd_iff])

theorem keeps_failParcel {s0 : State} (pid : Nat) (status : Nat) (s : State) (hs : Keeps s0 s) :
    Keeps s0 (failParcel pid status s) := by
  unfold failParcel
  repeat' (with_reducible first | assumption | apply keeps_completeDesc | apply keeps_dropParcel | apply keeps_failReq | apply keeps_failStream | apply keeps_pathDone | split | dsimp only | simp only [Keeps.upd_iff])

theorem keeps_badDesc {s0 : State} (n : Nat) (d : PDesc) (s : State) (hs : Keeps s0 s) :
    Keeps s0 (badDesc n d s) := by
  unfold badDesc
  repeat' (with_reducible first | assumption | apply keeps_completeDesc | apply keeps_failReq | split | dsimp only | simp only [Keeps.upd_iff])

theorem keeps_issueDesc {s0 : State} (x0 : Nat) (x1 : Nat) (x2 : Nat) (x3 : State) (hx3 : Keeps s0 x3) :
    Keeps s0 (issueDesc x0 x1 x2 x3) := by
  induction x0 generalizing x1 x2 x3 with
  | zero =>
    unfold issueDesc
    all_goals try dsimp only
    repeat' (with_reducible first | assumption | exact Keeps.refl _ | apply keeps_badDesc | apply keeps_issueParcel | apply keeps_onQueue | (intro _) | refine Keeps.snd (by assumption) ?_ | refine Keeps.snd3 (by assumption) ?_ | refine Keeps.snd4 (by assumption) ?_ | refine Keeps.some1 (by assumption) ?_ | refine Keeps.some2 (by assumption) ?_ | refine Keeps.some3 (by assumption) ?_ | refine Keeps.fst (by assumption) ?_ | refine Keeps.ite ?_ ?_ | refine Keeps.ite2 ?_ ?_ | refine Keeps.ite3 ?_ ?_ | split | dsimp only | simp only [Keeps.upd_iff, List.length_map] | simp only [Keeps.upd_iff, length_updFirst] | simp only [Keeps.upd_iff])
  | succ n ih =>
    unfold issueDesc
    all_goals try dsimp only
    repeat' (with_reducible first | assumption | exact Keeps.refl _ | apply keeps_badDesc | apply keeps_issueParcel | apply keeps_onQueue | with_reducible apply ih | (intro _) | refine Keeps.snd (by assumption) ?_ | refine Keeps.snd3 (by assumption) ?_ | refine Keeps.snd4 (by assumption) ?_ | refine Keeps.some1 (by assumption) ?_ | refine Keeps.some2 (by assumption) ?_ | refine Keeps.some3 (by assumption) ?_ | refine Keeps.fst (by assumption) ?_ | refine Keeps.ite ?_ ?_ | refine Keeps.ite2 ?_ ?_ | refine Keeps.ite3 ?_ ?_ | split | dsimp only | simp only [Keeps.upd_iff, List.length_map] | simp only [Keeps.upd_iff, length_updFirst] | simp only [Keeps.upd_iff])

theorem keeps_issueStream {s0 : State} (x0 : Nat) (x1 : Nat) (x2 : State) (hx2 : Keeps s0 x2) :
    Keeps s0 (issueStream x0 x1 x2) := by
  induction x0 generalizing x1 x2 with
  | zero =>
    unfold issueStream
    all_goals try dsimp only
    repeat' (with_reducible first | assumption | exact Keeps.refl _ | apply keeps_failStream | apply keeps_issueParcel | apply keeps_onStream | (intro _) | refine Keeps.snd (by assumption) ?_ | refine Keeps.snd3 (by assumption) ?_ | refine Keeps.snd4 (by assumption) ?_ | refine Keeps.some1 (by assumption) ?_ | refine Keeps.some2 (by assumption) ?_ | refine Keeps.some3 (by assumption) ?_ | refine Keeps.fst (by assumption) ?_ | refine Keeps.ite ?_ ?_ | refine Keeps.ite2 ?_ ?_ | refine Keeps.ite3 ?_ ?_ | split | dsimp only | simp only [Keeps.upd_iff, List.length_map] | simp only [Keeps.upd_iff, length_updFirst] | simp only [Keeps.upd_iff])
  | succ n ih =>
    unfold issueStream
    all_goals try dsimp only
    repeat' (with_reducible first | assumption | exact Keeps.refl _ | apply keeps_failStream | apply keeps_issueParcel | apply keeps_onStream | with_reducible apply ih | (intro _) | refine Keeps.snd (by assumption) ?_ | refine Keeps.snd3 (by assumption) ?_ | refine Keeps.snd4 (by assumption) ?_ | refine Keeps.some1 (by assumption) ?_ | refine Keeps.some2 (by assumption) ?_ | refine Keeps.some3 (by assumption) ?_ | refine Keeps.fst (by assumption) ?_ | refine Keeps.ite ?_ ?_ | refine Keeps.ite2 ?_ ?_ | refine Keeps.ite3 ?_ ?_ | split | dsimp only | simp only [Keeps.upd_iff, List.length_map] | simp only [Keeps.upd_iff, length_updFirst] | simp only [Keeps.upd_iff])

theorem keeps_issueAll {s0 : State} (s : State) (hs : Keeps s0 s) :
    Keeps s0 (issueAll s) := by
  unfold issueAll
  repeat' (with_reducible first | assumption | apply keeps_foldS | apply keeps_issueDesc | apply keeps_issueStream | (intro _) | refine Keeps.ite ?_ ?_ | split | dsimp only | simp only [Keeps.upd_iff])

theorem keeps_fillLines {s0 : State} (cl : Nat) (a : Nat) (data : Bytes) (s : State) (hs : Keeps s0 s) :
    Keeps s0 (fillLines cl a data s) := by
  unfold fillLines
  repeat' (with_reducible first | assumption | apply keeps_foldS | apply keeps_makeRoom | (intro _) | refine Keeps.ite ?_ ?_ | split | dsimp only | simp only [Keeps.upd_iff])

theorem keeps_wakeStream {s0 : State} (k : Nat) (s : State) (hs : Keeps s0 s) :
    Keeps s0 (wakeStream k s) := by
  unfold wakeStream
  repeat' (with_reducible first | assumption | apply keeps_ungate | split | dsimp only | simp only [Keeps.upd_iff])

theorem keeps_drainStream {s0 : State} (x0 : Nat) (x1 : Nat) (x2 : State) (hx2 : Keeps s0 x2) :
    Keeps s0 (drainStream x0 x1 x2) := by
  induction x0 generalizing x1 x2 with
  | zero =>
    unfold drainStream
    all_goals try dsimp only
    repeat' (with_reducible first | assumption | exact Keeps.refl _ | apply keeps_demandWrite | apply keeps_fillLines | apply keeps_onStream | (intro _) | refine Keeps.snd (by assumption) ?_ | refine Keeps.snd3 (by assumption) ?_ | refine Keeps.snd4 (by assumption) ?_ | refine Keeps.some1 (by assumption) ?_ | refine Keeps.some2 (by assumption) ?_ | refine Keeps.some3 (by assumption) ?_ | refine Keeps.fst (by assumption) ?_ | refine Keeps.ite ?_ ?_ | refine Keeps.ite2 ?_ ?_ | refine Keeps.ite3 ?_ ?_ | split | dsimp only | simp only [Keeps.upd_iff, List.length_map] | simp only [Keeps.upd_iff, length_updFirst] | simp only [Keeps.upd_iff])
  | succ n ih =>
    unfold drainStream
    all_goals try dsimp only
    repeat' (with_reducible first | assumption | exact Keeps.refl _ | apply keeps_demandWrite | apply keeps_fillLines | apply keeps_onStream | with_reducible apply ih | (intro _) | refine Keeps.snd (by assumption) ?_ | refine Keeps.snd3 (by assumption) ?_ | refine Keeps.snd4 (by assumption) ?_ | refine Keeps.some1 (by assumption) ?_ | refine Keeps.some2 (by assumption) ?_ | refine Keeps.some3 (by assumption) ?_ | refine Keeps.fst (by assumption) ?_ | refine Keeps.ite ?_ ?_ | refine Keeps.ite2 ?_ ?_ | refine Keeps.ite3 ?_ ?_ | split | dsimp only | simp only [Keeps.upd_iff, List.length_map] | simp only [Keeps.upd_iff, length_updFirst] | simp only [Keeps.upd_iff])

theorem keeps_countParcel {s0 : State} (p : Parcel) (s : State) (hs : Keeps s0 s) :
    Keeps s0 (countParcel p s) := by
  unfold countParcel
  repeat' (with_reducible first | assumption | apply keeps_bump | apply keeps_whenS | split | dsimp only | simp only [Keeps.upd_iff])

theorem keeps_finishDesc {s0 : State} (n : Nat) (a : Nat) (s : State) (hs : Keeps s0 s) :
    Keeps s0 (finishDesc n a s) := by
  unfold finishDesc
  repeat' (with_reducible first | assumption | apply keeps_completeDesc | apply keeps_onQueue | split | dsimp only | simp only [Keeps.upd_iff])

theorem keeps_parcelDone {s0 : State} (p : Parcel) (b : Bytes) (s : State) (hs : Keeps s0 s) :
    Keeps s0 (parcelDone p b s) := by
  unfold parcelDone
  repeat' (with_reducible first | assumption | apply keeps_countParcel | apply keeps_dropParcel | apply keeps_finishDesc | apply keeps_pathDone | split | dsimp only | simp only [Keeps.upd_iff])

theorem keeps_sourceBytes {s0 : State} (p : Parcel) (s : State) (hs : Keeps s0 s) :
    ∀ r, (sourceBytes p s) = some r → Keeps s0 r.2.2 := by
  intro r e
  unfold sourceBytes at e
  try dsimp only at e
  repeat' (split at e)
  all_goals first | contradiction | (injection e with e; subst e) | skip
  repeat' (with_reducible first | assumption | apply keeps_demandRead | apply keeps_mapError | split | dsimp only | simp only [Keeps.upd_iff])

theorem keeps_placeBytes {s0 : State} (p : Parcel) (b : Bytes) (s : State) (hs : Keeps s0 s) :
    ∀ r, (placeBytes p b s) = some r → Keeps s0 r.2 := by
  intro r e
  unfold placeBytes at e
  try dsimp only at e
  repeat' (split at e)
  all_goals first | contradiction | (injection e with e; subst e) | skip
  repeat' (with_reducible first | assumption | apply keeps_beSend | apply keeps_demandWrite | apply keeps_drainStream | apply keeps_onParcel | apply keeps_onStream | split | dsimp only | simp only [Keeps.upd_iff])

theorem keeps_deliverParcel {s0 : State} (pid : Nat) (s : State) (hs : Keeps s0 s) :
    Keeps s0 (deliverParcel pid s) := by
  unfold deliverParcel
  repeat' (with_reducible first | assumption | exact Keeps.refl _ | apply keeps_bump | apply keeps_dropParcel | apply keeps_failParcel | apply keeps_issueAll | apply keeps_parcelDone | (show ∀ _, _ → _; apply keeps_placeBytes) | (show ∀ _, _ → _; apply keeps_sourceBytes) | apply keeps_wakeStream | (intro _) | refine Keeps.snd (by assumption) ?_ | refine Keeps.snd3 (by assumption) ?_ | refine Keeps.snd4 (by assumption) ?_ | refine Keeps.some1 (by assumption) ?_ | refine Keeps.some2 (by assumption) ?_ | refine Keeps.some3 (by assumption) ?_ | refine Keeps.fst (by assumption) ?_ | refine Keeps.ite ?_ ?_ | refine Keeps.ite2 ?_ ?_ | refine Keeps.ite3 ?_ ?_ | split | dsimp only | simp only [Keeps.upd_iff, List.length_map] | simp only [Keeps.upd_iff, length_updFirst] | simp only [Keeps.upd_iff])

theorem keeps_psubmitReg {s0 : State} (rid : Nat) (n : Nat) (v : Nat) (s : State) (hs : Keeps s0 s) :
    Keeps s0 (psubmitReg rid n v s) := by
  unfold psubmitReg
  repeat' (with_reducible first | assumption | apply keeps_issueAll | apply keeps_onQueue | split | dsimp only | simp only [Keeps.upd_iff])

end Sys2Proof.Machine
end

