-- ==== Sys2Proof/Laws/KeepCompOps.lean ====
section
/-! SUPPORT. KeepCompOps: each operation of Machine/CompOps.lean keeps the queue, the canonical form of memory and the
order of the free values (`Keeps`). -/
namespace Sys2Proof.Machine
set_option Elab.async false
set_option linter.all false

theorem keeps_disagree {s0 : State} (obj : Nat) (tenant : Option Nat) (s : State) (hs : Keeps s0 s) :
    Keeps s0 (disagree obj tenant s) := by
  unfold disagree
  repeat' (with_reducible first | assumption | apply keeps_bump | apply keeps_dirSet | apply keeps_record | split | dsimp only | simp only [Keeps.upd_iff])

theorem keeps_disputeCorpus {s0 : State} (t : Nat) (c : Nat) (s : State) (hs : Keeps s0 s) :
    Keeps s0 (disputeCorpus t c s) := by
  unfold disputeCorpus
  repeat' (with_reducible first | assumption | apply keeps_disagree | split | dsimp only | simp only [Keeps.upd_iff])

theorem keeps_disputeCtx {s0 : State} (h : Nat) (t : Nat) (s : State) (hs : Keeps s0 s) :
    Keeps s0 (disputeCtx h t s) := by
  unfold disputeCtx
  repeat' (with_reducible first | assumption | apply keeps_disagree | split | dsimp only | simp only [Keeps.upd_iff])

theorem keeps_disputeWindow {s0 : State} (i : Nat) (s : State) (hs : Keeps s0 s) :
    Keeps s0 (disputeWindow i s) := by
  unfold disputeWindow
  repeat' (with_reducible first | assumption | apply keeps_disagree | split | dsimp only | simp only [Keeps.upd_iff])

theorem keeps_placeT1 {s0 : State} (len : Nat) (al : Nat) (tenant : Nat) (kind : Nat) (num : Nat) (s : State) (hs : Keeps s0 s) :
    ∀ r, (placeT1 len al tenant kind num s) = some r → Keeps s0 r.2 := by
  intro r e
  unfold placeT1 at e
  try dsimp only at e
  repeat' (split at e)
  all_goals first | contradiction | (injection e with e; subst e) | skip
  repeat' (with_reducible first | assumption | apply keeps_draw | split | dsimp only | simp only [Keeps.upd_iff])

theorem keeps_unplace {s0 : State} (kind : Nat) (num : Nat) (s : State) (hs : Keeps s0 s) :
    Keeps s0 (unplace kind num s) := by
  unfold unplace
  repeat' (with_reducible first | assumption | split | dsimp only | simp only [Keeps.upd_iff])

end Sys2Proof.Machine
end

