-- ==== Sys2Proof/Laws/KeepEorus.lean ====
section
/-! SUPPORT. KeepEorus: each operation of Machine/Eorus.lean keeps the queue, the canonical form of memory and the
order of the free values (`Keeps`). -/
namespace Sys2Proof.Machine
set_option Elab.async false
set_option linter.all false

theorem keeps_execEdot {s0 : State} (th : Nat) (w : W32) (s : State) (hs : Keeps s0 s) :
    ∀ z, (execEdot th w s) = .next z → Keeps s0 z := by
  intro z e
  unfold execEdot at e
  try dsimp only at e
  first | (split at e <;> first | (injection e with e; subst e)) | (injection e with e; subst e) | skip
  repeat' (with_reducible first | assumption | apply keeps_illegal | apply keeps_onRegs | apply keeps_onThread | (intro _) | refine Keeps.ite ?_ ?_ | split | dsimp only | simp only [Keeps.upd_iff])

theorem keeps_execEdotf {s0 : State} (th : Nat) (w : W32) (s : State) (hs : Keeps s0 s) :
    ∀ z, (execEdotf th w s) = .next z → Keeps s0 z := by
  intro z e
  unfold execEdotf at e
  try dsimp only at e
  first | (split at e <;> first | (injection e with e; subst e)) | (injection e with e; subst e) | skip
  repeat' (with_reducible first | assumption | apply keeps_illegal | apply keeps_onRegs | apply keeps_onThread | (intro _) | refine Keeps.ite ?_ ?_ | split | dsimp only | simp only [Keeps.upd_iff])

theorem keeps_execErescale {s0 : State} (th : Nat) (w : W32) (s : State) (hs : Keeps s0 s) :
    ∀ z, (execErescale th w s) = .next z → Keeps s0 z := by
  intro z e
  unfold execErescale at e
  try dsimp only at e
  first | (split at e <;> first | (injection e with e; subst e)) | (injection e with e; subst e) | skip
  repeat' (with_reducible first | assumption | apply keeps_illegal | apply keeps_onRegs | apply keeps_onThread | (intro _) | refine Keeps.ite ?_ ?_ | split | dsimp only | simp only [Keeps.upd_iff])

end Sys2Proof.Machine
end

