-- ==== Sys2Proof/Laws/KeepShortlist.lean ====
section
/-! SUPPORT. KeepShortlist: each operation of Machine/Shortlist.lean keeps the queue, the canonical form of memory and the
order of the free values (`Keeps`). -/
namespace Sys2Proof.Machine
set_option Elab.async false
set_option linter.all false

theorem keeps_countFlags {s0 : State} (fl : Nat) (s : State) (hs : Keeps s0 s) :
    Keeps s0 (countFlags fl s) := by
  unfold countFlags
  repeat' (with_reducible first | assumption | apply keeps_bump | apply keeps_whenS | split | dsimp only | simp only [Keeps.upd_iff])

theorem keeps_runOffers {s0 : State} (th : Nat) (w : W32) (es : List Ent) (s : State) (hs : Keeps s0 s) :
    Keeps s0 (runOffers th w es s) := by
  unfold runOffers
  repeat' (with_reducible first | assumption | apply keeps_countFlags | apply keeps_foldS | apply keeps_onThread | split | dsimp only | simp only [Keeps.upd_iff])

theorem keeps_execInsert {s0 : State} (th : Nat) (w : W32) (s : State) (hs : Keeps s0 s) :
    ∀ z, (execInsert th w s) = .next z → Keeps s0 z := by
  intro z e
  unfold execInsert at e
  try dsimp only at e
  first | (split at e <;> first | (injection e with e; subst e)) | (injection e with e; subst e) | skip
  repeat' (with_reducible first | assumption | apply keeps_illegal | apply keeps_onRegs | apply keeps_runOffers | (intro _) | refine Keeps.ite ?_ ?_ | split | dsimp only | simp only [Keeps.upd_iff])

theorem keeps_execInsertv {s0 : State} (th : Nat) (w : W32) (s : State) (hs : Keeps s0 s) :
    ∀ z, (execInsertv th w s) = .next z → Keeps s0 z := by
  intro z e
  unfold execInsertv at e
  try dsimp only at e
  first | (split at e <;> first | (injection e with e; subst e)) | (injection e with e; subst e) | skip
  repeat' (with_reducible first | assumption | apply keeps_illegal | apply keeps_onRegs | apply keeps_runOffers | (intro _) | refine Keeps.ite ?_ ?_ | split | dsimp only | simp only [Keeps.upd_iff])

theorem keeps_execEslReset {s0 : State} (th : Nat) (w : W32) (s : State) (hs : Keeps s0 s) :
    ∀ z, (execEslReset th w s) = .next z → Keeps s0 z := by
  intro z e
  unfold execEslReset at e
  try dsimp only at e
  first | (split at e <;> first | (injection e with e; subst e)) | (injection e with e; subst e) | skip
  repeat' (with_reducible first | assumption | apply keeps_illegal | apply keeps_onRegs | apply keeps_onThread | (intro _) | refine Keeps.ite ?_ ?_ | split | dsimp only | simp only [Keeps.upd_iff])

theorem keeps_storeOwn {s0 : State} (th : Nat) (a : Nat) (b : Bytes) (s : State) (hs : Keeps s0 s) :
    Keeps s0 (storeOwn th a b s).2 := by
  unfold storeOwn
  repeat' (with_reducible first | assumption | apply keeps_demandWrite | split | dsimp only | simp only [Keeps.upd_iff])

theorem keeps_execDrain {s0 : State} (th : Nat) (w : W32) (s : State) (hs : Keeps s0 s) :
    ∀ z, (execDrain th w s) = .next z → Keeps s0 z := by
  intro z e
  unfold execDrain at e
  try dsimp only at e
  first | (split at e <;> first | (injection e with e; subst e)) | (injection e with e; subst e) | skip
  repeat' (with_reducible first | assumption | apply keeps_illegal | apply keeps_onRegs | apply keeps_onThread | apply keeps_storeOwn | apply keeps_takeFault | (intro _) | refine Keeps.ite ?_ ?_ | split | dsimp only | simp only [Keeps.upd_iff])

theorem keeps_execFloor {s0 : State} (th : Nat) (w : W32) (s : State) (hs : Keeps s0 s) :
    ∀ z, (execFloor th w s) = .next z → Keeps s0 z := by
  intro z e
  unfold execFloor at e
  try dsimp only at e
  first | (split at e <;> first | (injection e with e; subst e)) | (injection e with e; subst e) | skip
  repeat' (with_reducible first | assumption | apply keeps_illegal | apply keeps_onRegs | apply keeps_onThread | (intro _) | refine Keeps.ite ?_ ?_ | split | dsimp only | simp only [Keeps.upd_iff])

theorem keeps_mergeGood {s0 : State} (d : MDesc) (xa : List Ent) (xb : List Ent) (s : State) (hs : Keeps s0 s) :
    Keeps s0 (mergeGood d xa xb s).st := by
  unfold mergeGood
  repeat' (with_reducible first | assumption | apply keeps_bump | apply keeps_whenS | split | dsimp only | simp only [Keeps.upd_iff])

theorem keeps_mergeStopped {s0 : State} (d : MDesc) (xa : List Ent) (xb : List Ent) (s : State) (hs : Keeps s0 s) :
    Keeps s0 (mergeStopped d xa xb s).st := by
  unfold mergeStopped
  repeat' (with_reducible first | assumption | apply keeps_bump | apply keeps_draw | apply keeps_whenS | split | dsimp only | simp only [Keeps.upd_iff])

theorem keeps_mergeRun {s0 : State} (d : MDesc) (xa : List Ent) (xb : List Ent) (s : State) (hs : Keeps s0 s) :
    Keeps s0 (mergeRun d xa xb s).st := by
  unfold mergeRun
  repeat' (with_reducible first | assumption | apply keeps_mergeGood | apply keeps_mergeStopped | split | dsimp only | simp only [Keeps.upd_iff])

theorem keeps_readAll {s0 : State} (w : Who) (rs : List (Nat × Nat)) (s : State) (hs : Keeps s0 s) :
    Keeps s0 (readAll w rs s).2 := by
  unfold readAll
  repeat' (with_reducible first | assumption | exact Keeps.refl _ | apply keeps_demandRead | (intro _) | refine Keeps.snd (by assumption) ?_ | refine Keeps.snd3 (by assumption) ?_ | refine Keeps.snd4 (by assumption) ?_ | refine Keeps.some1 (by assumption) ?_ | refine Keeps.some2 (by assumption) ?_ | refine Keeps.some3 (by assumption) ?_ | refine Keeps.fst (by assumption) ?_ | refine Keeps.getD ?_ ?_ | refine Keeps.elim ?_ ?_ | refine Keeps.elim2 ?_ ?_ | refine Keeps.foldl ?_ ?_ | refine Keeps.foldl2 ?_ ?_ | refine Keeps.foldl3 ?_ ?_ | refine Keeps.ite ?_ ?_ | refine Keeps.ite2 ?_ ?_ | refine Keeps.ite3 ?_ ?_ | split | dsimp only | simp only [Keeps.upd_iff, List.length_map] | simp only [Keeps.upd_iff, length_updFirst] | simp only [Keeps.upd_iff])

theorem keeps_runMerge {s0 : State} (th : Nat) (w : W32) (d : MDesc) (a : Nat) (b : Nat) (c : Nat) (va : Nat) (s : State) (hs : Keeps s0 s) :
    Keeps s0 (runMerge th w d a b c va s) := by
  unfold runMerge
  repeat' (with_reducible first | assumption | apply keeps_mergeRun | apply keeps_onThread | apply keeps_readAll | apply keeps_storeOwn | apply keeps_takeFault | refine Keeps.foldlOf MOut.st ?_ ?_ | split | dsimp only | simp only [Keeps.upd_iff])

theorem keeps_execEslmrg {s0 : State} (th : Nat) (w : W32) (s : State) (hs : Keeps s0 s) :
    ∀ z, (execEslmrg th w s) = .next z → Keeps s0 z := by
  intro z e
  unfold execEslmrg at e
  try dsimp only at e
  first | (split at e <;> first | (injection e with e; subst e)) | (injection e with e; subst e) | skip
  repeat' (with_reducible first | assumption | apply keeps_demandRead | apply keeps_illegal | apply keeps_onRegs | apply keeps_runMerge | apply keeps_takeFault | (intro _) | refine Keeps.ite ?_ ?_ | split | dsimp only | simp only [Keeps.upd_iff])

theorem keeps_execEcompact {s0 : State} (th : Nat) (w : W32) (s : State) (hs : Keeps s0 s) :
    ∀ z, (execEcompact th w s) = .next z → Keeps s0 z := by
  intro z e
  unfold execEcompact at e
  try dsimp only at e
  first | (split at e <;> first | (injection e with e; subst e)) | (injection e with e; subst e) | skip
  repeat' (with_reducible first | assumption | apply keeps_bumpBy | apply keeps_illegal | apply keeps_onRegs | apply keeps_onThread | apply keeps_whenS | (intro _) | refine Keeps.ite ?_ ?_ | split | dsimp only | simp only [Keeps.upd_iff])

end Sys2Proof.Machine
end

