-- ==== Sys2Proof/Laws/KeepCorpOps.lean ====
section
/-! SUPPORT. KeepCorpOps: each operation of Machine/CorpOps.lean keeps the queue, the canonical form of memory and the
order of the free values (`Keeps`). -/
namespace Sys2Proof.Machine
set_option Elab.async false
set_option linter.all false

theorem keeps_onCorpus {s0 : State} (t : Nat) (c : Nat) (f : Corp → Corp) (s : State) (hs : Keeps s0 s) :
    Keeps s0 (onCorpus t c f s) := by
  unfold onCorpus
  repeat' (with_reducible first | assumption | split | dsimp only | simp only [Keeps.upd_iff])

theorem keeps_corpBump {s0 : State} (c : Corp) (sub : Nat) (n : Nat) (s : State) (hs : Keeps s0 s) :
    Keeps s0 (corpBump c sub n s) := by
  unfold corpBump
  repeat' (with_reducible first | assumption | apply keeps_bumpBy | apply keeps_optS | (intro _) | refine Keeps.ite ?_ ?_ | split | dsimp only | simp only [Keeps.upd_iff])

theorem keeps_putBytes {s0 : State} (a : Nat) (b : Bytes) (s : State) (hs : Keeps s0 s) :
    Keeps s0 (putBytes a b s) := by
  unfold putBytes
  repeat' (with_reducible first | assumption | apply keeps_freshCheck | apply keeps_memWrite | split | dsimp only | simp only [Keeps.upd_iff])

theorem keeps_storeSlot {s0 : State} (c : Corp) (k : Nat) (z : CSlot) (s : State) (hs : Keeps s0 s) :
    Keeps s0 (storeSlot c k z s) := by
  unfold storeSlot
  repeat' (with_reducible first | assumption | apply keeps_putBytes | split | dsimp only | simp only [Keeps.upd_iff])

theorem keeps_clearSlot {s0 : State} (c : Corp) (k : Nat) (s : State) (hs : Keeps s0 s) :
    Keeps s0 (clearSlot c k s) := by
  unfold clearSlot
  repeat' (with_reducible first | assumption | apply keeps_putBytes | split | dsimp only | simp only [Keeps.upd_iff])

theorem keeps_readSlot {s0 : State} (w : Who) (c : Corp) (k : Nat) (z : CSlot) (s : State) (hs : Keeps s0 s) :
    Keeps s0 (readSlot w c k z s).2.2.2 := by
  refine Keeps.of4 (readSlot.eq_1 w c k z s) ?_
  apply keeps_demandRead
  exact Keeps.ite2 (fun _ => hs) (fun _ => keeps_demandRead _ _ _ _ hs)

theorem keeps_allocRun {s0 : State} (t : Nat) (n : Nat) (s : State) (hs : Keeps s0 s) :
    ∀ r, (allocRun t n s) = some r → Keeps s0 r.2 := by
  intro r e
  simp only [allocRun, Option.map_eq_some_iff] at e
  obtain ⟨p, -, rfl⟩ := e
  exact keeps_draw _ hs

theorem keeps_showCorpus {s0 : State} (t : Nat) (c : Nat) (s : State) (hs : Keeps s0 s) :
    Keeps s0 (showCorpus t c s) := by
  unfold showCorpus
  repeat' (with_reducible first | assumption | apply keeps_dirSet | apply keeps_optS | (intro _) | refine Keeps.ite ?_ ?_ | split | dsimp only | simp only [Keeps.upd_iff])

theorem keeps_mapSlots {s0 : State} (p : Corp → Nat → Bool) (f : CSlot → CSlot) (s : State) (hs : Keeps s0 s) :
    Keeps s0 (mapSlots p f s) := by
  unfold mapSlots
  repeat' (with_reducible first | assumption | split | dsimp only | simp only [Keeps.upd_iff])

theorem keeps_corpusFaultAt {s0 : State} (k : Nat) (bank : Nat) (r : Nat) (s : State) (hs : Keeps s0 s) :
    Keeps s0 (corpusFaultAt k bank r s) := by
  unfold corpusFaultAt
  repeat' (with_reducible first | assumption | apply keeps_mapSlots | split | dsimp only | simp only [Keeps.upd_iff])

theorem keeps_reloadSketches {s0 : State} (s : State) (hs : Keeps s0 s) :
    Keeps s0 (reloadSketches s) := by
  unfold reloadSketches
  repeat' (with_reducible first | assumption | apply keeps_foldS | apply keeps_mapSlots | apply keeps_showCorpus | (intro _) | refine Keeps.ite ?_ ?_ | split | dsimp only | simp only [Keeps.upd_iff])

theorem keeps_corpusBankOut {s0 : State} (k : Nat) (bank : Nat) (s : State) (hs : Keeps s0 s) :
    Keeps s0 (corpusBankOut k bank s) := by
  unfold corpusBankOut
  repeat' (with_reducible first | assumption | apply keeps_foldS | apply keeps_mapSlots | apply keeps_showCorpus | (intro _) | refine Keeps.ite ?_ ?_ | split | dsimp only | simp only [Keeps.upd_iff])

theorem keeps_corpusAfter {s0 : State} (k : Nat) (r : Nat) (before : State) (after : State) (hbefore : Keeps s0 before) (hafter : Keeps s0 after) :
    Keeps s0 (corpusAfter k r before after) := by
  unfold corpusAfter
  repeat' (with_reducible first | assumption | apply keeps_corpusBankOut | apply keeps_corpusFaultAt | apply keeps_foldS | (intro _) | refine Keeps.ite ?_ ?_ | split | dsimp only | simp only [Keeps.upd_iff])

end Sys2Proof.Machine
end

