-- ==== Sys2Proof/Laws/KeepSchedOps.lean ====
section
/-! SUPPORT. KeepSchedOps: each operation of Machine/SchedOps.lean keeps the queue, the canonical form of memory and the
order of the free values (`Keeps`). -/
namespace Sys2Proof.Machine
set_option Elab.async false
set_option linter.all false

theorem keeps_schedPut {s0 : State} (stream : Nat) (dest : Nat) (tenant : Nat) (tag : Nat) (address : Nat) (inl : Bytes) (data : Bytes) (after : Nat) (rid : Nat) (s : State) (hs : Keeps s0 s) :
    Keeps s0 (schedPut stream dest tenant tag address inl data after rid s) := by
  unfold schedPut
  repeat' (with_reducible first | assumption | split | dsimp only | simp only [Keeps.upd_iff])

theorem keeps_schedSend {s0 : State} (fn : Nat) (dest : Nat) (tenant : Nat) (tag : Nat) (address : Nat) (inl : Bytes) (data : Bytes) (rid : Nat) (s : State) (hs : Keeps s0 s) :
    ∀ r, (schedSend fn dest tenant tag address inl data rid s) = some r → Keeps s0 r := by
  intro r e
  unfold schedSend at e
  try dsimp only at e
  repeat' (split at e)
  all_goals first | contradiction | (injection e with e; subst e) | skip
  repeat' (with_reducible first | assumption | apply keeps_draw | apply keeps_schedPut | split | dsimp only | simp only [Keeps.upd_iff])

theorem keeps_sendIdle {s0 : State} (link : Nat) (slot : Nat) (detour : Bool) (stream : Nat) (s : State) (hs : Keeps s0 s) :
    Keeps s0 (sendIdle link slot detour stream s) := by
  unfold sendIdle
  repeat' (with_reducible first | assumption | apply keeps_fabSend | split | dsimp only | simp only [Keeps.upd_iff])

theorem keeps_treeInput {s0 : State} (root : Nat) (tag : Nat) (stage : Nat) (i : Nat) (m : TMsg) (s : State) (hs : Keeps s0 s) :
    Keeps s0 (treeInput root tag stage i m s) := by
  unfold treeInput
  repeat' (with_reducible first | assumption | split | dsimp only | simp only [Keeps.upd_iff])

theorem keeps_treeToOut {s0 : State} (k : Nat) (s : State) (hs : Keeps s0 s) :
    Keeps s0 (treeToOut k s) := by
  unfold treeToOut
  repeat' (with_reducible first | assumption | apply keeps_schedPut | split | dsimp only | simp only [Keeps.upd_iff])

theorem keeps_pruneOuts {s0 : State} (s : State) (hs : Keeps s0 s) :
    Keeps s0 (pruneOuts s) := by
  unfold pruneOuts
  repeat' (with_reducible first | assumption | split | dsimp only | simp only [Keeps.upd_iff])

theorem keeps_originLost {s0 : State} (k : Nat) (s : State) (hs : Keeps s0 s) :
    Keeps s0 (originLost k s) := by
  unfold originLost
  repeat' (with_reducible first | assumption | apply keeps_failReq | apply keeps_pruneOuts | apply keeps_treeToOut | split | dsimp only | simp only [Keeps.upd_iff])

theorem keeps_originSend {s0 : State} (link : Nat) (slot : Nat) (detour : Bool) (k : Nat) (f : Nat) (s : State) (hs : Keeps s0 s) :
    Keeps s0 (originSend link slot detour k f s) := by
  unfold originSend
  repeat' (with_reducible first | assumption | apply keeps_fabSend | apply keeps_pruneOuts | apply keeps_sendIdle | apply keeps_treeToOut | split | dsimp only | simp only [Keeps.upd_iff])

theorem keeps_takePiece {s0 : State} (m : FabMsg) (s : State) (hs : Keeps s0 s) :
    Keeps s0 (takePiece m s).2 := by
  unfold takePiece
  repeat' (with_reducible first | assumption | split | dsimp only | simp only [Keeps.upd_iff])

end Sys2Proof.Machine
end

