-- ==== Sys2Proof/Laws/KeepCircular.lean ====
section
/-! SUPPORT. KeepCircular: each operation of Machine/Circular.lean keeps the queue, the canonical form of memory and the
order of the free values (`Keeps`). -/
namespace Sys2Proof.Machine
set_option Elab.async false
set_option linter.all false

theorem keeps_onEngine {s0 : State} (th : Nat) (f : Nat → State → State) (s : State) (hf : ∀ y0 u, Keeps s0 u → Keeps s0 (f y0 u)) (hs : Keeps s0 s) :
    Keeps s0 (onEngine th f s) := by
  unfold onEngine
  repeat' (with_reducible first | assumption | apply keeps_onIssue | apply keeps_onThread | apply keeps_takeFault | apply hf | (intro _) | refine Keeps.ite ?_ ?_ | split | dsimp only | simp only [Keeps.upd_iff])

theorem keeps_execCload {s0 : State} (th : Nat) (k : Nat) (addr : Nat) (s : State) (hs : Keeps s0 s) :
    ∀ z, (execCload th k addr s) = .next z → Keeps s0 z := by
  intro z e
  unfold execCload at e
  try dsimp only at e
  first | (split at e <;> first | (injection e with e; subst e)) | (injection e with e; subst e) | skip
  repeat' (with_reducible first | assumption | apply keeps_cloadReg | apply keeps_onEngine | (intro _) | refine Keeps.ite ?_ ?_ | split | dsimp only | simp only [Keeps.upd_iff])

theorem keeps_loadDone {s0 : State} (k : Nat) (s : State) (hs : Keeps s0 s) :
    Keeps s0 (loadDone k s) := by
  unfold loadDone
  repeat' (with_reducible first | assumption | exact Keeps.refl _ | apply keeps_bump | apply keeps_checkLoad | apply keeps_failReq | apply keeps_mirrorCstat | apply keeps_onSeqr | (intro _) | refine Keeps.snd (by assumption) ?_ | refine Keeps.snd3 (by assumption) ?_ | refine Keeps.snd4 (by assumption) ?_ | refine Keeps.some1 (by assumption) ?_ | refine Keeps.some2 (by assumption) ?_ | refine Keeps.some3 (by assumption) ?_ | refine Keeps.fst (by assumption) ?_ | refine Keeps.ite ?_ ?_ | refine Keeps.ite2 ?_ ?_ | refine Keeps.ite3 ?_ ?_ | split | dsimp only | simp only [Keeps.upd_iff, List.length_map] | simp only [Keeps.upd_iff, length_updFirst] | simp only [Keeps.upd_iff])

theorem keeps_execCircularLoadDone {s0 : State} (k : Nat) (s : State) (hs : Keeps s0 s) :
    ∀ z, (execCircularLoadDone k s) = .next z → Keeps s0 z := by
  intro z e
  unfold execCircularLoadDone at e
  try dsimp only at e
  first | (split at e <;> first | (injection e with e; subst e)) | (injection e with e; subst e) | skip
  repeat' (with_reducible first | assumption | apply keeps_loadDone | split | dsimp only | simp only [Keeps.upd_iff])

theorem keeps_execCstart {s0 : State} (th : Nat) (v : Nat) (s : State) (hs : Keeps s0 s) :
    ∀ z, (execCstart th v s) = .next z → Keeps s0 z := by
  intro z e
  unfold execCstart at e
  try dsimp only at e
  first | (split at e <;> first | (injection e with e; subst e)) | (injection e with e; subst e) | skip
  repeat' (with_reducible first | assumption | apply keeps_cstartReg | apply keeps_onEngine | (intro _) | refine Keeps.ite ?_ ?_ | split | dsimp only | simp only [Keeps.upd_iff])

theorem keeps_execCabort {s0 : State} (th : Nat) (k : Nat) (v : Nat) (s : State) (hs : Keeps s0 s) :
    ∀ z, (execCabort th k v s) = .next z → Keeps s0 z := by
  intro z e
  unfold execCabort at e
  try dsimp only at e
  first | (split at e <;> first | (injection e with e; subst e)) | (injection e with e; subst e) | skip
  repeat' (with_reducible first | assumption | apply keeps_cabortReg | apply keeps_onEngine | (intro _) | refine Keeps.ite ?_ ?_ | split | dsimp only | simp only [Keeps.upd_iff])

theorem keeps_launch {s0 : State} (k : Nat) (c : Circ) (s : State) (hs : Keeps s0 s) :
    Keeps s0 (launch k c s) := by
  unfold launch
  repeat' (with_reducible first | assumption | apply keeps_bumpBy | apply keeps_compStop | apply keeps_mirrorCstat | apply keeps_onSeqr | split | dsimp only | simp only [Keeps.upd_iff])

theorem keeps_execCircularLaunch {s0 : State} (k : Nat) (s : State) (hs : Keeps s0 s) :
    ∀ z, (execCircularLaunch k s) = .next z → Keeps s0 z := by
  intro z e
  unfold execCircularLaunch at e
  try dsimp only at e
  first | (split at e <;> first | (injection e with e; subst e)) | (injection e with e; subst e) | skip
  repeat' (with_reducible first | assumption | apply keeps_launch | apply keeps_touchStack | split | dsimp only | simp only [Keeps.upd_iff])

theorem keeps_sealedPairs {s0 : State} (k : Nat) (rows : List Nat) (s : State) (hs : Keeps s0 s) :
    Keeps s0 (sealedPairs k rows s) := by
  unfold sealedPairs
  repeat' (with_reducible first | assumption | apply keeps_corpusFaultAt | apply keeps_foldS | (intro _) | refine Keeps.ite ?_ ?_ | split | dsimp only | simp only [Keeps.upd_iff])

theorem keeps_endProg {s0 : State} (k : Nat) (c : Circ) (s : State) (hs : Keeps s0 s) :
    Keeps s0 (endProg k c s) := by
  unfold endProg
  repeat' (with_reducible first | assumption | apply keeps_bump | apply keeps_endSealOp | apply keeps_onSeqr | apply keeps_sealedPairs | apply keeps_stopCirc | split | dsimp only | simp only [Keeps.upd_iff])

theorem keeps_execMicEnd {s0 : State} (k : Nat) (s : State) (hs : Keeps s0 s) :
    ∀ z, (execMicEnd k s) = .next z → Keeps s0 z := by
  intro z e
  unfold execMicEnd at e
  try dsimp only at e
  first | (split at e <;> first | (injection e with e; subst e)) | (injection e with e; subst e) | skip
  repeat' (with_reducible first | assumption | apply keeps_endProg | apply keeps_issueMic | (intro _) | refine Keeps.ite ?_ ?_ | split | dsimp only | simp only [Keeps.upd_iff])

theorem keeps_execMicStep {s0 : State} (k : Nat) (s : State) (hs : Keeps s0 s) :
    ∀ z, (execMicStep k s) = .next z → Keeps s0 z := by
  intro z e
  unfold execMicStep at e
  try dsimp only at e
  first | (split at e <;> first | (injection e with e; subst e)) | (injection e with e; subst e) | skip
  repeat' (with_reducible first | assumption | apply keeps_issueMic | apply keeps_stepBoundary | (intro _) | refine Keeps.ite ?_ ?_ | split | dsimp only | simp only [Keeps.upd_iff])

theorem keeps_startLoop {s0 : State} (k : Nat) (m : Mic) (s : State) (hs : Keeps s0 s) :
    Keeps s0 (startLoop k m s) := by
  unfold startLoop
  repeat' (with_reducible first | assumption | apply keeps_onSeqr | split | dsimp only | simp only [Keeps.upd_iff])

theorem keeps_execMicRepeat {s0 : State} (k : Nat) (s : State) (hs : Keeps s0 s) :
    ∀ z, (execMicRepeat k s) = .next z → Keeps s0 z := by
  intro z e
  unfold execMicRepeat at e
  try dsimp only at e
  first | (split at e <;> first | (injection e with e; subst e)) | (injection e with e; subst e) | skip
  repeat' (with_reducible first | assumption | apply keeps_issueMic | apply keeps_startLoop | (intro _) | refine Keeps.ite ?_ ?_ | split | dsimp only | simp only [Keeps.upd_iff])

theorem keeps_execMicLd {s0 : State} (k : Nat) (s : State) (hs : Keeps s0 s) :
    ∀ z, (execMicLd k s) = .next z → Keeps s0 z := by
  intro z e
  unfold execMicLd at e
  try dsimp only at e
  first | (split at e <;> first | (injection e with e; subst e)) | (injection e with e; subst e) | skip
  repeat' (with_reducible first | assumption | apply keeps_bankMic | apply keeps_latchOp | split | dsimp only | simp only [Keeps.upd_iff])

theorem keeps_execMicAnd {s0 : State} (k : Nat) (s : State) (hs : Keeps s0 s) :
    ∀ z, (execMicAnd k s) = .next z → Keeps s0 z := by
  intro z e
  unfold execMicAnd at e
  try dsimp only at e
  first | (split at e <;> first | (injection e with e; subst e)) | (injection e with e; subst e) | skip
  repeat' (with_reducible first | assumption | apply keeps_bankMic | apply keeps_latchOp | split | dsimp only | simp only [Keeps.upd_iff])

theorem keeps_execMicOr {s0 : State} (k : Nat) (s : State) (hs : Keeps s0 s) :
    ∀ z, (execMicOr k s) = .next z → Keeps s0 z := by
  intro z e
  unfold execMicOr at e
  try dsimp only at e
  first | (split at e <;> first | (injection e with e; subst e)) | (injection e with e; subst e) | skip
  repeat' (with_reducible first | assumption | apply keeps_bankMic | apply keeps_latchOp | split | dsimp only | simp only [Keeps.upd_iff])

theorem keeps_execMicXor {s0 : State} (k : Nat) (s : State) (hs : Keeps s0 s) :
    ∀ z, (execMicXor k s) = .next z → Keeps s0 z := by
  intro z e
  unfold execMicXor at e
  try dsimp only at e
  first | (split at e <;> first | (injection e with e; subst e)) | (injection e with e; subst e) | skip
  repeat' (with_reducible first | assumption | apply keeps_bankMic | apply keeps_latchOp | split | dsimp only | simp only [Keeps.upd_iff])

theorem keeps_execMicXnor {s0 : State} (k : Nat) (s : State) (hs : Keeps s0 s) :
    ∀ z, (execMicXnor k s) = .next z → Keeps s0 z := by
  intro z e
  unfold execMicXnor at e
  try dsimp only at e
  first | (split at e <;> first | (injection e with e; subst e)) | (injection e with e; subst e) | skip
  repeat' (with_reducible first | assumption | apply keeps_bankMic | apply keeps_latchOp | split | dsimp only | simp only [Keeps.upd_iff])

theorem keeps_execMicAndn {s0 : State} (k : Nat) (s : State) (hs : Keeps s0 s) :
    ∀ z, (execMicAndn k s) = .next z → Keeps s0 z := by
  intro z e
  unfold execMicAndn at e
  try dsimp only at e
  first | (split at e <;> first | (injection e with e; subst e)) | (injection e with e; subst e) | skip
  repeat' (with_reducible first | assumption | apply keeps_bankMic | apply keeps_latchOp | split | dsimp only | simp only [Keeps.upd_iff])

theorem keeps_execMicNot {s0 : State} (k : Nat) (s : State) (hs : Keeps s0 s) :
    ∀ z, (execMicNot k s) = .next z → Keeps s0 z := by
  intro z e
  unfold execMicNot at e
  try dsimp only at e
  first | (split at e <;> first | (injection e with e; subst e)) | (injection e with e; subst e) | skip
  repeat' (with_reducible first | assumption | apply keeps_bankMic | apply keeps_latchOp | split | dsimp only | simp only [Keeps.upd_iff])

theorem keeps_execMicMaj {s0 : State} (k : Nat) (s : State) (hs : Keeps s0 s) :
    ∀ z, (execMicMaj k s) = .next z → Keeps s0 z := by
  intro z e
  unfold execMicMaj at e
  try dsimp only at e
  first | (split at e <;> first | (injection e with e; subst e)) | (injection e with e; subst e) | skip
  repeat' (with_reducible first | assumption | apply keeps_bankMic | apply keeps_latchOp | split | dsimp only | simp only [Keeps.upd_iff])

theorem keeps_execMicFillq {s0 : State} (k : Nat) (s : State) (hs : Keeps s0 s) :
    ∀ z, (execMicFillq k s) = .next z → Keeps s0 z := by
  intro z e
  unfold execMicFillq at e
  try dsimp only at e
  first | (split at e <;> first | (injection e with e; subst e)) | (injection e with e; subst e) | skip
  repeat' (with_reducible first | assumption | apply keeps_bankMic | apply keeps_latchOp | split | dsimp only | simp only [Keeps.upd_iff])

theorem keeps_execMicFillt {s0 : State} (k : Nat) (s : State) (hs : Keeps s0 s) :
    ∀ z, (execMicFillt k s) = .next z → Keeps s0 z := by
  intro z e
  unfold execMicFillt at e
  try dsimp only at e
  first | (split at e <;> first | (injection e with e; subst e)) | (injection e with e; subst e) | skip
  repeat' (with_reducible first | assumption | apply keeps_bankMic | apply keeps_latchOp | split | dsimp only | simp only [Keeps.upd_iff])

theorem keeps_execMicWr {s0 : State} (k : Nat) (s : State) (hs : Keeps s0 s) :
    ∀ z, (execMicWr k s) = .next z → Keeps s0 z := by
  intro z e
  unfold execMicWr at e
  try dsimp only at e
  first | (split at e <;> first | (injection e with e; subst e)) | (injection e with e; subst e) | skip
  repeat' (with_reducible first | assumption | apply keeps_bankMic | apply keeps_wrOp | (intro _) | refine Keeps.ite ?_ ?_ | split | dsimp only | simp only [Keeps.upd_iff])

theorem keeps_execMicRchk {s0 : State} (k : Nat) (s : State) (hs : Keeps s0 s) :
    ∀ z, (execMicRchk k s) = .next z → Keeps s0 z := by
  intro z e
  unfold execMicRchk at e
  try dsimp only at e
  first | (split at e <;> first | (injection e with e; subst e)) | (injection e with e; subst e) | skip
  repeat' (with_reducible first | assumption | apply keeps_bankMic | apply keeps_corpusAfter | apply keeps_rchkOp | (intro _) | refine Keeps.ite ?_ ?_ | split | dsimp only | simp only [Keeps.upd_iff])

theorem keeps_execMicSeal {s0 : State} (k : Nat) (s : State) (hs : Keeps s0 s) :
    ∀ z, (execMicSeal k s) = .next z → Keeps s0 z := by
  intro z e
  unfold execMicSeal at e
  try dsimp only at e
  first | (split at e <;> first | (injection e with e; subst e)) | (injection e with e; subst e) | skip
  repeat' (with_reducible first | assumption | apply keeps_bankMic | apply keeps_sealOp | (intro _) | refine Keeps.ite ?_ ?_ | split | dsimp only | simp only [Keeps.upd_iff])

theorem keeps_execMicSealc {s0 : State} (k : Nat) (s : State) (hs : Keeps s0 s) :
    ∀ z, (execMicSealc k s) = .next z → Keeps s0 z := by
  intro z e
  unfold execMicSealc at e
  try dsimp only at e
  first | (split at e <;> first | (injection e with e; subst e)) | (injection e with e; subst e) | skip
  repeat' (with_reducible first | assumption | apply keeps_bankMic | apply keeps_sealcOp | apply keeps_sealedPairs | (intro _) | refine Keeps.ite ?_ ?_ | split | dsimp only | simp only [Keeps.upd_iff])

theorem keeps_limitBanks {s0 : State} (k : Nat) (s : State) (hs : Keeps s0 s) :
    Keeps s0 (limitBanks k s) := by
  unfold limitBanks
  repeat' (with_reducible first | assumption | apply keeps_bankOut | apply keeps_foldS | (intro _) | refine Keeps.ite ?_ ?_ | split | dsimp only | simp only [Keeps.upd_iff])

theorem keeps_circRequest {s0 : State} (k : Nat) (c : Circ) (s : State) (hs : Keeps s0 s) :
    Keeps s0 (circRequest k c s) := by
  unfold circRequest
  repeat' (with_reducible first | assumption | apply keeps_failReq | split | dsimp only | simp only [Keeps.upd_iff])

theorem keeps_compactAll {s0 : State} (k : Nat) (c : Circ) (s : State) (hs : Keeps s0 s) :
    Keeps s0 (compactAll k c s).2 := by
  unfold compactAll
  repeat' (with_reducible first | assumption | exact Keeps.refl _ | apply keeps_compactBank | (intro _) | refine Keeps.snd (by assumption) ?_ | refine Keeps.snd3 (by assumption) ?_ | refine Keeps.snd4 (by assumption) ?_ | refine Keeps.some1 (by assumption) ?_ | refine Keeps.some2 (by assumption) ?_ | refine Keeps.some3 (by assumption) ?_ | refine Keeps.fst (by assumption) ?_ | refine Keeps.getD ?_ ?_ | refine Keeps.elim ?_ ?_ | refine Keeps.elim2 ?_ ?_ | refine Keeps.foldl ?_ ?_ | refine Keeps.foldl2 ?_ ?_ | refine Keeps.foldl3 ?_ ?_ | refine Keeps.ite ?_ ?_ | refine Keeps.ite2 ?_ ?_ | refine Keeps.ite3 ?_ ?_ | split | dsimp only | simp only [Keeps.upd_iff, List.length_map] | simp only [Keeps.upd_iff, length_updFirst] | simp only [Keeps.upd_iff])

theorem keeps_complete {s0 : State} (k : Nat) (c : Circ) (s : State) (hs : Keeps s0 s) :
    Keeps s0 (complete k c s) := by
  unfold complete
  repeat' (with_reducible first | assumption | apply keeps_bump | apply keeps_circRequest | apply keeps_closeCirc | apply keeps_compactAll | apply keeps_corpusAfter | apply keeps_dirSet | apply keeps_limitBanks | apply keeps_mirrorCstat | apply keeps_ringWrite | apply keeps_sendKnock | apply keeps_touchStack | apply keeps_whenS | split | dsimp only | simp only [Keeps.upd_iff])

theorem keeps_completionRecord {s0 : State} (k : Nat) (s : State) (hs : Keeps s0 s) :
    Keeps s0 (completionRecord k s) := by
  unfold completionRecord
  repeat' (with_reducible first | assumption | apply keeps_complete | split | dsimp only | simp only [Keeps.upd_iff])

theorem keeps_corpusStackOut {s0 : State} (k : Nat) (s : State) (hs : Keeps s0 s) :
    Keeps s0 (corpusStackOut k s) := by
  unfold corpusStackOut
  repeat' (with_reducible first | assumption | apply keeps_foldS | apply keeps_mapSlots | apply keeps_showCorpus | (intro _) | refine Keeps.ite ?_ ?_ | split | dsimp only | simp only [Keeps.upd_iff])

theorem keeps_execRefresh {s0 : State} (k : Nat) (s : State) (hs : Keeps s0 s) :
    ∀ z, (execRefresh k s) = .next z → Keeps s0 z := by
  intro z e
  unfold execRefresh at e
  try dsimp only at e
  first | (split at e <;> first | (injection e with e; subst e)) | (injection e with e; subst e) | skip
  repeat' (with_reducible first | assumption | apply keeps_onSeqr | split | dsimp only | simp only [Keeps.upd_iff])

theorem keeps_refreshWatchdog {s0 : State} (k : Nat) (s : State) (hs : Keeps s0 s) :
    Keeps s0 (refreshWatchdog k s) := by
  unfold refreshWatchdog
  repeat' (with_reducible first | assumption | apply keeps_corpusStackOut | apply keeps_raise | apply keeps_stackOut | apply keeps_stopCirc | split | dsimp only | simp only [Keeps.upd_iff])

theorem keeps_execRefreshIntervalChange {s0 : State} (k : Nat) (temp : Int) (s : State) (hs : Keeps s0 s) :
    ∀ z, (execRefreshIntervalChange k temp s) = .next z → Keeps s0 z := by
  intro z e
  unfold execRefreshIntervalChange at e
  try dsimp only at e
  first | (split at e <;> first | (injection e with e; subst e)) | (injection e with e; subst e) | skip
  repeat' (with_reducible first | assumption | apply keeps_dirSet | apply keeps_onSeqr | split | dsimp only | simp only [Keeps.upd_iff])

end Sys2Proof.Machine
end

