-- ==== Sys2Proof/Laws/KeepHxtOps.lean ====
section
/-! SUPPORT. KeepHxtOps: each operation of Machine/HxtOps.lean keeps the queue, the canonical form of memory and the
order of the free values (`Keeps`). -/
namespace Sys2Proof.Machine
set_option Elab.async false
set_option linter.all false

theorem keeps_pkDrop {s0 : State} (s : State) (hs : Keeps s0 s) :
    Keeps s0 (pkDrop s) := by
  unfold pkDrop
  repeat' (with_reducible first | assumption | apply keeps_bump | split | dsimp only | simp only [Keeps.upd_iff])

theorem keeps_onPacket {s0 : State} (p : Packet) (kind : Nat) (f : State → State) (s : State) (hf : ∀ u, Keeps s0 u → Keeps s0 (f u)) (hs : Keeps s0 s) :
    Keeps s0 (onPacket p kind f s) := by
  unfold onPacket
  repeat' (with_reducible first | assumption | apply keeps_bump | apply keeps_pkDrop | apply hf | split | dsimp only | simp only [Keeps.upd_iff])

theorem keeps_police {s0 : State} (t : Nat) (p : Packet) (seg0 : Nat) (s : State) (hs : Keeps s0 s) :
    Keeps s0 (police t p seg0 s).2 := by
  unfold police
  repeat' (with_reducible first | assumption | apply keeps_bump | apply keeps_whenS | split | dsimp only | simp only [Keeps.upd_iff])

theorem keeps_policedNote {s0 : State} (t : Nat) (red : Nat) (yellow : Nat) (s : State) (hs : Keeps s0 s) :
    Keeps s0 (policedNote t red yellow s) := by
  unfold policedNote
  repeat' (with_reducible first | assumption | apply keeps_trafficNote | split | dsimp only | simp only [Keeps.upd_iff])

theorem keeps_redDrop {s0 : State} (t : Nat) (s : State) (hs : Keeps s0 s) :
    Keeps s0 (redDrop t s) := by
  unfold redDrop
  repeat' (with_reducible first | assumption | apply keeps_bump | apply keeps_policedNote | split | dsimp only | simp only [Keeps.upd_iff])

theorem keeps_yellowDrop {s0 : State} (t : Nat) (s : State) (hs : Keeps s0 s) :
    Keeps s0 (yellowDrop t s) := by
  unfold yellowDrop
  repeat' (with_reducible first | assumption | apply keeps_bump | apply keeps_policedNote | split | dsimp only | simp only [Keeps.upd_iff])

theorem keeps_onAsm {s0 : State} (sid : Nat) (pm : Nat) (f : Asm → Asm) (s : State) (hs : Keeps s0 s) :
    Keeps s0 (onAsm sid pm f s) := by
  unfold onAsm
  repeat' (with_reducible first | assumption | split | dsimp only | simp only [Keeps.upd_iff])

theorem keeps_dropAsm {s0 : State} (sid : Nat) (pm : Nat) (s : State) (hs : Keeps s0 s) :
    Keeps s0 (dropAsm sid pm s) := by
  unfold dropAsm
  repeat' (with_reducible first | assumption | split | dsimp only | simp only [Keeps.upd_iff])

theorem keeps_endAsm {s0 : State} (a : Asm) (type : Nat) (status : Nat) (detail : Nat) (addr : Addr) (s : State) (hs : Keeps s0 s) :
    Keeps s0 (endAsm a type status detail addr s) := by
  unfold endAsm
  repeat' (with_reducible first | assumption | apply keeps_earlyReceipt | apply keeps_onAsm | split | dsimp only | simp only [Keeps.upd_iff])

theorem keeps_endWhole {s0 : State} (a : Asm) (type : Nat) (status : Nat) (detail : Nat) (s : State) (hs : Keeps s0 s) :
    Keeps s0 (endWhole a type status detail s) := by
  unfold endWhole
  repeat' (with_reducible first | assumption | apply keeps_dropAsm | apply keeps_endAsm | split | dsimp only | simp only [Keeps.upd_iff])

theorem keeps_queueFull {s0 : State} (a : Asm) (q : Nat) (type : Nat) (addr : Addr) (s : State) (hs : Keeps s0 s) :
    Keeps s0 (queueFull a q type addr s) := by
  unfold queueFull
  repeat' (with_reducible first | assumption | apply keeps_bump | apply keeps_endAsm | apply keeps_trafficNote | split | dsimp only | simp only [Keeps.upd_iff])

theorem keeps_makeReq {s0 : State} (x : Sess) (a : Asm) (m : Bytes) (s : State) (hs : Keeps s0 s) :
    Keeps s0 (makeReq x a m s) := by
  unfold makeReq
  repeat' (with_reducible first | assumption | apply keeps_dropAsm | split | dsimp only | simp only [Keeps.upd_iff])

theorem keeps_completeAsm {s0 : State} (x : Sess) (a : Asm) (m : Bytes) (s : State) (hs : Keeps s0 s) :
    Keeps s0 (completeAsm x a m s) := by
  unfold completeAsm
  repeat' (with_reducible first | assumption | apply keeps_bump | apply keeps_dropAsm | apply keeps_earlyReceipt | apply keeps_endWhole | apply keeps_makeReq | apply keeps_onSess | apply keeps_postReceipt | apply keeps_queueFull | apply keeps_whenS | split | dsimp only | simp only [Keeps.upd_iff])

end Sys2Proof.Machine
end

