-- ==== Sys2Proof/Laws/KeepTrafOps.lean ====
section
/-! SUPPORT. KeepTrafOps: each operation of Machine/TrafOps.lean keeps the queue, the canonical form of memory and the
order of the free values (`Keeps`). -/
namespace Sys2Proof.Machine
set_option Elab.async false
set_option linter.all false

theorem keeps_refillShaper {s0 : State} (t : Nat) (q : Nat) (s : State) (hs : Keeps s0 s) :
    Keeps s0 (refillShaper t q s) := by
  unfold refillShaper
  repeat' (with_reducible first | assumption | split | dsimp only | simp only [Keeps.upd_iff])

theorem keeps_refillPolicer {s0 : State} (t : Nat) (s : State) (hs : Keeps s0 s) :
    Keeps s0 (refillPolicer t s) := by
  unfold refillPolicer
  repeat' (with_reducible first | assumption | split | dsimp only | simp only [Keeps.upd_iff])

theorem keeps_refillTenant {s0 : State} (t : Nat) (s : State) (hs : Keeps s0 s) :
    Keeps s0 (refillTenant t s) := by
  unfold refillTenant
  repeat' (with_reducible first | assumption | apply keeps_foldS | apply keeps_refillPolicer | apply keeps_refillShaper | split | dsimp only | simp only [Keeps.upd_iff])

theorem keeps_switchGates {s0 : State} (p : Nat) (s : State) (hs : Keeps s0 s) :
    Keeps s0 (switchGates p s) := by
  unfold switchGates
  repeat' (with_reducible first | assumption | apply keeps_dirPut | apply keeps_dirSet | apply keeps_foldS | apply keeps_trafficNote | (intro _) | refine Keeps.ite ?_ ?_ | split | dsimp only | simp only [Keeps.upd_iff])

theorem keeps_sendPkt {s0 : State} (p : Nat) (k : OutPkt) (s : State) (hs : Keeps s0 s) :
    Keeps s0 (sendPkt p k s) := Keeps.of (u := s) hs rfl rfl (Nat.le_refl _) ⟨List.prefix_append _ _, List.prefix_refl _, List.prefix_refl _⟩ (fun k => ⟨k.records, k.halts, k.alerts, k.controller, k.security, k.sessions, k.trace⟩)

theorem keeps_markWaits {s0 : State} (p : Nat) (s : State) (hs : Keeps s0 s) :
    Keeps s0 (markWaits p s) := by
  unfold markWaits
  repeat' (with_reducible first | assumption | apply keeps_bump | apply keeps_foldS | (intro _) | refine Keeps.ite ?_ ?_ | split | dsimp only | simp only [Keeps.upd_iff])

theorem keeps_selectNext {s0 : State} (p : Nat) (s : State) (hs : Keeps s0 s) :
    Keeps s0 (selectNext p s) := by
  unfold selectNext
  repeat' (with_reducible first | assumption | apply keeps_markWaits | apply keeps_sendPkt | split | dsimp only | simp only [Keeps.upd_iff])

theorem keeps_histAdd {s0 : State} (obj : Nat) (bin : Nat) (s : State) (hs : Keeps s0 s) :
    Keeps s0 (histAdd obj bin s) := by
  unfold histAdd
  repeat' (with_reducible first | assumption | apply keeps_dirPut | split | dsimp only | simp only [Keeps.upd_iff])

theorem keeps_sampleQueue {s0 : State} (t : Nat) (q : Nat) (s : State) (hs : Keeps s0 s) :
    Keeps s0 (sampleQueue t q s) := by
  unfold sampleQueue
  repeat' (with_reducible first | assumption | apply keeps_histAdd | split | dsimp only | simp only [Keeps.upd_iff])

theorem keeps_clearHist {s0 : State} (t : Nat) (q : Nat) (s : State) (hs : Keeps s0 s) :
    Keeps s0 (clearHist t q s) := by
  unfold clearHist
  repeat' (with_reducible first | assumption | apply keeps_dirPut | apply keeps_foldS | (intro _) | refine Keeps.ite ?_ ?_ | split | dsimp only | simp only [Keeps.upd_iff])

theorem keeps_noticeQueue {s0 : State} (tq : Nat) (s : State) (hs : Keeps s0 s) :
    Keeps s0 (noticeQueue tq s) := by
  unfold noticeQueue
  repeat' (with_reducible first | assumption | apply keeps_thresholdNote | split | dsimp only | simp only [Keeps.upd_iff])

theorem keeps_queueNotes {s0 : State} (s : State) (hs : Keeps s0 s) :
    Keeps s0 (queueNotes s) := by
  unfold queueNotes
  repeat' (with_reducible first | assumption | apply keeps_foldS | apply keeps_noticeQueue | split | dsimp only | simp only [Keeps.upd_iff])

theorem keeps_passCycle {s0 : State} (s : State) (hs : Keeps s0 s) :
    Keeps s0 (passCycle s) := by
  unfold passCycle
  repeat' (with_reducible first | assumption | apply keeps_queueNotes | split | dsimp only | simp only [Keeps.upd_iff])

theorem keeps_onPort {s0 : State} (p : Nat) (f : PortSt → PortSt) (s : State) (hs : Keeps s0 s) :
    Keeps s0 (onPort p f s) := by
  unfold onPort
  repeat' (with_reducible first | assumption | split | dsimp only | simp only [Keeps.upd_iff])

theorem keeps_losePort {s0 : State} (p : Nat) (s : State) (hs : Keeps s0 s) :
    Keeps s0 (losePort p s) := by
  unfold losePort
  repeat' (with_reducible first | assumption | apply keeps_bumpBy | split | dsimp only | simp only [Keeps.upd_iff])

theorem keeps_portDown {s0 : State} (p : Nat) (s : State) (hs : Keeps s0 s) :
    Keeps s0 (portDown p s) := by
  unfold portDown
  repeat' (with_reducible first | assumption | apply keeps_bump | apply keeps_dirSet | apply keeps_losePort | apply keeps_onPort | apply keeps_record | split | dsimp only | simp only [Keeps.upd_iff])

theorem keeps_portsOff {s0 : State} (s : State) (hs : Keeps s0 s) :
    Keeps s0 (portsOff s) := by
  unfold portsOff
  repeat' (with_reducible first | assumption | apply keeps_dirSet | apply keeps_foldS | apply keeps_losePort | (intro _) | refine Keeps.ite ?_ ?_ | split | dsimp only | simp only [Keeps.upd_iff])

theorem keeps_showPorts {s0 : State} (port : Nat) (s : State) (hs : Keeps s0 s) :
    Keeps s0 (showPorts port s) := by
  unfold showPorts
  repeat' (with_reducible first | assumption | apply keeps_dirSet | apply keeps_foldS | (intro _) | refine Keeps.ite ?_ ?_ | split | dsimp only | simp only [Keeps.upd_iff])

theorem keeps_takeArrangement {s0 : State} (port : Nat) (s : State) (hs : Keeps s0 s) :
    Keeps s0 (takeArrangement port s) := by
  unfold takeArrangement
  repeat' (with_reducible first | assumption | apply keeps_showPorts | split | dsimp only | simp only [Keeps.upd_iff])

theorem keeps_portRise {s0 : State} (p : Nat) (s : State) (hs : Keeps s0 s) :
    Keeps s0 (portRise p s) := by
  unfold portRise
  repeat' (with_reducible first | assumption | apply keeps_dirSet | apply keeps_foldS | apply keeps_sendFreshNotes | apply keeps_takeArrangement | (intro _) | refine Keeps.ite ?_ ?_ | split | dsimp only | simp only [Keeps.upd_iff])

theorem keeps_onTenant {s0 : State} (t : Nat) (f : TenantSt → TenantSt) (s : State) (hs : Keeps s0 s) :
    Keeps s0 (onTenant t f s) := by
  unfold onTenant
  repeat' (with_reducible first | assumption | split | dsimp only | simp only [Keeps.upd_iff])

theorem keeps_askReset {s0 : State} (t : Nat) (f : Nat) (s : State) (hs : Keeps s0 s) :
    Keeps s0 (askReset t f s) := by
  unfold askReset
  repeat' (with_reducible first | assumption | apply keeps_onTenant | split | dsimp only | simp only [Keeps.upd_iff])

theorem keeps_writeEnabled {s0 : State} (t : Nat) (v : Nat) (s : State) (hs : Keeps s0 s) :
    Keeps s0 (writeEnabled t v s) := by
  unfold writeEnabled
  repeat' (with_reducible first | assumption | apply keeps_askReset | apply keeps_onTenant | split | dsimp only | simp only [Keeps.upd_iff])

end Sys2Proof.Machine
end

