-- ==== Sys2Proof/Laws/KeepSearchOps.lean ====
section
/-! SUPPORT. KeepSearchOps: each operation of Machine/SearchOps.lean keeps the queue, the canonical form of memory and the
order of the free values (`Keeps`). -/
namespace Sys2Proof.Machine
set_option Elab.async false
set_option linter.all false

theorem keeps_newPart {s0 : State} (p : Part) (s : State) (hs : Keeps s0 s) :
    Keeps s0 (newPart p s) := by
  unfold newPart
  repeat' (with_reducible first | assumption | split | dsimp only | simp only [Keeps.upd_iff])

theorem keeps_onPart {s0 : State} (id : Nat) (f : Part → Part) (s : State) (hs : Keeps s0 s) :
    Keeps s0 (onPart id f s) := by
  unfold onPart
  repeat' (with_reducible first | assumption | split | dsimp only | simp only [Keeps.upd_iff])

theorem keeps_dropPart {s0 : State} (id : Nat) (s : State) (hs : Keeps s0 s) :
    Keeps s0 (dropPart id s) := by
  unfold dropPart
  repeat' (with_reducible first | assumption | apply keeps_killParcels | split | dsimp only | simp only [Keeps.upd_iff])

theorem keeps_pruneParts {s0 : State} (s : State) (hs : Keeps s0 s) :
    Keeps s0 (pruneParts s) := by
  unfold pruneParts
  repeat' (with_reducible first | assumption | apply keeps_dropPart | apply keeps_foldS | (intro _) | refine Keeps.ite ?_ ?_ | split | dsimp only | simp only [Keeps.upd_iff])

theorem keeps_setPass {s0 : State} (p : Pass) (s : State) (hs : Keeps s0 s) :
    Keeps s0 (setPass p s) := by
  unfold setPass
  repeat' (with_reducible first | assumption | apply keeps_foldS | apply keeps_touchStack | split | dsimp only | simp only [Keeps.upd_iff])

theorem keeps_sweepPass {s0 : State} (p : Part) (c : Corp) (tile : Nat) (s : State) (hs : Keeps s0 s) :
    Keeps s0 (sweepPass p c tile s) := by
  unfold sweepPass
  repeat' (with_reducible first | assumption | apply keeps_setPass | split | dsimp only | simp only [Keeps.upd_iff])

theorem keeps_patchPass {s0 : State} (c : Corp) (reg : Nat) (s : State) (hs : Keeps s0 s) :
    Keeps s0 (patchPass c reg s) := by
  unfold patchPass
  repeat' (with_reducible first | assumption | apply keeps_onCorpus | apply keeps_setPass | split | dsimp only | simp only [Keeps.upd_iff])

theorem keeps_startPass {s0 : State} (s : State) (hs : Keeps s0 s) :
    Keeps s0 (startPass s) := by
  unfold startPass
  repeat' (with_reducible first | assumption | apply keeps_optS | apply keeps_patchPass | apply keeps_sweepPass | (intro _) | refine Keeps.ite ?_ ?_ | split | dsimp only | simp only [Keeps.upd_iff])

theorem keeps_sweepDone {s0 : State} (p : Pass) (s : State) (hs : Keeps s0 s) :
    Keeps s0 (sweepDone p s) := by
  unfold sweepDone
  repeat' (with_reducible first | assumption | apply keeps_foldS | apply keeps_onPart | (intro _) | refine Keeps.ite ?_ ?_ | split | dsimp only | simp only [Keeps.upd_iff])

theorem keeps_patchDone {s0 : State} (p : Pass) (s : State) (hs : Keeps s0 s) :
    Keeps s0 (patchDone p s) := by
  unfold patchDone
  repeat' (with_reducible first | assumption | apply keeps_dirSet | apply keeps_onCorpus | apply keeps_optS | apply keeps_showCorpus | (intro _) | refine Keeps.ite ?_ ?_ | split | dsimp only | simp only [Keeps.upd_iff])

theorem keeps_wantPatches {s0 : State} (s : State) (hs : Keeps s0 s) :
    Keeps s0 (wantPatches s) := by
  unfold wantPatches
  repeat' (with_reducible first | assumption | split | dsimp only | simp only [Keeps.upd_iff])

theorem keeps_scoreSlot {s0 : State} (w : Who) (c : Corp) (q : List Int) (tol : Bool) (a : Scoring) (p : Nat × CSlot) (ha : Keeps s0 a.st) :
    Keeps s0 (scoreSlot w c q tol a p).st := by
  unfold scoreSlot
  repeat' (with_reducible first | assumption | exact Keeps.refl _ | apply keeps_readSlot | (intro _) | refine Keeps.snd (by assumption) ?_ | refine Keeps.snd3 (by assumption) ?_ | refine Keeps.snd4 (by assumption) ?_ | refine Keeps.some1 (by assumption) ?_ | refine Keeps.some2 (by assumption) ?_ | refine Keeps.some3 (by assumption) ?_ | refine Keeps.fst (by assumption) ?_ | refine Keeps.foldlOf Scoring.st ?_ ?_ | refine Keeps.ite ?_ ?_ | refine Keeps.ite2 ?_ ?_ | refine Keeps.ite3 ?_ ?_ | split | dsimp only | simp only [Keeps.upd_iff, List.length_map] | simp only [Keeps.upd_iff, length_updFirst] | simp only [Keeps.upd_iff])

theorem keeps_shardAnswer {s0 : State} (p : Part) (s : State) (hs : Keeps s0 s) :
    Keeps s0 (shardAnswer p s).2 := by
  unfold shardAnswer
  repeat' (with_reducible first | assumption | apply keeps_scoreSlot | refine Keeps.foldlOf Scoring.st ?_ ?_ | split | dsimp only | simp only [Keeps.upd_iff])

theorem keeps_addSearchPart {s0 : State} (p : Part) (s : State) (hs : Keeps s0 s) :
    Keeps s0 (addSearchPart p s) := by
  unfold addSearchPart
  repeat' (with_reducible first | assumption | apply keeps_newPart | split | dsimp only | simp only [Keeps.upd_iff])

theorem keeps_issueFinalist {s0 : State} (pid : Nat) (c : Corp) (i : Nat) (n : Nat) (s : State) (hs : Keeps s0 s) :
    Keeps s0 (issueFinalist pid c i n s) := by
  unfold issueFinalist
  repeat' (with_reducible first | assumption | apply keeps_foldS | apply keeps_issueParcel | apply keeps_onPart | (intro _) | refine Keeps.ite ?_ ?_ | split | dsimp only | simp only [Keeps.upd_iff])

theorem keeps_addFinalists {s0 : State} (p : Part) (s : State) (hs : Keeps s0 s) :
    Keeps s0 (addFinalists p s) := by
  unfold addFinalists
  repeat' (with_reducible first | assumption | apply keeps_foldS | apply keeps_issueFinalist | apply keeps_newPart | (intro _) | refine Keeps.ite ?_ ?_ | split | dsimp only | simp only [Keeps.upd_iff])

theorem keeps_ownerAnswer {s0 : State} (p : Part) (s : State) (hs : Keeps s0 s) :
    Keeps s0 (ownerAnswer p s).2 := by
  unfold ownerAnswer
  repeat' (with_reducible first | assumption | apply keeps_bumpBy | split | dsimp only | simp only [Keeps.upd_iff])

theorem keeps_sendShard {s0 : State} (r : Req) (i : Nat) (post : Nat) (s : State) (hs : Keeps s0 s) :
    Keeps s0 (sendShard r i post s).2 := by
  unfold sendShard
  repeat' (with_reducible first | assumption | exact Keeps.refl _ | apply keeps_addSearchPart | (show ∀ _, _ → _; apply keeps_schedSend) | (intro _) | refine Keeps.snd (by assumption) ?_ | refine Keeps.snd3 (by assumption) ?_ | refine Keeps.snd4 (by assumption) ?_ | refine Keeps.some1 (by assumption) ?_ | refine Keeps.some2 (by assumption) ?_ | refine Keeps.some3 (by assumption) ?_ | refine Keeps.fst (by assumption) ?_ | refine Keeps.ite ?_ ?_ | refine Keeps.ite2 ?_ ?_ | refine Keeps.ite3 ?_ ?_ | split | dsimp only | simp only [Keeps.upd_iff, List.length_map] | simp only [Keeps.upd_iff, length_updFirst] | simp only [Keeps.upd_iff])

theorem keeps_shardLost {s0 : State} (rid : Nat) (i : Nat) (st : Nat) (s : State) (hs : Keeps s0 s) :
    Keeps s0 (shardLost rid i st s) := by
  unfold shardLost
  repeat' (with_reducible first | assumption | apply keeps_addCause | apply keeps_failReq | apply keeps_onReq | split | dsimp only | simp only [Keeps.upd_iff])

theorem keeps_tryShard {s0 : State} (x0 : Nat) (x1 : Nat) (x2 : Nat) (x3 : State) (hx3 : Keeps s0 x3) :
    Keeps s0 (tryShard x0 x1 x2 x3) := by
  induction x0 generalizing x1 x2 x3 with
  | zero =>
    unfold tryShard
    all_goals try dsimp only
    repeat' (with_reducible first | assumption | exact Keeps.refl _ | apply keeps_bump | apply keeps_onReq | apply keeps_sendShard | apply keeps_shardLost | apply keeps_whenS | (intro _) | refine Keeps.snd (by assumption) ?_ | refine Keeps.snd3 (by assumption) ?_ | refine Keeps.snd4 (by assumption) ?_ | refine Keeps.some1 (by assumption) ?_ | refine Keeps.some2 (by assumption) ?_ | refine Keeps.some3 (by assumption) ?_ | refine Keeps.fst (by assumption) ?_ | refine Keeps.ite ?_ ?_ | refine Keeps.ite2 ?_ ?_ | refine Keeps.ite3 ?_ ?_ | split | dsimp only | simp only [Keeps.upd_iff, List.length_map] | simp only [Keeps.upd_iff, length_updFirst] | simp only [Keeps.upd_iff])
  | succ n ih =>
    unfold tryShard
    all_goals try dsimp only
    repeat' (with_reducible first | assumption | exact Keeps.refl _ | apply keeps_bump | apply keeps_onReq | apply keeps_sendShard | apply keeps_shardLost | apply keeps_whenS | with_reducible apply ih | (intro _) | refine Keeps.snd (by assumption) ?_ | refine Keeps.snd3 (by assumption) ?_ | refine Keeps.snd4 (by assumption) ?_ | refine Keeps.some1 (by assumption) ?_ | refine Keeps.some2 (by assumption) ?_ | refine Keeps.some3 (by assumption) ?_ | refine Keeps.fst (by assumption) ?_ | refine Keeps.ite ?_ ?_ | refine Keeps.ite2 ?_ ?_ | refine Keeps.ite3 ?_ ?_ | split | dsimp only | simp only [Keeps.upd_iff, List.length_map] | simp only [Keeps.upd_iff, length_updFirst] | simp only [Keeps.upd_iff])

theorem keeps_shardFailed {s0 : State} (rid : Nat) (f : Nat × Nat) (s : State) (hs : Keeps s0 s) :
    Keeps s0 (shardFailed rid f s) := by
  unfold shardFailed
  repeat' (with_reducible first | assumption | apply keeps_disputeCorpus | apply keeps_failReq | apply keeps_onReq | apply keeps_shardLost | apply keeps_tryShard | apply keeps_whenS | split | dsimp only | simp only [Keeps.upd_iff])

theorem keeps_takeMsg {s0 : State} (rid : Nat) (m : TMsg) (s : State) (hs : Keeps s0 s) :
    Keeps s0 (takeMsg rid m s) := by
  unfold takeMsg
  repeat' (with_reducible first | assumption | apply keeps_addCause | apply keeps_onReq | apply keeps_whenS | split | dsimp only | simp only [Keeps.upd_iff])

theorem keeps_finishSearch {s0 : State} (rid : Nat) (s : State) (hs : Keeps s0 s) :
    Keeps s0 (finishSearch rid s) := by
  unfold finishSearch
  repeat' (with_reducible first | assumption | apply keeps_addCause | apply keeps_bump | apply keeps_finishReq | apply keeps_whenS | split | dsimp only | simp only [Keeps.upd_iff])

theorem keeps_sendOwner {s0 : State} (rid : Nat) (post : Nat) (es : List Ent) (s : State) (hs : Keeps s0 s) :
    Keeps s0 (sendOwner rid post es s) := by
  unfold sendOwner
  repeat' (with_reducible first | assumption | exact Keeps.refl _ | apply keeps_addCause | apply keeps_addFinalists | apply keeps_failReq | apply keeps_onReq | (show ∀ _, _ → _; apply keeps_schedSend) | (intro _) | refine Keeps.snd (by assumption) ?_ | refine Keeps.snd3 (by assumption) ?_ | refine Keeps.snd4 (by assumption) ?_ | refine Keeps.some1 (by assumption) ?_ | refine Keeps.some2 (by assumption) ?_ | refine Keeps.some3 (by assumption) ?_ | refine Keeps.fst (by assumption) ?_ | refine Keeps.ite ?_ ?_ | refine Keeps.ite2 ?_ ?_ | refine Keeps.ite3 ?_ ?_ | split | dsimp only | simp only [Keeps.upd_iff, List.length_map] | simp only [Keeps.upd_iff, length_updFirst] | simp only [Keeps.upd_iff])

theorem keeps_sendFinalists {s0 : State} (rid : Nat) (s : State) (hs : Keeps s0 s) :
    Keeps s0 (sendFinalists rid s) := by
  unfold sendFinalists
  repeat' (with_reducible first | assumption | apply keeps_foldS | apply keeps_onReq | apply keeps_sendOwner | (intro _) | refine Keeps.ite ?_ ?_ | split | dsimp only | simp only [Keeps.upd_iff])

theorem keeps_markLate {s0 : State} (rid : Nat) (s : State) (hs : Keeps s0 s) :
    Keeps s0 (markLate rid s) := by
  unfold markLate
  repeat' (with_reducible first | assumption | apply keeps_addCause | apply keeps_onReq | split | dsimp only | simp only [Keeps.upd_iff])

theorem keeps_searchStep {s0 : State} (rid : Nat) (s : State) (hs : Keeps s0 s) :
    Keeps s0 (searchStep rid s) := by
  unfold searchStep
  repeat' (with_reducible first | assumption | apply keeps_finishSearch | apply keeps_markLate | apply keeps_onReq | apply keeps_sendFinalists | apply keeps_whenS | split | dsimp only | simp only [Keeps.upd_iff])

theorem keeps_gatewaySearch {s0 : State} (r : Req) (m : TMsg) (s : State) (hs : Keeps s0 s) :
    Keeps s0 (gatewaySearch r m s) := by
  unfold gatewaySearch
  repeat' (with_reducible first | assumption | apply keeps_failReq | apply keeps_foldS | apply keeps_onReq | apply keeps_searchStep | apply keeps_shardFailed | apply keeps_takeMsg | split | dsimp only | simp only [Keeps.upd_iff])

end Sys2Proof.Machine
end

