-- ==== Sys2Proof/Laws/KeepParcel.lean ====
section
/-! SUPPORT. KeepParcel: each operation of Machine/Parcel.lean keeps the queue, the canonical form of memory and the
order of the free values (`Keeps`). -/
namespace Sys2Proof.Machine
set_option Elab.async false
set_option linter.all false

theorem keeps_execPsubmit {s0 : State} (th : Nat) (n : Nat) (addr : Nat) (s : State) (hs : Keeps s0 s) :
    ∀ z, (execPsubmit th n addr s) = .next z → Keeps s0 z := by
  intro z e
  unfold execPsubmit at e
  try dsimp only at e
  first | (split at e <;> first | (injection e with e; subst e)) | (injection e with e; subst e) | skip
  repeat' (with_reducible first | assumption | apply keeps_onEngine | apply keeps_psubmitReg | (intro _) | refine Keeps.ite ?_ ?_ | split | dsimp only | simp only [Keeps.upd_iff])

theorem keeps_tierTimeout {s0 : State} (pid : Nat) (s : State) (hs : Keeps s0 s) :
    Keeps s0 (tierTimeout pid s) := by
  unfold tierTimeout
  repeat' (with_reducible first | assumption | apply keeps_bump | apply keeps_failParcel | apply keeps_issueAll | split | dsimp only | simp only [Keeps.upd_iff])

end Sys2Proof.Machine
end

