-- ==== Sys2Proof/Laws/KeepMedia.lean ====
section
/-! SUPPORT. KeepMedia: each operation of Machine/Media.lean keeps the queue, the canonical form of memory and the
order of the free values (`Keeps`). -/
namespace Sys2Proof.Machine
set_option Elab.async false
set_option linter.all false

theorem keeps_completeWrite {s0 : State} (p : Parcel) (area : Nat) (parcel : Nat) (format : Nat) (b : Bytes) (s : State) (hs : Keeps s0 s) :
    Keeps s0 (completeWrite p area parcel format b s) := by
  unfold completeWrite
  repeat' (with_reducible first | assumption | apply keeps_bufferWrite | apply keeps_failParcel | apply keeps_issueAll | apply keeps_parcelDone | split | dsimp only | simp only [Keeps.upd_iff])

theorem keeps_flashWriteDone {s0 : State} (pid : Nat) (s : State) (hs : Keeps s0 s) :
    Keeps s0 (flashWriteDone pid s) := by
  unfold flashWriteDone
  repeat' (with_reducible first | assumption | exact Keeps.refl _ | apply keeps_completeWrite | apply keeps_failParcel | apply keeps_issueAll | (show ∀ _, _ → _; apply keeps_sourceBytes) | (intro _) | refine Keeps.snd (by assumption) ?_ | refine Keeps.snd3 (by assumption) ?_ | refine Keeps.snd4 (by assumption) ?_ | refine Keeps.some1 (by assumption) ?_ | refine Keeps.some2 (by assumption) ?_ | refine Keeps.some3 (by assumption) ?_ | refine Keeps.fst (by assumption) ?_ | refine Keeps.ite ?_ ?_ | refine Keeps.ite2 ?_ ?_ | refine Keeps.ite3 ?_ ?_ | split | dsimp only | simp only [Keeps.upd_iff, List.length_map] | simp only [Keeps.upd_iff, length_updFirst] | simp only [Keeps.upd_iff])

theorem keeps_feedDiscard {s0 : State} (p : Nat × Nat) (s : State) (hs : Keeps s0 s) :
    Keeps s0 (feedDiscard p s) := by
  unfold feedDiscard
  repeat' (with_reducible first | assumption | apply keeps_finishReq | apply keeps_onFlash | apply keeps_onReq | split | dsimp only | simp only [Keeps.upd_iff])

theorem keeps_feedDiscards {s0 : State} (s : State) (hs : Keeps s0 s) :
    Keeps s0 (feedDiscards s) := by
  unfold feedDiscards
  repeat' (with_reducible first | assumption | apply keeps_feedDiscard | apply keeps_foldS | split | dsimp only | simp only [Keeps.upd_iff])

theorem keeps_startDiscard {s0 : State} (rid : Nat) (lo : Nat) (n : Nat) (shred : Bool) (s : State) (hs : Keeps s0 s) :
    Keeps s0 (startDiscard rid lo n shred s) := by
  unfold startDiscard
  repeat' (with_reducible first | assumption | apply keeps_copyBlock | apply keeps_discard | apply keeps_feedDiscard | apply keeps_foldS | apply keeps_onReq | split | dsimp only | simp only [Keeps.upd_iff])

theorem keeps_boundaryDiscards {s0 : State} (s : State) (hs : Keeps s0 s) :
    Keeps s0 (boundaryDiscards s) := by
  unfold boundaryDiscards
  repeat' (with_reducible first | assumption | apply keeps_foldS | apply keeps_startDiscard | (intro _) | refine Keeps.ite ?_ ?_ | split | dsimp only | simp only [Keeps.upd_iff])

theorem keeps_execFlashDiscard {s0 : State} (rid : Nat) (s : State) (hs : Keeps s0 s) :
    ∀ z, (execFlashDiscard rid s) = .next z → Keeps s0 z := by
  intro z e
  unfold execFlashDiscard at e
  try dsimp only at e
  first | (split at e <;> first | (injection e with e; subst e)) | (injection e with e; subst e) | skip
  repeat' (with_reducible first | assumption | apply keeps_onReq | split | dsimp only | simp only [Keeps.upd_iff])

theorem keeps_cleanse {s0 : State} (blocks : List (Nat × Nat)) (s : State) (hs : Keeps s0 s) :
    Keeps s0 (cleanse blocks s) := by
  unfold cleanse
  repeat' (with_reducible first | assumption | apply keeps_eraseChan | apply keeps_foldS | apply keeps_onFlash | (intro _) | refine Keeps.ite ?_ ?_ | split | dsimp only | simp only [Keeps.upd_iff])

theorem keeps_shredEnd {s0 : State} (rid : Nat) (lo : Nat) (n : Nat) (count : Nat) (s : State) (hs : Keeps s0 s) :
    Keeps s0 (shredEnd rid lo n count s) := by
  unfold shredEnd
  repeat' (with_reducible first | assumption | apply keeps_bumpBy | apply keeps_cleanse | apply keeps_draw | apply keeps_finishReq | split | dsimp only | simp only [Keeps.upd_iff])

theorem keeps_shredReq {s0 : State} (r : Req) (s : State) (hs : Keeps s0 s) :
    Keeps s0 (shredReq r s) := by
  unfold shredReq
  repeat' (with_reducible first | assumption | apply keeps_shredEnd | split | dsimp only | simp only [Keeps.upd_iff])

theorem keeps_jobProgrammed {s0 : State} (j : Job) (s : State) (hs : Keeps s0 s) :
    Keeps s0 (jobProgrammed j s) := by
  unfold jobProgrammed
  repeat' (with_reducible first | assumption | apply keeps_feedDiscards | apply keeps_journalDone | apply keeps_mapHost | apply keeps_onFlash | apply keeps_storeMoves | apply keeps_unbuffer | split | dsimp only | simp only [Keeps.upd_iff])

theorem keeps_retarget {s0 : State} (k : JobKind) (ms : List Move) (s : State) (hs : Keeps s0 s) :
    ∀ r, (retarget k ms s) = some r → Keeps s0 r.2.2 := by
  intro r e
  unfold retarget at e
  try dsimp only at e
  repeat' (split at e)
  all_goals first | contradiction | (injection e with e; subst e) | skip
  repeat' (with_reducible first | assumption | exact Keeps.refl _ | (show ∀ _, _ → _; apply keeps_takeRow) | (intro _) | refine Keeps.snd (by assumption) ?_ | refine Keeps.snd3 (by assumption) ?_ | refine Keeps.snd4 (by assumption) ?_ | refine Keeps.some1 (by assumption) ?_ | refine Keeps.some2 (by assumption) ?_ | refine Keeps.some3 (by assumption) ?_ | refine Keeps.fst (by assumption) ?_ | refine Keeps.ite ?_ ?_ | refine Keeps.ite2 ?_ ?_ | refine Keeps.ite3 ?_ ?_ | split | dsimp only | simp only [Keeps.upd_iff, List.length_map] | simp only [Keeps.upd_iff, length_updFirst] | simp only [Keeps.upd_iff])

theorem keeps_jobFailed {s0 : State} (j : Job) (s : State) (hs : Keeps s0 s) :
    Keeps s0 (jobFailed j s) := by
  unfold jobFailed
  repeat' (with_reducible first | assumption | exact Keeps.refl _ | apply keeps_draw | apply keeps_onFlash | (show ∀ _, _ → _; apply keeps_retarget) | apply keeps_retireBlock | apply keeps_setOpen | (intro _) | refine Keeps.snd (by assumption) ?_ | refine Keeps.snd3 (by assumption) ?_ | refine Keeps.snd4 (by assumption) ?_ | refine Keeps.some1 (by assumption) ?_ | refine Keeps.some2 (by assumption) ?_ | refine Keeps.some3 (by assumption) ?_ | refine Keeps.fst (by assumption) ?_ | refine Keeps.ite ?_ ?_ | refine Keeps.ite2 ?_ ?_ | refine Keeps.ite3 ?_ ?_ | split | dsimp only | simp only [Keeps.upd_iff, List.length_map] | simp only [Keeps.upd_iff, length_updFirst] | simp only [Keeps.upd_iff])

theorem keeps_execFlashProgramDone {s0 : State} (id : Nat) (ok : Bool) (s : State) (hs : Keeps s0 s) :
    ∀ z, (execFlashProgramDone id ok s) = .next z → Keeps s0 z := by
  intro z e
  unfold execFlashProgramDone at e
  try dsimp only at e
  first | (split at e <;> first | (injection e with e; subst e)) | (injection e with e; subst e) | skip
  repeat' (with_reducible first | assumption | apply keeps_jobFailed | apply keeps_jobProgrammed | split | dsimp only | simp only [Keeps.upd_iff])

theorem keeps_eraseOk {s0 : State} (v : Nat) (c : Nat) (s : State) (hs : Keeps s0 s) :
    Keeps s0 (eraseOk v c s) := by
  unfold eraseOk
  repeat' (with_reducible first | assumption | apply keeps_dirSet | apply keeps_eraseChan | apply keeps_onFlash | apply keeps_onSblk | apply keeps_retireBlock | split | dsimp only | simp only [Keeps.upd_iff])

theorem keeps_execFlashEraseDone {s0 : State} (v : Nat) (c : Nat) (ok : Bool) (s : State) (hs : Keeps s0 s) :
    ∀ z, (execFlashEraseDone v c ok s) = .next z → Keeps s0 z := by
  intro z e
  unfold execFlashEraseDone at e
  try dsimp only at e
  first | (split at e <;> first | (injection e with e; subst e)) | (injection e with e; subst e) | skip
  repeat' (with_reducible first | assumption | apply keeps_eraseOk | apply keeps_retireBlock | split | dsimp only | simp only [Keeps.upd_iff])

theorem keeps_readGood {s0 : State} (p : Parcel) (area : Nat) (parcel : Nat) (format : Nat) (c : Nat) (k : Nat) (level : Nat) (soft : Bool) (margin : Bool) (s : State) (hs : Keeps s0 s) :
    Keeps s0 (readGood p area parcel format c k level soft margin s) := by
  unfold readGood
  repeat' (with_reducible first | assumption | exact Keeps.refl _ | apply keeps_addCause | apply keeps_bump | apply keeps_failParcel | apply keeps_issueAll | apply keeps_noteRead | apply keeps_noteRetry | apply keeps_onParcel | apply keeps_readStored | apply keeps_whenS | (intro _) | refine Keeps.snd (by assumption) ?_ | refine Keeps.snd3 (by assumption) ?_ | refine Keeps.snd4 (by assumption) ?_ | refine Keeps.some1 (by assumption) ?_ | refine Keeps.some2 (by assumption) ?_ | refine Keeps.some3 (by assumption) ?_ | refine Keeps.fst (by assumption) ?_ | refine Keeps.ite ?_ ?_ | refine Keeps.ite2 ?_ ?_ | refine Keeps.ite3 ?_ ?_ | split | dsimp only | simp only [Keeps.upd_iff, List.length_map] | simp only [Keeps.upd_iff, length_updFirst] | simp only [Keeps.upd_iff])

theorem keeps_readBad {s0 : State} (p : Parcel) (c : Nat) (k : Nat) (nlp : Nat) (s : State) (hs : Keeps s0 s) :
    Keeps s0 (readBad p c k nlp s) := by
  unfold readBad
  repeat' (with_reducible first | assumption | apply keeps_bump | apply keeps_failParcel | apply keeps_issueAll | apply keeps_raise | split | dsimp only | simp only [Keeps.upd_iff])

theorem keeps_readMisdirected {s0 : State} (p : Parcel) (c : Nat) (k : Nat) (nlp : Nat) (s : State) (hs : Keeps s0 s) :
    Keeps s0 (readMisdirected p c k nlp s) := by
  unfold readMisdirected
  repeat' (with_reducible first | assumption | apply keeps_bump | apply keeps_failParcel | apply keeps_issueAll | apply keeps_raise | split | dsimp only | simp only [Keeps.upd_iff])

theorem keeps_readOut {s0 : State} (p : Parcel) (nlp : Nat) (s : State) (hs : Keeps s0 s) :
    Keeps s0 (readOut p nlp s) := by
  unfold readOut
  repeat' (with_reducible first | assumption | apply keeps_bump | apply keeps_failParcel | apply keeps_issueAll | apply keeps_setLost | split | dsimp only | simp only [Keeps.upd_iff])

theorem keeps_flashReadDone {s0 : State} (pid : Nat) (r : ReadOutcome) (s : State) (hs : Keeps s0 s) :
    Keeps s0 (flashReadDone pid r s) := by
  unfold flashReadDone
  repeat' (with_reducible first | assumption | apply keeps_readBad | apply keeps_readGood | apply keeps_readMisdirected | apply keeps_readOut | split | dsimp only | simp only [Keeps.upd_iff])

theorem keeps_execCheckpointDone {s0 : State} (s : State) (hs : Keeps s0 s) :
    ∀ z, (execCheckpointDone s) = .next z → Keeps s0 z := by
  intro z e
  unfold execCheckpointDone at e
  try dsimp only at e
  first | (split at e <;> first | (injection e with e; subst e)) | (injection e with e; subst e) | skip
  repeat' (with_reducible first | assumption | apply keeps_onFlash | split | dsimp only | simp only [Keeps.upd_iff])

theorem keeps_execScrub {s0 : State} (s : State) (hs : Keeps s0 s) :
    ∀ z, (execScrub s) = .next z → Keeps s0 z := by
  intro z e
  unfold execScrub at e
  try dsimp only at e
  first | (split at e <;> first | (injection e with e; subst e)) | (injection e with e; subst e) | skip
  repeat' (with_reducible first | assumption | apply keeps_foldS | apply keeps_noteRead | apply keeps_onFlash | (intro _) | refine Keeps.ite ?_ ?_ | split | dsimp only | simp only [Keeps.upd_iff])

theorem keeps_execHeatHalving {s0 : State} (s : State) (hs : Keeps s0 s) :
    ∀ z, (execHeatHalving s) = .next z → Keeps s0 z := by
  intro z e
  unfold execHeatHalving at e
  try dsimp only at e
  first | (split at e <;> first | (injection e with e; subst e)) | (injection e with e; subst e) | skip
  repeat' (with_reducible first | assumption | apply keeps_onFlash | split | dsimp only | simp only [Keeps.upd_iff])

theorem keeps_reportChan {s0 : State} (good : Bool) (p : Nat × ChanFound) (s : State) (hs : Keeps s0 s) :
    Keeps s0 (reportChan good p s) := by
  unfold reportChan
  repeat' (with_reducible first | assumption | apply keeps_dirSet | apply keeps_onFlash | apply keeps_raise | split | dsimp only | simp only [Keeps.upd_iff])

theorem keeps_execFlashDiscoveryDone {s0 : State} (chans : List ChanFound) (s : State) (hs : Keeps s0 s) :
    ∀ z, (execFlashDiscoveryDone chans s) = .next z → Keeps s0 z := by
  intro z e
  unfold execFlashDiscoveryDone at e
  try dsimp only at e
  first | (split at e <;> first | (injection e with e; subst e)) | (injection e with e; subst e) | skip
  repeat' (with_reducible first | assumption | apply keeps_dirSet | apply keeps_foldS | apply keeps_onFlash | apply keeps_reportChan | apply keeps_showReserve | (intro _) | refine Keeps.ite ?_ ?_ | split | dsimp only | simp only [Keeps.upd_iff])

theorem keeps_recoverMap {s0 : State} (s : State) (hs : Keeps s0 s) :
    Keeps s0 (recoverMap s) := by
  unfold recoverMap
  repeat' (with_reducible first | assumption | apply keeps_dirSet | apply keeps_foldS | apply keeps_onFlash | apply keeps_raise | apply keeps_setLost | split | dsimp only | simp only [Keeps.upd_iff])

theorem keeps_execRecoveryDone {s0 : State} (s : State) (hs : Keeps s0 s) :
    ∀ z, (execRecoveryDone s) = .next z → Keeps s0 z := by
  intro z e
  unfold execRecoveryDone at e
  try dsimp only at e
  first | (split at e <;> first | (injection e with e; subst e)) | (injection e with e; subst e) | skip
  repeat' (with_reducible first | assumption | apply keeps_loadAreas | apply keeps_onFlash | apply keeps_recoverMap | split | dsimp only | simp only [Keeps.upd_iff])

end Sys2Proof.Machine
end

