-- ==== Sys2Proof/Laws/KeepUpdOps.lean ====
section
/-! SUPPORT. KeepUpdOps: each operation of Machine/UpdOps.lean keeps the queue, the canonical form of memory and the
order of the free values (`Keeps`). -/
namespace Sys2Proof.Machine
set_option Elab.async false
set_option linter.all false

theorem keeps_sendAnswer {s0 : State} (gate : Nat) (tag : Nat) (m : TMsg) (s : State) (hs : Keeps s0 s) :
    Keeps s0 (sendAnswer gate tag m s) := by
  unfold sendAnswer
  repeat' (with_reducible first | assumption | apply keeps_gatewaySearch | apply keeps_optS | apply keeps_treeInput | (intro _) | refine Keeps.ite ?_ ?_ | split | dsimp only | simp only [Keeps.upd_iff])

theorem keeps_partAnswered {s0 : State} (p : Part) (m : TMsg) (s : State) (hs : Keeps s0 s) :
    Keeps s0 (partAnswered p m s) := by
  unfold partAnswered
  repeat' (with_reducible first | assumption | apply keeps_dropPart | apply keeps_onPart | apply keeps_sendAnswer | split | dsimp only | simp only [Keeps.upd_iff])

theorem keeps_runPart {s0 : State} (p : Part) (s : State) (hs : Keeps s0 s) :
    Keeps s0 (runPart p s) := by
  unfold runPart
  repeat' (with_reducible first | assumption | apply keeps_ownerAnswer | apply keeps_partAnswered | apply keeps_shardAnswer | split | dsimp only | simp only [Keeps.upd_iff])

theorem keeps_driveParts {s0 : State} (x0 : Nat) (x1 : State) (hx1 : Keeps s0 x1) :
    Keeps s0 (driveParts x0 x1) := by
  induction x0 generalizing x1 with
  | zero =>
    unfold driveParts
    all_goals try dsimp only
    repeat' (with_reducible first | assumption | exact Keeps.refl _ | apply keeps_runPart | (intro _) | refine Keeps.snd (by assumption) ?_ | refine Keeps.snd3 (by assumption) ?_ | refine Keeps.snd4 (by assumption) ?_ | refine Keeps.some1 (by assumption) ?_ | refine Keeps.some2 (by assumption) ?_ | refine Keeps.some3 (by assumption) ?_ | refine Keeps.fst (by assumption) ?_ | refine Keeps.ite ?_ ?_ | refine Keeps.ite2 ?_ ?_ | refine Keeps.ite3 ?_ ?_ | split | dsimp only | simp only [Keeps.upd_iff, List.length_map] | simp only [Keeps.upd_iff, length_updFirst] | simp only [Keeps.upd_iff])
  | succ n ih =>
    unfold driveParts
    all_goals try dsimp only
    repeat' (with_reducible first | assumption | exact Keeps.refl _ | apply keeps_runPart | with_reducible apply ih | (intro _) | refine Keeps.snd (by assumption) ?_ | refine Keeps.snd3 (by assumption) ?_ | refine Keeps.snd4 (by assumption) ?_ | refine Keeps.some1 (by assumption) ?_ | refine Keeps.some2 (by assumption) ?_ | refine Keeps.some3 (by assumption) ?_ | refine Keeps.fst (by assumption) ?_ | refine Keeps.ite ?_ ?_ | refine Keeps.ite2 ?_ ?_ | refine Keeps.ite3 ?_ ?_ | split | dsimp only | simp only [Keeps.upd_iff, List.length_map] | simp only [Keeps.upd_iff, length_updFirst] | simp only [Keeps.upd_iff])

theorem keeps_moveSearch {s0 : State} (s : State) (hs : Keeps s0 s) :
    Keeps s0 (moveSearch s) := by
  unfold moveSearch
  repeat' (with_reducible first | assumption | apply keeps_driveParts | apply keeps_pruneParts | apply keeps_startPass | split | dsimp only | simp only [Keeps.upd_iff])

theorem keeps_passStackDone {s0 : State} (k : Nat) (s : State) (hs : Keeps s0 s) :
    Keeps s0 (passStackDone k s) := by
  unfold passStackDone
  repeat' (with_reducible first | assumption | apply keeps_bump | apply keeps_moveSearch | apply keeps_patchDone | apply keeps_sweepDone | apply keeps_whenS | split | dsimp only | simp only [Keeps.upd_iff])

theorem keeps_finishUpdate {s0 : State} (rid : Nat) (s : State) (hs : Keeps s0 s) :
    Keeps s0 (finishUpdate rid s) := by
  unfold finishUpdate
  repeat' (with_reducible first | assumption | apply keeps_endReq | split | dsimp only | simp only [Keeps.upd_iff])

theorem keeps_itemDone {s0 : State} (rid : Nat) (i : Nat) (st : Nat) (s : State) (hs : Keeps s0 s) :
    Keeps s0 (itemDone rid i st s) := by
  unfold itemDone
  repeat' (with_reducible first | assumption | apply keeps_disputeCorpus | apply keeps_failReq | apply keeps_finishUpdate | apply keeps_onReq | apply keeps_whenS | split | dsimp only | simp only [Keeps.upd_iff])

theorem keeps_answerItem {s0 : State} (p : Part) (st : Nat) (s : State) (hs : Keeps s0 s) :
    Keeps s0 (answerItem p st s) := by
  unfold answerItem
  repeat' (with_reducible first | assumption | exact Keeps.refl _ | apply keeps_dropPart | apply keeps_itemDone | (show ∀ _, _ → _; apply keeps_schedSend) | (intro _) | refine Keeps.snd (by assumption) ?_ | refine Keeps.snd3 (by assumption) ?_ | refine Keeps.snd4 (by assumption) ?_ | refine Keeps.some1 (by assumption) ?_ | refine Keeps.some2 (by assumption) ?_ | refine Keeps.some3 (by assumption) ?_ | refine Keeps.fst (by assumption) ?_ | refine Keeps.getD ?_ ?_ | refine Keeps.elim ?_ ?_ | refine Keeps.elim2 ?_ ?_ | refine Keeps.foldl ?_ ?_ | refine Keeps.foldl2 ?_ ?_ | refine Keeps.foldl3 ?_ ?_ | refine Keeps.ite ?_ ?_ | refine Keeps.ite2 ?_ ?_ | refine Keeps.ite3 ?_ ?_ | split | dsimp only | simp only [Keeps.upd_iff, List.length_map] | simp only [Keeps.upd_iff, length_updFirst] | simp only [Keeps.upd_iff])

theorem keeps_growCons {s0 : State} (t : Nat) (c : Nat) (p : Nat) (x3 : Nat) (x4 : State) (hx4 : Keeps s0 x4) :
    Keeps s0 (growCons t c p x3 x4).2 := by
  induction x3 generalizing t c p x4 with
  | zero =>
    unfold growCons
    all_goals try dsimp only
    repeat' (with_reducible first | assumption | exact Keeps.refl _ | (show ∀ _, _ → _; apply keeps_allocRun) | apply keeps_onCorpus | (intro _) | refine Keeps.snd (by assumption) ?_ | refine Keeps.snd3 (by assumption) ?_ | refine Keeps.snd4 (by assumption) ?_ | refine Keeps.some1 (by assumption) ?_ | refine Keeps.some2 (by assumption) ?_ | refine Keeps.some3 (by assumption) ?_ | refine Keeps.fst (by assumption) ?_ | refine Keeps.ite ?_ ?_ | refine Keeps.ite2 ?_ ?_ | refine Keeps.ite3 ?_ ?_ | split | dsimp only | simp only [Keeps.upd_iff, List.length_map] | simp only [Keeps.upd_iff, length_updFirst] | simp only [Keeps.upd_iff])
  | succ n ih =>
    unfold growCons
    all_goals try dsimp only
    repeat' (with_reducible first | assumption | exact Keeps.refl _ | (show ∀ _, _ → _; apply keeps_allocRun) | apply keeps_onCorpus | with_reducible apply ih | (intro _) | refine Keeps.snd (by assumption) ?_ | refine Keeps.snd3 (by assumption) ?_ | refine Keeps.snd4 (by assumption) ?_ | refine Keeps.some1 (by assumption) ?_ | refine Keeps.some2 (by assumption) ?_ | refine Keeps.some3 (by assumption) ?_ | refine Keeps.fst (by assumption) ?_ | refine Keeps.ite ?_ ?_ | refine Keeps.ite2 ?_ ?_ | refine Keeps.ite3 ?_ ?_ | split | dsimp only | simp only [Keeps.upd_iff, List.length_map] | simp only [Keeps.upd_iff, length_updFirst] | simp only [Keeps.upd_iff])

theorem keeps_writeVector {s0 : State} (id : Nat) (c : Corp) (n : Nat) (s : State) (hs : Keeps s0 s) :
    Keeps s0 (writeVector id c n s) := by
  unfold writeVector
  repeat' (with_reducible first | assumption | apply keeps_foldS | apply keeps_giveBytes | apply keeps_issueParcel | apply keeps_onPart | (intro _) | refine Keeps.ite ?_ ?_ | split | dsimp only | simp only [Keeps.upd_iff])

theorem keeps_claimItem {s0 : State} (p : Part) (c : Corp) (key : Nat) (z : CSlot) (s : State) (hs : Keeps s0 s) :
    Keeps s0 (claimItem p c key z s) := by
  unfold claimItem
  repeat' (with_reducible first | assumption | apply keeps_onCorpus | apply keeps_optS | apply keeps_writeVector | (intro _) | refine Keeps.ite ?_ ?_ | split | dsimp only | simp only [Keeps.upd_iff])

theorem keeps_stageUpsert {s0 : State} (p : Part) (c : Corp) (s : State) (hs : Keeps s0 s) :
    Keeps s0 (stageUpsert p c s).2 := by
  unfold stageUpsert
  repeat' (with_reducible first | assumption | exact Keeps.refl _ | apply keeps_bump | apply keeps_claimItem | apply keeps_corpBump | apply keeps_growCons | (intro _) | refine Keeps.snd (by assumption) ?_ | refine Keeps.snd3 (by assumption) ?_ | refine Keeps.snd4 (by assumption) ?_ | refine Keeps.some1 (by assumption) ?_ | refine Keeps.some2 (by assumption) ?_ | refine Keeps.some3 (by assumption) ?_ | refine Keeps.fst (by assumption) ?_ | refine Keeps.ite ?_ ?_ | refine Keeps.ite2 ?_ ?_ | refine Keeps.ite3 ?_ ?_ | split | dsimp only | simp only [Keeps.upd_iff, List.length_map] | simp only [Keeps.upd_iff, length_updFirst] | simp only [Keeps.upd_iff])

theorem keeps_stageDelete {s0 : State} (p : Part) (c : Corp) (s : State) (hs : Keeps s0 s) :
    Keeps s0 (stageDelete p c s) := by
  unfold stageDelete
  repeat' (with_reducible first | assumption | apply keeps_onCorpus | split | dsimp only | simp only [Keeps.upd_iff])

theorem keeps_stageItem {s0 : State} (id : Nat) (s : State) (hs : Keeps s0 s) :
    Keeps s0 (stageItem id s).2 := by
  unfold stageItem
  repeat' (with_reducible first | assumption | apply keeps_stageDelete | apply keeps_stageUpsert | split | dsimp only | simp only [Keeps.upd_iff])

theorem keeps_discardVec {s0 : State} (t : Nat) (c : Nat) (n : Nat) (s : State) (hs : Keeps s0 s) :
    Keeps s0 (discardVec t c n s) := by
  unfold discardVec
  repeat' (with_reducible first | assumption | apply keeps_discard | apply keeps_foldS | apply keeps_onCorpus | apply keeps_optS | (intro _) | refine Keeps.ite ?_ ?_ | split | dsimp only | simp only [Keeps.upd_iff])

theorem keeps_unstage {s0 : State} (p : Part) (s : State) (hs : Keeps s0 s) :
    Keeps s0 (unstage p s) := by
  unfold unstage
  repeat' (with_reducible first | assumption | apply keeps_discardVec | apply keeps_foldS | apply keeps_onCorpus | (intro _) | refine Keeps.ite ?_ ?_ | split | dsimp only | simp only [Keeps.upd_iff])

theorem keeps_acceptItems {s0 : State} (p : Part) (s : State) (hs : Keeps s0 s) :
    Keeps s0 (acceptItems p s) := by
  unfold acceptItems
  repeat' (with_reducible first | assumption | apply keeps_onCorpus | split | dsimp only | simp only [Keeps.upd_iff])

theorem keeps_toReplica {s0 : State} (p : Part) (op : Nat) (post : Nat) (inl : Bytes) (data : Bytes) (s : State) (hs : Keeps s0 s) :
    ∀ r, (toReplica p op post inl data s) = some r → Keeps s0 r := by
  intro r e
  unfold toReplica at e
  try dsimp only at e
  repeat' (split at e)
  all_goals first | contradiction | (injection e with e; subst e) | skip
  repeat' (with_reducible first | assumption | exact Keeps.refl _ | (show ∀ _, _ → _; apply keeps_schedSend) | (intro _) | refine Keeps.snd (by assumption) ?_ | refine Keeps.snd3 (by assumption) ?_ | refine Keeps.snd4 (by assumption) ?_ | refine Keeps.some1 (by assumption) ?_ | refine Keeps.some2 (by assumption) ?_ | refine Keeps.some3 (by assumption) ?_ | refine Keeps.fst (by assumption) ?_ | refine Keeps.ite ?_ ?_ | refine Keeps.ite2 ?_ ?_ | refine Keeps.ite3 ?_ ?_ | split | dsimp only | simp only [Keeps.upd_iff, List.length_map] | simp only [Keeps.upd_iff, length_updFirst] | simp only [Keeps.upd_iff])

theorem keeps_refuseItem {s0 : State} (p : Part) (st : Nat) (s : State) (hs : Keeps s0 s) :
    Keeps s0 (refuseItem p st s) := by
  unfold refuseItem
  repeat' (with_reducible first | assumption | exact Keeps.refl _ | apply keeps_answerItem | apply keeps_foldS | (show ∀ _, _ → _; apply keeps_toReplica) | apply keeps_unstage | (intro _) | refine Keeps.snd (by assumption) ?_ | refine Keeps.snd3 (by assumption) ?_ | refine Keeps.snd4 (by assumption) ?_ | refine Keeps.some1 (by assumption) ?_ | refine Keeps.some2 (by assumption) ?_ | refine Keeps.some3 (by assumption) ?_ | refine Keeps.fst (by assumption) ?_ | refine Keeps.getD ?_ ?_ | refine Keeps.elim ?_ ?_ | refine Keeps.elim2 ?_ ?_ | refine Keeps.foldl ?_ ?_ | refine Keeps.foldl2 ?_ ?_ | refine Keeps.foldl3 ?_ ?_ | refine Keeps.ite ?_ ?_ | refine Keeps.ite2 ?_ ?_ | refine Keeps.ite3 ?_ ?_ | split | dsimp only | simp only [Keeps.upd_iff, List.length_map] | simp only [Keeps.upd_iff, length_updFirst] | simp only [Keeps.upd_iff])

theorem keeps_ackItem {s0 : State} (id : Nat) (post : Nat) (st : Nat) (s : State) (hs : Keeps s0 s) :
    Keeps s0 (ackItem id post st s) := by
  unfold ackItem
  repeat' (with_reducible first | assumption | apply keeps_answerItem | apply keeps_onPart | apply keeps_refuseItem | split | dsimp only | simp only [Keeps.upd_iff])

theorem keeps_ownStaged {s0 : State} (p : Part) (st : Nat) (s : State) (hs : Keeps s0 s) :
    Keeps s0 (ownStaged p st s) := by
  unfold ownStaged
  repeat' (with_reducible first | assumption | exact Keeps.refl _ | apply keeps_ackItem | apply keeps_dropPart | (show ∀ _, _ → _; apply keeps_schedSend) | (intro _) | refine Keeps.snd (by assumption) ?_ | refine Keeps.snd3 (by assumption) ?_ | refine Keeps.snd4 (by assumption) ?_ | refine Keeps.some1 (by assumption) ?_ | refine Keeps.some2 (by assumption) ?_ | refine Keeps.some3 (by assumption) ?_ | refine Keeps.fst (by assumption) ?_ | refine Keeps.getD ?_ ?_ | refine Keeps.elim ?_ ?_ | refine Keeps.elim2 ?_ ?_ | refine Keeps.foldl ?_ ?_ | refine Keeps.foldl2 ?_ ?_ | refine Keeps.foldl3 ?_ ?_ | refine Keeps.ite ?_ ?_ | refine Keeps.ite2 ?_ ?_ | refine Keeps.ite3 ?_ ?_ | split | dsimp only | simp only [Keeps.upd_iff, List.length_map] | simp only [Keeps.upd_iff, length_updFirst] | simp only [Keeps.upd_iff])

theorem keeps_stageHere {s0 : State} (id : Nat) (s : State) (hs : Keeps s0 s) :
    Keeps s0 (stageHere id s) := by
  unfold stageHere
  repeat' (with_reducible first | assumption | apply keeps_ownStaged | apply keeps_stageItem | split | dsimp only | simp only [Keeps.upd_iff])

theorem keeps_orderItem {s0 : State} (p : Part) (s : State) (hs : Keeps s0 s) :
    Keeps s0 (orderItem p s) := by
  unfold orderItem
  repeat' (with_reducible first | assumption | exact Keeps.refl _ | apply keeps_ackItem | apply keeps_answerItem | apply keeps_disputeCorpus | apply keeps_foldS | apply keeps_newPart | apply keeps_stageHere | (show ∀ _, _ → _; apply keeps_toReplica) | (intro _) | refine Keeps.snd (by assumption) ?_ | refine Keeps.snd3 (by assumption) ?_ | refine Keeps.snd4 (by assumption) ?_ | refine Keeps.some1 (by assumption) ?_ | refine Keeps.some2 (by assumption) ?_ | refine Keeps.some3 (by assumption) ?_ | refine Keeps.fst (by assumption) ?_ | refine Keeps.ite ?_ ?_ | refine Keeps.ite2 ?_ ?_ | refine Keeps.ite3 ?_ ?_ | split | dsimp only | simp only [Keeps.upd_iff, List.length_map] | simp only [Keeps.upd_iff, length_updFirst] | simp only [Keeps.upd_iff])

theorem keeps_routeItem {s0 : State} (rid : Nat) (i : Nat) (s : State) (hs : Keeps s0 s) :
    Keeps s0 (routeItem rid i s) := by
  unfold routeItem
  repeat' (with_reducible first | assumption | exact Keeps.refl _ | apply keeps_bump | apply keeps_itemDone | apply keeps_orderItem | (show ∀ _, _ → _; apply keeps_schedSend) | (intro _) | refine Keeps.snd (by assumption) ?_ | refine Keeps.snd3 (by assumption) ?_ | refine Keeps.snd4 (by assumption) ?_ | refine Keeps.some1 (by assumption) ?_ | refine Keeps.some2 (by assumption) ?_ | refine Keeps.some3 (by assumption) ?_ | refine Keeps.fst (by assumption) ?_ | refine Keeps.ite ?_ ?_ | refine Keeps.ite2 ?_ ?_ | refine Keeps.ite3 ?_ ?_ | split | dsimp only | simp only [Keeps.upd_iff, List.length_map] | simp only [Keeps.upd_iff, length_updFirst] | simp only [Keeps.upd_iff])

theorem keeps_acceptItem {s0 : State} (p : Part) (s : State) (hs : Keeps s0 s) :
    Keeps s0 (acceptItem p s) := by
  unfold acceptItem
  repeat' (with_reducible first | assumption | exact Keeps.refl _ | apply keeps_acceptItems | apply keeps_ackItem | apply keeps_answerItem | apply keeps_foldS | apply keeps_onPart | (show ∀ _, _ → _; apply keeps_toReplica) | (intro _) | refine Keeps.snd (by assumption) ?_ | refine Keeps.snd3 (by assumption) ?_ | refine Keeps.snd4 (by assumption) ?_ | refine Keeps.some1 (by assumption) ?_ | refine Keeps.some2 (by assumption) ?_ | refine Keeps.some3 (by assumption) ?_ | refine Keeps.fst (by assumption) ?_ | refine Keeps.getD ?_ ?_ | refine Keeps.elim ?_ ?_ | refine Keeps.elim2 ?_ ?_ | refine Keeps.foldl ?_ ?_ | refine Keeps.foldl2 ?_ ?_ | refine Keeps.foldl3 ?_ ?_ | refine Keeps.ite ?_ ?_ | refine Keeps.ite2 ?_ ?_ | refine Keeps.ite3 ?_ ?_ | split | dsimp only | simp only [Keeps.upd_iff, List.length_map] | simp only [Keeps.upd_iff, length_updFirst] | simp only [Keeps.upd_iff])

theorem keeps_touchSearches {s0 : State} (t : Nat) (c : Nat) (s : State) (hs : Keeps s0 s) :
    Keeps s0 (touchSearches t c s) := by
  unfold touchSearches
  repeat' (with_reducible first | assumption | apply keeps_addCause | apply keeps_foldS | (intro _) | refine Keeps.ite ?_ ?_ | split | dsimp only | simp only [Keeps.upd_iff])

theorem keeps_supersede {s0 : State} (t : Nat) (c : Nat) (key : Nat) (s : State) (hs : Keeps s0 s) :
    Keeps s0 (supersede t c key s) := by
  unfold supersede
  repeat' (with_reducible first | assumption | split | dsimp only | simp only [Keeps.upd_iff])

theorem keeps_shredVec {s0 : State} (id : Nat) (t : Nat) (c : Nat) (n : Nat) (s : State) (hs : Keeps s0 s) :
    Keeps s0 (shredVec id t c n s) := by
  unfold shredVec
  repeat' (with_reducible first | assumption | apply keeps_bufferWrite | apply keeps_copyBlock | apply keeps_discard | apply keeps_foldS | apply keeps_onCorpus | apply keeps_onPart | (intro _) | refine Keeps.ite ?_ ?_ | split | dsimp only | simp only [Keeps.upd_iff])

theorem keeps_applyItem {s0 : State} (t : Nat) (c : Nat) (it : CItem) (s : State) (hs : Keeps s0 s) :
    Keeps s0 (applyItem t c it s) := by
  unfold applyItem
  repeat' (with_reducible first | assumption | apply keeps_bump | apply keeps_clearSlot | apply keeps_discardVec | apply keeps_onCorpus | apply keeps_optS | apply keeps_shredVec | apply keeps_storeSlot | apply keeps_supersede | apply keeps_touchSearches | (intro _) | refine Keeps.ite ?_ ?_ | split | dsimp only | simp only [Keeps.upd_iff])

theorem keeps_applyCorpus {s0 : State} (c : Corp) (s : State) (hs : Keeps s0 s) :
    Keeps s0 (applyCorpus c s) := by
  unfold applyCorpus
  repeat' (with_reducible first | assumption | apply keeps_applyItem | apply keeps_foldS | apply keeps_onCorpus | apply keeps_showCorpus | split | dsimp only | simp only [Keeps.upd_iff])

theorem keeps_applyUpdates {s0 : State} (s : State) (hs : Keeps s0 s) :
    Keeps s0 (applyUpdates s) := by
  unfold applyUpdates
  repeat' (with_reducible first | assumption | apply keeps_applyCorpus | apply keeps_foldS | split | dsimp only | simp only [Keeps.upd_iff])

theorem keeps_partShredded {s0 : State} (p : Part) (s : State) (hs : Keeps s0 s) :
    Keeps s0 (partShredded p s) := by
  unfold partShredded
  repeat' (with_reducible first | assumption | exact Keeps.refl _ | apply keeps_ackItem | apply keeps_dropPart | (show ∀ _, _ → _; apply keeps_schedSend) | (intro _) | refine Keeps.snd (by assumption) ?_ | refine Keeps.snd3 (by assumption) ?_ | refine Keeps.snd4 (by assumption) ?_ | refine Keeps.some1 (by assumption) ?_ | refine Keeps.some2 (by assumption) ?_ | refine Keeps.some3 (by assumption) ?_ | refine Keeps.fst (by assumption) ?_ | refine Keeps.getD ?_ ?_ | refine Keeps.elim ?_ ?_ | refine Keeps.elim2 ?_ ?_ | refine Keeps.foldl ?_ ?_ | refine Keeps.foldl2 ?_ ?_ | refine Keeps.foldl3 ?_ ?_ | refine Keeps.ite ?_ ?_ | refine Keeps.ite2 ?_ ?_ | refine Keeps.ite3 ?_ ?_ | split | dsimp only | simp only [Keeps.upd_iff, List.length_map] | simp only [Keeps.upd_iff, length_updFirst] | simp only [Keeps.upd_iff])

theorem keeps_shredPart {s0 : State} (p : Part) (s : State) (hs : Keeps s0 s) :
    Keeps s0 (shredPart p s) := by
  unfold shredPart
  repeat' (with_reducible first | assumption | apply keeps_bumpBy | apply keeps_cleanse | apply keeps_draw | apply keeps_partShredded | split | dsimp only | simp only [Keeps.upd_iff])

end Sys2Proof.Machine
end

