-- ==== Sys2Proof/Laws/KeepSearch.lean ====
section
/-! SUPPORT. KeepSearch: each operation of Machine/Search.lean keeps the queue, the canonical form of memory and the
order of the free values (`Keeps`). -/
namespace Sys2Proof.Machine
set_option Elab.async false
set_option linter.all false

theorem keeps_onAdmitted {s0 : State} (rid : Nat) (type : Nat) (f : Req → State → State) (s : State) (hf : ∀ y0 u, Keeps s0 u → Keeps s0 (f y0 u)) (hs : Keeps s0 s) :
    Keeps s0 (onAdmitted rid type f s) := by
  unfold onAdmitted
  repeat' (with_reducible first | assumption | apply keeps_badReq | apply hf | split | dsimp only | simp only [Keeps.upd_iff])

theorem keeps_onCorpusReq {s0 : State} (rid : Nat) (type : Nat) (f : Req → Corp → State → State) (s : State) (hf : ∀ y0 y1 u, Keeps s0 u → Keeps s0 (f y0 y1 u)) (hs : Keeps s0 s) :
    Keeps s0 (onCorpusReq rid type f s) := by
  unfold onCorpusReq
  repeat' (with_reducible first | assumption | apply keeps_failReq | apply keeps_onAdmitted | apply hf | (intro _) | refine Keeps.ite ?_ ?_ | split | dsimp only | simp only [Keeps.upd_iff])

theorem keeps_openSlot {s0 : State} (k : Nat) (t : Nat) (c : Nat) (s : State) (hs : Keeps s0 s) :
    Keeps s0 (openSlot k t c s) := by
  unfold openSlot
  repeat' (with_reducible first | assumption | apply keeps_dirSet | apply keeps_foldS | (intro _) | refine Keeps.ite ?_ ?_ | split | dsimp only | simp only [Keeps.upd_iff])

theorem keeps_placeCorpus {s0 : State} (t : Nat) (c : Nat) (b : Bytes) (n : Nat) (s : State) (hs : Keeps s0 s) :
    ∀ r, (placeCorpus t c b n s) = some r → Keeps s0 r.2.2 := by
  intro r e
  unfold placeCorpus at e
  split at e
  · cases e; exact hs
  · split at e
    · rename_i heq
      cases e; exact keeps_placeT1 _ _ _ _ _ _ hs _ heq
    · split at e
      · simp only [Option.map_eq_some_iff] at e
        obtain ⟨q, heq, rfl⟩ := e
        exact keeps_bump _ _ (keeps_placeT1 _ _ _ _ _ _ hs _ heq)
      · cases e

theorem keeps_addCorpus {s0 : State} (r : Req) (slot : Option Nat) (shards : List Nat) (base : Nat) (t3 : Bool) (s : State) (hs : Keeps s0 s) :
    Keeps s0 (addCorpus r slot shards base t3 s) := by
  unfold addCorpus
  repeat' (with_reducible first | assumption | apply keeps_openSlot | apply keeps_optS | (intro _) | refine Keeps.ite ?_ ?_ | split | dsimp only | simp only [Keeps.upd_iff])

theorem keeps_createCorpus {s0 : State} (r : Req) (s : State) (hs : Keeps s0 s) :
    Keeps s0 (createCorpus r s) := by
  unfold createCorpus
  repeat' (with_reducible first | assumption | exact Keeps.refl _ | apply keeps_addCorpus | apply keeps_badReq | apply keeps_bump | apply keeps_endReq | apply keeps_failReq | (show ∀ _, _ → _; apply keeps_placeCorpus) | (intro _) | refine Keeps.snd (by assumption) ?_ | refine Keeps.snd3 (by assumption) ?_ | refine Keeps.snd4 (by assumption) ?_ | refine Keeps.some1 (by assumption) ?_ | refine Keeps.some2 (by assumption) ?_ | refine Keeps.some3 (by assumption) ?_ | refine Keeps.fst (by assumption) ?_ | refine Keeps.ite ?_ ?_ | refine Keeps.ite2 ?_ ?_ | refine Keeps.ite3 ?_ ?_ | split | dsimp only | simp only [Keeps.upd_iff, List.length_map] | simp only [Keeps.upd_iff, length_updFirst] | simp only [Keeps.upd_iff])

theorem keeps_execCorpusCreate {s0 : State} (rid : Nat) (s : State) (hs : Keeps s0 s) :
    ∀ z, (execCorpusCreate rid s) = .next z → Keeps s0 z := by
  intro z e
  unfold execCorpusCreate at e
  try dsimp only at e
  first | (split at e <;> first | (injection e with e; subst e)) | (injection e with e; subst e) | skip
  repeat' (with_reducible first | assumption | apply keeps_createCorpus | apply keeps_onAdmitted | split | dsimp only | simp only [Keeps.upd_iff])

theorem keeps_dropCorpus {s0 : State} (c : Corp) (s : State) (hs : Keeps s0 s) :
    Keeps s0 (dropCorpus c s) := by
  unfold dropCorpus
  repeat' (with_reducible first | assumption | apply keeps_dirSet | apply keeps_discardVec | apply keeps_foldS | apply keeps_onCorpus | apply keeps_optS | apply keeps_unplace | (intro _) | refine Keeps.ite ?_ ?_ | split | dsimp only | simp only [Keeps.upd_iff])

theorem keeps_execCorpusDrop {s0 : State} (rid : Nat) (s : State) (hs : Keeps s0 s) :
    ∀ z, (execCorpusDrop rid s) = .next z → Keeps s0 z := by
  intro z e
  unfold execCorpusDrop at e
  try dsimp only at e
  first | (split at e <;> first | (injection e with e; subst e)) | (injection e with e; subst e) | skip
  repeat' (with_reducible first | assumption | apply keeps_dropCorpus | apply keeps_endReq | apply keeps_moveSearch | apply keeps_onCorpusReq | (intro _) | refine Keeps.ite ?_ ?_ | split | dsimp only | simp only [Keeps.upd_iff])

theorem keeps_beginSearch {s0 : State} (r : Req) (c : Corp) (s : State) (hs : Keeps s0 s) :
    Keeps s0 (beginSearch r c s) := by
  unfold beginSearch
  repeat' (with_reducible first | assumption | apply keeps_bump | apply keeps_failReq | apply keeps_foldS | apply keeps_moveSearch | apply keeps_onReq | apply keeps_tryShard | split | dsimp only | simp only [Keeps.upd_iff])

theorem keeps_execSearch {s0 : State} (rid : Nat) (s : State) (hs : Keeps s0 s) :
    ∀ z, (execSearch rid s) = .next z → Keeps s0 z := by
  intro z e
  unfold execSearch at e
  try dsimp only at e
  first | (split at e <;> first | (injection e with e; subst e)) | (injection e with e; subst e) | skip
  repeat' (with_reducible first | assumption | apply keeps_beginSearch | apply keeps_onCorpusReq | (intro _) | refine Keeps.ite ?_ ?_ | split | dsimp only | simp only [Keeps.upd_iff])

theorem keeps_beginUpdate {s0 : State} (r : Req) (s : State) (hs : Keeps s0 s) :
    Keeps s0 (beginUpdate r s) := by
  unfold beginUpdate
  repeat' (with_reducible first | assumption | apply keeps_foldS | apply keeps_onReq | apply keeps_routeItem | split | dsimp only | simp only [Keeps.upd_iff])

theorem keeps_execUpsert {s0 : State} (rid : Nat) (s : State) (hs : Keeps s0 s) :
    ∀ z, (execUpsert rid s) = .next z → Keeps s0 z := by
  intro z e
  unfold execUpsert at e
  try dsimp only at e
  first | (split at e <;> first | (injection e with e; subst e)) | (injection e with e; subst e) | skip
  repeat' (with_reducible first | assumption | apply keeps_beginUpdate | apply keeps_onCorpusReq | (intro _) | refine Keeps.ite ?_ ?_ | split | dsimp only | simp only [Keeps.upd_iff])

theorem keeps_execDelete {s0 : State} (rid : Nat) (s : State) (hs : Keeps s0 s) :
    ∀ z, (execDelete rid s) = .next z → Keeps s0 z := by
  intro z e
  unfold execDelete at e
  try dsimp only at e
  first | (split at e <;> first | (injection e with e; subst e)) | (injection e with e; subst e) | skip
  repeat' (with_reducible first | assumption | apply keeps_beginUpdate | apply keeps_onCorpusReq | (intro _) | refine Keeps.ite ?_ ?_ | split | dsimp only | simp only [Keeps.upd_iff])

theorem keeps_execItemAccepted {s0 : State} (rid : Nat) (i : Nat) (s : State) (hs : Keeps s0 s) :
    ∀ z, (execItemAccepted rid i s) = .next z → Keeps s0 z := by
  intro z e
  unfold execItemAccepted at e
  try dsimp only at e
  first | (split at e <;> first | (injection e with e; subst e)) | (injection e with e; subst e) | skip
  repeat' (with_reducible first | assumption | apply keeps_acceptItem | apply keeps_optS | split | dsimp only | simp only [Keeps.upd_iff])

theorem keeps_execShredDone {s0 : State} (rid : Nat) (s : State) (hs : Keeps s0 s) :
    ∀ z, (execShredDone rid s) = .next z → Keeps s0 z := by
  intro z e
  unfold execShredDone at e
  try dsimp only at e
  first | (split at e <;> first | (injection e with e; subst e)) | (injection e with e; subst e) | skip
  repeat' (with_reducible first | assumption | apply keeps_shredPart | apply keeps_shredReq | split | dsimp only | simp only [Keeps.upd_iff])

theorem keeps_execPatchEpoch {s0 : State} (s : State) (hs : Keeps s0 s) :
    ∀ z, (execPatchEpoch s) = .next z → Keeps s0 z := by
  intro z e
  unfold execPatchEpoch at e
  try dsimp only at e
  first | (split at e <;> first | (injection e with e; subst e)) | (injection e with e; subst e) | skip
  repeat' (with_reducible first | assumption | apply keeps_wantPatches | split | dsimp only | simp only [Keeps.upd_iff])

theorem keeps_rebuildCorpus {s0 : State} (c : Corp) (a : Nat) (t3 : Bool) (s : State) (hs : Keeps s0 s) :
    Keeps s0 (rebuildCorpus c a t3 s) := by
  unfold rebuildCorpus
  repeat' (with_reducible first | assumption | apply keeps_foldS | apply keeps_onCorpus | apply keeps_openSlot | apply keeps_optS | apply keeps_showCorpus | apply keeps_storeSlot | (intro _) | refine Keeps.ite ?_ ?_ | split | dsimp only | simp only [Keeps.upd_iff])

theorem keeps_execCorpusRebuildDone {s0 : State} (c : Nat) (ok : Bool) (s : State) (hs : Keeps s0 s) :
    ∀ z, (execCorpusRebuildDone c ok s) = .next z → Keeps s0 z := by
  intro z e
  unfold execCorpusRebuildDone at e
  try dsimp only at e
  first | (split at e <;> first | (injection e with e; subst e)) | (injection e with e; subst e) | skip
  repeat' (with_reducible first | assumption | exact Keeps.refl _ | apply keeps_bump | apply keeps_moveSearch | (show ∀ _, _ → _; apply keeps_placeCorpus) | apply keeps_rebuildCorpus | (intro _) | refine Keeps.snd (by assumption) ?_ | refine Keeps.snd3 (by assumption) ?_ | refine Keeps.snd4 (by assumption) ?_ | refine Keeps.some1 (by assumption) ?_ | refine Keeps.some2 (by assumption) ?_ | refine Keeps.some3 (by assumption) ?_ | refine Keeps.fst (by assumption) ?_ | refine Keeps.ite ?_ ?_ | refine Keeps.ite2 ?_ ?_ | refine Keeps.ite3 ?_ ?_ | split | dsimp only | simp only [Keeps.upd_iff, List.length_map] | simp only [Keeps.upd_iff, length_updFirst] | simp only [Keeps.upd_iff])

theorem keeps_reloadSlot {s0 : State} (t : Nat) (c : Nat) (k : Nat) (s : State) (hs : Keeps s0 s) :
    Keeps s0 (reloadSlot t c k s) := by
  unfold reloadSlot
  repeat' (with_reducible first | assumption | apply keeps_onCorpus | apply keeps_storeSlot | split | dsimp only | simp only [Keeps.upd_iff])

theorem keeps_execSlotReloadDone {s0 : State} (c : Nat) (s : State) (hs : Keeps s0 s) :
    ∀ z, (execSlotReloadDone c s) = .next z → Keeps s0 z := by
  intro z e
  unfold execSlotReloadDone at e
  try dsimp only at e
  first | (split at e <;> first | (injection e with e; subst e)) | (injection e with e; subst e) | skip
  repeat' (with_reducible first | assumption | apply keeps_foldS | apply keeps_moveSearch | apply keeps_reloadSlot | apply keeps_showCorpus | split | dsimp only | simp only [Keeps.upd_iff])

end Sys2Proof.Machine
end

