-- ==== Sys2Proof/Laws/KeepCtxOps.lean ====
section
/-! SUPPORT. KeepCtxOps: each operation of Machine/CtxOps.lean keeps the queue, the canonical form of memory and the
order of the free values (`Keeps`). -/
namespace Sys2Proof.Machine
set_option Elab.async false
set_option linter.all false

theorem keeps_onCtx {s0 : State} (h : Nat) (f : CtxS → CtxS) (s : State) (hs : Keeps s0 s) :
    Keeps s0 (onCtx h f s) := by
  unfold onCtx
  repeat' (with_reducible first | assumption | split | dsimp only | simp only [Keeps.upd_iff])

theorem keeps_countCtx {s0 : State} (s : State) (hs : Keeps s0 s) :
    Keeps s0 (countCtx s) := by
  unfold countCtx
  repeat' (with_reducible first | assumption | apply keeps_dirSet | split | dsimp only | simp only [Keeps.upd_iff])

theorem keeps_breakCtx {s0 : State} (h : Nat) (status : Nat) (s : State) (hs : Keeps s0 s) :
    Keeps s0 (breakCtx h status s) := by
  unfold breakCtx
  repeat' (with_reducible first | assumption | apply keeps_addNote | apply keeps_bump | apply keeps_onCtx | split | dsimp only | simp only [Keeps.upd_iff])

theorem keeps_spillWrite {s0 : State} (x : CtxS) (p : Nat) (off : Nat) (b : Bytes) (s : State) (hs : Keeps s0 s) :
    Keeps s0 (spillWrite x p off b s) := by
  unfold spillWrite
  repeat' (with_reducible first | assumption | apply keeps_bufferWrite | split | dsimp only | simp only [Keeps.upd_iff])

theorem keeps_putBlock {s0 : State} (x : CtxS) (l : Nat) (h : Nat) (b : Nat) (record : Bytes) (scale : Bytes) (s : State) (hs : Keeps s0 s) :
    Keeps s0 (putBlock x l h b record scale s) := by
  unfold putBlock
  repeat' (with_reducible first | assumption | apply keeps_foldS | apply keeps_putBytes | apply keeps_spillWrite | (intro _) | refine Keeps.ite ?_ ?_ | split | dsimp only | simp only [Keeps.upd_iff])

theorem keeps_quantHead {s0 : State} (hd : Nat) (first : Nat) (lh : Nat × Nat) (s : State) (hs : Keeps s0 s) :
    Keeps s0 (quantHead hd first lh s) := by
  unfold quantHead
  repeat' (with_reducible first | assumption | apply keeps_bumpBy | apply keeps_onCtx | apply keeps_putBlock | split | dsimp only | simp only [Keeps.upd_iff])

theorem keeps_quantBlock {s0 : State} (hd : Nat) (first : Nat) (s : State) (hs : Keeps s0 s) :
    Keeps s0 (quantBlock hd first s) := by
  unfold quantBlock
  repeat' (with_reducible first | assumption | apply keeps_foldS | apply keeps_onCtx | apply keeps_quantHead | split | dsimp only | simp only [Keeps.upd_iff])

theorem keeps_applyToken {s0 : State} (hd : Nat) (pos : Nat) (s : State) (hs : Keeps s0 s) :
    Keeps s0 (applyToken hd pos s) := by
  unfold applyToken
  repeat' (with_reducible first | assumption | apply keeps_bump | apply keeps_onCtx | apply keeps_quantBlock | split | dsimp only | simp only [Keeps.upd_iff])

theorem keeps_applyTokens {s0 : State} (x0 : Nat) (x1 : Nat) (x2 : State) (hx2 : Keeps s0 x2) :
    Keeps s0 (applyTokens x0 x1 x2) := by
  induction x0 generalizing x1 x2 with
  | zero =>
    unfold applyTokens
    all_goals try dsimp only
    repeat' (with_reducible first | assumption | exact Keeps.refl _ | apply keeps_applyToken | (intro _) | refine Keeps.snd (by assumption) ?_ | refine Keeps.snd3 (by assumption) ?_ | refine Keeps.snd4 (by assumption) ?_ | refine Keeps.some1 (by assumption) ?_ | refine Keeps.some2 (by assumption) ?_ | refine Keeps.some3 (by assumption) ?_ | refine Keeps.fst (by assumption) ?_ | refine Keeps.ite ?_ ?_ | refine Keeps.ite2 ?_ ?_ | refine Keeps.ite3 ?_ ?_ | split | dsimp only | simp only [Keeps.upd_iff, List.length_map] | simp only [Keeps.upd_iff, length_updFirst] | simp only [Keeps.upd_iff])
  | succ n ih =>
    unfold applyTokens
    all_goals try dsimp only
    repeat' (with_reducible first | assumption | exact Keeps.refl _ | apply keeps_applyToken | with_reducible apply ih | (intro _) | refine Keeps.snd (by assumption) ?_ | refine Keeps.snd3 (by assumption) ?_ | refine Keeps.snd4 (by assumption) ?_ | refine Keeps.some1 (by assumption) ?_ | refine Keeps.some2 (by assumption) ?_ | refine Keeps.some3 (by assumption) ?_ | refine Keeps.fst (by assumption) ?_ | refine Keeps.ite ?_ ?_ | refine Keeps.ite2 ?_ ?_ | refine Keeps.ite3 ?_ ?_ | split | dsimp only | simp only [Keeps.upd_iff, List.length_map] | simp only [Keeps.upd_iff, length_updFirst] | simp only [Keeps.upd_iff])

theorem keeps_applyAllTokens {s0 : State} (s : State) (hs : Keeps s0 s) :
    Keeps s0 (applyAllTokens s) := by
  unfold applyAllTokens
  repeat' (with_reducible first | assumption | apply keeps_applyTokens | apply keeps_foldS | (intro _) | refine Keeps.ite ?_ ?_ | split | dsimp only | simp only [Keeps.upd_iff])

theorem keeps_startFolds {s0 : State} (s : State) (hs : Keeps s0 s) :
    Keeps s0 (startFolds s) := by
  unfold startFolds
  repeat' (with_reducible first | assumption | split | dsimp only | simp only [Keeps.upd_iff])

theorem keeps_spillSketches {s0 : State} (x : CtxS) (ps : List Nat) (s : State) (hs : Keeps s0 s) :
    Keeps s0 (spillSketches x ps s) := by
  unfold spillSketches
  repeat' (with_reducible first | assumption | apply keeps_foldS | apply keeps_spillWrite | (intro _) | refine Keeps.ite ?_ ?_ | split | dsimp only | simp only [Keeps.upd_iff])

theorem keeps_foldDone {s0 : State} (x : CtxS) (s : State) (hs : Keeps s0 s) :
    Keeps s0 (foldDone x s) := by
  unfold foldDone
  repeat' (with_reducible first | assumption | apply keeps_bump | apply keeps_onCtx | apply keeps_spillSketches | split | dsimp only | simp only [Keeps.upd_iff])

theorem keeps_readKV {s0 : State} (x : CtxS) (p : Part) (l : Nat) (h : Nat) (pos : Nat) (kv : Nat) (s : State) (hs : Keeps s0 s) :
    Keeps s0 (readKV x p l h pos kv s).2.2.2 := by
  rw [readKV.eq_1]
  split
  · exact Keeps.of4 rfl hs
  · refine Keeps.of4 rfl ?_
    exact keeps_demandRead _ _ _ _ (keeps_demandRead _ _ _ _ hs)

theorem keeps_scorePos {s0 : State} (x : CtxS) (p : Part) (l : Nat) (h : Nat) (sq : Nat) (code : List Int) (a : HeadRun) (pos : Nat) (ha : Keeps s0 a.st) :
    Keeps s0 (scorePos x p l h sq code a pos).st := by
  unfold scorePos
  repeat' (with_reducible first | assumption | exact Keeps.refl _ | apply keeps_readKV | (intro _) | refine Keeps.snd (by assumption) ?_ | refine Keeps.snd3 (by assumption) ?_ | refine Keeps.snd4 (by assumption) ?_ | refine Keeps.some1 (by assumption) ?_ | refine Keeps.some2 (by assumption) ?_ | refine Keeps.some3 (by assumption) ?_ | refine Keeps.fst (by assumption) ?_ | refine Keeps.foldlOf HeadRun.st ?_ ?_ | refine Keeps.ite ?_ ?_ | refine Keeps.ite2 ?_ ?_ | refine Keeps.ite3 ?_ ?_ | split | dsimp only | simp only [Keeps.upd_iff, List.length_map] | simp only [Keeps.upd_iff, length_updFirst] | simp only [Keeps.upd_iff])

theorem keeps_valueOf {s0 : State} (x : CtxS) (p : Part) (l : Nat) (h : Nat) (pos : Nat) (s : State) (hs : Keeps s0 s) :
    Keeps s0 (valueOf x p l h pos s).2.2 := by
  unfold valueOf
  repeat' (with_reducible first | assumption | apply keeps_readKV | split | dsimp only | simp only [Keeps.upd_iff])

theorem keeps_gatherValues {s0 : State} (x : CtxS) (p : Part) (l : Nat) (h : Nat) (ps : List Nat) (s : State) (hs : Keeps s0 s) :
    Keeps s0 (gatherValues x p l h ps s).2.2 := by
  unfold gatherValues
  repeat' (with_reducible first | assumption | exact Keeps.refl _ | apply keeps_valueOf | (intro _) | refine Keeps.snd (by assumption) ?_ | refine Keeps.snd3 (by assumption) ?_ | refine Keeps.snd4 (by assumption) ?_ | refine Keeps.some1 (by assumption) ?_ | refine Keeps.some2 (by assumption) ?_ | refine Keeps.some3 (by assumption) ?_ | refine Keeps.fst (by assumption) ?_ | refine Keeps.getD ?_ ?_ | refine Keeps.elim ?_ ?_ | refine Keeps.elim2 ?_ ?_ | refine Keeps.foldl ?_ ?_ | refine Keeps.foldl2 ?_ ?_ | refine Keeps.foldl3 ?_ ?_ | refine Keeps.ite ?_ ?_ | refine Keeps.ite2 ?_ ?_ | refine Keeps.ite3 ?_ ?_ | split | dsimp only | simp only [Keeps.upd_iff, List.length_map] | simp only [Keeps.upd_iff, length_updFirst] | simp only [Keeps.upd_iff])

theorem keeps_headRecord {s0 : State} (x : CtxS) (p : Part) (h : Nat) (hq : Nat) (s : State) (hs : Keeps s0 s) :
    Keeps s0 (headRecord x p h hq s).2.2 := by
  unfold headRecord
  repeat' (with_reducible first | assumption | exact Keeps.refl _ | apply keeps_gatherValues | apply keeps_scorePos | (intro _) | refine Keeps.snd (by assumption) ?_ | refine Keeps.snd3 (by assumption) ?_ | refine Keeps.snd4 (by assumption) ?_ | refine Keeps.some1 (by assumption) ?_ | refine Keeps.some2 (by assumption) ?_ | refine Keeps.some3 (by assumption) ?_ | refine Keeps.fst (by assumption) ?_ | refine Keeps.foldlOf HeadRun.st ?_ ?_ | refine Keeps.ite ?_ ?_ | refine Keeps.ite2 ?_ ?_ | refine Keeps.ite3 ?_ ?_ | split | dsimp only | simp only [Keeps.upd_iff, List.length_map] | simp only [Keeps.upd_iff, length_updFirst] | simp only [Keeps.upd_iff])

theorem keeps_headRecords {s0 : State} (x : CtxS) (p : Part) (s : State) (hs : Keeps s0 s) :
    Keeps s0 (headRecords x p s).2.2 := by
  unfold headRecords
  repeat' (with_reducible first | assumption | exact Keeps.refl _ | apply keeps_headRecord | (intro _) | refine Keeps.snd (by assumption) ?_ | refine Keeps.snd3 (by assumption) ?_ | refine Keeps.snd4 (by assumption) ?_ | refine Keeps.some1 (by assumption) ?_ | refine Keeps.some2 (by assumption) ?_ | refine Keeps.some3 (by assumption) ?_ | refine Keeps.fst (by assumption) ?_ | refine Keeps.getD ?_ ?_ | refine Keeps.elim ?_ ?_ | refine Keeps.elim2 ?_ ?_ | refine Keeps.foldl ?_ ?_ | refine Keeps.foldl2 ?_ ?_ | refine Keeps.foldl3 ?_ ?_ | refine Keeps.ite ?_ ?_ | refine Keeps.ite2 ?_ ?_ | refine Keeps.ite3 ?_ ?_ | split | dsimp only | simp only [Keeps.upd_iff, List.length_map] | simp only [Keeps.upd_iff, length_updFirst] | simp only [Keeps.upd_iff])

theorem keeps_memberAnswer {s0 : State} (p : Part) (s : State) (hs : Keeps s0 s) :
    Keeps s0 (memberAnswer p s).2 := by
  unfold memberAnswer
  repeat' (with_reducible first | assumption | exact Keeps.refl _ | apply keeps_breakCtx | apply keeps_headRecords | (intro _) | refine Keeps.snd (by assumption) ?_ | refine Keeps.snd3 (by assumption) ?_ | refine Keeps.snd4 (by assumption) ?_ | refine Keeps.some1 (by assumption) ?_ | refine Keeps.some2 (by assumption) ?_ | refine Keeps.some3 (by assumption) ?_ | refine Keeps.fst (by assumption) ?_ | refine Keeps.ite ?_ ?_ | refine Keeps.ite2 ?_ ?_ | refine Keeps.ite3 ?_ ?_ | split | dsimp only | simp only [Keeps.upd_iff, List.length_map] | simp only [Keeps.upd_iff, length_updFirst] | simp only [Keeps.upd_iff])

theorem keeps_addMember {s0 : State} (p : Part) (s : State) (hs : Keeps s0 s) :
    Keeps s0 (addMember p s) := by
  unfold addMember
  repeat' (with_reducible first | assumption | apply keeps_foldS | apply keeps_issueParcel | apply keeps_newPart | apply keeps_onPart | (intro _) | refine Keeps.ite ?_ ?_ | split | dsimp only | simp only [Keeps.upd_iff])

theorem keeps_endAttend {s0 : State} (id : Nat) (s : State) (hs : Keeps s0 s) :
    Keeps s0 (endAttend id s) := by
  unfold endAttend
  repeat' (with_reducible first | assumption | split | dsimp only | simp only [Keeps.upd_iff])

theorem keeps_screenPart {s0 : State} (p : Part) (s : State) (hs : Keeps s0 s) :
    Keeps s0 (screenPart p s) := by
  unfold screenPart
  repeat' (with_reducible first | assumption | apply keeps_onPart | split | dsimp only | simp only [Keeps.upd_iff])

theorem keeps_startAttendPass {s0 : State} (s : State) (hs : Keeps s0 s) :
    Keeps s0 (startAttendPass s) := by
  unfold startAttendPass
  repeat' (with_reducible first | assumption | apply keeps_foldS | apply keeps_screenPart | apply keeps_setPass | split | dsimp only | simp only [Keeps.upd_iff])

theorem keeps_attendPassDone {s0 : State} (p : Pass) (s : State) (hs : Keeps s0 s) :
    Keeps s0 (attendPassDone p s) := by
  unfold attendPassDone
  repeat' (with_reducible first | assumption | apply keeps_foldS | apply keeps_onPart | (intro _) | refine Keeps.ite ?_ ?_ | split | dsimp only | simp only [Keeps.upd_iff])

theorem keeps_finishAttend {s0 : State} (rid : Nat) (s : State) (hs : Keeps s0 s) :
    Keeps s0 (finishAttend rid s) := by
  unfold finishAttend
  repeat' (with_reducible first | assumption | apply keeps_addCause | apply keeps_bump | apply keeps_failReq | apply keeps_finishReq | apply keeps_markLate | apply keeps_whenS | split | dsimp only | simp only [Keeps.upd_iff])

theorem keeps_memberFailed {s0 : State} (rid : Nat) (f : Nat × Nat) (s : State) (hs : Keeps s0 s) :
    Keeps s0 (memberFailed rid f s) := by
  unfold memberFailed
  repeat' (with_reducible first | assumption | apply keeps_addCause | apply keeps_failReq | apply keeps_onReq | split | dsimp only | simp only [Keeps.upd_iff])

theorem keeps_attendStep {s0 : State} (rid : Nat) (s : State) (hs : Keeps s0 s) :
    Keeps s0 (attendStep rid s) := by
  unfold attendStep
  repeat' (with_reducible first | assumption | apply keeps_finishAttend | split | dsimp only | simp only [Keeps.upd_iff])

theorem keeps_homeAttend {s0 : State} (r : Req) (m : TMsg) (s : State) (hs : Keeps s0 s) :
    Keeps s0 (homeAttend r m s) := by
  unfold homeAttend
  repeat' (with_reducible first | assumption | apply keeps_addCause | apply keeps_attendStep | apply keeps_foldS | apply keeps_memberFailed | apply keeps_onReq | apply keeps_whenS | split | dsimp only | simp only [Keeps.upd_iff])

theorem keeps_takeAnswer {s0 : State} (tag : Nat) (m : TMsg) (s : State) (hs : Keeps s0 s) :
    Keeps s0 (takeAnswer tag m s) := by
  unfold takeAnswer
  repeat' (with_reducible first | assumption | apply keeps_gatewaySearch | apply keeps_homeAttend | split | dsimp only | simp only [Keeps.upd_iff])

theorem keeps_runMember {s0 : State} (p : Part) (s : State) (hs : Keeps s0 s) :
    Keeps s0 (runMember p s) := by
  unfold runMember
  repeat' (with_reducible first | assumption | apply keeps_dropPart | apply keeps_endAttend | apply keeps_memberAnswer | apply keeps_onPart | apply keeps_takeAnswer | apply keeps_treeInput | split | dsimp only | simp only [Keeps.upd_iff])

theorem keeps_driveMembers {s0 : State} (x0 : Nat) (x1 : State) (hx1 : Keeps s0 x1) :
    Keeps s0 (driveMembers x0 x1) := by
  induction x0 generalizing x1 with
  | zero =>
    unfold driveMembers
    all_goals try dsimp only
    repeat' (with_reducible first | assumption | exact Keeps.refl _ | apply keeps_runMember | (intro _) | refine Keeps.snd (by assumption) ?_ | refine Keeps.snd3 (by assumption) ?_ | refine Keeps.snd4 (by assumption) ?_ | refine Keeps.some1 (by assumption) ?_ | refine Keeps.some2 (by assumption) ?_ | refine Keeps.some3 (by assumption) ?_ | refine Keeps.fst (by assumption) ?_ | refine Keeps.ite ?_ ?_ | refine Keeps.ite2 ?_ ?_ | refine Keeps.ite3 ?_ ?_ | split | dsimp only | simp only [Keeps.upd_iff, List.length_map] | simp only [Keeps.upd_iff, length_updFirst] | simp only [Keeps.upd_iff])
  | succ n ih =>
    unfold driveMembers
    all_goals try dsimp only
    repeat' (with_reducible first | assumption | exact Keeps.refl _ | apply keeps_runMember | with_reducible apply ih | (intro _) | refine Keeps.snd (by assumption) ?_ | refine Keeps.snd3 (by assumption) ?_ | refine Keeps.snd4 (by assumption) ?_ | refine Keeps.some1 (by assumption) ?_ | refine Keeps.some2 (by assumption) ?_ | refine Keeps.some3 (by assumption) ?_ | refine Keeps.fst (by assumption) ?_ | refine Keeps.ite ?_ ?_ | refine Keeps.ite2 ?_ ?_ | refine Keeps.ite3 ?_ ?_ | split | dsimp only | simp only [Keeps.upd_iff, List.length_map] | simp only [Keeps.upd_iff, length_updFirst] | simp only [Keeps.upd_iff])

theorem keeps_movePaths {s0 : State} (s : State) (hs : Keeps s0 s) :
    Keeps s0 (movePaths s) := by
  unfold movePaths
  repeat' (with_reducible first | assumption | apply keeps_driveMembers | apply keeps_moveSearch | apply keeps_pruneParts | split | dsimp only | simp only [Keeps.upd_iff])

end Sys2Proof.Machine
end

