-- ==== Sys2Proof/Laws/KeepContext.lean ====
section
/-! SUPPORT. KeepContext: each operation of Machine/Context.lean keeps the queue, the canonical form of memory and the
order of the free values (`Keeps`). -/
namespace Sys2Proof.Machine
set_option Elab.async false
set_option linter.all false

theorem keeps_setProfile {s0 : State} (r : Req) (s : State) (hs : Keeps s0 s) :
    Keeps s0 (setProfile r s) := by
  unfold setProfile
  repeat' (with_reducible first | assumption | apply keeps_endReq | apply keeps_failReq | split | dsimp only | simp only [Keeps.upd_iff])

theorem keeps_execCtxProfile {s0 : State} (rid : Nat) (s : State) (hs : Keeps s0 s) :
    ∀ z, (execCtxProfile rid s) = .next z → Keeps s0 z := by
  intro z e
  unfold execCtxProfile at e
  try dsimp only at e
  first | (split at e <;> first | (injection e with e; subst e)) | (injection e with e; subst e) | skip
  repeat' (with_reducible first | assumption | apply keeps_onAdmitted | apply keeps_setProfile | split | dsimp only | simp only [Keeps.upd_iff])

theorem keeps_placeSpans {s0 : State} (h : Nat) (t : Nat) (p : Bytes) (spans : Nat) (s : State) (z : Nat) (hs : Keeps s0 s) :
    ∀ r, (placeSpans h t p spans s z) = some r → Keeps s0 r.2.2 := by
  intro r e
  unfold placeSpans at e
  split at e
  · cases e; exact hs
  · simp only [Option.map_eq_some_iff] at e
    obtain ⟨q, heq, rfl⟩ := e
    exact keeps_placeT1 _ _ _ _ _ _ hs _ heq

theorem keeps_fitSession {s0 : State} (h : Nat) (t : Nat) (p : Bytes) (spans : Nat) (s : State) (hs : Keeps s0 s) :
    ∀ r, (fitSession h t p spans s) = some r → Keeps s0 r.2.2 := by
  intro r e
  unfold fitSession at e
  obtain ⟨z, -, e⟩ := List.exists_of_findSome?_eq_some e
  exact keeps_placeSpans _ _ _ _ _ _ hs _ e

theorem keeps_enterCtx {s0 : State} (x : CtxS) (s : State) (hs : Keeps s0 s) :
    Keeps s0 (enterCtx x s) := by
  unfold enterCtx
  repeat' (with_reducible first | assumption | apply keeps_countCtx | split | dsimp only | simp only [Keeps.upd_iff])

theorem keeps_openLocal {s0 : State} (x : CtxS) (s : State) (hs : Keeps s0 s) :
    Keeps s0 (openLocal x s).2.2 := by
  unfold openLocal
  repeat' (with_reducible first | assumption | exact Keeps.refl _ | (show ∀ _, _ → _; apply keeps_allocRun) | apply keeps_bump | apply keeps_enterCtx | (show ∀ _, _ → _; apply keeps_fitSession) | (intro _) | refine Keeps.snd (by assumption) ?_ | refine Keeps.snd3 (by assumption) ?_ | refine Keeps.snd4 (by assumption) ?_ | refine Keeps.some1 (by assumption) ?_ | refine Keeps.some2 (by assumption) ?_ | refine Keeps.some3 (by assumption) ?_ | refine Keeps.fst (by assumption) ?_ | refine Keeps.ite ?_ ?_ | refine Keeps.ite2 ?_ ?_ | refine Keeps.ite3 ?_ ?_ | split | dsimp only | simp only [Keeps.upd_iff, List.length_map] | simp only [Keeps.upd_iff, length_updFirst] | simp only [Keeps.upd_iff])

theorem keeps_freshHandle {s0 : State} (s : State) (hs : Keeps s0 s) :
    Keeps s0 (freshHandle s).2 := by
  unfold freshHandle
  repeat' (with_reducible first | assumption | exact Keeps.refl _ | apply keeps_draw | (intro _) | refine Keeps.snd (by assumption) ?_ | refine Keeps.snd3 (by assumption) ?_ | refine Keeps.snd4 (by assumption) ?_ | refine Keeps.some1 (by assumption) ?_ | refine Keeps.some2 (by assumption) ?_ | refine Keeps.some3 (by assumption) ?_ | refine Keeps.fst (by assumption) ?_ | refine Keeps.getD ?_ ?_ | refine Keeps.elim ?_ ?_ | refine Keeps.elim2 ?_ ?_ | refine Keeps.foldl ?_ ?_ | refine Keeps.foldl2 ?_ ?_ | refine Keeps.foldl3 ?_ ?_ | refine Keeps.ite ?_ ?_ | refine Keeps.ite2 ?_ ?_ | refine Keeps.ite3 ?_ ?_ | split | dsimp only | simp only [Keeps.upd_iff, List.length_map] | simp only [Keeps.upd_iff, length_updFirst] | simp only [Keeps.upd_iff])

theorem keeps_openStep {s0 : State} (rid : Nat) (s : State) (hs : Keeps s0 s) :
    Keeps s0 (openStep rid s) := by
  unfold openStep
  repeat' (with_reducible first | assumption | apply keeps_endReq | split | dsimp only | simp only [Keeps.upd_iff])

theorem keeps_freeCtx {s0 : State} (h : Nat) (s : State) (hs : Keeps s0 s) :
    Keeps s0 (freeCtx h s) := by
  unfold freeCtx
  repeat' (with_reducible first | assumption | apply keeps_countCtx | apply keeps_discard | apply keeps_optS | apply keeps_unplace | (intro _) | refine Keeps.ite ?_ ?_ | split | dsimp only | simp only [Keeps.upd_iff])

theorem keeps_toMember {s0 : State} (op : Nat) (post : Nat) (t : Nat) (tag : Nat) (inl : Bytes) (data : Bytes) (rid : Nat) (s : State) (hs : Keeps s0 s) :
    ∀ r, (toMember op post t tag inl data rid s) = some r → Keeps s0 r := by
  intro r e
  unfold toMember at e
  try dsimp only at e
  repeat' (split at e)
  all_goals first | contradiction | (injection e with e; subst e) | skip
  repeat' (with_reducible first | assumption | exact Keeps.refl _ | (show ∀ _, _ → _; apply keeps_schedSend) | (intro _) | refine Keeps.snd (by assumption) ?_ | refine Keeps.snd3 (by assumption) ?_ | refine Keeps.snd4 (by assumption) ?_ | refine Keeps.some1 (by assumption) ?_ | refine Keeps.some2 (by assumption) ?_ | refine Keeps.some3 (by assumption) ?_ | refine Keeps.fst (by assumption) ?_ | refine Keeps.ite ?_ ?_ | refine Keeps.ite2 ?_ ?_ | refine Keeps.ite3 ?_ ?_ | split | dsimp only | simp only [Keeps.upd_iff, List.length_map] | simp only [Keeps.upd_iff, length_updFirst] | simp only [Keeps.upd_iff])

theorem keeps_closeMembers {s0 : State} (x : CtxS) (s : State) (hs : Keeps s0 s) :
    Keeps s0 (closeMembers x s) := by
  unfold closeMembers
  repeat' (with_reducible first | assumption | exact Keeps.refl _ | apply keeps_foldS | (show ∀ _, _ → _; apply keeps_toMember) | (intro _) | refine Keeps.snd (by assumption) ?_ | refine Keeps.snd3 (by assumption) ?_ | refine Keeps.snd4 (by assumption) ?_ | refine Keeps.some1 (by assumption) ?_ | refine Keeps.some2 (by assumption) ?_ | refine Keeps.some3 (by assumption) ?_ | refine Keeps.fst (by assumption) ?_ | refine Keeps.getD ?_ ?_ | refine Keeps.elim ?_ ?_ | refine Keeps.elim2 ?_ ?_ | refine Keeps.foldl ?_ ?_ | refine Keeps.foldl2 ?_ ?_ | refine Keeps.foldl3 ?_ ?_ | refine Keeps.ite ?_ ?_ | refine Keeps.ite2 ?_ ?_ | refine Keeps.ite3 ?_ ?_ | split | dsimp only | simp only [Keeps.upd_iff, List.length_map] | simp only [Keeps.upd_iff, length_updFirst] | simp only [Keeps.upd_iff])

theorem keeps_openFails {s0 : State} (rid : Nat) (st : Nat) (s : State) (hs : Keeps s0 s) :
    Keeps s0 (openFails rid st s) := by
  unfold openFails
  repeat' (with_reducible first | assumption | apply keeps_closeMembers | apply keeps_failReq | apply keeps_freeCtx | apply keeps_optS | split | dsimp only | simp only [Keeps.upd_iff])

theorem keeps_openAck {s0 : State} (rid : Nat) (post : Nat) (st : Nat) (z : Nat) (s : State) (hs : Keeps s0 s) :
    Keeps s0 (openAck rid post st z s) := by
  unfold openAck
  repeat' (with_reducible first | assumption | apply keeps_onReq | apply keeps_openFails | apply keeps_openStep | split | dsimp only | simp only [Keeps.upd_iff])

theorem keeps_askMember {s0 : State} (rid : Nat) (x : CtxS) (m : Nat) (s : State) (hs : Keeps s0 s) :
    Keeps s0 (askMember rid x m s) := by
  unfold askMember
  repeat' (with_reducible first | assumption | exact Keeps.refl _ | apply keeps_openFails | (show ∀ _, _ → _; apply keeps_toMember) | (intro _) | refine Keeps.snd (by assumption) ?_ | refine Keeps.snd3 (by assumption) ?_ | refine Keeps.snd4 (by assumption) ?_ | refine Keeps.some1 (by assumption) ?_ | refine Keeps.some2 (by assumption) ?_ | refine Keeps.some3 (by assumption) ?_ | refine Keeps.fst (by assumption) ?_ | refine Keeps.ite ?_ ?_ | refine Keeps.ite2 ?_ ?_ | refine Keeps.ite3 ?_ ?_ | split | dsimp only | simp only [Keeps.upd_iff, List.length_map] | simp only [Keeps.upd_iff, length_updFirst] | simp only [Keeps.upd_iff])

theorem keeps_openSession {s0 : State} (r : Req) (s : State) (hs : Keeps s0 s) :
    Keeps s0 (openSession r s) := by
  unfold openSession
  repeat' (with_reducible first | assumption | exact Keeps.refl _ | apply keeps_askMember | apply keeps_failReq | apply keeps_foldS | apply keeps_freshHandle | apply keeps_onReq | apply keeps_openLocal | apply keeps_openStep | (intro _) | refine Keeps.snd (by assumption) ?_ | refine Keeps.snd3 (by assumption) ?_ | refine Keeps.snd4 (by assumption) ?_ | refine Keeps.some1 (by assumption) ?_ | refine Keeps.some2 (by assumption) ?_ | refine Keeps.some3 (by assumption) ?_ | refine Keeps.fst (by assumption) ?_ | refine Keeps.ite ?_ ?_ | refine Keeps.ite2 ?_ ?_ | refine Keeps.ite3 ?_ ?_ | split | dsimp only | simp only [Keeps.upd_iff, List.length_map] | simp only [Keeps.upd_iff, length_updFirst] | simp only [Keeps.upd_iff])

theorem keeps_execCtxOpen {s0 : State} (rid : Nat) (s : State) (hs : Keeps s0 s) :
    ∀ z, (execCtxOpen rid s) = .next z → Keeps s0 z := by
  intro z e
  unfold execCtxOpen at e
  try dsimp only at e
  first | (split at e <;> first | (injection e with e; subst e)) | (injection e with e; subst e) | skip
  repeat' (with_reducible first | assumption | apply keeps_onAdmitted | apply keeps_openSession | split | dsimp only | simp only [Keeps.upd_iff])

theorem keeps_memberOpen {s0 : State} (home : Nat) (t : Nat) (tag : Nat) (inl : Bytes) (data : Bytes) (s : State) (hs : Keeps s0 s) :
    Keeps s0 (memberOpen home t tag inl data s) := by
  unfold memberOpen
  repeat' (with_reducible first | assumption | exact Keeps.refl _ | apply keeps_openLocal | (show ∀ _, _ → _; apply keeps_toMember) | (intro _) | refine Keeps.snd (by assumption) ?_ | refine Keeps.snd3 (by assumption) ?_ | refine Keeps.snd4 (by assumption) ?_ | refine Keeps.some1 (by assumption) ?_ | refine Keeps.some2 (by assumption) ?_ | refine Keeps.some3 (by assumption) ?_ | refine Keeps.fst (by assumption) ?_ | refine Keeps.getD ?_ ?_ | refine Keeps.elim ?_ ?_ | refine Keeps.elim2 ?_ ?_ | refine Keeps.foldl ?_ ?_ | refine Keeps.foldl2 ?_ ?_ | refine Keeps.foldl3 ?_ ?_ | refine Keeps.ite ?_ ?_ | refine Keeps.ite2 ?_ ?_ | refine Keeps.ite3 ?_ ?_ | split | dsimp only | simp only [Keeps.upd_iff, List.length_map] | simp only [Keeps.upd_iff, length_updFirst] | simp only [Keeps.upd_iff])

theorem keeps_onCtxReq {s0 : State} (rid : Nat) (type : Nat) (f : Req → CtxS → State → State) (s : State) (hf : ∀ y0 y1 u, Keeps s0 u → Keeps s0 (f y0 y1 u)) (hs : Keeps s0 s) :
    Keeps s0 (onCtxReq rid type f s) := by
  unfold onCtxReq
  repeat' (with_reducible first | assumption | apply keeps_failReq | apply keeps_onAdmitted | apply hf | (intro _) | refine Keeps.ite ?_ ?_ | split | dsimp only | simp only [Keeps.upd_iff])

theorem keeps_abortOthers {s0 : State} (rid : Nat) (t : Nat) (h : Nat) (s : State) (hs : Keeps s0 s) :
    Keeps s0 (abortOthers rid t h s) := by
  unfold abortOthers
  repeat' (with_reducible first | assumption | apply keeps_failReq | apply keeps_foldS | (intro _) | refine Keeps.ite ?_ ?_ | split | dsimp only | simp only [Keeps.upd_iff])

theorem keeps_closeLocal {s0 : State} (h : Nat) (s : State) (hs : Keeps s0 s) :
    Keeps s0 (closeLocal h s) := by
  unfold closeLocal
  repeat' (with_reducible first | assumption | apply keeps_countCtx | apply keeps_onCtx | split | dsimp only | simp only [Keeps.upd_iff])

theorem keeps_execCtxClose {s0 : State} (rid : Nat) (s : State) (hs : Keeps s0 s) :
    ∀ z, (execCtxClose rid s) = .next z → Keeps s0 z := by
  intro z e
  unfold execCtxClose at e
  try dsimp only at e
  first | (split at e <;> first | (injection e with e; subst e)) | (injection e with e; subst e) | skip
  repeat' (with_reducible first | assumption | apply keeps_abortOthers | apply keeps_closeLocal | apply keeps_closeMembers | apply keeps_endReq | apply keeps_movePaths | apply keeps_onCtxReq | (intro _) | refine Keeps.ite ?_ ?_ | split | dsimp only | simp only [Keeps.upd_iff])

theorem keeps_freeClosed {s0 : State} (s : State) (hs : Keeps s0 s) :
    Keeps s0 (freeClosed s) := by
  unfold freeClosed
  repeat' (with_reducible first | assumption | apply keeps_foldS | apply keeps_freeCtx | (intro _) | refine Keeps.ite ?_ ?_ | split | dsimp only | simp only [Keeps.upd_iff])

theorem keeps_acceptToken {s0 : State} (rid : Nat) (h : Nat) (n : Nat) (s : State) (hs : Keeps s0 s) :
    Keeps s0 (acceptToken rid h n s) := by
  unfold acceptToken
  repeat' (with_reducible first | assumption | apply keeps_endReq | apply keeps_onCtx | split | dsimp only | simp only [Keeps.upd_iff])

theorem keeps_appendToken {s0 : State} (r : Req) (x : CtxS) (s : State) (hs : Keeps s0 s) :
    Keeps s0 (appendToken r x s) := by
  unfold appendToken
  repeat' (with_reducible first | assumption | exact Keeps.refl _ | apply keeps_acceptToken | apply keeps_bump | apply keeps_failReq | apply keeps_onCtx | apply keeps_onReq | (show ∀ _, _ → _; apply keeps_toMember) | (intro _) | refine Keeps.snd (by assumption) ?_ | refine Keeps.snd3 (by assumption) ?_ | refine Keeps.snd4 (by assumption) ?_ | refine Keeps.some1 (by assumption) ?_ | refine Keeps.some2 (by assumption) ?_ | refine Keeps.some3 (by assumption) ?_ | refine Keeps.fst (by assumption) ?_ | refine Keeps.ite ?_ ?_ | refine Keeps.ite2 ?_ ?_ | refine Keeps.ite3 ?_ ?_ | split | dsimp only | simp only [Keeps.upd_iff, List.length_map] | simp only [Keeps.upd_iff, length_updFirst] | simp only [Keeps.upd_iff])

theorem keeps_execCtxAppend {s0 : State} (rid : Nat) (s : State) (hs : Keeps s0 s) :
    ∀ z, (execCtxAppend rid s) = .next z → Keeps s0 z := by
  intro z e
  unfold execCtxAppend at e
  try dsimp only at e
  first | (split at e <;> first | (injection e with e; subst e)) | (injection e with e; subst e) | skip
  repeat' (with_reducible first | assumption | apply keeps_appendToken | apply keeps_onCtxReq | split | dsimp only | simp only [Keeps.upd_iff])

theorem keeps_nextAppends {s0 : State} (t : Nat) (h : Nat) (s : State) (hs : Keeps s0 s) :
    Keeps s0 (nextAppends t h s) := by
  unfold nextAppends
  repeat' (with_reducible first | assumption | apply keeps_appendToken | apply keeps_foldS | apply keeps_onCtxReq | (intro _) | refine Keeps.ite ?_ ?_ | split | dsimp only | simp only [Keeps.upd_iff])

theorem keeps_appendAck {s0 : State} (rid : Nat) (st : Nat) (s : State) (hs : Keeps s0 s) :
    Keeps s0 (appendAck rid st s) := by
  unfold appendAck
  repeat' (with_reducible first | assumption | apply keeps_acceptToken | apply keeps_disputeCtx | apply keeps_failReq | apply keeps_nextAppends | apply keeps_whenS | split | dsimp only | simp only [Keeps.upd_iff])

theorem keeps_memberAppend {s0 : State} (home : Nat) (t : Nat) (tag : Nat) (inl : Bytes) (body : Bytes) (s : State) (hs : Keeps s0 s) :
    Keeps s0 (memberAppend home t tag inl body s) := by
  unfold memberAppend
  repeat' (with_reducible first | assumption | exact Keeps.refl _ | apply keeps_disputeCtx | apply keeps_onCtx | (show ∀ _, _ → _; apply keeps_toMember) | (intro _) | refine Keeps.snd (by assumption) ?_ | refine Keeps.snd3 (by assumption) ?_ | refine Keeps.snd4 (by assumption) ?_ | refine Keeps.some1 (by assumption) ?_ | refine Keeps.some2 (by assumption) ?_ | refine Keeps.some3 (by assumption) ?_ | refine Keeps.fst (by assumption) ?_ | refine Keeps.getD ?_ ?_ | refine Keeps.elim ?_ ?_ | refine Keeps.elim2 ?_ ?_ | refine Keeps.foldl ?_ ?_ | refine Keeps.foldl2 ?_ ?_ | refine Keeps.foldl3 ?_ ?_ | refine Keeps.ite ?_ ?_ | refine Keeps.ite2 ?_ ?_ | refine Keeps.ite3 ?_ ?_ | split | dsimp only | simp only [Keeps.upd_iff, List.length_map] | simp only [Keeps.upd_iff, length_updFirst] | simp only [Keeps.upd_iff])

theorem keeps_sendMember {s0 : State} (r : Req) (a : AParam) (m : Nat) (s : State) (hs : Keeps s0 s) :
    Keeps s0 (sendMember r a m s) := by
  unfold sendMember
  repeat' (with_reducible first | assumption | exact Keeps.refl _ | apply keeps_memberFailed | (show ∀ _, _ → _; apply keeps_schedSend) | (intro _) | refine Keeps.snd (by assumption) ?_ | refine Keeps.snd3 (by assumption) ?_ | refine Keeps.snd4 (by assumption) ?_ | refine Keeps.some1 (by assumption) ?_ | refine Keeps.some2 (by assumption) ?_ | refine Keeps.some3 (by assumption) ?_ | refine Keeps.fst (by assumption) ?_ | refine Keeps.ite ?_ ?_ | refine Keeps.ite2 ?_ ?_ | refine Keeps.ite3 ?_ ?_ | split | dsimp only | simp only [Keeps.upd_iff, List.length_map] | simp only [Keeps.upd_iff, length_updFirst] | simp only [Keeps.upd_iff])

theorem keeps_beginAttend {s0 : State} (r : Req) (x : CtxS) (s : State) (hs : Keeps s0 s) :
    Keeps s0 (beginAttend r x s) := by
  unfold beginAttend
  repeat' (with_reducible first | assumption | apply keeps_addMember | apply keeps_attendStep | apply keeps_foldS | apply keeps_movePaths | apply keeps_onReq | apply keeps_sendMember | split | dsimp only | simp only [Keeps.upd_iff])

theorem keeps_execCtxAttend {s0 : State} (rid : Nat) (s : State) (hs : Keeps s0 s) :
    ∀ z, (execCtxAttend rid s) = .next z → Keeps s0 z := by
  intro z e
  unfold execCtxAttend at e
  try dsimp only at e
  first | (split at e <;> first | (injection e with e; subst e)) | (injection e with e; subst e) | skip
  repeat' (with_reducible first | assumption | apply keeps_beginAttend | apply keeps_onCtxReq | (intro _) | refine Keeps.ite ?_ ?_ | split | dsimp only | simp only [Keeps.upd_iff])

theorem keeps_memberAttend {s0 : State} (home : Nat) (t : Nat) (tag : Nat) (cause : Nat) (mode : Nat) (layer : Nat) (point : Nat) (inl : Bytes) (q : Bytes) (s : State) (hs : Keeps s0 s) :
    Keeps s0 (memberAttend home t tag cause mode layer point inl q s) := by
  unfold memberAttend
  repeat' (with_reducible first | assumption | apply keeps_addMember | apply keeps_movePaths | apply keeps_treeInput | split | dsimp only | simp only [Keeps.upd_iff])

theorem keeps_execTokenFoldDone {s0 : State} (h : Nat) (s : State) (hs : Keeps s0 s) :
    ∀ z, (execTokenFoldDone h s) = .next z → Keeps s0 z := by
  intro z e
  unfold execTokenFoldDone at e
  try dsimp only at e
  first | (split at e <;> first | (injection e with e; subst e)) | (injection e with e; subst e) | skip
  repeat' (with_reducible first | assumption | apply keeps_foldDone | apply keeps_movePaths | split | dsimp only | simp only [Keeps.upd_iff])

end Sys2Proof.Machine
end

