-- ==== Sys2Proof/Laws/KeepEmbOps.lean ====
section
/-! SUPPORT. KeepEmbOps: each operation of Machine/EmbOps.lean keeps the queue, the canonical form of memory and the
order of the free values (`Keeps`). -/
namespace Sys2Proof.Machine
set_option Elab.async false
set_option linter.all false

theorem keeps_onTab {s0 : State} (slot : Nat) (f : Tab → Tab) (s : State) (hs : Keeps s0 s) :
    Keeps s0 (onTab slot f s) := by
  unfold onTab
  repeat' (with_reducible first | assumption | split | dsimp only | simp only [Keeps.upd_iff])

theorem keeps_tabBump {s0 : State} (slot : Nat) (sub : Nat) (n : Nat) (s : State) (hs : Keeps s0 s) :
    Keeps s0 (tabBump slot sub n s) := by
  unfold tabBump
  repeat' (with_reducible first | assumption | apply keeps_bumpBy | split | dsimp only | simp only [Keeps.upd_iff])

theorem keeps_breakTab {s0 : State} (slot : Nat) (s : State) (hs : Keeps s0 s) :
    Keeps s0 (breakTab slot s) := by
  unfold breakTab
  repeat' (with_reducible first | assumption | apply keeps_addNote | apply keeps_onTab | split | dsimp only | simp only [Keeps.upd_iff])

theorem keeps_zeroRange {s0 : State} (a : Nat) (n : Nat) (s : State) (hs : Keeps s0 s) :
    Keeps s0 (zeroRange a n s) := Keeps.upd (u := s) hs (fun h => cellsWf_filter _ _ h) (List.prefix_refl _) (List.prefix_refl _) (List.prefix_refl _)
    (Nat.le_refl _) (Nat.le_refl _) (Nat.le_refl _) (Nat.le_refl _) (Nat.le_refl _) (Nat.le_refl _) (Nat.le_refl _)

theorem keeps_showHot {s0 : State} (s : State) (hs : Keeps s0 s) :
    Keeps s0 (showHot s) := by
  unfold showHot
  repeat' (with_reducible first | assumption | apply keeps_dirSet | split | dsimp only | simp only [Keeps.upd_iff])

theorem keeps_hotLost {s0 : State} (slot : Nat) (row : Nat) (s : State) (hs : Keeps s0 s) :
    Keeps s0 (hotLost slot row s) := by
  unfold hotLost
  repeat' (with_reducible first | assumption | apply keeps_bump | apply keeps_onTab | apply keeps_showHot | split | dsimp only | simp only [Keeps.upd_iff])

theorem keeps_readRow {s0 : State} (w : Who) (slot : Nat) (row : Nat) (off : Nat) (n : Nat) (s : State) (hs : Keeps s0 s) :
    Keeps s0 (readRow w slot row off n s).2.2 := by
  unfold readRow
  repeat' (with_reducible first | assumption | exact Keeps.refl _ | apply keeps_demandRead | apply keeps_hotLost | (intro _) | refine Keeps.snd (by assumption) ?_ | refine Keeps.snd3 (by assumption) ?_ | refine Keeps.snd4 (by assumption) ?_ | refine Keeps.some1 (by assumption) ?_ | refine Keeps.some2 (by assumption) ?_ | refine Keeps.some3 (by assumption) ?_ | refine Keeps.fst (by assumption) ?_ | refine Keeps.ite ?_ ?_ | refine Keeps.ite2 ?_ ?_ | refine Keeps.ite3 ?_ ?_ | split | dsimp only | simp only [Keeps.upd_iff, List.length_map] | simp only [Keeps.upd_iff, length_updFirst] | simp only [Keeps.upd_iff])

theorem keeps_writeRow {s0 : State} (w : Who) (atomic : Bool) (slot : Nat) (row : Nat) (off : Nat) (b : Bytes) (s : State) (hs : Keeps s0 s) :
    Keeps s0 (writeRow w atomic slot row off b s).2 := by
  unfold writeRow
  repeat' (with_reducible first | assumption | apply keeps_demandWrite | split | dsimp only | simp only [Keeps.upd_iff])

theorem keeps_onBatch {s0 : State} (slot : Nat) (b : Batch) (f : Batch → Batch) (s : State) (hs : Keeps s0 s) :
    Keeps s0 (onBatch slot b f s) := by
  unfold onBatch
  repeat' (with_reducible first | assumption | apply keeps_onTab | split | dsimp only | simp only [Keeps.upd_iff])

theorem keeps_dropBatch {s0 : State} (slot : Nat) (b : Batch) (s : State) (hs : Keeps s0 s) :
    Keeps s0 (dropBatch slot b s) := by
  unfold dropBatch
  repeat' (with_reducible first | assumption | apply keeps_onTab | split | dsimp only | simp only [Keeps.upd_iff])

theorem keeps_pruneBatches {s0 : State} (slot : Nat) (s : State) (hs : Keeps s0 s) :
    Keeps s0 (pruneBatches slot s) := by
  unfold pruneBatches
  repeat' (with_reducible first | assumption | apply keeps_onTab | split | dsimp only | simp only [Keeps.upd_iff])

theorem keeps_failBatch {s0 : State} (slot : Nat) (status : Nat) (b : Batch) (s : State) (hs : Keeps s0 s) :
    Keeps s0 (failBatch slot status b s) := by
  unfold failBatch
  repeat' (with_reducible first | assumption | apply keeps_dropBatch | apply keeps_failReq | apply keeps_foldS | (intro _) | refine Keeps.ite ?_ ?_ | split | dsimp only | simp only [Keeps.upd_iff])

theorem keeps_deadFail {s0 : State} (slot : Nat) (t : Tab) (b : Batch) (s : State) (hs : Keeps s0 s) :
    Keeps s0 (deadFail slot t b s) := by
  unfold deadFail
  repeat' (with_reducible first | assumption | apply keeps_breakTab | apply keeps_failBatch | apply keeps_raise | split | dsimp only | simp only [Keeps.upd_iff])

theorem keeps_addRefs {s0 : State} (slot : Nat) (rows : List Nat) (s : State) (hs : Keeps s0 s) :
    Keeps s0 (addRefs slot rows s) := by
  unfold addRefs
  repeat' (with_reducible first | assumption | apply keeps_onTab | split | dsimp only | simp only [Keeps.upd_iff])

theorem keeps_countSubst {s0 : State} (slot : Nat) (l : List (Nat × Nat)) (s : State) (hs : Keeps s0 s) :
    Keeps s0 (countSubst slot l s) := by
  unfold countSubst
  repeat' (with_reducible first | assumption | apply keeps_foldS | apply keeps_tabBump | (intro _) | refine Keeps.ite ?_ ?_ | split | dsimp only | simp only [Keeps.upd_iff])

theorem keeps_startBatch {s0 : State} (slot : Nat) (b : Batch) (s : State) (hs : Keeps s0 s) :
    Keeps s0 (startBatch slot b s) := by
  unfold startBatch
  repeat' (with_reducible first | assumption | apply keeps_addRefs | apply keeps_countSubst | apply keeps_deadFail | apply keeps_onBatch | apply keeps_tabBump | split | dsimp only | simp only [Keeps.upd_iff])

theorem keeps_applyWrites {s0 : State} (slot : Nat) (b : Batch) (s : State) (hs : Keeps s0 s) :
    Keeps s0 (applyWrites slot b s) := by
  unfold applyWrites
  repeat' (with_reducible first | assumption | exact Keeps.refl _ | apply keeps_dropBatch | apply keeps_endReq | apply keeps_failReq | apply keeps_foldS | apply keeps_onBatch | apply keeps_onTab | apply keeps_writeRow | (intro _) | refine Keeps.snd (by assumption) ?_ | refine Keeps.snd3 (by assumption) ?_ | refine Keeps.snd4 (by assumption) ?_ | refine Keeps.some1 (by assumption) ?_ | refine Keeps.some2 (by assumption) ?_ | refine Keeps.some3 (by assumption) ?_ | refine Keeps.fst (by assumption) ?_ | refine Keeps.ite ?_ ?_ | refine Keeps.ite2 ?_ ?_ | refine Keeps.ite3 ?_ ?_ | split | dsimp only | simp only [Keeps.upd_iff, List.length_map] | simp only [Keeps.upd_iff, length_updFirst] | simp only [Keeps.upd_iff])

theorem keeps_moveTab {s0 : State} (slot : Nat) (s : State) (hs : Keeps s0 s) :
    Keeps s0 (moveTab slot s) := by
  unfold moveTab
  repeat' (with_reducible first | assumption | apply keeps_applyWrites | apply keeps_foldS | apply keeps_pruneBatches | apply keeps_startBatch | split | dsimp only | simp only [Keeps.upd_iff])

theorem keeps_moveTabs {s0 : State} (s : State) (hs : Keeps s0 s) :
    Keeps s0 (moveTabs s) := by
  unfold moveTabs
  repeat' (with_reducible first | assumption | apply keeps_foldS | apply keeps_moveTab | (intro _) | refine Keeps.ite ?_ ?_ | split | dsimp only | simp only [Keeps.upd_iff])

theorem keeps_formBatch {s0 : State} (slot : Nat) (kind : Nat) (round : Nat) (rids : List Nat) (s : State) (hs : Keeps s0 s) :
    Keeps s0 (formBatch slot kind round rids s) := by
  unfold formBatch
  repeat' (with_reducible first | assumption | apply keeps_onTab | split | dsimp only | simp only [Keeps.upd_iff])

theorem keeps_finishGather {s0 : State} (slot : Nat) (t : Tab) (got : SMap Bytes) (bad : SMap Nat) (r : Req) (s : State) (hs : Keeps s0 s) :
    Keeps s0 (finishGather slot t got bad r s) := by
  unfold finishGather
  repeat' (with_reducible first | assumption | apply keeps_addCause | apply keeps_countSubst | apply keeps_failReq | apply keeps_finishReq | apply keeps_tabBump | split | dsimp only | simp only [Keeps.upd_iff])

theorem keeps_gatherDone {s0 : State} (slot : Nat) (t : Tab) (b : Batch) (s : State) (hs : Keeps s0 s) :
    Keeps s0 (gatherDone slot t b s) := by
  unfold gatherDone
  repeat' (with_reducible first | assumption | exact Keeps.refl _ | apply keeps_bump | apply keeps_dropBatch | apply keeps_finishGather | apply keeps_foldS | apply keeps_moveTab | apply keeps_readRow | (intro _) | refine Keeps.snd (by assumption) ?_ | refine Keeps.snd3 (by assumption) ?_ | refine Keeps.snd4 (by assumption) ?_ | refine Keeps.some1 (by assumption) ?_ | refine Keeps.some2 (by assumption) ?_ | refine Keeps.some3 (by assumption) ?_ | refine Keeps.fst (by assumption) ?_ | refine Keeps.getD ?_ ?_ | refine Keeps.elim ?_ ?_ | refine Keeps.elim2 ?_ ?_ | refine Keeps.foldl ?_ ?_ | refine Keeps.foldl2 ?_ ?_ | refine Keeps.foldl3 ?_ ?_ | refine Keeps.ite ?_ ?_ | refine Keeps.ite2 ?_ ?_ | refine Keeps.ite3 ?_ ?_ | split | dsimp only | simp only [Keeps.upd_iff, List.length_map] | simp only [Keeps.upd_iff, length_updFirst] | simp only [Keeps.upd_iff])

theorem keeps_applyLine {s0 : State} (slot : Nat) (t : Tab) (b : Batch) (i : Nat) (s : State) (hs : Keeps s0 s) :
    Keeps s0 (applyLine slot t b i s) := by
  unfold applyLine
  repeat' (with_reducible first | assumption | exact Keeps.refl _ | apply keeps_bump | apply keeps_failBatch | apply keeps_onBatch | apply keeps_readRow | apply keeps_writeRow | (intro _) | refine Keeps.snd (by assumption) ?_ | refine Keeps.snd3 (by assumption) ?_ | refine Keeps.snd4 (by assumption) ?_ | refine Keeps.some1 (by assumption) ?_ | refine Keeps.some2 (by assumption) ?_ | refine Keeps.some3 (by assumption) ?_ | refine Keeps.fst (by assumption) ?_ | refine Keeps.ite ?_ ?_ | refine Keeps.ite2 ?_ ?_ | refine Keeps.ite3 ?_ ?_ | split | dsimp only | simp only [Keeps.upd_iff, List.length_map] | simp only [Keeps.upd_iff, length_updFirst] | simp only [Keeps.upd_iff])

theorem keeps_finishScatter {s0 : State} (t : Tab) (r : Req) (s : State) (hs : Keeps s0 s) :
    Keeps s0 (finishScatter t r s) := by
  unfold finishScatter
  repeat' (with_reducible first | assumption | apply keeps_addCause | apply keeps_finishReq | split | dsimp only | simp only [Keeps.upd_iff])

theorem keeps_setHot {s0 : State} (slot : Nat) (row : Nat) (st : HotSt) (s : State) (hs : Keeps s0 s) :
    Keeps s0 (setHot slot row st s) := by
  unfold setHot
  repeat' (with_reducible first | assumption | apply keeps_onTab | apply keeps_showHot | split | dsimp only | simp only [Keeps.upd_iff])

theorem keeps_hotMove {s0 : State} (slot : Nat) (row : Nat) (t : Tab) (s : State) (hs : Keeps s0 s) :
    Keeps s0 (hotMove slot row t s) := by
  unfold hotMove
  repeat' (with_reducible first | assumption | apply keeps_draw | apply keeps_onTab | apply keeps_setHot | split | dsimp only | simp only [Keeps.upd_iff])

theorem keeps_pathLosses {s0 : State} (k : Nat) (before : State) (after : State) (hbefore : Keeps s0 before) (hafter : Keeps s0 after) :
    Keeps s0 (pathLosses k before after) := by
  unfold pathLosses
  repeat' (with_reducible first | assumption | apply keeps_breakCtx | apply keeps_breakTab | apply keeps_foldS | (intro _) | refine Keeps.ite ?_ ?_ | split | dsimp only | simp only [Keeps.upd_iff])

end Sys2Proof.Machine
end

