-- ==== Sys2Proof/Laws/KeepEmbedding.lean ====
section
/-! SUPPORT. KeepEmbedding: each operation of Machine/Embedding.lean keeps the queue, the canonical form of memory and the
order of the free values (`Keeps`). -/
namespace Sys2Proof.Machine
set_option Elab.async false
set_option linter.all false

theorem keeps_enterTab {s0 : State} (r : Req) (slot : Nat) (area : Nat) (len : Nat) (s : State) (hs : Keeps s0 s) :
    Keeps s0 (enterTab r slot area len s) := by
  unfold enterTab
  repeat' (with_reducible first | assumption | apply keeps_dirPut | apply keeps_dirSet | apply keeps_foldS | apply keeps_zeroRange | (intro _) | refine Keeps.ite ?_ ?_ | split | dsimp only | simp only [Keeps.upd_iff])

theorem keeps_createTable {s0 : State} (r : Req) (s : State) (hs : Keeps s0 s) :
    Keeps s0 (createTable r s) := by
  unfold createTable
  repeat' (with_reducible first | assumption | exact Keeps.refl _ | apply keeps_badReq | apply keeps_bump | apply keeps_endReq | apply keeps_enterTab | apply keeps_failReq | (show ∀ _, _ → _; apply keeps_placeT1) | (intro _) | refine Keeps.snd (by assumption) ?_ | refine Keeps.snd3 (by assumption) ?_ | refine Keeps.snd4 (by assumption) ?_ | refine Keeps.some1 (by assumption) ?_ | refine Keeps.some2 (by assumption) ?_ | refine Keeps.some3 (by assumption) ?_ | refine Keeps.fst (by assumption) ?_ | refine Keeps.ite ?_ ?_ | refine Keeps.ite2 ?_ ?_ | refine Keeps.ite3 ?_ ?_ | split | dsimp only | simp only [Keeps.upd_iff, List.length_map] | simp only [Keeps.upd_iff, length_updFirst] | simp only [Keeps.upd_iff])

theorem keeps_execEmbTableCreate {s0 : State} (rid : Nat) (s : State) (hs : Keeps s0 s) :
    ∀ z, (execEmbTableCreate rid s) = .next z → Keeps s0 z := by
  intro z e
  unfold execEmbTableCreate at e
  try dsimp only at e
  first | (split at e <;> first | (injection e with e; subst e)) | (injection e with e; subst e) | skip
  repeat' (with_reducible first | assumption | apply keeps_createTable | apply keeps_onAdmitted | split | dsimp only | simp only [Keeps.upd_iff])

theorem keeps_onTabReq {s0 : State} (rid : Nat) (type : Nat) (f : Req → Tab → State → State) (s : State) (hf : ∀ y0 y1 u, Keeps s0 u → Keeps s0 (f y0 y1 u)) (hs : Keeps s0 s) :
    Keeps s0 (onTabReq rid type f s) := by
  unfold onTabReq
  repeat' (with_reducible first | assumption | apply keeps_failReq | apply keeps_moveTab | apply keeps_onAdmitted | apply hf | (intro _) | refine Keeps.ite ?_ ?_ | split | dsimp only | simp only [Keeps.upd_iff])

theorem keeps_dropTable {s0 : State} (r : Req) (t : Tab) (s : State) (hs : Keeps s0 s) :
    Keeps s0 (dropTable r t s) := by
  unfold dropTable
  repeat' (with_reducible first | assumption | apply keeps_dirPut | apply keeps_endReq | apply keeps_failBatch | apply keeps_foldS | apply keeps_showHot | apply keeps_unplace | split | dsimp only | simp only [Keeps.upd_iff])

theorem keeps_execEmbTableDrop {s0 : State} (rid : Nat) (s : State) (hs : Keeps s0 s) :
    ∀ z, (execEmbTableDrop rid s) = .next z → Keeps s0 z := by
  intro z e
  unfold execEmbTableDrop at e
  try dsimp only at e
  first | (split at e <;> first | (injection e with e; subst e)) | (injection e with e; subst e) | skip
  repeat' (with_reducible first | assumption | apply keeps_dropTable | apply keeps_onTabReq | split | dsimp only | simp only [Keeps.upd_iff])

theorem keeps_joinBatch {s0 : State} (r : Req) (t : Tab) (s : State) (hs : Keeps s0 s) :
    Keeps s0 (joinBatch r t s) := by
  unfold joinBatch
  repeat' (with_reducible first | assumption | apply keeps_moveTab | apply keeps_onReq | split | dsimp only | simp only [Keeps.upd_iff])

theorem keeps_execEmbWrite {s0 : State} (rid : Nat) (s : State) (hs : Keeps s0 s) :
    ∀ z, (execEmbWrite rid s) = .next z → Keeps s0 z := by
  intro z e
  unfold execEmbWrite at e
  try dsimp only at e
  first | (split at e <;> first | (injection e with e; subst e)) | (injection e with e; subst e) | skip
  repeat' (with_reducible first | assumption | apply keeps_joinBatch | apply keeps_onTabReq | split | dsimp only | simp only [Keeps.upd_iff])

theorem keeps_execEmbGather {s0 : State} (rid : Nat) (s : State) (hs : Keeps s0 s) :
    ∀ z, (execEmbGather rid s) = .next z → Keeps s0 z := by
  intro z e
  unfold execEmbGather at e
  try dsimp only at e
  first | (split at e <;> first | (injection e with e; subst e)) | (injection e with e; subst e) | skip
  repeat' (with_reducible first | assumption | apply keeps_joinBatch | apply keeps_onTabReq | split | dsimp only | simp only [Keeps.upd_iff])

theorem keeps_execEmbScatterAdd {s0 : State} (rid : Nat) (s : State) (hs : Keeps s0 s) :
    ∀ z, (execEmbScatterAdd rid s) = .next z → Keeps s0 z := by
  intro z e
  unfold execEmbScatterAdd at e
  try dsimp only at e
  first | (split at e <;> first | (injection e with e; subst e)) | (injection e with e; subst e) | skip
  repeat' (with_reducible first | assumption | apply keeps_joinBatch | apply keeps_onTabReq | split | dsimp only | simp only [Keeps.upd_iff])

theorem keeps_execGatherBatchDone {s0 : State} (slot : Nat) (s : State) (hs : Keeps s0 s) :
    ∀ z, (execGatherBatchDone slot s) = .next z → Keeps s0 z := by
  intro z e
  unfold execGatherBatchDone at e
  try dsimp only at e
  first | (split at e <;> first | (injection e with e; subst e)) | (injection e with e; subst e) | skip
  repeat' (with_reducible first | assumption | apply keeps_gatherDone | split | dsimp only | simp only [Keeps.upd_iff])

theorem keeps_execLineAdd {s0 : State} (slot : Nat) (s : State) (hs : Keeps s0 s) :
    ∀ z, (execLineAdd slot s) = .next z → Keeps s0 z := by
  intro z e
  unfold execLineAdd at e
  try dsimp only at e
  first | (split at e <;> first | (injection e with e; subst e)) | (injection e with e; subst e) | skip
  repeat' (with_reducible first | assumption | apply keeps_applyLine | apply keeps_draw | apply keeps_moveTab | split | dsimp only | simp only [Keeps.upd_iff])

theorem keeps_execScatterBatchDone {s0 : State} (slot : Nat) (s : State) (hs : Keeps s0 s) :
    ∀ z, (execScatterBatchDone slot s) = .next z → Keeps s0 z := by
  intro z e
  unfold execScatterBatchDone at e
  try dsimp only at e
  first | (split at e <;> first | (injection e with e; subst e)) | (injection e with e; subst e) | skip
  repeat' (with_reducible first | assumption | apply keeps_bump | apply keeps_dropBatch | apply keeps_finishScatter | apply keeps_foldS | apply keeps_moveTab | split | dsimp only | simp only [Keeps.upd_iff])

theorem keeps_execRowMove {s0 : State} (slot : Nat) (row : Nat) (s : State) (hs : Keeps s0 s) :
    ∀ z, (execRowMove slot row s) = .next z → Keeps s0 z := by
  intro z e
  unfold execRowMove at e
  try dsimp only at e
  first | (split at e <;> first | (injection e with e; subst e)) | (injection e with e; subst e) | skip
  repeat' (with_reducible first | assumption | apply keeps_hotMove | split | dsimp only | simp only [Keeps.upd_iff])

theorem keeps_execMoveDone {s0 : State} (slot : Nat) (row : Nat) (s : State) (hs : Keeps s0 s) :
    ∀ z, (execMoveDone slot row s) = .next z → Keeps s0 z := by
  intro z e
  unfold execMoveDone at e
  try dsimp only at e
  first | (split at e <;> first | (injection e with e; subst e)) | (injection e with e; subst e) | skip
  repeat' (with_reducible first | assumption | exact Keeps.refl _ | apply keeps_bump | apply keeps_demandRead | apply keeps_demandWrite | apply keeps_moveTab | apply keeps_onTab | apply keeps_setHot | (intro _) | refine Keeps.snd (by assumption) ?_ | refine Keeps.snd3 (by assumption) ?_ | refine Keeps.snd4 (by assumption) ?_ | refine Keeps.some1 (by assumption) ?_ | refine Keeps.some2 (by assumption) ?_ | refine Keeps.some3 (by assumption) ?_ | refine Keeps.fst (by assumption) ?_ | refine Keeps.ite ?_ ?_ | refine Keeps.ite2 ?_ ?_ | refine Keeps.ite3 ?_ ?_ | split | dsimp only | simp only [Keeps.upd_iff, List.length_map] | simp only [Keeps.upd_iff, length_updFirst] | simp only [Keeps.upd_iff])

theorem keeps_execRowReturn {s0 : State} (slot : Nat) (row : Nat) (s : State) (hs : Keeps s0 s) :
    ∀ z, (execRowReturn slot row s) = .next z → Keeps s0 z := by
  intro z e
  unfold execRowReturn at e
  try dsimp only at e
  first | (split at e <;> first | (injection e with e; subst e)) | (injection e with e; subst e) | skip
  repeat' (with_reducible first | assumption | apply keeps_setHot | split | dsimp only | simp only [Keeps.upd_iff])

theorem keeps_execReturnDone {s0 : State} (slot : Nat) (row : Nat) (s : State) (hs : Keeps s0 s) :
    ∀ z, (execReturnDone slot row s) = .next z → Keeps s0 z := by
  intro z e
  unfold execReturnDone at e
  try dsimp only at e
  first | (split at e <;> first | (injection e with e; subst e)) | (injection e with e; subst e) | skip
  repeat' (with_reducible first | assumption | exact Keeps.refl _ | apply keeps_bump | apply keeps_demandRead | apply keeps_hotLost | apply keeps_moveTab | apply keeps_onTab | apply keeps_showHot | apply keeps_writeRow | (intro _) | refine Keeps.snd (by assumption) ?_ | refine Keeps.snd3 (by assumption) ?_ | refine Keeps.snd4 (by assumption) ?_ | refine Keeps.some1 (by assumption) ?_ | refine Keeps.some2 (by assumption) ?_ | refine Keeps.some3 (by assumption) ?_ | refine Keeps.fst (by assumption) ?_ | refine Keeps.ite ?_ ?_ | refine Keeps.ite2 ?_ ?_ | refine Keeps.ite3 ?_ ?_ | split | dsimp only | simp only [Keeps.upd_iff, List.length_map] | simp only [Keeps.upd_iff, length_updFirst] | simp only [Keeps.upd_iff])

end Sys2Proof.Machine
end

