-- ==== Sys2Proof/Laws/KeepSettle.lean ====
section
/-! SUPPORT. KeepSettle: each operation of Machine/Settle.lean keeps the queue, the canonical form of memory and the
order of the free values (`Keeps`). -/
namespace Sys2Proof.Machine
set_option Elab.async false
set_option linter.all false

theorem keeps_settleFinalist {s0 : State} (p : Part) (pid : Nat) (st : Nat) (b : Bytes) (s : State) (hs : Keeps s0 s) :
    Keeps s0 (settleFinalist p pid st b s) := by
  unfold settleFinalist
  repeat' (with_reducible first | assumption | apply keeps_onPart | split | dsimp only | simp only [Keeps.upd_iff])

theorem keeps_settleSpilled {s0 : State} (p : Part) (pid : Nat) (st : Nat) (b : Bytes) (s : State) (hs : Keeps s0 s) :
    Keeps s0 (settleSpilled p pid st b s) := by
  unfold settleSpilled
  repeat' (with_reducible first | assumption | apply keeps_onPart | split | dsimp only | simp only [Keeps.upd_iff])

theorem keeps_settleVector {s0 : State} (p : Part) (pid : Nat) (st : Nat) (s : State) (hs : Keeps s0 s) :
    Keeps s0 (settleVector p pid st s) := by
  unfold settleVector
  repeat' (with_reducible first | assumption | apply keeps_onPart | apply keeps_ownStaged | apply keeps_unstage | split | dsimp only | simp only [Keeps.upd_iff])

theorem keeps_settleOne {s0 : State} (d : Nat × Nat × Nat × Bytes) (s : State) (hs : Keeps s0 s) :
    Keeps s0 (settleOne d s) := by
  unfold settleOne
  repeat' (with_reducible first | assumption | apply keeps_settleFinalist | apply keeps_settleSpilled | apply keeps_settleVector | split | dsimp only | simp only [Keeps.upd_iff])

theorem keeps_settlePaths {s0 : State} (s : State) (hs : Keeps s0 s) :
    Keeps s0 (settlePaths s) := by
  unfold settlePaths
  repeat' (with_reducible first | assumption | apply keeps_foldS | apply keeps_movePaths | apply keeps_settleOne | split | dsimp only | simp only [Keeps.upd_iff])

theorem keeps_execParcelDelivered {s0 : State} (pid : Nat) (s : State) (hs : Keeps s0 s) :
    ∀ z, (execParcelDelivered pid s) = .next z → Keeps s0 z := by
  intro z e
  unfold execParcelDelivered at e
  try dsimp only at e
  first | (split at e <;> first | (injection e with e; subst e)) | (injection e with e; subst e) | skip
  repeat' (with_reducible first | assumption | apply keeps_deliverParcel | apply keeps_settlePaths | split | dsimp only | simp only [Keeps.upd_iff])

theorem keeps_execTierTimeout {s0 : State} (pid : Nat) (s : State) (hs : Keeps s0 s) :
    ∀ z, (execTierTimeout pid s) = .next z → Keeps s0 z := by
  intro z e
  unfold execTierTimeout at e
  try dsimp only at e
  first | (split at e <;> first | (injection e with e; subst e)) | (injection e with e; subst e) | skip
  repeat' (with_reducible first | assumption | apply keeps_settlePaths | apply keeps_tierTimeout | split | dsimp only | simp only [Keeps.upd_iff])

theorem keeps_execFlashWriteCompletion {s0 : State} (pid : Nat) (s : State) (hs : Keeps s0 s) :
    ∀ z, (execFlashWriteCompletion pid s) = .next z → Keeps s0 z := by
  intro z e
  unfold execFlashWriteCompletion at e
  try dsimp only at e
  first | (split at e <;> first | (injection e with e; subst e)) | (injection e with e; subst e) | skip
  repeat' (with_reducible first | assumption | apply keeps_flashWriteDone | apply keeps_settlePaths | split | dsimp only | simp only [Keeps.upd_iff])

theorem keeps_execFlashReadDone {s0 : State} (pid : Nat) (r : ReadOutcome) (s : State) (hs : Keeps s0 s) :
    ∀ z, (execFlashReadDone pid r s) = .next z → Keeps s0 z := by
  intro z e
  unfold execFlashReadDone at e
  try dsimp only at e
  first | (split at e <;> first | (injection e with e; subst e)) | (injection e with e; subst e) | skip
  repeat' (with_reducible first | assumption | apply keeps_flashReadDone | apply keeps_settlePaths | split | dsimp only | simp only [Keeps.upd_iff])

theorem keeps_passCompleted {s0 : State} (k : Nat) (p : Pass) (s : State) (hs : Keeps s0 s) :
    Keeps s0 (passCompleted k p s) := by
  unfold passCompleted
  repeat' (with_reducible first | assumption | apply keeps_attendPassDone | apply keeps_movePaths | apply keeps_passStackDone | split | dsimp only | simp only [Keeps.upd_iff])

theorem keeps_execCompletionRecord {s0 : State} (k : Nat) (s : State) (hs : Keeps s0 s) :
    ∀ z, (execCompletionRecord k s) = .next z → Keeps s0 z := by
  intro z e
  unfold execCompletionRecord at e
  try dsimp only at e
  first | (split at e <;> first | (injection e with e; subst e)) | (injection e with e; subst e) | skip
  repeat' (with_reducible first | assumption | apply keeps_completionRecord | apply keeps_movePaths | apply keeps_moveTabs | apply keeps_passCompleted | apply keeps_pathLosses | split | dsimp only | simp only [Keeps.upd_iff])

theorem keeps_execRefreshWatchdog {s0 : State} (k : Nat) (s : State) (hs : Keeps s0 s) :
    ∀ z, (execRefreshWatchdog k s) = .next z → Keeps s0 z := by
  intro z e
  unfold execRefreshWatchdog at e
  try dsimp only at e
  first | (split at e <;> first | (injection e with e; subst e)) | (injection e with e; subst e) | skip
  repeat' (with_reducible first | assumption | apply keeps_movePaths | apply keeps_pathLosses | apply keeps_refreshWatchdog | split | dsimp only | simp only [Keeps.upd_iff])

end Sys2Proof.Machine
end

