-- ==== Sys2Proof/Laws/KeepHxt.lean ====
section
/-! SUPPORT. KeepHxt: each operation of Machine/Hxt.lean keeps the queue, the canonical form of memory and the
order of the free values (`Keeps`). -/
namespace Sys2Proof.Machine
set_option Elab.async false
set_option linter.all false

theorem keeps_takeSegment {s0 : State} (x : Sess) (a : Asm) (p : Packet) (colour : Nat) (s : State) (hs : Keeps s0 s) :
    Keeps s0 (takeSegment x a p colour s) := by
  unfold takeSegment
  repeat' (with_reducible first | assumption | apply keeps_completeAsm | apply keeps_onAsm | apply keeps_rearmNote | apply keeps_thresholdNote | split | dsimp only | simp only [Keeps.upd_iff])

theorem keeps_cutAsm {s0 : State} (a : Asm) (p : Packet) (status : Nat) (detail : Nat) (s : State) (hs : Keeps s0 s) :
    Keeps s0 (cutAsm a p status detail s) := by
  unfold cutAsm
  repeat' (with_reducible first | assumption | apply keeps_endAsm | split | dsimp only | simp only [Keeps.upd_iff])

theorem keeps_disposeSegment {s0 : State} (x : Sess) (a : Asm) (p : Packet) (colour : Nat) (s : State) (hs : Keeps s0 s) :
    Keeps s0 (disposeSegment x a p colour s) := by
  unfold disposeSegment
  repeat' (with_reducible first | assumption | apply keeps_queueFull | apply keeps_takeSegment | apply keeps_yellowDrop | split | dsimp only | simp only [Keeps.upd_iff])

theorem keeps_placeSegment {s0 : State} (x : Sess) (p : Packet) (colour : Nat) (s : State) (hs : Keeps s0 s) :
    Keeps s0 (placeSegment x p colour s) := by
  unfold placeSegment
  repeat' (with_reducible first | assumption | apply keeps_cutAsm | apply keeps_disposeSegment | split | dsimp only | simp only [Keeps.upd_iff])

theorem keeps_heardFrom {s0 : State} (x : Sess) (p : Packet) (s : State) (hs : Keeps s0 s) :
    Keeps s0 (heardFrom x p s) := by
  unfold heardFrom
  repeat' (with_reducible first | assumption | apply keeps_onSess | apply keeps_sendFreshNotes | split | dsimp only | simp only [Keeps.upd_iff])

theorem keeps_unknownSession {s0 : State} (p : Packet) (s : State) (hs : Keeps s0 s) :
    Keeps s0 (unknownSession p s) := by
  unfold unknownSession
  repeat' (with_reducible first | assumption | apply keeps_pkDrop | apply keeps_putOut | split | dsimp only | simp only [Keeps.upd_iff])

theorem keeps_policeFor {s0 : State} (x : Sess) (p : Packet) (s : State) (hs : Keeps s0 s) :
    Keeps s0 (policeFor x p s).2 := by
  unfold policeFor
  repeat' (with_reducible first | assumption | apply keeps_police | split | dsimp only | simp only [Keeps.upd_iff])

theorem keeps_execEnvelope {s0 : State} (p : Packet) (s : State) (hs : Keeps s0 s) :
    ∀ z, (execEnvelope p s) = .next z → Keeps s0 z := by
  intro z e
  unfold execEnvelope at e
  try dsimp only at e
  first | (split at e <;> first | (injection e with e; subst e)) | (injection e with e; subst e) | skip
  repeat' (with_reducible first | assumption | apply keeps_heardFrom | apply keeps_onPacket | apply keeps_placeSegment | apply keeps_policeFor | apply keeps_redDrop | apply keeps_unknownSession | (intro _) | refine Keeps.ite ?_ ?_ | split | dsimp only | simp only [Keeps.upd_iff])

theorem keeps_execReassemblyExpiry {s0 : State} (sid : Nat) (pm : Nat) (s : State) (hs : Keeps s0 s) :
    ∀ z, (execReassemblyExpiry sid pm s) = .next z → Keeps s0 z := by
  intro z e
  unfold execReassemblyExpiry at e
  try dsimp only at e
  first | (split at e <;> first | (injection e with e; subst e)) | (injection e with e; subst e) | skip
  repeat' (with_reducible first | assumption | apply keeps_bump | apply keeps_dropAsm | split | dsimp only | simp only [Keeps.upd_iff])

theorem keeps_refuse {s0 : State} (p : Packet) (helloId : Nat) (status : Nat) (s : State) (hs : Keeps s0 s) :
    Keeps s0 (refuse p helloId status s) := by
  unfold refuse
  repeat' (with_reducible first | assumption | apply keeps_bump | apply keeps_putOut | apply keeps_whenS | split | dsimp only | simp only [Keeps.upd_iff])

theorem keeps_challenge {s0 : State} (p : Packet) (v : Nat) (s : State) (hs : Keeps s0 s) :
    Keeps s0 (challenge p v s) := by
  unfold challenge
  repeat' (with_reducible first | assumption | apply keeps_draw | apply keeps_putOut | split | dsimp only | simp only [Keeps.upd_iff])

theorem keeps_execHello {s0 : State} (p : Packet) (s : State) (hs : Keeps s0 s) :
    ∀ z, (execHello p s) = .next z → Keeps s0 z := by
  intro z e
  unfold execHello at e
  try dsimp only at e
  first | (split at e <;> first | (injection e with e; subst e)) | (injection e with e; subst e) | skip
  repeat' (with_reducible first | assumption | apply keeps_bump | apply keeps_challenge | apply keeps_onPacket | apply keeps_refuse | (intro _) | refine Keeps.ite ?_ ?_ | split | dsimp only | simp only [Keeps.upd_iff])

theorem keeps_sessCount {s0 : State} (s : State) (hs : Keeps s0 s) :
    Keeps s0 (sessCount s) := by
  unfold sessCount
  repeat' (with_reducible first | assumption | apply keeps_dirSet | split | dsimp only | simp only [Keeps.upd_iff])

theorem keeps_welcome {s0 : State} (p : Packet) (c : Chal) (x : Sess) (s : State) (hs : Keeps s0 s) :
    Keeps s0 (welcome p c x s) := by
  unfold welcome
  repeat' (with_reducible first | assumption | apply keeps_putOut | split | dsimp only | simp only [Keeps.upd_iff])

theorem keeps_dropChal {s0 : State} (sid : Nat) (chain : Bool) (s : State) (hs : Keeps s0 s) :
    Keeps s0 (dropChal sid chain s) := by
  unfold dropChal
  repeat' (with_reducible first | assumption | split | dsimp only | simp only [Keeps.upd_iff])

theorem keeps_addSess {s0 : State} (x : Sess) (s : State) (hs : Keeps s0 s) :
    Keeps s0 (addSess x s) := by
  unfold addSess
  split
  · rename_i h
    exact (Keeps.of (u := s) hs rfl rfl (Nat.le_refl _) ⟨List.prefix_refl _, List.prefix_refl _, List.prefix_refl _⟩ (fun k => ⟨k.records, k.halts, k.alerts, k.controller, k.security, by simp only [List.length_append, List.length_singleton]; omega, k.trace⟩))
  · exact hs

theorem keeps_answerChal {s0 : State} (p : Packet) (c : Chal) (s : State) (hs : Keeps s0 s) :
    Keeps s0 (answerChal p c s) := by
  unfold answerChal
  repeat' (with_reducible first | assumption | apply keeps_addSess | apply keeps_dropChal | apply keeps_record | apply keeps_refuse | apply keeps_sendFreshNotes | apply keeps_sessCount | apply keeps_welcome | apply keeps_whenS | split | dsimp only | simp only [Keeps.upd_iff])

theorem keeps_execResponse {s0 : State} (p : Packet) (s : State) (hs : Keeps s0 s) :
    ∀ z, (execResponse p s) = .next z → Keeps s0 z := by
  intro z e
  unfold execResponse at e
  try dsimp only at e
  first | (split at e <;> first | (injection e with e; subst e)) | (injection e with e; subst e) | skip
  repeat' (with_reducible first | assumption | apply keeps_answerChal | apply keeps_dropChal | apply keeps_onPacket | apply keeps_refuse | (intro _) | refine Keeps.ite ?_ ?_ | split | dsimp only | simp only [Keeps.upd_iff])

theorem keeps_execChallengeExpiry {s0 : State} (sid : Nat) (s : State) (hs : Keeps s0 s) :
    ∀ z, (execChallengeExpiry sid s) = .next z → Keeps s0 z := by
  intro z e
  unfold execChallengeExpiry at e
  try dsimp only at e
  first | (split at e <;> first | (injection e with e; subst e)) | (injection e with e; subst e) | skip
  repeat' (with_reducible first | assumption | split | dsimp only | simp only [Keeps.upd_iff])

theorem keeps_closeSess {s0 : State} (sid : Nat) (s : State) (hs : Keeps s0 s) :
    Keeps s0 (closeSess sid s) := by
  unfold closeSess
  exact keeps_sessCount _ (Keeps.upd (u := s) hs (fun w => w) (List.prefix_refl _) (List.prefix_refl _) (List.prefix_refl _)
    (Nat.le_refl _) (Nat.le_refl _) (Nat.le_refl _) (Nat.le_refl _) (Nat.le_refl _) (List.length_filter_le _ _) (Nat.le_refl _))

theorem keeps_execBye {s0 : State} (p : Packet) (s : State) (hs : Keeps s0 s) :
    ∀ z, (execBye p s) = .next z → Keeps s0 z := by
  intro z e
  unfold execBye at e
  try dsimp only at e
  first | (split at e <;> first | (injection e with e; subst e)) | (injection e with e; subst e) | skip
  repeat' (with_reducible first | assumption | apply keeps_closeSess | apply keeps_onPacket | apply keeps_pkDrop | apply keeps_policeFor | apply keeps_redDrop | (intro _) | refine Keeps.ite ?_ ?_ | split | dsimp only | simp only [Keeps.upd_iff])

theorem keeps_execSessionIdleClose {s0 : State} (sid : Nat) (s : State) (hs : Keeps s0 s) :
    ∀ z, (execSessionIdleClose sid s) = .next z → Keeps s0 z := by
  intro z e
  unfold execSessionIdleClose at e
  try dsimp only at e
  first | (split at e <;> first | (injection e with e; subst e)) | (injection e with e; subst e) | skip
  repeat' (with_reducible first | assumption | apply keeps_closeSess | split | dsimp only | simp only [Keeps.upd_iff])

theorem keeps_execNoteAck {s0 : State} (p : Packet) (s : State) (hs : Keeps s0 s) :
    ∀ z, (execNoteAck p s) = .next z → Keeps s0 z := by
  intro z e
  unfold execNoteAck at e
  try dsimp only at e
  first | (split at e <;> first | (injection e with e; subst e)) | (injection e with e; subst e) | skip
  repeat' (with_reducible first | assumption | apply keeps_heardFrom | apply keeps_onNotes | apply keeps_onPacket | apply keeps_pkDrop | apply keeps_policeFor | apply keeps_redDrop | (intro _) | refine Keeps.ite ?_ ?_ | split | dsimp only | simp only [Keeps.upd_iff])

theorem keeps_resendNote {s0 : State} (t : Nat) (n : Note) (s : State) (hs : Keeps s0 s) :
    Keeps s0 (resendNote t n s) := by
  unfold resendNote
  repeat' (with_reducible first | assumption | apply keeps_bump | apply keeps_onNotes | apply keeps_sendNote | split | dsimp only | simp only [Keeps.upd_iff])

theorem keeps_execNoteResend {s0 : State} (t : Nat) (s : State) (hs : Keeps s0 s) :
    ∀ z, (execNoteResend t s) = .next z → Keeps s0 z := by
  intro z e
  unfold execNoteResend at e
  try dsimp only at e
  first | (split at e <;> first | (injection e with e; subst e)) | (injection e with e; subst e) | skip
  repeat' (with_reducible first | assumption | apply keeps_foldS | apply keeps_resendNote | split | dsimp only | simp only [Keeps.upd_iff])

theorem keeps_execPing {s0 : State} (rid : Nat) (s : State) (hs : Keeps s0 s) :
    ∀ z, (execPing rid s) = .next z → Keeps s0 z := by
  intro z e
  unfold execPing at e
  try dsimp only at e
  first | (split at e <;> first | (injection e with e; subst e)) | (injection e with e; subst e) | skip
  repeat' (with_reducible first | assumption | apply keeps_endReq | split | dsimp only | simp only [Keeps.upd_iff])

theorem keeps_endCancel {s0 : State} (rid : Nat) (result : Nat) (s : State) (hs : Keeps s0 s) :
    Keeps s0 (endCancel rid result s) := by
  unfold endCancel
  repeat' (with_reducible first | assumption | apply keeps_endReq | split | dsimp only | simp only [Keeps.upd_iff])

theorem keeps_cancelWaiting {s0 : State} (sid : Nat) (pm : Nat) (s : State) (hs : Keeps s0 s) :
    Keeps s0 (cancelWaiting sid pm s) := by
  unfold cancelWaiting
  repeat' (with_reducible first | assumption | apply keeps_dropAsm | apply keeps_endAsm | apply keeps_failReq | apply keeps_onSess | apply keeps_whenS | split | dsimp only | simp only [Keeps.upd_iff])

theorem keeps_execCancel {s0 : State} (rid : Nat) (s : State) (hs : Keeps s0 s) :
    ∀ z, (execCancel rid s) = .next z → Keeps s0 z := by
  intro z e
  unfold execCancel at e
  try dsimp only at e
  first | (split at e <;> first | (injection e with e; subst e)) | (injection e with e; subst e) | skip
  repeat' (with_reducible first | assumption | apply keeps_cancelWaiting | apply keeps_endCancel | apply keeps_onReq | split | dsimp only | simp only [Keeps.upd_iff])

end Sys2Proof.Machine
end

