-- ==== Sys2Proof/Laws/KeepMemOps.lean ====
section
/-! SUPPORT. KeepMemOps: each operation of Machine/MemOps.lean keeps the queue, the canonical form of memory and the
order of the free values (`Keeps`). -/
namespace Sys2Proof.Machine
set_option Elab.async false
set_option linter.all false

theorem keeps_eregWrite {s0 : State} (rid : Nat) (v : Nat) (r : EReg) (s : State) (hs : Keeps s0 s) :
    Keeps s0 (eregWrite rid v r s) := by
  unfold eregWrite
  repeat' (with_reducible first | assumption | apply keeps_cabortReg | apply keeps_cloadReg | apply keeps_cstartReg | apply keeps_cstatReg | apply keeps_psubmitReg | split | dsimp only | simp only [Keeps.upd_iff])

theorem keeps_segMismatch {s0 : State} (th : Nat) (s : State) (hs : Keeps s0 s) :
    Keeps s0 (segMismatch th s) := by
  unfold segMismatch
  repeat' (with_reducible first | assumption | apply keeps_raise | split | dsimp only | simp only [Keeps.upd_iff])

theorem keeps_loadAcc {s0 : State} (th : Nat) (va : Nat) (n : Nat) (what : RemKind) (put : Bytes → Thread → Thread) (s : State) (hs : Keeps s0 s) :
    Keeps s0 (loadAcc th va n what put s).2 := by
  unfold loadAcc
  repeat' (with_reducible first | assumption | exact Keeps.refl _ | apply keeps_onThread | apply keeps_readLocal | apply keeps_segMismatch | apply keeps_sendRemote | apply keeps_takeFault | (intro _) | refine Keeps.snd (by assumption) ?_ | refine Keeps.snd3 (by assumption) ?_ | refine Keeps.snd4 (by assumption) ?_ | refine Keeps.some1 (by assumption) ?_ | refine Keeps.some2 (by assumption) ?_ | refine Keeps.some3 (by assumption) ?_ | refine Keeps.fst (by assumption) ?_ | refine Keeps.ite ?_ ?_ | refine Keeps.ite2 ?_ ?_ | refine Keeps.ite3 ?_ ?_ | split | dsimp only | simp only [Keeps.upd_iff, List.length_map] | simp only [Keeps.upd_iff, length_updFirst] | simp only [Keeps.upd_iff])

theorem keeps_storeAcc {s0 : State} (th : Nat) (va : Nat) (b : Bytes) (s : State) (hs : Keeps s0 s) :
    Keeps s0 (storeAcc th va b s).2 := by
  unfold storeAcc
  repeat' (with_reducible first | assumption | exact Keeps.refl _ | apply keeps_eregWrite | apply keeps_segMismatch | apply keeps_sendRemote | apply keeps_takeFault | apply keeps_writeLocal | (intro _) | refine Keeps.snd (by assumption) ?_ | refine Keeps.snd3 (by assumption) ?_ | refine Keeps.snd4 (by assumption) ?_ | refine Keeps.some1 (by assumption) ?_ | refine Keeps.some2 (by assumption) ?_ | refine Keeps.some3 (by assumption) ?_ | refine Keeps.fst (by assumption) ?_ | refine Keeps.ite ?_ ?_ | refine Keeps.ite2 ?_ ?_ | refine Keeps.ite3 ?_ ?_ | split | dsimp only | simp only [Keeps.upd_iff, List.length_map] | simp only [Keeps.upd_iff, length_updFirst] | simp only [Keeps.upd_iff])

theorem keeps_goOn {s0 : State} (th : Nat) (len : Nat) (r : Bool × State) (hr : Keeps s0 r.2) :
    Keeps s0 (goOn th len r) := by
  unfold goOn
  repeat' (with_reducible first | assumption | apply keeps_onThread | split | dsimp only | simp only [Keeps.upd_iff])

theorem keeps_vLoads {s0 : State} (th : Nat) (x1 : List (Nat × Nat × Nat × Nat)) (x2 : State) (hx2 : Keeps s0 x2) :
    Keeps s0 (vLoads th x1 x2).2 := by
  induction x1 generalizing th x2 with
  | nil =>
    unfold vLoads
    all_goals try dsimp only
    repeat' (with_reducible first | assumption | exact Keeps.refl _ | apply keeps_loadAcc | apply keeps_onThread | (intro _) | refine Keeps.snd (by assumption) ?_ | refine Keeps.snd3 (by assumption) ?_ | refine Keeps.snd4 (by assumption) ?_ | refine Keeps.some1 (by assumption) ?_ | refine Keeps.some2 (by assumption) ?_ | refine Keeps.some3 (by assumption) ?_ | refine Keeps.fst (by assumption) ?_ | refine Keeps.ite ?_ ?_ | refine Keeps.ite2 ?_ ?_ | refine Keeps.ite3 ?_ ?_ | split | dsimp only | simp only [Keeps.upd_iff, List.length_map] | simp only [Keeps.upd_iff, length_updFirst] | simp only [Keeps.upd_iff])
  | cons a t ih =>
    unfold vLoads
    all_goals try dsimp only
    repeat' (with_reducible first | assumption | exact Keeps.refl _ | apply keeps_loadAcc | apply keeps_onThread | with_reducible apply ih | (intro _) | refine Keeps.snd (by assumption) ?_ | refine Keeps.snd3 (by assumption) ?_ | refine Keeps.snd4 (by assumption) ?_ | refine Keeps.some1 (by assumption) ?_ | refine Keeps.some2 (by assumption) ?_ | refine Keeps.some3 (by assumption) ?_ | refine Keeps.fst (by assumption) ?_ | refine Keeps.ite ?_ ?_ | refine Keeps.ite2 ?_ ?_ | refine Keeps.ite3 ?_ ?_ | split | dsimp only | simp only [Keeps.upd_iff, List.length_map] | simp only [Keeps.upd_iff, length_updFirst] | simp only [Keeps.upd_iff])

theorem keeps_vStores {s0 : State} (th : Nat) (x1 : List (Nat × Nat × Nat × Nat)) (x2 : State) (hx2 : Keeps s0 x2) :
    Keeps s0 (vStores th x1 x2).2 := by
  induction x1 generalizing th x2 with
  | nil =>
    unfold vStores
    all_goals try dsimp only
    repeat' (with_reducible first | assumption | exact Keeps.refl _ | apply keeps_onThread | apply keeps_storeAcc | (intro _) | refine Keeps.snd (by assumption) ?_ | refine Keeps.snd3 (by assumption) ?_ | refine Keeps.snd4 (by assumption) ?_ | refine Keeps.some1 (by assumption) ?_ | refine Keeps.some2 (by assumption) ?_ | refine Keeps.some3 (by assumption) ?_ | refine Keeps.fst (by assumption) ?_ | refine Keeps.ite ?_ ?_ | refine Keeps.ite2 ?_ ?_ | refine Keeps.ite3 ?_ ?_ | split | dsimp only | simp only [Keeps.upd_iff, List.length_map] | simp only [Keeps.upd_iff, length_updFirst] | simp only [Keeps.upd_iff])
  | cons a t ih =>
    unfold vStores
    all_goals try dsimp only
    repeat' (with_reducible first | assumption | exact Keeps.refl _ | apply keeps_onThread | apply keeps_storeAcc | with_reducible apply ih | (intro _) | refine Keeps.snd (by assumption) ?_ | refine Keeps.snd3 (by assumption) ?_ | refine Keeps.snd4 (by assumption) ?_ | refine Keeps.some1 (by assumption) ?_ | refine Keeps.some2 (by assumption) ?_ | refine Keeps.some3 (by assumption) ?_ | refine Keeps.fst (by assumption) ?_ | refine Keeps.ite ?_ ?_ | refine Keeps.ite2 ?_ ?_ | refine Keeps.ite3 ?_ ?_ | split | dsimp only | simp only [Keeps.upd_iff, List.length_map] | simp only [Keeps.upd_iff, length_updFirst] | simp only [Keeps.upd_iff])

theorem keeps_illegalForm {s0 : State} (th : Nat) (s : State) (hs : Keeps s0 s) :
    Keeps s0 (illegalForm th s) := by
  unfold illegalForm
  repeat' (with_reducible first | assumption | apply keeps_takeFault | split | dsimp only | simp only [Keeps.upd_iff])

theorem keeps_doLoad {s0 : State} (th : Nat) (len : Nat) (form : MemForm) (va : Nat) (s : State) (hs : Keeps s0 s) :
    Keeps s0 (doLoad th len form va s) := by
  unfold doLoad
  repeat' (with_reducible first | assumption | exact Keeps.refl _ | apply keeps_goOn | apply keeps_illegalForm | apply keeps_loadAcc | apply keeps_onThread | apply keeps_vLoads | (intro _) | refine Keeps.snd (by assumption) ?_ | refine Keeps.snd3 (by assumption) ?_ | refine Keeps.snd4 (by assumption) ?_ | refine Keeps.some1 (by assumption) ?_ | refine Keeps.some2 (by assumption) ?_ | refine Keeps.some3 (by assumption) ?_ | refine Keeps.fst (by assumption) ?_ | refine Keeps.ite ?_ ?_ | refine Keeps.ite2 ?_ ?_ | refine Keeps.ite3 ?_ ?_ | split | dsimp only | simp only [Keeps.upd_iff, List.length_map] | simp only [Keeps.upd_iff, length_updFirst] | simp only [Keeps.upd_iff])

theorem keeps_doStore {s0 : State} (th : Nat) (len : Nat) (form : MemForm) (va : Nat) (s : State) (hs : Keeps s0 s) :
    Keeps s0 (doStore th len form va s) := by
  unfold doStore
  repeat' (with_reducible first | assumption | exact Keeps.refl _ | apply keeps_goOn | apply keeps_illegalForm | apply keeps_onThread | apply keeps_storeAcc | apply keeps_vStores | (intro _) | refine Keeps.snd (by assumption) ?_ | refine Keeps.snd3 (by assumption) ?_ | refine Keeps.snd4 (by assumption) ?_ | refine Keeps.some1 (by assumption) ?_ | refine Keeps.some2 (by assumption) ?_ | refine Keeps.some3 (by assumption) ?_ | refine Keeps.fst (by assumption) ?_ | refine Keeps.ite ?_ ?_ | refine Keeps.ite2 ?_ ?_ | refine Keeps.ite3 ?_ ?_ | split | dsimp only | simp only [Keeps.upd_iff, List.length_map] | simp only [Keeps.upd_iff, length_updFirst] | simp only [Keeps.upd_iff])

theorem keeps_amoHome {s0 : State} (w : Who) (op : AmoOp) (a : Nat) (n : Nat) (src : Nat) (s : State) (hs : Keeps s0 s) :
    Keeps s0 (amoHome w op a n src s).2.2 := by
  unfold amoHome
  repeat' (with_reducible first | assumption | exact Keeps.refl _ | apply keeps_demandRead | apply keeps_demandWrite | (intro _) | refine Keeps.snd (by assumption) ?_ | refine Keeps.snd3 (by assumption) ?_ | refine Keeps.snd4 (by assumption) ?_ | refine Keeps.some1 (by assumption) ?_ | refine Keeps.some2 (by assumption) ?_ | refine Keeps.some3 (by assumption) ?_ | refine Keeps.fst (by assumption) ?_ | refine Keeps.ite ?_ ?_ | refine Keeps.ite2 ?_ ?_ | refine Keeps.ite3 ?_ ?_ | split | dsimp only | simp only [Keeps.upd_iff, List.length_map] | simp only [Keeps.upd_iff, length_updFirst] | simp only [Keeps.upd_iff])

theorem keeps_doAmo {s0 : State} (th : Nat) (len : Nat) (op : AmoOp) (n : Nat) (rd : Nat) (va : Nat) (src : Nat) (s : State) (hs : Keeps s0 s) :
    Keeps s0 (doAmo th len op n rd va src s) := by
  unfold doAmo
  repeat' (with_reducible first | assumption | exact Keeps.refl _ | apply keeps_amoHome | apply keeps_breakResv | apply keeps_goOn | apply keeps_onThread | apply keeps_readLocal | apply keeps_segMismatch | apply keeps_sendRemote | apply keeps_takeFault | apply keeps_writeLocal | (intro _) | refine Keeps.snd (by assumption) ?_ | refine Keeps.snd3 (by assumption) ?_ | refine Keeps.snd4 (by assumption) ?_ | refine Keeps.some1 (by assumption) ?_ | refine Keeps.some2 (by assumption) ?_ | refine Keeps.some3 (by assumption) ?_ | refine Keeps.fst (by assumption) ?_ | refine Keeps.ite ?_ ?_ | refine Keeps.ite2 ?_ ?_ | refine Keeps.ite3 ?_ ?_ | split | dsimp only | simp only [Keeps.upd_iff, List.length_map] | simp only [Keeps.upd_iff, length_updFirst] | simp only [Keeps.upd_iff])

theorem keeps_doLr {s0 : State} (th : Nat) (len : Nat) (n : Nat) (rd : Nat) (va : Nat) (s : State) (hs : Keeps s0 s) :
    Keeps s0 (doLr th len n rd va s) := by
  unfold doLr
  repeat' (with_reducible first | assumption | exact Keeps.refl _ | apply keeps_onThread | apply keeps_readLocal | apply keeps_segMismatch | apply keeps_takeFault | (intro _) | refine Keeps.snd (by assumption) ?_ | refine Keeps.snd3 (by assumption) ?_ | refine Keeps.snd4 (by assumption) ?_ | refine Keeps.some1 (by assumption) ?_ | refine Keeps.some2 (by assumption) ?_ | refine Keeps.some3 (by assumption) ?_ | refine Keeps.fst (by assumption) ?_ | refine Keeps.ite ?_ ?_ | refine Keeps.ite2 ?_ ?_ | refine Keeps.ite3 ?_ ?_ | split | dsimp only | simp only [Keeps.upd_iff, List.length_map] | simp only [Keeps.upd_iff, length_updFirst] | simp only [Keeps.upd_iff])

theorem keeps_doSc {s0 : State} (th : Nat) (len : Nat) (n : Nat) (rd : Nat) (va : Nat) (src : Nat) (s : State) (hs : Keeps s0 s) :
    Keeps s0 (doSc th len n rd va src s) := by
  unfold doSc
  repeat' (with_reducible first | assumption | exact Keeps.refl _ | apply keeps_onThread | apply keeps_segMismatch | apply keeps_takeFault | apply keeps_writeLocal | (intro _) | refine Keeps.snd (by assumption) ?_ | refine Keeps.snd3 (by assumption) ?_ | refine Keeps.snd4 (by assumption) ?_ | refine Keeps.some1 (by assumption) ?_ | refine Keeps.some2 (by assumption) ?_ | refine Keeps.some3 (by assumption) ?_ | refine Keeps.fst (by assumption) ?_ | refine Keeps.ite ?_ ?_ | refine Keeps.ite2 ?_ ?_ | refine Keeps.ite3 ?_ ?_ | split | dsimp only | simp only [Keeps.upd_iff, List.length_map] | simp only [Keeps.upd_iff, length_updFirst] | simp only [Keeps.upd_iff])

theorem keeps_doFence {s0 : State} (th : Nat) (len : Nat) (pred : Nat) (s : State) (hs : Keeps s0 s) :
    Keeps s0 (doFence th len pred s) := by
  unfold doFence
  repeat' (with_reducible first | assumption | apply keeps_onThread | apply keeps_takeFault | split | dsimp only | simp only [Keeps.upd_iff])

theorem keeps_doFenceI {s0 : State} (th : Nat) (len : Nat) (s : State) (hs : Keeps s0 s) :
    Keeps s0 (doFenceI th len s) := by
  unfold doFenceI
  repeat' (with_reducible first | assumption | apply keeps_onThread | split | dsimp only | simp only [Keeps.upd_iff])

theorem keeps_machineTrap {s0 : State} (th : Nat) (cause : Nat) (tval : Nat) (s : State) (hs : Keeps s0 s) :
    Keeps s0 (machineTrap th cause tval s) := by
  unfold machineTrap
  repeat' (with_reducible first | assumption | apply keeps_onThread | split | dsimp only | simp only [Keeps.upd_iff])

theorem keeps_dropStreams {s0 : State} (th : Nat) (s : State) (hs : Keeps s0 s) :
    Keeps s0 (dropStreams th s) := by
  unfold dropStreams
  repeat' (with_reducible first | assumption | apply keeps_killParcels | split | dsimp only | simp only [Keeps.upd_iff])

theorem keeps_kernelThreadDone {s0 : State} (rid : Nat) (s : State) (hs : Keeps s0 s) :
    Keeps s0 (kernelThreadDone rid s) := by
  unfold kernelThreadDone
  repeat' (with_reducible first | assumption | apply keeps_finishReq | apply keeps_onReq | split | dsimp only | simp only [Keeps.upd_iff])

theorem keeps_exitThread {s0 : State} (th : Nat) (s : State) (hs : Keeps s0 s) :
    Keeps s0 (exitThread th s) := by
  unfold exitThread
  repeat' (with_reducible first | assumption | apply keeps_addCause | apply keeps_bump | apply keeps_bumpBy | apply keeps_dropStreams | apply keeps_kernelThreadDone | apply keeps_onThread | apply keeps_whenS | split | dsimp only | simp only [Keeps.upd_iff])

theorem keeps_doEcall {s0 : State} (th : Nat) (s : State) (hs : Keeps s0 s) :
    Keeps s0 (doEcall th s) := by
  unfold doEcall
  repeat' (with_reducible first | assumption | apply keeps_exitThread | apply keeps_machineTrap | apply keeps_takeFault | split | dsimp only | simp only [Keeps.upd_iff])

end Sys2Proof.Machine
end

