-- ==== Sys2Proof/Laws/KeepSea.lean ====
section
/-! SUPPORT. KeepSea: each operation of Machine/Sea.lean keeps the queue, the canonical form of memory and the
order of the free values (`Keeps`). -/
namespace Sys2Proof.Machine
set_option Elab.async false
set_option linter.all false

theorem keeps_onForm {s0 : State} (th : Nat) (rs1 : Nat) (form : MemForm) (f : State → State) (s : State) (hf : ∀ u, Keeps s0 u → Keeps s0 (f u)) (hs : Keeps s0 s) :
    Keeps s0 (onForm th rs1 form f s) := by
  unfold onForm
  repeat' (with_reducible first | assumption | apply keeps_onRegs | apply hf | split | dsimp only | simp only [Keeps.upd_iff])

theorem keeps_execLoad {s0 : State} (th : Nat) (form : MemForm) (rs1 : Nat) (imm : Int) (s : State) (hs : Keeps s0 s) :
    ∀ z, (execLoad th form rs1 imm s) = .next z → Keeps s0 z := by
  intro z e
  unfold execLoad at e
  try dsimp only at e
  first | (split at e <;> first | (injection e with e; subst e)) | (injection e with e; subst e) | skip
  repeat' (with_reducible first | assumption | apply keeps_doLoad | apply keeps_onForm | (intro _) | refine Keeps.ite ?_ ?_ | split | dsimp only | simp only [Keeps.upd_iff])

theorem keeps_execStore {s0 : State} (th : Nat) (form : MemForm) (rs1 : Nat) (imm : Int) (s : State) (hs : Keeps s0 s) :
    ∀ z, (execStore th form rs1 imm s) = .next z → Keeps s0 z := by
  intro z e
  unfold execStore at e
  try dsimp only at e
  first | (split at e <;> first | (injection e with e; subst e)) | (injection e with e; subst e) | skip
  repeat' (with_reducible first | assumption | apply keeps_doStore | apply keeps_onForm | (intro _) | refine Keeps.ite ?_ ?_ | split | dsimp only | simp only [Keeps.upd_iff])

theorem keeps_execAmo {s0 : State} (th : Nat) (op : AmoOp) (n : Nat) (rd : Nat) (rs1 : Nat) (rs2 : Nat) (s : State) (hs : Keeps s0 s) :
    ∀ z, (execAmo th op n rd rs1 rs2 s) = .next z → Keeps s0 z := by
  intro z e
  unfold execAmo at e
  try dsimp only at e
  first | (split at e <;> first | (injection e with e; subst e)) | (injection e with e; subst e) | skip
  repeat' (with_reducible first | assumption | apply keeps_doAmo | apply keeps_onRegs | (intro _) | refine Keeps.ite ?_ ?_ | split | dsimp only | simp only [Keeps.upd_iff])

theorem keeps_execLrSc {s0 : State} (th : Nat) (sc : Bool) (n : Nat) (rd : Nat) (rs1 : Nat) (rs2 : Nat) (s : State) (hs : Keeps s0 s) :
    ∀ z, (execLrSc th sc n rd rs1 rs2 s) = .next z → Keeps s0 z := by
  intro z e
  unfold execLrSc at e
  try dsimp only at e
  first | (split at e <;> first | (injection e with e; subst e)) | (injection e with e; subst e) | skip
  repeat' (with_reducible first | assumption | apply keeps_doLr | apply keeps_doSc | apply keeps_onRegs | (intro _) | refine Keeps.ite ?_ ?_ | split | dsimp only | simp only [Keeps.upd_iff])

theorem keeps_execFence {s0 : State} (th : Nat) (pred : Nat) (_succ : Nat) (s : State) (hs : Keeps s0 s) :
    ∀ z, (execFence th pred _succ s) = .next z → Keeps s0 z := by
  intro z e
  unfold execFence at e
  try dsimp only at e
  first | (split at e <;> first | (injection e with e; subst e)) | (injection e with e; subst e) | skip
  repeat' (with_reducible first | assumption | apply keeps_doFence | apply keeps_onIssue | split | dsimp only | simp only [Keeps.upd_iff])

theorem keeps_execFenceI {s0 : State} (th : Nat) (s : State) (hs : Keeps s0 s) :
    ∀ z, (execFenceI th s) = .next z → Keeps s0 z := by
  intro z e
  unfold execFenceI at e
  try dsimp only at e
  first | (split at e <;> first | (injection e with e; subst e)) | (injection e with e; subst e) | skip
  repeat' (with_reducible first | assumption | apply keeps_doFenceI | apply keeps_onIssue | split | dsimp only | simp only [Keeps.upd_iff])

theorem keeps_execEcallExit {s0 : State} (th : Nat) (s : State) (hs : Keeps s0 s) :
    ∀ z, (execEcallExit th s) = .next z → Keeps s0 z := by
  intro z e
  unfold execEcallExit at e
  try dsimp only at e
  first | (split at e <;> first | (injection e with e; subst e)) | (injection e with e; subst e) | skip
  repeat' (with_reducible first | assumption | apply keeps_doEcall | apply keeps_onIssue | split | dsimp only | simp only [Keeps.upd_iff])

theorem keeps_unmark {s0 : State} (cl : Nat) (slot : Nat) (s : State) (hs : Keeps s0 s) :
    Keeps s0 (unmark cl slot s) := by
  unfold unmark
  repeat' (with_reducible first | assumption | split | dsimp only | simp only [Keeps.upd_iff])

theorem keeps_freeStream {s0 : State} (k : Nat) (s : State) (hs : Keeps s0 s) :
    Keeps s0 (freeStream k s) := by
  unfold freeStream
  repeat' (with_reducible first | assumption | apply keeps_unmark | split | dsimp only | simp only [Keeps.upd_iff])

theorem keeps_prefetchLine {s0 : State} (k : Nat) (a : Nat) (s : State) (hs : Keeps s0 s) :
    Keeps s0 (prefetchLine k a s) := by
  unfold prefetchLine
  repeat' (with_reducible first | assumption | apply keeps_accessStack | apply keeps_makeRoom | apply keeps_onStream | split | dsimp only | simp only [Keeps.upd_iff])

theorem keeps_execPrefetchFill {s0 : State} (cl : Nat) (slot : Nat) (line : Nat) (s : State) (hs : Keeps s0 s) :
    ∀ z, (execPrefetchFill cl slot line s) = .next z → Keeps s0 z := by
  intro z e
  unfold execPrefetchFill at e
  try dsimp only at e
  first | (split at e <;> first | (injection e with e; subst e)) | (injection e with e; subst e) | skip
  repeat' (with_reducible first | assumption | apply keeps_freeStream | apply keeps_onStream | apply keeps_prefetchLine | split | dsimp only | simp only [Keeps.upd_iff])

theorem keeps_execRemoteAccessTimeout {s0 : State} (th : Nat) (tag : Nat) (s : State) (hs : Keeps s0 s) :
    ∀ z, (execRemoteAccessTimeout th tag s) = .next z → Keeps s0 z := by
  intro z e
  unfold execRemoteAccessTimeout at e
  try dsimp only at e
  first | (split at e <;> first | (injection e with e; subst e)) | (injection e with e; subst e) | skip
  repeat' (with_reducible first | assumption | apply keeps_onThread | apply keeps_takeFault | split | dsimp only | simp only [Keeps.upd_iff])

theorem keeps_declareStream {s0 : State} (th : Nat) (z : Stream) (s : State) (hs : Keeps s0 s) :
    Keeps s0 (declareStream th z s) := by
  unfold declareStream
  repeat' (with_reducible first | assumption | apply keeps_freeStream | apply keeps_issueStream | apply keeps_onThread | split | dsimp only | simp only [Keeps.upd_iff])

theorem keeps_doEstream {s0 : State} (th : Nat) (rd : Nat) (arg : Nat) (s : State) (hs : Keeps s0 s) :
    Keeps s0 (doEstream th rd arg s) := by
  unfold doEstream
  repeat' (with_reducible first | assumption | exact Keeps.refl _ | apply keeps_declareStream | apply keeps_demandRead | apply keeps_onThread | apply keeps_takeFault | (intro _) | refine Keeps.snd (by assumption) ?_ | refine Keeps.snd3 (by assumption) ?_ | refine Keeps.snd4 (by assumption) ?_ | refine Keeps.some1 (by assumption) ?_ | refine Keeps.some2 (by assumption) ?_ | refine Keeps.some3 (by assumption) ?_ | refine Keeps.fst (by assumption) ?_ | refine Keeps.ite ?_ ?_ | refine Keeps.ite2 ?_ ?_ | refine Keeps.ite3 ?_ ?_ | split | dsimp only | simp only [Keeps.upd_iff, List.length_map] | simp only [Keeps.upd_iff, length_updFirst] | simp only [Keeps.upd_iff])

theorem keeps_execEstream {s0 : State} (th : Nat) (rd : Nat) (rs1 : Nat) (s : State) (hs : Keeps s0 s) :
    ∀ z, (execEstream th rd rs1 s) = .next z → Keeps s0 z := by
  intro z e
  unfold execEstream at e
  try dsimp only at e
  first | (split at e <;> first | (injection e with e; subst e)) | (injection e with e; subst e) | skip
  repeat' (with_reducible first | assumption | apply keeps_doEstream | apply keeps_onRegs | (intro _) | refine Keeps.ite ?_ ?_ | split | dsimp only | simp only [Keeps.upd_iff])

theorem keeps_doEstwait {s0 : State} (th : Nat) (rd : Nat) (arg : Nat) (s : State) (hs : Keeps s0 s) :
    Keeps s0 (doEstwait th rd arg s) := by
  unfold doEstwait
  repeat' (with_reducible first | assumption | apply keeps_draw | apply keeps_onThread | split | dsimp only | simp only [Keeps.upd_iff])

theorem keeps_execEstwait {s0 : State} (th : Nat) (rd : Nat) (rs1 : Nat) (s : State) (hs : Keeps s0 s) :
    ∀ z, (execEstwait th rd rs1 s) = .next z → Keeps s0 z := by
  intro z e
  unfold execEstwait at e
  try dsimp only at e
  first | (split at e <;> first | (injection e with e; subst e)) | (injection e with e; subst e) | skip
  repeat' (with_reducible first | assumption | apply keeps_doEstwait | apply keeps_onRegs | (intro _) | refine Keeps.ite ?_ ?_ | split | dsimp only | simp only [Keeps.upd_iff])

theorem keeps_doEstrel {s0 : State} (th : Nat) (rd : Nat) (arg : Nat) (s : State) (hs : Keeps s0 s) :
    Keeps s0 (doEstrel th rd arg s) := by
  unfold doEstrel
  repeat' (with_reducible first | assumption | apply keeps_drainStream | apply keeps_issueStream | apply keeps_onStream | apply keeps_onThread | apply keeps_wakeStream | split | dsimp only | simp only [Keeps.upd_iff])

theorem keeps_execEstrel {s0 : State} (th : Nat) (rd : Nat) (rs1 : Nat) (s : State) (hs : Keeps s0 s) :
    ∀ z, (execEstrel th rd rs1 s) = .next z → Keeps s0 z := by
  intro z e
  unfold execEstrel at e
  try dsimp only at e
  first | (split at e <;> first | (injection e with e; subst e)) | (injection e with e; subst e) | skip
  repeat' (with_reducible first | assumption | apply keeps_doEstrel | apply keeps_onRegs | (intro _) | refine Keeps.ite ?_ ?_ | split | dsimp only | simp only [Keeps.upd_iff])

theorem keeps_doEstop {s0 : State} (th : Nat) (rd : Nat) (arg : Nat) (s : State) (hs : Keeps s0 s) :
    Keeps s0 (doEstop th rd arg s) := by
  unfold doEstop
  repeat' (with_reducible first | assumption | apply keeps_freeStream | apply keeps_killParcels | apply keeps_onThread | split | dsimp only | simp only [Keeps.upd_iff])

theorem keeps_execEstop {s0 : State} (th : Nat) (rd : Nat) (rs1 : Nat) (s : State) (hs : Keeps s0 s) :
    ∀ z, (execEstop th rd rs1 s) = .next z → Keeps s0 z := by
  intro z e
  unfold execEstop at e
  try dsimp only at e
  first | (split at e <;> first | (injection e with e; subst e)) | (injection e with e; subst e) | skip
  repeat' (with_reducible first | assumption | apply keeps_doEstop | apply keeps_onRegs | (intro _) | refine Keeps.ite ?_ ?_ | split | dsimp only | simp only [Keeps.upd_iff])

theorem keeps_clearSticky {s0 : State} (th : Nat) (rd : Nat) (rs1 : Nat) (csr : Nat) (s : State) (hs : Keeps s0 s) :
    Keeps s0 (clearSticky th rd rs1 csr s) := by
  unfold clearSticky
  repeat' (with_reducible first | assumption | apply keeps_onRegs | apply keeps_onThread | (intro _) | refine Keeps.ite ?_ ?_ | split | dsimp only | simp only [Keeps.upd_iff])

theorem keeps_execEscstatWrite {s0 : State} (th : Nat) (rd : Nat) (rs1 : Nat) (s : State) (hs : Keeps s0 s) :
    ∀ z, (execEscstatWrite th rd rs1 s) = .next z → Keeps s0 z := by
  intro z e
  unfold execEscstatWrite at e
  try dsimp only at e
  first | (split at e <;> first | (injection e with e; subst e)) | (injection e with e; subst e) | skip
  repeat' (with_reducible first | assumption | apply keeps_clearSticky | split | dsimp only | simp only [Keeps.upd_iff])

theorem keeps_execEslstatWrite {s0 : State} (th : Nat) (rd : Nat) (rs1 : Nat) (s : State) (hs : Keeps s0 s) :
    ∀ z, (execEslstatWrite th rd rs1 s) = .next z → Keeps s0 z := by
  intro z e
  unfold execEslstatWrite at e
  try dsimp only at e
  first | (split at e <;> first | (injection e with e; subst e)) | (injection e with e; subst e) | skip
  repeat' (with_reducible first | assumption | apply keeps_clearSticky | split | dsimp only | simp only [Keeps.upd_iff])

theorem keeps_rangeLine {s0 : State} (op : Nat) (w : Who) (key : Nat) (s : State) (hs : Keeps s0 s) :
    Keeps s0 (rangeLine op w key s) := by
  unfold rangeLine
  repeat' (with_reducible first | assumption | apply keeps_dropLine | apply keeps_writeBackLine | split | dsimp only | simp only [Keeps.upd_iff])

theorem keeps_doRange {s0 : State} (th : Nat) (op : Nat) (w : W32) (s : State) (hs : Keeps s0 s) :
    Keeps s0 (doRange th op w s) := by
  unfold doRange
  repeat' (with_reducible first | assumption | apply keeps_foldS | apply keeps_illegal | apply keeps_onThread | apply keeps_rangeLine | apply keeps_segMismatch | apply keeps_takeFault | split | dsimp only | simp only [Keeps.upd_iff])

theorem keeps_execWb {s0 : State} (th : Nat) (w : W32) (s : State) (hs : Keeps s0 s) :
    ∀ z, (execWb th w s) = .next z → Keeps s0 z := by
  intro z e
  unfold execWb at e
  try dsimp only at e
  first | (split at e <;> first | (injection e with e; subst e)) | (injection e with e; subst e) | skip
  repeat' (with_reducible first | assumption | apply keeps_doRange | apply keeps_onRegs | split | dsimp only | simp only [Keeps.upd_iff])

theorem keeps_execFlush {s0 : State} (th : Nat) (w : W32) (s : State) (hs : Keeps s0 s) :
    ∀ z, (execFlush th w s) = .next z → Keeps s0 z := by
  intro z e
  unfold execFlush at e
  try dsimp only at e
  first | (split at e <;> first | (injection e with e; subst e)) | (injection e with e; subst e) | skip
  repeat' (with_reducible first | assumption | apply keeps_doRange | apply keeps_onRegs | split | dsimp only | simp only [Keeps.upd_iff])

theorem keeps_execInv {s0 : State} (th : Nat) (w : W32) (s : State) (hs : Keeps s0 s) :
    ∀ z, (execInv th w s) = .next z → Keeps s0 z := by
  intro z e
  unfold execInv at e
  try dsimp only at e
  first | (split at e <;> first | (injection e with e; subst e)) | (injection e with e; subst e) | skip
  repeat' (with_reducible first | assumption | apply keeps_doRange | apply keeps_onRegs | split | dsimp only | simp only [Keeps.upd_iff])

theorem keeps_execItemSteal {s0 : State} (c : Nat) (s : State) (hs : Keeps s0 s) :
    ∀ z, (execItemSteal c s) = .next z → Keeps s0 z := by
  intro z e
  unfold execItemSteal at e
  try dsimp only at e
  first | (split at e <;> first | (injection e with e; subst e)) | (injection e with e; subst e) | skip
  repeat' (with_reducible first | assumption | apply keeps_bump | split | dsimp only | simp only [Keeps.upd_iff])

theorem keeps_execBudgetSpent {s0 : State} (core : Nat) (t : Nat) (s : State) (hs : Keeps s0 s) :
    ∀ z, (execBudgetSpent core t s) = .next z → Keeps s0 z := by
  intro z e
  unfold execBudgetSpent at e
  try dsimp only at e
  first | (split at e <;> first | (injection e with e; subst e)) | (injection e with e; subst e) | skip
  repeat' (with_reducible first | assumption | apply keeps_bump | split | dsimp only | simp only [Keeps.upd_iff])

end Sys2Proof.Machine
end

