-- ==== Sys2Proof/Laws/KeepPigeon.lean ====
section
/-! SUPPORT. KeepPigeon: each operation of Machine/Pigeon.lean keeps the queue, the canonical form of memory and the
order of the free values (`Keeps`). -/
namespace Sys2Proof.Machine
set_option Elab.async false
set_option linter.all false

theorem keeps_setOutq {s0 : State} (core : Nat) (l : List Letter) (s : State) (hs : Keeps s0 s) :
    Keeps s0 (setOutq core l s) := by
  unfold setOutq
  repeat' (with_reducible first | assumption | split | dsimp only | simp only [Keeps.upd_iff])

theorem keeps_execEpost {s0 : State} (th : Nat) (w : W32) (s : State) (hs : Keeps s0 s) :
    ∀ z, (execEpost th w s) = .next z → Keeps s0 z := by
  intro z e
  unfold execEpost at e
  try dsimp only at e
  first | (split at e <;> first | (injection e with e; subst e)) | (injection e with e; subst e) | skip
  repeat' (with_reducible first | assumption | exact Keeps.refl _ | apply keeps_bump | apply keeps_demandRead | apply keeps_illegal | apply keeps_onRegs | apply keeps_onThread | apply keeps_setOutq | apply keeps_takeFault | (intro _) | refine Keeps.snd (by assumption) ?_ | refine Keeps.snd3 (by assumption) ?_ | refine Keeps.snd4 (by assumption) ?_ | refine Keeps.some1 (by assumption) ?_ | refine Keeps.some2 (by assumption) ?_ | refine Keeps.some3 (by assumption) ?_ | refine Keeps.fst (by assumption) ?_ | refine Keeps.ite ?_ ?_ | refine Keeps.ite2 ?_ ?_ | refine Keeps.ite3 ?_ ?_ | split | dsimp only | simp only [Keeps.upd_iff, List.length_map] | simp only [Keeps.upd_iff, length_updFirst] | simp only [Keeps.upd_iff])

theorem keeps_doErecv {s0 : State} (th : Nat) (rd : Nat) (arg : Nat) (s : State) (hs : Keeps s0 s) :
    Keeps s0 (doErecv th rd arg s) := by
  unfold doErecv
  repeat' (with_reducible first | assumption | exact Keeps.refl _ | apply keeps_onThread | apply keeps_retryKnocks | apply keeps_storeOwn | apply keeps_takeFault | (intro _) | refine Keeps.snd (by assumption) ?_ | refine Keeps.snd3 (by assumption) ?_ | refine Keeps.snd4 (by assumption) ?_ | refine Keeps.some1 (by assumption) ?_ | refine Keeps.some2 (by assumption) ?_ | refine Keeps.some3 (by assumption) ?_ | refine Keeps.fst (by assumption) ?_ | refine Keeps.ite ?_ ?_ | refine Keeps.ite2 ?_ ?_ | refine Keeps.ite3 ?_ ?_ | split | dsimp only | simp only [Keeps.upd_iff, List.length_map] | simp only [Keeps.upd_iff, length_updFirst] | simp only [Keeps.upd_iff])

theorem keeps_execErecv {s0 : State} (th : Nat) (rd : Nat) (rs1 : Nat) (s : State) (hs : Keeps s0 s) :
    ∀ z, (execErecv th rd rs1 s) = .next z → Keeps s0 z := by
  intro z e
  unfold execErecv at e
  try dsimp only at e
  first | (split at e <;> first | (injection e with e; subst e)) | (injection e with e; subst e) | skip
  repeat' (with_reducible first | assumption | apply keeps_doErecv | apply keeps_onRegs | (intro _) | refine Keeps.ite ?_ ?_ | split | dsimp only | simp only [Keeps.upd_iff])

theorem keeps_doEwait {s0 : State} (th : Nat) (rd : Nat) (arg : Nat) (s : State) (hs : Keeps s0 s) :
    Keeps s0 (doEwait th rd arg s) := by
  unfold doEwait
  repeat' (with_reducible first | assumption | apply keeps_onThread | split | dsimp only | simp only [Keeps.upd_iff])

theorem keeps_execEwait {s0 : State} (th : Nat) (rd : Nat) (rs1 : Nat) (s : State) (hs : Keeps s0 s) :
    ∀ z, (execEwait th rd rs1 s) = .next z → Keeps s0 z := by
  intro z e
  unfold execEwait at e
  try dsimp only at e
  first | (split at e <;> first | (injection e with e; subst e)) | (injection e with e; subst e) | skip
  repeat' (with_reducible first | assumption | apply keeps_doEwait | apply keeps_onRegs | (intro _) | refine Keeps.ite ?_ ?_ | split | dsimp only | simp only [Keeps.upd_iff])

theorem keeps_execEwaitLimit {s0 : State} (th : Nat) (s : State) (hs : Keeps s0 s) :
    ∀ z, (execEwaitLimit th s) = .next z → Keeps s0 z := by
  intro z e
  unfold execEwaitLimit at e
  try dsimp only at e
  first | (split at e <;> first | (injection e with e; subst e)) | (injection e with e; subst e) | skip
  repeat' (with_reducible first | assumption | apply keeps_onThread | apply keeps_startWake | apply keeps_ungate | split | dsimp only | simp only [Keeps.upd_iff])

theorem keeps_routeLetter {s0 : State} (l : Letter) (s : State) (hs : Keeps s0 s) :
    Keeps s0 (routeLetter l s) := by
  unfold routeLetter
  repeat' (with_reducible first | assumption | apply keeps_deliverOrKeep | apply keeps_sendRemoteLetter | split | dsimp only | simp only [Keeps.upd_iff])

theorem keeps_execPigeonholeDelivery {s0 : State} (s : State) (hs : Keeps s0 s) :
    ∀ z, (execPigeonholeDelivery s) = .next z → Keeps s0 z := by
  intro z e
  unfold execPigeonholeDelivery at e
  try dsimp only at e
  first | (split at e <;> first | (injection e with e; subst e)) | (injection e with e; subst e) | skip
  repeat' (with_reducible first | assumption | apply keeps_routeLetter | apply keeps_setOutq | split | dsimp only | simp only [Keeps.upd_iff])

theorem keeps_passHeld {s0 : State} (c : Nat) (s : State) (hs : Keeps s0 s) :
    Keeps s0 (passHeld c s) := by
  unfold passHeld
  repeat' (with_reducible first | assumption | apply keeps_deliverOrKeep | apply keeps_foldS | split | dsimp only | simp only [Keeps.upd_iff])

theorem keeps_addHeldOvf {s0 : State} (c : Nat) (s : State) (hs : Keeps s0 s) :
    Keeps s0 (addHeldOvf c s) := by
  unfold addHeldOvf
  repeat' (with_reducible first | assumption | apply keeps_foldS | apply keeps_onThread | (intro _) | refine Keeps.ite ?_ ?_ | split | dsimp only | simp only [Keeps.upd_iff])

theorem keeps_execClusterWake {s0 : State} (c : Nat) (s : State) (hs : Keeps s0 s) :
    ∀ z, (execClusterWake c s) = .next z → Keeps s0 z := by
  intro z e
  unfold execClusterWake at e
  try dsimp only at e
  first | (split at e <;> first | (injection e with e; subst e)) | (injection e with e; subst e) | skip
  repeat' (with_reducible first | assumption | apply keeps_addHeldOvf | apply keeps_bump | apply keeps_passHeld | apply keeps_retryKnocks | split | dsimp only | simp only [Keeps.upd_iff])

end Sys2Proof.Machine
end

