-- ==== Sys2Proof/Laws/KeepKernel.lean ====
section
/-! SUPPORT. KeepKernel: each operation of Machine/Kernel.lean keeps the queue, the canonical form of memory and the
order of the free values (`Keeps`). -/
namespace Sys2Proof.Machine
set_option Elab.async false
set_option linter.all false

theorem keeps_startThread {s0 : State} (r : Req) (n : Nat) (p : Nat × Nat) (s : State) (hs : Keeps s0 s) :
    Keeps s0 (startThread r n p s) := by
  unfold startThread
  repeat' (with_reducible first | assumption | apply keeps_onThread | apply keeps_startWake | apply keeps_ungate | split | dsimp only | simp only [Keeps.upd_iff])

theorem keeps_startKernel {s0 : State} (rid : Nat) (s : State) (hs : Keeps s0 s) :
    Keeps s0 (startKernel rid s) := by
  unfold startKernel
  repeat' (with_reducible first | assumption | apply keeps_foldS | apply keeps_onReq | apply keeps_startThread | split | dsimp only | simp only [Keeps.upd_iff])

theorem keeps_startKernels {s0 : State} (s : State) (hs : Keeps s0 s) :
    Keeps s0 (startKernels s) := by
  unfold startKernels
  repeat' (with_reducible first | assumption | apply keeps_foldS | apply keeps_startKernel | split | dsimp only | simp only [Keeps.upd_iff])

theorem keeps_countRounds {s0 : State} (s : State) (hs : Keeps s0 s) :
    Keeps s0 (countRounds s) := by
  unfold countRounds
  repeat' (with_reducible first | assumption | split | dsimp only | simp only [Keeps.upd_iff])

theorem keeps_execKernelRun {s0 : State} (rid : Nat) (s : State) (hs : Keeps s0 s) :
    ∀ z, (execKernelRun rid s) = .next z → Keeps s0 z := by
  intro z e
  unfold execKernelRun at e
  try dsimp only at e
  first | (split at e <;> first | (injection e with e; subst e)) | (injection e with e; subst e) | skip
  repeat' (with_reducible first | assumption | apply keeps_onAdmitted | apply keeps_onReq | (intro _) | refine Keeps.ite ?_ ?_ | split | dsimp only | simp only [Keeps.upd_iff])

theorem keeps_execKernelRoundLimit {s0 : State} (rid : Nat) (s : State) (hs : Keeps s0 s) :
    ∀ z, (execKernelRoundLimit rid s) = .next z → Keeps s0 z := by
  intro z e
  unfold execKernelRoundLimit at e
  try dsimp only at e
  first | (split at e <;> first | (injection e with e; subst e)) | (injection e with e; subst e) | skip
  repeat' (with_reducible first | assumption | apply keeps_failReq | split | dsimp only | simp only [Keeps.upd_iff])

end Sys2Proof.Machine
end

