-- ==== Sys2Proof/Laws/KeepPower.lean ====
section
/-! SUPPORT. KeepPower: each operation of Machine/Power.lean keeps the queue, the canonical form of memory and the
order of the free values (`Keeps`). -/
namespace Sys2Proof.Machine
set_option Elab.async false
set_option linter.all false

theorem keeps_execClockGateEntry {s0 : State} (c : Nat) (s : State) (hs : Keeps s0 s) :
    ∀ z, (execClockGateEntry c s) = .next z → Keeps s0 z := by
  intro z e
  unfold execClockGateEntry at e
  try dsimp only at e
  first | (split at e <;> first | (injection e with e; subst e)) | (injection e with e; subst e) | skip
  repeat' (with_reducible first | assumption | split | dsimp only | simp only [Keeps.upd_iff])

theorem keeps_execPowerGateEntry {s0 : State} (c : Nat) (s : State) (hs : Keeps s0 s) :
    ∀ z, (execPowerGateEntry c s) = .next z → Keeps s0 z := by
  intro z e
  unfold execPowerGateEntry at e
  try dsimp only at e
  first | (split at e <;> first | (injection e with e; subst e)) | (injection e with e; subst e) | skip
  repeat' (with_reducible first | assumption | split | dsimp only | simp only [Keeps.upd_iff])

theorem keeps_emptyCaches {s0 : State} (c : Nat) (s : State) (hs : Keeps s0 s) :
    Keeps s0 (emptyCaches c s) := by
  unfold emptyCaches
  repeat' (with_reducible first | assumption | apply keeps_dropLine | apply keeps_foldS | apply keeps_writeBackLine | (intro _) | refine Keeps.ite ?_ ?_ | split | dsimp only | simp only [Keeps.upd_iff])

theorem keeps_execPowerGatedDone {s0 : State} (c : Nat) (s : State) (hs : Keeps s0 s) :
    ∀ z, (execPowerGatedDone c s) = .next z → Keeps s0 z := by
  intro z e
  unfold execPowerGatedDone at e
  try dsimp only at e
  first | (split at e <;> first | (injection e with e; subst e)) | (injection e with e; subst e) | skip
  repeat' (with_reducible first | assumption | apply keeps_emptyCaches | split | dsimp only | simp only [Keeps.upd_iff])

theorem keeps_markDies {s0 : State} (s : State) (hs : Keeps s0 s) :
    Keeps s0 (markDies s) := by
  unfold markDies
  repeat' (with_reducible first | assumption | apply keeps_foldS | (intro _) | refine Keeps.ite ?_ ?_ | split | dsimp only | simp only [Keeps.upd_iff])

theorem keeps_execDieStop {s0 : State} (d : Nat) (s : State) (hs : Keeps s0 s) :
    ∀ z, (execDieStop d s) = .next z → Keeps s0 z := by
  intro z e
  unfold execDieStop at e
  try dsimp only at e
  first | (split at e <;> first | (injection e with e; subst e)) | (injection e with e; subst e) | skip
  repeat' (with_reducible first | assumption | apply keeps_bump | apply keeps_markDies | split | dsimp only | simp only [Keeps.upd_iff])

theorem keeps_execStackPowerDown {s0 : State} (k : Nat) (s : State) (hs : Keeps s0 s) :
    ∀ z, (execStackPowerDown k s) = .next z → Keeps s0 z := by
  intro z e
  unfold execStackPowerDown at e
  try dsimp only at e
  first | (split at e <;> first | (injection e with e; subst e)) | (injection e with e; subst e) | skip
  repeat' (with_reducible first | assumption | split | dsimp only | simp only [Keeps.upd_iff])

theorem keeps_execSelfRefreshEntry {s0 : State} (k : Nat) (s : State) (hs : Keeps s0 s) :
    ∀ z, (execSelfRefreshEntry k s) = .next z → Keeps s0 z := by
  intro z e
  unfold execSelfRefreshEntry at e
  try dsimp only at e
  first | (split at e <;> first | (injection e with e; subst e)) | (injection e with e; subst e) | skip
  repeat' (with_reducible first | assumption | apply keeps_markDies | split | dsimp only | simp only [Keeps.upd_iff])

theorem keeps_execChannelGroupStandby {s0 : State} (g : Nat) (s : State) (hs : Keeps s0 s) :
    ∀ z, (execChannelGroupStandby g s) = .next z → Keeps s0 z := by
  intro z e
  unfold execChannelGroupStandby at e
  try dsimp only at e
  first | (split at e <;> first | (injection e with e; subst e)) | (injection e with e; subst e) | skip
  repeat' (with_reducible first | assumption | split | dsimp only | simp only [Keeps.upd_iff])

theorem keeps_unboost {s0 : State} (s : State) (hs : Keeps s0 s) :
    Keeps s0 (unboost s) := by
  unfold unboost
  exact keeps_retryKnocks _ (Keeps.upd (u := s) hs (fun w => w) (List.prefix_refl _) (List.prefix_refl _) (List.prefix_refl _)
    (Nat.le_refl _) (Nat.le_refl _) (Nat.le_refl _) (Nat.zero_le _) (Nat.le_refl _) (Nat.le_refl _) (Nat.le_refl _))

theorem keeps_execControllerIdle {s0 : State} (s : State) (hs : Keeps s0 s) :
    ∀ z, (execControllerIdle s) = .next z → Keeps s0 z := by
  intro z e
  unfold execControllerIdle at e
  try dsimp only at e
  first | (split at e <;> first | (injection e with e; subst e)) | (injection e with e; subst e) | skip
  repeat' (with_reducible first | assumption | apply keeps_unboost | split | dsimp only | simp only [Keeps.upd_iff])

theorem keeps_wakeAll {s0 : State} (s : State) (hs : Keeps s0 s) :
    Keeps s0 (wakeAll s) := by
  unfold wakeAll
  repeat' (with_reducible first | assumption | apply keeps_foldS | apply keeps_startWake | apply keeps_touchStack | split | dsimp only | simp only [Keeps.upd_iff])

theorem keeps_throttleWork {s0 : State} (s : State) (hs : Keeps s0 s) :
    Keeps s0 (throttleWork s) := by
  unfold throttleWork
  repeat' (with_reducible first | assumption | apply keeps_addCause | apply keeps_foldS | (intro _) | refine Keeps.ite ?_ ?_ | split | dsimp only | simp only [Keeps.upd_iff])

theorem keeps_setSteps {s0 : State} (n : Nat) (s : State) (hs : Keeps s0 s) :
    Keeps s0 (setSteps n s) := by
  unfold setSteps
  repeat' (with_reducible first | assumption | apply keeps_dirSet | apply keeps_throttleWork | apply keeps_whenS | split | dsimp only | simp only [Keeps.upd_iff])

theorem keeps_capStep {s0 : State} (draw : Nat) (temps : List Int) (s : State) (hs : Keeps s0 s) :
    Keeps s0 (capStep draw temps s) := by
  unfold capStep
  repeat' (with_reducible first | assumption | apply keeps_setSteps | split | dsimp only | simp only [Keeps.upd_iff])

theorem keeps_capUnmet {s0 : State} (draw : Nat) (applied : Nat) (s : State) (hs : Keeps s0 s) :
    Keeps s0 (capUnmet draw applied s) := by
  unfold capUnmet
  repeat' (with_reducible first | assumption | apply keeps_dirSet | apply keeps_record | split | dsimp only | simp only [Keeps.upd_iff])

theorem keeps_powerTick {s0 : State} (draw : Nat) (temps : List Int) (s : State) (hs : Keeps s0 s) :
    Keeps s0 (powerTick draw temps s) := by
  unfold powerTick
  repeat' (with_reducible first | assumption | apply keeps_bump | apply keeps_capStep | apply keeps_capUnmet | apply keeps_dirSet | apply keeps_whenS | split | dsimp only | simp only [Keeps.upd_iff])

theorem keeps_execFastLimiter {s0 : State} (w : Nat) (s : State) (hs : Keeps s0 s) :
    ∀ z, (execFastLimiter w s) = .next z → Keeps s0 z := by
  intro z e
  unfold execFastLimiter at e
  try dsimp only at e
  first | (split at e <;> first | (injection e with e; subst e)) | (injection e with e; subst e) | skip
  repeat' (with_reducible first | assumption | apply keeps_bump | apply keeps_throttleWork | split | dsimp only | simp only [Keeps.upd_iff])

end Sys2Proof.Machine
end

