-- ==== Sys2Proof/Laws/KeepLinkOps.lean ====
section
/-! SUPPORT. KeepLinkOps: each operation of Machine/LinkOps.lean keeps the queue, the canonical form of memory and the
order of the free values (`Keeps`). -/
namespace Sys2Proof.Machine
set_option Elab.async false
set_option linter.all false

theorem keeps_linkErr {s0 : State} (cls : Nat) (sev : Nat) (k : Nat) (detail : Nat) (s : State) (hs : Keeps s0 s) :
    Keeps s0 (linkErr cls sev k detail s) := by
  unfold linkErr
  repeat' (with_reducible first | assumption | apply keeps_record | split | dsimp only | simp only [Keeps.upd_iff])

theorem keeps_viewNode {s0 : State} (post : Nat) (s : State) (hs : Keeps s0 s) :
    Keeps s0 (viewNode post s) := by
  unfold viewNode
  repeat' (with_reducible first | assumption | split | dsimp only | simp only [Keeps.upd_iff])

theorem keeps_viewLink {s0 : State} (k : Nat) (s : State) (hs : Keeps s0 s) :
    Keeps s0 (viewLink k s) := by
  unfold viewLink
  repeat' (with_reducible first | assumption | apply keeps_optS | apply keeps_viewNode | split | dsimp only | simp only [Keeps.upd_iff])

theorem keeps_showClock {s0 : State} (s : State) (hs : Keeps s0 s) :
    Keeps s0 (showClock s) := by
  unfold showClock
  repeat' (with_reducible first | assumption | apply keeps_dirSet | split | dsimp only | simp only [Keeps.upd_iff])

theorem keeps_setLinkState {s0 : State} (k : Nat) (v : Nat) (s : State) (hs : Keeps s0 s) :
    Keeps s0 (setLinkState k v s) := by
  unfold setLinkState
  repeat' (with_reducible first | assumption | apply keeps_dirSet | split | dsimp only | simp only [Keeps.upd_iff])

theorem keeps_trackParent {s0 : State} (s : State) (hs : Keeps s0 s) :
    Keeps s0 (trackParent s) := by
  unfold trackParent
  repeat' (with_reducible first | assumption | apply keeps_showClock | split | dsimp only | simp only [Keeps.upd_iff])

theorem keeps_engageDetours {s0 : State} (s : State) (hs : Keeps s0 s) :
    Keeps s0 (engageDetours s) := by
  unfold engageDetours
  repeat' (with_reducible first | assumption | apply keeps_dirSet | apply keeps_foldS | apply keeps_onLink | (intro _) | refine Keeps.ite ?_ ?_ | split | dsimp only | simp only [Keeps.upd_iff])

theorem keeps_startTraining {s0 : State} (s : State) (hs : Keeps s0 s) :
    Keeps s0 (startTraining s) := by
  unfold startTraining
  repeat' (with_reducible first | assumption | apply keeps_foldS | apply keeps_onLink | apply keeps_setLinkState | (intro _) | refine Keeps.ite ?_ ?_ | split | dsimp only | simp only [Keeps.upd_iff])

theorem keeps_degradeLink {s0 : State} (k : Nat) (st : Nat) (s : State) (hs : Keeps s0 s) :
    Keeps s0 (degradeLink k st s) := by
  unfold degradeLink
  repeat' (with_reducible first | assumption | apply keeps_linkErr | apply keeps_onLink | apply keeps_setLinkState | apply keeps_trackParent | apply keeps_viewLink | split | dsimp only | simp only [Keeps.upd_iff])

theorem keeps_failAttempt {s0 : State} (k : Nat) (s : State) (hs : Keeps s0 s) :
    Keeps s0 (failAttempt k s) := by
  unfold failAttempt
  repeat' (with_reducible first | assumption | apply keeps_degradeLink | apply keeps_onLink | split | dsimp only | simp only [Keeps.upd_iff])

theorem keeps_finishTraining {s0 : State} (k : Nat) (r : TrainResult) (lanes : Nat) (s : State) (hs : Keeps s0 s) :
    Keeps s0 (finishTraining k r lanes s) := by
  unfold finishTraining
  repeat' (with_reducible first | assumption | apply keeps_degradeLink | apply keeps_dirSet | apply keeps_flushHeld | apply keeps_onDieLog | apply keeps_onLink | apply keeps_setLinkState | apply keeps_trackParent | apply keeps_viewLink | split | dsimp only | simp only [Keeps.upd_iff])

theorem keeps_linkFalls {s0 : State} (k : Nat) (s : State) (hs : Keeps s0 s) :
    Keeps s0 (linkFalls k s) := by
  unfold linkFalls
  repeat' (with_reducible first | assumption | apply keeps_bump | apply keeps_degradeLink | apply keeps_onLink | split | dsimp only | simp only [Keeps.upd_iff])

theorem keeps_askReplay {s0 : State} (k : Nat) (n : Nat) (s : State) (hs : Keeps s0 s) :
    Keeps s0 (askReplay k n s) := by
  unfold askReplay
  repeat' (with_reducible first | assumption | apply keeps_bump | apply keeps_onLink | split | dsimp only | simp only [Keeps.upd_iff])

theorem keeps_announceNext {s0 : State} (k : Nat) (s : State) (hs : Keeps s0 s) :
    Keeps s0 (announceNext k s) := by
  unfold announceNext
  repeat' (with_reducible first | assumption | apply keeps_onLink | split | dsimp only | simp only [Keeps.upd_iff])

theorem keeps_flitLost {s0 : State} (k : Nat) (n : Nat) (s : State) (hs : Keeps s0 s) :
    Keeps s0 (flitLost k n s) := by
  unfold flitLost
  repeat' (with_reducible first | assumption | apply keeps_bump | apply keeps_draw | apply keeps_failReq | apply keeps_onLink | apply keeps_optS | apply keeps_record | (intro _) | refine Keeps.ite ?_ ?_ | split | dsimp only | simp only [Keeps.upd_iff])

end Sys2Proof.Machine
end

