-- ==== Sys2Proof/Laws/KeepFabric.lean ====
section
/-! SUPPORT. KeepFabric: each operation of Machine/Fabric.lean keeps the queue, the canonical form of memory and the
order of the free values (`Keeps`). -/
namespace Sys2Proof.Machine
set_option Elab.async false
set_option linter.all false

theorem keeps_dropHeader {s0 : State} (m : FabMsg) (v : Nat) (s : State) (hs : Keeps s0 s) :
    Keeps s0 (dropHeader m v s) := by
  unfold dropHeader
  repeat' (with_reducible first | assumption | apply keeps_bump | apply keeps_linkErr | apply keeps_record | split | dsimp only | simp only [Keeps.upd_iff])

theorem keeps_onSched {s0 : State} (m : FabMsg) (f : Hdr → State → State) (s : State) (hf : ∀ y0 u, Keeps s0 u → Keeps s0 (f y0 u)) (hs : Keeps s0 s) :
    Keeps s0 (onSched m f s) := by
  unfold onSched
  repeat' (with_reducible first | assumption | apply keeps_bump | apply keeps_dropHeader | apply hf | split | dsimp only | simp only [Keeps.upd_iff])

theorem keeps_onBest {s0 : State} (kind : Nat) (m : FabMsg) (f : Hdr → State → State) (s : State) (hf : ∀ y0 u, Keeps s0 u → Keeps s0 (f y0 u)) (hs : Keeps s0 s) :
    Keeps s0 (onBest kind m f s) := by
  unfold onBest
  repeat' (with_reducible first | assumption | apply keeps_bePut | apply keeps_bump | apply keeps_dropHeader | apply keeps_whenS | apply hf | split | dsimp only | simp only [Keeps.upd_iff])

theorem keeps_onWhole {s0 : State} (m : FabMsg) (f : Hdr → Bytes → Bytes → Nat → State → State) (s : State) (hf : ∀ y0 y1 y2 y3 u, Keeps s0 u → Keeps s0 (f y0 y1 y2 y3 u)) (hs : Keeps s0 s) :
    Keeps s0 (onWhole m f s) := by
  unfold onWhole
  repeat' (with_reducible first | assumption | exact Keeps.refl _ | apply keeps_onSched | apply keeps_takePiece | apply hf | (intro _) | refine Keeps.snd (by assumption) ?_ | refine Keeps.snd3 (by assumption) ?_ | refine Keeps.snd4 (by assumption) ?_ | refine Keeps.some1 (by assumption) ?_ | refine Keeps.some2 (by assumption) ?_ | refine Keeps.some3 (by assumption) ?_ | refine Keeps.fst (by assumption) ?_ | refine Keeps.ite ?_ ?_ | refine Keeps.ite2 ?_ ?_ | refine Keeps.ite3 ?_ ?_ | split | dsimp only | simp only [Keeps.upd_iff, List.length_map] | simp only [Keeps.upd_iff, length_updFirst] | simp only [Keeps.upd_iff])

theorem keeps_answerFailed {s0 : State} (stage : Nat) (gate : Nat) (tag : Nat) (who : Nat) (st : Nat) (cause : Nat) (s : State) (hs : Keeps s0 s) :
    Keeps s0 (answerFailed stage gate tag who st cause s) := by
  unfold answerFailed
  repeat' (with_reducible first | assumption | apply keeps_treeInput | split | dsimp only | simp only [Keeps.upd_iff])

theorem keeps_fanShard {s0 : State} (h : Hdr) (inl : Bytes) (data : Bytes) (cause : Nat) (s : State) (hs : Keeps s0 s) :
    Keeps s0 (fanShard h inl data cause s) := by
  unfold fanShard
  repeat' (with_reducible first | assumption | apply keeps_addSearchPart | apply keeps_answerFailed | apply keeps_disputeCorpus | apply keeps_movePaths | split | dsimp only | simp only [Keeps.upd_iff])

theorem keeps_takeFanout {s0 : State} (m : FabMsg) (s : State) (hs : Keeps s0 s) :
    Keeps s0 (takeFanout m s) := by
  unfold takeFanout
  repeat' (with_reducible first | assumption | apply keeps_fanShard | apply keeps_memberAttend | apply keeps_onWhole | (intro _) | refine Keeps.ite ?_ ?_ | split | dsimp only | simp only [Keeps.upd_iff])

theorem keeps_execFanout {s0 : State} (m : FabMsg) (s : State) (hs : Keeps s0 s) :
    ∀ z, (execFanout m s) = .next z → Keeps s0 z := by
  intro z e
  unfold execFanout at e
  try dsimp only at e
  first | (split at e <;> first | (injection e with e; subst e)) | (injection e with e; subst e) | skip
  repeat' (with_reducible first | assumption | apply keeps_takeFanout | split | dsimp only | simp only [Keeps.upd_iff])

theorem keeps_takeTree {s0 : State} (m : FabMsg) (s : State) (hs : Keeps s0 s) :
    Keeps s0 (takeTree m s) := by
  unfold takeTree
  repeat' (with_reducible first | assumption | apply keeps_movePaths | apply keeps_onWhole | apply keeps_takeAnswer | apply keeps_treeInput | (intro _) | refine Keeps.ite ?_ ?_ | split | dsimp only | simp only [Keeps.upd_iff])

theorem keeps_execTree {s0 : State} (m : FabMsg) (s : State) (hs : Keeps s0 s) :
    ∀ z, (execTree m s) = .next z → Keeps s0 z := by
  intro z e
  unfold execTree at e
  try dsimp only at e
  first | (split at e <;> first | (injection e with e; subst e)) | (injection e with e; subst e) | skip
  repeat' (with_reducible first | assumption | apply keeps_takeTree | split | dsimp only | simp only [Keeps.upd_iff])

theorem keeps_takeFinalist {s0 : State} (m : FabMsg) (s : State) (hs : Keeps s0 s) :
    Keeps s0 (takeFinalist m s) := by
  unfold takeFinalist
  repeat' (with_reducible first | assumption | apply keeps_addFinalists | apply keeps_answerFailed | apply keeps_disputeCorpus | apply keeps_movePaths | apply keeps_onWhole | (intro _) | refine Keeps.ite ?_ ?_ | split | dsimp only | simp only [Keeps.upd_iff])

theorem keeps_execFinalist {s0 : State} (m : FabMsg) (s : State) (hs : Keeps s0 s) :
    ∀ z, (execFinalist m s) = .next z → Keeps s0 z := by
  intro z e
  unfold execFinalist at e
  try dsimp only at e
  first | (split at e <;> first | (injection e with e; subst e)) | (injection e with e; subst e) | skip
  repeat' (with_reducible first | assumption | apply keeps_takeFinalist | split | dsimp only | simp only [Keeps.upd_iff])

theorem keeps_takeCopy {s0 : State} (h : Hdr) (inl : Bytes) (data : Bytes) (s : State) (hs : Keeps s0 s) :
    Keeps s0 (takeCopy h inl data s) := by
  unfold takeCopy
  repeat' (with_reducible first | assumption | exact Keeps.refl _ | apply keeps_disputeCorpus | apply keeps_newPart | (show ∀ _, _ → _; apply keeps_schedSend) | apply keeps_stageHere | apply keeps_whenS | (intro _) | refine Keeps.snd (by assumption) ?_ | refine Keeps.snd3 (by assumption) ?_ | refine Keeps.snd4 (by assumption) ?_ | refine Keeps.some1 (by assumption) ?_ | refine Keeps.some2 (by assumption) ?_ | refine Keeps.some3 (by assumption) ?_ | refine Keeps.fst (by assumption) ?_ | refine Keeps.getD ?_ ?_ | refine Keeps.elim ?_ ?_ | refine Keeps.elim2 ?_ ?_ | refine Keeps.foldl ?_ ?_ | refine Keeps.foldl2 ?_ ?_ | refine Keeps.foldl3 ?_ ?_ | refine Keeps.ite ?_ ?_ | refine Keeps.ite2 ?_ ?_ | refine Keeps.ite3 ?_ ?_ | split | dsimp only | simp only [Keeps.upd_iff, List.length_map] | simp only [Keeps.upd_iff, length_updFirst] | simp only [Keeps.upd_iff])

theorem keeps_takeVerdict {s0 : State} (h : Hdr) (commit : Bool) (s : State) (hs : Keeps s0 s) :
    Keeps s0 (takeVerdict h commit s) := by
  unfold takeVerdict
  repeat' (with_reducible first | assumption | apply keeps_acceptItems | apply keeps_dropPart | apply keeps_onPart | apply keeps_partShredded | apply keeps_unstage | split | dsimp only | simp only [Keeps.upd_iff])

theorem keeps_takeForward {s0 : State} (m : FabMsg) (s : State) (hs : Keeps s0 s) :
    Keeps s0 (takeForward m s) := by
  unfold takeForward
  repeat' (with_reducible first | assumption | apply keeps_ackItem | apply keeps_appendAck | apply keeps_closeLocal | apply keeps_itemDone | apply keeps_memberAppend | apply keeps_memberOpen | apply keeps_movePaths | apply keeps_onWhole | apply keeps_openAck | apply keeps_orderItem | apply keeps_takeCopy | apply keeps_takeVerdict | (intro _) | refine Keeps.ite ?_ ?_ | split | dsimp only | simp only [Keeps.upd_iff])

theorem keeps_execForward {s0 : State} (m : FabMsg) (s : State) (hs : Keeps s0 s) :
    ∀ z, (execForward m s) = .next z → Keeps s0 z := by
  intro z e
  unfold execForward at e
  try dsimp only at e
  first | (split at e <;> first | (injection e with e; subst e)) | (injection e with e; subst e) | skip
  repeat' (with_reducible first | assumption | apply keeps_takeForward | split | dsimp only | simp only [Keeps.upd_iff])

theorem keeps_answer {s0 : State} (h : Hdr) (st : Nat) (b : Bytes) (s : State) (hs : Keeps s0 s) :
    Keeps s0 (answer h st b s) := by
  unfold answer
  repeat' (with_reducible first | assumption | apply keeps_beSend | split | dsimp only | simp only [Keeps.upd_iff])

theorem keeps_homeRefuses {s0 : State} (h : Hdr) (n : Nat) (s : State) (hs : Keeps s0 s) :
    Keeps s0 (homeRefuses h n s).2 := by
  unfold homeRefuses
  repeat' (with_reducible first | assumption | apply keeps_bump | apply keeps_disputeWindow | split | dsimp only | simp only [Keeps.upd_iff])

theorem keeps_serveRead {s0 : State} (m : FabMsg) (h : Hdr) (s : State) (hs : Keeps s0 s) :
    Keeps s0 (serveRead m h s) := by
  unfold serveRead
  repeat' (with_reducible first | assumption | exact Keeps.refl _ | apply keeps_answer | apply keeps_demandRead | apply keeps_homeRefuses | (intro _) | refine Keeps.snd (by assumption) ?_ | refine Keeps.snd3 (by assumption) ?_ | refine Keeps.snd4 (by assumption) ?_ | refine Keeps.some1 (by assumption) ?_ | refine Keeps.some2 (by assumption) ?_ | refine Keeps.some3 (by assumption) ?_ | refine Keeps.fst (by assumption) ?_ | refine Keeps.ite ?_ ?_ | refine Keeps.ite2 ?_ ?_ | refine Keeps.ite3 ?_ ?_ | split | dsimp only | simp only [Keeps.upd_iff, List.length_map] | simp only [Keeps.upd_iff, length_updFirst] | simp only [Keeps.upd_iff])

theorem keeps_serveWrite {s0 : State} (m : FabMsg) (h : Hdr) (s : State) (hs : Keeps s0 s) :
    Keeps s0 (serveWrite m h s) := by
  unfold serveWrite
  repeat' (with_reducible first | assumption | exact Keeps.refl _ | apply keeps_amoHome | apply keeps_answer | apply keeps_breakResv | apply keeps_demandWrite | apply keeps_foldS | apply keeps_homeRefuses | (intro _) | refine Keeps.snd (by assumption) ?_ | refine Keeps.snd3 (by assumption) ?_ | refine Keeps.snd4 (by assumption) ?_ | refine Keeps.some1 (by assumption) ?_ | refine Keeps.some2 (by assumption) ?_ | refine Keeps.some3 (by assumption) ?_ | refine Keeps.fst (by assumption) ?_ | refine Keeps.ite ?_ ?_ | refine Keeps.ite2 ?_ ?_ | refine Keeps.ite3 ?_ ?_ | split | dsimp only | simp only [Keeps.upd_iff, List.length_map] | simp only [Keeps.upd_iff, length_updFirst] | simp only [Keeps.upd_iff])

theorem keeps_execRead {s0 : State} (m : FabMsg) (s : State) (hs : Keeps s0 s) :
    ∀ z, (execRead m s) = .next z → Keeps s0 z := by
  intro z e
  unfold execRead at e
  try dsimp only at e
  first | (split at e <;> first | (injection e with e; subst e)) | (injection e with e; subst e) | skip
  repeat' (with_reducible first | assumption | apply keeps_onBest | apply keeps_serveRead | split | dsimp only | simp only [Keeps.upd_iff])

theorem keeps_execWrite {s0 : State} (m : FabMsg) (s : State) (hs : Keeps s0 s) :
    ∀ z, (execWrite m s) = .next z → Keeps s0 z := by
  intro z e
  unfold execWrite at e
  try dsimp only at e
  first | (split at e <;> first | (injection e with e; subst e)) | (injection e with e; subst e) | skip
  repeat' (with_reducible first | assumption | apply keeps_onBest | apply keeps_serveWrite | split | dsimp only | simp only [Keeps.upd_iff])

theorem keeps_noteRefusal {s0 : State} (h : Hdr) (st : Nat) (s : State) (hs : Keeps s0 s) :
    Keeps s0 (noteRefusal h st s) := by
  unfold noteRefusal
  repeat' (with_reducible first | assumption | apply keeps_bump | apply keeps_disputeWindow | apply keeps_optS | split | dsimp only | simp only [Keeps.upd_iff])

theorem keeps_parcelAnswer {s0 : State} (h : Hdr) (st : Nat) (b : Bytes) (s : State) (hs : Keeps s0 s) :
    Keeps s0 (parcelAnswer h st b s) := by
  unfold parcelAnswer
  repeat' (with_reducible first | assumption | apply keeps_bump | apply keeps_failParcel | apply keeps_issueAll | apply keeps_noteRefusal | apply keeps_onParcel | split | dsimp only | simp only [Keeps.upd_iff])

theorem keeps_threadAnswer {s0 : State} (h : Hdr) (st : Nat) (b : Bytes) (cause : Nat) (s : State) (hs : Keeps s0 s) :
    Keeps s0 (threadAnswer h st b cause s) := by
  unfold threadAnswer
  repeat' (with_reducible first | assumption | apply keeps_addCause | apply keeps_noteRefusal | apply keeps_onThread | apply keeps_takeFault | split | dsimp only | simp only [Keeps.upd_iff])

theorem keeps_takeResp {s0 : State} (m : FabMsg) (h : Hdr) (s : State) (hs : Keeps s0 s) :
    Keeps s0 (takeResp m h s) := by
  unfold takeResp
  repeat' (with_reducible first | assumption | apply keeps_parcelAnswer | apply keeps_settlePaths | apply keeps_threadAnswer | split | dsimp only | simp only [Keeps.upd_iff])

theorem keeps_execResp {s0 : State} (m : FabMsg) (s : State) (hs : Keeps s0 s) :
    ∀ z, (execResp m s) = .next z → Keeps s0 z := by
  intro z e
  unfold execResp at e
  try dsimp only at e
  first | (split at e <;> first | (injection e with e; subst e)) | (injection e with e; subst e) | skip
  repeat' (with_reducible first | assumption | apply keeps_onBest | apply keeps_takeResp | split | dsimp only | simp only [Keeps.upd_iff])

theorem keeps_takePool {s0 : State} (m : FabMsg) (s : State) (hs : Keeps s0 s) :
    Keeps s0 (takePool m s) := by
  unfold takePool
  repeat' (with_reducible first | assumption | apply keeps_onSched | apply keeps_parcelAnswer | apply keeps_serveWrite | apply keeps_settlePaths | (intro _) | refine Keeps.ite ?_ ?_ | split | dsimp only | simp only [Keeps.upd_iff])

theorem keeps_execPool {s0 : State} (m : FabMsg) (s : State) (hs : Keeps s0 s) :
    ∀ z, (execPool m s) = .next z → Keeps s0 z := by
  intro z e
  unfold execPool at e
  try dsimp only at e
  first | (split at e <;> first | (injection e with e; subst e)) | (injection e with e; subst e) | skip
  repeat' (with_reducible first | assumption | apply keeps_takePool | split | dsimp only | simp only [Keeps.upd_iff])

theorem keeps_takeLetter {s0 : State} (l : Letter) (s : State) (hs : Keeps s0 s) :
    Keeps s0 (takeLetter l s) := by
  unfold takeLetter
  repeat' (with_reducible first | assumption | exact Keeps.refl _ | apply keeps_deliver | (intro _) | refine Keeps.snd (by assumption) ?_ | refine Keeps.snd3 (by assumption) ?_ | refine Keeps.snd4 (by assumption) ?_ | refine Keeps.some1 (by assumption) ?_ | refine Keeps.some2 (by assumption) ?_ | refine Keeps.some3 (by assumption) ?_ | refine Keeps.fst (by assumption) ?_ | refine Keeps.ite ?_ ?_ | refine Keeps.ite2 ?_ ?_ | refine Keeps.ite3 ?_ ?_ | split | dsimp only | simp only [Keeps.upd_iff, List.length_map] | simp only [Keeps.upd_iff, length_updFirst] | simp only [Keeps.upd_iff])

theorem keeps_execLetter {s0 : State} (m : FabMsg) (s : State) (hs : Keeps s0 s) :
    ∀ z, (execLetter m s) = .next z → Keeps s0 z := by
  intro z e
  unfold execLetter at e
  try dsimp only at e
  first | (split at e <;> first | (injection e with e; subst e)) | (injection e with e; subst e) | skip
  repeat' (with_reducible first | assumption | apply keeps_onBest | apply keeps_takeLetter | (intro _) | refine Keeps.ite ?_ ?_ | split | dsimp only | simp only [Keeps.upd_iff])

theorem keeps_execIdle {s0 : State} (_link : Nat) (s : State) (hs : Keeps s0 s) :
    ∀ z, (execIdle _link s) = .next z → Keeps s0 z := by
  intro z e
  unfold execIdle at e
  try dsimp only at e
  first | (split at e <;> first | (injection e with e; subst e)) | (injection e with e; subst e) | skip
  repeat' (with_reducible first | assumption | split | dsimp only | simp only [Keeps.upd_iff])

theorem keeps_execReservedKindFlit {s0 : State} (m : FabMsg) (s : State) (hs : Keeps s0 s) :
    ∀ z, (execReservedKindFlit m s) = .next z → Keeps s0 z := by
  intro z e
  unfold execReservedKindFlit at e
  try dsimp only at e
  first | (split at e <;> first | (injection e with e; subst e)) | (injection e with e; subst e) | skip
  repeat' (with_reducible first | assumption | apply keeps_bump | split | dsimp only | simp only [Keeps.upd_iff])

theorem keeps_entryBad {s0 : State} (i : Nat) (s : State) (hs : Keeps s0 s) :
    Keeps s0 (entryBad i s) := by
  unfold entryBad
  repeat' (with_reducible first | assumption | apply keeps_record | split | dsimp only | simp only [Keeps.upd_iff])

theorem keeps_takeOrigin {s0 : State} (i : Nat) (s : State) (hs : Keeps s0 s) :
    Keeps s0 (takeOrigin i s) := by
  unfold takeOrigin
  repeat' (with_reducible first | assumption | apply keeps_entryBad | apply keeps_originLost | apply keeps_originSend | apply keeps_sendIdle | split | dsimp only | simp only [Keeps.upd_iff])

theorem keeps_execOriginEntry {s0 : State} (i : Nat) (s : State) (hs : Keeps s0 s) :
    ∀ z, (execOriginEntry i s) = .next z → Keeps s0 z := by
  intro z e
  unfold execOriginEntry at e
  try dsimp only at e
  first | (split at e <;> first | (injection e with e; subst e)) | (injection e with e; subst e) | skip
  repeat' (with_reducible first | assumption | apply keeps_takeOrigin | split | dsimp only | simp only [Keeps.upd_iff])

theorem keeps_deliverSched {s0 : State} (m : FabMsg) (s : State) (hs : Keeps s0 s) :
    Keeps s0 (deliverSched m s) := by
  unfold deliverSched
  repeat' (with_reducible first | assumption | apply keeps_takeFanout | apply keeps_takeFinalist | apply keeps_takeForward | apply keeps_takePool | apply keeps_takeTree | split | dsimp only | simp only [Keeps.upd_iff])

theorem keeps_execScheduledForwarding {s0 : State} (i : Nat) (m : FabMsg) (s : State) (hs : Keeps s0 s) :
    ∀ z, (execScheduledForwarding i m s) = .next z → Keeps s0 z := by
  intro z e
  unfold execScheduledForwarding at e
  try dsimp only at e
  first | (split at e <;> first | (injection e with e; subst e)) | (injection e with e; subst e) | skip
  repeat' (with_reducible first | assumption | apply keeps_deliverSched | apply keeps_entryBad | apply keeps_fabOut | split | dsimp only | simp only [Keeps.upd_iff])

theorem keeps_checkSkew {s0 : State} (k : Nat) (t : Nat) (s : State) (hs : Keeps s0 s) :
    Keeps s0 (checkSkew k t s) := by
  unfold checkSkew
  repeat' (with_reducible first | assumption | apply keeps_degradeLink | apply keeps_dirSet | apply keeps_linkErr | split | dsimp only | simp only [Keeps.upd_iff])

theorem keeps_noteRunning {s0 : State} (k : Nat) (t : Nat) (s : State) (hs : Keeps s0 s) :
    Keeps s0 (noteRunning k t s) := by
  unfold noteRunning
  repeat' (with_reducible first | assumption | split | dsimp only | simp only [Keeps.upd_iff])

theorem keeps_takeCtrl {s0 : State} (m : FabMsg) (s : State) (hs : Keeps s0 s) :
    Keeps s0 (takeCtrl m s) := by
  unfold takeCtrl
  repeat' (with_reducible first | assumption | apply keeps_announceNext | apply keeps_askReplay | apply keeps_bumpBy | apply keeps_checkSkew | apply keeps_flitLost | apply keeps_flushHeld | apply keeps_foldS | apply keeps_noteRunning | apply keeps_onLink | apply keeps_whenS | split | dsimp only | simp only [Keeps.upd_iff])

theorem keeps_execCtrl {s0 : State} (m : FabMsg) (s : State) (hs : Keeps s0 s) :
    ∀ z, (execCtrl m s) = .next z → Keeps s0 z := by
  intro z e
  unfold execCtrl at e
  try dsimp only at e
  first | (split at e <;> first | (injection e with e; subst e)) | (injection e with e; subst e) | skip
  repeat' (with_reducible first | assumption | apply keeps_dropHeader | apply keeps_takeCtrl | split | dsimp only | simp only [Keeps.upd_iff])

theorem keeps_execReplay {s0 : State} (k : Nat) (slot : Nat) (ok : Bool) (s : State) (hs : Keeps s0 s) :
    ∀ z, (execReplay k slot ok s) = .next z → Keeps s0 z := by
  intro z e
  unfold execReplay at e
  try dsimp only at e
  first | (split at e <;> first | (injection e with e; subst e)) | (injection e with e; subst e) | skip
  repeat' (with_reducible first | assumption | apply keeps_announceNext | apply keeps_bump | apply keeps_onLink | apply keeps_record | apply keeps_whenS | split | dsimp only | simp only [Keeps.upd_iff])

theorem keeps_execLinkTrained {s0 : State} (k : Nat) (r : TrainResult) (s : State) (hs : Keeps s0 s) :
    ∀ z, (execLinkTrained k r s) = .next z → Keeps s0 z := by
  intro z e
  unfold execLinkTrained at e
  try dsimp only at e
  first | (split at e <;> first | (injection e with e; subst e)) | (injection e with e; subst e) | skip
  repeat' (with_reducible first | assumption | apply keeps_failAttempt | apply keeps_finishTraining | split | dsimp only | simp only [Keeps.upd_iff])

theorem keeps_execTrainingAttemptTimeout {s0 : State} (k : Nat) (s : State) (hs : Keeps s0 s) :
    ∀ z, (execTrainingAttemptTimeout k s) = .next z → Keeps s0 z := by
  intro z e
  unfold execTrainingAttemptTimeout at e
  try dsimp only at e
  first | (split at e <;> first | (injection e with e; subst e)) | (injection e with e; subst e) | skip
  repeat' (with_reducible first | assumption | apply keeps_failAttempt | split | dsimp only | simp only [Keeps.upd_iff])

theorem keeps_execLinkDown {s0 : State} (k : Nat) (s : State) (hs : Keeps s0 s) :
    ∀ z, (execLinkDown k s) = .next z → Keeps s0 z := by
  intro z e
  unfold execLinkDown at e
  try dsimp only at e
  first | (split at e <;> first | (injection e with e; subst e)) | (injection e with e; subst e) | skip
  repeat' (with_reducible first | assumption | apply keeps_linkFalls | split | dsimp only | simp only [Keeps.upd_iff])

theorem keeps_execRetrain {s0 : State} (k : Nat) (s : State) (hs : Keeps s0 s) :
    ∀ z, (execRetrain k s) = .next z → Keeps s0 z := by
  intro z e
  unfold execRetrain at e
  try dsimp only at e
  first | (split at e <;> first | (injection e with e; subst e)) | (injection e with e; subst e) | skip
  repeat' (with_reducible first | assumption | apply keeps_onLink | apply keeps_setLinkState | split | dsimp only | simp only [Keeps.upd_iff])

theorem keeps_execStandbyParentSwitch {s0 : State} (s : State) (hs : Keeps s0 s) :
    ∀ z, (execStandbyParentSwitch s) = .next z → Keeps s0 z := by
  intro z e
  unfold execStandbyParentSwitch at e
  try dsimp only at e
  first | (split at e <;> first | (injection e with e; subst e)) | (injection e with e; subst e) | skip
  repeat' (with_reducible first | assumption | apply keeps_trackParent | split | dsimp only | simp only [Keeps.upd_iff])

end Sys2Proof.Machine
end

