-- ==== Sys2Proof/Laws/KeepMapOps.lean ====
section
/-! SUPPORT. KeepMapOps: each operation of Machine/MapOps.lean keeps the queue, the canonical form of memory and the
order of the free values (`Keeps`). -/
namespace Sys2Proof.Machine
set_option Elab.async false
set_option linter.all false

theorem keeps_saveRecord {s0 : State} (s : State) (hs : Keeps s0 s) :
    Keeps s0 (saveRecord s) := by
  unfold saveRecord
  repeat' (with_reducible first | assumption | split | dsimp only | simp only [Keeps.upd_iff])

theorem keeps_extendM {s0 : State} (k : Nat) (d : Bytes) (s : State) (hs : Keeps s0 s) :
    Keeps s0 (extendM k d s) := by
  unfold extendM
  repeat' (with_reducible first | assumption | split | dsimp only | simp only [Keeps.upd_iff])

theorem keeps_stageMap {s0 : State} (b : Bytes) (s : State) (hs : Keeps s0 s) :
    Keeps s0 (stageMap b s).2 := by
  unfold stageMap
  repeat' (with_reducible first | assumption | apply keeps_dirSet | apply keeps_saveRecord | split | dsimp only | simp only [Keeps.upd_iff])

theorem keeps_stageImage {s0 : State} (b : Bytes) (s : State) (hs : Keeps s0 s) :
    Keeps s0 (stageImage b s).2 := by
  unfold stageImage
  repeat' (with_reducible first | assumption | apply keeps_dirSet | split | dsimp only | simp only [Keeps.upd_iff])

theorem keeps_takeImage {s0 : State} (b : Bytes) (s : State) (hs : Keeps s0 s) :
    Keeps s0 (takeImage b s) := by
  unfold takeImage
  repeat' (with_reducible first | assumption | apply keeps_dirPut | apply keeps_dirSet | apply keeps_extendM | split | dsimp only | simp only [Keeps.upd_iff])

theorem keeps_stayOutside {s0 : State} (s : State) (hs : Keeps s0 s) :
    Keeps s0 (stayOutside s) := by
  unfold stayOutside
  repeat' (with_reducible first | assumption | split | dsimp only | simp only [Keeps.upd_iff])

theorem keeps_takeMap {s0 : State} (b : Bytes) (s : State) (hs : Keeps s0 s) :
    Keeps s0 (takeMap b s) := by
  unfold takeMap
  repeat' (with_reducible first | assumption | apply keeps_dirPut | apply keeps_dirSet | apply keeps_extendM | apply keeps_saveRecord | split | dsimp only | simp only [Keeps.upd_iff])

theorem keeps_loadMaps {s0 : State} (s : State) (hs : Keeps s0 s) :
    Keeps s0 (loadMaps s) := by
  unfold loadMaps
  repeat' (with_reducible first | assumption | apply keeps_dirSet | apply keeps_stayOutside | apply keeps_takeImage | apply keeps_takeMap | apply keeps_whenS | split | dsimp only | simp only [Keeps.upd_iff])

end Sys2Proof.Machine
end

