-- ==== Sys2Proof/Laws/KeepLogOps.lean ====
section
/-! SUPPORT. KeepLogOps: each operation of Machine/LogOps.lean keeps the queue, the canonical form of memory and the
order of the free values (`Keeps`). -/
namespace Sys2Proof.Machine
set_option Elab.async false
set_option linter.all false

theorem keeps_appendDie {s0 : State} (d : Nat) (s : State) (hs : Keeps s0 s) :
    Keeps s0 (appendDie d s) := by
  unfold appendDie
  repeat' (with_reducible first | assumption | apply keeps_dirSet | split | dsimp only | simp only [Keeps.upd_iff])

theorem keeps_mirrorDie {s0 : State} (d : Nat) (s : State) (hs : Keeps s0 s) :
    Keeps s0 (mirrorDie d s) := by
  unfold mirrorDie
  repeat' (with_reducible first | assumption | apply keeps_bump | split | dsimp only | simp only [Keeps.upd_iff])

theorem keeps_keepFull {s0 : State} (d : Nat) (r : ErrRec) (s : State) (hs : Keeps s0 s) :
    Keeps s0 (keepFull d r s) := by
  unfold keepFull
  repeat' (with_reducible first | assumption | apply keeps_onDieLog | split | dsimp only | simp only [Keeps.upd_iff])

theorem keeps_logSevere {s0 : State} (r : ErrRec) (s : State) (hs : Keeps s0 s) :
    Keeps s0 (logSevere r s) := by
  unfold logSevere
  repeat' (with_reducible first | assumption | apply keeps_appendDie | apply keeps_keepFull | apply keeps_mirrorDie | apply keeps_whenS | split | dsimp only | simp only [Keeps.upd_iff])

theorem keeps_resumeDie {s0 : State} (d : Nat) (s : State) (hs : Keeps s0 s) :
    Keeps s0 (resumeDie d s) := by
  unfold resumeDie
  repeat' (with_reducible first | assumption | apply keeps_onDieLog | split | dsimp only | simp only [Keeps.upd_iff])

theorem length_dropHeads (s : State) (l : List ErrRec) : (dropHeads s l).length ≤ l.length := by
  induction l with
  | nil => exact Nat.le_refl _
  | cons a t ih => unfold dropHeads; split <;> simp <;> omega

theorem keeps_autoRemove {s0 : State} (s : State) (hs : Keeps s0 s) :
    Keeps s0 (autoRemove s) := by
  unfold autoRemove
  split
  · exact (Keeps.upd (u := s) hs (fun w => w) (List.prefix_refl _) (List.prefix_refl _) (List.prefix_refl _)
    (length_dropHeads _ _) (Nat.le_refl _) (Nat.le_refl _) (Nat.le_refl _) (Nat.le_refl _) (Nat.le_refl _) (Nat.le_refl _))
  · exact hs

theorem keeps_takeCores {s0 : State} (l : List Nat) (s : State) (hs : Keeps s0 s) :
    Keeps s0 (takeCores l s) := by
  unfold takeCores
  repeat' (with_reducible first | assumption | apply keeps_dirSet | split | dsimp only | simp only [Keeps.upd_iff])

theorem keeps_finishRecord {s0 : State} (r : ErrRec) (s : State) (hs : Keeps s0 s) :
    Keeps s0 (finishRecord r s) := by
  unfold finishRecord
  repeat' (with_reducible first | assumption | exact Keeps.refl _ | apply keeps_flushWriteBacks | apply keeps_logSevere | apply keeps_takeCores | apply keeps_whenS | (intro _) | refine Keeps.snd (by assumption) ?_ | refine Keeps.snd3 (by assumption) ?_ | refine Keeps.snd4 (by assumption) ?_ | refine Keeps.some1 (by assumption) ?_ | refine Keeps.some2 (by assumption) ?_ | refine Keeps.some3 (by assumption) ?_ | refine Keeps.fst (by assumption) ?_ | refine Keeps.ite ?_ ?_ | refine Keeps.ite2 ?_ ?_ | refine Keeps.ite3 ?_ ?_ | split | dsimp only | simp only [Keeps.upd_iff, List.length_map] | simp only [Keeps.upd_iff, length_updFirst] | simp only [Keeps.upd_iff])

theorem keeps_startNext {s0 : State} (s : State) (hs : Keeps s0 s) :
    Keeps s0 (startNext s) := by
  unfold startNext
  repeat' (with_reducible first | assumption | exact Keeps.refl _ | (intro _) | refine Keeps.snd (by assumption) ?_ | refine Keeps.snd3 (by assumption) ?_ | refine Keeps.snd4 (by assumption) ?_ | refine Keeps.some1 (by assumption) ?_ | refine Keeps.some2 (by assumption) ?_ | refine Keeps.some3 (by assumption) ?_ | refine Keeps.fst (by assumption) ?_ | refine Keeps.ite ?_ ?_ | refine Keeps.ite2 ?_ ?_ | refine Keeps.ite3 ?_ ?_ | split | dsimp only | simp only [Keeps.upd_iff, List.length_map] | simp only [Keeps.upd_iff, length_updFirst] | simp only [Keeps.upd_iff])

theorem keeps_dropAlerts {s0 : State} (s : State) (hs : Keeps s0 s) :
    Keeps s0 (dropAlerts s) := by
  unfold dropAlerts
  exact keeps_autoRemove _ (Keeps.upd (u := s) hs (fun w => w) (List.prefix_refl _) (List.prefix_refl _) (List.prefix_refl _)
    (by simp) (Nat.le_refl _) (Nat.zero_le _) (Nat.le_refl _) (Nat.le_refl _) (Nat.le_refl _) (Nat.le_refl _))

theorem keeps_endAdmitted {s0 : State} (status : Nat) (s : State) (hs : Keeps s0 s) :
    Keeps s0 (endAdmitted status s) := by
  unfold endAdmitted
  repeat' (with_reducible first | assumption | apply keeps_failReq | apply keeps_foldS | (intro _) | refine Keeps.ite ?_ ?_ | split | dsimp only | simp only [Keeps.upd_iff])

theorem keeps_fabricOff {s0 : State} (s : State) (hs : Keeps s0 s) :
    Keeps s0 (fabricOff s) := by
  unfold fabricOff
  repeat' (with_reducible first | assumption | apply keeps_foldS | apply keeps_onLink | apply keeps_setLinkState | apply keeps_trackParent | (intro _) | refine Keeps.ite ?_ ?_ | split | dsimp only | simp only [Keeps.upd_iff])

theorem keeps_dropParts {s0 : State} (s : State) (hs : Keeps s0 s) :
    Keeps s0 (dropParts s) := by
  unfold dropParts
  repeat' (with_reducible first | assumption | split | dsimp only | simp only [Keeps.upd_iff])

theorem keeps_keepSticky {s0 : State} (r : ErrRec) (s : State) (hs : Keeps s0 s) :
    Keeps s0 (keepSticky r s) := by
  unfold keepSticky
  split
  · rename_i h
    exact (Keeps.of (u := s) hs rfl rfl (Nat.le_refl _) ⟨List.prefix_refl _, List.prefix_refl _, List.prefix_refl _⟩ (fun k => ⟨k.records, by simp only [List.length_append, List.length_singleton]; omega, k.alerts, k.controller, k.security, k.sessions, k.trace⟩))
  · exact hs

theorem keeps_writeSticky {s0 : State} (r : ErrRec) (s : State) (hs : Keeps s0 s) :
    Keeps s0 (writeSticky r s) := by
  unfold writeSticky
  repeat' (with_reducible first | assumption | apply keeps_keepFull | apply keeps_keepSticky | apply keeps_onDieLog | apply keeps_sendAlert | split | dsimp only | simp only [Keeps.upd_iff])

theorem keeps_haltNode {s0 : State} (c : HaltCause) (s : State) (hs : Keeps s0 s) :
    Keeps s0 (haltNode c s) := by
  unfold haltNode
  repeat' (with_reducible first | assumption | apply keeps_dirSet | apply keeps_dropParts | apply keeps_endAdmitted | apply keeps_fabricOff | apply keeps_whenS | apply keeps_writeSticky | split | dsimp only | simp only [Keeps.upd_iff])

theorem keeps_finishHost {s0 : State} (s : State) (hs : Keeps s0 s) :
    Keeps s0 (finishHost s) := by
  unfold finishHost
  repeat' (with_reducible first | assumption | apply keeps_foldS | apply keeps_jobProgrammed | split | dsimp only | simp only [Keeps.upd_iff])

theorem keeps_programBuffer {s0 : State} (s : State) (hs : Keeps s0 s) :
    Keeps s0 (programBuffer s) := by
  unfold programBuffer
  repeat' (with_reducible first | assumption | apply keeps_finishHost | apply keeps_foldS | apply keeps_gatherUnit | split | dsimp only | simp only [Keeps.upd_iff])

theorem keeps_flushMedia {s0 : State} (s : State) (hs : Keeps s0 s) :
    Keeps s0 (flushMedia s) := by
  unfold flushMedia
  repeat' (with_reducible first | assumption | apply keeps_appendDie | apply keeps_foldS | apply keeps_journalDone | apply keeps_onFlash | apply keeps_programBuffer | split | dsimp only | simp only [Keeps.upd_iff])

theorem keeps_sleepStacks {s0 : State} (s : State) (hs : Keeps s0 s) :
    Keeps s0 (sleepStacks s) := by
  unfold sleepStacks
  repeat' (with_reducible first | assumption | split | dsimp only | simp only [Keeps.upd_iff])

end Sys2Proof.Machine
end

