-- ==== Sys2Proof/Laws/KeepErrors.lean ====
section
/-! SUPPORT. KeepErrors: each operation of Machine/Errors.lean keeps the queue, the canonical form of memory and the
order of the free values (`Keeps`). -/
namespace Sys2Proof.Machine
set_option Elab.async false
set_option linter.all false

theorem keeps_execRecordHandled {s0 : State} (seq : Nat) (s : State) (hs : Keeps s0 s) :
    ∀ z, (execRecordHandled seq s) = .next z → Keeps s0 z := by
  intro z e
  unfold execRecordHandled at e
  try dsimp only at e
  first | (split at e <;> first | (injection e with e; subst e)) | (injection e with e; subst e) | skip
  repeat' (with_reducible first | assumption | apply keeps_autoRemove | apply keeps_finishRecord | apply keeps_startNext | split | dsimp only | simp only [Keeps.upd_iff])

theorem keeps_execRecordClose {s0 : State} (seq : Nat) (s : State) (hs : Keeps s0 s) :
    ∀ z, (execRecordClose seq s) = .next z → Keeps s0 z := by
  intro z e
  unfold execRecordClose at e
  try dsimp only at e
  first | (split at e <;> first | (injection e with e; subst e)) | (injection e with e; subst e) | skip
  repeat' (with_reducible first | assumption | exact Keeps.refl _ | apply keeps_autoRemove | (intro _) | refine Keeps.snd (by assumption) ?_ | refine Keeps.snd3 (by assumption) ?_ | refine Keeps.snd4 (by assumption) ?_ | refine Keeps.some1 (by assumption) ?_ | refine Keeps.some2 (by assumption) ?_ | refine Keeps.some3 (by assumption) ?_ | refine Keeps.fst (by assumption) ?_ | refine Keeps.ite ?_ ?_ | refine Keeps.ite2 ?_ ?_ | refine Keeps.ite3 ?_ ?_ | split | dsimp only | simp only [Keeps.upd_iff, List.length_map] | simp only [Keeps.upd_iff, length_updFirst] | simp only [Keeps.upd_iff])

theorem keeps_patrolWord {s0 : State} (wa : Nat) (s : State) (hs : Keeps s0 s) :
    Keeps s0 (patrolWord wa s) := by
  unfold patrolWord
  repeat' (with_reducible first | assumption | apply keeps_noteCorrected | apply keeps_raise | split | dsimp only | simp only [Keeps.upd_iff])

theorem keeps_execPatrol {s0 : State} (a : Nat) (s : State) (hs : Keeps s0 s) :
    ∀ z, (execPatrol a s) = .next z → Keeps s0 z := by
  intro z e
  unfold execPatrol at e
  try dsimp only at e
  first | (split at e <;> first | (injection e with e; subst e)) | (injection e with e; subst e) | skip
  repeat' (with_reducible first | assumption | apply keeps_flushWriteBacks | apply keeps_foldS | apply keeps_patrolWord | split | dsimp only | simp only [Keeps.upd_iff])

theorem keeps_execHalt {s0 : State} (c : HaltCause) (s : State) (hs : Keeps s0 s) :
    ∀ z, (execHalt c s) = .next z → Keeps s0 z := by
  intro z e
  unfold execHalt at e
  try dsimp only at e
  first | (split at e <;> first | (injection e with e; subst e)) | (injection e with e; subst e) | skip
  repeat' (with_reducible first | assumption | apply keeps_haltNode | split | dsimp only | simp only [Keeps.upd_iff])

theorem keeps_abortDirectory {s0 : State} (s : State) (hs : Keeps s0 s) :
    Keeps s0 (abortDirectory s) := by
  unfold abortDirectory
  repeat' (with_reducible first | assumption | apply keeps_failReq | apply keeps_foldS | (intro _) | refine Keeps.ite ?_ ?_ | split | dsimp only | simp only [Keeps.upd_iff])

theorem keeps_resetController {s0 : State} (s : State) (hs : Keeps s0 s) :
    Keeps s0 (resetController s) := by
  unfold resetController
  repeat' (with_reducible first | assumption | apply keeps_abortDirectory | apply keeps_bump | apply keeps_dirSet | apply keeps_extendM | apply keeps_record | split | dsimp only | simp only [Keeps.upd_iff])

theorem keeps_execWatchdogExpiry {s0 : State} (s : State) (hs : Keeps s0 s) :
    ∀ z, (execWatchdogExpiry s) = .next z → Keeps s0 z := by
  intro z e
  unfold execWatchdogExpiry at e
  try dsimp only at e
  first | (split at e <;> first | (injection e with e; subst e)) | (injection e with e; subst e) | skip
  repeat' (with_reducible first | assumption | apply keeps_haltNode | apply keeps_resetController | apply keeps_whenS | split | dsimp only | simp only [Keeps.upd_iff])

theorem keeps_execControllerRestartDone {s0 : State} (s : State) (hs : Keeps s0 s) :
    ∀ z, (execControllerRestartDone s) = .next z → Keeps s0 z := by
  intro z e
  unfold execControllerRestartDone at e
  try dsimp only at e
  first | (split at e <;> first | (injection e with e; subst e)) | (injection e with e; subst e) | skip
  repeat' (with_reducible first | assumption | split | dsimp only | simp only [Keeps.upd_iff])

theorem keeps_execLogbookAppend {s0 : State} (die : Nat) (s : State) (hs : Keeps s0 s) :
    ∀ z, (execLogbookAppend die s) = .next z → Keeps s0 z := by
  intro z e
  unfold execLogbookAppend at e
  try dsimp only at e
  first | (split at e <;> first | (injection e with e; subst e)) | (injection e with e; subst e) | skip
  repeat' (with_reducible first | assumption | apply keeps_appendDie | split | dsimp only | simp only [Keeps.upd_iff])

theorem keeps_execLogbookSummary {s0 : State} (die : Nat) (s : State) (hs : Keeps s0 s) :
    ∀ z, (execLogbookSummary die s) = .next z → Keeps s0 z := by
  intro z e
  unfold execLogbookSummary at e
  try dsimp only at e
  first | (split at e <;> first | (injection e with e; subst e)) | (injection e with e; subst e) | skip
  repeat' (with_reducible first | assumption | apply keeps_mirrorDie | split | dsimp only | simp only [Keeps.upd_iff])

theorem keeps_execAgeingReading {s0 : State} (die : Nat) (deltas : List Nat) (s : State) (hs : Keeps s0 s) :
    ∀ z, (execAgeingReading die deltas s) = .next z → Keeps s0 z := by
  intro z e
  unfold execAgeingReading at e
  try dsimp only at e
  first | (split at e <;> first | (injection e with e; subst e)) | (injection e with e; subst e) | skip
  repeat' (with_reducible first | assumption | apply keeps_dirPut | split | dsimp only | simp only [Keeps.upd_iff])

theorem keeps_planGuard {s0 : State} (d : Nat) (s : State) (hs : Keeps s0 s) :
    Keeps s0 (planGuard d s) := by
  unfold planGuard
  repeat' (with_reducible first | assumption | split | dsimp only | simp only [Keeps.upd_iff])

theorem keeps_planBin {s0 : State} (d : Nat) (s : State) (hs : Keeps s0 s) :
    Keeps s0 (planBin d s) := by
  unfold planBin
  repeat' (with_reducible first | assumption | apply keeps_dirPut | apply keeps_saveRecord | split | dsimp only | simp only [Keeps.upd_iff])

theorem keeps_planRefresh {s0 : State} (k : Nat) (margin : Nat) (s : State) (hs : Keeps s0 s) :
    Keeps s0 (planRefresh k margin s) := by
  unfold planRefresh
  repeat' (with_reducible first | assumption | apply keeps_dirPut | split | dsimp only | simp only [Keeps.upd_iff])

theorem keeps_planOffset {s0 : State} (c : Nat) (share : Nat) (s : State) (hs : Keeps s0 s) :
    Keeps s0 (planOffset c share s) := by
  unfold planOffset
  repeat' (with_reducible first | assumption | apply keeps_dirPut | split | dsimp only | simp only [Keeps.upd_iff])

theorem keeps_planLanes4 {s0 : State} (w : Nat) (s : State) (hs : Keeps s0 s) :
    Keeps s0 (planLanes4 w s) := by
  unfold planLanes4
  repeat' (with_reducible first | assumption | apply keeps_dirSet | apply keeps_saveRecord | split | dsimp only | simp only [Keeps.upd_iff])

theorem keeps_planMargins {s0 : State} (i : PlanInputs) (s : State) (hs : Keeps s0 s) :
    Keeps s0 (planMargins i s) := by
  unfold planMargins
  repeat' (with_reducible first | assumption | apply keeps_bankOut | apply keeps_dirSet | apply keeps_foldS | apply keeps_onDieLog | apply keeps_planBin | apply keeps_planGuard | apply keeps_planLanes4 | apply keeps_planOffset | apply keeps_planRefresh | (intro _) | refine Keeps.ite ?_ ?_ | split | dsimp only | simp only [Keeps.upd_iff])

theorem keeps_execMarginReplan {s0 : State} (i : PlanInputs) (s : State) (hs : Keeps s0 s) :
    ∀ z, (execMarginReplan i s) = .next z → Keeps s0 z := by
  intro z e
  unfold execMarginReplan at e
  try dsimp only at e
  first | (split at e <;> first | (injection e with e; subst e)) | (injection e with e; subst e) | skip
  repeat' (with_reducible first | assumption | apply keeps_planMargins | split | dsimp only | simp only [Keeps.upd_iff])

theorem keeps_raiseGuard {s0 : State} (s : State) (hs : Keeps s0 s) :
    Keeps s0 (raiseGuard s) := by
  unfold raiseGuard
  repeat' (with_reducible first | assumption | apply keeps_dirPut | apply keeps_foldS | (intro _) | refine Keeps.ite ?_ ?_ | split | dsimp only | simp only [Keeps.upd_iff])

end Sys2Proof.Machine
end

