-- ==== Sys2Proof/Laws/KeepTraffic.lean ====
section
/-! SUPPORT. KeepTraffic: each operation of Machine/Traffic.lean keeps the queue, the canonical form of memory and the
order of the free values (`Keeps`). -/
namespace Sys2Proof.Machine
set_option Elab.async false
set_option linter.all false

theorem keeps_execTransmitSelect {s0 : State} (p : Nat) (s : State) (hs : Keeps s0 s) :
    ∀ z, (execTransmitSelect p s) = .next z → Keeps s0 z := by
  intro z e
  unfold execTransmitSelect at e
  try dsimp only at e
  first | (split at e <;> first | (injection e with e; subst e)) | (injection e with e; subst e) | skip
  repeat' (with_reducible first | assumption | apply keeps_selectNext | split | dsimp only | simp only [Keeps.upd_iff])

theorem keeps_execArpNdIcmp {s0 : State} (p : Nat) (a : NetAsk) (s : State) (hs : Keeps s0 s) :
    ∀ z, (execArpNdIcmp p a s) = .next z → Keeps s0 z := by
  intro z e
  unfold execArpNdIcmp at e
  try dsimp only at e
  first | (split at e <;> first | (injection e with e; subst e)) | (injection e with e; subst e) | skip
  repeat' (with_reducible first | assumption | apply keeps_bump | apply keeps_putOut | split | dsimp only | simp only [Keeps.upd_iff])

theorem keeps_execSubportUp {s0 : State} (p : Nat) (s : State) (hs : Keeps s0 s) :
    ∀ z, (execSubportUp p s) = .next z → Keeps s0 z := by
  intro z e
  unfold execSubportUp at e
  try dsimp only at e
  first | (split at e <;> first | (injection e with e; subst e)) | (injection e with e; subst e) | skip
  repeat' (with_reducible first | assumption | apply keeps_portRise | split | dsimp only | simp only [Keeps.upd_iff])

theorem keeps_execSubportDown {s0 : State} (p : Nat) (s : State) (hs : Keeps s0 s) :
    ∀ z, (execSubportDown p s) = .next z → Keeps s0 z := by
  intro z e
  unfold execSubportDown at e
  try dsimp only at e
  first | (split at e <;> first | (injection e with e; subst e)) | (injection e with e; subst e) | skip
  repeat' (with_reducible first | assumption | apply keeps_portDown | split | dsimp only | simp only [Keeps.upd_iff])

theorem keeps_execHoldDownEnd {s0 : State} (p : Nat) (s : State) (hs : Keeps s0 s) :
    ∀ z, (execHoldDownEnd p s) = .next z → Keeps s0 z := by
  intro z e
  unfold execHoldDownEnd at e
  try dsimp only at e
  first | (split at e <;> first | (injection e with e; subst e)) | (injection e with e; subst e) | skip
  repeat' (with_reducible first | assumption | apply keeps_onPort | split | dsimp only | simp only [Keeps.upd_iff])

theorem keeps_execPcsLockLoss {s0 : State} (p : Nat) (ns : Nat) (regained : Bool) (s : State) (hs : Keeps s0 s) :
    ∀ z, (execPcsLockLoss p ns regained s) = .next z → Keeps s0 z := by
  intro z e
  unfold execPcsLockLoss at e
  try dsimp only at e
  first | (split at e <;> first | (injection e with e; subst e)) | (injection e with e; subst e) | skip
  repeat' (with_reducible first | assumption | apply keeps_bump | apply keeps_portDown | split | dsimp only | simp only [Keeps.upd_iff])

theorem keeps_execRxDropped {s0 : State} (p : Nat) (reason : Nat) (s : State) (hs : Keeps s0 s) :
    ∀ z, (execRxDropped p reason s) = .next z → Keeps s0 z := by
  intro z e
  unfold execRxDropped at e
  try dsimp only at e
  first | (split at e <;> first | (injection e with e; subst e)) | (injection e with e; subst e) | skip
  repeat' (with_reducible first | assumption | apply keeps_bump | apply keeps_pkDrop | apply keeps_whenS | split | dsimp only | simp only [Keeps.upd_iff])

theorem keeps_execSample {s0 : State} (s : State) (hs : Keeps s0 s) :
    ∀ z, (execSample s) = .next z → Keeps s0 z := by
  intro z e
  unfold execSample at e
  try dsimp only at e
  first | (split at e <;> first | (injection e with e; subst e)) | (injection e with e; subst e) | skip
  repeat' (with_reducible first | assumption | apply keeps_foldS | apply keeps_sampleQueue | (intro _) | refine Keeps.ite ?_ ?_ | split | dsimp only | simp only [Keeps.upd_iff])

end Sys2Proof.Machine
end

