-- ==== Sys2Proof/Laws/KeepBootOps.lean ====
section
/-! SUPPORT. KeepBootOps: each operation of Machine/BootOps.lean keeps the queue, the canonical form of memory and the
order of the free values (`Keeps`). -/
namespace Sys2Proof.Machine
set_option Elab.async false
set_option linter.all false

theorem keeps_atPin {s0 : State} (c : Nat) (s : State) (hs : Keeps s0 s) :
    Keeps s0 (atPin c s) := by
  unfold atPin
  repeat' (with_reducible first | assumption | split | dsimp only | simp only [Keeps.upd_iff])

theorem keeps_coldClear {s0 : State} (cause : Nat) (s : State) (hs : Keeps s0 s) :
    Keeps s0 (coldClear cause s) := by
  unfold coldClear
  exact keeps_dirSet _ _ _ (Keeps.upd (u := applyUpdates s) (keeps_applyUpdates _ hs) (fun _ => rfl) (List.prefix_refl _) (List.prefix_refl _) (List.prefix_refl _)
    (Nat.zero_le _) (Nat.zero_le _) (Nat.zero_le _) (Nat.zero_le _) (Nat.zero_le _) (Nat.zero_le _) (Nat.zero_le _))

theorem keeps_powerLost {s0 : State} (s : State) (hs : Keeps s0 s) :
    Keeps s0 (powerLost s) := by
  unfold powerLost
  repeat' (with_reducible first | assumption | apply keeps_coldClear | split | dsimp only | simp only [Keeps.upd_iff])

theorem keeps_stopDies {s0 : State} (s : State) (hs : Keeps s0 s) :
    Keeps s0 (stopDies s) := by
  unfold stopDies
  repeat' (with_reducible first | assumption | split | dsimp only | simp only [Keeps.upd_iff])

theorem keeps_startFlush {s0 : State} (s : State) (hs : Keeps s0 s) :
    Keeps s0 (startFlush s) := by
  unfold startFlush
  repeat' (with_reducible first | assumption | apply keeps_dropParts | apply keeps_fabricOff | apply keeps_portsOff | apply keeps_stopDies | split | dsimp only | simp only [Keeps.upd_iff])

theorem keeps_afterFlush {s0 : State} (s : State) (hs : Keeps s0 s) :
    Keeps s0 (afterFlush s) := by
  unfold afterFlush
  repeat' (with_reducible first | assumption | apply keeps_coldClear | split | dsimp only | simp only [Keeps.upd_iff])

theorem keeps_endFlush {s0 : State} (s : State) (hs : Keeps s0 s) :
    Keeps s0 (endFlush s) := by
  unfold endFlush
  repeat' (with_reducible first | assumption | apply keeps_afterFlush | apply keeps_flushMedia | apply keeps_sleepStacks | split | dsimp only | simp only [Keeps.upd_iff])

theorem keeps_powerFail {s0 : State} (s : State) (hs : Keeps s0 s) :
    Keeps s0 (powerFail s) := by
  unfold powerFail
  repeat' (with_reducible first | assumption | apply keeps_endFlush | apply keeps_startFlush | split | dsimp only | simp only [Keeps.upd_iff])

theorem keeps_dropChainSessions {s0 : State} (s : State) (hs : Keeps s0 s) :
    Keeps s0 (dropChainSessions s) := by
  unfold dropChainSessions
  repeat' (with_reducible first | assumption | split | dsimp only | simp only [Keeps.upd_iff])

theorem keeps_enterWarm {s0 : State} (cause : Nat) (c : Nat) (s : State) (hs : Keeps s0 s) :
    Keeps s0 (enterWarm cause c s) := by
  unfold enterWarm
  repeat' (with_reducible first | assumption | apply keeps_bump | apply keeps_dirSet | apply keeps_dropChainSessions | apply keeps_dropParts | apply keeps_endAdmitted | split | dsimp only | simp only [Keeps.upd_iff])

theorem keeps_askWarm {s0 : State} (cause : Nat) (c : Nat) (s : State) (hs : Keeps s0 s) :
    Keeps s0 (askWarm cause c s) := by
  unfold askWarm
  repeat' (with_reducible first | assumption | apply keeps_bump | apply keeps_enterWarm | split | dsimp only | simp only [Keeps.upd_iff])

theorem keeps_warmLose {s0 : State} (s : State) (hs : Keeps s0 s) :
    Keeps s0 (warmLose s) := by
  unfold warmLose
  exact keeps_sessCount _ (Keeps.upd (u := stopDies s) (keeps_stopDies _ hs) (fun h => cellsWf_filter _ _ h) (List.prefix_refl _) (List.prefix_refl _) (List.prefix_refl _)
    (Nat.le_refl _) (Nat.le_refl _) (Nat.le_refl _) (Nat.zero_le _) (Nat.zero_le _) (Nat.zero_le _) (Nat.le_refl _))

theorem keeps_startTenants {s0 : State} (s : State) (hs : Keeps s0 s) :
    Keeps s0 (startTenants s) := by
  unfold startTenants
  repeat' (with_reducible first | assumption | apply keeps_foldS | apply keeps_onTenant | apply keeps_refillPolicer | (intro _) | refine Keeps.ite ?_ ?_ | split | dsimp only | simp only [Keeps.upd_iff])

theorem keeps_partitionLoad {s0 : State} (s : State) (hs : Keeps s0 s) :
    Keeps s0 (partitionLoad s) := by
  unfold partitionLoad
  repeat' (with_reducible first | assumption | apply keeps_loadMaps | split | dsimp only | simp only [Keeps.upd_iff])

theorem keeps_warmUp {s0 : State} (s : State) (hs : Keeps s0 s) :
    Keeps s0 (warmUp s) := by
  unfold warmUp
  repeat' (with_reducible first | assumption | apply keeps_onFlash | apply keeps_partitionLoad | apply keeps_showClock | apply keeps_startTenants | apply keeps_startTraining | apply keeps_whenS | split | dsimp only | simp only [Keeps.upd_iff])

theorem keeps_holdPoint {s0 : State} (s : State) (hs : Keeps s0 s) :
    Keeps s0 (holdPoint s) := by
  unfold holdPoint
  repeat' (with_reducible first | assumption | apply keeps_fabricOff | apply keeps_portsOff | apply keeps_programBuffer | apply keeps_sleepStacks | apply keeps_warmLose | apply keeps_warmUp | apply keeps_whenS | split | dsimp only | simp only [Keeps.upd_iff])

theorem keeps_restoreDefs {s0 : State} (s : State) (hs : Keeps s0 s) :
    Keeps s0 (restoreDefs s) := by
  unfold restoreDefs
  repeat' (with_reducible first | assumption | apply keeps_dirSet | apply keeps_saveRecord | split | dsimp only | simp only [Keeps.upd_iff])

theorem keeps_takeIdentity {s0 : State} (inp : BootInputs) (p : Nat × Nat × Nat) (s : State) (hs : Keeps s0 s) :
    Keeps s0 (takeIdentity inp p s) := by
  unfold takeIdentity
  repeat' (with_reducible first | assumption | apply keeps_dirPut | apply keeps_dirSet | split | dsimp only | simp only [Keeps.upd_iff])

theorem keeps_startImage {s0 : State} (inp : BootInputs) (b : Bool) (fell : Bool) (s : State) (hs : Keeps s0 s) :
    Keeps s0 (startImage inp b fell s) := by
  unfold startImage
  repeat' (with_reducible first | assumption | apply keeps_dirPut | apply keeps_dirSet | apply keeps_extendM | apply keeps_whenS | split | dsimp only | simp only [Keeps.upd_iff])

theorem keeps_loadKeys {s0 : State} (s : State) (hs : Keeps s0 s) :
    Keeps s0 (loadKeys s) := by
  unfold loadKeys
  repeat' (with_reducible first | assumption | apply keeps_dirSet | apply keeps_foldS | (intro _) | refine Keeps.ite ?_ ?_ | split | dsimp only | simp only [Keeps.upd_iff])

theorem keeps_loadSegs {s0 : State} (s : State) (hs : Keeps s0 s) :
    Keeps s0 (loadSegs s) := by
  unfold loadSegs
  repeat' (with_reducible first | assumption | split | dsimp only | simp only [Keeps.upd_iff])

theorem keeps_takeSettings {s0 : State} (s : State) (hs : Keeps s0 s) :
    Keeps s0 (takeSettings s) := by
  unfold takeSettings
  repeat' (with_reducible first | assumption | apply keeps_loadSegs | apply keeps_startTenants | apply keeps_takeArrangement | split | dsimp only | simp only [Keeps.upd_iff])

theorem keeps_takeBins {s0 : State} (s : State) (hs : Keeps s0 s) :
    Keeps s0 (takeBins s) := by
  unfold takeBins
  repeat' (with_reducible first | assumption | apply keeps_dirPut | split | dsimp only | simp only [Keeps.upd_iff])

theorem keeps_zeroStacks {s0 : State} (s : State) (hs : Keeps s0 s) :
    Keeps s0 (zeroStacks s) := Keeps.upd (u := s) hs (fun _ => rfl) (List.prefix_refl _) (List.prefix_refl _) (List.prefix_refl _)
    (Nat.le_refl _) (Nat.le_refl _) (Nat.le_refl _) (Nat.le_refl _) (Nat.le_refl _) (Nat.le_refl _) (Nat.le_refl _)

theorem keeps_startLogs {s0 : State} (s : State) (hs : Keeps s0 s) :
    Keeps s0 (startLogs s) := by
  unfold startLogs
  repeat' (with_reducible first | assumption | apply keeps_bump | apply keeps_foldS | apply keeps_mirrorDie | apply keeps_onDieLog | apply keeps_resumeDie | split | dsimp only | simp only [Keeps.upd_iff])

theorem keeps_showRefs {s0 : State} (s : State) (hs : Keeps s0 s) :
    Keeps s0 (showRefs s) := by
  unfold showRefs
  repeat' (with_reducible first | assumption | apply keeps_dirSet | split | dsimp only | simp only [Keeps.upd_iff])

theorem keeps_bootOn {s0 : State} (inp : BootInputs) (b : Bool) (fell : Bool) (s : State) (hs : Keeps s0 s) :
    Keeps s0 (bootOn inp b fell s) := by
  unfold bootOn
  repeat' (with_reducible first | assumption | apply keeps_bankOut | apply keeps_foldS | apply keeps_loadKeys | apply keeps_partitionLoad | apply keeps_refreshResources | apply keeps_showClock | apply keeps_showRefs | apply keeps_showReserve | apply keeps_stackOut | apply keeps_startImage | apply keeps_startLogs | apply keeps_startTraining | apply keeps_takeBins | apply keeps_takeSettings | apply keeps_zeroStacks | (intro _) | refine Keeps.ite ?_ ?_ | split | dsimp only | simp only [Keeps.upd_iff])

theorem keeps_bootNow {s0 : State} (inp : BootInputs) (s : State) (hs : Keeps s0 s) :
    Keeps s0 (bootNow inp s) := by
  unfold bootNow
  repeat' (with_reducible first | assumption | apply keeps_bootOn | apply keeps_bump | apply keeps_dirSet | apply keeps_restoreDefs | apply keeps_takeIdentity | apply keeps_whenS | split | dsimp only | simp only [Keeps.upd_iff])

theorem keeps_coldStart {s0 : State} (inp : BootInputs) (s : State) (hs : Keeps s0 s) :
    Keeps s0 (coldStart inp s) := by
  unfold coldStart
  repeat' (with_reducible first | assumption | apply keeps_bootNow | apply keeps_bump | split | dsimp only | simp only [Keeps.upd_iff])

theorem keeps_sendStart {s0 : State} (t : Nat) (path : Nat) (s : State) (hs : Keeps s0 s) :
    Keeps s0 (sendStart t path s) := by
  unfold sendStart
  repeat' (with_reducible first | assumption | apply keeps_beSend | apply keeps_foldS | (intro _) | refine Keeps.ite ?_ ?_ | split | dsimp only | simp only [Keeps.upd_iff])

theorem keeps_sendReady {s0 : State} (s : State) (hs : Keeps s0 s) :
    Keeps s0 (sendReady s) := by
  unfold sendReady
  repeat' (with_reducible first | assumption | apply keeps_beSend | apply keeps_optS | (intro _) | refine Keeps.ite ?_ ?_ | split | dsimp only | simp only [Keeps.upd_iff])

theorem keeps_tryReady {s0 : State} (s : State) (hs : Keeps s0 s) :
    Keeps s0 (tryReady s) := by
  unfold tryReady
  repeat' (with_reducible first | assumption | apply keeps_sendReady | apply keeps_sendStart | split | dsimp only | simp only [Keeps.upd_iff])

theorem keeps_becomeReady {s0 : State} (s : State) (hs : Keeps s0 s) :
    Keeps s0 (becomeReady s) := by
  unfold becomeReady
  repeat' (with_reducible first | assumption | apply keeps_dirSet | apply keeps_tryReady | split | dsimp only | simp only [Keeps.upd_iff])

theorem keeps_startPost {s0 : State} (at_ : Nat) (s : State) (hs : Keeps s0 s) :
    Keeps s0 (startPost at_ s) := by
  unfold startPost
  repeat' (with_reducible first | assumption | apply keeps_dirPut | apply keeps_dirSet | apply keeps_engageDetours | apply keeps_foldS | apply keeps_trackParent | (intro _) | refine Keeps.ite ?_ ?_ | split | dsimp only | simp only [Keeps.upd_iff])

theorem keeps_rejoinAt {s0 : State} (frame : Nat) (s : State) (hs : Keeps s0 s) :
    Keeps s0 (rejoinAt frame s) := by
  unfold rejoinAt
  repeat' (with_reducible first | assumption | apply keeps_foldS | apply keeps_onLink | apply keeps_trackParent | (intro _) | refine Keeps.ite ?_ ?_ | split | dsimp only | simp only [Keeps.upd_iff])

theorem keeps_dropAbsent {s0 : State} (s : State) (hs : Keeps s0 s) :
    Keeps s0 (dropAbsent s) := by
  unfold dropAbsent
  repeat' (with_reducible first | assumption | apply keeps_foldS | apply keeps_onLink | apply keeps_setLinkState | (intro _) | refine Keeps.ite ?_ ?_ | split | dsimp only | simp only [Keeps.upd_iff])

end Sys2Proof.Machine
end

