-- ==== Sys2Proof/Laws/KeepBoot.lean ====
section
/-! SUPPORT. KeepBoot: each operation of Machine/Boot.lean keeps the queue, the canonical form of memory and the
order of the free values (`Keeps`). -/
namespace Sys2Proof.Machine
set_option Elab.async false
set_option linter.all false

theorem keeps_execPwrfailN {s0 : State} (ns : Nat) (s : State) (hs : Keeps s0 s) :
    ∀ z, (execPwrfailN ns s) = .next z → Keeps s0 z := by
  intro z e
  unfold execPwrfailN at e
  try dsimp only at e
  first | (split at e <;> first | (injection e with e; subst e)) | (injection e with e; subst e) | skip
  repeat' (with_reducible first | assumption | apply keeps_bump | apply keeps_draw | apply keeps_powerFail | split | dsimp only | simp only [Keeps.upd_iff])

theorem keeps_execFlushDone {s0 : State} (s : State) (hs : Keeps s0 s) :
    ∀ z, (execFlushDone s) = .next z → Keeps s0 z := by
  intro z e
  unfold execFlushDone at e
  try dsimp only at e
  first | (split at e <;> first | (injection e with e; subst e)) | (injection e with e; subst e) | skip
  repeat' (with_reducible first | assumption | apply keeps_afterFlush | apply keeps_endFlush | apply keeps_flushMedia | split | dsimp only | simp only [Keeps.upd_iff])

theorem keeps_coldRequest {s0 : State} (s : State) (hs : Keeps s0 s) :
    Keeps s0 (coldRequest s) := by
  unfold coldRequest
  repeat' (with_reducible first | assumption | apply keeps_coldClear | apply keeps_startFlush | split | dsimp only | simp only [Keeps.upd_iff])

theorem keeps_execPorstN {s0 : State} (at_ : Nat) (low : Nat) (s : State) (hs : Keeps s0 s) :
    ∀ z, (execPorstN at_ low s) = .next z → Keeps s0 z := by
  intro z e
  unfold execPorstN at e
  try dsimp only at e
  first | (split at e <;> first | (injection e with e; subst e)) | (injection e with e; subst e) | skip
  repeat' (with_reducible first | assumption | apply keeps_atPin | apply keeps_bump | apply keeps_coldRequest | split | dsimp only | simp only [Keeps.upd_iff])

theorem keeps_execColdBoot {s0 : State} (inp : BootInputs) (s : State) (hs : Keeps s0 s) :
    ∀ z, (execColdBoot inp s) = .next z → Keeps s0 z := by
  intro z e
  unfold execColdBoot at e
  try dsimp only at e
  first | (split at e <;> first | (injection e with e; subst e)) | (injection e with e; subst e) | skip
  repeat' (with_reducible first | assumption | apply keeps_coldStart | split | dsimp only | simp only [Keeps.upd_iff])

theorem keeps_execRailsInTolerance {s0 : State} (s : State) (hs : Keeps s0 s) :
    ∀ z, (execRailsInTolerance s) = .next z → Keeps s0 z := by
  intro z e
  unfold execRailsInTolerance at e
  try dsimp only at e
  first | (split at e <;> first | (injection e with e; subst e)) | (injection e with e; subst e) | skip
  repeat' (with_reducible first | assumption | apply keeps_bootNow | split | dsimp only | simp only [Keeps.upd_iff])

theorem keeps_execWrstN {s0 : State} (at_ : Nat) (low : Nat) (s : State) (hs : Keeps s0 s) :
    ∀ z, (execWrstN at_ low s) = .next z → Keeps s0 z := by
  intro z e
  unfold execWrstN at e
  try dsimp only at e
  first | (split at e <;> first | (injection e with e; subst e)) | (injection e with e; subst e) | skip
  repeat' (with_reducible first | assumption | apply keeps_askWarm | apply keeps_atPin | apply keeps_bump | split | dsimp only | simp only [Keeps.upd_iff])

theorem keeps_execHoldPoint {s0 : State} (s : State) (hs : Keeps s0 s) :
    ∀ z, (execHoldPoint s) = .next z → Keeps s0 z := by
  intro z e
  unfold execHoldPoint at e
  try dsimp only at e
  first | (split at e <;> first | (injection e with e; subst e)) | (injection e with e; subst e) | skip
  repeat' (with_reducible first | assumption | apply keeps_holdPoint | split | dsimp only | simp only [Keeps.upd_iff])

theorem keeps_execWrstNRelease {s0 : State} (s : State) (hs : Keeps s0 s) :
    ∀ z, (execWrstNRelease s) = .next z → Keeps s0 z := by
  intro z e
  unfold execWrstNRelease at e
  try dsimp only at e
  first | (split at e <;> first | (injection e with e; subst e)) | (injection e with e; subst e) | skip
  repeat' (with_reducible first | assumption | apply keeps_warmUp | split | dsimp only | simp only [Keeps.upd_iff])

theorem keeps_execVaonCollapse {s0 : State} (s : State) (hs : Keeps s0 s) :
    ∀ z, (execVaonCollapse s) = .next z → Keeps s0 z := by
  intro z e
  unfold execVaonCollapse at e
  try dsimp only at e
  first | (split at e <;> first | (injection e with e; subst e)) | (injection e with e; subst e) | skip
  repeat' (with_reducible first | assumption | apply keeps_powerLost | split | dsimp only | simp only [Keeps.upd_iff])

theorem keeps_execNodeReady {s0 : State} (s : State) (hs : Keeps s0 s) :
    ∀ z, (execNodeReady s) = .next z → Keeps s0 z := by
  intro z e
  unfold execNodeReady at e
  try dsimp only at e
  first | (split at e <;> first | (injection e with e; subst e)) | (injection e with e; subst e) | skip
  repeat' (with_reducible first | assumption | apply keeps_becomeReady | apply keeps_partitionLoad | apply keeps_startTraining | split | dsimp only | simp only [Keeps.upd_iff])

theorem keeps_execReadyMessage {s0 : State} (child : Nat) (s : State) (hs : Keeps s0 s) :
    ∀ z, (execReadyMessage child s) = .next z → Keeps s0 z := by
  intro z e
  unfold execReadyMessage at e
  try dsimp only at e
  first | (split at e <;> first | (injection e with e; subst e)) | (injection e with e; subst e) | skip
  repeat' (with_reducible first | assumption | apply keeps_tryReady | split | dsimp only | simp only [Keeps.upd_iff])

theorem keeps_takeStart {s0 : State} (m : FabMsg) (s : State) (hs : Keeps s0 s) :
    Keeps s0 (takeStart m s) := by
  unfold takeStart
  repeat' (with_reducible first | assumption | apply keeps_sendStart | split | dsimp only | simp only [Keeps.upd_iff])

theorem keeps_execStart {s0 : State} (m : FabMsg) (s : State) (hs : Keeps s0 s) :
    ∀ z, (execStart m s) = .next z → Keeps s0 z := by
  intro z e
  unfold execStart at e
  try dsimp only at e
  first | (split at e <;> first | (injection e with e; subst e)) | (injection e with e; subst e) | skip
  repeat' (with_reducible first | assumption | apply keeps_onBest | apply keeps_takeStart | apply keeps_tryReady | (intro _) | refine Keeps.ite ?_ ?_ | split | dsimp only | simp only [Keeps.upd_iff])

theorem keeps_execReadyDeadline {s0 : State} (s : State) (hs : Keeps s0 s) :
    ∀ z, (execReadyDeadline s) = .next z → Keeps s0 z := by
  intro z e
  unfold execReadyDeadline at e
  try dsimp only at e
  first | (split at e <;> first | (injection e with e; subst e)) | (injection e with e; subst e) | skip
  repeat' (with_reducible first | assumption | apply keeps_dropAbsent | apply keeps_tryReady | split | dsimp only | simp only [Keeps.upd_iff])

theorem keeps_execStartPost {s0 : State} (s : State) (hs : Keeps s0 s) :
    ∀ z, (execStartPost s) = .next z → Keeps s0 z := by
  intro z e
  unfold execStartPost at e
  try dsimp only at e
  first | (split at e <;> first | (injection e with e; subst e)) | (injection e with e; subst e) | skip
  repeat' (with_reducible first | assumption | apply keeps_startPost | split | dsimp only | simp only [Keeps.upd_iff])

theorem keeps_execRejoin {s0 : State} (frame : Nat) (s : State) (hs : Keeps s0 s) :
    ∀ z, (execRejoin frame s) = .next z → Keeps s0 z := by
  intro z e
  unfold execRejoin at e
  try dsimp only at e
  first | (split at e <;> first | (injection e with e; subst e)) | (injection e with e; subst e) | skip
  repeat' (with_reducible first | assumption | apply keeps_rejoinAt | split | dsimp only | simp only [Keeps.upd_iff])

theorem keeps_execHoldover {s0 : State} (s : State) (hs : Keeps s0 s) :
    ∀ z, (execHoldover s) = .next z → Keeps s0 z := by
  intro z e
  unfold execHoldover at e
  try dsimp only at e
  first | (split at e <;> first | (injection e with e; subst e)) | (injection e with e; subst e) | skip
  repeat' (with_reducible first | assumption | apply keeps_haltNode | split | dsimp only | simp only [Keeps.upd_iff])

theorem keeps_logDroop {s0 : State} (rail : Nat) (mv : Nat) (s : State) (hs : Keeps s0 s) :
    Keeps s0 (logDroop rail mv s) := by
  unfold logDroop
  repeat' (with_reducible first | assumption | apply keeps_onDieLog | split | dsimp only | simp only [Keeps.upd_iff])

theorem keeps_stopClocks {s0 : State} (s : State) (hs : Keeps s0 s) :
    Keeps s0 (stopClocks s) := by
  unfold stopClocks
  repeat' (with_reducible first | assumption | apply keeps_dropParts | apply keeps_fabricOff | apply keeps_portsOff | apply keeps_stopDies | split | dsimp only | simp only [Keeps.upd_iff])

theorem keeps_execRailFault {s0 : State} (rail : Nat) (ns : Nat) (s : State) (hs : Keeps s0 s) :
    ∀ z, (execRailFault rail ns s) = .next z → Keeps s0 z := by
  intro z e
  unfold execRailFault at e
  try dsimp only at e
  first | (split at e <;> first | (injection e with e; subst e)) | (injection e with e; subst e) | skip
  repeat' (with_reducible first | assumption | apply keeps_bump | apply keeps_powerFail | apply keeps_stopClocks | apply keeps_writeSticky | split | dsimp only | simp only [Keeps.upd_iff])

theorem keeps_execDroop {s0 : State} (rail : Nat) (mv : Nat) (ns : Nat) (s : State) (hs : Keeps s0 s) :
    ∀ z, (execDroop rail mv ns s) = .next z → Keeps s0 z := by
  intro z e
  unfold execDroop at e
  try dsimp only at e
  first | (split at e <;> first | (injection e with e; subst e)) | (injection e with e; subst e) | skip
  repeat' (with_reducible first | assumption | apply keeps_logDroop | split | dsimp only | simp only [Keeps.upd_iff])

theorem keeps_execThermalHalt {s0 : State} (die : Nat) (temp : Int) (s : State) (hs : Keeps s0 s) :
    ∀ z, (execThermalHalt die temp s) = .next z → Keeps s0 z := by
  intro z e
  unfold execThermalHalt at e
  try dsimp only at e
  first | (split at e <;> first | (injection e with e; subst e)) | (injection e with e; subst e) | skip
  repeat' (with_reducible first | assumption | apply keeps_bump | apply keeps_haltNode | split | dsimp only | simp only [Keeps.upd_iff])

theorem keeps_execThermtrip {s0 : State} (die : Nat) (temp : Int) (s : State) (hs : Keeps s0 s) :
    ∀ z, (execThermtrip die temp s) = .next z → Keeps s0 z := by
  intro z e
  unfold execThermtrip at e
  try dsimp only at e
  first | (split at e <;> first | (injection e with e; subst e)) | (injection e with e; subst e) | skip
  repeat' (with_reducible first | assumption | split | dsimp only | simp only [Keeps.upd_iff])

theorem keeps_lostRef25 {s0 : State} (s : State) (hs : Keeps s0 s) :
    Keeps s0 (lostRef25 s) := by
  unfold lostRef25
  repeat' (with_reducible first | assumption | apply keeps_dirSet | apply keeps_haltNode | apply keeps_record | split | dsimp only | simp only [Keeps.upd_iff])

theorem keeps_lostFabRef {s0 : State} (s : State) (hs : Keeps s0 s) :
    Keeps s0 (lostFabRef s) := by
  unfold lostFabRef
  repeat' (with_reducible first | assumption | apply keeps_foldS | apply keeps_linkFalls | split | dsimp only | simp only [Keeps.upd_iff])

theorem keeps_execReferenceLoss {s0 : State} (which : Nat) (s : State) (hs : Keeps s0 s) :
    ∀ z, (execReferenceLoss which s) = .next z → Keeps s0 z := by
  intro z e
  unfold execReferenceLoss at e
  try dsimp only at e
  first | (split at e <;> first | (injection e with e; subst e)) | (injection e with e; subst e) | skip
  repeat' (with_reducible first | assumption | apply keeps_bump | apply keeps_lostFabRef | apply keeps_lostRef25 | apply keeps_portsOff | apply keeps_showRefs | split | dsimp only | simp only [Keeps.upd_iff])

theorem keeps_execReferenceReturn {s0 : State} (which : Nat) (s : State) (hs : Keeps s0 s) :
    ∀ z, (execReferenceReturn which s) = .next z → Keeps s0 z := by
  intro z e
  unfold execReferenceReturn at e
  try dsimp only at e
  first | (split at e <;> first | (injection e with e; subst e)) | (injection e with e; subst e) | skip
  repeat' (with_reducible first | assumption | apply keeps_showRefs | split | dsimp only | simp only [Keeps.upd_iff])

end Sys2Proof.Machine
end

