-- ==== Sys2Proof/Laws/KeepDirOps.lean ====
section
/-! SUPPORT. KeepDirOps: each operation of Machine/DirOps.lean keeps the queue, the canonical form of memory and the
order of the free values (`Keeps`). -/
namespace Sys2Proof.Machine
set_option Elab.async false
set_option linter.all false

theorem keeps_onXslot {s0 : State} (n : Nat) (f : XSlot → XSlot) (s : State) (hs : Keeps s0 s) :
    Keeps s0 (onXslot n f s) := by
  unfold onXslot
  repeat' (with_reducible first | assumption | split | dsimp only | simp only [Keeps.upd_iff])

theorem keeps_afterRead {s0 : State} (a : Actor) (obj : Nat) (s : State) (hs : Keeps s0 s) :
    Keeps s0 (afterRead a obj s) := by
  unfold afterRead
  repeat' (with_reducible first | assumption | apply keeps_draw | apply keeps_onXslot | split | dsimp only | simp only [Keeps.upd_iff])

end Sys2Proof.Machine
end

