-- ==== Sys2Proof/Laws/KeepRvCsr.lean ====
section
/-! SUPPORT. KeepRvCsr: each operation of Machine/RvCsr.lean keeps the queue, the canonical form of memory and the
order of the free values (`Keeps`). -/
namespace Sys2Proof.Machine
set_option Elab.async false
set_option linter.all false

theorem keeps_doCsrAct {s0 : State} (th : Nat) (rd : Nat) (a : Nat) (v : Nat) (s : State) (hs : Keeps s0 s) :
    Keeps s0 (doCsrAct th rd a v s) := by
  unfold doCsrAct
  repeat' (with_reducible first | assumption | apply keeps_doErecv | apply keeps_doEstop | apply keeps_doEstream | apply keeps_doEstrel | apply keeps_doEstwait | apply keeps_doEwait | split | dsimp only | simp only [Keeps.upd_iff])

theorem keeps_doCsr {s0 : State} (th : Nat) (op : Nat) (rd : Nat) (a : Nat) (v : Nat) (write : Bool) (w : W32) (s : State) (hs : Keeps s0 s) :
    Keeps s0 (doCsr th op rd a v write w s) := by
  unfold doCsr
  repeat' (with_reducible first | assumption | apply keeps_doCsrAct | apply keeps_draw | apply keeps_illegal | apply keeps_onThread | split | dsimp only | simp only [Keeps.upd_iff])

end Sys2Proof.Machine
end

