-- ==== Sys2Proof/Laws/KeepDir.lean ====
section
/-! SUPPORT. KeepDir: each operation of Machine/Dir.lean keeps the queue, the canonical form of memory and the
order of the free values (`Keeps`). -/
namespace Sys2Proof.Machine
set_option Elab.async false
set_option linter.all false

theorem keeps_removeHead {s0 : State} (s : State) (hs : Keeps s0 s) :
    Keeps s0 (removeHead s) := by
  unfold removeHead
  exact keeps_autoRemove _ (Keeps.upd (u := s) hs (fun w => w) (List.prefix_refl _) (List.prefix_refl _) (List.prefix_refl _)
    (by simp) (Nat.le_refl _) (Nat.le_refl _) (Nat.le_refl _) (Nat.le_refl _) (Nat.le_refl _) (Nat.le_refl _))

theorem keeps_putNonce {s0 : State} (a : Actor) (b : Bytes) (s : State) (hs : Keeps s0 s) :
    Keeps s0 (putNonce a b s) := by
  unfold putNonce
  repeat' (with_reducible first | assumption | apply keeps_onSess | split | dsimp only | simp only [Keeps.upd_iff])

theorem keeps_putKey {s0 : State} (t : Nat) (b : Bytes) (s : State) (hs : Keeps s0 s) :
    Keeps s0 (putKey t b s) := by
  unfold putKey
  repeat' (with_reducible first | assumption | apply keeps_bump | apply keeps_dirPut | apply keeps_dirSet | split | dsimp only | simp only [Keeps.upd_iff])

theorem keeps_eraseKey {s0 : State} (t : Nat) (s : State) (hs : Keeps s0 s) :
    Keeps s0 (eraseKey t s) := by
  unfold eraseKey
  repeat' (with_reducible first | assumption | apply keeps_dirPut | apply keeps_dirSet | split | dsimp only | simp only [Keeps.upd_iff])

theorem keeps_enterOpen {s0 : State} (s : State) (hs : Keeps s0 s) :
    Keeps s0 (enterOpen s) := by
  unfold enterOpen
  repeat' (with_reducible first | assumption | apply keeps_bump | apply keeps_closeSess | apply keeps_eraseKey | apply keeps_foldS | apply keeps_saveRecord | split | dsimp only | simp only [Keeps.upd_iff])

theorem keeps_setDebug {s0 : State} (old : Nat) (m : Nat) (s : State) (hs : Keeps s0 s) :
    Keeps s0 (setDebug old m s) := by
  unfold setDebug
  repeat' (with_reducible first | assumption | apply keeps_enterOpen | apply keeps_extendM | apply keeps_whenS | split | dsimp only | simp only [Keeps.upd_iff])

theorem keeps_confirmImage {s0 : State} (s : State) (hs : Keeps s0 s) :
    Keeps s0 (confirmImage s) := by
  unfold confirmImage
  repeat' (with_reducible first | assumption | apply keeps_dirSet | apply keeps_saveRecord | split | dsimp only | simp only [Keeps.upd_iff])

theorem keeps_putImage {s0 : State} (b : Bytes) (s : State) (hs : Keeps s0 s) :
    Keeps s0 (putImage b s) := by
  unfold putImage
  repeat' (with_reducible first | assumption | split | dsimp only | simp only [Keeps.upd_iff])

theorem keeps_putSak {s0 : State} (p : Nat) (b : Bytes) (s : State) (hs : Keeps s0 s) :
    Keeps s0 (putSak p b s) := by
  unfold putSak
  repeat' (with_reducible first | assumption | split | dsimp only | simp only [Keeps.upd_iff])

theorem keeps_actTraffic {s0 : State} (obj : Nat) (v : DVal) (s : State) (hs : Keeps s0 s) :
    Keeps s0 (actTraffic obj v s) := by
  unfold actTraffic
  repeat' (with_reducible first | assumption | apply keeps_askReset | apply keeps_clearHist | apply keeps_refillPolicer | apply keeps_refillShaper | split | dsimp only | simp only [Keeps.upd_iff])

theorem keeps_actSingle {s0 : State} (a : Actor) (obj : Nat) (old : Nat) (v : DVal) (s : State) (hs : Keeps s0 s) :
    Keeps s0 (actSingle a obj old v s) := by
  unfold actSingle
  repeat' (with_reducible first | assumption | apply keeps_askWarm | apply keeps_autoRemove | apply keeps_confirmImage | apply keeps_extendM | apply keeps_putImage | apply keeps_putNonce | apply keeps_removeHead | apply keeps_setDebug | apply keeps_stageImage | apply keeps_stageMap | (intro _) | refine Keeps.ite ?_ ?_ | split | dsimp only | simp only [Keeps.upd_iff])

theorem keeps_actWrite {s0 : State} (a : Actor) (obj : Nat) (old : Nat) (v : DVal) (s : State) (hs : Keeps s0 s) :
    Keeps s0 (actWrite a obj old v s) := by
  unfold actWrite
  repeat' (with_reducible first | assumption | apply keeps_actSingle | apply keeps_actTraffic | apply keeps_putKey | apply keeps_putSak | apply keeps_showReserve | apply keeps_takeArrangement | split | dsimp only | simp only [Keeps.upd_iff])

theorem keeps_effectPlain {s0 : State} (a : Actor) (obj : Nat) (v : DVal) (s : State) (hs : Keeps s0 s) :
    Keeps s0 (effectPlain a obj v s) := by
  unfold effectPlain
  repeat' (with_reducible first | assumption | apply keeps_actWrite | apply keeps_dirPut | apply keeps_dirSet | apply keeps_whenS | split | dsimp only | simp only [Keeps.upd_iff])

theorem keeps_effectRefused {s0 : State} (obj : Nat) (v : DVal) (s : State) (hs : Keeps s0 s) :
    Keeps s0 (effectRefused obj v s) := by
  unfold effectRefused
  repeat' (with_reducible first | assumption | apply keeps_stageImage | apply keeps_stageMap | split | dsimp only | simp only [Keeps.upd_iff])

theorem keeps_slotTarget {s0 : State} (a : Actor) (n : Nat) (t : Nat) (s : State) (hs : Keeps s0 s) :
    Keeps s0 (slotTarget a n t s) := by
  unfold slotTarget
  repeat' (with_reducible first | assumption | apply keeps_onXslot | split | dsimp only | simp only [Keeps.upd_iff])

theorem keeps_slotDirection {s0 : State} (a : Actor) (n : Nat) (d : Nat) (s : State) (hs : Keeps s0 s) :
    Keeps s0 (slotDirection a n d s) := by
  unfold slotDirection
  repeat' (with_reducible first | assumption | apply keeps_afterRead | apply keeps_onXslot | apply keeps_whenS | split | dsimp only | simp only [Keeps.upd_iff])

theorem keeps_slotLength {s0 : State} (n : Nat) (k : Nat) (s : State) (hs : Keeps s0 s) :
    Keeps s0 (slotLength n k s) := by
  unfold slotLength
  repeat' (with_reducible first | assumption | apply keeps_onXslot | split | dsimp only | simp only [Keeps.upd_iff])

theorem keeps_slotChunk {s0 : State} (n : Nat) (b : Bytes) (s : State) (hs : Keeps s0 s) :
    Keeps s0 (slotChunk n b s) := by
  unfold slotChunk
  repeat' (with_reducible first | assumption | apply keeps_onXslot | split | dsimp only | simp only [Keeps.upd_iff])

theorem keeps_slotCommit {s0 : State} (a : Actor) (n : Nat) (s : State) (hs : Keeps s0 s) :
    Keeps s0 (slotCommit a n s) := by
  unfold slotCommit
  repeat' (with_reducible first | assumption | apply keeps_effectPlain | apply keeps_onXslot | split | dsimp only | simp only [Keeps.upd_iff])

theorem keeps_slotRefused {s0 : State} (n : Nat) (st : Nat) (s : State) (hs : Keeps s0 s) :
    Keeps s0 (slotRefused n st s) := by
  unfold slotRefused
  repeat' (with_reducible first | assumption | apply keeps_effectRefused | apply keeps_onXslot | apply keeps_whenS | split | dsimp only | simp only [Keeps.upd_iff])

theorem keeps_effectSlot {s0 : State} (a : Actor) (n : Nat) (u : Nat) (v : DVal) (s : State) (hs : Keeps s0 s) :
    Keeps s0 (effectSlot a n u v s) := by
  unfold effectSlot
  repeat' (with_reducible first | assumption | apply keeps_onXslot | apply keeps_slotChunk | apply keeps_slotCommit | apply keeps_slotDirection | apply keeps_slotLength | apply keeps_slotTarget | split | dsimp only | simp only [Keeps.upd_iff])

theorem keeps_touchSlot {s0 : State} (a : Actor) (obj : Nat) (s : State) (hs : Keeps s0 s) :
    Keeps s0 (touchSlot a obj s) := by
  unfold touchSlot
  repeat' (with_reducible first | assumption | apply keeps_onXslot | split | dsimp only | simp only [Keeps.upd_iff])

theorem keeps_effectWrite {s0 : State} (a : Actor) (obj : Nat) (v : DVal) (s : State) (hs : Keeps s0 s) :
    Keeps s0 (effectWrite a obj v s) := by
  unfold effectWrite
  repeat' (with_reducible first | assumption | apply keeps_effectPlain | apply keeps_effectSlot | split | dsimp only | simp only [Keeps.upd_iff])

theorem keeps_effectNone {s0 : State} (a : Actor) (obj : Nat) (st : Nat) (v : DVal) (s : State) (hs : Keeps s0 s) :
    Keeps s0 (effectNone a obj st v s) := by
  unfold effectNone
  repeat' (with_reducible first | assumption | apply keeps_effectRefused | apply keeps_slotRefused | split | dsimp only | simp only [Keeps.upd_iff])

theorem keeps_respond {s0 : State} (m : ChainMsg) (st : Nat) (ty : Nat) (body : Bytes) (s : State) (hs : Keeps s0 s) :
    Keeps s0 (respond m st ty body s) := by
  unfold respond
  repeat' (with_reducible first | assumption | apply keeps_bump | apply keeps_chainSend | apply keeps_whenS | split | dsimp only | simp only [Keeps.upd_iff])

theorem keeps_keepResponse {s0 : State} (m : ChainMsg) (st : Nat) (ty : Nat) (body : Bytes) (s : State) (hs : Keeps s0 s) :
    Keeps s0 (keepResponse m st ty body s) := by
  unfold keepResponse
  repeat' (with_reducible first | assumption | split | dsimp only | simp only [Keeps.upd_iff])

theorem keeps_answerOp {s0 : State} (ans : Answer) (obj : Nat) (st : Nat) (read : Bool) (body : Bytes) (s : State) (hs : Keeps s0 s) :
    Keeps s0 (answerOp ans obj st read body s) := by
  unfold answerOp
  repeat' (with_reducible first | assumption | apply keeps_endReq | apply keeps_keepResponse | apply keeps_respond | split | dsimp only | simp only [Keeps.upd_iff])

theorem keeps_noteOp {s0 : State} (st : Nat) (v : Option DVal) (s : State) (hs : Keeps s0 s) :
    Keeps s0 (noteOp st v s) := by
  unfold noteOp
  repeat' (with_reducible first | assumption | split | dsimp only | simp only [Keeps.upd_iff])

theorem keeps_runRead {s0 : State} (o : DirOp) (s : State) (hs : Keeps s0 s) :
    Keeps s0 (runRead o s) := by
  unfold runRead
  repeat' (with_reducible first | assumption | apply keeps_afterRead | apply keeps_answerOp | apply keeps_noteOp | apply keeps_touchSlot | apply keeps_whenS | split | dsimp only | simp only [Keeps.upd_iff])

theorem keeps_lateAct {s0 : State} (obj : Nat) (s : State) (hs : Keeps s0 s) :
    Keeps s0 (lateAct obj s) := by
  unfold lateAct
  repeat' (with_reducible first | assumption | apply keeps_writeEnabled | split | dsimp only | simp only [Keeps.upd_iff])

theorem keeps_runWrite {s0 : State} (o : DirOp) (v : DVal) (s : State) (hs : Keeps s0 s) :
    Keeps s0 (runWrite o v s) := by
  unfold runWrite
  repeat' (with_reducible first | assumption | apply keeps_answerOp | apply keeps_effectNone | apply keeps_effectWrite | apply keeps_noteOp | apply keeps_touchSlot | split | dsimp only | simp only [Keeps.upd_iff])

theorem keeps_runOp {s0 : State} (o : DirOp) (s : State) (hs : Keeps s0 s) :
    Keeps s0 (runOp o s) := by
  unfold runOp
  repeat' (with_reducible first | assumption | apply keeps_runRead | apply keeps_runWrite | split | dsimp only | simp only [Keeps.upd_iff])

theorem keeps_takeOp {s0 : State} (o : DirOp) (s : State) (hs : Keeps s0 s) :
    Keeps s0 (takeOp o s) := by
  unfold takeOp
  repeat' (with_reducible first | assumption | apply keeps_runOp | split | dsimp only | simp only [Keeps.upd_iff])

theorem keeps_drainOps {s0 : State} (x0 : List DirOp) (x1 : State) (hx1 : Keeps s0 x1) :
    Keeps s0 (drainOps x0 x1) := by
  induction x0 generalizing x1 with
  | nil =>
    unfold drainOps
    all_goals try dsimp only
    repeat' (with_reducible first | assumption | exact Keeps.refl _ | apply keeps_runOp | (intro _) | refine Keeps.snd (by assumption) ?_ | refine Keeps.snd3 (by assumption) ?_ | refine Keeps.snd4 (by assumption) ?_ | refine Keeps.some1 (by assumption) ?_ | refine Keeps.some2 (by assumption) ?_ | refine Keeps.some3 (by assumption) ?_ | refine Keeps.fst (by assumption) ?_ | refine Keeps.ite ?_ ?_ | refine Keeps.ite2 ?_ ?_ | refine Keeps.ite3 ?_ ?_ | split | dsimp only | simp only [Keeps.upd_iff, List.length_map] | simp only [Keeps.upd_iff, length_updFirst] | simp only [Keeps.upd_iff])
  | cons a t ih =>
    unfold drainOps
    all_goals try dsimp only
    repeat' (with_reducible first | assumption | exact Keeps.refl _ | apply keeps_runOp | with_reducible apply ih | (intro _) | refine Keeps.snd (by assumption) ?_ | refine Keeps.snd3 (by assumption) ?_ | refine Keeps.snd4 (by assumption) ?_ | refine Keeps.some1 (by assumption) ?_ | refine Keeps.some2 (by assumption) ?_ | refine Keeps.some3 (by assumption) ?_ | refine Keeps.fst (by assumption) ?_ | refine Keeps.ite ?_ ?_ | refine Keeps.ite2 ?_ ?_ | refine Keeps.ite3 ?_ ?_ | split | dsimp only | simp only [Keeps.upd_iff, List.length_map] | simp only [Keeps.upd_iff, length_updFirst] | simp only [Keeps.upd_iff])

theorem keeps_commitRecord {s0 : State} (s : State) (hs : Keeps s0 s) :
    Keeps s0 (commitRecord s) := by
  unfold commitRecord
  repeat' (with_reducible first | assumption | apply keeps_answerOp | apply keeps_drainOps | apply keeps_foldS | apply keeps_lateAct | apply keeps_saveRecord | (intro _) | refine Keeps.ite ?_ ?_ | split | dsimp only | simp only [Keeps.upd_iff])

theorem keeps_rowOp {s0 : State} (ok : Bool) (a : Actor) (obj : Nat) (wr : Option DVal) (s : State) (hs : Keeps s0 s) :
    ∀ z, (rowOp ok a obj wr s) = .next z → Keeps s0 z := by
  intro z e
  unfold rowOp at e
  try dsimp only at e
  first | (split at e <;> first | (injection e with e; subst e)) | (injection e with e; subst e) | skip
  repeat' (with_reducible first | assumption | apply keeps_noteOp | apply keeps_takeOp | split | dsimp only | simp only [Keeps.upd_iff])

theorem keeps_takeReq {s0 : State} (rid : Nat) (type : Nat) (wr : Req → Option DVal) (s : State) (hs : Keeps s0 s) :
    Keeps s0 (takeReq rid type wr s) := by
  unfold takeReq
  repeat' (with_reducible first | assumption | apply keeps_failReq | apply keeps_onReq | apply keeps_takeOp | split | dsimp only | simp only [Keeps.upd_iff])

theorem keeps_execDirRead {s0 : State} (rid : Nat) (s : State) (hs : Keeps s0 s) :
    ∀ z, (execDirRead rid s) = .next z → Keeps s0 z := by
  intro z e
  unfold execDirRead at e
  try dsimp only at e
  first | (split at e <;> first | (injection e with e; subst e)) | (injection e with e; subst e) | skip
  repeat' (with_reducible first | assumption | apply keeps_takeReq | split | dsimp only | simp only [Keeps.upd_iff])

theorem keeps_execDirWrite {s0 : State} (rid : Nat) (s : State) (hs : Keeps s0 s) :
    ∀ z, (execDirWrite rid s) = .next z → Keeps s0 z := by
  intro z e
  unfold execDirWrite at e
  try dsimp only at e
  first | (split at e <;> first | (injection e with e; subst e)) | (injection e with e; subst e) | skip
  repeat' (with_reducible first | assumption | apply keeps_takeReq | split | dsimp only | simp only [Keeps.upd_iff])

theorem keeps_execBootFlashCommit {s0 : State} (s : State) (hs : Keeps s0 s) :
    ∀ z, (execBootFlashCommit s) = .next z → Keeps s0 z := by
  intro z e
  unfold execBootFlashCommit at e
  try dsimp only at e
  first | (split at e <;> first | (injection e with e; subst e)) | (injection e with e; subst e) | skip
  repeat' (with_reducible first | assumption | apply keeps_commitRecord | split | dsimp only | simp only [Keeps.upd_iff])

theorem keeps_execRegisterWrite {s0 : State} (t : RegTarget) (s : State) (hs : Keeps s0 s) :
    ∀ z, (execRegisterWrite t s) = .next z → Keeps s0 z := by
  intro z e
  unfold execRegisterWrite at e
  try dsimp only at e
  first | exact keeps_rowOp _ _ _ _ _ hs _ e | (split at e <;> first | exact keeps_rowOp _ _ _ _ _ hs _ e | (injection e with e; subst e)) | (injection e with e; subst e) | skip
  repeat' (with_reducible first | assumption | apply keeps_eregWrite | apply keeps_illegal | apply keeps_onIssue | apply keeps_onThread | (show ∀ _, _ → _; apply keeps_rowOp) | (intro _) | refine Keeps.ite ?_ ?_ | split | dsimp only | simp only [Keeps.upd_iff])

theorem keeps_execTxAn {s0 : State} (a : Actor) (p : Nat) (v : DVal) (s : State) (hs : Keeps s0 s) :
    ∀ z, (execTxAn a p v s) = .next z → Keeps s0 z := by
  intro z e
  unfold execTxAn at e
  try dsimp only at e
  first | exact keeps_rowOp _ _ _ _ _ hs _ e | (split at e <;> first | exact keeps_rowOp _ _ _ _ _ hs _ e | (injection e with e; subst e)) | (injection e with e; subst e) | skip
  repeat' (with_reducible first | assumption | (show ∀ _, _ → _; apply keeps_rowOp) | split | dsimp only | simp only [Keeps.upd_iff])

theorem keeps_execSak {s0 : State} (a : Actor) (p : Nat) (v : DVal) (s : State) (hs : Keeps s0 s) :
    ∀ z, (execSak a p v s) = .next z → Keeps s0 z := by
  intro z e
  unfold execSak at e
  try dsimp only at e
  first | exact keeps_rowOp _ _ _ _ _ hs _ e | (split at e <;> first | exact keeps_rowOp _ _ _ _ _ hs _ e | (injection e with e; subst e)) | (injection e with e; subst e) | skip
  repeat' (with_reducible first | assumption | (show ∀ _, _ → _; apply keeps_rowOp) | split | dsimp only | simp only [Keeps.upd_iff])

theorem keeps_execEnabled {s0 : State} (a : Actor) (t : Nat) (v : DVal) (s : State) (hs : Keeps s0 s) :
    ∀ z, (execEnabled a t v s) = .next z → Keeps s0 z := by
  intro z e
  unfold execEnabled at e
  try dsimp only at e
  first | exact keeps_rowOp _ _ _ _ _ hs _ e | (split at e <;> first | exact keeps_rowOp _ _ _ _ _ hs _ e | (injection e with e; subst e)) | (injection e with e; subst e) | skip
  repeat' (with_reducible first | assumption | (show ∀ _, _ → _; apply keeps_rowOp) | split | dsimp only | simp only [Keeps.upd_iff])

theorem keeps_execTenantReset {s0 : State} (a : Actor) (t : Nat) (v : DVal) (s : State) (hs : Keeps s0 s) :
    ∀ z, (execTenantReset a t v s) = .next z → Keeps s0 z := by
  intro z e
  unfold execTenantReset at e
  try dsimp only at e
  first | exact keeps_rowOp _ _ _ _ _ hs _ e | (split at e <;> first | exact keeps_rowOp _ _ _ _ _ hs _ e | (injection e with e; subst e)) | (injection e with e; subst e) | skip
  repeat' (with_reducible first | assumption | (show ∀ _, _ → _; apply keeps_rowOp) | split | dsimp only | simp only [Keeps.upd_iff])

theorem keeps_execPolicerEntryWrite {s0 : State} (a : Actor) (t : Nat) (sub : Nat) (v : DVal) (s : State) (hs : Keeps s0 s) :
    ∀ z, (execPolicerEntryWrite a t sub v s) = .next z → Keeps s0 z := by
  intro z e
  unfold execPolicerEntryWrite at e
  try dsimp only at e
  first | exact keeps_rowOp _ _ _ _ _ hs _ e | (split at e <;> first | exact keeps_rowOp _ _ _ _ _ hs _ e | (injection e with e; subst e)) | (injection e with e; subst e) | skip
  repeat' (with_reducible first | assumption | (show ∀ _, _ → _; apply keeps_rowOp) | split | dsimp only | simp only [Keeps.upd_iff])

theorem keeps_execShaperEntryWrite {s0 : State} (a : Actor) (t : Nat) (q : Nat) (sub : Nat) (v : DVal) (s : State) (hs : Keeps s0 s) :
    ∀ z, (execShaperEntryWrite a t q sub v s) = .next z → Keeps s0 z := by
  intro z e
  unfold execShaperEntryWrite at e
  try dsimp only at e
  first | exact keeps_rowOp _ _ _ _ _ hs _ e | (split at e <;> first | exact keeps_rowOp _ _ _ _ _ hs _ e | (injection e with e; subst e)) | (injection e with e; subst e) | skip
  repeat' (with_reducible first | assumption | (show ∀ _, _ → _; apply keeps_rowOp) | split | dsimp only | simp only [Keeps.upd_iff])

theorem keeps_execCommitFrame {s0 : State} (a : Actor) (p : Nat) (v : DVal) (s : State) (hs : Keeps s0 s) :
    ∀ z, (execCommitFrame a p v s) = .next z → Keeps s0 z := by
  intro z e
  unfold execCommitFrame at e
  try dsimp only at e
  first | exact keeps_rowOp _ _ _ _ _ hs _ e | (split at e <;> first | exact keeps_rowOp _ _ _ _ _ hs _ e | (injection e with e; subst e)) | (injection e with e; subst e) | skip
  repeat' (with_reducible first | assumption | (show ∀ _, _ → _; apply keeps_rowOp) | split | dsimp only | simp only [Keeps.upd_iff])

theorem keeps_execHistClear {s0 : State} (a : Actor) (t : Nat) (q : Nat) (v : DVal) (s : State) (hs : Keeps s0 s) :
    ∀ z, (execHistClear a t q v s) = .next z → Keeps s0 z := by
  intro z e
  unfold execHistClear at e
  try dsimp only at e
  first | exact keeps_rowOp _ _ _ _ _ hs _ e | (split at e <;> first | exact keeps_rowOp _ _ _ _ _ hs _ e | (injection e with e; subst e)) | (injection e with e; subst e) | skip
  repeat' (with_reducible first | assumption | (show ∀ _, _ → _; apply keeps_rowOp) | split | dsimp only | simp only [Keeps.upd_iff])

theorem keeps_execRwcWrite {s0 : State} (a : Actor) (obj : Nat) (v : DVal) (s : State) (hs : Keeps s0 s) :
    ∀ z, (execRwcWrite a obj v s) = .next z → Keeps s0 z := by
  intro z e
  unfold execRwcWrite at e
  try dsimp only at e
  first | exact keeps_rowOp _ _ _ _ _ hs _ e | (split at e <;> first | exact keeps_rowOp _ _ _ _ _ hs _ e | (injection e with e; subst e)) | (injection e with e; subst e) | skip
  repeat' (with_reducible first | assumption | (show ∀ _, _ → _; apply keeps_rowOp) | split | dsimp only | simp only [Keeps.upd_iff])

theorem keeps_execWarmRequest {s0 : State} (a : Actor) (v : DVal) (s : State) (hs : Keeps s0 s) :
    ∀ z, (execWarmRequest a v s) = .next z → Keeps s0 z := by
  intro z e
  unfold execWarmRequest at e
  try dsimp only at e
  first | exact keeps_rowOp _ _ _ _ _ hs _ e | (split at e <;> first | exact keeps_rowOp _ _ _ _ _ hs _ e | (injection e with e; subst e)) | (injection e with e; subst e) | skip
  repeat' (with_reducible first | assumption | (show ∀ _, _ → _; apply keeps_rowOp) | split | dsimp only | simp only [Keeps.upd_iff])

theorem keeps_execRestoreDefaults {s0 : State} (a : Actor) (v : DVal) (s : State) (hs : Keeps s0 s) :
    ∀ z, (execRestoreDefaults a v s) = .next z → Keeps s0 z := by
  intro z e
  unfold execRestoreDefaults at e
  try dsimp only at e
  first | exact keeps_rowOp _ _ _ _ _ hs _ e | (split at e <;> first | exact keeps_rowOp _ _ _ _ _ hs _ e | (injection e with e; subst e)) | (injection e with e; subst e) | skip
  repeat' (with_reducible first | assumption | (show ∀ _, _ → _; apply keeps_rowOp) | split | dsimp only | simp only [Keeps.upd_iff])

theorem keeps_execTarget {s0 : State} (a : Actor) (n : Nat) (v : DVal) (s : State) (hs : Keeps s0 s) :
    ∀ z, (execTarget a n v s) = .next z → Keeps s0 z := by
  intro z e
  unfold execTarget at e
  try dsimp only at e
  first | exact keeps_rowOp _ _ _ _ _ hs _ e | (split at e <;> first | exact keeps_rowOp _ _ _ _ _ hs _ e | (injection e with e; subst e)) | (injection e with e; subst e) | skip
  repeat' (with_reducible first | assumption | (show ∀ _, _ → _; apply keeps_rowOp) | split | dsimp only | simp only [Keeps.upd_iff])

theorem keeps_execDirection {s0 : State} (a : Actor) (n : Nat) (v : DVal) (s : State) (hs : Keeps s0 s) :
    ∀ z, (execDirection a n v s) = .next z → Keeps s0 z := by
  intro z e
  unfold execDirection at e
  try dsimp only at e
  first | exact keeps_rowOp _ _ _ _ _ hs _ e | (split at e <;> first | exact keeps_rowOp _ _ _ _ _ hs _ e | (injection e with e; subst e)) | (injection e with e; subst e) | skip
  repeat' (with_reducible first | assumption | (show ∀ _, _ → _; apply keeps_rowOp) | split | dsimp only | simp only [Keeps.upd_iff])

theorem keeps_execChunkWrite {s0 : State} (a : Actor) (n : Nat) (v : DVal) (s : State) (hs : Keeps s0 s) :
    ∀ z, (execChunkWrite a n v s) = .next z → Keeps s0 z := by
  intro z e
  unfold execChunkWrite at e
  try dsimp only at e
  first | exact keeps_rowOp _ _ _ _ _ hs _ e | (split at e <;> first | exact keeps_rowOp _ _ _ _ _ hs _ e | (injection e with e; subst e)) | (injection e with e; subst e) | skip
  repeat' (with_reducible first | assumption | (show ∀ _, _ → _; apply keeps_rowOp) | split | dsimp only | simp only [Keeps.upd_iff])

theorem keeps_execChunkRead {s0 : State} (a : Actor) (n : Nat) (s : State) (hs : Keeps s0 s) :
    ∀ z, (execChunkRead a n s) = .next z → Keeps s0 z := by
  intro z e
  unfold execChunkRead at e
  try dsimp only at e
  first | exact keeps_rowOp _ _ _ _ _ hs _ e | (split at e <;> first | exact keeps_rowOp _ _ _ _ _ hs _ e | (injection e with e; subst e)) | (injection e with e; subst e) | skip
  repeat' (with_reducible first | assumption | (show ∀ _, _ → _; apply keeps_rowOp) | split | dsimp only | simp only [Keeps.upd_iff])

theorem keeps_execCommit {s0 : State} (a : Actor) (n : Nat) (v : DVal) (s : State) (hs : Keeps s0 s) :
    ∀ z, (execCommit a n v s) = .next z → Keeps s0 z := by
  intro z e
  unfold execCommit at e
  try dsimp only at e
  first | exact keeps_rowOp _ _ _ _ _ hs _ e | (split at e <;> first | exact keeps_rowOp _ _ _ _ _ hs _ e | (injection e with e; subst e)) | (injection e with e; subst e) | skip
  repeat' (with_reducible first | assumption | (show ∀ _, _ → _; apply keeps_rowOp) | split | dsimp only | simp only [Keeps.upd_iff])

theorem keeps_execSlotIdleClose {s0 : State} (n : Nat) (s : State) (hs : Keeps s0 s) :
    ∀ z, (execSlotIdleClose n s) = .next z → Keeps s0 z := by
  intro z e
  unfold execSlotIdleClose at e
  try dsimp only at e
  first | (split at e <;> first | (injection e with e; subst e)) | (injection e with e; subst e) | skip
  repeat' (with_reducible first | assumption | apply keeps_onXslot | split | dsimp only | simp only [Keeps.upd_iff])

theorem keeps_execRemove {s0 : State} (a : Actor) (v : DVal) (s : State) (hs : Keeps s0 s) :
    ∀ z, (execRemove a v s) = .next z → Keeps s0 z := by
  intro z e
  unfold execRemove at e
  try dsimp only at e
  first | exact keeps_rowOp _ _ _ _ _ hs _ e | (split at e <;> first | exact keeps_rowOp _ _ _ _ _ hs _ e | (injection e with e; subst e)) | (injection e with e; subst e) | skip
  repeat' (with_reducible first | assumption | (show ∀ _, _ → _; apply keeps_rowOp) | split | dsimp only | simp only [Keeps.upd_iff])

theorem keeps_execReplan {s0 : State} (a : Actor) (v : DVal) (s : State) (hs : Keeps s0 s) :
    ∀ z, (execReplan a v s) = .next z → Keeps s0 z := by
  intro z e
  unfold execReplan at e
  try dsimp only at e
  first | exact keeps_rowOp _ _ _ _ _ hs _ e | (split at e <;> first | exact keeps_rowOp _ _ _ _ _ hs _ e | (injection e with e; subst e)) | (injection e with e; subst e) | skip
  repeat' (with_reducible first | assumption | (show ∀ _, _ → _; apply keeps_rowOp) | split | dsimp only | simp only [Keeps.upd_iff])

theorem keeps_execOperatorRoot {s0 : State} (a : Actor) (v : DVal) (s : State) (hs : Keeps s0 s) :
    ∀ z, (execOperatorRoot a v s) = .next z → Keeps s0 z := by
  intro z e
  unfold execOperatorRoot at e
  try dsimp only at e
  first | exact keeps_rowOp _ _ _ _ _ hs _ e | (split at e <;> first | exact keeps_rowOp _ _ _ _ _ hs _ e | (injection e with e; subst e)) | (injection e with e; subst e) | skip
  repeat' (with_reducible first | assumption | (show ∀ _, _ → _; apply keeps_rowOp) | split | dsimp only | simp only [Keeps.upd_iff])

theorem keeps_execNonce {s0 : State} (a : Actor) (v : DVal) (s : State) (hs : Keeps s0 s) :
    ∀ z, (execNonce a v s) = .next z → Keeps s0 z := by
  intro z e
  unfold execNonce at e
  try dsimp only at e
  first | exact keeps_rowOp _ _ _ _ _ hs _ e | (split at e <;> first | exact keeps_rowOp _ _ _ _ _ hs _ e | (injection e with e; subst e)) | (injection e with e; subst e) | skip
  repeat' (with_reducible first | assumption | (show ∀ _, _ → _; apply keeps_rowOp) | split | dsimp only | simp only [Keeps.upd_iff])

theorem keeps_execReport {s0 : State} (a : Actor) (s : State) (hs : Keeps s0 s) :
    ∀ z, (execReport a s) = .next z → Keeps s0 z := by
  intro z e
  unfold execReport at e
  try dsimp only at e
  first | exact keeps_rowOp _ _ _ _ _ hs _ e | (split at e <;> first | exact keeps_rowOp _ _ _ _ _ hs _ e | (injection e with e; subst e)) | (injection e with e; subst e) | skip
  repeat' (with_reducible first | assumption | (show ∀ _, _ → _; apply keeps_rowOp) | split | dsimp only | simp only [Keeps.upd_iff])

theorem keeps_execPsk {s0 : State} (a : Actor) (t : Nat) (v : DVal) (s : State) (hs : Keeps s0 s) :
    ∀ z, (execPsk a t v s) = .next z → Keeps s0 z := by
  intro z e
  unfold execPsk at e
  try dsimp only at e
  first | exact keeps_rowOp _ _ _ _ _ hs _ e | (split at e <;> first | exact keeps_rowOp _ _ _ _ _ hs _ e | (injection e with e; subst e)) | (injection e with e; subst e) | skip
  repeat' (with_reducible first | assumption | (show ∀ _, _ → _; apply keeps_rowOp) | split | dsimp only | simp only [Keeps.upd_iff])

theorem keeps_execDebugMode {s0 : State} (a : Actor) (v : DVal) (s : State) (hs : Keeps s0 s) :
    ∀ z, (execDebugMode a v s) = .next z → Keeps s0 z := by
  intro z e
  unfold execDebugMode at e
  try dsimp only at e
  first | exact keeps_rowOp _ _ _ _ _ hs _ e | (split at e <;> first | exact keeps_rowOp _ _ _ _ _ hs _ e | (injection e with e; subst e)) | (injection e with e; subst e) | skip
  repeat' (with_reducible first | assumption | (show ∀ _, _ → _; apply keeps_rowOp) | split | dsimp only | simp only [Keeps.upd_iff])

theorem keeps_execConfirm {s0 : State} (a : Actor) (v : DVal) (s : State) (hs : Keeps s0 s) :
    ∀ z, (execConfirm a v s) = .next z → Keeps s0 z := by
  intro z e
  unfold execConfirm at e
  try dsimp only at e
  first | exact keeps_rowOp _ _ _ _ _ hs _ e | (split at e <;> first | exact keeps_rowOp _ _ _ _ _ hs _ e | (injection e with e; subst e)) | (injection e with e; subst e) | skip
  repeat' (with_reducible first | assumption | (show ∀ _, _ → _; apply keeps_rowOp) | split | dsimp only | simp only [Keeps.upd_iff])

theorem keeps_scanWrite {s0 : State} (addr : Nat) (v : Byte) (s : State) (hs : Keeps s0 s) :
    Keeps s0 (scanWrite addr v s) := by
  unfold scanWrite
  repeat' (with_reducible first | assumption | apply keeps_freshCheck | apply keeps_memWrite | split | dsimp only | simp only [Keeps.upd_iff])

theorem keeps_tapOut {s0 : State} (l : List Nat) (s : State) (hs : Keeps s0 s) :
    Keeps s0 (tapOut l s) := by
  unfold tapOut
  repeat' (with_reducible first | assumption | split | dsimp only | simp only [Keeps.upd_iff])

theorem keeps_execJtagAccess {s0 : State} (op : JtagOp) (s : State) (hs : Keeps s0 s) :
    ∀ z, (execJtagAccess op s) = .next z → Keeps s0 z := by
  intro z e
  unfold execJtagAccess at e
  try dsimp only at e
  first | (split at e <;> first | (injection e with e; subst e)) | (injection e with e; subst e) | skip
  repeat' (with_reducible first | assumption | apply keeps_draw | apply keeps_scanWrite | apply keeps_tapOut | apply keeps_whenS | (intro _) | refine Keeps.ite ?_ ?_ | split | dsimp only | simp only [Keeps.upd_iff])

theorem keeps_execConsoleInput {s0 : State} (b : Bytes) (s : State) (hs : Keeps s0 s) :
    ∀ z, (execConsoleInput b s) = .next z → Keeps s0 z := by
  intro z e
  unfold execConsoleInput at e
  try dsimp only at e
  first | (split at e <;> first | (injection e with e; subst e)) | (injection e with e; subst e) | skip
  repeat' (with_reducible first | assumption | split | dsimp only | simp only [Keeps.upd_iff])

end Sys2Proof.Machine
end

