-- ==== Sys2Proof/Laws/KeepChain.lean ====
section
/-! SUPPORT. KeepChain: each operation of Machine/Chain.lean keeps the queue, the canonical form of memory and the
order of the free values (`Keeps`). -/
namespace Sys2Proof.Machine
set_option Elab.async false
set_option linter.all false

theorem keeps_hearFrames {s0 : State} (k : Nat) (s : State) (hs : Keeps s0 s) :
    Keeps s0 (hearFrames k s) := by
  unfold hearFrames
  repeat' (with_reducible first | assumption | apply keeps_boost | apply keeps_bumpBy | split | dsimp only | simp only [Keeps.upd_iff])

theorem keeps_ignoreChain {s0 : State} (s : State) (hs : Keeps s0 s) :
    Keeps s0 (ignoreChain s) := by
  unfold ignoreChain
  repeat' (with_reducible first | assumption | apply keeps_bump | split | dsimp only | simp only [Keeps.upd_iff])

theorem keeps_execFramesIgnored {s0 : State} (_reason : Nat) (s : State) (hs : Keeps s0 s) :
    ∀ z, (execFramesIgnored _reason s) = .next z → Keeps s0 z := by
  intro z e
  unfold execFramesIgnored at e
  try dsimp only at e
  first | (split at e <;> first | (injection e with e; subst e)) | (injection e with e; subst e) | skip
  repeat' (with_reducible first | assumption | apply keeps_boost | apply keeps_ignoreChain | split | dsimp only | simp only [Keeps.upd_iff])

theorem keeps_execChainTransferExpiry {s0 : State} (_id : Nat) (s : State) (hs : Keeps s0 s) :
    ∀ z, (execChainTransferExpiry _id s) = .next z → Keeps s0 z := by
  intro z e
  unfold execChainTransferExpiry at e
  try dsimp only at e
  first | (split at e <;> first | (injection e with e; subst e)) | (injection e with e; subst e) | skip
  repeat' (with_reducible first | assumption | apply keeps_draw | apply keeps_hearFrames | apply keeps_ignoreChain | split | dsimp only | simp only [Keeps.upd_iff])

theorem keeps_execBusOff {s0 : State} (s : State) (hs : Keeps s0 s) :
    ∀ z, (execBusOff s) = .next z → Keeps s0 z := by
  intro z e
  unfold execBusOff at e
  try dsimp only at e
  first | (split at e <;> first | (injection e with e; subst e)) | (injection e with e; subst e) | skip
  repeat' (with_reducible first | assumption | apply keeps_bump | split | dsimp only | simp only [Keeps.upd_iff])

theorem keeps_execBusOffRecovery {s0 : State} (s : State) (hs : Keeps s0 s) :
    ∀ z, (execBusOffRecovery s) = .next z → Keeps s0 z := by
  intro z e
  unfold execBusOffRecovery at e
  try dsimp only at e
  first | (split at e <;> first | (injection e with e; subst e)) | (injection e with e; subst e) | skip
  repeat' (with_reducible first | assumption | split | dsimp only | simp only [Keeps.upd_iff])

theorem keeps_abandon {s0 : State} (s : State) (hs : Keeps s0 s) :
    Keeps s0 (abandon s) := by
  unfold abandon
  repeat' (with_reducible first | assumption | apply keeps_bump | split | dsimp only | simp only [Keeps.upd_iff])

theorem keeps_closeChain {s0 : State} (sid : Nat) (s : State) (hs : Keeps s0 s) :
    Keeps s0 (closeChain sid s) := by
  unfold closeChain
  repeat' (with_reducible first | assumption | split | dsimp only | simp only [Keeps.upd_iff])

theorem keeps_dropChainOps {s0 : State} (s : State) (hs : Keeps s0 s) :
    Keeps s0 (dropChainOps s) := by
  unfold dropChainOps
  repeat' (with_reducible first | assumption | split | dsimp only | simp only [Keeps.upd_iff])

theorem keeps_execEnumReset {s0 : State} (s : State) (hs : Keeps s0 s) :
    ∀ z, (execEnumReset s) = .next z → Keeps s0 z := by
  intro z e
  unfold execEnumReset at e
  try dsimp only at e
  first | (split at e <;> first | (injection e with e; subst e)) | (injection e with e; subst e) | skip
  repeat' (with_reducible first | assumption | apply keeps_closeChain | apply keeps_dirSet | apply keeps_dropAlerts | apply keeps_dropChainOps | apply keeps_foldS | apply keeps_hearFrames | split | dsimp only | simp only [Keeps.upd_iff])

theorem keeps_execEnumOffer {s0 : State} (addr : Nat) (version : Nat) (s : State) (hs : Keeps s0 s) :
    ∀ z, (execEnumOffer addr version s) = .next z → Keeps s0 z := by
  intro z e
  unfold execEnumOffer at e
  try dsimp only at e
  first | (split at e <;> first | (injection e with e; subst e)) | (injection e with e; subst e) | skip
  repeat' (with_reducible first | assumption | apply keeps_chainSend | apply keeps_hearFrames | split | dsimp only | simp only [Keeps.upd_iff])

theorem keeps_takeAddress {s0 : State} (addr : Nat) (version : Nat) (s : State) (hs : Keeps s0 s) :
    Keeps s0 (takeAddress addr version s) := by
  unfold takeAddress
  repeat' (with_reducible first | assumption | apply keeps_dirSet | split | dsimp only | simp only [Keeps.upd_iff])

theorem keeps_execEnumConfirm {s0 : State} (addr : Nat) (version : Nat) (ident : Bytes) (s : State) (hs : Keeps s0 s) :
    ∀ z, (execEnumConfirm addr version ident s) = .next z → Keeps s0 z := by
  intro z e
  unfold execEnumConfirm at e
  try dsimp only at e
  first | (split at e <;> first | (injection e with e; subst e)) | (injection e with e; subst e) | skip
  repeat' (with_reducible first | assumption | apply keeps_abandon | apply keeps_hearFrames | apply keeps_takeAddress | split | dsimp only | simp only [Keeps.upd_iff])

theorem keeps_execEnumConfirmTimeout {s0 : State} (s : State) (hs : Keeps s0 s) :
    ∀ z, (execEnumConfirmTimeout s) = .next z → Keeps s0 z := by
  intro z e
  unfold execEnumConfirmTimeout at e
  try dsimp only at e
  first | (split at e <;> first | (injection e with e; subst e)) | (injection e with e; subst e) | skip
  repeat' (with_reducible first | assumption | apply keeps_abandon | split | dsimp only | simp only [Keeps.upd_iff])

theorem keeps_execMgtEnumIn {s0 : State} (at_ : Nat) (level : Bool) (s : State) (hs : Keeps s0 s) :
    ∀ z, (execMgtEnumIn at_ level s) = .next z → Keeps s0 z := by
  intro z e
  unfold execMgtEnumIn at e
  try dsimp only at e
  first | (split at e <;> first | (injection e with e; subst e)) | (injection e with e; subst e) | skip
  repeat' (with_reducible first | assumption | apply keeps_abandon | apply keeps_atPin | apply keeps_whenS | split | dsimp only | simp only [Keeps.upd_iff])

theorem keeps_onMessage {s0 : State} (m : ChainMsg) (most : Nat) (f : State → State) (s : State) (hf : ∀ u, Keeps s0 u → Keeps s0 (f u)) (hs : Keeps s0 s) :
    Keeps s0 (onMessage m most f s) := by
  unfold onMessage
  repeat' (with_reducible first | assumption | apply keeps_hearFrames | apply keeps_ignoreChain | apply hf | split | dsimp only | simp only [Keeps.upd_iff])

theorem keeps_onChainSess {s0 : State} (sid : Nat) (f : CSess → CSess) (s : State) (hs : Keeps s0 s) :
    Keeps s0 (onChainSess sid f s) := by
  unfold onChainSess
  repeat' (with_reducible first | assumption | split | dsimp only | simp only [Keeps.upd_iff])

theorem keeps_acceptChain {s0 : State} (m : ChainMsg) (wr : Option DVal) (s : State) (hs : Keeps s0 s) :
    Keeps s0 (acceptChain m wr s) := by
  unfold acceptChain
  repeat' (with_reducible first | assumption | apply keeps_onChainSess | apply keeps_optS | apply keeps_takeOp | (intro _) | refine Keeps.ite ?_ ?_ | split | dsimp only | simp only [Keeps.upd_iff])

theorem keeps_chainRequest {s0 : State} (m : ChainMsg) (wr : Option DVal) (s : State) (hs : Keeps s0 s) :
    Keeps s0 (chainRequest m wr s) := by
  unfold chainRequest
  repeat' (with_reducible first | assumption | apply keeps_acceptChain | apply keeps_onChainSess | apply keeps_respond | split | dsimp only | simp only [Keeps.upd_iff])

theorem keeps_execChainRead {s0 : State} (m : ChainMsg) (s : State) (hs : Keeps s0 s) :
    ∀ z, (execChainRead m s) = .next z → Keeps s0 z := by
  intro z e
  unfold execChainRead at e
  try dsimp only at e
  first | (split at e <;> first | (injection e with e; subst e)) | (injection e with e; subst e) | skip
  repeat' (with_reducible first | assumption | apply keeps_chainRequest | apply keeps_onMessage | split | dsimp only | simp only [Keeps.upd_iff])

theorem keeps_execChainWrite {s0 : State} (m : ChainMsg) (s : State) (hs : Keeps s0 s) :
    ∀ z, (execChainWrite m s) = .next z → Keeps s0 z := by
  intro z e
  unfold execChainWrite at e
  try dsimp only at e
  first | (split at e <;> first | (injection e with e; subst e)) | (injection e with e; subst e) | skip
  repeat' (with_reducible first | assumption | apply keeps_chainRequest | apply keeps_onMessage | split | dsimp only | simp only [Keeps.upd_iff])

theorem keeps_execClose {s0 : State} (m : ChainMsg) (s : State) (hs : Keeps s0 s) :
    ∀ z, (execClose m s) = .next z → Keeps s0 z := by
  intro z e
  unfold execClose at e
  try dsimp only at e
  first | (split at e <;> first | (injection e with e; subst e)) | (injection e with e; subst e) | skip
  repeat' (with_reducible first | assumption | apply keeps_closeChain | apply keeps_onMessage | apply keeps_optS | (intro _) | refine Keeps.ite ?_ ?_ | split | dsimp only | simp only [Keeps.upd_iff])

theorem keeps_execChainSessionIdle {s0 : State} (sid : Nat) (s : State) (hs : Keeps s0 s) :
    ∀ z, (execChainSessionIdle sid s) = .next z → Keeps s0 z := by
  intro z e
  unfold execChainSessionIdle at e
  try dsimp only at e
  first | (split at e <;> first | (injection e with e; subst e)) | (injection e with e; subst e) | skip
  repeat' (with_reducible first | assumption | apply keeps_closeChain | split | dsimp only | simp only [Keeps.upd_iff])

theorem keeps_sendSession {s0 : State} (m : ChainMsg) (b : Bytes) (s : State) (hs : Keeps s0 s) :
    Keeps s0 (sendSession m b s) := by
  unfold sendSession
  repeat' (with_reducible first | assumption | apply keeps_chainSend | split | dsimp only | simp only [Keeps.upd_iff])

theorem keeps_refuseChain {s0 : State} (m : ChainMsg) (p : Bytes) (status : Nat) (s : State) (hs : Keeps s0 s) :
    Keeps s0 (refuseChain m p status s) := by
  unfold refuseChain
  repeat' (with_reducible first | assumption | apply keeps_sendSession | split | dsimp only | simp only [Keeps.upd_iff])

theorem keeps_challengeChain {s0 : State} (m : ChainMsg) (p : Bytes) (v : Nat) (s : State) (hs : Keeps s0 s) :
    Keeps s0 (challengeChain m p v s) := by
  unfold challengeChain
  repeat' (with_reducible first | assumption | apply keeps_draw | apply keeps_sendSession | split | dsimp only | simp only [Keeps.upd_iff])

theorem keeps_helloChain {s0 : State} (m : ChainMsg) (p : Bytes) (s : State) (hs : Keeps s0 s) :
    Keeps s0 (helloChain m p s) := by
  unfold helloChain
  repeat' (with_reducible first | assumption | apply keeps_challengeChain | apply keeps_refuseChain | split | dsimp only | simp only [Keeps.upd_iff])

theorem keeps_openChain {s0 : State} (m : ChainMsg) (c : Chal) (p : Bytes) (lv : Level) (t : Nat) (s : State) (hs : Keeps s0 s) :
    Keeps s0 (openChain m c p lv t s) := by
  unfold openChain
  repeat' (with_reducible first | assumption | apply keeps_sendSession | split | dsimp only | simp only [Keeps.upd_iff])

theorem keeps_responseChain {s0 : State} (m : ChainMsg) (p : Bytes) (s : State) (hs : Keeps s0 s) :
    Keeps s0 (responseChain m p s) := by
  unfold responseChain
  repeat' (with_reducible first | assumption | apply keeps_dropChal | apply keeps_openChain | apply keeps_refuseChain | split | dsimp only | simp only [Keeps.upd_iff])

theorem keeps_execSession {s0 : State} (m : ChainMsg) (s : State) (hs : Keeps s0 s) :
    ∀ z, (execSession m s) = .next z → Keeps s0 z := by
  intro z e
  unfold execSession at e
  try dsimp only at e
  first | (split at e <;> first | (injection e with e; subst e)) | (injection e with e; subst e) | skip
  repeat' (with_reducible first | assumption | apply keeps_helloChain | apply keeps_ignoreChain | apply keeps_onMessage | apply keeps_refuseChain | apply keeps_responseChain | (intro _) | refine Keeps.ite ?_ ?_ | split | dsimp only | simp only [Keeps.upd_iff])

theorem keeps_ackAlerts {s0 : State} (n : Nat) (s : State) (hs : Keeps s0 s) :
    Keeps s0 (ackAlerts n s) := by
  unfold ackAlerts
  exact keeps_autoRemove _ (Keeps.upd (u := s) hs (fun w => w) (List.prefix_refl _) (List.prefix_refl _) (List.prefix_refl _)
    (by simp) (Nat.le_refl _) (List.length_filter_le _ _) (Nat.le_refl _) (Nat.le_refl _) (Nat.le_refl _) (Nat.le_refl _))

theorem keeps_execAlertAck {s0 : State} (n : Nat) (s : State) (hs : Keeps s0 s) :
    ∀ z, (execAlertAck n s) = .next z → Keeps s0 z := by
  intro z e
  unfold execAlertAck at e
  try dsimp only at e
  first | (split at e <;> first | (injection e with e; subst e)) | (injection e with e; subst e) | skip
  repeat' (with_reducible first | assumption | apply keeps_ackAlerts | apply keeps_hearFrames | split | dsimp only | simp only [Keeps.upd_iff])

theorem keeps_resendAlert {s0 : State} (a : Alert) (s : State) (hs : Keeps s0 s) :
    Keeps s0 (resendAlert a s) := by
  unfold resendAlert
  repeat' (with_reducible first | assumption | exact Keeps.refl _ | apply keeps_chainSend | (intro _) | refine Keeps.snd (by assumption) ?_ | refine Keeps.snd3 (by assumption) ?_ | refine Keeps.snd4 (by assumption) ?_ | refine Keeps.some1 (by assumption) ?_ | refine Keeps.some2 (by assumption) ?_ | refine Keeps.some3 (by assumption) ?_ | refine Keeps.fst (by assumption) ?_ | refine Keeps.ite ?_ ?_ | refine Keeps.ite2 ?_ ?_ | refine Keeps.ite3 ?_ ?_ | split | dsimp only | simp only [Keeps.upd_iff, List.length_map] | simp only [Keeps.upd_iff, length_updFirst] | simp only [Keeps.upd_iff])

theorem keeps_execAlertResend {s0 : State} (s : State) (hs : Keeps s0 s) :
    ∀ z, (execAlertResend s) = .next z → Keeps s0 z := by
  intro z e
  unfold execAlertResend at e
  try dsimp only at e
  first | (split at e <;> first | (injection e with e; subst e)) | (injection e with e; subst e) | skip
  repeat' (with_reducible first | assumption | apply keeps_foldS | apply keeps_resendAlert | split | dsimp only | simp only [Keeps.upd_iff])

end Sys2Proof.Machine
end

