-- ==== Sys2Proof/Laws/KeepRv64.lean ====
section
/-! SUPPORT. KeepRv64: each operation of Machine/Rv64.lean keeps the queue, the canonical form of memory and the
order of the free values (`Keeps`). -/
namespace Sys2Proof.Machine
set_option Elab.async false
set_option linter.all false

theorem keeps_goState {s0 : State} (o : Out) (s : State) (ho : ∀ z, o = .next z → Keeps s0 z) (hs : Keeps s0 s) :
    Keeps s0 (goState o s) := by
  unfold goState; split
  · exact ho _ rfl
  · exact hs

theorem keeps_putX {s0 : State} (th : Nat) (len : Nat) (rd : Nat) (w : W32) (r : Option Int) (s : State) (hs : Keeps s0 s) :
    Keeps s0 (putX th len rd w r s) := by
  unfold putX
  repeat' (with_reducible first | assumption | apply keeps_illegal | apply keeps_onThread | split | dsimp only | simp only [Keeps.upd_iff])

theorem keeps_jump {s0 : State} (th : Nat) (len : Nat) (rd : Nat) (target : Nat) (s : State) (hs : Keeps s0 s) :
    Keeps s0 (jump th len rd target s) := by
  unfold jump
  repeat' (with_reducible first | assumption | apply keeps_onThread | split | dsimp only | simp only [Keeps.upd_iff])

theorem keeps_putF {s0 : State} (th : Nat) (len : Nat) (rd : Nat) (f : Fmt) (r : Nat × Nat) (s : State) (hs : Keeps s0 s) :
    Keeps s0 (putF th len rd f r s) := by
  unfold putF
  repeat' (with_reducible first | assumption | apply keeps_onThread | split | dsimp only | simp only [Keeps.upd_iff])

theorem keeps_putXF {s0 : State} (th : Nat) (len : Nat) (rd : Nat) (v : Int) (fl : Nat) (s : State) (hs : Keeps s0 s) :
    Keeps s0 (putXF th len rd v fl s) := by
  unfold putXF
  repeat' (with_reducible first | assumption | apply keeps_onThread | split | dsimp only | simp only [Keeps.upd_iff])

theorem keeps_opFp {s0 : State} (th : Nat) (len : Nat) (w : Nat) (f : Fmt) (s : State) (hs : Keeps s0 s) :
    Keeps s0 (opFp th len w f s) := by
  unfold opFp
  repeat' (with_reducible first | assumption | apply keeps_illegal | apply keeps_onThread | apply keeps_putF | apply keeps_putXF | split | dsimp only | simp only [Keeps.upd_iff])

theorem keeps_opFma {s0 : State} (th : Nat) (len : Nat) (w : Nat) (op : Nat) (s : State) (hs : Keeps s0 s) :
    Keeps s0 (opFma th len w op s) := by
  unfold opFma
  repeat' (with_reducible first | assumption | apply keeps_illegal | apply keeps_putF | split | dsimp only | simp only [Keeps.upd_iff])

theorem keeps_doVset {s0 : State} (th : Nat) (len : Nat) (rd : Nat) (v : Nat) (avl : Option Nat) (s : State) (hs : Keeps s0 s) :
    Keeps s0 (doVset th len rd v avl s) := by
  unfold doVset
  repeat' (with_reducible first | assumption | apply keeps_onThread | split | dsimp only | simp only [Keeps.upd_iff])

theorem keeps_opVset {s0 : State} (th : Nat) (len : Nat) (w : Nat) (s : State) (hs : Keeps s0 s) :
    Keeps s0 (opVset th len w s) := by
  unfold opVset
  repeat' (with_reducible first | assumption | apply keeps_doVset | apply keeps_illegal | split | dsimp only | simp only [Keeps.upd_iff])

theorem keeps_vFinish {s0 : State} (th : Nat) (len : Nat) (w : Nat) (r : Option Thread) (s : State) (hs : Keeps s0 s) :
    Keeps s0 (vFinish th len w r s) := by
  unfold vFinish
  repeat' (with_reducible first | assumption | apply keeps_illegal | apply keeps_onThread | split | dsimp only | simp only [Keeps.upd_iff])

theorem keeps_opVecF {s0 : State} (th : Nat) (len : Nat) (w : Nat) (s : State) (hs : Keeps s0 s) :
    Keeps s0 (opVecF th len w s) := by
  unfold opVecF
  repeat' (with_reducible first | assumption | apply keeps_draw | apply keeps_illegal | apply keeps_vFinish | split | dsimp only | simp only [Keeps.upd_iff])

theorem keeps_opVec {s0 : State} (th : Nat) (len : Nat) (w : Nat) (s : State) (hs : Keeps s0 s) :
    Keeps s0 (opVec th len w s) := by
  unfold opVec
  repeat' (with_reducible first | assumption | apply keeps_illegal | apply keeps_opVecF | apply keeps_opVset | apply keeps_vFinish | split | dsimp only | simp only [Keeps.upd_iff])

theorem keeps_vLoadsFirst {s0 : State} (th : Nat) (x1 : List (Nat × Nat × Nat × Nat)) (x2 : State) (hx2 : Keeps s0 x2) :
    Keeps s0 (vLoadsFirst th x1 x2).2 := by
  induction x1 generalizing th x2 with
  | nil =>
    unfold vLoadsFirst
    all_goals try dsimp only
    repeat' (with_reducible first | assumption | exact Keeps.refl _ | apply keeps_loadAcc | apply keeps_onThread | (intro _) | refine Keeps.snd (by assumption) ?_ | refine Keeps.snd3 (by assumption) ?_ | refine Keeps.snd4 (by assumption) ?_ | refine Keeps.some1 (by assumption) ?_ | refine Keeps.some2 (by assumption) ?_ | refine Keeps.some3 (by assumption) ?_ | refine Keeps.fst (by assumption) ?_ | refine Keeps.ite ?_ ?_ | refine Keeps.ite2 ?_ ?_ | refine Keeps.ite3 ?_ ?_ | split | dsimp only | simp only [Keeps.upd_iff, List.length_map] | simp only [Keeps.upd_iff, length_updFirst] | simp only [Keeps.upd_iff])
  | cons a t ih =>
    unfold vLoadsFirst
    all_goals try dsimp only
    repeat' (with_reducible first | assumption | exact Keeps.refl _ | apply keeps_loadAcc | apply keeps_onThread | with_reducible apply ih | (intro _) | refine Keeps.snd (by assumption) ?_ | refine Keeps.snd3 (by assumption) ?_ | refine Keeps.snd4 (by assumption) ?_ | refine Keeps.some1 (by assumption) ?_ | refine Keeps.some2 (by assumption) ?_ | refine Keeps.some3 (by assumption) ?_ | refine Keeps.fst (by assumption) ?_ | refine Keeps.ite ?_ ?_ | refine Keeps.ite2 ?_ ?_ | refine Keeps.ite3 ?_ ?_ | split | dsimp only | simp only [Keeps.upd_iff, List.length_map] | simp only [Keeps.upd_iff, length_updFirst] | simp only [Keeps.upd_iff])

theorem keeps_doLoadFirst {s0 : State} (th : Nat) (len : Nat) (f : MemForm) (va : Nat) (s : State) (hs : Keeps s0 s) :
    Keeps s0 (doLoadFirst th len f va s) := by
  unfold doLoadFirst
  repeat' (with_reducible first | assumption | exact Keeps.refl _ | apply keeps_illegalForm | apply keeps_onThread | apply keeps_vLoadsFirst | (intro _) | refine Keeps.snd (by assumption) ?_ | refine Keeps.snd3 (by assumption) ?_ | refine Keeps.snd4 (by assumption) ?_ | refine Keeps.some1 (by assumption) ?_ | refine Keeps.some2 (by assumption) ?_ | refine Keeps.some3 (by assumption) ?_ | refine Keeps.fst (by assumption) ?_ | refine Keeps.ite ?_ ?_ | refine Keeps.ite2 ?_ ?_ | refine Keeps.ite3 ?_ ?_ | split | dsimp only | simp only [Keeps.upd_iff, List.length_map] | simp only [Keeps.upd_iff, length_updFirst] | simp only [Keeps.upd_iff])

theorem keeps_opAmo {s0 : State} (th : Nat) (len : Nat) (w : Nat) (s : State) (hs : Keeps s0 s) :
    Keeps s0 (opAmo th len w s) := by
  unfold opAmo
  repeat' (with_reducible first | assumption | apply keeps_doAmo | apply keeps_doLr | apply keeps_doSc | apply keeps_illegal | split | dsimp only | simp only [Keeps.upd_iff])

theorem keeps_doMret {s0 : State} (th : Nat) (s : State) (hs : Keeps s0 s) :
    Keeps s0 (doMret th s) := by
  unfold doMret
  repeat' (with_reducible first | assumption | apply keeps_onThread | split | dsimp only | simp only [Keeps.upd_iff])

theorem keeps_opSystem {s0 : State} (th : Nat) (len : Nat) (w : Nat) (s : State) (hs : Keeps s0 s) :
    Keeps s0 (opSystem th len w s) := by
  unfold opSystem
  repeat' (with_reducible first | assumption | apply keeps_doCsr | apply keeps_doEcall | apply keeps_doMret | apply keeps_illegal | apply keeps_machineTrap | apply keeps_onThread | split | dsimp only | simp only [Keeps.upd_iff])

theorem keeps_opEorus {s0 : State} (th : Nat) (w : Nat) (s : State) (hs : Keeps s0 s) :
    Keeps s0 (opEorus th w s) := by
  unfold opEorus
  repeat' (with_reducible first | assumption | (show ∀ _, _ → _; apply keeps_execDrain) | (show ∀ _, _ → _; apply keeps_execEcompact) | (show ∀ _, _ → _; apply keeps_execEdot) | (show ∀ _, _ → _; apply keeps_execEdotf) | (show ∀ _, _ → _; apply keeps_execEpost) | (show ∀ _, _ → _; apply keeps_execErescale) | (show ∀ _, _ → _; apply keeps_execEslReset) | (show ∀ _, _ → _; apply keeps_execEslmrg) | (show ∀ _, _ → _; apply keeps_execFloor) | (show ∀ _, _ → _; apply keeps_execFlush) | (show ∀ _, _ → _; apply keeps_execInsert) | (show ∀ _, _ → _; apply keeps_execInsertv) | (show ∀ _, _ → _; apply keeps_execInv) | (show ∀ _, _ → _; apply keeps_execWb) | apply keeps_goState | apply keeps_illegal | apply keeps_onIssue | split | dsimp only | simp only [Keeps.upd_iff])

theorem keeps_rvExec {s0 : State} (th : Nat) (len : Nat) (w : Nat) (s : State) (hs : Keeps s0 s) :
    Keeps s0 (rvExec th len w s) := by
  unfold rvExec
  repeat' (with_reducible first | assumption | apply keeps_doFence | apply keeps_doFenceI | apply keeps_doLoad | apply keeps_doLoadFirst | apply keeps_doStore | apply keeps_illegal | apply keeps_jump | apply keeps_onThread | apply keeps_opAmo | apply keeps_opFma | apply keeps_opFp | apply keeps_opSystem | apply keeps_opVec | apply keeps_putX | split | dsimp only | simp only [Keeps.upd_iff])

theorem keeps_rvWord {s0 : State} (th : Nat) (len : Nat) (w : Nat) (s : State) (hs : Keeps s0 s) :
    Keeps s0 (rvWord th len w s) := by
  unfold rvWord
  repeat' (with_reducible first | assumption | apply keeps_onRegs | apply keeps_opEorus | apply keeps_rvExec | split | dsimp only | simp only [Keeps.upd_iff])

theorem keeps_fillIline {s0 : State} (core : Nat) (a : Nat) (v : V512) (s : State) (hs : Keeps s0 s) :
    Keeps s0 (fillIline core a v s) := by
  unfold fillIline
  repeat' (with_reducible first | assumption | apply keeps_draw | split | dsimp only | simp only [Keeps.upd_iff])

theorem keeps_fetchHalf {s0 : State} (th : Nat) (va : Nat) (s : State) (hs : Keeps s0 s) :
    Keeps s0 (fetchHalf th va s).2.2 := by
  unfold fetchHalf
  repeat' (with_reducible first | assumption | apply keeps_cacheFill | apply keeps_fillIline | apply keeps_segMismatch | split | dsimp only | simp only [Keeps.upd_iff])

theorem keeps_rvStep {s0 : State} (th : Nat) (s : State) (hs : Keeps s0 s) :
    Keeps s0 (rvStep th s) := by
  unfold rvStep
  repeat' (with_reducible first | assumption | exact Keeps.refl _ | apply keeps_fetchHalf | apply keeps_illegal | apply keeps_onIssue | apply keeps_rvWord | apply keeps_takeFault | (intro _) | refine Keeps.snd (by assumption) ?_ | refine Keeps.snd3 (by assumption) ?_ | refine Keeps.snd4 (by assumption) ?_ | refine Keeps.some1 (by assumption) ?_ | refine Keeps.some2 (by assumption) ?_ | refine Keeps.some3 (by assumption) ?_ | refine Keeps.fst (by assumption) ?_ | refine Keeps.ite ?_ ?_ | refine Keeps.ite2 ?_ ?_ | refine Keeps.ite3 ?_ ?_ | split | dsimp only | simp only [Keeps.upd_iff, List.length_map] | simp only [Keeps.upd_iff, length_updFirst] | simp only [Keeps.upd_iff])

theorem keeps_execRv64gcInstruction {s0 : State} (th : Nat) (s : State) (hs : Keeps s0 s) :
    ∀ z, (execRv64gcInstruction th s) = .next z → Keeps s0 z := by
  intro z e
  unfold execRv64gcInstruction at e
  try dsimp only at e
  first | (split at e <;> first | (injection e with e; subst e)) | (injection e with e; subst e) | skip
  repeat' (with_reducible first | assumption | apply keeps_rvStep | split | dsimp only | simp only [Keeps.upd_iff])

end Sys2Proof.Machine
end

