-- ==== Sys2Proof/Laws/KeepTime.lean ====
section
/-! SUPPORT. KeepTime: each operation of Machine/Time.lean keeps the queue, the canonical form of memory and the
order of the free values (`Keeps`). -/
namespace Sys2Proof.Machine
set_option Elab.async false
set_option linter.all false

theorem keeps_moveTo {s0 : State} (c : Nat) (s : State) (hs : Keeps s0 s) :
    Keeps s0 (moveTo c s) := by
  unfold moveTo
  repeat' (with_reducible first | assumption | split | dsimp only | simp only [Keeps.upd_iff])

theorem keeps_resetRead {s0 : State} (p : Part) (s : State) (hs : Keeps s0 s) :
    Keeps s0 (resetRead p s) := by
  unfold resetRead
  repeat' (with_reducible first | assumption | apply keeps_answerFailed | apply keeps_dropPart | split | dsimp only | simp only [Keeps.upd_iff])

theorem keeps_resetUpdate {s0 : State} (p : Part) (s : State) (hs : Keeps s0 s) :
    Keeps s0 (resetUpdate p s) := by
  unfold resetUpdate
  repeat' (with_reducible first | assumption | apply keeps_ownStaged | apply keeps_refuseItem | apply keeps_unstage | split | dsimp only | simp only [Keeps.upd_iff])

theorem keeps_resetPart {s0 : State} (p : Part) (s : State) (hs : Keeps s0 s) :
    Keeps s0 (resetPart p s) := by
  unfold resetPart
  repeat' (with_reducible first | assumption | apply keeps_resetRead | apply keeps_resetUpdate | split | dsimp only | simp only [Keeps.upd_iff])

theorem keeps_resetLetters {s0 : State} (t : Nat) (s : State) (hs : Keeps s0 s) :
    Keeps s0 (resetLetters t s) := by
  unfold resetLetters
  repeat' (with_reducible first | assumption | apply keeps_bumpBy | split | dsimp only | simp only [Keeps.upd_iff])

theorem keeps_startReset {s0 : State} (t : Nat) (s : State) (hs : Keeps s0 s) :
    Keeps s0 (startReset t s) := by
  unfold startReset
  repeat' (with_reducible first | assumption | apply keeps_failReq | apply keeps_foldS | apply keeps_onNotes | apply keeps_onTenant | apply keeps_refillTenant | apply keeps_resetLetters | apply keeps_resetPart | (intro _) | refine Keeps.ite ?_ ?_ | split | dsimp only | simp only [Keeps.upd_iff])

theorem keeps_serveAgain {s0 : State} (t : Nat) (s : State) (hs : Keeps s0 s) :
    Keeps s0 (serveAgain t s) := by
  unfold serveAgain
  repeat' (with_reducible first | assumption | apply keeps_onTenant | split | dsimp only | simp only [Keeps.upd_iff])

theorem keeps_boundaryTenants {s0 : State} (s : State) (hs : Keeps s0 s) :
    Keeps s0 (boundaryTenants s) := by
  unfold boundaryTenants
  repeat' (with_reducible first | assumption | apply keeps_foldS | apply keeps_serveAgain | apply keeps_startReset | split | dsimp only | simp only [Keeps.upd_iff])

theorem keeps_finishReset {s0 : State} (t : Nat) (s : State) (hs : Keeps s0 s) :
    Keeps s0 (finishReset t s) := by
  unfold finishReset
  repeat' (with_reducible first | assumption | apply keeps_bump | apply keeps_closeSess | apply keeps_foldS | apply keeps_onNotes | apply keeps_onTenant | apply keeps_sendFreshNotes | split | dsimp only | simp only [Keeps.upd_iff])

theorem keeps_execResetDone {s0 : State} (t : Nat) (s : State) (hs : Keeps s0 s) :
    ∀ z, (execResetDone t s) = .next z → Keeps s0 z := by
  intro z e
  unfold execResetDone at e
  try dsimp only at e
  first | (split at e <;> first | (injection e with e; subst e)) | (injection e with e; subst e) | skip
  repeat' (with_reducible first | assumption | apply keeps_finishReset | split | dsimp only | simp only [Keeps.upd_iff])

theorem keeps_runCancel {s0 : State} (c : Req) (s : State) (hs : Keeps s0 s) :
    Keeps s0 (runCancel c s) := by
  unfold runCancel
  repeat' (with_reducible first | assumption | apply keeps_endCancel | apply keeps_failReq | split | dsimp only | simp only [Keeps.upd_iff])

theorem keeps_runCancels {s0 : State} (s : State) (hs : Keeps s0 s) :
    Keeps s0 (runCancels s) := by
  unfold runCancels
  repeat' (with_reducible first | assumption | apply keeps_foldS | apply keeps_runCancel | split | dsimp only | simp only [Keeps.upd_iff])

theorem keeps_admitOne {s0 : State} (r : Req) (s : State) (hs : Keeps s0 s) :
    Keeps s0 (admitOne r s) := by
  unfold admitOne
  repeat' (with_reducible first | assumption | apply keeps_bump | apply keeps_dropAsm | apply keeps_onReq | apply keeps_onSess | apply keeps_whenS | split | dsimp only | simp only [Keeps.upd_iff])

theorem keeps_admitPrio {s0 : State} (prio : Nat) (x1 : Nat) (x2 : Admission) (hx2 : Keeps s0 x2.st) :
    Keeps s0 (admitPrio prio x1 x2).st := by
  induction x1 generalizing prio x2 with
  | zero =>
    unfold admitPrio
    all_goals try dsimp only
    repeat' (with_reducible first | assumption | exact Keeps.refl _ | apply keeps_admitOne | (intro _) | refine Keeps.snd (by assumption) ?_ | refine Keeps.snd3 (by assumption) ?_ | refine Keeps.snd4 (by assumption) ?_ | refine Keeps.some1 (by assumption) ?_ | refine Keeps.some2 (by assumption) ?_ | refine Keeps.some3 (by assumption) ?_ | refine Keeps.fst (by assumption) ?_ | refine Keeps.foldlOf Admission.st ?_ ?_ | refine Keeps.ite ?_ ?_ | refine Keeps.ite2 ?_ ?_ | refine Keeps.ite3 ?_ ?_ | split | dsimp only | simp only [Keeps.upd_iff, List.length_map] | simp only [Keeps.upd_iff, length_updFirst] | simp only [Keeps.upd_iff])
  | succ n ih =>
    unfold admitPrio
    all_goals try dsimp only
    repeat' (with_reducible first | assumption | exact Keeps.refl _ | apply keeps_admitOne | with_reducible apply ih | (intro _) | refine Keeps.snd (by assumption) ?_ | refine Keeps.snd3 (by assumption) ?_ | refine Keeps.snd4 (by assumption) ?_ | refine Keeps.some1 (by assumption) ?_ | refine Keeps.some2 (by assumption) ?_ | refine Keeps.some3 (by assumption) ?_ | refine Keeps.fst (by assumption) ?_ | refine Keeps.foldlOf Admission.st ?_ ?_ | refine Keeps.ite ?_ ?_ | refine Keeps.ite2 ?_ ?_ | refine Keeps.ite3 ?_ ?_ | split | dsimp only | simp only [Keeps.upd_iff, List.length_map] | simp only [Keeps.upd_iff, length_updFirst] | simp only [Keeps.upd_iff])

theorem keeps_admission {s0 : State} (s : State) (hs : Keeps s0 s) :
    Keeps s0 (admission s).2 := by
  unfold admission
  repeat' (with_reducible first | assumption | apply keeps_admitOne | apply keeps_admitPrio | apply keeps_foldS | (intro _) | refine Keeps.foldlOf Admission.st ?_ ?_ | refine Keeps.ite ?_ ?_ | split | dsimp only | simp only [Keeps.upd_iff])

theorem keeps_formBatches {s0 : State} (rids : List Nat) (s : State) (hs : Keeps s0 s) :
    Keeps s0 (formBatches rids s) := by
  unfold formBatches
  repeat' (with_reducible first | assumption | apply keeps_foldS | apply keeps_formBatch | (intro _) | refine Keeps.ite ?_ ?_ | split | dsimp only | simp only [Keeps.upd_iff])

theorem keeps_quotaNote {s0 : State} (t : Nat) (row : Nat) (use : Nat) (quota : Nat) (s : State) (hs : Keeps s0 s) :
    Keeps s0 (quotaNote t row use quota s) := by
  unfold quotaNote
  repeat' (with_reducible first | assumption | apply keeps_thresholdNote | split | dsimp only | simp only [Keeps.upd_iff])

theorem keeps_quotaNotes {s0 : State} (t : Nat) (s : State) (hs : Keeps s0 s) :
    Keeps s0 (quotaNotes t s) := by
  unfold quotaNotes
  repeat' (with_reducible first | assumption | apply keeps_foldS | apply keeps_quotaNote | (intro _) | refine Keeps.ite ?_ ?_ | split | dsimp only | simp only [Keeps.upd_iff])

theorem keeps_kernelNotes {s0 : State} (s : State) (hs : Keeps s0 s) :
    Keeps s0 (kernelNotes s) := by
  unfold kernelNotes
  repeat' (with_reducible first | assumption | apply keeps_foldS | apply keeps_quotaNote | (intro _) | refine Keeps.ite ?_ ?_ | split | dsimp only | simp only [Keeps.upd_iff])

theorem keeps_renewBudgets {s0 : State} (s : State) (hs : Keeps s0 s) :
    Keeps s0 (renewBudgets s) := by
  unfold renewBudgets
  repeat' (with_reducible first | assumption | split | dsimp only | simp only [Keeps.upd_iff])

theorem keeps_boundarySettings {s0 : State} (s : State) (hs : Keeps s0 s) :
    Keeps s0 (boundarySettings s) := by
  unfold boundarySettings
  repeat' (with_reducible first | assumption | apply keeps_loadAreas | apply keeps_loadSegs | split | dsimp only | simp only [Keeps.upd_iff])

theorem keeps_boundaryMedia {s0 : State} (s : State) (hs : Keeps s0 s) :
    Keeps s0 (boundaryMedia s) := by
  unfold boundaryMedia
  repeat' (with_reducible first | assumption | apply keeps_boundaryDiscards | apply keeps_feedDiscards | apply keeps_foldS | apply keeps_gatherWrites | apply keeps_reloadRecords | apply keeps_salvageUnit | apply keeps_startCheckpoint | apply keeps_startFold | apply keeps_startGc | apply keeps_startRefresh | apply keeps_startWear | apply keeps_switchCopies | split | dsimp only | simp only [Keeps.upd_iff])

theorem keeps_boundaryPatches {s0 : State} (s : State) (hs : Keeps s0 s) :
    Keeps s0 (boundaryPatches s) := by
  unfold boundaryPatches
  repeat' (with_reducible first | assumption | apply keeps_reloadSketches | apply keeps_wantPatches | apply keeps_whenS | split | dsimp only | simp only [Keeps.upd_iff])

theorem keeps_boundaryPaths {s0 : State} (s : State) (hs : Keeps s0 s) :
    Keeps s0 (boundaryPaths s) := by
  unfold boundaryPaths
  repeat' (with_reducible first | assumption | apply keeps_applyAllTokens | apply keeps_applyUpdates | apply keeps_boundaryPatches | apply keeps_freeClosed | apply keeps_startFolds | split | dsimp only | simp only [Keeps.upd_iff])

theorem keeps_roundWork {s0 : State} (s : State) (hs : Keeps s0 s) :
    Keeps s0 (roundWork s) := by
  unfold roundWork
  repeat' (with_reducible first | assumption | apply keeps_admission | apply keeps_boundaryMedia | apply keeps_boundaryPaths | apply keeps_boundarySettings | apply keeps_boundaryTenants | apply keeps_countRounds | apply keeps_engageDetours | apply keeps_foldS | apply keeps_formBatches | apply keeps_movePaths | apply keeps_moveTabs | apply keeps_queueNotes | apply keeps_quotaNotes | apply keeps_renewBudgets | apply keeps_runCancels | apply keeps_startAttendPass | apply keeps_startKernels | split | dsimp only | simp only [Keeps.upd_iff])

theorem keeps_switchAll {s0 : State} (s : State) (hs : Keeps s0 s) :
    Keeps s0 (switchAll s) := by
  unfold switchAll
  repeat' (with_reducible first | assumption | apply keeps_foldS | apply keeps_switchGates | split | dsimp only | simp only [Keeps.upd_iff])

theorem keeps_execRoundBoundary {s0 : State} (s : State) (hs : Keeps s0 s) :
    ∀ z, (execRoundBoundary s) = .next z → Keeps s0 z := by
  intro z e
  unfold execRoundBoundary at e
  try dsimp only at e
  first | (split at e <;> first | (injection e with e; subst e)) | (injection e with e; subst e) | skip
  repeat' (with_reducible first | assumption | apply keeps_moveTo | apply keeps_queueNotes | apply keeps_roundWork | apply keeps_switchAll | split | dsimp only | simp only [Keeps.upd_iff])

theorem keeps_execFrameBoundary {s0 : State} (s : State) (hs : Keeps s0 s) :
    ∀ z, (execFrameBoundary s) = .next z → Keeps s0 z := by
  intro z e
  unfold execFrameBoundary at e
  try dsimp only at e
  first | (split at e <;> first | (injection e with e; subst e)) | (injection e with e; subst e) | skip
  repeat' (with_reducible first | assumption | apply keeps_moveTo | apply keeps_queueNotes | apply keeps_switchAll | apply keeps_wakeAll | apply keeps_whenS | split | dsimp only | simp only [Keeps.upd_iff])

theorem keeps_releaseReq {s0 : State} (r : Req) (s : State) (hs : Keeps s0 s) :
    Keeps s0 (releaseReq r s) := by
  unfold releaseReq
  repeat' (with_reducible first | assumption | apply keeps_endReq | apply keeps_movePaths | apply keeps_sendFinalists | split | dsimp only | simp only [Keeps.upd_iff])

theorem keeps_releaseAny {s0 : State} (p : Part) (s : State) (hs : Keeps s0 s) :
    Keeps s0 (releaseAny p s) := by
  unfold releaseAny
  repeat' (with_reducible first | assumption | apply keeps_dropPart | apply keeps_takeAnswer | apply keeps_treeInput | split | dsimp only | simp only [Keeps.upd_iff])

theorem keeps_execStrictPoint {s0 : State} (rid : Nat) (s : State) (hs : Keeps s0 s) :
    ∀ z, (execStrictPoint rid s) = .next z → Keeps s0 z := by
  intro z e
  unfold execStrictPoint at e
  try dsimp only at e
  first | (split at e <;> first | (injection e with e; subst e)) | (injection e with e; subst e) | skip
  repeat' (with_reducible first | assumption | apply keeps_movePaths | apply keeps_moveTo | apply keeps_releaseAny | apply keeps_releaseReq | split | dsimp only | simp only [Keeps.upd_iff])

theorem keeps_takeTemps {s0 : State} (temps : List Int) (s : State) (hs : Keeps s0 s) :
    Keeps s0 (takeTemps temps s) := by
  unfold takeTemps
  repeat' (with_reducible first | assumption | apply keeps_dirPut | apply keeps_foldS | apply keeps_onDieLog | (intro _) | refine Keeps.ite ?_ ?_ | split | dsimp only | simp only [Keeps.upd_iff])

theorem keeps_takeVolts {s0 : State} (s : State) (hs : Keeps s0 s) :
    Keeps s0 (takeVolts s) := by
  unfold takeVolts
  repeat' (with_reducible first | assumption | apply keeps_dirPut | apply keeps_draw | apply keeps_foldS | apply keeps_onDieLog | (intro _) | refine Keeps.ite ?_ ?_ | split | dsimp only | simp only [Keeps.upd_iff])

theorem keeps_controllerTick {s0 : State} (draw_ : Nat) (temps : List Int) (s : State) (hs : Keeps s0 s) :
    Keeps s0 (controllerTick draw_ temps s) := by
  unfold controllerTick
  repeat' (with_reducible first | assumption | apply keeps_boost | apply keeps_kernelNotes | apply keeps_powerTick | apply keeps_raiseGuard | split | dsimp only | simp only [Keeps.upd_iff])

theorem keeps_execManagementTick {s0 : State} (draw_ : Nat) (temps : List Int) (s : State) (hs : Keeps s0 s) :
    ∀ z, (execManagementTick draw_ temps s) = .next z → Keeps s0 z := by
  intro z e
  unfold execManagementTick at e
  try dsimp only at e
  first | (split at e <;> first | (injection e with e; subst e)) | (injection e with e; subst e) | skip
  repeat' (with_reducible first | assumption | apply keeps_controllerTick | apply keeps_dirSet | apply keeps_moveTo | apply keeps_takeTemps | apply keeps_takeVolts | split | dsimp only | simp only [Keeps.upd_iff])

end Sys2Proof.Machine
end

