-- ==== Sys2Proof/WellFormed.lean ====
section
/-! DEFINITION. WellFormed: what a command must satisfy to be one that the block can be sent: the ranges of its operands. -/
namespace Sys2Proof

/-! ### Ranges -/

/-- A thread number, 16 m + t (R29). -/
def thOk (th : Nat) : Bool := decide (th < 8192)
/-- A cluster number (R19). -/
def clOk (n : Nat) : Bool := decide (n < 32)
/-- A register number. -/
def regOk (r : Nat) : Bool := decide (r < 32)
/-- A tenant number (R324). -/
def tenOk (t : Nat) : Bool := decide (t < 64)
/-- A session number (R305). -/
def sidOk (n : Nat) : Bool := decide (0 < n) && decide (n < 2 ^ 32)
/-- A 12-bit signed displacement. -/
def immOk (i : Int) : Bool := decide (-2048 ≤ i) && decide (i < 2048)
/-- A subindex between two bounds. -/
def inSub (u lo hi : Nat) : Bool := decide (lo ≤ u) && decide (u ≤ hi)

/-! ### Operands -/

/-- A memory form names registers that exist and a size that the extension has. -/
def MemForm.wf : MemForm → Bool
  | .int n _ r => (n == 1 || n == 2 || n == 4 || n == 8) && regOk r
  | .fp n r => (n == 4 || n == 8) && regOk r
  | .vunit e nf _ v => (e == 1 || e == 2 || e == 4 || e == 8) && inSub nf 1 8 && regOk v
  | .vstride e nf rs2 _ v => (e == 1 || e == 2 || e == 4 || e == 8) && inSub nf 1 8 && regOk rs2 && regOk v
  | .vindex e nf vs2 _ v => (e == 1 || e == 2 || e == 4 || e == 8) && inSub nf 1 8 && regOk vs2 && regOk v
  | .vwhole n v => (n == 1 || n == 2 || n == 4 || n == 8) && regOk v
  | .vmask v => regOk v

/-- An actor's tenant and session fit their fields. -/
def Actor.wf (a : Actor) : Bool := tenOk a.tenant && decide (a.session < 2 ^ 32)

/-- A value fits the widest entry (R397). -/
def DVal.wf : DVal → Bool
  | .num n => decide (n < 2 ^ 64)
  | .blob b => decide (b.length < 2 ^ 32)

/-- A register write names a thread, a CSR and an object in range. -/
def RegTarget.wf : RegTarget → Bool
  | .csr th addr _ => thOk th && decide (addr < 4096)
  | .engine addr v => decide (addr < 2 ^ 40) && decide (v < 2 ^ 64)
  | .entry a obj v => a.wf && decide (obj < 2 ^ 24) && v.wf

/-- A host packet's fields fit (R298, R299). -/
def Packet.wf (p : Packet) : Bool :=
  decide (p.port < 8) && decide (p.src < 2 ^ (if p.v6 then 128 else 32)) && decide (p.sport < 65536) && decide (p.dscp < 64)
    && decide (p.udpLen < 65536) && decide (p.payload.length < 65536) && (p.tag.isEmpty || p.tag.length == 16)

/-- An address question's fields fit. -/
def NetAsk.wf (a : NetAsk) : Bool :=
  decide (a.target < 2 ^ (if a.v6 then 128 else 32)) && decide (a.src < 2 ^ (if a.v6 then 128 else 32))
    && a.vlan.all (fun v => decide (v < 4096))

/-- A fabric message's fields fit (R261, R263): a link, a slot of a frame, 32 inline bytes, whole flits of body. -/
def FabMsg.wf (m : FabMsg) : Bool :=
  decide (m.link < 36) && decide (m.slot < 2048) && decide (m.inl.length = 32) && decide (m.data.length ≤ 4096)

/-- A chain message's fields fit (Table 17-3). -/
def ChainMsg.wf (m : ChainMsg) : Bool :=
  decide (m.src < 128) && decide (m.xtag < 128) && decide (m.xlen < 2 ^ 32) && decide (m.blen < 65536)
    && decide (m.version < 256) && decide (m.flags < 256) && decide (m.req < 2 ^ 32) && decide (m.obj < 2 ^ 32)
    && decide (m.type < 256) && decide (m.status < 256) && decide (m.rsv < 65536) && (m.tag.isEmpty || m.tag.length == 16)

/-- A training result's fields fit (Table 11-3). -/
def TrainResult.wf (r : TrainResult) : Bool :=
  inSub r.generation 1 3 && decide (r.lanes < 256) && decide (r.neighbour < 4096)

/-- A channel's discovery names an interface and a number of LUNs (R226). -/
def ChanFound.wf (c : ChanFound) : Bool := decide (c.interface < 256) && decide (c.luns < 256) && decide (c.unused < 256)

/-- A cause of a halt names a class and a unit (R421). -/
def HaltCause.wf (c : HaltCause) : Bool := decide (c.cls < 256) && decide (c.source < 65536) && decide (c.location < 2 ^ 64)

/-- A test access names an address of the node. -/
def JtagOp.wf : JtagOp → Bool
  | .memRead a => decide (a < 2 ^ 42)
  | .memWrite a _ => decide (a < 2 ^ 42)
  | _ => true

/-- What a cold boot finds names a grade, five digests at most, stacks and banks that exist. -/
def BootInputs.wf (i : BootInputs) : Bool :=
  decide (i.grade < 256) && decide (i.digests.length ≤ 5) && i.stacksBad.all (fun k => decide (k < 16))
    && i.banksBad.all (fun b => decide (b < 16384))

/-! ### Commands -/

/-- A command is well formed. -/
def Instr.wf : Instr → Bool
  | .load th form rs1 imm => thOk th && regOk rs1 && immOk imm && form.wf
  | .store th form rs1 imm => thOk th && regOk rs1 && immOk imm && form.wf
  | .amo th _ bytes rd rs1 rs2 => thOk th && (bytes == 4 || bytes == 8) && regOk rd && regOk rs1 && regOk rs2
  | .lrSc th _ bytes rd rs1 rs2 => thOk th && (bytes == 4 || bytes == 8) && regOk rd && regOk rs1 && regOk rs2
  | .fence th pred succ => thOk th && decide (pred < 16) && decide (succ < 16)
  | .fenceI th => thOk th
  | .ecallExit th => thOk th
  | .prefetchFill cluster slot line => clOk cluster && decide (slot < 64) && decide (line < 2 ^ 34)
  | .remoteAccessTimeout th tag => thOk th && decide (0 < tag) && decide (tag < 2 ^ 31)
  | .estream th rd rs1 => thOk th && regOk rd && regOk rs1
  | .estwait th rd rs1 => thOk th && regOk rd && regOk rs1
  | .estrel th rd rs1 => thOk th && regOk rd && regOk rs1
  | .estop th rd rs1 => thOk th && regOk rd && regOk rs1
  | .escstatWrite th rd rs1 => thOk th && regOk rd && regOk rs1
  | .eslstatWrite th rd rs1 => thOk th && regOk rd && regOk rs1
  | .registerWrite t => t.wf
  | .wb th _ => thOk th
  | .flush th _ => thOk th
  | .inv th _ => thOk th
  | .edot th _ => thOk th
  | .edotf th _ => thOk th
  | .erescale th _ => thOk th
  | .insert th _ => thOk th
  | .insertv th _ => thOk th
  | .eslReset th _ => thOk th
  | .drain th _ => thOk th
  | .floor th _ => thOk th
  | .eslmrg th _ => thOk th
  | .ecompact th _ => thOk th
  | .epost th _ => thOk th
  | .erecv th rd rs1 => thOk th && regOk rd && regOk rs1
  | .ewait th rd rs1 => thOk th && regOk rd && regOk rs1
  | .ewaitLimit th => thOk th
  | .itemSteal cluster => clOk cluster
  | .budgetSpent core tenant => decide (core < 512) && tenOk tenant
  | .kernelRoundLimit _ => true
  | .cload th stack addr => thOk th && decide (stack < 16) && decide (addr < 2 ^ 64)
  | .circularLoadDone stack => decide (stack < 16)
  | .cstart th val => thOk th && decide (val < 2 ^ 64)
  | .cabort th stack val => thOk th && decide (stack < 16) && decide (val < 2 ^ 64)
  | .circularLaunch stack => decide (stack < 16)
  | .micEnd stack => decide (stack < 16)
  | .micStep stack => decide (stack < 16)
  | .micRepeat stack => decide (stack < 16)
  | .micLd stack => decide (stack < 16)
  | .micAnd stack => decide (stack < 16)
  | .micOr stack => decide (stack < 16)
  | .micXor stack => decide (stack < 16)
  | .micXnor stack => decide (stack < 16)
  | .micAndn stack => decide (stack < 16)
  | .micNot stack => decide (stack < 16)
  | .micMaj stack => decide (stack < 16)
  | .micFillq stack => decide (stack < 16)
  | .micFillt stack => decide (stack < 16)
  | .micWr stack => decide (stack < 16)
  | .micRchk stack => decide (stack < 16)
  | .micSeal stack => decide (stack < 16)
  | .micSealc stack => decide (stack < 16)
  | .completionRecord stack => decide (stack < 16)
  | .refresh stack => decide (stack < 16)
  | .refreshWatchdog stack => decide (stack < 16)
  | .roundBoundary => true
  | .frameBoundary => true
  | .sample => true
  | .managementTick _ temps => decide (temps.length = 19) && temps.all (fun t => decide (-0x8000 ≤ t) && decide (t < 0x8000))
  | .fastLimiter _ => true
  | .strictPoint _ => true
  | .psubmit th cluster addr => thOk th && clOk cluster && decide (addr < 2 ^ 64)
  | .parcelDelivered _ => true
  | .tierTimeout _ => true
  | .flashWriteCompletion _ => true
  | .checkpointDone => true
  | .flashProgramDone _ _ => true
  | .flashEraseDone _ channel _ => decide (channel < 32)
  | .flashReadDone _ _ => true
  | .scrub => true
  | .heatHalving => true
  | .shredDone _ => true
  | .flashDiscoveryDone chans => decide (chans.length = 32) && chans.all (fun c => c.wf)
  | .recoveryDone => true
  | .corpusRebuildDone _ _ => true
  | .slotReloadDone _ => true
  | .pwrfailN _ => true
  | .flushDone => true
  | .porstN _ _ => true
  | .coldBoot inp => inp.wf
  | .wrstN _ _ => true
  | .warmRequest a v => a.wf && v.wf
  | .holdPoint => true
  | .wrstNRelease => true
  | .nodeReady => true
  | .rejoin frame => decide (frame < 2 ^ 48)
  | .mgtEnumIn _ _ => true
  | .railFault rail _ => decide (rail < 13)
  | .thermalHalt die _ => decide (die < 19)
  | .thermtrip die _ => decide (die < 19)
  | .referenceLoss which => decide (which < 3)
  | .linkTrained link r => decide (link < 36) && r.wf
  | .trainingAttemptTimeout link => decide (link < 36)
  | .linkDown link => decide (link < 36)
  | .retrain link => decide (link < 36)
  | .standbyParentSwitch => true
  | .holdover => true
  | .idle link => decide (link < 36)
  | .fanout m => m.wf
  | .tree m => m.wf
  | .finalist m => m.wf
  | .forward m => m.wf
  | .pool m => m.wf
  | .read m => m.wf
  | .write m => m.wf
  | .resp m => m.wf
  | .ctrl m => m.wf
  | .replay link slot _ => decide (link < 36) && decide (slot < 2 ^ 32)
  | .originEntry i => decide (i < 32768)
  | .start m => m.wf
  | .readyDeadline => true
  | .startPost => true
  | .letter m => m.wf
  | .pigeonholeDelivery => true
  | .clockGateEntry n => clOk n
  | .powerGateEntry n => clOk n
  | .powerGatedDone n => clOk n
  | .clusterWake n => clOk n
  | .dieStop d => decide (d < 2)
  | .stackPowerDown s => decide (s < 16)
  | .selfRefreshEntry s => decide (s < 16)
  | .channelGroupStandby g => decide (g < 4)
  | .controllerIdle => true
  | .rowMove t _ => decide (t < 64)
  | .moveDone t _ => decide (t < 64)
  | .rowReturn t _ => decide (t < 64)
  | .returnDone t _ => decide (t < 64)
  | .lineAdd t => decide (t < 64)
  | .scatterBatchDone t => decide (t < 64)
  | .gatherBatchDone t => decide (t < 64)
  | .itemAccepted _ _ => true
  | .tokenFoldDone h => decide (h < 2 ^ 32)
  | .patchEpoch => true
  | .envelope p => p.wf
  | .reassemblyExpiry sid pm => sidOk sid && decide (pm < 2 ^ 48)
  | .hello p => p.wf
  | .response p => p.wf
  | .challengeExpiry sid => sidOk sid
  | .bye p => p.wf
  | .sessionIdleClose sid => sidOk sid
  | .noteAck p => p.wf
  | .noteResend tenant => tenOk tenant
  | .ping _ => true
  | .cancel _ => true
  | .corpusCreate _ => true
  | .corpusDrop _ => true
  | .search _ => true
  | .upsert _ => true
  | .delete _ => true
  | .ctxProfile _ => true
  | .ctxOpen _ => true
  | .ctxClose _ => true
  | .ctxAppend _ => true
  | .ctxAttend _ => true
  | .embTableCreate _ => true
  | .embTableDrop _ => true
  | .embWrite _ => true
  | .embGather _ => true
  | .embScatterAdd _ => true
  | .kernelRun _ => true
  | .flashDiscard _ => true
  | .dirRead _ => true
  | .dirWrite _ => true
  | .transmitSelect p => decide (p < 8)
  | .arpNdIcmp p ask => decide (p < 8) && ask.wf
  | .subportUp p => decide (p < 8)
  | .subportDown p => decide (p < 8)
  | .holdDownEnd p => decide (p < 8)
  | .txAn a p v => a.wf && decide (p < 8) && v.wf
  | .sak a p v => a.wf && decide (p < 8) && v.wf
  | .enabled a t v => a.wf && tenOk t && v.wf
  | .tenantReset a t v => a.wf && tenOk t && v.wf
  | .resetDone t => tenOk t
  | .policerEntryWrite a t sub v => a.wf && tenOk t && inSub sub 1 7 && v.wf
  | .shaperEntryWrite a t q sub v => a.wf && tenOk t && decide (q < 16) && inSub sub 5 9 && v.wf
  | .commitFrame a p v => a.wf && decide (p < 8) && v.wf
  | .histClear a t q v => a.wf && tenOk t && decide (q < 16) && v.wf
  | .rwcWrite a obj v => a.wf && decide (obj < 2 ^ 24) && v.wf
  | .bootFlashCommit => true
  | .enumReset => true
  | .enumOffer addr version => decide (addr < 256) && decide (version < 256)
  | .enumConfirm addr version ident => decide (addr < 256) && decide (version < 256) && decide (ident.length = 16)
  | .enumConfirmTimeout => true
  | .session m => m.wf
  | .close m => m.wf
  | .chainSessionIdle sid => sidOk sid
  | .chainRead m => m.wf
  | .chainWrite m => m.wf
  | .chainTransferExpiry id => decide (id < 256)
  | .alertAck n => decide (n < 2 ^ 32)
  | .alertResend => true
  | .restoreDefaults a v => a.wf && v.wf
  | .target a n v => a.wf && decide (n < 8) && v.wf
  | .direction a n v => a.wf && decide (n < 8) && v.wf
  | .chunkWrite a n v => a.wf && decide (n < 8) && v.wf
  | .chunkRead a n => a.wf && decide (n < 8)
  | .commit a n v => a.wf && decide (n < 8) && v.wf
  | .slotIdleClose n => decide (n < 8)
  | .remove a v => a.wf && v.wf
  | .recordHandled _ => true
  | .recordClose _ => true
  | .patrol addr => decide (addr < 2 ^ 40)
  | .halt c => c.wf
  | .watchdogExpiry => true
  | .controllerRestartDone => true
  | .logbookAppend die => decide (die < 19)
  | .logbookSummary die => decide (die < 19)
  | .ageingReading die _ => decide (die < 19)
  | .replan a v => a.wf && v.wf
  | .marginReplan _ => true
  | .operatorRoot a v => a.wf && v.wf
  | .nonce a v => a.wf && v.wf
  | .report a => a.wf
  | .psk a t v => a.wf && tenOk t && v.wf
  | .debugMode a v => a.wf && v.wf
  | .confirm a v => a.wf && v.wf
  | .rv64gcInstruction th => thOk th
  | .jtagAccess op => op.wf
  | .consoleInput _ => true
  | .busOff => true
  | .busOffRecovery => true
  | .framesIgnored _ => true
  | .rxDropped p _ => decide (p < 8)
  | .reservedKindFlit m => m.wf
  | .scheduledForwarding entry m => decide (entry < 32768) && m.wf
  | .readyMessage child => decide (child < 4096)
  | .droop rail _ _ => decide (rail < 13)
  | .vaonCollapse => true
  | .railsInTolerance => true
  | .referenceReturn which => decide (which < 3)
  | .pcsLockLoss p _ _ => decide (p < 8)
  | .refreshIntervalChange s _ => decide (s < 16)
end Sys2Proof
end

