-- ==== Sys2Proof/Tests/Slice0.lean ====
section
/-! SUPPORT. Slice0: the author's own tests: examples of the spec, ill-formed commands, and for every statement states and
operands that meet its hypotheses. -/
namespace Sys2Proof.Machine
set_option Elab.async false
set_option linter.all false

/-! ## States -/

/-- A directory entry at a value. -/
def wDir (i u n : Nat) (s : State) : State := { s with dir := { s.dir with vals := smPut s.dir.vals (ent i u) (.num n) } }

/-- A directory entry holding bytes. -/
def wBlob (i u : Nat) (b : Bytes) (s : State) : State :=
  { s with dir := { s.dir with vals := smPut s.dir.vals (ent i u) (.blob b) } }

/-- A running machine-mode thread: x5 holds an address, FS and VS initial. -/
def wThread (v : Nat) : Thread :=
  { Thread.init with
    run := .running
    x := [(5, BitVec.ofNat 64 v)]
    csr := [(0x300, 0x2200)] }

/-- A serving node of postcode 5 whose rows are sealed, with its threads. -/
def wSt (ths : SMap Thread) : State :=
  wDir 0x2010 3 5 { State.reset with
    phase := .serving
    mem := { State.reset.mem with unsealedDef := false }
    sea := { State.reset.sea with threads := ths } }

/-- Global address of the first byte of the local store of core 0. -/
def wStore : Nat := 0x0050020000000000

/-- One thread with x5 at its local store. -/
def wS : State := wSt [(0, wThread wStore)]

/-- One thread with x5 at row 0 of stack 0. -/
def wK : State := wSt [(0, wThread 0x0050000000000000)]

/-! ## The block -/

theorem witness_StepRunsFrontCommand : ∃ (c : Instr) (rest : List Instr) (s : State), s.pending = c :: rest :=
  ⟨.roundBoundary, [.sample], { State.reset with pending := [.roundBoundary, .sample] }, rfl⟩

theorem witness_QueueIsFirstInFirstOut : ∃ t, step { State.reset with pending := [.ping 1, .sample] } = .next t := ⟨_, rfl⟩

theorem witness_MemoryStaysCanonical : Memory.wf wS.mem = true ∧ ∃ t, step wS = .next t := ⟨by decide, _, rfl⟩

theorem witness_StoresStayWithinBounds : Capacity wS ∧ ∃ t, step wS = .next t :=
  ⟨⟨by decide, by decide, by decide, by decide, by decide, by decide, by decide⟩, _, rfl⟩

theorem witness_SentStaysSent : ∃ t, step wS = .next t := ⟨_, rfl⟩

/-! ## The thread sea -/

theorem plain_store {s : State} {a m o : Nat} (h : region s a = .store m o) : PlainAt s a := fun off e => by
  rw [h] at e; cases e

theorem plain_stack {s : State} {a m o : Nat} (h : region s a = .stack m o) : PlainAt s a := fun off e => by
  rw [h] at e; cases e

theorem reach_here {s : State} {cl a n attr : Nat} (h : ¬(attr < 2 ∧ inStack a = true)) (c : Clean s a n) :
    Reachable s cl a n attr := by rw [Reachable, if_neg h]; exact c

theorem reach_fill {s : State} {cl a n attr : Nat} (h : attr < 2 ∧ inStack a = true) (c : Clean s (a / 64 * 64) 64)
    (r : (clusterLines s cl).length < 262144) : Reachable s cl a n attr := by rw [Reachable, if_pos h]; exact .inr ⟨c, r⟩

theorem reach_held {s : State} {cl a n attr : Nat} (h : attr < 2 ∧ inStack a = true) (l : Line)
    (e : smGet? s.mem.lines (lineKey cl a) = some l) : Reachable s cl a n attr := by rw [Reachable, if_pos h]; exact .inl ⟨l, e⟩

/-- The last eight bytes of a line of the local store. -/
theorem witness_LoadReadsItsBytes : crosses (effAddr (thread wS 0) 5 56) 8 = false ∧
    translate wS 0 (effAddr (thread wS 0) 5 56) 8 .ld = .loc 0x20000000038 2 ∧ PlainAt wS 0x20000000038 ∧
    Reachable wS (clusterOf 0) 0x20000000038 8 2 ∧ Issues wS 0 [5, 1] [] [] ∧ Issues wS 0 [5] [1] [] ∧ mFS (thread wS 0) ≠ 0 :=
  ⟨by decide +kernel, by decide +kernel, plain_store (m := 0) (o := 0x38) (by decide +kernel),
    reach_here (by decide) ⟨by decide +kernel, by decide +kernel⟩, ⟨by decide +kernel, by decide +kernel⟩,
    ⟨by decide +kernel, by decide +kernel⟩, by decide +kernel⟩

/-- A stack address, whose line can be brought in. -/
theorem witness_StoreWritesItsBytes : crosses (effAddr (thread wK 0) 5 0) 8 = false ∧
    translate wK 0 (effAddr (thread wK 0) 5 0) 8 .st = .loc 0 0 ∧ PlainAt wK 0 ∧ Reachable wK (clusterOf 0) 0 8 0 ∧
    Issues wK 0 [5, 1] [] [] ∧ Issues wK 0 [5] [1] [] ∧ mFS (thread wK 0) ≠ 0 :=
  ⟨by decide +kernel, by decide +kernel, plain_stack (m := 0) (o := 0) (by decide +kernel),
    reach_fill (by decide) ⟨by decide +kernel, by decide +kernel⟩ (by decide +kernel), ⟨by decide +kernel, by decide +kernel⟩,
    ⟨by decide +kernel, by decide +kernel⟩, by decide +kernel⟩

/-- With and without a reservation. -/
theorem witness_AtomicsReadAndWriteOnce : Issues wK 0 [1, 5, 2] [] [] ∧ (rx (thread wK 0) 5).toNat % 8 = 0 ∧ PlainAt wK 0 ∧
    Reachable wK (clusterOf 0) 0 8 0 ∧ translate wK 0 (rx (thread wK 0) 5).toNat 8 .st = .loc 0 0 ∧
    translate wK 0 (rx (thread wK 0) 5).toNat 8 .ld = .loc 0 0 ∧ (thread wK 0).resv = none ∧
    (thread (wSt [(0, { wThread 0x0050000000000000 with resv := some 32 })]) 0).resv = some 32 :=
  ⟨⟨by decide +kernel, by decide +kernel⟩, by decide +kernel, plain_stack (m := 0) (o := 0) (by decide +kernel),
    reach_fill (by decide) ⟨by decide +kernel, by decide +kernel⟩ (by decide +kernel), by decide +kernel, by decide +kernel, rfl, rfl⟩

/-- Four byte elements, LMUL 1. -/
def wV : State := wSt [(0, { wThread wStore with csr := [(0x300, 0x2200), (0xC20, 4)] })]

theorem witness_VectorFormsRunTheirElements : Issues wV 0 (5 :: (formRegs (.vunit 1 1 true 8)).1)
      (formRegs (.vunit 1 1 true 8)).2.1 (formRegs (.vunit 1 1 true 8)).2.2 ∧ mVS (thread wV 0) ≠ 0 ∧
    (vPlan (thread wV 0) (effAddr (thread wV 0) 5 0) (.vunit 1 1 true 8)).ok = true ∧
    (vLoads 0 (vPlan (thread wV 0) (effAddr (thread wV 0) 5 0) (.vunit 1 1 true 8)).elems (issued 0 wV)).1 = true ∧
    (vStores 0 (vPlan (thread wV 0) (effAddr (thread wV 0) 5 0) (.vunit 1 1 true 8)).elems (issued 0 wV)).1 = true :=
  ⟨⟨by decide +kernel, by decide +kernel⟩, by decide +kernel, by decide +kernel, by decide +kernel, by decide +kernel⟩

/-- A request of tenant 3 in session 1. -/
def wReq : Req :=
  { rid := 1, sid := 1, pm := 7, type := 0x0401, tenant := 3, level := .tenant, mgmt := false, queue := 0, cls := 1, obj := 0,
    body := [], nseg := 1, at_ := 0, addr := ⟨0, false, 0, 0⟩, st := .executing, admitted := 0, admitAt := 0, cause := 0,
    points := [], late := false, cancelBy := 0, stage := 2, items := [], awaits := [], threads := 1, rounds := 0, waits := [],
    acc := [], ents := [], out := [], ready := none }

/-- A state with requests. -/
def wReqs (l : List Req) (s : State) : State := { s with hxt := { s.hxt with reqs := l } }

/-- A kernel thread of request 1. -/
def wKern : Thread := { wThread wStore with user := true, kern := true, tenant := 3, req := 1 }

theorem witness_FencesAndExit : canIssue wS 0 = true ∧ (thread wS 0).failedAck = none ∧ storesAcked (thread wS 0) = true ∧
    storesAcked { wThread wStore with remote := [⟨1, .ack, 0, 0⟩] } = false ∧
    (let s := wReqs [wReq] (wSt [(0, wKern)])
     canIssue s 0 = true ∧ rx (thread s 0) 17 = 0 ∧ req? s (thread s 0).req = some wReq) := by decide +kernel

/-- A descriptor of one parcel in mode T2 to T1. -/
def wStream : Stream :=
  { declared := true, th := 0, req := 0, ringMode := false, listKind := false, source := 0, dest := 0, count := 4, stride := 4096,
    ahead := 1, ring := 0, issued := 0, delivered := 2, released := 0, held := [], failed := 0, nextLine := 0, aheadLines := 4,
    unused := 0, lastUse := 0, endLine := 4096, cur := 0 }

/-- Streams of cluster 0. -/
def wStreams (l : SMap Stream) (s : State) : State := { s with sea := { s.sea with streams := l } }

/-- Words 1 and 3 of a descriptor in the local store: count 1, one parcel ahead. -/
def wDesc : State :=
  { wS with mem := { wS.mem with bytes := [(0x20000000008, 1), (0x2000000001A, 1)] } }

theorem witness_DeclaredStreams : Issues wDesc 0 [1, 5] [] [] ∧ ownStore wDesc 0 (rx (thread wDesc 0) 5).toNat 32 = some 0x20000000000 ∧
    Clean wDesc 0x20000000000 32 ∧ (streamOf wDesc 0 (fixedRead wDesc 0x20000000000 32)).isSome = true ∧ slotFor wDesc 0 = some 0 ∧
    slotFor (wStreams ((upFrom 0 64).map (fun i => (i, wStream))) wS) 0 = none ∧
    (let s := wStreams [(0, wStream)] (wSt [(0, wThread 1)])
     streamAt s 0 ((rx (thread s 0) 5).toNat / 2 ^ 32) = some wStream) ∧
    (let s := wStreams [(0, wStream)] (wSt [(0, wThread 2)])
     wStream.delivered ≤ (rx (thread s 0) 5).toNat % 2 ^ 32) ∧
    (let s := wStreams [(63, { wStream with failed := 2 })] (wSt [(0, wThread 63)])
     streamAt s 0 (rx (thread s 0) 5).toNat = some { wStream with failed := 2 }) :=
  ⟨⟨by decide +kernel, by decide +kernel⟩, by decide +kernel, ⟨by decide +kernel, by decide +kernel⟩, by decide +kernel,
    by decide +kernel, by decide +kernel, by decide +kernel, by decide +kernel, by decide +kernel⟩

theorem witness_StickyRegistersClearOnes : Issues wS 0 [1, 5] [] [] ∧ canIssue wS 0 = true :=
  ⟨⟨by decide +kernel, by decide +kernel⟩, by decide +kernel⟩

/-- WB, FLUSH and INV of one line: rs1 x5, rs2 x6 (64 bytes), rd x1. -/
def wRange (op : Nat) : W32 := BitVec.ofNat 32 (op * 2 ^ 25 + 6 * 2 ^ 20 + 5 * 2 ^ 15 + 4 * 2 ^ 12 + 1 * 2 ^ 7 + 0x2B)

/-- x6 is 64. -/
def wRg : State :=
  wSt [(0, { wThread 0 with x := [(5, 0x0050000000000000), (6, 64)], csr := [(0x300, 0xA200)] })]

theorem witness_RangeOperations : ∀ op, op < 3 → Issues wRg 0 [wRd (wRange op), wRs1 (wRange op), wRs2 (wRange op)] [] [] ∧
    rangeLegal (thread wRg 0) op (wRange op) = true ∧ coverOf wRg 0 op (rx (thread wRg 0) (wRs1 (wRange op))).toNat 64 = .here 0 ∧
    (rx (thread wRg 0) (wRs2 (wRange op))).toNat = 64 ∧ ∀ x, rowBroken wRg (rowId x) = false := by
  intro op h
  refine ⟨⟨?_, ?_⟩, ?_, ?_, ?_, fun _ => rfl⟩ <;> revert op <;> decide +kernel

/-- An item of kernel work. -/
def wItem (i : Nat) : Item := ⟨1, i, 1, false⟩

theorem witness_SeaEvents :
    (let s := wStreams [(63, { wStream with declared := false, nextLine := 64 })] wK
     prefetchable s 64 = true ∧ smGet? s.mem.lines (lineKey 0 64) = none ∧ (clusterLines s 0).length < 262144) ∧
    (let s := wSt [(0, { wKern with remote := [⟨1, .ack, 0, 0⟩] })]
     (thread s 0).remote.find? (fun r => r.tag == 1) = some ⟨1, .ack, 0, 0⟩ ∧
     0 + 16 * frameCycles ≤ ({ s with clk := { s.clk with now := 65536 } } : State).clk.now) ∧
    (let s := wSt [(0, { wKern with remote := [⟨1, .loadInt 1 8 false, 0, 0⟩] })]
     (thread s 0).remote.find? (fun r => r.tag == 1) = some ⟨1, .loadInt 1 8 false, 0, 0⟩ ∧ (thread s 0).kern = true) ∧
    (let s := { wS with sea := { wS.sea with items := [(1, [wItem 0, wItem 1])] } }
     s.sea.balance = true ∧ itemsOf s 0 = [] ∧ 0 < nClusters s ∧ longestQueue s ((ringOrder s 0).take 4) = some (1, 2) ∧
     ((itemsOf s 1).filter (fun i => !i.strict)).getLast? = some (wItem 1)) ∧
    (let s := { wS with sea := { wS.sea with spent := [(511 * 64 + 63, 10000000)] } }
     dirNum s (ent (0x3500 + 63) 1) ≤ smGetD s.sea.spent (511 * 64 + 63) 0 ∧ (511, 63) ∉ s.sea.pausedOn) := by decide +kernel

/-! ## Scoring and shortlists -/

/-- An instruction word of a four-byte opcode: bits 31 to 25, rs2, rs1, funct3, rd, opcode. -/
def wWord (f7 rs2 rs1 f3 rd op : Nat) : W32 :=
  BitVec.ofNat 32 (f7 * 2 ^ 25 + rs2 * 2 ^ 20 + rs1 * 2 ^ 15 + f3 * 2 ^ 12 + rd * 2 ^ 7 + op)

/-- A thread with all units on and the given integer registers. -/
def wX (x : SMap W64) : Thread := { wThread 0 with x := x, csr := [(0x300, 0xA200)] }

theorem witness_EdotSumsProducts : Issues (wSt [(0, wX [])]) 0 [] []
      (regs4 (wRs1 0x1488020B) ++ [wRs2 0x1488020B, wRd 0x1488020B]) ∧ edotLegal 0x1488020B = true ∧
    scoreReady (wX []) 0x1488020B = true := ⟨⟨by decide +kernel, by decide +kernel⟩, by decide +kernel, by decide +kernel⟩

/-- The five formats of EDOTF at the last of its row groups. -/
theorem witness_FloatDotsAndRescale : (∀ f, f < 5 → edotfLegal (wX []) (wWord (16 * f) 31 28 1 31 0x0B) = true ∧
      scoreReady (wX []) (wWord (16 * f) 31 28 1 31 0x0B) = true) ∧
    erescaleLegal 0x08A2260B = true ∧ scoreReady (wX []) 0x08A2260B = true ∧ canIssue (wSt [(0, wX [])]) 0 = true ∧
    regBusy (wX []) [] [] (regs4 28 ++ [31, 31]) = false := by decide +kernel

/-- x1 a configuration of 64 entries, x2 an id. -/
def wL : State := wSt [(0, wX [(1, 64), (2, 9)])]

theorem witness_ShortlistInstructions : canIssue wL 0 = true ∧ eslReady (wX []) (wWord 0 2 1 0 3 0x2B) 0 false = true ∧
    eslReady (wX []) 0x28A205AB 1 true = true ∧ rcsr (wX []) 0x008 = 0 ∧ mVS (wX []) ≠ 0 ∧
    eslReady (wX []) (wWord 0x23 0 1 0 3 0x2B) 2 false = false ∧ eslReady (wX []) (wWord 0x20 0 1 0 3 0x2B) 2 false = true ∧
    resetLegal (rx (thread wL 0) 1).toNat = true ∧ eslReady (wX []) (wWord 0x40 0 0 0 3 0x2B) 4 false = true ∧
    eslReady (wX []) (wWord 0x30 0 1 0 3 0x2B) 3 false = true ∧ (rx (wX [(1, BitVec.ofNat 64 wStore)]) 1).toNat % 16 = 0 := by
  decide +kernel

/-- One entry of a list of thread 0 can be drained to the start of the local store. -/
theorem witness_Drain :
    let t := { wX [(1, BitVec.ofNat 64 wStore)] with lists := [(2, ⟨64, false, false, [⟨7, 0, 5⟩]⟩)] }
    let s := wSt [(0, t)]
    Issues s 0 [1, 3] [] [] ∧ ownStore s 0 (rx t 1).toNat 16 = some 0x20000000000 ∧ Clean s 0x20000000000 16 ∧
    ((ulist t 2).ents.flatMap entBytes).length = 16 ∧ wList (wWord 0x38 0 1 0 3 0x2B) = 2 :=
  ⟨⟨by decide +kernel, by decide +kernel⟩, by decide +kernel, ⟨by decide +kernel, by decide +kernel⟩, by decide +kernel,
    by decide +kernel⟩

/-- A merge of one entry with none. -/
def wMerge : State := memWrite 0x20000000000
  ((leBytes 8 (wStore + 0x100) ++ leBytes 8 (wStore + 0x200) ++ leBytes 8 (wStore + 0x300) ++ leBytes 8 1 ++ leBytes 8 1))
  (wSt [(0, wX [(1, BitVec.ofNat 64 wStore)])])

/-- Its descriptor. -/
def wMDesc : MDesc := ⟨wStore + 0x100, wStore + 0x200, wStore + 0x300, 1, 0, 1, false, false, false⟩

theorem witness_MergeAndCompact : Issues wMerge 0 [1, 3] [] [] ∧ mXS (thread wMerge 0) ≠ 0 ∧
    (rx (thread wMerge 0) 1).toNat % 64 = 0 ∧ ownStore wMerge 0 (rx (thread wMerge 0) 1).toNat 64 = some 0x20000000000 ∧
    Clean wMerge 0x20000000000 64 ∧ mdescOf (fixedRead wMerge 0x20000000000 64) = some wMDesc ∧
    mergePlaces wMerge 0 wMDesc = some (0x20000000100, 0, 0x20000000300) ∧ Clean wMerge 0x20000000100 16 ∧ Clean wMerge 0 0 ∧
    Clean wMerge 0x20000000300 16 ∧ (orderedPrefix false (readEnts wMerge 0x20000000100 1)).2 = false ∧
    (orderedPrefix false (readEnts wMerge 0 0)).2 = false ∧
    (∀ f, f < 3 → ecompactReady (wX []) (wWord (16 * f) 2 1 2 3 0x2B) = true) :=
  ⟨⟨by decide +kernel, by decide +kernel⟩, by decide +kernel, by decide +kernel, by decide +kernel,
    ⟨by decide +kernel, by decide +kernel⟩, by decide +kernel, by decide +kernel, ⟨by decide +kernel, by decide +kernel⟩,
    ⟨by decide +kernel, by decide +kernel⟩, ⟨by decide +kernel, by decide +kernel⟩, by decide +kernel, by decide +kernel,
    by decide +kernel⟩

/-- A letter in a pigeonhole. -/
def wLetter : Letter := ⟨5, 8192, true, 0, 8, 1, 0x00510000, zeros 48⟩

theorem witness_LettersOfAThread :
    (let t := wX [(10, 0x00510000), (11, BitVec.ofNat 64 wStore)]
     let s := wSt [(0, t)]
     Issues s 0 [wRs1 0x40B5502B, wRs2 0x40B5502B] [] [] ∧ epostLegal t 0x40B5502B = true ∧
     epostDest t (bits (rx t 10).toNat 31 0) = true ∧ epostBody s 0 (rx t 11).toNat 16 = some 0x20000000000 ∧
     epostLen 0x40B5502B = 2 ∧ writesAcked t = true ∧ (outq s 0).length < 16 ∧ Clean s 0x20000000000 16) ∧
    (let s := wSt [(0, { wThread wStore with box := [wLetter] })]
     Issues s 0 [1, 5] [] [] ∧ (rx (thread s 0) 5).toNat % 64 = 0 ∧
     ownStore s 0 (rx (thread s 0) 5).toNat 64 = some 0x20000000000 ∧ Clean s 0x20000000000 64 ∧ (thread s 0).box = [wLetter]) ∧
    (Issues wS 0 [1, 5] [] [] ∧ (thread wS 0).box = []) ∧
    (let t := { wThread 0 with run := .waitLetter 0 16 1 }
     let s := { wSt [(0, t)] with clk := { State.reset.clk with now := 16 } }
     t.run = .waitLetter 0 16 1 ∧ 0 + 16 ≤ s.clk.now ∧ clState s (clusterOf 0) = .run) :=
  ⟨⟨⟨by decide +kernel, by decide +kernel⟩, by decide +kernel, by decide +kernel, by decide +kernel, by decide +kernel,
      by decide +kernel, by decide +kernel, ⟨by decide +kernel, by decide +kernel⟩⟩,
    ⟨⟨by decide +kernel, by decide +kernel⟩, by decide +kernel, by decide +kernel, ⟨by decide +kernel, by decide +kernel⟩, rfl⟩,
    ⟨⟨by decide +kernel, by decide +kernel⟩, rfl⟩, by decide +kernel⟩

/-! ## Circulars -/

/-- A circular of a program, started, for stack 0. -/
def wCirc (prog : List W64) : Circ :=
  { seq := 7, mask := 1, prog := prog.map (fun w => (w, ~~~w)), latch := [], ring := 0x20000000000, ringBytes := 0x20000, ringPos := 0,
    hit := false, hitRow := 0, limit := 0, endSeal := 0, knock := 0, descBad := false, started := true, req := 0 }

/-- Stack 15 in a phase with a circular at its head. -/
def wStk (ph : SeqPhase) (c : Circ) (s : State) : State := onSeqr 15 (fun q => { q with queue := [c], phase := ph }) s

/-- Stack 15 runs one word. -/
def wRun (m : Mic) : State := wStk .run (wCirc [micWord m]) wS

theorem at_word (m : Mic) (h : micOf (micWord m) = m) : AtWord (wRun m) 15 m.op (wCirc [micWord m]) m :=
  ⟨rfl, rfl, rfl, micWord m, rfl, by rw [h], h.symm⟩

theorem witness_MicroOperationWordsRoundTrip : (Mic.wf ⟨63, 1, 3, 3, 255, 65535, 65535, 8191⟩) = true := by decide

/-- A descriptor, a program of END and a ring in the local store. -/
def wLoadable : State := memWrite 0x20000000000
  (leBytes 8 0x40 ++ zeros 8 ++ leBytes 8 0x20000000100 ++ leBytes 8 (7 + 0x20000 * 2 ^ 32) ++ leBytes 8 (2 ^ 63) ++ leBytes 8 1 ++ zeros 16)
  (memWrite 0x40 (zeros 8 ++ leBytes 8 (2 ^ 64 - 1)) wS)

theorem witness_AcceptedCircularsAreBounded : (checkLoad 15 0x20000000000 0 wLoadable).1 = 0 ∧
    (checkLoad 15 0x20000000000 0 wLoadable).2.1.isSome = true := by decide +kernel

theorem witness_CircularRegisters : canIssue wS 0 = true ∧ (thread wS 0).user = false ∧
    (let s := wStk .run (wCirc [0]) wS
     (seqr s 15).queue = [wCirc [0]] ∧ (wCirc [0]).seq = 7 % 2 ^ 32 ∧ (seqr s 15).phase = .run) ∧
    (let s := wSt [(0, wKern)]
     canIssue s 0 = true ∧ (thread s 0).user = true ∧ (thread s 0).kern = true) ∧
    (let s := onSeqr 15 (fun q => { q with loads := [(0x20000000000, 0)] }) wLoadable
     (seqr s 15).loads = [(0x20000000000, 0)] ∧
     (checkLoad 15 0x20000000000 0 (onSeqr 15 (fun q => { q with loads := [] }) s)).2.1.isSome = true) ∧
    (let s := onSeqr 15 (fun q => { q with loads := [(1, 0)] }) wS
     (checkLoad 15 1 0 (onSeqr 15 (fun q => { q with loads := [] }) s)).1 = 2 ∧
     (checkLoad 15 1 0 (onSeqr 15 (fun q => { q with loads := [] }) s)).2.1 = none) ∧
    region wS 0x4000010F008 = .engine 0x10F008 ∧ eregOf wS 0x10F008 = some (.cstat 15) ∧ bit 32 5 = true := by decide +kernel

theorem witness_CircularsLaunchAndComplete :
    (let s := wStk .idle (wCirc [0]) wS
     (seqr s 15).queue = [wCirc [0]] ∧ (seqr s 15).phase = .idle ∧ (seqr s 15).out = false ∧ launchPaced s = false ∧
     s.path.pass = none) ∧
    (seqr (wRun ⟨0, 0, 0, 0, 0, 0, 0, 0⟩) 15).aborting = false ∧
    (let s := wStk .compact (wCirc [0]) wS
     (seqr s 15).phase = .compact ∧ (seqr s 15).status = 0 ∧ (seqr s 15).faulted = [] ∧ (wCirc [0]).hit = false ∧
     (wCirc [0]).knock = 0 ∧ (seqr s 15).railFaults = []) := by decide +kernel

theorem witness_end : AtWord (wRun ⟨0, 0, 0, 0, 0, 0, 0, 0⟩) 15 0 (wCirc [0]) ⟨0, 0, 0, 0, 0, 0, 0, 0⟩ := at_word _ (by decide)

/-- Every latch operation with its fields at their largest values. -/
theorem witness_LatchOperations : ∀ op, op ∈ [0x08, 0x09, 0x0A, 0x0B, 0x0C, 0x0D, 0x0E, 0x0F, 0x10, 0x11] →
    AtWord (wRun ⟨op, 1, 2, 1, 255, 65535, 65535, 0⟩) 15 op (wCirc [micWord ⟨op, 1, 2, 1, 255, 65535, 65535, 0⟩])
      ⟨op, 1, 2, 1, 255, 65535, 65535, 0⟩ := by
  intro op h
  refine at_word _ ?_
  revert op
  decide

theorem witness_RowOperations : (∀ m, m ∈ [(⟨0x18, 0, 0, 1, 0, 4, 0, 0⟩ : Mic), ⟨0x1D, 0, 0, 0, 0, 4, 0, 2⟩, ⟨0x1E, 0, 0, 0, 0, 4, 0, 2⟩,
      ⟨0x1C, 0, 0, 0, 0, 4, 0, 0⟩, ⟨1, 0, 0, 0, 0, 0, 0, 0⟩, ⟨2, 0, 0, 0, 1, 0, 0, 3⟩] →
      AtWord (wRun m) 15 m.op (wCirc [micWord m]) m ∧ micRow m < 65536 ∧ micRow m + m.imm ≤ 65536 ∧ micRow m % 2 = 0) ∧
    (seqr (wRun ⟨1, 0, 0, 0, 0, 0, 0, 0⟩) 15).aborting = false ∧ (seqr (wRun ⟨2, 0, 0, 0, 1, 0, 0, 3⟩) 15).loop = none := by
  refine ⟨fun m h => ⟨at_word m ?_, ?_⟩, by decide +kernel, by decide +kernel⟩ <;> revert m <;> decide

theorem witness_RefreshInCirculars :
    (let s := onSeqr 15 (fun q => { q with phase := .run, refreshDue := true }) wS
     (seqr s 15).phase = .run ∧ (seqr s 15).refreshDue = true) := by decide +kernel

/-! ## Parcels and flash -/

/-- A descriptor of one parcel from row 0 of stack 0 to 64 KiB of the local store of core 0. -/
def wPd : State := memWrite 0x20000000000
  (leBytes 8 0x0050000000000000 ++ leBytes 8 0x0050020000010000 ++ leBytes 8 1 ++ zeros 8) wS

/-- A parcel of a request's path from a stack to the local store. -/
def wPar : Parcel := ⟨1, .path 9, .local 0, .local 0x20000010000, 0, 16, false, none, false, false, 3⟩

/-- Parcels in flight. -/
def wFly (l : List Parcel) (s : State) : State := { s with par := { s.par with flight := l } }

/-- A queued descriptor with one of `n` parcels finished, and a parcel of it. -/
def wQueued (n : Nat) : State :=
  let d : PDesc := ⟨0x20000000000, 0, 0, false, false, n, 0, 0, 0, 1, 3, 2, 1, 0⟩
  let s := wFly [{ wPar with owner := .desc 0 0x20000000000 }] (wReqs [wReq] wS)
  { s with par := { s.par with queues := [(0, [d])] } }

theorem witness_ParcelDescriptors : canIssue wPd 0 = true ∧ (thread wPd 0).user = false ∧
    bits wStore 63 52 = recPost wPd ∧ descGood wPd 0 (bits wStore 51 0) (fixedRead wPd (bits wStore 51 0) 32) = true ∧
    (pQueue wPd 0).length < 256 ∧
    256 ≤ (pQueue { wPd with par := { wPd.par with queues := [(0, List.replicate 256 ⟨0, 0, 0, false, false, 1, 0, 0, 0, 0, 0, 0, 0, 0⟩)] } } 0).length ∧
    bits 0 63 52 ≠ recPost wPd ∧
    (let s := wFly [wPar] wS
     parcel? s 1 = some wPar ∧ mustWait s.par.flight wPar = false) ∧
    (let s := { wFly [wPar] wS with clk := { wS.clk with now := 65536 } }
     0 + 16 * frameCycles ≤ s.clk.now) ∧
    (∀ n, n ∈ [2, 3] → (pQueue (wQueued n) 0).find? (fun d => d.addr == 0x20000000000) =
      some ⟨0x20000000000, 0, 0, false, false, n, 0, 0, 0, 1, 3, 2, 1, 0⟩) ∧
    req? (wQueued 2) 1 = some wReq := by decide +kernel

theorem witness_parcel_clean : Clean (wFly [wPar] wS) 0 4096 := ⟨by decide +kernel, by decide +kernel⟩

/-- A serving media manager of two superblocks of 256 parcels a channel, area 0 of four units, every channel in service. -/
def wFlash (f : Flash → Flash) (s : State) : State :=
  let s := (upFrom 0 32).foldl (fun s c => wDir (0x6020 + c) 1 1 s) (wDir 0x6010 0xE 2 s)
  { s with flash := f { s.flash with found := true, serving := true, perBlock := 256, areas := [(0, ⟨3, 0, 4⟩)] } }

/-- Content of parcel 0 of area 0. -/
def wSlot : FSlot := ⟨zeros 16, t3Handle 0 0 0, 3, 0, false⟩

/-- Unit 0 mapped at slot 5, which holds its content. -/
def wMapped (s : State) : State := wFlash (fun f => { f with map := ⟨[(0, withCompl 5)], []⟩, store := [(5, wSlot)] }) s

theorem witness_FlashReadsAndWrites :
    (let s := wFly [{ wPar with dst := .flash 0 0 0, data := some (zeros 16) }] (wFlash id wS)
     (parcel? s 1).isSome = true ∧ s.flash.serving = true ∧ nlpOf s 0 0 = some 0 ∧ writeRoom s = true ∧ noGroupFor s 0 = false ∧
     overFlashQuota s 0 0 = true ∧ overFlashQuota (wDir 0x3103 7 1 s) 0 0 = false) ∧
    (let s := wFly [{ wPar with src := .flash 0 0 0 }] (wMapped wS)
     flashRead s 0 (t3Handle 0 0 0) = .nand 0 5 ∧ chanUp s 0 = true ∧ smGet? s.flash.store (slotKey 0 5) = some wSlot ∧
     metaCheck wSlot (t3Handle 0 0 0) = 0 ∧ chanUp (wDir 0x6020 1 2 s) 0 = false ∧ inForce s (ent 0x6010 0x10) ≤ 2 ^ 25) := by
  decide +kernel

/-- A job of one row of unit 0. -/
def wJob (k : JobKind) (row : Bool) : Job := ⟨1, k, 0, [⟨0, 0, 5, wSlot, row, none⟩], false, 0⟩

theorem witness_FlashProgramsAndErases :
    (let s := wFlash (fun f => { f with jobs := [wJob .host true] }) wS
     s.flash.jobs.find? (fun x => x.id == 1 && !x.verified) = some (wJob .host true) ∧
     ((wJob .host true).moves.map (fun m => slotKey m.chan m.slot)).Nodup ∧ (s.flash.jobs.map (fun x => x.id)).Nodup) ∧
    (let s := wFlash (fun f => { f with jobs := [wJob .gc true] }) wS
     s.flash.jobs.find? (fun x => x.id == 1 && !x.verified) = some (wJob .gc true)) ∧
    (let s := wFlash (fun f => { f with jobs := [wJob .host false], map := ⟨[(0, withCompl (2 ^ 31))], [(0, List.replicate 16 (withCompl fUnmapped))]⟩ }) wS
     groupOf s 0 = some 0 ∧ (smGetD s.flash.map.groups 0 []).length = 16) ∧
    0 < dirNum (wDir 0x603F 7 1 wS) (ent (0x6020 + 31) 7) ∧
    (let s := wFlash (fun f => { f with blocks := [(1, ⟨false, 2, 0, [], []⟩)] }) wS
     erasable s 1 = true ∧ chanUp s 31 = true ∧ erasable s 0 = false) := by decide +kernel

theorem witness_MediaSchedules :
    (let s := { wFlash (fun f => { f with ckpt := some 1, heat := [(0, 8)] }) wS with clk := { wS.clk with tick := 2 ^ 40 } }
     s.flash.ckpt = some 1 ∧ s.flash.scrubTick + dirNum s (ent 0x6010 0xF) ≤ s.clk.tick ∧ 0 < s.flash.perBlock ∧
     s.flash.heatTick + dirNum s (ent 0x6010 7) ≤ s.clk.tick ∧ (s.flash.heat.map (fun p => p.1)).Nodup) ∧
    wS.clk.tick < wS.flash.scrubTick + dirNum wS (ent 0x6010 0xF) ∧
    wS.clk.tick < wS.flash.heatTick + dirNum wS (ent 0x6010 7) := by decide +kernel

/-- A discard of sixteen parcels of area 0. -/
def wDisc (st : ReqSt) (stage : Nat) : Req :=
  { wReq with type := 0x0402, st := st, stage := stage, body := leBytes 8 0 ++ leBytes 8 16 }

theorem witness_DiscardsAndShreds : req? (wReqs [wDisc .admitted 0] wS) 1 = some (wDisc .admitted 0) ∧ (16 : Nat) % 16 = 0 ∧
    (let s := wReqs [wDisc .executing 3] (wFlash (fun f => { f with store := [(5, wSlot)] }) wS)
     req? s 1 = some (wDisc .executing 3) ∧ shredBlocks s 0 16 = [(0, 0)] ∧ shredBusy s [(0, 0)] = false) ∧
    (let s := wReqs [wDisc .executing 3] (wMapped wS)
     shredBusy s (shredBlocks s 0 16) = true) := by decide +kernel

/-- A channel as found. -/
def wChan : ChanFound := ⟨1, 4800, 8, 0, 1000, 256, 0, true⟩

theorem witness_DiscoveryAndRecovery : wS.flash.found = false ∧ wS.phase ≠ .coldReset ∧
    ([wChan, { wChan with ok := false }].take 32)[0]? = some wChan ∧ goodChan [wChan, { wChan with ok := false }] wChan = true ∧
    goodChan [wChan, { wChan with ok := false }] { wChan with ok := false } = false ∧
    (let s := wFlash (fun f => { f with serving := false }) wS
     s.flash.found = true ∧ s.flash.serving = false ∧ s.flash.flushRec = true) ∧
    (wFlash (fun f => { f with serving := false, flushRec := false }) wS).flash.flushRec = false ∧
    (wFlash id wS).flash.serving = true := by decide +kernel

/-! ## A whole CORPUS_CREATE body -/

/-- Header, projection, scales and centroids of a corpus of dimension 8, 32 code elements and 1,024 cells. -/
def wHead : Bytes := leBytes 8 0x0001010100000008 ++ leBytes 8 0x40000000000 ++ zeros 48 ++ zeros 512
  ++ (List.replicate 32 (leBytes 4 0x3F800000)).flatten ++ zeros 32768

/-- The whole body: four slots a cell, every cell in tile 0. -/
def wFull : Bytes := wHead ++ ((List.replicate 1024 (leBytes 4 4)).flatten ++ zeros 1024)

theorem rep_len0 (n v : Nat) : ((List.replicate n (leBytes 4 v)).flatten).length = 4 * n := by
  simp [leBytes, Nat.mul_comm]

theorem rep_len (n v k : Nat) : ((List.replicate n (leBytes 4 v)).flatten ++ zeros k).length = 4 * n + k := by
  simp [zeros, leBytes, Nat.mul_comm]

theorem head_len : wHead.length = 33472 := by
  rw [wHead, List.append_assoc, List.length_append, rep_len]; decide +kernel

theorem full_len : wFull.length = 38592 := by
  rw [wFull, List.length_append, head_len, rep_len]

theorem field_app (p q : Bytes) (o n : Nat) : fieldLE (p ++ q) (p.length + o) n = fieldLE q o n := by
  rw [fieldLE, fieldLE, List.drop_append, List.drop_of_length_le (by omega), Nat.add_sub_cancel_left]; rfl

theorem field_zeros (o : Nat) : ∀ k, fieldLE (zeros k) o 1 = 0 := by
  induction o with
  | zero => intro k; cases k <;> rfl
  | succ o ih => intro k; cases k with
    | zero => rfl
    | succ k => exact ih k

theorem field_fours (q : Bytes) : ∀ (n i : Nat), i < n → fieldLE ((List.replicate n (leBytes 4 4)).flatten ++ q) (4 * i) 4 = 4
  | 0, _, h => by omega
  | n + 1, 0, _ => by rfl
  | n + 1, i + 1, h => by
    have e := field_fours q n i (by omega)
    rw [← field_app (leBytes 4 4)] at e
    rw [show 4 * (i + 1) = (leBytes 4 4).length + 4 * i by rw [show (leBytes 4 4).length = 4 from rfl]; omega,
      List.replicate_succ, List.flatten_cons, List.append_assoc]; exact e

theorem slots_full : cbSlots wFull = wHead.length := by rw [head_len]; decide +kernel

theorem cell_slots (i : Nat) (h : i < 1024) : cellSlots wFull i = 4 := by
  rw [cellSlots, slots_full, wFull, field_app]; exact field_fours _ _ i h

theorem tile_full : cbTile wFull = wHead.length + 4096 := by rw [head_len]; decide +kernel

theorem fours_len : ((List.replicate 1024 (leBytes 4 4)).flatten).length = 4096 := by
  rw [rep_len0]

theorem cell_tile (i : Nat) : cellTile wFull i = 0 := by
  rw [cellTile, tile_full, wFull, Nat.add_assoc, field_app,
    show 4096 + i = ((List.replicate 1024 (leBytes 4 4)).flatten).length + i by rw [fours_len], field_app]
  exact field_zeros i 1024

theorem tiles_fit : ∀ (l : List Nat) (n : Nat), (∀ i, i ∈ l → i < 1024) → n + 4 * l.length ≤ 2 ^ 24 →
    tileOver wFull [(0, n)] l = none
  | [], _, _, _ => rfl
  | i :: t, n, h, b => by
    have e := tiles_fit t (n + 4) (fun j m => h j (List.mem_cons_of_mem _ m)) (by simp at b; omega)
    simp only [tileOver, cell_tile, cell_slots i (h i List.mem_cons_self)]
    simp at b
    rw [if_pos (by simp [smGetD, smGet?]; omega)]
    exact e

theorem mem_up (i : Nat) : ∀ (n o : Nat), i ∈ upFrom o n → i < o + n
  | 0, _, h => by simp [upFrom] at h
  | n + 1, o, h => by
    rcases List.mem_cons.1 h with e | m
    · omega
    · have := mem_up i n (o + 1) m; omega

theorem len_up : ∀ (n o : Nat), (upFrom o n).length = n
  | 0, _ => rfl
  | n + 1, o => by rw [upFrom, List.length_cons, len_up]
theorem sec_slots : firstBad wFull (cbSlots wFull) 1024 4 (fun x => inR x 1 (2 ^ 24)) = none := by
  rw [firstBad, List.find?_eq_none.2]
  · rfl
  · intro i m
    have := cell_slots i (by have := mem_up i _ _ m; omega)
    rw [cellSlots, Nat.mul_comm] at this
    rw [this]; decide

theorem sec_tile : firstBad wFull (cbTile wFull) 1024 1 (fun x => decide (x < 8)) = none := by
  rw [firstBad, List.find?_eq_none.2]
  · rfl
  · intro i m
    have := cell_tile i
    rw [cellTile] at this
    rw [Nat.mul_one, this]; decide

theorem sec_free (o n k : Nat) : firstBad wFull o n k (fun _ => true) = none := by
  rw [firstBad, List.find?_eq_none.2]
  · rfl
  · intro i m; simp

theorem sec_scale : firstBad wFull (cbScale wFull) 32 4 posF32 = none := by decide +kernel

theorem tiles_start (n : Nat) (h : n ≤ 1023) : tileOver wFull [] (upFrom 0 (n + 1)) = none := by
  have e : tileOver wFull [] (upFrom 0 (n + 1)) = tileOver wFull [(0, 4)] (upFrom 1 n) := by
    rw [upFrom, tileOver]
    simp only [cell_tile, cell_slots 0 (by decide)]
    rfl
  rw [e]
  exact tiles_fit _ _ (fun i m => by have := mem_up i _ _ m; omega) (by rw [len_up]; omega)

/-- The body is a well-formed CORPUS_CREATE. -/
theorem full_good : corpusFault wFull = none := by
  have c1 : cbCells wFull = 1024 := by decide +kernel
  have c2 : cbCode wFull = 32 := by decide +kernel
  have c3 : cbRegions wFull = 1 := by decide +kernel
  have c4 : cbDim wFull = 8 := by decide +kernel
  have c5 : cbSketch wFull = 0 := by decide +kernel
  have l1 : cbLen wFull = 38592 := by decide +kernel
  have p1 : padBad wFull 32 64 = none := by rw [padBad, full_len]; decide +kernel
  have o1 : cbScale wFull = 576 := by decide +kernel
  have o2 : cbRot wFull = 704 := by decide +kernel
  have o3 : cbCent wFull = 704 := by decide +kernel
  have o4 : cbSlots wFull = 33472 := by decide +kernel
  have o5 : cbTile wFull = 37568 := by decide +kernel
  have z : ∀ e, padBad wFull e e = none := fun e => by rw [padBad, Nat.sub_self]; rfl
  have f : fieldFaults 38592 38592 [fOk 0 2 (inR 8 8 4096 && 8 % 8 == 0), fOk 2 1 (decide (cbFormat wFull < 3)),
    fOk 3 1 (decide (fieldLE wFull 3 1 < 2)), fOk 4 1 (decide (fieldLE wFull 4 1 < 2)), fOk 5 1 (inR (cbReplicas wFull) 1 3),
    fOk 6 1 (inR 1 1 64), fOk 7 1 (decide (fieldLE wFull 7 1 < 2)),
    fOk 8 2 (0 == 0 || 0 == 128 || 0 == 256), fOk 10 2 (0 == 0 || inR (cbThreshold wFull) 1 (0 - 1)),
    fOk 12 4 (inR 1024 1024 262144), fRsv wFull 16 16] = none := by decide +kernel
  have s1 := sec_slots; have s2 := sec_tile; have s3 := sec_scale; have t1 := tiles_start 1023 (by decide)
  rw [o4] at s1; rw [o5] at s2; rw [o1] at s3
  simp only [corpusFault, c1, c2, c3, c4, c5, l1, full_len, o1, o2, o3, o4, o5, cbProj, f, fSec, sec_free, s1, s2, s3, t1, p1,
    Nat.reduceMul, Nat.reduceAdd, z]
  decide

/-! ## Corpora -/

/-- A composition map of one node of role FULL and postcode `post`, one shard for any tenant. -/
def wMap (post : Nat) : Bytes :=
  leBytes 8 192 ++ leBytes 8 0x100010001 ++ leBytes 8 (1 + 0xFFFFFFFE * 2 ^ 32) ++ leBytes 8 0
    ++ leBytes 8 64 ++ leBytes 8 128 ++ leBytes 8 192 ++ leBytes 8 0
    ++ (zeros 16 ++ leBytes 8 (post + 3 * 4096) ++ zeros 8) ++ zeros 32
    ++ (leBytes 8 (1 + 2 ^ 16 + 2 ^ 24) ++ leBytes 8 post) ++ zeros 48

/-- A node in a composition, with T1 and quotas of tenant 3. -/
def wNode (s : State) : State :=
  let s := [(0x2010, 2, 3), (0x1002, 4, 576), (0x3103, 5, 512), (0x3103, 9, 4), (0x3103, 10, 4), (0x3103, 11, 4)].foldl
    (fun s p => wDir p.1 p.2.1 p.2.2 s) s
  { s with cmp := { s.cmp with map := wMap 5 } }

/-- Picking among bases never misses. -/
theorem pick_some (al : Nat) : ∀ (l : List (Nat × Nat)) (k : Nat), k < (l.map (fun p => p.2)).sum → (pickBase al l k).isSome = true
  | [], k, h => by simp at h
  | (f, n) :: t, k, h => by
    rw [pickBase]; split
    · rfl
    · exact pick_some al t _ (by simp at h; omega)

/-- A placement with room is made. -/
theorem placed_some {len al tenant kind num : Nat} {s : State} (h : ¬ freeT1 s < len * (stacksIn s).length)
    (l : List (Nat × Nat)) (e : (gaps 0 ((takenRanges s).foldr insRange [])).map (gapRoom len al) = l)
    (n : 0 < (l.map (fun p => p.2)).sum) : ∃ a u, placeT1 len al tenant kind num s = some (a, u) := by
  have q : ∀ l : List Nat, l.foldl (fun a b => a + b) 0 = l.sum := fun l => by
    rw [List.sum_eq_foldl]
  unfold placeT1
  simp only [e, q]
  rw [if_neg (by rintro (x | x) <;> omega)]
  obtain ⟨b, hb⟩ := Option.isSome_iff_exists.1 (pick_some al l _ (Nat.mod_lt (Config.choose (draw s).1 (l.map (fun p => p.2)).sum) n))
  rw [hb]; exact ⟨_, _, rfl⟩

/-- A corpus body of one region without sketches: 32 code elements, no dimensions, one cell of four slots in tile 0. -/
def wCBody : Bytes := zeros 4 ++ leBytes 1 1 ++ leBytes 1 1 ++ leBytes 1 1 ++ zeros 5 ++ leBytes 4 1 ++ zeros 240 ++ leBytes 4 4 ++ zeros 61

/-- A corpus of tenant 3. -/
def wCorp : Corp := ⟨3, 0, some 0, wCBody, [0], 0, false, [], [], [(0, 0)], [], [], true⟩

/-- Corpora of a node. -/
def wCorpora (l : List Corp) (s : State) : State := { s with path := { s.path with corpora := l } }

/-- A slot of an id. -/
def wCS (id : Nat) (reload : Bool) : CSlot := ⟨id, 0, zeros 32, 0, false, false, 0, reload⟩

/-- An admitted request of a type. -/
def wAdm (type obj : Nat) (body : Bytes) : Req := { wReq with type := type, obj := obj, body := body, st := .admitted }

/-- A node with an admitted request. -/
def wAsked (r : Req) (s : State) : State := wReqs [r] (wNode s)

theorem adm_asked (ty obj : Nat) (b : Bytes) (s : State) (h : bodyFault (wAsked (wAdm ty obj b) s) 3 ty obj b = none) :
    Admitted (wAsked (wAdm ty obj b) s) 1 ty (wAdm ty obj b) := ⟨rfl, rfl, rfl, h⟩

theorem create_fault (s : State) (t o : Nat) (b : Bytes) : bodyFault s t 0x0101 o b = corpusFault b := if_pos rfl

theorem witness_corpus_admitted : Admitted (wAsked (wAdm 0x0101 0 wFull) wS) 1 0x0101 (wAdm 0x0101 0 wFull) :=
  adm_asked _ _ _ _ ((create_fault _ _ _ _).trans full_good)

theorem witness_CorporaComeAndGo :
    (let s := wCorpora [wCorp] (wAsked (wAdm 0x0102 0 []) wS)
     Admitted s 1 0x0102 (wAdm 0x0102 0 []) ∧ corpus? s 3 0 = some wCorp ∧ s.cmp.dCorpora.contains (3 * 65536) = false ∧
     corpus? (wCorpora [] s) 3 0 = none ∧ Admitted (wCorpora [] s) 1 0x0102 (wAdm 0x0102 0 [])) ∧
    (let s := wCorpora [{ wCorp with serving := false }] wS
     (s.path.corpora.find? (fun x => x.slot == some 0 && !x.serving)).isSome = true) ∧
    (let x := { wCorp with slots := [(0, wCS 7 true)] }
     let s := wCorpora [x] wS
     s.path.corpora.find? (fun x => x.slot == some 0) = some x ∧ corpus? s 3 0 = some x ∧
     x.slots.filter (fun q => q.2.reload) = [(0, wCS 7 true)] ∧ cellOfKey x.body 0 = some 0 ∧
     (cellKeys x.body (kShard 0) 0).find? (fun j => keyFree x j && keyUp s x j) = some 1) ∧
    dirNum wS (ent 0xC040 1) ≤ { wS with path := { wS.path with patchRounds := 4096 } }.path.patchRounds ∧
    wS.path.patchRounds < dirNum wS (ent 0xC040 1) := by
  simp only [Admitted]; decide +kernel

theorem witness_corpus_place :
    (let s := wAsked (wAdm 0x0101 0 wFull) wS
     groupFor s 3 = some ⟨1, 1, 0, true, [5]⟩ ∧ groupFor { s with cmp := { s.cmp with map := [] } } 3 = none ∧ corpus? s 3 0 = none ∧
     corporaOf s 3 < dirNum s (ent 0x3103 9) ∧ cbReplicas wFull = 1 ∧ overT1 s 3 (shardLen wFull false) = false ∧
     freeCorpSlot s = some 0 ∧ shardsHere s ⟨1, 1, 0, true, [5]⟩ 1 = [0] ∧ ownRole s roleShards = true) ∧
    ∃ a u, placeT1 (1 * shardLen wFull false) 0x100000 3 0 (3 * 65536) (wAsked (wAdm 0x0101 0 wFull) wS) = some (a, u) :=
  ⟨by decide +kernel, placed_some (by decide +kernel) [(0, 65153), (0x1000000000, 0)] (by decide +kernel) (by decide +kernel)⟩

/-- A SEARCH for one entry by codes alone, of the vector of no dimensions. -/
def wQuery : Bytes := leBytes 2 1 ++ zeros 14

theorem witness_SearchGoesToEveryShard :
    let s := wCorpora [wCorp] (wAsked (wAdm 0x0103 0 wQuery) wS)
    Admitted s 1 0x0103 (wAdm 0x0103 0 wQuery) ∧ groupFor s 3 = some ⟨1, 1, 0, true, [5]⟩ ∧ corpus? s 3 0 = some wCorp ∧
      s.cmp.dCorpora.contains (3 * 65536) = false ∧
      0 < cbReplicas wCorp.body ∧ replica ⟨1, 1, 0, true, [5]⟩ 0 ((7 + 0) % cbReplicas wCorp.body) = ownPost s := by
  simp only [Admitted]; decide +kernel

/-- An upsert of id 7 routed here, and a corpus with a staged change of it. -/
def wUpItem (targets : List Nat) : Part :=
  ⟨1, 3, 5, 1, 3, 0, 0, leBytes 8 7 ++ zeros 5, [], [], 0 :: targets, [], [], [], [], 0, 0, []⟩

/-- An accepted update of one item. -/
def wUpd : Req := { wAdm 0x0104 0 (leBytes 2 1 ++ zeros 14 ++ leBytes 8 7) with items := [0] }

theorem witness_UpdatesAreStagedAndAccepted :
    (let s := wCorpora [wCorp] (wAsked (wAdm 0x0104 0 (leBytes 2 1 ++ zeros 14 ++ leBytes 8 7)) wS)
     Admitted s 1 0x0104 (wAdm 0x0104 0 (leBytes 2 1 ++ zeros 14 ++ leBytes 8 7)) ∧ corpus? s 3 0 = some wCorp) ∧
    (let s := wCorpora [wCorp] (wAsked (wAdm 0x0105 0 (leBytes 2 1 ++ zeros 14 ++ leBytes 8 7)) wS)
     Admitted s 1 0x0105 (wAdm 0x0105 0 (leBytes 2 1 ++ zeros 14 ++ leBytes 8 7))) ∧
    (let c := { wCorp with slot := none, items := [⟨4, false, false, wCS 7 false, true, 9, 0⟩] }
     keyOfId c (upId (wUpItem [5])) = some 4 ∧ cbSketch c.body = 0 ∧
     (let s := wCorpora [c] wS
      (growCons 3 0 ((vecParcels c.body (freeVec c)).getLastD 0) ((vecParcels c.body (freeVec c)).getLastD 0 / 32 + 2)
        s).1 = true)) ∧
    keyOfId wCorp (upId (wUpItem [5])) = none ∧
    (let s := wCorpora [wCorp] (wReqs [wUpd] (wNode wS))
     let s := { s with path := { s.path with parts := [wUpItem [5]] } }
     itemPart s 1 0 = some (wUpItem [5]) ∧ upTargets (wUpItem [5]) = [ownPost s] ∧ (wUpItem [5]).gate = recPost s ∧
     upFlags (wUpItem [5]) ≠ 3 ∧ corpus? s 3 0 = some wCorp ∧ req? s 1 = some wUpd ∧ (0 : Nat) < wUpd.items.length) := by
  simp only [Admitted]; decide +kernel

/-! ## Context memory and tables -/

/-- Parameters of a profile: one layer, one head of 64 elements, one query head, k 8. -/
def wPar0 : Bytes := [0, 1, 1, 64, 1, 70] ++ leBytes 2 8 ++ leBytes 4 0x3F800000 ++ leBytes 1 1 ++ zeros 3

/-- A ready profile. -/
def wProf : Prof := ⟨3, 2, wPar0, [(0, [])]⟩

/-- An empty session of it on this node. -/
def wCtx : CtxS := newCtx 77 3 wProf 8192 1 false [5]

/-- Profiles and sessions of a node. -/
def wCtxs (p : List Prof) (l : List CtxS) (s : State) : State := { s with path := { s.path with profs := p, ctx := l } }

/-- CTX_PROFILE of a part. -/
def wProfB (part : Nat) : Bytes := if part = 0 then wPar0 else leBytes 1 part ++ zeros 15 ++ zeros 8192

/-- CTX_OPEN of one span on one node. -/
def wOpenB : Bytes := leBytes 4 8192 ++ leBytes 1 1 ++ zeros 3

theorem fresh_state (s : State) : (freshHandle s).2 = (draw s).2 := by
  unfold freshHandle; dsimp only; generalize List.find? _ _ = o; cases o <;> rfl

theorem witness_ctx_open : let s := wCtxs [wProf] [] (wAsked (wAdm 0x0202 2 wOpenB) wS)
    Admitted s 1 0x0202 (wAdm 0x0202 2 wOpenB) ∧ (prof? s 3 2).filter profReady = some wProf ∧ fieldLE wOpenB 6 1 = 0 ∧
      overT1 (freshHandle s).2 3 (ctxLen wPar0 1) = false ∧ ownRole s roleSpans = true ∧ ctxAt s (freshHandle s).1 = none ∧
      mapFallback s.cmp.map = false ∧ s.path.ctx.length < 1024 ∧
      ∃ a u, placeT1 (ctxLen wPar0 1) 16384 3 1 (freshHandle s).1 (freshHandle s).2 = some (a, u) := by
  intro s
  refine ⟨⟨rfl, rfl, rfl, by decide +kernel⟩, by decide +kernel, rfl, ?_, by decide +kernel, rfl, by decide +kernel, by decide +kernel, ?_⟩
  · rw [fresh_state]; decide +kernel
  · rw [fresh_state]
    exact placed_some (by decide +kernel) [(0, 4190198), (0x1000000000, 0)] (by decide +kernel) (by decide +kernel)

theorem witness_ctx_full : let s := wDir 0x1002 4 0 (wCtxs [wProf] [] (wAsked (wAdm 0x0202 2 wOpenB) wS))
    Admitted s 1 0x0202 (wAdm 0x0202 2 wOpenB) ∧
      placeT1 (ctxLen wPar0 1) 16384 3 1 (freshHandle s).1 (freshHandle s).2 = none := by
  intro s
  refine ⟨⟨rfl, rfl, rfl, by decide +kernel⟩, ?_⟩
  rw [fresh_state, placeT1]; exact if_pos (by decide +kernel)

theorem witness_ctx_rotation : let s := wCtxs [wProf] [] (wAsked (wAdm 0x0201 2 (wProfB 1)) wS)
    Admitted s 1 0x0201 (wAdm 0x0201 2 (wProfB 1)) ∧ fieldLE (wProfB 1) 0 1 ≠ 0 ∧ prof? s 3 2 = some wProf :=
  ⟨⟨rfl, rfl, rfl, by decide +kernel⟩, by decide +kernel, by decide +kernel⟩

/-- A session with one token applied, and an append and an attend of it. -/
def wTok : CtxS := { wCtx with accepted := 1, applied := 1, toks := [(0, zeros 256)] }

/-- CTX_ATTEND in mode 2 over one position. -/
def wAttB : Bytes := zeros 2 ++ [2] ++ zeros 5 ++ leBytes 4 1 ++ zeros 4 ++ zeros 128

theorem witness_SessionsOpenAppendFoldClose :
    (let s := wCtxs [] [] (wAsked (wAdm 0x0201 2 (wProfB 0)) wS)
     Admitted s 1 0x0201 (wAdm 0x0201 2 (wProfB 0)) ∧ fieldLE (wProfB 0) 0 1 = 0) ∧
    (let s := wCtxs [wProf] [wTok] (wAsked (wAdm 0x0203 77 []) wS)
     Admitted s 1 0x0203 (wAdm 0x0203 77 []) ∧ ctx? s 3 77 = some wTok ∧ ctxAt s 77 = some wTok ∧ wTok.closing = false ∧
     isHome s wTok = true ∧ s.cmp.dCtx.contains 77 = false ∧ wTok.members = [ownPost s]) ∧
    (let s := wCtxs [wProf] [wTok] (wAsked (wAdm 0x0204 77 (zeros 256)) wS)
     Admitted s 1 0x0204 (wAdm 0x0204 77 (zeros 256)) ∧ appendBusy s wTok = false ∧ holds s wTok wTok.accepted = true ∧
     wTok.accepted < wTok.cap * wTok.members.length) ∧
    (let x := { wTok with folding := true }
     let s := wCtxs [wProf] [x] wS
     ctxAt s 77 = some x ∧ stacksFree s = true ∧ x.spilled = 0 ∧ x.broken = false) ∧
    (let q := { wAdm 0x0204 77 (zeros 256) with rid := 2, st := .executing }
     appendBusy (wCtxs [] [wTok] (wReqs [wAdm 0x0204 77 (zeros 256), q] wS)) wTok = true) := by
  simp only [Admitted]; decide +kernel

theorem witness_AttendsCoverTheirPositions :
    (let s := wCtxs [wProf] [wTok] (wAsked (wAdm 0x0205 77 wAttB) wS)
     Admitted s 1 0x0205 (wAdm 0x0205 77 wAttB) ∧ ctx? s 3 77 = some wTok ∧ ctxAt s 77 = some wTok ∧ isHome s wTok = true ∧
     s.cmp.dCtx.contains 77 = false ∧ wTok.broken = false ∧ wTok.folding = false ∧ recentCount s wTok < 1024 ∧
     (attendParam wAttB wTok).n ≤ wTok.applied ∧ wTok.members = [ownPost s] ∧ s.path.parts = []) ∧
    (let x := { wTok with applied := 0 }
     x.applied < (attendParam wAttB x).n) ∧
    (let p : Part := ⟨1, 2, 5, 1, 3, 77, 0, (attendParam wAttB wTok).bytes, zeros 128, [], [], [], [], [], [], 0, 0, []⟩
     let s := wCtxs [wProf] [wTok] (wNode wS)
     candidatesOf s wTok p 0 0 0 = [0] ∧ tailOf p = [] ∧ (headRecord wTok p 0 0 s).1 = 0 ∧
     candidatesOf s wTok { p with par := zeros 10 } 0 0 0 = [] ∧ (headRecord wTok { p with par := zeros 10 } 0 0 s).1 = 0) := by
  simp only [Admitted]; decide +kernel

/-- A table of eight rows of sixteen fp32 elements. -/
def wTab : Tab := ⟨0, tabDesc wS 3 5 0 8 16 0 0 0 1, false, [], [], [], []⟩

/-- Tables of a node. -/
def wTabs (l : List Tab) (s : State) : State := { s with path := { s.path with tabs := l, hotBytes := 2 ^ 20 } }

/-- EMB_TABLE_CREATE of the table above. -/
def wTabB : Bytes := leBytes 8 8 ++ leBytes 2 16 ++ zeros 3 ++ [1] ++ zeros 2

/-- Add of one line to a row, none of it done. -/
def wAdd : LAdd := ⟨1, List.replicate 16 0x3F800000, []⟩

theorem witness_TablesAndBatches :
    (let s := wAsked (wAdm 0x0301 5 wTabB) wS
     Admitted s 1 0x0301 (wAdm 0x0301 5 wTabB) ∧ tab? s 3 5 = none ∧ overT1 s 3 (tabLen 8 64) = false ∧ freeTabSlot s = some 0 ∧
     ownRole s roleTables = true ∧ (s.path.tabs.filter (fun x => tbTenant x == 3)).length < dirNum s (ent 0x3103 10)) ∧
    (let s := wTabs [wTab] (wAsked (wAdm 0x0302 5 []) wS)
     Admitted s 1 0x0302 (wAdm 0x0302 5 []) ∧ tab? s 3 5 = some wTab ∧ wTab.batches = [] ∧ (tab? s 3 6).isNone = true) ∧
    (let b := leBytes 4 1 ++ zeros 12 ++ leBytes 8 1 ++ zeros 64
     Admitted (wTabs [wTab] (wAsked (wAdm 0x0303 5 b) wS)) 1 0x0303 (wAdm 0x0303 5 b)) ∧
    (let b := leBytes 2 1 ++ zeros 6 ++ leBytes 4 1 ++ zeros 52 ++ leBytes 8 1
     Admitted (wTabs [wTab] (wAsked (wAdm 0x0304 5 b) wS)) 1 0x0304 (wAdm 0x0304 5 b)) ∧
    (let b := leBytes 4 1 ++ zeros 4 ++ leBytes 8 1 ++ zeros 64
     Admitted (wTabs [wTab] (wAsked (wAdm 0x0305 5 b) wS)) 1 0x0305 (wAdm 0x0305 5 b)) ∧
    (let g : Batch := ⟨0, 0, [1], true, [1], []⟩
     let t := { wTab with batches := [g, ⟨2, 0, [1], true, [1], []⟩] }
     tabAt (wTabs [t] wS) 0 = some t ∧ t.batches.find? (fun b => b.kind == 0 && b.started && b.rows.all (rowFree t b)) = some g ∧
     (t.batches.find? (fun b => b.kind == 2 && b.started && b.adds.isEmpty)).isSome = true) ∧
    maxKey wTab 0x7FC00000 = none ∧ (maxKey wTab 0x3F800000).isSome = true := by
  simp only [Admitted]; decide +kernel

theorem witness_table_place :
    ∃ a u, placeT1 (tabLen 8 64) 4096 3 2 0 (wAsked (wAdm 0x0301 5 wTabB) wS) = some (a, u) :=
  placed_some (by decide +kernel) [(0, 16760832), (0x1000000000, 0)] (by decide +kernel) (by decide +kernel)

theorem witness_line_add : let t := { wTab with batches := [⟨2, 0, [1], true, [1], [wAdd]⟩] }
    let s := wTabs [t] wS
    tabAt s 0 = some t ∧ addsReady t = [(⟨2, 0, [1], true, [1], [wAdd]⟩, 0)] ∧ t.lost.contains 1 = false ∧
      Clean s (rowSite t 1) 64 ∧ bankUp s (rowSite t 1) = true :=
  ⟨by decide +kernel, by decide +kernel, by decide +kernel, ⟨by decide +kernel, by decide +kernel⟩, by decide +kernel⟩

/-- A hot row of the table in the local store of cluster 0. -/
def wHot (st : HotSt) (refs : Nat) : State := wTabs [{ wTab with hot := [⟨1, st, 0, 0x30000000000⟩], refs := [[(1, refs)]] }] wS

theorem witness_HotRowsMoveWhole :
    (let t := { wTab with refs := [[(1, 1000000)]] }
     let s := wTabs [t] wS
     tabAt s 0 = some t ∧ (candidates s).contains (refCount t 1, 0, 1) = true ∧
     (candidates s).all (fun c => !movesBefore c (refCount t 1, 0, 1)) = true ∧ s.path.hotBytes ≠ 0 ∧ mayMove s t = true ∧
     hotOf t 1 = none ∧ hotPlaces s (tbStride t) ≠ []) ∧
    (∀ n, n ∈ [0, 1000000] → 4 * n < dirNum (wHot .forwarded n) (ent 0xC060 2) ∨ dirNum (wHot .forwarded n) (ent 0xC060 2) ≤ 4 * n) ∧
    (tabAt (wHot .forwarded 0) 0).isSome = true ∧
    bankUp (wHot .moving 0) (tabRow wTab 1) = true ∧ inStack 0x30000000000 = false ∧ (0x30000000000 : Nat) % 8 = 0 ∧
    tbStride wTab % 8 = 0 ∧ tabRow wTab 1 % 8 = 0 := by decide +kernel

theorem witness_hot_clean (st : HotSt) : Clean (wHot st 0) (tabRow wTab 1) (tbStride wTab) ∧
    Clean (wHot st 0) 0x30000000000 (tbStride wTab) := by
  cases st <;> exact ⟨⟨by decide +kernel, by decide +kernel⟩, ⟨by decide +kernel, by decide +kernel⟩⟩

/-! ## Huchefen Transport -/

/-- A packet of one kind with its CRC. -/
def wPkt (kind ver sid pm idx cnt : Nat) (pl : Bytes) : Packet :=
  let h := pktHeader kind ver sid 0 pm idx cnt pl.length false
  let w := fun i => BitVec.ofNat 64 (fieldLE h (8 * i) 8)
  let p : Packet := ⟨0, false, 0x0A000001, 5000, 0, 44 + pl.length, w 0, w 1, w 2, w 3, pl, [], 0⟩
  { p with crc := BitVec.ofNat 32 (crc32c (pkHeader p ++ pl)) }

/-- An open version 3 session of tenant 3 with NOTEs. -/
def wSess : Sess := ⟨1, .tenant, 3, false, 3, false, 1, 8192, [], 0, [], ⟨0, false, 0x0A000001, 5000⟩, 0, none⟩

/-- A serving node whose sub-port 0 is up and whose tenant 3 serves, with sessions. -/
def wHost (l : List Sess) : State :=
  let s := wDir 0x3503 2 100 (wDir 0xB100 2 1 (wNode wS))
  { s with hxt := { s.hxt with sessions := l }, trf := { s.trf with tenants := [(3, ⟨true, none, false, 0, 0, 0, false, false, false, []⟩)] } }

/-- A message of type `ty`, object `obj`. -/
def wMsg (ty obj : Nat) (body : Bytes) : Bytes :=
  leBytes 8 (ty + fld 3 24) ++ leBytes 8 obj ++ leBytes 4 body.length ++ leBytes 4 (crc32c body) ++ zeros 8 ++ body

/-- A partial envelope of one of two segments. -/
def wHalf : Asm := newAsm (wHost [wSess]) wSess (wPkt 1 3 1 9 1 2 [1, 2, 3])

theorem witness_EnvelopesAreReassembled :
    (let s := wHost []
     let p := wPkt 1 3 4 9 0 1 (wMsg 1 0 [])
     portUp s p.port = true ∧ pkKind p = 1 ∧ pkGood { p with crc := 0 } = false ∧ PacketIn s 1 p ∧
     sess? s (pkSession p) = none ∧ pkIndex p = 0 ∧ s.hxt.unknown = []) ∧
    (let s := wHost [wSess]
     let p := wPkt 1 3 1 9 0 1 (wMsg 1 0 [])
     let a := newAsm s wSess p
     let a' := { a with segs := smPut a.segs (pkIndex p) (segOf p), queue := asmQueue a p, colour := 0, addr := asmAddr a p }
     PacketIn s 1 p ∧ sess? s (pkSession p) = some wSess ∧ NoPolicer s wSess ∧ pkVersion p = wSess.version ∧ asm? s 1 9 = none ∧
     a.ended = false ∧ smGet? a.segs (pkIndex p) = none ∧ segAgrees a p = true ∧ movedFit s a p = true ∧
     greenRoom s a p = true ∧ asmMessage a' = some (wMsg 1 0 []) ∧ admissionFault s wSess a' (wMsg 1 0 []) = none ∧
     windowOut { wSess with high := 9 } (pkMark p) 1 = .run) ∧
    (let s := wHost [wSess]
     let p := wPkt 1 3 1 9 1 2 [1, 2, 3]
     PacketIn s 1 p ∧ segAgrees wHalf p = true ∧ movedFit s wHalf p = true ∧ greenRoom s wHalf p = true ∧
     ([(1, segOf p)] : SMap Seg).length ≠ wHalf.count) ∧
    (let s := { wHost [wSess] with hxt := { (wHost [wSess]).hxt with asm := [wHalf] }, clk := { wS.clk with now := 2 ^ 40 } }
     asm? s 1 9 = some wHalf ∧ wHalf.at_ + usCycles (dirNum s (ent 0xB010 4)) ≤ s.clk.now ∧ wHalf.ended = false ∧
     asmMessage wHalf = none) := by
  simp only [PacketIn, NoPolicer]; decide +kernel

/-- A HELLO of tenant 3 for every version, with NOTEs, by its key. -/
def wHello : Bytes := leBytes 8 0x1234 ++ [7, 0, 3, 4] ++ leBytes 2 8192 ++ zeros 2

/-- The open challenge of a HELLO. -/
def wChal : Chal := ⟨1, false, 0, 0, wHello, leBytes 8 0x1234 ++ zeros 312, zeros 48, 0, 3, false, 3, 4, 8192⟩

/-- A node with a key for tenant 3 and open challenges. -/
def wDoor (l : List Chal) (x : List Sess) : State :=
  let s := wHost x
  { s with hxt := { s.hxt with chals := l }, sec := { s.sec with psk := [(3, zeros 32)] } }

theorem slice_left (a x : Bytes) (o n : Nat) (h : o + n ≤ a.length) : slice (a ++ x) o n = slice a o n := by
  have e : (((a ++ x).drop o).take n) = ((a.drop o).take n) := by
    rw [List.drop_append_of_le_length (by omega), List.take_append_of_le_length (by rw [List.length_drop]; omega)]
  simp only [slice, e]

theorem slice_right (a x : Bytes) (o n : Nat) : slice (a ++ x) (a.length + o) n = slice x o n := by
  have e : (a ++ x).drop (a.length + o) = x.drop o := by
    rw [List.drop_append, List.drop_of_length_le (by omega), Nat.add_sub_cancel_left]; rfl
  simp only [slice, e]

theorem slice_len (b : Bytes) (o n : Nat) : (slice b o n).length = n := by
  simp [slice, zeros, List.length_take, List.length_drop] <;> omega

theorem slice_all (b : Bytes) : slice b 0 b.length = b := by simp [slice, zeros]

theorem xor_bit (x : Nat) (h : x < 2 ^ 32) : crcBit x < 2 ^ 32 := by
  rw [crcBit]; split
  · exact Nat.xor_lt_two_pow (by rw [Nat.shiftRight_eq_div_pow]; omega) (by decide)
  · rw [Nat.shiftRight_eq_div_pow]; omega

theorem crc_lt (b : Bytes) : crc32c b < 2 ^ 32 := by
  have f : ∀ (l : Bytes) (c : Nat), c < 2 ^ 32 → l.foldl crcByte c < 2 ^ 32 := by
    intro l; induction l with
    | nil => intro c h; exact h
    | cons x t ih =>
      intro c h
      refine ih _ ?_
      have := x.isLt
      iterate 8 refine xor_bit _ ?_
      exact Nat.xor_lt_two_pow h (by omega)
  exact Nat.xor_lt_two_pow (f b _ (by decide)) (by decide)

/-- A packet of this form is well formed, whatever its payload holds. -/
theorem pkt_good (kind sid : Nat) (pl : Bytes) (n : Nat) (h : pl.length = n) (n8 : n ≤ 8192)
    (q : (let p := wPkt kind 3 sid 0 0 1 (zeros n)
      p.udpLen == 44 + pkLen p && p.payload.length == pkLen p && hostKind (pkKind p) && inR (pkVersion p) 1 3 && !pkTagged p
        && bits p.w0.toNat 15 8 == 0 && bits p.w0.toNat 31 25 == 0 && bits p.w3.toNat 31 0 == 0) = true) :
    pkGood (wPkt kind 3 sid 0 0 1 pl) = true := by
  have z : (zeros n).length = n := by simp [zeros]
  have c := crc_lt (pkHeader (wPkt kind 3 sid 0 0 1 pl) ++ pl)
  have e : (wPkt kind 3 sid 0 0 1 pl).crc.toNat = crc32c (pkHeader (wPkt kind 3 sid 0 0 1 pl) ++ pl) := by
    show (BitVec.ofNat 32 (crc32c (pkHeader (wPkt kind 3 sid 0 0 1 pl) ++ pl))).toNat = _
    rw [BitVec.toNat_ofNat, Nat.mod_eq_of_lt c]
  simp only [wPkt, pkLen, pkKind, pkVersion, pkTagged, z, Bool.and_eq_true, Bool.not_eq_true'] at q
  simp only [pkGood, e, pkLen, pkKind, pkVersion, pkTagged]
  simp only [wPkt, h, List.append_nil]
  simp only [q, Bool.and_true, beq_self_eq_true]
  have w := beq_iff_eq.1 q.1.1.1.1.1.1.2
  rw [← w]; simp [n8]

/-- The proof of a RESPONSE to that challenge, with a nonce of zeros. -/
def wProof : Bytes := slice (Config.hmac384 (zeros 32) (zeros 48 ++ zeros 48 ++ wHello)) 0 48

/-- The RESPONSE. -/
def wResp : Bytes := (leBytes 8 0x1234 ++ zeros 152) ++ (wProof ++ zeros 112)

theorem proof_len : wProof.length = 48 := slice_len _ _ _

theorem resp_after (o n : Nat) : slice wResp (208 + o) n = slice (zeros 112) o n := by
  have e := slice_right (leBytes 8 0x1234 ++ zeros 152) (wProof ++ zeros 112) (48 + o) n
  have f := slice_right wProof (zeros 112) o n
  rw [proof_len] at f
  rw [f] at e
  rw [← e, wResp, show (leBytes 8 0x1234 ++ zeros 152).length = 160 from rfl]
  congr 1; omega

theorem resp_before (o n : Nat) (h : o + n ≤ 160) : slice wResp o n = slice (leBytes 8 0x1234 ++ zeros 152) o n :=
  slice_left _ _ _ _ h

theorem resp_proof : slice wResp 160 48 = wProof := by
  have e := slice_right (leBytes 8 0x1234 ++ zeros 152) (wProof ++ zeros 112) 0 48
  rw [slice_left wProof (zeros 112) 0 48 (by rw [proof_len] <;> decide)] at e
  have f := slice_all wProof
  rw [proof_len] at f
  rw [f] at e; exact e

theorem resp_len : wResp.length = 320 := by
  simp only [wResp, List.length_append, proof_len]; decide +kernel

theorem resp_certs : fieldLE wResp 304 2 = 0 := by
  have e := field_app (leBytes 8 0x1234 ++ zeros 152) (wProof ++ zeros 112) (48 + 96) 2
  have f := field_app wProof (zeros 112) 96 2
  rw [proof_len] at f
  rw [f] at e
  exact e

theorem resp_fields : responseFields wResp false = false := by
  simp only [responseFields, resp_len, resp_certs, resp_before 153 7 (by decide), resp_before 56 97 (by decide),
    show slice wResp 306 14 = _ from resp_after 98 14, show slice wResp 208 96 = _ from resp_after 0 96]
  decide +kernel

theorem resp_proves : proveHost (wDoor [wChal] []) wChal wResp = some (.tenant, 3) := by
  have e : slice wResp 8 48 = zeros 48 := by rw [resp_before 8 48 (by decide)]; decide
  rw [proveHost, if_neg (by decide), show smGet? (wDoor [wChal] []).sec.psk wChal.tenant = some (zeros 32) from rfl]
  simp only [e, resp_proof]
  exact if_pos (by simp; exact ⟨by decide, rfl⟩)

theorem resp_packet : PacketIn (wDoor [wChal] []) 0x12 (wPkt 0x12 3 1 0 0 1 wResp) :=
  ⟨by decide +kernel, by decide +kernel, pkt_good _ _ _ 320 resp_len (by decide) (by decide +kernel), rfl⟩

theorem witness_SessionsOpenAndClose :
    (let p := wPkt 0x10 1 0 0 0 1 wHello
     PacketIn (wDoor [] []) 0x10 p ∧ helloBad p = false ∧ agreeVersion (fieldLE wHello 8 1) (dirNum (wDoor [] []) (ent 0xB010 2)) ≠ 0 ∧
     fieldLE wHello 9 1 = 0 ∧ tenantServes (wDoor [] []) 3 = true ∧ overSessions (wDoor [] []) 3 = false ∧
     openChals (wDoor [] []) < 256 ∧ helloBad (wPkt 0x10 1 0 0 0 1 []) = true ∧ PacketIn (wDoor [] []) 0x10 (wPkt 0x10 1 0 0 0 1 [])) ∧
    (let s := wDoor [wChal] []
     s.hxt.chals.find? (fun c => c.sid == 1 && !c.chain && slice c.hello 0 8 == slice (leBytes 8 0x1234) 0 8) = some wChal ∧
     s.clk.now ≤ wChal.at_ + usCycles 10000 ∧ tenantServes s 3 = true ∧ overSessions s 3 = false ∧ s.hxt.sessions = []) ∧
    (let s := wDoor [] [wSess]
     let p := wPkt 0x15 3 1 0 0 1 []
     PacketIn s 0x15 p ∧ sess? s (pkSession p) = some wSess ∧ NoPolicer s wSess ∧
     s.clk.tick < wSess.lastTick + dirNum s (ent 0xB010 3) ∧
     (let u := { s with clk := { s.clk with tick := 2 ^ 40 } }
      wSess.lastTick + dirNum u (ent 0xB010 3) ≤ u.clk.tick)) := by
  simp only [PacketIn, NoPolicer]; decide +kernel

/-- A response without an open challenge. -/
theorem witness_resp_stray : PacketIn (wDoor [] []) 0x12 (wPkt 0x12 3 1 0 0 1 (zeros 8)) ∧ (wDoor [] []).hxt.chals = [] := by
  simp only [PacketIn]; decide +kernel

/-- The response above finds its challenge. -/
theorem witness_resp_finds : pkSession (wPkt 0x12 3 1 0 0 1 wResp) = 1 ∧ slice wResp 0 8 = leBytes 8 0x1234 ∧
    responseBad (wPkt 0x12 3 1 0 0 1 wResp) false = false :=
  ⟨by decide +kernel, by rw [resp_before 0 8 (by decide)]; decide,
    by rw [responseBad, show (wPkt 0x12 3 1 0 0 1 wResp).payload = wResp from rfl, resp_fields]; decide +kernel⟩

/-- Tenant 3 with pending NOTEs, sent `k` times. -/
def wNoted (k : Nat) : State :=
  let s := { wHost [wSess] with clk := { wS.clk with tick := 2 ^ 40 } }
  { s with hxt := { s.hxt with notes := [(3, ⟨[⟨1, 5, [], 0, 0, k, 0⟩], 2, 0⟩)] } }

/-- A request of a type, state and number. -/
def wR (type rid obj : Nat) (st : ReqSt) : Req := { wReq with type := type, rid := rid, pm := rid, obj := obj, st := st }

/-- A KERNEL_RUN of one thread on core 0. -/
def wKernB : Bytes := zeros 16 ++ leBytes 2 1 ++ zeros 2 ++ leBytes 4 10 ++ zeros 8 ++ [1] ++ zeros 63

theorem witness_NotesPingsCancelsAndKernels :
    (let s := wNoted 1
     let p := wPkt 4 3 1 1 0 1 []
     PacketIn s 4 p ∧ sess? s (pkSession p) = some wSess ∧ 3 ≤ wSess.version ∧ isMgmtPath wSess = false ∧ NoPolicer s wSess ∧
     (notesOf s 3).pending.all (fun n => n.sends != 0) = true ∧ noteSess s 3 = some wSess ∧ portUp s wSess.addr.port = true ∧
     ((smGet? s.trf.tenants 3).all (fun y => !y.resetting)) = true ∧ ((notesOf s 3).pending.map (fun n => n.seq)).Nodup ∧
     (notesOf s 3).pending.all (fun n => decide (n.lastTick + dirNum s (ent 0xB010 5) ≤ s.clk.tick)) = true) ∧
    (notesOf (wNoted 9) 3).pending.all (fun n => decide (8 < n.sends)) = true ∧
    req? (wReqs [wR 1 1 0 .admitted] wS) 1 = some (wR 1 1 0 .admitted) ∧
    (let s := wReqs [wR 2 1 2 .admitted, wR 0x0103 2 0 .waiting] wS
     s.hxt.reqs.find? (fun r => r.sid == 1 && r.pm == 2 && r.st == .waiting) = some (wR 0x0103 2 0 .waiting) ∧
     req? s 2 = some (wR 0x0103 2 0 .waiting)) ∧
    (∀ ty, ty ∈ [0x0103, 0x0104] → (let s := wReqs [wR 2 1 2 .admitted, wR ty 2 0 .executing] wS
     s.hxt.reqs.find? (fun r => r.sid == 1 && r.pm == 2 && r.rid != 1 && r.type != 2) = some (wR ty 2 0 .executing) ∧
     asm? s 1 2 = none ∧ mutating ty = (ty == 0x0104))) ∧
    Admitted (wReqs [wAdm 0x0401 0 wKernB] wS) 1 0x0401 (wAdm 0x0401 0 wKernB) ∧
    (∀ n, n ∈ [0, 10] → (let r := { wReq with body := wKernB, rounds := n }
     let s := wDir 0x3503 2 100 (wReqs [r] wS)
     req? s 1 = some r ∧ r.type = 0x0401 ∧ r.stage = 2 ∧ 0 < r.threads ∧
     min (fieldLE r.body 20 4) (dirNum s (ent 0x3503 2)) = 10)) := by
  simp only [PacketIn, NoPolicer, Admitted]; decide +kernel

/-! ## Time, admission, the directory -/

/-- A serving node whose timetable counts. -/
def wTick (s : State) : State := { s with clk := { s.clk with counting := true } }

/-- A held receipt ready to go. -/
def wHeldR : Req := { wR 0x0304 1 5 .held with cls := 0, points := [3], ready := some (0, 1, [7]) }

theorem witness_BoundariesMoveTimeOn : wS.phase = .serving ∧ (wTick wS).clk.counting = true ∧ State.reset.phase ≠ .serving ∧
    wS.clk.post ≤ (max wS.clk.now 5 : Nat) ∧
    (let s := { wTick wS with trf := { wS.trf with commit := [(2, 0)] } }
     smGet? s.trf.commit 2 = some 0 ∧ 0 ≤ frameNo s) ∧
    (let s := wTick wS
     sincePost s % frameCycles = 0 ∧ frameNo s % max 1 (dirNum s (ent 0x3010 4)) = 0) ∧
    nodeAwake wS = true ∧ req? (wReqs [wHeldR] wS) 1 = some wHeldR ∧ wHeldR.st = .held ∧ wHeldR.ready = some (0, 1, [7]) := by
  decide +kernel

/-- Tenant 3's reset under way. -/
def wResetting : State :=
  { wHost [] with trf := { wS.trf with tenants := [(3, ⟨true, none, true, 1, 2, 5, false, false, false, [4]⟩)] } }

theorem witness_AdmissionAndTenantReset :
    (let s := wReqs [wR 0x0103 1 0 .waiting, { wR 0x0501 2 0 .waiting with mgmt := true }] wS
     (s.hxt.reqs.map (fun r => r.rid)).Nodup ∧ s.hxt.reqs.all (fun r => decide (queuePrio s (16 * r.tenant + r.queue) ≤ 7)) = true ∧
     s.hxt.reqs.all (mayAdmit s) = true) ∧
    wS.path.parts = [] ∧ (tenantSt wResetting 3).resetting = true ∧ resetBusy wResetting 3 = false ∧ noteSess wResetting 3 = none ∧
    (let s := { wResetting with sea := { wResetting.sea with threads := [(0, wKern)] } }
     (tenantSt s 3).resetting = true ∧ resetBusy s 3 = true) ∧
    (tenantSt wS 3).resetting = false := by decide +kernel

/-- An operator of session 9. -/
def wOp : Actor := ⟨.operator, 0, 9, false⟩

/-- A security officer. -/
def wOff : Actor := ⟨.security, 0, 9, false⟩

theorem witness_DirectoryReadsAndWrites : dirServed wS = true ∧ wS.dir.commits = [] ∧ wS.dir.waiting = [] ∧
    WriteRow (.rwcWrite wOp (ent 0x3010 2) (.num 70)) wOp (ent 0x3010 2) (.num 70) ∧
    WriteRow (.enabled wOp 3 (.num 1)) wOp (ent 0x3103 1) (.num 1) ∧
    isSlotObj (ent 0x3010 2) = false ∧ checkWrite wS wOp (ent 0x3010 2) (.num 70) = 0 ∧ checkWrite wS wOp (ent 0x1001 1) (.num 7) ≠ 0 ∧
    (catRow (ent 0x3010 2)).any (fun r => r.acc == 1) = true ∧
    (catRow (ent 0x5020 1)).any (fun r => r.acc == 3) = true ∧ checkWrite wS wOp (ent 0x5020 1) (.num 1) = 0 ∧
    checkWrite wS wOp (ent 0x3203 1) (.num 1) = 0 ∧ checkWrite wS wOp (qObj 3 2 5) (.num 1) = 0 ∧
    checkWrite wS wOp (ent 0x3302 2) (.num 40) = 0 ∧ checkWrite wS wOp (qObj 3 2 0x10) (.num 1) = 0 ∧
    checkWrite wS wOp (ent 0x3103 2) (.num 40) = 0 ∧ checkWrite wS wOff (ent 0xB102 0xA) (.blob (zeros 52)) = 0 ∧
    checkWrite wS wOp (ent 0x1010 0xD) (.num 1) = 0 ∧ checkWrite wS wOp (ent 0xA020 1) (.num 1) = 0 ∧
    (let s := { wS with dir := { wS.dir with commits := [(ent 0x2010 3, .none)] } }
     s.dir.commits ≠ [] ∧ ¬(0x3100 ≤ ent 0x2010 3 / 256 ∧ ent 0x2010 3 / 256 ≤ 0x313F)) ∧
    (let s := wDir 0x3103 1 0 (wHost [])
     dirNum s (ent 0x3103 1) = 0 ∧ (tenantSt s 3).active = true) ∧
    (let s := wDir 0x3103 1 1 wS
     dirNum s (ent 0x3103 1) ≠ 0 ∧ (tenantSt s 3).active = false) ∧
    (let r := { wAdm 0x0501 (ent 0x3010 2) [] with level := .operator, mgmt := true }
     let s := wReqs [r] wS
     req? s 1 = some r ∧ (readEntry s (reqActor r) r.obj).1 = 0 ∧ (readEntry s (reqActor r) (ent 0x7777 1)).1 ≠ 0) ∧
    (let r := { wAdm 0x0502 (ent 0xA010 2) [5] with level := .operator, mgmt := true }
     let s := wReqs [r] wS
     req? s 1 = some r ∧ checkWrite s (reqActor r) r.obj (valueFrom r.obj r.body) = 0 ∧
     checkWrite s { reqActor r with level := .tenant } r.obj (valueFrom r.obj r.body) ≠ 0 ∧
     (catRow r.obj).any (fun e => e.acc == 1 && e.per != 2) = true) ∧
    dirServed { wS with err := { wS.err with mcDown := true } } = false := by
  simp only [WriteRow]; decide +kernel

/-- Slot 2 held by the operator. -/
def wHeldSlot (x : XSlot) : State := { wS with dir := { wS.dir with slots := [(2, x)] } }

/-- The slot open for 4 bytes of 0x3010:02, `d` of them written. -/
def wSl (read : Bool) (d : Bytes) (st : Nat) : XSlot := ⟨9, false, ent 0x3010 2, read, 4, d.length, d, st, 0, 0⟩

theorem witness_TransferSlotsMoveLargeValues : dirServed wS = true ∧ checkWrite wS wOp (ent 0x1022 1) (.num (ent 0x3010 2)) = 0 ∧
    (let s := wHeldSlot (wSl false [] 1)
     checkWrite s wOp (ent 0x1022 2) (.num 0) = 0 ∧ checkWrite s wOp (ent 0x1022 2) (.num 1) = 0 ∧
     isSlotObj (ent 0x3010 2) = false ∧ (catRow (ent 0x3010 2)).isSome = true ∧
     checkWrite s wOp (ent 0x1022 5) (.blob [1, 2]) = 0) ∧
    (let s := wHeldSlot { wSl true [1, 2, 3, 4] 1 with offset := 0 }
     slotOwn s wOp 2 = true ∧ (xslot s 2).read = true ∧ mayRead s wOp (ent 0x1022 5) = true) ∧
    (let s := wHeldSlot (wSl false [70, 0, 0, 0] 2)
     checkWrite s wOp (ent 0x1022 6) (.num 1) = 0 ∧ (catRow (ent 0x3010 2)).any (fun r => r.acc == 1) = true) ∧
    (let s := wHeldSlot { wSl false [1, 2, 3, 4] 2 with target := ent 0x1001 1 }
     checkWrite s wOp (ent 0x1022 6) (.num 1) ≠ 0 ∧ slotOwn s wOp 2 = true ∧ mayWrite s wOp (ent 0x1022 6) = true) ∧
    (let s := { wHeldSlot (wSl false [] 1) with clk := { wS.clk with tick := 2000 } }
     (xslot s 2).state ≠ 0 ∧ (xslot s 2).lastTick + 1600 ≤ s.clk.tick) ∧
    wS.clk.tick < (xslot wS 2).lastTick + 1600 := by decide +kernel

/-! ## The management chain and the ports -/

/-- A node on the chain: version 2, address 7, MGT_ENUM_IN high since cycle 0, with a claim and chain sessions. -/
def wChain (addr : Nat) (cl : Option (Nat × Nat × Nat)) (l : List CSess) : State :=
  let s := wDir 0x1010 2 2 (wDir 0x1010 1 addr wS)
  { s with chain := { s.chain with enumIn := true, claim := cl, sessions := l }, clk := { s.clk with aon := 1000 } }

theorem witness_EnumerationTakesAnAddress : chainServed (wChain 0 none []) = true ∧ offerGood (wChain 0 none []) 7 2 = true ∧
    offerGood (wChain 0 none []) 0 2 = false ∧
    (let s := wChain 0 (some (7, 2, 900)) []
     s.chain.claim = some (7, 2, 900) ∧ aonNow s ≤ 900 + 16000) ∧
    (let s := { wChain 0 (some (7, 2, 900)) [] with clk := { wS.clk with aon := 2 ^ 30 } }
     900 + 16000 < aonNow s) ∧
    dirServed (wChain 0 none []) = true ∧ (wChain 0 none []).chain.busOff = false := by decide +kernel

/-- A chain session of the manager at address 3, whose last request was `last`, with its answer's state. -/
def wCSess (last st : Nat) : CSess := ⟨5, 3, .operator, 0xFF, zeros 32, last, (st, 0, []), 0, none⟩

/-- An untagged request. -/
def wAskC (req obj ty : Nat) (b : Bytes) : ChainMsg := ⟨3, 5, paddedLen (16 + b.length), b.length, 2, 0, req, obj, ty, 0, 0, b, []⟩

/-- The request with its tag. -/
def wTagged (req obj ty : Nat) (b : Bytes) : ChainMsg :=
  let m : ChainMsg := ⟨3, 5, paddedLen (32 + b.length), b.length, 2, 1, req, obj, ty, 0, 0, b, []⟩
  { m with tag := slice (Config.hmac384 (zeros 32) (reqHeader m ++ b)) 0 16 }

theorem tagged_whole (req obj ty : Nat) (b : Bytes) (h : msgBad { wTagged req obj ty b with tag := zeros 16 } 4096 = false) :
    msgBad (wTagged req obj ty b) 4096 = false := by
  have l : (wTagged req obj ty b).tag.length = 16 := slice_len _ _ _
  have z : (zeros 16).length = 16 := rfl
  simp only [msgBad, msgLen, l, z] at h ⊢
  exact h

theorem tagged_good (last st req obj ty : Nat) (b : Bytes) :
    chainTagGood (wChain 7 none [wCSess last st]) (wTagged req obj ty b) = true := by
  rw [chainTagGood, show (if chainVersion (wChain 7 none [wCSess last st]) = 1 then none
    else chainSess (wChain 7 none [wCSess last st]) (wTagged req obj ty b).src) = some (wCSess last st) from rfl]
  simp only [wTagged, wCSess, Bool.and_eq_true]
  exact ⟨rfl, beq_iff_eq.2 rfl⟩

theorem witness_ChainRequestsAndAlerts : chainServed (wChain 7 none []) = true ∧ addressed (wChain 7 none []) = true ∧
    msgBad { wAskC 1 5 2 [] with rsv := 1 } 8193 = true ∧
    (let m := wAskC 1 0 0 ([0x10] ++ leBytes 8 9 ++ [7, 1, 0xFF, 0] ++ leBytes 2 8192 ++ zeros 2)
     let s := { wChain 7 none [] with sec := { wS.sec with idKey := true } }
     msgBad m 8193 = false ∧ m.version = chainVersion s ∧ chainVersion s ≠ 1 ∧ fieldLE m.body 0 1 = 0x10 ∧
     helloFields (m.body.drop 1) = false ∧ agreeVersion (fieldLE (m.body.drop 1) 8 1) (dirNum s (ent 0xB010 2)) ≠ 0 ∧
     fieldLE (m.body.drop 1) 9 1 ≠ 0 ∧ s.sec.idKey = true) ∧
    (let b := [0x10] ++ leBytes 8 9 ++ [7, 0, 3, 0] ++ leBytes 2 8192 ++ zeros 2
     helloFields (b.drop 1) = false ∧ fieldLE (b.drop 1) 9 1 = 0) ∧
    (let s := wChain 7 none []
     let m := wAskC 1 (ent 0x1001 1) 0 []
     msgBad m 4096 = false ∧ m.version = chainVersion s ∧ chainTagGood s m = true ∧ m.flags = 0 ∧
     s.dir.commits = [] ∧ s.dir.waiting = []) ∧
    (let s := wChain 7 none [wCSess 4 0xFF]
     s.chain.sessions.find? (fun x => x.sid == 5) = some (wCSess 4 0xFF) ∧
     s.clk.tick < (wCSess 4 0xFF).lastTick + dirNum s (ent 0x1010 4) ∧
     (let u := { s with clk := { s.clk with tick := 2 ^ 40 } }
      (wCSess 4 0xFF).lastTick + dirNum u (ent 0x1010 4) ≤ u.clk.tick)) ∧
    alertsOn (wChain 7 none []) = true := by decide +kernel

theorem witness_chain_tagged : let s := wChain 7 none [wCSess 4 0xFF]
    let m := wTagged 5 (ent 0xA010 2) 1 [5]
    msgBad m 4096 = false ∧ m.version = chainVersion s ∧ reqSess s m = some (wCSess 4 0xFF) ∧ chainTagGood s m = true ∧
      (wCSess 4 0xFF).stored.1 = storedNone ∧ (s.chain.sessions.map (fun y => y.sid)).Nodup ∧ isSlotObj m.obj = false ∧
      chainActor (some (wCSess 4 0xFF)) = ⟨.operator, 0xFF, 5, true⟩ ∧
      checkWrite s ⟨.operator, 0xFF, 5, true⟩ (ent 0xA010 2) (valueFrom (ent 0xA010 2) [5]) = 0 ∧
      typeOf (ent 0xA010 2) = 1 :=
  ⟨tagged_whole _ _ _ _ (by decide +kernel), rfl, rfl, tagged_good _ _ _ _ _ _, rfl, by decide +kernel, by decide +kernel,
    by decide +kernel, by decide +kernel, by decide +kernel⟩

/-- A repeat of the last request, and a lower one. -/
theorem witness_chain_repeats : (wTagged 4 (ent 0x1001 1) 0 []).req = (wCSess 4 0).last ∧ (wCSess 4 0).stored.1 ≠ storedNone ∧
    (wCSess 4 0).stored.1 ≠ storedDue ∧ (wTagged 3 (ent 0x1001 1) 0 []).req < (wCSess 4 0).last := by
  refine ⟨rfl, by decide, by decide, by decide⟩

/-- Packets waiting on sub-port 0. -/
def wOuts (l : List OutPkt) : State := let s := wHost [wSess]; { s with hxt := { s.hxt with out := l } }

/-- A data packet of tenant 3, and a control packet. -/
def wOut (ctl : Bool) : OutPkt := ⟨0, ctl, 3, 0, wSess.addr, 2, zeros 64, 0, 0, false⟩

/-- A question for the address of sub-port 0. -/
def wAskN (v : Option Nat) : NetAsk := ⟨false, false, 0x0A000002, 0x0A000009, v, false⟩

theorem witness_PortsSelectRiseAndFall : portUp (wOuts []) 0 = true ∧ mayTransmit (wOuts []) = true ∧
    smGetD (wOuts []).trf.busy 0 0 ≤ (wOuts []).clk.now ∧
    (wOuts [wOut true]).hxt.out.find? (fun k => k.ctl && k.port == 0) = some (wOut true) ∧
    selectBox (markWaits 0 (wOuts [])) 0 = none ∧
    ((selectBox (markWaits 0 (wOuts [wOut false])) 0).map (fun c => c.2)) = some 48 ∧
    headOf (markWaits 0 (wOuts [wOut false])) 0 48 = some (wOut false) ∧ portUp (wOuts []) 1 = false ∧
    (let s := wDir 0xB100 3 0x0A000002 (wOuts [])
     frameOk s 0 (wAskN none) = true ∧ ownAddress s 0 (wAskN none) = true ∧ frameOk s 0 (wAskN (some 5)) = false) ∧
    (let v := takeArrangement 0 wS
     portPresent v 0 = true ∧ portsDriven wS = true ∧ (portSt wS 0).held = none ∧ 1 ∉ wS.pins.refsLost ∧ portUp v 0 = false) ∧
    portsDriven State.reset = false ∧
    (let s := { wS with pins := { wS.pins with ports := [(0, ⟨[], some 100⟩)] } }
     (portSt s 0).held = some 100 ∧ s.clk.tick < 100 + 16000 ∧
     100 + 16000 ≤ { s with clk := { s.clk with tick := 2 ^ 30 } }.clk.tick) := by decide +kernel

/-! ## Letters and power -/

/-- A pigeonhole of this node: class and number. -/
def wHole (cls n : Nat) : Nat := 5 * 2 ^ 20 + cls * 2 ^ 16 + n

/-- A letter of the system, or of tenant 3, from an engine or from a thread. -/
def wLet (dest : Nat) (sys engine : Bool) : Letter := ⟨5, if engine then 5 * 8192 else 1 * 8192, sys, 3, 0, 0, dest, zeros 48⟩

/-- Letters in transit. -/
def wWay (l : List Letter) (s : State) : State := { s with pwr := { s.pwr with transit := l } }

/-- A fabric message to this node: kind, tenant, stream, tag, address. -/
def wFab (kind dest tag address : Nat) (inl data : Bytes) : FabMsg :=
  let w := hdrWords { ownHdr wS kind data.length dest 3 0 tag 0 address with source := 6 }
  ⟨0, 0, w.1, w.2.1, w.2.2.1, w.2.2.2, inl, data, false, false⟩

/-- A waiting thread, and a thread whose pigeonhole holds `n` letters. -/
def wBox (n : Nat) (run : Run) : State := wSt [(0, { wThread wStore with run := run, box := List.replicate n (wLet (wHole 1 0) true false) })]

theorem witness_LettersReachTheirPigeonholes :
    (let l := wLet (wHole 1 0) true false
     phPost l.dest = recPost wS ∧ phClass l.dest = 1 ∧ phNum l.dest / 16 < nCores wS ∧ (deliver l wS).1 = .done ∧
     clHolds wS (clusterOf 0) = false ∧ isLent wS 0 = false ∧ (thread wS 0).box.length < 8 ∧ (thread wS 0).run = .running) ∧
    (let l := wLet (wHole 1 0) true true
     fromEngine l = true ∧ 8 ≤ (thread (wBox 8 .running) 0).box.length ∧ (deliver l (wBox 8 .running)).1 = .kept ∧
     fromEngine (wLet (wHole 1 0) true false) = false) ∧
    phPost (wLet (6 * 2 ^ 20) true false).dest ≠ recPost wS ∧
    (let s := { wS with sea := { wS.sea with outq := [(0, [wLet (wHole 1 0) true false])] } }
     s.pwr.transit = [] ∧ (deliver (wLet (wHole 1 0) true false) (setOutq 0 [] s)).1 = .done) ∧
    (let m := wFab 7 5 0 0 [] (letterBytes (wLet (wHole 1 0) true false))
     fabricOn wS = true ∧ (msgHdr m).kind = 7 ∧ headerVerdict wS (msgHdr m) = 0 ∧ (msgHdr m).dest = recPost wS) ∧
    (thread (wBox 0 (.waitLetter 0 0 1)) 0).run = .waitLetter 0 0 1 ∧ (thread (wBox 0 (.waitLetter 0 0 1)) 0).box = [] ∧
    (let s := { wS with pwr := { wS.pwr with clusters := [(0, .powerGated)] } }
     clHolds s 0 = true ∧ (smGetD s.pwr.holding 0 []).length < 8) ∧
    (let s := { wS with pwr := { wS.pwr with clusters := [(0, .gating)],
                                             holding := [(0, List.replicate 8 (wLet (wHole 1 0) true false))] } }
     clHolds s 0 = true ∧ 8 ≤ (smGetD s.pwr.holding 0 []).length) ∧
    (let s := { wSt [] with sea := { (wSt []).sea with kernelK := 4 } }
     isLent s 15 = true ∧ (thread s 15).run = .off ∧ clHolds s (clusterOf 15) = false) ∧
    (phClass (wHole 2 0) = 2 ∧ phClass (wHole 3 0) = 3 ∧ phClass (wHole 4 3) = 4 ∧ phNum (wHole 4 3) = 3 ∧ phClass (wHole 7 0) = 7) ∧
    (notesOf wS 3).pending.length < 256 ∧ noteSess wS 3 = none ∧ wS.pwr.mcBox.length < 256 ∧ wS.pwr.seBox.length < 64 := by
  decide +kernel

/-- A serving node, long after its last activity, without threads. -/
def wIdle : State := let s := wSt []; { s with clk := { s.clk with now := 2 ^ 50, tick := 2 ^ 30 } }

/-- Cluster 20, outside the warm floor of no clusters, in a power state. -/
def wGate (x : ClState) : State := { wIdle with pwr := { wIdle.pwr with clusters := [(20, x)], floor := 0 } }

/-- Die 0 quiet: its clusters gated, its stacks in self-refresh. -/
def wQuiet : State :=
  { wIdle with pwr := { wIdle.pwr with
      clusters := (upFrom 0 (nClusters wIdle)).map (fun c => (c, ClState.powerGated)), floor := 0
      stPower := (upFrom 0 16).map (fun k => (k, StState.selfRefresh)), dieIdle := [(0, 0)] } }

theorem witness_PowerDomainsAndTheCap :
    (20 < nClusters wIdle ∧ clState wIdle 20 = .run ∧ smGetD wIdle.pwr.clLast 20 0 + 64 ≤ wIdle.clk.now ∧
     (clusterThreads wIdle 20).any threadBusy = false ∧ (itemsOf wIdle 20).isEmpty = true ∧ clHolds wIdle 20 = false) ∧
    (clState (wGate (.clockGated 0)) 20 = .clockGated 0 ∧
     0 + dirNum (wGate (.clockGated 0)) (ent 0x4010 2) * frameCycles ≤ (wGate (.clockGated 0)).clk.now ∧
     isWarm (wGate (.clockGated 0)) 20 = false ∧ holdsPower (wGate (.clockGated 0)) 20 = false) ∧
    clState (wGate .gating) 20 = .gating ∧ clState (wGate .waking) 20 = .waking ∧
    (let v := markDies wQuiet
     smGet? v.pwr.dieIdle 0 = some 0 ∧ 0 ∉ wQuiet.pwr.dieStopped ∧ (dieClusters wQuiet 0).any (isWarm wQuiet) = false ∧
     0 + dirNum wQuiet (ent 0x4010 3) * frameCycles ≤ wQuiet.clk.now) ∧
    (stackIdle wIdle 3 = true ∧ stState wIdle 3 = .active ∧ stackLast wIdle 3 + 64 ≤ wIdle.clk.now ∧ stState wQuiet 3 = .selfRefresh) ∧
    (let s := { wIdle with pwr := { wIdle.pwr with stPower := [(3, .powerDown)] } }
     stState s 3 = .powerDown ∧ stackLast s 3 + usCycles (dirNum s (ent 0x4010 4)) ≤ s.clk.now) ∧
    stackIdle { wIdle with stk := [(3, { seqr wIdle 3 with phase := .run })] } 3 = false ∧
    2 ∉ wIdle.pwr.groupsStandby ∧ smGetD wIdle.pwr.grLast 2 0 + usCycles 1000 ≤ wIdle.clk.now ∧
    (let s := { wIdle with pwr := { wIdle.pwr with boosted := true, cap := 1000, below := 3 } }
     s.pwr.boosted = true ∧ s.pwr.mcIdle + dirNum s (ent 0x4010 6) * 1000 ≤ s.clk.now ∧
     100 + dirNum s (ent 0x4020 3) < s.pwr.cap ∧ 3 ≤ s.pwr.below ∧ tooHot s 0 [400] = false ∧ tooHot s 5 [400] = false) ∧
    wIdle.pwr.boosted = false := by decide +kernel

/-! ## Fabric links and messages -/

/-- A timetable image of one node of postcode 5: link 0 to node 6 is its parent, link 1 to node 9 its standby. -/
def wImage : Bytes :=
  zeros 16 ++ leBytes 8 1 ++ leBytes 8 (fld 200 24) ++ leBytes 8 7 ++ zeros 16 ++ leBytes 8 64
    ++ (leBytes 4 5 ++ leBytes 4 288 ++ leBytes 8 80)
    ++ leBytes 8 (6 + fld 2 12 + fld 0xFF 14 + 2 ^ 22) ++ leBytes 8 (9 + fld 2 12 + fld 0xFF 14 + 2 ^ 23) ++ zeros 272

/-- The node with that image and link 0 in a state. -/
def wLink (st : Nat) (f : Fab → Fab) : State :=
  let s := wDir 0x8100 1 st wS
  { s with fab := f { s.fab with image := wImage }, clk := { s.clk with tick := 5000, counting := true } }

/-- A training result. -/
def wTrain (nb lanes delay : Nat) : TrainResult := ⟨true, 2, lanes, nb, 7, delay, 50⟩

/-- A control flit on link 0. -/
def wCtrl (e : Nat) : FabMsg :=
  let w := hdrWords { ownHdr wS 5 0 0 0 0 0 0 0x00030002 with epoch := e, epochC := compl 32 e }
  ⟨0, 0, w.1, w.2.1, w.2.2.1, w.2.2.2, zeros 32, [], false, false⟩

theorem witness_LinksTrainFallAndRecover :
    (linkState (wLink 1 id) 0 = 1 ∧ 2 ∉ (wLink 1 id).pins.refsLost ∧ lanesUsed 0xFF = some 0xFF ∧ lanesUsed 0x11 = none) ∧
    (ownPlan (wLink 1 id) 0).isSome = true ∧ ownPlan wS 0 = none ∧
    trainedState (wLink 1 id) 0 (wTrain 6 0xFF 100) 0xFF = 2 ∧ trainedState (wLink 1 id) 0 (wTrain 9 0xFF 100) 0xFF = 5 ∧
    trainedState (wLink 1 id) 0 (wTrain 6 0x0F 100) 0x0F = 3 ∧ trainedState (wLink 1 id) 0 (wTrain 6 0xFF 60000) 0xFF = 4 ∧
    linkState (wLink 2 id) 0 = 2 ∧
    (let s := wLink 6 (fun f => { f with links := [(0, { LinkSt.init with downs := [100] })] })
     (linkSt s 0).downs = [100] ∧ linkState s 0 = 6 ∧ 100 + 16 ≤ s.clk.tick ∧ staysOut s 0 = false ∧ (linkSt s 0).attempts < 3) ∧
    staysOut (wLink 6 (fun f => { f with links := [(0, { LinkSt.init with downs := [4000, 3990, 3980] })] })) 0 = true ∧
    (let s := wDir 0x8101 1 2 (wLink 6 (fun f => { f with holdSince := some 0 }))
     let u := { s with fab := { s.fab with parent := 1 - s.fab.parent } }
     s.fab.holdSince ≠ none ∧ isSyntonised u = true ∧ isSyntonised s = false) ∧
    (let s := { wLink 6 (fun f => { f with holdSince := some 0 }) with clk := { wS.clk with now := 2 ^ 60 } }
     s.phase = .serving ∧ 0 + 2 ^ 20 * frameCycles ≤ s.clk.now ∧ s.err.halts.length < 4) ∧
    8 ≤ (msgHdr (wFab 9 5 0 0 [] [])).kind ∧
    (let s := wLink 2 id
     (msgHdr (wCtrl 0)).kind = 5 ∧ headerVerdict s (msgHdr (wCtrl 3)) = 2 ∧ headerVerdict s (msgHdr (wCtrl 0)) = 0 ∧ s.fab.held = [] ∧
     slotNames ((upFrom 0 3).map (fun i => fieldLE (wCtrl 0).inl (18 + 2 * i) 2)) = []) ∧
    (let s := wLink 2 (fun f => { f with links := [(0, { LinkSt.init with announced := some 9, tries := [(9, 2)] })] })
     (linkSt s 0).announced = some 9 ∧ nameSlot 9 = 9 ∧ 3 ≤ smGetD (linkSt s 0).tries 9 0 + 1 ∧ (linkSt wS 0).announced = none) := by
  decide +kernel

/-- A scheduled message of tenant 3 to this node. -/
def wSched (address tag : Nat) (inl data : Bytes) : FabMsg := wFab 1 5 tag address (inl ++ zeros (32 - inl.length)) data

/-- A timetable entry with its complement. -/
def wEntry (kind inn outn flits : Nat) : Nat × Nat :=
  let w := fld inn 58 + fld outn 52 + fld kind 48 + fld 3 36 + fld flits 24 + fld 40 13
  (w, compl 64 w)

/-- A message waiting for stream 3. -/
def wFOut : FOut := ⟨3, 6, 3, 1, 0, zeros 28, zeros 64, 0, 0, 0⟩

/-- A merge record for trees to root 0 with one child, 6. -/
def wMergeRec : Bytes := leBytes 8 (fld 1 24) ++ leBytes 8 6 ++ zeros 16

theorem witness_FabricMessagesDoTheirWork : fabricOn State.reset = false ∧ fabricOn wS = true ∧
    headerVerdict wS (msgHdr (wCtrl 3)) = 2 ∧
    (let m := wFab 1 7 0 0 [] []
     headerVerdict wS (msgHdr m) = 0 ∧ (msgHdr m).dest ≠ recPost wS) ∧
    (let m := wSched (pathAddr 0x10 1 0 0 0 0) 9 (zeros 24 ++ leBytes 2 0 ++ leBytes 2 4) (zeros 64)
     MsgIn wS m ∧ (takePiece m wS).1 = none) ∧
    (let m := wSched (pathAddr 0x10 1 0 0 0 0) 9 [] (zeros 80)
     MsgIn wS m ∧ Whole m (zeros 28) ∧ adOp (msgHdr m).address = 0x10 ∧ isResetting wS (msgHdr m).tenant = false ∧
     corpus? wS 3 (adObj (msgHdr m).address) = none ∧ corpus? (wCorpora [wCorp] wS) 3 (adObj (msgHdr m).address) = some wCorp ∧
     adShard (msgHdr m).address ∈ wCorp.shards ∧ adShard (pathAddr 0x10 1 0 0 4 0) ∉ wCorp.shards) ∧
    adOp (pathAddr 0x20 0 0 0 0 0) = 0x20 ∧ adOp (pathAddr 0x11 0 0 0 0 0) = 0x11 ∧ adOp (pathAddr 8 0 0 0 0 0) = 8 ∧
    (let s := { wS with fab := { wS.fab with merges := [wMergeRec] } }
     bits (5 * 2 ^ 32) 63 32 = recPost s ∧ (recFor s 0).map (fun r => r.kids) = some [6] ∧
     [6].findIdx? (fun k => k == (msgHdr (wSched 0 9 [] [])).source) = some 0) ∧
    (let m := wSched (pathAddr 0x11 0 0 0 0 0) 9 [] []
     let s := wCorpora [wCorp] (wNode wS)
     MsgIn s m ∧ corpus? s 3 0 = some wCorp ∧ groupFor s 3 = some ⟨1, 1, 0, true, [5]⟩) ∧
    fabricOn State.reset = false := by
  simp only [MsgIn, Whole]; decide +kernel

theorem witness_messages_home :
    (let m := wFab 2 5 9 (5 * 2 ^ 52 + 0x20000000040) (leBytes 2 8) []
     MsgIn wS m ∧ wS.fab.held = [] ∧ (homeRefuses (msgHdr m) 8 wS).1 = 0 ∧ (msgHdr m).kind = 2) ∧
    (let m := wFab 3 5 9 (5 * 2 ^ 52 + 0x20000000040) (leBytes 2 8 ++ [0xFF]) []
     MsgIn wS m ∧ (msgHdr m).kind = 3 ∧ amoOfCode (fieldLE m.inl 2 1) = none ∧ bits (msgHdr m).address 51 0 % 8 = 0) ∧
    (let m := wFab 6 5 9 (5 * 2 ^ 52 + 0x20000000000) [] (zeros 4096)
     MsgIn wS m ∧ bits (msgHdr m).address 63 52 = recPost wS ∧ (homeRefuses (msgHdr m) 4096 wS).1 = 0) ∧
    bits (msgHdr (wFab 6 5 9 (6 * 2 ^ 52) [] [])).address 63 52 ≠ recPost wS ∧
    (let m := wFab 4 5 9 0 (zeros 16) []
     let t := { wThread 0 with remote := [⟨9, .loadInt 1 8 false, 0, 0⟩] }
     let s := wSt [(0, t)]
     MsgIn s m ∧ (msgHdr m).kind = 4 ∧ (msgHdr m).tag < 2 ^ 31 ∧ fieldLE m.inl 0 2 = 0 ∧
     s.sea.threads.find? (fun p => p.2.remote.any (fun r => r.tag == 9)) = some (0, t) ∧ thread s 0 = t) ∧
    (let s := wLink 2 (fun f => { f with entries := [wEntry 0 0x3E 0 4, wEntry 1 0x3E 0 1, wEntry 0 2 0 4], outs := [wFOut] })
     s.fab.entries[0]? = some (wEntry 0 0x3E 0 4) ∧ schedOn s = true ∧ ttIn (wEntry 0 0x3E 0 4).1 = 0x3E ∧
     ttGood (wEntry 0 0x3E 0 4) = true ∧ wayOut s (wEntry 0 0x3E 0 4).1 = some (0, 40, false) ∧ ttKind (wEntry 1 0x3E 0 1).1 = 1 ∧
     (pruneOuts s).fab.outs.find? (outReady s 3) = some wFOut ∧ (nextPiece 4 wFOut).isSome = true ∧
     ttIn (wEntry 0 2 0 4).1 < 36 ∧ ttOut (wEntry 0 2 0 4).1 < 36 ∧ schedOn State.reset = false) ∧
    wayOut (wLink 6 id) (wEntry 0 0x3E 0 4).1 = none ∧ ttGood (5, 5) = false := by
  simp only [MsgIn]; decide +kernel

theorem witness_message_clean : Clean wS 0x20000000040 8 ∧ Clean wS 0x20000000000 4096 :=
  ⟨⟨by decide +kernel, by decide +kernel⟩, ⟨by decide +kernel, by decide +kernel⟩⟩

/-! ## The ready wave, resets and supplies -/

/-- A phase. -/
def wPh (p : Phase) (s : State) : State := { s with phase := p }

/-- An image of two nodes: 5, the root, and 6 below it on link 0. -/
def wTree : Bytes :=
  zeros 16 ++ leBytes 8 2 ++ leBytes 8 (fld 200 24 + fld 5 32) ++ leBytes 8 7 ++ zeros 16 ++ leBytes 8 64
    ++ (leBytes 4 5 ++ leBytes 4 288 ++ leBytes 8 96) ++ (leBytes 4 6 ++ leBytes 4 288 ++ leBytes 8 384)
    ++ (leBytes 8 (6 + fld 2 12) ++ zeros 280) ++ (leBytes 8 (5 + fld 2 12 + 2 ^ 22) ++ zeros 280)

/-- The root in a phase, ready since cycle 0, with the ready children. -/
def wWave (p : Phase) (kids : List Nat) (f : Fab → Fab) : State :=
  let s := wPh p wS
  { s with fab := f { s.fab with image := wTree, readyAt := some 0, readyKids := kids }, pins := { s.pins with trained := true }
           clk := { s.clk with now := 2 ^ 50 } }

/-- A START message of a node, or its ready message. -/
def wStart (src k : Nat) : FabMsg := let m := wFab 6 5 0 0 (zeros 16 ++ [BitVec.ofNat 8 k] ++ zeros 15) []
  let w := hdrWords { msgHdr m with source := src }
  { m with w0 := w.1, w1 := w.2.1 }

theorem witness_TheReadyWaveStartsTheNode : wS.pins.trained = false ∧
    (let s := wWave .booting [6] id
     s.pins.trained = true ∧ linksBusy s = false ∧ s.phase = .booting ∧ s.fab.readySent = false ∧ s.cmp.outside = false ∧
     waveKids s = [6] ∧ isRoot s = true ∧ s.fab.readyAt ≠ none) ∧
    (let s := wWave .warmBoot [6] id
     s.phase = .warmBoot ∧ s.fab.running = false ∧ s.pins.mapsIn = false) ∧
    (wWave .warmBoot [6] (fun f => { f with running := true })).fab.running = true ∧
    (let s := wLink 2 (fun f => { f with readyAt := some 0 })
     isRoot s = false ∧ parentOf s.fab.image (recPost s) = some 6 ∧ s.fab.held = [] ∧ waveKids s = [] ∧ s.fab.readySent = false) ∧
    (let s := wWave .ready [] id
     s.clk.counting = false ∧ 6 ∈ kidsOf s.fab.image (recPost s) ∧ s.fab.startAt = none ∧
     s.fab.readyAt = some 0 ∧ 0 + usCycles 2000000 ≤ s.clk.now ∧ 6 ∈ waveKids s ∧ 6 ∉ s.fab.readyKids ∧
     MsgIn s (wStart 6 0) ∧ (msgHdr (wStart 6 0)).kind = 6 ∧ fieldLE (wStart 6 0).inl 16 1 = 0 ∧
     fieldLE (wStart 6 1).inl 16 1 ≠ 0 ∧ (msgHdr (wStart 6 1)).source ∈ kidsOf s.fab.image (recPost s)) ∧
    (let s := wWave .ready [6] (fun f => { f with startAt := some (2 ^ 50 + 9), running := true })
     s.fab.startAt = some (2 ^ 50 + 9) ∧ s.phase = .ready ∧ s.fab.running = true) := by
  simp only [MsgIn]; decide +kernel

/-- A good cold boot. -/
def wBoot (rails : Bool) : BootInputs := ⟨rails, true, true, false, 65, [], true, true, 0, 0, [], [], [], [], []⟩

theorem witness_ResetsSuppliesAndClocks : wS.phase ∉ [Phase.flushing, .flushDone, .coldReset, .stopped] ∧
    wS.phase ∈ [Phase.serving, .warmReset, .warmHold, .warmBoot, .warmReady, .halting, .halted] ∧
    (wPh .booting wS).phase ∈ [Phase.railWait, .booting, .ready] ∧ wS.pins.porstDue = false ∧ State.reset.phase = .coldReset ∧
    (let u := { atPin 16 (wPh .warmReady wS) with pins := { wS.pins with wrstLow := true, posted := true } }
     warmAccepted u 16 = true ∧ warmAccepted wS 16 = false) ∧
    (let s := { wS with pins := { wS.pins with posted := true } }
     dirServed s = true ∧ s.dir.commits = [] ∧ checkWrite s wOp (ent 0x4050 2) (.num 1) = 0 ∧ warmAccepted s (aonNow s) = true) ∧
    (let s := State.reset
     (wBoot true).pufOk = true ∧ gradeParts (wBoot true).grade = some (32, 512, 8192) ∧ dirNum s (ent 0x9020 4) ≤ 0 ∧
     s.dir.restore = false) ∧
    (let s := { wPh .railWait wS with pins := { wS.pins with bootIn := some (wBoot false) } }
     s.phase = .railWait ∧ s.pins.bootIn = some (wBoot false)) ∧
    wS.flash.serving = false ∧ (2 : Nat) ∉ [3, 4, 6, 7] ∧ wS.err.halts.length < 4 ∧ nodeAwake wS = true ∧ 0 ∉ wS.pins.refsLost ∧
    isRoot (wLink 2 id) = false ∧ isSyntonised (wLink 2 id) = true ∧ isRoot (wWave .serving [] id) = true ∧
    1 ∈ { wS with pins := { wS.pins with refsLost := [1] } }.pins.refsLost ∧
    (wS.path.corpora = [] ∧ (newerCopy wS).all (fun p => perOf p.1 == 2) = true ∧ (wS.dir.vals.map (fun p => p.1)).Nodup) := by
  decide +kernel

/-! ## Errors, security, RV64GC -/

/-- A record, the first of the queue. -/
def wRec (handled : Bool) : ErrRec := ⟨5, 0x2000, 2, 3, 0, false, 0, false, true, 7, 0, 0, 0, 0, 0, 4, 1, 0, handled, 0, true⟩

/-- Records queued, at a tick. -/
def wErrs (l : List ErrRec) (tick : Nat) : State :=
  { wS with err := { wS.err with queue := l }, clk := { wS.clk with tick := tick } }

/-- A word of the local store with a syndrome. -/
def wSynd (x : BitVec 8) : State := { wS with mem := { wS.mem with synd := [(0x20000000000 / 8, x)] } }

theorem witness_ErrorsLogbookAndMargins :
    (let s := wErrs [wRec false] 0
     s.err.queue.any (isRepeat s ⟨3, 2, 0x2000, 7, 0, 0, 0, 0, none⟩) = true ∧
     s.err.queue.any (isRepeat s ⟨4, 2, 0x2000, 7, 0, 0, 0, 0, none⟩) = false ∧ s.err.queue.length < 64 ∧
     nodeAwake s = true ∧ handling s = some (wRec false) ∧ (dieLog s (dieOfSource s 0x2000)).full.length < 4096 ∧
     s.err.queue.any (windowOver s 4) = false) ∧
    64 ≤ (wErrs (List.replicate 64 (wRec true)) 0).err.queue.length ∧
    (wErrs [wRec true] (2 ^ 40)).err.queue.any (windowOver (wErrs [wRec true] (2 ^ 40)) 4) = true ∧
    dirFlag (wDir 0x5010 8 0 wS) (ent 0x5010 8) = false ∧ dirFlag (wDir 0x5010 8 1 wS) (ent 0x5010 8) = true ∧
    (let s := wDir 0x5010 8 0 (wErrs [wRec true] 0)
     checkWrite s wOp (ent 0x5010 3) (.num 4) = 0 ∧ checkWrite s wOp (ent 0x5010 3) (.num 5) ≠ 0) ∧
    (let a := 0x20000000000
     region wS a = .store 0 0 ∧ region wS (8 * (a / 8)) = .store 0 (0 / 8 * 8) ∧ isFixable (wSynd 0x0B) (a / 8) = true ∧
     isBad (wSynd 0x0B) (a / 8) = false ∧ isBad (wSynd 0x03) (a / 8) = true ∧ (wSynd 0x0B).mem.wbq = [] ∧
     (patrolWords wS a).all (fun w => !isBad wS w && !isFixable wS w) = true) ∧
    wS.err.halts.length < 4 ∧ canHalt wS.phase = true ∧
    (let s := wErrs [] 4
     s.err.mcDown = false ∧ s.err.wdTick + 4 ≤ s.clk.tick ∧ s.err.wdResets.length < 2) ∧
    (let s := wFlash id wS
     s.flash.serving = true ∧ smGet? s.log.saved 3 = none ∧ summaryDue s 3 = true ∧ smGet? s.log.readTick 3 = none ∧
     s.log.replan = false) ∧
    { wS with log := { wS.log with replan := true } }.log.replan = true := by decide +kernel

/-- The security officer's session, with and without a nonce. -/
def wVault (n : Option Bytes) : State :=
  let s := wHost [{ wSess with sid := 9, level := .security, tenant := 0xFF, nonce := n }]
  { s with sec := { s.sec with idKey := true } }

theorem witness_KeysReportsAndDebugModes : dirServed (wVault none) = true ∧ (wVault none).dir.commits = [] ∧
    checkWrite (wVault none) wOff (ent 0x9010 8) (.blob (zeros 48)) = 0 ∧ (sess? (wVault none) 9).isSome = true ∧
    checkWrite (wVault none) wOff (ent 0x9103 1) (.blob (zeros 48)) = 0 ∧
    checkWrite (wVault none) wOff (ent 0x9030 1) (.num 1) = 0 ∧ checkWrite (wVault none) wOff (ent 0x9030 1) (.num 3) = 0 ∧
    checkWrite (wVault none) wOff (ent 0x9020 6) (.num 1) = 0 ∧ dirNum (wVault none) (ent 0x9030 1) = 0 ∧
    checkWrite (wVault none) wOp (ent 0x9010 3) (.blob []) ≠ 0 ∧ wOff.level ≠ .pub ∧
    nonceOf (wVault none) wOff = none ∧ nonceOf (wVault (some (zeros 48))) wOff = some (zeros 48) ∧
    (wVault none).sec.idKey = true ∧ (wVault none).phase ≠ .coldReset ∧
    (let s := wDir 0x9030 1 3 wS
     dirNum s (ent 0x9030 1) = 3 ∧ region s 0x20000000000 = .store 0 0) ∧ State.reset.phase = .coldReset ∧
    dirServed State.reset = false := by decide +kernel

/-- A machine-mode thread at row 0 of stack 0, the words at its program counter in its core's instruction cache. -/
def wCode (w : Nat) : State :=
  let s := wSt [(0, { wThread wStore with pc := 0x0050000000000000 })]
  { s with mem := { s.mem with iline := [(ilineKey 0 0, BitVec.ofNat 512 w)] } }

/-- The halfwords at the program counter are held. -/
theorem code_held (w : Nat) (h : fieldLE (leBytes 64 (BitVec.ofNat 512 w).toNat) 0 2 = w % 65536)
    (k : fieldLE (leBytes 64 (BitVec.ofNat 512 w).toNat) 2 2 = w / 65536) (l : w < 2 ^ 32) (m : w % 4 = 3)
    (p : translate (wCode w) 0 (thread (wCode w) 0).pc 2 .fetch = .loc 0 0)
    (q : translate (wCode w) 0 (((thread (wCode w) 0).pc + 2) % 2 ^ 64) 2 .fetch = .loc 2 0) :
    Fetched (wCode w) 0 w :=
  ⟨l, m, ⟨0, 0, _, p, rfl, h⟩, ⟨2, 0, _, q, rfl, k⟩⟩

theorem witness_Rv64WordsExecute :
    (∀ w, w ∈ [0x006280B3, 0x00128293, 0x000012B7, 0x00001297, 0x008000EF, 0x00028067, 0x00628463, 0x00100073, 0x0000005B,
        0x0000000B] → canIssue (wCode w) 0 = true ∧
      regBusy (thread (wCode w) 0) [bits w 11 7, bits w 19 15, bits w 24 20] [] [] = false ∧
      bits w 6 0 ∈ [0x33, 0x13, 0x37, 0x17, 0x6F, 0x67, 0x63, 0x73, 0x5B, 0x0B]) ∧
    canIssue (wCode 0x00128293) 7 = false := by decide +kernel

theorem witness_rv64_fetched : Fetched (wCode 0x006280B3) 0 0x006280B3 ∧ Fetched (wCode 0x00100073) 0 0x00100073 ∧
    HalfHeld (wCode 0x0285) 0 (thread (wCode 0x0285) 0).pc 0x0285 :=
  ⟨code_held _ (by decide +kernel) (by decide +kernel) (by decide) (by decide) (by decide +kernel) (by decide +kernel),
    code_held _ (by decide +kernel) (by decide +kernel) (by decide) (by decide) (by decide +kernel) (by decide +kernel),
    ⟨0, 0, _, by decide +kernel, rfl, by decide +kernel⟩⟩

/-! ## Ill-formed commands -/

/-- A directory writer. -/
def wAct : Actor := ⟨.operator, 0, 1, false⟩
/-- A whole packet. -/
def wGoodPkt : Packet := ⟨0, false, 1, 2, 3, 60, 0, 0, 0, 0, [], [], 0⟩
/-- A whole fabric message. -/
def wGoodFab : FabMsg := ⟨0, 0, 0, 0, 0, 0, zeros 32, [], false, false⟩
/-- A whole chain message. -/
def wGoodChain : ChainMsg := ⟨1, 2, 16, 0, 2, 0, 1, 5, 0, 0, 0, [], []⟩
/-- What a cold boot finds. -/
def wGoodBoot : BootInputs := ⟨true, true, true, false, 0, [], true, true, 0, 0, [], [], [], [], []⟩

theorem test_wellformed_samples : ([.load 0 (.int 4 false 5) 6 (-2048), .envelope wGoodPkt, .tree wGoodFab, .chainRead wGoodChain,
    .coldBoot wGoodBoot, .managementTick 0 (List.replicate 19 450), .linkTrained 35 ⟨true, 3, 0xFF, 9, 0, 100, 0⟩] :
      List Instr).all Instr.wf = true := by decide +kernel

theorem test_illformed_sea : ([.load 8192 (.int 4 false 5) 6 0, .load 0 (.int 3 false 5) 6 0, .load 0 (.int 4 false 32) 6 0,
    .load 0 (.int 4 false 5) 32 0, .load 0 (.int 4 false 5) 6 2048, .load 0 (.int 4 false 5) 6 (-2049), .load 0 (.fp 2 1) 6 0,
    .load 0 (.fp 4 32) 6 0, .load 0 (.vunit 3 1 true 1) 6 0, .load 0 (.vunit 4 9 true 1) 6 0, .load 0 (.vunit 4 1 true 32) 6 0,
    .store 0 (.vstride 4 0 1 true 1) 6 0, .store 0 (.vstride 4 1 32 true 1) 6 0, .store 0 (.vindex 4 1 32 true 1) 6 0,
    .store 0 (.vindex 16 1 1 true 1) 6 0, .store 0 (.vwhole 3 1) 6 0, .store 0 (.vwhole 8 32) 6 0, .store 0 (.vmask 32) 6 0,
    .amo 8192 .add 4 1 2 3, .amo 0 .add 2 1 2 3, .amo 0 .add 8 32 2 3, .amo 0 .add 8 1 32 3, .amo 0 .add 8 1 2 32,
    .lrSc 0 true 1 1 2 3, .lrSc 0 false 4 1 2 32, .fence 0 16 0, .fence 0 0 16, .fenceI 8192, .ecallExit 8192,
    .prefetchFill 32 0 0, .prefetchFill 0 64 0, .prefetchFill 0 0 (2 ^ 34), .remoteAccessTimeout 8192 1,
    .remoteAccessTimeout 0 0, .remoteAccessTimeout 0 (2 ^ 31), .estream 0 32 0, .estwait 0 0 32, .estrel 8192 0 0,
    .estop 0 32 0, .escstatWrite 0 0 32, .eslstatWrite 8192 0 0, .registerWrite (.csr 8192 0 0), .registerWrite (.csr 0 4096 0),
    .registerWrite (.engine (2 ^ 40) 0), .registerWrite (.engine 0 (2 ^ 64)),
    .registerWrite (.entry { wAct with tenant := 64 } 0 (.num 0)), .registerWrite (.entry { wAct with session := 2 ^ 32 } 0 (.num 0)),
    .registerWrite (.entry wAct (2 ^ 24) (.num 0)), .registerWrite (.entry wAct 0 (.num (2 ^ 64))), .wb 8192 0, .flush 8192 0,
    .inv 8192 0, .rv64gcInstruction 8192] : List Instr).all (fun i => !i.wf) = true := by decide +kernel

theorem test_illformed_engines : ([.edot 8192 0, .edotf 8192 0, .erescale 8192 0, .insert 8192 0, .insertv 8192 0,
    .eslReset 8192 0, .drain 8192 0, .floor 8192 0, .eslmrg 8192 0, .ecompact 8192 0, .epost 8192 0, .erecv 0 32 0,
    .ewait 0 0 32, .ewaitLimit 8192, .itemSteal 32, .budgetSpent 512 0, .budgetSpent 0 64, .cload 0 16 0, .cload 0 0 (2 ^ 64),
    .circularLoadDone 16, .cstart 8192 0, .cstart 0 (2 ^ 64), .cabort 0 16 0, .cabort 0 0 (2 ^ 64), .circularLaunch 16, .micEnd 16,
    .micStep 16, .micRepeat 16, .micLd 16, .micAnd 16, .micOr 16, .micXor 16, .micXnor 16, .micAndn 16, .micNot 16, .micMaj 16,
    .micFillq 16, .micFillt 16, .micWr 16, .micRchk 16, .micSeal 16, .micSealc 16, .completionRecord 16, .refresh 16,
    .refreshWatchdog 16, .managementTick 0 [], .managementTick 0 (List.replicate 19 0x8000), .psubmit 0 32 0,
    .psubmit 0 0 (2 ^ 64), .flashEraseDone 0 32 true, .flashDiscoveryDone [],
    .flashDiscoveryDone (List.replicate 32 ⟨256, 0, 0, 0, 0, 0, 0, true⟩)] : List Instr).all (fun i => !i.wf) = true := by
  decide +kernel

theorem test_illformed_power : ([.coldBoot { wGoodBoot with grade := 256 }, .coldBoot { wGoodBoot with digests := List.replicate 6 [] },
    .coldBoot { wGoodBoot with stacksBad := [16] }, .coldBoot { wGoodBoot with banksBad := [16384] },
    .warmRequest { wAct with tenant := 64 } (.num 1), .rejoin (2 ^ 48), .railFault 13 0, .thermalHalt 19 0, .thermtrip 19 0,
    .referenceLoss 3, .referenceReturn 3, .droop 13 0 0, .clockGateEntry 32, .powerGateEntry 32, .powerGatedDone 32,
    .clusterWake 32, .dieStop 2, .stackPowerDown 16, .selfRefreshEntry 16, .channelGroupStandby 4, .refreshIntervalChange 16 0,
    .patrol (2 ^ 40), .halt ⟨256, 0, 0, 0, false⟩, .halt ⟨0, 65536, 0, 0, false⟩, .halt ⟨0, 0, 2 ^ 64, 0, false⟩,
    .logbookAppend 19, .logbookSummary 19, .ageingReading 19 [], .jtagAccess (.memRead (2 ^ 42)),
    .jtagAccess (.memWrite (2 ^ 42) 0)] : List Instr).all (fun i => !i.wf) = true := by decide +kernel

theorem test_illformed_fabric : ([.linkTrained 36 ⟨true, 1, 0, 0, 0, 0, 0⟩, .linkTrained 0 ⟨true, 4, 0, 0, 0, 0, 0⟩,
    .linkTrained 0 ⟨true, 1, 256, 0, 0, 0, 0⟩, .linkTrained 0 ⟨true, 1, 0, 4096, 0, 0, 0⟩, .trainingAttemptTimeout 36, .linkDown 36,
    .retrain 36, .idle 36, .fanout { wGoodFab with link := 36 }, .tree { wGoodFab with slot := 2048 },
    .finalist { wGoodFab with inl := [] }, .forward { wGoodFab with data := zeros 4097 }, .pool { wGoodFab with link := 36 },
    .read { wGoodFab with link := 36 }, .write { wGoodFab with link := 36 }, .resp { wGoodFab with link := 36 },
    .ctrl { wGoodFab with link := 36 }, .start { wGoodFab with link := 36 }, .letter { wGoodFab with link := 36 },
    .reservedKindFlit { wGoodFab with link := 36 }, .replay 36 0 true, .replay 0 (2 ^ 32) true, .originEntry 32768,
    .scheduledForwarding 32768 wGoodFab, .scheduledForwarding 0 { wGoodFab with slot := 2048 }, .readyMessage 4096, .rowMove 64 0,
    .moveDone 64 0, .rowReturn 64 0, .returnDone 64 0, .lineAdd 64, .scatterBatchDone 64, .gatherBatchDone 64,
    .tokenFoldDone (2 ^ 32)] : List Instr).all (fun i => !i.wf) = true := by decide +kernel

theorem test_illformed_ports : ([.envelope { wGoodPkt with port := 8 }, .envelope { wGoodPkt with src := 2 ^ 32 },
    .hello { wGoodPkt with sport := 65536 }, .response { wGoodPkt with dscp := 64 }, .bye { wGoodPkt with udpLen := 65536 },
    .noteAck { wGoodPkt with tag := [0] }, .reassemblyExpiry 0 1, .reassemblyExpiry 1 (2 ^ 48), .challengeExpiry 0,
    .sessionIdleClose (2 ^ 32), .noteResend 64, .transmitSelect 8, .arpNdIcmp 8 ⟨false, false, 1, 2, none, false⟩,
    .arpNdIcmp 0 ⟨false, false, 2 ^ 32, 2, none, false⟩, .arpNdIcmp 0 ⟨true, false, 1, 2 ^ 128, none, false⟩,
    .arpNdIcmp 0 ⟨false, false, 1, 2, some 4096, false⟩, .subportUp 8, .subportDown 8, .holdDownEnd 8, .rxDropped 8 0,
    .pcsLockLoss 8 0 true, .txAn wAct 8 (.num 0), .sak wAct 8 (.num 0), .enabled wAct 64 (.num 0), .tenantReset wAct 64 (.num 1),
    .resetDone 64, .policerEntryWrite wAct 0 0 (.num 0), .policerEntryWrite wAct 64 1 (.num 0), .policerEntryWrite wAct 0 8 (.num 0),
    .shaperEntryWrite wAct 0 0 4 (.num 0), .shaperEntryWrite wAct 0 0 10 (.num 0), .shaperEntryWrite wAct 0 16 5 (.num 0),
    .commitFrame wAct 8 (.num 0), .histClear wAct 0 16 (.num 1), .rwcWrite wAct (2 ^ 24) (.num 0)] : List Instr).all
      (fun i => !i.wf) = true := by decide +kernel

theorem test_illformed_chain : ([.enumOffer 256 2, .enumOffer 1 256, .enumConfirm 256 2 (zeros 16), .enumConfirm 1 2 (zeros 15),
    .session { wGoodChain with src := 128 }, .close { wGoodChain with xtag := 128 }, .chainRead { wGoodChain with xlen := 2 ^ 32 },
    .chainWrite { wGoodChain with blen := 65536 }, .chainRead { wGoodChain with version := 256 },
    .chainRead { wGoodChain with flags := 256 }, .chainRead { wGoodChain with req := 2 ^ 32 },
    .chainRead { wGoodChain with obj := 2 ^ 32 }, .chainRead { wGoodChain with type := 256 },
    .chainRead { wGoodChain with status := 256 }, .chainRead { wGoodChain with rsv := 65536 },
    .chainRead { wGoodChain with tag := [1] }, .chainSessionIdle 0, .chainTransferExpiry 256, .alertAck (2 ^ 32),
    .restoreDefaults { wAct with tenant := 64 } (.num 0), .target wAct 8 (.num 0), .direction wAct 8 (.num 0),
    .chunkWrite wAct 8 (.num 0), .chunkRead wAct 8, .commit wAct 8 (.num 1), .slotIdleClose 8, .remove wAct (.num (2 ^ 64)),
    .replan { wAct with tenant := 64 } (.num 0), .operatorRoot wAct (.num (2 ^ 64)), .nonce wAct (.num (2 ^ 64)),
    .report { wAct with session := 2 ^ 32 }, .psk wAct 64 (.num 0), .debugMode wAct (.num (2 ^ 64)), .confirm wAct (.num (2 ^ 64))]
      : List Instr).all (fun i => !i.wf) = true := by decide +kernel

/-! ## Examples of the spec -/

/-- The query, the rows, the accumulators and the scale record of the worked example of chapter 3. -/
def wScore : Thread :=
  let q : List Int := [3, 1, -2, 4, 1, 0, 2, -5, 10, 1, 7, -1, 9, 0, 2, 1]
  let r : List Int := [12, -7, 33, 0, -128, 5, 90, -1, 17, 64, -3, 8, 0, 22, -45, 127]
  { wX [] with
    v := [(4, ofLanes 32 [40738, 0, 0, 0, 0, 2 ^ 32 - 41500]), (8, ofLanes 8 (List.replicate 32 0 ++ q.map (wrap 8))),
      (10, ofLanes 32 (List.replicate 16 1704243023)), (11, ofLanes 32 (List.replicate 16 39)),
      (16, ofLanes 8 (r.map (wrap 8)))] }

/-- Worked example of chapter 3: lane 0 becomes 41,000, then bytes 16 and 21 of v12 0x7F and 0x80. -/
theorem test_edot_example : lane 32 (rv (edotThread 0x1488020B wScore) 4) 0 = 41000 ∧
    lane 32 (rv (edotThread 0x1488020B wScore) 4) 5 = 2 ^ 32 - 41500 ∧ rcsr (edotThread 0x1488020B wScore) 0x8C4 = 0 := by
  decide +kernel

theorem test_erescale_example : (let t := erescaleThread 0x08A2260B (edotThread 0x1488020B wScore)
    lane 8 (rv t 12) 16 = 0x7F ∧ lane 8 (rv t 12) 21 = 0x80 ∧ lane 8 (rv t 12) 15 = 0 ∧ rcsr t 0x8C5 = 1 ∧
    rcsr t 0x8C4 = 2) := by decide +kernel

/-- Table 3-6. -/
theorem test_rescale_table : rescale 5 1 1 = 3 ∧ rescale (-5) 1 1 = -3 ∧ rescale 6 1 2 = 2 ∧ rescale (-6) 1 2 = -2 ∧
    rescale (-2) 1 2 = -1 ∧ rescale 1 1 2 = 0 ∧ rescale (-1) 1 2 = 0 := by decide

/-- Encoding examples of chapters 3, 4 and 15. -/
theorem test_word_examples : wWord 0x0A 8 16 0 4 0x0B = 0x1488020B ∧ wWord 0x14 10 4 0 11 0x2B = 0x28A205AB ∧
    edotLegal 0x1488020B = true ∧ erescaleLegal 0x08A2260B = true ∧ eslReady wScore 0x28A205AB 1 true = true ∧
    wList 0x28A205AB = 1 ∧ epostLegal wScore 0x40B5502B = true ∧ epostLen 0x40B5502B = 2 := by decide +kernel

/-- Merge inputs (Table 4-8). -/
def wMA : List Ent := [⟨40, 7, 0x3F68F5C3⟩, ⟨12, 3, 0x3F400000⟩, ⟨88, 2, 0x3F000000⟩, ⟨90, 2, 0x3F000000⟩, ⟨3, 1, 0⟩]
/-- The second source. -/
def wMB : List Ent := [⟨55, 1, 0x3F4CCCCD⟩, ⟨40, 8, 0x3F19999A⟩, ⟨71, 5, 0x3F000000⟩, ⟨2, 1, 0x80000000⟩]

/-- Table 4-9, and the bytes of the entry for id 40. -/
theorem test_merge_example : (mergeLists true false 4 wMA wMB).1.map Ent.id = [55, 12, 40, 71] ∧
    (mergeLists true true 4 wMA wMB).1.map Ent.id = [55, 12, 40, 71, 88, 90] ∧
    (mergeLists true false 10 wMA wMB).1.map Ent.id = [55, 12, 40, 71, 88, 90, 2, 3] ∧
    ((mergeLists true false 10 wMA wMB).1.getD 6 ⟨0, 0, 1⟩).score = 0 ∧
    entBytes ((mergeLists true false 4 wMA wMB).1.getD 2 ⟨0, 0, 1⟩) = leBytes 8 0x000000083F19999A ++ leBytes 8 0x28 ∧
    entBytes (sentinelEnt true) = leBytes 8 0xFF800000 ++ leBytes 8 0xFFFFFFFFFFFFFFFF := by decide +kernel

/-- Lanes 1.2, 0.7, −0.0, 0.7, 3.0 and eleven of 0.5 against 0.7 (R104). -/
theorem test_ecompact_example : (let w := wWord 0x10 5 4 2 6 0x2B
    let t := { wX [(5, 0x3F333333)] with v := [(4, ofLanes 32
      ([0x3F99999A, 0x3F333333, 0x80000000, 0x3F333333, 0x40400000] ++ List.replicate 11 0x3F000000))] }
    ecompactReady t w = true ∧ ecSelect t w = ([0, 4], 0) ∧ lane 16 (rv (ecompactThread w [0, 4] 0 t) 6) 1 = 4 ∧
    rcsr (ecompactThread w [0, 4] 0 t) 0xCC3 = 2) := by decide +kernel

/-- Micro-operation words and the candidate block of the worked example of chapter 5. -/
theorem test_circular_example : micWord ⟨8, 0, 0, 2, 0, 0x2000, 0, 0⟩ = 0x2040040000000000 ∧
    micWord ⟨0x1C, 0, 0, 0, 0, 0x2000, 0, 0⟩ = 0x7000040000000000 ∧
    candBlock 2 (64 * 3 + 0x25) 7 2 64 0x412 [17, 8190] =
      leBytes 8 0x2394001C00008002 ++ leBytes 8 0x0000041200000000 ++ leBytes 2 0x11 ++ leBytes 2 0x1FFE ++
        List.replicate 44 0xFF ∧
    rowAddr 2 (64 * 3 + 0x25) 0x2000 = 0x2200039400 := by decide +kernel

/-- Slot 1,000,003 of tile 37 (R141). -/
theorem test_slot_decode : (let k := cKey 0 37 1000003
    kStack k = 3 ∧ kBank k = 676 ∧ kColumn k = 488 ∧ kRegion k = 4) := by decide

/-- A session of 32,768 blocks a layer and 8 heads (worked example of chapter 7). -/
def wCtxBig : CtxS := ⟨5, 0, ⟨0, 0, leBytes 2 80 ++ leBytes 2 8 ++ zeros 12, []⟩, 2 ^ 21, 0, false, [5], 0, 0, (0, 0), 0, 0, 0, 0, [], [],
  [], [], false, false, false⟩

/-- Position 700,001 in head 5 of layer 37: block 10,937, record 9,874,105, stack 9. -/
theorem test_record_example : cxHeads wCtxBig = 8 ∧ ownBlock wCtxBig 700001 = 10937 ∧ recNo wCtxBig 37 5 10937 = 9874105 ∧
    recAddr wCtxBig 37 5 10937 = 9 * 0x1000000000 + 617131 * 16384 := by decide +kernel

/-- The table of the worked placement of chapter 8, on the node at postcode 0x214. -/
def wTabBig : Tab := ⟨0, tabDesc (wDir 0x2010 3 0x214 wS) 5 1 0x800000000 50000000 64 0 0 0 0, false, [], [], [], []⟩

theorem test_table_example : tabRow wTabBig 12345678 = 0xE80BC61400 ∧ tbWord wTabBig 3 = 0x214000082FAF0800 ∧
    tbWord wTabBig 4 = 0xDEBFFFF7D050F7FF ∧ tbStride wTabBig = 256 := by decide +kernel

/-- Bag 0 of the worked example of chapter 8, over rows 7, 12 and the dead-letter row: one NaN element passed over. -/
theorem test_bag_example : (let t : Tab := ⟨0, [0, 1000, fld 64 32 + fld 4 16, 0, 0, 0, 0, 0], false, [], [], [], []⟩
    let r := fun (l : List Nat) => l.flatMap (leBytes 4)
    poolBag t [r [0x3F000000, 0x80000000, 0x7FC00000, 0xC0000000], r [0x3E800000, 0x80000000, 0x3F800000, 0xC0400000],
      r [0, 0, 0, 0]] = (r [0x3F000000, 0, 0x3F800000, 0], 1)) := by decide +kernel

/-- The stream handle of chapter 9 and the lookup of chapter 10: slot 19,088,743 on channel 8. -/
theorem test_flash_example : t3Handle 3 5 0x123400 = 0x8300005000123400 ∧
    (let m := { wS.flash.map with coarse := [(0x412342, 0x01234567, 0xFEDCBA98)] }
     let s := { wS with flash := { wS.flash with areas := [(5, ⟨9, 0x400000, 0x100000⟩)], map := m } }
     nlpOf s 5 0x123428 = some 0x4123428 ∧ resolve s 0x4123428 = .at 8 19088743 ∧ 19088743 / 12288 = 1553) := by decide +kernel

/-- The gateway's origin entry of the worked example of chapter 11. -/
theorem test_timetable_example : (let e := 0xF9800101020C8000
    ttGood (e, 0x067FFEFEFDF37FFF) = true ∧ ttIn e = 0x3E ∧ ttOut e = 24 ∧ ttKind e = 0 ∧ ttStream e = 0x010 ∧ ttFrame e = 1 ∧
    ttFlits e = 2 ∧ ttSlot e = 100) := by decide

/-- Check value of CRC-32C (R301). -/
theorem test_crc32c_check : crc32c [0x31, 0x32, 0x33, 0x34, 0x35, 0x36, 0x37, 0x38, 0x39] = 0xE3069283 := by decide +kernel

/-- Header words of segments 0 and 2 of the worked example of chapter 13, and of its receipt. -/
theorem test_packet_example : pktHeader 1 2 0xA31 7 65536 0 3 8192 false =
      leBytes 8 0x0003000000010002 ++ leBytes 8 0x0000000100002000 ++ leBytes 8 0x00000A3100000007 ++ leBytes 8 0xFFFFFFF800000000 ∧
    slice (pktHeader 1 2 0xA31 7 65536 2 3 6824 true) 0 16 = leBytes 8 0x0003000201010002 ++ leBytes 8 0x0000000100001AA8 ∧
    slice (receiptBytes 0x104 0 0xFF 0 0 15 0 (zeros 15)) 0 8 = leBytes 8 0x00000000FF000104 := by decide +kernel

/-- Sizes and credits of the worked example of chapter 14. -/
theorem test_shaper_example : wireCycles 1818 100 = 236 ∧ wireCycles 1730 100 = 224 ∧
    (let s := wDir 0x3800 6 32 (wDir 0x3800 7 131072 wS)
     let u := { s with
       clk := { s.clk with now := 4096 }
       trf := { s.trf with credits := [(creditKey 0 0 0, ⟨0, 900, 0⟩)] }
       hxt := { s.hxt with out := [⟨0, false, 0, 0, ⟨0, false, 0, 0⟩, 2, [], 900, 0, false⟩] } }
     (creditNow u 0 0 0).level = 102272) := by decide +kernel

/-- The knock of Table 15-9. -/
theorem test_letter_example : letterBytes ⟨0x214, 0xA002, true, 0, 0, 0x412, 0x21410532, zeros 48⟩ =
    leBytes 8 0x214A002800000000 ++ leBytes 8 0x0000041221410532 ++ zeros 48 := by decide +kernel

/-- The WRITE of the worked example of chapter 17. -/
theorem test_chain_example : reqHeader ⟨0, 5, 46, 2, 2, 1, 0x103, 0x402001, 2, 0, 0, leBytes 2 900, zeros 16⟩ =
      [2, 0, 2, 1, 3, 1, 0, 0, 1, 0x20, 0x40, 0, 2, 0, 0, 0] ∧ paddedLen 34 = 46 := by decide +kernel

/-- Data 3 has the check byte 0x0C; syndrome 0x0B names data bit 1 (R407, R408). -/
theorem test_code_example : c72Check 3 = 0x0C ∧ c72Decode 0x0B = .data 1 ∧ c72Decode 0x10 = .check 4 ∧ c72Decode 3 = .bad := by
  decide +kernel

/-- Record 41 of the worked example of chapter 18. -/
theorem test_record41 : (let r : ErrRec := ⟨0x214, 0x2002, 0, 1, 0, false, 0, false, true, stackLoc 2 (0x200039400),
      0x2140002200039440, 0, 0x0B, 0, 0, 41, 2, 0, false, 0, true⟩
    slice (recBytes r) 0 32 = leBytes 8 0x2142002001000001 ++ leBytes 8 0x2394200000000000 ++ leBytes 8 0x2140002200039440 ++
      leBytes 8 0x0B ∧ (recWords r).getD 6 0 = 0x0000002900000002) := by decide +kernel

/-- Segment 3 of tenant 5 (worked example of chapter 2). -/
theorem test_segment_example : (let e : SegEntry := ⟨0x8602140003040000, 0x79FDEBFFFCFBFFFF, 0x7FFFF, 0xFFFFFFFFFFF80000⟩
    let s := { wSt [(0, { wThread 0 with user := true, tenant := 5 })] with
      mem := { wS.mem with segs := [(5 * 128 + 3, e)] } }
    segGood e = true ∧ translate s 0 0x030012345678 8 .ld = .rem 0x214 0x3052345678 ∧
    translate (wDir 0x2010 3 0x214 s) 0 0x030012345678 8 .ld = .loc 0x3052345678 0 ∧
    translate s 0 0x030012345678 8 .fetch = .bad) := by decide +kernel

/-- Step 1 of the chattering line of chapter 20: 6 µs are not qualified and counted. -/
theorem test_short_warm_line : ∃ t, execWrstN 0 9 wS = .next t ∧ dirNum t (ent 0x4050 5) = 1 ∧ t.phase = .serving :=
  ⟨_, rfl, by decide +kernel, by decide +kernel⟩

/-- Four elements of 8 bits in v1 and v2. -/
def wVec : Thread :=
  { wX [] with
    csr := [(0x300, 0xA200), (0xC20, 4), (0xC21, 0xC0)]
    v := [(1, ofLanes 8 [1, 255, 10, 127, 9]), (2, ofLanes 8 [1, 2, 250, 128, 9]), (3, ofLanes 8 [7, 7, 7, 7, 7])] }

/-- vadd.vv and vsaddu.vv of the V extension, the tail undisturbed (log 18). -/
theorem test_vector_adds :
    (vArithI wVec 0x022081D7).map (fun t => slice (leBytes 64 (rv t 3).toNat) 0 5) = some [2, 1, 4, 255, 7] ∧
    (vArithI wVec 0x822081D7).map (fun t => (slice (leBytes 64 (rv t 3).toNat) 0 5, rcsr t 0xF)) =
      some ([2, 255, 255, 255, 7], 1) := by decide +kernel

end Sys2Proof.Machine
end

section
/-! PROOFS. Directory: entries and the rows of the catalogue that describe them, what leaves the directory as it was, and the
path of a write through its checks to its effect (R10, R12, R392, R398, R399). -/
namespace Sys2Proof.Machine

/-! ### Object numbers -/

theorem objIdx_ent (i u : Nat) (hu : u < 256) : objIdx (ent i u) = i := by unfold objIdx ent; omega

theorem objSub_ent (i u : Nat) (hu : u < 256) : objSub (ent i u) = u := by unfold objSub ent; omega

theorem ne_ent_of_objIdx {obj i u : Nat} (hu : u < 256) (h : objIdx obj ≠ i) : obj ≠ ent i u := by
  rintro rfl; exact h (objIdx_ent i u hu)

theorem ne_ent_of_objSub {obj i u : Nat} (hu : u < 256) (h : objSub obj ≠ u) : obj ≠ ent i u := by
  rintro rfl; exact h (objSub_ent i u hu)

theorem inR_iff (x lo hi : Nat) : inR x lo hi = true ↔ lo ≤ x ∧ x ≤ hi := by simp [inR]

theorem inR_eq_false_iff (x lo hi : Nat) : inR x lo hi = false ↔ ¬(lo ≤ x ∧ x ≤ hi) := by
  rw [← inR_iff, Bool.not_eq_true]

theorem isSlotObj_eq_false {obj : Nat} (h : ¬(0x1020 ≤ objIdx obj ∧ objIdx obj ≤ 0x1027)) : isSlotObj obj = false :=
  (inR_eq_false_iff _ _ _).2 h

/-! ### Rows of the catalogue -/

/-- The row of an entry stands in the entry's area and covers its index and subindex. -/
theorem catRow_covers {obj : Nat} {r : CatRow} (h : catRow obj = some r) :
    r ∈ catArea (objIdx obj / 0x1000) ∧ r.base ≤ objIdx obj ∧ objIdx obj < r.base + r.n ∧ r.lo ≤ objSub obj ∧
      objSub obj ≤ r.hi := by
  have hc := List.find?_some h
  simp only [catCovers, Bool.and_eq_true, decide_eq_true_eq] at hc
  obtain ⟨⟨⟨hb, hn⟩, hl⟩, hh⟩ := hc
  exact ⟨List.mem_of_find?_eq_some h, hb, hn, hl, hh⟩

/-- Every row of area `k` that meets indices `i0` to `i1` and subindices `u0` to `u1` satisfies `p`. -/
def familyRows (k i0 i1 u0 u1 : Nat) (p : CatRow → Bool) : Bool :=
  (catArea k).all fun r =>
    !(decide (r.base ≤ i1) && decide (i0 < r.base + r.n) && decide (r.lo ≤ u1) && decide (u0 ≤ r.hi)) || p r

/-- What the rows of a family satisfy, the row of each of its entries satisfies. -/
theorem catRow_family {obj k i0 i1 u0 u1 : Nat} {r : CatRow} {p : CatRow → Bool} (hp : familyRows k i0 i1 u0 u1 p = true)
    (h : catRow obj = some r)
    (hm : objIdx obj / 0x1000 = k ∧ i0 ≤ objIdx obj ∧ objIdx obj ≤ i1 ∧ u0 ≤ objSub obj ∧ objSub obj ≤ u1) : p r = true := by
  obtain ⟨hmem, hb, hn, hl, hh⟩ := catRow_covers h
  obtain ⟨rfl, h0, h1, hu0, hu1⟩ := hm
  have hr := List.all_eq_true.1 hp r hmem
  have hmeets : (decide (r.base ≤ i1) && decide (i0 < r.base + r.n) && decide (r.lo ≤ u1) && decide (u0 ≤ r.hi)) = true := by
    simp only [Bool.and_eq_true, decide_eq_true_eq]; omega
  simpa [hmeets] using hr

/-- Not writable, or RW and of persistence S. -/
def constOrRwS (r : CatRow) : Bool := r.acc == 0 || r.acc == 4 || (r.acc == 1 && r.per == 2)

/-- Of access `a` and persistence V. -/
def volatile (a : Nat) (r : CatRow) : Bool := r.acc == a && r.per == 1

theorem policer_rows : familyRows 3 0x3200 0x323F 0 255 constOrRwS = true := by decide +kernel

theorem shaper_rows : familyRows 3 0x3800 0x3BFF 5 9 constOrRwS = true := by decide +kernel

theorem commitFrame_rows : familyRows 3 0x3300 0x3307 2 2 (volatile 1) = true := by decide +kernel

theorem histClear_rows : familyRows 3 0x3800 0x3BFF 0x10 0x10 (volatile 2) = true := by decide +kernel

theorem tenantReset_rows : familyRows 3 0x3100 0x313F 2 2 (volatile 2) = true := by decide +kernel

theorem sak_rows : familyRows 0xB 0xB100 0xB107 0xA 0xA (volatile 2) = true := by decide +kernel

theorem tenantKey_rows : familyRows 9 0x9100 0x913F 0 255 (fun r => r.acc != 1) = true := by decide +kernel

theorem restoreDefaults_row : familyRows 1 0x1010 0x1010 0xD 0xD (volatile 2) = true := by decide +kernel

theorem replan_row : familyRows 0xA 0xA020 0xA020 1 1 (volatile 2) = true := by decide +kernel

/-! ### What leaves the directory as it was -/

/-- Of the directory, status and commits are as before, and no value outside `P` differs. -/
structure DirKeeps (P : Nat → Prop) (s t : State) : Prop where
  status : t.dir.status = s.dir.status
  commits : t.dir.commits = s.dir.commits
  vals : ∀ j, ¬P j → dirVal t j = dirVal s j

section
variable {P : Nat → Prop} {s t u : State}

theorem DirKeeps.refl (P : Nat → Prop) (s : State) : DirKeeps P s s := ⟨rfl, rfl, fun _ _ => rfl⟩

theorem DirKeeps.trans (h : DirKeeps P s u) (k : DirKeeps P u t) : DirKeeps P s t :=
  ⟨k.status.trans h.status, k.commits.trans h.commits, fun j hj => (k.vals j hj).trans (h.vals j hj)⟩

theorem DirKeeps.mono {Q : Nat → Prop} (h : DirKeeps P s t) (hPQ : ∀ j, P j → Q j) : DirKeeps Q s t :=
  ⟨h.status, h.commits, fun j hj => h.vals j (fun hp => hj (hPQ j hp))⟩

theorem DirKeeps.of_dir_eq (h : t.dir = s.dir) : DirKeeps P s t :=
  ⟨by rw [h], by rw [h], fun j _ => by unfold dirVal; rw [h]⟩

theorem DirKeeps.num (h : DirKeeps P s t) {j : Nat} (hj : ¬P j) : dirNum t j = dirNum s j := by
  unfold dirNum; rw [h.vals j hj]

theorem DirKeeps.congr (h : DirKeeps P s u) (e : t.dir = u.dir) : DirKeeps P s t := h.trans (.of_dir_eq e)

theorem DirKeeps.put (h : DirKeeps P s u) {k : Nat} (hk : P k) (v : DVal) : DirKeeps P s (dirPut k v u) :=
  h.trans ⟨rfl, rfl, fun j hj => by rw [dirVal_dirPut, if_neg (by rintro rfl; exact hj hk)]⟩

theorem DirKeeps.set (h : DirKeeps P s u) {k : Nat} (hk : P k) (n : Nat) : DirKeeps P s (dirSet k n u) := h.put hk _

theorem DirKeeps.bump (h : DirKeeps P s u) {k : Nat} (hk : P k) : DirKeeps P s (bump k u) := h.put hk _

theorem DirKeeps.when {c : Bool} {f : State → State} (h : c = true → DirKeeps P s (f s)) : DirKeeps P s (whenS c f s) := by
  cases c with
  | false => exact .refl P s
  | true => exact h rfl

theorem DirKeeps.fold {α : Type} (l : List α) (f : α → State → State) (s : State) (h : ∀ a u, DirKeeps P u (f a u)) :
    DirKeeps P s (foldS l f s) :=
  foldS_keeps (DirKeeps P s) l f s (fun a _ hu => hu.trans (h a _)) (.refl P s)

end

theorem DirKeeps.save {P : Nat → Prop} {s u : State} (h : DirKeeps P s u) : DirKeeps P s (saveRecord u) :=
  h.trans (by unfold saveRecord; dsimp only; split <;> exact ⟨rfl, rfl, fun _ _ => rfl⟩)

/-- A rewrite of the record makes every S value the newer copy (R399). -/
theorem newerCopy_saveRecord (s : State) : newerCopy (saveRecord s) = valsOf 2 s.dir.vals := by
  unfold saveRecord newerCopy
  dsimp only
  split
  · exact if_neg (by dsimp only; omega)
  · exact if_pos (by dsimp only; omega)

@[simp] theorem saveRecord_vals (s : State) : (saveRecord s).dir.vals = s.dir.vals := by
  unfold saveRecord; dsimp only; split <;> rfl

theorem stageMap_keeps (b : Bytes) (s : State) : DirKeeps (fun j => j = ent 0x2010 8 ∨ j = ent 0x2010 6) s (stageMap b s).2 := by
  unfold stageMap
  generalize mapResult s b (decide (epoch s < mapEpoch b)) = r
  have h : DirKeeps (fun j => j = ent 0x2010 8 ∨ j = ent 0x2010 6) s (dirSet (ent 0x2010 8) r s) :=
    (DirKeeps.refl _ s).set (.inl rfl) r
  dsimp only
  split
  · exact DirKeeps.save (DirKeeps.set (DirKeeps.congr h (by rfl)) (.inr rfl) _)
  · exact h

theorem stageImage_keeps (b : Bytes) (s : State) : DirKeeps (fun j => j = ent 0x9020 0xA) s (stageImage b s).2 := by
  unfold stageImage
  generalize (if (!objectPasses s b) = true then 2 else if (!imageFormatGood b) = true then 3 else 1) = r
  have h : DirKeeps (fun j => j = ent 0x9020 0xA) s (dirSet (ent 0x9020 0xA) r s) := DirKeeps.set (.refl _ s) (by rfl) r
  dsimp only
  split
  · exact h.congr rfl
  · exact h

/-- A refused write changes no entry but the two staging results and the staged epoch. -/
theorem effectRefused_keeps (obj : Nat) (v : DVal) (s : State) :
    DirKeeps (fun j => j = ent 0x2010 8 ∨ j = ent 0x2010 6 ∨ j = ent 0x9020 0xA) s (effectRefused obj v s) := by
  unfold effectRefused
  split
  · exact (stageMap_keeps _ s).mono (fun j hj => hj.imp id .inl)
  · split
    · exact (stageImage_keeps _ s).mono (fun j hj => .inr (.inr hj))
    · exact .refl _ s

theorem dirVal_effectRefused_self (obj : Nat) (v : DVal) (s : State) : dirVal (effectRefused obj v s) obj = dirVal s obj := by
  unfold effectRefused
  split
  · next h => exact (stageMap_keeps _ s).vals obj (by rw [h]; decide)
  · split
    · next h => exact (stageImage_keeps _ s).vals obj (by rw [h]; decide)
    · rfl

/-! ### Checks passed -/

/-- A write that passes its checks names an entry that is neither RO nor CONST and keeps the rules of its owner (R10). -/
theorem checkWrite_ok {s : State} {a : Actor} {obj : Nat} {v : DVal} (hs : isSlotObj obj = false) (h : checkWrite s a obj v = 0) :
    ∃ r, catRow obj = some r ∧ r.acc ≠ 0 ∧ r.acc ≠ 4 ∧ ruleBad s obj v = false := by
  simp only [checkWrite, hs, Bool.false_eq_true, if_false, checkValue] at h
  cases hr : catRow obj with
  | none => simp [hr] at h
  | some r =>
    simp only [hr] at h
    by_cases hlevel : (!mayWrite s a obj) = true
    · rw [if_pos hlevel] at h; exact absurd h (by decide)
    by_cases hacc : (decide (r.acc = 0) || decide (r.acc = 4) || constHere obj) = true
    · rw [if_neg hlevel, if_pos hacc] at h; exact absurd h (by decide)
    by_cases hlen : (true && decide (4096 < (valBlob v).length)) = true
    · rw [if_neg hlevel, if_neg hacc, if_pos hlen] at h; exact absurd h (by decide)
    by_cases htype : typeBad r v = true
    · rw [if_neg hlevel, if_neg hacc, if_neg hlen, if_pos htype] at h; exact absurd h (by decide)
    by_cases hrule : (rangeBad r v || ruleBad s obj v || a.level == .pub && (valBlob v).isEmpty) = true
    · rw [if_neg hlevel, if_neg hacc, if_neg hlen, if_neg htype, if_pos hrule] at h; exact absurd h (by decide)
    simp only [Bool.or_eq_true, decide_eq_true_eq, not_or, Bool.not_eq_true] at hacc hrule
    obtain ⟨⟨hro, hconst⟩, -⟩ := hacc
    obtain ⟨⟨-, hkeeps⟩, -⟩ := hrule
    exact ⟨r, rfl, hro, hconst, hkeeps⟩

/-! ### The path of a write -/

section
variable {s : State} {o : DirOp} {a : Actor} {obj : Nat} {v : DVal}

theorem effectWrite_plain (hs : isSlotObj obj = false) : effectWrite a obj v s = effectPlain a obj v s := by
  simp [effectWrite, hs]

theorem touchSlot_plain (hs : isSlotObj obj = false) : touchSlot a obj s = s := by simp [touchSlot, hs]

theorem afterRead_dir_vals : (afterRead a obj s).dir.vals = s.dir.vals := by
  unfold afterRead; dsimp only; split <;> split <;> rfl

theorem storedEntry_plain (hs : isSlotObj obj = false) {r : CatRow} (hr : catRow obj = some r) :
    storedEntry s obj v = if r.per = 2 then some obj else none := by
  simp [storedEntry, hs, hr]

/-- A write of persistence S that awaits its commit, and whoever asked for it (R399). -/
def awaitCommit (obj : Nat) (ans : Answer) (s : State) : State :=
  let u := noteOp 0 none s
  { u with dir := { u.dir with commits := u.dir.commits ++ [(obj, ans)] } }

@[simp] theorem awaitCommit_mem (obj : Nat) (ans : Answer) (s : State) : (awaitCommit obj ans s).mem = s.mem := rfl
@[simp] theorem awaitCommit_trf (obj : Nat) (ans : Answer) (s : State) : (awaitCommit obj ans s).trf = s.trf := rfl
@[simp] theorem awaitCommit_vals (obj : Nat) (ans : Answer) (s : State) : (awaitCommit obj ans s).dir.vals = s.dir.vals := rfl
@[simp] theorem awaitCommit_status (obj : Nat) (ans : Answer) (s : State) : (awaitCommit obj ans s).dir.status = 0 := rfl
@[simp] theorem awaitCommit_commits (obj : Nat) (ans : Answer) (s : State) :
    (awaitCommit obj ans s).dir.commits = s.dir.commits ++ [(obj, ans)] := rfl

@[simp] theorem dirVal_awaitCommit (obj j : Nat) (ans : Answer) (s : State) : dirVal (awaitCommit obj ans s) j = dirVal s j := by
  rw [dirVal, awaitCommit_vals, dirVal]

@[simp] theorem dirNum_awaitCommit (obj j : Nat) (ans : Answer) (s : State) : dirNum (awaitCommit obj ans s) j = dirNum s j := by
  rw [dirNum, dirVal_awaitCommit, dirNum]

theorem runWrite_refused (hs : isSlotObj o.obj = false) (h : checkWrite s o.who o.obj v ≠ 0) :
    runWrite o v s = answerOp o.ans o.obj (checkWrite s o.who o.obj v) false [] (noteOp (checkWrite s o.who o.obj v) none
      (if checkWrite s o.who o.obj v = 5 then effectRefused o.obj v s else s)) := by
  unfold runWrite
  simp [h, touchSlot_plain hs, effectNone, hs]

theorem runWrite_stored (hs : isSlotObj o.obj = false) (h : checkWrite s o.who o.obj v = 0) {r : CatRow}
    (hr : catRow o.obj = some r) (hp : r.per = 2) :
    runWrite o v s = awaitCommit o.obj o.ans (effectPlain o.who o.obj v s) := by
  unfold runWrite
  simp [h, storedEntry_plain hs hr, hp, touchSlot_plain hs, effectWrite_plain hs, awaitCommit]

theorem runWrite_unstored (hs : isSlotObj o.obj = false) (h : checkWrite s o.who o.obj v = 0) {r : CatRow}
    (hr : catRow o.obj = some r) (hp : r.per ≠ 2) :
    runWrite o v s = effectPlain o.who o.obj v (answerOp o.ans o.obj 0 false [] (noteOp 0 none s)) := by
  unfold runWrite
  simp [h, storedEntry_plain hs hr, hp, touchSlot_plain hs, effectWrite_plain hs]

theorem takeOp_write (hc : s.dir.commits = []) (ans : Answer) (hl : opLive s ans = true) :
    takeOp ⟨ans, a, obj, some v⟩ s = runWrite ⟨ans, a, obj, some v⟩ v s := by
  simp [takeOp, hc, runOp, hl]

theorem takeOp_read (hc : s.dir.commits = []) (ans : Answer) (hl : opLive s ans = true) :
    takeOp ⟨ans, a, obj, none⟩ s = runRead ⟨ans, a, obj, none⟩ s := by
  simp [takeOp, hc, runOp, hl]

theorem rowOp_write (hd : dirServed s = true) (hc : s.dir.commits = []) :
    rowOp true a obj (some v) s = .next (runWrite ⟨.none, a, obj, some v⟩ v s) := by
  simp [rowOp, hd, takeOp_write hc .none rfl]

theorem rowOp_waits (hd : dirServed s = true) (hc : s.dir.commits ≠ []) :
    rowOp true a obj (some v) s =
      .next { s with dir := { s.dir with waiting := s.dir.waiting ++ [⟨.none, a, obj, some v⟩] } } := by
  simp [rowOp, hd, takeOp, hc]

/-- A write of a row of its own that is accepted: an S write takes effect and awaits its commit. -/
theorem rowOp_stored (hd : dirServed s = true) (hc : s.dir.commits = []) (hs : isSlotObj obj = false)
    (h : checkWrite s a obj v = 0) {r : CatRow} (hr : catRow obj = some r) (hp : r.per = 2) :
    rowOp true a obj (some v) s = .next (awaitCommit obj .none (effectPlain a obj v s)) := by
  rw [rowOp_write hd hc, runWrite_stored hs h hr hp]

/-- A write of a row of its own that is accepted: another one is noted and takes effect. -/
theorem rowOp_unstored (hd : dirServed s = true) (hc : s.dir.commits = []) (hs : isSlotObj obj = false)
    (h : checkWrite s a obj v = 0) {r : CatRow} (hr : catRow obj = some r) (hp : r.per ≠ 2) :
    rowOp true a obj (some v) s = .next (effectPlain a obj v (noteOp 0 none s)) := by
  rw [rowOp_write hd hc, runWrite_unstored hs h hr hp]; rfl

theorem effectPlain_rw {r : CatRow} (hr : catRow obj = some r) (ha : r.acc = 1) :
    effectPlain a obj v s = actWrite a obj (dirNum s obj) v (dirPut obj v s) := by
  simp [effectPlain, hr, ha]

theorem effectPlain_wo {r : CatRow} (hr : catRow obj = some r) (ha : r.acc = 2) :
    effectPlain a obj v s = actWrite a obj (dirNum s obj) v s := by
  simp [effectPlain, hr, ha]

theorem effectPlain_rwc {r : CatRow} (hr : catRow obj = some r) (ha : r.acc = 3) :
    effectPlain a obj v s = dirSet obj (rwcNew obj r.ty (dirNum s obj) (valNum v)) s := by
  simp [effectPlain, hr, ha]

end

/-- A command that writes an entry is the operation of its row. -/
theorem exec_of_writeRow {c : Instr} {a : Actor} {obj : Nat} {v : DVal} (h : WriteRow c a obj v) (s : State) :
    exec c s = rowOp true a obj (some v) s := by
  unfold WriteRow at h
  split at h
  · obtain ⟨rfl, rfl, rfl⟩ := h; rfl
  · obtain ⟨rfl, rfl, rfl⟩ := h; rfl
  · obtain ⟨rfl, hp, rfl, rfl⟩ := h; simp [exec, execTxAn, hp]
  · obtain ⟨rfl, ht, rfl, rfl⟩ := h; simp [exec, execEnabled, ht]
  · obtain ⟨rfl, ht, hu, rfl, rfl⟩ := h; simp [exec, execPolicerEntryWrite, ht, hu]
  · obtain ⟨rfl, ht, hq, hu, rfl, rfl⟩ := h; simp [exec, execShaperEntryWrite, ht, hq, hu]
  · obtain ⟨rfl, hp, rfl, rfl⟩ := h; simp [exec, execCommitFrame, hp]
  · obtain ⟨rfl, rfl, rfl⟩ := h; rfl
  · obtain ⟨rfl, rfl, rfl⟩ := h; rfl
  · exact h.elim

end Sys2Proof.Machine
end

section
/-! PROOFS. Effects: what the effects of directory writes do beside the value, and what those of RW entries leave as it was
(R12, R326, R335, R337, R339, R341, R447). -/
namespace Sys2Proof.Machine

/-! ### What the effect of an RW entry leaves as it was -/

/-- The value of `obj`, status and commits of the directory, memory and what was placed for the ports are as before, and no
request has come. -/
structure EffectKeeps (obj : Nat) (s t : State) : Prop where
  mem : t.mem = s.mem
  out : t.hxt.out = s.hxt.out
  reqs : ∀ i, req? s i = none → req? t i = none
  dir : DirKeeps (fun j => j ≠ obj) s t

section
variable {obj : Nat} {s t u : State}

theorem EffectKeeps.refl (obj : Nat) (s : State) : EffectKeeps obj s s := ⟨rfl, rfl, fun _ h => h, .refl _ s⟩

theorem EffectKeeps.trans (h : EffectKeeps obj s u) (k : EffectKeeps obj u t) : EffectKeeps obj s t :=
  ⟨k.mem.trans h.mem, k.out.trans h.out, fun i hi => k.reqs i (h.reqs i hi), h.dir.trans k.dir⟩

theorem EffectKeeps.val (h : EffectKeeps obj s t) : dirVal t obj = dirVal s obj := h.dir.vals obj (fun e => e rfl)

/-- Changes outside memory, transport and directory. -/
theorem EffectKeeps.elsewhere (hm : t.mem = s.mem) (hx : t.hxt = s.hxt) (hd : t.dir = s.dir) : EffectKeeps obj s t :=
  ⟨hm, by rw [hx], fun i h => by unfold req? at *; rwa [hx], .of_dir_eq hd⟩

/-- Changes of the directory alone. -/
theorem EffectKeeps.ofDir (hm : t.mem = s.mem) (hx : t.hxt = s.hxt) (hd : DirKeeps (fun j => j ≠ obj) s t) :
    EffectKeeps obj s t :=
  ⟨hm, by rw [hx], fun i h => by unfold req? at *; rwa [hx], hd⟩

theorem EffectKeeps.put (h : EffectKeeps obj s u) {k : Nat} (hk : k ≠ obj) (v : DVal) : EffectKeeps obj s (dirPut k v u) :=
  h.trans (.ofDir rfl rfl (DirKeeps.put (P := fun j => j ≠ obj) (.refl _ u) hk v))

theorem EffectKeeps.set (h : EffectKeeps obj s u) {k : Nat} (hk : k ≠ obj) (n : Nat) : EffectKeeps obj s (dirSet k n u) :=
  h.put hk _

theorem EffectKeeps.bump (h : EffectKeeps obj s u) {k : Nat} (hk : k ≠ obj) : EffectKeeps obj s (bump k u) := h.put hk _

theorem EffectKeeps.sec (h : EffectKeeps obj s u) (x : Sec) : EffectKeeps obj s { u with sec := x } :=
  h.trans (.elsewhere rfl rfl rfl)

theorem EffectKeeps.save (h : EffectKeeps obj s u) : EffectKeeps obj s (saveRecord u) :=
  h.trans (.ofDir (by unfold saveRecord; dsimp only; split <;> rfl) (by unfold saveRecord; dsimp only; split <;> rfl)
    (DirKeeps.refl _ u).save)

theorem EffectKeeps.when (h : EffectKeeps obj s u) (c : Bool) {f : State → State} (hf : ∀ x, EffectKeeps obj x (f x)) :
    EffectKeeps obj s (whenS c f u) := by
  cases c with
  | false => exact h
  | true => exact h.trans (hf u)

theorem EffectKeeps.fold {α : Type} (h : EffectKeeps obj s u) (l : List α) (f : α → State → State)
    (hf : ∀ a x, EffectKeeps obj x (f a x)) : EffectKeeps obj s (foldS l f u) :=
  foldS_keeps (EffectKeeps obj s) l f u (fun a x hx => hx.trans (hf a x)) h

end

/-! ### Traffic entries -/

section
variable {a : Actor} {obj old t q p : Nat} {v : DVal} {s : State}

theorem actWrite_traffic (h : 0x3000 ≤ objIdx obj ∧ objIdx obj ≤ 0x3FFF) : actWrite a obj old v s = actTraffic obj v s := by
  unfold actWrite
  exact if_pos ((inR_iff _ _ _).2 h)

theorem actTraffic_reset (hi : objIdx obj = 0x3100 + t) (ht : t < 64) (hu : objSub obj = 2) :
    actTraffic obj v s = askReset t (valNum v) s := by
  have : 12544 + t ≤ 12607 := by omega
  simp [actTraffic, inR, hi, hu, this]

theorem actTraffic_policer (hi : objIdx obj = 0x3200 + t) (ht : t < 64) : actTraffic obj v s = refillPolicer t s := by
  have h1 : ¬12800 + t ≤ 12607 := by omega
  have h2 : 12800 + t ≤ 12863 := by omega
  simp [actTraffic, inR, hi, h1, h2]

theorem actTraffic_commitFrame (hi : objIdx obj = 0x3300 + p) (hp : p < 8) (hu : objSub obj = 2) :
    actTraffic obj v s = { s with trf := { s.trf with commit := smPut s.trf.commit p (valNum v) } } := by
  have h1 : ¬13056 + p ≤ 12607 := by omega
  have h2 : ¬13056 + p ≤ 12863 := by omega
  have h3 : 13056 + p ≤ 13063 := by omega
  simp [actTraffic, inR, hi, hu, h1, h2, h3]

theorem actTraffic_queue (hi : objIdx obj = 0x3800 + 16 * t + q) (ht : t < 64) (hq : q < 16) :
    actTraffic obj v s = if objSub obj = 0x10 then clearHist t q s
      else if objSub obj = 5 ∨ objSub obj = 6 ∨ objSub obj = 7 ∨ objSub obj = 9 then refillShaper t q s else s := by
  have h1 : inR (objIdx obj) 0x3100 0x313F = false := (inR_eq_false_iff _ _ _).2 (by omega)
  have h2 : inR (objIdx obj) 0x3200 0x323F = false := (inR_eq_false_iff _ _ _).2 (by omega)
  have h3 : inR (objIdx obj) 0x3300 0x3307 = false := (inR_eq_false_iff _ _ _).2 (by omega)
  have h4 : inR (objIdx obj) 0x3800 0x3BFF = true := (inR_iff _ _ _).2 (by omega)
  have ht' : (objIdx obj - 0x3800) / 16 = t := by omega
  have hq' : (objIdx obj - 0x3800) % 16 = q := by omega
  simp only [actTraffic, h1, h2, h3, h4, ht', hq', Bool.false_and, Bool.false_eq_true, if_false, if_true]

theorem refillPolicer_keeps (t : Nat) (s : State) : EffectKeeps obj s (refillPolicer t s) := .elsewhere rfl rfl rfl

theorem refillShaper_keeps (t q : Nat) (s : State) : EffectKeeps obj s (refillShaper t q s) := .elsewhere rfl rfl rfl

theorem askReset_keeps (t f : Nat) (s : State) : EffectKeeps obj s (askReset t f s) := .elsewhere rfl rfl rfl

theorem qObj_ne {u : Nat} (hu : u < 256) (h : objSub obj ≠ u) (t q : Nat) : qObj t q u ≠ obj :=
  (ne_ent_of_objSub hu h).symm

theorem clearHist_keeps (hu : objSub obj = 0x10) (t q : Nat) (s : State) : EffectKeeps obj s (clearHist t q s) := by
  have hput : ∀ u x, u < 0x10 → EffectKeeps obj s x → EffectKeeps obj s (dirPut (qObj t q u) (catDefault (qObj t q u)) x) :=
    fun u _ hlt hx => hx.put (qObj_ne (by omega) (by omega) t q) _
  exact hput 0xF _ (by omega) (hput 0xE _ (by omega) (hput 0xD _ (by omega) (hput 0xC _ (by omega) (.refl obj s))))

theorem actTraffic_keeps (obj : Nat) (v : DVal) (s : State) : EffectKeeps obj s (actTraffic obj v s) := by
  unfold actTraffic
  dsimp only
  split
  · exact askReset_keeps _ _ s
  split
  · exact refillPolicer_keeps _ s
  split
  · exact .elsewhere rfl rfl rfl
  split
  · split
    · next hu => exact clearHist_keeps hu _ _ s
    split
    · exact refillShaper_keeps _ _ s
    · exact .refl obj s
  · exact .refl obj s

/-- A histogram cleared is at its default (R339). -/
theorem dirVal_clearHist (t q : Nat) (s : State) {u : Nat} (hu : u ∈ [0xC, 0xD, 0xE, 0xF]) :
    dirVal (clearHist t q s) (qObj t q u) = catDefault (qObj t q u) := by
  simp only [clearHist, foldS_cons, foldS_nil, dirVal_dirPut]
  simp only [List.mem_cons, List.not_mem_nil, or_false] at hu
  rcases hu with rfl | rfl | rfl | rfl <;> simp [qObj, ent]

/-- After one value is put at many keys, each of them holds it. -/
theorem smGet?_foldl_smPut {α : Type} (key : Nat → Nat) (c : α) (p : Nat) (l : List Nat) (m : SMap α)
    (h : p ∈ l ∨ smGet? m (key p) = some c) : smGet? (l.foldl (fun m i => smPut m (key i) c) m) (key p) = some c := by
  induction l generalizing m with
  | nil => exact h.resolve_left List.not_mem_nil
  | cons i l ih =>
    refine ih _ ?_
    by_cases hi : key p = key i
    · exact .inr (hi ▸ smGet?_smPut_self m (key i) c)
    · rw [smGet?_smPut_ne m _ _ c hi]
      exact h.imp_left fun hp => (List.mem_cons.1 hp).resolve_left fun e => hi (congrArg key e)

/-- After a refill every credit of the queue is fresh (R335). -/
theorem refillShaper_credit (t q : Nat) (s : State) (hp : p < 8) :
    smGet? (refillShaper t q s).trf.credits (creditKey t q p) = some (freshCredit s t q s.clk.now) := by
  have hmem : ∀ i, i < 8 → i ∈ upFrom 0 8 := by decide
  exact smGet?_foldl_smPut (creditKey t q) (freshCredit s t q s.clk.now) p (upFrom 0 8) s.trf.credits (.inl (hmem p hp))

end

/-! ### Single entries -/

section
variable {a : Actor} {obj old : Nat} {v : DVal} {s : State}

/-- Entries whose effect `actSingle` gives and that hold no value written to them. -/
def writeOnlySingles : List Nat :=
  [ent 0x1010 0xD, ent 0x2010 7, ent 0x4050 2, ent 0x5010 3, ent 0x9010 8, ent 0x9020 3, ent 0x9020 6, ent 0x9020 9, ent 0xA020 1]

theorem acc_writeOnlySingles : ∀ o ∈ writeOnlySingles, (catRow o).map (fun r => r.acc) = some 2 := by decide +kernel

theorem ne_writeOnlySingles {r : CatRow} (hr : catRow obj = some r) (ha : r.acc = 1) : ∀ o ∈ writeOnlySingles, obj ≠ o := by
  rintro o ho rfl
  have := acc_writeOnlySingles obj ho
  simp [hr, ha] at this

/-- Of the single entries, four RW ones have an effect. -/
theorem actSingle_rw {r : CatRow} (hr : catRow obj = some r) (ha : r.acc = 1) :
    actSingle a obj old v s = if obj = ent 0x1010 5 ∨ obj = ent 0x5010 8 then autoRemove s
      else if obj = ent 0x9010 3 then extendM 7 (slice (Config.sha384 (valBlob v)) 0 48) s
      else if obj = ent 0x9030 1 then setDebug old (valNum v) s else s := by
  have hn := ne_writeOnlySingles hr ha
  simp only [writeOnlySingles, List.mem_cons, List.not_mem_nil, or_false, forall_eq_or_imp, forall_eq] at hn
  obtain ⟨h1, h2, h3, h4, h5, h6, h7, h8, h9⟩ := hn
  simp only [actSingle, h1, h2, h3, h4, h5, h6, h7, h8, h9, if_false]

theorem autoRemove_keeps (s : State) : EffectKeeps obj s (autoRemove s) := by
  unfold autoRemove; split
  · exact .elsewhere rfl rfl rfl
  · exact .refl obj s

theorem extendM_keeps (k : Nat) (d : Bytes) (s : State) : EffectKeeps obj s (extendM k d s) := .elsewhere rfl rfl rfl

theorem eraseKey_keeps (h : obj = ent 0x9030 1) (t : Nat) (s : State) : EffectKeeps obj s (eraseKey t s) := by
  unfold eraseKey
  split
  · have hne : ∀ u, ent (0x9100 + t) u ≠ obj := by intro u; subst h; unfold ent; omega
    have hp := (EffectKeeps.refl obj s).put (hne 1) (catDefault (ent (0x9100 + t) 1))
    exact EffectKeeps.set (hp.sec _) (hne 2) 2
  · exact .refl obj s

theorem closeSess_keeps (h : obj = ent 0x9030 1) (sid : Nat) (s : State) : EffectKeeps obj s (closeSess sid s) := by
  have hc : EffectKeeps obj s { s with
      dir := { s.dir with slots := s.dir.slots.filter (fun p => !(p.2.owner == sid && !p.2.chain)) }
      hxt := { s.hxt with
        sessions := s.hxt.sessions.filter (fun x => x.sid != sid)
        asm := s.hxt.asm.filter (fun a => a.sid != sid)
        reqs := s.hxt.reqs.filter (fun r => !(r.sid == sid && r.st == .waiting)) } } := by
    refine ⟨rfl, rfl, fun i hi => ?_, rfl, rfl, fun _ _ => rfl⟩
    unfold req? at hi ⊢
    rw [List.find?_eq_none] at hi ⊢
    exact fun x hx => hi x (List.mem_filter.1 hx).1
  have hne : ent 0xB010 6 ≠ obj := by subst h; decide
  exact EffectKeeps.set hc hne _

theorem enterOpen_keeps (h : obj = ent 0x9030 1) (s : State) : EffectKeeps obj s (enterOpen s) := by
  have hne : ent 0x9030 3 ≠ obj := by subst h; decide
  have hs := (EffectKeeps.refl obj s).fold (s.hxt.sessions.map (fun x => x.sid)) closeSess (closeSess_keeps h)
  have hk := (hs.fold (upFrom 0 64) eraseKey (eraseKey_keeps h)).save
  exact EffectKeeps.bump (hk.sec _) hne

theorem setDebug_keeps (h : obj = ent 0x9030 1) (old m : Nat) (s : State) : EffectKeeps obj s (setDebug old m s) := by
  unfold setDebug
  split
  · have hx := ((EffectKeeps.refl obj s).sec { s.sec with opened := true }).trans (extendM_keeps 6 [BitVec.ofNat 8 m] _)
    exact EffectKeeps.when hx _ (enterOpen_keeps h)
  · exact .refl obj s

theorem showPorts_keeps (h : objSub obj = 1) (port : Nat) (s : State) : EffectKeeps obj s (showPorts port s) := by
  have hne : ∀ p, ent (0xB100 + p) 2 ≠ obj := fun p => (ne_ent_of_objSub (by omega) (by omega)).symm
  unfold showPorts
  refine EffectKeeps.fold (.refl obj s) _ _ (fun i x => ?_)
  dsimp only
  split
  · split
    · exact (EffectKeeps.refl obj x).set (hne _) 0
    · exact .refl obj x
  · exact (EffectKeeps.refl obj x).set (hne _) 2

theorem takeArrangement_keeps (h : objSub obj = 1) (port : Nat) (s : State) : EffectKeeps obj s (takeArrangement port s) := by
  unfold takeArrangement
  split
  · exact .refl obj s
  · refine EffectKeeps.trans ?_ (showPorts_keeps h port _)
    exact .elsewhere rfl rfl rfl

/-- The effect of a write of an RW entry beside its value. -/
theorem actWrite_rw_keeps {r : CatRow} (hr : catRow obj = some r) (ha : r.acc = 1) :
    EffectKeeps obj s (actWrite a obj old v s) := by
  unfold actWrite
  dsimp only
  split
  · exact actTraffic_keeps obj v s
  split
  · next h =>
    have := (inR_iff _ _ _).1 h
    exact (EffectKeeps.refl obj s).set (ne_ent_of_objIdx (by omega) (by omega)).symm _
  split
  · next h =>
    have hi := (inR_iff _ _ _).1 h
    have hu : objSub obj < 256 := Nat.mod_lt _ (by omega)
    have := catRow_family tenantKey_rows hr (by omega)
    simp [ha] at this
  split
  · split
    · next hu => exact takeArrangement_keeps hu _ s
    split
    · exact .elsewhere rfl rfl rfl
    · exact .refl obj s
  · rw [actSingle_rw hr ha]
    split
    · exact autoRemove_keeps s
    split
    · exact extendM_keeps _ _ s
    split
    · next h => exact setDebug_keeps h _ _ s
    · exact .refl obj s

/-- A write accepted by an RW entry leaves its value there (R12). -/
theorem dirVal_effectPlain_rw {r : CatRow} (hr : catRow obj = some r) (ha : r.acc = 1) :
    dirVal (effectPlain a obj v s) obj = v := by
  rw [effectPlain_rw hr ha, (actWrite_rw_keeps hr ha).val, dirVal_dirPut_self]

theorem effectPlain_rw_keeps {r : CatRow} (hr : catRow obj = some r) (ha : r.acc = 1) :
    (effectPlain a obj v s).mem = s.mem ∧ (effectPlain a obj v s).hxt.out = s.hxt.out ∧
      (∀ i, req? s i = none → req? (effectPlain a obj v s) i = none) ∧
      (effectPlain a obj v s).dir.status = s.dir.status ∧ (effectPlain a obj v s).dir.commits = s.dir.commits := by
  rw [effectPlain_rw hr ha]
  obtain ⟨hm, ho, hq, hd⟩ := actWrite_rw_keeps (a := a) (old := dirNum s obj) (v := v) (s := dirPut obj v s) hr ha
  exact ⟨hm, ho, hq, hd.status, hd.commits⟩

end

end Sys2Proof.Machine
end

section
/-! PROOFS. Receipts: what ending a request counts, sends and leaves as it was (R14, R311, R312, R316), and the answers to
in-band directory requests (R402). -/
namespace Sys2Proof.Machine

/-! ### Sessions and requests changed -/

/-- The first element that satisfies `p`, after it has been changed into one that still does. -/
theorem find?_updFirst {α : Type} {p : α → Bool} {f : α → α} (hf : ∀ a, p a = true → p (f a) = true) (l : List α) :
    (updFirst p f l).find? p = (l.find? p).map f := by
  induction l with
  | nil => rfl
  | cons a t ih => by_cases h : p a = true <;> simp [updFirst, h, hf, ih]

theorem req?_rid {s : State} {rid : Nat} {r : Req} (h : req? s rid = some r) : r.rid = rid := by
  simpa using List.find?_some h

theorem req?_onReq_self {rid : Nat} {f : Req → Req} (hf : ∀ x, (f x).rid = x.rid) (s : State) :
    req? (onReq rid f s) rid = (req? s rid).map f :=
  find?_updFirst (fun x hx => by simpa [hf] using hx) s.hxt.reqs

theorem sess?_onSess_self {sid : Nat} {f : Sess → Sess} (hf : ∀ x, (f x).sid = x.sid) (s : State) :
    sess? (onSess sid f s) sid = (sess? s sid).map f :=
  find?_updFirst (fun x hx => by simpa [hf] using hx) s.hxt.sessions

theorem req?_dropReq_self (rid : Nat) (s : State) : req? (dropReq rid s) rid = none := by
  simp [req?, dropReq, List.find?_eq_none]

/-! ### Work ended -/

/-- The counters that ending a request may move: knocks sent, its class, its status, a receipt dropped. -/
inductive ReceiptCounter (r : Req) (status : Nat) : Nat → Prop
  | knock : ReceiptCounter r status (ent 0xC090 1)
  | classed (u : Nat) (h : hasClass r.type = true) (hu : u ∈ [9, 0xA, 0xB, 0xC]) : ReceiptCounter r status (ent 0xC100 u)
  | auth (h : status = 0x12) : ReceiptCounter r status (ent 0xB010 9)
  | stale (h : status = 0x30) : ReceiptCounter r status (ent 0x2010 0xB)
  | reset (h : status = 0x32) : ReceiptCounter r status (ent (0x3100 + r.tenant) 0xF)
  | dropped : ReceiptCounter r status (ent 0xB010 0xE)

theorem ReceiptCounter.objSub {r : Req} {status j : Nat} (h : ReceiptCounter r status j) :
    objSub j = 1 ∧ objIdx j = 0xC090 ∨ 9 ≤ objSub j := by
  cases h with
  | knock => exact .inl (by decide)
  | classed u _ hu =>
    simp only [List.mem_cons, List.not_mem_nil, or_false] at hu
    exact .inr (by rw [objSub_ent _ _ (by omega)]; omega)
  | auth => exact .inr (by decide)
  | stale => exact .inr (by decide)
  | reset => exact .inr (by rw [objSub_ent _ _ (by omega)]; omega)
  | dropped => exact .inr (by decide)

theorem not_receiptCounter_epoch (r : Req) (status : Nat) : ¬ReceiptCounter r status (ent 0x2010 1) := fun h => by
  have h1 := h.objSub
  rw [objSub_ent _ _ (by omega), objIdx_ent _ _ (by omega)] at h1
  omega

theorem not_receiptCounter_port (r : Req) (status p : Nat) : ¬ReceiptCounter r status (ent (0xB100 + p) 2) := fun h => by
  have h1 := h.objSub
  rw [objSub_ent _ _ (by omega)] at h1
  omega

/-- Of a request that has no class and ends neither stale nor by a tenant reset, counters of letters and packets move. -/
theorem ReceiptCounter.index {r : Req} {status j : Nat} (h : ReceiptCounter r status j) (hc : hasClass r.type = false)
    (h30 : status ≠ 0x30) (h32 : status ≠ 0x32) : j / 256 = 0xB010 ∨ j / 256 = 0xC090 := by
  cases h with
  | knock => exact .inr (by decide)
  | classed _ hclass => exact absurd (hc.symm.trans hclass) (by decide)
  | auth => exact .inl (by decide)
  | stale hst => exact absurd hst h30
  | reset hst => exact absurd hst h32
  | dropped => exact .inl (by decide)

section
variable {P : Nat → Prop}

theorem sendKnock_keeps (hP : P (ent 0xC090 1)) (e m d : Nat) (s : State) : DirKeeps P s (sendKnock e m d s) := by
  unfold sendKnock
  split
  · exact .refl P s
  · dsimp only
    split
    · exact DirKeeps.bump (.of_dir_eq (onKnocks_dir _ _ _)) hP
    · exact DirKeeps.bump (.of_dir_eq (by rfl)) hP

theorem completeDesc_keeps (hP : P (ent 0xC090 1)) (n : Nat) (d : PDesc) (status : Nat) (s : State) :
    DirKeeps P s (completeDesc n d status s) := by
  unfold completeDesc
  exact DirKeeps.trans (.of_dir_eq (by simp)) (sendKnock_keeps hP _ _ _ _)

theorem stopWork_keeps (hP : P (ent 0xC090 1)) (rid status : Nat) (s : State) : DirKeeps P s (stopWork rid status s) := by
  have he : ∀ u, DirKeeps P u (endDescs (fun d => d.req == rid) status u) := fun u =>
    DirKeeps.fold _ _ u (fun q x => DirKeeps.fold _ _ x (fun d y => completeDesc_keeps hP q.1 d status y))
  unfold stopWork
  split
  · exact .refl P s
  · exact ((DirKeeps.of_dir_eq (killParcels_dir _ s)).trans (he _)).trans (.of_dir_eq rfl)

theorem stopWork_hxt (rid status : Nat) (s : State) : (stopWork rid status s).hxt = s.hxt :=
  Frame.same (frame_stopWork (m0 := 4344) _ _ _ (by decide) (Frame.refl _)).hxt rfl

theorem stopWork_clk (rid status : Nat) (s : State) : (stopWork rid status s).clk = s.clk :=
  Frame.same (frame_stopWork (m0 := 4344) _ _ _ (by decide) (Frame.refl _)).clk rfl

theorem countClass_keeps (hP : ∀ u, u ∈ [9, 0xA, 0xB, 0xC] → P (ent 0xC100 u)) (r : Req) (status cls : Nat) (s : State) :
    DirKeeps P s (countClass r status cls s) := by
  simp only [List.mem_cons, List.not_mem_nil, or_false, forall_eq_or_imp, forall_eq] at hP
  obtain ⟨h9, hA, hB, hC⟩ := hP
  have h1 : DirKeeps P s (whenS (r.cls == 0) (fun s => whenS (cls == 0) (bump (ent 0xC100 0xA)) (bump (ent 0xC100 9) s)) s) :=
    .when fun _ => ((DirKeeps.refl P s).bump h9).trans (.when fun _ => (DirKeeps.refl P _).bump hA)
  have h2 : DirKeeps P s (whenS (decide (r.cls ≤ 1) && cls == 2) (bump (ent 0xC100 0xB)) _) :=
    h1.trans (.when fun _ => (DirKeeps.refl P _).bump hB)
  exact (h2.set hC _).congr (addTrace_dir _ _)

theorem countClass_hxt (r : Req) (status cls : Nat) (s : State) : (countClass r status cls s).hxt = s.hxt :=
  Frame.same (frame_countClass (m0 := 6144) _ _ _ _ (by decide) (Frame.refl _)).hxt rfl

theorem countClass_clk (r : Req) (status cls : Nat) (s : State) : (countClass r status cls s).clk = s.clk :=
  Frame.same (frame_countClass (m0 := 6144) _ _ _ _ (by decide) (Frame.refl _)).clk rfl

theorem countStatus_keeps (r : Req) (status : Nat) (s : State) (h12 : status = 0x12 → P (ent 0xB010 9))
    (h30 : status = 0x30 → P (ent 0x2010 0xB)) (h32 : status = 0x32 → P (ent (0x3100 + r.tenant) 0xF)) :
    DirKeeps P s (countStatus r status s) := by
  have h1 : DirKeeps P s (whenS (status == 0x12) (bump (ent 0xB010 9)) s) :=
    .when fun h => (DirKeeps.refl P s).bump (h12 (by simpa using h))
  unfold countStatus
  exact (h1.trans (.when fun h => (DirKeeps.refl P _).bump (h30 (by simpa using h)))).trans
    (.when fun h => (DirKeeps.refl P _).bump (h32 (by simpa using h)))

theorem countStatus_hxt (r : Req) (status : Nat) (s : State) : (countStatus r status s).hxt = s.hxt :=
  Frame.same (frame_countStatus (m0 := 4096) _ _ _ (by decide) (Frame.refl _)).hxt rfl

theorem countStatus_clk (r : Req) (status : Nat) (s : State) : (countStatus r status s).clk = s.clk :=
  Frame.same (frame_countStatus (m0 := 4096) _ _ _ (by decide) (Frame.refl _)).clk rfl

end

/-- A request's work ended and counted, its receipt kept where it must be: what comes before the receipt goes to the port. -/
def closeWork (r : Req) (rid status : Nat) (b : Bytes) (s : State) : State :=
  let classed := hasClass r.type && decide (status < 0x10)
  let cls := if classed then classObtained r.type r.cls r.cause else 0xFF
  let u := whenS classed (countClass r status cls) (stopWork rid status s)
  countStatus r status (whenS (isHeldAfter r status) (holdReceipt r b) u)

/-- A request in the node ends: its work is closed, its receipt is handed to the port of its session, it is removed. -/
theorem endReq_eq {s : State} {rid : Nat} {r : Req} (h : req? s rid = some r) (status count detail : Nat) (body : Bytes) :
    let b := receiptFor r status count detail body
    let u := closeWork r rid status b s
    endReq rid status count detail body s =
      dropReq rid (optS (sess? u r.sid) (fun x => postReceipt x r.addr r.queue r.pm b) u) := by
  unfold endReq
  rw [h]
  rfl

section
variable (r : Req) (rid status : Nat) (b : Bytes) (s : State)

theorem closeWork_hxt : (closeWork r rid status b s).hxt = (whenS (isHeldAfter r status) (holdReceipt r b) s).hxt := by
  have hw : ∀ c cls, (whenS c (countClass r status cls) (stopWork rid status s)).hxt = s.hxt := by
    intro c cls
    cases c with
    | false => exact stopWork_hxt rid status s
    | true => exact (countClass_hxt r status cls _).trans (stopWork_hxt rid status s)
  unfold closeWork
  dsimp only
  rw [countStatus_hxt]
  cases isHeldAfter r status with
  | false => exact hw _ _
  | true => simp [holdReceipt, onSess, hw]

theorem closeWork_clk : (closeWork r rid status b s).clk = s.clk := by
  unfold closeWork
  dsimp only
  rw [countStatus_clk]
  cases isHeldAfter r status <;> cases (hasClass r.type && decide (status < 0x10)) <;>
    simp [holdReceipt, countClass_clk, stopWork_clk]

theorem closeWork_out : (closeWork r rid status b s).hxt.out = s.hxt.out := by
  rw [closeWork_hxt]
  cases isHeldAfter r status <;> rfl

theorem closeWork_keeps : DirKeeps (ReceiptCounter r status) s (closeWork r rid status b s) := by
  have hw := stopWork_keeps (P := ReceiptCounter r status) .knock rid status s
  have hcount := fun c cls (hc : c = (hasClass r.type && decide (status < 0x10))) => DirKeeps.when (c := c) fun h =>
    countClass_keeps (P := ReceiptCounter r status)
      (fun u hu => .classed u (Bool.and_eq_true_iff.1 (hc.symm.trans h)).1 hu) r status cls (stopWork rid status s)
  have hheld : ∀ u, DirKeeps (ReceiptCounter r status) u (whenS (isHeldAfter r status) (holdReceipt r b) u) :=
    fun u => .when fun _ => .of_dir_eq rfl
  exact ((hw.trans (hcount _ _ rfl)).trans (hheld _)).trans (countStatus_keeps r status _ .auth .stale .reset)

/-- A request's session is still there, with the receipts it holds for repeats. -/
theorem closeWork_sess {x : Sess} (hx : sess? s r.sid = some x) :
    ∃ held, sess? (closeWork r rid status b s) r.sid = some { x with held := held } := by
  have he : sess? (closeWork r rid status b s) r.sid = sess? (whenS (isHeldAfter r status) (holdReceipt r b) s) r.sid := by
    unfold sess?; rw [closeWork_hxt]
  rw [he]
  cases isHeldAfter r status with
  | false => exact ⟨x.held, hx⟩
  | true =>
    refine ⟨smPut x.held r.pm ⟨r.type, some b⟩, ?_⟩
    rw [whenS_true, holdReceipt, sess?_onSess_self, hx]
    · rfl
    · exact fun _ => rfl

end

theorem postReceipt_keeps {P : Nat → Prop} (hP : P (ent 0xB010 0xE)) (x : Sess) (a : Addr) (q pm : Nat) (b : Bytes) (s : State) :
    DirKeeps P s (postReceipt x a q pm b s) := by
  unfold postReceipt
  split
  · exact .of_dir_eq rfl
  · exact (DirKeeps.refl P s).bump hP

/-- Ending a request changes no entry but its counters. -/
theorem endReq_keeps {s : State} {rid : Nat} {r : Req} (h : req? s rid = some r) (status count detail : Nat) (body : Bytes) :
    DirKeeps (ReceiptCounter r status) s (endReq rid status count detail body s) := by
  rw [endReq_eq h]
  have hw := closeWork_keeps r rid status (receiptFor r status count detail body) s
  refine DirKeeps.congr (hw.trans ?_) (dropReq_dir _ _)
  cases sess? (closeWork r rid status (receiptFor r status count detail body) s) r.sid with
  | none => exact .refl _ _
  | some x => exact postReceipt_keeps .dropped _ _ _ _ _ _

theorem portUp_of_keeps {P : Nat → Prop} {s t : State} (h : DirKeeps P s t) {p : Nat} (hp : ¬P (ent (0xB100 + p) 2)) :
    portUp t p = portUp s p := by unfold portUp; rw [h.num hp]

theorem epoch_of_keeps {P : Nat → Prop} {s t : State} (h : DirKeeps P s t) (he : ¬P (ent 0x2010 1)) :
    epoch t = epoch s := h.num he

/-- A request that ends leaves the node, and its receipt goes out. -/
theorem endReq_receipted {s : State} {rid : Nat} {r : Req} (h : req? s rid = some r) (status count detail : Nat) (body : Bytes) :
    Receipted s (endReq rid status count detail body s) r (receiptFor r status count detail body) := by
  have hk := closeWork_keeps r rid status (receiptFor r status count detail body) s
  rw [endReq_eq h]
  refine ⟨by rw [req?_rid h]; exact req?_dropReq_self rid _, fun x hx hp => ?_⟩
  obtain ⟨held, hs⟩ := closeWork_sess r rid status (receiptFor r status count detail body) s hx
  have hu := (portUp_of_keeps hk (not_receiptCounter_port r status r.addr.port)).trans hp
  rw [hs, optS_some, postReceipt, if_pos hu]
  simp only [dropReq, putOut, closeWork_out, closeWork_clk, epoch_of_keeps hk (not_receiptCounter_epoch r status)]
  rfl

/-! ### Receipts before and after other changes -/

/-- What forming a receipt reads is the same in both states. -/
structure SameDesk (s u : State) : Prop where
  sessions : u.hxt.sessions = s.hxt.sessions
  out : u.hxt.out = s.hxt.out
  now : u.clk = s.clk
  epoch : epoch u = epoch s
  ports : ∀ p, portUp u p = portUp s p

/-- Changes outside the transport and the clock, and of other entries. -/
theorem SameDesk.of_keeps {P : Nat → Prop} {s u : State} (hx : u.hxt = s.hxt) (hc : u.clk = s.clk) (h : DirKeeps P s u)
    (he : ¬P (ent 0x2010 1)) (hp : ∀ p, ¬P (ent (0xB100 + p) 2)) : SameDesk s u :=
  ⟨by rw [hx], by rw [hx], hc, epoch_of_keeps h he, fun p => portUp_of_keeps h (hp p)⟩

theorem SameDesk.trans {s u t : State} (h : SameDesk s u) (k : SameDesk u t) : SameDesk s t :=
  ⟨k.sessions.trans h.sessions, k.out.trans h.out, k.now.trans h.now, k.epoch.trans h.epoch,
    fun p => (k.ports p).trans (h.ports p)⟩

theorem Receipted.of_sameDesk {s u t : State} {r : Req} {b : Bytes} (h : Receipted u t r b) (d : SameDesk s u) :
    Receipted s t r b := by
  refine ⟨h.gone, fun x hx hp => ?_⟩
  have := h.sent x (by unfold sess? at *; rwa [d.sessions]) ((d.ports _).trans hp)
  rwa [d.out, d.epoch, d.now] at this

theorem Receipted.after {s u t : State} {r : Req} {b : Bytes} (h : Receipted s u r b) (ho : t.hxt.out = u.hxt.out)
    (hr : ∀ i, req? u i = none → req? t i = none) : Receipted s t r b :=
  ⟨hr _ h.gone, fun x hx hp => ho.trans (h.sent x hx hp)⟩

/-! ### In-band requests (R402) -/

section
variable {s : State} {rid : Nat} {r : Req}

/-- The state in which an admitted in-band request executes. -/
def executing (rid : Nat) (s : State) : State := onReq rid (fun x => { x with st := .executing }) s

theorem req?_executing (h : req? s rid = some r) : req? (executing rid s) rid = some { r with st := .executing } := by
  rw [executing, req?_onReq_self, h]
  · rfl
  · exact fun _ => rfl

theorem executing_sameDesk (rid : Nat) (s : State) : SameDesk s (executing rid s) := ⟨rfl, rfl, rfl, rfl, fun _ => rfl⟩

theorem takeReq_served (h : req? s rid = some r) (hst : r.st = .admitted) (hd : dirServed s = true) (wr : Req → Option DVal) :
    takeReq rid r.type wr s = takeOp ⟨.req rid, reqActor r, r.obj, wr r⟩ (executing rid s) := by
  unfold takeReq
  simp [h, hst, hd, executing]

theorem takeReq_down (h : req? s rid = some r) (hst : r.st = .admitted) (hd : dirServed s = false) (wr : Req → Option DVal) :
    takeReq rid r.type wr s = failReq rid 0x60 s := by
  unfold takeReq
  simp [h, hst, hd]

/-- An executing request that ends is receipted as the request admitted. -/
theorem endReq_executing_receipted {u : State} (hst : r.st = .admitted) (hu : req? u rid = some { r with st := .executing })
    (d : SameDesk s u) (status count detail : Nat) (body : Bytes) :
    Receipted s (endReq rid status count detail body u) r (receiptFor r status count detail body) := by
  have he : receiptFor { r with st := .executing } status count detail body = receiptFor r status count detail body := by
    simp [receiptFor, hst]
  have h := (endReq_receipted hu status count detail body).of_sameDesk d
  rw [he] at h
  exact ⟨h.gone, h.sent⟩

theorem answerOp_req (rid obj st : Nat) (read : Bool) (body : Bytes) (s : State) (h : ¬(st = 0 ∧ read = true)) :
    answerOp (.req rid) obj st read body s = endReq rid (receiptOf st).1 0 (receiptOf st).2 [] s := by
  simp only [answerOp, if_neg h]

theorem answerOp_req_value (rid obj : Nat) (body : Bytes) (s : State) :
    answerOp (.req rid) obj 0 true body s = endReq rid 0 1 0 (leBytes 8 (typeOf obj) ++ body) s := by
  simp [answerOp]

theorem receiptOf_status (st : Nat) : (receiptOf st).1 ≠ 0x30 ∧ (receiptOf st).1 ≠ 0x32 := by
  unfold receiptOf
  repeat' split
  all_goals decide

end

end Sys2Proof.Machine
end

section
/-! PROOFS. DirectoryWrites: the statement on directory reads and writes, part by part. -/
namespace Sys2Proof.Machine

/-! ### Rows that write an entry -/

section
variable {s : State} {c : Instr} {a : Actor} {obj : Nat} {v : DVal}

/-- A refused write says so in the status and leaves its entry as it was. -/
theorem exec_write_refused (h : WriteRow c a obj v) (hd : dirServed s = true) (hc : s.dir.commits = [])
    (hs : isSlotObj obj = false) (hk : checkWrite s a obj v ≠ 0) :
    ∃ t, exec c s = .next t ∧ t.dir.status = checkWrite s a obj v ∧ dirVal t obj = dirVal s obj ∧ t.dir.commits = [] ∧
      t.mem = s.mem ∧ t.hxt = s.hxt ∧ t.trf = s.trf := by
  rw [exec_of_writeRow h, rowOp_write hd hc, runWrite_refused hs hk]
  refine ⟨_, rfl, rfl, ?_⟩
  simp only [answerOp]
  split
  · exact ⟨dirVal_effectRefused_self obj v s, (effectRefused_keeps obj v s).commits.trans hc,
      Frame.same (frame_effectRefused (m0 := 36864) obj v s (by decide) (Frame.refl _)).mem rfl,
      Frame.same (frame_effectRefused (m0 := 36864) obj v s (by decide) (Frame.refl _)).hxt rfl,
      Frame.same (frame_effectRefused (m0 := 36864) obj v s (by decide) (Frame.refl _)).trf rfl⟩
  · exact ⟨rfl, hc, rfl, rfl, rfl⟩

/-- An accepted write to an RW entry leaves its value there, and waits for its commit where it is of persistence S. -/
theorem exec_write_rw (h : WriteRow c a obj v) (hd : dirServed s = true) (hc : s.dir.commits = [])
    (hs : isSlotObj obj = false) {r : CatRow} (hr : catRow obj = some r) (hk : checkWrite s a obj v = 0) (ha : r.acc = 1) :
    ∃ t, exec c s = .next t ∧ t.dir.status = 0 ∧ dirVal t obj = v ∧ t.mem = s.mem ∧
      t.dir.commits = if r.per = 2 then [(obj, Answer.none)] else [] := by
  rw [exec_of_writeRow h]
  by_cases hp : r.per = 2
  · obtain ⟨hm, -, -, -, hcm⟩ := effectPlain_rw_keeps (a := a) (v := v) (s := s) hr ha
    refine ⟨_, rowOp_stored hd hc hs hk hr hp, awaitCommit_status _ _ _, ?_, ?_, ?_⟩
    · rw [dirVal_awaitCommit, dirVal_effectPlain_rw hr ha]
    · rw [awaitCommit_mem, hm]
    · rw [awaitCommit_commits, hcm, hc, if_pos hp]; rfl
  · obtain ⟨hm, -, -, hst, hcm⟩ := effectPlain_rw_keeps (a := a) (v := v) (s := noteOp 0 none s) hr ha
    exact ⟨_, rowOp_unstored hd hc hs hk hr hp, hst, dirVal_effectPlain_rw hr ha, hm,
      (hcm.trans hc).trans (if_neg hp).symm⟩

/-- An accepted write to an RWC entry clears it as R12 says. -/
theorem exec_write_rwc (h : WriteRow c a obj v) (hd : dirServed s = true) (hc : s.dir.commits = [])
    (hs : isSlotObj obj = false) {r : CatRow} (hr : catRow obj = some r) (hk : checkWrite s a obj v = 0) (ha : r.acc = 3) :
    ∃ t, exec c s = .next t ∧ t.dir.status = 0 ∧ t.mem = s.mem ∧ dirNum t obj = rwcNew obj r.ty (dirNum s obj) (valNum v) := by
  rw [exec_of_writeRow h]
  by_cases hp : r.per = 2
  · rw [rowOp_stored hd hc hs hk hr hp, effectPlain_rwc hr ha]
    refine ⟨_, rfl, awaitCommit_status _ _ _, by rw [awaitCommit_mem, dirSet_mem], ?_⟩
    rw [dirNum_awaitCommit, dirNum_dirSet_self]
  · rw [rowOp_unstored hd hc hs hk hr hp, effectPlain_rwc hr ha]
    exact ⟨_, rfl, rfl, rfl, dirNum_dirSet_self obj _ (noteOp 0 none s)⟩

end

/-! ### Rows with an effect of their own -/

section
variable {s : State} {a : Actor} {obj t q u p : Nat} {v : DVal}

theorem volatile_iff {k : Nat} {r : CatRow} : volatile k r = true ↔ r.acc = k ∧ r.per = 1 := by simp [volatile]

/-- An accepted write to a write-only entry of persistence V: it is noted and takes effect. -/
theorem rowOp_writeOnly (hd : dirServed s = true) (hc : s.dir.commits = []) (hs : isSlotObj obj = false)
    (hk : checkWrite s a obj v = 0) {k i0 i1 u0 u1 : Nat} (hrows : familyRows k i0 i1 u0 u1 (volatile 2) = true)
    (hm : objIdx obj / 0x1000 = k ∧ i0 ≤ objIdx obj ∧ objIdx obj ≤ i1 ∧ u0 ≤ objSub obj ∧ objSub obj ≤ u1) :
    rowOp true a obj (some v) s = .next (actWrite a obj (dirNum s obj) v (noteOp 0 none s)) := by
  obtain ⟨r, hr, -, -, -⟩ := checkWrite_ok hs hk
  obtain ⟨ha, hp⟩ := volatile_iff.1 (catRow_family hrows hr hm)
  rw [rowOp_unstored hd hc hs hk hr (by omega), effectPlain_wo hr ha]
  rfl

/-- An accepted write to an entry of a family whose writable entries are RW and of persistence S. -/
theorem rowOp_rwS (hd : dirServed s = true) (hc : s.dir.commits = []) (hs : isSlotObj obj = false)
    (hk : checkWrite s a obj v = 0) {k i0 i1 u0 u1 : Nat} (hrows : familyRows k i0 i1 u0 u1 constOrRwS = true)
    (hm : objIdx obj / 0x1000 = k ∧ i0 ≤ objIdx obj ∧ objIdx obj ≤ i1 ∧ u0 ≤ objSub obj ∧ objSub obj ≤ u1) :
    rowOp true a obj (some v) s = .next (awaitCommit obj .none (actWrite a obj (dirNum s obj) v (dirPut obj v s))) := by
  obtain ⟨r, hr, hro, hconst, -⟩ := checkWrite_ok hs hk
  have hrw := catRow_family hrows hr hm
  simp only [constOrRwS, Bool.or_eq_true, Bool.and_eq_true, beq_iff_eq, hro, hconst, false_or] at hrw
  obtain ⟨ha, hp⟩ := hrw
  rw [rowOp_stored hd hc hs hk hr hp, effectPlain_rw hr ha]

/-- A fresh bucket follows from the tenant's entries, which neither the refill nor the wait for a commit changes. -/
theorem freshBucket_awaitCommit (obj t : Nat) (s : State) :
    freshBucket (awaitCommit obj .none (refillPolicer t s)) t = freshBucket s t := by
  have hn : ∀ j, dirNum (refillPolicer t s) j = dirNum s j := fun j => dirNum_congr rfl j
  simp only [freshBucket, dirNum_awaitCommit, hn]
  rfl

theorem exec_policerEntryWrite (hd : dirServed s = true) (hc : s.dir.commits = [])
    (hk : checkWrite s a (ent (0x3200 + t) u) v = 0) (ht : t < 64) (hu : u < 256) :
    ∃ z, exec (.policerEntryWrite a t u v) s = .next z ∧ smGet? z.trf.buckets t = some (freshBucket z t) ∧
      ∀ k, k ≠ t → smGet? z.trf.buckets k = smGet? s.trf.buckets k := by
  have hi := objIdx_ent (0x3200 + t) u hu
  have hsub := objSub_ent (0x3200 + t) u hu
  rw [exec_of_writeRow (c := .policerEntryWrite a t u v) ⟨rfl, ht, hu, rfl, rfl⟩,
    rowOp_rwS hd hc (isSlotObj_eq_false (by omega)) hk policer_rows (by omega),
    actWrite_traffic (by omega), actTraffic_policer hi ht]
  refine ⟨_, rfl, ?_, fun k hne => ?_⟩
  · rw [awaitCommit_trf, freshBucket_awaitCommit]
    exact smGet?_smPut_self _ _ _
  · rw [awaitCommit_trf]
    exact smGet?_smPut_ne _ _ _ _ hne

theorem objIdx_qObj (t q u : Nat) (hu : u < 256) : objIdx (qObj t q u) = 0x3800 + 16 * t + q := objIdx_ent _ u hu

theorem objSub_qObj (t q u : Nat) (hu : u < 256) : objSub (qObj t q u) = u := objSub_ent _ u hu

/-- A fresh credit follows from the queue's entries, which neither the refill nor the wait for a commit changes. -/
theorem freshCredit_awaitCommit (obj t q at_ : Nat) (s : State) :
    freshCredit (awaitCommit obj .none (refillShaper t q s)) t q at_ = freshCredit s t q at_ := by
  have hn : ∀ j, dirNum (refillShaper t q s) j = dirNum s j := fun j => dirNum_congr rfl j
  simp only [freshCredit, creditHi, dirNum_awaitCommit, hn]

theorem exec_shaperEntryWrite (hd : dirServed s = true) (hc : s.dir.commits = []) (hk : checkWrite s a (qObj t q u) v = 0)
    (ht : t < 64) (hq : q < 16) (hu : u ∈ [5, 6, 7, 9]) :
    ∃ z, exec (.shaperEntryWrite a t q u v) s = .next z ∧
      ∀ p, p < 8 → smGet? z.trf.credits (creditKey t q p) = some (freshCredit z t q s.clk.now) := by
  simp only [List.mem_cons, List.not_mem_nil, or_false] at hu
  have hlt : u < 256 := by omega
  have hi := objIdx_qObj t q u hlt
  have hsub := objSub_qObj t q u hlt
  rw [exec_of_writeRow (c := .shaperEntryWrite a t q u v) ⟨rfl, ht, hq, hlt, rfl, rfl⟩,
    rowOp_rwS hd hc (isSlotObj_eq_false (by omega)) hk shaper_rows (by omega),
    actWrite_traffic (by omega), actTraffic_queue hi ht hq, hsub, if_neg (by omega), if_pos (by omega)]
  refine ⟨_, rfl, fun p hp => ?_⟩
  rw [awaitCommit_trf, refillShaper_credit t q _ hp, freshCredit_awaitCommit, dirPut_clk]

/-- A commit frame accepted lies at least two frames ahead (R337). -/
theorem commitFrame_ahead (hp : p < 8) (h : ruleBad s (ent (0x3300 + p) 2) v = false) : frameNo s + 2 ≤ valNum v := by
  have hi := objIdx_ent (0x3300 + p) 2 (by omega)
  have hsub := objSub_ent (0x3300 + p) 2 (by omega)
  have h1 : inR (0x3300 + p) 0x3200 0x323F = false := (inR_eq_false_iff _ _ _).2 (by omega)
  have h2 : inR (0x3300 + p) 0x3300 0x3307 = true := (inR_iff _ _ _).2 (by omega)
  simpa [ruleBad, gateBad, hi, hsub, h1, h2] using h

theorem exec_commitFrame (hd : dirServed s = true) (hc : s.dir.commits = [])
    (hk : checkWrite s a (ent (0x3300 + p) 2) v = 0) (hp : p < 8) :
    ∃ z, exec (.commitFrame a p v) s = .next z ∧ smGet? z.trf.commit p = some (valNum v) ∧ frameNo s + 2 ≤ valNum v := by
  have hi := objIdx_ent (0x3300 + p) 2 (by omega)
  have hsub := objSub_ent (0x3300 + p) 2 (by omega)
  have hs : isSlotObj (ent (0x3300 + p) 2) = false := isSlotObj_eq_false (by omega)
  obtain ⟨r, hr, -, -, hrule⟩ := checkWrite_ok hs hk
  obtain ⟨ha, hper⟩ := volatile_iff.1 (catRow_family commitFrame_rows hr (by omega))
  rw [exec_of_writeRow (c := .commitFrame a p v) ⟨rfl, hp, rfl, rfl⟩, rowOp_unstored hd hc hs hk hr (by omega),
    effectPlain_rw hr ha, actWrite_traffic (by omega), actTraffic_commitFrame hi hp hsub]
  exact ⟨_, rfl, smGet?_smPut_self _ _ _, commitFrame_ahead hp hrule⟩

theorem exec_histClear (hd : dirServed s = true) (hc : s.dir.commits = []) (hk : checkWrite s a (qObj t q 0x10) v = 0)
    (ht : t < 64) (hq : q < 16) :
    ∃ z, exec (.histClear a t q v) s = .next z ∧
      ∀ u, u ∈ [0xC, 0xD, 0xE, 0xF] → dirVal z (qObj t q u) = catDefault (qObj t q u) := by
  have hi := objIdx_qObj t q 0x10 (by omega)
  have hsub := objSub_qObj t q 0x10 (by omega)
  have hrow : exec (.histClear a t q v) s = rowOp true a (qObj t q 0x10) (some v) s := by simp [exec, execHistClear, ht, hq]
  rw [hrow, rowOp_writeOnly hd hc (isSlotObj_eq_false (by omega)) hk histClear_rows (by omega),
    actWrite_traffic (by omega), actTraffic_queue hi ht hq, hsub, if_pos rfl]
  exact ⟨_, rfl, fun u hu => dirVal_clearHist t q _ hu⟩

theorem tenantSt_onTenant (t k : Nat) (f : TenantSt → TenantSt) (s : State) :
    tenantSt (onTenant t f s) k = if k = t then f (tenantSt s t) else tenantSt s k := by
  unfold tenantSt onTenant
  rw [smGetD_smPut]
  rfl

/-- What a requested reset does to a tenant (R341). -/
theorem tenantSt_askReset (t f : Nat) (s : State) : tenantSt (askReset t f s) t =
    if (tenantSt s t).resetting then { tenantSt s t with again := true }
    else { tenantSt s t with reqAt := some ((tenantSt s t).reqAt.getD f) } := by
  rw [askReset, tenantSt_onTenant, if_pos rfl]
  split
  · rfl
  · generalize tenantSt s t = x
    obtain ⟨_, reqAt, _, _, _, _, _, _, _, _⟩ := x
    cases reqAt <;> rfl

theorem exec_tenantReset (hd : dirServed s = true) (hc : s.dir.commits = [])
    (hk : checkWrite s a (ent (0x3100 + t) 2) v = 0) (ht : t < 64) :
    ∃ z, exec (.tenantReset a t v) s = .next z ∧ tenantSt z t =
      if (tenantSt s t).resetting then { tenantSt s t with again := true }
      else { tenantSt s t with reqAt := some ((tenantSt s t).reqAt.getD (valNum v)) } := by
  have hi := objIdx_ent (0x3100 + t) 2 (by omega)
  have hsub := objSub_ent (0x3100 + t) 2 (by omega)
  have hrow : exec (.tenantReset a t v) s = rowOp true a (ent (0x3100 + t) 2) (some v) s := by simp [exec, execTenantReset, ht]
  rw [hrow, rowOp_writeOnly hd hc (isSlotObj_eq_false (by omega)) hk tenantReset_rows (by omega),
    actWrite_traffic (by omega), actTraffic_reset hi ht hsub]
  exact ⟨_, rfl, tenantSt_askReset t (valNum v) (noteOp 0 none s)⟩

theorem actWrite_sak {old : Nat} (hp : p < 8) : actWrite a (ent (0xB100 + p) 0xA) old v s = putSak p (valBlob v) s := by
  have h1 : inR (0xB100 + p) 0x3000 0x3FFF = false := (inR_eq_false_iff _ _ _).2 (by omega)
  have h2 : inR (0xB100 + p) 0x6100 0x61FF = false := (inR_eq_false_iff _ _ _).2 (by omega)
  have h3 : inR (0xB100 + p) 0x9100 0x913F = false := (inR_eq_false_iff _ _ _).2 (by omega)
  have h4 : inR (0xB100 + p) 0xB100 0xB107 = true := (inR_iff _ _ _).2 (by omega)
  simp [actWrite, objIdx_ent, objSub_ent, h1, h2, h3, h4]

theorem exec_sak (hd : dirServed s = true) (hc : s.dir.commits = [])
    (hk : checkWrite s a (ent (0xB100 + p) 0xA) v = 0) (hp : p < 8) :
    ∃ z, exec (.sak a p v) s = .next z ∧
      smGet? z.pins.saks ((p * 2 + fieldLE (valBlob v) 1 1) * 2 + fieldLE (valBlob v) 0 1) = some (valBlob v) := by
  have hi := objIdx_ent (0xB100 + p) 0xA (by omega)
  have hsub := objSub_ent (0xB100 + p) 0xA (by omega)
  have hrow : exec (.sak a p v) s = rowOp true a (ent (0xB100 + p) 0xA) (some v) s := by simp [exec, execSak, hp]
  rw [hrow, rowOp_writeOnly hd hc (isSlotObj_eq_false (by omega)) hk sak_rows (by omega),
    actWrite_sak hp]
  exact ⟨_, rfl, smGet?_smPut_self _ _ _⟩

theorem actWrite_restoreDefaults {old : Nat} (hv : valNum v = 1) (s : State) :
    actWrite a (ent 0x1010 0xD) old v s = { s with dir := { s.dir with restore := true } } := by
  simp [actWrite, actSingle, inR, objIdx, ent, hv]

theorem exec_restoreDefaults (hd : dirServed s = true) (hc : s.dir.commits = [])
    (hk : checkWrite s a (ent 0x1010 0xD) v = 0) (hv : valNum v = 1) :
    ∃ z, exec (.restoreDefaults a v) s = .next z ∧ z.dir.restore = true ∧ z.dir.vals = s.dir.vals := by
  have hrow : exec (.restoreDefaults a v) s = rowOp true a (ent 0x1010 0xD) (some v) s := rfl
  rw [hrow, rowOp_writeOnly hd hc (by decide) hk restoreDefaults_row (by decide), actWrite_restoreDefaults hv]
  exact ⟨_, rfl, rfl, rfl⟩

theorem actWrite_replan {old : Nat} (hv : valNum v = 1) (s : State) :
    actWrite a (ent 0xA020 1) old v s = { s with log := { s.log with replan := true } } := by
  simp [actWrite, actSingle, inR, objIdx, ent, hv]

theorem exec_replan (hd : dirServed s = true) (hc : s.dir.commits = []) (hk : checkWrite s a (ent 0xA020 1) v = 0)
    (hv : valNum v = 1) :
    ∃ z, exec (.replan a v) s = .next z ∧ z.log.replan = true ∧ z.dir.vals = s.dir.vals := by
  have hrow : exec (.replan a v) s = rowOp true a (ent 0xA020 1) (some v) s := rfl
  rw [hrow, rowOp_writeOnly hd hc (by decide) hk replan_row (by decide), actWrite_replan hv]
  exact ⟨_, rfl, rfl, rfl⟩

end

/-! ### The boot-flash commit (R399) -/

section
variable {s : State} {obj t : Nat}

/-- The record rewritten for one write that no request waits for, with no operation behind it: the late effect follows. -/
theorem exec_bootFlashCommit (hd : dirServed s = true) (hw : s.dir.waiting = []) (hc : s.dir.commits = [(obj, Answer.none)]) :
    exec .bootFlashCommit s =
      .next (lateAct obj (saveRecord { s with dir := { s.dir with commits := [], waiting := [] } })) := by
  simp [exec, execBootFlashCommit, hd, hc, hw, commitRecord, drainOps, answerOp]

theorem lateAct_plain (h : ¬(0x3100 ≤ obj / 256 ∧ obj / 256 ≤ 0x313F)) (s : State) : lateAct obj s = s := by
  unfold lateAct
  rw [(inR_eq_false_iff (objIdx obj) 0x3100 0x313F).2 h]
  rfl

theorem lateAct_enabled (ht : t < 64) (s : State) :
    lateAct (ent (0x3100 + t) 1) s = writeEnabled t (dirNum s (ent (0x3100 + t) 1)) s := by
  have h : inR (0x3100 + t) 0x3100 0x313F = true := (inR_iff _ _ _).2 (by omega)
  simp [lateAct, objIdx_ent, objSub_ent, h]

/-- ENABLED cleared of an active tenant disables it and asks for its reset; set for an inactive one it enables it (R326). -/
theorem tenantSt_writeEnabled (t n : Nat) (s : State) :
    (n = 0 → (tenantSt s t).active = true → (tenantSt (writeEnabled t n s) t).disable = true ∧
      ((tenantSt s t).resetting = false → (tenantSt (writeEnabled t n s) t).reqAt.isSome = true)) ∧
    (n ≠ 0 → (tenantSt s t).active = false → (tenantSt (writeEnabled t n s) t).enable = true) := by
  constructor
  · rintro rfl ha
    have he : writeEnabled t 0 s = onTenant t (fun x => { x with disable := true, enable := false }) (askReset t 0 s) := by
      simp [writeEnabled, ha]
    rw [he, tenantSt_onTenant, if_pos rfl, tenantSt_askReset]
    exact ⟨rfl, fun hr => by simp [hr]⟩
  · intro hn ha
    simp [writeEnabled, hn, tenantSt_onTenant, ha]

theorem saveRecord_frame (s : State) :
    (saveRecord s).dir.commits = s.dir.commits ∧ (saveRecord s).mem = s.mem ∧ (saveRecord s).trf = s.trf := by
  unfold saveRecord; dsimp only; split <;> exact ⟨rfl, rfl, rfl⟩

theorem exec_bootFlashCommit_plain (hd : dirServed s = true) (hw : s.dir.waiting = []) (hc : s.dir.commits = [(obj, Answer.none)])
    (h : ¬(0x3100 ≤ obj / 256 ∧ obj / 256 ≤ 0x313F)) :
    ∃ z, exec .bootFlashCommit s = .next z ∧ z.dir.commits = [] ∧ newerCopy z = valsOf 2 s.dir.vals ∧
      z.dir.vals = s.dir.vals ∧ z.mem = s.mem := by
  rw [exec_bootFlashCommit hd hw hc, lateAct_plain h]
  obtain ⟨hcom, hmem, -⟩ := saveRecord_frame { s with dir := { s.dir with commits := [], waiting := [] } }
  exact ⟨_, rfl, hcom, newerCopy_saveRecord _, saveRecord_vals _, hmem⟩

theorem writeEnabled_dir (t n : Nat) (s : State) : (writeEnabled t n s).dir = s.dir :=
  Frame.same (frame_writeEnabled (m0 := 512) t n s (by decide) (Frame.refl _)).dir rfl

theorem newerCopy_congr {s u : State} (h : u.dir = s.dir) : newerCopy u = newerCopy s := by unfold newerCopy; rw [h]

theorem exec_bootFlashCommit_enabled (hd : dirServed s = true) (hw : s.dir.waiting = []) (ht : t < 64)
    (hc : s.dir.commits = [(ent (0x3100 + t) 1, Answer.none)]) :
    ∃ z, exec .bootFlashCommit s = .next z ∧ z.dir.commits = [] ∧ newerCopy z = valsOf 2 s.dir.vals ∧
      (dirNum s (ent (0x3100 + t) 1) = 0 → (tenantSt s t).active = true →
        (tenantSt z t).disable = true ∧ ((tenantSt s t).resetting = false → (tenantSt z t).reqAt.isSome = true)) ∧
      (dirNum s (ent (0x3100 + t) 1) ≠ 0 → (tenantSt s t).active = false → (tenantSt z t).enable = true) := by
  rw [exec_bootFlashCommit hd hw hc, lateAct_enabled ht]
  obtain ⟨hcom, -, htrf⟩ := saveRecord_frame { s with dir := { s.dir with commits := [], waiting := [] } }
  have hnew := newerCopy_saveRecord { s with dir := { s.dir with commits := [], waiting := [] } }
  have hvals := saveRecord_vals { s with dir := { s.dir with commits := [], waiting := [] } }
  generalize saveRecord { s with dir := { s.dir with commits := [], waiting := [] } } = u at *
  have hn : dirNum u (ent (0x3100 + t) 1) = dirNum s (ent (0x3100 + t) 1) := by unfold dirNum dirVal; rw [hvals]
  have hten : tenantSt u t = tenantSt s t := by unfold tenantSt; rw [htrf]
  rw [hn, ← hten]
  have hdir := writeEnabled_dir t (dirNum s (ent (0x3100 + t) 1)) u
  exact ⟨_, rfl, by rw [hdir]; exact hcom, (newerCopy_congr hdir).trans hnew, tenantSt_writeEnabled t _ u⟩

end

/-! ### In-band reads and writes (R402) -/

section
variable {s : State} {rid : Nat} {r : Req}

/-- While the controller restarts a directory request ends with ABORTED (R422). -/
theorem exec_dirRead_down (h : req? s rid = some r) (hst : r.st = .admitted) (hty : r.type = 0x0501) (hd : dirServed s = false) :
    ∃ t, exec (.dirRead rid) s = .next t ∧ Receipted s t r (receiptFor r 0x60 0 0 []) :=
  ⟨_, congrArg Host.Outcome.next (hty ▸ takeReq_down h hst hd _), endReq_receipted h 0x60 0 0 []⟩

theorem exec_dirRead_served (h : req? s rid = some r) (hst : r.st = .admitted) (hty : r.type = 0x0501) (hd : dirServed s = true)
    (hc : s.dir.commits = []) :
    exec (.dirRead rid) s = .next (runRead ⟨.req rid, reqActor r, r.obj, none⟩ (executing rid s)) := by
  have hl : opLive (executing rid s) (.req rid) = true := by rw [opLive, req?_executing h]; rfl
  have ht := (takeReq_served h hst hd (fun _ => none)).trans (takeOp_read (s := executing rid s) hc (.req rid) hl)
  rw [hty] at ht
  exact congrArg Host.Outcome.next ht

/-- A read that is refused leaves no more than its status. -/
theorem runRead_refused {a : Actor} {obj : Nat} {k : Nat} {w : DVal} {u : State} (hr : readEntry u a obj = (k, w)) (hk : k ≠ 0) :
    runRead ⟨.req rid, a, obj, none⟩ u =
      endReq rid (receiptOf k).1 0 (receiptOf k).2 [] (noteOp k none (touchSlot a obj u)) := by
  simp [runRead, hr, hk, beq_false_of_ne hk, answerOp_req]

theorem runRead_value {a : Actor} {obj : Nat} {w : DVal} {e : CatRow} {u : State} (hr : readEntry u a obj = (0, w))
    (he : catRow obj = some e) :
    runRead ⟨.req rid, a, obj, none⟩ u =
      endReq rid 0 1 0 (leBytes 8 e.ty ++ valBytes e w) (noteOp 0 (some w) (touchSlot a obj (afterRead a obj u))) := by
  simp [runRead, hr, he, answerOp_req_value, typeOf]

theorem touchSlot_hxt_clk (a : Actor) (obj : Nat) (s : State) :
    (touchSlot a obj s).hxt = s.hxt ∧ (touchSlot a obj s).clk = s.clk := by
  unfold touchSlot; split <;> exact ⟨rfl, rfl⟩

theorem afterRead_hxt_clk (a : Actor) (obj : Nat) (s : State) :
    (afterRead a obj s).hxt = s.hxt ∧ (afterRead a obj s).clk = s.clk :=
  have h := frame_afterRead (m0 := 1052672) a obj s (by decide) (Frame.refl _)
  ⟨Frame.same h.hxt rfl, Frame.same h.clk rfl⟩

/-- Nothing that a receipt reads changes by a note of the operation or a look at a slot. -/
theorem sameDesk_of_vals {u : State} (hx : u.hxt = s.hxt) (hc : u.clk = s.clk) (hv : u.dir.vals = s.dir.vals) : SameDesk s u := by
  have hn : ∀ j, dirNum u j = dirNum s j := fun j => by unfold dirNum dirVal; rw [hv]
  exact ⟨by rw [hx], by rw [hx], hc, hn _, fun p => by unfold portUp; rw [hn]⟩

theorem touchSlot_vals (a : Actor) (obj : Nat) (s : State) : (touchSlot a obj s).dir.vals = s.dir.vals := by
  unfold touchSlot; split <;> rfl

theorem req?_congr {u : State} (hx : u.hxt = s.hxt) (i : Nat) : req? u i = req? s i := by unfold req?; rw [hx]

theorem exec_dirRead_refused (h : req? s rid = some r) (hst : r.st = .admitted) (hty : r.type = 0x0501) (hd : dirServed s = true)
    (hc : s.dir.commits = []) {k : Nat} {w : DVal} (hr : readEntry (executing rid s) (reqActor r) r.obj = (k, w)) (hk : k ≠ 0) :
    ∃ t, exec (.dirRead rid) s = .next t ∧ Receipted s t r (receiptFor r (receiptOf k).1 0 (receiptOf k).2 []) := by
  obtain ⟨hx, hclk⟩ := touchSlot_hxt_clk (reqActor r) r.obj (executing rid s)
  refine ⟨_, (exec_dirRead_served h hst hty hd hc).trans (congrArg _ (runRead_refused hr hk)), ?_⟩
  have hq : req? (noteOp k none (touchSlot (reqActor r) r.obj (executing rid s))) rid = some { r with st := .executing } :=
    (req?_congr hx rid).trans (req?_executing h)
  refine endReq_executing_receipted hst hq ?_ _ _ _ _
  exact (executing_sameDesk rid s).trans (sameDesk_of_vals hx hclk (touchSlot_vals _ _ _))

theorem exec_dirRead_value (h : req? s rid = some r) (hst : r.st = .admitted) (hty : r.type = 0x0501) (hd : dirServed s = true)
    (hc : s.dir.commits = []) {w : DVal} {e : CatRow} (hr : readEntry (executing rid s) (reqActor r) r.obj = (0, w))
    (he : catRow r.obj = some e) :
    ∃ t, exec (.dirRead rid) s = .next t ∧ Receipted s t r (receiptFor r 0 1 0 (leBytes 8 e.ty ++ valBytes e w)) := by
  obtain ⟨hx, hclk⟩ := touchSlot_hxt_clk (reqActor r) r.obj (afterRead (reqActor r) r.obj (executing rid s))
  obtain ⟨hxa, hclka⟩ := afterRead_hxt_clk (reqActor r) r.obj (executing rid s)
  refine ⟨_, (exec_dirRead_served h hst hty hd hc).trans (congrArg _ (runRead_value hr he)), ?_⟩
  have hq : req? (noteOp 0 (some w) (touchSlot (reqActor r) r.obj (afterRead (reqActor r) r.obj (executing rid s)))) rid =
    some { r with st := .executing } := (req?_congr (hx.trans hxa) rid).trans (req?_executing h)
  refine endReq_executing_receipted hst hq ?_ _ _ _ _
  exact (executing_sameDesk rid s).trans
    (sameDesk_of_vals (hx.trans hxa) (hclk.trans hclka) ((touchSlot_vals _ _ _).trans afterRead_dir_vals))

theorem exec_dirWrite_served (h : req? s rid = some r) (hst : r.st = .admitted) (hty : r.type = 0x0502) (hd : dirServed s = true)
    (hc : s.dir.commits = []) :
    exec (.dirWrite rid) s = .next (runWrite ⟨.req rid, reqActor r, r.obj, some (valueFrom r.obj r.body)⟩
      (valueFrom r.obj r.body) (executing rid s)) := by
  have hl : opLive (executing rid s) (.req rid) = true := by rw [opLive, req?_executing h]; rfl
  have ht := (takeReq_served h hst hd (fun r => some (valueFrom r.obj r.body))).trans
    (takeOp_write (s := executing rid s) hc (.req rid) hl)
  rw [hty] at ht
  exact congrArg Host.Outcome.next ht

theorem effectRefused_hxt_clk (obj : Nat) (v : DVal) (s : State) :
    (effectRefused obj v s).hxt = s.hxt ∧ (effectRefused obj v s).clk = s.clk :=
  have h := frame_effectRefused (m0 := 36864) obj v s (by decide) (Frame.refl _)
  ⟨Frame.same h.hxt rfl, Frame.same h.clk rfl⟩

/-- A refused write leaves what a receipt reads, its requests and its own entry as they were. -/
theorem refused_sameDesk (obj k : Nat) (v : DVal) (u : State) :
    let z := noteOp k none (if k = 5 then effectRefused obj v u else u)
    z.hxt = u.hxt ∧ SameDesk u z ∧ dirVal z obj = dirVal u obj := by
  dsimp only
  split
  · obtain ⟨hx, hclk⟩ := effectRefused_hxt_clk obj v u
    have hdesk := SameDesk.of_keeps hx hclk (effectRefused_keeps obj v u) (by decide) (fun p => by unfold ent; omega)
    exact ⟨hx, hdesk.trans (sameDesk_of_vals rfl rfl rfl), dirVal_effectRefused_self obj v u⟩
  · exact ⟨rfl, sameDesk_of_vals rfl rfl rfl, rfl⟩

theorem exec_dirWrite_refused (h : req? s rid = some r) (hst : r.st = .admitted) (hty : r.type = 0x0502) (hd : dirServed s = true)
    (hc : s.dir.commits = []) (hs : isSlotObj r.obj = false)
    (hk : checkWrite (executing rid s) (reqActor r) r.obj (valueFrom r.obj r.body) ≠ 0) :
    ∃ t k, exec (.dirWrite rid) s = .next t ∧
      k = receiptOf (checkWrite (executing rid s) (reqActor r) r.obj (valueFrom r.obj r.body)) ∧
      Receipted s t r (receiptFor r k.1 0 k.2 []) ∧
      (r.obj / 256 ≠ 0xB010 → r.obj / 256 ≠ 0xC090 → dirVal t r.obj = dirVal s r.obj) := by
  obtain ⟨hx, hdesk, hval⟩ := refused_sameDesk r.obj (checkWrite (executing rid s) (reqActor r) r.obj (valueFrom r.obj r.body))
    (valueFrom r.obj r.body) (executing rid s)
  rw [exec_dirWrite_served h hst hty hd hc, runWrite_refused hs hk, answerOp_req _ _ _ _ _ _ (by simp)]
  have hq := (req?_congr hx rid).trans (req?_executing h)
  refine ⟨_, _, rfl, rfl, endReq_executing_receipted hst hq ((executing_sameDesk rid s).trans hdesk) _ _ _ _, fun hB hC => ?_⟩
  obtain ⟨h30, h32⟩ := receiptOf_status (checkWrite (executing rid s) (reqActor r) r.obj (valueFrom r.obj r.body))
  have hclass : hasClass r.type = false := by rw [hty]; decide
  refine ((endReq_keeps hq _ _ _ _).vals r.obj fun hcount => ?_).trans hval
  rcases hcount.index hclass h30 h32 with h' | h'
  · exact hB h'
  · exact hC h'

theorem exec_dirWrite_rw (h : req? s rid = some r) (hst : r.st = .admitted) (hty : r.type = 0x0502) (hd : dirServed s = true)
    (hc : s.dir.commits = []) (hs : isSlotObj r.obj = false)
    (hk : checkWrite (executing rid s) (reqActor r) r.obj (valueFrom r.obj r.body) = 0) {e : CatRow} (he : catRow r.obj = some e)
    (ha : e.acc = 1) (hp : e.per ≠ 2) :
    ∃ t, exec (.dirWrite rid) s = .next t ∧ Receipted s t r (receiptFor r 0 0 0 []) ∧
      dirVal t r.obj = valueFrom r.obj r.body := by
  rw [exec_dirWrite_served h hst hty hd hc, runWrite_unstored hs hk he hp, answerOp_req _ _ _ _ _ _ (by simp)]
  have hq : req? (noteOp 0 none (executing rid s)) rid = some { r with st := .executing } := req?_executing h
  have hrec := endReq_executing_receipted hst hq ((executing_sameDesk rid s).trans (sameDesk_of_vals rfl rfl rfl)) 0 0 0 []
  obtain ⟨-, hout, hreq, -, -⟩ := effectPlain_rw_keeps (a := reqActor r) (v := valueFrom r.obj r.body)
    (s := endReq rid 0 0 0 [] (noteOp 0 none (executing rid s))) he ha
  exact ⟨_, rfl, hrec.after hout hreq, dirVal_effectPlain_rw he ha⟩

end

/-- Settles O47: every write goes the way of `runWrite`, refused, stored or not; the rest is what its effect does. -/
theorem directoryReadsAndWrites : Obligations.DirectoryReadsAndWrites := by
  intro s
  refine ⟨?_, ?_, ?_, ?_, ?_⟩
  · intro c a obj v h hd
    refine ⟨fun hc => (exec_of_writeRow h s).trans (rowOp_waits hd hc), fun hc hs => ⟨exec_write_refused h hd hc hs, ?_⟩⟩
    exact fun r hr hk => ⟨exec_write_rw h hd hc hs hr hk, exec_write_rwc h hd hc hs hr hk⟩
  · intro hd hc
    exact ⟨fun a tn u v => exec_policerEntryWrite hd hc, fun a tn q u v => exec_shaperEntryWrite hd hc,
      fun a p v => exec_commitFrame hd hc, fun a tn q v => exec_histClear hd hc, fun a tn v => exec_tenantReset hd hc,
      fun a p v => exec_sak hd hc, fun a v => exec_restoreDefaults hd hc, fun a v => exec_replan hd hc⟩
  · intro hd hw
    exact ⟨fun obj hc => exec_bootFlashCommit_plain hd hw hc, fun tn ht => exec_bootFlashCommit_enabled hd hw ht⟩
  · intro hc
    simp [exec, execBootFlashCommit, hc]
  · intro rid r h hst
    refine ⟨fun hd hty => exec_dirRead_down h hst hty hd, ?_, ?_⟩
    · intro hd hc hty k w hr
      refine ⟨exec_dirRead_refused h hst hty hd hc hr, fun e hk he => ?_⟩
      subst hk
      exact exec_dirRead_value h hst hty hd hc hr he
    · intro hd hc hty hs
      exact ⟨exec_dirWrite_refused h hst hty hd hc hs, fun e hk he ha hp => exec_dirWrite_rw h hst hty hd hc hs hk he ha hp⟩

end Sys2Proof.Machine
end

section
/-! PROOFS. ThreadWrites: instructions that write registers and CSRs of their own thread and nothing else (R29, R30), and the
sticky registers (R76, R93). -/
namespace Sys2Proof.Machine

/-! ### A thread's registers after a write of another kind -/

@[simp] theorem rx_setV (r k : Nat) (v : V512) (t : Thread) : rx (setV r v t) k = rx t k := rfl
@[simp] theorem rf_setV (r k : Nat) (v : V512) (t : Thread) : rf (setV r v t) k = rf t k := rfl
@[simp] theorem rcsr_setV (r k : Nat) (v : V512) (t : Thread) : rcsr (setV r v t) k = rcsr t k := rfl
@[simp] theorem rf_setCsr (a v k : Nat) (t : Thread) : rf (setCsr a v t) k = rf t k := rfl
@[simp] theorem rv_setCsr (a v k : Nat) (t : Thread) : rv (setCsr a v t) k = rv t k := rfl
@[simp] theorem rf_setX (r k : Nat) (v : W64) (t : Thread) : rf (setX r v t) k = rf t k := by simp [rf]
@[simp] theorem rv_setX (r k : Nat) (v : W64) (t : Thread) : rv (setX r v t) k = rv t k := by simp [rv]
@[simp] theorem rcsr_setX (r k : Nat) (v : W64) (t : Thread) : rcsr (setX r v t) k = rcsr t k := by simp [rcsr]

theorem rcsr_lt (t : Thread) (a : Nat) : rcsr t a < 2 ^ 64 := (smGetD t.csr a 0).isLt

/-- Bits set in a CSR are all kept when they lie within its 64 bits. -/
theorem rcsr_setCsr_or (t : Thread) (a b : Nat) {m : Nat} (hm : m < 2 ^ 64) :
    rcsr (setCsr a (rcsr t a ||| m) t) b = if b = a then rcsr t a ||| m else rcsr t b := by
  rw [rcsr_setCsr, Nat.mod_eq_of_lt (Nat.or_lt_two_pow (rcsr_lt t a) hm)]

theorem rcsr_dirtyVS (t : Thread) (b : Nat) : rcsr (dirtyVS t) b = if b = 0x300 then rcsr t 0x300 ||| 0x600 else rcsr t b :=
  rcsr_setCsr_or t 0x300 b (by decide)

theorem rcsr_dirtyFS (t : Thread) (b : Nat) : rcsr (dirtyFS t) b = if b = 0x300 then rcsr t 0x300 ||| 0x6000 else rcsr t b :=
  rcsr_setCsr_or t 0x300 b (by decide)

@[simp] theorem rv_dirtyVS (t : Thread) (k : Nat) : rv (dirtyVS t) k = rv t k := rfl
@[simp] theorem rv_dirtyFS (t : Thread) (k : Nat) : rv (dirtyFS t) k = rv t k := rfl

/-! ### Contexts that differ in listed registers only -/

/-- `u` is the context `t` but for the listed integer, floating and vector registers and CSRs. -/
structure Rewrites (xs fs vs cs : List Nat) (t u : Thread) : Prop where
  ints : ∀ r, r ∉ xs → rx u r = rx t r
  floats : ∀ r, r ∉ fs → rf u r = rf t r
  vectors : ∀ r, r % 32 ∉ vs → rv u r = rv t r
  csrs : ∀ a, a ∉ cs → rcsr u a = rcsr t a
  rest : u = { t with x := u.x, f := u.f, v := u.v, csr := u.csr }

section
variable {xs fs vs cs : List Nat} {t u : Thread}

theorem Rewrites.refl : Rewrites xs fs vs cs t t := ⟨fun _ _ => rfl, fun _ _ => rfl, fun _ _ => rfl, fun _ _ => rfl, rfl⟩

theorem Rewrites.setX (h : Rewrites xs fs vs cs t u) {r : Nat} (hr : r ∈ xs) (v : W64) :
    Rewrites xs fs vs cs t (setX r v u) where
  ints k hk := by
    rw [rx_setX, if_neg (not_and_of_not_left _ (ne_of_mem_of_not_mem hr hk).symm), h.ints k hk]
  floats k hk := by rw [rf_setX, h.floats k hk]
  vectors k hk := by rw [rv_setX, h.vectors k hk]
  csrs k hk := by rw [rcsr_setX, h.csrs k hk]
  rest := by
    have hu := h.rest
    unfold Machine.setX
    split
    · exact hu
    · rw [hu]

theorem Rewrites.setV (h : Rewrites xs fs vs cs t u) {r : Nat} (hr : r % 32 ∈ vs) (v : V512) :
    Rewrites xs fs vs cs t (setV r v u) where
  ints := h.ints
  floats := h.floats
  vectors k hk := by rw [rv_setV, if_neg (ne_of_mem_of_not_mem hr hk).symm, h.vectors k hk]
  csrs := h.csrs
  rest := by
    have hu := h.rest
    unfold Machine.setV
    rw [hu]

theorem Rewrites.setCsr (h : Rewrites xs fs vs cs t u) {a : Nat} (ha : a ∈ cs) (v : Nat) :
    Rewrites xs fs vs cs t (setCsr a v u) where
  ints := h.ints
  floats := h.floats
  vectors := h.vectors
  csrs k hk := by rw [rcsr_setCsr, if_neg (ne_of_mem_of_not_mem ha hk).symm, h.csrs k hk]
  rest := by
    have hu := h.rest
    unfold Machine.setCsr
    rw [hu]

theorem Rewrites.dirtyVS (h : Rewrites xs fs vs cs t u) (hm : 0x300 ∈ cs) : Rewrites xs fs vs cs t (dirtyVS u) := h.setCsr hm _

theorem Rewrites.dirtyFS (h : Rewrites xs fs vs cs t u) (hm : 0x300 ∈ cs) : Rewrites xs fs vs cs t (dirtyFS u) := h.setCsr hm _

end

/-! ### An instruction that changes its own thread's context -/

theorem others_onThread_issued (th : Nat) (f : Thread → Thread) (s : State) : Others th s (onThread th f (issued th s)) := by
  intro k hk
  rw [thread_onThread, if_neg hk, thread_issued]

theorem threadsOnly_onThread_issued (th : Nat) (f : Thread → Thread) (s : State) :
    ThreadsOnly s (onThread th f (issued th s)) := by
  unfold ThreadsOnly onThread issued charge
  dsimp only
  split <;> rfl

/-- An instruction that rewrites listed registers of its thread and moves on by 4 goes on, and changes nothing else. -/
theorem next_of_rewrites {th : Nat} {xs fs vs cs : List Nat} {s : State} {f : Thread → Thread} {u : Thread} {o : Out}
    (ho : o = .next (onThread th f (issued th s))) (hf : f (thread s th) = advance 4 u)
    (hu : Rewrites xs fs vs cs (thread s th) u) :
    ∃ t, o = .next t ∧ Moves th xs fs vs cs s t ∧ Others th s t ∧ ThreadsOnly s t ∧ thread t th = advance 4 u := by
  have ht : thread (onThread th f (issued th s)) th = advance 4 u := by rw [thread_onThread_self, thread_issued, hf]
  refine ⟨_, ho, ⟨?_, ?_, ?_, ?_, ?_, ?_⟩, others_onThread_issued th f s, threadsOnly_onThread_issued th f s, ht⟩
  · rw [ht, advance_pc, hu.rest]
  all_goals rw [ht]
  · exact hu.ints
  · exact hu.floats
  · exact hu.vectors
  · exact hu.csrs
  · rw [advance, hu.rest]

/-! ### Sticky registers -/

/-- A write of ones clears exactly those bits (R12). -/
theorem testBit_clearOnes (old wr i : Nat) : (clearOnes old wr).testBit i = (old.testBit i && !wr.testBit i) := by
  have hle : old &&& wr ≤ old := Nat.and_le_left
  have hodd : (old &&& wr) % 2 = 1 ↔ old % 2 = 1 ∧ wr % 2 = 1 := Nat.and_mod_two_eq_one
  unfold clearOnes
  induction i generalizing old wr with
  | zero =>
    rw [Nat.testBit_zero, Nat.testBit_zero, Nat.testBit_zero, ← decide_not, ← Bool.decide_and, decide_eq_decide]
    omega
  | succ i ih =>
    have hhalf : (old - (old &&& wr)) / 2 = old / 2 - (old / 2 &&& wr / 2) := by
      rw [← Nat.and_div_two]; omega
    simp only [Nat.testBit_succ, hhalf]
    exact ih (old / 2) (wr / 2) Nat.and_le_left Nat.and_mod_two_eq_one

theorem clearOnes_lt {old n : Nat} (h : old < n) (wr : Nat) : clearOnes old wr < n := Nat.lt_of_le_of_lt (Nat.sub_le _ _) h

/-- A sticky CSR of a thread after a write of ones to it. -/
theorem testBit_rcsr_cleared (t : Thread) (c wr i : Nat) :
    (rcsr (setCsr c (clearOnes (rcsr t c) wr) t) c).testBit i = ((rcsr t c).testBit i && !wr.testBit i) := by
  rw [rcsr_setCsr, if_pos rfl, Nat.mod_eq_of_lt (clearOnes_lt (rcsr_lt t c) wr), testBit_clearOnes]

/-- The two sticky registers exist, are written in every mode and have no operation of their own. -/
theorem csrAllowed_sticky (t : Thread) {c : Nat} (hc : c = 0x8C4 ∨ c = 0x8C6) : csrAllowed t c true = true := by
  rcases hc with rfl | rfl <;> simp [csrAllowed, csrKnown, bits]

theorem csrPut_sticky (t : Thread) (v : Nat) {c : Nat} (hc : c = 0x8C4 ∨ c = 0x8C6) :
    csrPut c v t = setCsr c (clearOnes (rcsr t c) v) t := by
  rcases hc with rfl | rfl <;> rfl

theorem clearSticky_of_issues {s : State} {th rd rs1 : Nat} (hi : Issues s th [rd, rs1] [] []) (c : Nat) :
    clearSticky th rd rs1 c s = onThread th (fun u => advance 4 (setX rd (BitVec.ofNat 64 (rcsr (thread s th) c))
      (setCsr c (clearOnes (rcsr (thread s th) c) (rx (thread s th) rs1).toNat) u))) (issued th s) := by
  obtain ⟨hcan, hfree⟩ := hi
  unfold clearSticky
  rw [onRegs_of hcan hfree]
  simp only [thread_issued]

theorem exec_stickyWrite {s : State} {th rd rs1 c : Nat} {cmd : Instr}
    (hc : (c = 0x8C4 ∧ cmd = .escstatWrite th rd rs1) ∨ (c = 0x8C6 ∧ cmd = .eslstatWrite th rd rs1)) :
    exec cmd s = .next (clearSticky th rd rs1 c s) := by
  rcases hc with ⟨rfl, rfl⟩ | ⟨rfl, rfl⟩ <;> rfl

theorem exec_registerWrite_sticky {s : State} {th c : Nat} (hcan : canIssue s th = true) (hc : c = 0x8C4 ∨ c = 0x8C6) (v : W64) :
    exec (.registerWrite (.csr th c v)) s =
      .next (onThread th (fun t => advance 4 (setCsr c (clearOnes (rcsr t c) v.toNat) t)) (issued th s)) := by
  have hact : csrAct c = false := by rcases hc with rfl | rfl <;> rfl
  change execRegisterWrite (.csr th c v) s = _
  unfold execRegisterWrite
  dsimp only
  rw [onIssue_of hcan, csrAllowed_sticky _ hc, hact]
  simp only [csrPut_sticky _ _ hc, Bool.not_true, Bool.false_eq_true, if_false]

/-- Settles O14: both ways of writing give the register the same cleared value, and the frame is that of an instruction that
rewrites registers of its own thread. -/
theorem stickyRegistersClearOnes : Obligations.StickyRegistersClearOnes := by
  intro s th
  refine ⟨fun rd rs1 hi c cmd hc => ?_, fun hcan c v hc => ?_⟩
  · obtain ⟨t, hnext, hmoves, hothers, honly, hctx⟩ :=
      next_of_rewrites ((exec_stickyWrite hc).trans (congrArg _ (clearSticky_of_issues hi c))) rfl
        ((Rewrites.refl.setCsr (List.mem_singleton_self c) _).setX (List.mem_singleton_self rd) _)
    refine ⟨t, hnext, hmoves, hothers, honly, ?_, fun i => ?_⟩
    · rw [hctx, rx_advance, rx_setX]
      by_cases h0 : rd = 0
      · simp [h0, rx]
      · simp [h0]
    · rw [hctx, rcsr_advance, rcsr_setX, testBit_rcsr_cleared]
  · obtain ⟨t, hnext, hmoves, hothers, honly, hctx⟩ :=
      next_of_rewrites (exec_registerWrite_sticky hcan hc v) rfl (Rewrites.refl.setCsr (List.mem_singleton_self c) _)
    refine ⟨t, hnext, hmoves, hothers, honly, fun i => ?_⟩
    rw [hctx, rcsr_advance, testBit_rcsr_cleared]

end Sys2Proof.Machine
end

section
/-! PROOFS. Lanes: the fields of a number bit by bit, and the lanes of a vector register read after a write (R8, R67). -/
namespace Sys2Proof.Machine

/-! ### Fields -/

theorem testBit_bits {x hi lo n : Nat} (h : hi + 1 = lo + n) (j : Nat) :
    (bits x hi lo).testBit j = (decide (j < n) && x.testBit (lo + j)) := by
  rw [bits, Nat.testBit_mod_two_pow, Nat.testBit_shiftRight, show hi + 1 - lo = n by omega]

theorem bits_lt {x hi lo n : Nat} (h : hi + 1 = lo + n) : bits x hi lo < 2 ^ n := by
  rw [bits, show hi + 1 - lo = n by omega]
  exact Nat.mod_lt _ (Nat.two_pow_pos n)

theorem wRd_lt (w : W32) : wRd w < 32 := bits_lt (n := 5) rfl

theorem wrap_lt (n : Nat) (i : Int) : wrap n i < 2 ^ n := by
  have hp : (0 : Int) < ((2 ^ n : Nat) : Int) := Int.natCast_pos.2 (Nat.two_pow_pos n)
  have hlt := Int.emod_lt_of_pos i hp
  have hge := Int.emod_nonneg i (Int.ne_of_gt hp)
  unfold wrap
  omega

theorem mem_upFrom {a n i : Nat} : i ∈ upFrom a n ↔ a ≤ i ∧ i < a + n := by
  induction n generalizing a with
  | zero => simp [upFrom]
  | succ n ih =>
    rw [upFrom, List.mem_cons, ih]
    omega

theorem getD_map_upFrom {α : Type} (f : Nat → α) (d : α) {n i : Nat} (a : Nat) (h : i < n) :
    ((upFrom a n).map f).getD i d = f (a + i) := by
  induction n generalizing a i with
  | zero => exact absurd h (Nat.not_lt_zero i)
  | succ n ih =>
    cases i with
    | zero => rfl
    | succ i =>
      rw [upFrom, List.map_cons, List.getD_cons_succ, ih (a + 1) (Nat.lt_of_succ_lt_succ h), Nat.add_right_comm, Nat.add_assoc]

/-! ### Lanes of a register -/

section
variable {n : Nat}

theorem testBit_lane (hn : 0 < n) (v : V512) (i j : Nat) :
    (lane n v i).testBit j = (decide (j < n) && v.toNat.testBit (n * i + j)) :=
  testBit_bits (by omega) j

/-- A lane within a lane: lane `j` of `n` bits in lane `i` of `n * m` bits. -/
theorem bits_lane {m N hi : Nat} (hn : 0 < n) (hN : N = n * m) (v : V512) (i : Nat) {j : Nat} (hj : j < m)
    (hhi : hi + 1 = n * j + n) :
    bits (lane N v i) hi (n * j) = lane n v (m * i + j) := by
  have hle : n * j + n ≤ N := by
    rw [hN, ← Nat.mul_succ]
    exact Nat.mul_le_mul_left n hj
  refine Nat.eq_of_testBit_eq fun k => ?_
  rw [testBit_bits hhi, testBit_lane hn, testBit_lane (by omega)]
  have hpos : N * i + (n * j + k) = n * (m * i + j) + k := by
    rw [hN, Nat.mul_add, Nat.mul_assoc, Nat.add_assoc]
  rw [hpos]
  by_cases hk : k < n
  · simp only [hk, show n * j + k < N by omega, decide_true, Bool.true_and]
  · simp only [hk, decide_false, Bool.false_and]

/-- The number whose fields of `n` bits are those of a list, the first one lowest. -/
def packLanes (n : Nat) (l : List Nat) : Nat := l.foldr (fun x acc => x % 2 ^ n + acc * 2 ^ n) 0

theorem ofLanes_eq (n : Nat) (l : List Nat) : ofLanes n l = BitVec.ofNat 512 (packLanes n l) := rfl

theorem testBit_packLanes (l : List Nat) (i : Nat) {j : Nat} (hj : j < n) :
    (packLanes n l).testBit (n * i + j) = (l.getD i 0).testBit j := by
  induction l generalizing i with
  | nil => simp [packLanes]
  | cons x t ih =>
    have hcons : packLanes n (x :: t) = 2 ^ n * packLanes n t + x % 2 ^ n := by
      rw [packLanes, List.foldr_cons, Nat.mul_comm, Nat.add_comm]; rfl
    rw [hcons, Nat.testBit_two_pow_mul_add _ (Nat.mod_lt _ (Nat.two_pow_pos n))]
    cases i with
    | zero => simp [hj]
    | succ i =>
      rw [if_neg (by rw [Nat.mul_succ]; omega), show n * (i + 1) + j - n = n * i + j by rw [Nat.mul_succ]; omega, ih,
        List.getD_cons_succ]

/-- A lane of a register built from lanes. -/
theorem lane_ofLanes (l : List Nat) {i : Nat} (hn : 0 < n) (hi : n * i + n ≤ 512) :
    lane n (ofLanes n l) i = l.getD i 0 % 2 ^ n := by
  refine Nat.eq_of_testBit_eq fun j => ?_
  rw [testBit_lane hn, Nat.testBit_mod_two_pow, ofLanes_eq, BitVec.testBit_toNat, BitVec.getLsbD_ofNat]
  by_cases hj : j < n
  · rw [testBit_packLanes l i hj]
    simp [show n * i + j < 512 by omega]
  · simp [hj]

theorem testBit_vSetBits (v : V512) {lo m b : Nat} (x : Nat) (h0 : 0 < m) (hb : b < 512) :
    (vSetBits v lo m x).toNat.testBit b = if lo ≤ b ∧ b < lo + m then x.testBit (b - lo) else v.toNat.testBit b := by
  have hmid : bits v.toNat (lo + m - 1) lo = v.toNat / 2 ^ lo % 2 ^ m := by
    rw [bits, Nat.shiftRight_eq_div_pow, show lo + m - 1 + 1 - lo = m by omega]
  have hold : v.toNat = 2 ^ lo * (2 ^ m * (v.toNat / 2 ^ lo / 2 ^ m) + v.toNat / 2 ^ lo % 2 ^ m) + v.toNat % 2 ^ lo := by
    rw [Nat.div_add_mod, Nat.div_add_mod]
  have hnew : v.toNat - bits v.toNat (lo + m - 1) lo <<< lo + (x % 2 ^ m) <<< lo =
      2 ^ lo * (2 ^ m * (v.toNat / 2 ^ lo / 2 ^ m) + x % 2 ^ m) + v.toNat % 2 ^ lo := by
    rw [hmid, Nat.shiftLeft_eq, Nat.shiftLeft_eq, Nat.mul_comm _ (2 ^ lo), Nat.mul_comm _ (2 ^ lo), Nat.mul_add]
    rw [Nat.mul_add] at hold
    omega
  rw [vSetBits, BitVec.testBit_toNat, BitVec.getLsbD_ofNat, hnew,
    Nat.testBit_two_pow_mul_add _ (Nat.mod_lt _ (Nat.two_pow_pos lo)),
    Nat.testBit_two_pow_mul_add _ (Nat.mod_lt _ (Nat.two_pow_pos m))]
  simp only [hb, decide_true, Bool.true_and, Nat.testBit_mod_two_pow, Nat.testBit_div_two_pow]
  by_cases h1 : b < lo
  · simp [h1, Nat.not_le.2 h1]
  · by_cases h2 : b - lo < m
    · simp [h1, h2, Nat.not_lt.1 h1, show b < lo + m by omega]
    · simp [h1, h2, show ¬b < lo + m by omega, show b - lo - m + m + lo = b by omega]

/-- A lane of a register after `c` lanes from lane `a` were replaced. -/
theorem lane_vSetBits_packLanes (v : V512) (l : List Nat) {a c e : Nat} (hn : 0 < n) (hc : 0 < c)
    (he : n * e + n ≤ 512) :
    lane n (vSetBits v (n * a) (n * c) (packLanes n l)) e =
      if a ≤ e ∧ e < a + c then l.getD (e - a) 0 % 2 ^ n else lane n v e := by
  refine Nat.eq_of_testBit_eq fun j => ?_
  rw [testBit_lane hn]
  by_cases hj : j < n
  · have hlane : ∀ k, n * k ≤ n * e + j ↔ k ≤ e := fun k => by
      rw [Nat.mul_comm n k, ← Nat.le_div_iff_mul_le hn, Nat.mul_add_div hn, Nat.div_eq_of_lt hj, Nat.add_zero]
    have hhi : n * e + j < n * a + n * c ↔ e < a + c := by
      rw [← Nat.mul_add, ← Nat.not_le, hlane, Nat.not_le]
    rw [testBit_vSetBits v _ (Nat.mul_pos hn hc) (by omega)]
    simp only [hlane, hhi]
    split
    · next h =>
      have hpos : n * e + j - n * a = n * (e - a) + j := by
        rw [Nat.mul_sub, Nat.sub_add_comm (Nat.mul_le_mul_left n h.1)]
      rw [hpos, testBit_packLanes l _ hj,
        Nat.testBit_mod_two_pow]
    · rw [testBit_lane hn]
  · split <;> simp [testBit_lane hn, hj]
end

end Sys2Proof.Machine
end

section
/-! PROOFS. Scoring: EDOT, EDOTF and ERESCALE on a legal encoding (R67 to R74, R76, R77). -/
namespace Sys2Proof.Machine

/-! ### The thread after each of the three -/

section
variable {s : State} {th : Nat} {w : W32}

/-- A legal scoring instruction acts on its thread alone. -/
theorem onRegs_legal {vs : List Nat} {legal : Thread → Bool} {f : Thread → Thread} (hi : Issues s th [] [] vs)
    (hl : legal (thread s th) = true) :
    onRegs th [] [] vs (fun s => if legal (thread s th) then onThread th f s else illegal th w s) s =
      onThread th f (issued th s) := by
  obtain ⟨hcan, hfree⟩ := hi
  rw [onRegs_of hcan hfree, thread_issued, if_pos hl]

theorem exec_edot_legal (hi : Issues s th [] [] (regs4 (wRs1 w) ++ [wRs2 w, wRd w])) (hl : edotLegal w = true)
    (hr : scoreReady (thread s th) w = true) : exec (.edot th w) s = .next (onThread th (edotThread w) (issued th s)) :=
  congrArg Host.Outcome.next
    (onRegs_legal (legal := fun t => edotLegal w && scoreReady t w) hi (by rw [hl, hr, Bool.and_self]))

theorem exec_edotf_legal (hi : Issues s th [] [] (regs4 (wRs1 w) ++ [wRs2 w, wRd w]))
    (hl : edotfLegal (thread s th) w = true) (hr : scoreReady (thread s th) w = true) :
    exec (.edotf th w) s = .next (onThread th (edotfThread w) (issued th s)) :=
  congrArg Host.Outcome.next
    (onRegs_legal (legal := fun t => edotfLegal t w && scoreReady t w) hi (by rw [hl, hr, Bool.and_self]))

theorem exec_erescale_legal (hi : Issues s th [] [] [wRs1 w, wRs2 w, wRs2 w + 1, wRd w]) (hl : erescaleLegal w = true)
    (hr : scoreReady (thread s th) w = true) :
    exec (.erescale th w) s = .next (onThread th (erescaleThread w) (issued th s)) :=
  congrArg Host.Outcome.next
    (onRegs_legal (legal := fun t => erescaleLegal w && scoreReady t w) hi (by rw [hl, hr, Bool.and_self]))

end

theorem wRd_mem (w : W32) : wRd w % 32 ∈ [wRd w] := by
  rw [Nat.mod_eq_of_lt (wRd_lt w)]
  exact List.mem_singleton_self _

/-! ### EDOT -/

theorem edotSum_eq (fmt row q : Nat) : edotSum fmt row q =
    ((upFrom 0 (if fmt = 0 then 16 else 32)).map (fun j =>
      (if fmt = 0 then sgn 8 (bits row (8 * j + 7) (8 * j)) else sgn 4 (bits row (4 * j + 3) (4 * j))) *
        sgn 8 (bits q (8 * j + 7) (8 * j)))).sum := by
  rw [edotSum, List.sum_eq_foldl, List.foldl_map]

/-- The int8 form: 16 products (R69). -/
theorem edotSum_int8 (reg : Nat → V512) (r i k : Nat) (q : V512) :
    edotSum 0 (rowOf reg r i) (edotQuery 0 k q) = ((upFrom 0 16).map (fun j =>
      sgn 8 (vbyte (reg (r + i / 4)) (16 * (i % 4) + j)) * sgn 8 (vbyte q (16 * k + j)))).sum := by
  rw [edotSum_eq]
  refine congrArg _ (List.map_congr_left fun j hj => ?_)
  have hj : j < 16 := by simpa using (mem_upFrom.1 hj).2
  have hbyte : ∀ (v : V512) i, bits (lane 128 v i) (8 * j + 7) (8 * j) = vbyte v (16 * i + j) := fun v i =>
    bits_lane (n := 8) (by decide) rfl v i hj rfl
  simp only [if_true, rowOf, edotQuery, hbyte]

/-- The int4 form: 32 products, two elements of the row a byte (R69). -/
theorem edotSum_int4 {fmt : Nat} (hf : fmt ≠ 0) (reg : Nat → V512) (r i k : Nat) (q : V512) :
    edotSum fmt (rowOf reg r i) (edotQuery fmt k q) = ((upFrom 0 32).map (fun j =>
      sgn 4 (lane 4 (reg (r + i / 4)) (32 * (i % 4) + j)) * sgn 8 (vbyte q (32 * k + j)))).sum := by
  rw [edotSum_eq]
  simp only [hf, if_false]
  refine congrArg _ (List.map_congr_left fun j hj => ?_)
  have hj : j < 32 := by simpa using (mem_upFrom.1 hj).2
  simp only [rowOf, edotQuery, hf, if_false]
  rw [bits_lane (n := 4) (by decide) rfl _ _ hj rfl, bits_lane (n := 8) (by decide) rfl _ _ hj rfl]
  rfl

/-- What EDOT writes, before the pc moves on. -/
def edotWritten (w : W32) (t : Thread) : Thread :=
  dirtyVS (setV (wRd w) (ofLanes 32 ((upFrom 0 16).map (fun i => wrap 32 (satInt 32 (edotLane t w i)))))
    (if ∃ i, i < 16 ∧ satInt 32 (edotLane t w i) ≠ edotLane t w i then setCsr 0x8C4 (rcsr t 0x8C4 ||| ISAT) t else t))

theorem edotThread_eq (w : W32) (t : Thread) : edotThread w t = advance 4 (edotWritten w t) := by
  have hsat : ((upFrom 0 16).map (edotLane t w)).any (fun i => satInt 32 i != i) = true ↔
      ∃ i, i < 16 ∧ satInt 32 (edotLane t w i) ≠ edotLane t w i := by
    simp [mem_upFrom]
  unfold edotThread edotWritten
  simp only [hsat, List.map_map]
  rfl

theorem edotWritten_rewrites (w : W32) (t : Thread) : Rewrites [] [] [wRd w] [0x8C4, 0x300] t (edotWritten w t) := by
  have hflag : Rewrites [] [] [wRd w] [0x8C4, 0x300] t
      (if ∃ i, i < 16 ∧ satInt 32 (edotLane t w i) ≠ edotLane t w i then setCsr 0x8C4 (rcsr t 0x8C4 ||| ISAT) t else t) := by
    split
    · exact Rewrites.refl.setCsr (by decide) _
    · exact .refl
  exact (hflag.setV (wRd_mem w) _).dirtyVS (by decide)

theorem edotLane_int8 {w : W32} (hf : bits w.toNat 31 29 = 0) (t : Thread) (i : Nat) :
    edotLane t w i = (if bit w.toNat 26 then sgn 32 (lane 32 (rv t (wRd w)) i) else 0) +
      ((upFrom 0 16).map (fun j => sgn 8 (vbyte (rv t (wRs1 w + i / 4)) (16 * (i % 4) + j)) *
        sgn 8 (vbyte (rv t (wRs2 w)) (16 * bits w.toNat 28 27 + j)))).sum := by
  rw [← edotSum_int8 (rv t), edotLane, hf]
  split <;> simp

theorem edotLane_int4 {w : W32} (hf : bits w.toNat 31 29 ≠ 0) (t : Thread) (i : Nat) :
    edotLane t w i = (if bit w.toNat 26 then sgn 32 (lane 32 (rv t (wRd w)) i) else 0) +
      ((upFrom 0 32).map (fun j => sgn 4 (lane 4 (rv t (wRs1 w + i / 4)) (32 * (i % 4) + j)) *
        sgn 8 (vbyte (rv t (wRs2 w)) (32 * bits w.toNat 28 27 + j)))).sum := by
  rw [← edotSum_int4 hf (rv t), edotLane]
  split <;> simp

/-- A lane of a register built from sixteen lanes of 32 bits. -/
theorem lane_ofLanes_sixteen (f : Nat → Nat) {i : Nat} (hi : i < 16) :
    lane 32 (ofLanes 32 ((upFrom 0 16).map f)) i = f i % 2 ^ 32 := by
  rw [lane_ofLanes _ (by decide) (by omega), getD_map_upFrom f 0 0 hi, Nat.zero_add]

theorem lane_edotWritten (w : W32) (t : Thread) {i : Nat} (hi : i < 16) :
    lane 32 (rv (edotWritten w t) (wRd w)) i = wrap 32 (satInt 32 (edotLane t w i)) := by
  rw [edotWritten, rv_dirtyVS, rv_setV, if_pos rfl, lane_ofLanes_sixteen _ hi, Nat.mod_eq_of_lt (wrap_lt 32 _)]

theorem rcsr_edotWritten_escstat (w : W32) (t : Thread) : rcsr (edotWritten w t) 0x8C4 =
    if ∃ i, i < 16 ∧ satInt 32 (edotLane t w i) ≠ edotLane t w i then rcsr t 0x8C4 ||| 1 else rcsr t 0x8C4 := by
  rw [edotWritten, rcsr_dirtyVS, if_neg (by decide), rcsr_setV]
  split
  · exact rcsr_setCsr_or t 0x8C4 0x8C4 (by decide)
  · rfl

theorem rcsr_edotWritten_mstatus (w : W32) (t : Thread) : rcsr (edotWritten w t) 0x300 = rcsr t 0x300 ||| 0x600 := by
  rw [edotWritten, rcsr_dirtyVS, if_pos rfl, rcsr_setV]
  split
  · rw [ISAT, rcsr_setCsr_or t 0x8C4 0x300 (by decide), if_neg (by decide)]
  · rfl

/-- Settles O17: each lane is the sum of one row, read before vd is written. -/
theorem edotSumsProducts : Obligations.EdotSumsProducts := by
  intro s th w hi hl hr v k sum y
  have hy : ∀ i, edotLane v w i = y i := fun i => by
    by_cases hf : bits w.toNat 31 29 = 0
    · simpa only [y, sum, hf, if_true] using edotLane_int8 hf v i
    · simpa only [y, sum, hf, if_false] using edotLane_int4 hf v i
  obtain ⟨t, hnext, hmoves, hothers, honly, hctx⟩ :=
    next_of_rewrites (exec_edot_legal hi hl hr) (edotThread_eq w v) (edotWritten_rewrites w v)
  refine ⟨t, hnext, hmoves, hothers, honly, fun i h => ?_, ?_, ?_⟩
  · rw [hctx, rv_advance, lane_edotWritten w v h, hy]
  · rw [hctx, rcsr_advance, rcsr_edotWritten_escstat]
    simp only [hy]
    rfl
  · rw [hctx, rcsr_advance, rcsr_edotWritten_mstatus]

/-! ### EDOTF -/

/-- What EDOTF writes, before the pc moves on. -/
def edotfWritten (w : W32) (t : Thread) : Thread :=
  let ls := (upFrom 0 16).map (edotfLane t w)
  dirtyFS (dirtyVS (setCsr 0x003 (rcsr t 0x003 ||| ls.foldl (fun a p => a ||| p.2) 0)
    (setV (wRd w) (ofLanes 32 (ls.map (fun p => p.1))) t)))

theorem edotfThread_eq (w : W32) (t : Thread) : edotfThread w t = advance 4 (edotfWritten w t) := rfl

theorem edotfWritten_rewrites (w : W32) (t : Thread) : Rewrites [] [] [wRd w] [0x003, 0x300] t (edotfWritten w t) :=
  (((Rewrites.refl.setV (wRd_mem w) _).setCsr (by decide) _).dirtyVS (by decide)).dirtyFS (by decide)

theorem lane_edotfWritten (w : W32) (t : Thread) {i : Nat} (hi : i < 16) :
    lane 32 (rv (edotfWritten w t) (wRd w)) i = (edotfLane t w i).1 % 2 ^ 32 := by
  rw [edotfWritten, rv_dirtyFS, rv_dirtyVS, rv_setCsr, rv_setV, if_pos rfl, List.map_map]
  exact lane_ofLanes_sixteen (fun i => (edotfLane t w i).1) hi

theorem testBit_foldl_or {α : Type} (f : α → Nat) (l : List α) (a b : Nat) :
    (l.foldl (fun a x => a ||| f x) a).testBit b = (a.testBit b || l.any (fun x => (f x).testBit b)) := by
  induction l generalizing a with
  | nil => simp
  | cons x t ih => rw [List.foldl_cons, ih, Nat.testBit_or, List.any_cons, Bool.or_assoc]

theorem testBit_fflags_edotfWritten (w : W32) (t : Thread) {b : Nat} (hb : b < 64) :
    (rcsr (edotfWritten w t) 0x003).testBit b =
      ((rcsr t 0x003).testBit b || (upFrom 0 16).any (fun i => (edotfLane t w i).2.testBit b)) := by
  rw [edotfWritten, rcsr_dirtyFS, if_neg (by decide), rcsr_dirtyVS, if_neg (by decide), rcsr_setCsr, if_pos rfl,
    Nat.testBit_mod_two_pow, Nat.testBit_or, testBit_foldl_or, List.any_map]
  simp [hb, Function.comp_def]

theorem rcsr_edotfWritten_mstatus (w : W32) (t : Thread) : rcsr (edotfWritten w t) 0x300 = rcsr t 0x300 ||| 0x6600 := by
  rw [edotfWritten, rcsr_dirtyFS, if_pos rfl, rcsr_dirtyVS, if_pos rfl, rcsr_setCsr, if_neg (by decide), rcsr_setV, Nat.or_assoc,
    show 0x600 ||| 0x6000 = 0x6600 from rfl]

/-! ### ERESCALE -/

/-- Number of lanes ERESCALE saturates. -/
def erescaleSats (w : W32) (t : Thread) : Nat :=
  ((upFrom 0 16).filter (fun i => satInt (outBits (bits w.toNat 31 30)) (erescaleLane t w i) != erescaleLane t w i)).length

/-- What ERESCALE writes, before the pc moves on. -/
def erescaleWritten (w : W32) (t : Thread) : Thread :=
  let n := outBits (bits w.toNat 31 30)
  dirtyVS (setV (wRd w) (vSetBits (rv t (wRd w)) (n * (16 * bits w.toNat 29 27)) (n * 16)
      (packLanes n ((upFrom 0 16).map (fun i => wrap n (satInt n (erescaleLane t w i))))))
    (if erescaleSats w t = 0 then t
    else setCsr 0x8C5 (satCount 64 (rcsr t 0x8C5) (erescaleSats w t)) (setCsr 0x8C4 (rcsr t 0x8C4 ||| RSAT) t)))

theorem erescaleThread_eq (w : W32) (t : Thread) : erescaleThread w t = advance 4 (erescaleWritten w t) := by
  have hpack : ∀ n, packLanes n ((upFrom 0 16).map (fun i => wrap n (satInt n (erescaleLane t w i)))) =
      ((upFrom 0 16).map (erescaleLane t w)).foldr (fun x acc => wrap n (satInt n x) + acc * 2 ^ n) 0 := fun n => by
    simp only [packLanes, List.foldr_map, Nat.mod_eq_of_lt (wrap_lt n _)]
  have hsats : (((upFrom 0 16).map (erescaleLane t w)).filter
      (fun x => satInt (outBits (bits w.toNat 31 30)) x != x)).length = erescaleSats w t := by
    rw [List.filter_map, List.length_map]
    rfl
  unfold erescaleThread erescaleWritten
  simp only [hpack, hsats]
  rw [Nat.mul_comm (bits w.toNat 29 27) 16, Nat.mul_comm _ (outBits _), Nat.mul_comm 16 (outBits _)]

theorem erescaleWritten_rewrites (w : W32) (t : Thread) :
    Rewrites [] [] [wRd w] [0x8C4, 0x8C5, 0x300] t (erescaleWritten w t) := by
  refine Rewrites.dirtyVS (Rewrites.setV ?_ (wRd_mem w) _) (by decide)
  split
  · exact .refl
  · exact (Rewrites.refl.setCsr (by decide) _).setCsr (by decide) _

theorem outBits_pos (o : Nat) : 0 < outBits o := by
  unfold outBits
  split
  · decide
  · split <;> decide

/-- Lane `e` of vd after ERESCALE. -/
theorem lane_erescaleWritten (w : W32) (t : Thread) {e : Nat} (he : e < 512 / outBits (bits w.toNat 31 30)) :
    lane (outBits (bits w.toNat 31 30)) (rv (erescaleWritten w t) (wRd w)) e =
      if 16 * bits w.toNat 29 27 ≤ e ∧ e < 16 * bits w.toNat 29 27 + 16 then
        wrap (outBits (bits w.toNat 31 30))
          (satInt (outBits (bits w.toNat 31 30)) (erescaleLane t w (e - 16 * bits w.toNat 29 27)))
      else lane (outBits (bits w.toNat 31 30)) (rv t (wRd w)) e := by
  have hn := outBits_pos (bits w.toNat 31 30)
  have hfit : outBits (bits w.toNat 31 30) * e + outBits (bits w.toNat 31 30) ≤ 512 := by
    rw [← Nat.mul_succ, Nat.mul_comm]
    exact (Nat.le_div_iff_mul_le hn).1 he
  rw [erescaleWritten, rv_dirtyVS, rv_setV, if_pos rfl, lane_vSetBits_packLanes _ _ hn (by decide) hfit]
  refine ite_congr rfl (fun h => ?_) fun _ => rfl
  rw [getD_map_upFrom _ 0 0 (by omega), Nat.zero_add]
  exact Nat.mod_eq_of_lt (wrap_lt _ _)

theorem rcsr_erescaleWritten_esatcnt (w : W32) (t : Thread) :
    rcsr (erescaleWritten w t) 0x8C5 = min (2 ^ 64 - 1) (rcsr t 0x8C5 + erescaleSats w t) := by
  rw [erescaleWritten, rcsr_dirtyVS, if_neg (by decide), rcsr_setV]
  have hlt := rcsr_lt t 0x8C5
  split
  · next h => omega
  · rw [rcsr_setCsr, if_pos rfl, satCount]
    omega

theorem rcsr_erescaleWritten_escstat (w : W32) (t : Thread) :
    rcsr (erescaleWritten w t) 0x8C4 = if erescaleSats w t = 0 then rcsr t 0x8C4 else rcsr t 0x8C4 ||| 2 := by
  rw [erescaleWritten, rcsr_dirtyVS, if_neg (by decide), rcsr_setV]
  split
  · rfl
  · rw [rcsr_setCsr, if_neg (by decide), RSAT, rcsr_setCsr_or t 0x8C4 0x8C4 (by decide), if_pos rfl]

theorem rcsr_erescaleWritten_mstatus (w : W32) (t : Thread) :
    rcsr (erescaleWritten w t) 0x300 = rcsr t 0x300 ||| 0x600 := by
  rw [erescaleWritten, rcsr_dirtyVS, if_pos rfl, rcsr_setV]
  split
  · rfl
  · rw [rcsr_setCsr, if_neg (by decide), rcsr_setCsr, if_neg (by decide)]

/-- Settles O18: each instruction is a rewrite of vd and of the CSRs that report what happened. -/
theorem floatDotsAndRescale : Obligations.FloatDotsAndRescale := by
  intro s th w
  refine ⟨fun hi hl hr => ?_, fun hi hl hr => ?_⟩
  · obtain ⟨t, hnext, hmoves, hothers, honly, hctx⟩ :=
      next_of_rewrites (exec_edotf_legal hi hl hr) (edotfThread_eq w _) (edotfWritten_rewrites w _)
    refine ⟨t, hnext, hmoves, hothers, honly, fun i h => ?_, fun b hb => ?_, ?_⟩
    · rw [hctx, rv_advance, lane_edotfWritten w _ h]
    · rw [hctx, rcsr_advance, testBit_fflags_edotfWritten w _ hb]
    · rw [hctx, rcsr_advance, rcsr_edotfWritten_mstatus]
  · obtain ⟨t, hnext, hmoves, hothers, honly, hctx⟩ :=
      next_of_rewrites (exec_erescale_legal hi hl hr) (erescaleThread_eq w _) (erescaleWritten_rewrites w _)
    refine ⟨t, hnext, hmoves, hothers, honly, fun e he => ?_, ?_, ?_, ?_⟩
    · rw [hctx, rv_advance, lane_erescaleWritten w _ he]
      rfl
    · rw [hctx, rcsr_advance, rcsr_erescaleWritten_esatcnt]
      rfl
    · rw [hctx, rcsr_advance, rcsr_erescaleWritten_escstat]
      rfl
    · rw [hctx, rcsr_advance, rcsr_erescaleWritten_mstatus]

end Sys2Proof.Machine
end

section
/-! PROOFS. EntryOrder: what insertion, offers and merges keep of a list of entries: the order of R86, one entry an
identifier, and the bound of R90. -/
namespace Sys2Proof.Machine

/-! ### The order of two entries (R86) -/

/-- A list is in the order of R86 and no two of its entries have one identifier. -/
def Ranked (fp : Bool) (l : List Ent) : Prop := l.Pairwise (fun x y => precedes fp x y = true ∧ x.id ≠ y.id)

section
variable {fp : Bool}

theorem precedes_iff (a b : Ent) :
    precedes fp a b = true ↔ keyOf fp b < keyOf fp a ∨ keyOf fp a = keyOf fp b ∧ a.id < b.id := by
  simp [precedes]

theorem precedes_trans {a b c : Ent} (hab : precedes fp a b = true) (hbc : precedes fp b c = true) :
    precedes fp a c = true := by
  rw [precedes_iff] at *
  omega

/-- Two entries of different identifiers have an order. -/
theorem precedes_of_not {a b : Ent} (h : ¬precedes fp a b = true) (hid : a.id ≠ b.id) : precedes fp b a = true := by
  rw [precedes_iff] at *
  omega

/-! ### Insertion -/

theorem mem_insertEnt {e x : Ent} {l : List Ent} : x ∈ insertEnt fp e l ↔ x = e ∨ x ∈ l := by
  induction l with
  | nil => simp [insertEnt]
  | cons b t ih =>
    unfold insertEnt
    split
    · rw [List.mem_cons]
    · rw [List.mem_cons, ih, List.mem_cons, or_left_comm]

theorem ranked_insertEnt {e : Ent} {l : List Ent} (h : Ranked fp l) (he : ∀ x, x ∈ l → x.id ≠ e.id) :
    Ranked fp (insertEnt fp e l) := by
  induction l with
  | nil => exact List.pairwise_singleton _ _
  | cons b t ih =>
    obtain ⟨hb, ht⟩ := List.pairwise_cons.1 h
    obtain ⟨hbe, hte⟩ := List.forall_mem_cons.1 he
    unfold insertEnt
    split
    · next heb =>
      refine List.pairwise_cons.2 ⟨fun x hx => ⟨?_, (he x hx).symm⟩, h⟩
      rcases List.mem_cons.1 hx with rfl | hx
      · exact heb
      · exact precedes_trans heb (hb x hx).1
    · next heb =>
      refine List.pairwise_cons.2 ⟨fun x hx => ?_, ih ht hte⟩
      rcases mem_insertEnt.1 hx with rfl | hx
      · exact ⟨precedes_of_not heb hbe.symm, hbe⟩
      · exact hb x hx

/-- An entry takes the place of the one of its identifier. -/
theorem ranked_replace {l : List Ent} (h : Ranked fp l) (e : Ent) :
    Ranked fp (insertEnt fp e (l.filter (fun x => x.id != e.id))) :=
  ranked_insertEnt (h.sublist List.filter_sublist) fun x hx => by simpa using (List.mem_filter.1 hx).2

end

/-! ### The cut at the capacity (R90, R96) -/

theorem reduceTies_sublist (fp ties : Bool) (c : Nat) (l : List Ent) : (reduceTies fp ties c l).1.Sublist l := by
  unfold reduceTies
  split
  · exact List.take_sublist c l
  · split
    · exact .refl l
    · next z _ =>
      have htied : (((l.drop c).takeWhile (fun e => keyOf fp e == keyOf fp z)).take c).Sublist (l.drop c) :=
        (List.take_sublist _ _).trans (List.takeWhile_sublist _)
      simpa only [List.take_append_drop] using (List.Sublist.refl (l.take c)).append htied

theorem length_reduceTies_le (fp ties : Bool) (c : Nat) (l : List Ent) :
    (reduceTies fp ties c l).1.length ≤ if ties then 2 * c else c := by
  cases ties with
  | false => exact List.length_take_le c l
  | true =>
    rw [reduceTies, if_neg (by decide), if_pos rfl]
    split
    · next h =>
      have hlen := List.getElem?_eq_none_iff.1 h
      dsimp only
      omega
    · next z _ =>
      have hfirst := List.length_take_le c l
      have htied := List.length_take_le c ((l.drop c).takeWhile (fun e => keyOf fp e == keyOf fp z))
      rw [List.length_append]
      omega

/-! ### Offers to a unit list (R90) -/

theorem listOk_iff (l : UList) : ListOk l ↔ Ranked l.fp l.ents ∧ l.ents.length ≤ if l.ties then 2 * l.cap else l.cap :=
  ⟨fun h => ⟨h.order.and h.ids, h.room⟩, fun h => ⟨h.1.imp And.left, h.1.imp And.right, h.2⟩⟩

theorem listOk_offer {l : UList} (h : ListOk l) (e : Ent) : ListOk (offer l e).list := by
  unfold offer
  split
  · exact h
  · split
    · exact h
    · dsimp only
      split
      · exact h
      · exact (listOk_iff _).2
          ⟨(ranked_replace ((listOk_iff l).1 h).1 _).sublist (reduceTies_sublist _ _ _ _), length_reduceTies_le _ _ _ _⟩

/-- The flags of an offer lie in the low four bits of eslstat (Table 4-4). -/
theorem offer_flags_lt (l : UList) (e : Ent) : (offer l e).flags < 2 ^ 4 := by
  unfold offer
  split
  · exact (by decide : fNAN < 2 ^ 4)
  · split
    · exact (by decide : fRSV < 2 ^ 4)
    · dsimp only
      split
      · exact (by decide : fDUP < 2 ^ 4)
      · exact Nat.or_lt_two_pow (by split <;> decide) (by split <;> decide)

theorem listOk_offerAll {l : UList} (h : ListOk l) (es : List Ent) : ListOk (offerAll l es).1 :=
  List.foldlRecOn (motive := fun p : UList × Bool × List Nat => ListOk p.1) es _ h fun _ hp e _ => listOk_offer hp e

theorem offerAll_flags_lt (l : UList) (es : List Ent) : (offerAll l es).2.2.foldl (fun a b => a ||| b) 0 < 2 ^ 4 := by
  refine List.foldlRecOn (motive := fun p : UList × Bool × List Nat => p.2.2.foldl (fun a b => a ||| b) 0 < 2 ^ 4) es _
    (Nat.two_pow_pos 4) fun p hp e _ => ?_
  rw [List.foldl_append]
  exact Nat.or_lt_two_pow hp (offer_flags_lt _ e)

/-! ### Merges (R96) -/

theorem ranked_mergeOne {fp : Bool} {m : Merged} (h : Ranked fp m.ents) (e : Ent) : Ranked fp (mergeOne fp m e).ents := by
  unfold mergeOne
  split
  · exact h
  · split
    · exact h
    · dsimp only
      split
      · split
        · exact ranked_replace h _
        · exact h
      · next hnone => exact ranked_insertEnt h fun x hx => by simpa using List.find?_eq_none.1 hnone x hx

theorem ranked_mergeEnts (fp : Bool) (a b : List Ent) : Ranked fp (mergeEnts fp a b).ents :=
  List.foldlRecOn (motive := fun m : Merged => Ranked fp m.ents) (a ++ b) _ .nil fun _ h e _ => ranked_mergeOne h e

end Sys2Proof.Machine
end

section
/-! PROOFS. LocalStore: reads and writes of a core's local store that find clean words (R47, R409, R410). -/
namespace Sys2Proof.Machine

/-- The local stores lie above the stacks (Table 2-6), so that a request to one touches no row. -/
theorem ownStore_not_inStack {s : State} {th va n a : Nat} (h : ownStore s th va n = some a) : inStack a = false := by
  have hbase : 0x20000000000 ≤ storeBase (coreOf th) := Nat.le_add_right _ _
  have ha : storeBase (coreOf th) ≤ a := by
    unfold ownStore at h
    split at h
    · obtain ⟨-, ⟨⟩⟩ := Option.ite_none_right_eq_some.1 h
      exact Nat.le_trans (Nat.le_add_right _ _) (Nat.le_add_right _ _)
    · obtain ⟨⟨-, hle, -⟩, ⟨⟩⟩ := Option.ite_none_right_eq_some.1 h
      exact hle
  unfold inStack
  simp only [decide_eq_false_iff_not]
  omega

theorem ownStore_issued (s : State) (k th va n : Nat) : ownStore (issued k s) th va n = ownStore s th va n := by
  have hpost : recPost (issued k s) = recPost s := by
    unfold recPost ownPost
    rw [dirNum_congr (issued_dir k s)]
  unfold ownStore
  rw [thread_issued, hpost]

theorem Clean.of_mem {s t : State} {a n : Nat} (c : Clean s a n) (h : t.mem = s.mem) : Clean t a n :=
  c.congr (by rw [h]) (by rw [h]) (by rw [h]) (by rw [h])

/-- Part of a clean range is clean. -/
theorem Clean.take {s : State} {a m n : Nat} (c : Clean s a n) (h : m ≤ n) : Clean s a m := by
  refine ⟨fun hi r hr => c.rows hi r ?_, fun w hw => c.words w ?_⟩
  · unfold rowsOf at *
    rw [mem_upFrom] at *
    omega
  · unfold wordsOf at *
    rw [mem_upFrom] at *
    omega

section
variable {s : State} {a : Nat}

theorem accessStack_store (h : inStack a = false) : accessStack a s = s := by
  rw [accessStack, h]
  rfl

/-- A clean read of a local store changes nothing. -/
theorem demandRead_store {w : Who} {n : Nat} (h : inStack a = false) (c : Clean s a n) : demandRead w a n s = (0, s) := by
  rw [demandRead_clean c, accessStack_store h]

/-- A clean write of a local store puts its bytes and their check bits there. -/
theorem storeOwn_clean {th : Nat} {b : Bytes} (h : inStack a = false) (c : Clean s a b.length) :
    storeOwn th a b s = (0, freshCheck a b.length (memWrite a b s)) := by
  have hpart : ∀ x, x ∈ partWords a b.length → isBad s x = false ∧ isFixable s x = false :=
    fun x hx => c.words x (List.mem_filter.1 hx).1
  have hbad : (partWords a b.length).find? (isBad s) = none :=
    List.find?_eq_none.2 fun x hx => by simp [(hpart x hx).1]
  have hfix : (partWords a b.length).filter (isFixable s) = [] :=
    List.filter_eq_nil_iff.2 fun x hx => by simp [(hpart x hx).2]
  unfold storeOwn demandWrite
  simp [accessStack_store h, h, hbad, hfix]

end

end Sys2Proof.Machine
end

section
/-! PROOFS. Shortlists: ESLINS on its named list (R89 to R94). -/
namespace Sys2Proof.Machine

/-! ### What an instruction of a thread leaves of the threads -/

section
variable {th : Nat} {s z : State} {u : Thread}

/-- One thread changed after something that changed none. -/
theorem thread_onThread_of {y : State} (hy : ∀ k, thread y k = thread s k) (f : Thread → Thread) (k : Nat) :
    thread (onThread th f y) k = if k = th then f (thread s th) else thread s k := by
  rw [thread_onThread, hy, hy]

theorem others_of_thread (hz : ∀ k, thread z k = if k = th then advance 4 u else thread s k) : Others th s z :=
  fun k hk => (hz k).trans (if_neg hk)

/-- A thread whose listed registers were rewritten moved on by 4, whatever became of the rest of the block. -/
theorem moves_of_thread {xs fs vs cs : List Nat} (hz : ∀ k, thread z k = if k = th then advance 4 u else thread s k)
    (hu : Rewrites xs fs vs cs (thread s th) u) : Moves th xs fs vs cs s z ∧ thread z th = advance 4 u := by
  obtain ⟨t, -, h, -, -, ht⟩ := next_of_rewrites (f := fun _ => advance 4 u) rfl rfl hu
  have hzt : thread z th = thread t th := by rw [hz, if_pos rfl, ht]
  obtain ⟨hpc, hints, hfloats, hvectors, hcsrs, hrest⟩ := h
  rw [← hzt] at hpc hints hfloats hvectors hcsrs hrest ht
  exact ⟨⟨hpc, hints, hfloats, hvectors, hcsrs, hrest⟩, ht⟩

/-- `u` is the context `t` but for the listed integer registers, CSRs and unit lists. -/
structure ListRewrites (xs cs ls : List Nat) (t u : Thread) : Prop where
  ints : ∀ r, r ∉ xs → rx u r = rx t r
  csrs : ∀ a, a ∉ cs → rcsr u a = rcsr t a
  lists : ∀ i, i ∉ ls → ulist u i = ulist t i
  rest : u = { t with x := u.x, csr := u.csr, lists := u.lists }

theorem ulist_setX (r i : Nat) (v : W64) (t : Thread) : ulist (setX r v t) i = ulist t i := by
  rw [ulist, setX_lists, ulist]

section
variable {xs cs ls : List Nat} {t : Thread}

theorem ListRewrites.setList {i : Nat} (hi : i ∈ ls) (l : UList) : ListRewrites xs cs ls t (setList i l t) where
  ints _ _ := rfl
  csrs _ _ := rfl
  lists k hk := by rw [ulist_setList, if_neg (ne_of_mem_of_not_mem hi hk).symm]
  rest := rfl

theorem ListRewrites.setCsr (h : ListRewrites xs cs ls t u) {a : Nat} (ha : a ∈ cs) (v : Nat) :
    ListRewrites xs cs ls t (setCsr a v u) where
  ints := h.ints
  csrs k hk := by rw [rcsr_setCsr, if_neg (ne_of_mem_of_not_mem ha hk).symm, h.csrs k hk]
  lists := h.lists
  rest := by
    have hu := h.rest
    unfold Machine.setCsr
    rw [hu]

theorem ListRewrites.setX (h : ListRewrites xs cs ls t u) {r : Nat} (hr : r ∈ xs) (v : W64) :
    ListRewrites xs cs ls t (setX r v u) where
  ints k hk := by
    rw [rx_setX, if_neg (not_and_of_not_left _ (ne_of_mem_of_not_mem hr hk).symm), h.ints k hk]
  csrs k hk := by rw [rcsr_setX, h.csrs k hk]
  lists k hk := by rw [ulist_setX, h.lists k hk]
  rest := by
    have hu := h.rest
    unfold Machine.setX
    split
    · exact hu
    · rw [hu]

theorem movesLists_of_thread (hz : ∀ k, thread z k = if k = th then advance 4 u else thread s k)
    (hu : ListRewrites xs cs ls (thread s th) u) : MovesLists th xs cs ls s z ∧ thread z th = advance 4 u := by
  have ht : thread z th = advance 4 u := by rw [hz, if_pos rfl]
  refine ⟨⟨?_, ?_, ?_, ?_, ?_⟩, ht⟩
  · rw [ht, advance_pc, hu.rest]
  all_goals rw [ht]
  · exact hu.ints
  · exact hu.csrs
  · exact hu.lists
  · rw [advance, hu.rest]

end
end

/-- The register an instruction wrote, x0 reading zero (R33). -/
theorem rx_setX_self (rd : Nat) (v : W64) (t : Thread) : rx (setX rd v t) rd = if rd = 0 then 0 else v := by
  rw [rx_setX]
  by_cases h : rd = 0
  · simp [h, rx]
  · simp [h]

/-! ### INSERT and INSERTV -/

/-- A thread's context after the candidates `es` were offered to the list `w` names, before the pc moves on. -/
def offeredThread (w : W32) (es : List Ent) (t : Thread) : Thread :=
  let r := offerAll (ulist t (wList w)) es
  setX (wRd w) (BitVec.ofNat 64 (resultWord r.1 r.2.1))
    (setCsr 0x8C6 (rcsr t 0x8C6 ||| r.2.2.foldl (fun a b => a ||| b) 0) (setList (wList w) r.1 t))

theorem offeredThread_rewrites (w : W32) (es : List Ent) (t : Thread) :
    ListRewrites [wRd w] [0x8C6] [wList w] t (offeredThread w es t) :=
  ((ListRewrites.setList (List.mem_singleton_self _) _).setCsr (List.mem_singleton_self _) _).setX
    (List.mem_singleton_self _) _

section
variable {s : State} {th : Nat} {w : W32}

/-- The node's counters are all that the flags of offers touch. -/
theorem foldS_countFlags_sea (fs : List Nat) (s : State) : (foldS fs countFlags s).sea = s.sea :=
  foldS_keeps (fun u => u.sea = s.sea) fs countFlags s
    (fun f u hu => (Frame.same (frame_countFlags (m0 := 4096) f u (by decide) (Frame.refl _)).sea rfl).trans hu) rfl

theorem thread_runOffers (es : List Ent) (k : Nat) : thread (runOffers th w es (issued th s)) k =
    if k = th then advance 4 (offeredThread w es (thread s th)) else thread s k := by
  unfold runOffers
  rw [thread_congr (foldS_countFlags_sea _ _), thread_onThread_of (thread_issued th · s), thread_issued]
  rfl

theorem runOffers_mem (es : List Ent) : (runOffers th w es (issued th s)).mem = s.mem :=
  (Frame.same (frame_runOffers (m0 := 4112) th w es _ (by decide) (Frame.refl _)).mem rfl).trans (issued_mem th s)

theorem exec_insert_ready (hi : Issues s th [wRs1 w, wRs2 w, wRd w] [] []) (hr : eslReady (thread s th) w 0 false = true) :
    exec (.insert th w) s = .next (runOffers th w (insertCands (thread s th) w) (issued th s)) := by
  obtain ⟨hcan, hfree⟩ := hi
  change execInsert th w s = _
  rw [execInsert, onRegs_of hcan hfree, thread_issued, if_pos hr]

theorem exec_insertv_ready (hi : Issues s th [wRs2 w, wRd w] [] [wRs1 w, 0]) (hr : eslReady (thread s th) w 1 true = true)
    (hstart : rcsr (thread s th) 0x008 = 0) (hvs : mVS (thread s th) ≠ 0) :
    exec (.insertv th w) s = .next (runOffers th w (insertvCands (thread s th) w) (issued th s)) := by
  obtain ⟨hcan, hfree⟩ := hi
  change execInsertv th w s = _
  rw [execInsertv, onRegs_of hcan hfree, thread_issued, if_pos (by simp [hr, hstart, hvs])]

theorem ulist_offeredThread (es : List Ent) (t : Thread) :
    ulist (offeredThread w es t) (wList w) = (offerAll (ulist t (wList w)) es).1 := by
  rw [offeredThread, ulist_setX]
  exact (ulist_setList _ _ _ _).trans (if_pos rfl)

theorem rcsr_offeredThread (es : List Ent) (t : Thread) : rcsr (offeredThread w es t) 0x8C6 =
    rcsr t 0x8C6 ||| (offerAll (ulist t (wList w)) es).2.2.foldl (fun a b => a ||| b) 0 := by
  have hlt := Nat.or_lt_two_pow (rcsr_lt t 0x8C6)
    (Nat.lt_trans (offerAll_flags_lt (ulist t (wList w)) es) (by decide : 2 ^ 4 < 2 ^ 64))
  rw [offeredThread, rcsr_setX, rcsr_setCsr, if_pos rfl, Nat.mod_eq_of_lt hlt]

/-! ### RESET and FLOOR -/

theorem exec_eslReset_ready (hi : Issues s th [wRs1 w, wRd w] [] []) (hr : eslReady (thread s th) w 2 false = true)
    (hl : resetLegal (rx (thread s th) (wRs1 w)).toNat = true) :
    exec (.eslReset th w) s = .next (onThread th (fun t => advance 4 (setX (wRd w) 0
      (setList (wList w) (resetList (rx (thread s th) (wRs1 w)).toNat) t))) (issued th s)) := by
  obtain ⟨hcan, hfree⟩ := hi
  change execEslReset th w s = _
  rw [execEslReset, onRegs_of hcan hfree]
  dsimp only
  rw [thread_issued, if_pos (by simp [hr, hl])]

theorem listOk_resetList (c : Nat) : ListOk (resetList c) := ⟨.nil, .nil, Nat.zero_le _⟩

theorem exec_floor_ready (hi : Issues s th [wRd w] [] []) (hr : eslReady (thread s th) w 4 false = true) :
    exec (.floor th w) s = .next (onThread th (fun t => advance 4 (setX (wRd w)
      (BitVec.ofNat 64 (resultWord (ulist t (wList w)) false)) t)) (issued th s)) := by
  obtain ⟨hcan, hfree⟩ := hi
  change execFloor th w s = _
  rw [execFloor, onRegs_of hcan hfree]
  dsimp only
  rw [thread_issued, if_pos hr]

/-! ### DRAIN -/

/-- Entries written to a local store: nothing at all of none. -/
def storeEnts (a : Nat) (b : Bytes) (s : State) : State := if b = [] then s else freshCheck a b.length (memWrite a b s)

theorem thread_storeEnts (a : Nat) (b : Bytes) (s : State) (k : Nat) : thread (storeEnts a b s) k = thread s k := by
  unfold storeEnts
  split <;> rfl

theorem wrote_storeEnts {y : State} (hy : y.mem = s.mem) (a : Nat) (b : Bytes) : Wrote s (storeEnts a b y) a b := by
  intro x
  rw [← memByte_congr (congrArg Mem.bytes hy)]
  unfold storeEnts
  split
  · next h => rw [h, if_neg (fun hx => Nat.lt_irrefl a (Nat.lt_of_le_of_lt hx.1 hx.2))]
  · rw [memByte_freshCheck, memByte_memWrite]

/-- The bytes of the list `w` names (Table 4-1). -/
def listBytes (w : W32) (t : Thread) : Bytes := (ulist t (wList w)).ents.flatMap entBytes

theorem exec_drain_ready {a : Nat} (hi : Issues s th [wRs1 w, wRd w] [] []) (hr : eslReady (thread s th) w 3 false = true)
    (hal : (rx (thread s th) (wRs1 w)).toNat % 16 = 0)
    (hb : listBytes w (thread s th) = [] ∨
      ownStore s th (rx (thread s th) (wRs1 w)).toNat (listBytes w (thread s th)).length = some a ∧
        Clean s a (listBytes w (thread s th)).length) :
    exec (.drain th w) s = .next (onThread th
      (fun t => advance 4 (setX (wRd w) (BitVec.ofNat 64 (ulist (thread s th) (wList w)).ents.length) t))
      (storeEnts a (listBytes w (thread s th)) (issued th s))) := by
  obtain ⟨hcan, hfree⟩ := hi
  change execDrain th w s = _
  rw [execDrain, onRegs_of hcan hfree]
  simp only [thread_issued, hr, hal, ownStore_issued, Bool.not_true, Bool.false_eq_true, ne_eq, not_true_eq_false, if_false,
    List.isEmpty_iff, ← listBytes.eq_1]
  by_cases hnil : listBytes w (thread s th) = []
  · rw [if_pos hnil, storeEnts, if_pos hnil]
  · obtain ⟨hown, hclean⟩ := hb.resolve_left hnil
    rw [if_neg hnil, hown, storeEnts, if_neg hnil]
    dsimp only
    rw [storeOwn_clean (ownStore_not_inStack hown) (hclean.of_mem (issued_mem th s)), if_pos rfl]

end

/-- Settles O19: INSERT and INSERTV are one run of offers, which keeps a list in order; the others write registers, and
DRAIN the bytes of the entries. -/
theorem shortlistInstructions : Obligations.ShortlistInstructions := by
  intro s th w v i
  refine ⟨fun cmd es hcmd => ?_, fun hi hr hl => ?_, fun hi hr => ?_, fun a hi hr hal hb => ?_⟩
  · have hnext : exec cmd s = .next (runOffers th w es (issued th s)) := by
      rcases hcmd with ⟨rfl, rfl, hi, hr⟩ | ⟨rfl, rfl, hi, hr, hstart, hvs⟩
      · exact exec_insert_ready hi hr
      · exact exec_insertv_ready hi hr hstart hvs
    obtain ⟨hmoves, ht⟩ := movesLists_of_thread (thread_runOffers es) (offeredThread_rewrites w es v)
    have hlist := ulist_offeredThread (w := w) es v
    refine ⟨_, hnext, hmoves, others_of_thread (thread_runOffers es), runOffers_mem es, ?_, fun hok => ?_, ?_, ?_⟩
    all_goals rw [ht]
    · exact hlist
    · rw [ulist_advance, hlist]
      exact listOk_offerAll hok es
    · exact rx_setX_self _ _ _
    · exact rcsr_offeredThread es v
  · have hz := thread_onThread_of (th := th) (thread_issued th · s)
      (fun t => advance 4 (setX (wRd w) 0 (setList i (resetList (rx v (wRs1 w)).toNat) t)))
    obtain ⟨hmoves, ht⟩ := movesLists_of_thread hz
      ((ListRewrites.setList (List.mem_singleton_self i) _).setX (List.mem_singleton_self (wRd w)) 0)
    have hlist : ulist (advance 4 (setX (wRd w) 0 (setList i (resetList (rx v (wRs1 w)).toNat) v))) i =
        resetList (rx v (wRs1 w)).toNat := by
      rw [ulist_advance, ulist_setX, ulist_setList, if_pos rfl]
    refine ⟨_, exec_eslReset_ready hi hr hl, hmoves, others_of_thread hz, threadsOnly_onThread_issued th _ s, ?_, ?_, ?_⟩
    all_goals rw [ht]
    · exact (rx_setX_self _ _ _).trans (ite_self 0)
    · exact hlist
    · rw [hlist]
      exact listOk_resetList _
  · obtain ⟨t, hnext, hmoves, hothers, honly, ht⟩ :=
      next_of_rewrites (exec_floor_ready hi hr) rfl (Rewrites.refl.setX (List.mem_singleton_self (wRd w)) _)
    refine ⟨t, hnext, hmoves, hothers, honly, ?_⟩
    rw [ht]
    exact rx_setX_self _ _ _
  · have hz := thread_onThread_of (th := th)
      (fun k => (thread_storeEnts a (listBytes w v) (issued th s) k).trans (thread_issued th k s))
      (fun t => advance 4 (setX (wRd w) (BitVec.ofNat 64 (ulist v i).ents.length) t))
    obtain ⟨hmoves, ht⟩ := moves_of_thread hz (Rewrites.refl.setX (List.mem_singleton_self (wRd w)) _)
    refine ⟨_, exec_drain_ready hi hr hal hb, hmoves, others_of_thread hz, ?_,
      wrote_storeEnts (issued_mem th s) a (listBytes w v)⟩
    rw [ht]
    exact rx_setX_self _ _ _

end Sys2Proof.Machine
end

section
/-! PROOFS. MergeCompact: ESLMRG on sources in order and ECOMPACT (R95 to R98, R103, R104). -/
namespace Sys2Proof.Machine

/-! ### Where a merge reads and writes -/

section
variable {s : State} {th : Nat}

theorem listPlace_not_inStack {va n a : Nat} (h : listPlace s th va n = some a) : n = 0 ∨ inStack a = false := by
  unfold listPlace at h
  split at h
  · next hn => exact .inl hn
  · exact .inr (ownStore_not_inStack h)

theorem mergePlaces_not_inStack {d : MDesc} {a b c : Nat} (h : mergePlaces s th d = some (a, b, c)) :
    (16 * d.countA = 0 ∨ inStack a = false) ∧ (16 * d.countB = 0 ∨ inStack b = false) ∧
      (16 * (if d.ties then 2 * d.k else d.k) = 0 ∨ inStack c = false) := by
  unfold mergePlaces at h
  dsimp only at h
  split at h
  · next ha hb hc =>
    obtain ⟨-, ⟨⟩⟩ := Option.ite_none_left_eq_some.1 h
    exact ⟨listPlace_not_inStack ha, listPlace_not_inStack hb, listPlace_not_inStack hc⟩
  · contradiction

theorem mergePlaces_issued (s : State) (k th : Nat) (d : MDesc) : mergePlaces (issued k s) th d = mergePlaces s th d := by
  simp only [mergePlaces, listPlace, ownStore_issued]

@[simp] theorem fixedRead_issued (s : State) (k a n : Nat) : fixedRead (issued k s) a n = fixedRead s a n :=
  fixedRead_congr (congrArg Mem.bytes (issued_mem k s)) (congrArg Mem.synd (issued_mem k s)) a n

@[simp] theorem readEnts_issued (s : State) (k a n : Nat) : readEnts (issued k s) a n = readEnts s a n := by
  simp [readEnts]

/-- Clean reads of a local store change nothing, an empty one wherever it lies. -/
theorem readAll_clean {w : Who} {rs : List (Nat × Nat)}
    (h : ∀ r, r ∈ rs → (r.2 = 0 ∨ inStack r.1 = false) ∧ Clean s r.1 r.2) :
    readAll w rs s = (0, s) := by
  refine List.foldlRecOn (motive := fun p : Nat × State => p = (0, s)) rs _ rfl fun p hp r hr => ?_
  obtain ⟨hplace, hclean⟩ := h r hr
  subst hp
  split
  · rfl
  · next hn => exact demandRead_store (hplace.resolve_left fun h0 => hn (.inr h0)) hclean

/-- Entries are written where there is room for them, to a local store. -/
theorem storeOwn_eq_storeEnts {c n : Nat} {b : Bytes} (hplace : n = 0 ∨ inStack c = false) (hclean : Clean s c n)
    (hn : b.length ≤ n) : (if b.isEmpty then (0, s) else storeOwn th c b s) = (0, storeEnts c b s) := by
  unfold storeEnts
  simp only [List.isEmpty_iff]
  split
  · rfl
  · next hb =>
    have hpos := List.length_pos_iff.2 hb
    exact storeOwn_clean (hplace.resolve_left (by omega)) (hclean.take hn)

end

/-! ### What a merge leaves -/

theorem entBytes_length (e : Ent) : (entBytes e).length = 16 := by simp [entBytes]

theorem length_flatMap_entBytes (l : List Ent) : (l.flatMap entBytes).length = 16 * l.length := by
  induction l with
  | nil => rfl
  | cons e t ih => rw [List.flatMap_cons, List.length_append, entBytes_length, ih, List.length_cons, Nat.mul_succ, Nat.add_comm]

section
variable {s : State} {th : Nat} {w : W32} {d : MDesc} {xa xb : List Ent}

theorem mergeRun_ordered (ha : (orderedPrefix d.fp xa).2 = false) (hb : (orderedPrefix d.fp xb).2 = false) (s : State) :
    mergeRun d xa xb s = mergeGood d xa xb s := by
  rw [mergeRun, ha, hb]
  rfl

/-- A merge, padded or not, fits its destination (R96, R98). -/
theorem length_mergeGood_le (s : State) : (mergeGood d xa xb s).ents.length ≤ if d.ties then 2 * d.k else d.k := by
  have hcut := length_reduceTies_le d.fp d.ties d.k (mergeEnts d.fp xa xb).ents
  unfold mergeGood
  rw [List.length_append, List.length_replicate]
  split at hcut <;> split <;> omega

theorem mergeGood_sea (d : MDesc) (xa xb : List Ent) (s : State) : (mergeGood d xa xb s).st.sea = s.sea :=
  Frame.same (frame_mergeGood (m0 := 4096) d xa xb s (by decide) (Frame.refl _)).sea rfl

theorem mergeGood_mem (d : MDesc) (xa xb : List Ent) (s : State) : (mergeGood d xa xb s).st.mem = s.mem :=
  Frame.same (frame_mergeGood (m0 := 4096) d xa xb s (by decide) (Frame.refl _)).mem rfl

/-- The context of a thread whose merge came to `o`, before the pc moves on. -/
def mergedThread (w : W32) (o : MOut) (t : Thread) : Thread :=
  setX (wRd w) (BitVec.ofNat 64 o.rd) (setCsr 0x8C6 (rcsr t 0x8C6 ||| o.flags) t)

/-- A merge that changed counters only, written and its result returned. -/
theorem moves_merged {o : MOut} (hsea : o.st.sea = (issued th s).sea) (hmem : o.st.mem = s.mem) (c : Nat) :
    let t := onThread th (fun t => advance 4 (mergedThread w o t)) (storeEnts c (o.ents.flatMap entBytes) o.st)
    Moves th [wRd w] [] [] [0x8C6] s t ∧ Others th s t ∧
      rx (thread t th) (wRd w) = (if wRd w = 0 then 0 else BitVec.ofNat 64 o.rd) ∧
      Wrote s t c (o.ents.flatMap entBytes) := by
  have hz := thread_onThread_of (th := th) (fun k => ((thread_storeEnts c (o.ents.flatMap entBytes) o.st k).trans
    (thread_congr hsea k)).trans (thread_issued th k s)) (fun t => advance 4 (mergedThread w o t))
  obtain ⟨hmoves, ht⟩ := moves_of_thread hz
    ((Rewrites.refl.setCsr (List.mem_singleton_self 0x8C6) _).setX (List.mem_singleton_self (wRd w)) _)
  refine ⟨hmoves, others_of_thread hz, ?_, wrote_storeEnts hmem c (o.ents.flatMap entBytes)⟩
  rw [ht]
  exact rx_setX_self _ _ _

theorem runMerge_good {a b c va : Nat} (hplaces : mergePlaces s th d = some (a, b, c)) (hca : Clean s a (16 * d.countA))
    (hcb : Clean s b (16 * d.countB)) (hcc : Clean s c (16 * (if d.ties then 2 * d.k else d.k)))
    (hxa : (orderedPrefix d.fp (readEnts s a d.countA)).2 = false)
    (hxb : (orderedPrefix d.fp (readEnts s b d.countB)).2 = false) :
    let o := mergeGood d (readEnts s a d.countA) (readEnts s b d.countB) s
    runMerge th w d a b c va s =
      onThread th (fun t => advance 4 (mergedThread w o t)) (storeEnts c (o.ents.flatMap entBytes) o.st) := by
  intro o
  obtain ⟨hpa, hpb, hpc⟩ := mergePlaces_not_inStack hplaces
  have hread : readAll (whoTh s th) [(a, 16 * d.countA), (b, 16 * d.countB)] s = (0, s) :=
    readAll_clean (List.forall_mem_cons.2 ⟨⟨hpa, hca⟩, List.forall_mem_singleton.2 ⟨hpb, hcb⟩⟩)
  have hlen : (o.ents.flatMap entBytes).length ≤ 16 * (if d.ties then 2 * d.k else d.k) :=
    Nat.le_trans (Nat.le_of_eq (length_flatMap_entBytes _)) (Nat.mul_le_mul_left 16 (length_mergeGood_le s))
  have hmem : o.st.mem = s.mem := mergeGood_mem _ _ _ _
  have hstore := storeOwn_eq_storeEnts (th := th) hpc (hcc.of_mem hmem) hlen
  unfold runMerge
  simp only [hread, ne_eq, not_true_eq_false, if_false, mergeRun_ordered hxa hxb]
  rw [hstore]
  exact if_neg (not_not_intro rfl)

theorem exec_eslmrg_valid {da a b c : Nat} (hi : Issues s th [wRs1 w, wRd w] [] []) (hop : wOpcode w = 0x2B)
    (hf3 : wF3 w = 1) (hf7 : wF7 w = 0) (hrs2 : wRs2 w = 0) (hxs : mXS (thread s th) ≠ 0)
    (hal : (rx (thread s th) (wRs1 w)).toNat % 64 = 0)
    (hown : ownStore s th (rx (thread s th) (wRs1 w)).toNat 64 = some da) (hclean : Clean s da 64)
    (hd : mdescOf (fixedRead s da 64) = some d) (hplaces : mergePlaces s th d = some (a, b, c)) :
    exec (.eslmrg th w) s = .next (runMerge th w d a b c (rx (thread s th) (wRs1 w)).toNat (issued th s)) := by
  obtain ⟨hcan, hfree⟩ := hi
  have hread : demandRead (whoTh (issued th s) th) da 64 (issued th s) = (0, issued th s) :=
    demandRead_store (ownStore_not_inStack hown) (hclean.of_mem (issued_mem th s))
  change execEslmrg th w s = _
  rw [execEslmrg, onRegs_of hcan hfree]
  simp only [thread_issued, hop, hf3, hf7, hrs2, hxs, hal, ownStore_issued, hown, fixedRead_issued, hread, hd,
    mergePlaces_issued, hplaces, ne_eq, not_true_eq_false, or_self, if_false]

end

/-! ### ECOMPACT -/

/-- What ECOMPACT writes, before the pc moves on. -/
def ecompactWritten (w : W32) (sel : List Nat) (nans : Nat) (t : Thread) : Thread :=
  dirtyVS (setCsr 0xCC3 sel.length
    (if nans = 0 then setV (wRd w) (ofLanes 16 sel) t
      else setCsr 0x8C6 (rcsr t 0x8C6 ||| fNAN) (setV (wRd w) (ofLanes 16 sel) t)))

theorem ecompactThread_eq (w : W32) (sel : List Nat) (nans : Nat) (t : Thread) :
    ecompactThread w sel nans t = advance 4 (ecompactWritten w sel nans t) := rfl

section
variable (w : W32) (t : Thread)

theorem ecompactWritten_rewrites (sel : List Nat) (nans : Nat) :
    Rewrites [] [] [wRd w] [0x8C6, 0xCC3, 0x300] t (ecompactWritten w sel nans t) := by
  have hv := (Rewrites.refl (xs := []) (fs := []) (cs := [0x8C6, 0xCC3, 0x300]) (t := t)).setV (wRd_mem w) (ofLanes 16 sel)
  refine Rewrites.dirtyVS (Rewrites.setCsr ?_ (by decide) _) (by decide)
  split
  · exact hv
  · exact hv.setCsr (by decide) _

theorem lt_of_mem_ecSelect {i : Nat} (h : i ∈ (ecSelect t w).1) : i < 32 := by
  have hi := mem_upFrom.1 (List.mem_filter.1 (List.mem_filter.1 h).1).1
  split at hi <;> omega

theorem length_ecSelect_le : (ecSelect t w).1.length ≤ 32 := by
  refine Nat.le_trans (List.length_filter_le _ _) (Nat.le_trans (List.length_filter_le _ _) ?_)
  rw [upFrom_length]
  split <;> decide

theorem lane_ecompactWritten (nans : Nat) {j : Nat} (hj : j < 32) :
    lane 16 (rv (ecompactWritten w (ecSelect t w).1 nans t) (wRd w)) j = (ecSelect t w).1.getD j 0 := by
  have hv : rv (ecompactWritten w (ecSelect t w).1 nans t) (wRd w) = ofLanes 16 (ecSelect t w).1 := by
    rw [ecompactWritten, rv_dirtyVS, rv_setCsr]
    split
    · rw [rv_setV, if_pos rfl]
    · rw [rv_setCsr, rv_setV, if_pos rfl]
  have hlt : (ecSelect t w).1.getD j 0 < 2 ^ 16 := by
    rw [List.getD_eq_getElem?_getD]
    cases hg : (ecSelect t w).1[j]? with
    | none => decide
    | some i => exact Nat.lt_trans (lt_of_mem_ecSelect w t (List.mem_of_getElem? hg)) (by decide)
  rw [hv, lane_ofLanes _ (by decide) (by omega), Nat.mod_eq_of_lt hlt]

theorem rcsr_ecompactWritten_ecmpcnt (nans : Nat) :
    rcsr (ecompactWritten w (ecSelect t w).1 nans t) 0xCC3 = (ecSelect t w).1.length := by
  have hlen := length_ecSelect_le w t
  rw [ecompactWritten, rcsr_dirtyVS, if_neg (by decide), rcsr_setCsr, if_pos rfl, Nat.mod_eq_of_lt (by omega)]

theorem rcsr_ecompactWritten_eslstat (sel : List Nat) (nans : Nat) :
    rcsr (ecompactWritten w sel nans t) 0x8C6 = if nans = 0 then rcsr t 0x8C6 else rcsr t 0x8C6 ||| 1 := by
  rw [ecompactWritten, rcsr_dirtyVS, if_neg (by decide), rcsr_setCsr, if_neg (by decide)]
  split
  · rfl
  · exact (rcsr_setCsr_or (setV (wRd w) (ofLanes 16 sel) t) 0x8C6 0x8C6 (by decide)).trans (if_pos rfl)

theorem rcsr_ecompactWritten_mstatus (sel : List Nat) (nans : Nat) :
    rcsr (ecompactWritten w sel nans t) 0x300 = rcsr t 0x300 ||| 0x600 := by
  rw [ecompactWritten, rcsr_dirtyVS, if_pos rfl, rcsr_setCsr, if_neg (by decide)]
  split
  · rfl
  · rw [rcsr_setCsr, if_neg (by decide), rcsr_setV]

end

theorem exec_ecompact_ready {s : State} {th : Nat} {w : W32} (hi : Issues s th [wRs2 w] [] [wRs1 w, wRd w, 0])
    (hr : ecompactReady (thread s th) w = true) :
    let e := ecSelect (thread s th) w
    exec (.ecompact th w) s =
      .next (whenS (e.2 != 0) (bumpBy (ent 0xC030 1) e.2) (onThread th (ecompactThread w e.1 e.2) (issued th s))) := by
  obtain ⟨hcan, hfree⟩ := hi
  change execEcompact th w s = _
  rw [execEcompact, onRegs_of hcan hfree]
  dsimp only
  rw [thread_issued, if_pos hr]

/-- A count kept or not, only the directory differs. -/
theorem whenS_bumpBy_sea_mem (c : Bool) (obj n : Nat) (s : State) :
    (whenS c (bumpBy obj n) s).sea = s.sea ∧ (whenS c (bumpBy obj n) s).mem = s.mem := by
  cases c
  · exact ⟨rfl, rfl⟩
  · exact ⟨bumpBy_sea obj n s, bumpBy_mem obj n s⟩

/-- Settles O20: what is kept of a merge is a sublist of entries in order, written once all is read; ECOMPACT is a rewrite
of vd and of the CSRs that report what it selected. -/
theorem mergeAndCompact : Obligations.MergeAndCompact := by
  intro s th w v
  constructor
  · intro da d a b c hi hop hf3 hf7 hrs2 hxs hal hown hcd hd hplaces hca hcb hcc xa xb hxa hxb m r out
    refine ⟨(ranked_mergeEnts d.fp xa xb).sublist (reduceTies_sublist _ _ _ _), length_reduceTies_le _ _ _ _, ?_⟩
    have hrun := runMerge_good (w := w) (va := (rx v (wRs1 w)).toNat) ((mergePlaces_issued s th th d).trans hplaces)
      (hca.of_mem (issued_mem th s)) (hcb.of_mem (issued_mem th s)) (hcc.of_mem (issued_mem th s))
      (by rwa [readEnts_issued]) (by rwa [readEnts_issued])
    simp only [readEnts_issued] at hrun
    exact ⟨_, (exec_eslmrg_valid hi hop hf3 hf7 hrs2 hxs hal hown hcd hd hplaces).trans (congrArg _ hrun),
      moves_merged (mergeGood_sea d xa xb _) ((mergeGood_mem d xa xb _).trans (issued_mem th s)) c⟩
  · intro hi hr e
    obtain ⟨hsea, hmem⟩ := whenS_bumpBy_sea_mem (e.2 != 0) (ent 0xC030 1) e.2
      (onThread th (ecompactThread w e.1 e.2) (issued th s))
    have hz := fun k => (thread_congr hsea k).trans
      (thread_onThread_of (th := th) (thread_issued th · s) (ecompactThread w e.1 e.2) k)
    obtain ⟨hmoves, ht⟩ := moves_of_thread hz (ecompactWritten_rewrites w v e.1 e.2)
    refine ⟨_, exec_ecompact_ready hi hr, hmoves, others_of_thread hz, ?_, ?_, fun j hj => ?_, ?_, ?_⟩
    · rw [hmem, onThread_mem, issued_mem]
    all_goals rw [ht]
    · exact rcsr_ecompactWritten_ecmpcnt w v e.2
    · exact lane_ecompactWritten w v e.2 hj
    · exact rcsr_ecompactWritten_eslstat w v e.1 e.2
    · exact rcsr_ecompactWritten_mstatus w v e.1 e.2

end Sys2Proof.Machine
end

section
/-! PROOFS. EndedRequests: what ending a request leaves as it was besides its receipt (R14, R311), and how an admitted envelope
reaches its command (R309). -/
namespace Sys2Proof.Machine

section
variable {s : State} {rid : Nat}

/-! ### What an ended request leaves as it was -/

theorem endReq_frame (rid status count detail : Nat) (body : Bytes) (s : State) :
    Frame 6648 s (endReq rid status count detail body s) :=
  frame_endReq _ _ _ _ _ _ (by decide) (.refl s)

@[simp] theorem endReq_path (rid status count detail : Nat) (body : Bytes) (s : State) :
    (endReq rid status count detail body s).path = s.path := Frame.same (endReq_frame rid status count detail body s).path rfl

@[simp] theorem endReq_cmp (rid status count detail : Nat) (body : Bytes) (s : State) :
    (endReq rid status count detail body s).cmp = s.cmp := Frame.same (endReq_frame rid status count detail body s).cmp rfl

@[simp] theorem failReq_path (rid status : Nat) (s : State) : (failReq rid status s).path = s.path := endReq_path _ _ _ _ _ s

@[simp] theorem failReq_cmp (rid status : Nat) (s : State) : (failReq rid status s).cmp = s.cmp := endReq_cmp _ _ _ _ _ s

theorem foldS_eq_self {α : Type} {l : List α} {f : α → State → State} (h : ∀ a, a ∈ l → ∀ u, f a u = u) (s : State) :
    foldS l f s = s := by
  induction l generalizing s with
  | nil => rfl
  | cons a t ih =>
    rw [foldS_cons, h a List.mem_cons_self]
    exact ih (fun b hb => h b (List.mem_cons_of_mem _ hb)) s

/-- With no descriptor of its own, a request's end completes none. -/
theorem endDescs_eq_self (hn : NoDescs s rid) (status : Nat) : endDescs (fun d => d.req == rid) status s = s := by
  refine foldS_eq_self (fun q hq u => foldS_eq_self (fun d hd => ?_) u) s
  exact absurd (by simpa using (List.mem_filter.1 hd).2) (hn q hq d (List.mem_filter.1 hd).1)

theorem stopWork_mem (hn : NoDescs s rid) (status : Nat) : (stopWork rid status s).mem = s.mem := by
  unfold stopWork
  split
  · rfl
  · have hk : NoDescs (killParcels (ownedBy s rid) s) rid := hn
    dsimp only
    rw [endDescs_eq_self hk, killParcels_mem]

/-- Memory changes only as the request's work stops. -/
theorem endReq_mem (hn : NoDescs s rid) (status count detail : Nat) (body : Bytes) :
    (endReq rid status count detail body s).mem = s.mem := by
  cases h : req? s rid with
  | none => rw [endReq, h]
  | some r =>
    have hf : Frame 6400 (stopWork rid status s) (endReq rid status count detail body s) := by
      rw [endReq_eq h]
      refine frame_dropReq _ _ (by decide) (frame_optS _ _ _ (by decide) (fun x u hu => ?_) ?_)
      · exact frame_postReceipt _ _ _ _ _ _ (by decide) hu
      refine frame_countStatus _ _ _ (by decide) (frame_whenS _ _ _ (by decide) (fun u hu => ?_) ?_)
      · exact frame_holdReceipt _ _ _ (by decide) hu
      exact frame_whenS _ _ _ (by decide) (fun u hu => frame_countClass _ _ _ _ (by decide) hu) (.refl _)
    exact (Frame.same hf.mem rfl).trans (stopWork_mem hn status)

/-- The requests that stay are those of another number. -/
theorem endReq_reqs (rid status count detail : Nat) (body : Bytes) (s : State) :
    (endReq rid status count detail body s).hxt.reqs = s.hxt.reqs.filter (fun r => r.rid != rid) := by
  cases h : req? s rid with
  | none =>
    rw [endReq, h]
    exact (List.filter_eq_self.2 fun r hr => by simpa using List.find?_eq_none.1 h r hr).symm
  | some r =>
    have hpost : ∀ (x : Sess) (b : Bytes) (u : State), (postReceipt x r.addr r.queue r.pm b u).hxt.reqs = u.hxt.reqs := by
      intro x b u
      unfold postReceipt
      split
      · rfl
      · rw [bump_hxt]
    have hopt : ∀ (o : Option Sess) (b : Bytes) (u : State),
        (optS o (fun x => postReceipt x r.addr r.queue r.pm b) u).hxt.reqs = u.hxt.reqs := by
      intro o b u
      cases o with
      | none => rfl
      | some x => exact hpost x b u
    have hwork : (closeWork r rid status (receiptFor r status count detail body) s).hxt.reqs = s.hxt.reqs := by
      rw [closeWork_hxt]
      cases isHeldAfter r status <;> rfl
    rw [endReq_eq h]
    exact congrArg (List.filter fun r : Req => r.rid != rid) ((hopt _ _ _).trans hwork)

theorem req?_endReq_self (rid status count detail : Nat) (body : Bytes) (s : State) :
    req? (endReq rid status count detail body s) rid = none := by
  rw [req?, endReq_reqs, List.find?_eq_none]
  exact fun r hr => by simpa using (List.mem_filter.1 hr).2

/-- Ending a request brings no other one in. -/
theorem req?_endReq_of_none {i : Nat} (h : req? s i = none) (rid status count detail : Nat) (body : Bytes) :
    req? (endReq rid status count detail body s) i = none := by
  rw [req?, endReq_reqs, List.find?_eq_none]
  exact fun r hr => List.find?_eq_none.1 h r (List.mem_filter.1 hr).1

/-- Requests ended one after another are gone. -/
theorem req?_foldS_failReq {l : List Req} {q : Req} (hq : q ∈ l) (status : Nat) (s : State) :
    req? (foldS l (fun x => failReq x.rid status) s) q.rid = none := by
  induction l generalizing s with
  | nil => cases hq
  | cons a t ih =>
    rcases List.mem_cons.1 hq with rfl | hq
    · exact foldS_keeps (fun u => req? u q.rid = none) t _ _ (fun x u hu => req?_endReq_of_none hu _ _ _ _ _)
        (req?_endReq_self _ _ _ _ _ s)
    · exact ih hq _

/-! ### Receipts of admitted envelopes -/

theorem failReq_receipted {r : Req} (h : req? s rid = some r) (status : Nat) :
    Receipted s (failReq rid status s) r (receiptFor r status 0 0 []) := endReq_receipted h status 0 0 []

/-- What the built-in paths hold has no part in a receipt. -/
theorem sameDesk_path (s : State) (p : Paths) : SameDesk s { s with path := p } := ⟨rfl, rfl, rfl, rfl, fun _ => rfl⟩

/-- A receipt speaks of what the request asked and of its admission alone. -/
theorem Receipted.of_req {u t : State} {r q : Req} {b : Bytes} (h : Receipted u t q b) (hr : q.rid = r.rid) (hs : q.sid = r.sid)
    (ha : q.addr = r.addr) (hp : q.pm = r.pm) (hq : q.queue = r.queue) : Receipted u t r b :=
  ⟨hr ▸ h.gone, by rw [← hs, ← ha, ← hp, ← hq]; exact h.sent⟩

theorem Admitted.rid_eq {type : Nat} {r : Req} (h : Admitted s rid type r) : r.rid = rid := req?_rid h.1

theorem Admitted.st_eq {type : Nat} {r : Req} (h : Admitted s rid type r) : r.st = .admitted := by
  obtain ⟨-, -, hst, -⟩ := h
  exact hst

theorem onAdmitted_of {type : Nat} {r : Req} (h : Admitted s rid type r) (f : Req → State → State) :
    onAdmitted rid type f s = f r s := by
  obtain ⟨hr, hty, hst, hl⟩ := h
  simp [onAdmitted, hr, hty, hst, hl]

end

end Sys2Proof.Machine
end

section
/-! PROOFS. ContextSessions: the statement on profiles and sessions, part by part (R163 to R165, R170, R173). -/
namespace Sys2Proof.Machine

/-! ### Sessions read and changed -/

section
variable {s : State} {h : Nat} {x : CtxS}

theorem ctxAt_handle (hx : ctxAt s h = some x) : x.handle = h := by simpa using List.find?_some hx

theorem ctxAt_congr {u : State} (hp : u.path.ctx = s.path.ctx) (k : Nat) : ctxAt u k = ctxAt s k := by unfold ctxAt; rw [hp]

/-- A session found under its handle, changed. -/
theorem ctxAt_onCtx_of (f : CtxS → CtxS) (hf : ∀ y, (f y).handle = y.handle) (hx : ctxAt s h = some x) :
    ctxAt (onCtx x.handle f s) h = some (f x) := by
  obtain rfl := ctxAt_handle hx
  have hmap : ctxAt (onCtx x.handle f s) x.handle = (ctxAt s x.handle).map f :=
    find?_updFirst (fun y hy => by simpa [hf] using hy) s.path.ctx
  rw [hmap, hx, Option.map_some]

/-- An element that fails `q` and is changed into one that still fails it is of no account to a search for `q`. -/
theorem find?_updFirst_of_not {α : Type} {p q : α → Bool} {f : α → α}
    (hf : ∀ a, p a = true → q a = false ∧ q (f a) = false) (l : List α) : (updFirst p f l).find? q = l.find? q := by
  induction l with
  | nil => rfl
  | cons a t ih =>
    unfold updFirst
    split
    · next hp => rw [List.find?_cons, List.find?_cons, (hf a hp).1, (hf a hp).2]
    · rw [List.find?_cons, List.find?_cons, ih]

theorem ctxAt_onCtx_ne (f : CtxS → CtxS) (hf : ∀ y, (f y).handle = y.handle) {k j : Nat} (hj : j ≠ k) (s : State) :
    ctxAt (onCtx k f s) j = ctxAt s j := by
  refine find?_updFirst_of_not (fun y hy => ?_) s.path.ctx
  simp only [beq_iff_eq] at hy
  simp [hf, hy, Ne.symm hj]

end

/-! ### Profiles (R163) -/

section
variable {α : Type} {k j : α → Bool} {p : α}

/-- The one element that satisfies `k`, put in the place of any other. -/
theorem find?_replaced_self (hp : k p = true) (l : List α) : (l.filter (fun q => !k q) ++ [p]).find? k = some p := by
  have hnone : (l.filter (fun q => !k q)).find? k = none :=
    List.find?_eq_none.2 fun q hq => by simpa using (List.mem_filter.1 hq).2
  rw [List.find?_append, hnone, Option.none_or, List.find?_cons_of_pos hp]

/-- It is of no account to a search that nothing satisfying `k` answers. -/
theorem find?_replaced_other (hp : k p = true) (hkj : ∀ q, k q = true → j q = false) (l : List α) :
    (l.filter (fun q => !k q) ++ [p]).find? j = l.find? j := by
  rw [List.find?_append, List.find?_cons_of_neg (by simp [hkj p hp]), List.find?_nil, Option.or_none]
  induction l with
  | nil => rfl
  | cons q t ih =>
    cases hq : k q with
    | true => rw [List.filter_cons_of_neg (by simp [hq]), List.find?_cons_of_neg (by simp [hkj q hq]), ih]
    | false => rw [List.filter_cons_of_pos (by simp [hq]), List.find?_cons, List.find?_cons, ih]

end

section
variable {s : State} {rid : Nat} {r : Req}

/-- A profile is a tenant's, of a number. -/
def isProf (tn n : Nat) (p : Prof) : Bool := p.tenant == tn && p.num == n

/-- A profile put in the place of any the tenant had under the number. -/
def enterProf (tn n : Nat) (p : Prof) (s : State) : State :=
  { s with path := { s.path with profs := s.path.profs.filter (fun q => !isProf tn n q) ++ [p] } }

/-- A part of a profile taken in: its profile stands, the others and the sessions are as before, and a receipt says so. -/
theorem endReq_enterProf (h : req? s rid = some r) {tn n : Nat} {p : Prof} (hp : isProf tn n p = true) :
    let t := endReq rid 0 0 0 [] (enterProf tn n p s)
    Receipted s t r (receiptFor r 0 0 0 []) ∧ prof? t tn n = some p ∧
      (∀ a b, ¬(a = tn ∧ b = n) → prof? t a b = prof? s a b) ∧ t.path.ctx = s.path.ctx := by
  have hprof : ∀ a b, prof? (endReq rid 0 0 0 [] (enterProf tn n p s)) a b = prof? (enterProf tn n p s) a b := fun a b => by
    unfold prof?; rw [endReq_path]
  refine ⟨(endReq_receipted (s := enterProf tn n p s) h 0 0 0 []).of_sameDesk (sameDesk_path s _), ?_, fun a b hab => ?_, ?_⟩
  · exact (hprof tn n).trans (find?_replaced_self (k := isProf tn n) hp s.path.profs)
  · refine (hprof a b).trans (find?_replaced_other (k := isProf tn n) hp (fun q hq => ?_) s.path.profs)
    simp only [isProf, Bool.and_eq_true, beq_iff_eq] at hq
    obtain ⟨rfl, rfl⟩ := hq
    simpa using fun ht hn => hab ⟨ht.symm, hn.symm⟩
  · rw [endReq_path]; rfl

theorem exec_ctxProfile (h : Admitted s rid 0x0201 r) : exec (.ctxProfile rid) s = .next (setProfile r s) :=
  congrArg Host.Outcome.next (onAdmitted_of h _)

theorem exec_ctxProfile_first (h : Admitted s rid 0x0201 r) (hb : fieldLE r.body 0 1 = 0) :
    ∃ t, exec (.ctxProfile rid) s = .next t ∧ Receipted s t r (receiptFor r 0 0 0 []) ∧
      prof? t r.tenant r.obj = some ⟨r.tenant, r.obj, slice r.body 0 16, []⟩ ∧
      (∀ a b, ¬(a = r.tenant ∧ b = r.obj) → prof? t a b = prof? s a b) ∧ t.path.ctx = s.path.ctx := by
  refine ⟨_, exec_ctxProfile h, ?_⟩
  rw [setProfile, if_pos hb, h.rid_eq]
  exact endReq_enterProf h.1 (by simp [isProf])

theorem exec_ctxProfile_rotation (h : Admitted s rid 0x0201 r) {p : Prof} (hb : fieldLE r.body 0 1 ≠ 0)
    (hp : prof? s r.tenant r.obj = some p) :
    ∃ t, exec (.ctxProfile rid) s = .next t ∧ Receipted s t r (receiptFor r 0 0 0 []) ∧
      prof? t r.tenant r.obj = some { p with rots := smPut p.rots (fieldLE r.body 0 1 - 1) (r.body.drop 16) } ∧
      (∀ a b, ¬(a = r.tenant ∧ b = r.obj) → prof? t a b = prof? s a b) ∧ t.path.ctx = s.path.ctx := by
  have hk : isProf r.tenant r.obj p = true := List.find?_some hp
  refine ⟨_, exec_ctxProfile h, ?_⟩
  rw [setProfile, if_neg hb, hp, h.rid_eq]
  exact endReq_enterProf (p := { p with rots := smPut p.rots (fieldLE r.body 0 1 - 1) (r.body.drop 16) }) h.1 hk

end

end Sys2Proof.Machine
end

section
/-! PROOFS. ContextOpening: CTX_OPEN on one node (R164, R165). -/
namespace Sys2Proof.Machine

section
variable {s : State} {rid : Nat} {r : Req}

theorem exec_ctxOpen (h : Admitted s rid 0x0202 r) : exec (.ctxOpen rid) s = .next (openSession r s) :=
  congrArg Host.Outcome.next (onAdmitted_of h _)

/-- Without a ready profile an open ends with NO_SESSION. -/
theorem exec_ctxOpen_unready (h : Admitted s rid 0x0202 r) (hp : (prof? s r.tenant r.obj).filter profReady = none) :
    ∃ t, exec (.ctxOpen rid) s = .next t ∧ Receipted s t r (receiptFor r 0x13 0 0 []) ∧ t.path = s.path := by
  have hs : openSession r s = failReq r.rid 0x13 s := by rw [openSession, hp]
  rw [exec_ctxOpen h, hs, h.rid_eq]
  exact ⟨_, rfl, failReq_receipted h.1 0x13, failReq_path rid 0x13 s⟩

/-! ### The handle and the place -/

theorem freshHandle_snd (s : State) : (freshHandle s).2 = { s with free := s.free + 1 } := by
  unfold freshHandle
  dsimp only
  cases ((upFrom (Config.freeNat (draw s).1) 2048).map (fun k => k % 2 ^ 32)).find? (fun k => (ctxAt s k).isNone) <;> rfl

/-- No span is tried in T3 before all fit in T1. -/
theorem placeSpans_zero {sp : Nat} (hsp : 0 < sp) (k tn : Nat) (p : Bytes) (s : State) :
    placeSpans k tn p sp s 0 = (placeT1 (ctxLen p sp) 16384 tn 1 k s).map (fun q => (0, q.1, q.2)) :=
  if_neg (Nat.ne_of_lt hsp)

theorem fitSession_placed {sp k tn a : Nat} {p : Bytes} {u : State} (hsp : 0 < sp)
    (hp : placeT1 (ctxLen p sp) 16384 tn 1 k s = some (a, u)) : fitSession k tn p sp s = some (0, a, u) := by
  have hz : placeSpans k tn p sp s 0 = some (0, a, u) := by rw [placeSpans_zero hsp, hp]; rfl
  unfold fitSession
  split <;> simp [upFrom, hz]

theorem fitSession_full {sp k tn : Nat} {p : Bytes} (hsp : 0 < sp) (hf : mapFallback s.cmp.map = false)
    (hp : placeT1 (ctxLen p sp) 16384 tn 1 k s = none) : fitSession k tn p sp s = none := by
  have hz : placeSpans k tn p sp s 0 = none := by rw [placeSpans_zero hsp, hp]; rfl
  simp [fitSession, hf, upFrom, hz]

/-- A session that its tenant's quota and this node leave room for is placed, or finds no place. -/
structure Opens (s : State) (x : CtxS) : Prop where
  quota : (s.path.ctx.filter (fun y => y.tenant == x.tenant && !y.closing)).length < dirNum s (ent (0x3100 + x.tenant) 0xB)
  under : overT1 s x.tenant (ctxLen x.prof.par (x.cap / 8192)) = false
  spans : ownRole s roleSpans = true
  room : s.path.ctx.length < 1024
  fresh : ctxAt s x.handle = none
  capacity : 0 < x.cap / 8192

section
variable {x : CtxS}

theorem openLocal_placed (h : Opens s x) {a : Nat} {u : State}
    (hp : placeT1 (ctxLen x.prof.par (x.cap / 8192)) 16384 x.tenant 1 x.handle s = some (a, u)) :
    openLocal x s = (0, 0, enterCtx { x with base := a } u) := by
  have hfit := fitSession_placed h.capacity hp
  obtain ⟨hq, hu, hr, hl, hn, -⟩ := h
  simp [openLocal, Nat.not_le.2 hq, Nat.not_le.2 hl, hu, hr, hn, hfit]

theorem openLocal_full (h : Opens s x) (hf : mapFallback s.cmp.map = false)
    (hp : placeT1 (ctxLen x.prof.par (x.cap / 8192)) 16384 x.tenant 1 x.handle s = none) :
    openLocal x s = (0x51, 0, bump (ent 0x2010 0xF) s) := by
  have hfit := fitSession_full h.capacity hf hp
  obtain ⟨hq, hu, hr, hl, hn, -⟩ := h
  simp [openLocal, Nat.not_le.2 hq, Nat.not_le.2 hl, hu, hr, hn, hfit]

end

/-! ### A session of one member -/

/-- The capacity of an open: whole spans (Table 7-2). -/
def openCap (r : Req) : Nat := ceilDiv (fieldLE r.body 0 4) 8192 * 8192

/-- The session that an open on this node alone asks for, not yet placed. -/
def soloCtx (s : State) (r : Req) (p : Prof) : CtxS :=
  newCtx (freshHandle s).1 r.tenant p (openCap r) (dflt (fieldLE r.body 4 1) (dirNum s (ent 0xC020 1))) (fieldLE r.body 5 1 == 1)
    [ownPost s]

/-- What the statement asks of the state holds once a handle has been drawn. -/
theorem opens_soloCtx {p : Prof}
    (hq : (s.path.ctx.filter (fun y => y.tenant == r.tenant && !y.closing)).length < dirNum s (ent (0x3100 + r.tenant) 0xB))
    (hu : overT1 (freshHandle s).2 r.tenant (ctxLen p.par (openCap r / 8192)) = false) (hr : ownRole s roleSpans = true)
    (hl : s.path.ctx.length < 1024) (hn : ctxAt s (freshHandle s).1 = none) (hc : 0 < openCap r) :
    Opens (freshHandle s).2 (soloCtx s r p) := by
  have hcap : 0 < openCap r / 8192 := by unfold openCap at *; omega
  rw [freshHandle_snd] at hu ⊢
  exact ⟨hq, hu, hr, hl, hn, hcap⟩

section
variable {p : Prof} {v : State}

theorem openSession_refused (hp : (prof? s r.tenant r.obj).filter profReady = some p) (hm : fieldLE r.body 6 1 = 0)
    (hv : openLocal (soloCtx s r p) (freshHandle s).2 = (0x51, 0, v)) : openSession r s = failReq r.rid 0x51 v := by
  unfold soloCtx openCap at hv
  simp only [openSession, hp, hm, if_true, hv]

/-- The request as it stands while an open runs on this node alone. -/
def opening (k : Nat) (r : Req) : Req := { r with st := .executing, acc := [k, 0], waits := [] }

theorem openSession_entered (hp : (prof? s r.tenant r.obj).filter profReady = some p) (hm : fieldLE r.body 6 1 = 0)
    (hv : openLocal (soloCtx s r p) (freshHandle s).2 = (0, 0, v)) (ho : ownPost v = ownPost s) :
    openSession r s = openStep r.rid (onReq r.rid (opening (freshHandle s).1) v) := by
  have hothers : [ownPost s].filter (fun m => m != ownPost v) = [] := by simp [ho]
  unfold soloCtx openCap at hv
  simp only [openSession, hp, hm, if_true, hv, hothers]
  rfl

theorem req?_opening (hr : req? v rid = some r) (k : Nat) :
    req? (onReq rid (opening k) v) rid = some (opening k r) := by
  rw [req?_onReq_self (f := opening k) (fun _ => rfl), hr]
  rfl

/-- With nobody to wait for, the open ends with its handle and no spilled span. -/
theorem openStep_opening (hr : req? v rid = some r) (k : Nat) :
    openStep rid (onReq rid (opening k) v) =
      endReq rid 0 1 0 (leBytes 4 k ++ leBytes 1 0 ++ zeros 3 ++ leBytes 4 0) (onReq rid (opening k) v) := by
  rw [openStep, req?_opening hr]
  rfl

theorem openStep_opening_receipted (hr : req? v rid = some r) (hst : r.st = .admitted) (hd : SameDesk s v) (k : Nat) :
    Receipted s (openStep rid (onReq rid (opening k) v)) r
      (receiptFor r 0 1 0 (leBytes 4 k ++ leBytes 1 0 ++ zeros 3 ++ leBytes 4 0)) := by
  have hdesk : SameDesk s (onReq rid (opening k) v) := hd.trans ⟨rfl, rfl, rfl, rfl, fun _ => rfl⟩
  have hrec := (endReq_receipted (req?_opening hr k) 0 1 0
    (leBytes 4 k ++ leBytes 1 0 ++ zeros 3 ++ leBytes 4 0)).of_sameDesk hdesk
  have he : ∀ b, receiptFor (opening k r) 0 1 0 b = receiptFor r 0 1 0 b := fun b => by simp [receiptFor, opening, hst]
  rw [he] at hrec
  rw [openStep_opening hr]
  exact hrec.of_req rfl rfl rfl rfl rfl

end

/-! ### What entering a session changes -/

theorem enterCtx_ctx (x : CtxS) (s : State) : (enterCtx x s).path.ctx = s.path.ctx ++ [x] := rfl

theorem enterCtx_cmp (x : CtxS) (s : State) : (enterCtx x s).cmp = s.cmp := rfl

theorem enterCtx_keeps (x : CtxS) (s : State) : DirKeeps (fun j => j = ent 0xC050 3) s (enterCtx x s) := by
  have h : DirKeeps (fun j => j = ent 0xC050 3) s { s with path := { s.path with ctx := s.path.ctx ++ [x] } } := .of_dir_eq rfl
  exact h.set rfl _

/-- A placement after a draw changes the placements and the count of draws alone. -/
theorem placed_frame {len al tn k n a : Nat} {u : State} (hp : placeT1 len al tn k n (freshHandle s).2 = some (a, u)) :
    Frame 1081344 s u :=
  frame_placeT1 _ _ _ _ _ _ (by decide) (frame_freshHandle s (by decide) (.refl s)) _ hp

theorem exec_ctxOpen_entered (h : Admitted s rid 0x0202 r) {p : Prof} {a : Nat} {u : State}
    (hp : (prof? s r.tenant r.obj).filter profReady = some p) (hm : fieldLE r.body 6 1 = 0)
    (ho : Opens (freshHandle s).2 (soloCtx s r p))
    (hpl : placeT1 (ctxLen p.par (openCap r / 8192)) 16384 r.tenant 1 (freshHandle s).1 (freshHandle s).2 = some (a, u)) :
    ∃ t, exec (.ctxOpen rid) s = .next t ∧
      Receipted s t r (receiptFor r 0 1 0 (leBytes 4 (freshHandle s).1 ++ leBytes 1 0 ++ zeros 3 ++ leBytes 4 0)) ∧
      t.cmp = u.cmp ∧ t.path.ctx = s.path.ctx ++ [{ soloCtx s r p with base := a }] ∧ (NoDescs s rid → t.mem = s.mem) := by
  have hu := placed_frame hpl
  have hctx := enterCtx_ctx { soloCtx s r p with base := a } u
  have hcmp := enterCtx_cmp { soloCtx s r p with base := a } u
  have hv : Frame 1150976 s (enterCtx { soloCtx s r p with base := a } u) :=
    frame_enterCtx _ _ (by decide) (frame_placeT1 _ _ _ _ _ _ (by decide) (frame_freshHandle s (by decide) (.refl s)) _ hpl)
  have hdir : DirKeeps (fun j => j = ent 0xC050 3) s (enterCtx { soloCtx s r p with base := a } u) :=
    (DirKeeps.of_dir_eq (Frame.same hu.dir rfl)).trans (enterCtx_keeps _ u)
  have hstep := openSession_entered hp hm (openLocal_placed ho hpl) (hdir.num (by decide))
  generalize enterCtx { soloCtx s r p with base := a } u = v at *
  have hdesk : SameDesk s v :=
    .of_keeps (Frame.same hv.hxt rfl) (Frame.same hv.clk rfl) hdir (by decide) (fun q => by unfold ent; omega)
  have hreq : req? v rid = some r := (req?_congr (Frame.same hv.hxt rfl) rid).trans h.1
  rw [h.rid_eq] at hstep
  refine ⟨_, (exec_ctxOpen h).trans (congrArg _ hstep), openStep_opening_receipted hreq h.st_eq hdesk _, ?_, ?_, fun hn => ?_⟩
  all_goals rw [openStep_opening hreq]
  · rw [endReq_cmp]; exact hcmp
  · rw [endReq_path, ← Frame.same hu.path rfl]; exact hctx
  · have hnv : NoDescs (onReq rid (opening (freshHandle s).1) v) rid := by
      unfold NoDescs; rw [onReq_par, Frame.same hv.par rfl]; exact hn
    rw [endReq_mem hnv]; exact Frame.same hv.mem rfl

theorem exec_ctxOpen_full (h : Admitted s rid 0x0202 r) {p : Prof} (hp : (prof? s r.tenant r.obj).filter profReady = some p)
    (hm : fieldLE r.body 6 1 = 0) (ho : Opens (freshHandle s).2 (soloCtx s r p)) (hf : mapFallback s.cmp.map = false)
    (hpl : placeT1 (ctxLen p.par (openCap r / 8192)) 16384 r.tenant 1 (freshHandle s).1 (freshHandle s).2 = none) :
    ∃ t, exec (.ctxOpen rid) s = .next t ∧ Receipted s t r (receiptFor r 0x51 0 0 []) ∧ t.path = s.path ∧
      t.cmp = s.cmp := by
  have hsnd := freshHandle_snd s
  have hstep := openSession_refused hp hm (openLocal_full ho (by rw [hsnd]; exact hf) hpl)
  rw [hsnd, h.rid_eq] at hstep
  have hdraw : DirKeeps (fun j => j = ent 0x2010 0xF) s { s with free := s.free + 1 } := .of_dir_eq rfl
  have hdesk : SameDesk s (bump (ent 0x2010 0xF) { s with free := s.free + 1 }) :=
    .of_keeps (P := fun j => j = ent 0x2010 0xF) rfl rfl (hdraw.bump rfl) (by decide) (fun q => by unfold ent; omega)
  have hreq : req? (bump (ent 0x2010 0xF) { s with free := s.free + 1 }) rid = some r := h.1
  refine ⟨_, (exec_ctxOpen h).trans (congrArg _ hstep), (failReq_receipted hreq 0x51).of_sameDesk hdesk, ?_, ?_⟩
  · rw [failReq_path]; rfl
  · rw [failReq_cmp]; rfl

end

end Sys2Proof.Machine
end

section
/-! PROOFS. ContextUse: closing, appending to and folding a session that its home serves (R164, R170, R173), and the statement
on profiles and sessions. -/
namespace Sys2Proof.Machine

/-- A request's session stands here under its handle, open and undisputed, and this node is its home (R164, R380). -/
structure Serves (s : State) (r : Req) (x : CtxS) : Prop where
  owned : ctx? s r.tenant r.obj = some x
  found : ctxAt s r.obj = some x
  opened : x.closing = false
  home : isHome s x = true
  undisputed : s.cmp.dCtx.contains x.handle = false

section
variable {s : State} {rid : Nat} {r : Req} {x : CtxS}

theorem Serves.handle (h : Serves s r x) : x.handle = r.obj := ctxAt_handle h.found

/-- A request of a session served here runs, unless the session is broken and the request does not close it. -/
theorem onCtxReq_of {type : Nat} (ha : Admitted s rid type r) (h : Serves s r x) (f : Req → CtxS → State → State) :
    onCtxReq rid type f s = if x.broken && type != 0x0203 then failReq rid 0x41 s else f r x s := by
  obtain ⟨ho, -, hc, hh, hd⟩ := h
  have hopen : (x.closing || !isHome s x) = false := by simp [hc, hh]
  rw [onCtxReq, onAdmitted_of ha, ho]
  simp only [hopen, hd, Bool.false_eq_true, if_false]

/-- A broken session serves nothing but its closing (R183). -/
theorem onCtxReq_broken {type : Nat} (ha : Admitted s rid type r) (h : Serves s r x) (hty : type ≠ 0x0203)
    (hb : x.broken = true) (f : Req → CtxS → State → State) : onCtxReq rid type f s = failReq rid 0x41 s := by
  rw [onCtxReq_of ha h, if_pos (by simp [hb, hty])]

theorem onCtxReq_whole {type : Nat} (ha : Admitted s rid type r) (h : Serves s r x) (hb : x.broken = false)
    (f : Req → CtxS → State → State) : onCtxReq rid type f s = f r x s := by
  rw [onCtxReq_of ha h, if_neg (by simp [hb])]

/-! ### Closing (R164) -/

/-- A closed session: its other envelopes ended, its members told, its receipt sent. -/
def closeCtx (rid : Nat) (r : Req) (x : CtxS) (s : State) : State :=
  endReq rid 0 0 0 [] (closeMembers x (closeLocal x.handle (abortOthers rid r.tenant x.handle s)))

theorem exec_ctxClose (ha : Admitted s rid 0x0203 r) (h : Serves s r x) :
    exec (.ctxClose rid) s = .next (movePaths (closeCtx rid r x s)) :=
  congrArg Host.Outcome.next ((onCtxReq_of ha h _).trans (if_neg (by simp)))

/-- Closing ends the session's appends and attends. -/
theorem req?_closeCtx_of_others (h : Serves s r x) {q : Req} (hq : q ∈ s.hxt.reqs) (ht : q.tenant = r.tenant)
    (ho : q.obj = r.obj) (hty : q.type = 0x0204 ∨ q.type = 0x0205) : req? (closeCtx rid r x s) q.rid = none := by
  by_cases hr : q.rid = rid
  · rw [hr]; exact req?_endReq_self _ _ _ _ _ _
  · have habort : req? (abortOthers rid r.tenant x.handle s) q.rid = none :=
      req?_foldS_failReq (List.mem_filter.2 ⟨hq, by simp [hr, ht, ho, h.handle, hty]⟩) 0x60 s
    have hf : Frame 1134592 (abortOthers rid r.tenant x.handle s)
        (closeMembers x (closeLocal x.handle (abortOthers rid r.tenant x.handle s))) :=
      frame_closeMembers _ _ (by decide) (frame_closeLocal _ _ (by decide) (.refl _))
    exact req?_endReq_of_none ((req?_congr (Frame.same hf.hxt rfl) q.rid).trans habort) _ _ _ _ _

theorem ctxAt_closeCtx (h : Serves s r x) : ctxAt (closeCtx rid r x s) r.obj = some { x with closing := true } := by
  have hpath : (closeCtx rid r x s).path = (onCtx x.handle (fun y => { y with closing := true })
      (abortOthers rid r.tenant x.handle s)).path := by
    rw [closeCtx, endReq_path, Frame.same (frame_closeMembers (m0 := 1064960) x _ (by decide) (.refl _)).path rfl, closeLocal,
      countCtx, dirSet_path]
  have habort : (abortOthers rid r.tenant x.handle s).path = s.path :=
    Frame.same (frame_abortOthers (m0 := 6648) _ _ _ _ (by decide) (.refl s)).path rfl
  rw [ctxAt_congr (congrArg Paths.ctx hpath)]
  exact ctxAt_onCtx_of (fun y => { y with closing := true }) (fun _ => rfl)
    ((ctxAt_congr (congrArg Paths.ctx habort) _).trans h.found)

/-! ### Appending (R170) -/

theorem exec_ctxAppend_broken (ha : Admitted s rid 0x0204 r) (h : Serves s r x) (hb : x.broken = true) :
    ∃ t, exec (.ctxAppend rid) s = .next t ∧ Receipted s t r (receiptFor r 0x41 0 0 []) ∧ t.path = s.path := by
  rw [show exec (.ctxAppend rid) s = .next (failReq rid 0x41 s) from
    congrArg Host.Outcome.next (onCtxReq_broken ha h (by decide) hb _)]
  exact ⟨_, rfl, failReq_receipted ha.1 0x41, failReq_path rid 0x41 s⟩

theorem exec_ctxAppend_whole (ha : Admitted s rid 0x0204 r) (h : Serves s r x) (hb : x.broken = false) :
    exec (.ctxAppend rid) s = .next (appendToken r x s) :=
  congrArg Host.Outcome.next (onCtxReq_whole ha h hb _)

theorem exec_ctxAppend_full (ha : Admitted s rid 0x0204 r) (h : Serves s r x) (hb : x.broken = false)
    (hfull : x.cap * x.members.length ≤ x.accepted) :
    ∃ t, exec (.ctxAppend rid) s = .next t ∧ Receipted s t r (receiptFor r 0x51 0 0 []) ∧ t.path = s.path := by
  rw [exec_ctxAppend_whole ha h hb, appendToken, if_pos hfull, ha.rid_eq]
  exact ⟨_, rfl, failReq_receipted ha.1 0x51, failReq_path rid 0x51 s⟩

theorem exec_ctxAppend_busy (ha : Admitted s rid 0x0204 r) (h : Serves s r x) (hb : x.broken = false)
    (hroom : x.accepted < x.cap * x.members.length) (hbusy : appendBusy s x = true) : exec (.ctxAppend rid) s = .next s := by
  rw [exec_ctxAppend_whole ha h hb, appendToken, if_neg (Nat.not_le.2 hroom), if_pos hbusy]

/-- A token kept at the next position, and the position counted as accepted. -/
def keepToken (r : Req) (x : CtxS) (s : State) : State :=
  onCtx x.handle (fun y => { y with accepted := x.accepted + 1 })
    (onCtx x.handle (fun y => { y with toks := smPut y.toks x.accepted r.body }) s)

theorem ctxAt_keepToken (h : Serves s r x) :
    ctxAt (keepToken r x s) r.obj = some { x with toks := smPut x.toks x.accepted r.body, accepted := x.accepted + 1 } := by
  have hput := ctxAt_onCtx_of (fun y => { y with toks := smPut y.toks x.accepted r.body }) (fun _ => rfl) h.found
  exact ctxAt_onCtx_of (fun y => { y with accepted := x.accepted + 1 }) (fun _ => rfl) hput

theorem ctxAt_keepToken_ne (h : Serves s r x) {k : Nat} (hk : k ≠ r.obj) : ctxAt (keepToken r x s) k = ctxAt s k := by
  rw [← h.handle] at hk
  exact (ctxAt_onCtx_ne (fun y => { y with accepted := x.accepted + 1 }) (fun _ => rfl) hk _).trans
    (ctxAt_onCtx_ne (fun y => { y with toks := smPut y.toks x.accepted r.body }) (fun _ => rfl) hk s)

theorem exec_ctxAppend_kept (ha : Admitted s rid 0x0204 r) (h : Serves s r x) (hb : x.broken = false)
    (hroom : x.accepted < x.cap * x.members.length) (hbusy : appendBusy s x = false) (hh : holds s x x.accepted = true) :
    ∃ t, exec (.ctxAppend rid) s = .next t ∧ Receipted s t r (receiptFor r 0 1 0 (leBytes 8 x.accepted)) ∧
      ctxAt t r.obj = some { x with toks := smPut x.toks x.accepted r.body, accepted := x.accepted + 1 } ∧
      (∀ k, k ≠ r.obj → ctxAt t k = ctxAt s k) ∧ (NoDescs s rid → t.mem = s.mem) := by
  have hstep : appendToken r x s = endReq rid 0 1 0 (leBytes 8 x.accepted) (keepToken r x s) := by
    rw [appendToken, if_neg (Nat.not_le.2 hroom), if_neg (by simp [hbusy]), if_pos hh, acceptToken, ha.rid_eq]
    rfl
  have hreq : req? (keepToken r x s) rid = some r := ha.1
  have hctx : ∀ k, ctxAt (endReq rid 0 1 0 (leBytes 8 x.accepted) (keepToken r x s)) k = ctxAt (keepToken r x s) k :=
    ctxAt_congr (by rw [endReq_path])
  rw [exec_ctxAppend_whole ha h hb, hstep]
  refine ⟨_, rfl, (endReq_receipted hreq 0 1 0 _).of_sameDesk (sameDesk_path s _), ?_, fun k hk => ?_, fun hn => ?_⟩
  · rw [hctx, ctxAt_keepToken h]
  · rw [hctx, ctxAt_keepToken_ne h hk]
  · have hnk : NoDescs (keepToken r x s) rid := hn
    rw [endReq_mem hnk]; rfl

end

/-! ### Folding (R173) -/

section
variable {s : State} {k : Nat} {x : CtxS}

theorem exec_tokenFoldDone (hx : ctxAt s k = some x) :
    exec (.tokenFoldDone k) s = .next (if x.folding && stacksFree s then movePaths (foldDone x s) else s) := by
  simp only [exec, execTokenFoldDone, hx]

/-- With no span in T3 a fold writes no sketches there. -/
theorem spillSketches_unspilled (hz : x.spilled = 0) (ps : List Nat) (s : State) : spillSketches x ps s = s := by
  have hnone : ps.filter (isSpilled x) = [] := by simp [isSpilled, hz]
  unfold spillSketches
  rw [hnone]
  exact foldS_eq_self (fun _ _ _ => rfl) s

theorem entMax_folds : entMax (ent 0xC050 8) = 2 ^ 64 - 1 := by decide +kernel

theorem foldDone_unspilled (hx : ctxAt s k = some x) (hz : x.spilled = 0) :
    ctxAt (foldDone x s) k = some { x with folded := x.applied, folding := false } ∧ (foldDone x s).mem = s.mem ∧
      dirNum (foldDone x s) (ent 0xC050 8) = min (2 ^ 64 - 1) (dirNum s (ent 0xC050 8) + 1) := by
  unfold foldDone
  dsimp only
  rw [spillSketches_unspilled hz]
  refine ⟨?_, rfl, ?_⟩
  · exact (ctxAt_congr (congrArg Paths.ctx (bump_path _ _)) k).trans
      (ctxAt_onCtx_of (fun y => { y with folded := y.applied, folding := false }) (fun _ => rfl) hx)
  · rw [dirNum_bump, if_pos rfl, entMax_folds]
    rfl

end

/-- Settles O38: each command is an update of its one profile or session and the end of its request. -/
theorem sessionsOpenAppendFoldClose : Obligations.SessionsOpenAppendFoldClose := by
  intro s rid r
  refine ⟨fun ha => ⟨exec_ctxProfile_first ha, fun p => exec_ctxProfile_rotation ha⟩,
    fun ha => ⟨exec_ctxOpen_unready ha, ?_⟩, ?_, ?_⟩
  · intro p hp hm cap f hq hu hr hl hn hc
    have ho : Opens (freshHandle s).2 (soloCtx s r p) := opens_soloCtx hq hu hr hl hn hc
    exact ⟨fun a u => exec_ctxOpen_entered ha hp hm ho, exec_ctxOpen_full ha hp hm ho⟩
  · intro x howned hfound hopen hhome hdisp
    have h : Serves s r x := ⟨howned, hfound, hopen, hhome, hdisp⟩
    refine ⟨fun ha => ?_, fun ha => exec_ctxAppend_broken ha h, fun ha hb => ?_⟩
    · exact ⟨_, exec_ctxClose ha h, req?_endReq_self _ _ _ _ _ _, fun q => req?_closeCtx_of_others h,
        fun _ => ctxAt_closeCtx h⟩
    · exact ⟨exec_ctxAppend_full ha h hb, exec_ctxAppend_busy ha h hb, exec_ctxAppend_kept ha h hb⟩
  · intro k x hx
    refine ⟨fun hwait => ?_, fun hf hfree hz => ?_⟩
    · rw [exec_tokenFoldDone hx, if_neg (by rcases hwait with hw | hw <;> simp [hw])]
    · obtain ⟨hctx, hmem, hcount⟩ := foldDone_unspilled hx hz
      exact ⟨_, (exec_tokenFoldDone hx).trans (by rw [if_pos (by simp [hf, hfree])]), hctx, hmem, hcount⟩

end Sys2Proof.Machine
end

section
/-! PROOFS. AttendParts: the parts of attends as the read paths move (R175, R178, R182): where no other part stands, none appears,
and what a part holds of its tail stays. -/
namespace Sys2Proof.Machine

/-- Every part here is a member's part of an attend, its answer held or not, and holds the bytes `g`. -/
def MembersOnly (g : SMap Bytes) (s : State) : Prop := ∀ q, q ∈ s.path.parts → q.kind % 8 = 2 ∧ q.got = g

theorem mem_updFirst {α : Type} {p : α → Bool} {f : α → α} {l : List α} {b : α} (hb : b ∈ updFirst p f l) :
    b ∈ l ∨ ∃ a, a ∈ l ∧ b = f a := by
  induction l with
  | nil => exact .inl hb
  | cons a t ih =>
    unfold updFirst at hb
    split at hb
    · rcases List.mem_cons.1 hb with rfl | hb
      · exact .inr ⟨a, List.mem_cons_self, rfl⟩
      · exact .inl (List.mem_cons_of_mem _ hb)
    · rcases List.mem_cons.1 hb with rfl | hb
      · exact .inl List.mem_cons_self
      · exact (ih hb).imp (List.mem_cons_of_mem _) fun ⟨c, hc, e⟩ => ⟨c, List.mem_cons_of_mem _ hc, e⟩

section
variable {g : SMap Bytes} {s t : State}

/-! ### Parts kept, dropped and changed -/

theorem MembersOnly.of_parts (h : MembersOnly g s) (e : t.path.parts = s.path.parts) : MembersOnly g t :=
  fun q hq => h q (e ▸ hq)

theorem MembersOnly.of_path (h : MembersOnly g s) (e : t.path = s.path) : MembersOnly g t := h.of_parts (by rw [e])

theorem MembersOnly.when (h : MembersOnly g s) {c : Bool} {f : State → State} (hf : MembersOnly g (f s)) :
    MembersOnly g (whenS c f s) := by
  cases c with
  | false => exact h
  | true => exact hf

theorem MembersOnly.upd (h : MembersOnly g s) {p : Part → Bool} {f : Part → Part}
    (hf : ∀ q, (f q).kind % 8 = q.kind % 8 ∧ (f q).got = q.got) (e : t.path.parts = updFirst p f s.path.parts) :
    MembersOnly g t := by
  intro q hq
  rcases mem_updFirst (e ▸ hq) with hq | ⟨a, ha, rfl⟩
  · exact h q hq
  · obtain ⟨hk, hg⟩ := hf a
    rw [hk, hg]
    exact h a ha

theorem MembersOnly.afterDropPart (h : MembersOnly g s) (i : Nat) : MembersOnly g (dropPart i s) :=
  fun q hq => h q (List.mem_filter.1 hq).1

theorem MembersOnly.afterPruneParts (h : MembersOnly g s) : MembersOnly g (pruneParts s) :=
  foldS_keeps (MembersOnly g) _ _ s (fun p _ hu => hu.afterDropPart p.id) h

theorem MembersOnly.afterOnReq (h : MembersOnly g s) (rid : Nat) (f : Req → Req) : MembersOnly g (onReq rid f s) :=
  h.of_path rfl

theorem MembersOnly.afterEndReq (h : MembersOnly g s) (rid status count detail : Nat) (body : Bytes) :
    MembersOnly g (endReq rid status count detail body s) := h.of_path (endReq_path _ _ _ _ _ s)

theorem MembersOnly.afterAddCause (h : MembersOnly g s) (rid c : Nat) : MembersOnly g (addCause rid c s) :=
  h.upd (f := fun p => { p with cause := p.cause ||| c }) (fun _ => ⟨rfl, rfl⟩) rfl

/-! ### Answers at the home -/

theorem MembersOnly.afterMarkLate (h : MembersOnly g s) (rid : Nat) : MembersOnly g (markLate rid s) :=
  (h.afterOnReq _ _).afterAddCause _ _

theorem MembersOnly.afterFinishReq (h : MembersOnly g s) (rid status count : Nat) (body : Bytes) :
    MembersOnly g (finishReq rid status count body s) := by
  unfold finishReq
  split
  · exact h
  · dsimp only
    split
    · split
      · exact h.afterOnReq _ _
      · exact (h.afterAddCause _ _).afterEndReq _ _ _ _ _
    · exact h.afterEndReq _ _ _ _ _

theorem MembersOnly.afterMemberFailed (h : MembersOnly g s) (rid : Nat) (f : Nat × Nat) :
    MembersOnly g (memberFailed rid f s) := by
  unfold memberFailed
  split
  · exact h
  · split
    · exact (h.afterOnReq _ _).afterAddCause _ _
    · exact h.afterEndReq _ _ _ _ _

/-- An attend counted, its causes added, and ended. -/
theorem MembersOnly.afterFinishCounted (h : MembersOnly g s) (rid obj n : Nat) (grade late : Bool) (body : Bytes) :
    MembersOnly g (finishReq rid 0 n body
      (whenS late (markLate rid) (whenS grade (addCause rid cGRADE) (bump obj s)))) := by
  have hcount := h.of_path (bump_path obj s)
  have hgrade := hcount.when (c := grade) (hcount.afterAddCause rid cGRADE)
  exact (hgrade.when (hgrade.afterMarkLate rid)).afterFinishReq _ _ _ _

theorem MembersOnly.afterFinishAttend (h : MembersOnly g s) (rid : Nat) : MembersOnly g (finishAttend rid s) := by
  unfold finishAttend
  cases req? s rid with
  | none => exact h
  | some r =>
    dsimp only
    cases ctxAt s r.obj with
    | none => exact h.afterEndReq _ _ _ _ _
    | some x =>
      dsimp only
      generalize (if r.acc.getD 0 0 ≠ 0 then markShort (cxDim x) (mergeAllMembers x r.out) else mergeAllMembers x r.out) = b
      split
      · exact h.afterEndReq _ _ _ _ _
      · exact h.afterFinishCounted _ _ _ _ _ _

theorem MembersOnly.afterAttendStep (h : MembersOnly g s) (rid : Nat) : MembersOnly g (attendStep rid s) := by
  unfold attendStep
  split
  · split
    · exact h.afterFinishAttend rid
    · exact h
  · exact h

theorem MembersOnly.afterHomeAttend (h : MembersOnly g s) (r : Req) (m : TMsg) : MembersOnly g (homeAttend r m s) := by
  have hcause := h.afterAddCause r.rid m.cause
  have hlate := hcause.when (c := m.cause &&& cLATE != 0) (hcause.afterOnReq r.rid (fun r => { r with late := true }))
  refine MembersOnly.afterAttendStep ?_ r.rid
  exact foldS_keeps (MembersOnly g) m.failed _ _ (fun f _ hu => hu.afterMemberFailed r.rid f) (hlate.afterOnReq r.rid _)

/-- A message of an attend's tree is nothing to a search but, in a reset, its end. -/
theorem gatewaySearch_path (r : Req) {m : TMsg} (hm : m.stage = 2) (s : State) : (gatewaySearch r m s).path = s.path := by
  have h0 : (decide (r.stage = 0) && decide (m.stage = 0)) = false := by simp [hm]
  have h1 : (decide (r.stage = 2) && decide (m.stage = 1)) = false := by simp [hm]
  unfold gatewaySearch
  dsimp only
  rw [h0, h1]
  split
  · exact failReq_path _ _ s
  · rfl

theorem MembersOnly.afterTakeAnswer (h : MembersOnly g s) (tag : Nat) {m : TMsg} (hm : m.stage = 2) :
    MembersOnly g (takeAnswer tag m s) := by
  unfold takeAnswer
  split
  · exact h
  · next r _ =>
    split
    · exact h
    · split
      · exact h.of_path (gatewaySearch_path r hm s)
      · split
        · exact h.afterHomeAttend r m
        · exact h

/-! ### A member's part run -/

theorem memberAnswer_stage (p : Part) (s : State) : (memberAnswer p s).1.stage = 2 := by
  unfold memberAnswer
  dsimp only
  split
  · rfl
  · split
    · rfl
    · split <;> rfl

theorem breakCtx_parts (k status : Nat) (s : State) : (breakCtx k status s).path.parts = s.path.parts := by
  unfold breakCtx
  split
  · rfl
  · split
    · rfl
    · rw [addNote_path, bump_path]; rfl

theorem headRecords_path (x : CtxS) (p : Part) (s : State) : (headRecords x p s).2.2.path = s.path :=
  Frame.same (frame_headRecords (m0 := 15496) x p s (by decide) (.refl s)).path rfl

theorem memberAnswer_parts (p : Part) (s : State) : (memberAnswer p s).2.path.parts = s.path.parts := by
  unfold memberAnswer
  dsimp only
  split
  · rfl
  · next x _ =>
    have hrec := headRecords_path x p s
    split
    · rfl
    · split
      · next heq => rw [heq] at hrec; rw [← hrec]
      · next heq => rw [heq] at hrec; rw [breakCtx_parts, ← hrec]

theorem MembersOnly.afterRunMember (h : MembersOnly g s) (p : Part) : MembersOnly g (runMember p s) := by
  have hrun : MembersOnly g (endAttend p.id (memberAnswer p s).2) := h.of_parts (memberAnswer_parts p s)
  have htree : ∀ (m : TMsg) (root tag : Nat), MembersOnly g (treeInput root tag 2 0 m
      (dropPart p.id (endAttend p.id (memberAnswer p s).2))) := fun m root tag =>
    (hrun.afterDropPart p.id).of_path (Frame.same (frame_treeInput (m0 := 16384) _ _ _ _ _ _ (by decide) (.refl _)).path rfl)
  have hstage := memberAnswer_stage p s
  unfold runMember
  dsimp only
  split
  · split
    · exact hrun.upd (f := fun q => { q with
        kind := q.kind + 8, par := (memberAnswer p s).1.inl, query := (memberAnswer p s).1.data, tiles := [] })
        (fun q => ⟨Nat.add_mod_right q.kind 8, rfl⟩) rfl
    · split
      · exact (hrun.afterDropPart p.id).afterTakeAnswer _ hstage
      · exact htree _ _ _
  · split
    · exact (hrun.afterDropPart p.id).afterTakeAnswer _ hstage
    · exact htree _ _ _

theorem MembersOnly.afterDriveMembers (h : MembersOnly g s) (fuel : Nat) : MembersOnly g (driveMembers fuel s) := by
  induction fuel generalizing s with
  | zero => exact h
  | succ n ih =>
    unfold driveMembers
    split
    · exact ih (h.afterRunMember _)
    · exact h

/-! ### Searches beside them -/

/-- A member's part is no part of a search. -/
theorem MembersOnly.driveParts_eq_self (h : MembersOnly g s) (fuel : Nat) : driveParts fuel s = s := by
  have hnone : s.path.parts.find? (partReady s) = none := List.find?_eq_none.2 fun q hq => by
    have hk := (h q hq).1
    have h0 : (q.kind == 0) = false := by simp only [beq_eq_false_iff_ne]; omega
    have h1 : (q.kind == 1) = false := by simp only [beq_eq_false_iff_ne]; omega
    simp [partReady, h0, h1]
  cases fuel with
  | zero => rfl
  | succ n => rw [driveParts, hnone]

theorem touchStacks_path (l : List Nat) (s : State) : (foldS l touchStack s).path = s.path :=
  Frame.same (frame_foldS (m0 := 128) (s0 := s) l touchStack s (by decide) (fun k u hu => frame_touchStack k u (by decide) hu)
    (.refl s)).path rfl

theorem setPass_parts (p : Pass) (s : State) : (setPass p s).path.parts = s.path.parts := by
  change (foldS (stacksIn s) touchStack s).path.parts = s.path.parts
  rw [touchStacks_path]

theorem startPass_parts (s : State) : (startPass s).path.parts = s.path.parts := by
  have hpatch : ∀ (o : Option Corp) (reg : Nat) (u : State),
      (optS o (fun c => patchPass c reg) u).path.parts = u.path.parts := by
    intro o reg u
    cases o with
    | none => rfl
    | some c => exact setPass_parts _ _
  unfold startPass
  split
  · rfl
  · split
    · exact hpatch _ _ _
    · split
      · rfl
      · split
        · exact setPass_parts _ _
        · rfl

theorem MembersOnly.afterMoveSearch (h : MembersOnly g s) : MembersOnly g (moveSearch s) := by
  rw [moveSearch, h.afterPruneParts.driveParts_eq_self]
  exact h.afterPruneParts.of_parts (startPass_parts _)

/-- Whatever of the read paths can move, only parts of attends with the same bytes are left. -/
theorem MembersOnly.afterMovePaths (h : MembersOnly g s) : MembersOnly g (movePaths s) := by
  unfold movePaths
  refine MembersOnly.afterMoveSearch (MembersOnly.afterDriveMembers ?_ _)
  exact h.afterPruneParts.of_parts rfl

end

end Sys2Proof.Machine
end

section
/-! PROOFS. AttendWrap: the statement on attends fails. An attend that names no token count covers every position applied
(Table 7-4); its part carries that count in four bytes, so that a session with 2^32 positions applied, which the statement does
not rule out (Table 7-2 bounds them far lower), enters a part for 0 positions, without the tail. -/
namespace Sys2Proof.Machine

/-- A profile of one layer and head of 64 elements. -/
def wrapProf : Prof :=
  ⟨3, 2, [0, 1, 1, 64, 1, 70] ++ leBytes 2 8 ++ leBytes 4 0x3F800000 ++ leBytes 1 1 ++ zeros 3, [(0, [])]⟩

/-- A session here with 2^32 positions applied and position 0 among its tokens. -/
def wrapCtx : CtxS :=
  { newCtx 77 3 wrapProf 8192 1 false [ownPost State.reset] with
    accepted := 2 ^ 32, applied := 2 ^ 32, folded := 2 ^ 32, toks := [(0, [])] }

/-- A CTX_ATTEND of it by SWEEP, of layer 0 and the zero query, its token count left open. -/
def wrapReq : Req :=
  { rid := 1, sid := 1, pm := 7, type := 0x0205, tenant := 3, level := .tenant, mgmt := false, queue := 0, cls := 1, obj := 77,
    body := zeros 2 ++ [1] ++ zeros 141, nseg := 1, at_ := 0, addr := ⟨0, false, 0, 0⟩, st := .admitted, admitted := 0,
    admitAt := 0, cause := 0, points := [], late := false, cancelBy := 0, stage := 0, items := [], awaits := [], threads := 0,
    rounds := 0, waits := [], acc := [], ents := [], out := [], ready := none }

/-- The node with that session and that request alone. -/
def wrapState : State :=
  { State.reset with
    hxt := { State.reset.hxt with reqs := [wrapReq], nextRid := 2 }
    path := { State.reset.path with ctx := [wrapCtx] } }

/-- The parts that a command leaves: kind and bytes held. -/
def partsLeft (o : Out) : List (Nat × SMap Bytes) :=
  match o with
  | .next t => t.path.parts.map (fun q => (q.kind, q.got))
  | _ => []

theorem wrapReq_admitted : Admitted wrapState 1 0x0205 wrapReq := ⟨rfl, rfl, rfl, by decide +kernel⟩

theorem wrapReq_ready : recentCount wrapState wrapCtx < 1024 ∧ (attendParam wrapReq.body wrapCtx).n = 2 ^ 32 := by
  decide +kernel

theorem wrapReq_part : partsLeft (exec (.ctxAttend 1) wrapState) = [(2, [])] := by decide +kernel

/-- Refutes O39: with 2^32 positions applied and no token count given, the part entered lacks the tail's position 0. -/
theorem not_attendsCoverTheirPositions : ¬ Obligations.AttendsCoverTheirPositions := by
  intro h
  obtain ⟨hroom, hn⟩ := wrapReq_ready
  obtain ⟨-, -, hbegin⟩ := (h wrapState).1 1 wrapReq wrapCtx wrapReq_admitted rfl rfl rfl (by decide +kernel) rfl
  obtain ⟨u, p, hexec, hparts, -, hkind, -, -, -, -, -, -, -, htail, -⟩ :=
    hbegin rfl rfl hroom (Nat.le_of_eq hn) rfl (fun q hq => nomatch hq)
  have hmembers : MembersOnly p.got u := fun q hq => by
    obtain rfl : q = p := by simpa [hparts, wrapState, State.reset] using hq
    exact ⟨by rw [hkind], rfl⟩
  have hleft : (2, []) ∈ partsLeft (.next (movePaths u)) := by
    rw [← hexec, wrapReq_part]
    exact List.mem_singleton_self _
  obtain ⟨q, hq, hgot⟩ := List.mem_map.1 hleft
  have hnil : p.got = [] := (hmembers.afterMovePaths q hq).2.symm.trans (congrArg Prod.snd hgot)
  have h0 := (htail 0).2 ⟨rfl, by decide, by rw [hn]; decide⟩
  rw [hnil] at h0
  exact absurd h0 (by decide)

end Sys2Proof.Machine
end

section
/-! PROOFS. AlignedWrites: normal writes of whole words, of any length, where no row stops them (R410, Table 5-10), and what they
count. -/
namespace Sys2Proof.Machine

/-- An aligned write of whole words that meets no broken or unsealed row stores its bytes with fresh check bits and seals the
rows it covers (R410, Table 5-10). -/
theorem demandWrite_aligned {w : Who} {atomic : Bool} {a : Nat} {b : Bytes} {s : State} (ha : a % 8 = 0) (hb : b.length % 8 = 0)
    (hr : inStack a = true → ∀ r, r ∈ rowsOf a b.length → rowBroken s r = false ∧ rowUnsealed s r = false) :
    demandWrite w atomic a b s = (0, foldS (if inStack a then wholeRows a b.length else []) (fun r => setUnsealed r false)
      (freshCheck a b.length (memWrite a b (accessStack a s)))) := by
  have hbroken : rowBroken (accessStack a s) = rowBroken s := funext fun r => by unfold rowBroken; rw [accessStack_mem]
  have hunsealed : rowUnsealed (accessStack a s) = rowUnsealed s := funext fun r => by unfold rowUnsealed; rw [accessStack_mem]
  have hpart : partWords a b.length = [] := by
    refine List.filter_eq_nil_iff.2 fun x hx => ?_
    have hx' := mem_upFrom.1 hx
    simp only [Bool.or_eq_true, decide_eq_true_eq]
    omega
  have hrows : ∀ r, r ∈ (if inStack a then rowsOf a b.length else []) → rowBroken s r = false ∧ rowUnsealed s r = false := by
    intro r hm
    split at hm
    · next hi => exact hr hi r hm
    · cases hm
  have hfind : ((if inStack a then rowsOf a b.length else []).filter (fun r =>
      !(if inStack a then wholeRows a b.length else []).contains r)).find? (rowBroken s) = none :=
    List.find?_eq_none.2 fun r hm => by simp [(hrows r (List.mem_filter.1 hm).1).1]
  have hany : (if inStack a then rowsOf a b.length else []).any (fun r =>
      rowUnsealed s r && !(if inStack a then wholeRows a b.length else []).contains r) = false :=
    List.any_eq_false.2 fun r hm => by simp [(hrows r hm).2]
  unfold demandWrite
  simp only [hbroken, hunsealed, hpart, hfind, hany]
  rfl

@[simp] theorem memByte_foldS_setUnsealed (l : List Nat) (u : Bool) (s : State) (i : Nat) :
    memByte (foldS l (fun r => setUnsealed r u) s) i = memByte s i :=
  foldS_keeps (fun v => memByte v i = memByte s i) l _ s (fun _ _ hv => hv) rfl

theorem Wrote.of_memByte {s u t : State} {a : Nat} {b : Bytes} (h : Wrote u t a b) (hu : ∀ x, memByte u x = memByte s x) :
    Wrote s t a b := fun x => by rw [h x, hu x]

theorem Wrote.of_mem {s u t : State} {a : Nat} {b : Bytes} (h : Wrote s u a b) (ht : t.mem = u.mem) : Wrote s t a b :=
  fun x => (memByte_congr (congrArg Mem.bytes ht) x).trans (h x)

/-- A normal access of a stack counts at most an access to a footprint (R131). -/
theorem accessStack_keeps (a : Nat) (s : State) : DirKeeps (fun j => j = ent 0x7010 6) s (accessStack a s) := by
  have hfoot : ∀ k o u, DirKeeps (fun j => j = ent 0x7010 6) u (countFoot k o u) := fun k o u => by
    unfold countFoot
    dsimp only
    split
    · exact .when fun _ => (DirKeeps.refl _ u).bump rfl
    · exact .refl _ u
  unfold accessStack
  split
  · exact (DirKeeps.of_dir_eq (s := s) (t := touchStack (a / 0x1000000000) s) rfl).trans (hfoot _ _ _)
  · exact .refl _ s

section
variable (w : Who) (atomic : Bool) {a : Nat} {b : Bytes} {s : State}
  (hr : inStack a = true → ∀ r, r ∈ rowsOf a b.length → rowBroken s r = false ∧ rowUnsealed s r = false)
  (ha : a % 8 = 0) (hb : b.length % 8 = 0)
include hr ha hb

theorem wrote_demandWrite_aligned : Wrote s (demandWrite w atomic a b s).2 a b := fun x => by
  rw [demandWrite_aligned ha hb hr, memByte_foldS_setUnsealed, memByte_freshCheck, memByte_memWrite,
    memByte_congr (congrArg Mem.bytes (accessStack_mem a s))]

theorem demandWrite_aligned_keeps : DirKeeps (fun j => j = ent 0x7010 6) s (demandWrite w atomic a b s).2 := by
  rw [demandWrite_aligned ha hb hr]
  refine (accessStack_keeps a s).congr ?_
  exact foldS_keeps (fun v => v.dir = (accessStack a s).dir) _ _ _ (fun _ _ hv => hv) rfl

end

end Sys2Proof.Machine
end

section
/-! PROOFS. HotRows: the moves and returns of hot rows (R202 to R204, Table 8-5). -/
namespace Sys2Proof.Machine

/-! ### Hot entries -/

theorem tabAt_congr {s u : State} (h : u.path.tabs = s.path.tabs) (k : Nat) : tabAt u k = tabAt s k := by unfold tabAt; rw [h]

/-- A table found in its slot, changed. -/
theorem tabAt_onTab {s : State} {k : Nat} {t : Tab} {f : Tab → Tab} (hf : ∀ x, (f x).slot = x.slot) (h : tabAt s k = some t) :
    tabAt (onTab k f s) k = some (f t) := by
  have hmap : tabAt (onTab k f s) k = (tabAt s k).map f := find?_updFirst (fun x hx => by simpa [hf] using hx) s.path.tabs
  rw [hmap, h, Option.map_some]

section
variable {s : State} {slot row : Nat} {t : Tab}

@[simp] theorem showHot_path (s : State) : (showHot s).path = s.path := dirSet_path _ _ s

@[simp] theorem showHot_mem (s : State) : (showHot s).mem = s.mem := dirSet_mem _ _ s

theorem dirNum_showHot {j : Nat} (hj : j ≠ ent 0xC060 9) (s : State) : dirNum (showHot s) j = dirNum s j := by
  unfold showHot
  rw [dirNum_dirSet, if_neg hj]

/-- A hot row in another state: its entry alone differs. -/
theorem tabAt_setHot (ht : tabAt s slot = some t) {h : Hot} (hh : hotOf t row = some h) (st : HotSt) :
    ∃ t', tabAt (setHot slot row st s) slot = some t' ∧ hotOf t' row = some { h with st := st } := by
  refine ⟨_, (tabAt_congr (congrArg Paths.tabs (showHot_path _)) slot).trans (tabAt_onTab (fun _ => rfl) ht), ?_⟩
  have hmap : hotOf { t with hot := updFirst (fun h => h.row == row) (fun h => { h with st := st }) t.hot } row =
      (hotOf t row).map (fun h => { h with st := st }) :=
    find?_updFirst (p := fun h : Hot => h.row == row) (f := fun h : Hot => { h with st := st }) (fun _ hx => hx) t.hot
  rw [hmap, hh, Option.map_some]

theorem setHot_mem (slot row : Nat) (st : HotSt) (s : State) : (setHot slot row st s).mem = s.mem := rfl

theorem dirNum_setHot {j : Nat} (hj : j ≠ ent 0xC060 9) (slot row : Nat) (st : HotSt) (s : State) :
    dirNum (setHot slot row st s) j = dirNum s j := dirNum_showHot hj _

/-- A table without its hot entries of a row. -/
def withoutHot (row : Nat) (t : Tab) : Tab := { t with hot := t.hot.filter (fun x => x.row != row) }

theorem hotOf_withoutHot (row : Nat) (t : Tab) : hotOf (withoutHot row t) row = none := by
  simp [hotOf, withoutHot, List.find?_eq_none]

/-- The row is then served in its stack. -/
theorem rowSite_withoutHot (row : Nat) (t : Tab) : rowSite (withoutHot row t) row = tabRow t row := by
  rw [rowSite, hotOf_withoutHot]
  rfl

/-! ### Moves -/

theorem entMax_moves : entMax (ent 0xC060 7) = 2 ^ 64 - 1 := by decide +kernel

theorem entMax_returns : entMax (ent 0xC060 8) = 2 ^ 64 - 1 := by decide +kernel

/-- A candidate moves to a free place of the hot store. -/
theorem hotMove_placed (hp : hotPlaces s (tbStride t) ≠ []) :
    ∃ p, p ∈ hotPlaces s (tbStride t) ∧ hotMove slot row t s =
      onTab slot (fun t => { t with hot := t.hot ++ [⟨row, .moving, p.1, 0x30000000000 + p.1 * 0x1000000 + p.2⟩] }) (draw s).2 := by
  unfold hotMove
  cases hl : hotPlaces s (tbStride t) with
  | nil => exact absurd hl hp
  | cons q l =>
    have hlt : Config.choose (draw s).1 (q :: l).length % (q :: l).length < (q :: l).length := Nat.mod_lt _ (Nat.succ_pos _)
    have hget : (q :: l).getD (Config.choose (draw s).1 (q :: l).length % (q :: l).length) (0, 0) ∈ q :: l := by
      rw [List.getD_eq_getElem?_getD, List.getElem?_eq_getElem hlt, Option.getD_some]
      exact List.getElem_mem hlt
    exact ⟨_, hget, rfl⟩

theorem exec_rowMove (ht : tabAt s slot = some t) (hc : (candidates s).contains (refCount t row, slot, row) = true)
    (hfirst : (candidates s).all (fun c => !movesBefore c (refCount t row, slot, row)) = true) (hb : s.path.hotBytes ≠ 0)
    (hmoving : (s.path.tabs.flatMap (fun t => t.hot.filter (fun h => h.st == .moving))).length < 64)
    (hm : mayMove s t = true) : exec (.rowMove slot row) s = .next (hotMove slot row t s) := by
  simp only [exec, execRowMove, ht]
  rw [if_pos]
  simp only [hc, hfirst, hm, decide_eq_true hmoving, decide_eq_true hb, Bool.and_self]

/-- An add half applied keeps its row where it is. -/
theorem exec_moves_partAdd (ht : tabAt s slot = some t) {h : Hot} (hh : hotOf t row = some h) (hp : partAdd t row = true) :
    exec (.moveDone slot row) s = .next s ∧ exec (.returnDone slot row) s = .next s := by
  simp [exec, execMoveDone, execReturnDone, ht, hh, hp]

/-! ### The copy to the hot store (Table 8-5, MOVING) -/

/-- A row copied to its place in the hot store. -/
def copiedOut (slot row : Nat) (t : Tab) (h : Hot) (s : State) : State :=
  setHot slot row .forwarded (bump (ent 0xC060 7)
    (demandWrite ⟨0, some (tbTenant t)⟩ false h.addr (fixedRead s (tabRow t row) (tbStride t)) (accessStack (tabRow t row) s)).2)

theorem exec_moveDone (ht : tabAt s slot = some t) {h : Hot} (hh : hotOf t row = some h) (hst : h.st = .moving)
    (hp : partAdd t row = false) (hup : bankUp s (tabRow t row) = true) (hc : Clean s (tabRow t row) (tbStride t)) :
    exec (.moveDone slot row) s = .next (moveTab slot (copiedOut slot row t h s)) := by
  simp only [exec, execMoveDone, ht, hh]
  rw [if_neg (by simp [hst, hp])]
  simp only [hup, if_true, demandRead_clean hc]
  rfl

theorem copiedOut_spec (ht : tabAt s slot = some t) {h : Hot} (hh : hotOf t row = some h) (ho : inStack h.addr = false)
    (ha : h.addr % 8 = 0) (hn : tbStride t % 8 = 0) :
    (∃ t', tabAt (copiedOut slot row t h s) slot = some t' ∧ hotOf t' row = some { h with st := .forwarded }) ∧
      Wrote s (copiedOut slot row t h s) h.addr (fixedRead s (tabRow t row) (tbStride t)) ∧
      dirNum (copiedOut slot row t h s) (ent 0xC060 7) = min (2 ^ 64 - 1) (dirNum s (ent 0xC060 7) + 1) := by
  have hb : (fixedRead s (tabRow t row) (tbStride t)).length % 8 = 0 := by rw [fixedRead_length]; exact hn
  have hr : inStack h.addr = true → ∀ r, r ∈ rowsOf h.addr (fixedRead s (tabRow t row) (tbStride t)).length →
      rowBroken (accessStack (tabRow t row) s) r = false ∧ rowUnsealed (accessStack (tabRow t row) s) r = false :=
    fun hi => absurd (ho.symm.trans hi) (by decide)
  refine ⟨tabAt_setHot ?_ hh _, ?_, ?_⟩
  · refine (tabAt_congr ?_ slot).trans ht
    rw [bump_path, demandWrite_path, accessStack_path]
  · have hw := (wrote_demandWrite_aligned ⟨0, some (tbTenant t)⟩ false hr ha hb).of_memByte
      (memByte_congr (congrArg Mem.bytes (accessStack_mem _ s)))
    exact hw.of_mem (by rw [copiedOut, setHot_mem, bump_mem])
  · have hk := (accessStack_keeps (tabRow t row) s).trans
      (demandWrite_aligned_keeps ⟨0, some (tbTenant t)⟩ false hr ha hb)
    rw [copiedOut, dirNum_setHot (by decide), dirNum_bump, if_pos rfl, hk.num (by decide), entMax_moves]

/-! ### The return (Table 8-5, RETURNING) -/

theorem exec_rowReturn (ht : tabAt s slot = some t) {h : Hot} (hh : hotOf t row = some h) :
    exec (.rowReturn slot row) s = .next
      (if h.st == .forwarded && decide (4 * refCount t row < dirNum s (ent 0xC060 2)) && mayMove s t then
        setHot slot row .returning s else s) := by
  simp only [exec, execRowReturn, ht, hh]

/-- A row copied back to its stack, without its entry in the hot store. -/
def copiedBack (slot row : Nat) (t : Tab) (h : Hot) (s : State) : State :=
  showHot (bump (ent 0xC060 8) (demandWrite ⟨0, some (tbTenant t)⟩ false (tabRow t row) (fixedRead s h.addr (tbStride t))
    (onTab slot (withoutHot row) s)).2)

/-- A row without a hot entry is written in its stack. -/
theorem writeRow_withoutHot (ht : tabAt s slot = some t) (hup : bankUp s (tabRow t row) = true) (w : Who) (atomic : Bool)
    (b : Bytes) : writeRow w atomic slot row 0 b (onTab slot (withoutHot row) s) =
      demandWrite w atomic (tabRow t row) b (onTab slot (withoutHot row) s) := by
  have htab : tabAt (onTab slot (withoutHot row) s) slot = some (withoutHot row t) := tabAt_onTab (fun _ => rfl) ht
  have hbank : bankUp (onTab slot (withoutHot row) s) (tabRow t row) = true := hup
  simp only [writeRow, htab, rowSite_withoutHot, Nat.add_zero, hbank, Bool.not_true, Bool.and_false, Bool.false_eq_true, if_false]

theorem exec_returnDone (ht : tabAt s slot = some t) {h : Hot} (hh : hotOf t row = some h) (hst : h.st = .returning)
    (hp : partAdd t row = false) (hup : bankUp s (tabRow t row) = true) (hc : Clean s h.addr (tbStride t))
    (ho : inStack h.addr = false) :
    exec (.returnDone slot row) s = .next (moveTab slot (copiedBack slot row t h s)) := by
  simp only [exec, execReturnDone, ht, hh]
  rw [if_neg (by simp [hst, hp])]
  simp only [demandRead_store ho hc]
  exact congrArg (fun z : Nat × State => Host.Outcome.next (moveTab slot (showHot (bump (ent 0xC060 8) z.2))))
    (writeRow_withoutHot ht hup _ _ _)

theorem copiedBack_spec (ht : tabAt s slot = some t) (h : Hot) (hc : Clean s (tabRow t row) (tbStride t))
    (ha : tabRow t row % 8 = 0) (hn : tbStride t % 8 = 0) :
    (∃ t', tabAt (copiedBack slot row t h s) slot = some t' ∧ hotOf t' row = none) ∧
      Wrote s (copiedBack slot row t h s) (tabRow t row) (fixedRead s h.addr (tbStride t)) ∧
      dirNum (copiedBack slot row t h s) (ent 0xC060 8) = min (2 ^ 64 - 1) (dirNum s (ent 0xC060 8) + 1) := by
  have hb : (fixedRead s h.addr (tbStride t)).length % 8 = 0 := by rw [fixedRead_length]; exact hn
  have hr : inStack (tabRow t row) = true → ∀ r, r ∈ rowsOf (tabRow t row) (fixedRead s h.addr (tbStride t)).length →
      rowBroken (onTab slot (withoutHot row) s) r = false ∧ rowUnsealed (onTab slot (withoutHot row) s) r = false := by
    rw [fixedRead_length]
    exact hc.rows
  refine ⟨⟨withoutHot row t, ?_, hotOf_withoutHot row t⟩, ?_, ?_⟩
  · refine (tabAt_congr ?_ slot).trans (tabAt_onTab (f := withoutHot row) (fun _ => rfl) ht)
    rw [copiedBack, showHot_path, bump_path, demandWrite_path]
  · have hw := (wrote_demandWrite_aligned ⟨0, some (tbTenant t)⟩ false hr ha hb).of_memByte
      (s := s) (fun _ => rfl)
    exact hw.of_mem (by rw [copiedBack, showHot_mem, bump_mem])
  · have hk := demandWrite_aligned_keeps ⟨0, some (tbTenant t)⟩ false
      (s := onTab slot (withoutHot row) s) hr ha hb
    rw [copiedBack, dirNum_showHot (by decide), dirNum_bump, if_pos rfl, hk.num (by decide), entMax_returns]
    rfl

end

/-- Settles O41: each transition changes the row's hot entry, and the two copies write whole aligned rows that no error stops. -/
theorem hotRowsMoveWhole : Obligations.HotRowsMoveWhole := by
  intro s slot row t ht
  refine ⟨fun hc hfirst hb hmoving hm hn hp => ?_, fun h hh => ⟨exec_moves_partAdd ht hh, ?_, ?_, ?_, ?_⟩⟩
  · obtain ⟨⟨c, o⟩, hmem, hmove⟩ := hotMove_placed (row := row) (slot := slot) hp
    have htab : tabAt (draw s).2 slot = some t := ht
    refine ⟨_, _, c, o, (exec_rowMove ht hc hfirst hb hmoving hm).trans (congrArg _ hmove), hmem,
      tabAt_onTab (fun _ => rfl) htab, ?_, rfl, rfl⟩
    exact List.find?_append.trans (by rw [show t.hot.find? (fun h => h.row == row) = none from hn]; simp)
  · intro hst hp hup hc ho ha hn
    obtain ⟨⟨t', htab, hhot⟩, hwrote, hcount⟩ := copiedOut_spec ht hh ho ha hn
    exact ⟨_, t', exec_moveDone ht hh hst hp hup hc, htab, hhot, hwrote, hcount⟩
  · intro hst hlow hm
    obtain ⟨t', htab, hhot⟩ := tabAt_setHot ht hh .returning
    exact ⟨_, t', (exec_rowReturn ht hh).trans (by rw [if_pos (by simp [hst, hlow, hm])]), htab, hhot, rfl, rfl⟩
  · intro hlow
    rw [exec_rowReturn ht hh, if_neg (by simp [Nat.not_lt.2 hlow])]
  · intro hst hp hup hc hch ho ha hn
    obtain ⟨⟨t', htab, hhot⟩, hwrote, hcount⟩ := copiedBack_spec ht h hc ha hn
    exact ⟨_, t', exec_returnDone ht hh hst hp hup hch ho, htab, hhot, hwrote, hcount⟩

end Sys2Proof.Machine
end

section
/-! PROOFS. TableCreatePort: the statement on tables and batches fails. A create starts its slot's counters at 0, and the model
numbers entries by index and sub alone: the link state of sub-port 0xFC0, which the statement does not rule out (R297 gives a
port three bits), is entry 0xC0C0:02, the sentinel counter of slot 0. A create that came by that sub-port takes its link down,
so that the receipt the statement asks for is dropped. -/
namespace Sys2Proof.Machine

section
variable {s : State} {rid : Nat} {r : Req}

/-- A request that ends while its sub-port is down sends nothing (R312). -/
theorem endReq_out_of_portDown (h : req? s rid = some r) (hp : portUp s r.addr.port = false) (status count detail : Nat)
    (body : Bytes) : (endReq rid status count detail body s).hxt.out = s.hxt.out := by
  have hk := closeWork_keeps r rid status (receiptFor r status count detail body) s
  have hout := closeWork_out r rid status (receiptFor r status count detail body) s
  have hport := (portUp_of_keeps hk (not_receiptCounter_port r status r.addr.port)).trans hp
  rw [endReq_eq h]
  generalize closeWork r rid status (receiptFor r status count detail body) s = u at *
  show (optS (sess? u r.sid) _ u).hxt.out = s.hxt.out
  cases sess? u r.sid with
  | none => exact hout
  | some x =>
    rw [optS_some, postReceipt, if_neg (by simp [hport]), bump_hxt]
    exact hout

/-- The bytes per stack that a create asks for (R187). -/
def createLen (r : Req) : Nat :=
  tabLen (fieldLE r.body 0 8) (strideOf (fieldLE r.body 8 2) (if fieldLE r.body 10 1 = 1 then 2 else 4))

/-- A create that its limits allow and that finds a place enters the table and ends. -/
theorem exec_embTableCreate_placed (ha : Admitted s rid 0x0301 r) {k a : Nat} {u : State} (ht : tab? s r.tenant r.obj = none)
    (hn : (s.path.tabs.filter (fun x => tbTenant x == r.tenant)).length < dirNum s (ent (0x3100 + r.tenant) 0xA))
    (hq : overT1 s r.tenant (createLen r) = false) (hk : freeTabSlot s = some k) (hr : ownRole s roleTables = true)
    (hp : placeT1 (createLen r) 4096 r.tenant 2 k s = some (a, u)) :
    exec (.embTableCreate rid) s =
      .next (endReq rid 0 1 0 (leBytes 1 k ++ zeros 7) (enterTab r k a (createLen r) u)) := by
  have hstep : createTable r s = endReq r.rid 0 1 0 (leBytes 1 k ++ zeros 7) (enterTab r k a (createLen r) u) := by
    unfold createLen at *
    simp [createTable, ht, Nat.not_le.2 hn, hq, hk, hr, hp]
  rw [ha.rid_eq] at hstep
  exact congrArg Host.Outcome.next ((onAdmitted_of ha _).trans hstep)

theorem dirNum_with_path (s : State) (p : Paths) (j : Nat) : dirNum { s with path := p } j = dirNum s j := rfl

/-- A table that is entered starts its slot's counters at 0, that of sentinel indices among them (Table 8-9). -/
theorem dirNum_enterTab_sentinels (r : Req) (k a len : Nat) (s : State) :
    dirNum (enterTab r k a len s) (ent (0xC0C0 + k) 2) = 0 := by
  have hne : ∀ i, i ≠ 2 → ent (0xC0C0 + k) 2 ≠ ent (0xC0C0 + k) i := fun i hi => by unfold ent; omega
  have hzero : ∀ i v, dirNum v (ent (0xC0C0 + k) 2) = 0 → dirNum (dirSet (ent (0xC0C0 + k) i) 0 v) (ent (0xC0C0 + k) 2) = 0 := by
    intro i v hv
    rw [dirNum_dirSet, hv, ite_self]
  unfold enterTab
  dsimp only
  rw [dirNum_with_path, dirNum_dirPut_ne _ _ _ _ (hne 1 (by decide)), foldS_cons]
  exact foldS_keeps (fun v => dirNum v (ent (0xC0C0 + k) 2) = 0) [3, 4, 5, 6, 7, 8] _ _ hzero (dirNum_dirSet_self _ 0 _)

end

/-! ### The state -/

/-- The sub-port whose link state has the object number of the sentinel counter of slot 0: 0xB100 + 0xFC0 = 0xC0C0. -/
def farPort : Nat := 0xFC0

/-- An EMB_TABLE_CREATE of eight rows of sixteen fp32 elements that came by that sub-port. -/
def farReq : Req :=
  { rid := 1, sid := 1, pm := 7, type := 0x0301, tenant := 3, level := .tenant, mgmt := false, queue := 0, cls := 1, obj := 5,
    body := leBytes 8 8 ++ leBytes 2 16 ++ zeros 6, nseg := 1, at_ := 0, addr := ⟨farPort, false, 0, 0⟩, st := .admitted,
    admitted := 0, admitAt := 0, cause := 0, points := [], late := false, cancelBy := 0, stage := 0, items := [], awaits := [],
    threads := 0, rounds := 0, waits := [], acc := [], ents := [], out := [], ready := none }

/-- Its session. -/
def farSess : Sess := ⟨1, .tenant, 3, false, 3, false, 0, 8192, [], 0, [], ⟨farPort, false, 0, 0⟩, 0, none⟩

/-- The node, of role FULL, with room for tables of tenant 3; one sentinel index has been counted in slot 0. -/
def farState : State :=
  dirSet (ent 0x2010 2) 0 (dirSet (ent 0x3103 0xA) 4 (dirSet (ent 0x3103 5) 16 (dirSet (ent 0xC0C0 2) 1
    { State.reset with hxt := { State.reset.hxt with reqs := [farReq], sessions := [farSess], nextRid := 2 } })))

theorem farReq_admitted : Admitted farState 1 0x0301 farReq := ⟨by decide +kernel, rfl, rfl, by decide +kernel⟩

theorem farReq_allowed : tab? farState 3 5 = none ∧
    (farState.path.tabs.filter (fun x => tbTenant x == 3)).length < dirNum farState (ent 0x3103 0xA) ∧
    overT1 farState 3 (createLen farReq) = false ∧ freeTabSlot farState = some 0 ∧ ownRole farState roleTables = true := by
  decide +kernel

/-- Wherever the choice falls, there is a place. -/
theorem farReq_placed : ∃ a u, placeT1 (createLen farReq) 4096 3 2 0 farState = some (a, u) := by
  have hfree : ¬ freeT1 farState < createLen farReq * (stacksIn farState).length := by decide +kernel
  have hrooms : (gaps 0 ((takenRanges farState).foldr insRange [])).map (gapRoom (createLen farReq) 4096) =
      [(0, 16760832), (0x1000000000, 0)] := by decide +kernel
  have hpick : ∀ n, pickBase 4096 [(0, 16760832), (0x1000000000, 0)] (n % 16760832) = some (0 + n % 16760832 * 4096) :=
    fun n => if_pos (Nat.mod_lt n (by decide))
  have htotal : ([(0, 16760832), (0x1000000000, 0)].map (fun p : Nat × Nat => p.2)).foldl (fun a b => a + b) 0 = 16760832 := rfl
  unfold placeT1
  rw [hrooms]
  dsimp only
  rw [htotal, if_neg (not_or_intro hfree (by decide)), hpick]
  exact ⟨_, _, rfl⟩

theorem farReq_sends :
    (packetsOf 2 3 1 (epoch farState) 7 8192 none (receiptFor farReq 0 1 0 (leBytes 1 0 ++ zeros 7))).length = 1 := by
  decide +kernel

/-- Refutes O40: the create resets the counter that the sub-port's link state shares, and its receipt is not sent. -/
theorem not_tablesAndBatches : ¬ Obligations.TablesAndBatches := by
  intro h
  obtain ⟨hnew, hn, hq, hk, hr⟩ := farReq_allowed
  obtain ⟨a, u, hp⟩ := farReq_placed
  obtain ⟨-, hcreate⟩ := (h farState).1 1 farReq farReq_admitted
  obtain ⟨t, hexec, hrec, -⟩ := hcreate 0 a u hnew hn hq hk hr hp (fun q hq => nomatch hq)
  obtain rfl := Host.Outcome.next.inj (hexec.symm.trans (exec_embTableCreate_placed farReq_admitted hnew hn hq hk hr hp))
  have hv : Frame 1150984 farState (enterTab farReq 0 a (createLen farReq) u) :=
    frame_enterTab _ _ _ _ _ (by decide) (frame_placeT1 _ _ _ _ _ _ (by decide) (.refl farState) _ hp)
  have hdown : portUp (enterTab farReq 0 a (createLen farReq) u) farPort = false := by
    unfold portUp
    rw [show ent (0xB100 + farPort) 2 = ent (0xC0C0 + 0) 2 from rfl, dirNum_enterTab_sentinels]
    rfl
  have hreq := (req?_congr (Frame.same hv.hxt rfl) 1).trans farReq_admitted.1
  have hquiet := endReq_out_of_portDown hreq hdown 0 1 0 (leBytes 1 0 ++ zeros 7)
  rw [Frame.same hv.hxt rfl] at hquiet
  have hsent := hrec.sent farSess (by decide +kernel) (by decide +kernel)
  have hlen := congrArg List.length (hquiet.symm.trans hsent)
  rw [List.length_append, List.length_map] at hlen
  exact absurd (hlen.trans (congrArg _ farReq_sends)) (by decide +kernel)

end Sys2Proof.Machine
end
